-- ==== Sys2Proof/Word.lean ====
section
/-! DEFINITION. The word types of the module (00_scope R11): 32-bit words, bytes, little-endian order. -/

namespace Sys2Proof

/-- A byte of a memory, a frame or a record. -/
abbrev Byte := BitVec 8

/-- A 32-bit register or memory word (00_scope R11, 12_host_mailbox R396). -/
abbrev Word := BitVec 32

end Sys2Proof
end

