-- ==== Sys2Proof/Machine/SMap.lean ====
section
/-! DEFINITION. Sparse tables by number: a list of (key, value) pairs in one canonical form (keys strictly rising,
no entry equal to what an unlisted key reads as), with one read and one write. -/

namespace Sys2Proof.Machine

/-- A sparse table: pairs of a key and its value. -/
abbrev SMap (α : Type) := List (Nat × α)

/-- The value at a key; an unlisted key reads as `d` says. -/
def smapGet {α : Type} (d : Nat → α) : SMap α → Nat → α
  | [], k => d k
  | (j, v) :: m, k => if j = k then v else smapGet d m k

/-- The table without its entry at a key. -/
def smapErase {α : Type} (k : Nat) : SMap α → SMap α
  | [] => []
  | (j, v) :: m => if j = k then smapErase k m else (j, v) :: smapErase k m

/-- The table with an entry put before the first larger key. -/
def smapInsert {α : Type} (k : Nat) (v : α) : SMap α → SMap α
  | [] => [(k, v)]
  | (j, w) :: m => if k < j then (k, v) :: (j, w) :: m else (j, w) :: smapInsert k v m

/-- The table after a write; writing what an unlisted key reads as removes the entry. -/
def smapSet {α : Type} [DecidableEq α] (d : Nat → α) (m : SMap α) (k : Nat) (v : α) : SMap α :=
  if v = d k then smapErase k m else smapInsert k v (smapErase k m)

/-- Whether every key of the table lies above a bound. -/
def smapAbove {α : Type} (b : Nat) : SMap α → Bool
  | [] => true
  | (j, _) :: m => b < j && smapAbove b m

/-- The canonical form: keys strictly rising, no entry equal to what an unlisted key reads as. -/
def smapWf {α : Type} [DecidableEq α] (d : Nat → α) : SMap α → Bool
  | [] => true
  | (j, v) :: m => decide (v ≠ d j) && smapAbove j m && smapWf d m

end Sys2Proof.Machine
end

