-- ==== Sys2Proof/Machine/LaneState.lean ====
section
/-! DEFINITION. State of the lane tasks and of what two modules exchange of it: the variables of CURFLD, OUTER and
LIMSHARE (03, 04, 05, 08), and the state block of a pair (09 R325), which carries them. -/

namespace Sys2Proof.Machine

/-- What a committed carrier applied to the machine (03 R113). -/
inductive CarrierKind where
  /-- Phase channels modulated. -/
  | modulated
  /-- No phase channel modulated: all off, rest, STOP or precharge. -/
  | idle
  /-- The ASC pattern. -/
  | asc
  deriving DecidableEq, Repr

/-- A committed carrier: its start, its length, its d/q voltage as applied. -/
structure Carrier where
  start : Nat
  len : Nat
  vd : Rat
  vq : Rat
  kind : CarrierKind
  deriving DecidableEq, Repr

/-- The level of a leg as the schedules committed so far leave it (03 R127). -/
inductive LegLevel where
  | off | low | high
  deriving DecidableEq, Repr

/-- A refresh compensation that waits to be applied (03 R137): the leg, the part left, the carriers it may still take. -/
structure VsResidue where
  leg : Nat
  part : Rat
  left : Nat
  deriving DecidableEq, Repr

/-- The edge scheduler outside its registers (03 R121–R137). -/
structure PwState where
  level : Vector LegLevel 3 := Vector.replicate 3 .off
  gkOn : Bool := false
  /-- The last committed turn-off of each channel, in eighths of a cyc of TB. -/
  lastOff : Vector Nat 7 := Vector.replicate 7 0
  /-- A schedule has been committed since the reset of the PW block (02 R75). -/
  committed : Bool := false
  carriers : List Carrier := []
  residues : List VsResidue := []
  /-- Refresh compensations that CURFLD has posted since the last commit, by leg (03 R137). -/
  due : Vector Rat 3 := Vector.replicate 3 0
  /-- PW.MODE as the last commit took it (R124), and whether that commit was of a real schedule (R140). -/
  mode : Nat := 0
  running : Bool := false
  /-- Carriers in a row with a late edge, and the last carrier that had one (R135). -/
  lateRun : Nat := 0
  lateSeq : Option Nat := none
  /-- Chopper activity (05 R206); the span of GK full on (05 R208): its start, vdc of the tick it began in, and its end once a
  carrier that is not full has been committed. -/
  chact : Bool := false
  span : Option (Nat × Option Rat × Option Nat) := none
  deriving DecidableEq, Repr

/-- State and posted outputs of CURFLD (03 R108–R120). -/
structure CfState where
  xd : Rat := 0
  xq : Rat := 0
  /-- Rotor flux and flux angle of the induction-machine model (R110), the angle in turns. -/
  psir : Rat := 0
  /-- The flux reference ψr* of this run. -/
  psirRef : Rat := 0
  flux : Rat := 0
  /-- The integrator y of field weakening (R118). -/
  fw : Rat := 0
  vd : Rat := 0
  vq : Rat := 0
  u : Vector Rat 3 := Vector.replicate 3 0
  /-- Predicted phase currents. -/
  ip : Vector Rat 3 := Vector.replicate 3 0
  delta : Vector Rat 3 := Vector.replicate 3 0
  torque : Rat := 0
  idRef : Rat := 0
  iqRef : Rat := 0
  imd : Rat := 0
  imq : Rat := 0
  /-- The predicted d/q currents, iα, iβ, vdc of the run and Δid, as traced (15 R480). -/
  ipd : Rat := 0
  ipq : Rat := 0
  ia : Rat := 0
  ib : Rat := 0
  vdc : Rat := 0
  did : Rat := 0
  thetaE : Rat := 0
  thetaMid : Rat := 0
  omegaE : Rat := 0
  /-- The size of the voltage reference before the clamp, as field weakening sees it in the next tick. -/
  vsMag : Rat := 0
  vsat : Bool := false
  vsatQ : Bool := false
  fwOn : Bool := false
  fwsat : Bool := false
  ilim : Bool := false
  /-- Ticks in a row above SD.ISUMLIM, and the sum of the tick (R108). -/
  isumRun : Nat := 0
  isum : Rat := 0
  isumRaised : Bool := false
  /-- Back-EMF angles of the last 8 ticks, newest first, speed, amplitude and validity (R112). -/
  emf : List Rat := []
  emfOmega : Rat := 0
  emfAmp : Rat := 0
  emfValid : Bool := false
  /-- The q voltage that a flying start presets into the committed-voltage history (04 R175). -/
  preset : Option Rat := none
  deriving DecidableEq, Repr

/-- State and posted outputs of OUTER (04 R142–R178). -/
structure OlState where
  /-- Pending setpoint records, one slot per kind 1–8, at the kind (R147). -/
  slots : SMap (List Byte) := []
  /-- Setpoints in force. -/
  speedRef : Rat := 0
  torqueRef : Rat := 0
  tensionRef : Rat := 0
  positionRef : Int := 0
  curveIn : Rat := 0
  ceilM : Option Rat := none
  ceilG : Option Rat := none
  /-- The newest lever value and the ticks since it came; the newest load-pin value and the TB of its measurement (R148). -/
  lever : Rat := 0
  leverAge : Nat := 0
  leverSeen : Bool := false
  leverStale : Bool := false
  loadPin : Rat := 0
  loadPinStamp : Nat := 0
  loadPinSeen : Bool := false
  loadPinStale : Bool := false
  /-- Heave: newest sample (displacement, velocity, TB), acceleration, and the blend and fade (R167–R169). -/
  hvSeen : Bool := false
  hvZ : Rat := 0
  hvV : Rat := 0
  hvStamp : Int := 0
  hvA : Rat := 0
  hvStepZ : Rat := 0
  hvStepV : Rat := 0
  hvBlend : Nat := 0
  hvStale : Bool := false
  hvFrozenZ : Rat := 0
  hvFrozenV : Rat := 0
  hvFade : Nat := 0
  hvOutZ : Rat := 0
  hvOutV : Rat := 0
  deriving DecidableEq, Repr

/-- Loops, ramp, observer, compliance and start of OUTER (04 R149–R178). -/
structure OlLoop where
  ramp : Rat := 0
  target : Rat := 0
  targetHeld : Bool := false
  slope : Rat := 0
  tRef : Rat := 0
  pTraj : Rat := 0
  wTraj : Rat := 0
  xs : Rat := 0
  xt : Rat := 0
  xp : Rat := 0
  /-- The speed loop is held in the direction that would raise |T*| (R151). -/
  holdUp : Bool := false
  tdem : Rat := 0
  wref : Rat := 0
  /-- The speed reference of the tension or position path, without the heave term. -/
  wPath : Rat := 0
  /-- Turn-on hysteresis of the command curve: 0 off, 1 positive, 2 negative (R160). -/
  hyst : Nat := 0
  /-- Observer: speed estimate, load torque, its last four values (R162). -/
  wh : Rat := 0
  tl : Rat := 0
  tlHist : List Rat := []
  rate : Rat := 0
  /-- Shock flag and ticks below the exit rate (R163). -/
  shock : Bool := false
  calm : Nat := 0
  /-- Compliance (R164, R165). -/
  compl : Bool := false
  cylim : Bool := false
  recov : Bool := false
  y : Rat := 0
  /-- The heave speed term of the previous tick (R168). -/
  hvRef : Rat := 0
  wHold : Rat := 0
  fHold : Rat := 0
  ceil : Bool := false
  ceilest : Bool := false
  heave : Bool := false
  /-- START of LN.OL_STAT; TB at which a flux build began (R176, R178). -/
  start : Nat := 0
  buildAt : Nat := 0
  wavg : Rat := 0
  wHist : List Rat := []
  /-- The path whose state is in force: the mode last run, 0 none (R173). -/
  path : Nat := 0
  /-- The demand before the share of a consist or a pair is taken (08 R301, 09 R330), and the own ceilings (R159). -/
  d : Rat := 0
  cpos : Rat := 0
  cneg : Rat := 0
  /-- Step 1 of R158 did not limit the torque in this tick (R178). -/
  unlimited : Bool := false
  /-- The position offset that a compliance in PAYOUT leaves (R165). -/
  shift : Rat := 0
  /-- What this run asks at its posting: a refusal (the RESULT), a brake release, a change to the degraded path, a shock (1 rising,
  2 falling), the yield limit just reached. -/
  refuse : Option Nat := none
  askRelease : Bool := false
  askPath : Bool := false
  shockDet : Nat := 0
  cylimNew : Bool := false
  /-- Speed-loop output, tension measurement, position error, yield speed, heave speed term and cogging term of the run, as traced
  (15 R480). -/
  u : Rat := 0
  fMeas : Rat := 0
  posErr : Rat := 0
  yd : Rat := 0
  wHeave : Rat := 0
  tcog : Rat := 0
  deriving DecidableEq, Repr

/-- Posted outputs of LIMSHARE (02 R76, 05 R194, R207; 08 R304–R309). -/
structure LimState where
  ascarm : Bool := false
  regen : Rat := 0
  /-- The share state (08 R307, R308) and the offset that goes with it (R303), N·m. -/
  share : Rat := 0
  ofs : Rat := 0
  /-- Duties of U, V and W, zero-sequence term and chopper duty of the last schedule, as traced (15 R480). -/
  du : Vector Rat 3 := Vector.replicate 3 0
  u0 : Rat := 0
  dch : Rat := 0
  deriving DecidableEq, Repr

/-- The state block of the partner module as the mirror engine delivers it (09 R325), with what the transport adds: whether
its CRC holds, whether it was complete before the boundary, and the silicon stepping of its sender (R323). -/
structure PairBlock where
  sn : Nat := 0
  tbl : Nat := 0
  hbseq : Nat := 0
  serial : Nat := 0
  side : Bool := false
  conf : Nat := 0
  state : Nat := 0
  mode : Nat := 0
  sub : Nat := 0
  degraded : Bool := false
  release : Bool := false
  own : Bool := false
  fwpend : Bool := false
  bankB : Bool := false
  carry : Bool := false
  takeok : Bool := false
  held : Nat := 0
  rest : Bool := false
  period : Nat := 0
  share : Nat := 0
  d : Rat := 0
  tstar : Rat := 0
  te : Rat := 0
  cpos : Rat := 0
  cneg : Rat := 0
  joinsn : Nat := 0
  pfb : Nat := 0
  crcOk : Bool := true
  complete : Bool := true
  step : Nat := 0
  /-- The nominal share PM.SHARE of the sender: pairing compares it (R331), and the layout of R325 shows the effective one only. -/
  nomShare : Nat := 0x4000
  /-- The address of a byte of it in the shadow whose parity bit is wrong (02 R71). -/
  parity : Option Nat := none
  /-- What the task sections hold. -/
  cf : CfState := {}
  ol : OlState := {}
  olp : OlLoop := {}
  lim : LimState := {}
  pw : PwState := {}
  deriving DecidableEq, Repr

end Sys2Proof.Machine
end

