-- ==== Sys2Proof/Syntax.lean ====
section
/-! DEFINITION. The commands of the module, whole: one constructor per row of the table of steps, with the data that
reaches the module from outside in that step as operands. -/

namespace Sys2Proof

/-- What an ENUM cell says (08 R295): the spec gives its payload no bytes (assumption log 19). -/
inductive EnumMsg where
  /-- Asks the neighbour who it is. -/
  | probe
  /-- The neighbour's answer: its serial, its preferred ID, the ID it holds, its role epoch, the port it answers through. -/
  | identity (serial : BitVec 48) (pref id : BitVec 11) (epoch : BitVec 16) (port : Fin 4)
  /-- The root asks a unit to probe a port of its own. -/
  | ask (port : Fin 4)
  /-- A unit tells the root what answered at its port. -/
  | found (port : Fin 4) (serial : BitVec 48) (pref id : BitVec 11) (epoch : BitVec 16) (far : Fin 4)
  /-- A unit tells the root that nothing answers at its port. -/
  | nothing (port : Fin 4)
  /-- The neighbour takes an ID. -/
  | assign (id : BitVec 11)
  /-- The root asks a unit to give the neighbour at its port an ID. -/
  | give (port : Fin 4) (id : BitVec 11)
  /-- A unit tells the root that a port of its own has come up or gone down. -/
  | link (port : Fin 4) (up : Bool)
  /-- A head tells the root of a unit that has joined or left its consist, the head itself included. -/
  | consist (number : Fin 128) (uid : BitVec 11) (slot : Fin 64) (joined : Bool)
  deriving DecidableEq, Repr

/-- What a MGMT cell says (08 R287, R295, R320; assumption log 19). -/
inductive MgmtMsg where
  | route (uid : Fin 1024) (valid : Bool) (port : Fin 4)
  | mask (consist : Fin 128) (ports : BitVec 4)
  /-- Whether the closed ring passes through the unit, by which ports, and the ports to block. -/
  | ring (closed : Bool) (ports blocked : BitVec 4)
  deriving DecidableEq, Repr

/-- What a CONSIST cell says (08 R302, R303; assumption log 19). -/
inductive ConsistMsg where
  /-- The head offers a slot: join tick J in SN, the head's epoch, whether the unit is the deputy, the head's P and BL.WIN word,
  BL.CS_NSOFS. -/
  | offer (consist : Fin 128) (slot : Fin 64) (sn : BitVec 32) (headEpoch : BitVec 16) (deputy : Bool) (period : BitVec 15) (win : Word)
      (nsofs : BitVec 16)
  /-- The member answers: the epoch it will hold from J, its share scale. -/
  | accept (epoch : BitVec 16) (tsc : BitVec 32)
  /-- The unit cannot join, with the status of R302. -/
  | refuse (status : Byte)
  /-- The head removes the unit. -/
  | remove
  /-- The unit has left, with its epoch after removal. -/
  | removed (epoch : BitVec 16)
  /-- The head copies a slot of its map to the deputy; a slot without a unit is free. -/
  | copy (slot : Fin 64) (uid : BitVec 11) (epoch weight : BitVec 16) (tsc : BitVec 32)
  /-- The head names the deputy, with its epoch. -/
  | deputy (uid : BitVec 11) (epoch : BitVec 16)
  /-- The head sets BL.CS_NSOFS. -/
  | nsofs (n : BitVec 16)
  deriving DecidableEq, Repr

/-- What a SYNC cell says (08 R289, R292): the root's TB at its launch, P, the correction in eighths of a cyc, the root's serial and
whether it is a standby root. -/
structure SyncMsg where
  tb : Nat
  period : Nat
  corr : Nat
  serial : BitVec 48
  standby : Bool
  deriving DecidableEq, Repr

/-- What a cell says whose payload the spec gives no bytes (assumption log 19). -/
inductive LinkMsg where
  | sync (m : SyncMsg)
  | delayReq
  /-- The time the request stayed in the answering port, in eighths of a cyc. -/
  | delayResp (stay : Nat)
  | enum (m : EnumMsg)
  | consist (m : ConsistMsg)
  | mgmt (m : MgmtMsg)
  deriving DecidableEq, Repr

/-- Where an error of a task run is detected (02 R69). -/
inductive LaneFault where
  /-- The lane's register file, during the task. -/
  | registerFile
  /-- A residue check. -/
  | residue
  /-- Lane data: a state variable that the task reads. -/
  | stateRead
  /-- Lane data: an output of an earlier task. -/
  | upstream
  /-- The own state block, during the state reload of a recomputation: the byte's address. -/
  | ownBlock (addr : BitVec 32)
  deriving DecidableEq, Repr

/-- What a run of a task meets (02 R69): the error that aborts it, with its offset after the task's start, and the parity errors
of its table reads, as table ID, offset after the task's start and byte address. -/
structure TaskRun where
  fault : Option (LaneFault × Nat) := none
  tables : List (Fin 10 × Nat × BitVec 32) := []
  deriving DecidableEq, Repr

/-- A frame received from a CAN bus (11 R374, R381): the fields of its record, and how many cyc ago its start-of-frame edge was
detected (R387). -/
structure CanFrame where
  xtd : Bool
  rtr : Bool
  fdf : Bool
  brs : Bool
  esi : Bool
  id : BitVec 29
  dlc : Fin 16
  data : List Byte
  sofAge : Nat
  deriving DecidableEq, Repr

/-- How a transmission ends (11 R385). -/
inductive CanEnd where
  | sent
  | arbitrationLost
  | error
  deriving DecidableEq, Repr

/-- An error on a CAN bus, by what ISO 11898-1 has it count (11 R389, R391): 1 or 8 in the receive counter, 8 in the transmit counter,
nothing; or a recessive res bit. -/
inductive CanErr where
  | receive
  | receiveEight
  | transmit
  | uncounted
  | resRecessive
  deriving DecidableEq, Repr

/-- The first failure that a BIST job finds (15 R472): a lane's unit, register or pattern and bit; an SRAM byte and bit; a byte offset
in the Granary and bit; a gate channel and item. -/
inductive BistFail where
  | lane (unit : Fin 7) (index : BitVec 24) (bit : Byte)
  | sram (addr : BitVec 32) (bit : Fin 9)
  | granary (offset : BitVec 33) (bit : Fin 528)
  | gate (channel : Fin 7) (item : Fin 8)
  deriving DecidableEq, Repr

/-- A command descriptor as the firmware has popped it (12 R408): its queue and count, its fields, the address of a parity error met in
it, or in the bulk data it names (12 R419; 02 R71). -/
structure Desc where
  queue : Fin 4
  dseq : BitVec 16
  flags : Byte
  reserved : Byte
  handle : BitVec 16
  ctag : BitVec 16
  param : List Byte
  parity : Option (BitVec 32)
  bulkParity : Option (BitVec 32)
  deriving DecidableEq, Repr

/-- What the module's inputs show at a tick boundary: the levels of STO_N, SIN0–SIN3 and SRST, BRK_FB, the lever value that the analog
sampler takes, the bits of the sigma-delta channels in the tick, oldest first. -/
structure TickInputs where
  safety : Vector Bool 6
  brkFb : Bool
  lever : Option (BitVec 16)
  sd : List (List Bool)
  /-- The address of a byte of the own state block whose parity bit is found wrong when it is sent in the tick (02 R67, R71). -/
  upset : Option (BitVec 32)
  deriving DecidableEq, Repr

/-- When a SYNC frame reaches a PX-G (06 R217). `drift`: how far LTB's oscillator has run off TB since the last SYNC, in ps; `taken`: what the
slew has taken out of the error found there, in ps; `flight`: from the frame's first symbol boundary to its arrival, in eighths of a cyc. -/
structure SyncTiming where
  drift : Int
  taken : Nat
  flight : Nat
  deriving DecidableEq, Repr

/-- A leg's refresh pulse and whether the REFRESH frames to its high side and its low side pass their check (06 R214, R232). -/
structure RefreshFrames where
  leg : Fin 3
  highOk : Bool
  lowOk : Bool
  deriving DecidableEq, Repr

/-- What comes of a DIAG frame (06 R213, R214, R240): an answer, an answer that fails its check, or no answer, the DIAG frame having failed its
own at the PX-G. -/
inductive DiagFrame where
  | answered | answerLost | diagLost
  deriving DecidableEq, Repr

/-- A cell whose arrival a port times: its 32 bytes and the eighths of a cyc after TB (08 R289). -/
structure TimedCell where
  bytes : List Byte
  frac : Fin 8
  deriving DecidableEq, Repr

/-- The root that a SYNC cell names (08 R292): its serial and whether it is a standby root. -/
structure SyncRoot where
  serial : BitVec 48
  standby : Bool
  deriving DecidableEq, Repr

/-- When a block of the partner arrives (09 R321): eighths of a cyc after TB, and its time on X7 in eighths of a cyc. -/
structure X7Arrival where
  frac : Fin 8
  flight : Nat
  deriving DecidableEq, Repr

/-- What a boot finds (17 R529–R531): lanes that fail their self-test, whether the on-die memory that boot needs passes, the first failure in
the rest of it, lane data and BIST scratch (its address, its bit, 8 for parity), the boot loader copies that pass, the firmware slots whose signature verifies, the PX-Gs that answer, with their steppings and the one-way delays of their
links in eighths of a cyc (06 R217). -/
structure BootFacts where
  lanesFailed : BitVec 4
  sramOk : Bool
  loaders : BitVec 2
  slots : BitVec 2
  answers : BitVec 7
  steps : Vector (BitVec 4) 7
  delays : Vector (BitVec 16) 7
  memFail : Option (BitVec 32 × Fin 9) := none
  deriving DecidableEq, Repr

/-- The commands of the module: one constructor per row of the table of steps.
The operands are what reaches the module from outside with the step, or what names the part of it that acts.
The commands without operands stand last, each group in the order of the table. -/
inductive Instr where
  /-- TICK_BOUNDARY (R30): TB reaches TB.LAST plus the period: TICKNO increments, the Timetable restarts and sigma-delta windows close, feedback is latched and the sequencer runs its boundary actions. -/
  | tickBoundary (inp : TickInputs)
  /-- CURFLD (R116): The CURFLD task runs on its lane from its start offset: current reconstruction, current loop, field control and voltage references. -/
  | curfld (run : TaskRun)
  /-- OUTER (R142): The OUTER task runs from its start offset: setpoint pops, outer loops, observer, ceilings and torque demand. -/
  | outer (run : TaskRun)
  /-- LIMSHARE (R304): The LIMSHARE task runs from its start offset: limits, chopper law, regenerative ceiling, share computation and edge staging. -/
  | limshare (run : TaskRun)
  /-- SUBSTITUTION_POINT (R54): At a task's start plus budget its output is posted or substituted, with Hold-1 or rest output where no valid output exists. -/
  | substitutionPoint (task : Fin 3)
  /-- RECOMPUTATION (R73): 16 cyc after an error the siding lane starts recomputing the aborted task from its unchanged inputs. -/
  | recomputation (task : Fin 3) (run : TaskRun)
  /-- RECOMPUTED_OUTPUT_POSTED (R73): When the recomputation ends its output is posted 8 cyc later and replaces the task output if in time. -/
  | recomputedOutputPosted (task : Fin 3)
  /-- LANE_SUSPECT (R72): A fourth detected error on one lane within 4,096 ticks raises LANE_SUSPECT and restarts the count. -/
  | laneSuspect (lane : Fin 4)
  /-- LANE_LOST (R85): At the boundary after a lane fails BIST it is marked unusable and the Timetable remaps, or a second loss raises DATAPATH. -/
  | laneLost (lane : Fin 4)
  /-- SLICE_START (R62): A self-test, calibration or scrub slice starts in an idle window on the siding lane when it fits. -/
  | sliceStart (bad : Option (BitVec 32))
  /-- TT_PERIOD_CYC (R60): A write of TT.PERIOD.CYC checks and pends a period change. -/
  | ttPeriodCyc (value : Word)
  /-- LN_TBLCHK_GO (R82): A write of LN.TBLCHK with GO starts the lane-data controller's check of a reloaded table. -/
  | lnTblchkGo (value : Word)
  /-- TABLE_CHECK_DONE (R82): The table check ends with DONE, clearing the stale bit at the next boundary, or FAIL. -/
  | tableCheckDone (parityOk : Bool)
  /-- SD_CHANNEL_CONFIG (R92): A write of SD.CHn_CFG sets a channel's role and enable, refusing duplicate or invalid roles. -/
  | sdChannelConfig (ch : Fin 12) (value : Word)
  /-- SD_RESTART (R99): A write of SD.CHn_RST.RESTART clears LOSS and refills the channel's filters. -/
  | sdRestart (ch : Fin 12)
  /-- SD_VALID (R99): Once the filters have filled after enable or restart, the channel sets VALID. -/
  | sdValid (ch : Fin 12)
  /-- SD_LOSS (R99): 64 bits without a transition clear VALID, set LOSS and raise SD_LOSS. -/
  | sdLoss (ch : Fin 12)
  /-- PW_CTL_RUN (R123): A write of PW.CTL.RUN starts real schedules at the next commit tick or makes later commits all-off. -/
  | pwCtlRun (run : Bool)
  /-- START (R174): A START request is evaluated, taking the drive into RUN with a flying start or resuming a normal stop. -/
  | start (mode : Fin 8)
  /-- EMERGENCY (R191): An EMERGENCY request is evaluated and enters the named sub-mode on demand. -/
  | emergency (sub : Fin 8)
  /-- MODE (R189): A MODE request is evaluated and changes the mode under the rules of R190. -/
  | mode (mode : Fin 8)
  /-- DC_OV (R209): The fast-path DC-link comparator trips and the Signal Box enters E-ASC or E-COAST in hardware. -/
  | dcOv (bits : List Bool)
  /-- GLINK_CONFIG (R223): A CONFIG frame reaches a PX-G and is applied or refused, answered by ACK. -/
  | glinkConfig (c : Fin 7) (ok : Bool)
  /-- CONFIG_RESEND (R214): An unacknowledged CONFIG is resent, and after three resends CFGREJ is set. -/
  | configResend (c : Fin 7)
  /-- GLINK_SYNC (R217): A SYNC frame reaches a PX-G, which slews or steps LTB and tracks its lock. -/
  | glinkSync (c : Fin 7) (ok : Bool) (t : SyncTiming)
  /-- LOCK (R218): After 16 consecutive SYNC errors within ±1 ns the channel sets LOCK. -/
  | lock (c : Fin 7)
  /-- GLINK_LOOP (R217): A LOOP frame is echoed to measure the link round trip. `tag`: the echo's, none where a frame fails its check. -/
  | glinkLoop (c : Fin 7) (tag : Option Byte) (roundTrip : Nat)
  /-- STAGE (R219): A STAGE frame delivers an inert channel block to the PX-G. -/
  | stage (c : Fin 7) (ok : Bool)
  /-- COMMIT (R219): A COMMIT frame arms, re-arms or rejects the staged block, or records a MISS. -/
  | commit (c : Fin 7) (ok : Bool)
  /-- ACK (R213): An ACK frame from a PX-G reports the CONFIG applied or refused. -/
  | ack (c : Fin 7) (ok : Bool)
  /-- STATUS (R213): A STATUS frame reports latches, BSWARN and LOCK on change and at least every 100 µs. -/
  | status (c : Fin 7) (ok : Bool)
  /-- TEL (R244): A TEL frame delivers one telemetry record, stamped and pushed to its queue. -/
  | tel (c : Fin 7) (ok : Bool)
  /-- DIAGRES (R213): A DIAGRES frame returns a sense reading of off-state diagnostics. -/
  | diagres (c : Fin 7) (mv : Nat) (frame : DiagFrame)
  /-- PERIODIC (R244): Every GD.TELPER µs a PX-G sends a PERIODIC telemetry record. -/
  | periodic (c : Fin 7) (pos : BitVec 16) (neg : BitVec 16) (temp : BitVec 16)
  /-- LINK_LATCH (R214): No valid symbol for 64 symbol periods turns the channel off and latches LINK. -/
  | linkLatch (c : Fin 7) (uplink : Bool)
  /-- ONCMD (R216): A change of a channel's commanded-on level reaches PX-C over the event lane. -/
  | oncmd (c : Fin 7)
  /-- VGEON (R216): A crossing of OFFTH by the gate-emitter voltage reaches PX-C over the event lane. -/
  | vgeon (c : Fin 7) (level : Bool)
  /-- PERMIT (R224): PX-C raises PERMIT for a channel once its partner is off-confirmed and the dead time has passed. -/
  | permit (c : Fin 7)
  /-- OFFCMD (R216): A gate-off command reaches a PX-G, which turns off and latches OFFCMD. -/
  | offcmd (c : Fin 7)
  /-- ARMED_EDGE_ACTS (R220): An armed edge acts at its TB instant, subject to the permit for turn-ons. -/
  | armedEdgeActs (c : Fin 7)
  /-- TURN_ON_DROP (R225): A turn-on delayed by more than DLYMAX is dropped with the rest of its pulse. -/
  | turnOnDrop (c : Fin 7)
  /-- SHOOT_ATTEMPT (R227): Both channels of a leg on for 2 cycles makes the Signal Box send OFFCMD to both. -/
  | shootAttempt (leg : Fin 3)
  /-- DESAT (R228): The sense voltage above DSTH for 16 cyc triggers soft turn-off and latches DESAT. -/
  | desat (c : Fin 7)
  /-- UVLO (R236): A gate rail crosses its lockout threshold, turning the channel off and latching UVLOP or UVLON. -/
  | uvlo (c : Fin 7) (negative : Bool) (trip : Bool)
  /-- BSWARN (R232): A bootstrap voltage falls to BSWARN and the PX-G reports it in STATUS. -/
  | bswarn (leg : Fin 3) (level : Bool)
  /-- REFRESH_PULSE_INSERT (R232): The Signal Box inserts a refresh pulse at the first eligible carrier after BSWARN. -/
  | refreshPulseInsert (r : RefreshFrames)
  /-- REFRESH_PULSE_COMPLETE (R232): A refresh pulse completes and is reported to CURFLD for compensation. -/
  | refreshPulseComplete (leg : Fin 3)
  /-- GATE_EN_LOW (R237): GATE_EN falls at a PX-G, turning the channel off and discarding its blocks. -/
  | gateEnLow (c : Fin 7)
  /-- GATE_EN_RISE (R237): GATE_EN rises after at least 10 µs low and clears the channel's latches. -/
  | gateEnRise (c : Fin 7)
  /-- DIAG_CTL_GO (R239): A write of GD.DIAG_CTL.GO starts off-state diagnostics if the stage is idle. -/
  | diagCtlGo (load : Bool)
  /-- OFFSTATE_DIAG_STEP (R240): 2 ms after driving its pins a diagnostic step reads and classifies the nodes. -/
  | offstateDiagStep
  /-- AUX_OV (R243): The auxiliary input above 36 V for 2 µs opens the external switch and starts ride-through. -/
  | auxOv (vin : BitVec 16) (vhb : BitVec 16)
  /-- SWITCH_RECLOSE (R243): The auxiliary input below 35 V for 10 ms closes the external switch again. -/
  | switchReclose (vin : BitVec 16) (vhb : BitVec 16)
  /-- FB_CTL_EN (R247): A write of FB.CTL.EN enables feedback if the source configuration passes its checks. -/
  | fbCtlEn (on : Bool)
  /-- ENCODER_EDGE (R253): A transition of ENC_A or ENC_B changes the count, or counts as an illegal transition. -/
  | encoderEdge (a : Bool) (b : Bool)
  /-- INDEX_LATCH (R256): An accepted ENC_Z rising edge latches IDXLAT and runs the drift check. -/
  | indexLatch (z : Bool)
  /-- LINE_FAULT (R253): An RS-422 pair inside the fault window for 1 µs sets ABFAULT or ZFAULT. -/
  | lineFault (pair : Fin 3) (present : Bool)
  /-- SINCOS_SAMPLE (R262): The converters sample sin and cos every 400 cyc and update the position and amplitude checks. -/
  | sincosSample (sin : BitVec 16) (cos : BitVec 16)
  /-- RESOLVER_SAMPLE (R264): The windings are sampled at an excitation peak and the position updated. -/
  | resolverSample (sin : BitVec 16) (cos : BitVec 16) (excOk : Bool)
  /-- SSI_FRAME (R266): An SSI frame is clocked SSI_LEAD before the boundary and decoded, or counted bad. -/
  | ssiFrame (bits : List Bool)
  /-- HALL_TRANSITION (R268): A Hall transition accepted after FILT sets the sector edge angle or SKIP. -/
  | hallTransition (code : Fin 8)
  /-- SOURCE_VALID (R248): 64 ticks after a source's clearing condition has gone its VALID sets. -/
  | sourceValid (source : Fin 5)
  /-- SHARE (R305): A SHARE cell is received, delivered to members and forwarded per the consist mask. -/
  | share (p : Fin 4) (cell : List Byte)
  /-- CONTRIB (R306): A CONTRIB cell reaches the head with a member's status, ceilings and offset. -/
  | contrib (p : Fin 4) (cell : List Byte)
  /-- SYNC (R289): A link SYNC cell arrives, is forwarded with correction, and the unit corrects its TB. -/
  | sync (p : Fin 4) (cell : TimedCell) (tb period corr : Nat) (root : SyncRoot)
  /-- DELAY_REQ (R289): A DELAY_REQ cell from the neighbour is answered with DELAY_RESP. -/
  | delayReq (p : Fin 4) (cell : TimedCell)
  /-- DELAY_RESP (R289): A DELAY_RESP cell gives the round trip and updates BL.Pp_DELAY. -/
  | delayResp (p : Fin 4) (cell : TimedCell) (stay : Nat)
  /-- ENUM (R295): An ENUM cell assigns or queries a unit ID during enumeration. -/
  | enum (p : Fin 4) (cell : List Byte) (msg : EnumMsg)
  /-- CONSIST (R303): A CONSIST cell carries a join tick or consist change to a unit. -/
  | consist (p : Fin 4) (cell : List Byte) (msg : ConsistMsg)
  /-- NOTICE (R299): An EPOCH_STALE NOTICE updates the consist map or makes a member detach. -/
  | notice (p : Fin 4) (cell : List Byte)
  /-- MGMT (R295): A MGMT cell writes route tables and consist masks. -/
  | mgmt (p : Fin 4) (cell : List Byte) (msg : MgmtMsg)
  /-- LINK_UP (R281): A port decodes 1 ms error-free and comes up. -/
  | linkUp (p : Fin 4) (nbr : BitVec 11)
  /-- LINK_DOWN (R281): Loss of signal or excessive code violations take a port down. -/
  | linkDown (p : Fin 4) (los : Bool)
  /-- BL_MTX_GO (R286): A write of BL.Pp_MTX.GO sends the staged management cell outside the window. -/
  | blMtxGo (p : Fin 4)
  /-- MIRROR_BLOCK (R321): A partner state block arrives on X7 and is checked for validity. -/
  | mirrorBlock (b : Machine.PairBlock) (arrival : X7Arrival)
  /-- ALIVE_IN (R322): The partner's ALIVE_OUT toggles at ALIVE_IN, counting as heartbeat. -/
  | aliveIn (level : Bool)
  /-- CHG_IN (R335): The partner's CHG_OWN changes at CHG_IN. -/
  | chgIn (level : Bool)
  /-- PM_CFG_EN (R323): A write of PM.CFG.EN starts pairing, or is refused. -/
  | pmCfgEn (on : Bool)
  /-- SAFETY_INPUT_CHANGE (R347): A filtered safety input change takes effect after F agreeing samples, demanding or ending STO, SS1 or SLS. -/
  | safetyInputChange (input : Fin 6) (level : Bool)
  /-- SUPPLY (R351): A low-side rail still up 20 ms after the supply stopped latches SUPPLY. -/
  | supply (railUp : Bool)
  /-- INPUT_TEST (R348): In the tick with TICKNO mod 1,024 = 512 each input stage is forced to both levels and checked. -/
  | inputTest (follows : Bool)
  /-- GEN_RB (R345): ONCMD still high 64 cyc after GATE_EN fell, or a driver readback mismatch, latches GEN_RB. -/
  | genRb (readback : Option (Fin 7))
  /-- SOUT_TEST (R349): Every 1,000 ms a high output is switched off for 300 µs and its readback checked. -/
  | soutTest (pulse : Bool) (follows : Bool)
  /-- SB_SELF (R356): Every 4,096 ticks the Signal Box self-tests its logic, comparators and filters. -/
  | sbSelf (pass : Bool)
  /-- LOCKOUT_EXIT (R358): The SRST fall of a valid reset sequence runs the tests and, if passed, leaves LOCKOUT. -/
  | lockoutExit (selfOk : Bool) (inputsOk : Bool)
  /-- TOK_TX_READ (R373): A read of the last word of SB.TOKt_TX clears TXRDY. -/
  | tokTxRead (t : Fin 2)
  /-- REQM_GATE_GOFF (R345): A write of SB.REQM_GATE.GOFF takes or releases every GATE_EN through the enable chain. -/
  | reqmGateGoff (off : Bool)
  /-- CAN_CTL_MODE (R376): A write of CANn.CTL.MODE changes the controller mode after checking the configuration. -/
  | canCtlMode (n : Fin 2) (mode : BitVec 2)
  /-- CAN_CTL_RECOVER (R390): A write of CANn.CTL.RECOVER starts bus-off recovery. -/
  | canCtlRecover (n : Fin 2)
  /-- CAN_TXCTL_REQ (R383): A write of CANn.TXCTL.REQ sets a transmit buffer PENDING. -/
  | canTxctlReq (n : Fin 2) (buffers : BitVec 3)
  /-- CAN_TXCTL_CANCEL (R386): A write of CANn.TXCTL.CANCEL cancels a pending buffer or is refused. -/
  | canTxctlCancel (n : Fin 2) (buffers : BitVec 3)
  /-- CAN_FRAME_VALID (R379): A received frame becomes valid, is filtered and its record pushed to a FIFO queue. -/
  | canFrameValid (n : Fin 2) (frame : CanFrame)
  /-- CAN_TX_START (R384): At a start point the controller selects one pending buffer and begins its frame. -/
  | canTxStart (n : Fin 2) (tdcv : BitVec 7)
  /-- CAN_TX_END (R385): A transmission ends as DONE, retried, FAILED or lost in arbitration. -/
  | canTxEnd (n : Fin 2) (how : CanEnd) (sofAge : Nat)
  /-- CAN_ERROR (R389): A protocol error updates the error counters and may change error state or enter bus-off. -/
  | canError (n : Fin 2) (kind : CanErr) (code : BitVec 3) (dataPhase : Bool)
  /-- CAN_RECOVERED (R390): 128 occurrences of 11 recessive bits complete bus-off recovery. -/
  | canRecovered (n : Fin 2)
  /-- CAN_INTEGRATION (R376): After 11 consecutive recessive bits the controller joins the bus. -/
  | canIntegration (n : Fin 2)
  /-- SPI_WRITE_TRANSACTION (R402): A host write transaction ends and takes effect as a whole, or is discarded with a result code. -/
  | spiWriteTransaction (words : List Word) (aligned : Bool)
  /-- SPI_READ_TRANSACTION (R402): A host read transaction returns window data with a result code. -/
  | spiReadTransaction (header : Word) (count : Nat) (aligned : Bool) (parity : Bool)
  /-- DOORBELL (R406): A write of HS.CQc_TAIL announces descriptors, advancing TAIL or being refused. -/
  | doorbell (c : Fin 4) (tail : BitVec 16)
  /-- DESCRIPTOR_POP (R407): The MP pops a command descriptor in queue order when its completion queue has credit. -/
  | descriptorPop (parity : Option (BitVec 32)) (bulkParity : Option (BitVec 32))
  /-- CPL_HEAD_WRITE (R411): A host write of HS.CPLc_HEAD consumes records and frees handle slots. -/
  | cplHeadWrite (c : Fin 4) (head : BitVec 16)
  /-- SYS_INFO (R426): SYS.INFO returns identification and firmware data. -/
  | sysInfo (d : Desc)
  /-- SYS_NOP (R426): SYS.NOP completes with no action. -/
  | sysNop (d : Desc)
  /-- SYS_QUERY (R426): SYS.QUERY returns a handle's table entry and final status. -/
  | sysQuery (d : Desc)
  /-- SYS_CANCEL (R439): SYS.CANCEL stops a cancellable command within 1 ms. -/
  | sysCancel (d : Desc)
  /-- SYS_ATTN_CLR (R440): SYS.ATTN_CLR clears bits of HS.ATTN. -/
  | sysAttnClr (d : Desc)
  /-- SYS_TIME (R426): SYS.TIME returns TB.LAST, TICKNO and BL.SNOFS of one boundary. -/
  | sysTime (d : Desc)
  /-- SYS_TIMETABLE (R426): SYS.TIMETABLE writes the shadow table, period and swap and completes when the change takes effect. -/
  | sysTimetable (d : Desc)
  /-- SYS_RESET (R426): SYS.RESET writes its record and requests an MP restart or module reset 1 ms later. -/
  | sysReset (d : Desc)
  /-- MODULE_RESET (R526): A module reset reinitialises the parts of R526 and boot follows. -/
  | moduleReset (facts : BootFacts)
  /-- MD_ENABLE (R427): MD.ENABLE submits an ENABLE request and completes at precharge end or refusal. -/
  | mdEnable (d : Desc)
  /-- MD_DISABLE (R427): MD.DISABLE submits a DISABLE request. -/
  | mdDisable (d : Desc)
  /-- MD_START (R427): MD.START submits a START request and completes when START reaches 4 or is refused. -/
  | mdStart (d : Desc)
  /-- MD_STOP (R427): MD.STOP submits a STOP request and completes when the stop ends in READY. -/
  | mdStop (d : Desc)
  /-- MD_EMERGENCY (R427): MD.EMERGENCY submits an EMERGENCY request for a sub-mode. -/
  | mdEmergency (d : Desc)
  /-- MD_MODE (R427): MD.MODE submits a MODE request. -/
  | mdMode (d : Desc)
  /-- MD_RESET (R427): MD.RESET submits a RESET request. -/
  | mdReset (d : Desc)
  /-- SP_WRITE (R428): SP.WRITE pushes one setpoint record into Q50. -/
  | spWrite (d : Desc)
  /-- SP_WRITE_N (R428): SP.WRITE_N checks and pushes several setpoint records into Q50. -/
  | spWriteN (d : Desc)
  /-- REG_READ (R429): REG.READ returns up to four register words. -/
  | regRead (d : Desc)
  /-- REG_WRITE (R429): REG.WRITE writes one register and returns its read-back value. -/
  | regWrite (d : Desc)
  /-- PAR_STAGE (R429): PAR.STAGE queues coefficient words to the inactive bank through Q53. -/
  | parStage (d : Desc)
  /-- TBL_LOAD (R429): TBL.LOAD checks and loads a table into the active or inactive bank. -/
  | tblLoad (d : Desc)
  /-- BANK_SWAP (R429): BANK.SWAP requests a bank swap at a named or the next tick. -/
  | bankSwap (d : Desc)
  /-- BANK_COPY (R429): BANK.COPY copies the active bank into the inactive bank. -/
  | bankCopy (d : Desc)
  /-- PAR_SAVE (R458): PAR.SAVE writes the active bank as a table image to NOR. -/
  | parSave (d : Desc)
  /-- FB_CORRECT (R429): FB.CORRECT applies the commanded index correction. -/
  | fbCorrect (d : Desc)
  /-- DIAG_OFFSTATE (R431): DIAG.OFFSTATE runs off-state diagnostics on an idle stage. -/
  | diagOffstate (d : Desc)
  /-- BIST_LANE (R431): BIST.LANE tests one lane in slices. -/
  | bistLane (d : Desc)
  /-- BIST_MEM (R431): BIST.MEM runs a slice or full memory test. -/
  | bistMem (d : Desc)
  /-- BIST_GATE (R431): BIST.GATE tests the PX-G channels in the mask on an idle stage. -/
  | bistGate (d : Desc)
  /-- CAL_PASS (R431): CAL.PASS completes at the next completed calibration pass. -/
  | calPass (d : Desc)
  /-- CRC_SCAN (R431): CRC.SCAN runs a CRC unit scan and compares the expected value. -/
  | crcScan (d : Desc)
  /-- TR_CONFIG (R432): TR.CONFIG configures a trace ring's nodes, decimation and trigger. -/
  | trConfig (d : Desc)
  /-- TR_ARM (R432): TR.ARM arms or disarms trace rings. -/
  | trArm (d : Desc)
  /-- TR_TRIGGER (R432): TR.TRIGGER triggers armed rings at the next sample instant. -/
  | trTrigger (d : Desc)
  /-- TR_READ (R486): TR.READ copies samples of a stopped ring to the bulk area. -/
  | trRead (d : Desc)
  /-- EV_READ (R432): EV.READ returns log records from a given sequence. -/
  | evRead (d : Desc)
  /-- LK_ENUM (R433): LK.ENUM runs an enumeration from the root. -/
  | lkEnum (d : Desc)
  /-- CS_FORM (R433): CS.FORM forms a consist with this unit as head. -/
  | csForm (d : Desc)
  /-- CS_ADD (R433): CS.ADD adds a member, completing at its join tick. -/
  | csAdd (d : Desc)
  /-- CS_REMOVE (R433): CS.REMOVE removes a member through the reverse fade. -/
  | csRemove (d : Desc)
  /-- CS_DISSOLVE (R433): CS.DISSOLVE removes every member and ends the head role. -/
  | csDissolve (d : Desc)
  /-- PR_RELEASE (R434): PR.RELEASE releases the module from its pair. -/
  | prRelease (d : Desc)
  /-- PR_ENGAGE (R434): PR.ENGAGE engages the module into the pair. -/
  | prEngage (d : Desc)
  /-- PR_PSER (R435): PR.PSER holds a new partner serial pending and returns the CRC for confirmation. -/
  | prPser (d : Desc)
  /-- SAFE_OPEN (R436): SAFE.OPEN opens commissioning with a matching code and releases the lock. -/
  | safeOpen (d : Desc)
  /-- SAFE_CLOSE (R436): SAFE.CLOSE computes the CRC and stores the set unconfirmed. -/
  | safeClose (d : Desc)
  /-- SAFE_CONFIRM (R436): SAFE.CONFIRM confirms the entered CRC and applies the lock, or a pending serial. -/
  | safeConfirm (d : Desc)
  /-- SAFE_STATUS (R436): SAFE.STATUS returns the safety fault and configuration status. -/
  | safeStatus (d : Desc)
  /-- FW_STAGE (R437): FW.STAGE writes a firmware image chunk into the inactive slot. -/
  | fwStage (d : Desc)
  /-- FW_VERIFY (R437): FW.VERIFY checks the staged image's hash and signature. -/
  | fwVerify (d : Desc)
  /-- FW_SWAP (R437): FW.SWAP names the tick of a firmware swap. -/
  | fwSwap (d : Desc)
  /-- FW_DISCARD (R437): FW.DISCARD erases the inactive slot. -/
  | fwDiscard (d : Desc)
  /-- NV_READ (R437): NV.READ copies a NOR region range to the bulk area. -/
  | nvRead (d : Desc)
  /-- TEMP_MEASUREMENT (R443): A sensor is measured, cross-checked, and the thermal factor, warnings and compensation updated. -/
  | tempMeasurement (sensor : Fin 11) (reading : BitVec 32)
  /-- AUX_LOSS (R451): The auxiliary input below 15.5 V for 100 µs starts ride-through. -/
  | auxLoss (vin : BitVec 16) (vhb : BitVec 16)
  /-- AUX_BACK (R451): The auxiliary input above 16.5 V for 10 ms ends ride-through. -/
  | auxBack (vin : BitVec 16) (vhb : BitVec 16)
  /-- HOLDUP_BUS_LOW (R452): The hold-up bus falls to 20 V and the shutdown sequence starts. -/
  | holdupBusLow (vin : BitVec 16) (vhb : BitVec 16)
  /-- HBOK (R452): The hold-up bus finishes charging and TH.SUP.HBOK sets. -/
  | hbok (vin : BitVec 16) (vhb : BitVec 16)
  /-- NOR_OPERATION_COMPLETE (R454): A page program or sector erase ends and is verified, or the sector is retired. -/
  | norOperationComplete (ok : Bool)
  /-- BIST_JOB_RESULT (R472): A BIST job ends and returns its result on Q59, applying the consequences of a failure. -/
  | bistJobResult (fail : Option BistFail)
  /-- CC_CHK_CTL_GO (R476): A write of CC.CHk_CTL.GO starts a CRC scan on a channel. -/
  | ccChkCtlGo (k : Fin 4) (value : Word)
  /-- CC_CHK_DATA (R476): A write of CC.CHk_DATA feeds 4 bytes into an idle CRC channel. -/
  | ccChkData (k : Fin 4) (w : Word)
  /-- CRC_SCAN_END (R477): A CRC scan ends, RES takes the final value and a mismatch or parity error is flagged. -/
  | crcScanEnd (k : Fin 4) (perr : Option (BitVec 24))
  /-- RING_STOP (R484): A triggered ring stops after CAP − PRE samples. -/
  | ringStop (r : Fin 16)
  /-- TE_CTL_ARM (R494): A write of TE.CTL.ARM arms configured rings. -/
  | teCtlArm (mask : BitVec 16)
  /-- TE_CTL_DISARM (R494): A write of TE.CTL.DISARM returns rings to CONFIGURED. -/
  | teCtlDisarm (mask : BitVec 16)
  /-- TE_TRIG (R494): A write of TE.TRIG triggers rings at the next sample instant. -/
  | teTrig (mask : BitVec 16)
  /-- QUEUE_PUSH (R36): A producer pushes an item into a queue, taking a credit or acting under its no-credit policy. -/
  | queuePush (n : Fin 64) (item : List Byte)
  /-- QUEUE_POP (R36): A consumer pops an item and returns a credit, or finds the queue empty. -/
  | queuePop (n : Fin 64) (bad : Option (BitVec 32))
  /-- QM_IRQ_CLEAR (R45): A W1C write of QM.IRQ0 or QM.IRQ1 clears watermark bits, which set again if still at watermark. -/
  | qmIrqClear (hi : Bool) (value : Word)
  /-- TE_TB_LO_READ (R494): A read of TE.Rr_TB_LO latches TE.Rr_TB_HI. -/
  | teTbLoRead (r : Fin 16)
  /-- READ_CLEAR_COUNTER (R14): A read of an RC field returns it and clears it in the same access. -/
  | readClearCounter (addr : BitVec 32)
  /-- REGISTER_WRITE (R14): A write to a register without a row of its own sets, triggers or clears fields per their access codes and lock. -/
  | registerWrite (addr : BitVec 32) (value : Word)
  /-- POWER_ON (R529): Supply good starts the boot path: BIST, memory test, loader, stores, firmware and tables. -/
  | powerOn (facts : BootFacts)
  /-- OVERCURRENT (R344): The fast-path output of IU, IV, IW or ICH exceeds the effective current limit: OVERCURRENT is latched and OFFCMD is sent to all seven channels. -/
  | overcurrent (ch : Fin 12) (bits : List Bool)
  /-- MP_RESET (R418): The MP is put into reset: MPSTATE reads 2, MPDOWN sets and the work of outstanding handles stops. -/
  | mpReset (cause : Fin 3) (addr : Option (BitVec 32))
  /-- QUARTER_PERIOD_COUNT (R262): A comparator transition on AN_SIN or AN_COS changes the quarter-period count Qc. -/
  | quarterPeriodCount (up : Bool)
  /-- DATAPATH (R78): HOLDRUN reaching 3 raises and latches DATAPATH, whose reaction begins at the next boundary. -/
  | datapath
  /-- HOLD8 (R79): HOLDRUN reaching 8 makes the Signal Box take every GATE_EN low and set the brake, entering E-COAST. -/
  | hold8
  /-- SLICE_ABORT (R62): A slice still running at its window end is aborted and repeated later. -/
  | sliceAbort
  /-- TIMETABLE_CHANGE_DUE (R546): At the boundary where a pending swap or period change is due, R57 is checked again and the change takes effect or is refused. -/
  | timetableChangeDue
  /-- TT_CTL_SWAP (R58): A write of TT.CTL.SWAP checks the shadow table and makes a swap pending. -/
  | ttCtlSwap
  /-- CAL_POSITION_STEP (R103): After SETTLE and DWELL ticks the calibration selector moves to the next position at a boundary. -/
  | calPositionStep
  /-- CAL_FIT_APPLY (R104): A completed calibration fit is applied to GCAL and OCAL at the next boundary, or raises CAL_RANGE. -/
  | calFitApply
  /-- ISUM (R108): The zero-sequence current exceeds SD.ISUMLIM in a fourth consecutive tick and ISUM is raised. -/
  | isum
  /-- EDGE_LATE (R135): Late edges in a third consecutive carrier raise EDGE_LATE. -/
  | edgeLate
  /-- VS_COMPENSATION_DROPPED (R137): A volt-second residue still unplaced after 8 carriers is dropped and counted in PW.VSLOST. -/
  | vsCompensationDropped
  /-- SETPOINT_APPLY (R147): A pending setpoint record applies at the task start of the tick named by APPLY_TICK. -/
  | setpointApply
  /-- LEVER_STALE (R148): No lever value for LVTMO ticks sets LVSTALE and takes the lever input as 0. -/
  | leverStale
  /-- TENSION_SRC (R148): A load-pin value older than LVTMO ticks sets LPSTALE and tension falls back to the estimate. -/
  | tensionSrc
  /-- SHOCK_CLEAR (R163): After |rate| stays below SHKEXIT for CHOLD ticks the SHOCK flag clears and compliance ends. -/
  | shockClear
  /-- HEAVE_STALE (R169): The heave extrapolation age exceeds HVTMO, HVSTALE sets and the terms fade to zero. -/
  | heaveStale
  /-- BANK_SWAP_EFFECT (R156): A pending bank swap takes effect at the task start of its named tick, or is refused as BUSY. -/
  | bankSwapEffect
  /-- FLUX_BUILD_END (R176): The induction rotor flux reaches 0.9 ψr* and the start ramp begins. -/
  | fluxBuildEnd
  /-- FLUX_TIMEOUT (R176): The flux build exceeds FLUXTMO, gates go off and the start completes with FLUX_TIMEOUT. -/
  | fluxTimeout
  /-- START_COMPLETE (R178): START reaches 4 when the command is first reached and the start completes OK. -/
  | startComplete
  /-- ENABLE (R187): An ENABLE request is evaluated at its boundary and takes the drive to READY or is refused. -/
  | enable
  /-- DISABLE (R186): A DISABLE request is evaluated and takes the drive from READY to STANDBY. -/
  | disable
  /-- STOP (R197): A STOP request is evaluated and starts the brake sequence in phase 2. -/
  | stop
  /-- RESET (R188): A RESET request is evaluated, clearing latched causes and leaving the drive in STANDBY, or is refused. -/
  | reset
  /-- STANDSTILL_REACHED (R197): |ωm| stays at or below WSTOP for 8 ticks, ending hold or an on-demand E-COAST. -/
  | standstillReached
  /-- BRAKE_SET_CONFIRMED (R196): BRK_FB high for 8 ticks or BRKSET ms elapsed confirms the brake set and starts the taper. -/
  | brakeSetConfirmed
  /-- TAPER_COMPLETE (R197): The taper and BRKTAPER ms without slip end and phase 5 begins as the drive leaves STOPPING. -/
  | taperComplete
  /-- BRAKE_RELEASED (R200): BRK_FB low for 8 ticks or BRKREL ms ends the release and the ramp target becomes the command. -/
  | brakeReleased
  /-- BRAKE_FAIL (R196): The brake feedback fails to follow within its time plus 500 ms and BRAKE_FAIL is latched. -/
  | brakeFail
  /-- ERTMO (R192): The emergency stop does not reach standstill within ERTMO ms and ERTMO is latched. -/
  | ertmo
  /-- ASC_EXIT (R199): |ωm| below ASCXW for 8 ticks with vdc below 1.20 ends E-ASC into E-COAST. -/
  | ascExit
  /-- DC_UV (R205): vdc below Vuv for 8 consecutive ticks raises DC_UV in RUN or STOPPING, or returns READY to STANDBY. -/
  | dcUv
  /-- CHOPPER_FAULT (R208): GK held full on for 2 ms without a fall of vdc raises CHOPPER_FAULT and sets R = 0. -/
  | chopperFault
  /-- PRECHARGE_DONE (R233): Every bootstrap reaches 16 V, PREDONE sets and the ENABLE completes. -/
  | prechargeDone
  /-- PRECHARGE_TIMEOUT (R233): Precharge not done within 100 ms returns the drive to STANDBY with NOT_VALID. -/
  | prechargeTimeout
  /-- FB_CTL_CORR (R260): A write of FB.CTL.CORR applies the commanded correction at the next boundary. -/
  | fbCtlCorr
  /-- FB_CTL_USEPRI (R271): A write of FB.CTL.USEPRI returns the operating source to the primary when revalidated. -/
  | fbCtlUsepri
  /-- INDEX_MISS (R258): Travel beyond CPR plus IDXTOL without a latch records an index miss. -/
  | indexMiss
  /-- HALL_TIMEOUT (R268): No Hall transition for TMO ms sets the angle to the sector centre and ωm to 0. -/
  | hallTimeout
  /-- ENCODER_EMULATION_EDGE (R275): The emulation output moves one quadrature edge toward its target. -/
  | encoderEmulationEdge
  /-- NOSHARE_LAUNCH (R306): A member with no share by window open plus NSOFS launches its contribution with NOSHARE. -/
  | noshareLaunch
  /-- HOLDOVER (R292): No SYNC for 64 ticks puts a locked unit into holdover or makes a standby root take the root role. -/
  | holdover
  /-- SYNC_LOST (R291): Three SYNCs beyond 20 ns or 4,000 ticks of holdover take the unit out of LOCKED. -/
  | syncLost
  /-- JOIN (R303): At join tick J the member's role and epoch change and it enters SHARE with the fade starting. -/
  | join
  /-- REMOVAL_FADE_END (R303): The reverse fade reaches 0 and the member's role becomes NONE in TORQUE. -/
  | removalFadeEnd
  /-- MEMBER_DETACHED (R308): After MISSMAX consecutive missing shares the member detaches. -/
  | memberDetached
  /-- DEPUTY_TAKEOVER (R314): The deputy takes the head role after HANDOVER or TAKE windows without head share cells. -/
  | deputyTakeover
  /-- TAKEOVER (R315): A head without contributions for TAKE windows gives up its role to the deputy. -/
  | takeover
  /-- PARTNER_LOST (R327): MISS.HB reaches 2, partner loss is declared and the survivor takes over. -/
  | partnerLost
  /-- PARTNER_RELEASE (R328): A partner block with RELEASE or CARRY 0 leads to takeover at the next boundary. -/
  | partnerRelease
  /-- MIRROR_LOST (R327): MISS.BLK reaches 2 with heartbeats present and the module stops aligning. -/
  | mirrorLost
  /-- ALIVE_LOST (R327): ALIVE_IN static for 8 ticks while blocks are valid raises ALIVE_LOST. -/
  | aliveLost
  /-- SYNCED (R324): 64 consecutive valid blocks within 2 ns set PM.STAT.SYNCED. -/
  | synced
  /-- CHG_OWN_ASSERT (R335): A waiting standby asserts CHG_OWN after CHG_IN has been low for 2 ticks. -/
  | chgOwnAssert
  /-- PAIR_FB (R332): The partner's p_fb differs beyond PTOL for 8 ticks and PAIR_FB is raised. -/
  | pairFb
  /-- PAIR_JOIN (R331): At JOINSN the carrying module's share fade starts. -/
  | pairJoin
  /-- PM_CTL_RELEASE (R337): A write of PM.CTL.RELEASE starts an orderly release of the module. -/
  | pmCtlRelease
  /-- PM_CTL_ENGAGE (R338): A write of PM.CTL.ENGAGE joins the module at JOINSN or as standby. -/
  | pmCtlEngage
  /-- FIRMWARE_SWAP (R339): At the named boundary the MP halts, the slot window switches and the MP restarts from the verified slot. -/
  | firmwareSwap
  /-- STO_OFF (R351): With no demand left and GSUP set the STO decision clears. -/
  | stoOff
  /-- SS1_END (R352): SS1 ends at its time or standstill and becomes a demand for STO. -/
  | ss1End
  /-- SPD_DISC (R355): |ω_sb − ωm| beyond WDISC at 16 boundaries latches SPD_DISC. -/
  | spdDisc
  /-- CFG_CRC (R356): Every 4,096 ticks the live safety parameter CRC is recomputed and compared. -/
  | cfgCrc
  /-- TOKEN_FRAME (R366): A received Token frame is checked at the next boundary and accepted or refused. -/
  | tokenFrame
  /-- TOKEN_TMO (R369): An established Token connection's watchdog expires, latching TOKEN_TMO or raising TOKEN_LOST. -/
  | tokenTmo
  /-- STO_TEST_DUE (R371): 720 h without a demand or ENABLE raises STO_TEST_DUE. -/
  | stoTestDue
  /-- MPWD (R29): A write of SB.MPWD restarts the MP watchdog. -/
  | mpwd
  /-- MP_LOST (R29): 100 ms without an SB.MPWD write raises MP_LOST and resets the MP. -/
  | mpLost
  /-- DOORBELL_SIGNAL (R406): 40 cyc after an accepted doorbell the MP is signalled. -/
  | doorbellSignal
  /-- FINAL_RECORD_RELEASE (R411): A held FINAL record goes out when the host frees a completion slot. -/
  | finalRecordRelease
  /-- MP_RESTART (R418): The MP returns to service and reports outstanding handles ABORTED_BY_RESET before serving descriptors. -/
  | mpRestart
  /-- PX_C_HALT (R461): At t_s plus 5 ms at the latest PX-C halts and internal supplies turn off. -/
  | pxCHalt
  /-- NOR_JOB (R454): The NOR controller takes a job, blank-checking and erasing before the first program of a sector. -/
  | norJob
  /-- LOG_PAGE_PROGRAM (R459): The MP programs a log page when 8 records are collected or 100 ms after the first. -/
  | logPageProgram
  /-- EVENT_RING_PASS (R489): At least every 1 ms the MP pops the event rings, numbers the records and logs drops. -/
  | eventRingPass
  /-- BI_CTL_ABORT (R492): A write of BI.CTL.ABORT stops the running BIST job at its next step. -/
  | biCtlAbort
  /-- TRACE_SAMPLE (R481): At the LIMSHARE substitution point plus 112 cyc rings sample their nodes and triggers are evaluated. -/
  | traceSample
  /-- TB_CNT_LO_READ (R33): A read of TB.CNT_LO latches TB[63:32] into TB.CNT_HI. -/
  | tbCntLoRead
  /-- TB_LAST_LO_READ (R33): A read of TB.LAST_LO latches TB.LAST_HI. -/
  | tbLastLoRead
  /-- FB_POS_LO_READ (R277): A read of FB.POS_LO latches FB.POS_HI. -/
  | fbPosLoRead
  /-- FB_HOFS_LO_READ (R277): A read of FB.HOFS_LO latches FB.HOFS_HI. -/
  | fbHofsLoRead
  /-- NV_LOGSEQ_LO_READ (R467): A read of NV.LOGSEQ_LO latches NV.LOGSEQ_HI. -/
  | nvLogseqLoRead
  /-- NV_LOGOLD_LO_READ (R467): A read of NV.LOGOLD_LO latches NV.LOGOLD_HI. -/
  | nvLogoldLoRead
  /-- BOOT_COMPLETE (R529): Boot completes and the sequencer enters STANDBY at the next boundary. -/
  | bootComplete
  /-- EXCHANGE_WINDOW_OPEN (R307): At BL.WIN.OPEN the exchange window opens, exchange cells get priority and the head's SHARE cells leave at open plus 64 cyc. -/
  | exchangeWindowOpen
  /-- EXCHANGE_WINDOW_CLOSE (R285): At OPEN plus LEN the window closes and SHARE or CONTRIB cells that have not started are discarded and counted. -/
  | exchangeWindowClose
  /-- ID_HOLD_EXPIRY (R295): The 10 s for which the root holds a disconnected unit's ID free runs out, and the ID becomes free. -/
  | idHoldExpiry
  deriving DecidableEq, Repr

end Sys2Proof
end

