-- ==== Sys2Proof/Config.lean ====
section
/-! DEFINITION. What an implementation fixes, and the values the spec leaves open (free values).
Every free value is a constant without a body: nothing in Lean can evaluate it. -/

namespace Sys2Proof.Config

/-- A value of `w` bits that the spec leaves open, one for each draw (assumption log 2). -/
opaque freeValue : (w : Nat) → Nat → BitVec w

/-- A number that the spec leaves open, one for each draw (assumption log 2). -/
opaque freeNumber : Nat → Rat

/-- The value a format of `w` bits with `frac` fraction bits takes for a computed number outside its range, where no
rule of the quantity says (00 R12: "decided by the rule of each quantity"; assumption log 2). -/
opaque overflow : (w frac : Nat) → Rat → BitVec w

/-- The result of a lane's division by zero where no rule states it (assumption log 2). -/
opaque divByZero : Rat → Rat

/-- Where a rotor flux falls on the 33 entries of the magnetising curve, given the nominal flux: the spec gives the table
no index scale (03 R110, R138; assumption log 15). Read through a clamp to 0–32. -/
opaque magnetisingIndex : Rat → Rat → Rat

/-- What a word of the pattern table says: whether it is an edge, its level, its fraction of Tc as UQ0.16. The spec gives
these items no bits in the word (03 R129; assumption log 18). -/
opaque patternWord : BitVec 32 → Bool × Bool × BitVec 16

/-- The silicon stepping of PX-C, "per die" (01_architecture R52; assumption log 5). -/
opaque dieStep : BitVec 4

/-- The execution length of a task code in force, "per configuration" (02 R53; assumption log 5);
it is read through `taskLength`, which bounds it. -/
opaque taskLengthRaw : Nat → Nat

/-- The longest execution length of each task code (02 R53). -/
def taskLengthMax : Nat → Nat
  | 1 => 600
  | 2 => 780
  | 3 => 580
  | _ => 0

/-- LN.TASKLENn: the execution length in force of a task code, never above the maximum of R53. -/
def taskLength (code : Nat) : Nat := min (taskLengthRaw code) (taskLengthMax code)

/-- The module's serial number, "per module" (08 BL.SERIAL; assumption log 5). -/
opaque serial : BitVec 48

/-- A byte of the task sections of a state block, by the sender's serial, the block's HBSEQ and the offset: the sections
are in the tasks' own formats, which the spec does not give (09 R325; assumption log 7). -/
opaque blockSection : Nat → Nat → Nat → BitVec 8

/-- A byte of the on-die SRAM regions whose layout the spec does not give: mirror state beyond the own block, queue storage, lane
state (01 R50, R544: "forms no interface"), by its address and the TB of the access (assumption log 3). -/
opaque openByte : Nat → Nat → BitVec 8

/-- The production compensation table, by point 0–16: the TCXO correction in ppb and the reference correction in ppm (14 R450). It
stands in the boot region at a place that the spec does not give (assumption log 5). -/
opaque compPoint : Nat → BitVec 16 × BitVec 16

/-- A byte of the MP boot ROM: the spec gives its place and not its contents (01 R48; assumption log 5). -/
opaque romByte : Nat → Byte

/-- The payload bytes of a cell whose payload the spec gives none (08 R283; assumption log 19). -/
opaque linkPayload : LinkMsg → List Byte

/-- The SHA-256 of bytes: the spec names the standard and gives no algorithm (09 R339, 14 R457; assumption log 8). -/
opaque sha256 : List Byte → List Byte

/-- The version that a firmware image states: the spec gives the image no layout (13 R437, 14 R457; assumption log 8). -/
opaque imageVersion : List Byte → BitVec 32

/-- Whether the hash and signature of a staged firmware image verify against the module's key
(13 R437; assumption log 8). -/
opaque imageVerifies : List Byte → Bool

end Sys2Proof.Config
end

