-- ==== Sys2Proof/Machine/Operands.lean ====
section
/-! DEFINITION. The forms a value takes: fixed-point formats and their rounding (00 R12), modular comparison (R13),
little-endian byte order (R11), the check codes, and the elementary functions of the lanes. -/

namespace Sys2Proof.Machine

/-- Rounding to the nearest integer, ties away from zero (00 R12). -/
def roundAway (x : Rat) : Int :=
  if 0 ≤ x then (x + 1 / 2).floor else -((-x + 1 / 2).floor)

/-- The number of quanta 2⁻ᶠ nearest to a number (00 R12). -/
def toFix (frac : Nat) (x : Rat) : Int := roundAway (x * (2 ^ frac : Nat))

/-- The number that a count of quanta 2⁻ᶠ stands for. -/
def ofFix (frac : Nat) (n : Int) : Rat := (n : Rat) / (2 ^ frac : Nat)

/-- A field of `w` bits read as two's complement (00 R12). -/
def signedOf (w n : Nat) : Int := if n < 2 ^ (w - 1) then n else (n : Int) - 2 ^ w

/-- The low `w` bits of an integer in two's complement. -/
def wrapTo (w : Nat) (x : Int) : Nat := (x % (2 ^ w : Nat)).toNat

/-- `a − b` in a counter of `w` bits, taken as signed (00 R13). -/
def modDiff (w : Nat) (a b : Nat) : Int := signedOf w (wrapTo w ((a : Int) - b))

/-- An integer held between two bounds. -/
def clampI (lo hi x : Int) : Int := if x < lo then lo else if hi < x then hi else x

/-- A number held between two bounds. -/
def clampR (lo hi x : Rat) : Rat := if x < lo then lo else if hi < x then hi else x

/-- The size of a number. -/
def absR (x : Rat) : Rat := if x < 0 then -x else x

/-- The larger of two numbers. -/
def maxR (x y : Rat) : Rat := if x < y then y else x

/-- The smaller of two numbers. -/
def minR (x y : Rat) : Rat := if y < x then y else x

/-- The sign of a number, 1 for 0. -/
def signR (x : Rat) : Rat := if x < 0 then -1 else 1

/-- Numbers inside a lane are kept on a grid of 2⁻⁴⁸ (the internal formats are the lanes' own: DESIGN CHOICE,
assumption log 7). -/
def grid (x : Rat) : Rat := ofFix 48 (toFix 48 x)

/-- A number placed into a signed format of `w` bits with `frac` fraction bits, rounded (00 R12); beyond the range the
format takes an open value. -/
def fmtQ (w frac : Nat) (x : Rat) : Rat :=
  let n := toFix frac x
  if -(2 ^ (w - 1) : Nat) ≤ n ∧ n < (2 ^ (w - 1) : Nat) then ofFix frac n
  else ofFix frac (signedOf w (Config.overflow w frac x).toNat)

/-- A number placed into a signed format, saturating at its range. -/
def fmtSat (w frac : Nat) (x : Rat) : Rat :=
  ofFix frac (clampI (-(2 ^ (w - 1) : Nat)) ((2 ^ (w - 1) : Nat) - 1) (toFix frac x))

/-- An angle in turns placed into UQ0.32, where it wraps at a turn (00 R12, 03 R106). -/
def fmtTurn (x : Rat) : Rat := ofFix 32 ((toFix 32 x % 2 ^ 32 : Int))

/-- A quotient; the quotient by zero is open. -/
def divR (x y : Rat) : Rat := if y = 0 then Config.divByZero x else grid (x / y)

/-- A product on the grid. -/
def mulR (x y : Rat) : Rat := grid (x * y)

/-- The `n` bytes of a number, least significant first (00 R11). -/
def bytesLE : Nat → Nat → List Byte
  | 0, _ => []
  | n + 1, x => BitVec.ofNat 8 x :: bytesLE n (x / 256)

/-- The number that bytes spell, least significant first (00 R11). -/
def ofBytesLE : List Byte → Nat
  | [] => 0
  | b :: bs => b.toNat + 256 * ofBytesLE bs

/-- The number spelt by `n` bytes of a record from an offset. -/
def fieldLE (bs : List Byte) (off n : Nat) : Nat := ofBytesLE ((bs.drop off).take n)

/-- A byte list cut or filled with zeros to a length. -/
def padTo (n : Nat) (bs : List Byte) : List Byte := bs.take n ++ List.replicate (n - bs.length) 0

/-- One bit of a number. -/
def bitOf (x n : Nat) : Nat := x / 2 ^ n % 2

/-- One bit of a number, as a truth value. -/
def testB (x n : Nat) : Bool := bitOf x n == 1

/-- A truth value as a bit. -/
def b2n (b : Bool) : Nat := if b then 1 else 0

/-- Bits `hi` to `lo` of a number. -/
def bitsOf (x hi lo : Nat) : Nat := x / 2 ^ lo % 2 ^ (hi + 1 - lo)

/-- One step of a reflected CRC over one bit (polynomial in reflected form). -/
def crcBitR (poly c : Nat) : Nat := if c % 2 = 1 then Nat.xor (c / 2) poly else c / 2

/-- A reflected CRC register taken over one byte. -/
def crcByteR (poly : Nat) (c : Nat) (b : Byte) : Nat :=
  Nat.repeat (crcBitR poly) 8 (Nat.xor c b.toNat)

/-- A CRC register of `w` bits taken over one bit, most significant bit first. -/
def crcBitN (w poly c : Nat) : Nat :=
  if c / 2 ^ (w - 1) % 2 = 1 then Nat.xor (c * 2 % 2 ^ w) poly else c * 2 % 2 ^ w

/-- A CRC register of `w` bits taken over one byte, most significant bit first. -/
def crcByteN (w poly : Nat) (c : Nat) (b : Byte) : Nat :=
  Nat.repeat (crcBitN w poly) 8 (Nat.xor c (b.toNat * 2 ^ (w - 8)))

/-- The CRC-32C register taken over bytes, before the final inversion (15 R475). -/
def crc32cRun (c : Nat) (bs : List Byte) : Nat := bs.foldl (crcByteR 0x82F63B78) c

/-- CRC-32C (15 R475). -/
def crc32c (bs : List Byte) : Nat := Nat.xor (crc32cRun 0xFFFFFFFF bs) 0xFFFFFFFF

/-- The integer square root by bisection on bits, from bit `k` down. -/
def isqrtFrom (x : Nat) : Nat → Nat → Nat
  | 0, r => if (r + 1) * (r + 1) ≤ x then r + 1 else r
  | k + 1, r => isqrtFrom x k (if (r + 2 ^ (k + 1)) * (r + 2 ^ (k + 1)) ≤ x then r + 2 ^ (k + 1) else r)

/-- The integer square root. -/
def isqrt (x : Nat) : Nat := isqrtFrom x (x.log2 / 2 + 1) 0

/-- The square root of a number that is not negative, on the grid; 0 for a negative one. -/
def sqrtR (x : Rat) : Rat := if x ≤ 0 then 0 else ofFix 48 (isqrt (toFix 96 x).toNat)

/-- π to 60 binary digits. -/
def piR : Rat := mkRat 3622009729038561421 (2 ^ 60)

/-- The terms of the sine series from the k-th on: t is the present term, x2 the square of the angle. -/
def sinSeries (x2 : Rat) : Nat → Nat → Rat → Rat
  | 0, _, _ => 0
  | n + 1, k, t => t + sinSeries x2 n (k + 2) (grid (-t * x2 / ((k + 1) * (k + 2) : Nat)))

/-- The sine of an angle in turns. The angle is reduced to a quarter turn first. -/
def sinTurn (a : Rat) : Rat :=
  let f := a - a.floor
  let q := if f ≤ 1 / 4 then f else if f ≤ 3 / 4 then 1 / 2 - f else f - 1
  let x := grid (q * 2 * piR)
  grid (sinSeries (grid (x * x)) 14 1 x)

/-- The cosine of an angle in turns. -/
def cosTurn (a : Rat) : Rat := sinTurn (a + 1 / 4)

/-- The series of the arc tangent for a small argument: t is the present power, x2 the square. -/
def atanSeries (x2 : Rat) : Nat → Nat → Rat → Rat
  | 0, _, _ => 0
  | n + 1, k, t => t / (k : Nat) + atanSeries x2 n (k + 2) (grid (-t * x2))

/-- The arc tangent in radians, for an argument from −1 to 1; halved twice before the series. -/
def atanR (x : Rat) : Rat :=
  let h (y : Rat) : Rat := grid (y / (1 + sqrtR (1 + y * y)))
  let y := h (h x)
  4 * grid (atanSeries (grid (y * y)) 24 1 y)

/-- The angle of a vector in turns, from 0 up to 1; 0 for the zero vector. -/
def angleTurn (x y : Rat) : Rat :=
  if x = 0 ∧ y = 0 then 0
  else
    let r : Rat :=
      if absR y ≤ absR x then
        (if 0 < x then atanR (y / x) / (2 * piR) else 1 / 2 + atanR (y / x) / (2 * piR))
      else
        (if 0 < y then 1 / 4 - atanR (x / y) / (2 * piR) else 3 / 4 - atanR (x / y) / (2 * piR))
    grid (r - r.floor)

/-- The natural logarithm of a number from 1 to 2, by the series of the inverse hyperbolic tangent. -/
def lnNear (x : Rat) : Rat :=
  let z := grid ((x - 1) / (x + 1))
  let rec go (z2 : Rat) : Nat → Nat → Rat → Rat
    | 0, _, _ => 0
    | n + 1, k, t => t / (k : Nat) + go z2 n (k + 2) (grid (t * z2))
  grid (2 * go (grid (z * z)) 24 1 z)

/-- Doubling or halving a positive number into 1 to 2, counting the steps. -/
def lnSplit : Nat → Rat → Int → Rat × Int
  | 0, x, n => (x, n)
  | k + 1, x, n => if x < 1 then lnSplit k (2 * x) (n - 1) else if 2 ≤ x then lnSplit k (x / 2) (n + 1) else (x, n)

/-- The natural logarithm of a positive number on the grid. -/
def lnR (x : Rat) : Rat :=
  let r := lnSplit 96 x 0
  grid ((r.2 : Rat) * lnNear 2 + lnNear r.1)

/-- The exponential series. -/
def expSeries (x : Rat) : Nat → Nat → Rat → Rat
  | 0, _, _ => 0
  | n + 1, k, t => t + expSeries x n (k + 1) (grid (t * x / (k : Nat)))

/-- The exponential of a number, the integer part taken as powers of 2. -/
def expR (x : Rat) : Rat :=
  let n := (x / lnNear 2).floor
  let r := expSeries (grid (x - (n : Rat) * lnNear 2)) 24 1 1
  if 0 ≤ n then grid (r * (2 ^ n.toNat : Nat)) else grid (r / (2 ^ (-n).toNat : Nat))

end Sys2Proof.Machine
end

