-- ==== Sys2Proof/Machine/RegMap.lean ====
section
/-! DEFINITION. The register map: every field of every register table of the spec (address, bits, access code, reset),
one name per field, and one row list per block of 01_architecture R48.
The access codes are those of 00_scope R14; an indexed register's field takes its index, which wraps at its count. -/

namespace Sys2Proof.Machine

/-- The access codes of 00_scope R14. -/
inductive Access where
  | ro | rw | rwl | w1c | rc | wo
  deriving DecidableEq, Repr

/-- A field of a register word: the word's address and the field's bits. -/
structure Fld where
  addr : Nat
  msb : Nat
  lsb : Nat
  deriving DecidableEq, Repr

/-- One row of a register table: the field at index 0, the strides and counts of its indices (outermost first),
its access code and its value at reset. -/
structure RegRow where
  fld : Fld
  dims : List (Nat × Nat)
  access : Access
  reset : Nat
  deriving DecidableEq, Repr

/-- The number of bits of a field. -/
def Fld.width (f : Fld) : Nat := f.msb + 1 - f.lsb

/-- The field taken out of a word. -/
def Fld.get (f : Fld) (w : Word) : Nat := w.toNat / 2 ^ f.lsb % 2 ^ f.width

/-- The field's bits of a word, as a word in place. -/
def Fld.mask (f : Fld) : Word := BitVec.ofNat 32 ((2 ^ f.width - 1) * 2 ^ f.lsb)

/-- The word with the field replaced (the value truncated to the field's width). -/
def Fld.set (f : Fld) (v : Nat) (w : Word) : Word :=
  (w &&& ~~~f.mask) ||| BitVec.ofNat 32 (v % 2 ^ f.width * 2 ^ f.lsb)

/-- Whether an offset from a row's first word falls on one of the row's words. -/
def offsetInDims : Nat → List (Nat × Nat) → Bool
  | d, [] => d == 0
  | d, (stride, count) :: rest => d / stride < count && offsetInDims (d % stride) rest

/-- Whether the word at address `a` holds this row's field. -/
def RegRow.covers (r : RegRow) (a : Nat) : Bool :=
  r.fld.addr ≤ a && offsetInDims (a - r.fld.addr) r.dims

namespace R

/-- R33, RO: TB[31:0]; the read latches TB[63:32] -/
abbrev TB_CNT_LO : Fld := ⟨0x40010000, 31, 0⟩
/-- R33, RO: TB[63:32] as latched by the last read of TB.CNT_LO -/
abbrev TB_CNT_HI : Fld := ⟨0x40010004, 31, 0⟩
/-- R33, RO: current tick number -/
abbrev TB_TICKNO : Fld := ⟨0x40010008, 31, 0⟩
/-- R33, RO: cycles since the last tick boundary, 0 to tick period − 1 -/
abbrev TB_PHASE : Fld := ⟨0x4001000C, 14, 0⟩
/-- R33, RO: TB[31:0] at the last tick boundary; the read latches TB.LAST_HI -/
abbrev TB_LAST_LO : Fld := ⟨0x40010010, 31, 0⟩
/-- R33, RO: TB[63:32] at the last tick boundary -/
abbrev TB_LAST_HI : Fld := ⟨0x40010014, 31, 0⟩
/-- R33, RO: rate correction in force, signed, in units of 2⁻³² of the nominal rate -/
abbrev TB_TRIM : Fld := ⟨0x40010018, 31, 0⟩
/-- R42, RW: 1: raise the consumer interrupt when FILL ≥ WMARK -/
abbrev QM_Qnn_CTL_WM_IE (nn : Nat) : Fld := ⟨0x40020000 + 0x10 * (nn % 64), 16, 16⟩
/-- R42, RW: fill level for the interrupt, 1 to DEPTH; 0 and values above DEPTH act as 1 -/
abbrev QM_Qnn_CTL_WMARK (nn : Nat) : Fld := ⟨0x40020000 + 0x10 * (nn % 64), 8, 0⟩
/-- R42, RO: 0: WAIT, 1: DROP, 2: REFUSE, 3: reserved -/
abbrev QM_Qnn_STAT_POLICY (nn : Nat) : Fld := ⟨0x40020004 + 0x10 * (nn % 64), 31, 30⟩
/-- R42, RO: slots in the queue -/
abbrev QM_Qnn_STAT_DEPTH (nn : Nat) : Fld := ⟨0x40020004 + 0x10 * (nn % 64), 26, 18⟩
/-- R42, RO: slots holding an item, reserved by a push in progress, or withheld while the consumer is disabled (R39) -/
abbrev QM_Qnn_STAT_FILL (nn : Nat) : Fld := ⟨0x40020004 + 0x10 * (nn % 64), 17, 9⟩
/-- R42, RO: credits held by the producer -/
abbrev QM_Qnn_STAT_CREDIT (nn : Nat) : Fld := ⟨0x40020004 + 0x10 * (nn % 64), 8, 0⟩
/-- R42, RC: items dropped or refused; saturates at 0xFFFF_FFFF -/
abbrev QM_Qnn_DROP_COUNT (nn : Nat) : Fld := ⟨0x40020008 + 0x10 * (nn % 64), 31, 0⟩
/-- R42, W1C: a pop found the queue empty -/
abbrev QM_Qnn_FLAG_UNDERRUN (nn : Nat) : Fld := ⟨0x4002000C + 0x10 * (nn % 64), 1, 1⟩
/-- R42, W1C: at least one item dropped or refused since last cleared -/
abbrev QM_Qnn_FLAG_DROPPED (nn : Nat) : Fld := ⟨0x4002000C + 0x10 * (nn % 64), 0, 0⟩
/-- R44, W1C: bit n set: watermark reached on Q(n), n = 0–31 -/
abbrev QM_IRQ0 : Fld := ⟨0x40020400, 31, 0⟩
/-- R44, W1C: bit n set: watermark reached on Q(n + 32), n = 0–31 -/
abbrev QM_IRQ1 : Fld := ⟨0x40020404, 31, 0⟩
/-- R89, WO: 1: check the shadow table and swap it in per R58 -/
abbrev TT_CTL_SWAP : Fld := ⟨0x40030000, 0, 0⟩
/-- R89, RWL: tick period in cyc, 0x1F40 to 0x4E20 (8,000–20,000) -/
abbrev TT_PERIOD_CYC : Fld := ⟨0x40030004, 14, 0⟩
/-- R89, RO: code of the last refusal, per R57 -/
abbrev TT_STAT_REJCODE : Fld := ⟨0x40030008, 23, 16⟩
/-- R89, RO: bit n − 1 set: task code n lacks recomputation reserve -/
abbrev TT_STAT_NORES : Fld := ⟨0x40030008, 14, 12⟩
/-- R89, RO: a swap is pending (R58, R59) -/
abbrev TT_STAT_SWPEND : Fld := ⟨0x40030008, 2, 2⟩
/-- R89, W1C: a swap or period write was refused, or a shadow write was ignored per R59 (REJCODE 0x0B) -/
abbrev TT_STAT_REJ : Fld := ⟨0x40030008, 1, 1⟩
/-- R89, RO: a swap or period change is pending -/
abbrev TT_STAT_PEND : Fld := ⟨0x40030008, 0, 0⟩
/-- R89, RW: shadow entry n enabled; n = 0–15 -/
abbrev TT_ENTRYn_W0_EN (n : Nat) : Fld := ⟨0x40030100 + 0x8 * (n % 16), 31, 31⟩
/-- R89, RW: lane 0–3 -/
abbrev TT_ENTRYn_W0_LANE (n : Nat) : Fld := ⟨0x40030100 + 0x8 * (n % 16), 29, 28⟩
/-- R89, RW: 0: task, 1: idle window, 2–15: refused -/
abbrev TT_ENTRYn_W0_KIND (n : Nat) : Fld := ⟨0x40030100 + 0x8 * (n % 16), 27, 24⟩
/-- R89, RW: task code per R53; ignored for KIND 1 -/
abbrev TT_ENTRYn_W0_TASK (n : Nat) : Fld := ⟨0x40030100 + 0x8 * (n % 16), 23, 16⟩
/-- R89, RW: start offset in cyc -/
abbrev TT_ENTRYn_W0_START (n : Nat) : Fld := ⟨0x40030100 + 0x8 * (n % 16), 14, 0⟩
/-- R89, RW: budget (KIND 0) or window length (KIND 1), in cyc -/
abbrev TT_ENTRYn_W1_SPAN (n : Nat) : Fld := ⟨0x40030104 + 0x8 * (n % 16), 14, 0⟩
/-- R89, RO: active entry n, word 0, same fields as TT.ENTRYn_W0 -/
abbrev TT_ACTIVEn_W0 (n : Nat) : Fld := ⟨0x40030200 + 0x8 * (n % 16), 31, 0⟩
/-- R89, RO: active entry n, word 1, same fields as TT.ENTRYn_W1 -/
abbrev TT_ACTIVEn_W1 (n : Nat) : Fld := ⟨0x40030204 + 0x8 * (n % 16), 31, 0⟩
/-- R90, RO: consecutive ticks with Hold-1, per R77 -/
abbrev LN_STAT_HOLDRUN : Fld := ⟨0x40040000, 19, 16⟩
/-- R90, RO: lane holding the siding role -/
abbrev LN_STAT_SIDING : Fld := ⟨0x40040000, 9, 8⟩
/-- R90, RO: bit n set: lane n unusable -/
abbrev LN_STAT_UNUSABLE : Fld := ⟨0x40040000, 7, 4⟩
/-- R90, RO: 1: a lane is unusable -/
abbrev LN_STAT_DEGRADED : Fld := ⟨0x40040000, 0, 0⟩
/-- R90, RO: execution length of task code n, in cyc -/
abbrev LN_TASKLENn (n : Nat) : Fld := ⟨0x40040004 + 0x4 * (n % 4), 9, 0⟩
/-- R90, RC: residue errors on lane n; saturates; n = 0–3 -/
abbrev LN_ERRn_RESIDUE (n : Nat) : Fld := ⟨0x40040020 + 0x4 * (n % 4), 31, 16⟩
/-- R90, RC: parity errors on lane n; saturates -/
abbrev LN_ERRn_PARITY (n : Nat) : Fld := ⟨0x40040020 + 0x4 * (n % 4), 15, 0⟩
/-- R90, RC: recomputations that took effect; saturates -/
abbrev LN_RECOMP : Fld := ⟨0x40040030, 31, 0⟩
/-- R90, RC: Hold-1 events; saturates -/
abbrev LN_HOLD1 : Fld := ⟨0x40040034, 31, 0⟩
/-- R90, RO: lane of the last error -/
abbrev LN_LASTERR_LANE : Fld := ⟨0x40040038, 31, 30⟩
/-- R90, RO: 0: register-file parity, 1: residue, 2: lane-data parity on state or upstream output, 3: lane-data parity on coefficient or table -/
abbrev LN_LASTERR_KIND : Fld := ⟨0x40040038, 29, 28⟩
/-- R90, RO: task code running at the error; 0x00 for the scrub -/
abbrev LN_LASTERR_TASK : Fld := ⟨0x40040038, 27, 20⟩
/-- R90, RO: tick offset of detection, in cyc -/
abbrev LN_LASTERR_OFFSET : Fld := ⟨0x40040038, 14, 0⟩
/-- R90, RO: TICKNO of the last error -/
abbrev LN_LASTERR_TICK : Fld := ⟨0x4004003C, 31, 0⟩
/-- R90, RO: bit n set: table ID n is stale -/
abbrev LN_TBLSTALE : Fld := ⟨0x40040040, 15, 0⟩
/-- R90, RW: expected CRC-32C of the table to be checked -/
abbrev LN_TBLCRC : Fld := ⟨0x40040044, 31, 0⟩
/-- R90, WO: 1: check table ID per R82 -/
abbrev LN_TBLCHK_GO : Fld := ⟨0x40040048, 31, 31⟩
/-- R90, WO: table ID to check -/
abbrev LN_TBLCHK_ID : Fld := ⟨0x40040048, 3, 0⟩
/-- R90, RO: last check failed; cleared by GO -/
abbrev LN_TBLRES_FAIL : Fld := ⟨0x4004004C, 1, 1⟩
/-- R90, RO: last check passed; cleared by GO -/
abbrev LN_TBLRES_DONE : Fld := ⟨0x4004004C, 0, 0⟩
/-- R141, RW: 0: PM, 1: induction -/
abbrev LN_CF_MACH_TYPE : Fld := ⟨0x40041000, 8, 8⟩
/-- R141, RW: pole pairs, 1–32 -/
abbrev LN_CF_MACH_PP : Fld := ⟨0x40041000, 5, 0⟩
/-- R141, RW: Rs, UQ2.30 in V_BASE/I_BASE -/
abbrev LN_CF_RS : Fld := ⟨0x40041004, 31, 0⟩
/-- R141, RW: Ld or σLs, UQ0.32 in s × V_BASE/I_BASE -/
abbrev LN_CF_LD : Fld := ⟨0x40041008, 31, 0⟩
/-- R141, RW: Lq or σLs, same format -/
abbrev LN_CF_LQ : Fld := ⟨0x4004100C, 31, 0⟩
/-- R141, RW: PM flux or nominal rotor flux, UQ0.32 in V_BASE·s -/
abbrev LN_CF_PSI : Fld := ⟨0x40041010, 31, 0⟩
/-- R141, RW: Lm, UQ0.32 as LN.CF_LD -/
abbrev LN_CF_LM : Fld := ⟨0x40041014, 31, 0⟩
/-- R141, RW: rotor time constant, UQ8.24 in s -/
abbrev LN_CF_TR : Fld := ⟨0x40041018, 31, 0⟩
/-- R141, RW: Lm / Lr, UQ1.31 -/
abbrev LN_CF_KR : Fld := ⟨0x4004101C, 31, 0⟩
/-- R141, RW: d proportional gain, UQ8.24 -/
abbrev LN_CF_KPD : Fld := ⟨0x40041020, 31, 0⟩
/-- R141, RW: d integral gain, UQ16.16 per s -/
abbrev LN_CF_KID : Fld := ⟨0x40041024, 31, 0⟩
/-- R141, RW: q proportional gain, UQ8.24 -/
abbrev LN_CF_KPQ : Fld := ⟨0x40041028, 31, 0⟩
/-- R141, RW: q integral gain, UQ16.16 per s -/
abbrev LN_CF_KIQ : Fld := ⟨0x4004102C, 31, 0⟩
/-- R141, RW: prediction weight W, UQ1.15; reset 1.0 -/
abbrev LN_CF_PRED : Fld := ⟨0x40041030, 15, 0⟩
/-- R141, RW: current limit, UQ2.30 -/
abbrev LN_CF_IMAX : Fld := ⟨0x40041034, 31, 0⟩
/-- R141, RW: modulation ceiling, UQ1.15, 0.5–1.102 7 -/
abbrev LN_CF_MMAX : Fld := ⟨0x40041038, 15, 0⟩
/-- R141, RW: voltage margin, UQ0.16; reset 0.05 -/
abbrev LN_CF_FWMARG : Fld := ⟨0x4004103C, 15, 0⟩
/-- R141, RW: field-weakening proportional gain, UQ8.24 -/
abbrev LN_CF_FWKP : Fld := ⟨0x40041040, 31, 0⟩
/-- R141, RW: field-weakening integral gain, UQ16.16 per s -/
abbrev LN_CF_FWKI : Fld := ⟨0x40041044, 31, 0⟩
/-- R141, RW: field-weakening current limit, UQ2.30; a value above IMAX acts as IMAX (R118) -/
abbrev LN_CF_IDFW : Fld := ⟨0x40041048, 31, 0⟩
/-- R141, RW: field-weakening onset for an induction machine, UQ16.16 rad/s -/
abbrev LN_CF_WFW : Fld := ⟨0x4004104C, 31, 0⟩
/-- R141, RW: angle offset, UQ0.32 turn -/
abbrev LN_CF_THOFS : Fld := ⟨0x40041050, 31, 0⟩
/-- R141, RW: 1.5 × V_BASE × I_BASE, UQ24.8 in W -/
abbrev LN_CF_PBASE : Fld := ⟨0x40041054, 31, 0⟩
/-- R141, RW: torque at the last MTPA entry, UQ24.8 in N·m -/
abbrev LN_CF_TMAX : Fld := ⟨0x40041058, 31, 0⟩
/-- R179, RO: a swap is pending -/
abbrev LN_BANK_PEND : Fld := ⟨0x40040050, 1, 1⟩
/-- R179, RO: 0: bank A active, 1: bank B active -/
abbrev LN_BANK_ACTIVE : Fld := ⟨0x40040050, 0, 0⟩
/-- R179, RO: TICKNO of the pending or last swap -/
abbrev LN_BANK_TICK : Fld := ⟨0x40040054, 31, 0⟩
/-- R180, RW: load feed-forward T̂L in R150 -/
abbrev LN_OL_CFG_FFEN : Fld := ⟨0x40042000, 12, 12⟩
/-- R180, RW: inertia feed-forward in R150 -/
abbrev LN_OL_CFG_JFFEN : Fld := ⟨0x40042000, 11, 11⟩
/-- R180, RW: cogging term per R172 -/
abbrev LN_OL_CFG_COGEN : Fld := ⟨0x40042000, 10, 10⟩
/-- R180, RW: position correction per R171 -/
abbrev LN_OL_CFG_PCEN : Fld := ⟨0x40042000, 9, 9⟩
/-- R180, RW: virtual compliance -/
abbrev LN_OL_CFG_CMPEN : Fld := ⟨0x40042000, 8, 8⟩
/-- R180, RW: [6] rising, [7] falling detection -/
abbrev LN_OL_CFG_SHKDIR : Fld := ⟨0x40042000, 7, 6⟩
/-- R180, RW: heave compensation -/
abbrev LN_OL_CFG_HVEN : Fld := ⟨0x40042000, 5, 5⟩
/-- R180, RW: 0: tension from T̂L, 1: from TENSION_MEAS -/
abbrev LN_OL_CFG_TSRC : Fld := ⟨0x40042000, 4, 4⟩
/-- R180, RW: 0: SPEED_REF, 1: lever and curve, 2: CURVE_INPUT and curve, 3: as 0 -/
abbrev LN_OL_CFG_CMDSRC : Fld := ⟨0x40042000, 1, 0⟩
/-- R180, RW: inertia at the motor shaft, UQ16.16 kg·m²; 0 acts as 1.0 -/
abbrev LN_OL_J : Fld := ⟨0x40042004, 31, 0⟩
/-- R180, RW: viscous friction, UQ16.16 N·m·s/rad -/
abbrev LN_OL_B : Fld := ⟨0x40042008, 31, 0⟩
/-- R180, RW: observer pole, rad/s, 10–2,000; reset 250 -/
abbrev LN_OL_OBSP : Fld := ⟨0x4004200C, 15, 0⟩
/-- R180, RW: detection rate, UQ24.8 N·m/s; reset value never detects -/
abbrev LN_OL_SHKRATE : Fld := ⟨0x40042010, 31, 0⟩
/-- R180, RW: exit rate, UQ24.8 N·m/s -/
abbrev LN_OL_SHKEXIT : Fld := ⟨0x40042014, 31, 0⟩
/-- R180, RW: hold ticks for exit; reset 8,000 -/
abbrev LN_OL_CHOLD : Fld := ⟨0x40042018, 15, 0⟩
/-- R180, RW: spring, UQ24.8 N·m/rad -/
abbrev LN_OL_CK : Fld := ⟨0x4004201C, 31, 0⟩
/-- R180, RW: damper, UQ24.8 N·m·s/rad, at least 1.0 -/
abbrev LN_OL_CD : Fld := ⟨0x40042020, 31, 0⟩
/-- R180, RW: yield limit, UQ16.16 rad -/
abbrev LN_OL_CYMAX : Fld := ⟨0x40042024, 31, 0⟩
/-- R180, RW: yield recovery in PAYOUT, UQ16.16 rad/s -/
abbrev LN_OL_CRECOV : Fld := ⟨0x40042028, 31, 0⟩
/-- R180, RW: speed Kp, UQ16.16 N·m per rad/s -/
abbrev LN_OL_SKP : Fld := ⟨0x4004202C, 31, 0⟩
/-- R180, RW: speed Ki, UQ24.8 N·m per rad -/
abbrev LN_OL_SKI : Fld := ⟨0x40042030, 31, 0⟩
/-- R180, RW: speed gain index scale, UQ16.16 entries per rad/s -/
abbrev LN_OL_SGS : Fld := ⟨0x40042034, 31, 0⟩
/-- R180, RW: tension Kp, UQ0.32 rad/s per N -/
abbrev LN_OL_TKP : Fld := ⟨0x40042038, 31, 0⟩
/-- R180, RW: tension Ki, UQ0.32 rad/s per N·s -/
abbrev LN_OL_TKI : Fld := ⟨0x4004203C, 31, 0⟩
/-- R180, RW: tension gain index scale, UQ0.32 entries per N -/
abbrev LN_OL_TGS : Fld := ⟨0x40042040, 31, 0⟩
/-- R180, RW: position Kp, UQ0.32 rad/s per count -/
abbrev LN_OL_PKP : Fld := ⟨0x40042044, 31, 0⟩
/-- R180, RW: position Ki, UQ0.32 rad/s per count·s -/
abbrev LN_OL_PKI : Fld := ⟨0x40042048, 31, 0⟩
/-- R180, RW: position gain index scale, UQ8.24 entries per count -/
abbrev LN_OL_PGS : Fld := ⟨0x4004204C, 31, 0⟩
/-- R180, RW: ramp and trajectory acceleration, UQ16.16 rad/s² -/
abbrev LN_OL_RACC : Fld := ⟨0x40042050, 31, 0⟩
/-- R180, RW: ramp and trajectory deceleration, UQ16.16 rad/s² -/
abbrev LN_OL_RDEC : Fld := ⟨0x40042054, 31, 0⟩
/-- R180, RW: trajectory speed limit, UQ16.16 rad/s -/
abbrev LN_OL_PVMAX : Fld := ⟨0x40042058, 31, 0⟩
/-- R180, RW: torque slew, UQ24.8 N·m/s; 0: no limit -/
abbrev LN_OL_TSLEW : Fld := ⟨0x4004205C, 31, 0⟩
/-- R180, RW: motoring ceiling, UQ24.8 N·m -/
abbrev LN_OL_TMAXM : Fld := ⟨0x40042060, 31, 0⟩
/-- R180, RW: generating ceiling, UQ24.8 N·m -/
abbrev LN_OL_TMAXG : Fld := ⟨0x40042064, 31, 0⟩
/-- R180, RW: margin over \|T_e\|per R159, UQ24.8 N·m -/
abbrev LN_OL_TMARG : Fld := ⟨0x40042068, 31, 0⟩
/-- R180, RW: rated speed, UQ16.16 rad/s -/
abbrev LN_OL_WRATED : Fld := ⟨0x4004206C, 31, 0⟩
/-- R180, RW: speed reference limit, UQ16.16 rad/s -/
abbrev LN_OL_WLIM : Fld := ⟨0x40042070, 31, 0⟩
/-- R180, RW: rope metres per shaft radian, UQ0.32 -/
abbrev LN_OL_KFT : Fld := ⟨0x40042074, 31, 0⟩
/-- R180, RW: turn-on threshold, UQ0.16; reset 0.05 -/
abbrev LN_OL_THON : Fld := ⟨0x40042078, 31, 16⟩
/-- R180, RW: turn-off threshold, UQ0.16; reset 0.025 -/
abbrev LN_OL_THOFF : Fld := ⟨0x40042078, 15, 0⟩
/-- R180, RW: lever and load-pin timeout, ticks; reset 40 -/
abbrev LN_OL_LVTMO : Fld := ⟨0x4004207C, 31, 16⟩
/-- R180, RW: heave timeout, ticks; reset 600 -/
abbrev LN_OL_HVTMO : Fld := ⟨0x4004207C, 15, 0⟩
/-- R180, RW: blend ticks; reset 200 -/
abbrev LN_OL_HVBLEND : Fld := ⟨0x40042080, 31, 16⟩
/-- R180, RW: fade ticks; reset 4,000 -/
abbrev LN_OL_HVFADE : Fld := ⟨0x40042080, 15, 0⟩
/-- R180, RW: heave lead, cyc -/
abbrev LN_OL_HVLEAD : Fld := ⟨0x40042084, 23, 0⟩
/-- R180, RW: heave gain, UQ1.15, at most 1.0 -/
abbrev LN_OL_HVGAIN : Fld := ⟨0x40042088, 15, 0⟩
/-- R180, RW: cogging angle lead, cyc -/
abbrev LN_OL_COGLEAD : Fld := ⟨0x4004208C, 23, 0⟩
/-- R180, RW: cogging fade end, UQ16.16 rad/s -/
abbrev LN_OL_COGWMAX : Fld := ⟨0x40042090, 31, 0⟩
/-- R180, RW: cogging full scale, UQ24.8 N·m -/
abbrev LN_OL_TCOG : Fld := ⟨0x40042094, 31, 0⟩
/-- R180, RW: flux-build current, UQ0.16 of IMAX; reset 0.25 -/
abbrev LN_OL_IBUILD : Fld := ⟨0x40042098, 15, 0⟩
/-- R180, RW: flux-build timeout, ms; reset 500 -/
abbrev LN_OL_FLUXTMO : Fld := ⟨0x4004209C, 15, 0⟩
/-- R181, RO: per R178 -/
abbrev LN_OL_STAT_START : Fld := ⟨0x40042100, 26, 24⟩
/-- R181, RO: 0: off, 1: positive, 2: negative -/
abbrev LN_OL_STAT_HYST : Fld := ⟨0x40042100, 17, 16⟩
/-- R181, RO: load pin stale -/
abbrev LN_OL_STAT_LPSTALE : Fld := ⟨0x40042100, 9, 9⟩
/-- R181, RO: lever stale -/
abbrev LN_OL_STAT_LVSTALE : Fld := ⟨0x40042100, 8, 8⟩
/-- R181, RO: heave stale -/
abbrev LN_OL_STAT_HVSTALE : Fld := ⟨0x40042100, 7, 7⟩
/-- R181, RO: heave terms non-zero -/
abbrev LN_OL_STAT_HEAVE : Fld := ⟨0x40042100, 6, 6⟩
/-- R181, RO: yield at CYMAX -/
abbrev LN_OL_STAT_CYLIM : Fld := ⟨0x40042100, 5, 5⟩
/-- R181, RO: yield recovery in progress -/
abbrev LN_OL_STAT_RECOV : Fld := ⟨0x40042100, 4, 4⟩
/-- R181, RO: virtual compliance active -/
abbrev LN_OL_STAT_COMPL : Fld := ⟨0x40042100, 3, 3⟩
/-- R181, RO: shock flag per R163 -/
abbrev LN_OL_STAT_SHOCK : Fld := ⟨0x40042100, 2, 2⟩
/-- R181, RO: estimated-torque ceiling in force -/
abbrev LN_OL_STAT_CEILEST : Fld := ⟨0x40042100, 1, 1⟩
/-- R181, RO: T* clamped by a ceiling -/
abbrev LN_OL_STAT_CEIL : Fld := ⟨0x40042100, 0, 0⟩
/-- R181, RO: T̂L, Q24.8 N·m -/
abbrev LN_OL_TLHAT : Fld := ⟨0x40042104, 31, 0⟩
/-- R181, RO: T* posted, Q24.8 N·m -/
abbrev LN_OL_TDEM : Fld := ⟨0x40042108, 31, 0⟩
/-- R181, RO: compliance yield y, Q16.16 rad -/
abbrev LN_OL_Y : Fld := ⟨0x4004210C, 31, 0⟩
/-- R181, RO: ω_avg8 of the last start, Q16.16 rad/s -/
abbrev LN_OL_WAVG : Fld := ⟨0x40042110, 31, 0⟩
/-- R181, RC: shock detections; saturates -/
abbrev LN_OL_SHKCNT : Fld := ⟨0x40042114, 31, 0⟩
/-- R211, RO: cause in force: bit n of LN.MD_FLT + 1; 0x40 demand, 0x41 STO, 0x42 safety fault; 0x00 none -/
abbrev LN_MD_STAT_CAUSE : Fld := ⟨0x40043000, 31, 24⟩
/-- R211, RO: mode before EMERGENCY -/
abbrev LN_MD_STAT_PREV : Fld := ⟨0x40043000, 19, 17⟩
/-- R211, RO: sub-mode entered on demand -/
abbrev LN_MD_STAT_DEMAND : Fld := ⟨0x40043000, 16, 16⟩
/-- R211, RO: 0: none, 1–5 per R191 -/
abbrev LN_MD_STAT_SUB : Fld := ⟨0x40043000, 11, 8⟩
/-- R211, RO: 1–6 per R4; 6 while SUB is non-zero, PREV again when SUB returns to 0 (R191); 0: none selected since reset -/
abbrev LN_MD_STAT_MODE : Fld := ⟨0x40043000, 6, 4⟩
/-- R211, RO: per R6 -/
abbrev LN_MD_STAT_STATE : Fld := ⟨0x40043000, 2, 0⟩
/-- R211, RO: set commanded -/
abbrev LN_MD_BRK_SETCMD : Fld := ⟨0x40043004, 4, 4⟩
/-- R211, RO: level of BRK_FB -/
abbrev LN_MD_BRK_FB : Fld := ⟨0x40043004, 3, 3⟩
/-- R211, RO: 0: released, 1: release in progress, 2–6 per R197 -/
abbrev LN_MD_BRK_PH : Fld := ⟨0x40043004, 2, 0⟩
/-- R211, RO: latched causes per R203; cleared by RESET -/
abbrev LN_MD_FLT : Fld := ⟨0x40043008, 16, 0⟩
/-- R211, RWL: 0: THRUSTER, 1: WINCH, 2: GENERAL, 3: as 2 -/
abbrev LN_MD_CFG_PROF : Fld := ⟨0x4004300C, 9, 8⟩
/-- R211, RWL: 1: brake on SBC present -/
abbrev LN_MD_CFG_BRAKE : Fld := ⟨0x4004300C, 7, 7⟩
/-- R211, RWL: 1: BRK_FB confirms the set -/
abbrev LN_MD_CFG_BRKFB : Fld := ⟨0x4004300C, 6, 6⟩
/-- R211, RWL: 1: E-ASC permitted -/
abbrev LN_MD_CFG_ASCEN : Fld := ⟨0x4004300C, 5, 5⟩
/-- R211, RWL: 1: chopper fitted -/
abbrev LN_MD_CFG_CHEN : Fld := ⟨0x4004300C, 4, 4⟩
/-- R211, WO: 1: submit the request per R184 -/
abbrev LN_MD_REQ_GO : Fld := ⟨0x40043010, 31, 31⟩
/-- R211, WO: 1: evaluate at LN.MD_REQTICK -/
abbrev LN_MD_REQ_ABS : Fld := ⟨0x40043010, 30, 30⟩
/-- R211, WO: 1 ENABLE, 2 DISABLE, 3 START, 4 STOP, 5 EMERGENCY, 6 MODE, 7 RESET; others: RESULT 1 -/
abbrev LN_MD_REQ_CODE : Fld := ⟨0x40043010, 11, 8⟩
/-- R211, WO: mode for START and MODE -/
abbrev LN_MD_REQ_MODE : Fld := ⟨0x40043010, 6, 4⟩
/-- R211, WO: sub-mode for EMERGENCY, 1–5 -/
abbrev LN_MD_REQ_SUB : Fld := ⟨0x40043010, 2, 0⟩
/-- R211, RW: TICKNO for ABS = 1 -/
abbrev LN_MD_REQTICK : Fld := ⟨0x40043014, 31, 0⟩
/-- R211, RO: request pending -/
abbrev LN_MD_RES_PEND : Fld := ⟨0x40043018, 8, 8⟩
/-- R211, RO: 0 OK, 1 BAD_STATE, 2 FAULT_ACTIVE, 3 DC_LOW, 4 NOT_VALID, 5 BAD_PROFILE, 6 BUSY, 7 STO_ACTIVE, 8 CATCH_RANGE, 9 FLUX_TIMEOUT, 10 NO_FEEDBACK, 11 BR… -/
abbrev LN_MD_RES_RESULT : Fld := ⟨0x40043018, 3, 0⟩
/-- R211, RW: E-RAMP deceleration, UQ16.16 rad/s²; 0 acts as RDEC -/
abbrev LN_MD_ERDEC : Fld := ⟨0x4004301C, 31, 0⟩
/-- R211, RW: emergency stop timeout, ms; reset 20,000 -/
abbrev LN_MD_ERTMO : Fld := ⟨0x40043020, 15, 0⟩
/-- R211, RW: standstill speed, UQ16.16 rad/s; reset 1.0 -/
abbrev LN_MD_WSTOP : Fld := ⟨0x40043024, 31, 0⟩
/-- R211, RWL: ASC arming speed, UQ16.16 rad/s; reset never arms -/
abbrev LN_MD_ASCW : Fld := ⟨0x40043028, 31, 0⟩
/-- R211, RWL: ASC exit speed, UQ16.16 rad/s -/
abbrev LN_MD_ASCXW : Fld := ⟨0x4004302C, 31, 0⟩
/-- R211, RW: chopper gain, UQ8.8 per VDC_NOM; reset 20.0 -/
abbrev LN_MD_CHGAIN : Fld := ⟨0x40043030, 15, 0⟩
/-- R211, RW: E-LIMP ceiling factor, UQ0.16; reset 0.3 -/
abbrev LN_MD_LIMP_LIMPT : Fld := ⟨0x40043034, 31, 16⟩
/-- R211, RW: E-LIMP speed limit, UQ0.16 of WRATED; reset 0.3 -/
abbrev LN_MD_LIMP_LIMPW : Fld := ⟨0x40043034, 15, 0⟩
/-- R211, RW: brake set time, ms; reset 300 -/
abbrev LN_MD_BRKT_BRKSET : Fld := ⟨0x40043038, 31, 16⟩
/-- R211, RW: brake release time, ms; reset 300 -/
abbrev LN_MD_BRKT_BRKREL : Fld := ⟨0x40043038, 15, 0⟩
/-- R211, RW: taper time, ms; reset 200 -/
abbrev LN_MD_BRKTAPER : Fld := ⟨0x4004303C, 31, 16⟩
/-- R211, RW: slip limit, feedback counts; reset 256 -/
abbrev LN_MD_BRKSLIP : Fld := ⟨0x4004303C, 15, 0⟩
/-- R211, RO: T* at the last taper start, Q24.8 N·m -/
abbrev LN_MD_HOLDT : Fld := ⟨0x40043040, 31, 0⟩
/-- R211, RO: regenerative ceiling R in force, Q24.8 N·m -/
abbrev LN_MD_REGEN : Fld := ⟨0x40043044, 31, 0⟩
/-- R211, RO: GK held on with d_ch = 1 -/
abbrev LN_MD_CHSTAT_FULL : Fld := ⟨0x40043048, 17, 17⟩
/-- R211, RO: chopper active per R206 -/
abbrev LN_MD_CHSTAT_ACT : Fld := ⟨0x40043048, 16, 16⟩
/-- R211, RO: d_ch of the last commit, UQ1.15 -/
abbrev LN_MD_CHSTAT_DCH : Fld := ⟨0x40043048, 15, 0⟩
/-- R139, RW: control OSR N, 16–256; other values ignored and CFGERR set -/
abbrev SD_CFG_OSR : Fld := ⟨0x40050000, 17, 9⟩
/-- R139, RWL: 1: 20 MHz, 0: 10 MHz -/
abbrev SD_CFG_CLKSEL : Fld := ⟨0x40050000, 1, 1⟩
/-- R139, RW: 1: SDCLK driven and filters running -/
abbrev SD_CFG_EN : Fld := ⟨0x40050000, 0, 0⟩
/-- R139, RW: zero-sequence current limit, UQ2.30, reset 0.1 I_BASE -/
abbrev SD_ISUMLIM : Fld := ⟨0x40050004, 31, 0⟩
/-- R139, RO: measurement lag in cyc per R96 -/
abbrev SD_LAG : Fld := ⟨0x40050008, 15, 0⟩
/-- R139, RW: 1: live calibration runs -/
abbrev SD_CAL_CTL_EN : Fld := ⟨0x4005000C, 31, 31⟩
/-- R139, RW: ticks discarded per position, 1–255 -/
abbrev SD_CAL_CTL_SETTLE : Fld := ⟨0x4005000C, 23, 16⟩
/-- R139, RW: ticks accumulated per position, 16–4,096; values outside act as the nearer limit -/
abbrev SD_CAL_CTL_DWELL : Fld := ⟨0x4005000C, 12, 0⟩
/-- R139, W1C: spare out of range per R105 -/
abbrev SD_CAL_STAT_CALERR : Fld := ⟨0x40050010, 16, 16⟩
/-- R139, RO: completed passes; wraps -/
abbrev SD_CAL_STAT_PASSES : Fld := ⟨0x40050010, 15, 8⟩
/-- R139, RO: selector position on SDSEL0–SDSEL2 -/
abbrev SD_CAL_STAT_POS : Fld := ⟨0x40050010, 2, 0⟩
/-- R139, RW: positions 2–7, four bits each from bit 0; channel 0–11, or 0xF to skip -/
abbrev SD_CAL_MAP : Fld := ⟨0x40050014, 23, 0⟩
/-- R139, RW: position-1 reference, Q1.31 of full scale; reset 0.75 -/
abbrev SD_CAL_REF : Fld := ⟨0x40050018, 31, 0⟩
/-- R139, RO: N_eff in use per R97 -/
abbrev SD_STAT_OSRCLAMP : Fld := ⟨0x4005001C, 2, 2⟩
/-- R139, W1C: refused configuration -/
abbrev SD_STAT_CFGERR : Fld := ⟨0x4005001C, 1, 1⟩
/-- R139, RO: every assigned channel VALID -/
abbrev SD_STAT_ALLVALID : Fld := ⟨0x4005001C, 0, 0⟩
/-- R139, RWL: channel enabled -/
abbrev SD_CHn_CFG_EN (n : Nat) : Fld := ⟨0x40050100 + 0x20 * (n % 12), 31, 31⟩
/-- R139, RWL: role per R92 -/
abbrev SD_CHn_CFG_ROLE (n : Nat) : Fld := ⟨0x40050100 + 0x20 * (n % 12), 27, 24⟩
/-- R139, RW: sample delay after SDCLK rise, cyc -/
abbrev SD_CHn_CFG_SKEW (n : Nat) : Fld := ⟨0x40050100 + 0x20 * (n % 12), 3, 0⟩
/-- R139, RW: Q2.30 scale to the role's unit; reset 1.0 -/
abbrev SD_CHn_GAIN (n : Nat) : Fld := ⟨0x40050104 + 0x20 * (n % 12), 31, 0⟩
/-- R139, RW: Q1.31 offset, full-scale units -/
abbrev SD_CHn_OFS (n : Nat) : Fld := ⟨0x40050108 + 0x20 * (n % 12), 31, 0⟩
/-- R139, RO: Q1.15 gain correction -/
abbrev SD_CHn_CAL_GCAL (n : Nat) : Fld := ⟨0x4005010C + 0x20 * (n % 12), 31, 16⟩
/-- R139, RO: Q1.15 offset correction, full-scale units -/
abbrev SD_CHn_CAL_OCAL (n : Nat) : Fld := ⟨0x4005010C + 0x20 * (n % 12), 15, 0⟩
/-- R139, RO: INST, Q1.31 normalised -/
abbrev SD_CHn_INST (n : Nat) : Fld := ⟨0x40050110 + 0x20 * (n % 12), 31, 0⟩
/-- R139, RO: MEAN, Q2.30 scaled -/
abbrev SD_CHn_MEAN (n : Nat) : Fld := ⟨0x40050114 + 0x20 * (n % 12), 31, 0⟩
/-- R139, W1C: per R105 -/
abbrev SD_CHn_STAT_SUSPECT (n : Nat) : Fld := ⟨0x40050118 + 0x20 * (n % 12), 2, 2⟩
/-- R139, W1C: per R99 -/
abbrev SD_CHn_STAT_LOSS (n : Nat) : Fld := ⟨0x40050118 + 0x20 * (n % 12), 1, 1⟩
/-- R139, RO: per R99 -/
abbrev SD_CHn_STAT_VALID (n : Nat) : Fld := ⟨0x40050118 + 0x20 * (n % 12), 0, 0⟩
/-- R139, WO: 1: restart the channel per R99 -/
abbrev SD_CHn_RST_RESTART (n : Nat) : Fld := ⟨0x4005011C + 0x20 * (n % 12), 0, 0⟩
/-- R140, RW: per R123 -/
abbrev PW_CTL_RUN : Fld := ⟨0x40060000, 0, 0⟩
/-- R140, RW: ticks per carrier, 1–40; a write of 0 or 41–63 is ignored and sets PW.STAT.CFGERR -/
abbrev PW_CARRIER_K : Fld := ⟨0x40060004, 25, 20⟩
/-- R140, RW: carrier start offset in the tick, cyc; reset 4,184 -/
abbrev PW_CARRIER_ORIGIN : Fld := ⟨0x40060004, 14, 0⟩
/-- R140, RW: carrier phase in ticks, 0 to K − 1 -/
abbrev PW_PHASE : Fld := ⟨0x40060008, 5, 0⟩
/-- R140, RW: patterns per electrical period, 1–64 -/
abbrev PW_NPAT : Fld := ⟨0x4006000C, 14, 8⟩
/-- R140, RW: modulation per R125 -/
abbrev PW_MODE : Fld := ⟨0x4006000C, 2, 0⟩
/-- R140, RW: schedule dead time, 80–4,000 cyc (0.2–10 µs); reset 800 cyc (2 µs) -/
abbrev PW_DT : Fld := ⟨0x40060010, 12, 0⟩
/-- R140, RW: minimum pulse, cyc; reset 400 cyc (1 µs) -/
abbrev PW_MINPULSE : Fld := ⟨0x40060014, 15, 0⟩
/-- R140, W1C: per R124 -/
abbrev PW_STAT_CFGERR : Fld := ⟨0x40060018, 8, 8⟩
/-- R140, RO: compensation residue carried -/
abbrev PW_STAT_VSRES : Fld := ⟨0x40060018, 4, 4⟩
/-- R140, W1C: a late edge occurred -/
abbrev PW_STAT_LATE : Fld := ⟨0x40060018, 1, 1⟩
/-- R140, RO: real schedules being committed -/
abbrev PW_STAT_RUNNING : Fld := ⟨0x40060018, 0, 0⟩
/-- R140, RO: CSEQ of the last commit -/
abbrev PW_CSEQ : Fld := ⟨0x4006001C, 31, 0⟩
/-- R140, RC: late edges; saturates -/
abbrev PW_LATECNT : Fld := ⟨0x40060020, 31, 0⟩
/-- R140, RC: compensations dropped; saturates -/
abbrev PW_VSLOST : Fld := ⟨0x40060024, 15, 0⟩
/-- R140, RO: word w = 0–31 of the last schedule -/
abbrev PW_LASTSCHED (w : Nat) : Fld := ⟨0x40060100 + 0x4 * (w % 32), 31, 0⟩
/-- R245, RWL: hardware minimum dead time, 80–4,000 cyc; other values ignored -/
abbrev GD_DTMIN : Fld := ⟨0x40070000, 12, 0⟩
/-- R245, RW: refresh pulses per R232 -/
abbrev GD_REFRESH_EN : Fld := ⟨0x40070004, 31, 31⟩
/-- R245, RW: 1,600–8,000 cyc (4–20 µs); values outside act as the nearer limit -/
abbrev GD_REFRESH_TREF : Fld := ⟨0x40070004, 12, 0⟩
/-- R245, RW: turn-on delay limit, cyc; reset 4,000 -/
abbrev GD_DLYMAX : Fld := ⟨0x40070008, 15, 0⟩
/-- R245, RW: PERIODIC interval, 100–10,000 µs; reset 1,000 -/
abbrev GD_TELPER : Fld := ⟨0x4007000C, 15, 0⟩
/-- R245, RO: bit c set: channel c holds a latch -/
abbrev GD_STAT_LATCH : Fld := ⟨0x40070010, 30, 24⟩
/-- R245, RO: bit c set: channel c locked -/
abbrev GD_STAT_LOCK : Fld := ⟨0x40070010, 22, 16⟩
/-- R245, RO: legs U, V, W from bit 8 -/
abbrev GD_STAT_BSWARN : Fld := ⟨0x40070010, 10, 8⟩
/-- R245, RO: precharge complete per R233 -/
abbrev GD_STAT_PREDONE : Fld := ⟨0x40070010, 0, 0⟩
/-- R245, RC: refresh pulses completed; saturates -/
abbrev GD_RFCNT : Fld := ⟨0x40070014, 31, 0⟩
/-- R245, WO: 1: start off-state diagnostics -/
abbrev GD_DIAG_CTL_GO : Fld := ⟨0x40070018, 31, 31⟩
/-- R245, RW: per R240 -/
abbrev GD_DIAG_CTL_LOAD : Fld := ⟨0x40070018, 0, 0⟩
/-- R245, RO: run complete; cleared by GO -/
abbrev GD_DIAG_RES_DONE : Fld := ⟨0x4007001C, 31, 31⟩
/-- R245, RO: run aborted per R239 -/
abbrev GD_DIAG_RES_ABORT : Fld := ⟨0x4007001C, 30, 30⟩
/-- R245, RO: conditions of R239 unmet -/
abbrev GD_DIAG_RES_NOTRUN : Fld := ⟨0x4007001C, 29, 29⟩
/-- R245, RO: node U class per R241 -/
abbrev GD_DIAG_RES_U : Fld := ⟨0x4007001C, 14, 12⟩
/-- R245, RO: node V class -/
abbrev GD_DIAG_RES_V : Fld := ⟨0x4007001C, 11, 9⟩
/-- R245, RO: node W class -/
abbrev GD_DIAG_RES_W : Fld := ⟨0x4007001C, 8, 6⟩
/-- R245, RO: chopper class: 0, 2 or 3 -/
abbrev GD_DIAG_RES_K : Fld := ⟨0x4007001C, 2, 0⟩
/-- R245, RW: per R221; reset +15.0 V -/
abbrev GD_CHc_CFG0_VON (c : Nat) : Fld := ⟨0x40070100 + 0x40 * (c % 7), 31, 28⟩
/-- R245, RW: per R221; reset −8.0 V -/
abbrev GD_CHc_CFG0_VOFF (c : Nat) : Fld := ⟨0x40070100 + 0x40 * (c % 7), 27, 24⟩
/-- R245, RW: source current; reset 6.0 A -/
abbrev GD_CHc_CFG0_SRCSTEP (c : Nat) : Fld := ⟨0x40070100 + 0x40 * (c % 7), 20, 16⟩
/-- R245, RW: sink current; reset 6.0 A -/
abbrev GD_CHc_CFG0_SNKSTEP (c : Nat) : Fld := ⟨0x40070100 + 0x40 * (c % 7), 12, 8⟩
/-- R245, RW: soft turn-off current; reset 1.5 A -/
abbrev GD_CHc_CFG0_SOFTSTEP (c : Nat) : Fld := ⟨0x40070100 + 0x40 * (c % 7), 4, 0⟩
/-- R245, RW: desaturation detection -/
abbrev GD_CHc_CFG1_DSEN (c : Nat) : Fld := ⟨0x40070104 + 0x40 * (c % 7), 31, 31⟩
/-- R245, RW: per R221; reset 7.0 V -/
abbrev GD_CHc_CFG1_DSTH (c : Nat) : Fld := ⟨0x40070104 + 0x40 * (c % 7), 27, 24⟩
/-- R245, RW: per R221; reset 2.0 µs (800 cyc) -/
abbrev GD_CHc_CFG1_DSBLANK (c : Nat) : Fld := ⟨0x40070104 + 0x40 * (c % 7), 22, 16⟩
/-- R245, RW: per R221; reset +2.0 V -/
abbrev GD_CHc_CFG1_OFFTH (c : Nat) : Fld := ⟨0x40070104 + 0x40 * (c % 7), 11, 8⟩
/-- R245, RW: Miller clamp per R222 -/
abbrev GD_CHc_CFG1_MCEN (c : Nat) : Fld := ⟨0x40070104 + 0x40 * (c % 7), 0, 0⟩
/-- R245, RW: external boosters per R242 -/
abbrev GD_CHc_BOOST_EN (c : Nat) : Fld := ⟨0x40070108 + 0x40 * (c % 7), 31, 31⟩
/-- R245, RW: booster delay, ⅛ cyc -/
abbrev GD_CHc_BOOST_DLY (c : Nat) : Fld := ⟨0x40070108 + 0x40 * (c % 7), 9, 0⟩
/-- R245, RO: CONFIG awaiting ACK -/
abbrev GD_CHc_STAT_CFGPEND (c : Nat) : Fld := ⟨0x4007010C + 0x40 * (c % 7), 31, 31⟩
/-- R245, W1C: CONFIG refused or unacknowledged -/
abbrev GD_CHc_STAT_CFGREJ (c : Nat) : Fld := ⟨0x4007010C + 0x40 * (c % 7), 30, 30⟩
/-- R245, RO: per R218 -/
abbrev GD_CHc_STAT_LOCK (c : Nat) : Fld := ⟨0x4007010C + 0x40 * (c % 7), 13, 13⟩
/-- R245, RO: PERMIT at PX-C -/
abbrev GD_CHc_STAT_PERMIT (c : Nat) : Fld := ⟨0x4007010C + 0x40 * (c % 7), 12, 12⟩
/-- R245, RO: VGEON at PX-C -/
abbrev GD_CHc_STAT_VGEON (c : Nat) : Fld := ⟨0x4007010C + 0x40 * (c % 7), 11, 11⟩
/-- R245, RO: ONCMD at PX-C -/
abbrev GD_CHc_STAT_ONCMD (c : Nat) : Fld := ⟨0x4007010C + 0x40 * (c % 7), 10, 10⟩
/-- R245, RO: high sides only; 0 on others -/
abbrev GD_CHc_STAT_BSWARN (c : Nat) : Fld := ⟨0x4007010C + 0x40 * (c % 7), 9, 9⟩
/-- R245, RO: latch per R237 -/
abbrev GD_CHc_STAT_SCHED_BAD (c : Nat) : Fld := ⟨0x4007010C + 0x40 * (c % 7), 7, 7⟩
/-- R245, RO: latch -/
abbrev GD_CHc_STAT_SYNC (c : Nat) : Fld := ⟨0x4007010C + 0x40 * (c % 7), 6, 6⟩
/-- R245, RO: latch -/
abbrev GD_CHc_STAT_LINK (c : Nat) : Fld := ⟨0x4007010C + 0x40 * (c % 7), 5, 5⟩
/-- R245, RO: latch -/
abbrev GD_CHc_STAT_OFFCMD (c : Nat) : Fld := ⟨0x4007010C + 0x40 * (c % 7), 4, 4⟩
/-- R245, RO: latch SHOOT_ATTEMPT -/
abbrev GD_CHc_STAT_SHOOT (c : Nat) : Fld := ⟨0x4007010C + 0x40 * (c % 7), 3, 3⟩
/-- R245, RO: latch -/
abbrev GD_CHc_STAT_DESAT (c : Nat) : Fld := ⟨0x4007010C + 0x40 * (c % 7), 2, 2⟩
/-- R245, RO: latch, negative rail -/
abbrev GD_CHc_STAT_UVLON (c : Nat) : Fld := ⟨0x4007010C + 0x40 * (c % 7), 1, 1⟩
/-- R245, RO: latch, positive rail or V_BS -/
abbrev GD_CHc_STAT_UVLOP (c : Nat) : Fld := ⟨0x4007010C + 0x40 * (c % 7), 0, 0⟩
/-- R245, RO: positive rail, or V_BS on high sides, UQ8.8 V -/
abbrev GD_CHc_RAIL_POS (c : Nat) : Fld := ⟨0x40070110 + 0x40 * (c % 7), 31, 16⟩
/-- R245, RO: negative rail, Q8.8 V -/
abbrev GD_CHc_RAIL_NEG (c : Nat) : Fld := ⟨0x40070110 + 0x40 * (c % 7), 15, 0⟩
/-- R245, RO: LTB error at the last SYNC, signed ps -/
abbrev GD_CHc_SYNCERR (c : Nat) : Fld := ⟨0x40070114 + 0x40 * (c % 7), 15, 0⟩
/-- R245, RC: delayed turn-ons; saturates -/
abbrev GD_CHc_CNT_DELAYED (c : Nat) : Fld := ⟨0x40070118 + 0x40 * (c % 7), 31, 16⟩
/-- R245, RC: pulses dropped per R225; saturates -/
abbrev GD_CHc_CNT_DROPPED (c : Nat) : Fld := ⟨0x40070118 + 0x40 * (c % 7), 15, 0⟩
/-- R245, RC: frames failing their check, both lanes; saturates -/
abbrev GD_CHc_LINKERR (c : Nat) : Fld := ⟨0x4007011C + 0x40 * (c % 7), 31, 0⟩
/-- R277, RWL: action per R261 -/
abbrev FB_SEL_IDXACT : Fld := ⟨0x40080000, 13, 12⟩
/-- R277, RWL: 0: none, 1: ABZ, 2: SINCOS; others act as 0 -/
abbrev FB_SEL_IDXSRC : Fld := ⟨0x40080000, 10, 8⟩
/-- R277, RWL: secondary, per R246 -/
abbrev FB_SEL_SEC : Fld := ⟨0x40080000, 6, 4⟩
/-- R277, RWL: primary, per R246 -/
abbrev FB_SEL_PRI : Fld := ⟨0x40080000, 2, 0⟩
/-- R277, WO: 1: commanded correction per R260 -/
abbrev FB_CTL_CORR : Fld := ⟨0x40080004, 31, 31⟩
/-- R277, WO: 1: return to the primary per R271 -/
abbrev FB_CTL_USEPRI : Fld := ⟨0x40080004, 30, 30⟩
/-- R277, RW: 1: sources and emulation running, per R247 -/
abbrev FB_CTL_EN : Fld := ⟨0x40080004, 0, 0⟩
/-- R277, W1C: refused configuration or command -/
abbrev FB_STAT_CFGERR : Fld := ⟨0x40080008, 11, 11⟩
/-- R277, RO: primary usable per R248 -/
abbrev FB_STAT_PRIOK : Fld := ⟨0x40080008, 10, 10⟩
/-- R277, RO: secondary VALID and aligned -/
abbrev FB_STAT_SECOK : Fld := ⟨0x40080008, 9, 9⟩
/-- R277, RO: index source aligned -/
abbrev FB_STAT_ALIGNED : Fld := ⟨0x40080008, 8, 8⟩
/-- R277, RO: per R249 -/
abbrev FB_STAT_WHY : Fld := ⟨0x40080008, 5, 4⟩
/-- R277, RO: operating source -/
abbrev FB_STAT_OPSRC : Fld := ⟨0x40080008, 2, 0⟩
/-- R277, RO: p_fb[31:0] at the last boundary; the read latches FB.POS_HI -/
abbrev FB_POS_LO : Fld := ⟨0x4008000C, 31, 0⟩
/-- R277, RO: p_fb[47:32] -/
abbrev FB_POS_HI : Fld := ⟨0x40080010, 15, 0⟩
/-- R277, RO: θm, UQ0.32 turn -/
abbrev FB_THETA : Fld := ⟨0x40080014, 31, 0⟩
/-- R277, RO: ωm, Q16.16 rad/s -/
abbrev FB_OMEGA : Fld := ⟨0x40080018, 31, 0⟩
/-- R277, RO: correction, signed counts -/
abbrev FB_POSCORR : Fld := ⟨0x4008001C, 31, 0⟩
/-- R277, RO: HOFS[31:0]; the read latches FB.HOFS_HI -/
abbrev FB_HOFS_LO : Fld := ⟨0x40080020, 31, 0⟩
/-- R277, RO: HOFS[47:32] -/
abbrev FB_HOFS_HI : Fld := ⟨0x40080024, 15, 0⟩
/-- R277, RW: speed window, 1–16 ticks; 0 and 17–31 act as 16 -/
abbrev FB_SPD_WIN : Fld := ⟨0x40080028, 4, 0⟩
/-- R277, RW: revalidation ticks; reset 4,000 -/
abbrev FB_REVAL : Fld := ⟨0x4008002C, 15, 0⟩
/-- R278, RWL: index gated to A and B high -/
abbrev FB_ABZ_CFG_ZQUAL : Fld := ⟨0x40080100, 8, 8⟩
/-- R278, RWL: 1: reverse the counting direction -/
abbrev FB_ABZ_CFG_SWAP : Fld := ⟨0x40080100, 0, 0⟩
/-- R278, RWL: counts per revolution, multiple of 4, 16–16,777,212; others refused -/
abbrev FB_ABZ_CPR : Fld := ⟨0x40080104, 23, 0⟩
/-- R278, RO: raw count, live -/
abbrev FB_CNT : Fld := ⟨0x40080108, 31, 0⟩
/-- R278, RO: line fault on ENC_Z -/
abbrev FB_ABZ_STAT_ZFAULT : Fld := ⟨0x4008010C, 2, 2⟩
/-- R278, RO: line fault on ENC_A or ENC_B -/
abbrev FB_ABZ_STAT_ABFAULT : Fld := ⟨0x4008010C, 1, 1⟩
/-- R278, W1C: illegal transition seen -/
abbrev FB_ABZ_STAT_ILL : Fld := ⟨0x4008010C, 0, 0⟩
/-- R278, RC: illegal transitions; saturates -/
abbrev FB_ABZ_ILLCNT : Fld := ⟨0x40080110, 31, 0⟩
/-- R278, RO: last index latch -/
abbrev FB_IDXLAT : Fld := ⟨0x40080140, 31, 0⟩
/-- R278, RO: previous index latch -/
abbrev FB_IDXPREV : Fld := ⟨0x40080144, 31, 0⟩
/-- R278, RW: automatic correction per R260 -/
abbrev FB_IDX_CFG_AUTOCORR : Fld := ⟨0x40080148, 31, 31⟩
/-- R278, RW: index angle, counts below CPR -/
abbrev FB_IDX_CFG_IANG : Fld := ⟨0x40080148, 23, 0⟩
/-- R278, RW: drift tolerance, counts -/
abbrev FB_IDXTOL : Fld := ⟨0x4008014C, 15, 0⟩
/-- R278, RO: last drift, signed, saturating at ±32,767; 0x8000 for a miss -/
abbrev FB_IDX_STAT_DRIFT : Fld := ⟨0x40080150, 31, 16⟩
/-- R278, RO: consecutive IDXDRIFT events -/
abbrev FB_IDX_STAT_RUN : Fld := ⟨0x40080150, 11, 8⟩
/-- R278, RO: consecutive in-tolerance latches; saturates at 15 -/
abbrev FB_IDX_STAT_GOOD : Fld := ⟨0x40080150, 7, 4⟩
/-- R278, RO: direction at the last latch; 1: up -/
abbrev FB_IDX_STAT_DIR : Fld := ⟨0x40080150, 2, 2⟩
/-- R278, W1C: index miss per R258 -/
abbrev FB_IDX_STAT_MISS : Fld := ⟨0x40080150, 1, 1⟩
/-- R278, RO: per R259 -/
abbrev FB_IDX_STAT_DEGRADED : Fld := ⟨0x40080150, 0, 0⟩
/-- R278, RO: uncorrected drift, signed counts -/
abbrev FB_IDX_ACC : Fld := ⟨0x40080154, 31, 0⟩
/-- R278, RC: index latches; saturates -/
abbrev FB_IDXCNT : Fld := ⟨0x40080158, 31, 0⟩
/-- R279, RWL: periods per revolution, 1–65,535; 0 refused -/
abbrev FB_SC_LINES : Fld := ⟨0x40080180, 15, 0⟩
/-- R279, RW: upper amplitude limit; reset 1.3 -/
abbrev FB_SC_AWIN_AMAX : Fld := ⟨0x40080184, 31, 16⟩
/-- R279, RW: lower amplitude limit; reset 0.5 -/
abbrev FB_SC_AWIN_AMIN : Fld := ⟨0x40080184, 15, 0⟩
/-- R279, RW: offset, Q1.15 of converter full scale -/
abbrev FB_SC_OFS_SIN : Fld := ⟨0x40080188, 31, 16⟩
/-- R279, RW: offset, Q1.15 -/
abbrev FB_SC_OFS_COS : Fld := ⟨0x40080188, 15, 0⟩
/-- R279, RW: gain, UQ1.15; reset 1.0 -/
abbrev FB_SC_GAIN_SIN : Fld := ⟨0x4008018C, 31, 16⟩
/-- R279, RW: gain, UQ1.15 -/
abbrev FB_SC_GAIN_COS : Fld := ⟨0x4008018C, 15, 0⟩
/-- R279, RO: amplitude per R263 -/
abbrev FB_SC_STAT_AMP : Fld := ⟨0x40080190, 31, 16⟩
/-- R279, W1C: per R263 -/
abbrev FB_SC_STAT_QUADERR : Fld := ⟨0x40080190, 1, 1⟩
/-- R279, W1C: per R263 -/
abbrev FB_SC_STAT_AMPERR : Fld := ⟨0x40080190, 0, 0⟩
/-- R279, RWL: resolver pole pairs, 1–15; 0 acts as 1 -/
abbrev FB_RS_CFG_PP : Fld := ⟨0x400801C0, 31, 28⟩
/-- R279, RWL: excitation period, 20,000–100,000 cyc; others refused -/
abbrev FB_RS_CFG_EXCDIV : Fld := ⟨0x400801C0, 16, 0⟩
/-- R279, RW: sample delay after each peak, cyc, below EXCDIV / 2 -/
abbrev FB_RS_EXC_PHASE : Fld := ⟨0x400801C4, 31, 16⟩
/-- R279, RW: excitation peak, UQ4.4 V, 0x20–0xC0 (2.0–12.0 V); reset 5.0 V -/
abbrev FB_RS_EXC_AMPL : Fld := ⟨0x400801C4, 7, 0⟩
/-- R279, RW: as FB.SC_AWIN -/
abbrev FB_RS_AWIN_AMAX : Fld := ⟨0x400801C8, 31, 16⟩
/-- R279, RW: as FB.SC_AWIN -/
abbrev FB_RS_AWIN_AMIN : Fld := ⟨0x400801C8, 15, 0⟩
/-- R279, RW: angle offset, UQ0.32 turn -/
abbrev FB_RS_OFS : Fld := ⟨0x400801CC, 31, 0⟩
/-- R279, RO: amplitude -/
abbrev FB_RS_STAT_AMP : Fld := ⟨0x400801D0, 31, 16⟩
/-- R279, RO: per R265 -/
abbrev FB_RS_STAT_EXCFAULT : Fld := ⟨0x400801D0, 1, 1⟩
/-- R279, W1C: per R265 -/
abbrev FB_RS_STAT_AMPERR : Fld := ⟨0x400801D0, 0, 0⟩
/-- R279, RWL: clock 400 MHz / (2 × CLKDIV); 50–255; below 50 acts as 50 -/
abbrev FB_SSI_CFG_CLKDIV : Fld := ⟨0x40080200, 31, 24⟩
/-- R279, RWL: even parity bit after the data -/
abbrev FB_SSI_CFG_PARITY : Fld := ⟨0x40080200, 18, 18⟩
/-- R279, RWL: error bit after the data, 0 = error -/
abbrev FB_SSI_CFG_ERRBIT : Fld := ⟨0x40080200, 17, 17⟩
/-- R279, RWL: data Gray-coded -/
abbrev FB_SSI_CFG_GRAY : Fld := ⟨0x40080200, 16, 16⟩
/-- R279, RWL: single-turn bits, 1 to BITS; others refused -/
abbrev FB_SSI_CFG_STBITS : Fld := ⟨0x40080200, 13, 8⟩
/-- R279, RWL: data bits, 8–32; others refused -/
abbrev FB_SSI_CFG_BITS : Fld := ⟨0x40080200, 5, 0⟩
/-- R279, RW: frame start before the boundary, cyc; reset 6,000 -/
abbrev FB_SSI_LEAD : Fld := ⟨0x40080204, 15, 0⟩
/-- R279, RW: jump limit, counts -/
abbrev FB_SSI_JMAX : Fld := ⟨0x40080208, 31, 0⟩
/-- R279, RW: angle offset, UQ0.32 turn -/
abbrev FB_SSI_OFS : Fld := ⟨0x4008020C, 31, 0⟩
/-- R279, W1C: per R267 -/
abbrev FB_SSI_STAT_LATE : Fld := ⟨0x40080210, 2, 2⟩
/-- R279, W1C: per R267 -/
abbrev FB_SSI_STAT_JUMP : Fld := ⟨0x40080210, 1, 1⟩
/-- R279, W1C: start, parity or error bit -/
abbrev FB_SSI_STAT_FRAMEERR : Fld := ⟨0x40080210, 0, 0⟩
/-- R279, RC: bad frames; saturates -/
abbrev FB_SSI_ERRCNT : Fld := ⟨0x40080214, 31, 0⟩
/-- R279, RWL: 3 bits per state code 0–7 from bit 0; 0–5 sector, 6–7 invalid -/
abbrev FB_HALL_MAP : Fld := ⟨0x40080240, 23, 0⟩
/-- R279, RW: standstill timeout, ms; reset 100 -/
abbrev FB_HALL_CFG_TMO : Fld := ⟨0x40080244, 31, 16⟩
/-- R279, RW: input filter, cyc; reset 400 -/
abbrev FB_HALL_CFG_FILT : Fld := ⟨0x40080244, 11, 0⟩
/-- R279, RW: sector offset, UQ0.32 electrical turn -/
abbrev FB_HALL_OFS : Fld := ⟨0x40080248, 31, 0⟩
/-- R279, W1C: non-adjacent transition -/
abbrev FB_HALL_STAT_SKIP : Fld := ⟨0x4008024C, 5, 5⟩
/-- R279, W1C: invalid state seen -/
abbrev FB_HALL_STAT_BADSTATE : Fld := ⟨0x4008024C, 4, 4⟩
/-- R279, RO: input state C, B, A -/
abbrev FB_HALL_STAT_STATE : Fld := ⟨0x4008024C, 2, 0⟩
/-- R280, RW: outputs active per R275 -/
abbrev FB_EMU_CFG_EN : Fld := ⟨0x40080280, 31, 31⟩
/-- R280, RW: 0: p_fb, 1: primary raw, 2: secondary raw, 3: as 0 -/
abbrev FB_EMU_CFG_SRC : Fld := ⟨0x40080280, 1, 0⟩
/-- R280, RW: numerator; 0 acts as 1 -/
abbrev FB_EMU_RATIO_M : Fld := ⟨0x40080284, 31, 16⟩
/-- R280, RW: denominator; 0 acts as 1 -/
abbrev FB_EMU_RATIO_N : Fld := ⟨0x40080284, 15, 0⟩
/-- R280, RW: output counts per Z; 0: Z held low -/
abbrev FB_EMU_ZCPR : Fld := ⟨0x40080288, 23, 0⟩
/-- R280, RO: target lead over the output, counts; saturates -/
abbrev FB_EMU_STAT_LAG : Fld := ⟨0x4008028C, 31, 16⟩
/-- R280, W1C: correction emitted per R276 -/
abbrev FB_EMU_STAT_STEP : Fld := ⟨0x4008028C, 1, 1⟩
/-- R280, W1C: output behind its target per R276 -/
abbrev FB_EMU_STAT_OVR : Fld := ⟨0x4008028C, 0, 0⟩
/-- R318, RWL: 0: none, 1: root, 2: standby root, 3: as 0 -/
abbrev BL_CFG_ROOT : Fld := ⟨0x40090000, 9, 8⟩
/-- R318, RW: ports enabled -/
abbrev BL_CFG_EN : Fld := ⟨0x40090000, 0, 0⟩
/-- R318, RWL: preferred ID; 0: none -/
abbrev BL_UID_PREF : Fld := ⟨0x40090004, 26, 16⟩
/-- R318, RO: assigned ID -/
abbrev BL_UID_ID : Fld := ⟨0x40090004, 10, 0⟩
/-- R318, RO: module serial [31:0] -/
abbrev BL_SERIAL_LO : Fld := ⟨0x40090008, 31, 0⟩
/-- R318, RO: module serial [47:32] -/
abbrev BL_SERIAL_HI : Fld := ⟨0x4009000C, 15, 0⟩
/-- R318, RO: role epoch -/
abbrev BL_EPOCH : Fld := ⟨0x40090010, 15, 0⟩
/-- R318, RO: consist number -/
abbrev BL_ROLE_CONSIST : Fld := ⟨0x40090014, 22, 16⟩
/-- R318, RO: slot -/
abbrev BL_ROLE_SLOT : Fld := ⟨0x40090014, 13, 8⟩
/-- R318, RO: 0 NONE, 1 HEAD, 2 MEMBER, 3 DEPUTY -/
abbrev BL_ROLE_KIND : Fld := ⟨0x40090014, 1, 0⟩
/-- R318, RWL: window start, cyc; reset 4,400 -/
abbrev BL_WIN_OPEN : Fld := ⟨0x40090018, 30, 16⟩
/-- R318, RWL: window length, cyc; reset 4,800 -/
abbrev BL_WIN_LEN : Fld := ⟨0x40090018, 14, 0⟩
/-- R318, RO: 0 UNSYNCED, 1 ACQUIRING, 2 LOCKED, 3 PERIOD -/
abbrev BL_SYNC_STATE : Fld := ⟨0x4009001C, 31, 30⟩
/-- R318, RO: per R292 -/
abbrev BL_SYNC_HOLDOVER : Fld := ⟨0x4009001C, 29, 29⟩
/-- R318, RO: hops to the root -/
abbrev BL_SYNC_HOPS : Fld := ⟨0x4009001C, 20, 16⟩
/-- R318, RO: error at the last SYNC, signed ps, saturating -/
abbrev BL_SYNC_ERR : Fld := ⟨0x4009001C, 15, 0⟩
/-- R318, RO: a closed ring passes through this unit -/
abbrev BL_STAT_RING : Fld := ⟨0x40090020, 8, 8⟩
/-- R318, RO: bit p: port p blocked -/
abbrev BL_STAT_BLOCKED : Fld := ⟨0x40090020, 7, 4⟩
/-- R318, RO: bit p: port p up -/
abbrev BL_STAT_UP : Fld := ⟨0x40090020, 3, 0⟩
/-- R318, RO: system tick number [31:0] -/
abbrev BL_SN : Fld := ⟨0x40090024, 31, 0⟩
/-- R318, RO: SN − TICKNO, modulo 2³² -/
abbrev BL_SNOFS : Fld := ⟨0x40090028, 31, 0⟩
/-- R318, RC: cells discarded as stale; saturates -/
abbrev BL_STALECNT : Fld := ⟨0x4009002C, 31, 0⟩
/-- R319, RO: neighbour ID -/
abbrev BL_Pp_STAT_NBR (p : Nat) : Fld := ⟨0x40090100 + 0x40 * (p % 4), 26, 16⟩
/-- R319, RO: transceiver loss of signal -/
abbrev BL_Pp_STAT_LOS (p : Nat) : Fld := ⟨0x40090100 + 0x40 * (p % 4), 1, 1⟩
/-- R319, RO: port up per R281 -/
abbrev BL_Pp_STAT_UP (p : Nat) : Fld := ⟨0x40090100 + 0x40 * (p % 4), 0, 0⟩
/-- R319, RO: one-way delay, UQ13.3 cyc -/
abbrev BL_Pp_DELAY (p : Nat) : Fld := ⟨0x40090104 + 0x40 * (p % 4), 15, 0⟩
/-- R319, RC: cells received; saturates -/
abbrev BL_Pp_RXCELLS (p : Nat) : Fld := ⟨0x40090108 + 0x40 * (p % 4), 31, 0⟩
/-- R319, RC: CRC failures; saturates -/
abbrev BL_Pp_CRCERR (p : Nat) : Fld := ⟨0x4009010C + 0x40 * (p % 4), 31, 0⟩
/-- R319, RC: cells discarded for type, hops, tick or window; saturates -/
abbrev BL_Pp_DISCARD (p : Nat) : Fld := ⟨0x40090110 + 0x40 * (p % 4), 31, 0⟩
/-- R319, RO: staged cell not yet sent -/
abbrev BL_Pp_MTX_BUSY (p : Nat) : Fld := ⟨0x40090114 + 0x40 * (p % 4), 1, 1⟩
/-- R319, WO: 1: send the staged cell per R286 -/
abbrev BL_Pp_MTX_GO (p : Nat) : Fld := ⟨0x40090114 + 0x40 * (p % 4), 0, 0⟩
/-- R319, WO: staged cell bytes 4w to 4w + 3, w = 0–7; bytes 30–31 ignored -/
abbrev BL_Pp_MTX_Ww (p : Nat) (w : Nat) : Fld := ⟨0x40090118 + 0x40 * (p % 4) + 0x4 * (w % 8), 31, 0⟩
/-- R320, RW: missing shares before detachment, ticks; reset 400; 0 acts as 1 -/
abbrev BL_CS_CFG_MISSMAX : Fld := ⟨0x40090400, 31, 16⟩
/-- R320, RW: windows before takeover, 1–15; 0 acts as 1 -/
abbrev BL_CS_CFG_TAKE : Fld := ⟨0x40090400, 3, 0⟩
/-- R320, RW: fade ticks; reset 400 -/
abbrev BL_CS_FADE : Fld := ⟨0x40090404, 15, 0⟩
/-- R320, RO: deputy ID; 0: none -/
abbrev BL_CS_UNITS_DEPUTY : Fld := ⟨0x40090408, 26, 16⟩
/-- R320, RO: head ID -/
abbrev BL_CS_UNITS_HEAD : Fld := ⟨0x40090408, 10, 0⟩
/-- R320, RO: this deputy has taken the head role -/
abbrev BL_CS_STAT_TAKEN : Fld := ⟨0x4009040C, 31, 31⟩
/-- R320, RO: per R304 -/
abbrev BL_CS_STAT_SHORT : Fld := ⟨0x4009040C, 30, 30⟩
/-- R320, RO: per R311 -/
abbrev BL_CS_STAT_BUDGETERR : Fld := ⟨0x4009040C, 29, 29⟩
/-- R320, RO: depth h -/
abbrev BL_CS_STAT_DEPTH : Fld := ⟨0x4009040C, 21, 16⟩
/-- R320, RO: units in the last distribution -/
abbrev BL_CS_STAT_PRESENT : Fld := ⟨0x4009040C, 6, 0⟩
/-- R320, RO: NOSHARE offset in the window, cyc -/
abbrev BL_CS_NSOFS : Fld := ⟨0x40090410, 31, 16⟩
/-- R320, RO: bound of R311, cyc -/
abbrev BL_CS_BOUND : Fld := ⟨0x40090410, 15, 0⟩
/-- R320, RO: consist ceiling C_pos, Q24.8 N·m -/
abbrev BL_CS_CPOS : Fld := ⟨0x40090414, 31, 0⟩
/-- R320, RO: consist ceiling C_neg, Q24.8 N·m -/
abbrev BL_CS_CNEG : Fld := ⟨0x40090418, 31, 0⟩
/-- R320, RO: consist demand D, Q24.8 N·m -/
abbrev BL_CS_D : Fld := ⟨0x4009041C, 31, 0⟩
/-- R320, RC: missing shares; saturates -/
abbrev BL_CS_MISSSH : Fld := ⟨0x40090420, 31, 0⟩
/-- R320, RC: missing contributions; saturates -/
abbrev BL_CS_MISSCT : Fld := ⟨0x40090424, 31, 0⟩
/-- R320, RO: slot s in use, s = 0–63 -/
abbrev BL_CS_Ms_ID_USED (s : Nat) : Fld := ⟨0x40090500 + 0x10 * (s % 64), 31, 31⟩
/-- R320, RO: unit ID -/
abbrev BL_CS_Ms_ID_UID (s : Nat) : Fld := ⟨0x40090500 + 0x10 * (s % 64), 26, 16⟩
/-- R320, RO: epoch expected -/
abbrev BL_CS_Ms_ID_EPOCH (s : Nat) : Fld := ⟨0x40090500 + 0x10 * (s % 64), 15, 0⟩
/-- R320, RO: weight w, UQ1.15 -/
abbrev BL_CS_Ms_W_WEIGHT (s : Nat) : Fld := ⟨0x40090504 + 0x10 * (s % 64), 31, 16⟩
/-- R320, RO: last STATUS per R306; 4: missing -/
abbrev BL_CS_Ms_W_STATUS (s : Nat) : Fld := ⟨0x40090504 + 0x10 * (s % 64), 2, 0⟩
/-- R320, RO: share scale T_SC, UQ24.8 N·m -/
abbrev BL_CS_Ms_TSC (s : Nat) : Fld := ⟨0x40090508 + 0x10 * (s % 64), 31, 0⟩
/-- R320, RO: last share computed, Q24.8 N·m -/
abbrev BL_CS_Ms_SHARE (s : Nat) : Fld := ⟨0x4009050C + 0x10 * (s % 64), 31, 0⟩
/-- R320, RO: route valid -/
abbrev BL_RT_n_VALID (n : Nat) : Fld := ⟨0x40091000 + 0x4 * (n % 1024), 2, 2⟩
/-- R320, RO: route port -/
abbrev BL_RT_n_PORT (n : Nat) : Fld := ⟨0x40091000 + 0x4 * (n % 1024), 1, 0⟩
/-- R320, RO: consist mask -/
abbrev BL_CM_c (c : Nat) : Fld := ⟨0x40092000 + 0x4 * (c % 128), 3, 0⟩
/-- R343, RWL: 0 none, 1 ACTIVE-ACTIVE, 2 ACTIVE-STANDBY, 3 as 0 -/
abbrev PM_CFG_CONF : Fld := ⟨0x400A0000, 9, 8⟩
/-- R343, RWL: 0: side A, 1: side B -/
abbrev PM_CFG_SIDE : Fld := ⟨0x400A0000, 4, 4⟩
/-- R343, RW: pairing per R323 -/
abbrev PM_CFG_EN : Fld := ⟨0x400A0000, 0, 0⟩
/-- R343, RWL: nominal share, UQ1.15; reset 0.5 -/
abbrev PM_SHARE : Fld := ⟨0x400A0004, 15, 0⟩
/-- R343, RW: fade ticks; reset 400 -/
abbrev PM_FADE : Fld := ⟨0x400A0008, 15, 0⟩
/-- R343, RWL: partner serial [31:0] -/
abbrev PM_PSER_LO : Fld := ⟨0x400A000C, 31, 0⟩
/-- R343, RWL: partner serial [47:32] -/
abbrev PM_PSER_HI : Fld := ⟨0x400A0010, 15, 0⟩
/-- R343, WO: 1: release per R337 -/
abbrev PM_CTL_RELEASE : Fld := ⟨0x400A0014, 31, 31⟩
/-- R343, WO: 1: engage per R338 -/
abbrev PM_CTL_ENGAGE : Fld := ⟨0x400A0014, 30, 30⟩
/-- R343, W1C: pairing or command refused -/
abbrev PM_STAT_CFGERR : Fld := ⟨0x400A0018, 15, 15⟩
/-- R343, RO: partner period differs -/
abbrev PM_STAT_PERIOD : Fld := ⟨0x400A0018, 14, 14⟩
/-- R343, RO: per R324 -/
abbrev PM_STAT_SYNCED : Fld := ⟨0x400A0018, 13, 13⟩
/-- R343, RO: per R334 -/
abbrev PM_STAT_TAKEOK : Fld := ⟨0x400A0018, 12, 12⟩
/-- R343, RO: per R327 -/
abbrev PM_STAT_MIRRLOST : Fld := ⟨0x400A0018, 11, 11⟩
/-- R343, RO: per R327 -/
abbrev PM_STAT_ALIVELOST : Fld := ⟨0x400A0018, 10, 10⟩
/-- R343, RO: CHG_OWN asserted -/
abbrev PM_STAT_OWN : Fld := ⟨0x400A0018, 9, 9⟩
/-- R343, RO: level of CHG_IN -/
abbrev PM_STAT_CHGIN : Fld := ⟨0x400A0018, 8, 8⟩
/-- R343, RO: this module leads (R329) or is active -/
abbrev PM_STAT_LEAD : Fld := ⟨0x400A0018, 7, 7⟩
/-- R343, RO: 0 UNPAIRED, 1 PAIRING, 2 FOLLOWING, 3 LEADING, 4 ALONE, 5 RELEASED -/
abbrev PM_STAT_PSTATE : Fld := ⟨0x400A0018, 2, 0⟩
/-- R343, RO: effective share, UQ1.15 -/
abbrev PM_SHAREEFF : Fld := ⟨0x400A001C, 15, 0⟩
/-- R343, RO: consecutive blocks missed -/
abbrev PM_MISS_BLK : Fld := ⟨0x400A0020, 11, 8⟩
/-- R343, RO: consecutive heartbeats missed -/
abbrev PM_MISS_HB : Fld := ⟨0x400A0020, 3, 0⟩
/-- R343, RC: blocks not valid; saturates -/
abbrev PM_BADBLK : Fld := ⟨0x400A0024, 31, 0⟩
/-- R343, RO: HBSEQ of the last valid partner block -/
abbrev PM_HBSEQ : Fld := ⟨0x400A0028, 31, 0⟩
/-- R343, RO: SN of the last join or release -/
abbrev PM_JOINSN : Fld := ⟨0x400A002C, 31, 0⟩
/-- R343, RW: p_fb tolerance, counts; reset 256 -/
abbrev PM_PTOL : Fld := ⟨0x400A0030, 31, 0⟩
/-- R343, RO: TB error against the partner, signed ps, saturating -/
abbrev PM_SYNCERR : Fld := ⟨0x400A0034, 15, 0⟩
/-- R373, RO: commissioning open per R362 -/
abbrev SB_LOCK_OPEN : Fld := ⟨0x400B0000, 1, 1⟩
/-- R373, RO: RWL fields locked -/
abbrev SB_LOCK_LOCKED : Fld := ⟨0x400B0000, 0, 0⟩
/-- R373, RO: per R351 -/
abbrev SB_STAT_GSUP : Fld := ⟨0x400B0004, 12, 12⟩
/-- R373, W1C: per R358 -/
abbrev SB_STAT_SRSTLONG : Fld := ⟨0x400B0004, 11, 11⟩
/-- R373, RO: per R359 -/
abbrev SB_STAT_GUARDDONE : Fld := ⟨0x400B0004, 10, 10⟩
/-- R373, RO: per R363 -/
abbrev SB_STAT_CRCERR : Fld := ⟨0x400B0004, 9, 9⟩
/-- R373, W1C: a Q38 drop (R40) -/
abbrev SB_STAT_SAFETY_EVT_LOST : Fld := ⟨0x400B0004, 8, 8⟩
/-- R373, RO: a safety fault is latched -/
abbrev SB_STAT_LOCKOUT : Fld := ⟨0x400B0004, 7, 7⟩
/-- R373, RO: SOUT0 off -/
abbrev SB_STAT_SBCSET : Fld := ⟨0x400B0004, 6, 6⟩
/-- R373, RO: SLS monitoring active -/
abbrev SB_STAT_SLSMON : Fld := ⟨0x400B0004, 5, 5⟩
/-- R373, RO: SLS selected -/
abbrev SB_STAT_SLS : Fld := ⟨0x400B0004, 4, 4⟩
/-- R373, RO: SS1 in progress -/
abbrev SB_STAT_SS1 : Fld := ⟨0x400B0004, 3, 3⟩
/-- R373, RO: STO decision in force -/
abbrev SB_STAT_STO : Fld := ⟨0x400B0004, 2, 2⟩
/-- R373, WO: any write restarts the MP watchdog (R29) -/
abbrev SB_MPWD : Fld := ⟨0x400B0008, 31, 0⟩
/-- R373, RO: latched safety faults per R356 -/
abbrev SB_SFLT : Fld := ⟨0x400B000C, 10, 0⟩
/-- R373, RO: first fault, bit + 1; 0: none -/
abbrev SB_FIRST_CODE : Fld := ⟨0x400B0010, 31, 24⟩
/-- R373, RO: TICKNO of the first fault -/
abbrev SB_FIRST_TICK : Fld := ⟨0x400B0014, 31, 0⟩
/-- R373, RO: CRC of the loaded or closed set -/
abbrev SB_CRC_CALC : Fld := ⟨0x400B0018, 31, 0⟩
/-- R373, RO: confirmed CRC -/
abbrev SB_CRC_CONF : Fld := ⟨0x400B001C, 31, 0⟩
/-- R373, RWL: FILT of STO_N, 5–100; values outside act as the nearer limit -/
abbrev SB_STO_FILT : Fld := ⟨0x400B0020, 6, 0⟩
/-- R373, RWL: per R346 -/
abbrev SB_SINi_CFG_ROLE (i : Nat) : Fld := ⟨0x400B0024 + 0x4 * (i % 4), 10, 8⟩
/-- R373, RWL: as SB.STO_FILT -/
abbrev SB_SINi_CFG_FILT (i : Nat) : Fld := ⟨0x400B0024 + 0x4 * (i % 4), 6, 0⟩
/-- R373, RO: filtered SRST -/
abbrev SB_IN_STAT_SRST : Fld := ⟨0x400B0034, 5, 5⟩
/-- R373, RO: filtered SIN3–SIN0 -/
abbrev SB_IN_STAT_SIN : Fld := ⟨0x400B0034, 4, 1⟩
/-- R373, RO: filtered STO_N -/
abbrev SB_IN_STAT_STO_N : Fld := ⟨0x400B0034, 0, 0⟩
/-- R373, RWL: UQ1.15 of full scale; reset 0.9 -/
abbrev SB_LIMIT_IPH : Fld := ⟨0x400B0040, 15, 0⟩
/-- R373, RWL: as SB.LIMIT_IPH; [31:16] reserved -/
abbrev SB_LIMIT_ICH : Fld := ⟨0x400B0044, 15, 0⟩
/-- R373, RWL: as SB.LIMIT_IPH; [31:16] reserved -/
abbrev SB_LIMIT_VOV : Fld := ⟨0x400B0048, 15, 0⟩
/-- R373, RWL: UQ16.16 rad/s -/
abbrev SB_LIMIT_WOS : Fld := ⟨0x400B004C, 31, 0⟩
/-- R373, RO: lane requests, written by LIMSHARE -/
abbrev SB_REQL_IPH : Fld := ⟨0x400B0050, 15, 0⟩
/-- R373, RO: lane requests, written by LIMSHARE -/
abbrev SB_REQL_ICH : Fld := ⟨0x400B0054, 15, 0⟩
/-- R373, RO: lane requests, written by LIMSHARE -/
abbrev SB_REQL_VOV : Fld := ⟨0x400B0058, 15, 0⟩
/-- R373, RO: lane request -/
abbrev SB_REQL_WOS : Fld := ⟨0x400B005C, 31, 0⟩
/-- R373, RW: MP requests -/
abbrev SB_REQM_IPH : Fld := ⟨0x400B0060, 15, 0⟩
/-- R373, RW: MP requests -/
abbrev SB_REQM_ICH : Fld := ⟨0x400B0064, 15, 0⟩
/-- R373, RW: MP requests -/
abbrev SB_REQM_VOV : Fld := ⟨0x400B0068, 15, 0⟩
/-- R373, RW: MP request -/
abbrev SB_REQM_WOS : Fld := ⟨0x400B006C, 31, 0⟩
/-- R373, RW: 1: all GATE_EN low (R345) -/
abbrev SB_REQM_GATE_GOFF : Fld := ⟨0x400B0070, 0, 0⟩
/-- R373, RO: effective value (R25) -/
abbrev SB_EFF_IPH : Fld := ⟨0x400B0074, 31, 16⟩
/-- R373, RO: effective value -/
abbrev SB_EFF_ICH : Fld := ⟨0x400B0074, 15, 0⟩
/-- R373, RO: effective value; [31:16] reserved -/
abbrev SB_EFF_VOV : Fld := ⟨0x400B0078, 15, 0⟩
/-- R373, RO: effective value -/
abbrev SB_EFF_WOS : Fld := ⟨0x400B007C, 31, 0⟩
/-- R373, RO: ω_sb, Q16.16 rad/s -/
abbrev SB_WSB : Fld := ⟨0x400B0080, 31, 0⟩
/-- R373, RWL: discrepancy limit, UQ16.16 rad/s; reset 5.0 -/
abbrev SB_WDISC : Fld := ⟨0x400B0084, 31, 0⟩
/-- R373, RWL: SOUT0 off with STO -/
abbrev SB_SBC_CFG_ONSTO : Fld := ⟨0x400B0088, 1, 1⟩
/-- R373, RWL: output test pulses (R349) -/
abbrev SB_SBC_CFG_TESTEN : Fld := ⟨0x400B0088, 0, 0⟩
/-- R373, RWL: Token SS1: 0 SS1-t, 1 SS1-r -/
abbrev SB_SS1_CFG_TOKR : Fld := ⟨0x400B008C, 0, 0⟩
/-- R373, RWL: SS1_T, ms; reset 500 -/
abbrev SB_SS1_TIME_T : Fld := ⟨0x400B0090, 31, 16⟩
/-- R373, RWL: SS1_TDLY, ms; reset 100 -/
abbrev SB_SS1_TIME_TDLY : Fld := ⟨0x400B0090, 15, 0⟩
/-- R373, RWL: ms; reset 20,000 -/
abbrev SB_SS1_TMAX : Fld := ⟨0x400B0094, 15, 0⟩
/-- R373, RWL: UQ16.16 rad/s² -/
abbrev SB_SS1_DEC : Fld := ⟨0x400B0098, 31, 0⟩
/-- R373, RWL: UQ16.16 rad/s -/
abbrev SB_SS1_WOFS : Fld := ⟨0x400B009C, 31, 0⟩
/-- R373, RWL: UQ16.16 rad/s; reset 1.0 -/
abbrev SB_SS1_WSTOP : Fld := ⟨0x400B00A0, 31, 0⟩
/-- R373, RWL: UQ16.16 rad/s -/
abbrev SB_SLS_W : Fld := ⟨0x400B00A4, 31, 0⟩
/-- R373, RWL: ms; reset 500 -/
abbrev SB_SLS_TDLY : Fld := ⟨0x400B00A8, 15, 0⟩
/-- R373, RWL: connection enabled -/
abbrev SB_TOKt_CFG_EN (t : Nat) : Fld := ⟨0x400B0100 + 0x20 * (t % 2), 31, 31⟩
/-- R373, RWL: per R364 -/
abbrev SB_TOKt_CFG_FUNCMASK (t : Nat) : Fld := ⟨0x400B0100 + 0x20 * (t % 2), 27, 24⟩
/-- R373, RWL: 1–64; values outside act as the nearer limit -/
abbrev SB_TOKt_CFG_SEQWIN (t : Nat) : Fld := ⟨0x400B0100 + 0x20 * (t % 2), 22, 16⟩
/-- R373, RWL: connection number -/
abbrev SB_TOKt_CFG_CONN (t : Nat) : Fld := ⟨0x400B0100 + 0x20 * (t % 2), 15, 0⟩
/-- R373, RWL: largest accepted WDT, ms; reset 100 -/
abbrev SB_TOKt_WD_WDMAX (t : Nat) : Fld := ⟨0x400B0104 + 0x20 * (t % 2), 15, 0⟩
/-- R373, RO: last accepted SEQ -/
abbrev SB_TOKt_STAT_LASTSEQ (t : Nat) : Fld := ⟨0x400B0108 + 0x20 * (t % 2), 31, 16⟩
/-- R373, RO: a frame waits in SB.TOKt_TX -/
abbrev SB_TOKt_STAT_TXRDY (t : Nat) : Fld := ⟨0x400B0108 + 0x20 * (t % 2), 2, 2⟩
/-- R373, W1C: a stale frame was refused -/
abbrev SB_TOKt_STAT_STALE (t : Nat) : Fld := ⟨0x400B0108 + 0x20 * (t % 2), 1, 1⟩
/-- R373, RO: connection established -/
abbrev SB_TOKt_STAT_ESTAB (t : Nat) : Fld := ⟨0x400B0108 + 0x20 * (t % 2), 0, 0⟩
/-- R373, RC: frames refused on this connection; saturates -/
abbrev SB_TOKt_REJ (t : Nat) : Fld := ⟨0x400B010C + 0x20 * (t % 2), 31, 0⟩
/-- R373, WO: received frame bytes 4w to 4w + 3, w = 0–15 -/
abbrev SB_TOK_RXw (w : Nat) : Fld := ⟨0x400B0180 + 0x4 * (w % 16), 31, 0⟩
/-- R373, WO: 1: check the received frame per R366 -/
abbrev SB_TOK_RXCTL_GO : Fld := ⟨0x400B01C0, 31, 31⟩
/-- R373, RO: connection matched -/
abbrev SB_TOK_RXRES_CONN : Fld := ⟨0x400B01C4, 4, 4⟩
/-- R373, RO: per R366 -/
abbrev SB_TOK_RXRES_RESULT : Fld := ⟨0x400B01C4, 3, 0⟩
/-- R373, RO: frame to send, bytes 4w to 4w + 3; the read of w = 15 clears TXRDY -/
abbrev SB_TOKt_TXw (t : Nat) (w : Nat) : Fld := ⟨0x400B0200 + 0x40 * (t % 2) + 0x4 * (w % 16), 31, 0⟩
/-- R393, WO: 1: start bus-off recovery (R390) -/
abbrev CANn_CTL_RECOVER (n : Nat) : Fld := ⟨0x400C0000 + 0x10000 * (n % 2), 2, 2⟩
/-- R393, RW: per R376 -/
abbrev CANn_CTL_MODE (n : Nat) : Fld := ⟨0x400C0000 + 0x10000 * (n % 2), 1, 0⟩
/-- R393, RW: per R379 -/
abbrev CANn_CFG_NOMATCH (n : Nat) : Fld := ⟨0x400C0004 + 0x10000 * (n % 2), 7, 6⟩
/-- R393, RW: 0: priority, 1: buffer number (R384) -/
abbrev CANn_CFG_TXORD (n : Nat) : Fld := ⟨0x400C0004 + 0x10000 * (n % 2), 5, 5⟩
/-- R393, RW: 1: automatic bus-off recovery -/
abbrev CANn_CFG_ABOR (n : Nat) : Fld := ⟨0x400C0004 + 0x10000 * (n % 2), 4, 4⟩
/-- R393, RW: 1: no automatic retransmission (R385) -/
abbrev CANn_CFG_DAR (n : Nat) : Fld := ⟨0x400C0004 + 0x10000 * (n % 2), 3, 3⟩
/-- R393, RW: action on a recessive res bit: 0 protocol exception, 1 form error (R391) -/
abbrev CANn_CFG_RESACT (n : Nat) : Fld := ⟨0x400C0004 + 0x10000 * (n % 2), 2, 2⟩
/-- R393, RW: SJW − 1; SJW 1–128 -/
abbrev CANn_NBT_NSJW (n : Nat) : Fld := ⟨0x400C0008 + 0x10000 * (n % 2), 30, 24⟩
/-- R393, RW: TSEG2 − 1; TSEG2 1–128 -/
abbrev CANn_NBT_NTSEG2 (n : Nat) : Fld := ⟨0x400C0008 + 0x10000 * (n % 2), 22, 16⟩
/-- R393, RW: TSEG1 − 1; TSEG1 2–256; 0 refused -/
abbrev CANn_NBT_NTSEG1 (n : Nat) : Fld := ⟨0x400C0008 + 0x10000 * (n % 2), 15, 8⟩
/-- R393, RW: BRP − 1; BRP 1–32 -/
abbrev CANn_NBT_NBRP (n : Nat) : Fld := ⟨0x400C0008 + 0x10000 * (n % 2), 4, 0⟩
/-- R393, RW: SJW − 1; SJW 1–16 -/
abbrev CANn_DBT_DSJW (n : Nat) : Fld := ⟨0x400C000C + 0x10000 * (n % 2), 27, 24⟩
/-- R393, RW: TSEG2 − 1; TSEG2 1–16 -/
abbrev CANn_DBT_DTSEG2 (n : Nat) : Fld := ⟨0x400C000C + 0x10000 * (n % 2), 19, 16⟩
/-- R393, RW: TSEG1 − 1; TSEG1 1–32 -/
abbrev CANn_DBT_DTSEG1 (n : Nat) : Fld := ⟨0x400C000C + 0x10000 * (n % 2), 12, 8⟩
/-- R393, RW: BRP − 1; BRP 1–32 -/
abbrev CANn_DBT_DBRP (n : Nat) : Fld := ⟨0x400C000C + 0x10000 * (n % 2), 4, 0⟩
/-- R393, RW: transmitter delay compensation (R378) -/
abbrev CANn_TDC_EN (n : Nat) : Fld := ⟨0x400C0010 + 0x10000 * (n % 2), 31, 31⟩
/-- R393, RO: last measured delay, mtq -/
abbrev CANn_TDC_TDCV (n : Nat) : Fld := ⟨0x400C0010 + 0x10000 * (n % 2), 22, 16⟩
/-- R393, RW: offset, mtq, 0–127; reset 30 -/
abbrev CANn_TDC_TDCO (n : Nat) : Fld := ⟨0x400C0010 + 0x10000 * (n % 2), 6, 0⟩
/-- R393, RC: last data-phase error code (R389) -/
abbrev CANn_ERR_DLEC (n : Nat) : Fld := ⟨0x400C0014 + 0x10000 * (n % 2), 26, 24⟩
/-- R393, RC: last error code (R389) -/
abbrev CANn_ERR_LEC (n : Nat) : Fld := ⟨0x400C0014 + 0x10000 * (n % 2), 22, 20⟩
/-- R393, RO: a counter at 96 or above -/
abbrev CANn_ERR_EWARN (n : Nat) : Fld := ⟨0x400C0014 + 0x10000 * (n % 2), 18, 18⟩
/-- R393, RO: 0 error active, 1 error passive, 2 bus-off, 3 not on the bus -/
abbrev CANn_ERR_STATE (n : Nat) : Fld := ⟨0x400C0014 + 0x10000 * (n % 2), 17, 16⟩
/-- R393, RO: receive counter at 128 or above -/
abbrev CANn_ERR_RP (n : Nat) : Fld := ⟨0x400C0014 + 0x10000 * (n % 2), 15, 15⟩
/-- R393, RO: receive error counter [6:0] -/
abbrev CANn_ERR_REC (n : Nat) : Fld := ⟨0x400C0014 + 0x10000 * (n % 2), 14, 8⟩
/-- R393, RO: transmit error counter -/
abbrev CANn_ERR_TEC (n : Nat) : Fld := ⟨0x400C0014 + 0x10000 * (n % 2), 7, 0⟩
/-- R393, W1C: per R378 -/
abbrev CANn_STAT_TDCERR (n : Nat) : Fld := ⟨0x400C0018 + 0x10000 * (n % 2), 3, 3⟩
/-- R393, W1C: protocol exception (R391) -/
abbrev CANn_STAT_PXE (n : Nat) : Fld := ⟨0x400C0018 + 0x10000 * (n % 2), 2, 2⟩
/-- R393, W1C: cancel refused (R386) -/
abbrev CANn_STAT_CANREF (n : Nat) : Fld := ⟨0x400C0018 + 0x10000 * (n % 2), 1, 1⟩
/-- R393, W1C: refused configuration or buffer write -/
abbrev CANn_STAT_CFGERR (n : Nat) : Fld := ⟨0x400C0018 + 0x10000 * (n % 2), 0, 0⟩
/-- R393, RO: timestamp counter (R387); same value in both blocks -/
abbrev CANn_TS (n : Nat) : Fld := ⟨0x400C001C + 0x10000 * (n % 2), 31, 0⟩
/-- R393, RO: FRSEQ of the last frame sent to FIFO1 -/
abbrev CANn_FRSEQ_F1 (n : Nat) : Fld := ⟨0x400C0020 + 0x10000 * (n % 2), 31, 16⟩
/-- R393, RO: FRSEQ of the last frame sent to FIFO0 -/
abbrev CANn_FRSEQ_F0 (n : Nat) : Fld := ⟨0x400C0020 + 0x10000 * (n % 2), 15, 0⟩
/-- R393, RC: bus-off entries; saturates -/
abbrev CANn_BOCNT (n : Nat) : Fld := ⟨0x400C0024 + 0x10000 * (n % 2), 31, 0⟩
/-- R393, WO: bit b: cancel TXBb (R386) -/
abbrev CANn_TXCTL_CANCEL (n : Nat) : Fld := ⟨0x400C0028 + 0x10000 * (n % 2), 10, 8⟩
/-- R393, WO: bit b: request TXBb (R383) -/
abbrev CANn_TXCTL_REQ (n : Nat) : Fld := ⟨0x400C0028 + 0x10000 * (n % 2), 2, 0⟩
/-- R393, W1C: CANn.ERR.STATE or EWARN changed -/
abbrev CANn_IRQ_ESTATE (n : Nat) : Fld := ⟨0x400C002C + 0x10000 * (n % 2), 8, 8⟩
/-- R393, W1C: bit b: TXBb went to FAILED -/
abbrev CANn_IRQ_TXFAIL (n : Nat) : Fld := ⟨0x400C002C + 0x10000 * (n % 2), 6, 4⟩
/-- R393, W1C: bit b: TXBb went to DONE -/
abbrev CANn_IRQ_TXDONE (n : Nat) : Fld := ⟨0x400C002C + 0x10000 * (n % 2), 2, 0⟩
/-- R393, RW: bit set: the same bit of CANn.IRQ interrupts the MP -/
abbrev CANn_IE (n : Nat) : Fld := ⟨0x400C0030 + 0x10000 * (n % 2), 31, 0⟩
/-- R394, RW: extended identifier -/
abbrev CANn_TXBb_ID_XTD (n : Nat) (b : Nat) : Fld := ⟨0x400C0100 + 0x10000 * (n % 2) + 0x80 * (b % 3), 31, 31⟩
/-- R394, RW: remote frame -/
abbrev CANn_TXBb_ID_RTR (n : Nat) (b : Nat) : Fld := ⟨0x400C0100 + 0x10000 * (n % 2) + 0x80 * (b % 3), 30, 30⟩
/-- R394, RW: identifier; base identifier in [28:18] -/
abbrev CANn_TXBb_ID_ID (n : Nat) (b : Nat) : Fld := ⟨0x400C0100 + 0x10000 * (n % 2) + 0x80 * (b % 3), 28, 0⟩
/-- R394, RW: bit rate switching (R383) -/
abbrev CANn_TXBb_CTL_BRS (n : Nat) (b : Nat) : Fld := ⟨0x400C0104 + 0x10000 * (n % 2) + 0x80 * (b % 3), 5, 5⟩
/-- R394, RW: FD frame -/
abbrev CANn_TXBb_CTL_FDF (n : Nat) (b : Nat) : Fld := ⟨0x400C0104 + 0x10000 * (n % 2) + 0x80 * (b % 3), 4, 4⟩
/-- R394, RW: data length code (R374) -/
abbrev CANn_TXBb_CTL_DLC (n : Nat) (b : Nat) : Fld := ⟨0x400C0104 + 0x10000 * (n % 2) + 0x80 * (b % 3), 3, 0⟩
/-- R394, RO: attempts of the last request; saturates at 255 -/
abbrev CANn_TXBb_STAT_TRIES (n : Nat) (b : Nat) : Fld := ⟨0x400C0108 + 0x10000 * (n % 2) + 0x80 * (b % 3), 15, 8⟩
/-- R394, RO: 0 EMPTY, 1 PENDING, 2 ACTIVE, 3 DONE, 4 CANCELLED, 5 FAILED -/
abbrev CANn_TXBb_STAT_STATE (n : Nat) (b : Nat) : Fld := ⟨0x400C0108 + 0x10000 * (n % 2) + 0x80 * (b % 3), 2, 0⟩
/-- R394, RO: stamp of the last successful transmission -/
abbrev CANn_TXBb_TS (n : Nat) (b : Nat) : Fld := ⟨0x400C010C + 0x10000 * (n % 2) + 0x80 * (b % 3), 31, 0⟩
/-- R394, RW: data bytes 4w to 4w + 3, w = 0–15 -/
abbrev CANn_TXBb_Dw (n : Nat) (b : Nat) (w : Nat) : Fld := ⟨0x400C0140 + 0x10000 * (n % 2) + 0x80 * (b % 3) + 0x4 * (w % 16), 31, 0⟩
/-- R395, RW: filter enabled -/
abbrev CANn_FLTf_CFG_EN (n : Nat) (f : Nat) : Fld := ⟨0x400C0400 + 0x10000 * (n % 2) + 0x10 * (f % 32), 31, 31⟩
/-- R395, RW: 1: matches extended frames, 0: base frames -/
abbrev CANn_FLTf_CFG_XTD (n : Nat) (f : Nat) : Fld := ⟨0x400C0400 + 0x10000 * (n % 2) + 0x10 * (f % 32), 30, 30⟩
/-- R395, RW: 1: matching frames discarded -/
abbrev CANn_FLTf_CFG_REJECT (n : Nat) (f : Nat) : Fld := ⟨0x400C0400 + 0x10000 * (n % 2) + 0x10 * (f % 32), 25, 25⟩
/-- R395, RW: 0: FIFO0, 1: FIFO1 -/
abbrev CANn_FLTf_CFG_FIFO (n : Nat) (f : Nat) : Fld := ⟨0x400C0400 + 0x10000 * (n % 2) + 0x10 * (f % 32), 24, 24⟩
/-- R395, RW: identifier to match -/
abbrev CANn_FLTf_MATCH (n : Nat) (f : Nat) : Fld := ⟨0x400C0404 + 0x10000 * (n % 2) + 0x10 * (f % 32), 28, 0⟩
/-- R395, RW: bit set: compared; for base frames bits [17:0] have no effect -/
abbrev CANn_FLTf_MASK (n : Nat) (f : Nat) : Fld := ⟨0x400C0408 + 0x10000 * (n % 2) + 0x10 * (f % 32), 28, 0⟩
/-- R421, RO: module part code -/
abbrev HS_ID_PART : Fld := ⟨0x400E0000, 31, 16⟩
/-- R421, RO: host interface version -/
abbrev HS_ID_IFVER : Fld := ⟨0x400E0000, 15, 8⟩
/-- R421, RO: result of the last transaction (R401) -/
abbrev HS_STAT_LASTRES : Fld := ⟨0x400E0004, 11, 8⟩
/-- R421, W1C: per R411 -/
abbrev HS_STAT_PTRERR : Fld := ⟨0x400E0004, 5, 5⟩
/-- R421, RO: 0 in service, 1 firmware swap, 2 MP reset, 3 booting -/
abbrev HS_STAT_MPSTATE : Fld := ⟨0x400E0004, 1, 0⟩
/-- R421, W1C: per R416 -/
abbrev HS_IRQ_REFUSED : Fld := ⟨0x400E0008, 11, 8⟩
/-- R421, W1C: per R416 -/
abbrev HS_IRQ_SPIERR : Fld := ⟨0x400E0008, 7, 7⟩
/-- R421, W1C: per R416 -/
abbrev HS_IRQ_MPDOWN : Fld := ⟨0x400E0008, 6, 6⟩
/-- R421, W1C: per R416 -/
abbrev HS_IRQ_MPUP : Fld := ⟨0x400E0008, 5, 5⟩
/-- R421, W1C: per R416 -/
abbrev HS_IRQ_ATTN : Fld := ⟨0x400E0008, 4, 4⟩
/-- R421, RO: per R416 -/
abbrev HS_IRQ_CPL : Fld := ⟨0x400E0008, 3, 0⟩
/-- R421, RW: bit set: the same bit of HS.IRQ drives HINT_N -/
abbrev HS_IE : Fld := ⟨0x400E000C, 11, 0⟩
/-- R421, RC: transactions with code 1 or 2; saturates -/
abbrev HS_SPIERR_CRC : Fld := ⟨0x400E0010, 31, 16⟩
/-- R421, RC: transactions with code 3–5; saturates -/
abbrev HS_SPIERR_OTHER : Fld := ⟨0x400E0010, 15, 0⟩
/-- R421, RO: attention code written by the MP, per Command reference -/
abbrev HS_ATTN : Fld := ⟨0x400E0014, 31, 0⟩
/-- R421, RW: doorbell per R406 -/
abbrev HS_CQc_TAIL (c : Nat) : Fld := ⟨0x400E0020 + 0x8 * (c % 4), 15, 0⟩
/-- R421, RO: descriptors popped -/
abbrev HS_CQc_HEAD (c : Nat) : Fld := ⟨0x400E0024 + 0x8 * (c % 4), 15, 0⟩
/-- R421, RO: records written -/
abbrev HS_CPLc_TAIL (c : Nat) : Fld := ⟨0x400E0040 + 0x8 * (c % 4), 15, 0⟩
/-- R421, RW: records consumed by the host -/
abbrev HS_CPLc_HEAD (c : Nat) : Fld := ⟨0x400E0044 + 0x8 * (c % 4), 15, 0⟩
/-- R421, RW: QM.Qnn_CTL.WM_IE of Q(c + 4) -/
abbrev HS_CPLc_CTL_WM_IE (c : Nat) : Fld := ⟨0x400E0060 + 0x4 * (c % 4), 16, 16⟩
/-- R421, RW: QM.Qnn_CTL.WMARK of Q(c + 4) -/
abbrev HS_CPLc_CTL_WMARK (c : Nat) : Fld := ⟨0x400E0060 + 0x4 * (c % 4), 8, 0⟩
/-- R466, RO: bit i: TXi faulted (R444) -/
abbrev TH_STAT_TXFAULT : Fld := ⟨0x400F0000, 29, 27⟩
/-- R466, RO: bit n: sensor n suspect or stale -/
abbrev TH_STAT_SUSPECT : Fld := ⟨0x400F0000, 26, 16⟩
/-- R466, RO: bit n: at or above T_warn (R449) -/
abbrev TH_STAT_WARN : Fld := ⟨0x400F0000, 10, 0⟩
/-- R466, RO: bit n: measured every 1 ms -/
abbrev TH_RATE_FAST : Fld := ⟨0x400F0004, 10, 0⟩
/-- R466, RO: sensor giving f_th -/
abbrev TH_FTH_SRC : Fld := ⟨0x400F0008, 19, 16⟩
/-- R466, RO: f_th, UQ1.15 -/
abbrev TH_FTH_F : Fld := ⟨0x400F0008, 15, 0⟩
/-- R466, RO: thermal ceiling last formed by OUTER (R448), Q24.8 N·m -/
abbrev TH_TCEIL : Fld := ⟨0x400F000C, 31, 0⟩
/-- R466, RO: auxiliary input, UQ8.8 V -/
abbrev TH_AUX_VIN : Fld := ⟨0x400F0010, 31, 16⟩
/-- R466, RO: hold-up bus, UQ8.8 V -/
abbrev TH_AUX_VHB : Fld := ⟨0x400F0010, 15, 0⟩
/-- R466, RO: switch open for overvoltage -/
abbrev TH_SUP_OVOPEN : Fld := ⟨0x400F0014, 3, 3⟩
/-- R466, RO: ride-through in progress -/
abbrev TH_SUP_RIDE : Fld := ⟨0x400F0014, 2, 2⟩
/-- R466, RO: hold-up bus charged -/
abbrev TH_SUP_HBOK : Fld := ⟨0x400F0014, 1, 1⟩
/-- R466, RO: supply good per R451 -/
abbrev TH_SUP_AUXOK : Fld := ⟨0x400F0014, 0, 0⟩
/-- R466, RO: TCXO correction in force, signed ppb -/
abbrev TH_COMP_TCXO : Fld := ⟨0x400F0018, 31, 16⟩
/-- R466, RO: reference correction, signed ppm -/
abbrev TH_COMP_REF : Fld := ⟨0x400F0018, 15, 0⟩
/-- R466, RC: ride-throughs started; saturates -/
abbrev TH_RIDECNT : Fld := ⟨0x400F001C, 31, 0⟩
/-- R466, RWL: 2 bits per input from bit 0: 0 off, 1 NTC, 2 PT1000, 3 as 0 -/
abbrev TH_TXCFG : Fld := ⟨0x400F0020, 5, 0⟩
/-- R466, RO: used reading, Q9.7 °C (R447) -/
abbrev TH_Tn_USED (n : Nat) : Fld := ⟨0x400F0040 + 0x4 * (n % 11), 31, 16⟩
/-- R466, RO: raw reading, Q9.7 °C -/
abbrev TH_Tn_RAW (n : Nat) : Fld := ⟨0x400F0040 + 0x4 * (n % 11), 15, 0⟩
/-- R466, RWL: pair offset, Q8.8 °C -/
abbrev TH_NBOFSp (p : Nat) : Fld := ⟨0x400F0080 + 0x4 * (p % 10), 15, 0⟩
/-- R466, RWL: NTC resistance at 25 °C, UQ16.16 Ω; reset 10,000 Ω -/
abbrev TH_TXi_RN (i : Nat) : Fld := ⟨0x400F00C0 + 0x10 * (i % 3), 31, 0⟩
/-- R466, RWL: NTC B constant, UQ16.16 K; reset 3,450 K -/
abbrev TH_TXi_B (i : Nat) : Fld := ⟨0x400F00C4 + 0x10 * (i % 3), 31, 0⟩
/-- R466, RWL: throttle start, Q9.7 °C; reset 90 °C -/
abbrev TH_TXi_WARN (i : Nat) : Fld := ⟨0x400F00C8 + 0x10 * (i % 3), 31, 16⟩
/-- R466, RWL: ceiling 0, Q9.7 °C; reset 110 °C -/
abbrev TH_TXi_LIM (i : Nat) : Fld := ⟨0x400F00C8 + 0x10 * (i % 3), 15, 0⟩
/-- R467, RO: an erase is suspended -/
abbrev NV_STAT_SUSP : Fld := ⟨0x40100000, 2, 2⟩
/-- R467, RO: 0 idle, 1 read, 2 program, 3 erase -/
abbrev NV_STAT_OP : Fld := ⟨0x40100000, 1, 0⟩
/-- R467, RO: a sector awaits re-erase (R463) -/
abbrev NV_DIRTY_VALID : Fld := ⟨0x40100004, 31, 31⟩
/-- R467, RO: that sector -/
abbrev NV_DIRTY_SECTOR : Fld := ⟨0x40100004, 11, 0⟩
/-- R467, RO: SEQ of the CONFIG record in use -/
abbrev NV_CFGSEQ : Fld := ⟨0x40100008, 31, 0⟩
/-- R467, RO: SEQ of the JOURNAL record in use -/
abbrev NV_JNLSEQ : Fld := ⟨0x4010000C, 31, 0⟩
/-- R467, RO: SEQ of the table image in use -/
abbrev NV_TBLSEQ : Fld := ⟨0x40100010, 31, 0⟩
/-- R467, RO: image copy read last -/
abbrev NV_SEL_TBL : Fld := ⟨0x40100014, 2, 2⟩
/-- R467, RO: copy of the JOURNAL record in use -/
abbrev NV_SEL_JNL : Fld := ⟨0x40100014, 1, 1⟩
/-- R467, RO: copy of the CONFIG record in use -/
abbrev NV_SEL_CFG : Fld := ⟨0x40100014, 0, 0⟩
/-- R467, RO: next log sequence [31:0]; the read latches NV.LOGSEQ_HI -/
abbrev NV_LOGSEQ_LO : Fld := ⟨0x40100018, 31, 0⟩
/-- R467, RO: next log sequence [47:32]; [31:16] reserved -/
abbrev NV_LOGSEQ_HI : Fld := ⟨0x4010001C, 15, 0⟩
/-- R467, RO: oldest sequence held [31:0]; the read latches NV.LOGOLD_HI -/
abbrev NV_LOGOLD_LO : Fld := ⟨0x40100020, 31, 0⟩
/-- R467, RO: oldest sequence held [47:32]; [31:16] reserved -/
abbrev NV_LOGOLD_HI : Fld := ⟨0x40100024, 15, 0⟩
/-- R467, RO: sector erases since reset; saturates -/
abbrev NV_ERASECNT : Fld := ⟨0x40100028, 31, 0⟩
/-- R467, RO: sectors retired (R454) -/
abbrev NV_RETIRED : Fld := ⟨0x4010002C, 11, 0⟩
/-- R467, RC: program or erase verify failures; saturates -/
abbrev NV_FAILCNT : Fld := ⟨0x40100030, 31, 0⟩
/-- R492, WO: 1: stop the running job at its next step (SYS.CANCEL) -/
abbrev BI_CTL_ABORT : Fld := ⟨0x40110000, 0, 0⟩
/-- R492, RO: 0 none, 1 lane, 2 memory slice, 3 full memory, 4 gate -/
abbrev BI_STAT_JOB : Fld := ⟨0x40110004, 15, 8⟩
/-- R492, RO: lane under test -/
abbrev BI_STAT_LANE : Fld := ⟨0x40110004, 5, 4⟩
/-- R492, RO: a job is running -/
abbrev BI_STAT_BUSY : Fld := ⟨0x40110004, 0, 0⟩
/-- R492, RC: slices completed; saturates -/
abbrev BI_SLICES : Fld := ⟨0x40110008, 31, 0⟩
/-- R492, RC: slices aborted; saturates -/
abbrev BI_ABORTS : Fld := ⟨0x4011000C, 31, 0⟩
/-- R492, RO: failing address per R472 -/
abbrev BI_FAILADDR : Fld := ⟨0x40110010, 31, 0⟩
/-- R492, RO: 0 none; 1–4 per R472 -/
abbrev BI_FAIL_KIND : Fld := ⟨0x40110014, 31, 24⟩
/-- R492, RO: failing bit; 0x3FF none -/
abbrev BI_FAIL_BIT : Fld := ⟨0x40110014, 9, 0⟩
/-- R493, RW: 0 MULTI, 1 CONTEXT (R475) -/
abbrev CC_CFG_ARR : Fld := ⟨0x40120000, 0, 0⟩
/-- R493, W1C: refused write or GO -/
abbrev CC_STAT_CFGERR : Fld := ⟨0x40120004, 8, 8⟩
/-- R493, W1C: bit k: scan ended on parity (R476) -/
abbrev CC_STAT_PERR : Fld := ⟨0x40120004, 7, 4⟩
/-- R493, RO: bit k: channel k scanning -/
abbrev CC_STAT_BUSY : Fld := ⟨0x40120004, 3, 0⟩
/-- R493, W1C: bit k: mismatch (R477) -/
abbrev CC_IRQ_MISM : Fld := ⟨0x40120008, 7, 4⟩
/-- R493, W1C: bit k: scan ended -/
abbrev CC_IRQ_DONE : Fld := ⟨0x40120008, 3, 0⟩
/-- R493, RW: bit set: the same bit of CC.IRQ interrupts the MP -/
abbrev CC_IE : Fld := ⟨0x4012000C, 7, 0⟩
/-- R493, WO: 1: start the scan -/
abbrev CC_CHk_CTL_GO (k : Nat) : Fld := ⟨0x40120100 + 0x20 * (k % 4), 31, 31⟩
/-- R493, RW: compare with EXP at the end -/
abbrev CC_CHk_CTL_CMP (k : Nat) : Fld := ⟨0x40120100 + 0x20 * (k % 4), 3, 3⟩
/-- R493, RW: MULTI: start from the last running value -/
abbrev CC_CHk_CTL_CONT (k : Nat) : Fld := ⟨0x40120100 + 0x20 * (k % 4), 2, 2⟩
/-- R493, RW: polynomial code per R474 -/
abbrev CC_CHk_CTL_POLY (k : Nat) : Fld := ⟨0x40120100 + 0x20 * (k % 4), 1, 0⟩
/-- R493, RW: first address -/
abbrev CC_CHk_START (k : Nat) : Fld := ⟨0x40120104 + 0x20 * (k % 4), 31, 0⟩
/-- R493, RW: bytes, 1 to 0x100_0000; 0 refused -/
abbrev CC_CHk_LEN (k : Nat) : Fld := ⟨0x40120108 + 0x20 * (k % 4), 24, 0⟩
/-- R493, RW: expected value, right-aligned -/
abbrev CC_CHk_EXP (k : Nat) : Fld := ⟨0x4012010C + 0x20 * (k % 4), 31, 0⟩
/-- R493, RW: running value before the final XOR; writes only in CONTEXT on CH0, while idle -/
abbrev CC_CHk_VAL (k : Nat) : Fld := ⟨0x40120110 + 0x20 * (k % 4), 31, 0⟩
/-- R493, WO: feeds 4 bytes, little-endian, to an idle channel -/
abbrev CC_CHk_DATA (k : Nat) : Fld := ⟨0x40120114 + 0x20 * (k % 4), 31, 0⟩
/-- R493, RO: final value of the last scan or feed -/
abbrev CC_CHk_RES (k : Nat) : Fld := ⟨0x40120118 + 0x20 * (k % 4), 31, 0⟩
/-- R493, RO: bytes processed by the last scan -/
abbrev CC_CHk_DONE (k : Nat) : Fld := ⟨0x4012011C + 0x20 * (k % 4), 31, 0⟩
/-- R494, RO: bit r: ring r triggered and recording -/
abbrev TE_STAT_TRIGGERED : Fld := ⟨0x40130000, 31, 16⟩
/-- R494, RO: bit r: ring r armed -/
abbrev TE_STAT_ARMED : Fld := ⟨0x40130000, 15, 0⟩
/-- R494, RO: bit r: per R483 -/
abbrev TE_STAT_CONFIGURED : Fld := ⟨0x40130004, 31, 16⟩
/-- R494, RO: bit r: stopped -/
abbrev TE_STAT_STOPPED : Fld := ⟨0x40130004, 15, 0⟩
/-- R494, WO: bit r: disarm -/
abbrev TE_CTL_DISARM : Fld := ⟨0x40130008, 31, 16⟩
/-- R494, WO: bit r: arm; ignored for a ring not configured -/
abbrev TE_CTL_ARM : Fld := ⟨0x40130008, 15, 0⟩
/-- R494, WO: bit r: trigger at the next sample instant -/
abbrev TE_TRIG : Fld := ⟨0x4013000C, 15, 0⟩
/-- R494, RC: guard failures on reads; saturates -/
abbrev TE_GUARDERR : Fld := ⟨0x40130010, 31, 0⟩
/-- R494, RO: bit s: segment 32w + s retired, w = 0–3 -/
abbrev TE_RETIREDw (w : Nat) : Fld := ⟨0x40130020 + 0x4 * (w % 4), 31, 0⟩
/-- R494, RW: decimation 1–65,535; 0 acts as 1 -/
abbrev TE_Rr_CFG_DEC (r : Nat) : Fld := ⟨0x40130100 + 0x40 * (r % 16), 31, 16⟩
/-- R494, RW: 0: 8 signals, 1: 32 signals -/
abbrev TE_Rr_CFG_SIG32 (r : Nat) : Fld := ⟨0x40130100 + 0x40 * (r % 16), 0, 0⟩
/-- R494, RW: pre-trigger samples -/
abbrev TE_Rr_PRE (r : Nat) : Fld := ⟨0x40130104 + 0x40 * (r % 16), 31, 0⟩
/-- R494, RW: trigger word [31:0] -/
abbrev TE_Rr_TRIGLO (r : Nat) : Fld := ⟨0x40130108 + 0x40 * (r % 16), 31, 0⟩
/-- R494, RW: trigger word [63:32] -/
abbrev TE_Rr_TRIGHI (r : Nat) : Fld := ⟨0x4013010C + 0x40 * (r % 16), 31, 0⟩
/-- R494, RW: first segment, 0–127 -/
abbrev TE_Rr_ALLOC_BASE (r : Nat) : Fld := ⟨0x40130110 + 0x40 * (r % 16), 23, 16⟩
/-- R494, RW: segments, 0–128; BASE + NSEG above 128 acts as 0 -/
abbrev TE_Rr_ALLOC_NSEG (r : Nat) : Fld := ⟨0x40130110 + 0x40 * (r % 16), 7, 0⟩
/-- R494, RO: capacity in samples (R483) -/
abbrev TE_Rr_CAP (r : Nat) : Fld := ⟨0x40130114 + 0x40 * (r % 16), 31, 0⟩
/-- R494, RO: TICKNO of the trigger -/
abbrev TE_Rr_TICK (r : Nat) : Fld := ⟨0x40130118 + 0x40 * (r % 16), 31, 0⟩
/-- R494, RO: TB of the trigger sample instant [31:0]; the read latches TE.Rr_TB_HI -/
abbrev TE_Rr_TB_LO (r : Nat) : Fld := ⟨0x4013011C + 0x40 * (r % 16), 31, 0⟩
/-- R494, RO: TB [63:32] -/
abbrev TE_Rr_TB_HI (r : Nat) : Fld := ⟨0x40130120 + 0x40 * (r % 16), 31, 0⟩
/-- R494, RO: pre-trigger samples held -/
abbrev TE_Rr_HELD (r : Nat) : Fld := ⟨0x40130124 + 0x40 * (r % 16), 31, 0⟩
/-- R494, RC: blocks failing the guard on read; saturates -/
abbrev TE_Rr_BADBLK (r : Nat) : Fld := ⟨0x40130128 + 0x40 * (r % 16), 31, 0⟩
/-- R494, RC: blocks written as dropped; saturates -/
abbrev TE_Rr_GAPS (r : Nat) : Fld := ⟨0x4013012C + 0x40 * (r % 16), 31, 0⟩
/-- R494, RW: node 2w + 1 -/
abbrev TE_Rr_NODEw_B (r : Nat) (w : Nat) : Fld := ⟨0x40130800 + 0x40 * (r % 16) + 0x4 * (w % 16), 31, 16⟩
/-- R494, RW: node 2w; an 8-signal ring uses w = 0–3 -/
abbrev TE_Rr_NODEw_A (r : Nat) (w : Nat) : Fld := ⟨0x40130800 + 0x40 * (r % 16) + 0x4 * (w % 16), 15, 0⟩
/-- R538, RO: MP restarts since the last module boot; saturates -/
abbrev SYS_RST_MPCNT : Fld := ⟨0x40000004, 23, 16⟩
/-- R538, RO: last MP restart: 0 none, 1 MP_LOST, 2 MP data parity, 3 SYS.RESET KIND 1, 4 firmware swap -/
abbrev SYS_RST_MPCAUSE : Fld := ⟨0x40000004, 11, 8⟩
/-- R538, RO: code of R525 -/
abbrev SYS_RST_CAUSE : Fld := ⟨0x40000004, 3, 0⟩
/-- R538, RO: recovery loader running -/
abbrev SYS_BOOT_RECOVERY : Fld := ⟨0x40000008, 31, 31⟩
/-- R538, RO: bit c: PX-G c not answering, order of R131 -/
abbrev SYS_BOOT_GMISS : Fld := ⟨0x40000008, 22, 16⟩
/-- R538, RO: 0 none, 1 slot erased, 2 swap not completed, 3 fell back to the other slot, 4 no valid image, 5 SRAM boot failure -/
abbrev SYS_BOOT_JREC : Fld := ⟨0x40000008, 10, 8⟩
/-- R538, RO: boot loader copy used -/
abbrev SYS_BOOT_LDR : Fld := ⟨0x40000008, 4, 4⟩
/-- R538, RO: slot booted: 0 A, 1 B -/
abbrev SYS_BOOT_SLOT : Fld := ⟨0x40000008, 0, 0⟩
/-- R538, RO: supply good to boot complete, ms -/
abbrev SYS_BOOTMS : Fld := ⟨0x4000000C, 15, 0⟩
/-- R52, RO: module part code -/
abbrev SYS_ID_PART : Fld := ⟨0x40000000, 31, 16⟩
/-- R52, RO: stepping -/
abbrev SYS_ID_STEP : Fld := ⟨0x40000000, 15, 12⟩
/-- R52, RO: lowest PX-G stepping -/
abbrev SYS_ID_GSTEP : Fld := ⟨0x40000000, 11, 8⟩

end R

/-- The TB block's register rows. -/
def rowsTB : List RegRow := [
  ⟨R.TB_CNT_LO, [], .ro, 0⟩,
  ⟨R.TB_CNT_HI, [], .ro, 0⟩,
  ⟨R.TB_TICKNO, [], .ro, 0⟩,
  ⟨R.TB_PHASE, [], .ro, 0⟩,
  ⟨R.TB_LAST_LO, [], .ro, 0⟩,
  ⟨R.TB_LAST_HI, [], .ro, 0⟩,
  ⟨R.TB_TRIM, [], .ro, 0⟩]

/-- The QM block's register rows. -/
def rowsQM : List RegRow := [
  ⟨(R.QM_Qnn_CTL_WM_IE 0), [(0x10, 64)], .rw, 0⟩,
  ⟨(R.QM_Qnn_CTL_WMARK 0), [(0x10, 64)], .rw, 1⟩,
  ⟨(R.QM_Qnn_STAT_POLICY 0), [(0x10, 64)], .ro, 0⟩ /- per R41 -/,
  ⟨(R.QM_Qnn_STAT_DEPTH 0), [(0x10, 64)], .ro, 0⟩ /- per R41 -/,
  ⟨(R.QM_Qnn_STAT_FILL 0), [(0x10, 64)], .ro, 0⟩,
  ⟨(R.QM_Qnn_STAT_CREDIT 0), [(0x10, 64)], .ro, 0⟩ /- DEPTH -/,
  ⟨(R.QM_Qnn_DROP_COUNT 0), [(0x10, 64)], .rc, 0⟩,
  ⟨(R.QM_Qnn_FLAG_UNDERRUN 0), [(0x10, 64)], .w1c, 0⟩,
  ⟨(R.QM_Qnn_FLAG_DROPPED 0), [(0x10, 64)], .w1c, 0⟩,
  ⟨R.QM_IRQ0, [], .w1c, 0⟩,
  ⟨R.QM_IRQ1, [], .w1c, 0⟩]

/-- The TT block's register rows. -/
def rowsTT : List RegRow := [
  ⟨R.TT_CTL_SWAP, [], .wo, 0⟩,
  ⟨R.TT_PERIOD_CYC, [], .rwl, 0x2710⟩,
  ⟨R.TT_STAT_REJCODE, [], .ro, 0⟩,
  ⟨R.TT_STAT_NORES, [], .ro, 0⟩,
  ⟨R.TT_STAT_SWPEND, [], .ro, 0⟩,
  ⟨R.TT_STAT_REJ, [], .w1c, 0⟩,
  ⟨R.TT_STAT_PEND, [], .ro, 0⟩,
  ⟨(R.TT_ENTRYn_W0_EN 0), [(0x8, 16)], .rw, 0⟩ /- per R56 -/,
  ⟨(R.TT_ENTRYn_W0_LANE 0), [(0x8, 16)], .rw, 0⟩ /- per R56 -/,
  ⟨(R.TT_ENTRYn_W0_KIND 0), [(0x8, 16)], .rw, 0⟩ /- per R56 -/,
  ⟨(R.TT_ENTRYn_W0_TASK 0), [(0x8, 16)], .rw, 0⟩ /- per R56 -/,
  ⟨(R.TT_ENTRYn_W0_START 0), [(0x8, 16)], .rw, 0⟩ /- per R56 -/,
  ⟨(R.TT_ENTRYn_W1_SPAN 0), [(0x8, 16)], .rw, 0⟩ /- per R56 -/,
  ⟨(R.TT_ACTIVEn_W0 0), [(0x8, 16)], .ro, 0⟩ /- per R56 -/,
  ⟨(R.TT_ACTIVEn_W1 0), [(0x8, 16)], .ro, 0⟩ /- per R56 -/]

/-- The LN block's register rows (1 of 5). -/
def rowsLN0 : List RegRow := [
  ⟨R.LN_STAT_HOLDRUN, [], .ro, 0⟩,
  ⟨R.LN_STAT_SIDING, [], .ro, 3⟩,
  ⟨R.LN_STAT_UNUSABLE, [], .ro, 0⟩,
  ⟨R.LN_STAT_DEGRADED, [], .ro, 0⟩,
  ⟨(R.LN_TASKLENn 1), [(0x4, 3)], .ro, 0⟩ /- per configuration -/,
  ⟨(R.LN_ERRn_RESIDUE 0), [(0x4, 4)], .rc, 0⟩,
  ⟨(R.LN_ERRn_PARITY 0), [(0x4, 4)], .rc, 0⟩,
  ⟨R.LN_RECOMP, [], .rc, 0⟩,
  ⟨R.LN_HOLD1, [], .rc, 0⟩,
  ⟨R.LN_LASTERR_LANE, [], .ro, 0⟩,
  ⟨R.LN_LASTERR_KIND, [], .ro, 0⟩,
  ⟨R.LN_LASTERR_TASK, [], .ro, 0⟩,
  ⟨R.LN_LASTERR_OFFSET, [], .ro, 0⟩,
  ⟨R.LN_LASTERR_TICK, [], .ro, 0⟩,
  ⟨R.LN_TBLSTALE, [], .ro, 0⟩,
  ⟨R.LN_TBLCRC, [], .rw, 0⟩,
  ⟨R.LN_TBLCHK_GO, [], .wo, 0⟩,
  ⟨R.LN_TBLCHK_ID, [], .wo, 0⟩,
  ⟨R.LN_TBLRES_FAIL, [], .ro, 0⟩,
  ⟨R.LN_TBLRES_DONE, [], .ro, 0⟩,
  ⟨R.LN_CF_MACH_TYPE, [], .rw, 0⟩,
  ⟨R.LN_CF_MACH_PP, [], .rw, 1⟩,
  ⟨R.LN_CF_RS, [], .rw, 0⟩,
  ⟨R.LN_CF_LD, [], .rw, 0⟩,
  ⟨R.LN_CF_LQ, [], .rw, 0⟩,
  ⟨R.LN_CF_PSI, [], .rw, 0⟩,
  ⟨R.LN_CF_LM, [], .rw, 0⟩,
  ⟨R.LN_CF_TR, [], .rw, 0⟩,
  ⟨R.LN_CF_KR, [], .rw, 0⟩,
  ⟨R.LN_CF_KPD, [], .rw, 0⟩,
  ⟨R.LN_CF_KID, [], .rw, 0⟩,
  ⟨R.LN_CF_KPQ, [], .rw, 0⟩]

/-- The LN block's register rows (2 of 5). -/
def rowsLN1 : List RegRow := [
  ⟨R.LN_CF_KIQ, [], .rw, 0⟩,
  ⟨R.LN_CF_PRED, [], .rw, 0x8000⟩,
  ⟨R.LN_CF_IMAX, [], .rw, 0⟩,
  ⟨R.LN_CF_MMAX, [], .rw, 0x8000⟩,
  ⟨R.LN_CF_FWMARG, [], .rw, 0xccd⟩,
  ⟨R.LN_CF_FWKP, [], .rw, 0⟩,
  ⟨R.LN_CF_FWKI, [], .rw, 0⟩,
  ⟨R.LN_CF_IDFW, [], .rw, 0⟩,
  ⟨R.LN_CF_WFW, [], .rw, 0⟩,
  ⟨R.LN_CF_THOFS, [], .rw, 0⟩,
  ⟨R.LN_CF_PBASE, [], .rw, 0⟩,
  ⟨R.LN_CF_TMAX, [], .rw, 0⟩,
  ⟨R.LN_BANK_PEND, [], .ro, 0⟩,
  ⟨R.LN_BANK_ACTIVE, [], .ro, 0⟩,
  ⟨R.LN_BANK_TICK, [], .ro, 0⟩,
  ⟨R.LN_OL_CFG_FFEN, [], .rw, 1⟩,
  ⟨R.LN_OL_CFG_JFFEN, [], .rw, 1⟩,
  ⟨R.LN_OL_CFG_COGEN, [], .rw, 0⟩,
  ⟨R.LN_OL_CFG_PCEN, [], .rw, 0⟩,
  ⟨R.LN_OL_CFG_CMPEN, [], .rw, 0⟩,
  ⟨R.LN_OL_CFG_SHKDIR, [], .rw, 1⟩,
  ⟨R.LN_OL_CFG_HVEN, [], .rw, 0⟩,
  ⟨R.LN_OL_CFG_TSRC, [], .rw, 0⟩,
  ⟨R.LN_OL_CFG_CMDSRC, [], .rw, 0⟩,
  ⟨R.LN_OL_J, [], .rw, 0x10000⟩,
  ⟨R.LN_OL_B, [], .rw, 0⟩,
  ⟨R.LN_OL_OBSP, [], .rw, 0xfa⟩,
  ⟨R.LN_OL_SHKRATE, [], .rw, 0xffffffff⟩,
  ⟨R.LN_OL_SHKEXIT, [], .rw, 0⟩,
  ⟨R.LN_OL_CHOLD, [], .rw, 0x1f40⟩,
  ⟨R.LN_OL_CK, [], .rw, 0⟩,
  ⟨R.LN_OL_CD, [], .rw, 0x100⟩]

/-- The LN block's register rows (3 of 5). -/
def rowsLN2 : List RegRow := [
  ⟨R.LN_OL_CYMAX, [], .rw, 0⟩,
  ⟨R.LN_OL_CRECOV, [], .rw, 0⟩,
  ⟨R.LN_OL_SKP, [], .rw, 0⟩,
  ⟨R.LN_OL_SKI, [], .rw, 0⟩,
  ⟨R.LN_OL_SGS, [], .rw, 0x10000⟩,
  ⟨R.LN_OL_TKP, [], .rw, 0⟩,
  ⟨R.LN_OL_TKI, [], .rw, 0⟩,
  ⟨R.LN_OL_TGS, [], .rw, 0⟩,
  ⟨R.LN_OL_PKP, [], .rw, 0⟩,
  ⟨R.LN_OL_PKI, [], .rw, 0⟩,
  ⟨R.LN_OL_PGS, [], .rw, 0⟩,
  ⟨R.LN_OL_RACC, [], .rw, 0⟩,
  ⟨R.LN_OL_RDEC, [], .rw, 0⟩,
  ⟨R.LN_OL_PVMAX, [], .rw, 0⟩,
  ⟨R.LN_OL_TSLEW, [], .rw, 0⟩,
  ⟨R.LN_OL_TMAXM, [], .rw, 0⟩,
  ⟨R.LN_OL_TMAXG, [], .rw, 0⟩,
  ⟨R.LN_OL_TMARG, [], .rw, 0⟩,
  ⟨R.LN_OL_WRATED, [], .rw, 0⟩,
  ⟨R.LN_OL_WLIM, [], .rw, 0⟩,
  ⟨R.LN_OL_KFT, [], .rw, 0⟩,
  ⟨R.LN_OL_THON, [], .rw, 0xccd⟩,
  ⟨R.LN_OL_THOFF, [], .rw, 0x666⟩,
  ⟨R.LN_OL_LVTMO, [], .rw, 0x28⟩,
  ⟨R.LN_OL_HVTMO, [], .rw, 0x258⟩,
  ⟨R.LN_OL_HVBLEND, [], .rw, 0xc8⟩,
  ⟨R.LN_OL_HVFADE, [], .rw, 0xfa0⟩,
  ⟨R.LN_OL_HVLEAD, [], .rw, 0⟩,
  ⟨R.LN_OL_HVGAIN, [], .rw, 0⟩,
  ⟨R.LN_OL_COGLEAD, [], .rw, 0⟩,
  ⟨R.LN_OL_COGWMAX, [], .rw, 0⟩,
  ⟨R.LN_OL_TCOG, [], .rw, 0⟩]

/-- The LN block's register rows (4 of 5). -/
def rowsLN3 : List RegRow := [
  ⟨R.LN_OL_IBUILD, [], .rw, 0x4000⟩,
  ⟨R.LN_OL_FLUXTMO, [], .rw, 0x1f4⟩,
  ⟨R.LN_OL_STAT_START, [], .ro, 0⟩,
  ⟨R.LN_OL_STAT_HYST, [], .ro, 0⟩,
  ⟨R.LN_OL_STAT_LPSTALE, [], .ro, 0⟩,
  ⟨R.LN_OL_STAT_LVSTALE, [], .ro, 0⟩,
  ⟨R.LN_OL_STAT_HVSTALE, [], .ro, 0⟩,
  ⟨R.LN_OL_STAT_HEAVE, [], .ro, 0⟩,
  ⟨R.LN_OL_STAT_CYLIM, [], .ro, 0⟩,
  ⟨R.LN_OL_STAT_RECOV, [], .ro, 0⟩,
  ⟨R.LN_OL_STAT_COMPL, [], .ro, 0⟩,
  ⟨R.LN_OL_STAT_SHOCK, [], .ro, 0⟩,
  ⟨R.LN_OL_STAT_CEILEST, [], .ro, 0⟩,
  ⟨R.LN_OL_STAT_CEIL, [], .ro, 0⟩,
  ⟨R.LN_OL_TLHAT, [], .ro, 0⟩,
  ⟨R.LN_OL_TDEM, [], .ro, 0⟩,
  ⟨R.LN_OL_Y, [], .ro, 0⟩,
  ⟨R.LN_OL_WAVG, [], .ro, 0⟩,
  ⟨R.LN_OL_SHKCNT, [], .rc, 0⟩,
  ⟨R.LN_MD_STAT_CAUSE, [], .ro, 0⟩,
  ⟨R.LN_MD_STAT_PREV, [], .ro, 0⟩,
  ⟨R.LN_MD_STAT_DEMAND, [], .ro, 0⟩,
  ⟨R.LN_MD_STAT_SUB, [], .ro, 0⟩,
  ⟨R.LN_MD_STAT_MODE, [], .ro, 0⟩,
  ⟨R.LN_MD_STAT_STATE, [], .ro, 0⟩,
  ⟨R.LN_MD_BRK_SETCMD, [], .ro, 1⟩,
  ⟨R.LN_MD_BRK_FB, [], .ro, 0⟩,
  ⟨R.LN_MD_BRK_PH, [], .ro, 5⟩,
  ⟨R.LN_MD_FLT, [], .ro, 0⟩,
  ⟨R.LN_MD_CFG_PROF, [], .rwl, 2⟩,
  ⟨R.LN_MD_CFG_BRAKE, [], .rwl, 0⟩,
  ⟨R.LN_MD_CFG_BRKFB, [], .rwl, 0⟩]

/-- The LN block's register rows (5 of 5). -/
def rowsLN4 : List RegRow := [
  ⟨R.LN_MD_CFG_ASCEN, [], .rwl, 0⟩,
  ⟨R.LN_MD_CFG_CHEN, [], .rwl, 0⟩,
  ⟨R.LN_MD_REQ_GO, [], .wo, 0⟩,
  ⟨R.LN_MD_REQ_ABS, [], .wo, 0⟩,
  ⟨R.LN_MD_REQ_CODE, [], .wo, 0⟩,
  ⟨R.LN_MD_REQ_MODE, [], .wo, 0⟩,
  ⟨R.LN_MD_REQ_SUB, [], .wo, 0⟩,
  ⟨R.LN_MD_REQTICK, [], .rw, 0⟩,
  ⟨R.LN_MD_RES_PEND, [], .ro, 0⟩,
  ⟨R.LN_MD_RES_RESULT, [], .ro, 0⟩,
  ⟨R.LN_MD_ERDEC, [], .rw, 0⟩,
  ⟨R.LN_MD_ERTMO, [], .rw, 0x4e20⟩,
  ⟨R.LN_MD_WSTOP, [], .rw, 0x10000⟩,
  ⟨R.LN_MD_ASCW, [], .rwl, 0xffffffff⟩,
  ⟨R.LN_MD_ASCXW, [], .rwl, 0⟩,
  ⟨R.LN_MD_CHGAIN, [], .rw, 0x1400⟩,
  ⟨R.LN_MD_LIMP_LIMPT, [], .rw, 0x4ccd⟩,
  ⟨R.LN_MD_LIMP_LIMPW, [], .rw, 0x4ccd⟩,
  ⟨R.LN_MD_BRKT_BRKSET, [], .rw, 0x12c⟩,
  ⟨R.LN_MD_BRKT_BRKREL, [], .rw, 0x12c⟩,
  ⟨R.LN_MD_BRKTAPER, [], .rw, 0xc8⟩,
  ⟨R.LN_MD_BRKSLIP, [], .rw, 0x100⟩,
  ⟨R.LN_MD_HOLDT, [], .ro, 0⟩,
  ⟨R.LN_MD_REGEN, [], .ro, 0⟩,
  ⟨R.LN_MD_CHSTAT_FULL, [], .ro, 0⟩,
  ⟨R.LN_MD_CHSTAT_ACT, [], .ro, 0⟩,
  ⟨R.LN_MD_CHSTAT_DCH, [], .ro, 0⟩]

/-- The LN block's register rows. -/
def rowsLN : List RegRow := rowsLN0 ++ rowsLN1 ++ rowsLN2 ++ rowsLN3 ++ rowsLN4

/-- The SD block's register rows. -/
def rowsSD : List RegRow := [
  ⟨R.SD_CFG_OSR, [], .rw, 0x40⟩,
  ⟨R.SD_CFG_CLKSEL, [], .rwl, 1⟩,
  ⟨R.SD_CFG_EN, [], .rw, 0⟩,
  ⟨R.SD_ISUMLIM, [], .rw, 0x6666666⟩,
  ⟨R.SD_LAG, [], .ro, 0⟩,
  ⟨R.SD_CAL_CTL_EN, [], .rw, 0⟩,
  ⟨R.SD_CAL_CTL_SETTLE, [], .rw, 4⟩,
  ⟨R.SD_CAL_CTL_DWELL, [], .rw, 0x100⟩,
  ⟨R.SD_CAL_STAT_CALERR, [], .w1c, 0⟩,
  ⟨R.SD_CAL_STAT_PASSES, [], .ro, 0⟩,
  ⟨R.SD_CAL_STAT_POS, [], .ro, 0⟩,
  ⟨R.SD_CAL_MAP, [], .rw, 0xffffff⟩,
  ⟨R.SD_CAL_REF, [], .rw, 0x60000000⟩,
  ⟨R.SD_STAT_OSRCLAMP, [], .ro, 0⟩,
  ⟨R.SD_STAT_CFGERR, [], .w1c, 0⟩,
  ⟨R.SD_STAT_ALLVALID, [], .ro, 0⟩,
  ⟨(R.SD_CHn_CFG_EN 0), [(0x20, 12)], .rwl, 0⟩,
  ⟨(R.SD_CHn_CFG_ROLE 0), [(0x20, 12)], .rwl, 0⟩,
  ⟨(R.SD_CHn_CFG_SKEW 0), [(0x20, 12)], .rw, 8⟩,
  ⟨(R.SD_CHn_GAIN 0), [(0x20, 12)], .rw, 0x40000000⟩,
  ⟨(R.SD_CHn_OFS 0), [(0x20, 12)], .rw, 0⟩,
  ⟨(R.SD_CHn_CAL_GCAL 0), [(0x20, 12)], .ro, 0⟩,
  ⟨(R.SD_CHn_CAL_OCAL 0), [(0x20, 12)], .ro, 0⟩,
  ⟨(R.SD_CHn_INST 0), [(0x20, 12)], .ro, 0⟩,
  ⟨(R.SD_CHn_MEAN 0), [(0x20, 12)], .ro, 0⟩,
  ⟨(R.SD_CHn_STAT_SUSPECT 0), [(0x20, 12)], .w1c, 0⟩,
  ⟨(R.SD_CHn_STAT_LOSS 0), [(0x20, 12)], .w1c, 0⟩,
  ⟨(R.SD_CHn_STAT_VALID 0), [(0x20, 12)], .ro, 0⟩,
  ⟨(R.SD_CHn_RST_RESTART 0), [(0x20, 12)], .wo, 0⟩]

/-- The PW block's register rows. -/
def rowsPW : List RegRow := [
  ⟨R.PW_CTL_RUN, [], .rw, 0⟩,
  ⟨R.PW_CARRIER_K, [], .rw, 0x10⟩,
  ⟨R.PW_CARRIER_ORIGIN, [], .rw, 0x1058⟩,
  ⟨R.PW_PHASE, [], .rw, 0⟩,
  ⟨R.PW_NPAT, [], .rw, 1⟩,
  ⟨R.PW_MODE, [], .rw, 0⟩,
  ⟨R.PW_DT, [], .rw, 0x320⟩,
  ⟨R.PW_MINPULSE, [], .rw, 0x190⟩,
  ⟨R.PW_STAT_CFGERR, [], .w1c, 0⟩,
  ⟨R.PW_STAT_VSRES, [], .ro, 0⟩,
  ⟨R.PW_STAT_LATE, [], .w1c, 0⟩,
  ⟨R.PW_STAT_RUNNING, [], .ro, 0⟩,
  ⟨R.PW_CSEQ, [], .ro, 0⟩,
  ⟨R.PW_LATECNT, [], .rc, 0⟩,
  ⟨R.PW_VSLOST, [], .rc, 0⟩,
  ⟨(R.PW_LASTSCHED 0), [(0x4, 32)], .ro, 0⟩]

/-- The GD block's register rows (1 of 2). -/
def rowsGD0 : List RegRow := [
  ⟨R.GD_DTMIN, [], .rwl, 0x320⟩,
  ⟨R.GD_REFRESH_EN, [], .rw, 1⟩,
  ⟨R.GD_REFRESH_TREF, [], .rw, 0xc80⟩,
  ⟨R.GD_DLYMAX, [], .rw, 0xfa0⟩,
  ⟨R.GD_TELPER, [], .rw, 0x3e8⟩,
  ⟨R.GD_STAT_LATCH, [], .ro, 0⟩,
  ⟨R.GD_STAT_LOCK, [], .ro, 0⟩,
  ⟨R.GD_STAT_BSWARN, [], .ro, 0⟩,
  ⟨R.GD_STAT_PREDONE, [], .ro, 0⟩,
  ⟨R.GD_RFCNT, [], .rc, 0⟩,
  ⟨R.GD_DIAG_CTL_GO, [], .wo, 0⟩,
  ⟨R.GD_DIAG_CTL_LOAD, [], .rw, 0⟩,
  ⟨R.GD_DIAG_RES_DONE, [], .ro, 0⟩,
  ⟨R.GD_DIAG_RES_ABORT, [], .ro, 0⟩,
  ⟨R.GD_DIAG_RES_NOTRUN, [], .ro, 0⟩,
  ⟨R.GD_DIAG_RES_U, [], .ro, 0⟩,
  ⟨R.GD_DIAG_RES_V, [], .ro, 0⟩,
  ⟨R.GD_DIAG_RES_W, [], .ro, 0⟩,
  ⟨R.GD_DIAG_RES_K, [], .ro, 0⟩,
  ⟨(R.GD_CHc_CFG0_VON 0), [(0x40, 7)], .rw, 0⟩,
  ⟨(R.GD_CHc_CFG0_VOFF 0), [(0x40, 7)], .rw, 0xa⟩,
  ⟨(R.GD_CHc_CFG0_SRCSTEP 0), [(0x40, 7)], .rw, 7⟩,
  ⟨(R.GD_CHc_CFG0_SNKSTEP 0), [(0x40, 7)], .rw, 7⟩,
  ⟨(R.GD_CHc_CFG0_SOFTSTEP 0), [(0x40, 7)], .rw, 1⟩,
  ⟨(R.GD_CHc_CFG1_DSEN 0), [(0x40, 7)], .rw, 1⟩,
  ⟨(R.GD_CHc_CFG1_DSTH 0), [(0x40, 7)], .rw, 8⟩,
  ⟨(R.GD_CHc_CFG1_DSBLANK 0), [(0x40, 7)], .rw, 0x14⟩,
  ⟨(R.GD_CHc_CFG1_OFFTH 0), [(0x40, 7)], .rw, 8⟩,
  ⟨(R.GD_CHc_CFG1_MCEN 0), [(0x40, 7)], .rw, 1⟩,
  ⟨(R.GD_CHc_BOOST_EN 0), [(0x40, 7)], .rw, 0⟩,
  ⟨(R.GD_CHc_BOOST_DLY 0), [(0x40, 7)], .rw, 0⟩,
  ⟨(R.GD_CHc_STAT_CFGPEND 0), [(0x40, 7)], .ro, 0⟩]

/-- The GD block's register rows (2 of 2). -/
def rowsGD1 : List RegRow := [
  ⟨(R.GD_CHc_STAT_CFGREJ 0), [(0x40, 7)], .w1c, 0⟩,
  ⟨(R.GD_CHc_STAT_LOCK 0), [(0x40, 7)], .ro, 0⟩,
  ⟨(R.GD_CHc_STAT_PERMIT 0), [(0x40, 7)], .ro, 0⟩,
  ⟨(R.GD_CHc_STAT_VGEON 0), [(0x40, 7)], .ro, 0⟩,
  ⟨(R.GD_CHc_STAT_ONCMD 0), [(0x40, 7)], .ro, 0⟩,
  ⟨(R.GD_CHc_STAT_BSWARN 0), [(0x40, 7)], .ro, 0⟩,
  ⟨(R.GD_CHc_STAT_SCHED_BAD 0), [(0x40, 7)], .ro, 0⟩,
  ⟨(R.GD_CHc_STAT_SYNC 0), [(0x40, 7)], .ro, 0⟩,
  ⟨(R.GD_CHc_STAT_LINK 0), [(0x40, 7)], .ro, 0⟩,
  ⟨(R.GD_CHc_STAT_OFFCMD 0), [(0x40, 7)], .ro, 0⟩,
  ⟨(R.GD_CHc_STAT_SHOOT 0), [(0x40, 7)], .ro, 0⟩,
  ⟨(R.GD_CHc_STAT_DESAT 0), [(0x40, 7)], .ro, 0⟩,
  ⟨(R.GD_CHc_STAT_UVLON 0), [(0x40, 7)], .ro, 0⟩,
  ⟨(R.GD_CHc_STAT_UVLOP 0), [(0x40, 7)], .ro, 0⟩,
  ⟨(R.GD_CHc_RAIL_POS 0), [(0x40, 7)], .ro, 0⟩,
  ⟨(R.GD_CHc_RAIL_NEG 0), [(0x40, 7)], .ro, 0⟩,
  ⟨(R.GD_CHc_SYNCERR 0), [(0x40, 7)], .ro, 0⟩,
  ⟨(R.GD_CHc_CNT_DELAYED 0), [(0x40, 7)], .rc, 0⟩,
  ⟨(R.GD_CHc_CNT_DROPPED 0), [(0x40, 7)], .rc, 0⟩,
  ⟨(R.GD_CHc_LINKERR 0), [(0x40, 7)], .rc, 0⟩]

/-- The GD block's register rows. -/
def rowsGD : List RegRow := rowsGD0 ++ rowsGD1

/-- The FB block's register rows (1 of 3). -/
def rowsFB0 : List RegRow := [
  ⟨R.FB_SEL_IDXACT, [], .rwl, 0⟩,
  ⟨R.FB_SEL_IDXSRC, [], .rwl, 0⟩,
  ⟨R.FB_SEL_SEC, [], .rwl, 0⟩,
  ⟨R.FB_SEL_PRI, [], .rwl, 0⟩,
  ⟨R.FB_CTL_CORR, [], .wo, 0⟩,
  ⟨R.FB_CTL_USEPRI, [], .wo, 0⟩,
  ⟨R.FB_CTL_EN, [], .rw, 0⟩,
  ⟨R.FB_STAT_CFGERR, [], .w1c, 0⟩,
  ⟨R.FB_STAT_PRIOK, [], .ro, 0⟩,
  ⟨R.FB_STAT_SECOK, [], .ro, 0⟩,
  ⟨R.FB_STAT_ALIGNED, [], .ro, 0⟩,
  ⟨R.FB_STAT_WHY, [], .ro, 0⟩,
  ⟨R.FB_STAT_OPSRC, [], .ro, 0⟩,
  ⟨R.FB_POS_LO, [], .ro, 0⟩,
  ⟨R.FB_POS_HI, [], .ro, 0⟩,
  ⟨R.FB_THETA, [], .ro, 0⟩,
  ⟨R.FB_OMEGA, [], .ro, 0⟩,
  ⟨R.FB_POSCORR, [], .ro, 0⟩,
  ⟨R.FB_HOFS_LO, [], .ro, 0⟩,
  ⟨R.FB_HOFS_HI, [], .ro, 0⟩,
  ⟨R.FB_SPD_WIN, [], .rw, 4⟩,
  ⟨R.FB_REVAL, [], .rw, 0xfa0⟩,
  ⟨R.FB_ABZ_CFG_ZQUAL, [], .rwl, 1⟩,
  ⟨R.FB_ABZ_CFG_SWAP, [], .rwl, 0⟩,
  ⟨R.FB_ABZ_CPR, [], .rwl, 0x4000⟩,
  ⟨R.FB_CNT, [], .ro, 0⟩,
  ⟨R.FB_ABZ_STAT_ZFAULT, [], .ro, 0⟩,
  ⟨R.FB_ABZ_STAT_ABFAULT, [], .ro, 0⟩,
  ⟨R.FB_ABZ_STAT_ILL, [], .w1c, 0⟩,
  ⟨R.FB_ABZ_ILLCNT, [], .rc, 0⟩,
  ⟨R.FB_IDXLAT, [], .ro, 0⟩,
  ⟨R.FB_IDXPREV, [], .ro, 0⟩]

/-- The FB block's register rows (2 of 3). -/
def rowsFB1 : List RegRow := [
  ⟨R.FB_IDX_CFG_AUTOCORR, [], .rw, 0⟩,
  ⟨R.FB_IDX_CFG_IANG, [], .rw, 0⟩,
  ⟨R.FB_IDXTOL, [], .rw, 2⟩,
  ⟨R.FB_IDX_STAT_DRIFT, [], .ro, 0⟩,
  ⟨R.FB_IDX_STAT_RUN, [], .ro, 0⟩,
  ⟨R.FB_IDX_STAT_GOOD, [], .ro, 0⟩,
  ⟨R.FB_IDX_STAT_DIR, [], .ro, 0⟩,
  ⟨R.FB_IDX_STAT_MISS, [], .w1c, 0⟩,
  ⟨R.FB_IDX_STAT_DEGRADED, [], .ro, 0⟩,
  ⟨R.FB_IDX_ACC, [], .ro, 0⟩,
  ⟨R.FB_IDXCNT, [], .rc, 0⟩,
  ⟨R.FB_SC_LINES, [], .rwl, 0x800⟩,
  ⟨R.FB_SC_AWIN_AMAX, [], .rw, 0xa666⟩,
  ⟨R.FB_SC_AWIN_AMIN, [], .rw, 0x4000⟩,
  ⟨R.FB_SC_OFS_SIN, [], .rw, 0⟩,
  ⟨R.FB_SC_OFS_COS, [], .rw, 0⟩,
  ⟨R.FB_SC_GAIN_SIN, [], .rw, 0x8000⟩,
  ⟨R.FB_SC_GAIN_COS, [], .rw, 0x8000⟩,
  ⟨R.FB_SC_STAT_AMP, [], .ro, 0⟩,
  ⟨R.FB_SC_STAT_QUADERR, [], .w1c, 0⟩,
  ⟨R.FB_SC_STAT_AMPERR, [], .w1c, 0⟩,
  ⟨R.FB_RS_CFG_PP, [], .rwl, 1⟩,
  ⟨R.FB_RS_CFG_EXCDIV, [], .rwl, 0x4e20⟩,
  ⟨R.FB_RS_EXC_PHASE, [], .rw, 0⟩,
  ⟨R.FB_RS_EXC_AMPL, [], .rw, 0x50⟩,
  ⟨R.FB_RS_AWIN_AMAX, [], .rw, 0xa666⟩,
  ⟨R.FB_RS_AWIN_AMIN, [], .rw, 0x4000⟩,
  ⟨R.FB_RS_OFS, [], .rw, 0⟩,
  ⟨R.FB_RS_STAT_AMP, [], .ro, 0⟩,
  ⟨R.FB_RS_STAT_EXCFAULT, [], .ro, 0⟩,
  ⟨R.FB_RS_STAT_AMPERR, [], .w1c, 0⟩,
  ⟨R.FB_SSI_CFG_CLKDIV, [], .rwl, 0x64⟩]

/-- The FB block's register rows (3 of 3). -/
def rowsFB2 : List RegRow := [
  ⟨R.FB_SSI_CFG_PARITY, [], .rwl, 0⟩,
  ⟨R.FB_SSI_CFG_ERRBIT, [], .rwl, 0⟩,
  ⟨R.FB_SSI_CFG_GRAY, [], .rwl, 1⟩,
  ⟨R.FB_SSI_CFG_STBITS, [], .rwl, 0xd⟩,
  ⟨R.FB_SSI_CFG_BITS, [], .rwl, 0x19⟩,
  ⟨R.FB_SSI_LEAD, [], .rw, 0x1770⟩,
  ⟨R.FB_SSI_JMAX, [], .rw, 0x1000⟩,
  ⟨R.FB_SSI_OFS, [], .rw, 0⟩,
  ⟨R.FB_SSI_STAT_LATE, [], .w1c, 0⟩,
  ⟨R.FB_SSI_STAT_JUMP, [], .w1c, 0⟩,
  ⟨R.FB_SSI_STAT_FRAMEERR, [], .w1c, 0⟩,
  ⟨R.FB_SSI_ERRCNT, [], .rc, 0⟩,
  ⟨R.FB_HALL_MAP, [], .rwl, 0xffffff⟩,
  ⟨R.FB_HALL_CFG_TMO, [], .rw, 0x64⟩,
  ⟨R.FB_HALL_CFG_FILT, [], .rw, 0x190⟩,
  ⟨R.FB_HALL_OFS, [], .rw, 0⟩,
  ⟨R.FB_HALL_STAT_SKIP, [], .w1c, 0⟩,
  ⟨R.FB_HALL_STAT_BADSTATE, [], .w1c, 0⟩,
  ⟨R.FB_HALL_STAT_STATE, [], .ro, 0⟩,
  ⟨R.FB_EMU_CFG_EN, [], .rw, 0⟩,
  ⟨R.FB_EMU_CFG_SRC, [], .rw, 0⟩,
  ⟨R.FB_EMU_RATIO_M, [], .rw, 1⟩,
  ⟨R.FB_EMU_RATIO_N, [], .rw, 1⟩,
  ⟨R.FB_EMU_ZCPR, [], .rw, 0x4000⟩,
  ⟨R.FB_EMU_STAT_LAG, [], .ro, 0⟩,
  ⟨R.FB_EMU_STAT_STEP, [], .w1c, 0⟩,
  ⟨R.FB_EMU_STAT_OVR, [], .w1c, 0⟩]

/-- The FB block's register rows. -/
def rowsFB : List RegRow := rowsFB0 ++ rowsFB1 ++ rowsFB2

/-- The BL block's register rows (1 of 2). -/
def rowsBL0 : List RegRow := [
  ⟨R.BL_CFG_ROOT, [], .rwl, 0⟩,
  ⟨R.BL_CFG_EN, [], .rw, 0⟩,
  ⟨R.BL_UID_PREF, [], .rwl, 0⟩,
  ⟨R.BL_UID_ID, [], .ro, 0⟩,
  ⟨R.BL_SERIAL_LO, [], .ro, 0⟩ /- per module -/,
  ⟨R.BL_SERIAL_HI, [], .ro, 0⟩ /- per module -/,
  ⟨R.BL_EPOCH, [], .ro, 0⟩ /- per R297 -/,
  ⟨R.BL_ROLE_CONSIST, [], .ro, 0⟩,
  ⟨R.BL_ROLE_SLOT, [], .ro, 0⟩,
  ⟨R.BL_ROLE_KIND, [], .ro, 0⟩,
  ⟨R.BL_WIN_OPEN, [], .rwl, 0x1130⟩,
  ⟨R.BL_WIN_LEN, [], .rwl, 0x12c0⟩,
  ⟨R.BL_SYNC_STATE, [], .ro, 0⟩,
  ⟨R.BL_SYNC_HOLDOVER, [], .ro, 0⟩,
  ⟨R.BL_SYNC_HOPS, [], .ro, 0⟩,
  ⟨R.BL_SYNC_ERR, [], .ro, 0⟩,
  ⟨R.BL_STAT_RING, [], .ro, 0⟩,
  ⟨R.BL_STAT_BLOCKED, [], .ro, 0⟩,
  ⟨R.BL_STAT_UP, [], .ro, 0⟩,
  ⟨R.BL_SN, [], .ro, 0⟩,
  ⟨R.BL_SNOFS, [], .ro, 0⟩,
  ⟨R.BL_STALECNT, [], .rc, 0⟩,
  ⟨(R.BL_Pp_STAT_NBR 0), [(0x40, 4)], .ro, 0⟩,
  ⟨(R.BL_Pp_STAT_LOS 0), [(0x40, 4)], .ro, 0⟩,
  ⟨(R.BL_Pp_STAT_UP 0), [(0x40, 4)], .ro, 0⟩,
  ⟨(R.BL_Pp_DELAY 0), [(0x40, 4)], .ro, 0⟩,
  ⟨(R.BL_Pp_RXCELLS 0), [(0x40, 4)], .rc, 0⟩,
  ⟨(R.BL_Pp_CRCERR 0), [(0x40, 4)], .rc, 0⟩,
  ⟨(R.BL_Pp_DISCARD 0), [(0x40, 4)], .rc, 0⟩,
  ⟨(R.BL_Pp_MTX_BUSY 0), [(0x40, 4)], .ro, 0⟩,
  ⟨(R.BL_Pp_MTX_GO 0), [(0x40, 4)], .wo, 0⟩,
  ⟨(R.BL_Pp_MTX_Ww 0 0), [(0x40, 4), (0x4, 8)], .wo, 0⟩]

/-- The BL block's register rows (2 of 2). -/
def rowsBL1 : List RegRow := [
  ⟨R.BL_CS_CFG_MISSMAX, [], .rw, 0x190⟩,
  ⟨R.BL_CS_CFG_TAKE, [], .rw, 2⟩,
  ⟨R.BL_CS_FADE, [], .rw, 0x190⟩,
  ⟨R.BL_CS_UNITS_DEPUTY, [], .ro, 0⟩,
  ⟨R.BL_CS_UNITS_HEAD, [], .ro, 0⟩,
  ⟨R.BL_CS_STAT_TAKEN, [], .ro, 0⟩,
  ⟨R.BL_CS_STAT_SHORT, [], .ro, 0⟩,
  ⟨R.BL_CS_STAT_BUDGETERR, [], .ro, 0⟩,
  ⟨R.BL_CS_STAT_DEPTH, [], .ro, 0⟩,
  ⟨R.BL_CS_STAT_PRESENT, [], .ro, 0⟩,
  ⟨R.BL_CS_NSOFS, [], .ro, 0⟩,
  ⟨R.BL_CS_BOUND, [], .ro, 0⟩,
  ⟨R.BL_CS_CPOS, [], .ro, 0⟩,
  ⟨R.BL_CS_CNEG, [], .ro, 0⟩,
  ⟨R.BL_CS_D, [], .ro, 0⟩,
  ⟨R.BL_CS_MISSSH, [], .rc, 0⟩,
  ⟨R.BL_CS_MISSCT, [], .rc, 0⟩,
  ⟨(R.BL_CS_Ms_ID_USED 0), [(0x10, 64)], .ro, 0⟩,
  ⟨(R.BL_CS_Ms_ID_UID 0), [(0x10, 64)], .ro, 0⟩,
  ⟨(R.BL_CS_Ms_ID_EPOCH 0), [(0x10, 64)], .ro, 0⟩,
  ⟨(R.BL_CS_Ms_W_WEIGHT 0), [(0x10, 64)], .ro, 0⟩,
  ⟨(R.BL_CS_Ms_W_STATUS 0), [(0x10, 64)], .ro, 0⟩,
  ⟨(R.BL_CS_Ms_TSC 0), [(0x10, 64)], .ro, 0⟩,
  ⟨(R.BL_CS_Ms_SHARE 0), [(0x10, 64)], .ro, 0⟩,
  ⟨(R.BL_RT_n_VALID 0), [(0x4, 1024)], .ro, 0⟩,
  ⟨(R.BL_RT_n_PORT 0), [(0x4, 1024)], .ro, 0⟩,
  ⟨(R.BL_CM_c 0), [(0x4, 128)], .ro, 0⟩]

/-- The BL block's register rows. -/
def rowsBL : List RegRow := rowsBL0 ++ rowsBL1

/-- The PM block's register rows. -/
def rowsPM : List RegRow := [
  ⟨R.PM_CFG_CONF, [], .rwl, 0⟩,
  ⟨R.PM_CFG_SIDE, [], .rwl, 0⟩,
  ⟨R.PM_CFG_EN, [], .rw, 0⟩,
  ⟨R.PM_SHARE, [], .rwl, 0x4000⟩,
  ⟨R.PM_FADE, [], .rw, 0x190⟩,
  ⟨R.PM_PSER_LO, [], .rwl, 0⟩,
  ⟨R.PM_PSER_HI, [], .rwl, 0⟩,
  ⟨R.PM_CTL_RELEASE, [], .wo, 0⟩,
  ⟨R.PM_CTL_ENGAGE, [], .wo, 0⟩,
  ⟨R.PM_STAT_CFGERR, [], .w1c, 0⟩,
  ⟨R.PM_STAT_PERIOD, [], .ro, 0⟩,
  ⟨R.PM_STAT_SYNCED, [], .ro, 0⟩,
  ⟨R.PM_STAT_TAKEOK, [], .ro, 0⟩,
  ⟨R.PM_STAT_MIRRLOST, [], .ro, 0⟩,
  ⟨R.PM_STAT_ALIVELOST, [], .ro, 0⟩,
  ⟨R.PM_STAT_OWN, [], .ro, 0⟩,
  ⟨R.PM_STAT_CHGIN, [], .ro, 0⟩,
  ⟨R.PM_STAT_LEAD, [], .ro, 0⟩,
  ⟨R.PM_STAT_PSTATE, [], .ro, 0⟩,
  ⟨R.PM_SHAREEFF, [], .ro, 0⟩,
  ⟨R.PM_MISS_BLK, [], .ro, 0⟩,
  ⟨R.PM_MISS_HB, [], .ro, 0⟩,
  ⟨R.PM_BADBLK, [], .rc, 0⟩,
  ⟨R.PM_HBSEQ, [], .ro, 0⟩,
  ⟨R.PM_JOINSN, [], .ro, 0⟩,
  ⟨R.PM_PTOL, [], .rw, 0x100⟩,
  ⟨R.PM_SYNCERR, [], .ro, 0⟩]

/-- The SB block's register rows (1 of 3). -/
def rowsSB0 : List RegRow := [
  ⟨R.SB_LOCK_OPEN, [], .ro, 0⟩,
  ⟨R.SB_LOCK_LOCKED, [], .ro, 0⟩,
  ⟨R.SB_STAT_GSUP, [], .ro, 0⟩,
  ⟨R.SB_STAT_SRSTLONG, [], .w1c, 0⟩,
  ⟨R.SB_STAT_GUARDDONE, [], .ro, 0⟩,
  ⟨R.SB_STAT_CRCERR, [], .ro, 0⟩,
  ⟨R.SB_STAT_SAFETY_EVT_LOST, [], .w1c, 0⟩,
  ⟨R.SB_STAT_LOCKOUT, [], .ro, 0⟩,
  ⟨R.SB_STAT_SBCSET, [], .ro, 1⟩,
  ⟨R.SB_STAT_SLSMON, [], .ro, 0⟩,
  ⟨R.SB_STAT_SLS, [], .ro, 0⟩,
  ⟨R.SB_STAT_SS1, [], .ro, 0⟩,
  ⟨R.SB_STAT_STO, [], .ro, 1⟩,
  ⟨R.SB_MPWD, [], .wo, 0⟩,
  ⟨R.SB_SFLT, [], .ro, 0⟩,
  ⟨R.SB_FIRST_CODE, [], .ro, 0⟩,
  ⟨R.SB_FIRST_TICK, [], .ro, 0⟩,
  ⟨R.SB_CRC_CALC, [], .ro, 0⟩,
  ⟨R.SB_CRC_CONF, [], .ro, 0⟩,
  ⟨R.SB_STO_FILT, [], .rwl, 0xa⟩,
  ⟨(R.SB_SINi_CFG_ROLE 0), [(0x4, 4)], .rwl, 0⟩,
  ⟨(R.SB_SINi_CFG_FILT 0), [(0x4, 4)], .rwl, 0xa⟩,
  ⟨R.SB_IN_STAT_SRST, [], .ro, 0⟩,
  ⟨R.SB_IN_STAT_SIN, [], .ro, 0⟩,
  ⟨R.SB_IN_STAT_STO_N, [], .ro, 0⟩,
  ⟨R.SB_LIMIT_IPH, [], .rwl, 0x7333⟩,
  ⟨R.SB_LIMIT_ICH, [], .rwl, 0x7333⟩,
  ⟨R.SB_LIMIT_VOV, [], .rwl, 0x7333⟩,
  ⟨R.SB_LIMIT_WOS, [], .rwl, 0⟩,
  ⟨R.SB_REQL_IPH, [], .ro, 0xffff⟩,
  ⟨R.SB_REQL_ICH, [], .ro, 0xffff⟩,
  ⟨R.SB_REQL_VOV, [], .ro, 0xffff⟩]

/-- The SB block's register rows (2 of 3). -/
def rowsSB1 : List RegRow := [
  ⟨R.SB_REQL_WOS, [], .ro, 0xffffffff⟩,
  ⟨R.SB_REQM_IPH, [], .rw, 0xffff⟩,
  ⟨R.SB_REQM_ICH, [], .rw, 0xffff⟩,
  ⟨R.SB_REQM_VOV, [], .rw, 0xffff⟩,
  ⟨R.SB_REQM_WOS, [], .rw, 0xffffffff⟩,
  ⟨R.SB_REQM_GATE_GOFF, [], .rw, 0⟩,
  ⟨R.SB_EFF_IPH, [], .ro, 0x7333⟩,
  ⟨R.SB_EFF_ICH, [], .ro, 0x7333⟩,
  ⟨R.SB_EFF_VOV, [], .ro, 0x7333⟩,
  ⟨R.SB_EFF_WOS, [], .ro, 0⟩,
  ⟨R.SB_WSB, [], .ro, 0⟩,
  ⟨R.SB_WDISC, [], .rwl, 0x50000⟩,
  ⟨R.SB_SBC_CFG_ONSTO, [], .rwl, 1⟩,
  ⟨R.SB_SBC_CFG_TESTEN, [], .rwl, 1⟩,
  ⟨R.SB_SS1_CFG_TOKR, [], .rwl, 0⟩,
  ⟨R.SB_SS1_TIME_T, [], .rwl, 0x1f4⟩,
  ⟨R.SB_SS1_TIME_TDLY, [], .rwl, 0x64⟩,
  ⟨R.SB_SS1_TMAX, [], .rwl, 0x4e20⟩,
  ⟨R.SB_SS1_DEC, [], .rwl, 0⟩,
  ⟨R.SB_SS1_WOFS, [], .rwl, 0⟩,
  ⟨R.SB_SS1_WSTOP, [], .rwl, 0x10000⟩,
  ⟨R.SB_SLS_W, [], .rwl, 0⟩,
  ⟨R.SB_SLS_TDLY, [], .rwl, 0x1f4⟩,
  ⟨(R.SB_TOKt_CFG_EN 0), [(0x20, 2)], .rwl, 0⟩,
  ⟨(R.SB_TOKt_CFG_FUNCMASK 0), [(0x20, 2)], .rwl, 0⟩,
  ⟨(R.SB_TOKt_CFG_SEQWIN 0), [(0x20, 2)], .rwl, 4⟩,
  ⟨(R.SB_TOKt_CFG_CONN 0), [(0x20, 2)], .rwl, 0⟩,
  ⟨(R.SB_TOKt_WD_WDMAX 0), [(0x20, 2)], .rwl, 0x64⟩,
  ⟨(R.SB_TOKt_STAT_LASTSEQ 0), [(0x20, 2)], .ro, 0⟩,
  ⟨(R.SB_TOKt_STAT_TXRDY 0), [(0x20, 2)], .ro, 0⟩,
  ⟨(R.SB_TOKt_STAT_STALE 0), [(0x20, 2)], .w1c, 0⟩,
  ⟨(R.SB_TOKt_STAT_ESTAB 0), [(0x20, 2)], .ro, 0⟩]

/-- The SB block's register rows (3 of 3). -/
def rowsSB2 : List RegRow := [
  ⟨(R.SB_TOKt_REJ 0), [(0x20, 2)], .rc, 0⟩,
  ⟨(R.SB_TOK_RXw 0), [(0x4, 16)], .wo, 0⟩,
  ⟨R.SB_TOK_RXCTL_GO, [], .wo, 0⟩,
  ⟨R.SB_TOK_RXRES_CONN, [], .ro, 0⟩,
  ⟨R.SB_TOK_RXRES_RESULT, [], .ro, 0⟩,
  ⟨(R.SB_TOKt_TXw 0 0), [(0x40, 2), (0x4, 16)], .ro, 0⟩]

/-- The SB block's register rows. -/
def rowsSB : List RegRow := rowsSB0 ++ rowsSB1 ++ rowsSB2

/-- The CAN block's register rows (1 of 2). -/
def rowsCAN0 : List RegRow := [
  ⟨(R.CANn_CTL_RECOVER 0), [(0x10000, 2)], .wo, 0⟩,
  ⟨(R.CANn_CTL_MODE 0), [(0x10000, 2)], .rw, 0⟩,
  ⟨(R.CANn_CFG_NOMATCH 0), [(0x10000, 2)], .rw, 0⟩,
  ⟨(R.CANn_CFG_TXORD 0), [(0x10000, 2)], .rw, 0⟩,
  ⟨(R.CANn_CFG_ABOR 0), [(0x10000, 2)], .rw, 0⟩,
  ⟨(R.CANn_CFG_DAR 0), [(0x10000, 2)], .rw, 0⟩,
  ⟨(R.CANn_CFG_RESACT 0), [(0x10000, 2)], .rw, 0⟩,
  ⟨(R.CANn_NBT_NSJW 0), [(0x10000, 2)], .rw, 0xf⟩,
  ⟨(R.CANn_NBT_NTSEG2 0), [(0x10000, 2)], .rw, 0xf⟩,
  ⟨(R.CANn_NBT_NTSEG1 0), [(0x10000, 2)], .rw, 0x3e⟩,
  ⟨(R.CANn_NBT_NBRP 0), [(0x10000, 2)], .rw, 1⟩,
  ⟨(R.CANn_DBT_DSJW 0), [(0x10000, 2)], .rw, 4⟩,
  ⟨(R.CANn_DBT_DTSEG2 0), [(0x10000, 2)], .rw, 4⟩,
  ⟨(R.CANn_DBT_DTSEG1 0), [(0x10000, 2)], .rw, 0xd⟩,
  ⟨(R.CANn_DBT_DBRP 0), [(0x10000, 2)], .rw, 1⟩,
  ⟨(R.CANn_TDC_EN 0), [(0x10000, 2)], .rw, 1⟩,
  ⟨(R.CANn_TDC_TDCV 0), [(0x10000, 2)], .ro, 0⟩,
  ⟨(R.CANn_TDC_TDCO 0), [(0x10000, 2)], .rw, 0x1e⟩,
  ⟨(R.CANn_ERR_DLEC 0), [(0x10000, 2)], .rc, 0⟩,
  ⟨(R.CANn_ERR_LEC 0), [(0x10000, 2)], .rc, 0⟩,
  ⟨(R.CANn_ERR_EWARN 0), [(0x10000, 2)], .ro, 0⟩,
  ⟨(R.CANn_ERR_STATE 0), [(0x10000, 2)], .ro, 3⟩,
  ⟨(R.CANn_ERR_RP 0), [(0x10000, 2)], .ro, 0⟩,
  ⟨(R.CANn_ERR_REC 0), [(0x10000, 2)], .ro, 0⟩,
  ⟨(R.CANn_ERR_TEC 0), [(0x10000, 2)], .ro, 0⟩,
  ⟨(R.CANn_STAT_TDCERR 0), [(0x10000, 2)], .w1c, 0⟩,
  ⟨(R.CANn_STAT_PXE 0), [(0x10000, 2)], .w1c, 0⟩,
  ⟨(R.CANn_STAT_CANREF 0), [(0x10000, 2)], .w1c, 0⟩,
  ⟨(R.CANn_STAT_CFGERR 0), [(0x10000, 2)], .w1c, 0⟩,
  ⟨(R.CANn_TS 0), [(0x10000, 2)], .ro, 0⟩,
  ⟨(R.CANn_FRSEQ_F1 0), [(0x10000, 2)], .ro, 0⟩,
  ⟨(R.CANn_FRSEQ_F0 0), [(0x10000, 2)], .ro, 0⟩]

/-- The CAN block's register rows (2 of 2). -/
def rowsCAN1 : List RegRow := [
  ⟨(R.CANn_BOCNT 0), [(0x10000, 2)], .rc, 0⟩,
  ⟨(R.CANn_TXCTL_CANCEL 0), [(0x10000, 2)], .wo, 0⟩,
  ⟨(R.CANn_TXCTL_REQ 0), [(0x10000, 2)], .wo, 0⟩,
  ⟨(R.CANn_IRQ_ESTATE 0), [(0x10000, 2)], .w1c, 0⟩,
  ⟨(R.CANn_IRQ_TXFAIL 0), [(0x10000, 2)], .w1c, 0⟩,
  ⟨(R.CANn_IRQ_TXDONE 0), [(0x10000, 2)], .w1c, 0⟩,
  ⟨(R.CANn_IE 0), [(0x10000, 2)], .rw, 0⟩,
  ⟨(R.CANn_TXBb_ID_XTD 0 0), [(0x10000, 2), (0x80, 3)], .rw, 0⟩,
  ⟨(R.CANn_TXBb_ID_RTR 0 0), [(0x10000, 2), (0x80, 3)], .rw, 0⟩,
  ⟨(R.CANn_TXBb_ID_ID 0 0), [(0x10000, 2), (0x80, 3)], .rw, 0⟩,
  ⟨(R.CANn_TXBb_CTL_BRS 0 0), [(0x10000, 2), (0x80, 3)], .rw, 0⟩,
  ⟨(R.CANn_TXBb_CTL_FDF 0 0), [(0x10000, 2), (0x80, 3)], .rw, 0⟩,
  ⟨(R.CANn_TXBb_CTL_DLC 0 0), [(0x10000, 2), (0x80, 3)], .rw, 0⟩,
  ⟨(R.CANn_TXBb_STAT_TRIES 0 0), [(0x10000, 2), (0x80, 3)], .ro, 0⟩,
  ⟨(R.CANn_TXBb_STAT_STATE 0 0), [(0x10000, 2), (0x80, 3)], .ro, 0⟩,
  ⟨(R.CANn_TXBb_TS 0 0), [(0x10000, 2), (0x80, 3)], .ro, 0⟩,
  ⟨(R.CANn_TXBb_Dw 0 0 0), [(0x10000, 2), (0x80, 3), (0x4, 16)], .rw, 0⟩,
  ⟨(R.CANn_FLTf_CFG_EN 0 0), [(0x10000, 2), (0x10, 32)], .rw, 0⟩,
  ⟨(R.CANn_FLTf_CFG_XTD 0 0), [(0x10000, 2), (0x10, 32)], .rw, 0⟩,
  ⟨(R.CANn_FLTf_CFG_REJECT 0 0), [(0x10000, 2), (0x10, 32)], .rw, 0⟩,
  ⟨(R.CANn_FLTf_CFG_FIFO 0 0), [(0x10000, 2), (0x10, 32)], .rw, 0⟩,
  ⟨(R.CANn_FLTf_MATCH 0 0), [(0x10000, 2), (0x10, 32)], .rw, 0⟩,
  ⟨(R.CANn_FLTf_MASK 0 0), [(0x10000, 2), (0x10, 32)], .rw, 0x1fffffff⟩]

/-- The CAN block's register rows. -/
def rowsCAN : List RegRow := rowsCAN0 ++ rowsCAN1

/-- The HS block's register rows. -/
def rowsHS : List RegRow := [
  ⟨R.HS_ID_PART, [], .ro, 0x4810⟩,
  ⟨R.HS_ID_IFVER, [], .ro, 1⟩,
  ⟨R.HS_STAT_LASTRES, [], .ro, 0⟩,
  ⟨R.HS_STAT_PTRERR, [], .w1c, 0⟩,
  ⟨R.HS_STAT_MPSTATE, [], .ro, 3⟩,
  ⟨R.HS_IRQ_REFUSED, [], .w1c, 0⟩,
  ⟨R.HS_IRQ_SPIERR, [], .w1c, 0⟩,
  ⟨R.HS_IRQ_MPDOWN, [], .w1c, 0⟩,
  ⟨R.HS_IRQ_MPUP, [], .w1c, 0⟩,
  ⟨R.HS_IRQ_ATTN, [], .w1c, 0⟩,
  ⟨R.HS_IRQ_CPL, [], .ro, 0⟩,
  ⟨R.HS_IE, [], .rw, 0⟩,
  ⟨R.HS_SPIERR_CRC, [], .rc, 0⟩,
  ⟨R.HS_SPIERR_OTHER, [], .rc, 0⟩,
  ⟨R.HS_ATTN, [], .ro, 0⟩,
  ⟨(R.HS_CQc_TAIL 0), [(0x8, 4)], .rw, 0⟩,
  ⟨(R.HS_CQc_HEAD 0), [(0x8, 4)], .ro, 0⟩,
  ⟨(R.HS_CPLc_TAIL 0), [(0x8, 4)], .ro, 0⟩,
  ⟨(R.HS_CPLc_HEAD 0), [(0x8, 4)], .rw, 0⟩,
  ⟨(R.HS_CPLc_CTL_WM_IE 0), [(0x4, 4)], .rw, 0⟩,
  ⟨(R.HS_CPLc_CTL_WMARK 0), [(0x4, 4)], .rw, 1⟩]

/-- The TH block's register rows. -/
def rowsTH : List RegRow := [
  ⟨R.TH_STAT_TXFAULT, [], .ro, 0⟩,
  ⟨R.TH_STAT_SUSPECT, [], .ro, 0⟩,
  ⟨R.TH_STAT_WARN, [], .ro, 0⟩,
  ⟨R.TH_RATE_FAST, [], .ro, 0⟩,
  ⟨R.TH_FTH_SRC, [], .ro, 0⟩,
  ⟨R.TH_FTH_F, [], .ro, 0x8000⟩,
  ⟨R.TH_TCEIL, [], .ro, 0⟩,
  ⟨R.TH_AUX_VIN, [], .ro, 0⟩,
  ⟨R.TH_AUX_VHB, [], .ro, 0⟩,
  ⟨R.TH_SUP_OVOPEN, [], .ro, 0⟩,
  ⟨R.TH_SUP_RIDE, [], .ro, 0⟩,
  ⟨R.TH_SUP_HBOK, [], .ro, 0⟩,
  ⟨R.TH_SUP_AUXOK, [], .ro, 0⟩,
  ⟨R.TH_COMP_TCXO, [], .ro, 0⟩,
  ⟨R.TH_COMP_REF, [], .ro, 0⟩,
  ⟨R.TH_RIDECNT, [], .rc, 0⟩,
  ⟨R.TH_TXCFG, [], .rwl, 0⟩,
  ⟨(R.TH_Tn_USED 0), [(0x4, 11)], .ro, 0⟩,
  ⟨(R.TH_Tn_RAW 0), [(0x4, 11)], .ro, 0⟩,
  ⟨(R.TH_NBOFSp 0), [(0x4, 10)], .rwl, 0⟩,
  ⟨(R.TH_TXi_RN 0), [(0x10, 3)], .rwl, 0x27100000⟩,
  ⟨(R.TH_TXi_B 0), [(0x10, 3)], .rwl, 0xd7a0000⟩,
  ⟨(R.TH_TXi_WARN 0), [(0x10, 3)], .rwl, 0x2d00⟩,
  ⟨(R.TH_TXi_LIM 0), [(0x10, 3)], .rwl, 0x3700⟩]

/-- The NV block's register rows. -/
def rowsNV : List RegRow := [
  ⟨R.NV_STAT_SUSP, [], .ro, 0⟩,
  ⟨R.NV_STAT_OP, [], .ro, 0⟩,
  ⟨R.NV_DIRTY_VALID, [], .ro, 0⟩,
  ⟨R.NV_DIRTY_SECTOR, [], .ro, 0⟩,
  ⟨R.NV_CFGSEQ, [], .ro, 0⟩,
  ⟨R.NV_JNLSEQ, [], .ro, 0⟩,
  ⟨R.NV_TBLSEQ, [], .ro, 0⟩,
  ⟨R.NV_SEL_TBL, [], .ro, 0⟩,
  ⟨R.NV_SEL_JNL, [], .ro, 0⟩,
  ⟨R.NV_SEL_CFG, [], .ro, 0⟩,
  ⟨R.NV_LOGSEQ_LO, [], .ro, 0⟩,
  ⟨R.NV_LOGSEQ_HI, [], .ro, 0⟩,
  ⟨R.NV_LOGOLD_LO, [], .ro, 0⟩,
  ⟨R.NV_LOGOLD_HI, [], .ro, 0⟩,
  ⟨R.NV_ERASECNT, [], .ro, 0⟩,
  ⟨R.NV_RETIRED, [], .ro, 0⟩,
  ⟨R.NV_FAILCNT, [], .rc, 0⟩]

/-- The BI block's register rows. -/
def rowsBI : List RegRow := [
  ⟨R.BI_CTL_ABORT, [], .wo, 0⟩,
  ⟨R.BI_STAT_JOB, [], .ro, 0⟩,
  ⟨R.BI_STAT_LANE, [], .ro, 0⟩,
  ⟨R.BI_STAT_BUSY, [], .ro, 0⟩,
  ⟨R.BI_SLICES, [], .rc, 0⟩,
  ⟨R.BI_ABORTS, [], .rc, 0⟩,
  ⟨R.BI_FAILADDR, [], .ro, 0⟩,
  ⟨R.BI_FAIL_KIND, [], .ro, 0⟩,
  ⟨R.BI_FAIL_BIT, [], .ro, 0x3ff⟩]

/-- The CC block's register rows. -/
def rowsCC : List RegRow := [
  ⟨R.CC_CFG_ARR, [], .rw, 0⟩,
  ⟨R.CC_STAT_CFGERR, [], .w1c, 0⟩,
  ⟨R.CC_STAT_PERR, [], .w1c, 0⟩,
  ⟨R.CC_STAT_BUSY, [], .ro, 0⟩,
  ⟨R.CC_IRQ_MISM, [], .w1c, 0⟩,
  ⟨R.CC_IRQ_DONE, [], .w1c, 0⟩,
  ⟨R.CC_IE, [], .rw, 0⟩,
  ⟨(R.CC_CHk_CTL_GO 0), [(0x20, 4)], .wo, 0⟩,
  ⟨(R.CC_CHk_CTL_CMP 0), [(0x20, 4)], .rw, 0⟩,
  ⟨(R.CC_CHk_CTL_CONT 0), [(0x20, 4)], .rw, 0⟩,
  ⟨(R.CC_CHk_CTL_POLY 0), [(0x20, 4)], .rw, 1⟩,
  ⟨(R.CC_CHk_START 0), [(0x20, 4)], .rw, 0⟩,
  ⟨(R.CC_CHk_LEN 0), [(0x20, 4)], .rw, 0⟩,
  ⟨(R.CC_CHk_EXP 0), [(0x20, 4)], .rw, 0⟩,
  ⟨(R.CC_CHk_VAL 0), [(0x20, 4)], .rw, 0⟩ /- per POLY initial value -/,
  ⟨(R.CC_CHk_DATA 0), [(0x20, 4)], .wo, 0⟩,
  ⟨(R.CC_CHk_RES 0), [(0x20, 4)], .ro, 0⟩,
  ⟨(R.CC_CHk_DONE 0), [(0x20, 4)], .ro, 0⟩]

/-- The TE block's register rows. -/
def rowsTE : List RegRow := [
  ⟨R.TE_STAT_TRIGGERED, [], .ro, 0⟩,
  ⟨R.TE_STAT_ARMED, [], .ro, 0⟩,
  ⟨R.TE_STAT_CONFIGURED, [], .ro, 0⟩,
  ⟨R.TE_STAT_STOPPED, [], .ro, 0⟩,
  ⟨R.TE_CTL_DISARM, [], .wo, 0⟩,
  ⟨R.TE_CTL_ARM, [], .wo, 0⟩,
  ⟨R.TE_TRIG, [], .wo, 0⟩,
  ⟨R.TE_GUARDERR, [], .rc, 0⟩,
  ⟨(R.TE_RETIREDw 0), [(0x4, 4)], .ro, 0⟩,
  ⟨(R.TE_Rr_CFG_DEC 0), [(0x40, 16)], .rw, 1⟩,
  ⟨(R.TE_Rr_CFG_SIG32 0), [(0x40, 16)], .rw, 0⟩,
  ⟨(R.TE_Rr_PRE 0), [(0x40, 16)], .rw, 0⟩,
  ⟨(R.TE_Rr_TRIGLO 0), [(0x40, 16)], .rw, 0⟩,
  ⟨(R.TE_Rr_TRIGHI 0), [(0x40, 16)], .rw, 0⟩,
  ⟨(R.TE_Rr_ALLOC_BASE 0), [(0x40, 16)], .rw, 0⟩ /- 8r -/,
  ⟨(R.TE_Rr_ALLOC_NSEG 0), [(0x40, 16)], .rw, 8⟩,
  ⟨(R.TE_Rr_CAP 0), [(0x40, 16)], .ro, 0⟩,
  ⟨(R.TE_Rr_TICK 0), [(0x40, 16)], .ro, 0⟩,
  ⟨(R.TE_Rr_TB_LO 0), [(0x40, 16)], .ro, 0⟩,
  ⟨(R.TE_Rr_TB_HI 0), [(0x40, 16)], .ro, 0⟩,
  ⟨(R.TE_Rr_HELD 0), [(0x40, 16)], .ro, 0⟩,
  ⟨(R.TE_Rr_BADBLK 0), [(0x40, 16)], .rc, 0⟩,
  ⟨(R.TE_Rr_GAPS 0), [(0x40, 16)], .rc, 0⟩,
  ⟨(R.TE_Rr_NODEw_B 0 0), [(0x40, 16), (0x4, 16)], .rw, 0xffff⟩,
  ⟨(R.TE_Rr_NODEw_A 0 0), [(0x40, 16), (0x4, 16)], .rw, 0xffff⟩]

/-- The SYS block's register rows. -/
def rowsSYS : List RegRow := [
  ⟨R.SYS_RST_MPCNT, [], .ro, 0⟩,
  ⟨R.SYS_RST_MPCAUSE, [], .ro, 0⟩,
  ⟨R.SYS_RST_CAUSE, [], .ro, 0⟩ /- per R525 -/,
  ⟨R.SYS_BOOT_RECOVERY, [], .ro, 0⟩,
  ⟨R.SYS_BOOT_GMISS, [], .ro, 0⟩,
  ⟨R.SYS_BOOT_JREC, [], .ro, 0⟩,
  ⟨R.SYS_BOOT_LDR, [], .ro, 0⟩,
  ⟨R.SYS_BOOT_SLOT, [], .ro, 0⟩,
  ⟨R.SYS_BOOTMS, [], .ro, 0⟩,
  ⟨R.SYS_ID_PART, [], .ro, 0x4810⟩,
  ⟨R.SYS_ID_STEP, [], .ro, 0⟩ /- per die -/,
  ⟨R.SYS_ID_GSTEP, [], .ro, 0⟩ /- per die -/]

/-- The register rows of the 64 KiB block that holds an address (R48). -/
def regRows (a : Nat) : List RegRow :=
  match a / 0x10000 with
  | 0x4001 => rowsTB
  | 0x4002 => rowsQM
  | 0x4003 => rowsTT
  | 0x4004 => rowsLN
  | 0x4005 => rowsSD
  | 0x4006 => rowsPW
  | 0x4007 => rowsGD
  | 0x4008 => rowsFB
  | 0x4009 => rowsBL
  | 0x400A => rowsPM
  | 0x400B => rowsSB
  | 0x400C => rowsCAN
  | 0x400D => rowsCAN
  | 0x400E => rowsHS
  | 0x400F => rowsTH
  | 0x4010 => rowsNV
  | 0x4011 => rowsBI
  | 0x4012 => rowsCC
  | 0x4013 => rowsTE
  | 0x4000 => rowsSYS
  | _ => []

/-- The rows whose field lies in the word at an address. -/
def rowsAt (a : Nat) : List RegRow := (regRows a).filter (·.covers a)

/-- Whether an address is that of a register word the spec lists (R48). -/
def isRegister (a : Nat) : Bool := (regRows a).any (·.covers a)

/-- The bits of the word at `a` that its rows of one access code hold. -/
def accessMask (a : Nat) (k : Access) : Word :=
  (rowsAt a).foldl (fun m r => if r.access = k then m ||| r.fld.mask else m) 0

/-- The word at `a` after reset, by the tables' Reset columns (R17). -/
def resetWordOf (a : Nat) : Word :=
  (rowsAt a).foldl (fun m r => m ||| BitVec.ofNat 32 (r.reset % 2 ^ r.fld.width * 2 ^ r.fld.lsb)) 0

end Sys2Proof.Machine
end

