-- ==== Sys2Proof/Machine/State.lean ====
section
/-! DEFINITION. The state of the module, plain data: every register word (sparse, by address), the memories, the
queues, and the state the spec gives each unit outside its registers; the reasons a step can stop; the state after
reset. -/

namespace Sys2Proof.Machine

/-- Why a step can stop with a fault. No meaning of this model raises one: the spec gives every step an effect, and an
access to an address that does not exist has the effect of 01 R48 (BAD_ADDR). The one constructor is kept so that the
type has a name to show; stopping with it would be safe. -/
inductive Fault where
  /-- Raised by no meaning. Safe. -/
  | none
  deriving DecidableEq, Repr

/-- Why a step can be refused. -/
inductive Refusal where
  /-- The arm of a command that has no meaning yet, by its mnemonic. Safe: the run stops. -/
  | notModelled (mnemonic : String)
  deriving DecidableEq, Repr

/-- One hardware queue (01 R35–R39): its items in order, and whether its consumer block is disabled. -/
structure Queue where
  items : List (List Byte) := []
  off : Bool := false
  /-- The cycle of the latest pop and the pops in it: their credits can be used from the next cycle (01 R36). -/
  popTb : Nat := 0
  pops : Nat := 0
  deriving DecidableEq, Repr

/-- Power and boot (01 R19, 14 R461, 17 R529): whether PX-C is halted, whether boot has completed. -/
structure SysState where
  halted : Bool := false
  booted : Bool := false
  /-- A boot has run up to its completion (BOOT_COMPLETE has come); the sequencer enters STANDBY at the next boundary (17 R529). -/
  standbyNext : Bool := false
  /-- A LOCKOUT loaded at boot is entered again at the next boundary (17 R528). -/
  lockNext : Bool := false
  /-- Boot cannot go on: an SRAM failure, or no boot loader (17 R530). -/
  bootStopped : Bool := false
  /-- Both boot loader copies failed: the host status word carries no marker (17 R530). -/
  noMarker : Bool := false
  /-- The shutdown sequence has begun (14 R461), with its cause (R464); the module stays latched off (R463). -/
  latchedOff : Bool := false
  shutCause : Nat := 0
  shutAt : Nat := 0
  /-- RPS_G holds the external switch open: for overvoltage (06 R243) or after TEMP_SD (14 R461). -/
  rpsOpen : Bool := false
  /-- TB at which a SYS.RESET takes effect, and its KIND (13 R426). -/
  resetDue : Option (Nat × Nat) := none
  deriving DecidableEq, Repr

/-- The timebase (01 R30, R31): TB and TB at the last tick boundary, and the period in force at that boundary. -/
structure TimeState where
  tb : Nat := 0
  tbLast : Nat := 0
  /-- A pending step of TB at the next boundary, in cyc (R31). -/
  stepTo : Option Int := none
  deriving DecidableEq, Repr

/-- The Timetable's pending changes (02 R58–R60, R546). -/
structure TtState where
  /-- TB from which on a boundary makes the pending swap due. -/
  swapDue : Option Nat := none
  /-- The words of the shadow table that the pending swap's check passed, by entry: a lane loss may remap the shadow before the swap's
  boundary (R59, R86, R88). -/
  passed : List (Word × Word) := []
  /-- A shadow write was ignored while the swap was pending (R59). -/
  shadowIgnored : Bool := false
  /-- The pending period and the TB from which on a boundary makes it due. -/
  periodDue : Option (Nat × Nat) := none
  /-- How the last change ended at its boundary, until the firmware has seen it: 0 or the code of R57. -/
  done : Option Nat := none
  deriving DecidableEq, Repr

/-- How far a task of the Timetable has come in this tick (02 R54, R69, R73–R76). -/
structure TaskState where
  /-- It has started in this tick. -/
  started : Bool := false
  /-- A detected error aborted it, and no output of it is valid. -/
  aborted : Bool := false
  /-- An output that the abort could not be recomputed from: Hold-1 whatever happens (R69). -/
  noRecompute : Bool := false
  /-- A valid output is ready and waits for the substitution point. -/
  ready : Bool := false
  /-- It has had a valid output since the later of the lanes' reset and the last entry into RUN (R76). -/
  everValid : Bool := false
  /-- Its output of this tick is held from the previous tick (R74). -/
  held : Bool := false
  /-- Its output of this tick is the rest output (R76). -/
  rest : Bool := false
  /-- TB at which the recomputation starts, once an error has been detected (R73). -/
  recompAt : Option Nat := none
  /-- TB at which a running recomputation ends (R73). -/
  recompEnd : Option Nat := none
  /-- Its substitution point has passed in this tick. -/
  posted : Bool := false
  deriving DecidableEq, Repr

/-- What runs as a slice on the siding lane (02 R62–R66). -/
inductive SliceKind where
  | scrub
  | job (handle : Nat)
  deriving DecidableEq, Repr

/-- A requested job that runs in slices (02 R64): its number, the length of its slices and how many are left. -/
structure SliceJob where
  handle : Nat
  len : Nat
  left : Nat
  /-- The lane under test, for a lane self-test (R66). -/
  lane : Option Nat := none
  deriving DecidableEq, Repr

/-- The lane engine (02 R62–R87): the three tasks, the errors of each lane, the table checks, the slices. -/
structure LnState where
  tasks : Vector TaskState 3 := Vector.replicate 3 {}
  /-- The lane rotated onto the siding lane in this tick (R66). -/
  rotated : Option Nat := none
  /-- TICKNO of each lane's detected errors since its last LANE_SUSPECT, newest first (R72). -/
  errTicks : Vector (List Nat) 4 := Vector.replicate 4 []
  /-- Lanes that failed BIST and wait for the boundary (R85), as bits. -/
  bistFailed : Nat := 0
  /-- The tick had a Hold-1 (R77). -/
  holdThisTick : Bool := false
  /-- The previous tick had a Hold-1 (R66). -/
  holdLastTick : Bool := false
  /-- The table check that runs, by table ID (R82). -/
  checking : Option Nat := none
  /-- Failed checks of each table in a row (R84). -/
  checkFails : SMap Nat := []
  /-- Stale bits to clear at the next boundary (R82). -/
  clearStale : Nat := 0
  /-- Tables loaded: bit n of bank A, bit 16 + n of bank B (03 R110). -/
  loaded : Nat := 0
  /-- The last-good registers, one per task and table (R80), at 16·task + table. -/
  lastGood : SMap Word := []
  /-- Tables that a task has read without error since the lanes' reset, as bits at 16·task + table: these last-good registers hold a
  value (R80). -/
  reads : Nat := 0
  /-- What OUTER's variables and TH.TCEIL were before this tick's run took its records: a Hold-1 takes them back (R74). -/
  outerOld : Option (OlState × Nat) := none
  /-- The bank in force: false bank A, true bank B (04 R156). -/
  bankB : Bool := false
  /-- The tick named by a pending bank swap (04 R156). -/
  bankTick : Option Nat := none
  /-- How the last swap ended, until the firmware has seen it. -/
  bankDone : Option Bool := none
  /-- The table of the active bank that is being loaded (04 R156). -/
  loading : Option Nat := none
  jobs : List SliceJob := []
  /-- The running slice: what, its lane, its start and its length in TB (R62). -/
  slice : Option (SliceKind × Nat × Nat × Nat) := none
  /-- The slice that R64 reserves has been granted in this tick. -/
  scrubReserved : Bool := false
  /-- The next 4 KiB block of lane data that the scrub reads, 0–255 (R65). -/
  scrubBlock : Nat := 0
  deriving DecidableEq, Repr

/-- One sigma-delta channel (03 R95–R99). -/
structure SdChan where
  /-- The bits sampled, newest first, as far back as the filters reach. -/
  bits : List Bool := []
  /-- TB from which the filters fill (enable, restart or step of TB). -/
  fillFrom : Nat := 0
  /-- Bits since the last transition on the data input. -/
  still : Nat := 0
  /-- The channel has been lost and not restarted since: VALID stays 0, also once LOSS has been cleared (R99). -/
  lost : Bool := false
  /-- The tick's MEAN, normalised (before the scaling of R107). -/
  norm : Rat := 0
  /-- CAL_RANGE runs on this channel (R105). -/
  rangeRun : Nat := 0
  deriving DecidableEq, Repr

/-- A fit of live calibration (03 R104): the channel and the targets; ready once its slices have run. -/
structure CalFit where
  ch : Nat
  gain : Rat
  ofs : Rat
  ready : Bool := false
  deriving DecidableEq, Repr

/-- Live calibration (03 R102–R105): ticks spent at the position and what the dwell has accumulated. -/
structure CalState where
  ticks : Nat := 0
  n : Nat := 0
  sumSpare : Rat := 0
  sumS : Rat := 0
  sumSS : Rat := 0
  sumY : Rat := 0
  sumSY : Rat := 0
  minS : Rat := 0
  maxS : Rat := 0
  mean0 : Rat := 0
  mean1 : Rat := 0
  /-- A channel of this position was lost: its dwell gives nothing (R105). -/
  skip : Bool := false
  fits : List CalFit := []
  /-- Fits applied and fits that raised CAL_RANGE since the reset (13 R431). -/
  applied : Nat := 0
  ranged : Nat := 0
  deriving DecidableEq, Repr

/-- The sigma-delta inputs. -/
structure SdState where
  ch : Vector SdChan 12 := Vector.replicate 12 {}
  cal : CalState := {}
  deriving DecidableEq, Repr

/-- A channel block as a PX-G holds it (06 R219): its carrier and its four edge words (03 R131, R132). -/
structure EdgeBlock where
  cseq : Nat
  cstart : Nat
  edges : List Word
  /-- Edges of a refresh pulse that REFRESH has put in front of the block's own (06 R232). -/
  pre : Nat := 0
  /-- The carrier's COMMIT found no block: its one edge turns the channel off at CSTART and reports MISS (06 R220). -/
  miss : Bool := false
  deriving DecidableEq, Repr

/-- The Signal Box's verdict on a channel's block (06 R213, R219, R226). -/
inductive Verdict where
  | accept | rejectShoot | rejectSched | rearm
  deriving DecidableEq, Repr

/-- What a CONFIG frame carries (06 R213): a register word, the one-way delay of R217, TC of R219. -/
inductive GdItem where
  | word (a : Nat) (v : Word)
  | delay (n : Nat)
  | tc (n : Nat)
  deriving DecidableEq, Repr

/-- One gate channel: what its PX-G holds, and what PX-C keeps of it outside the registers (06 R213–R244). -/
structure GdChan where
  /-- Level of the GATE_EN driver at PX-C (10 R345). -/
  drive : Bool := false
  /-- TB of the driver's last fall. -/
  driveFall : Nat := 0
  /-- GATE_EN as the PX-G sees it, and TB of its last fall. -/
  en : Bool := false
  enFall : Nat := 0
  /-- Commanded on, at the PX-G. -/
  on : Bool := false
  /-- The eight latches at the PX-G, bits as GD.CHc_STAT [7:0] (R237). -/
  latch : Nat := 0
  /-- Latch causes that are present: bits as the latches; the latches that set since PX-C last took a STATUS (R213). -/
  present : Nat := 0
  news : Nat := 0
  /-- A soft turn-off is in progress (R228); the clamp holds VOFF after it; TB at which the event DSAT reaches PX-C (R216). -/
  soft : Bool := false
  dsHold : Bool := false
  dsatAt : Option Nat := none
  /-- The gate-emitter voltage is at or above OFFTH (R216). -/
  vge : Bool := false
  /-- The settings that the PX-G holds: GD.CHc_CFG0, CFG1 and BOOST as it took them by CONFIG (R223), and TC (R219). -/
  cfg0 : Word := 0x0A070701
  cfg1 : Word := 0x88140801
  boost : Word := 0
  tc : Nat := 0
  /-- The current step of the last edge (R221, R223), and TB of the last turn-on (R228). -/
  drvStep : Nat := 7
  onAt : Nat := 0
  staged : Option EdgeBlock := none
  /-- Armed blocks, the one that acts first in front, and the block armed last (for a REPEAT). -/
  armed : List EdgeBlock := []
  lastArmed : Option EdgeBlock := none
  /-- Edges of the front block that have acted. -/
  acted : Nat := 0
  /-- A turn-on waits for PERMIT: the TB it was scheduled for (R225), the carrier and the index of its edge. -/
  waitOn : Option Nat := none
  waitEdge : Nat × Nat := (0, 0)
  /-- The waiting turn-on is that of E-ASC at DC_OV, which is no edge of a pulse (05 R209). -/
  ascWait : Bool := false
  /-- The rest of a pulse is dropped until its turn-off edge (R225). -/
  dropPulse : Bool := false
  /-- The block on its way as a STAGE frame and the verdict on its way as a COMMIT (R219). -/
  stageTx : Option EdgeBlock := none
  commitTx : Option (Verdict × Nat) := none
  /-- A gate-off command on its way as an OFFCMD (R216), and whether it answers a leg with both channels on (R227). -/
  offTx : Option Bool := none
  offTxAt : Nat := 0
  /-- Consecutive SYNC errors within ±1 ns, and beyond ±2 ns (R218). -/
  syncGood : Nat := 0
  syncBad : Nat := 0
  lock : Bool := false
  /-- LTB less TB, in ps; the error found at the last SYNC, in ps; the one-way delay given by CONFIG, in eighths of a cyc (R217). -/
  ltb : Int := 0
  ltbErr : Int := 0
  oneWay : Nat := 0
  /-- The next SYNC carries STEP (R218); start of the last SYNC that arrived, in TB; the TAG of the LOOP frame that is out (R217). -/
  stepTx : Bool := false
  syncAt : Option Nat := none
  loopTag : Option Nat := none
  /-- CONFIG frames not yet acknowledged, in order, and how often each was resent (R214). -/
  config : List (GdItem × Nat) := []
  /-- The answer of the PX-G on its way as an ACK: applied or refused. -/
  ack : Option Bool := none
  /-- Telemetry records on their way: KIND, CSEQ[7:0] and DATA (R244). -/
  tel : List (Nat × Nat × List Byte) := []
  /-- TB of the last PERIODIC record (R244). -/
  telAt : Option Nat := none
  /-- TB of the fall of ONCMD at PX-C, and since when ONCMD and VGEON have both been low there (R224). -/
  offAt : Nat := 0
  lowAt : Nat := 0
  /-- TB of the last rise and of the last fall of PERMIT at PX-C (R216, R224). -/
  permitUp : Nat := 0
  permitDown : Nat := 0
  /-- The link is alive in both directions; the PX-G answered at boot (01 R52). -/
  link : Bool := true
  deriving DecidableEq, Repr

/-- One leg's bootstrap (06 R232, R233). -/
structure GdLeg where
  bswarn : Bool := false
  /-- TB of the last BSWARN report and of the start of the last refresh pulse. -/
  warnAt : Nat := 0
  pulseAt : Option Nat := none
  /-- A refresh pulse is armed or in progress, in the carrier numbered; whether the phase current flowed out of the leg at the insertion. -/
  pulse : Option Nat := none
  out : Bool := false
  /-- Start of the last REFRESH frames, in TB (R215). -/
  frameAt : Option Nat := none
  deriving DecidableEq, Repr

/-- Off-state diagnostics in progress (06 R240): the step, and the classes found so far for U, V, W and GK. -/
structure GdDiag where
  step : Nat := 0
  since : Nat := 0
  cls : Vector Nat 4 := Vector.replicate 4 0
  /-- Pairs UV, VW, WU that read open in step 3, as bits. -/
  openPairs : Nat := 0
  /-- The sense reading that DIAGRES returned for the step, in mV. -/
  reading : Option Nat := none
  /-- A DIAG frame or the answer to one failed its check in the step (R214). -/
  lost : Bool := false
  deriving DecidableEq, Repr

/-- Gate drive. -/
structure GdState where
  /-- TB of the last staging and of the last verdict (R215, R219). -/
  stageAt : Option Nat := none
  commitAt : Option Nat := none
  ch : Vector GdChan 7 := Vector.replicate 7 {}
  leg : Vector GdLeg 3 := Vector.replicate 3 {}
  /-- Pulses completed that CURFLD has not taken: leg, whether the current flowed out at the insertion, TICKNO of the completion (03 R136). -/
  pulses : List (Nat × Bool × Nat) := []
  /-- Those that CURFLD took at its task start. -/
  pulsesIn : List (Nat × Bool × Nat) := []
  /-- TB at which the bootstrap precharge began (R233). -/
  preStart : Option Nat := none
  /-- The leg whose low side the next precharge carrier turns on. -/
  preLeg : Nat := 0
  diag : Option GdDiag := none
  /-- The chopper's last completed diagnostics passed (05 R188). -/
  diagPass : Bool := false
  deriving DecidableEq, Repr

/-- A request of the drive sequencer that waits for its boundary (05 R184). -/
structure SeqReq where
  code : Nat
  mode : Nat
  sub : Nat
  /-- The tick it names, or the TB from which on a boundary evaluates it. -/
  tick : Option Nat
  due : Nat
  deriving DecidableEq, Repr

/-- The drive sequencer outside its registers (05 R182–R210). -/
structure SeqState where
  req : Option SeqReq := none
  /-- An ENABLE waits for the end of the precharge, a START for START = 4. -/
  enabling : Bool := false
  starting : Bool := false
  /-- A START evaluated in READY whose first OUTER run is still to come (04 R174); one that resumes a normal stop. -/
  flyStart : Bool := false
  resume : Bool := false
  /-- Requests that completed since the firmware last looked: code and result. -/
  done : List (Nat × Nat) := []
  /-- Causes raised since the last boundary: bit of LN.MD_FLT and detail code. -/
  raised : List (Nat × Nat) := []
  /-- SS1 asks for E-RAMP on demand (10 R352); a Token SBC demand asks for E-HOLD (10 R353). -/
  ss1Ask : Bool := false
  sbcAsk : Bool := false
  /-- Ticks in a row with |ωm| ≤ WSTOP. -/
  stillRun : Nat := 0
  brkHigh : Nat := 0
  brkLow : Nat := 0
  /-- TB of the last set command, of the last release request. -/
  setAt : Nat := 0
  releaseAt : Nat := 0
  release : Bool := false
  /-- TB of the start of the taper; position recorded; whether slip is watched. -/
  taperAt : Option Nat := none
  /-- BRKSET and BRKTAPER, ms, as the phase of the brake sequence in force took them at its start (R211). -/
  brkT : Option (Nat × Nat) := none
  slipRef : Int := 0
  slipWatch : Bool := false
  /-- TB of entry into E-RAMP or E-HOLD (R192). -/
  entryAt : Option Nat := none
  ascRun : Nat := 0
  /-- Ticks at T* = 0 of a consist member in E-RAMP or E-HOLD (08 R312). -/
  zeroRun : Nat := 0
  /-- vdc and the drive state of the last 8 ticks, newest first; TB and TICKNO of the first MP_LOST (05 R203). -/
  vdcHist : List (Rat × Nat) := []
  mpLostAt : Option (Nat × Nat) := none
  /-- The phase-off request (10 R345). -/
  phaseOff : Bool := false
  /-- The Signal Box's hardware reaction to DC_OV since the last boundary: true E-ASC, false E-COAST (R209). -/
  dcovAct : Option Bool := none
  /-- BRK_FB has not confirmed the last set command; slip counts for events only (R198); tables of latched TABLE_LOST causes, as
  bits (R188). -/
  setWatch : Bool := false
  slipOnly : Bool := false
  lostTables : Nat := 0
  /-- CHOPPER_FAULT came from the span of R208 or from off-state diagnostics (R188). -/
  chopOv : Bool := false
  chopDiag : Bool := false
  deriving DecidableEq, Repr

/-- One position source (07 R246–R268): its VALID condition, its count, and the sample in use. -/
structure FbSource where
  valid : Bool := false
  /-- Ticks since the condition that clears VALID has gone (R248). -/
  calm : Nat := 0
  aligned : Bool := false
  /-- POSX, 48 bits signed (R254); POSX in counts of the primary source, 48 bits, and the remainder of the scaling (R251). -/
  posx : Int := 0
  scaled : Int := 0
  rem : Int := 0
  /-- Angle of the sample in use within its period, in turns, and its instant in TB. -/
  angle : Rat := 0
  stamp : Nat := 0
  /-- The sample before it: POSX, angle, instant (R252). -/
  older : Option (Int × Rat × Nat) := none
  /-- POSX and instant of the sample in use at the last 16 boundaries, newest first (R273). -/
  hist : List (Int × Nat) := []
  /-- A first sample or frame has been taken since the enable. -/
  first : Bool := false
  /-- The last 16-bit angle (RESOLVER) or data value (SSI). -/
  raw : Nat := 0
  /-- Bad samples in a row: amplitude, then quadrant faults, frames or skipped sectors. -/
  badAmp : Nat := 0
  badRun : Nat := 0
  deriving DecidableEq, Repr

/-- What the inputs of an encoder show less than 2 cyc before a boundary (07 R250): the levels of ENC_A and ENC_B, or of ENC_Z, and TB. -/
inductive LateEdge where
  | count (a b : Bool) (t : Nat)
  | index (z : Bool) (t : Nat)
  deriving DecidableEq, Repr

/-- The ABZ decoder and the index (07 R253–R260). -/
structure AbzState where
  a : Bool := false
  b : Bool := false
  z : Bool := false
  /-- The count has gone up last (R255: DIR, and the direction of the hysteresis). -/
  up : Bool := true
  hdir : Bool := true
  ext : Int := 0
  /-- The last lead edge: count and TB; the last one at each of the latest boundaries, newest first; the reversal edge. -/
  lead : Option (Int × Nat) := none
  leadHist : List (Option (Int × Nat)) := []
  rev : Option (Int × Nat) := none
  /-- Illegal transitions in this tick; line faults on ENC_A, ENC_B, ENC_Z (R253). -/
  illTick : Nat := 0
  faultA : Bool := false
  faultB : Bool := false
  faultZ : Bool := false
  /-- A latch has been taken since ALIGNED set; its direction; DIR has reversed since. -/
  idxSeen : Bool := false
  idxUp : Bool := true
  idxReversed : Bool := false
  /-- The count from which the travel in one direction since the last latch is measured (R258). -/
  idxFrom : Int := 0
  /-- Corrections that take effect at the next boundary (R260). -/
  pendCorr : Int := 0
  /-- A commanded correction waits for the boundary. -/
  pendCmd : Bool := false
  angref : Int := 0
  /-- In-tolerance latches in a row since ACC returned to 0 (R259). -/
  cleared : Bool := true
  goodRun : Nat := 0
  /-- Edges that belong to the next boundary, in order (R250). -/
  late : List LateEdge := []
  deriving DecidableEq, Repr

/-- The Hall decoder (07 R268). -/
structure HallState where
  sector : Nat := 0
  /-- The state code is invalid, and for how many boundaries. -/
  invalid : Bool := false
  invalidTicks : Nat := 0
  dir : Int := 0
  /-- Edge angle in electrical turns, TB of the last transition, cyc between the last two in the same direction. -/
  thEdge : Rat := 0
  tEdge : Nat := 0
  gap : Option Nat := none
  stopped : Bool := true
  seen : Bool := false
  deriving DecidableEq, Repr

/-- Feedback (07): the sources ABZ, SINCOS, RESOLVER, SSI, HALL in the order of their codes, the selection, the emulation. -/
structure FbState where
  src : Vector FbSource 5 := Vector.replicate 5 {}
  abz : AbzState := {}
  hall : HallState := {}
  /-- Quarter periods counted by the SINCOS comparators (R262). -/
  qc : Int := 0
  /-- p_fb as latched, 48 bits; HOFS (R250, R270). -/
  pos : Nat := 0
  hofs : Int := 0
  /-- θm and ωm as latched, before their register formats. -/
  theta : Rat := 0
  omega : Rat := 0
  /-- The operating source is lost and extrapolated; θm and p_fb advance from here (R269). -/
  lost : Bool := false
  posFine : Rat := 0
  /-- The operating source has lost VALID since the last boundary; the primary has been lost or degraded since EN (R271). -/
  lossPend : Bool := false
  hadLoss : Bool := false
  /-- Ticks for which PRIOK has been 1 without a break (R271). -/
  prioRun : Nat := 0
  /-- A change of the operating source at the next boundary: the WHY it takes (R249, R261). -/
  change : Option Nat := none
  /-- TB from which the speed window runs (R273); TB at which the sample grids of SINCOS and RESOLVER start (R274). -/
  winFrom : Nat := 0
  gridFrom : Nat := 0
  /-- Encoder emulation (R275): remainder, target, output count, the source position last taken, and the three levels. -/
  emuAcc : Int := 0
  emuTarget : Int := 0
  emuOut : Int := 0
  emuLast : Int := 0
  emuAt : Nat := 0
  /-- The last step of the target: its TB, its size, the sample interval over which it is spread, 0 for none (R275). -/
  emuStep : Nat × Nat × Nat := (0, 0, 0)
  emuA : Bool := false
  emuB : Bool := false
  emuZ : Bool := false
  deriving DecidableEq, Repr

/-- The pair engine (09 R321–R342). -/
structure PmState where
  /-- The partner's block that is valid for the tick before this one (R326). -/
  block : Option PairBlock := none
  /-- The block that has arrived in this tick, and the last one (the partner shadow). -/
  arrived : Option PairBlock := none
  shadow : Option PairBlock := none
  /-- The own block as last assembled (02 R70), and its sequence number. -/
  own : Option PairBlock := none
  hbseq : Nat := 0
  /-- ALIVE_OUT, ALIVE_IN, whether ALIVE_IN has toggled in this tick and for how many ticks it has not (R322, R327). -/
  aliveOut : Bool := false
  aliveIn : Bool := false
  aliveToggled : Bool := false
  aliveStill : Nat := 0
  /-- Boundaries in a row with CHG_IN low (R335). -/
  chgLow : Nat := 0
  /-- Valid blocks in a row; those within 2 ns, and those beyond 20 ns in a row (R324, R327). -/
  validRun : Nat := 0
  syncGood : Nat := 0
  syncBad : Nat := 0
  /-- The partner showed CARRY in its last valid block (R328). -/
  carried : Bool := false
  /-- RELEASE of the own block; released by command or out of service until an ENGAGE (R328, R337, R537). -/
  release : Bool := false
  released : Bool := false
  /-- An ordered release of an active module is under way: 1 RELEASE sets at the next boundary, 2 CHG_OWN drops (R337). -/
  relStep : Nat := 0
  /-- A survivor waits for CHG_IN to be low before it takes the stage (R335). -/
  waitOwn : Bool := false
  /-- The standby has taken its input state from a block (R334). -/
  aligned : Bool := false
  /-- The effective share, the own fade (1 joins, −1 releases) and whether it has started; the partner's share as it fades in and
  out, its fade, and the JOINSN that it named last (R331). -/
  share : Rat := 0
  fadeDir : Int := 0
  fading : Bool := false
  pShare : Rat := 0
  pFade : Int := 0
  pJoin : Option Nat := none
  /-- The own module carried at the last boundary; leadership stays with it (R329). -/
  carry : Bool := false
  lead : Bool := false
  /-- Ticks in a row with |PFB − p_fb| above PTOL; the banks differ (R332). -/
  pfbRun : Nat := 0
  skew : Bool := false
  /-- The loss or release of the partner has been declared and still stands (R327, R328). -/
  lossSeen : Bool := false
  /-- FWPEND (R340). -/
  fwPend : Bool := false
  deriving DecidableEq, Repr

/-- A contribution as a head received it in a window (08 R306). -/
structure Contrib where
  status : Nat
  f : Nat
  cpos : Rat
  cneg : Rat
  ofs : Rat
  deriving DecidableEq, Repr

/-- A join that a member has been offered (08 R303): the tick J in SN, the consist, its slot, the head and what it may be. -/
structure JoinPlan where
  sn : Nat
  consist : Nat
  slot : Nat
  head : Nat
  headEpoch : Nat
  deputy : Bool
  tsc : Nat
  deriving DecidableEq, Repr

/-- An add that a head has pending (08 R302, R303): the unit, its slot and weight, J, its epoch from J and share scale once it has
answered. -/
structure AddPlan where
  uid : Nat
  slot : Nat
  weight : Nat
  sn : Nat
  answer : Option (Nat × Nat)
  /-- The answer was a refusal, by its status. -/
  refused : Option Nat := none
  deriving DecidableEq, Repr

/-- A link between two units as the root's enumeration found it (08 R287, R295): the units' IDs and their ports. -/
structure LinkEdge where
  a : Nat
  pa : Nat
  b : Nat
  pb : Nat
  deriving DecidableEq, Repr

/-- A cell that waits for the exchange window to close (08 R285): its port, its bytes, and what it says where that ages as it waits, with
the time of the arrival that it answers, in eighths of a cyc. -/
structure HeldCell where
  port : Nat
  cell : List Byte
  msg : Option (LinkMsg × Nat)
  deriving DecidableEq, Repr

/-- Beysta Link outside its registers (08 R281–R317). -/
structure BlState where
  /-- Cells that wait for the window to close, in order (R285). -/
  held : List HeldCell := []
  /-- The root's TB and serial in the last SYNC taken; the ID of the root it came from (R287, R289). -/
  syncTb : Option (Nat × Nat) := none
  rootId : Nat := 0
  /-- When the last DELAY_REQ left on each port, in eighths of a cyc (R289). -/
  reqAt : SMap (Option Nat) := []
  /-- The ports by which the closed ring passes through the unit, as bits (R287). -/
  ring : Nat := 0
  /-- The unit has been cut off since it took its ID; the root that asked it to probe (R295). -/
  cut : Bool := false
  asker : Nat := 0
  /-- Cells taken in this tick: SRC, TYPE and payload, for the second copy of a ring (R287). -/
  seen : List (Nat × Nat × List Byte) := []
  /-- SYNCs in a row within 2 ns, and beyond 20 ns; ticks since the last SYNC, and in holdover (R291, R292). -/
  syncGood : Nat := 0
  syncBad : Nat := 0
  syncAge : Nat := 0
  holdTicks : Nat := 0
  /-- Acts as ROOT = 0 until reset; a standby root has taken the root role (R292). -/
  rootOff : Bool := false
  rootTaken : Bool := false
  /-- The tick of the last NOTICE to each sender, plus 1 (R298). -/
  noticeAt : SMap Nat := []
  /-- Role changes since reset (R297). -/
  roleChanges : Nat := 0
  winOpen : Bool := false
  /-- The contribution of this window has been launched (R306). -/
  launched : Bool := false
  /-- Contributions received in the latest window, by slot (R309). -/
  contribs : SMap (Option Contrib) := []
  /-- The share entry received in the latest window (R308). -/
  share : Option Nat := none
  prevMissing : Bool := false
  missRun : Nat := 0
  /-- A head's share cell came in the window; windows in a row without one; HANDOVER and HOLD seen; D of ENTRY0 (R305, R314). -/
  headSeen : Bool := false
  headMiss : Nat := 0
  handover : Bool := false
  headHold : Bool := false
  dSeen : Rat := 0
  /-- TAKEN has been accepted: the unit that has taken the head role (R314). -/
  takenBy : Option Nat := none
  headEpoch : Nat := 0
  /-- The fade (R303): factor, direction, T0; this unit's own weight as a head. -/
  f : Rat := 0
  fadeDir : Int := 0
  t0 : Rat := 0
  join : Option JoinPlan := none
  add : Option AddPlan := none
  /-- How the last add ended, until the firmware has seen it: its status, slot, J and the member's epoch. -/
  ended : Option (Nat × Nat × Nat × Nat) := none
  /-- The epoch that the unit removed last reported (R433). -/
  goneEpoch : Nat := 0
  /-- The unit that is being removed. -/
  removing : Option Nat := none
  /-- Hops of the members, as the head took them at their add; the deputy that CS.FORM named (R302, R311; 13 R433); the epoch of the
  deputy (R314). -/
  deputyEpoch : Nat := 0
  memberHops : SMap Nat := []
  deputyNamed : Nat := 0
  /-- Slots whose map entry changed: they take no share in this tick (R299). -/
  changed : List Nat := []
  /-- NOTICEs that act on the consist map at the next boundary: sender, kind, consist, slot, epoch (R299). -/
  notices : List (Nat × Nat × Nat × Nat × Nat) := []
  /-- Windows in a row without any contribution (R315). -/
  noContrib : Nat := 0
  /-- Shares computed and not yet posted: the own one (R307). -/
  shareNext : Rat := 0
  /-- Offsets reported in the last contributions, newest first (R303). -/
  ofsHist : List Rat := []
  /-- The mode in force before the unit joined its consist (R314). -/
  soloMode : Nat := 0
  /-- The root's units by ID with their serials, units refused, IDs held free: ID, serial, until (R295, R296). -/
  units : SMap Nat := []
  refused : Nat := 0
  idHolds : List (Nat × Nat × Nat) := []
  /-- The root's map (R287, R295): links, epochs by ID, consists by number with head and members (ID, slot); of the enumeration that
  runs, the ports (ID, port) still to be probed, the first one now, and the units whose ports have been listed. -/
  links : List LinkEdge := []
  epochs : SMap Nat := []
  consists : SMap (Nat × List (Nat × Nat)) := []
  todo : List (Nat × Nat) := []
  listed : List Nat := []
  deriving DecidableEq, Repr

/-- One Token connection (10 R364–R370): the last payload byte, when its watchdog expires and for how long it is armed, the own frame
number, when the last NOTICE went. -/
structure TokState where
  byte : Nat := 0
  expires : Option Nat := none
  wdt : Nat := 0
  seq : Nat := 0
  noticeAt : Option Nat := none
  deriving DecidableEq, Repr

/-- The Signal Box outside its registers (10 R344–R372). Inputs: 0 STO_N, 1–4 SIN0–SIN3, 5 SRST. -/
structure SbState where
  /-- Samples in a row that differ from the filtered level, per input (R347). -/
  run : Vector Nat 6 := Vector.replicate 6 0
  /-- The low-side gate supply runs; TB of its last start or stop; TB since when every low-side rail has been up (R351). -/
  supply : Bool := false
  supplyAt : Nat := 0
  railsAt : Nat := 0
  /-- SS1 (R352): t0, the variants in progress, ω0, boundaries in a row at or below SS1_WSTOP, and whether it has ended. -/
  ss1At : Option Nat := none
  ss1T : Bool := false
  ss1R : Bool := false
  ss1W0 : Rat := 0
  ss1Still : Nat := 0
  ss1Ended : Bool := false
  /-- TB of the selection of SLS (R354). -/
  slsAt : Option Nat := none
  /-- p_fb and FB.POSCORR at the last 8 boundaries, newest first; boundaries in a row beyond WDISC (R355). -/
  hist : List (Int × Int) := []
  discRun : Nat := 0
  /-- The reset sequence (R358): TB of the rise in LOCKOUT, TICKNO of the fall whose tests run, TICKNO of the last safety fault. -/
  srstAt : Option Nat := none
  srstFall : Option Nat := none
  faultTick : Option Nat := none
  /-- GUARD inputs that have gone low since the reset, and those that have then gone high, as bits by input (R359). -/
  guardLow : Nat := 0
  guardDone : Nat := 0
  /-- Ticks in a row with an output readback that differs; TB of the last test pulse (R349). -/
  soutRun : Nat := 0
  soutAt : Nat := 0
  /-- TB of the last write of a limit or request, until it has taken effect (R344). -/
  effAt : Option Nat := none
  /-- TB of the last demand or ENABLE; STO_TEST_DUE has been raised since (R371). -/
  testAt : Nat := 0
  testDue : Bool := false
  /-- BL.EPOCH as the Signal Box has last announced it (R370). -/
  epochSeen : Nat := 0
  tok : Vector TokState 2 := Vector.replicate 2 {}
  /-- TB of the last write of SB.MPWD (01 R29). -/
  mpwdAt : Nat := 0
  /-- The commissioning code; the pending partner serial of PR.PSER (R362; 13 R435). -/
  code : Nat := 0
  pendPser : Option Nat := none
  /-- The closed set awaits its confirmation; since the close no confirmation has completed with OK (13 R436). -/
  closed : Bool := false
  blocked : Bool := false
  deriving DecidableEq, Repr

/-- A CAN controller outside its registers (11 R376–R390): whether it integrates, is in bus-off or recovers, its error counters in
full, the mode that takes effect at the end of the frame on the bus, and whether the frame sent has its secondary sample point out of
reach (R378). -/
structure CanState where
  integrating : Bool := false
  busOff : Bool := false
  recovering : Bool := false
  tec : Nat := 0
  rec_ : Nat := 0
  initPend : Bool := false
  tdcBad : Bool := false
  deriving DecidableEq, Repr

/-- What LIMSHARE has computed in a tick and will post (02 R54, 03 R122): its lane state, the PW state with the schedule's carrier,
and the schedule of 32 words on a commit tick. -/
structure LimNew where
  lim : LimState := {}
  pw : PwState := {}
  sched : Option (List Word) := none
  dch : Rat := 0
  deriving DecidableEq, Repr

/-- The thermal monitor (14 R442–R450). -/
structure ThState where
  /-- Die temperature of each PX-G as its last PERIODIC record gave it, Q9.7, with the TB of its arrival (R442, R443). -/
  pxg : Vector (Option (Nat × Nat)) 7 := Vector.replicate 7 none
  /-- Sensors measured since the reset, sensors whose reading is stale, as bits; TB of the latest measurement of each (R443). -/
  measured : Nat := 0
  measuredAt : Vector Nat 11 := Vector.replicate 11 0
  stale : Nat := 0
  /-- Measurements in a row that make a die suspect, and that agree again (R446). -/
  susRun : Vector Nat 8 := Vector.replicate 8 0
  okRun : Vector Nat 8 := Vector.replicate 8 0
  /-- Measurements in a row in which a pair has disagreed (R445). -/
  pairRun : Vector Nat 10 := Vector.replicate 10 0
  /-- Dies that are suspect by R446, as bits. -/
  suspect : Nat := 0
  deriving DecidableEq, Repr

/-- A step of a NOR job (14 R453, R454, R467): an erase of a sector, a program of a page, a read of spans, each from an address on. -/
inductive NorOp where
  | erase (sector : Nat)
  | program (addr : Nat) (bytes : List Byte)
  | read (spans : List (Nat × Nat))
  deriving DecidableEq, Repr

/-- What a NOR job is asked for: a record of a store (14 R455, R456), into one copy or the one that R456 chooses; or sectors to erase
and bytes to program, the first page last where it is a header; or spans to read. -/
inductive NorReq where
  | store (store : Nat) (body : List Byte) (copy : Option Nat)
  | region (sectors : List Nat) (addr : Nat) (bytes : List Byte) (headerLast : Bool)
  | read (spans : List (Nat × Nat))
  deriving DecidableEq, Repr

/-- A NOR job (14 R454): its number, what it is asked for, its remaining steps once it runs, failed verifications of the present
step, whether it has failed, the bytes that it has read; whether it is a record that the controller writes on its own (17 R528). -/
structure NorJob where
  id : Nat
  req : NorReq
  ops : List NorOp := []
  fails : Nat := 0
  failed : Bool := false
  data : List Byte := []
  own : Bool := false
  deriving DecidableEq, Repr

/-- The firmware journal in use (14 R457). -/
structure Journal where
  active : Nat := 0
  istate : Nat := 0
  total : Nat := 0
  staged : Nat := 0
  iver : Nat := 0
  aver : Nat := 0
  handle : Nat := 0
  ctag : Nat := 0
  opcode : Nat := 0
  queue : Nat := 0
  swaptick : Nat := 0
  digest : List Byte := []
  deriving DecidableEq, Repr

/-- The NOR controller and what the firmware keeps of the stores (14 R453–R463). -/
structure NvState where
  /-- Jobs that wait for a credit of Q56 (01 R37), and the jobs of Q56. -/
  wait : List NorJob := []
  jobs : List NorJob := []
  nextId : Nat := 1
  /-- The job in progress: one without steps left has ended and waits for a credit of Q57. -/
  run : Option NorJob := none
  /-- Records that the controller writes on its own, and the job that it has set aside for them (17 R528). -/
  own : List NorJob := []
  aside : Option NorJob := none
  /-- Results of Q57 that the firmware has taken: the job, whether it failed, the bytes that it has read. -/
  done : List (Nat × Bool × List Byte) := []
  /-- Sectors checked blank, or erased, since the boot (R454). -/
  checked : List Nat := []
  retired : List Nat := []
  journal : Journal := {}
  /-- SEQ of the newest shutdown record already reported (17 R528). -/
  sdseq : Nat := 0
  /-- SB.SFLT and SB.FIRST.CODE as the STATE store holds them: those of the last LOCKOUT entry, 0 after a passed reset sequence (17 R528). -/
  lockout : Nat × Nat := (0, 0)
  /-- NOR jobs of the boot that wait for boot complete (17 R534, R542). -/
  bootJobs : List NorReq := []
  /-- Sectors whose erase was abandoned (R461), each with the first of the free values that its bytes read as until it is erased. -/
  torn : List (Nat × Nat) := []
  /-- The next log sequence, 48 bits (R459, R467). -/
  logSeq : Nat := 0
  /-- The sectors of the log ring that hold records, the oldest first, each with the sequence at its start (R459). -/
  logMap : List (Nat × Nat) := []
  deriving DecidableEq, Repr

/-- A sample in the Granary (15 R482): its words, the number of its (first) block since the arming, how many of its blocks carry an
inverted guard. -/
structure TeSample where
  words : List Word
  block : Nat
  bad : Nat := 0
  deriving DecidableEq, Repr

/-- One trace ring (15 R481–R486): its samples, newest first; the trigger's TB; a TR.TRIGGER waits for the next sample instant; the
trigger node's last value; samples taken since the arming, and since sample 0. -/
structure TeRing where
  samples : List TeSample := []
  /-- The first sample of the block that an 8-signal ring fills (R482). -/
  half : List Word := []
  trigTb : Nat := 0
  asked : Bool := false
  last : Option Word := none
  count : Nat := 0
  taken : Nat := 0
  /-- TR.CONFIG has completed for it. -/
  configDone : Bool := false
  deriving DecidableEq, Repr

/-- The trace engine (15 R478–R486): the rings, Granary segments that failed and wait for the next arming. -/
structure TeState where
  ring : Vector TeRing 16 := Vector.replicate 16 {}
  failed : List Nat := []
  /-- Events raised since the last sample instant: ring and code (R485); this tick's sample instant has passed. -/
  evs : List (Nat × Nat) := []
  sampled : Bool := false
  /-- The byte of the own state block whose parity bit is wrong in this tick (02 R71). -/
  upset : Option Nat := none
  deriving DecidableEq, Repr

/-- A BIST job (15 R468): its number, its kind by the codes of BI.STAT.JOB, lane, range, channel mask. -/
structure BistJob where
  id : Nat
  kind : Nat
  lane : Nat := 0
  start : Nat := 0
  len : Nat := 0
  mask : Nat := 0
  deriving DecidableEq, Repr

/-- How a BIST job ended: its number, its status (13 R425), the failing address, bit and channels. -/
structure BistEnd where
  id : Nat
  status : Nat
  addr : Nat := 0
  bit : Nat := 0x3FF
  channels : Nat := 0
  slices : Nat := 0
  deriving DecidableEq, Repr

/-- The BIST controller (15 R468–R473): jobs of Q58, the running one, an abort asked for, results of Q59. -/
structure BiState where
  /-- Jobs that wait for a credit of Q58 (01 R37), and the jobs of Q58. -/
  wait : List BistJob := []
  jobs : List BistJob := []
  run : Option BistJob := none
  abort : Bool := false
  /-- Slices of the running job completed. -/
  slices : Nat := 0
  /-- A result that waits for a credit of Q59. -/
  held : Option BistEnd := none
  done : List BistEnd := []
  deriving DecidableEq, Repr

/-- A scan of the CRC unit (15 R476): its range, polynomial, comparison and the running value that it starts from; the job of Q60 that
it serves. -/
structure CcScan where
  start : Nat
  len : Nat
  poly : Nat
  cmp : Bool
  init : Nat
  job : Option Nat
  /-- The scan has ended and waits for a credit of Q61 (01 R37). -/
  ended : Bool := false
  deriving DecidableEq, Repr

/-- The CRC unit (15 R474–R477): the scans by channel, the results of Q61: job, status, value. -/
structure CcState where
  scan : Vector (Option CcScan) 4 := Vector.replicate 4 none
  done : List (Nat × Nat × Nat) := []
  deriving DecidableEq, Repr

/-- What a command that has been accepted waits for (13 R426–R437). -/
inductive WorkKind where
  /-- Stopped by an MP reset (12 R418). -/
  | stopped
  /-- Nothing but the next pass of the firmware: its status and RESULT. -/
  | ready (status : Nat) (result : List Byte)
  | timetable
  /-- A drive request, by its code. -/
  | md (code : Nat)
  /-- A table load: table, whether into the active bank, the CRC computed. -/
  | tblLoad (table : Nat) (active : Bool) (crc : Nat)
  | bankCopy (words : Nat)
  | bankSwap
  /-- An image save: the read of the image in use, with the parts that it does not take from there; its jobs and its sequence number. -/
  | parRead (job : Nat) (pages tables : Bool)
  | parSave (jobs : List Nat) (seq : Nat)
  | diag
  /-- A BIST job, by its number, with its lane and the length of its range. -/
  | bist (job lane len : Nat)
  /-- CAL.PASS: SD.CAL_STAT.PASSES at its pop, fits applied and out of range until then. -/
  | calPass (passes applied ranged : Nat)
  /-- A scan that waits for a free channel, and one that runs. -/
  | crcWait (poly start len exp : Nat)
  | crcScan (job : Nat)
  | enumerate
  | csForm (consist weight deputy : Nat)
  | csAdd
  | csRemove (uid : Nat)
  | csDissolve (removed : Nat)
  | prRelease
  | prEngage
  /-- PR.PSER: the jobs of the CONFIG records with its flag, the CRC of the set with the new serial. -/
  | prPser (jobs : List Nat) (crc : Nat)
  | safeClose (jobs : List Nat)
  | safeConfirm (jobs : List Nat)
  /-- A read of NOR into the bulk area: its job, the offset, bytes that follow what it reads, RESULT. -/
  | norRead (job off : Nat) (tail : List Byte) (result : List Byte)
  /-- FW.VERIFY: the read of the staged image. -/
  | fwVerify (job : Nat)
  /-- A firmware step: its NOR jobs, the journal that stands when it ends, its status and RESULT. -/
  | firmware (jobs : List Nat) (after : Journal) (status : Nat) (result : List Byte)
  | fwSwap (tick : Nat)
  deriving DecidableEq, Repr

/-- A command with a handle that has not completed (12 R410–R413). -/
structure Work where
  handle : Nat
  ctag : Nat
  opcode : Nat
  queue : Nat
  dseq : Nat
  noirq : Bool
  kind : WorkKind
  /-- The area of the bulk area that the command names, and whether the host has written into it since its doorbell (12 R404). -/
  area : Option (Nat × Nat) := none
  spoiled : Bool := false
  deriving DecidableEq, Repr

/-- A completion record before it is written (12 R409). -/
structure Record where
  handle : Nat
  status : Nat
  ctag : Nat
  opcode : Nat
  kind : Nat
  queue : Nat
  dseq : Nat
  result : List Byte
  noirq : Bool
  deriving DecidableEq, Repr

/-- The host interface outside its registers and the host window (12 R404–R418): slots never issued yet and slots freed, the commands
that are outstanding, records held for want of a credit, the latest FINAL record of a slot; doorbells on their way to the MP (queue,
TAIL, TB), the TAILs that the MP knows, TB since when the head of Q02 has stood; host writes into the bulk area, as first and end
offset, with the TAILs of the command queues at the write (R404). -/
structure HsState where
  fresh : Nat := 0
  freed : List Nat := []
  works : List Work := []
  held : List Record := []
  finals : SMap (List Byte) := []
  bells : List (Nat × Nat × Nat) := []
  seen : Vector Nat 4 := Vector.replicate 4 0
  q2At : Nat := 0
  spoils : List (Nat × Nat × List Nat) := []
  deriving DecidableEq, Repr

/-- Where the words of a stream of parameter writes come from: the bulk area, a table of an image slot that a NOR job reads, the words
that it has read, the active bank. -/
inductive StreamSrc where
  | bulk (off : Nat)
  | image (slot seq job : Nat)
  | words (ws : List Word)
  | bank
  deriving DecidableEq, Repr

/-- A stream of parameter writes by the firmware through Q52 or Q53 (02 R82; 13 R429): the handle of its command, 0 for a reload; its
table; the pieces of the bank still to write, as offset and words; words written of the first piece; the CRC-32C of its check;
0 writing, 1 waiting for its queue to empty, 2 checking. -/
structure Stream where
  handle : Nat
  table : Nat
  queue : Nat
  src : StreamSrc
  pieces : List (Nat × Nat)
  pos : Nat := 0
  crc : Nat := 0
  phase : Nat := 0
  /-- The host has written into its bulk area (12 R404): its words are open. -/
  spoiled : Bool := false
  deriving DecidableEq, Repr

/-- A command at which the firmware waits for credits (01 R37; 13 R428): its record as far as it is known, the queue, the items still
to push, how many it has pushed, TICKNO at the first push, its bulk area. -/
structure Stall where
  record : Record
  queue : Nat
  items : List (List Byte)
  pushed : Nat := 0
  first : Nat := 0
  area : Option (Nat × Nat) := none
  deriving DecidableEq, Repr

/-- What the firmware keeps: event records that it has raised itself and that wait for the log, store saves due (14 R456), the log
buffer with its sequences and the TB of its first record (15 R489, 14 R459), LOSTBEFORE by ring, its streams and the command it waits
at. -/
structure MpState where
  log : List (List Byte) := []
  saves : List Nat := []
  buffer : List (List Byte) := []
  bufferAt : Nat := 0
  lost : Nat := 0
  /-- DRIVE_STATE as last reported in HS.ATTN (13 R440). -/
  stateSeen : Nat := 0
  streams : List Stream := []
  stall : Option Stall := none
  deriving DecidableEq, Repr

/-- What the latest step put out: the value a read returned, the words clocked out on SPI, the cells, frames and
records handed to a wire. Each command starts with it empty. -/
structure Output where
  readData : Option Word := none
  /-- Cells sent on the link ports. -/
  cells : List (Nat × List Byte) := []
  glink : List (Nat × List Byte) := []
  can : List (Nat × List Byte) := []
  spi : List Word := []
  /-- The item that a consumer popped from a queue (01 R36). -/
  item : Option (List Byte) := none
  /-- The state block launched on X7 (09 R321). -/
  block : Option PairBlock := none
  deriving DecidableEq, Repr

/-- The state of the module. -/
structure State where
  /-- Register words that differ from their reset value, by address; the words of the coefficient banks stand here too. -/
  regs : SMap Word := []
  /-- On-die SRAM outside the coefficient banks (01 R50). -/
  mem : List Host.Cell := []
  /-- The NOR array (14 R453). -/
  nor : List Host.Cell := []
  queues : SMap Queue := []
  sys : SysState := {}
  time : TimeState := {}
  tt : TtState := {}
  ln : LnState := {}
  sd : SdState := {}
  cf : CfState := {}
  /-- The output CURFLD has computed in this tick, not yet posted. -/
  cfNew : Option CfState := none
  ol : OlState := {}
  olp : OlLoop := {}
  /-- What OUTER has computed in this tick, not yet posted. -/
  olNew : Option OlLoop := none
  gd : GdState := {}
  pw : PwState := {}
  lim : LimState := {}
  limNew : Option LimNew := none
  fb : FbState := {}
  pm : PmState := {}
  sb : SbState := {}
  can : Vector CanState 2 := Vector.replicate 2 {}
  bl : BlState := {}
  th : ThState := {}
  nv : NvState := {}
  te : TeState := {}
  bi : BiState := {}
  cc : CcState := {}
  hs : HsState := {}
  mp : MpState := {}
  seq : SeqState := {}
  out : Output := {}
  /-- How many free values have been drawn (the model's own field; assumption log 2). -/
  free : Nat := 0
  /-- The commands that wait, first in first out. -/
  pending : List Instr := []
  deriving DecidableEq, Repr

/-- The module right after reset: every field at its reset value, no command waiting. -/
def State.reset : State := {}

end Sys2Proof.Machine
end

