-- ==== Sys2Proof/Machine/Ops.lean ====
section
/-! DEFINITION. The named operations over registers, memories, queues, events and causes that every meaning uses. -/

namespace Sys2Proof.Machine

/-! ### Registers -/

/-- The default Timetable (02 R56): words 0 and 1 of entry n. -/
def ttDefault : Nat → Nat × Nat
  | 0 => (0x80010000 + 48, 1240)
  | 1 => (0x90020000 + 1288, 1600)
  | 2 => (0xA0030000 + 2888, 1200)
  | 3 => (0xB1000000 + 4100, 5800)
  | _ => (0, 0)

/-- The word at an address after reset where no Reset column gives it as a number: the default Timetable, task lengths,
serial, steppings (per die), trace allocation, CRC initial value; bank words take the Reset columns of the pages
they stand for (04 R141, R180) and tables 0. -/
def resetWord (a : Nat) : Word :=
  if 0x10120000 ≤ a ∧ a < 0x10140000 then
    let off := a % 0x10000
    if off < 0x100 then resetWordOf (0x40041000 + off)
    else if off < 0x200 then resetWordOf (0x40042000 + (off - 0x100))
    else 0
  else if 0x40030100 ≤ a ∧ a < 0x40030280 ∧ (a < 0x40030180 ∨ 0x40030200 ≤ a) then
    let e := ttDefault (a % 0x80 / 8)
    BitVec.ofNat 32 (if a % 8 = 0 then e.1 else e.2)
  else if 0x40040008 ≤ a ∧ a ≤ 0x40040010 then BitVec.ofNat 32 (Config.taskLength ((a - 0x40040004) / 4))
  else if a = 0x40000000 then 0x48100100#32 ||| BitVec.ofNat 32 (Config.dieStep.toNat * 4096)
  else if a = (R.BL_SERIAL_LO).addr then Config.serial.extractLsb' 0 32
  else if a = (R.BL_SERIAL_HI).addr then (Config.serial.extractLsb' 32 16).zeroExtend 32
  else if a / 0x400 = (R.TE_Rr_ALLOC_BASE 0).addr / 0x400 ∧ a % 0x40 = 0x10 then
    resetWordOf a ||| BitVec.ofNat 32 (8 * ((a - 0x40130100) / 0x40) * 65536)
  else if a / 0x80 = (R.CC_CHk_VAL 0).addr / 0x80 ∧ a % 0x20 = 0x10 then 0xFFFFFFFF
  else resetWordOf a

/-- Where the word of an address is held: the coefficient pages of the LN block are the pages of the bank in force
(04 R141, R156, R180; 01 R544); HS.CPLc_CTL is QM.Qnn_CTL of Q(c + 4) (12 R416). -/
def State.home (s : State) (a : Nat) : Nat :=
  let bank := if s.ln.bankB then 0x10130000 else 0x10120000
  if 0x40041000 ≤ a ∧ a < 0x40041100 then bank + (a - 0x40041000)
  else if 0x40042000 ≤ a ∧ a < 0x40042100 then bank + 0x100 + (a - 0x40042000)
  else if 0x400E0060 ≤ a ∧ a < 0x400E0070 then 0x40020040 + 0x10 * ((a - 0x400E0060) / 4)
  else a

/-- The word held for an address. -/
def State.word (s : State) (a : Nat) : Word := smapGet resetWord s.regs (s.home a)

/-- The state with the word held for an address written. -/
def State.setWord (s : State) (a : Nat) (w : Word) : State :=
  { s with regs := smapSet resetWord s.regs (s.home a) w }

/-- A register field. -/
def State.rd (s : State) (f : Fld) : Nat := f.get (s.word f.addr)

/-- The state with a register field written. -/
def State.wr (s : State) (f : Fld) (v : Nat) : State := s.setWord f.addr (f.set v (s.word f.addr))

/-- A register field as a truth value: not zero. -/
def State.on (s : State) (f : Fld) : Bool := s.rd f != 0

/-- A register field read as two's complement. -/
def State.rdI (s : State) (f : Fld) : Int := signedOf f.width (s.rd f)

/-- A register field read as a signed fixed-point number. -/
def State.rdQ (s : State) (f : Fld) (frac : Nat) : Rat := ofFix frac (s.rdI f)

/-- A register field read as an unsigned fixed-point number. -/
def State.rdU (s : State) (f : Fld) (frac : Nat) : Rat := ofFix frac (s.rd f)

/-- One bit of a register field. -/
def State.bit (s : State) (f : Fld) (n : Nat) : Bool := testB (s.rd f) n

/-- The state with one bit of a register field written. -/
def State.wrBit (s : State) (f : Fld) (n : Nat) (v : Bool) : State :=
  let w := s.rd f
  s.wr f (if testB w n = v then w else if v then w + 2 ^ n else w - 2 ^ n)

/-- A counter field raised by an amount, saturating. -/
def State.add (s : State) (f : Fld) (n : Nat) : State :=
  s.wr f (min (s.rd f + n) (2 ^ f.width - 1))

/-- A counter field raised by one, saturating. -/
def State.inc (s : State) (f : Fld) : State := s.add f 1

/-- A wrapping counter field raised by one. -/
def State.incWrap (s : State) (f : Fld) : State := s.wr f (s.rd f + 1)

/-! ### Free values -/

/-- A value of `w` bits that the spec leaves open, and the state after the draw (assumption log 2). -/
def State.drawBits (s : State) (w : Nat) : Nat × State :=
  ((Config.freeValue w s.free).toNat, { s with free := s.free + 1 })

/-- A number that the spec leaves open, and the state after the draw (assumption log 2). -/
def State.drawNum (s : State) : Rat × State :=
  (Config.freeNumber s.free, { s with free := s.free + 1 })

/-- A computed number placed into a signed field with `frac` fraction bits, rounded per 00 R12; beyond the format's
range, where no rule of the quantity decides, the field takes an open value. -/
def State.postQ (s : State) (f : Fld) (frac : Nat) (x : Rat) : State :=
  let n := toFix frac x
  if -(2 ^ (f.width - 1) : Nat) ≤ n ∧ n < (2 ^ (f.width - 1) : Nat) then s.wr f (wrapTo f.width n)
  else s.wr f (Config.overflow f.width frac x).toNat

/-- As `postQ`, for an unsigned field. -/
def State.postU (s : State) (f : Fld) (frac : Nat) (x : Rat) : State :=
  let n := toFix frac x
  if 0 ≤ n ∧ n < (2 ^ f.width : Nat) then s.wr f n.toNat
  else s.wr f (Config.overflow f.width frac x).toNat

/-- A computed number placed into a signed field that saturates at its range. -/
def State.satQ (s : State) (f : Fld) (frac : Nat) (x : Rat) : State :=
  s.wr f (wrapTo f.width (clampI (-(2 ^ (f.width - 1) : Nat)) ((2 ^ (f.width - 1) : Nat) - 1) (toFix frac x)))

/-- A computed number placed into an unsigned field that saturates at its range. -/
def State.satU (s : State) (f : Fld) (frac : Nat) (x : Rat) : State :=
  s.wr f (clampI 0 ((2 ^ f.width : Nat) - 1) (toFix frac x)).toNat

/-! ### Time -/

/-- The tick number. -/
def State.tickno (s : State) : Nat := s.rd R.TB_TICKNO

/-- The tick period in force, in cyc. -/
def State.period (s : State) : Nat := s.rd R.TT_PERIOD_CYC

/-- The cycles since the last tick boundary. -/
def State.phase (s : State) : Nat := s.time.tb - s.time.tbLast

/-- The time set to an offset of the present tick; time does not go back within a tick. -/
def State.advanceTo (s : State) (off : Nat) : State :=
  { s with time.tb := max s.time.tb (s.time.tbLast + off) }

/-- A number of milliseconds in cyc (00 R8). -/
def msCyc (n : Nat) : Nat := n * 400000

/-- A number of microseconds in cyc (00 R8). -/
def usCyc (n : Nat) : Nat := n * 400

/-! ### Memories -/

/-- Bytes 0x000–0x03F of a state block (09 R325). -/
def blockHeader (b : PairBlock) : List Byte :=
  bytesLE 4 b.sn ++ bytesLE 8 b.tbl ++ bytesLE 4 b.hbseq ++ bytesLE 6 b.serial
    ++ bytesLE 1 (b2n b.side + 2 * (b.conf % 4)) ++ bytesLE 1 b.state ++ bytesLE 1 b.mode ++ bytesLE 1 b.sub
    ++ bytesLE 1 (b2n b.degraded + 2 * b2n b.release + 4 * b2n b.own + 8 * b2n b.fwpend + 16 * b2n b.bankB + 32 * b2n b.carry
      + 64 * b2n b.takeok)
    ++ bytesLE 1 (b.held % 8 + 8 * b2n b.rest) ++ bytesLE 2 b.period ++ bytesLE 2 b.share
    ++ bytesLE 4 (wrapTo 32 (toFix 8 b.d)) ++ bytesLE 4 (wrapTo 32 (toFix 8 b.tstar)) ++ bytesLE 4 (wrapTo 32 (toFix 8 b.te))
    ++ bytesLE 4 (wrapTo 32 (toFix 8 b.cpos)) ++ bytesLE 4 (wrapTo 32 (toFix 8 b.cneg)) ++ bytesLE 4 b.joinsn
    ++ [0, 0] ++ bytesLE 6 b.pfb

/-- A byte of a state block below its CRC (09 R325); the task sections are in the tasks' own formats. -/
def blockByte (b : PairBlock) (off : Nat) : Byte :=
  if off < 0x40 then ((blockHeader b)[off]?).getD 0
  else if off < 0xC40 then Config.blockSection b.serial b.hbseq off
  else 0

/-- A whole state block with its CRC: 4 KiB (09 R325; 01 R41). -/
def blockBytes (b : PairBlock) : List Byte :=
  let body := (List.range 0xFFC).map (blockByte b)
  body ++ bytesLE 4 (crc32c body)

/-- The own state block as it stands in the mirror region (02 R70, 09 R325). -/
def ownBlockByte (b : PairBlock) (off : Nat) : Byte :=
  if off < 0xFFC then blockByte b off else ((blockBytes b)[off]?).getD 0

/-- A byte of on-die SRAM; a byte nothing has written reads 0 (assumption log 3). The own state block stands at
0x1001_0000 (02 R70), the coefficient banks at their addresses (01 R544); the rest of the mirror state, the queue slots, which fill
the first 386 KiB of their region, and the lane state hold open values (01 R50, assumption log 3). -/
def State.memByte (s : State) (a : Nat) : Byte :=
  if 0x10120000 ≤ a ∧ a < 0x10140000 then (s.word (a - a % 4)).extractLsb' (8 * (a % 4)) 8
  else if 0x10010000 ≤ a ∧ a < 0x10011000 then
    match s.pm.own with
    | some b => ownBlockByte b (a - 0x10010000)
    | none => 0
  else if 0x10080800 ≤ a ∧ a < 0x10120000 then 0
  else if (0x10011000 ≤ a ∧ a < 0x10080800) ∨ (0x10140000 ≤ a ∧ a < 0x10220000) then Config.openByte a s.time.tb
  else smapGet (fun _ => 0) s.mem a

/-- The state with a byte of on-die SRAM outside the coefficient banks written. -/
def State.setMemByte (s : State) (a : Nat) (b : Byte) : State :=
  { s with mem := smapSet (fun _ => 0) s.mem a b }

/-- Bytes written from an address up. -/
def State.setMem (s : State) (a : Nat) : List Byte → State
  | [] => s
  | b :: bs => State.setMem (s.setMemByte a b) (a + 1) bs

/-- `n` bytes from an address up. -/
def State.memBytes (s : State) (a n : Nat) : List Byte := (List.range n).map (fun i => s.memByte (a + i))

/-- A 32-bit word of SRAM, little-endian (00 R11). -/
def State.memWord (s : State) (a : Nat) : Word := BitVec.ofNat 32 (ofBytesLE (s.memBytes a 4))

/-- A byte of the NOR array; a byte nothing has programmed reads 0xFF (assumption log 4). A sector whose erase was abandoned (14 R461)
holds open values until it is erased. -/
def State.norByte (s : State) (a : Nat) : Byte :=
  match s.nv.torn.find? (fun t => t.1 == a / 0x10000) with
  | some t => Config.freeValue 8 (t.2 + a % 0x10000)
  | none => smapGet (fun _ => 0xFF) s.nor a

/-- `n` bytes of the NOR array from an address up. -/
def State.norBytes (s : State) (a n : Nat) : List Byte := (List.range n).map (fun i => s.norByte (a + i))

/-- Bytes of the NOR array written from an address up. -/
def State.setNor (s : State) (a : Nat) : List Byte → State
  | [] => s
  | b :: bs => State.setNor { s with nor := smapSet (fun _ => 0xFF) s.nor a b } (a + 1) bs

/-- The next log sequence. -/
def State.logSeq (s : State) : Nat := s.nv.logSeq

/-- The oldest sequence held: that of the oldest sector, or of the buffer (14 R459). -/
def State.logOld (s : State) : Nat :=
  match s.nv.logMap with
  | e :: _ => e.2
  | [] => match s.mp.buffer with
    | r :: _ => fieldLE r 0 6
    | [] => s.logSeq

/-- A coefficient or table word of a bank at an offset below its 64 KiB (01 R544); `b` names bank B. -/
def State.bankWord (s : State) (b : Bool) (off : Nat) : Word :=
  smapGet resetWord s.regs ((if b then 0x10130000 else 0x10120000) + off % 0x10000)

/-- The state with a word of a bank written. -/
def State.setBankWord (s : State) (b : Bool) (off : Nat) (w : Word) : State :=
  { s with regs := smapSet resetWord s.regs ((if b then 0x10130000 else 0x10120000) + off % 0x10000) w }

/-! ### Queues -/

/-- The no-credit policies (01 R37). -/
inductive Policy where
  | wait | drop | refuse
  deriving DecidableEq, Repr

/-- The depth of a queue (01 R41). -/
def qDepth (n : Nat) : Nat :=
  if n = 0 ∨ n = 3 ∨ n = 4 ∨ n = 7 ∨ (50 ≤ n ∧ n ≤ 51) ∨ (56 ≤ n ∧ n ≤ 61) then 16
  else if (8 ≤ n ∧ n ≤ 11) ∨ n = 52 ∨ n = 53 then 32
  else if n = 20 ∨ n = 21 then 4
  else if (22 ≤ n ∧ n ≤ 37) ∨ n = 62 ∨ n = 63 then 256
  else if 38 ≤ n ∧ n ≤ 41 then 128
  else 64

/-- The no-credit policy of a queue (01 R41). -/
def qPolicy (n : Nat) : Policy :=
  if n < 4 then .refuse
  else if n < 8 ∨ n = 50 ∨ n = 52 ∨ n = 53 ∨ (56 ≤ n ∧ n ≤ 61) ∨ n = 63 then .wait
  else .drop

/-- A policy's code in QM.Qnn_STAT (01 R42). -/
def Policy.code : Policy → Nat
  | .wait => 0
  | .drop => 1
  | .refuse => 2

/-- A queue. -/
def State.queue (s : State) (n : Nat) : Queue := smapGet (fun _ => {}) s.queues n

/-- The state with a queue replaced. -/
def State.setQueue (s : State) (n : Nat) (q : Queue) : State :=
  { s with queues := smapSet (fun _ => {}) s.queues n q }

/-- FILL: the slots that hold an item; all of them while the consumer is disabled (01 R39, R42).
The slots of Q00–Q07 stand in the host window, between the HEAD and TAIL counters of the HS block (12 R406, R411). -/
def State.qFill (s : State) (n : Nat) : Nat :=
  if n < 4 then wrapTo 16 ((s.rd (R.HS_CQc_TAIL n) : Int) - s.rd (R.HS_CQc_HEAD n))
  else if n < 8 then wrapTo 16 ((s.rd (R.HS_CPLc_TAIL (n - 4)) : Int) - s.rd (R.HS_CPLc_HEAD (n - 4)))
  else if (s.queue n).off then qDepth n else (s.queue n).items.length

/-- The credits that pops of this very cycle return: the producer has them from the next cycle (01 R36). -/
def State.qReturned (s : State) (n : Nat) : Nat :=
  if (s.queue n).popTb = s.time.tb then (s.queue n).pops else 0

/-- The credits that a producer can use in this cycle (01 R36, R43). -/
def State.qCredit (s : State) (n : Nat) : Nat := qDepth n - s.qFill n - s.qReturned n

/-- Items popped in this cycle are noted. -/
def State.qPopped (s : State) (n k : Nat) : State :=
  s.setQueue n { s.queue n with popTb := s.time.tb, pops := s.qReturned n + k }

/-- The watermark in force: 0 and values above the depth act as 1 (01 R42). -/
def State.qWmark (s : State) (n : Nat) : Nat :=
  let w := s.rd (R.QM_Qnn_CTL_WMARK n)
  if w = 0 ∨ qDepth n < w then 1 else w

/-- The watermark bit of a queue sets where its interrupt is enabled and FILL is at or above WMARK (01 R44, R45). -/
def State.qIrq (s : State) (n : Nat) : State :=
  if s.on (R.QM_Qnn_CTL_WM_IE n) ∧ s.qWmark n ≤ s.qFill n then
    s.wrBit (if n < 32 then R.QM_IRQ0 else R.QM_IRQ1) (n % 32) true
  else s

/-- An item dropped or refused: counted and flagged (01 R37); on Q38 the Signal Box notes the loss (R40). -/
def State.qLose (s : State) (n : Nat) : State :=
  let s := (s.inc (R.QM_Qnn_DROP_COUNT n)).wr (R.QM_Qnn_FLAG_DROPPED n) 1
  if n = 38 then s.wr R.SB_STAT_SAFETY_EVT_LOST 1 else s

/-- A push (01 R36, R37): with a credit the item takes a slot; without one the producer acts under the queue's policy
(WAIT: it does not proceed, and nothing changes). -/
def State.qPush (s : State) (n : Nat) (item : List Byte) : State :=
  if 0 < s.qCredit n then
    let q := s.queue n
    (s.setQueue n { q with items := q.items ++ [item] }).qIrq n
  else
    match qPolicy n with
    | .wait => s
    | _ => s.qLose n

/-- A pop (01 R36, R38): the oldest item and the state without it; an empty queue gives no item and sets UNDERRUN. -/
def State.qPop (s : State) (n : Nat) : Option (List Byte) × State :=
  match (s.queue n).off, (s.queue n).items with
  | false, i :: is => (some i, (s.setQueue n { s.queue n with items := is }).qPopped n 1)
  | _, _ => (none, s.wr (R.QM_Qnn_FLAG_UNDERRUN n) 1)

/-- Every item of a queue popped in one cycle. -/
def State.qDrain (s : State) (n : Nat) : State :=
  (s.setQueue n { s.queue n with items := [] }).qPopped n (s.queue n).items.length

/-- The consumer block of a queue enabled or disabled (01 R39): disabling flushes it, enabling starts it empty. -/
def State.qConsumer (s : State) (n : Nat) (on : Bool) : State :=
  if (s.queue n).off = on then s.setQueue n { items := [], off := !on } else s

/-! ### Events (15 R487, R488, R543) -/

/-- An event: the ring it goes to and its code. -/
structure EventId where
  ring : Nat
  code : Nat
  deriving DecidableEq, Repr

def Ev.STO_ON : EventId := ⟨38, 0x0101⟩
def Ev.STO_OFF : EventId := ⟨38, 0x0102⟩
def Ev.SAFETY_FAULT : EventId := ⟨38, 0x0103⟩
def Ev.LOCKOUT_EXIT : EventId := ⟨38, 0x0104⟩
def Ev.SAFETY_CRC : EventId := ⟨38, 0x0105⟩
def Ev.COMMISSIONED : EventId := ⟨38, 0x0106⟩
def Ev.TOKEN_LOST : EventId := ⟨38, 0x0107⟩
def Ev.STO_TEST_DUE : EventId := ⟨38, 0x0108⟩
def Ev.LANE_ERR : EventId := ⟨39, 0x0201⟩
def Ev.SRAM_PARITY : EventId := ⟨39, 0x0202⟩
def Ev.HOLD1 : EventId := ⟨39, 0x0203⟩
def Ev.TABLE_PARITY : EventId := ⟨39, 0x0204⟩
def Ev.LANE_LOST : EventId := ⟨39, 0x0205⟩
def Ev.SD_LOSS : EventId := ⟨39, 0x0206⟩
def Ev.SD_SUSPECT : EventId := ⟨39, 0x0207⟩
def Ev.FB_DEGRADED : EventId := ⟨39, 0x0208⟩
def Ev.MP_LOST : EventId := ⟨39, 0x0209⟩
def Ev.DATAPATH : EventId := ⟨39, 0x020A⟩
def Ev.HOLD8 : EventId := ⟨39, 0x020B⟩
def Ev.MP_REPEAT : EventId := ⟨39, 0x020C⟩
def Ev.TABLE_LOST : EventId := ⟨39, 0x020D⟩
def Ev.ISUM : EventId := ⟨39, 0x020E⟩
def Ev.EDGE_LATE : EventId := ⟨39, 0x020F⟩
def Ev.DC_OV : EventId := ⟨39, 0x0210⟩
def Ev.DC_UV : EventId := ⟨39, 0x0211⟩
def Ev.CHOPPER_FAULT : EventId := ⟨39, 0x0212⟩
def Ev.GATE_LATCH : EventId := ⟨39, 0x0213⟩
def Ev.OVERCURRENT : EventId := ⟨39, 0x0214⟩
def Ev.OVERSPEED : EventId := ⟨39, 0x0215⟩
def Ev.FB_LOST : EventId := ⟨39, 0x0216⟩
def Ev.ERTMO : EventId := ⟨39, 0x0217⟩
def Ev.BRAKE_FAIL : EventId := ⟨39, 0x0218⟩
def Ev.BRAKE_SLIP : EventId := ⟨39, 0x0219⟩
def Ev.BIST_FAIL : EventId := ⟨39, 0x021A⟩
def Ev.LANE_SUSPECT : EventId := ⟨40, 0x0301⟩
def Ev.BAD_ADDR : EventId := ⟨40, 0x0302⟩
def Ev.CAL_RANGE : EventId := ⟨40, 0x0303⟩
def Ev.SETPOINT_BAD : EventId := ⟨40, 0x0304⟩
def Ev.LEVER_STALE : EventId := ⟨40, 0x0305⟩
def Ev.TENSION_SRC : EventId := ⟨40, 0x0306⟩
def Ev.SHOCK : EventId := ⟨40, 0x0307⟩
def Ev.COMPL_LIMIT : EventId := ⟨40, 0x0308⟩
def Ev.HEAVE_STALE : EventId := ⟨40, 0x0309⟩
def Ev.DRIVE_STATE : EventId := ⟨40, 0x030A⟩
def Ev.AUX_OV : EventId := ⟨40, 0x030B⟩
def Ev.IDXDRIFT : EventId := ⟨40, 0x030C⟩
def Ev.FB_SWITCH : EventId := ⟨40, 0x030D⟩
def Ev.FB_SRC_LOST : EventId := ⟨40, 0x030E⟩
def Ev.CAN_WARN : EventId := ⟨40, 0x030F⟩
def Ev.CAN_PASSIVE : EventId := ⟨40, 0x0310⟩
def Ev.CAN_ACTIVE : EventId := ⟨40, 0x0311⟩
def Ev.CAN_BUSOFF : EventId := ⟨40, 0x0312⟩
def Ev.CAN_RECOVERED : EventId := ⟨40, 0x0313⟩
def Ev.CAN_PXE : EventId := ⟨40, 0x0314⟩
def Ev.TEMP_SENSOR : EventId := ⟨40, 0x0315⟩
def Ev.TEMP_PAIR : EventId := ⟨40, 0x0316⟩
def Ev.TEMP_SUSPECT : EventId := ⟨40, 0x0317⟩
def Ev.TEMP_WARN : EventId := ⟨40, 0x0318⟩
def Ev.TEMP_OK : EventId := ⟨40, 0x0319⟩
def Ev.AUX_LOSS : EventId := ⟨40, 0x031A⟩
def Ev.AUX_BACK : EventId := ⟨40, 0x031B⟩
def Ev.NV_DEGRADED : EventId := ⟨40, 0x031C⟩
def Ev.TRACE_GUARD : EventId := ⟨40, 0x031D⟩
def Ev.EVENTS_LOST : EventId := ⟨40, 0x031E⟩
def Ev.LINK_UP : EventId := ⟨41, 0x0401⟩
def Ev.LINK_DOWN : EventId := ⟨41, 0x0402⟩
def Ev.SYNC_LOCK : EventId := ⟨41, 0x0403⟩
def Ev.SYNC_LOST : EventId := ⟨41, 0x0404⟩
def Ev.ROOT_CONFLICT : EventId := ⟨41, 0x0405⟩
def Ev.UNIT_REFUSED : EventId := ⟨41, 0x0406⟩
def Ev.MEMBER_GONE : EventId := ⟨41, 0x0407⟩
def Ev.CONSIST_LOST : EventId := ⟨41, 0x0408⟩
def Ev.MEMBER_DETACHED : EventId := ⟨41, 0x0409⟩
def Ev.CONSIST_BUDGET : EventId := ⟨41, 0x040A⟩
def Ev.TAKEOVER : EventId := ⟨41, 0x040B⟩
def Ev.PARTNER_LOST : EventId := ⟨41, 0x040C⟩
def Ev.MIRROR_LOST : EventId := ⟨41, 0x040D⟩
def Ev.ALIVE_LOST : EventId := ⟨41, 0x040E⟩
def Ev.PARTNER_RELEASE : EventId := ⟨41, 0x040F⟩
def Ev.PAIR_FB : EventId := ⟨41, 0x0410⟩
def Ev.BANK_SKEW : EventId := ⟨41, 0x0411⟩

/-- The 32-byte record of an event (15 R487). -/
def eventRecord (e : EventId) (src tick tb : Nat) (data : List Byte) : List Byte :=
  bytesLE 2 e.code ++ bytesLE 1 src ++ [0] ++ bytesLE 4 tick ++ bytesLE 8 tb ++ padTo 16 data

/-- The place of an event's source in the order in which the arbiter of its ring takes the pushes of one cycle (01 R35, R41): Signal Box,
sequencer, lanes, SD, PW, FB, QM, CAN0, CAN1, thermal monitor; on Q41 the link ports before the mirror engine. -/
def srcRank : Nat → Nat
  | 0 => 0
  | 15 => 1
  | 1 | 2 | 3 | 4 => 2
  | 18 => 3
  | 17 => 4
  | 16 => 5
  | n => n + 1

/-- A push through the arbiter of an event ring (01 R35): in front of records of the same cycle from sources listed later; without a
credit the last of them gives way. -/
def State.arbPush (s : State) (ring : Nat) (item : List Byte) : State :=
  let q := s.queue ring
  let later (i : List Byte) : Bool :=
    fieldLE i 8 8 == fieldLE item 8 8 && decide (srcRank (fieldLE item 2 1) < srcRank (fieldLE i 2 1))
  let after := (q.items.reverse.takeWhile later).reverse
  if after.isEmpty then s.qPush ring item
  else
    let before := q.items.take (q.items.length - after.length)
    if 0 < s.qCredit ring then (s.setQueue ring { q with items := before ++ item :: after }).qIrq ring
    else (s.setQueue ring { q with items := before ++ item :: after.dropLast }).qLose ring

/-- An event raised by hardware: its record goes to its ring. -/
def State.event (s : State) (e : EventId) (src : Nat) (data : List Byte := []) : State :=
  { s with te := { s.te with evs := s.te.evs ++ [(e.ring, e.code)] } }.arbPush e.ring (eventRecord e src s.tickno s.time.tb data)

/-- An event raised by the MP: it enters the log directly, with SRC 14. -/
def State.mpEvent (s : State) (e : EventId) (data : List Byte) : State :=
  { s with
    mp := { s.mp with log := s.mp.log ++ [eventRecord e 14 s.tickno s.time.tb data] }
    te := { s.te with evs := s.te.evs ++ [(e.ring, e.code)] } }

/-- The event BAD_ADDR (01 R48, 15 R543): the address, the access (0 read, 1 write) and the requester. -/
def State.badAddr (s : State) (a access requester : Nat) : State :=
  s.event Ev.BAD_ADDR 5 (bytesLE 4 a ++ bytesLE 1 access ++ bytesLE 1 requester)

/-- The event of a cause of 05 R203, by its bit in LN.MD_FLT (15 R488): the codes follow the bits, but for SD_LOSS. -/
def causeEvent (bit : Nat) : EventId :=
  if bit = 6 then Ev.SD_LOSS else if bit < 6 then ⟨39, 0x020A + bit⟩ else ⟨39, 0x0209 + bit⟩

/-- A cause of 05 R203 raised: its fault event with the DATA of 15 R543, and its mark for the sequencer, which latches
it at the next boundary (05 R183). -/
def State.cause (s : State) (bit src detail value : Nat) : State :=
  let s := s.event (causeEvent bit) src (bytesLE 1 bit ++ bytesLE 1 (s.rd R.LN_MD_STAT_STATE)
    ++ bytesLE 1 (s.rd R.LN_MD_STAT_SUB) ++ bytesLE 1 detail ++ bytesLE 4 value)
  { s with seq.raised := s.seq.raised ++ [(bit, detail)] }

/-- A cause is latched or raised since the last boundary. -/
def State.hasCause (s : State) (bit : Nat) : Bool :=
  s.bit R.LN_MD_FLT bit || s.seq.raised.any (fun c => c.1 == bit)

/-- A word of what the latest step put out to a reader. -/
def State.answer (s : State) (w : Word) : State := { s with out.readData := some w }

end Sys2Proof.Machine
end

