-- ==== Sys2Proof/Machine/Flags.lean ====
section
/-! DEFINITION. The conditions and measured quantities that several rules share: channels by role, vdc and ωm, the
validity of the fast path, the gate-enable chain, the idle stage. -/

namespace Sys2Proof.Machine

/-- The carrier length Tc in cyc (03 R121). -/
def State.tc (s : State) : Nat := s.rd R.PW_CARRIER_K * s.period

/-- Ticks from this tick to the next carrier-start tick, 0 on one (03 R121). -/
def State.toCarrierTick (s : State) : Nat :=
  let k := s.rd R.PW_CARRIER_K
  wrapTo 32 (((s.rd R.PW_PHASE : Int) - (s.time.tbLast / s.period : Nat)) % (k : Nat))

/-- Whether this tick is a carrier-start tick, and so a commit tick (03 R121, R122). -/
def State.commitTick (s : State) : Bool := s.toCarrierTick == 0

/-- The start offset and span of a task in the active Timetable. -/
def State.taskSlot (s : State) (task : Nat) : Nat × Nat :=
  let e (n : Nat) : Word := s.word (R.TT_ACTIVEn_W0 n).addr
  match (List.range 16).find? (fun n => testB (e n).toNat 31 && bitsOf (e n).toNat 27 24 == 0 && bitsOf (e n).toNat 23 16 == task) with
  | some n => (bitsOf (e n).toNat 14 0, bitsOf (s.word (R.TT_ACTIVEn_W1 n).addr).toNat 14 0)
  | none => (0, 0)

/-! ### Sigma-delta roles (03 R92, R93, R100) -/

/-- The channel that holds a role, if one does (03 R92). -/
def State.roleCh (s : State) (role : Nat) : Option Nat :=
  (List.range 12).find? (fun n => s.rd (R.SD_CHn_CFG_ROLE n) == role)

/-- The scaled MEAN of the channel with a role, Q2.30 of its unit; 0 where none has it. -/
def State.meanOf (s : State) (role : Nat) : Rat :=
  match s.roleCh role with
  | some n => s.rdQ (R.SD_CHn_MEAN n) 30
  | none => 0

/-- vdc: the tick's MEAN of the VDC channel (05 R205). -/
def State.vdc (s : State) : Rat := s.meanOf 4

/-- vdc as it stands in an event's detail, Q2.30 (15 R543). -/
def State.vdcRaw (s : State) : Nat :=
  match s.roleCh 4 with
  | some n => s.rd (R.SD_CHn_MEAN n)
  | none => 0

/-- A role whose channel feeds the fast path (03 R92). -/
def fastRole (role : Nat) : Bool := role == 1 || role == 2 || role == 3 || role == 4 || role == 8

/-- Every channel with a fast-path role is VALID (03 R100). -/
def State.fastValid (s : State) : Bool :=
  (List.range 12).all (fun n => !fastRole (s.rd (R.SD_CHn_CFG_ROLE n)) || s.on (R.SD_CHn_STAT_VALID n))

/-- The roles required for gates are assigned (03 R93). -/
def State.rolesForGates (s : State) : Bool :=
  (s.roleCh 4).isSome && 2 ≤ ([1, 2, 3].filter (fun r => (s.roleCh r).isSome)).length
    && (!s.on R.LN_MD_CFG_CHEN || (s.roleCh 8).isSome)

/-! ### Machine quantities -/

/-- ωm, the mechanical speed latched at the boundary, rad/s (07 R250). -/
def State.omegaM (s : State) : Rat := s.rdQ R.FB_OMEGA 16

/-- The mechanical angle latched at the boundary, in turns (07 R250). -/
def State.thetaM (s : State) : Rat := s.rdU R.FB_THETA 32

/-- p_fb, 48-bit signed counts, as latched at the boundary (07 R250). -/
def State.pfb (s : State) : Int := signedOf 48 s.fb.pos

/-- CPR_s: native counts per mechanical revolution of a source, by its code (07 R246). -/
def State.cprOf (s : State) : Nat → Nat
  | 1 => s.rd R.FB_ABZ_CPR
  | 2 => s.rd R.FB_SC_LINES * 4096
  | 3 => 65536 * max 1 (s.rd R.FB_RS_CFG_PP)
  | 4 => 2 ^ s.rd R.FB_SSI_CFG_STBITS
  | 5 => 6 * s.rd R.LN_CF_MACH_PP
  | _ => 0

/-- Counts per mechanical radian of the primary source, in which positions are kept (07 R250, R251). -/
def State.countsPerRad (s : State) : Rat := (s.cprOf (s.rd R.FB_SEL_PRI) : Nat) / (2 * piR)

/-- The tick period in seconds. -/
def State.tSecond (s : State) : Rat := (s.period : Rat) / 400000000

/-- Feedback is valid: the operating source is usable (07 R248, R249). -/
def State.fbValid (s : State) : Bool :=
  s.on R.FB_CTL_EN && (if s.rd R.FB_STAT_OPSRC = s.rd R.FB_SEL_PRI then s.on R.FB_STAT_PRIOK else s.on R.FB_STAT_SECOK)

/-- A degraded path exists: SEC is usable and is not the operating source (07 R249). -/
def State.degradedPath (s : State) : Bool :=
  s.on R.FB_CTL_EN && s.on R.FB_STAT_SECOK && s.rd R.FB_STAT_OPSRC != s.rd R.FB_SEL_SEC

/-- The drive state, by its code (05 R185). -/
def State.drive (s : State) : Nat := s.rd R.LN_MD_STAT_STATE

/-- The sub-mode, by its code (05 R191). -/
def State.sub (s : State) : Nat := s.rd R.LN_MD_STAT_SUB

/-- BRKSET in force, ms (05 R196, R211). -/
def State.brkSetMs (s : State) : Nat :=
  match s.seq.brkT with
  | some t => t.1
  | none => s.rd R.LN_MD_BRKT_BRKSET

/-- BRKTAPER in force, ms (05 R197, R211). -/
def State.brkTaperMs (s : State) : Nat :=
  match s.seq.brkT with
  | some t => t.2
  | none => s.rd R.LN_MD_BRKTAPER

/-- A phase of the brake sequence begins (05 R197), with the times as they stand at its start (R211). -/
def State.brakePhase (s : State) (n : Nat) : State :=
  { s.wr R.LN_MD_BRK_PH n with
    seq.brkT := if n = 2 ∨ n = 3 ∨ n = 4 ∨ n = 6 then some (s.rd R.LN_MD_BRKT_BRKSET, s.rd R.LN_MD_BRKTAPER) else none }

/-! ### Gates -/

/-- HOLD8 is latched (02 R79, 10 R345). -/
def State.hold8 (s : State) : Bool := s.hasCause 1

/-- An ASC block: OVERCURRENT, GATE_LATCH on a low side, HOLD8, SD_LOSS on a fast-path channel (05 R194). -/
def State.ascBlock (s : State) : Bool :=
  s.hasCause 11 || s.hold8 || s.hasCause 6
    || [1, 3, 5].any (fun c => s.rd (R.GD_CHc_STAT_UVLOP c) + s.rd (R.GD_CHc_STAT_UVLON c) + s.rd (R.GD_CHc_STAT_DESAT c)
        + s.rd (R.GD_CHc_STAT_SHOOT c) + s.rd (R.GD_CHc_STAT_LINK c) + s.rd (R.GD_CHc_STAT_SYNC c)
        + s.rd (R.GD_CHc_STAT_SCHED_BAD c) != 0)

/-- The gate-enable chain of a channel (10 R345); phase channels are 0–5, GK is 6. -/
def State.gateChain (s : State) (c : Nat) : Bool :=
  2 ≤ s.drive && s.drive ≤ 5 && !s.on R.SB_STAT_STO && s.rd R.SB_SFLT == 0 && s.fastValid && !s.hold8
    && !s.on R.SB_REQM_GATE_GOFF && (c == 6 || !(s.seq.phaseOff || s.rd R.PM_STAT_PSTATE == 5))

/-- A channel of the gate drive. -/
def State.gch (s : State) (c : Nat) : GdChan := (s.gd.ch.toList[c]?).getD {}

/-- The state with a channel of the gate drive changed. -/
def State.setGch (s : State) (c : Nat) (f : GdChan → GdChan) : State :=
  { s with gd.ch := s.gd.ch.mapFinIdx (fun i x _ => if i = c then f x else x) }

/-- A leg of the gate drive. -/
def State.gleg (s : State) (l : Nat) : GdLeg := (s.gd.leg.toList[l]?).getD {}

/-- The state with a leg of the gate drive changed. -/
def State.setGleg (s : State) (l : Nat) (f : GdLeg → GdLeg) : State :=
  { s with gd.leg := s.gd.leg.mapFinIdx (fun i x _ => if i = l then f x else x) }

/-- The GATE_EN driver of one channel follows the chain. -/
def State.gateRefreshOne (s : State) (c : Nat) : State :=
  let lvl := s.gateChain c
  let g := s.gch c
  if lvl = g.drive then s
  else if lvl then s.setGch c (fun g => { g with drive := true })
  else s.setGch c (fun g => { g with drive := false, driveFall := s.time.tb })

/-- Every GATE_EN driver follows the gate-enable chain (10 R345). -/
def State.gateRefresh (s : State) : State := (List.range 7).foldl State.gateRefreshOne s

/-- A Token connection demands a function, by its bit in FUNCMASK: 0 STO, 1 SS1, 2 SLS, 3 SBC (10 R364, R369, R370). -/
def State.tokenDemands (s : State) (t bit : Nat) : Bool :=
  s.on (R.SB_TOKt_CFG_EN t) && testB (s.rd (R.SB_TOKt_CFG_FUNCMASK t)) bit
    && (!s.on (R.SB_TOKt_STAT_ESTAB t) || !testB ((s.sb.tok.toList[t]?).getD {}).byte bit)

/-- Some Token connection demands a function. -/
def State.tokenAny (s : State) (bit : Nat) : Bool := s.tokenDemands 0 bit || s.tokenDemands 1 bit

/-- SOUT0 is high: the brake is released (10 R353). -/
def State.sout0 (s : State) : Bool :=
  s.seq.release && !s.on R.LN_MD_BRK_SETCMD && (!s.on R.SB_STAT_STO || !s.on R.SB_SBC_CFG_ONSTO) && s.rd R.SB_SFLT == 0
    && !s.tokenAny 3

/-- SOUT1 is high (10 R349). -/
def State.sout1 (s : State) : Bool := !s.on R.SB_STAT_STO && s.rd R.SB_SFLT == 0 && !s.sys.latchedOff

/-- SB.STAT.SBCSET follows SOUT0 (10 R353, R373). -/
def State.soutRefresh (s : State) : State := s.wr R.SB_STAT_SBCSET (b2n !s.sout0)

/-- The brake is commanded set through SBC (05 R196, R201); the phase of the brake sequence is the sequencer's. -/
def State.brakeSet (s : State) : State :=
  let s := s.wr R.SB_STAT_SBCSET 1
  if s.on R.LN_MD_BRK_SETCMD then s
  else
    let s := s.wr R.LN_MD_BRK_SETCMD 1
    { s with seq := { s.seq with setAt := s.time.tb, brkHigh := 0, release := false, setWatch := true } }

/-- The stage is lost (05 R198): a latch holds a phase channel, or its GATE_EN is low. -/
def State.stageLost (s : State) : Bool :=
  (List.range 6).any (fun c => (s.rd ⟨(R.GD_CHc_STAT_UVLOP c).addr, 7, 0⟩) != 0 || !s.gateChain c)

/-- The phase channels modulate (05 R185, R193): PW runs, the drive is in RUN or in a STOPPING that modulates, the stage is
not lost. -/
def State.modulating (s : State) : Bool :=
  s.on R.PW_CTL_RUN && (s.drive == 3 || (s.drive == 4 && s.sub ≤ 2)) && !s.stageLost

/-- Gates of the phase channels are on (04 R162): the stage modulates, or it holds the ASC pattern (05 R191). -/
def State.phasesOn (s : State) : Bool :=
  s.modulating || (s.on R.PW_CTL_RUN && s.sub == 3 && (s.drive == 4 || s.drive == 5) && !s.stageLost)

/-- The stage is idle (06 R239), the DC-link level apart. -/
def State.stageIdle (s : State) : Bool :=
  (List.range 7).all (fun c => !(s.gch c).drive) && s.drive ≤ 1
    && (decide (absR s.omegaM ≤ s.rdU R.LN_MD_WSTOP 16) || decide (s.cf.emfAmp < 2 / 100))

end Sys2Proof.Machine
end

