-- ==== Sys2Proof/Machine/Feedback.lean ====
section
/-! DEFINITION. Position and speed feedback (07): the sources, the index and its drift, selection and switch-over, the values latched at
a boundary, the encoder emulation. -/

namespace Sys2Proof.Machine

/-! ### Sources (07 R246–R249) -/

/-- A source, by its code 1–5. -/
def State.fsrc (s : State) (code : Nat) : FbSource := (s.fb.src.toList[code - 1]?).getD {}

/-- The state with a source changed. -/
def State.setFsrc (s : State) (code : Nat) (f : FbSource → FbSource) : State :=
  { s with fb := { s.fb with src := s.fb.src.mapFinIdx (fun i x _ => if i + 1 = code then f x else x) } }

/-- The state with the incremental encoder's own state changed. -/
def State.setAbz (s : State) (f : AbzState → AbzState) : State := { s with fb := { s.fb with abz := f s.fb.abz } }

/-- The difference of two 48-bit counts (00 R13, 07 R254). -/
def diff48 (a b : Int) : Int := signedOf 48 (wrapTo 48 (a - b))

/-- The primary, and the secondary as it acts (07 R247). -/
def State.fbPri (s : State) : Nat := s.rd R.FB_SEL_PRI
def State.fbSec (s : State) : Nat :=
  if s.on R.LN_CF_MACH_TYPE ∧ s.rd R.FB_SEL_SEC = 5 then 0 else s.rd R.FB_SEL_SEC

/-- POSX of a source takes a value; its scaling to counts of the primary keeps its remainder (07 R251, R254). -/
def State.setPosx (s : State) (code : Nat) (value : Int) : State :=
  let c : Int := s.cprOf code
  let cp : Int := s.cprOf s.fbPri
  s.setFsrc code (fun x =>
    let acc := x.rem + diff48 value x.posx * cp
    { x with
      posx := signedOf 48 (wrapTo 48 value)
      scaled := if c = 0 then 0 else signedOf 48 (wrapTo 48 (x.scaled + acc / c))
      rem := if c = 0 then 0 else acc % c })

/-- The index source (07 R277): values other than ABZ and SINCOS act as none. -/
def State.fbIdx (s : State) : Nat := if s.rd R.FB_SEL_IDXSRC ≤ 2 then s.rd R.FB_SEL_IDXSRC else 0

/-- The operating source. -/
def State.fbOp (s : State) : Nat := s.rd R.FB_STAT_OPSRC

/-- The condition that clears a source's VALID is present (07 R248). -/
def State.fbCond (s : State) (code : Nat) : Bool :=
  let x := s.fsrc code
  match code with
  | 1 => s.fb.abz.faultA || s.fb.abz.faultB || 16 ≤ s.fb.abz.illTick
  | 2 => 4 ≤ x.badAmp || 3 ≤ x.badRun
  | 3 => 4 ≤ x.badAmp || s.on R.FB_RS_STAT_EXCFAULT
  | 4 => 3 ≤ x.badRun
  | 5 => 2 ≤ s.fb.hall.invalidTicks || 3 ≤ x.badRun
  | _ => true

/-- A source is aligned (07 R248). -/
def State.fbAligned (s : State) (code : Nat) : Bool :=
  match code with
  | 1 | 2 => (s.fsrc code).aligned
  | 3 | 5 => true
  | 4 => (s.fsrc 4).first
  | _ => false

/-- The primary is usable (07 R248). -/
def State.fbPriOk (s : State) : Bool :=
  let p := s.fbPri
  (s.fsrc p).valid && 1 ≤ p && p ≤ 4 && (s.fbAligned p || s.on R.LN_CF_MACH_TYPE)
    && !(p == s.fbIdx && s.on R.FB_IDX_STAT_DEGRADED)

/-- The secondary is VALID and aligned (07 R248). -/
def State.fbSecOk (s : State) : Bool :=
  let c := s.fbSec
  1 ≤ c && c ≤ 5 && (s.fsrc c).valid && s.fbAligned c

/-- A source has lost VALID (07 R248, R269): on the operating source FB_LOST with kind LOSS, on the other one FB_SRC_LOST; an index
source loses its alignment. A loss of SEC after DEGRADED in the same tick takes the action 2 of R261 (R274). -/
def fbLose (code : Nat) (s : State) : State :=
  let x := s.fsrc code
  if !x.valid then s.setFsrc code (fun x => { x with calm := 0 })
  else
    let s := s.setFsrc code (fun x => { x with valid := false, calm := 0, aligned := false })
    if !s.on R.FB_CTL_EN then s
    else
      let s : State := if code = s.fbSec ∧ s.fb.change = some 3 ∧ code ≠ s.fbOp then
          { s.cause 13 16 2 s.fbOp with fb := { s.fb with change := none, lossPend := true } }
        else s
      let s : State := if code = s.fbPri then { s with fb := { s.fb with hadLoss := true } } else s
      if code = s.fbOp then { s.cause 13 16 1 s.fbOp with fb := { s.fb with lossPend := true } }
      else if code = s.fbPri ∨ code = s.fbSec then s.event Ev.FB_SRC_LOST 16 else s

/-- A source whose clearing condition is present loses VALID. -/
def fbLoseIfDue (code : Nat) (s : State) : State := if s.fbCond code then fbLose code s else s

/-- SOURCE_VALID: VALID sets 64 ticks after the clearing condition has gone (07 R248). -/
def sourceValidIfDue (code : Nat) (s : State) : State :=
  let x := s.fsrc code
  if !x.valid ∧ !s.fbCond code ∧ 64 ≤ x.calm ∧ s.on R.FB_CTL_EN then s.setFsrc code (fun x => { x with valid := true }) else s

/-! ### Encoder emulation (07 R275, R276) -/

/-- Counts of a source rescaled to the primary's, with its correction (07 R251). -/
def State.fbScaled (s : State) (code : Nat) : Int :=
  (s.fsrc code).scaled + (if code = s.fbIdx ∧ code ≠ 0 then s.rdI R.FB_POSCORR else 0)

/-- p_fb as the operating source gives it now (07 R251). -/
def State.pfbLive (s : State) : Int :=
  if s.fb.lost then s.pfb else signedOf 48 (wrapTo 48 (s.fbScaled s.fbOp + s.fb.hofs))

/-- p_src of the emulation (07 R275). -/
def State.emuSource (s : State) : Int :=
  match s.rd R.FB_EMU_CFG_SRC with
  | 1 => (s.fsrc s.fbPri).posx
  | 2 => (s.fsrc s.fbSec).posx
  | _ => s.pfbLive

/-- LAG and OVR (07 R276). -/
def emuLag (s : State) : State :=
  let lag := (s.fb.emuTarget - s.fb.emuOut).natAbs
  let s := s.wr R.FB_EMU_STAT_LAG (min lag 65535)
  if 4 < lag then s.wr R.FB_EMU_STAT_OVR 1 else s

/-- The sample interval of p_src in cyc, 0 for a source that is not sampled (07 R275, R262, R264, R266). -/
def State.emuInterval (s : State) : Nat :=
  let code := match s.rd R.FB_EMU_CFG_SRC with
    | 1 => s.fbPri
    | 2 => s.fbSec
    | _ => s.fbOp
  if code = 2 then 400 else if code = 3 then s.rd R.FB_RS_CFG_EXCDIV / 2 else if code = 4 then s.period else 0

/-- The count target follows its source, the remainder kept (07 R275). -/
def emuTrack (s : State) : State :=
  if !s.on R.FB_EMU_CFG_EN ∨ !s.on R.FB_CTL_EN then s
  else
    let p := s.emuSource
    let m : Int := max 1 (s.rd R.FB_EMU_RATIO_M)
    let n : Int := max 1 (s.rd R.FB_EMU_RATIO_N)
    let acc := s.fb.emuAcc + m * signedOf 48 (wrapTo 48 (p - s.fb.emuLast))
    emuLag { s with fb := { s.fb with
      emuLast := p, emuTarget := s.fb.emuTarget + acc / n, emuAcc := acc % n
      emuStep := if acc / n = 0 then s.fb.emuStep else (s.time.tb, (acc / n).natAbs, s.emuInterval) } }

/-- The output levels of a count: A and B both high at multiples of four, A leading upward; Z there at multiples of ZCPR (07 R275). -/
def emuLevels (out : Int) (zcpr : Nat) : Bool × Bool × Bool :=
  let q := (out % 4).toNat
  (q == 0 || q == 3, q == 0 || q == 1, q == 0 && zcpr != 0 && out % (zcpr : Int) == 0)

/-- The output pins follow the output count; all low without EN (07 R275). -/
def emuPins (s : State) : State :=
  let l := if s.on R.FB_EMU_CFG_EN ∧ s.on R.FB_CTL_EN then emuLevels s.fb.emuOut (s.rd R.FB_EMU_ZCPR) else (false, false, false)
  { s with fb := { s.fb with emuA := l.1, emuB := l.2.1, emuZ := l.2.2 } }

/-- The instant of the next output edge by the spreading of the target's step (07 R275): the edge after `n − lag` others of the step comes
that share of the interval after it. -/
def State.emuEdgeAt (s : State) : Nat :=
  let st := s.fb.emuStep
  let lag := (s.fb.emuTarget - s.fb.emuOut).natAbs
  if st.2.1 = 0 then 0 else st.1 + (st.2.1 - lag) * st.2.2 / st.2.1

/-- ENCODER_EMULATION_EDGE: the output moves one edge toward its target, at least 40 cyc after the last one; the step of a sampled source
is spread evenly over the following sample interval (07 R275). -/
def emulationEdge (s : State) : State :=
  let t := max s.time.tb (max (s.fb.emuAt + 40) s.emuEdgeAt)
  if !s.on R.FB_EMU_CFG_EN ∨ !s.on R.FB_CTL_EN ∨ s.fb.emuOut = s.fb.emuTarget ∨ s.time.tbLast + s.period ≤ t then s
  else
    let out := if s.fb.emuOut < s.fb.emuTarget then s.fb.emuOut + 1 else s.fb.emuOut - 1
    emuPins (emuLag { s with time := { s.time with tb := t }, fb := { s.fb with emuOut := out, emuAt := t } })

/-- A write of FB.EMU_CFG (07 R280): an enable takes the source's present count as its start. -/
def emuConfigWrite (v : Word) (s : State) : State :=
  let was := s.on R.FB_EMU_CFG_EN
  let s := (s.wr R.FB_EMU_CFG_EN (R.FB_EMU_CFG_EN.get v)).wr R.FB_EMU_CFG_SRC (R.FB_EMU_CFG_SRC.get v)
  emuPins { s with fb := { s.fb with emuLast := s.emuSource, emuAcc := if was then s.fb.emuAcc else 0 } }

/-! ### Selection (07 R247, R249, R271) -/

/-- FB.STAT is renewed (07 R248, R250). -/
def fbStatus (s : State) : State :=
  ((s.wr R.FB_STAT_PRIOK (b2n s.fbPriOk)).wr R.FB_STAT_SECOK (b2n s.fbSecOk)).wr R.FB_STAT_ALIGNED (b2n (s.fbAligned s.fbIdx && s.fbIdx != 0))

/-- Speed windows start anew, from the values that stand (07 R273). -/
def fbWindowRestart (s : State) : State :=
  { s with fb := { s.fb with
    winFrom := s.time.tb
    src := s.fb.src.map (fun x => { x with hist := [] })
    abz := { s.fb.abz with leadHist := [], rev := none } } }

/-- The operating source changes at a boundary (07 R270): p_fb does not step; `pos` is what the old source gives there. The speed windows
start anew once the boundary has latched. -/
def fbSwitch (code why : Nat) (pos : Int) (s : State) : State :=
  let s := (s.wr R.FB_STAT_OPSRC code).wr R.FB_STAT_WHY why
  { s with fb := { s.fb with
    lost := false
    winFrom := s.time.tb
    hofs := signedOf 48 (wrapTo 48 (pos - s.fbScaled code)) } }

/-- A return to the primary is permitted (07 R271). -/
def State.fbReturnOk (s : State) : Bool :=
  s.on R.FB_STAT_PRIOK && (s.rd R.FB_STAT_WHY == 1 || !s.fb.hadLoss || s.rd R.FB_REVAL ≤ s.fb.prioRun)

/-- Whether a write of FB.CTL.EN = 1 is refused (07 R247). -/
def State.fbRefused (s : State) : Bool :=
  let p := s.fbPri
  let c := s.rd R.FB_SEL_SEC
  let sync := !s.on R.LN_CF_MACH_TYPE
  let cpr := s.rd R.FB_ABZ_CPR
  let rp := max 1 (s.rd R.FB_RS_CFG_PP)
  let bits := s.rd R.FB_SSI_CFG_BITS
  p == 0 || 5 ≤ p || c == p || 6 ≤ c || (p == 2 && c == 3) || (p == 3 && c == 2)
    || (sync && (p == 1 || p == 2) && s.fbIdx != p)
    || (sync && (p == 3 || c == 3) && s.rd R.LN_CF_MACH_PP % rp != 0)
    || cpr % 4 != 0 || cpr < 16 || s.rd R.FB_SC_LINES == 0
    || s.rd R.FB_RS_CFG_EXCDIV < 20000 || 100000 < s.rd R.FB_RS_CFG_EXCDIV
    || bits < 8 || 32 < bits || s.rd R.FB_SSI_CFG_STBITS == 0 || bits < s.rd R.FB_SSI_CFG_STBITS

/-- The sector of a state code, 6 or 7 for an invalid one. -/
def State.hallSector (s : State) (code : Nat) : Nat := s.rd R.FB_HALL_MAP / 2 ^ (3 * code) % 8

/-- A Hall state code is mapped (07 R268): sector, direction, the crossed edge; an invalid or a skipped one. `t` is its stamp. -/
def hallTake (code t : Nat) (s : State) : State :=
  let sec := s.hallSector code
  let h := s.fb.hall
  if 6 ≤ sec then { s.wr R.FB_HALL_STAT_BADSTATE 1 with fb := { s.fb with hall := { h with invalid := true } } }
  else
    let centre : Rat := ((sec : Nat) + 1 / 2 : Rat) / 6
    let d := (sec + 6 - h.sector) % 6
    let h := { h with invalid := false, invalidTicks := 0 }
    if !h.seen then
      let s : State := { s with fb := { s.fb with hall := { h with
        seen := true, sector := sec, thEdge := centre, dir := 0, gap := none, stopped := true, tEdge := t } } }
      (s.setPosx 5 (sec : Nat)).setFsrc 5 (fun x => { x with stamp := t, first := true })
    else if d = 0 then { s with fb := { s.fb with hall := h } }
    else if d = 1 ∨ d = 5 then
      let dir : Int := if d = 1 then 1 else -1
      let edge : Rat := ((if d = 1 then sec else sec + 1 : Nat) : Rat) / 6
      let s : State := { s with fb := { s.fb with hall := { h with
        sector := sec, dir := dir, thEdge := edge, tEdge := t, stopped := false
        gap := if h.dir = dir ∧ !h.stopped then some (t - h.tEdge) else none } } }
      emuTrack ((s.setPosx 5 ((s.fsrc 5).posx + dir)).setFsrc 5 (fun x => { x with stamp := t, badRun := 0 }))
    else
      let step : Int := if d ≤ 3 then (d : Int) else (d : Int) - 6
      let s := s.wr R.FB_HALL_STAT_SKIP 1
      let s : State := { s with fb := { s.fb with hall := { h with
        sector := sec, dir := 0, thEdge := centre, tEdge := t, gap := none, stopped := false } } }
      emuTrack (fbLoseIfDue 5 ((s.setPosx 5 ((s.fsrc 5).posx + step)).setFsrc 5 (fun x => { x with stamp := t, badRun := x.badRun + 1 })))

/-- FB_CTL_EN: a write of FB.CTL.EN (07 R247, R249). The Hall state that
stands is mapped (R268). A source without its clearing condition is VALID at once (DEDUCED from R249, assumption
log 21). -/
def fbEnWrite (on : Bool) (s : State) : State :=
  if !on then emuPins (s.wr R.FB_CTL_EN 0)
  else if s.on R.FB_CTL_EN then s
  else if s.fbRefused then s.wr R.FB_STAT_CFGERR 1
  else
    let s := s.wr R.FB_CTL_EN 1
    let s := [1, 2, 3, 4, 5].foldl (fun s c => s.setFsrc c (fun x => { x with
      valid := !s.fbCond c, calm := 0, aligned := false, first := false, hist := [], older := none
      scaled := if s.cprOf c = 0 then 0 else signedOf 48 (wrapTo 48 (x.posx * (s.cprOf s.fbPri : Nat) / (s.cprOf c : Nat)))
      rem := if s.cprOf c = 0 then 0 else x.posx * (s.cprOf s.fbPri : Nat) % (s.cprOf c : Nat) })) s
    let s : State := { s with fb := { s.fb with
      abz := { s.fb.abz with
        ext := (s.fsrc 1).posx, lead := none, leadHist := [], rev := none, idxSeen := false, illTick := 0, late := [] }
      hall := {}
      lost := false, lossPend := false, hadLoss := false, prioRun := 0, change := none, hofs := 0, winFrom := s.time.tb } }
    let s := fbStatus (hallTake (s.rd R.FB_HALL_STAT_STATE) s.time.tb s)
    let sec := !s.fbPriOk && s.fbSecOk
    emuPins ((s.wr R.FB_STAT_OPSRC (if sec then s.fbSec else s.fbPri)).wr R.FB_STAT_WHY (b2n sec))

/-- FB_CTL_USEPRI: the operating source returns to the primary at the next boundary, where it is revalidated (07 R249, R271). -/
def fbUsePri (s : State) : State :=
  if s.rd R.FB_STAT_WHY = 3 ∧ s.fbReturnOk then { s with fb := { s.fb with change := some 0 } } else s.wr R.FB_STAT_CFGERR 1

/-! ### Index and drift (07 R256–R261) -/

/-- The action of DEGRADED (07 R261). -/
def degradedAction (s : State) : State :=
  let act := s.rd R.FB_SEL_IDXACT
  if act = 1 ∨ act = 2 then
    if act = 1 ∧ s.fbSecOk ∧ s.fbSec ≠ 5 then { s with fb := { s.fb with change := some 3 } }
    else { s.cause 13 16 2 s.fbOp with fb := { s.fb with lossPend := true } }
  else s.event Ev.FB_DEGRADED 16

/-- An IDXDRIFT event (07 R259). -/
def idxDrift (drift : Nat) (acc : Int) (s : State) : State :=
  let s := s.event Ev.IDXDRIFT 16 (bytesLE 2 drift ++ bytesLE 4 (s.rd R.FB_IDXLAT) ++ bytesLE 1 (s.rd R.FB_IDX_STAT_DIR))
  let s := ((s.inc R.FB_IDX_STAT_RUN).wr R.FB_IDX_STAT_GOOD 0).wr R.FB_IDX_ACC (wrapTo 32 (s.rdI R.FB_IDX_ACC + acc))
  let s := s.setAbz (fun z => { z with cleared := s.rd R.FB_IDX_ACC == 0, goodRun := 0 })
  if 3 ≤ s.rd R.FB_IDX_STAT_RUN ∧ !s.on R.FB_IDX_STAT_DEGRADED then
    let s := s.wr R.FB_IDX_STAT_DEGRADED 1
    degradedAction { s with fb := { s.fb with hadLoss := true } }
  else s

/-- A drift within IDXTOL (07 R259, R260). -/
def idxGood (drift : Int) (s : State) : State :=
  let s := (s.wr R.FB_IDX_STAT_RUN 0).inc R.FB_IDX_STAT_GOOD
  let auto := s.on R.FB_IDX_CFG_AUTOCORR ∧ drift ≠ 0
  let s : State :=
    if auto then s.setAbz (fun z => { z with pendCorr := z.pendCorr - drift })
    else s.wr R.FB_IDX_ACC (wrapTo 32 (s.rdI R.FB_IDX_ACC + drift))
  let zero := s.fb.abz.cleared || s.rd R.FB_IDX_ACC == 0
  let run := if s.fb.abz.cleared then s.fb.abz.goodRun + 1 else 0
  let s := s.setAbz (fun z => { z with cleared := zero, goodRun := run })
  if 8 ≤ run then s.wr R.FB_IDX_STAT_DEGRADED 0 else s

/-- The drift of a latch pair, none where the pair is not checked (07 R257). -/
def State.idxDriftOf (s : State) (lat prev : Nat) : Option Int :=
  let c : Int := s.cprOf s.fbIdx
  let d := modDiff 32 lat prev
  if s.on R.FB_ABZ_CFG_ZQUAL then some (d - roundAway (divR d c) * c)
  else if s.fb.abz.up = s.fb.abz.idxUp ∧ !s.fb.abz.idxReversed then some (if s.fb.abz.up then d - c else d + c)
  else none

/-- An index edge that is taken: the latch registers, the alignment at the first after VALID set, the drift between two (07 R248, R256,
R257, R260). -/
def indexEdge (s : State) : State :=
  let x := s.fsrc s.fbIdx
  let prev := s.rd R.FB_IDXLAT
  let lat := wrapTo 32 x.posx
  let s := (((s.wr R.FB_IDXPREV prev).wr R.FB_IDXLAT lat).inc R.FB_IDXCNT)
  let d := s.idxDriftOf lat prev
  let seen := s.fb.abz.idxSeen
  let s := s.setAbz (fun z => { z with idxSeen := true, idxUp := z.up, idxReversed := false, idxFrom := x.posx })
  if !x.valid then s
  else if !x.aligned then
    let s := s.setAbz (fun z => { z with angref := x.posx + s.rdI R.FB_POSCORR - s.rd R.FB_IDX_CFG_IANG })
    s.setFsrc s.fbIdx (fun x => { x with aligned := true })
  else if !seen then s
  else match d with
    | none => s
    | some d =>
      let s := s.wr R.FB_IDX_STAT_DRIFT (wrapTo 16 (clampI (-32767) 32767 d))
      if (s.rd R.FB_IDXTOL : Int) < d ∨ d < -(s.rd R.FB_IDXTOL : Int) then idxDrift (s.rd R.FB_IDX_STAT_DRIFT) d s else idxGood d s

/-- ENC_Z has changed: an accepted rising edge latches the count, 3 cyc later (07 R253, R256). -/
def indexTake (z : Bool) (t : Nat) (s : State) : State :=
  let rise := z && !s.fb.abz.z
  let s := s.setAbz (fun x => { x with z := z })
  if !rise ∨ !s.on R.FB_CTL_EN ∨ s.fbIdx = 0 ∨ s.fb.abz.faultZ
      ∨ (s.on R.FB_ABZ_CFG_ZQUAL ∧ !(s.fb.abz.a ∧ s.fb.abz.b)) then s
  else indexEdge { s with time := { s.time with tb := max s.time.tb (min (t + 3) (s.time.tbLast + s.period - 1)) } }

/-- An edge that arrives now belongs to the next boundary (07 R250). -/
def State.edgeLate (s : State) : Bool := s.on R.FB_CTL_EN && decide (s.time.tbLast + s.period < s.time.tb + 2)

/-- INDEX_LATCH: ENC_Z changes; an accepted rising edge latches the count, aligns the source or runs the drift check (07 R253, R256,
R257, R260). The count edges of its cycle come before it (R256, R274). -/
def indexLatch (z : Bool) (s : State) : State :=
  if s.edgeLate then s.setAbz (fun x => { x with late := x.late ++ [.index z s.time.tb] }) else indexTake z s.time.tb s

/-- INDEX_MISS: travel in one direction beyond CPR + IDXTOL without a latch (07 R258). -/
def indexMissIfDue (s : State) : State :=
  let x := (s.fsrc s.fbIdx).posx
  if s.on R.FB_CTL_EN ∧ s.fbIdx ≠ 0 ∧ s.fb.abz.idxSeen
      ∧ s.cprOf s.fbIdx + s.rd R.FB_IDXTOL < (diff48 x s.fb.abz.idxFrom).natAbs then
    let s := (s.wr R.FB_IDX_STAT_MISS 1).wr R.FB_IDX_STAT_DRIFT 0x8000
    idxDrift 0x8000 0 (s.setAbz (fun z => { z with idxFrom := x }))
  else s

/-- FB_CTL_CORR: the commanded correction takes effect at the next boundary (07 R260). -/
def fbCorrect (s : State) : State := s.setAbz (fun z => { z with pendCmd := true })

/-- The corrections that take effect at a boundary (07 R260, R274, R276). -/
def fbCorrections (s : State) : State :=
  let a := s.fb.abz
  let d := a.pendCorr - (if a.pendCmd then s.rdI R.FB_IDX_ACC else 0)
  let s := if a.pendCmd then s.wr R.FB_IDX_ACC 0 else s
  let s : State := { s with fb := { s.fb with abz := { a with
    pendCorr := 0, pendCmd := false, cleared := a.cleared || a.pendCmd, goodRun := if a.pendCmd ∧ !a.cleared then 0 else a.goodRun } } }
  if d = 0 then s
  else
    let s := s.wr R.FB_POSCORR (wrapTo 32 (clampI (-(2 ^ 31 : Nat)) ((2 ^ 31 : Nat) - 1) (s.rdI R.FB_POSCORR + d)))
    if s.on R.FB_EMU_CFG_EN ∧ s.rd R.FB_EMU_CFG_SRC % 3 = 0 then s.wr R.FB_EMU_STAT_STEP 1 else s

/-! ### ABZ (07 R253–R255) -/

/-- The direction of the count: a reversal starts the travel of R258 anew. -/
def fbDirection (up : Bool) (before : Int) (s : State) : State :=
  let a := s.fb.abz
  let s := s.wr R.FB_IDX_STAT_DIR (b2n up)
  if a.up = up then s
  else { s with fb := { s.fb with abz := { a with up := up, idxReversed := true, idxFrom := before } } }

/-- The hysteresis of R255 on a count edge: lead edges, reversals. -/
def leadEdge (cnt : Int) (t : Nat) (a : AbzState) : AbzState :=
  if a.hdir then
    if 0 < diff48 cnt a.ext then { a with ext := cnt, lead := some (cnt, t) }
    else if diff48 cnt a.ext ≤ -2 then { a with hdir := false, ext := cnt, lead := some (cnt, t), rev := some (cnt, t) }
    else a
  else
    if diff48 cnt a.ext < 0 then { a with ext := cnt, lead := some (cnt, t) }
    else if 2 ≤ diff48 cnt a.ext then { a with hdir := true, ext := cnt, lead := some (cnt, t), rev := some (cnt, t) }
    else a

/-- The place of a pair of levels in the quadrature sequence, A leading upward (PRESUMED, assumption log 22). -/
def quadrant (a b : Bool) : Int := match a, b with
  | false, false => 0
  | true, false => 1
  | true, true => 2
  | false, true => 3

/-- The sampled levels of ENC_A and ENC_B change: a count, or an illegal transition (07 R253–R255). -/
def encoderTake (a b : Bool) (t : Nat) (s : State) : State :=
  let z := s.fb.abz
  let d := (quadrant a b - quadrant z.a z.b) % 4
  let s : State := { s with fb := { s.fb with abz := { z with a := a, b := b } } }
  if d = 0 ∨ !s.on R.FB_CTL_EN then s
  else if d = 2 then
    let s := (s.wr R.FB_ABZ_STAT_ILL 1).inc R.FB_ABZ_ILLCNT
    fbLoseIfDue 1 (s.setAbz (fun z => { z with illTick := z.illTick + 1 }))
  else
    let up := (d == 1) != s.on R.FB_ABZ_CFG_SWAP
    let before := (s.fsrc 1).posx
    let s := (s.setPosx 1 (if up then before + 1 else before - 1)).setFsrc 1 (fun x => { x with stamp := t })
    let cnt := (s.fsrc 1).posx
    let s := s.wr R.FB_CNT (wrapTo 32 cnt)
    let s := if s.fbIdx = 2 then s else fbDirection up before s
    let s : State := { s with fb := { s.fb with abz := leadEdge cnt t s.fb.abz } }
    emuTrack (indexMissIfDue s)

/-- ENCODER_EDGE: the levels of ENC_A and ENC_B change; an edge less than 2 cyc before the boundary belongs to the next one (07 R250,
R253). -/
def encoderEdge (a b : Bool) (s : State) : State :=
  if s.edgeLate then s.setAbz (fun x => { x with late := x.late ++ [.count a b s.time.tb] }) else encoderTake a b s.time.tb s

/-- The edges that came less than 2 cyc before a boundary, after its latch (07 R250). -/
def lateEdges (s : State) : State :=
  s.fb.abz.late.foldl (fun s e => match e with
    | .count a b t => encoderTake a b t s
    | .index z t => indexTake z t s) (s.setAbz (fun x => { x with late := [] }))

/-- LINE_FAULT: the detector of an RS-422 pair flags it, or the flag goes (07 R253): 0 ENC_A, 1 ENC_B, 2 ENC_Z. -/
def lineFault (pair : Fin 3) (present : Bool) (s : State) : State :=
  let a := s.fb.abz
  let a := match pair with
    | 0 => { a with faultA := present }
    | 1 => { a with faultB := present }
    | 2 => { a with faultZ := present }
  let s : State := { s with fb := { s.fb with abz := a } }
  let s := (s.wr R.FB_ABZ_STAT_ABFAULT (b2n (a.faultA || a.faultB))).wr R.FB_ABZ_STAT_ZFAULT (b2n a.faultZ)
  fbLoseIfDue 1 s

/-! ### Sampled sources (07 R262–R267) -/

/-- A new sample of a source. -/
def fbSample (code : Nat) (posx : Int) (angle : Rat) (t : Nat) (s : State) : State :=
  let s := s.setFsrc code (fun x => { x with older := if x.first then some (x.posx, x.angle, x.stamp) else none })
  (s.setPosx code posx).setFsrc code (fun x => { x with angle := angle, stamp := t, first := true })

/-- An amplitude against its window, in quanta of 2⁻¹⁵ of the nominal one. -/
def ampBad (amp lo hi : Nat) : Bool := amp < lo || hi < amp

/-- QUARTER_PERIOD_COUNT: a comparator transition on AN_SIN or AN_COS (07 R262). -/
def quarterPeriod (up : Bool) (s : State) : State :=
  if !s.on R.FB_CTL_EN then s else { s with fb := { s.fb with qc := if up then s.fb.qc + 1 else s.fb.qc - 1 } }

/-- The amplitude of a corrected sample in quanta of 2⁻¹⁵ of the nominal one: the converter's full scale is 1.5 times nominal
(16 X3 levels). -/
def sampleAmp (x y : Rat) : Nat := (clampI 0 65535 (toFix 15 (3 / 2 * sqrtR (x * x + y * y)))).toNat

/-- SINCOS_SAMPLE: the converters sample AN_SIN and AN_COS at the next 400 cyc grid point (07 R262, R263). -/
def sincosSample (sin cos : BitVec 16) (s : State) : State :=
  let t := s.fb.gridFrom + (s.time.tb - s.fb.gridFrom + 399) / 400 * 400
  if !s.on R.FB_CTL_EN ∨ s.time.tbLast + s.period ≤ t then s
  else
    let s : State := { s with time := { s.time with tb := t } }
    let x := grid ((ofFix 15 sin.toInt - s.rdQ R.FB_SC_OFS_SIN 15) * s.rdU R.FB_SC_GAIN_SIN 15)
    let y := grid ((ofFix 15 cos.toInt - s.rdQ R.FB_SC_OFS_COS 15) * s.rdU R.FB_SC_GAIN_COS 15)
    let amp := sampleAmp x y
    let bad := ampBad amp (s.rd R.FB_SC_AWIN_AMIN) (s.rd R.FB_SC_AWIN_AMAX)
    let s := (s.wr R.FB_SC_STAT_AMP amp).setFsrc 2 (fun x => { x with badAmp := if bad then x.badAmp + 1 else 0 })
    let s := if 4 ≤ (s.fsrc 2).badAmp then s.wr R.FB_SC_STAT_AMPERR 1 else s
    let f := (toFix 12 (angleTurn y x)) % 4096
    let qf := f / 1024
    let d := (qf - s.fb.qc) % 4
    let s :=
      if d = 2 then
        let s := s.setFsrc 2 (fun x => { x with badRun := x.badRun + 1 })
        if 3 ≤ (s.fsrc 2).badRun then s.wr R.FB_SC_STAT_QUADERR 1 else s
      else
        let before := (s.fsrc 2).posx
        let posx := 1024 * (s.fb.qc + (if d = 3 then -1 else d) - qf) + f
        let s := fbSample 2 posx (ofFix 12 f) t (s.setFsrc 2 (fun x => { x with badRun := 0 }))
        let s := if s.fbIdx = 2 ∧ diff48 posx before ≠ 0 then fbDirection (0 < diff48 posx before) before s else s
        emuTrack (indexMissIfDue s)
    fbLoseIfDue 2 s

/-- The next sampling instant of the resolver at or after a time, and whether it lies at a negative peak (07 R264). -/
def State.resolverPeak (s : State) (t : Nat) : Nat × Bool :=
  let e := s.rd R.FB_RS_CFG_EXCDIV
  let p := s.fb.gridFrom + e / 4 + s.rd R.FB_RS_EXC_PHASE
  let n := if t ≤ p then 0 else (2 * (t - p) + e - 1) / e
  (p + n * e / 2, n % 2 == 1)

/-- The excitation output EXC_P − EXC_N at a TB, in V (07 R264): a sine of FB.RS_EXC.AMPL peak whose rising zero crossings lie EXCDIV
apart; none without EN. -/
def State.excitation (s : State) (t : Nat) : Rat :=
  if !s.on R.FB_CTL_EN then 0
  else s.rdU R.FB_RS_EXC_AMPL 4 * sinTurn (divR (t - s.fb.gridFrom : Nat) (s.rd R.FB_RS_CFG_EXCDIV : Nat))

/-- RESOLVER_SAMPLE: the windings are sampled at the next excitation peak; whether the excitation output is sound (07 R264, R265). -/
def resolverSample (sin cos : BitVec 16) (excOk : Bool) (s : State) : State :=
  let pk := s.resolverPeak s.time.tb
  if !s.on R.FB_CTL_EN ∨ s.time.tbLast + s.period ≤ pk.1 then s
  else
    let s : State := { s with time := { s.time with tb := max s.time.tb pk.1 } }
    let sg : Rat := if pk.2 then -1 else 1
    let x := sg * ofFix 15 sin.toInt
    let y := sg * ofFix 15 cos.toInt
    let amp := sampleAmp x y
    let bad := ampBad amp (s.rd R.FB_RS_AWIN_AMIN) (s.rd R.FB_RS_AWIN_AMAX)
    let s := (s.wr R.FB_RS_STAT_AMP amp).setFsrc 3 (fun x => { x with badAmp := if bad then x.badAmp + 1 else 0 })
    let s := if 4 ≤ (s.fsrc 3).badAmp then s.wr R.FB_RS_STAT_AMPERR 1 else s
    let s := s.wr R.FB_RS_STAT_EXCFAULT (b2n (!excOk))
    let ang := ((toFix 16 (angleTurn y x)) % 65536).toNat
    let o := s.fsrc 3
    let posx : Int := if o.first then o.posx + modDiff 16 ang o.raw else ang
    let s := fbSample 3 posx (ofFix 16 ang) pk.1 (s.setFsrc 3 (fun x => { x with raw := ang }))
    emuTrack (fbLoseIfDue 3 s)

/-- Gray decoding of a number of `n` bits, from the most significant bit. -/
def grayDecode : Nat → Nat → Nat → Nat
  | 0, _, _ => 0
  | n + 1, g, prev =>
    let b := (bitOf g n + prev) % 2
    b * 2 ^ n + grayDecode n g b

/-- The number that bits spell, most significant first. -/
def ofBitsMSB (bs : List Bool) : Nat := bs.foldl (fun x b => 2 * x + b2n b) 0

/-- The length of an SSI frame in cyc (07 R266). -/
def State.ssiLength (s : State) : Nat :=
  (s.rd R.FB_SSI_CFG_BITS + 1 + s.rd R.FB_SSI_CFG_ERRBIT + s.rd R.FB_SSI_CFG_PARITY) * 2 * max 50 (s.rd R.FB_SSI_CFG_CLKDIV)

/-- A bad SSI frame (07 R267). -/
def ssiBad (s : State) : State :=
  fbLoseIfDue 4 ((s.inc R.FB_SSI_ERRCNT).setFsrc 4 (fun x => { x with badRun := x.badRun + 1 }))

/-- SSI_FRAME: the frame clocked FB.SSI_LEAD cyc before the boundary, its bits in the order read: start, data from the most significant
bit, error, parity (07 R266, R267). -/
def ssiFrame (bits : List Bool) (s : State) : State :=
  if !s.on R.FB_CTL_EN then s
  else
    let lead := s.rd R.FB_SSI_LEAD
    let s := s.advanceTo (s.period - lead)
    let t := s.time.tbLast + s.period - lead
    let n := s.rd R.FB_SSI_CFG_BITS
    let late := lead < s.ssiLength + 40
    let dat := (bits.drop 1).take n
    let rest := bits.drop (1 + n)
    let err := s.on R.FB_SSI_CFG_ERRBIT && !(rest.headD false)
    let par := s.on R.FB_SSI_CFG_PARITY &&
      ((rest.drop (s.rd R.FB_SSI_CFG_ERRBIT)).headD false != (dat.foldl (fun x b => x != b) false))
    let framed := bits.headD false && dat.length == n && !err && !par
    if late then ssiBad (s.wr R.FB_SSI_STAT_LATE 1)
    else if !framed then ssiBad (s.wr R.FB_SSI_STAT_FRAMEERR 1)
    else
      let g := ofBitsMSB dat
      let v := if s.on R.FB_SSI_CFG_GRAY then grayDecode n g 0 else g
      let x := s.fsrc 4
      let d : Int := modDiff n v x.raw
      let travel : Rat := s.omegaM / (2 * piR) * (s.cprOf 4 : Nat) * ((t - x.stamp : Nat) : Rat) / 400000000
      if x.first ∧ (s.rd R.FB_SSI_JMAX : Rat) < absR ((d : Rat) - travel) then ssiBad (s.wr R.FB_SSI_STAT_JUMP 1)
      else
        let posx : Int := if x.first then x.posx + d else v
        let st := v % 2 ^ s.rd R.FB_SSI_CFG_STBITS
        let s := s.setFsrc 4 (fun x => { x with raw := v, badRun := 0 })
        emuTrack (fbSample 4 posx (divR (st : Nat) (s.cprOf 4 : Nat)) t s)

/-! ### Halls (07 R268) -/

/-- HALL_TRANSITION: an accepted change of the Hall inputs, stamped FILT earlier (07 R268). -/
def hallTransition (code : Fin 8) (s : State) : State :=
  let s := s.wr R.FB_HALL_STAT_STATE code.val
  if !s.on R.FB_CTL_EN then s
  else hallTake code.val (s.time.tb - s.rd R.FB_HALL_CFG_FILT) s

/-- HALL_TIMEOUT: no transition for TMO ms: the sector centre, and no speed (07 R268). -/
def hallTimeoutIfDue (s : State) : State :=
  let h := s.fb.hall
  if s.on R.FB_CTL_EN ∧ !h.stopped ∧ h.tEdge + msCyc (s.rd R.FB_HALL_CFG_TMO) ≤ s.time.tb then
    { s with fb := { s.fb with hall := { h with stopped := true, gap := none, dir := 0, thEdge := ((h.sector : Nat) + 1 / 2 : Rat) / 6 } } }
  else s

/-- The electrical Hall angle at a time, before CF_THOFS (07 R268). -/
def State.hallAngle (s : State) (t : Nat) : Rat :=
  let h := s.fb.hall
  let lo : Rat := (h.sector : Nat) / 6
  let run : Rat := match h.gap with
    | some g => if g = 0 then 0 else ((t - h.tEdge : Nat) : Rat) / 6 / (g : Nat)
    | none => 0
  clampR lo (lo + 1 / 6) (h.thEdge + h.dir * run) + s.rdU R.FB_HALL_OFS 32

/-! ### The latch at the boundary (07 R250–R252, R269–R273) -/

/-- The fractional part of a number of turns. -/
def fracTurn (x : Rat) : Rat := x - x.floor

/-- The sample of a source that is in use at a boundary: POSX, angle, instant (07 R252). -/
def State.sampleInUse (s : State) (code : Nat) : Int × Rat × Nat :=
  let x := s.fsrc code
  let lead := if code = 2 then 360 else if code = 3 then 400 else 0
  match x.older with
  | some o => if x.stamp + lead ≤ s.time.tbLast then (x.posx, x.angle, x.stamp) else o
  | none => (x.posx, x.angle, x.stamp)

/-- θ_s of a source at a boundary, in turns (07 R251, R252). -/
def State.sourceAngle (s : State) (code : Nat) : Rat :=
  let u := s.sampleInUse code
  let c : Rat := (s.cprOf code : Nat)
  let corr : Int := if code = s.fbIdx then s.rdI R.FB_POSCORR - s.fb.abz.angref else 0
  let age : Rat := s.fb.omega / (2 * piR) * ((s.time.tbLast - u.2.2 : Nat) : Rat) / 400000000
  let pp : Rat := max 1 (s.rd R.LN_CF_MACH_PP)
  match code with
  | 1 => fracTurn (divR (((s.fsrc 1).posx + corr : Int) : Rat) c)
  | 2 => fracTurn (divR ((u.1 + corr : Int) : Rat) c + age)
  | 3 => fracTurn (divR (u.1 : Rat) c + s.rdU R.FB_RS_OFS 32 + age)
  | 4 => fracTurn (u.2.1 + s.rdU R.FB_SSI_OFS 32 + age)
  | 5 =>
    let j := (s.fsrc 5).posx / 6
    fracTurn (grid (((j : Rat) + s.hallAngle s.time.tbLast - s.rdU R.LN_CF_THOFS 32) / pp))
  | _ => 0

/-- FB.SPD.WIN as it acts (07 R277). -/
def State.fbWin (s : State) : Nat :=
  let w := s.rd R.FB_SPD_WIN
  if w = 0 ∨ 16 < w then 16 else w

/-- A speed from counts over cyc, rad/s. -/
def speedOf (counts : Int) (cpr cyc : Nat) : Rat :=
  if cyc = 0 ∨ cpr = 0 then 0 else grid ((counts : Rat) * 2 * piR / (cpr : Nat) / ((cyc : Nat) : Rat) * 400000000)

/-- ωm of ABZ (07 R272). -/
def State.abzSpeed (s : State) : Rat :=
  let a := s.fb.abz
  let cpr := s.cprOf 1
  match a.lead with
  | none => 0
  | some k =>
    let fresh := a.leadHist.headD none != some k
    let bound := speedOf 1 cpr (s.time.tbLast - k.2)
    if !fresh then signR s.fb.omega * (if s.time.tbLast = k.2 then absR s.fb.omega else minR (absR s.fb.omega) bound)
    else
      let w := (a.leadHist[s.fbWin - 1]?).getD ((a.leadHist.getLast?).getD none)
      let ref := match w, a.rev with
        | some r, some v => some (if r.2 < v.2 then v else r)
        | none, v => v
        | r, none => r
      match ref with
      | none => s.fb.omega
      | some r => if k.2 = r.2 then s.fb.omega else speedOf (diff48 k.1 r.1) cpr (k.2 - r.2)

/-- ωm of the operating source (07 R272, R273). -/
def State.sourceSpeed (s : State) (code : Nat) : Rat :=
  if code = 1 then s.abzSpeed
  else if code = 5 then
    (match s.fb.hall.gap with
      | some g => if s.fb.hall.stopped then 0 else s.fb.hall.dir * speedOf 1 (6 * max 1 (s.rd R.LN_CF_MACH_PP)) g
      | none => 0)
  else
    let x := s.fsrc code
    let u := s.sampleInUse code
    match (x.hist[s.fbWin - 1]?).or x.hist.getLast? with
    | none => s.fb.omega
    | some r => if u.2.2 ≤ r.2 then s.fb.omega else speedOf (diff48 u.1 r.1) (s.cprOf code) (u.2.2 - r.2)

/-- The latched registers (07 R250). -/
def fbPost (theta omega : Rat) (pos : Int) (s : State) : State :=
  let s := (s.wr R.FB_THETA (wrapTo 32 (toFix 32 theta))).postQ R.FB_OMEGA 16 omega
  { s with fb := { s.fb with theta := theta, omega := s.rdQ R.FB_OMEGA 16, pos := wrapTo 48 pos } }

/-- The gates are on: some phase channel's GATE_EN is high (07 R269). -/
def State.gatesOn (s : State) : Bool := (List.range 6).any (fun c => (s.gch c).drive)

/-- The latched values of a boundary: from the operating source, or extrapolated where it is lost (07 R250, R269). -/
def fbLatch (s : State) : State :=
  if s.fb.lost then
    if s.gatesOn then
      let t := s.tSecond
      let d := s.fb.omega * t / (2 * piR)
      let fine := s.fb.posFine + d * (s.cprOf s.fbPri : Nat)
      fbPost (fracTurn (s.fb.theta + grid d)) s.fb.omega fine.floor { s with fb := { s.fb with posFine := grid fine } }
    else s
  else
    let op := s.fbOp
    let s := fbPost (s.sourceAngle op) (s.sourceSpeed op) s.pfbLive s
    { s with fb := { s.fb with posFine := (s.pfb : Rat) } }

/-- The histories that the speed windows read, after a boundary (07 R272, R273). -/
def fbHistories (s : State) : State :=
  let s := [2, 3, 4].foldl (fun s c =>
    let u := s.sampleInUse c
    s.setFsrc c (fun x => if x.first then { x with hist := ((u.1, u.2.2) :: x.hist).take 16 } else x)) s
  s.setAbz (fun z => { z with leadHist := (z.lead :: z.leadHist).take 16, illTick := 0 })

/-- VALID and its conditions over a boundary (07 R248). -/
def fbValidity (s : State) : State :=
  let h := s.fb.hall
  let s : State := { s with fb := { s.fb with hall := { h with invalidTicks := if h.invalid then h.invalidTicks + 1 else 0 } } }
  [1, 2, 3, 4, 5].foldl (fun s c =>
    if s.fbCond c then fbLose c s
    else sourceValidIfDue c (s.setFsrc c (fun x => { x with calm := x.calm + 1 }))) s

/-- p_fb as a lost source is extrapolated to a boundary: with the gates on it advances with θm, else it holds (07 R269). -/
def State.lostPos (s : State) : Int :=
  if s.gatesOn then (s.fb.posFine + s.fb.omega * s.tSecond / (2 * piR) * (s.cprOf s.fbPri : Nat)).floor else s.pfb

/-- OPERATING_SOURCE_CHANGE: the change that a boundary brings (07 R249, R261, R269–R271, R274), by what the tick before it has raised. -/
def fbChange (lossPend : Bool) (want : Option Nat) (s : State) : State :=
  let op := s.fbOp
  let pri := s.fbPri
  let sec := s.fbSec
  let pos := if s.fb.lost then s.lostPos else s.pfbLive
  if lossPend then
    let ok := (s.fsrc op).valid
    let pos := if ok then pos else s.lostPos
    if s.fbSecOk ∧ sec ≠ op then fbSwitch sec 2 pos s
    else if ok then s else { s with fb := { s.fb with lost := true } }
  else if s.fb.lost ∧ (s.fsrc op).valid then fbSwitch op (s.rd R.FB_STAT_WHY) pos s
  else match want with
    | some 3 =>
      if sec = op then s else if s.fbSecOk then (fbSwitch sec 3 pos s).event Ev.FB_SWITCH 16 else s.cause 13 16 2 op
    | some 0 => if op ≠ pri ∧ s.fbPriOk then fbSwitch pri 0 pos s else s
    | some w => if s.fbSecOk ∧ sec ≠ op then fbSwitch sec w pos s else s
    | none => if s.rd R.FB_STAT_WHY = 1 ∧ s.fbPriOk ∧ s.sub ≠ 5 ∧ op ≠ pri then fbSwitch pri 0 pos s else s

/-- The speed windows start anew at a boundary that has changed the operating source (07 R273). -/
def fbRestartIfDue (s : State) : State := if s.fb.winFrom = s.time.tb then fbWindowRestart s else s

/-- FEEDBACK_LATCH: the feedback block's part of a tick boundary (07 R250). -/
def feedbackBoundary (s : State) : State :=
  if !s.on R.FB_CTL_EN then s
  else
    let lossPend := s.fb.lossPend
    let want := s.fb.change
    let s : State := { s with fb := { s.fb with change := none, lossPend := false } }
    let s := fbStatus (fbValidity (hallTimeoutIfDue (indexMissIfDue (fbCorrections s))))
    let s : State := { s with fb := { s.fb with prioRun := if s.on R.FB_STAT_PRIOK then s.fb.prioRun + 1 else 0 } }
    lateEdges (emuTrack (fbHistories (fbRestartIfDue (fbLatch (fbChange lossPend want s)))))

/-- The operating source changes at once, at a boundary whose values have been latched (07 R195, R249): the values are latched
again. -/
def fbSwitchNow (code why : Nat) (s : State) : State :=
  if code = s.fbOp ∨ code = 0 then s.wr R.FB_STAT_WHY why else fbRestartIfDue (fbLatch (fbSwitch code why s.pfb s))

end Sys2Proof.Machine
end

