-- ==== Sys2Proof/Machine/Gate.lean ====
section
/-! DEFINITION. Gate drive and power-stage protection (06): GLINK frames and events, clock discipline, staging and
arming, edge execution, permits, desaturation, lockout, bootstrap refresh, latches, off-state diagnostics, telemetry. -/

namespace Sys2Proof.Machine

/-! ### Drive state changes (05 R183) -/

/-- Bytes 16–26 of DRIVE_STATE (05 R183): the old STATE, MODE and SUB, the new ones, CAUSE, TICKNO
(the order is DEDUCED; assumption log 11). -/
def driveEventData (a b : State) : List Byte :=
  bytesLE 1 (a.rd R.LN_MD_STAT_STATE) ++ bytesLE 1 (a.rd R.LN_MD_STAT_MODE) ++ bytesLE 1 (a.rd R.LN_MD_STAT_SUB)
    ++ bytesLE 1 (b.rd R.LN_MD_STAT_STATE) ++ bytesLE 1 (b.rd R.LN_MD_STAT_MODE) ++ bytesLE 1 (b.rd R.LN_MD_STAT_SUB)
    ++ bytesLE 1 (b.rd R.LN_MD_STAT_CAUSE) ++ bytesLE 4 b.tickno

/-- The event DRIVE_STATE where the state, mode or sub-mode differs from what it was (05 R183). -/
def State.driveEvent (b : State) (a : State) : State :=
  if a.drive = b.drive ∧ a.rd R.LN_MD_STAT_MODE = b.rd R.LN_MD_STAT_MODE ∧ a.sub = b.sub then b
  else b.event Ev.DRIVE_STATE 15 (driveEventData a b)

/-- A request of the sequencer completes: LN.MD_RES takes the result and the firmware is told (05 R184, R211). -/
def State.reqDone (s : State) (code result : Nat) : State :=
  let s := s.wr R.LN_MD_RES_RESULT result
  { s with seq := { s.seq with done := s.seq.done ++ [(code, result)] } }

/-- A standby of an ACTIVE-STANDBY pair (09 R334), or one that waits for the stage (R335). -/
def State.isStandby (s : State) : Bool := s.rd R.PM_CFG_CONF == 2 && (s.rd R.PM_STAT_PSTATE == 2 || s.pm.waitOwn)

/-- Whether a write of PW.CTL.RUN = 1 is refused (03 R124). -/
def State.runRefused (s : State) : Bool :=
  decide (s.period ≤ s.rd R.PW_CARRIER_ORIGIN) || decide (s.rd R.PW_CARRIER_K ≤ s.rd R.PW_PHASE)
    || decide (s.tc < 2 * s.rd R.PW_DT + 2 * s.rd R.PW_MINPULSE) || !s.rolesForGates

/-- PW.CTL.RUN is written (03 R123, R124); when it is set, TC goes to every PX-G by CONFIG (06 R219). -/
def State.runSet (s : State) (run : Bool) : State :=
  if !run then s.wr R.PW_CTL_RUN 0
  else if s.runRefused then s.wr R.PW_STAT_CFGERR 1
  else { s.wr R.PW_CTL_RUN 1 with gd.ch := s.gd.ch.map (fun g => { g with config := g.config ++ [(.tc s.tc, 0)] }) }

/-- The sequencer's write of PW.CTL.RUN (05 R185): a write like any other (03 R124) where the bit changes. -/
def State.runOrder (s : State) (run : Bool) : State := if s.on R.PW_CTL_RUN = run then s else s.runSet run

/-- What a drive state brings with it (05 R185): PW.CTL.RUN, the brake, the phase of the brake sequence, the gates; an entry into RUN
starts 02 R76 anew. -/
def stateEffects (old : Nat) (s : State) : State :=
  let n := s.drive
  let s := s.runOrder (2 ≤ n && n ≤ 5 && !s.isStandby)
  let s : State := if n = 2 then s else { s with gd := { s.gd with preStart := none } }
  let s : State := if n = 3 then s else { s with seq := { s.seq with flyStart := false, resume := false } }
  let s : State := if n = 3 ∧ old ≠ 3 then { s with ln := { s.ln with tasks := s.ln.tasks.map (fun t => { t with everValid := false }) } }
    else s
  let s := if n ≤ 2 ∨ n = 6 ∨ (n = 5 ∧ s.on R.LN_MD_CFG_BRAKE) then s.brakeSet else s
  let s : State := if n = 3 ∨ n = 4 then s else (fun s : State => { s with seq := { s.seq with taperAt := none, entryAt := none } }) (s.brakePhase 5)
  s.gateRefresh

/-- STATE, SUB, CAUSE and DEMAND change together; MODE reads 6 while SUB is not 0, and PREV keeps the mode before it (05 R191). -/
def enter (state sub cause : Nat) (demand : Bool) (s : State) : State :=
  let a := s
  let mode := s.rd R.LN_MD_STAT_MODE
  let s := if sub ≠ 0 ∧ a.sub = 0 then (s.wr R.LN_MD_STAT_PREV mode).wr R.LN_MD_STAT_MODE 6
    else if sub = 0 ∧ a.sub ≠ 0 then s.wr R.LN_MD_STAT_MODE (s.rd R.LN_MD_STAT_PREV) else s
  let s := (((s.wr R.LN_MD_STAT_STATE state).wr R.LN_MD_STAT_SUB sub).wr R.LN_MD_STAT_CAUSE cause).wr R.LN_MD_STAT_DEMAND (b2n demand)
  (stateEffects a.drive s).driveEvent a

/-! ### Edge words (03 R132) -/

/-- An edge word from its time in eighths of a cyc after CSTART and its level. -/
def edgeWord (level : Bool) (eighths : Nat) : Word :=
  BitVec.ofNat 32 (2 ^ 31 + b2n level * 2 ^ 30 + eighths % 2 ^ 23)

/-- The VALID bit of an edge word. -/
def edgeValid (w : Word) : Bool := testB w.toNat 31

/-- The LEVEL bit of an edge word. -/
def edgeLevel (w : Word) : Bool := testB w.toNat 30

/-- OFFSET and FINE of an edge word, in eighths of a cyc. -/
def edgeTime (w : Word) : Nat := w.toNat % 2 ^ 23

/-- The instant of an edge of a block at its PX-G, in eighths of a cyc of TB: CSTART + OFFSET + FINE / 8, less the
booster advance that the PX-G holds (06 R220, R242). -/
def State.edgeInstant (s : State) (c : Nat) (b : EdgeBlock) (w : Word) : Nat :=
  let v := (s.gch c).boost
  b.cstart * 8 + edgeTime w - (if (R.GD_CHc_BOOST_EN c).get v = 1 then (R.GD_CHc_BOOST_DLY c).get v else 0)

/-- The index of an edge in its block (06 R244): 0–3 as in the schedule, from 4 on for the edges of a refresh pulse (DESIGN CHOICE,
assumption log 54). -/
def EdgeBlock.index (b : EdgeBlock) (k : Nat) : Nat := if k < b.pre then 4 + k else k - b.pre

/-- The partner of a phase channel on its leg. -/
def partner (c : Nat) : Nat := if c % 2 = 0 then c + 1 else c - 1

/-! ### Telemetry (06 R244) -/

/-- A telemetry record handed to the uplink: KIND, CSEQ[7:0] and DATA. -/
def State.telRecord (s : State) (c kind cseq : Nat) (data : List Byte) : State :=
  s.setGch c (fun g => { g with tel := g.tel ++ [(kind, cseq % 256, padTo 8 data)] })

/-- CSEQ[7:0] of a record extended to the 16-bit value nearest to PW.CSEQ (06 R244). -/
def extendCseq (low now : Nat) : Nat :=
  wrapTo 16 ((now : Int) + modDiff 8 low (now % 256))

/-- TEL: the oldest record on its way arrives, is stamped and pushed to its queue; one that fails its check is
discarded and counted (06 R214, R244). A PERIODIC record renews GD.CHc_RAIL and the die temperature (14 R442). -/
def telArrives (c : Nat) (ok : Bool) (s : State) : State :=
  match (s.gch c).tel with
  | [] => s
  | (kind, cseq, data) :: rest =>
    let s := s.setGch c (fun g => { g with tel := rest })
    if !ok then s.inc (R.GD_CHc_LINKERR c)
    else
      let seq := if kind = 1 then 0 else extendCseq cseq (s.rd R.PW_CSEQ % 2 ^ 16)
      let s := s.qPush (42 + c) (bytesLE 1 kind ++ bytesLE 1 c ++ bytesLE 2 seq ++ bytesLE 4 s.tickno ++ data)
      if kind = 1 then
        let s : State := { s with th := { s.th with
          pxg := s.th.pxg.mapFinIdx (fun i x _ => if i = c then some (fieldLE data 4 2, s.time.tb) else x) } }
        (s.wr (R.GD_CHc_RAIL_POS c) (fieldLE data 0 2)).wr (R.GD_CHc_RAIL_NEG c) (fieldLE data 2 2)
      else s

/-- The interval of the PERIODIC records of a channel in cyc: GD.TELPER, and at most 1,000 µs while its sensor is on the fast rate (06
R244; 14 R443). -/
def State.telPeriod (s : State) (c : Nat) : Nat :=
  let t := usCyc (s.rd R.GD_TELPER)
  if s.bit R.TH_RATE_FAST (c + 1) then min t (usCyc 1000) else t

/-- PERIODIC: every GD.TELPER µs a record of the rails, the die temperature and SYNCERR is handed to the uplink (06 R244). -/
def periodicRecord (c : Nat) (pos neg temp : BitVec 16) (s : State) : State :=
  let due := match (s.gch c).telAt with
    | some t => decide (t + s.telPeriod c ≤ s.time.tb)
    | none => true
  if !due then s
  else
    (s.setGch c (fun g => { g with telAt := some s.time.tb })).telRecord c 1 0 (bytesLE 2 pos.toNat ++ bytesLE 2 neg.toNat
      ++ bytesLE 2 temp.toNat ++ bytesLE 2 (wrapTo 16 (s.gch c).ltbErr))

/-! ### Latches (06 R237) -/

/-- The eight latch bits of GD.CHc_STAT as one field. -/
abbrev latchField (c : Nat) : Fld := ⟨(R.GD_CHc_STAT_UVLOP c).addr, 7, 0⟩

/-- A turn-off starts: the gate sinks at SNKSTEP as the PX-G holds it (06 R221, R223), or goes on at SOFTSTEP (R238). -/
def GdChan.turnOff (g : GdChan) : GdChan :=
  { g with
    on := false
    drvStep := if g.on then (R.GD_CHc_CFG0_SNKSTEP 0).get g.cfg0 else g.drvStep }

/-- A refresh pulse on a leg ends unreported (06 R238): its carrier's edges do not act any more, and a leg in the pulse goes off. -/
def pulseEnd (l : Nat) (s : State) : State :=
  match (s.gleg l).pulse, (s.gleg l).pulseAt with
  | some _, some t =>
    let off (g : GdChan) : GdChan :=
      { (if t ≤ s.time.tb then g.turnOff else g) with
        waitOn := none
        acted := if (g.armed.head?).any (fun b => b.cstart == t) then 0 else g.acted
        armed := g.armed.filter (fun b => b.cstart != t) }
    ((s.setGch (2 * l) off).setGch (2 * l + 1) off).setGleg l (fun g => { g with pulse := none })
  | _, _ => s

/-- A PX-G turns its channel off and discards its blocks (06 R220, R237); a refresh pulse on the leg ends unreported (R238). -/
def pxgDiscard (s : State) (c : Nat) : State :=
  let s := s.setGch c (fun g => { g.turnOff with
    staged := none, armed := [], lastArmed := none, acted := 0, waitOn := none, ascWait := false, dropPulse := false })
  if c < 6 then pulseEnd (c / 2) s else s

/-- The Signal Box sends OFFCMD to a channel (06 R216); `shoot` for a leg with both channels on (R227). -/
def sendOff (shoot : Bool) (s : State) (c : Nat) : State :=
  s.setGch c (fun g => { g with offTx := some (shoot || g.offTx == some true), offTxAt := s.time.tb })

/-- The Signal Box sends OFFCMD to the leg partner of a channel in lockout, except for a high side in E-ASC (06 R236). -/
def lockoutPartner (c : Nat) (s : State) : State :=
  if c < 6 ∧ ¬(s.sub = 3 ∧ c % 2 = 0) then sendOff false s (partner c) else s

/-- The event GATE_LATCH of a channel (06 R237; 15 R543). -/
def latchEvent (c : Nat) (s : State) : State :=
  s.event Ev.GATE_LATCH 0 (bytesLE 1 10 ++ bytesLE 1 s.drive ++ bytesLE 1 s.sub ++ bytesLE 1 c ++ bytesLE 4 (s.gch c).latch)

/-- What PX-C does about latches that a channel reports (06 R237): each is reported as GATE_LATCH; OFFCMD, whose cause the Signal Box has
raised itself, by the event alone (DEDUCED, assumption log 12); on GK the cause is CHOPPER_FAULT (05 R203, R206, R208); in E-ASC a lockout
of a high side is an alarm only (05 R210). -/
def latchCauses (c new : Nat) (s : State) : State :=
  if new = 0 then s
  else if new &&& 0xEF = 0 then latchEvent c s
  else if c = 6 then
    let s := latchEvent c s
    if s.on R.LN_MD_CFG_CHEN then
      if testB new 2 then s.cause 9 0 1 s.vdcRaw
      else let d := s.drawBits 8; d.2.cause 9 0 d.1 s.vdcRaw
    else s
  else if s.sub = 3 ∧ c % 2 = 0 ∧ new &&& 0xEC = 0 then latchEvent c s
  else s.cause 10 0 c (s.gch c).latch

/-- PX-C takes a channel's latches, BSWARN and LOCK, as a STATUS brings them (06 R213): the registers follow, new latches are answered, a
lockout by OFFCMD to the leg partner (R236). -/
def statusReport (s : State) (c : Nat) : State :=
  let g := s.gch c
  let s := s.setGch c (fun g => { g with news := 0 })
  let s := s.wr (latchField c) g.latch
  let s := s.wrBit R.GD_STAT_LATCH c (g.latch != 0)
  let s := (s.wr (R.GD_CHc_STAT_LOCK c) (b2n g.lock)).wrBit R.GD_STAT_LOCK c g.lock
  let s := if c < 6 ∧ c % 2 = 0 then
      let w := (s.gleg (c / 2)).bswarn
      let s := s.setGleg (c / 2) (fun l => { l with warnAt := if w ∧ !s.on (R.GD_CHc_STAT_BSWARN c) then s.time.tb else l.warnAt })
      (s.wr (R.GD_CHc_STAT_BSWARN c) (b2n w)).wrBit R.GD_STAT_BSWARN (c / 2) w
    else s
  latchCauses c g.news (if g.news &&& 3 = 0 then s else lockoutPartner c s)

/-- A latch sets at a PX-G: the channel is held off and its blocks are discarded (06 R220); the next STATUS reports it (R213). -/
def pxgLatch (s : State) (c bit : Nat) : State :=
  (pxgDiscard s c).setGch c (fun g => { g with latch := g.latch ||| 2 ^ bit, news := g.news ||| 2 ^ bit })

/-- The LATCH record of a channel (06 R244): its latch bits and the gate-emitter voltage, which is measured outside
the model (an open value). -/
def latchRecord (s : State) (c : Nat) : State :=
  let d := s.drawBits 16
  d.2.telRecord c 2 (d.2.rd R.PW_CSEQ) (bytesLE 1 (d.2.gch c).latch ++ bytesLE 2 d.1)

/-- OFFCMD: the gate-off command reaches a PX-G, which latches it, and SHOOT_ATTEMPT where it answers R227 (06 R216, R237). -/
def offcmd (c : Nat) (s : State) : State :=
  let shoot := (s.gch c).offTx == some true
  let s := pxgLatch (s.setGch c (fun g => { g with offTx := none })) c 4
  if shoot then pxgLatch s c 3 else s

/-- STATUS: the frame arrives and renews PX-C's view, or fails its check (06 R213, R214). -/
def statusArrives (c : Nat) (ok : Bool) (s : State) : State :=
  if ok then statusReport s c else s.inc (R.GD_CHc_LINKERR c)

/-- LINK_LATCH: no valid symbol for 64 symbol periods: on the downlink the PX-G turns off and latches LINK, which its next STATUS reports; on
the uplink PX-C takes it as latch LINK of the channel itself (06 R214). -/
def linkLatch (c : Nat) (uplink : Bool) (s : State) : State :=
  let s := pxgLatch (s.setGch c (fun g => { g with link := false, present := g.present ||| 2 ^ 5 })) c 5
  if uplink then statusReport s c else s

/-! ### The downlink (06 R215) -/

/-- Whether a span of the lane that begins at `at`, where it has begun, takes in an instant. -/
def laneSpan (start : Option Nat) (len t : Nat) : Bool :=
  match start with
  | some a => decide (a ≤ t ∧ t < a + len)
  | none => false

/-- Whether a frame of `len` cyc that arrives now can have started when it must have, `len` and 20 cyc of isolator and decode ago (R219):
STAGE, COMMIT and REFRESH go before it, and `sync` tells whether SYNC does too; in the 200 cyc before LIMSHARE's substitution point of a
commit tick only STAGE and COMMIT start (06 R215). -/
def State.frameFits (s : State) (c len : Nat) (sync : Bool) : Bool :=
  let t := s.time.tb - (len + 20)
  let sub := s.time.tbLast + (s.taskSlot 3).1 + (s.taskSlot 3).2
  !laneSpan s.gd.stageAt 500 t && !laneSpan s.gd.commitAt 76 t && !(c < 6 && laneSpan (s.gleg (c / 2)).frameAt 160 t)
    && !(sync && laneSpan (s.gch c).syncAt 160 t) && !(s.commitTick && decide (sub ≤ t + 200 ∧ t < sub))

/-! ### CONFIG (06 R214, R217, R219, R221, R223) -/

/-- The values of a CONFIG word that R221 refuses. -/
def configRefused (off w : Nat) : Bool :=
  if off = 0 then 10 < bitsOf w 31 28 || 14 < bitsOf w 27 24
  else if off = 4 then 12 < bitsOf w 27 24 || bitsOf w 22 16 < 5 || 80 < bitsOf w 22 16 || 14 < bitsOf w 11 8
  else false

/-- The bits of a CONFIG word that may change while GATE_EN is high: SRCSTEP and SNKSTEP (06 R223). -/
def configLive (off : Nat) : Word := if off = 0 then 0x001F1F00 else 0

/-- GD.CHc_STAT.CFGPEND: a register's CONFIG waits for its ACK (06 R223). -/
def State.configPending (s : State) (c : Nat) : State :=
  s.wr (R.GD_CHc_STAT_CFGPEND c) (b2n ((s.gch c).config.any (fun x => match x.1 with
    | .word _ _ => true
    | _ => false)))

/-- PX-C has something to send by CONFIG (06 R217, R219, R223). -/
def configSend (c : Nat) (x : GdItem) (s : State) : State :=
  (s.setGch c (fun g => { g with config := g.config ++ [(x, 0)] })).configPending c

/-- A write of GD.CHc_CFG0, CFG1 or BOOST goes out as a CONFIG frame (06 R223, R245). -/
def configWrite (c a : Nat) (v : Word) (s : State) : State := configSend c (.word a (v &&& accessMask a .rw)) s

/-- What a CONFIG does at its PX-G: the channel after it, and whether it was applied (06 R221, R223). -/
def GdChan.configure (g : GdChan) (c : Nat) : GdItem → GdChan × Bool
  | .delay n => ({ g with oneWay := n }, true)
  | .tc n => ({ g with tc := n }, true)
  | .word a v =>
    let off := a - (R.GD_CHc_CFG0_VON c).addr
    let old := if off = 0 then g.cfg0 else if off = 4 then g.cfg1 else g.boost
    if configRefused off v.toNat || (((old ^^^ v) &&& ~~~(configLive off)) != 0 && g.en) then (g, false)
    else (if off = 0 then { g with cfg0 := v } else if off = 4 then { g with cfg1 := v } else { g with boost := v }, true)

/-- GLINK_CONFIG: the oldest CONFIG reaches the PX-G, which applies or refuses it and answers with an ACK (06 R213,
R223); one that fails its check is discarded and counted (R214). -/
def glinkConfig (c : Nat) (ok : Bool) (s : State) : State :=
  match (s.gch c).config with
  | [] => s
  | x :: _ =>
    if !s.frameFits c 160 true then s
    else if !ok then s.inc (R.GD_CHc_LINKERR c)
    else s.setGch c (fun g => { (g.configure c x.1).1 with ack := some (g.configure c x.1).2 })

/-- ACK: the answer to the oldest CONFIG arrives (06 R213, R223): the register reads what was applied, a refusal sets
CFGREJ. An ACK that fails its check is lost (R214). -/
def ackArrives (c : Nat) (ok : Bool) (s : State) : State :=
  match (s.gch c).ack, (s.gch c).config with
  | some applied, (x, _) :: rest =>
    let s := s.setGch c (fun g => { g with ack := none })
    if !ok then s.inc (R.GD_CHc_LINKERR c)
    else
      let s := s.setGch c (fun g => { g with config := rest })
      let s := match x with
        | .word a v => if applied then s.setWord (0x40070000 + a % 0x10000) v else s.wr (R.GD_CHc_STAT_CFGREJ c) 1
        | _ => s
      s.configPending c
  | _, _ => if ok then s else s.inc (R.GD_CHc_LINKERR c)

/-- CONFIG_RESEND: a CONFIG without an ACK is resent up to 3 times; after that CFGREJ is set (06 R214). -/
def configResend (c : Nat) (s : State) : State :=
  match (s.gch c).ack, (s.gch c).config with
  | none, (x, n) :: rest =>
    if n < 3 then s.setGch c (fun g => { g with config := (x, n + 1) :: rest })
    else ((s.setGch c (fun g => { g with config := rest })).configPending c).wr (R.GD_CHc_STAT_CFGREJ c) 1
  | _, _ => s

/-! ### Clock discipline (06 R217, R218) -/

/-- GK's PERMIT is high while it is locked (06 R224). -/
def gkPermit (s : State) : State := s.wr (R.GD_CHc_STAT_PERMIT 6) (b2n (s.gch 6).lock)

/-- LOCK sets after 16 consecutive SYNC errors within ±1 ns (06 R218). -/
def lockIfDue (c : Nat) (s : State) : State :=
  let g := s.gch c
  if 16 ≤ g.syncGood ∧ !g.lock then gkPermit (s.setGch c (fun g => { g with lock := true })) else s

/-- A PX-G answers: its link is alive, and it counts as missing no more (17 R531). A link that comes up is measured by LOOP (06 R217). -/
def linkAlive (c : Nat) (s : State) : State :=
  (s.setGch c (fun g => { g with
    link := true
    present := g.present &&& 0xDF
    loopTag := if g.link then g.loopTag else some 0 })).wrBit R.SYS_BOOT_GMISS c false

/-- Eighths of a cyc in ps. -/
def eighthPs (n : Int) : Int := n * 625 / 2

/-- The error of LTB at a SYNC, in ps (06 R217): LTB at its arrival less the one-way delay, compared with the TB in it. -/
def GdChan.syncError (g : GdChan) (flight : Nat) : Int := g.ltb + eighthPs ((flight : Int) - g.oneWay)

/-- LTB since the last SYNC (06 R217): the oscillator's drift, and the part of the error found that the slew has taken out. -/
def GdChan.slewed (g : GdChan) (drift : Int) (taken : Nat) : Int :=
  let part : Int := (min taken g.ltbErr.natAbs : Nat)
  g.ltb + drift - (if 0 ≤ g.ltbErr then part else -part)

/-- The lock counts of a SYNC error; SYNCERR holds it to 16 bits (06 R218, R245). -/
def GdChan.syncCount (g : GdChan) (e : Int) : GdChan :=
  { g with
    ltbErr := clampI (-32768) 32767 e
    syncGood := if -1000 ≤ e ∧ e ≤ 1000 then g.syncGood + 1 else 0
    syncBad := if e < -2000 ∨ 2000 < e then g.syncBad + 1 else 0 }

/-- A SYNC with STEP: the PX-G takes the stepped value, discards its blocks and clears LOCK (06 R218). -/
def syncStep (c flight : Nat) (s : State) : State :=
  gkPermit ((pxgDiscard s c).setGch c (fun g => { g with
    lock := false, syncGood := 0, syncBad := 0, ltbErr := 0, ltb := -(eighthPs ((flight : Int) - g.oneWay)) }))

/-- GLINK_SYNC: a SYNC reaches the PX-G, which compares its LTB with the TB in it; one with STEP sets LTB (06 R217, R218). A locked channel
whose error has exceeded ±2 ns in 3 consecutive SYNCs latches SYNC. -/
def glinkSync (c : Nat) (ok : Bool) (drift : Int) (taken flight : Nat) (s : State) : State :=
  if !s.frameFits c 160 false then s
  else
    let step := (s.gch c).stepTx
    let s := s.setGch c (fun g => { g with stepTx := false, syncAt := some (s.time.tb - 180), ltb := g.slewed drift taken })
    if !ok then s.inc (R.GD_CHc_LINKERR c)
    else
      let s := linkAlive c s
      if step then syncStep c flight s
      else
        let s := s.setGch c (fun g => g.syncCount (g.syncError flight))
        let s := lockIfDue c (s.wr (R.GD_CHc_SYNCERR c) (wrapTo 16 (s.gch c).ltbErr))
        if (s.gch c).lock ∧ 3 ≤ (s.gch c).syncBad then pxgLatch s c 6 else s

/-- GLINK_LOOP: the echo of the LOOP frame that is out gives the round trip in eighths of a cyc; the PX-G is given half of it as its
one-way delay by CONFIG (06 R213, R217). A frame that fails its check gives no tag (R214). -/
def glinkLoop (c : Nat) (tag : Option Byte) (roundTrip : Nat) (s : State) : State :=
  if !s.frameFits c 80 true then s
  else
    match tag with
    | none => s.inc (R.GD_CHc_LINKERR c)
    | some b =>
      let s := linkAlive c s
      if (s.gch c).loopTag = some b.toNat then
        configSend c (.delay (roundTrip / 2)) (s.setGch c (fun g => { g with loopTag := none }))
      else s

/-! ### Staging and arming (06 R219, R220) -/

/-- STAGE: the channel block on its way reaches the PX-G and is held, inert; a frame that fails its check is lost
(06 R214, R219). Blocks are not held while GATE_EN is low or a latch holds the channel (R220). -/
def stageArrives (c : Nat) (ok : Bool) (s : State) : State :=
  match (s.gch c).stageTx with
  | none => s
  | some b =>
    let s := s.setGch c (fun g => { g with stageTx := none })
    if !ok then s.inc (R.GD_CHc_LINKERR c)
    else if (s.gch c).en ∧ (s.gch c).latch = 0 then s.setGch c (fun g => { g with staged := some b }) else s

/-- A late edge counts (03 R134, R135): PW.LATECNT, PW.STAT.LATE, and once per carrier towards EDGE_LATE. -/
def countLate (cseq : Nat) (s : State) : State :=
  let s := (s.inc R.PW_LATECNT).wr R.PW_STAT_LATE 1
  match s.pw.lateSeq with
  | some q =>
    if q = cseq then s
    else { s with pw.lateSeq := some cseq, pw.lateRun := if (q + 1) % 2 ^ 32 = cseq then s.pw.lateRun + 1 else 1 }
  | none => { s with pw.lateSeq := some cseq, pw.lateRun := 1 }

/-- EDGE_LATE: late edges in 3 consecutive carriers (03 R135); each run of three counts anew. -/
def edgeLateIfDue (s : State) : State :=
  if 3 ≤ s.pw.lateRun then
    let s : State := { s with pw.lateRun := 0 }
    if s.hasCause 5 then s else s.cause 5 17 0 ((s.pw.lateSeq).getD 0)
  else s

/-- A turn-on dropped with the rest of its pulse (06 R225). -/
def dropTurnOn (c : Nat) (delay : Nat) (s : State) : State :=
  let e := (s.gch c).waitEdge
  let s := s.telRecord c 5 e.1 (bytesLE 1 e.2 ++ bytesLE 4 delay)
  (s.setGch c (fun g => { g with waitOn := none, ascWait := false, dropPulse := true })).inc (R.GD_CHc_CNT_DROPPED c)

/-- A turn-off edge acts: always, and a pulse whose turn-on still waits is dropped (06 R225). -/
def turnOffActs (c : Nat) (s : State) : State :=
  let s := match (s.gch c).waitOn with
    | some t => if (s.gch c).ascWait then s else dropTurnOn c (s.time.tb - t) s
    | none => s
  s.setGch c (fun g => { g.turnOff with waitOn := none, ascWait := false, dropPulse := false })

/-- A late edge of a block being armed (03 R134): a turn-on is never executed, a turn-off acts at once; either way a LATE record
goes out. -/
def lateEdge (c : Nat) (b : EdgeBlock) (i : Nat) (w : Word) (s : State) : State :=
  let lateness := s.time.tb + 16 - s.edgeInstant c b w / 8
  let s := s.telRecord c 3 b.cseq (bytesLE 1 i ++ bytesLE 4 lateness)
  countLate b.cseq (if edgeLevel w then s else turnOffActs c s)

/-- The edges of a block as they are armed: the late ones have been dealt with and stand in their places without VALID. -/
def armEdges (c : Nat) (b : EdgeBlock) (s : State) : Nat → List Word → List Word × State
  | _, [] => ([], s)
  | i, w :: ws =>
    let late := edgeValid w && decide (s.edgeInstant c b w < (s.time.tb + 16) * 8)
    let r := armEdges c b (if late then lateEdge c b i w s else s) (i + 1) ws
    ((if late then w &&& 0x7FFFFFFF else w) :: r.1, r.2)

/-- A block is armed (06 R219, R220). -/
def armBlock (c : Nat) (b : EdgeBlock) (s : State) : State :=
  let r := armEdges c b s 0 b.edges
  edgeLateIfDue (r.2.setGch c (fun g => { g with armed := g.armed ++ [{ b with edges := r.1 }], lastArmed := some b }))

/-- A carrier whose COMMIT finds no matching staged block runs with the channel off, from CSTART (06 R220). -/
def missBlock (c cseq cstart : Nat) (s : State) : State :=
  s.setGch c (fun g => { g with
    staged := none
    armed := g.armed ++ [{ cseq := cseq, cstart := cstart, edges := [edgeWord false 0], miss := true }] })

/-- At the CSTART of a missed block a MISS record goes out and one late edge counts (06 R220, 03 R135). -/
def missReport (c cseq : Nat) (s : State) : State :=
  edgeLateIfDue (countLate cseq (s.telRecord c 6 cseq []))

/-- The start of the carrier after the one last committed at PX-C, for a channel that missed its block. -/
def State.nextStart (s : State) : Nat :=
  match s.pw.carriers with
  | c :: _ => c.start
  | [] => s.time.tb

/-- An ACCEPT or a REPEAT that has passed its check, at a channel that holds blocks (06 R219, R220). -/
def commitTake (c : Nat) (v : Verdict) (cseq : Nat) (s : State) : State :=
  match v, (s.gch c).staged, (s.gch c).lastArmed with
  | .rearm, _, some b => armBlock c { b with cstart := b.cstart + (s.gch c).tc, cseq := cseq } s
  | .accept, some b, _ =>
    if b.cseq % 256 = cseq % 256 then armBlock c b (s.setGch c (fun g => { g with staged := none }))
    else missBlock c cseq s.nextStart s
  | _, _, _ => missBlock c cseq s.nextStart s

/-- COMMIT: the verdict on the staged block reaches the PX-G, 96 cyc after it (06 R213, R214, R219, R220, R226); it follows the STAGE on
the lane. A rejected leg latches whatever else holds it (R238); a channel that is off by its GATE_EN or a latch arms nothing. -/
def commitArrives (c : Nat) (ok : Bool) (s : State) : State :=
  match (s.gch c).commitTx, (s.gch c).stageTx with
  | some (v, cseq), none =>
    let due := min ((s.gd.commitAt).getD 0 + 96) (s.time.tbLast + s.period - 1)
    let s := { s with time.tb := max s.time.tb due }.setGch c (fun g => { g with commitTx := none })
    let s := if ok then s else s.inc (R.GD_CHc_LINKERR c)
    if ok ∧ v = .rejectShoot then latchRecord (pxgLatch s c 3) c
    else if ok ∧ v = .rejectSched then pxgLatch s c 7
    else if !(s.gch c).en ∨ (s.gch c).latch ≠ 0 then s
    else if ok then commitTake c v cseq s
    else missBlock c cseq s.nextStart s
  | _, _ => s

/-! ### Edge execution and permits (06 R220, R224, R225) -/

/-- A turn-on of a channel: the gate sources at SRCSTEP as the PX-G holds it (06 R221, R223), and the clamp releases (R222). -/
def turnOn (c : Nat) (s : State) : State :=
  s.setGch c (fun g => { g with
    on := true, waitOn := none, ascWait := false, onAt := s.time.tb, dsHold := false,
    drvStep := (R.GD_CHc_CFG0_SRCSTEP c).get g.cfg0 })

/-- A turn-on that PERMIT has delayed acts, or is dropped beyond GD.DLYMAX (06 R225). -/
def delayedOn (c : Nat) (delay : Nat) (s : State) : State :=
  let e := (s.gch c).waitEdge
  if s.rd R.GD_DLYMAX < delay then dropTurnOn c delay s
  else ((turnOn c s).telRecord c 4 e.1 (bytesLE 1 e.2 ++ bytesLE 4 delay)).inc (R.GD_CHc_CNT_DELAYED c)

/-- The instant from which PX-C may raise PERMIT for a channel (06 R224): the later of the partner's off-confirm and
t_off + DTMIN − 40. -/
def permitDue (c : Nat) (s : State) : Nat :=
  let p := s.gch (partner c)
  max p.lowAt (p.offAt + s.rd R.GD_DTMIN - 40)

/-- PERMIT at PX-C at an instant that has passed, from its level and its last rise and fall. -/
def permitAt (c t : Nat) (s : State) : Bool :=
  let g := s.gch c
  if max g.permitUp g.permitDown ≤ t then s.on (R.GD_CHc_STAT_PERMIT c)
  else if s.on (R.GD_CHc_STAT_PERMIT c) then decide (t < g.permitDown)
  else decide (g.permitUp ≤ t)

/-- PERMIT at a channel's PX-G: the level at PX-C 40 cyc before (06 R216, R224); GK's is high while it is locked. -/
def permitted (c : Nat) (s : State) : Bool :=
  if c = 6 then (s.gch 6).lock else decide (40 ≤ s.time.tb) && permitAt c (s.time.tb - 40) s

/-- An edge acts at its PX-G (06 R220, R225): a turn-off always; a turn-on where the channel is locked and its pulse is not
dropped, at once with PERMIT high there, else it waits. -/
def edgeActs (c : Nat) (b : EdgeBlock) (idx : Nat) (w : Word) (s : State) : State :=
  if edgeLevel w then
    let g := s.gch c
    if !g.lock ∨ g.dropPulse ∨ g.latch ≠ 0 ∨ !g.en then s
    else if permitted c s then turnOn c s
    else s.setGch c (fun g => { g with waitOn := some s.time.tb, waitEdge := (b.cseq, idx), ascWait := false })
  else
    let s := turnOffActs c s
    if b.miss then missReport c b.cseq s else s

/-- A low side turns on for E-ASC at DC_OV under the shoot-through rule (05 R209): its blocks are discarded. -/
def ascOn (c : Nat) (s : State) : State :=
  let s := s.setGch c (fun g => { g with
    armed := [], staged := none, acted := 0, waitOn := none, ascWait := false, dropPulse := false })
  let g := s.gch c
  if !g.lock ∨ g.latch ≠ 0 ∨ !g.en ∨ g.on then s
  else if permitted c s then turnOn c s
  else s.setGch c (fun g => { g with waitOn := some s.time.tb, ascWait := true })

/-- E-ASC in hardware at DC_OV (05 R209): the gate-off command to the high sides, the low sides on. -/
def ascAct (s : State) : State :=
  [1, 3, 5].foldl (fun s c => ascOn c s) ([0, 2, 4].foldl (sendOff false) s)

/-- ARMED_EDGE_ACTS: the next armed edge of the channel acts at its instant, where that lies in this tick
(06 R220, R237). -/
def armedEdgeActs (c : Nat) (s : State) : State :=
  let rec go : Nat → State → State
    | 0, s => s
    | fuel + 1, s =>
      let g := s.gch c
      match g.armed with
      | [] => s
      | b :: rest =>
        match b.edges.drop g.acted with
        | [] => go fuel (s.setGch c (fun g => { g with armed := rest, acted := 0 }))
        | w :: _ =>
          let t := s.edgeInstant c b w / 8
          if !edgeValid w then go fuel (s.setGch c (fun g => { g with acted := g.acted + 1 }))
          else if t < s.time.tbLast + s.period then
            let s := { s with time.tb := max s.time.tb t }
            edgeActs c b (b.index g.acted) w (s.setGch c (fun g => { g with acted := g.acted + 1 }))
          else s
  go ((s.gch c).armed.foldl (fun n b => n + b.edges.length + 1) 1) s

/-- TURN_ON_DROP: a turn-on that has waited more than GD.DLYMAX for its permit is dropped with the rest of its pulse
(06 R225). -/
def turnOnDropIfDue (c : Nat) (s : State) : State :=
  match (s.gch c).waitOn with
  | some t => if s.rd R.GD_DLYMAX < s.time.tb - t ∧ !(s.gch c).ascWait then dropTurnOn c (s.time.tb - t) s else s
  | none => s

/-- A waiting turn-on acts when PERMIT reaches its PX-G 40 cyc after PX-C raised it, or is dropped (06 R216, R225). -/
def permitReaches (c : Nat) (s : State) : State :=
  match (s.gch c).waitOn with
  | none => s
  | some t =>
    let s := { s with time := { s.time with tb := max s.time.tb ((s.gch c).permitUp + 40) } }
    if (s.gch c).ascWait then turnOn c s else delayedOn c (s.time.tb - t) s

/-- An OFFCMD falls due on a channel's link in a cycle: a PERMIT change of that cycle is dropped (06 R216). -/
def State.offDue (s : State) (c t : Nat) : Bool := (s.gch c).offTx.isSome && (s.gch c).offTxAt == t

/-- PERMIT: PX-C raises PERMIT once the partner is off-confirmed and the dead time has passed (06 R224); GK's is high
while it is locked. It reaches the PX-G in the same tick, or with a later PERMIT step. -/
def permitRaise (c : Nat) (s : State) : State :=
  let up := max s.time.tb (permitDue c s)
  if c = 6 then gkPermit s
  else if s.time.tbLast + s.period ≤ permitDue c s + 40 then s
  else if s.on (R.GD_CHc_STAT_PERMIT c) then permitReaches c s
  else
    let p := partner c
    if s.on (R.GD_CHc_STAT_ONCMD p) ∨ s.on (R.GD_CHc_STAT_VGEON p) ∨ s.offDue c up then s
    else
      permitReaches c (({ s with time.tb := up }.wr (R.GD_CHc_STAT_PERMIT c) 1).setGch c (fun g => { g with permitUp := up }))

/-- PX-C drops a channel's PERMIT (06 R224): the fall reaches the PX-G 40 cyc later (R216). -/
def permitDrop (c : Nat) (s : State) : State :=
  if !s.on (R.GD_CHc_STAT_PERMIT c) ∨ s.offDue c s.time.tb then s
  else (s.wr (R.GD_CHc_STAT_PERMIT c) 0).setGch c (fun g => { g with permitDown := s.time.tb })

/-- The level of ONCMD or VGEON at PX-C changes (06 R216, R224): a rise drops the partner's PERMIT; the time of a fall
is kept. -/
def gateLevel (c : Nat) (f : Fld) (level : Bool) (isCmd : Bool) (s : State) : State :=
  if s.rd f = b2n level then s
  else
    let s := s.wr f (b2n level)
    if level then (if c < 6 then permitDrop (partner c) s else s)
    else
      let s := if isCmd then s.setGch c (fun g => { g with offAt := s.time.tb - 28 }) else s
      if !s.on (R.GD_CHc_STAT_ONCMD c) ∧ !s.on (R.GD_CHc_STAT_VGEON c) then
        s.setGch c (fun g => { g with lowAt := s.time.tb })
      else s

/-- ONCMD: the channel's commanded-on level, as the PX-G has it, reaches PX-C (06 R216). -/
def oncmd (c : Nat) (s : State) : State := gateLevel c (R.GD_CHc_STAT_ONCMD c) (s.gch c).on true s

/-- VGEON: the gate-emitter voltage crosses OFFTH (06 R216); below it a soft turn-off is over (R228). -/
def vgeon (c : Nat) (level : Bool) (s : State) : State :=
  let s := s.setGch c (fun g => { g with vge := level, soft := g.soft && level })
  gateLevel c (R.GD_CHc_STAT_VGEON c) level false s

/-- SHOOT_ATTEMPT: ONCMD or VGEON high on both channels of a leg makes the Signal Box send OFFCMD to both, and both
latch SHOOT_ATTEMPT (06 R227). -/
def shootAttempt (l : Nat) (s : State) : State :=
  let up (c : Nat) : Bool := s.on (R.GD_CHc_STAT_ONCMD c) || s.on (R.GD_CHc_STAT_VGEON c)
  if up (2 * l) ∧ up (2 * l + 1) then
    sendOff true (sendOff true s (2 * l)) (2 * l + 1)
  else s

/-! ### Gate output (06 R221, R222) -/

/-- What a gate output does (06 R221): it drives a current, in mA, toward a voltage, in mV, or holds a rail at low impedance. -/
inductive GateDrive where
  | source (ma : Nat) (mv : Int)
  | sink (ma : Nat) (mv : Int)
  | hold (mv : Int)
  deriving DecidableEq, Repr

/-- VON and VOFF as the PX-G holds them, in mV (06 R221). -/
def GdChan.von (g : GdChan) : Int := 15000 + 500 * ((R.GD_CHc_CFG0_VON 0).get g.cfg0 : Nat)
def GdChan.voff (g : GdChan) : Int := -3000 - 500 * ((R.GD_CHc_CFG0_VOFF 0).get g.cfg0 : Nat)

/-- OFFTH in mV (06 R221). -/
def GdChan.offth (g : GdChan) : Int := -2000 + 500 * ((R.GD_CHc_CFG1_OFFTH 0).get g.cfg1 : Nat)

/-- The rail of a turn-on (06 R221): VON, or 0.5 V below the supply of a high side whose V_BS is lower than VON + 0.5 V. -/
def GdChan.rail (g : GdChan) (high : Bool) (vbs : Int) : Int := if high ∧ vbs < g.von + 500 then vbs - 500 else g.von

/-- The gate output at a gate-emitter voltage and a bootstrap voltage, in mV (06 R221, R228): a turn-on sources the current step of its
edge until within 1.0 V of VON, a turn-off sinks it toward VOFF, at SOFTSTEP in a soft turn-off; then the rail is held. -/
def State.gateOutput (s : State) (c : Nat) (vge vbs : Int) : GateDrive :=
  let g := s.gch c
  let rail := g.rail (c < 6 && c % 2 == 0) vbs
  if g.on then (if g.von - 1000 ≤ vge then .hold rail else .source (750 * (g.drvStep + 1)) rail)
  else if vge ≤ g.voff + 1000 ∨ g.dsHold ∧ !g.soft then .hold g.voff
  else .sink (750 * (g.drvStep + 1)) g.voff

/-- The Miller clamp connects the gate to VOFF (06 R222, R228): with MCEN, or after a soft turn-off, while the channel is commanded off and
its gate-emitter voltage is below OFFTH. -/
def State.millerClamp (s : State) (c : Nat) : Bool :=
  let g := s.gch c
  !g.on && !g.vge && ((R.GD_CHc_CFG1_MCEN c).get g.cfg1 == 1 || g.dsHold)

/-! ### Desaturation and lockout (06 R228, R236) -/

/-- DESAT: DSBLANK after its turn-on edge the sense voltage of a channel that is on has stood above DSTH for 16 cyc (06 R228): soft
turn-off at SOFTSTEP, DESAT latched, DSAT on its way (R216), a LATCH record sent. -/
def desat (c : Nat) (s : State) : State :=
  let g := s.gch c
  if (R.GD_CHc_CFG1_DSEN c).get g.cfg1 = 1 ∧ g.on ∧ g.onAt + 40 * (R.GD_CHc_CFG1_DSBLANK c).get g.cfg1 + 16 ≤ s.time.tb then
    latchRecord ((pxgLatch s c 2).setGch c (fun g => { g with
      soft := true, dsHold := true, dsatAt := some (s.time.tb + 28), drvStep := (R.GD_CHc_CFG0_SOFTSTEP c).get g.cfg0 })) c
  else s

/-- UVLO: a rail of a channel trips or releases (06 R235, R236): a trip turns the channel off and latches UVLOP or UVLON; STATUS tells
PX-C. -/
def uvlo (c : Nat) (negative trip : Bool) (s : State) : State :=
  let bit := if negative then 1 else 0
  let mask := 2 ^ bit
  if trip then pxgLatch (s.setGch c (fun g => { g with present := g.present ||| mask })) c bit
  else s.setGch c (fun g => { g with present := g.present &&& (255 - mask) })

/-! ### Bootstrap supply (06 R232, R233) -/

/-- BSWARN: the bootstrap voltage of a leg falls to BSWARN, or rises by its hysteresis; the high side's next STATUS reports it
(06 R232). -/
def bswarn (l : Nat) (level : Bool) (s : State) : State := s.setGleg l (fun g => { g with bswarn := level })

/-- GD.REFRESH.TREF; values outside 1,600–8,000 act as the nearer limit (06 R245). -/
def State.tref (s : State) : Nat := max 1600 (min 8000 (s.rd R.GD_REFRESH_TREF))

/-- The level of a channel at the start of one of its armed blocks. -/
def levelAt (g : GdChan) : Bool → List EdgeBlock → Nat → Bool
  | l, [], _ => l
  | l, b :: bs, cstart =>
    if b.cstart = cstart then l
    else levelAt g (((b.edges.filter edgeValid).getLast?).elim l edgeLevel) bs cstart

/-- Whether the refresh pulse of a leg may be put into the carrier that starts at `cstart` (06 R232): REFRESH, of 160 and 20 cyc, reaches
both channels before it, and both have an armed block for it. -/
def refreshFits (l cstart : Nat) (s : State) : Bool :=
  let hi := s.gch (2 * l)
  let lo := s.gch (2 * l + 1)
  let span := (2 * s.rd R.PW_DT + s.tref + s.rd R.PW_MINPULSE) * 8
  let clear (g : GdChan) : Bool :=
    g.armed.all (fun b => b.cstart != cstart || b.edges.all (fun w => !edgeValid w || span ≤ edgeTime w))
  let armed (g : GdChan) : Bool := g.armed.any (fun b => b.cstart == cstart)
  decide (s.time.tb + 196 ≤ cstart) && decide ((s.gleg l).warnAt + 2000 ≤ cstart) && levelAt hi hi.on hi.armed cstart && clear hi
    && clear lo && armed hi && armed lo
    && (match (s.gleg l).pulseAt with | some t => decide (t + 800000 ≤ cstart) | none => true)

/-- The edges of a refresh pulse put before the armed edges of a channel's block for a carrier (06 R232). -/
def refreshEdges (c cstart : Nat) (es : List Word) (s : State) : State :=
  s.setGch c (fun g => { g with armed := g.armed.map (fun b => if b.cstart = cstart then { b with edges := es ++ b.edges, pre := es.length } else b) })

/-- A phase current from the tick's MEANs, the missing one of three as the negative sum of the others (03 R108). -/
def State.phaseCurrent (s : State) (x : Nat) : Rat :=
  match s.roleCh (x + 1) with
  | some _ => s.meanOf (x + 1)
  | none => -(s.meanOf 1 + s.meanOf 2 + s.meanOf 3)

/-- REFRESH_PULSE_INSERT: while BSWARN is set and refresh is enabled, the Signal Box puts a pulse into the first eligible
carrier of the leg, outside E-ASC (06 R232): a REFRESH frame to each channel, in its turn on the lane (R215), changes the armed block; one
that fails its check is discarded and counted (R214). -/
def refreshInsert (l : Nat) (highOk lowOk : Bool) (s : State) : State :=
  let sub := s.time.tbLast + (s.taskSlot 3).1 + (s.taskSlot 3).2
  let busy := laneSpan s.gd.stageAt 500 s.time.tb || laneSpan s.gd.commitAt 76 s.time.tb
    || (s.commitTick && decide (sub ≤ s.time.tb + 200 ∧ s.time.tb < sub))
  if !s.on (R.GD_CHc_STAT_BSWARN (2 * l)) ∨ !s.on R.GD_REFRESH_EN ∨ s.sub = 3 ∨ (s.gleg l).pulse.isSome ∨ busy then s
  else
    match (s.gch (2 * l)).armed.find? (fun b => refreshFits l b.cstart s) with
    | none => s
    | some b =>
      let dt := s.rd R.PW_DT * 8
      let tr := s.tref * 8
      let take (ok : Bool) (c : Nat) (es : List Word) (s : State) : State :=
        if ok then refreshEdges c b.cstart es s else s.inc (R.GD_CHc_LINKERR c)
      let s := take highOk (2 * l) [edgeWord false 0, edgeWord true (2 * dt + tr)] s
      let s := take lowOk (2 * l + 1) [edgeWord true dt, edgeWord false (dt + tr)] s
      s.setGleg l (fun g => { g with frameAt := some s.time.tb, pulse := some b.cseq, pulseAt := some b.cstart, out := decide (0 ≤ s.phaseCurrent l) })

/-- REFRESH_PULSE_COMPLETE: a pulse completes; it is counted, recorded and reported to CURFLD of the next tick with the sign of the phase
current at its insertion (06 R232, 03 R136). -/
def refreshComplete (l : Nat) (s : State) : State :=
  match (s.gleg l).pulse with
  | none => s
  | some cseq =>
    let s := s.setGleg l (fun g => { g with pulse := none })
    let s := (s.inc R.GD_RFCNT).telRecord (2 * l) 7 cseq (bytesLE 4 s.tref ++ bytesLE 4 (s.rd R.PW_DT))
    { s with gd.pulses := s.gd.pulses ++ [(l, (s.gleg l).out, s.tickno)] }

/-- PRECHARGE_DONE: in READY, every V_BS at 16.0 V sets PREDONE and the ENABLE completes (06 R233). -/
def prechargeDoneIfDue (s : State) : State :=
  if s.drive = 2 ∧ !s.on R.GD_STAT_PREDONE ∧ [0, 2, 4].all (fun c => 4096 ≤ s.rd (R.GD_CHc_RAIL_POS c)) then
    let s := { s.wr R.GD_STAT_PREDONE 1 with gd.preStart := none }
    if s.seq.enabling then { s with seq.enabling := false }.reqDone 1 0 else s
  else s

/-- PRECHARGE_TIMEOUT: precharge not done within 100 ms returns the drive to STANDBY and the ENABLE completes with
NOT_VALID (06 R233). -/
def prechargeTimeoutIfDue (s : State) : State :=
  match s.gd.preStart with
  | none => s
  | some t =>
    if s.drive = 2 ∧ !s.on R.GD_STAT_PREDONE ∧ t + msCyc 100 ≤ s.time.tb then
      let a := s
      let s := { s with gd.preStart := none }
      let s := ((s.wr R.LN_MD_STAT_STATE 1).wr R.PW_CTL_RUN 0).gateRefresh.driveEvent a
      if s.seq.enabling then { s with seq.enabling := false }.reqDone 1 4 else s
    else s

/-! ### GATE_EN at the PX-G (06 R237, R238) -/

/-- GATE_EN_LOW: GATE_EN falls at the PX-G, turning the channel off and discarding its blocks (01 R21, 06 R220, R237). -/
def gateEnLow (c : Nat) (s : State) : State :=
  if (s.gch c).en ∧ !(s.gch c).drive then
    (pxgDiscard s c).setGch c (fun g => { g with en := false, enFall := s.time.tb })
  else s

/-- The latch causes still present at a rise of GATE_EN (06 R237). -/
def presentCauses (g : GdChan) : Nat :=
  g.latch &&& (g.present ||| (if g.link then 0 else 2 ^ 5) ||| (if g.lock then 0 else 2 ^ 6))

/-- GATE_EN_RISE: GATE_EN rises at the PX-G; after at least 10 µs low the latches clear, but for those whose cause is
present, which set again at once (06 R237); a diagnostics run is aborted (R239). -/
def gateEnRise (c : Nat) (s : State) : State :=
  if !(s.gch c).en ∧ (s.gch c).drive then
    let s := s.setGch c (fun g =>
      { (if g.enFall + 4000 ≤ s.time.tb then { g with latch := presentCauses g, news := presentCauses g } else g) with en := true })
    match s.gd.diag with
    | some _ => ({ s with gd.diag := none }).wr R.GD_DIAG_RES_ABORT 1
    | none => s
  else s

/-! ### Off-state diagnostics (06 R239–R241) -/

/-- GD.DIAG_CTL.GO: diagnostics start if the stage is idle and the DC link at 0.05; else NOTRUN is set (06 R239). -/
def diagGo (s : State) : State :=
  let s' := s.setWord R.GD_DIAG_RES_DONE.addr 0
  if s.stageIdle ∧ 5 / 100 ≤ s.vdc then { s' with gd.diag := some { since := s.time.tb } } else s'.wr R.GD_DIAG_RES_NOTRUN 1

/-- A node's class set where it has none (06 R240). -/
def setClass (d : GdDiag) (node cls : Nat) : GdDiag :=
  { d with cls := d.cls.mapFinIdx (fun i x _ => if i = node ∧ x = 0 then cls else x) }

/-- The pair of nodes that a reading of step 3 concerns: UV, VW, WU. -/
def pairNodes (k : Nat) : Nat × Nat := (k, (k + 1) % 3)

/-- The classes that the open pairs of step 3 give (06 R240): the node common to all of them; with all three open every
node, the machine being disconnected. -/
def openClasses (d : GdDiag) : GdDiag :=
  let has (k : Nat) : Bool := testB d.openPairs k
  if has 0 ∧ has 1 ∧ has 2 then setClass (setClass (setClass d 0 3) 1 3) 2 3
  else if has 0 ∧ has 1 then setClass d 1 3
  else if has 1 ∧ has 2 then setClass d 2 3
  else if has 2 ∧ has 0 then setClass d 0 3
  else if has 0 then setClass (setClass d 0 3) 1 3
  else if has 1 then setClass (setClass d 1 3) 2 3
  else if has 2 then setClass (setClass d 2 3) 0 3
  else d

/-- One reading, in mV, taken into the classes (06 R240): steps 0–2 nodes against DC−, 3–5 nodes against DC+, 6–8 the pairs,
9 the chopper idle, 10 the chopper driven. -/
def diagRead (load : Bool) (mv : Nat) (d : GdDiag) : GdDiag :=
  if d.step < 3 then (if mv < 500 then setClass d d.step 2 else d)
  else if d.step < 6 then (if mv < 500 then setClass d (d.step - 3) 1 else d)
  else if d.step < 9 then
    let k := d.step - 6
    let p := pairNodes k
    if load then (if mv < 1000 then setClass (setClass d p.1 4) p.2 4 else d)
    else if 10000 < mv then { d with openPairs := d.openPairs ||| 2 ^ k } else d
  else if d.step = 9 then d
  else if mv < 500 then setClass d 3 2
  else if 10000 < mv then setClass d 3 3
  else d

/-- The end of a run: the classes are posted and DONE set; an open lead on GK raises CHOPPER_FAULT (06 R241, 05 R208). -/
def diagEnd (d : GdDiag) (s : State) : State :=
  let d := openClasses d
  let s := { s with gd.diag := none }
  let s := ((((s.wr R.GD_DIAG_RES_U d.cls[0]).wr R.GD_DIAG_RES_V d.cls[1]).wr R.GD_DIAG_RES_W d.cls[2]).wr
    R.GD_DIAG_RES_K d.cls[3]).wr R.GD_DIAG_RES_DONE 1
  let s := { s with gd.diagPass := d.cls.toList.all (· == 0) }
  if d.cls[3] == 3 && s.on R.LN_MD_CFG_CHEN then { s with seq.chopDiag := true }.cause 9 0 2 s.vdcRaw else s

/-- The channel whose collector-sense pin a step reads (06 R240). -/
def diagSense (k : Nat) : Nat := if k < 3 then 2 * k + 1 else if k < 6 then 2 * (k - 3) else if k < 9 then 2 * (k - 6) + 1 else 6

/-- The channel whose pin a step clamps, where it does (06 R240). -/
def diagClamp (k : Nat) : Option Nat := if 6 ≤ k ∧ k < 9 then some (2 * (pairNodes (k - 6)).2 + 1) else none

/-- The number of a step in the table of R240. -/
def diagNumber (k : Nat) : Nat := if k < 9 then k / 3 + 1 else k - 5

/-- What a collector-sense pin does (06 R240). -/
inductive SensePin where
  | idle | source | clamp
  deriving DecidableEq, Repr

/-- The collector-sense pin of a channel (06 R240): a step drives one with 2 mA, step 4 leaves GK's idle, step 3 clamps a second one. -/
def State.sensePin (s : State) (c : Nat) : SensePin :=
  match s.gd.diag with
  | none => .idle
  | some d => if diagSense d.step = c ∧ d.step ≠ 9 then .source else if diagClamp d.step = some c then .clamp else .idle

/-- DIAGRES: the channel of the present step has read its pin, sends the record DIAG (06 R244) and the frame DIAGRES (R213, R240). Either
frame of the exchange can fail its check (R214); a channel that clamps gets a DIAG frame too and reads nothing. -/
def diagResult (c : Nat) (mv : Nat) (frame : DiagFrame) (s : State) : State :=
  let s := if frame = .answered then s else s.inc (R.GD_CHc_LINKERR c)
  match s.gd.diag with
  | none => s
  | some d =>
    let reads := decide (c = diagSense d.step)
    let s := if reads ∧ frame ≠ .diagLost then s.telRecord c 8 0 (bytesLE 1 (diagNumber d.step) ++ bytesLE 2 mv) else s
    match frame with
    | .answered => if reads then { s with gd.diag := some { d with reading := some mv } } else s
    | .answerLost => if reads then { s with gd.diag := some { d with lost := true } } else s
    | .diagLost => if reads ∨ diagClamp d.step = some c then { s with gd.diag := some { d with lost := true } } else s

/-- The longest wait for a reading, in cyc: eleven steps take at most 24 ms (06 R240). -/
def diagWait : Nat := 872727

/-- OFFSTATE_DIAG_STEP: 2 ms after its pins were driven a step reads and classifies (06 R240). Step 5 is run only where step 4 reads below
10 V. A step whose DIAG frames fail their check, or whose reading does not come in time, gives no class (DESIGN CHOICE, assumption
log 55). -/
def diagStep (s : State) : State :=
  match s.gd.diag with
  | none => s
  | some d =>
    if s.time.tb < d.since + msCyc 2 ∨ (!d.lost ∧ d.reading = none ∧ s.time.tb < d.since + diagWait) then s
    else
      let read := if d.lost then none else d.reading
      let e := match read with
        | some mv => diagRead (s.on R.GD_DIAG_CTL_LOAD) mv d
        | none => d
      let d' := { e with reading := none, lost := false, since := s.time.tb, step := d.step + 1 }
      let driven := match read with
        | some mv => decide (mv < 10000)
        | none => false
      if d.step = 10 ∨ (d.step = 9 ∧ !driven) then diagEnd d' s else { s with gd.diag := some d' }

end Sys2Proof.Machine
end

