-- ==== Sys2Proof/Machine/Lanes.lean ====
section
/-! DEFINITION. What the lanes read: coefficients and tables of the bank in force, with the last-good registers of a stale
table (02 R80, R81; 01 R544), and the carrier arithmetic of 03 R121. -/

namespace Sys2Proof.Machine

/-- The offset of a table in its bank (01 R544) and its number of words. -/
def tblPlace : Nat → Nat × Nat
  | 0 => (0, 128)
  | 1 => (0x400, 256)
  | 2 => (0x800, 256)
  | 3 => (0xC00, 256)
  | 4 => (0x1000, 33)
  | 5 => (0x8000, 8192)
  | 6 => (0x1400, 258)
  | 7 => (0x1100, 33)
  | 8 => (0x1200, 65)
  | 9 => (0x2000, 1536)
  | _ => (0, 0)

/-! ### Parameter writes (01 R41; 04 R156, R157; 01 R544) -/

/-- The bits of a bank's word that its piece holds (01 R544); bytes outside the pieces are unused. -/
def bankMask (off : Nat) : Word :=
  if off < 0x100 then accessMask (0x40041000 + off) .rw
  else if off < 0x200 then accessMask (0x40042000 + (off - 0x100)) .rw
  else if (List.range 10).any (fun i => i ≠ 0 && decide ((tblPlace i).1 ≤ off ∧ off < (tblPlace i).1 + 4 * (tblPlace i).2)) then 0xFFFFFFFF
  else 0

/-- A word written into a bank; a table whose last word is written counts as loaded (03 R110). -/
def bankPut (b : Bool) (off : Nat) (w : Word) (s : State) : State :=
  let s := if bankMask off = 0 then s else s.setBankWord b off (w &&& bankMask off)
  match (List.range 10).find? (fun i => i ≠ 0 && off + 4 == (tblPlace i).1 + 4 * (tblPlace i).2) with
  | some i => { s with ln := { s.ln with loaded := s.ln.loaded ||| 2 ^ (i + if b then 16 else 0) } }
  | none => s

/-- An item of Q52 or Q53: the offset in the bank, the number of words, up to 14 words. Its bytes are the model's (assumption log 9). -/
def paramItem (off : Nat) (ws : List Word) : List Byte :=
  padTo 64 (bytesLE 4 off ++ bytesLE 4 ws.length ++ ws.flatMap (fun w => bytesLE 4 w.toNat))

/-- An item's words written into a bank. -/
def bankItem (b : Bool) (item : List Byte) (s : State) : State :=
  let off := fieldLE item 0 4 / 4 * 4
  (List.range (min 14 (fieldLE item 4 4))).foldl (fun s i =>
    bankPut b (off + 4 * i) (BitVec.ofNat 32 (fieldLE item (8 + 4 * i) 4)) s) s

/-- Every item of a parameter queue popped and applied. -/
def drainParams (q : Nat) (b : Bool) (s : State) : State :=
  let items := (s.queue q).items
  if items.isEmpty then s
  else items.foldl (fun s i => bankItem b i s) (s.qDrain q)

/-- The immediate writes of Q52, which the lanes take at a task start (01 R41). -/
def drainImmediate (s : State) : State := drainParams 52 s.ln.bankB s

/-- The staging writes of Q53; they wait while a swap is pending (04 R157). -/
def drainStaging (s : State) : State := if s.ln.bankTick.isSome then s else drainParams 53 (!s.ln.bankB) s

/-- Whether a table is stale (02 R80). -/
def State.stale (s : State) (id : Nat) : Bool := s.bit R.LN_TBLSTALE id

/-- The last-good register of a task and table; without a value it reads 0 (02 R80). -/
def State.lastGood (s : State) (task id : Nat) : Word := smapGet (fun _ => 0) s.ln.lastGood (16 * task + id)

/-- A table entry as a task reads it (02 R80, 03 R138): of a stale table the last-good value, but 0 of the map (table 5) and of
the voltage-error table (table 8). -/
def State.entry (s : State) (task id i : Nat) : Word :=
  if s.stale id then (if id = 5 ∨ id = 8 then 0 else s.lastGood task id)
  else s.bankWord s.ln.bankB ((tblPlace id).1 + 4 * i)

/-- A coefficient as a task reads it. -/
def State.coef (s : State) (task : Nat) (f : Fld) : Nat :=
  if s.stale 0 then f.get (s.lastGood task 0) else s.rd f

/-- A coefficient in an unsigned format. -/
def State.cu (s : State) (task : Nat) (f : Fld) (frac : Nat) : Rat := ofFix frac (s.coef task f)

/-- A coefficient flag. -/
def State.con (s : State) (task : Nat) (f : Fld) : Bool := s.coef task f != 0

/-- A table entry as a signed number. -/
def State.entryQ (s : State) (task id i frac : Nat) : Rat := ofFix frac (s.entry task id i).toInt

/-- Linear interpolation in a table at a position, entry `n − 1` being the last. -/
def interp (read : Nat → Rat) (n : Nat) (x : Rat) : Rat :=
  let i := x.floor.toNat
  if n ≤ i + 1 then read (n - 1)
  else read i + (x - (i : Nat)) * (read (i + 1) - read i)

/-- The tick period in seconds. -/
def State.tSec (s : State) : Rat := (s.period : Rat) / 400000000

/-- The start of the carrier that the next commit schedules (03 R113, R122). -/
def State.targetStart (s : State) : Nat :=
  s.time.tbLast + (s.toCarrierTick + s.rd R.PW_CARRIER_K) * s.period + s.rd R.PW_CARRIER_ORIGIN

/-- The lane that runs a task, by its entry of the active Timetable. -/
def State.taskLane (s : State) (task : Nat) : Nat :=
  let e (n : Nat) : Word := s.word (R.TT_ACTIVEn_W0 n).addr
  match (List.range 16).find? (fun n => testB (e n).toNat 31 && bitsOf (e n).toNat 27 24 == 0 && bitsOf (e n).toNat 23 16 == task) with
  | some n => bitsOf (e n).toNat 29 28
  | none => task - 1

/-- The lane that runs a task in this tick, rotation included (02 R66). -/
def State.runLane (s : State) (task : Nat) : Nat :=
  let l := s.taskLane task
  if s.ln.rotated = some l then s.rd R.LN_STAT_SIDING else l

/-- How far a task has come in this tick, by its code. -/
def State.task (s : State) (code : Nat) : TaskState := (s.ln.tasks.toList[code - 1]?).getD {}

/-- The state with the progress of a task changed. -/
def State.setTask (s : State) (code : Nat) (f : TaskState → TaskState) : State :=
  { s with ln := { s.ln with tasks := s.ln.tasks.mapFinIdx (fun i x _ => if i + 1 = code then f x else x) } }

end Sys2Proof.Machine
end

