-- ==== Sys2Proof/Machine/Curfld.lean ====
section
/-! DEFINITION. The task CURFLD (03 R106–R120): current reconstruction, commutation angle, prediction, current loop, MTPA and field
weakening, back-EMF angle, refresh compensations. Each run gives the new lane state, which is posted at the substitution
point. -/

namespace Sys2Proof.Machine

/-- √3. -/
def sqrt3 : Rat := sqrtR 3

/-- A rotation into the d/q frame of an angle in turns; currents in Q2.30 (03 R106, R111). -/
def park (a b ang : Rat) : Rat × Rat :=
  let c := cosTurn ang
  let s := sinTurn ang
  (fmtQ 32 30 (a * c + b * s), fmtQ 32 30 (b * c - a * s))

/-- The three phase values of a d/q vector at an angle in turns: inverse Park and Clarke. -/
def phases (d q ang : Rat) : Rat × Rat × Rat :=
  let c := cosTurn ang
  let s := sinTurn ang
  let al := grid (d * c - q * s)
  let be := grid (d * s + q * c)
  (al, grid (-al / 2 + sqrt3 / 2 * be), grid (-al / 2 - sqrt3 / 2 * be))

/-- An angle in turns reduced to 0 up to 1. -/
def turn (x : Rat) : Rat := x - x.floor

/-- An angular difference in turns, from −½ up to ½. -/
def turnDiff (x : Rat) : Rat := let f := turn x; if f < 1 / 2 then f else f - 1

/-- An angle of a time: electrical speed in rad/s times cyc, in turns. -/
def leadTurn (we : Rat) (cyc : Rat) : Rat := grid (we * cyc / 400000000 / (2 * piR))

/-- α/β currents from the tick's MEANs (03 R108) and |iU + iV + iW| / 3 where all three are measured. -/
def State.currents (s : State) : Rat × Rat × Option Rat :=
  let have3 := [1, 2, 3].map (fun r => (s.roleCh r).isSome)
  let n := (have3.filter id).length
  if n < 2 then (0, 0, none)
  else
    let u := s.phaseCurrent 0
    let v := s.phaseCurrent 1
    let w := s.phaseCurrent 2
    (fmtQ 32 30 ((2 * u - v - w) / 3), fmtQ 32 30 (divR (v - w) sqrt3),
      if n = 3 then some (absR (u + v + w) / 3) else none)

/-- The magnetising inductance at a rotor flux (03 R110): table 7 where it is loaded, LN.CF_LM otherwise. -/
def State.lm (s : State) (psir : Rat) : Rat :=
  if testB s.ln.loaded (if s.ln.bankB then 23 else 7) then
    interp (fun i => ofFix 32 ((s.entry 1 7 i).toNat : Int)) 33
      (clampR 0 32 (Config.magnetisingIndex psir (s.cu 1 R.LN_CF_PSI 32)))
  else s.cu 1 R.LN_CF_LM 32

/-- The MTPA references at a torque demand (03 R117): table 6 interpolated at |T*| / TMAX × 128, the sign of iq following
T*. -/
def State.mtpa (s : State) (tstar : Rat) : Rat × Rat :=
  let tmax := s.cu 1 R.LN_CF_TMAX 8
  let x : Rat := if tstar = 0 then 0 else if tmax ≤ absR tstar then 128 else grid (absR tstar / tmax * 128)
  (grid (interp (fun i => s.entryQ 1 6 (2 * i) 30) 129 x),
    grid (signR tstar * interp (fun i => s.entryQ 1 6 (2 * i + 1) 30) 129 x))

/-- The voltage limit (03 R115): d first, q in what is left of the circle. -/
def vLimit (vd vq vmax : Rat) : Rat × Rat :=
  let d := clampR (-vmax) vmax vd
  let l := sqrtR (vmax * vmax - d * d)
  (d, clampR (-l) l vq)

/-- The sums of the prediction over the committed carriers (03 R113): Σ h·v_d and Σ h·v_q, in seconds, from `t0` to `t1`, a span
that no modulating carrier covers taking (0, idle). -/
def predSums (cs : List Carrier) (t0 t1 : Nat) (idle : Rat) : Rat × Rat :=
  cs.foldl (fun acc c =>
      let a := max t0 c.start
      let b := min t1 (c.start + c.len)
      if a < b then
        let h : Rat := ((b - a : Nat) : Rat) / 400000000
        match c.kind with
        | .modulated => (acc.1 + h * c.vd, acc.2 + h * (c.vq - idle))
        | .asc => (acc.1, acc.2 - h * idle)
        | .idle => acc
      else acc)
    (0, ((t1 - t0 : Nat) : Rat) / 400000000 * idle)

/-- The back-EMF angle (turns) and amplitude (V_BASE) from the line voltages (03 R112). -/
def State.emf (s : State) : Rat × Rat :=
  let uv := s.meanOf 5 - s.meanOf 6
  let vw := s.meanOf 6 - s.meanOf 7
  let a := (2 * uv + vw) / 3
  let b := divR vw sqrt3
  (turn (angleTurn a b - 1 / 4), grid (sqrt3 * sqrtR (a * a + b * b)))

/-- The sum of the steps between neighbouring angles of a list, newest first. -/
def angleChange : List Rat → Rat
  | a :: b :: rest => turnDiff (a - b) + angleChange (b :: rest)
  | _ => 0

/-- The back-EMF part of a run (03 R112): angles in UQ0.32, the speed in Q16.16 (R106). While fewer than nine angles are held, the change
over those held counts as the change over eight ticks (DESIGN CHOICE, assumption log 42). -/
def cfEmf (s : State) (c : CfState) : CfState :=
  if (s.roleCh 5).isSome ∧ (s.roleCh 6).isSome ∧ (s.roleCh 7).isSome then
    let e := s.emf
    let hist := (fmtTurn e.1 :: c.emf).take 9
    let off := (List.range 7).all (fun ch => !s.on (R.GD_CHc_STAT_ONCMD ch))
    { c with
      emf := hist
      emfOmega := fmtQ 32 16 (divR (angleChange hist * 2 * piR) (8 * s.tSec))
      emfAmp := e.2
      emfValid := off && decide (2 / 100 ≤ e.2) }
  else { c with emf := [], emfOmega := 0, emfAmp := 0, emfValid := false }

/-- Whether this run belongs to tick s of a flying start (04 R174, R175). -/
def State.cfTickS (s : State) : Bool := s.seq.flyStart && s.drive == 3

/-- Whether the machine is an induction machine. -/
def State.induction (s : State) : Bool := s.con 1 R.LN_CF_MACH_TYPE

/-- The rotor-flux model of an induction machine (03 R110): ψr, the flux angle in turns and the electrical speed, in the formats of R106.
id and iq are the measured currents of the run before, because those of this run need the angle that the model gives (DESIGN CHOICE,
assumption log 42). -/
def cfFlux (s : State) (c : CfState) : Rat × Rat × Rat :=
  let t := s.tSec
  let tr := s.cu 1 R.LN_CF_TR 24
  let lm := s.lm c.psir
  let psir := grid (c.psir + divR t tr * (lm * c.imd - c.psir))
  let lm' := s.lm psir
  let wsl := divR (lm' * c.imq) (tr * maxR psir (s.cu 1 R.LN_CF_PSI 32 / 20))
  let we := fmtQ 32 16 (s.coef 1 R.LN_CF_MACH_PP * s.omegaM + wsl)
  (psir, fmtTurn (c.flux + we * t / (2 * piR)), we)

/-- The angle and electrical speed of a run (03 R109, R110; 04 R177). -/
def cfAngle (s : State) (c : CfState) : Rat × Rat × Rat :=
  if s.induction then cfFlux s c
  else if s.cfTickS && !s.fbValid && c.emfValid then (c.psir, (c.emf.head?).getD 0, c.emfOmega)
  else
    let pp : Rat := (s.coef 1 R.LN_CF_MACH_PP : Nat)
    (c.psir, fmtTurn (pp * s.thetaM + s.cu 1 R.LN_CF_THOFS 32), fmtQ 32 16 (pp * s.omegaM))

/-- The flux that couples with iq: LN.CF_PSI, or LN.CF_KR × ψr (03 R113). -/
def State.psiE (s : State) (psir : Rat) : Rat :=
  if s.induction then mulR (s.cu 1 R.LN_CF_KR 31) psir else s.cu 1 R.LN_CF_PSI 32

/-- The output of the field-weakening loop (03 R118): the integrator, Δ, FW and FWSAT. |vs| is that of the run before, because that of this
run needs Δ (DESIGN CHOICE, assumption log 42). -/
def cfWeaken (s : State) (c : CfState) (vmax : Rat) : Rat × Rat × Bool × Bool :=
  let lim := minR (s.cu 1 R.LN_CF_IDFW 30) (s.cu 1 R.LN_CF_IMAX 30)
  let vfw := (1 - s.cu 1 R.LN_CF_FWMARG 16) * vmax
  let err := vfw - c.vsMag
  let y := clampR (-lim) 0 (grid (c.fw + s.cu 1 R.LN_CF_FWKI 16 * s.tSec * err))
  let d := clampR (-lim) 0 (grid (s.cu 1 R.LN_CF_FWKP 24 * err + y))
  (y, d, decide (d < 0), decide (0 < lim ∧ d = -lim ∧ vfw < c.vsMag))

/-- The d/q references before the current limit (03 R117–R119) and, in a flux build, those of 04 R176. -/
def cfRefs (s : State) (we psir fwd : Rat) : Rat × Rat × Rat :=
  let imax := s.cu 1 R.LN_CF_IMAX 30
  let tstar := s.olp.tdem
  let nom := s.cu 1 R.LN_CF_PSI 32
  let w := absR we
  let k : Rat := if w ≤ s.cu 1 R.LN_CF_WFW 16 then 1 else divR (s.cu 1 R.LN_CF_WFW 16) w
  let pref := nom * k * (1 + fwd)
  if s.induction then
    if s.olp.start = 1 ∨ s.olp.start = 2 ∨ s.cfTickS then (s.cu 2 R.LN_OL_IBUILD 16 * imax, 0, pref)
    else
      (divR pref (s.lm pref),
        divR tstar ((s.coef 1 R.LN_CF_MACH_PP : Nat) * s.cu 1 R.LN_CF_PBASE 8 * s.cu 1 R.LN_CF_KR 31 * maxR psir (nom / 20)),
        pref)
  else
    let m := s.mtpa tstar
    (m.1 + fwd, m.2, 0)

/-- The current loop with its voltage limit (03 R114, R115): new integrators, v, |vs|, and whether d and q were clamped. -/
def cfLoop (s : State) (frozen : Bool) (we psie ed eq ipd ipq vmax xd0 xq0 : Rat) :
    (Rat × Rat) × (Rat × Rat) × Rat × Bool × Bool :=
  let t := s.tSec
  let ld := s.cu 1 R.LN_CF_LD 32
  let lq := s.cu 1 R.LN_CF_LQ 32
  let vs (xd xq : Rat) : Rat × Rat :=
    (grid (s.cu 1 R.LN_CF_KPD 24 * ed + xd - we * lq * ipq),
      grid (s.cu 1 R.LN_CF_KPQ 24 * eq + xq + we * ld * ipd + we * psie))
  let xd1 := if frozen then xd0 else grid (xd0 + s.cu 1 R.LN_CF_KID 16 * t * ed)
  let xq1 := if frozen then xq0 else grid (xq0 + s.cu 1 R.LN_CF_KIQ 16 * t * eq)
  let v1 := vs xd1 xq1
  let l1 := vLimit v1.1 v1.2 vmax
  let xd := if l1.1 ≠ v1.1 ∧ 0 < ed * (v1.1 - l1.1) then xd0 else xd1
  let xq := if l1.2 ≠ v1.2 ∧ 0 < eq * (v1.2 - l1.2) then xq0 else xq1
  let v := vs xd xq
  let l := vLimit v.1 v.2 vmax
  ((xd, xq), l, sqrtR (v.1 * v.1 + v.2 * v.2),
    decide (l1.1 ≠ v1.1 ∨ l.1 ≠ v.1), decide (l1.2 ≠ v1.2 ∨ l.2 ≠ v.2))

/-- The refresh compensations δ of a run (03 R136): (TREF + 2 DT) / Tc for a current out of the leg, TREF / Tc into it. -/
def cfDelta (s : State) (x : Nat) : Rat :=
  let tc : Rat := (s.tc : Nat)
  (s.gd.pulsesIn.filter (fun p => p.1 == x)).foldl (fun a p =>
    a + divR ((s.tref + (if p.2.1 then 2 * s.rd R.PW_DT else 0) : Nat) : Rat) tc) 0

/-- Whether PATTERN mode is in force for the loop (03 R125, R129, R138): PW.MODE as the last commit took it (R124). -/
def State.patternMode (s : State) : Bool := s.pw.mode == 3 && !s.stale 9

/-- The d/q prediction to the target carrier (03 R113). -/
def cfPredict (s : State) (cs : List Carrier) (we psie imd imq : Rat) : Rat × Rat :=
  let t0 := s.time.tbLast - s.rd R.SD_LAG
  let t1 := s.targetStart
  let h : Rat := ((t1 - t0 : Nat) : Rat) / 400000000
  let sums := predSums cs t0 t1 (we * psie)
  let rs := s.cu 1 R.LN_CF_RS 30
  let ld := s.cu 1 R.LN_CF_LD 32
  let lq := s.cu 1 R.LN_CF_LQ 32
  let w := s.cu 1 R.LN_CF_PRED 15
  (if ld = 0 then imd else fmtQ 32 30 (imd + w * divR (sums.1 + h * (we * lq * imq - rs * imd)) ld),
    if lq = 0 then imq else fmtQ 32 30 (imq + w * divR (sums.2 - h * (rs * imq + we * ld * imd + we * psie)) lq))

/-- One run of CURFLD on the state at its task start: the state and outputs it will post. -/
def cfRun (s : State) : CfState :=
  let c := cfEmf s s.cf
  let i := s.currents
  let ang := cfAngle s c
  let psir := ang.1
  let we := ang.2.2
  let psie := s.psiE psir
  let im := park i.1 i.2.1 (fmtTurn (ang.2.1 - leadTurn we (s.rd R.SD_LAG : Nat)))
  let start := s.cfTickS && !s.induction
  let cs := if start then s.pw.carriers.map (fun k => { k with vd := 0, vq := we * psie, kind := .modulated })
    else s.pw.carriers
  let ip := cfPredict s cs we psie im.1 im.2
  let vdc := s.vdc
  let vmax := if vdc ≤ 0 then 0 else s.cu 1 R.LN_CF_MMAX 15 * vdc
  let fw := cfWeaken s c vmax
  let ref := cfRefs s we psir fw.2.1
  let imax := s.cu 1 R.LN_CF_IMAX 30
  let idRef := clampR (-imax) imax (fmtSat 32 30 ref.1)
  let iqMax := sqrtR (imax * imax - idRef * idRef)
  let iqRef := fmtQ 32 30 (clampR (-iqMax) iqMax ref.2.1)
  let frozen := s.patternMode
  let lp := cfLoop s frozen we psie (idRef - ip.1) (iqRef - ip.2) ip.1 ip.2 vmax
    (if start then 0 else c.xd) (if start then 0 else c.xq)
  let v := (fmtQ 32 30 lp.2.1.1, fmtQ 32 30 lp.2.1.2)
  let mid := fmtTurn (ang.2.1 + leadTurn we ((s.tc : Nat) + (s.rd R.PW_CARRIER_ORIGIN : Nat) + (s.tc : Rat) / 2))
  let ph := phases v.1 v.2 mid
  let u (x : Rat) : Rat := if vdc ≤ 0 then 0 else fmtQ 32 30 (divR x (sqrt3 * vdc))
  let ipp := phases ip.1 ip.2 mid
  let te := (s.coef 1 R.LN_CF_MACH_PP : Nat) * s.cu 1 R.LN_CF_PBASE 8 *
    (if s.induction then psie * im.2
     else psie * im.2 + (s.cu 1 R.LN_CF_LD 32 - s.cu 1 R.LN_CF_LQ 32) * im.1 * im.2)
  let above := match i.2.2 with
    | some z => decide (s.rdU R.SD_ISUMLIM 30 < z)
    | none => false
  { c with
    xd := lp.1.1
    xq := lp.1.2
    psir := psir
    psirRef := ref.2.2
    flux := if s.induction then ang.2.1 else c.flux
    fw := fw.1
    vd := v.1
    vq := v.2
    u := #v[u ph.1, u ph.2.1, u ph.2.2]
    ip := #v[fmtQ 32 30 ipp.1, fmtQ 32 30 ipp.2.1, fmtQ 32 30 ipp.2.2]
    delta := #v[fmtQ 32 30 (cfDelta s 0), fmtQ 32 30 (cfDelta s 1), fmtQ 32 30 (cfDelta s 2)]
    torque := fmtQ 32 8 te
    idRef := idRef
    iqRef := iqRef
    imd := im.1
    imq := im.2
    ipd := ip.1
    ipq := ip.2
    ia := i.1
    ib := i.2.1
    vdc := vdc
    did := fw.2.1
    thetaE := ang.2.1
    thetaMid := mid
    omegaE := we
    vsMag := lp.2.2.1
    vsat := !frozen && (lp.2.2.2.1 || lp.2.2.2.2)
    vsatQ := !frozen && lp.2.2.2.2
    fwOn := fw.2.2.1
    fwsat := fw.2.2.2
    ilim := decide (iqMax < absR ref.2.1)
    isumRun := if above then c.isumRun + 1 else 0
    isum := (i.2.2).getD 0
    isumRaised := if above then c.isumRaised else false
    preset := if start then some (we * psie) else none }

/-- ISUM: the sum of the phase currents stands above SD.ISUMLIM in a fourth consecutive tick, once per excursion (03 R108, 05
R203). -/
def isumIfDue (s : State) : State :=
  match s.cfNew with
  | some c =>
    if 4 ≤ c.isumRun ∧ !c.isumRaised then
      { s with cfNew := some { c with isumRaised := true } }.cause 4 (s.taskLane 1 + 1) 0
        (toFix 30 c.isum).toNat
    else s
  | none =>
    if 4 ≤ s.cf.isumRun ∧ !s.cf.isumRaised then
      { s with cf.isumRaised := true }.cause 4 (s.taskLane 1 + 1) 0 (toFix 30 s.cf.isum).toNat
    else s

/-- CURFLD's output posted at its substitution point (03 R116, 02 R54). -/
def cfPost (s : State) : State :=
  match s.cfNew with
  | none => s
  | some c =>
    let s := { s with
      cf := { c with preset := none }
      cfNew := none
      gd.pulsesIn := []
      pw.due := s.pw.due.mapFinIdx (fun i x _ => x + (c.delta.toList[i]?).getD 0) }
    match c.preset with
    | some vq => { s with pw.carriers := s.pw.carriers.map (fun k => { k with vd := 0, vq := vq, kind := .modulated }) }
    | none => s

/-- The refresh pulses that a run without a valid output had taken wait for the next run (02 R74; 03 R136). -/
def cfKeep (s : State) : State := { s with cfNew := none, gd := { s.gd with pulses := s.gd.pulsesIn ++ s.gd.pulses, pulsesIn := [] } }

/-- CURFLD's rest output (02 R76): zero voltage references and compensations. -/
def cfRest (s : State) : State :=
  let s := cfKeep s
  { s with
    cf := { s.cf with vd := 0, vq := 0, u := #v[0, 0, 0], delta := #v[0, 0, 0] } }

end Sys2Proof.Machine
end

