-- ==== Sys2Proof/Machine/Outer.lean ====
section
/-! DEFINITION. The task OUTER (04): setpoint records, lever and load pin, heave, the loops of the modes, the shock observer and
compliance, ceilings and slew, the flying start. The records act at the task start; the loops give a new lane state, which
is posted at the substitution point. -/

namespace Sys2Proof.Machine

/-! ### Coefficients -/

/-- A factor-table read (04 R154): KPM and KIM at an index. -/
def State.gain (s : State) (table : Nat) (x : Rat) : Rat × Rat :=
  let e (hi lo : Nat) (i : Nat) : Rat := ofFix 12 (bitsOf (s.entry 2 table i).toNat hi lo)
  let x := if 255 ≤ x then 255 else x
  (grid (interp (e 31 16) 256 x), grid (interp (e 15 0) 256 x))

/-- J; 0 acts as 1.0 (04 R180). -/
def State.inertia (s : State) : Rat := if s.coef 2 R.LN_OL_J = 0 then 1 else s.cu 2 R.LN_OL_J 16

/-- The observer pole, a value outside 10–2,000 acting as the nearer limit (04 R162). -/
def State.obsPole (s : State) : Rat := clampR 10 2000 (s.coef 2 R.LN_OL_OBSP : Nat)

/-- The damper CD, at least 1.0 (04 R166). -/
def State.damper (s : State) : Rat := maxR 1 (s.cu 2 R.LN_OL_CD 8)

/-- KFT, rope metres per shaft radian. -/
def State.kft (s : State) : Rat := s.cu 2 R.LN_OL_KFT 32

/-- E-LIMP's limits act: in E-LIMP, and on a Hall secondary with WHY = 1 (05 R195, 07 R249). -/
def State.limped (s : State) : Bool :=
  s.sub == 5 || (s.rd R.FB_STAT_WHY == 1 && s.rd R.FB_SEL_SEC == 5)

/-- The unit is a member or a deputy of a consist (08 R297). -/
def State.isMember (s : State) : Bool := s.rd R.BL_ROLE_KIND == 2 || s.rd R.BL_ROLE_KIND == 3

/-- The unit is the head of a consist. -/
def State.isHead (s : State) : Bool := s.rd R.BL_ROLE_KIND == 1

/-- The partner's valid block in ACTIVE-ACTIVE (09 R329, R330). -/
def State.pairBlock (s : State) : Option PairBlock :=
  if s.rd R.PM_CFG_CONF = 1 ∧ (s.rd R.PM_STAT_PSTATE = 2 ∨ s.rd R.PM_STAT_PSTATE = 3) then s.pm.block else none

/-! ### Records (04 R146–R148, R167) -/

/-- SETPOINT_BAD with the record's SEQ (04 R146). -/
def setpointBad (r : List Byte) (s : State) : State :=
  s.event Ev.SETPOINT_BAD 2 (bytesLE 4 (fieldLE r 24 4))

/-- A value of a record as a signed fixed-point number. -/
def recQ (r : List Byte) (off frac : Nat) : Rat := ofFix frac (signedOf 32 (fieldLE r off 4))

/-- The extrapolated heave terms z_e and v_e at this boundary (04 R167). -/
def State.heaveNow (s : State) : Rat × Rat :=
  let o := s.ol
  if !o.hvSeen then (0, 0)
  else
    let h : Rat := ((s.time.tbLast : Int) + s.coef 2 R.LN_OL_HVLEAD - o.hvStamp : Int)
    let hs := h / 400000000
    (grid (o.hvZ + o.hvV * hs + o.hvA * hs * hs / 2), grid (o.hvV + o.hvA * hs))

/-- A heave sample enters the buffer (04 R167): a STAMP that is not later is discarded; the step to the new extrapolation is
blended out, with what is left of an earlier step. While the terms are stale the step starts from the frozen values (R169). -/
def heaveSample (r : List Byte) (s : State) : State :=
  let o := s.ol
  let stamp : Int := fieldLE r 16 8
  if o.hvSeen ∧ stamp ≤ o.hvStamp then s
  else
    let old := if o.hvStale then (o.hvFrozenZ, o.hvFrozenV) else s.heaveNow
    let bl := s.coef 2 R.LN_OL_HVBLEND
    let left : Rat := if bl = 0 then 0 else (min o.hvBlend bl : Nat) / (bl : Rat)
    let v := recQ r 12 16
    let a := if o.hvSeen then divR ((v - o.hvV) * 400000000) ((stamp - o.hvStamp : Int) : Rat) else 0
    let s' := { s with ol := { o with hvSeen := true, hvZ := recQ r 8 16, hvV := v, hvStamp := stamp, hvA := a } }
    let new := s'.heaveNow
    { s' with ol := { s'.ol with
      hvStepZ := if o.hvSeen then grid (old.1 - new.1 + left * o.hvStepZ) else 0
      hvStepV := if o.hvSeen then grid (old.2 - new.2 + left * o.hvStepV) else 0
      hvBlend := bl } }

/-- A record applies (04 R146). -/
def applyRecord (kind : Nat) (r : List Byte) (s : State) : State :=
  let v0 := recQ r 8
  match kind with
  | 1 => { s with ol.speedRef := v0 16 }
  | 2 => { s with ol.torqueRef := v0 8 }
  | 3 => { s with ol.tensionRef := v0 8 }
  | 4 => { s with ol.positionRef := signedOf 48 (fieldLE r 8 6) }
  | 5 => { s with ol.curveIn := ofFix 15 (signedOf 16 (fieldLE r 8 2)) }
  | 7 =>
    { s with ol := { s.ol with
      loadPin := v0 8
      loadPinStamp := fieldLE r 16 8
      loadPinSeen := true } }
  | 8 => { s with ol := { s.ol with ceilM := some (maxR 0 (v0 8)), ceilG := some (maxR 0 (recQ r 12 8)) } }
  | _ => s

/-- Whether a pending record applies in this tick (04 R147). -/
def recordDue (r : List Byte) (tick : Nat) : Bool :=
  !testB (fieldLE r 1 1) 0 || 0 ≤ modDiff 32 tick (fieldLE r 4 4)

/-- SETPOINT_APPLY: the pending records whose tick has come apply (04 R147). -/
def setpointApply (s : State) : State :=
  s.ol.slots.foldl (fun s e =>
    if recordDue e.2 s.tickno then applyRecord e.1 e.2 { s with ol.slots := smapErase e.1 s.ol.slots } else s) s

/-- One record popped from Q50 (04 R146, R147): it goes into the slot of its kind, and applies at once where it names no later tick. -/
def takeRecord (r : List Byte) (s : State) : State :=
  let kind := fieldLE r 0 1
  if kind = 6 then heaveSample r s
  else if kind = 0 ∨ 8 < kind then setpointBad r s
  else if testB (fieldLE r 1 1) 0 ∧ 65536 < modDiff 32 (fieldLE r 4 4) s.tickno then setpointBad r s
  else setpointApply { s with ol.slots := smapSet (fun _ => []) s.ol.slots kind r }

/-- At most `n` records popped from Q50. -/
def takeRecords : Nat → State → State
  | 0, s => s
  | n + 1, s =>
    if (s.queue 50).items.isEmpty then s
    else
      let r := s.qPop 50
      takeRecords n (match r.1 with | some i => takeRecord i r.2 | none => r.2)

/-- At most `n` lever values popped from Q51; the newest is used (04 R148). -/
def takeLevers : Nat → State → State
  | 0, s => s
  | n + 1, s =>
    if (s.queue 51).items.isEmpty then s
    else
      let r := s.qPop 51
      takeLevers n (match r.1 with
        | some i => { r.2 with ol := { r.2.ol with
            lever := ofFix 15 (signedOf 16 (fieldLE i 0 2)), leverAge := 0, leverSeen := true, leverStale := false } }
        | none => r.2)

/-- LEVER_STALE: no lever value for LVTMO ticks; the input is taken as 0 (04 R148). -/
def leverStaleIfDue (s : State) : State :=
  if !s.ol.leverStale ∧ s.coef 2 R.LN_OL_LVTMO ≤ s.ol.leverAge then
    { s with ol := { s.ol with leverStale := true, lever := 0 } }.event Ev.LEVER_STALE 2
  else s

/-- The load-pin value is older than LVTMO ticks at this boundary (04 R148). -/
def State.loadPinOld (s : State) : Bool :=
  decide (((s.coef 2 R.LN_OL_LVTMO * s.period : Nat) : Int) < modDiff 64 s.time.tbLast s.ol.loadPinStamp)

/-- TENSION_SRC: the load-pin value is older than LVTMO ticks (04 R148). -/
def tensionSrcIfDue (s : State) : State :=
  if s.ol.loadPinSeen ∧ !s.ol.loadPinStale ∧ s.loadPinOld then
    { s with ol.loadPinStale := true }.event Ev.TENSION_SRC 2
  else s

/-- HEAVE_STALE: the extrapolation exceeds HVTMO ticks; the terms are frozen and fade out (04 R169). -/
def heaveStaleIfDue (s : State) : State :=
  let o := s.ol
  let h : Int := (s.time.tbLast : Int) + s.coef 2 R.LN_OL_HVLEAD - o.hvStamp
  if o.hvSeen ∧ !o.hvStale ∧ ((s.coef 2 R.LN_OL_HVTMO * s.period : Nat) : Int) < h then
    let e := s.heaveNow
    { s with ol := { o with hvStale := true, hvFrozenZ := e.1, hvFrozenV := e.2 } }.event Ev.HEAVE_STALE 2
  else s

/-- The heave terms of a tick: extrapolated or frozen, blended and faded (04 R167, R169). -/
def heaveTick (s : State) : State :=
  let o := s.ol
  let h : Int := (s.time.tbLast : Int) + s.coef 2 R.LN_OL_HVLEAD - o.hvStamp
  let o := if o.hvStale ∧ h ≤ ((s.coef 2 R.LN_OL_HVTMO * s.period : Nat) : Int) then { o with hvStale := false } else o
  let fade := s.coef 2 R.LN_OL_HVFADE
  let out := if o.hvStale then min fade (o.hvFade + 1) else min fade o.hvFade - 1
  let g : Rat := if fade = 0 then (if o.hvStale then 0 else 1) else 1 - (out : Rat) / (fade : Nat)
  let e := if o.hvStale then (o.hvFrozenZ, o.hvFrozenV) else s.heaveNow
  let bl := s.coef 2 R.LN_OL_HVBLEND
  let b : Rat := if bl = 0 then 0 else (min o.hvBlend bl : Nat) / (bl : Rat)
  { s with ol := { o with
    hvFade := out
    hvBlend := o.hvBlend - 1
    hvOutZ := fmtQ 32 16 (g * (e.1 + b * o.hvStepZ))
    hvOutV := fmtQ 32 16 (g * (e.2 + b * o.hvStepV)) } }

/-- The thermal ceiling formed at a task start (14 R448). -/
def formThermal (s : State) : State :=
  s.postU R.TH_TCEIL 8 (s.rdU R.TH_FTH_F 15 * maxR (s.cu 2 R.LN_OL_TMAXM 8) (s.cu 2 R.LN_OL_TMAXG 8))

/-- The block that a follower aligns to (09 R324, R327, R329). -/
def State.alignBlock (s : State) : Option PairBlock :=
  if s.rd R.PM_STAT_PSTATE = 2 ∧ s.on R.PM_STAT_SYNCED ∧ !s.on R.PM_STAT_MIRRLOST then s.pm.block else none

/-- The follower of a pair takes the input state of OUTER from the lead's block (09 R329, R334). -/
def alignOuter (s : State) : State :=
  match s.alignBlock with
  | some b => { s with ol := b.ol, olp := b.olp }
  | none => s

/-- A standby takes the input state of CURFLD and LIMSHARE too (09 R334): CURFLD with the committed carriers, LIMSHARE with the
chopper and the compensations; its own stage commits nothing. -/
def alignStandby (code : Nat) (s : State) : State :=
  if s.rd R.PM_CFG_CONF ≠ 2 then s
  else match s.alignBlock with
    | some b =>
      if code = 1 then { s with cf := b.cf, pw := { s.pw with carriers := b.pw.carriers } }
      else { s with lim := b.lim, pw := { s.pw with residues := b.pw.residues, due := b.pw.due, chact := b.pw.chact } }
    | none => s

/-- The task start of OUTER: alignment, the pending records whose tick has come, the records of Q50, lever, heave, the thermal ceiling. A
pending record that is due applies before a record popped in the same run can replace it (DESIGN CHOICE, assumption log 47). -/
def outerTake (s : State) : State :=
  let s := { s with ln.outerOld := some (s.ol, s.rd R.TH_TCEIL) }
  let s := alignOuter s
  let s := { s with ol := { s.ol with leverAge := s.ol.leverAge + 1 } }
  let s := takeLevers 4 (takeRecords 4 (setpointApply s))
  let s := if s.loadPinOld then s else { s with ol.loadPinStale := false }
  formThermal (heaveTick (heaveStaleIfDue (tensionSrcIfDue (leverStaleIfDue s))))

/-! ### Quantities of a run -/

/-- The path that OUTER runs (04 R149, 05 R191, R193, R197; 08 R312): 0 none (it tracks), 1–5 the mode, 6 the speed path of a stop, 7 a
member's torque of 0 in an emergency. -/
def State.olPath (s : State) : Nat :=
  if s.drive = 3 then (if s.sub = 5 then s.rd R.LN_MD_STAT_PREV else s.rd R.LN_MD_STAT_MODE)
  else if s.drive = 4 ∧ s.sub ≤ 2 ∧ !s.stageLost then
    (if s.isMember ∧ (s.sub = 1 ∨ s.sub = 2) then 7 else 6)
  else 0

/-- Position correction PC(θ) and cogging torque COG(θ), indexed by θ[31:19] and interpolated by θ[18:3] (04 R170). -/
def State.mapAt (s : State) (theta : Rat) : Rat × Rat :=
  let x := (toFix 32 theta % 2 ^ 32).toNat
  let i := x / 2 ^ 19
  let f := ofFix 16 (x / 8 % 2 ^ 16 : Nat)
  let pc (n : Nat) : Rat := ofFix 4 (signedOf 16 (bitsOf (s.entry 2 5 (n % 8192)).toNat 31 16))
  let co (n : Nat) : Rat := ofFix 15 (signedOf 16 (bitsOf (s.entry 2 5 (n % 8192)).toNat 15 0))
  (grid (pc i + f * (pc (i + 1) - pc i)), grid (co i + f * (co (i + 1) - co i)))

/-- The position correction in counts (04 R171), inactive in E-LIMP (05 R195). -/
def State.posCorr (s : State) : Rat :=
  if s.con 2 R.LN_OL_CFG_PCEN ∧ s.sub ≠ 5 then (s.mapAt s.thetaM).1 else 0

/-- The cogging term (04 R172), inactive in E-LIMP (05 R195). -/
def State.tcog (s : State) : Rat :=
  if s.con 2 R.LN_OL_CFG_COGEN ∧ s.sub ≠ 5 then
    let w := absR s.omegaM
    let wm := s.cu 2 R.LN_OL_COGWMAX 16
    let f : Rat := if w ≤ wm / 2 then 1 else if wm ≤ w then 0 else divR (2 * (wm - w)) wm
    let ang := s.thetaM + leadTurn s.omegaM (s.coef 2 R.LN_OL_COGLEAD : Nat)
    grid ((s.mapAt ang).2 * s.cu 2 R.LN_OL_TCOG 8 * f)
  else 0

/-- The heave terms w_heave in rad/s and p_heave in counts (04 R168, R169). -/
def State.heaveTerms (s : State) : Rat × Rat :=
  if s.con 2 R.LN_OL_CFG_HVEN ∧ s.drive = 3 ∧ s.sub = 0 ∧ s.kft ≠ 0 then
    let g := minR 1 (s.cu 2 R.LN_OL_HVGAIN 15)
    (grid (-g * s.ol.hvOutV / s.kft), grid (-g * s.ol.hvOutZ / s.kft * s.countsPerRad))
  else (0, 0)

/-- f_meas (04 R153). -/
def State.fMeas (s : State) (tl : Rat) : Rat :=
  if s.con 2 R.LN_OL_CFG_TSRC ∧ s.ol.loadPinSeen ∧ !s.ol.loadPinStale then s.ol.loadPin else fmtQ 32 8 (divR tl s.kft)

/-- The command curve with its hysteresis (04 R160): the new hysteresis state and w_cmd. -/
def State.curve (s : State) (hyst : Nat) (x : Rat) : Nat × Rat :=
  let on := s.cu 2 R.LN_OL_THON 16
  let off := minR on (s.cu 2 R.LN_OL_THOFF 16)
  let start : Nat := if on < x then 1 else if x < -on then 2 else 0
  let h : Nat :=
    match hyst with
    | 1 => if x < off then (if x < -on then 2 else 0) else 1
    | 2 => if -off < x then (if on < x then 1 else 0) else 2
    | _ => start
  let y (i : Nat) : Rat := if i = 16 then 0 else s.entryQ 2 4 i 16
  (h, if h = 0 then 0 else grid (interp y 33 (clampR 0 32 ((x + 1) * 16))))

/-- The commanded speed: SPEED_REF or the curve (04 R160). -/
def State.command (s : State) (hyst : Nat) : Nat × Rat :=
  match s.coef 2 R.LN_OL_CFG_CMDSRC with
  | 1 => s.curve hyst s.ol.lever
  | 2 => s.curve hyst s.ol.curveIn
  | _ => (hyst, s.ol.speedRef)

/-- The limits on every speed reference: WLIM, E-LIMP's, SLS's (04 R150, 05 R195, 10 R352); the reference enters the loop in Q16.16
(R144). -/
def State.clampSpeed (s : State) (w : Rat) : Rat :=
  let lim := s.cu 2 R.LN_OL_WLIM 16
  let lim := if s.limped then minR lim (s.rdU R.LN_MD_LIMP_LIMPW 16 * s.cu 2 R.LN_OL_WRATED 16) else lim
  let lim := if s.on R.SB_STAT_SLS then minR lim (95 / 100 * s.rdU R.SB_SLS_W 16) else lim
  fmtQ 32 16 (clampR (-lim) lim w)

/-- A value moved toward a target by at most a step; a step of 0 limits nothing (04 R158). -/
def slewTo (step now target : Rat) : Rat := if step = 0 then target else clampR (now - step) (now + step) target

/-- The speed ramp (04 R161). -/
def rampStep (acc dec now target : Rat) : Rat :=
  if now < target then
    (if now < 0 then minR (now + dec) (minR target 0) else minR (now + acc) target)
  else if target < now then
    (if 0 < now then maxR (now - dec) (maxR target 0) else maxR (now - acc) target)
  else now

/-- The own ceilings C_pos and C_neg (04 R159): motoring and generating by the sign of ωm about w0; under E-LIMP and in the brake
taper both are reduced (05 R195, R197). -/
def State.ceilings (s : State) : Rat × Rat :=
  let th := s.rdU R.TH_TCEIL 8
  let m0 := minR (s.cu 2 R.LN_OL_TMAXM 8) (minR ((s.ol.ceilM).getD th) th)
  let g0 := minR (s.cu 2 R.LN_OL_TMAXG 8) (minR ((s.ol.ceilG).getD th) (minR th s.lim.regen))
  let taper : Rat :=
    match s.seq.taperAt with
    | some t =>
      let len := msCyc s.brkTaperMs
      if len = 0 then 0 else maxR 0 (1 - ((s.time.tbLast - t : Nat) : Rat) / (len : Nat))
    | none => 1
  let f := taper * (if s.limped then s.rdU R.LN_MD_LIMP_LIMPT 16 else 1)
  let m := fmtQ 32 8 (m0 * f)
  let g := fmtQ 32 8 (g0 * f)
  let w0 := s.cu 2 R.LN_OL_WRATED 16 / 100
  (if -w0 ≤ s.omegaM then m else g, if s.omegaM ≤ w0 then m else g)

/-- The estimated-torque ceiling is in force (04 R159). -/
def State.ceilEst (s : State) : Bool := s.cf.ilim || s.cf.fwsat || s.cf.vsatQ

/-- The ceilings with the estimated-torque limit in the sign of the slewed value (04 R159). -/
def State.estCeilings (s : State) (c : Rat × Rat) (v1 : Rat) : Rat × Rat :=
  if s.ceilEst then
    let lim := absR s.cf.torque + s.cu 2 R.LN_OL_TMARG 8
    if 0 ≤ v1 then (minR c.1 lim, c.2) else (c.1, minR c.2 lim)
  else c

/-! ### Observer, shock, compliance -/

/-- T_e as the observer takes it (04 R162, 09 R330): 0 with the gates off, with the partner's in a pair. -/
def State.observedTorque (s : State) : Rat :=
  (if s.phasesOn then s.cf.torque else 0) + (match s.pairBlock with | some b => b.te | none => 0)

/-- The shock observer (04 R162). ŵ and T̂L keep a finer step than the formats in which they are posted; the rate is held in Q24.8 and
saturates there (DEDUCED from the figures of R166's example and from R180; assumption log 46). -/
def observe (s : State) (l : OlLoop) : OlLoop :=
  let t := s.tSec
  let p := s.obsPole
  let j := s.inertia
  let r := s.omegaM - l.wh
  let wh := grid (l.wh + t / j * (s.observedTorque - l.tl - s.cu 2 R.LN_OL_B 16 * l.wh) + 2 * p * t * r)
  let tl := grid (l.tl - p * p * j * t * r)
  { l with
    wh := wh
    tl := tl
    tlHist := (tl :: l.tlHist).take 4
    rate := fmtSat 32 8 (divR (tl - l.tlHist.getD 3 0) (4 * t))
    wHist := (s.omegaM :: l.wHist).take 8 }

/-- Shock detection (04 R163): in RUN, by the rate in an enabled direction. -/
def detect (s : State) (l : OlLoop) : OlLoop :=
  let lim := s.cu 2 R.LN_OL_SHKRATE 8
  let dir := s.coef 2 R.LN_OL_CFG_SHKDIR
  let det : Nat :=
    if s.drive ≠ 3 then 0
    else if lim < l.rate ∧ testB dir 0 then 1
    else if l.rate < -lim ∧ testB dir 1 then 2 else 0
  if det ≠ 0 then { l with shock := true, calm := 0, shockDet := det }
  else { l with calm := if absR l.rate < s.cu 2 R.LN_OL_SHKEXIT 8 then l.calm + 1 else 0, shockDet := 0 }

/-- The tension error and its gains (04 R151). -/
def State.tensionError (s : State) (l : OlLoop) : Rat × Rat × Rat :=
  let e := l.tRef - s.fMeas l.tl
  let g := s.gain 2 (grid (absR e * s.cu 2 R.LN_OL_TGS 32))
  (e, g.1, g.2)

/-- A position difference reduced to the signed range of 48 bits. -/
def wrapPos (d : Rat) : Rat := d - (281474976710656 : Rat) * (roundAway (d / 281474976710656) : Rat)

/-- The position error in counts and its gains (04 R151), from the reference in whole counts (R144). -/
def State.positionError (s : State) (l : OlLoop) : Rat × Rat × Rat :=
  let e := wrapPos (((roundAway (l.pTraj + s.heaveTerms.2 + l.shift) : Int) : Rat) - ((s.pfb : Rat) + s.posCorr))
  let g := s.gain 3 (grid (absR e * s.cu 2 R.LN_OL_PGS 24))
  (e, g.1, g.2)

/-- The end of a compliance (04 R165): the path resumes from the speed reference in force; in PAYOUT −y joins the offset that an earlier
compliance has left. -/
def complEnd (s : State) (path : Nat) (l : OlLoop) : OlLoop :=
  if !l.compl then l
  else
    let l := { l with compl := false, cylim := false }
    if path = 3 then
      let e := s.tensionError l
      { l with xt := grid (l.wref - s.cu 2 R.LN_OL_TKP 32 * e.2.1 * e.1) }
    else if path = 4 then
      let l := { l with shift := l.shift - grid (l.y * s.countsPerRad), recov := s.coef 2 R.LN_OL_CRECOV != 0 }
      let e := s.positionError l
      { l with xp := grid (l.wref - l.wTraj - s.cu 2 R.LN_OL_PKP 32 * e.2.1 * e.1) }
    else { l with y := 0 }

/-- SHOCK_CLEAR: |rate| has stayed below SHKEXIT for CHOLD ticks; the flag clears and a compliance ends (04 R163, R165). -/
def shockClear (s : State) (l : OlLoop) : OlLoop :=
  if l.shock ∧ l.shockDet = 0 ∧ s.coef 2 R.LN_OL_CHOLD ≤ l.calm then complEnd s l.path { l with shock := false } else l

/-- Compliance may act (04 R166, 05 R195): TENSION or PAYOUT in RUN without EMERGENCY or start, CMPEN = 1. -/
def State.complAllowed (s : State) (path : Nat) (l : OlLoop) : Bool :=
  s.drive == 3 && s.sub == 0 && (path == 3 || path == 4) && s.con 2 R.LN_OL_CFG_CMPEN && (l.start == 0 || l.start == 4)

/-- The start of a compliance at a rising detection (04 R163, R164). -/
def complStart (s : State) (path : Nat) (l : OlLoop) : OlLoop :=
  if l.shockDet = 1 ∧ !l.compl ∧ s.complAllowed path l then
    { l with
      compl := true
      cylim := false
      y := 0
      wHold := l.wPath
      fHold := if path = 4 then divR l.tl s.kft else l.fHold }
  else l

/-- One tick of compliance (04 R164): the yield and the speed reference. -/
def complTick (s : State) (path : Nat) (l : OlLoop) : OlLoop :=
  let fref := if path = 4 then l.fHold else l.tRef
  let dt := l.tl - s.kft * fref
  let yd := divR (dt - s.cu 2 R.LN_OL_CK 8 * l.y) s.damper
  let lim := decide (s.cu 2 R.LN_OL_CYMAX 16 ≤ absR l.y ∧ signR yd = signR l.y)
  let yd := if lim then 0 else yd
  { l with
    y := fmtSat 32 16 (l.y + yd * s.tSec)
    cylim := l.cylim || lim
    cylimNew := lim && !l.cylim
    yd := yd
    wPath := grid (l.wHold - yd) }

/-! ### The speed loop and the torque demand -/

/-- Feed-forward of R150: load, inertia at a slope of the reference, cogging. -/
def State.feedForward (s : State) (tl slope : Rat) : Rat :=
  (if s.con 2 R.LN_OL_CFG_FFEN then tl else 0)
    + (if s.con 2 R.LN_OL_CFG_JFFEN then s.inertia * slope else 0) + s.tcog

/-- The ceilings on the demand: the own ones, in a pair with the partner's (09 R330), at a head those of the consist (08 R301). -/
def State.demandCeilings (s : State) (own : Rat × Rat) : Rat × Rat :=
  if s.isHead then (s.rdU R.BL_CS_CPOS 8, s.rdU R.BL_CS_CNEG 8)
  else match s.pairBlock with
    | some b => (own.1 + b.cpos, own.2 + b.cneg)
    | none => own

/-- The own torque demand from the demand D (09 R330, 08 R301). -/
def State.ownShare (s : State) (own : Rat × Rat) (d : Rat) : Rat :=
  let c (x : Rat × Rat) : Rat := if 0 ≤ d then x.1 else x.2
  if s.isHead then clampR (-own.2) own.1 s.lim.share
  else match s.pairBlock with
    | some b =>
      let part := minR (ofFix 15 b.share * absR d) (c (b.cpos, b.cneg))
      signR d * minR (absR d - part) (c own)
    | none => d

/-- T* from a loop output (04 R158, R159): slew, ceilings, share; and x_s, held where a step cuts in the sign of e. -/
def formDemand (s : State) (l : OlLoop) (v0 v1 e dxs : Rat) : OlLoop :=
  let own := s.estCeilings s.ceilings v1
  let dc := s.demandCeilings own
  let v2 := clampR (-dc.2) dc.1 v1
  let held := decide (e * (v1 - v0) < 0 ∨ e * (v2 - v1) < 0)
  { l with
    xs := if held then l.xs else grid (l.xs + dxs)
    d := v2
    cpos := own.1
    cneg := own.2
    ceil := decide (v2 ≠ v1)
    ceilest := s.ceilEst
    tdem := fmtQ 32 8 (s.ownShare own v2)
    holdUp := held && decide (0 ≤ e * v2) }

/-- The speed loop on a reference with its slope (04 R150, R158). -/
def speedLoop (s : State) (wref slope : Rat) (l : OlLoop) : OlLoop :=
  let w := s.clampSpeed wref
  let e := w - s.omegaM
  let g := s.gain 1 (grid (absR e * s.cu 2 R.LN_OL_SGS 16))
  let u := grid (s.cu 2 R.LN_OL_SKP 16 * g.1 * e + l.xs + s.feedForward l.tl slope)
  let v1 := slewTo (grid (s.cu 2 R.LN_OL_TSLEW 8 * s.tSec)) l.d u
  formDemand s { l with wref := w, u := u, unlimited := decide (v1 = u) } u v1 e (s.cu 2 R.LN_OL_SKI 8 * g.2 * s.tSec * e)

/-- The overspeed guard (04 R547) on a torque reference; x_s is held also where min(|r|, |g|) cuts (DEDUCED, assumption
log 16). -/
def guardLoop (s : State) (r : Rat) (l : OlLoop) : OlLoop :=
  let sg : Rat := if r = 0 then signR s.omegaM else signR r
  let w := s.clampSpeed (sg * s.cu 2 R.LN_OL_WLIM 16)
  let e := w - s.omegaM
  let g := s.gain 1 (grid (absR e * s.cu 2 R.LN_OL_SGS 16))
  let u := grid (s.cu 2 R.LN_OL_SKP 16 * g.1 * e + l.xs + s.feedForward l.tl 0)
  let v1 := if 0 < u * sg then sg * minR (absR r) (absR u) else u
  formDemand s { l with wref := w, u := u } u v1 e (s.cu 2 R.LN_OL_SKI 8 * g.2 * s.tSec * e)

/-- An integral of an outer loop in rad/s, held in the direction that would raise |w_ref| while the speed loop is held (04
R151). -/
def outerIntegral (l : OlLoop) (x dx : Rat) : Rat :=
  if l.holdUp ∧ 0 ≤ dx * l.wref then x else grid (x + dx)

/-! ### Paths -/

/-- The speed ramp of a run, with its target (04 R161, 05 R192, R200); in the tick that initialises it, it stands (R173, R175). -/
def rampRun (s : State) (path : Nat) (first : Bool) (l : OlLoop) : OlLoop :=
  let t := s.tSec
  let rdec := s.cu 2 R.LN_OL_RDEC 16
  let dec := if path = 6 ∧ s.sub ≠ 0 ∧ s.rd R.LN_MD_ERDEC ≠ 0 then s.rdU R.LN_MD_ERDEC 16 else rdec
  let cmd := if path = 6 then (l.hyst, 0) else s.command l.hyst
  let hold := path != 6 && s.on R.LN_MD_CFG_BRAKE && s.rd R.LN_MD_BRK_PH != 0
  let target := if hold then 0 else cmd.2
  let r := if first then l.ramp else grid (rampStep (s.cu 2 R.LN_OL_RACC 16 * t) (dec * t) l.ramp target)
  { l with
    hyst := cmd.1
    target := target
    targetHeld := hold
    slope := if t = 0 then 0 else divR (r - l.ramp) t
    ramp := r }

/-- One tick of the position trajectory (04 R152): a trapezoidal profile, planned anew from the present position and speed. The speed is
kept where a deceleration by RDEC · t per tick still ends at POSITION_REF; within RDEC · t² of it the profile arrives, with w_traj = 0
(the discrete form is a DESIGN CHOICE, assumption log 17). -/
def trajStep (s : State) (l : OlLoop) : OlLoop :=
  let t := s.tSec
  let k := s.countsPerRad
  let d := divR (wrapPos ((s.ol.positionRef : Rat) - l.pTraj)) k
  let step := s.cu 2 R.LN_OL_RDEC 16 * t
  let top := s.cu 2 R.LN_OL_PVMAX 16
  let vlim := minR top (sqrtR (step * step + 2 * s.cu 2 R.LN_OL_RDEC 16 * absR d) - step)
  let w := rampStep (s.cu 2 R.LN_OL_RACC 16 * t) step l.wTraj (if d < 0 then -vlim else vlim)
  let w := clampR (-top) top w
  let slope (w : Rat) : Rat := if t = 0 then 0 else divR (w - l.wTraj) t
  if absR d ≤ step * t ∧ absR l.wTraj ≤ step then
    { l with pTraj := (s.ol.positionRef : Rat), wTraj := 0, slope := slope 0 }
  else { l with pTraj := grid (l.pTraj + w * t * k), wTraj := grid w, slope := slope w }

/-- The recovery of a compliance offset (04 R165). -/
def recoverShift (s : State) (l : OlLoop) : OlLoop :=
  if !l.recov then l
  else
    let step := grid (s.cu 2 R.LN_OL_CRECOV 16 * s.tSec * s.countsPerRad)
    let x := if l.shift < 0 then minR 0 (l.shift + step) else maxR 0 (l.shift - step)
    { l with shift := x, recov := decide (x ≠ 0) }

/-- TENSION (04 R151, R152). -/
def tensionRun (s : State) (first : Bool) (l : OlLoop) : OlLoop :=
  let hv := s.heaveTerms.1
  let tref := if first then l.tRef else slewTo (if s.kft = 0 then 0 else grid (s.cu 2 R.LN_OL_TSLEW 8 / s.kft * s.tSec)) l.tRef s.ol.tensionRef
  let l := { l with tRef := tref }
  if l.compl then
    let l := complTick s 3 l
    speedLoop s (l.wPath + hv) 0 l
  else
    let e := s.tensionError l
    let wt := grid (s.cu 2 R.LN_OL_TKP 32 * e.2.1 * e.1 + l.xt)
    let l := speedLoop s (wt + hv) 0 { l with wPath := wt }
    { l with xt := outerIntegral l l.xt (s.cu 2 R.LN_OL_TKI 32 * e.2.2 * s.tSec * e.1) }

/-- PAYOUT (04 R151, R152, R168); w_heave enters the inertia feed-forward. -/
def payoutRun (s : State) (first : Bool) (l : OlLoop) : OlLoop :=
  let hv := s.heaveTerms
  let l := recoverShift s l
  let hslope (w0 w1 : Rat) : Rat := if s.tSec = 0 then 0 else divR (w1 - w0) s.tSec
  if l.compl then
    let l := complTick s 4 l
    speedLoop s (l.wPath + hv.1) (hslope l.hvRef hv.1) { l with hvRef := hv.1 }
  else
    let l := if first then { l with slope := 0 } else trajStep s l
    let e := s.positionError l
    let wp := grid (l.wTraj + s.cu 2 R.LN_OL_PKP 32 * e.2.1 * e.1 + l.xp)
    let l := speedLoop s (wp + hv.1) (l.slope + hslope l.hvRef hv.1) { l with wPath := wp, hvRef := hv.1 }
    { l with xp := outerIntegral l l.xp (s.cu 2 R.LN_OL_PKI 32 * e.2.2 * s.tSec * e.1) }

/-- TORQUE (04 R149, R547): step 1 of R158 acts on the torque reference. -/
def torqueRun (s : State) (l : OlLoop) : OlLoop :=
  let r := slewTo (grid (s.cu 2 R.LN_OL_TSLEW 8 * s.tSec)) l.tRef s.ol.torqueRef
  guardLoop s r { l with tRef := r, unlimited := decide (r = s.ol.torqueRef) }

/-- The path of a tick (04 R149, 05 R191, 08 R301, R312), `first` in the tick that initialises it. -/
def pathRun (s : State) (path : Nat) (first : Bool) (l : OlLoop) : OlLoop :=
  match path with
  | 2 => torqueRun s l
  | 3 => tensionRun s first (rampRun s 3 first l)
  | 4 => payoutRun s first (rampRun s 4 first l)
  | 5 => guardLoop s (s.lim.share + s.lim.ofs) { l with unlimited := true }
  | 7 => { l with tdem := 0, d := 0, cpos := s.ceilings.1, cneg := s.ceilings.2, ceil := false, ceilest := false }
  | _ =>
    let l := rampRun s path first l
    speedLoop s (if path = 6 ∧ (s.rd R.LN_MD_BRK_PH = 3 ∨ s.rd R.LN_MD_BRK_PH = 4 ∨ s.rd R.LN_MD_BRK_PH = 6) then 0 else l.ramp)
      l.slope l

/-- The first tick of an incoming path (04 R173), T* continuous at the demand of the previous tick. -/
def pathInit (s : State) (path : Nat) (l : OlLoop) : OlLoop :=
  let had := l.path = 1 ∨ l.path = 3 ∨ l.path = 4 ∨ l.path = 6
  let wf := if had then l.wref else s.omegaM
  let xs := if had then l.xs else grid (l.d - s.feedForward l.tl 0)
  match path with
  | 1 | 6 => { l with ramp := s.omegaM, xs := xs, recov := false }
  | 2 => { l with tRef := l.d, recov := false }
  | 3 => { l with recov := false, ramp := s.omegaM, xs := xs, tRef := s.fMeas l.tl, xt := wf, wPath := wf, shift := 0 }
  | 4 =>
    { l with
      ramp := s.omegaM
      xs := xs
      pTraj := grid ((s.pfb : Rat) + s.posCorr)
      wTraj := s.omegaM
      wPath := s.omegaM
      xp := 0
      shift := 0
      recov := false
      hvRef := s.heaveTerms.1 }
  | _ => { l with recov := false }

/-- Tracking (05 R193). -/
def track (s : State) (l : OlLoop) : OlLoop :=
  let ff : Rat := if s.con 2 R.LN_OL_CFG_FFEN then 0 else 1
  { l with
    ramp := s.omegaM
    target := s.omegaM
    targetHeld := false
    slope := 0
    xs := ff * l.tl
    d := 0
    tdem := 0
    wref := 0
    cpos := 0
    cneg := 0
    ceil := false
    ceilest := false
    heave := false
    compl := false
    cylim := false
    recov := false
    y := 0
    start := 0
    path := 0 }

/-! ### Starts (04 R174–R178, 05 R200) -/

/-- The mean of the last eight speeds (04 R174). -/
def meanSpeed (l : OlLoop) : Rat := divR (l.wHist.foldl (· + ·) 0) ((l.wHist.length : Nat) : Rat)

/-- The presets of a start at a speed (04 R175), and the release of the brake (05 R200). -/
def startPreset (s : State) (path : Nat) (w : Rat) (l : OlLoop) : OlLoop :=
  let l := { track s l with ramp := w, path := path }
  let l : OlLoop :=
    match path with
    | 3 => { l with tRef := s.fMeas l.tl, xt := w, wPath := w, shift := 0 }
    | 4 => { l with pTraj := grid ((s.pfb : Rat) + s.posCorr), wTraj := s.omegaM, wPath := s.omegaM, xp := 0, shift := 0, hvRef := 0 }
    | 2 => { l with tRef := 0 }
    | _ => l
  if s.on R.LN_MD_CFG_BRAKE then
    { l with
      xs := if s.con 2 R.LN_OL_CFG_TSRC ∧ s.ol.loadPinSeen ∧ !s.ol.loadPinStale then grid (s.kft * s.ol.loadPin)
        else s.rdQ R.LN_MD_HOLDT 8
      askRelease := true
      targetHeld := true }
  else l

/-- Tick s of a flying start (04 R174–R177): refused with a RESULT, started, or a flux build begun. -/
def startTick (s : State) (path : Nat) (l : OlLoop) : OlLoop :=
  let vv := (s.roleCh 5).isSome && (s.roleCh 6).isSome && (s.roleCh 7).isSome
  let caught := !s.fbValid && s.cf.emfValid
  let w := if caught then divR s.cf.emfOmega (s.coef 1 R.LN_CF_MACH_PP : Nat) else if s.fbValid then meanSpeed l else 0
  let l := { l with wavg := fmtQ 32 16 w, askPath := !s.fbValid }
  let refused (code : Nat) : OlLoop := { track s l with refuse := some code }
  if !s.fbValid ∧ (s.induction ∨ !s.degradedPath ∨ !vv ∨ (!caught ∧ 2 / 100 ≤ s.cf.emfAmp)) then refused 10
  else if 13 / 10 * s.cu 2 R.LN_OL_WRATED 16 < absR w then refused 8
  else if s.induction then
    { track s l with start := 1, path := path, buildAt := s.time.tbLast, cpos := s.ceilings.1, cneg := s.ceilings.2 }
  else pathRun s path true { startPreset s path w l with start := 1 }

/-- The flux of an induction machine has reached 0.9 of its reference (04 R176). -/
def State.fluxBuilt (s : State) : Bool := decide (9 / 10 * s.cf.psirRef ≤ s.cf.psir)

/-- The flux build has taken longer than FLUXTMO (04 R176). -/
def State.fluxLate (s : State) (l : OlLoop) : Bool :=
  decide (l.buildAt + msCyc (s.coef 2 R.LN_OL_FLUXTMO) ≤ s.time.tbLast)

/-- A tick of a flux build (04 R176): FLUX_BUILD_END, FLUX_TIMEOUT, or T* = 0. -/
def buildTick (s : State) (path : Nat) (l : OlLoop) : OlLoop :=
  if s.fluxBuilt then pathRun s path true { startPreset s path (meanSpeed l) l with start := 3 }
  else if s.fluxLate l then { track s l with refuse := some 9 }
  else { l with start := 2, tdem := 0, d := 0 }

/-- The command of a start has been reached (04 R178). -/
def startReached (s : State) (path : Nat) (l : OlLoop) : Bool :=
  if path = 1 ∨ path = 3 ∨ path = 4 then !l.targetHeld && decide (l.ramp = l.target)
  else l.unlimited && !(s.on R.LN_MD_CFG_BRAKE && s.rd R.LN_MD_BRK_PH != 0)

/-- START_COMPLETE: START reads 4 once the command is first reached, 3 while it is not (04 R178). -/
def startProgress (s : State) (path : Nat) (l : OlLoop) : OlLoop :=
  if l.start = 1 ∨ l.start = 3 then { l with start := if startReached s path l then 4 else 3 } else l

/-! ### The run -/

/-- The loops of a tick on a path that runs. -/
def loopsRun (s : State) (path : Nat) (l : OlLoop) : OlLoop :=
  if s.seq.flyStart ∧ s.drive = 3 then startTick s path l
  else if (l.start = 1 ∨ l.start = 2) ∧ s.induction ∧ s.drive = 3 then buildTick s path l
  else
    let resumed := s.seq.resume && s.drive == 3
    let l := if resumed ∧ l.path = 6 ∧ path = 1 then { l with path := 1 } else l
    let first := path != l.path
    let l := if path = l.path then l
      else if resumed then { pathInit s path l with compl := false, cylim := false, path := path, ramp := l.ramp, xs := l.xs }
      else { pathInit s path l with compl := false, cylim := false, path := path }
    let l := if resumed then { l with start := 3 } else l
    let l := if s.drive = 3 then l else { l with start := 0 }
    let l := if l.compl ∧ !s.complAllowed path l then complEnd s path l else l
    let l := complStart s path l
    startProgress s path (pathRun s path first l)

/-- The tables that a run of OUTER reads, but for the coefficient bank and the map (04 R150–R152, R160): the gain tables of the loops on
its path, the command curve where it gives the command. -/
def State.outerReads (s : State) : List Nat :=
  let p := s.olPath
  (if p = 0 ∨ p = 7 then [] else [1]) ++ (if p = 3 then [2] else []) ++ (if p = 4 then [3] else [])
    ++ (if (p = 1 ∨ p = 3 ∨ p = 4) ∧ s.coef 2 R.LN_OL_CFG_CMDSRC ≠ 0 then [4] else [])

/-- One run of OUTER on the state at its task start: the loop state it will post. -/
def outerRun (s : State) : OlLoop :=
  let l := { s.olp with refuse := none, askRelease := false, askPath := false, shockDet := 0, cylimNew := false }
  let l := shockClear s (detect s (observe s l))
  let path := s.olPath
  let l := if path = 0 then track s l else loopsRun s path l
  { l with
    fMeas := s.fMeas l.tl
    posErr := if path = 4 then (s.positionError l).1 else 0
    yd := if l.compl then l.yd else 0
    wHeave := if path = 3 ∨ path = 4 then s.heaveTerms.1 else 0
    heave := decide ((path = 3 ∧ s.heaveTerms.1 ≠ 0) ∨ (path = 4 ∧ (s.heaveTerms.1 ≠ 0 ∨ s.heaveTerms.2 ≠ 0)))
    tcog := s.tcog }

/-- The status registers of OUTER as posted (04 R181). -/
def outerStatus (s : State) : State :=
  let l := s.olp
  let f (f : Fld) (b : Bool) (s : State) : State := s.wr f (b2n b)
  let s := (s.wr R.LN_OL_STAT_START l.start).wr R.LN_OL_STAT_HYST l.hyst
  let s := f R.LN_OL_STAT_LPSTALE s.ol.loadPinStale (f R.LN_OL_STAT_LVSTALE s.ol.leverStale (f R.LN_OL_STAT_HVSTALE s.ol.hvStale s))
  let s := f R.LN_OL_STAT_HEAVE l.heave (f R.LN_OL_STAT_CYLIM l.cylim (f R.LN_OL_STAT_RECOV l.recov s))
  let s := f R.LN_OL_STAT_COMPL l.compl (f R.LN_OL_STAT_SHOCK l.shock (f R.LN_OL_STAT_CEILEST l.ceilest (f R.LN_OL_STAT_CEIL l.ceil s)))
  let s := ((s.postQ R.LN_OL_TLHAT 8 l.tl).postQ R.LN_OL_TDEM 8 l.tdem).postQ R.LN_OL_Y 16 l.y
  let s := s.postQ R.LN_OL_WAVG 16 l.wavg
  if s.isHead then s.postQ R.BL_CS_D 8 l.d else s

/-- A start is refused (04 R174, R176, R177; 05 R186, R191): the drive returns to READY, out of a sub-mode too, and the request completes. -/
def startRefused (code : Nat) (s : State) : State :=
  let s := { s with
    seq := { s.seq with starting := false, release := false }
    olp := { s.olp with start := 0 } }
  (enter 2 0 0 false (s.wr R.LN_OL_STAT_START 0)).reqDone 3 code

/-- START_COMPLETE: a START whose command has been reached completes with OK (04 R178). -/
def startCompleteIfDue (s : State) : State :=
  if s.seq.starting ∧ s.olp.start = 4 then { s with seq.starting := false }.reqDone 3 0 else s

/-- The shock events of a posting (04 R163, R164). -/
def outerEvents (l : OlLoop) (s : State) : State :=
  let s := if l.shockDet = 0 then s
    else (s.inc R.LN_OL_SHKCNT).event Ev.SHOCK 2 (bytesLE 4 l.shockDet ++ bytesLE 4 (wrapTo 32 (toFix 8 l.rate))
      ++ bytesLE 4 (wrapTo 32 (toFix 8 l.tl)))
  if l.cylimNew then s.event Ev.COMPL_LIMIT 2 else s

/-- OUTER's output posted at its substitution point (04 R142). The yield that a compliance in TENSION leaves is reported once
(04 R165). -/
def outerPost (s : State) : State :=
  match s.olNew with
  | none => s
  | some l =>
    let s := outerEvents l (outerStatus { s with olp := l, olNew := none, ln.outerOld := none })
    let s := { s with olp := if l.compl then l else { l with y := 0 } }
    match l.refuse with
    | some code => startRefused code s
    | none =>
      let s := { s with seq := { s.seq with flyStart := false, resume := false } }
      let s := if l.askPath then { s with fb.change := some 1 } else s
      let s := if l.askRelease then
          { (s.wr R.LN_MD_BRK_PH 1).wr R.LN_MD_BRK_SETCMD 0 with
            seq := { s.seq with release := true, releaseAt := s.time.tb, brkLow := 0, setWatch := false } }.soutRefresh
        else s
      startCompleteIfDue s

/-- A run of OUTER without a valid output leaves no trace in its variables (02 R74): they are what they were at the end of the last tick.
Records that it popped are not popped again (assumption log 47). -/
def outerBack (s : State) : State :=
  match s.ln.outerOld with
  | some (o, t) => ({ s with ol := o, olNew := none, ln.outerOld := none }.wr R.TH_TCEIL t)
  | none => { s with olNew := none }

/-- OUTER's rest output (02 R76): T* = 0. -/
def outerRest (s : State) : State :=
  let s := outerBack s
  let s := { s with olp := { s.olp with tdem := 0, d := 0 } }
  s.wr R.LN_OL_TDEM 0

/-- FLUX_BUILD_END on the posted state (04 R176). -/
def fluxBuildEndIfDue (s : State) : State :=
  if s.olp.start = 2 ∧ s.fluxBuilt ∧ s.induction ∧ s.drive = 3 then
    outerPost { s with olNew := some { startPreset s s.olPath (meanSpeed s.olp) s.olp with
      start := 3, refuse := none, shockDet := 0, cylimNew := false, askPath := false } }
  else s

/-- FLUX_TIMEOUT on the posted state (04 R176): the gates go off and the start is refused. -/
def fluxTimeoutIfDue (s : State) : State :=
  if s.olp.start = 2 ∧ !s.fluxBuilt ∧ s.drive = 3 ∧ s.fluxLate s.olp then startRefused 9 s else s

/-- SHOCK_CLEAR on the posted state (04 R163). -/
def shockClearIfDue (s : State) : State :=
  let l := shockClear s { s.olp with shockDet := 0 }
  if s.olp.shock ∧ !l.shock then outerStatus { s with olp := { l with y := if l.path = 3 then 0 else l.y } } else s

end Sys2Proof.Machine
end

