-- ==== Sys2Proof/Machine/Pwm.lean ====
section
/-! DEFINITION. The edge scheduler of LIMSHARE (03 R121–R137) and the chopper law (05 R204–R208): duties, edges of a carrier,
compensation of refresh pulses, the committed schedule, its check by the Signal Box and its way to the gates (06 R219,
R226). -/

namespace Sys2Proof.Machine

/-! ### Duties (03 R125, R126) -/

/-- The voltage-error table at a predicted current (03 R128); beyond ±IMAX the end entry, and with IMAX = 0 the middle one (DESIGN CHOICE,
assumption log 42). -/
def State.voltError (s : State) (i : Rat) : Rat :=
  let imax := s.cu 1 R.LN_CF_IMAX 30
  let x := if imax = 0 then 32 else clampR 0 64 (grid ((i / imax + 1) * 32))
  grid (interp (fun k => s.entryQ 3 8 k 31) 65 x)

/-- The largest and smallest of three numbers. -/
def max3 (a b c : Rat) : Rat := maxR a (maxR b c)

/-- The smallest of three numbers. -/
def min3 (a b c : Rat) : Rat := minR a (minR b c)

/-- The modulation in force: PATTERN falls back to SVPWM while its table is stale (03 R138). -/
def State.modulation (s : State) : Nat := if s.rd R.PW_MODE = 3 ∧ s.stale 9 then 0 else s.rd R.PW_MODE

/-- The zero-sequence term u0 (03 R125). -/
def zeroSequence (mode : Nat) (a b c : Rat) : Rat :=
  let hi := max3 a b c
  let lo := min3 a b c
  match mode with
  | 1 => if absR lo ≤ absR hi then 1 / 2 - hi else -(1 / 2) - lo
  | 2 => -(1 / 2) - lo
  | _ => -(hi + lo) / 2

/-- The three duties, the radial factor applied and u0 (03 R125, R126). -/
def State.duties (s : State) : (Rat × Rat × Rat) × Rat × Rat :=
  let a := s.cf.u[0] + s.voltError s.cf.ip[0]
  let b := s.cf.u[1] + s.voltError s.cf.ip[1]
  let c := s.cf.u[2] + s.voltError s.cf.ip[2]
  let w := max3 a b c - min3 a b c
  let k : Rat := if 1 < w then divR 1 w else 1
  let u0 := zeroSequence s.modulation (k * a) (k * b) (k * c)
  let d (x : Rat) : Rat := clampR 0 1 (grid (1 / 2 + k * x + u0))
  ((d a, d b, d c), k, u0)

/-- The minimum-pulse rules on a duty (03 R127). -/
def State.minPulse (s : State) (d : Rat) : Rat :=
  let tc : Rat := (s.tc : Nat)
  let ton := d * tc
  if ton < (s.rd R.PW_MINPULSE : Nat) then 0
  else if tc - ton < ((s.rd R.PW_MINPULSE + 2 * s.rd R.PW_DT : Nat) : Rat) then 1
  else d

/-! ### Volt-second compensation (03 R136, R137) -/

/-- A part added to the duty of a leg: up to 1 on the leg, the rest taken from both of the other legs; what is left over. -/
def placePart (leg : Nat) (part : Rat) (d : Rat × Rat × Rat) : (Rat × Rat × Rat) × Rat :=
  let get (x : Nat) : Rat := if x = 0 then d.1 else if x = 1 then d.2.1 else d.2.2
  let own := get leg
  let up := minR part (1 - own)
  let rest := part - up
  let y := (leg + 1) % 3
  let z := (leg + 2) % 3
  let down := minR rest (minR (get y) (get z))
  let new (x : Nat) : Rat := if x = leg then own + up else get x - down
  ((new 0, new 1, new 2), rest - down)

/-- Compensations placed one after another: the duties, what is carried on, and how many were dropped after the first carrier and 8
following ones. A carrier that modulates no leg by its duty (`can` false) places nothing. -/
def placeAll (can : Bool) : List VsResidue → Rat × Rat × Rat → (Rat × Rat × Rat) × List VsResidue × Nat
  | [], d => (d, [], 0)
  | r :: rs, d =>
    let p := if can then placePart r.leg r.part d else (d, r.part)
    let q := placeAll can rs p.1
    if p.2 ≤ 0 then q
    else if r.left ≤ 1 then (q.1, q.2.1, q.2.2 + 1)
    else (q.1, { r with part := p.2, left := r.left - 1 } :: q.2.1, q.2.2)

/-- The compensations of a commit: those carried on, and those CURFLD has posted since the last commit. -/
def State.vsParts (s : State) : List VsResidue :=
  s.pw.residues ++ [0, 1, 2].filterMap (fun x =>
    let d := (s.pw.due.toList[x]?).getD 0
    if d = 0 then none else some { leg := x, part := d, left := 9 })

/-- Whether the next commit modulates the legs by their duties (03 R125, R129). -/
def State.dutyMode (s : State) (kind : CarrierKind) : Bool := kind == .modulated && s.modulation != 3

/-! ### Edges of a carrier (03 R127, R129, R130) -/

/-- The edges of a leg's high and low side in eighths of a cyc, and the level afterwards (03 R127). `lead` is the first instant at which
the low side of a leg that is off may turn on: 0, or later where the high side went off less than DT before the carrier (R133). -/
def legEdges (tc dt lead : Nat) (level : LegLevel) (d : Rat) : List Word × List Word × LegLevel :=
  let t8 := tc * 8
  let d8 := dt * 8
  let ton := min t8 (toFix 3 (d * (tc : Nat))).toNat
  let a := (t8 - ton + 1) / 2
  let full := decide (ton = t8) || decide (a < d8)
  let again : List Word := if a + ton + d8 < t8 then [edgeWord true (a + ton + d8)] else []
  let after : LegLevel := if a + ton + d8 < t8 then .low else .off
  match level with
  | .off =>
    if ton = 0 then ([], [edgeWord true lead], .low)
    else if full then ([edgeWord true d8], [], .high)
    else
      ([edgeWord true a, edgeWord false (a + ton)],
        (if a ≤ d8 + lead then [] else [edgeWord true lead, edgeWord false (a - d8)]) ++ again, after)
  | .low =>
    if ton = 0 then ([], [], .low)
    else if full then ([edgeWord true d8], [edgeWord false 0], .high)
    else ([edgeWord true a, edgeWord false (a + ton)], edgeWord false (a - d8) :: again, after)
  | .high =>
    if full then ([], [], .high)
    else if ton = 0 then ([edgeWord false 0], [edgeWord true d8], .low)
    else
      ([edgeWord false ton], (if ton + d8 < t8 then [edgeWord true (ton + d8)] else []),
        if ton + d8 < t8 then .low else .off)

/-- A leg all off from a level. -/
def legOff (level : LegLevel) : List Word × List Word × LegLevel :=
  match level with
  | .off => ([], [], .off)
  | .low => ([], [edgeWord false 0], .off)
  | .high => ([edgeWord false 0], [], .off)

/-- A leg of the ASC pattern from a level (05 R191): low side on, high side off. -/
def legAsc (dt lead : Nat) (level : LegLevel) : List Word × List Word × LegLevel :=
  match level with
  | .off => ([], [edgeWord true lead], .low)
  | .low => ([], [], .low)
  | .high => ([edgeWord false 0], [edgeWord true (dt * 8)], .low)

/-- The edges of a channel in a pattern (03 R129). -/
def State.patternEdges (s : State) (pat c : Nat) : List Word :=
  (List.range 4).filterMap (fun e =>
    let p := Config.patternWord (s.entry 3 9 (24 * pat + 4 * c + e))
    if p.1 then some (edgeWord p.2.1 (toFix 3 (ofFix 16 p.2.2.toNat * (s.tc : Nat))).toNat) else none)

/-- The pattern in force at an inverse-Park angle (03 R129). -/
def State.patternNo (s : State) : Nat :=
  min 63 (s.cf.thetaMid * ((max 1 (min 64 (s.rd R.PW_NPAT)) : Nat) : Rat)).floor.toNat

/-- A leg as a pattern's edges are taken into it: the levels of its two sides, the latest turn-off of each in eighths of a cyc, and the
edges kept, the latest first. -/
structure PatternLeg where
  hi : Bool
  lo : Bool
  hiOff : Nat
  loOff : Nat
  his : List Word := []
  los : List Word := []
  deriving DecidableEq, Repr

/-- One edge of a pattern taken into its leg, if it keeps the rules of R133: later than the channel's edge before it and inside the
carrier, opposite to the channel's level, and a turn-on at least DT after the partner's turn-off. -/
def patternTake (t8 d8 start8 : Nat) (p : PatternLeg) (high : Bool) (w : Word) : PatternLeg :=
  let own := if high then p.hi else p.lo
  let es := if high then p.his else p.los
  let free := !(if high then p.lo else p.hi) && decide ((if high then p.loOff else p.hiOff) + d8 ≤ start8 + edgeTime w)
  let fits := decide (edgeTime w < t8) && es.all (fun x => decide (edgeTime x < edgeTime w)) && edgeLevel w != own
    && (!edgeLevel w || free)
  if !fits then p
  else if high then
    { p with hi := edgeLevel w, his := w :: p.his, hiOff := if edgeLevel w then p.hiOff else start8 + edgeTime w }
  else { p with lo := edgeLevel w, los := w :: p.los, loOff := if edgeLevel w then p.loOff else start8 + edgeTime w }

/-- An edge put into a list ordered by time, a turn-off before a turn-on of the same instant. -/
def edgeInsert (e : Bool × Word) : List (Bool × Word) → List (Bool × Word)
  | [] => [e]
  | x :: xs =>
    if edgeTime e.2 < edgeTime x.2 ∨ (edgeTime e.2 = edgeTime x.2 ∧ !edgeLevel e.2) then e :: x :: xs else x :: edgeInsert e xs

/-- The edges of a leg in PATTERN mode (03 R129, R133): those of the table in the order of their times, a turn-off before a turn-on of the
same instant. An edge with which the schedule would break R133 is left out (DESIGN CHOICE, assumption log 43). -/
def State.patternLeg (s : State) (pat x start : Nat) (lv : LegLevel) : List Word × List Word × LegLevel :=
  let off (n : Nat) : Nat := (s.pw.lastOff.toList[n]?).getD 0
  let es := (s.patternEdges pat (2 * x)).map (fun w => (true, w)) ++ (s.patternEdges pat (2 * x + 1)).map (fun w => (false, w))
  let p := (es.foldr edgeInsert []).foldl (fun p e => patternTake (s.tc * 8) (s.rd R.PW_DT * 8) (start * 8) p e.1 e.2)
    { hi := lv == .high, lo := lv == .low, hiOff := off (2 * x), loOff := off (2 * x + 1) }
  (p.his.reverse, p.los.reverse, if p.hi then .high else if p.lo then .low else .off)

/-! ### The chopper (05 R204, R206, R208) -/

/-- GK has been full on for 2 ms without a fall of vdc, at an instant of this tick (05 R208). -/
def State.spanFaultAt (s : State) (t : Nat) : Bool :=
  match s.pw.span with
  | some (a, some v, e) => s.on R.LN_MD_CFG_CHEN && decide (a + 800000 ≤ min t (e.getD t)) && decide (v ≤ s.vdc)
  | _ => false

/-- LIMSHARE's substitution point of this tick closes a span with CHOPPER_FAULT: R = 0 and GK is off from the commit made there
(05 R208; DEDUCED, assumption log 28). -/
def State.spanCloses (s : State) : Bool :=
  s.spanFaultAt (s.time.tbLast + (s.taskSlot 3).1 + (s.taskSlot 3).2)

/-- GK may follow the chopper law (05 R204, R206). -/
def State.chopperAllowed (s : State) : Bool :=
  s.on R.LN_MD_CFG_CHEN && s.on R.PW_CTL_RUN && !s.on R.SB_STAT_STO && s.rd R.SB_SFLT == 0 && !s.hold8
    && !s.hasCause 11 && !s.hasCause 9 && !s.spanCloses && s.rd (latchField 6) == 0

/-- d_ch with the activity it sets (05 R206): without a chopper there is none. -/
def State.chopperDuty (s : State) : Rat × Bool :=
  let v := s.vdc
  let act := s.on R.LN_MD_CFG_CHEN && (if 112 / 100 ≤ v then true else if v < 110 / 100 then false else s.pw.chact)
  if !s.chopperAllowed then (0, act)
  else if act then (clampR 0 1 (grid (s.rdU R.LN_MD_CHGAIN 8 * (v - 110 / 100))), act) else (0, act)

/-- The GK edges of a carrier, the level afterwards, and whether the carrier is full on (03 R130, 05 R206). -/
def gkEdges (tc minp : Nat) (on : Bool) (d : Rat) : List Word × Bool × Bool :=
  let t8 := tc * 8
  let m8 := minp * 8
  let ton := (toFix 3 (d * (tc : Nat))).toNat
  if d = 0 then (if on then [edgeWord false 0] else [], false, false)
  else
    let ton := max ton m8
    if t8 < ton + m8 ∨ t8 ≤ ton then (if on then [] else [edgeWord true 0], true, true)
    else (if on then [edgeWord false ton] else [edgeWord true 0, edgeWord false ton], false, false)

/-- The span of GK full on after a commit (05 R208). -/
def spanAfter (full : Bool) (start : Nat) (sp : Option (Nat × Option Rat × Option Nat)) : Option (Nat × Option Rat × Option Nat) :=
  match full, sp with
  | true, none => some (start, none, none)
  | true, some (a, v, none) => some (a, v, none)
  | true, some (_, _, some _) => some (start, none, none)
  | false, some (a, v, none) => some (a, v, some start)
  | false, x => x

/-! ### The schedule (03 R121–R133) -/

/-- What the phase channels do in a carrier (05 R185, R191): off, the ASC pattern, modulation. -/
def State.phaseKind (s : State) : CarrierKind :=
  if !s.on R.PW_CTL_RUN then .idle
  else if s.sub = 3 ∧ (s.drive = 4 ∨ s.drive = 5) then .asc
  else if s.drive = 3 ∨ (s.drive = 4 ∧ s.sub ≤ 2) then
    (if s.olPath = 7 ∧ 8 ≤ s.seq.zeroRun then .idle else .modulated)
  else .idle

/-- A schedule of 32 words (03 R131). -/
def scheduleWords (cstart cseq flags mode : Nat) (blocks : List (List Word)) : List Word :=
  [BitVec.ofNat 32 cstart, BitVec.ofNat 32 (cstart / 2 ^ 32), BitVec.ofNat 32 cseq, BitVec.ofNat 32 (flags + mode * 256)]
    ++ (blocks.map (fun b => (b ++ List.replicate 4 0).take 4)).flatten

/-- The channel block of a schedule. -/
def blockOf (sched : List Word) (c : Nat) : EdgeBlock :=
  let w (n : Nat) : Nat := ((sched[n]?).getD 0).toNat
  { cseq := w 2, cstart := w 0 + 2 ^ 32 * w 1, edges := (sched.drop (4 + 4 * c)).take 4 }

/-- The latest committed turn-off of a channel after a schedule. -/
def offAfter (sched : List Word) (c old : Nat) : Nat :=
  let b := blockOf sched c
  match (b.edges.filter (fun w => edgeValid w && !edgeLevel w)).getLast? with
  | some w => b.cstart * 8 + edgeTime w
  | none => old

/-- The PW state after the commit of a schedule. -/
def pwAfter (p : PwState) (sched : List Word) : PwState :=
  { p with
    committed := true
    lastOff := p.lastOff.mapFinIdx (fun i x _ => offAfter sched i x) }

/-- The schedule that a commit tick forms (03 R122, R125–R133): words, the PW state after its commit, d_ch. -/
def schedule (s : State) : List Word × PwState × Rat :=
  let tc := s.tc
  let dt := s.rd R.PW_DT
  let start := s.targetStart
  let kind := s.phaseKind
  let du := s.duties
  let m (x : Rat) : Rat := s.minPulse x
  let parts := s.vsParts
  let pat := s.modulation == 3
  let comp := placeAll (s.dutyMode kind) parts (m du.1.1, m du.1.2.1, m du.1.2.2)
  let d (x : Nat) : Rat := if x = 0 then comp.1.1 else if x = 1 then comp.1.2.1 else comp.1.2.2
  let leg (x : Nat) : List Word × List Word × LegLevel :=
    let lv := (s.pw.level.toList[x]?).getD .off
    let hiOff := (s.pw.lastOff.toList[2 * x]?).getD 0
    let lead := if hiOff = 0 then 0 else hiOff + dt * 8 - start * 8
    match kind with
    | .idle => legOff lv
    | .asc => legAsc dt lead lv
    | .modulated => if pat then s.patternLeg s.patternNo x start lv else legEdges tc dt lead lv (d x)
  let ch := s.chopperDuty
  let gk := gkEdges tc (s.rd R.PW_MINPULSE) s.pw.gkOn ch.1
  let flags := (if s.on R.PW_CTL_RUN then 0 else 4) + (if s.dutyMode kind && !parts.isEmpty then 8 else 0)
  let l0 := leg 0
  let l1 := leg 1
  let l2 := leg 2
  let words := scheduleWords start ((s.rd R.PW_CSEQ + 1) % 2 ^ 32) flags (s.rd R.PW_MODE)
    [l0.1, l0.2.1, l1.1, l1.2.1, l2.1, l2.2.1, gk.1]
  let k := if pat then 1 else du.2.1
  let carrier : Carrier := { start := start, len := tc, vd := k * s.cf.vd, vq := k * s.cf.vq, kind := kind }
  (words,
    pwAfter { s.pw with
      level := #v[l0.2.2, l1.2.2, l2.2.2]
      gkOn := gk.2.1
      carriers := (carrier :: s.pw.carriers).take 4
      residues := comp.2.1
      due := Vector.replicate 3 0
      mode := s.rd R.PW_MODE
      running := s.on R.PW_CTL_RUN
      chact := ch.2
      span := spanAfter gk.2.2 start s.pw.span } words,
    ch.1)

/-- VS_COMPENSATION_DROPPED: the compensations that a commit drops are counted (03 R137). -/
def State.vsDropped (s : State) : Nat :=
  let du := s.duties
  (placeAll (s.dutyMode s.phaseKind) s.vsParts (s.minPulse du.1.1, s.minPulse du.1.2.1, s.minPulse du.1.2.2)).2.2

/-- The last schedule committed, as words. -/
def State.lastSched (s : State) : List Word := (List.range 32).map (fun w => s.word (R.PW_LASTSCHED w).addr)

/-- The schedule of a Hold-1 of LIMSHARE (03 R133, 02 R75): the last one, advanced by one carrier period, HELD set; before any
commit, and as the rest output of 02 R76, all off. -/
def heldSchedule (s : State) (rest : Bool) : List Word × PwState :=
  let start := s.targetStart
  let seq := (s.rd R.PW_CSEQ + 1) % 2 ^ 32
  if rest ∨ !s.pw.committed then
    let legs := s.pw.level.toList.map legOff
    let blocks := (legs.map (fun l => [l.1, l.2.1])).flatten ++ [if s.pw.gkOn then [edgeWord false 0] else []]
    let words := scheduleWords start seq (if rest then 2 else 1) (s.rd R.PW_MODE) blocks
    (words, pwAfter { s.pw with
      level := #v[.off, .off, .off]
      gkOn := false
      mode := s.rd R.PW_MODE
      running := s.on R.PW_CTL_RUN
      carriers := ({ start := start, len := s.tc, vd := 0, vq := 0, kind := .idle } :: s.pw.carriers).take 4
      span := spanAfter false start s.pw.span } words)
  else
    let old := s.lastSched
    let cstart := (blockOf old 0).cstart + s.tc
    let words := [BitVec.ofNat 32 cstart, BitVec.ofNat 32 (cstart / 2 ^ 32), BitVec.ofNat 32 seq,
      ((old[3]?).getD 0) ||| 1] ++ old.drop 4
    let c := match s.pw.carriers with
      | k :: _ => { k with start := cstart }
      | [] => { start := cstart, len := s.tc, vd := 0, vq := 0, kind := .idle }
    (words, pwAfter { s.pw with carriers := (c :: s.pw.carriers).take 4 } words)

/-! ### The check of the Signal Box (06 R226) -/

/-- The level of a channel before a schedule, by the levels of the PW. -/
def channelLevel (p : PwState) (c : Nat) : Bool :=
  if c = 6 then p.gkOn
  else ((p.level.toList[c / 2]?).getD .off) == (if c % 2 = 0 then .high else .low)

/-- Whether the valid edges of a block come first, in strictly increasing time, alternate, start opposite to the level in
force and lie within the carrier (03 R133). -/
def blockFormed (tc : Nat) : Bool → Option Nat → List Word → Bool
  | _, _, [] => true
  | lv, t, w :: ws =>
    if !edgeValid w then ws.all (fun x => !edgeValid x)
    else edgeLevel w != lv && decide (edgeTime w < tc * 8)
      && (match t with | some t => decide (t < edgeTime w) | none => true)
      && blockFormed tc (edgeLevel w) (some (edgeTime w)) ws

/-- The on-intervals of a channel over a carrier, in eighths of a cyc after CSTART. -/
def onIntervals (t8 : Nat) : Bool → Nat → List Word → List (Nat × Nat)
  | lv, from_, [] => if lv then [(from_, t8)] else []
  | lv, from_, w :: ws =>
    if !edgeValid w then onIntervals t8 lv from_ ws
    else if edgeLevel w then onIntervals t8 true (if lv then from_ else edgeTime w) ws
    else (if lv then [(from_, edgeTime w)] else []) ++ onIntervals t8 false from_ ws

/-- Whether two on-intervals of different channels overlap. -/
def overlaps (a b : List (Nat × Nat)) : Bool := a.any (fun x => b.any (fun y => max x.1 y.1 < min x.2 y.2))

/-- Whether every turn-on of a block follows the partner's preceding turn-off by at least `gap` eighths of a cyc. -/
def deadTimeKept (gap cstart8 partnerOff : Nat) (own partner : List Word) : Bool :=
  own.all (fun w => !(edgeValid w && edgeLevel w) ||
    (let offs := (partner.filter (fun x => edgeValid x && !edgeLevel x && edgeTime x ≤ edgeTime w)).map (fun x => cstart8 + edgeTime x)
     let last := (offs.getLast?).getD partnerOff
     decide (last = 0 ∨ last + gap ≤ cstart8 + edgeTime w)))

/-- The Signal Box's verdict on the channels of a schedule (06 R226), from the levels before it; `ok` is the verdict for a block
that passes. -/
def verdict (s : State) (sched : List Word) (ok : Verdict) (c : Nat) : Verdict :=
  let t8 := s.tc * 8
  let b := blockOf sched c
  let lv := channelLevel s.pw c
  let formed := blockFormed s.tc lv none b.edges
  if c = 6 then (if formed then ok else .rejectSched)
  else
    let q := partner c
    let pb := blockOf sched q
    let plv := channelLevel s.pw q
    let off (n : Nat) : Nat := (s.pw.lastOff.toList[n]?).getD 0
    let shoot := overlaps (onIntervals t8 lv 0 b.edges) (onIntervals t8 plv 0 pb.edges)
      || !deadTimeKept (s.rd R.GD_DTMIN * 8) (b.cstart * 8) (off q) b.edges pb.edges
      || !deadTimeKept (s.rd R.GD_DTMIN * 8) (b.cstart * 8) (off c) pb.edges b.edges
    if shoot then .rejectShoot
    else if formed && deadTimeKept (s.rd R.PW_DT * 8) (b.cstart * 8) (off q) b.edges pb.edges then ok
    else .rejectSched

/-! ### Commit (03 R122, 06 R219, R233) -/

/-- The low-side edges of a precharge pulse (06 R232, R233). -/
def prechargeEdges (s : State) : List Word :=
  [edgeWord true (s.rd R.PW_DT * 8), edgeWord false ((s.rd R.PW_DT + s.tref) * 8)]

/-- The blocks that are staged at the end of LIMSHARE's execution (06 R219); in READY the Signal Box puts the precharge pulse
into the low side of one leg per carrier (06 R233). -/
def stageBlocks (sched : List Word) (s : State) : State :=
  let pre := s.drive == 2 && s.gd.preStart.isSome && !s.on R.GD_STAT_PREDONE
  let leg := s.gd.preLeg
  let s := (List.range 7).foldl (fun s c =>
    let b := blockOf sched c
    let b := if pre ∧ c = 2 * leg + 1 then { b with edges := prechargeEdges s } else b
    s.setGch c (fun g => { g with stageTx := some b })) { s with gd.stageAt := some s.time.tb }
  if pre then { s with gd.preLeg := (leg + 1) % 3 } else s

/-- A schedule committed at LIMSHARE's substitution point (03 R122): the registers, the verdicts on their way as COMMITs
(06 R219, R226), the PW state. -/
def commitSchedule (sched : List Word) (pw : PwState) (ok : Verdict) (s : State) : State :=
  let seq := ((sched[2]?).getD 0).toNat
  let vs := (List.range 7).map (fun c => verdict s sched ok c)
  let s := (List.range 7).foldl (fun s c => s.setGch c (fun g => { g with commitTx := some ((vs[c]?).getD ok, seq) }))
    { s with gd.commitAt := some s.time.tb }
  let s := (List.range 32).foldl (fun s w => s.setWord (R.PW_LASTSCHED w).addr ((sched[w]?).getD 0)) s
  let s := (s.wr R.PW_CSEQ seq).wr R.PW_STAT_RUNNING (b2n pw.running)
  { s with pw := { pw with lateRun := s.pw.lateRun, lateSeq := s.pw.lateSeq } }

/-- The chopper's status registers at a commit (05 R211). -/
def chopperStatus (dch : Rat) (s : State) : State :=
  let s := (s.satU R.LN_MD_CHSTAT_DCH 15 dch).wr R.LN_MD_CHSTAT_ACT (b2n s.pw.chact)
  s.wr R.LN_MD_CHSTAT_FULL (b2n (match s.pw.span with | some (_, _, none) => true | _ => false))

/-- A compensation residue is carried, and the dropped ones counted (03 R137). -/
def vsStatus (dropped : Nat) (s : State) : State :=
  (s.add R.PW_VSLOST dropped).wr R.PW_STAT_VSRES (b2n (!s.pw.residues.isEmpty))

/-- VS_COMPENSATION_DROPPED on the state: residues that have been carried for 8 carriers are dropped and counted (03 R137). -/
def vsDropIfDue (s : State) : State :=
  let gone := s.pw.residues.filter (fun r => r.left = 0)
  if gone.isEmpty then s
  else vsStatus gone.length { s with pw.residues := s.pw.residues.filter (fun r => r.left ≠ 0) }

/-! ### PW registers (03 R123, R124) -/

/-- PW_CTL_RUN: a write of RUN (03 R123, R124). -/
def pwRunWrite (run : Bool) (s : State) : State := s.runSet run

/-- A write of PW.CARRIER (03 R124, R140): ignored with CFGERR while RUNNING; a K outside 1–40 is ignored. -/
def pwCarrierWrite (v : Word) (s : State) : State :=
  if s.on R.PW_STAT_RUNNING then s.wr R.PW_STAT_CFGERR 1
  else
    let s := s.wr R.PW_CARRIER_ORIGIN (R.PW_CARRIER_ORIGIN.get v)
    let k := R.PW_CARRIER_K.get v
    if 1 ≤ k ∧ k ≤ 40 then s.wr R.PW_CARRIER_K k else s.wr R.PW_STAT_CFGERR 1

/-- A write of PW.PHASE (03 R124). -/
def pwPhaseWrite (v : Word) (s : State) : State :=
  if s.on R.PW_STAT_RUNNING then s.wr R.PW_STAT_CFGERR 1 else s.wr R.PW_PHASE (R.PW_PHASE.get v)

/-- A write of the word of PW.MODE and PW.NPAT (03 R125): a MODE of 4–7 is ignored and sets CFGERR. -/
def pwModeWrite (v : Word) (s : State) : State :=
  let s := s.wr R.PW_NPAT (R.PW_NPAT.get v)
  if R.PW_MODE.get v < 4 then s.wr R.PW_MODE (R.PW_MODE.get v) else s.wr R.PW_STAT_CFGERR 1

end Sys2Proof.Machine
end

