-- ==== Sys2Proof/Machine/SigmaDelta.lean ====
section
/-! DEFINITION. The sigma-delta inputs (03 R92–R105): channel roles, the control-path filters, validity and loss, live
calibration. -/

namespace Sys2Proof.Machine

/-- A channel of the sigma-delta inputs. -/
def State.sdc (s : State) (n : Nat) : SdChan := (s.sd.ch.toList[n]?).getD {}

/-- The state with a channel of the sigma-delta inputs changed. -/
def State.setSdc (s : State) (n : Nat) (f : SdChan → SdChan) : State :=
  { s with sd.ch := s.sd.ch.mapFinIdx (fun i x _ => if i = n then f x else x) }

/-- The SDCLK divider D, in cyc (03 R94). -/
def State.sdDiv (s : State) : Nat := if s.on R.SD_CFG_CLKSEL then 20 else 40

/-- The bits of a tick, B (03 R95). -/
def State.sdBits (s : State) : Nat := s.period / s.sdDiv

/-- N, or N_eff where N × D exceeds the period (03 R97). -/
def State.sdRatio (s : State) : Nat :=
  if s.period < s.rd R.SD_CFG_OSR * s.sdDiv then s.sdBits else s.rd R.SD_CFG_OSR

/-- The number of bits that a TB interval samples. -/
def State.bitsSince (s : State) (t : Nat) : Nat := s.time.tb / s.sdDiv - t / s.sdDiv

/-- SD.STAT.ALLVALID: every assigned channel VALID, at least one being assigned (03 R139; assumption log 13). -/
def sdAllValid (s : State) : State :=
  let used := (List.range 12).filter (fun n => s.rd (R.SD_CHn_CFG_ROLE n) != 0)
  s.wr R.SD_STAT_ALLVALID (b2n (!used.isEmpty && used.all (fun n => s.on (R.SD_CHn_STAT_VALID n))))

/-- The gate-enable chain after a change of a channel's validity (03 R100). -/
def sdChanged (s : State) : State := (sdAllValid s).gateRefresh

/-- The restart of a channel (03 R99): LOSS and VALID clear, both filters are emptied and refill. -/
def sdRestart (n : Nat) (s : State) : State :=
  let s := (s.wr (R.SD_CHn_STAT_VALID n) 0).wr (R.SD_CHn_STAT_LOSS n) 0
  sdChanged (s.setSdc n (fun c => { c with bits := [], still := 0, lost := false, fillFrom := s.time.tb }))

/-- SD_RESTART: a write of SD.CHn_RST.RESTART (03 R99). -/
def sdRestartWrite (n : Nat) (s : State) : State :=
  if s.on (R.SD_CHn_CFG_EN n) then sdRestart n s else s

/-- SD_VALID: the filters have filled, 3 N bits (N_eff of R97) of the control path and 46 of the fast path, since enable or restart
(03 R99); a lost channel waits for its restart, whatever LOSS reads. -/
def sdValidIfDue (n : Nat) (s : State) : State :=
  let b := s.bitsSince (s.sdc n).fillFrom
  if s.on R.SD_CFG_EN ∧ s.on (R.SD_CHn_CFG_EN n) ∧ !(s.sdc n).lost ∧ 3 * s.sdRatio ≤ b ∧ 46 ≤ b then
    sdChanged (s.wr (R.SD_CHn_STAT_VALID n) 1)
  else s

/-- The channel that a selector position measures: none for positions 0 and 1 and for a skipped one. The codes 12–14 of SD.CAL_MAP name no
channel and skip the position as 0xF does (DESIGN CHOICE, assumption log 41). -/
def State.calChannel (s : State) (pos : Nat) : Option Nat :=
  if pos < 2 then none
  else
    let m := s.rd R.SD_CAL_MAP / 16 ^ (pos - 2) % 16
    if m < 12 then some m else none

/-- The dwell in progress is discarded where it takes a channel that is lost: the spare, or the one mapped at the position (03 R105). -/
def calDiscard (n : Nat) (s : State) : State :=
  if s.roleCh 9 = some n ∨ s.calChannel (s.rd R.SD_CAL_STAT_POS) = some n then { s with sd.cal := { s.sd.cal with skip := true } } else s

/-- SD_LOSS: 64 bits without a transition on an enabled channel clear VALID, set LOSS and raise SD_LOSS (03 R99), a cause
where the channel's role feeds the fast path, an alarm otherwise (05 R203). A dwell in progress is discarded (R105). -/
def sdLoss (n : Nat) (s : State) : State :=
  if !s.on R.SD_CFG_EN ∨ !s.on (R.SD_CHn_CFG_EN n) ∨ s.on (R.SD_CHn_STAT_LOSS n) then s
  else
    let role := s.rd (R.SD_CHn_CFG_ROLE n)
    let s := ((s.wr (R.SD_CHn_STAT_VALID n) 0).wr (R.SD_CHn_STAT_LOSS n) 1).setSdc n (fun c => { c with lost := true })
    let s := if fastRole role then s.cause 6 18 n role
      else s.event Ev.SD_LOSS 18 (bytesLE 1 6 ++ bytesLE 1 s.drive ++ bytesLE 1 s.sub ++ bytesLE 1 n ++ bytesLE 4 role)
    sdChanged (calDiscard n s)

/-- SD_CHANNEL_CONFIG: a write of SD.CHn_CFG (03 R92, R99). A role of 11–15, or one of 1–9 that another channel holds,
leaves the channel OFF and sets CFGERR. EN and ROLE are RWL. A rise of EN restarts the channel, a fall clears VALID. -/
def sdChannelConfig (n : Nat) (v : Word) (s : State) : State :=
  let s := s.wr (R.SD_CHn_CFG_SKEW n) ((R.SD_CHn_CFG_SKEW n).get v)
  if s.on R.SB_LOCK_LOCKED then s
  else
    let role := (R.SD_CHn_CFG_ROLE n).get v
    let held := 1 ≤ role && role ≤ 9 && (List.range 12).any (fun m => m != n && s.rd (R.SD_CHn_CFG_ROLE m) == role)
    let s := if 11 ≤ role ∨ held then (s.wr (R.SD_CHn_CFG_ROLE n) 0).wr R.SD_STAT_CFGERR 1
      else s.wr (R.SD_CHn_CFG_ROLE n) role
    let was := s.on (R.SD_CHn_CFG_EN n)
    let now := (R.SD_CHn_CFG_EN n).get v == 1
    let s := s.wr (R.SD_CHn_CFG_EN n) (b2n now)
    if now && !was then sdRestart n s
    else if was && !now then sdChanged ((s.wr (R.SD_CHn_STAT_VALID n) 0).wr (R.SD_CHn_STAT_LOSS n) 0)
    else sdChanged s

/-- A write of SD.CFG (03 R95, R139): an OSR outside 16–256 is ignored and sets CFGERR; CLKSEL is RWL; a start of the clock
starts the fill of the channels that are not VALID. -/
def sdConfigWrite (v : Word) (s : State) : State :=
  let osr := R.SD_CFG_OSR.get v
  let s := if 16 ≤ osr ∧ osr ≤ 256 then s.wr R.SD_CFG_OSR osr else s.wr R.SD_STAT_CFGERR 1
  let s := if s.on R.SB_LOCK_LOCKED then s else s.wr R.SD_CFG_CLKSEL (R.SD_CFG_CLKSEL.get v)
  let rise := R.SD_CFG_EN.get v == 1 && !s.on R.SD_CFG_EN
  let s := s.wr R.SD_CFG_EN (R.SD_CFG_EN.get v)
  if rise then
    (List.range 12).foldl (fun s n => if s.on (R.SD_CHn_STAT_VALID n) then s
      else s.setSdc n (fun c => { c with fillFrom := s.time.tb })) s
  else s

/-- A step of TB restarts every filter at the step (03 R101). -/
def sdTimeStep (s : State) : State :=
  (List.range 12).foldl (fun s n => if s.on (R.SD_CHn_CFG_EN n) then
      sdChanged ((s.wr (R.SD_CHn_STAT_VALID n) 0).setSdc n (fun c => { c with bits := [], fillFrom := s.time.tb }))
    else s) s

/-! ### The control path (03 R95–R97, R107) -/

/-- The weight of tap k of a sinc3 filter of ratio N. -/
def sincWeight (n k : Nat) : Nat :=
  let tri (m : Nat) : Nat := (m + 1) * (m + 2) / 2
  tri k + (if 2 * n ≤ k then 3 * tri (k - 2 * n) else 0) - (if n ≤ k then 3 * tri (k - n) else 0)

/-- The sum of a filter's taps over bits, newest first; a bit that has not been sampled adds nothing. -/
def sincSum (n : Nat) : Nat → List Bool → Int
  | _, [] => 0
  | k, b :: bs => if k < 3 * n - 2 then (if b then (sincWeight n k : Int) else -(sincWeight n k)) + sincSum n (k + 1) bs else 0

/-- A filter's output whose last bit is the newest of the list, normalised. -/
def sincOut (n : Nat) (bits : List Bool) : Rat := mkRat (sincSum n 0 bits) (n * n * n)

/-- The outputs of a tick, taken backward at a spacing of N bits. -/
def sincOuts (n : Nat) : Nat → List Bool → List Rat
  | 0, _ => []
  | m + 1, bits => sincOut n bits :: sincOuts n m (bits.drop n)

/-- The fast-path output of a channel (03 R98): sinc3 with N = 16 over the bits sampled so far in the tick, oldest first, and those of the
ticks before, in Q1.31. All ones, +1, reads as the largest number of the format. -/
def State.fastPath (s : State) (n : Nat) (bits : List Bool) : Int :=
  clampI (-(2 ^ 31)) (2 ^ 31 - 1) (toFix 31 (sincOut 16 (bits.reverse ++ (s.sdc n).bits)))

/-- A channel runs its filters (03 R95, R98). -/
def State.sdRuns (s : State) (n : Nat) : Bool := s.on R.SD_CFG_EN && s.on (R.SD_CHn_CFG_EN n)

/-- A scaled value (03 R107), before its placement into Q2.30. -/
def State.sdScale (s : State) (n : Nat) (x : Rat) : Rat :=
  ((x - s.rdQ (R.SD_CHn_CAL_OCAL n) 15) * (1 + s.rdQ (R.SD_CHn_CAL_GCAL n) 15) - s.rdQ (R.SD_CHn_OFS n) 31)
    * s.rdQ (R.SD_CHn_GAIN n) 30

/-- The bits without a transition after one more bit. -/
def stillAfter (last : Option Bool) (still : Nat) (b : Bool) : Nat :=
  if last = some b then still + 1 else 1

/-- The bits of a tick taken into a channel: history, run without a transition, and whether the run reached 64. -/
def takeBits (c : SdChan) : List Bool → Bool → SdChan × Bool
  | [], lost => (c, lost)
  | b :: bs, lost =>
    let still := stillAfter c.bits.head? c.still b
    takeBits { c with bits := b :: c.bits, still := still } bs (lost || still == 64)

/-- One channel at the close of its window (03 R95, R99): INST and MEAN are produced. -/
def sdCloseChannel (bits : List Bool) (n : Nat) (s : State) : State :=
  if !s.on (R.SD_CHn_CFG_EN n) then s
  else
    let r := takeBits (s.sdc n) bits false
    let ratio := s.sdRatio
    let outs := sincOuts ratio (max 1 (s.sdBits / ratio)) r.1.bits
    let norm := grid (outs.sum / (outs.length : Nat))
    let s := s.setSdc n (fun _ => { r.1 with bits := r.1.bits.take 1800, norm := norm })
    let s := s.postQ (R.SD_CHn_INST n) 31 (outs.head?.getD 0)
    let s := s.satQ (R.SD_CHn_MEAN n) 30 (s.sdScale n norm)
    let s := if r.2 then sdLoss n s else s
    sdValidIfDue n s

/-- The measurement lag of MEAN in cyc (03 R96). -/
def State.sdLag (s : State) : Nat :=
  let n := s.sdRatio
  s.sdDiv * ((s.sdBits / n - 1) * n + (3 * n - 3)) / 2

/-- The sigma-delta windows close at the boundary (03 R95–R97): the bits of each channel in the order sampled. -/
def sdWindowClose (bits : List (List Bool)) (s : State) : State :=
  if !s.on R.SD_CFG_EN then s
  else
    let s := (List.range 12).foldl (fun s n => sdCloseChannel ((bits[n]?).getD []) n s) s
    let s := s.wr R.SD_STAT_OSRCLAMP (b2n (decide (s.period < s.rd R.SD_CFG_OSR * s.sdDiv)))
    s.wr R.SD_LAG s.sdLag

/-! ### Live calibration (03 R102–R105) -/

/-- The position after one, 0 after the last, with the mapped ones only. -/
def State.calNext (s : State) (pos : Nat) : Nat :=
  if pos = 0 then 1
  else ((List.range 8).find? (fun p => pos < p ∧ 2 ≤ p ∧ (s.calChannel p).isSome)).getD 0

/-- SD.CAL_CTL.DWELL; values outside 16–4,096 act as the nearer limit. -/
def State.calDwell (s : State) : Nat := max 16 (min 4096 (s.rd R.SD_CAL_CTL_DWELL))

/-- Calibration suspended: CALERR and CAL_RANGE (03 R93, R105). -/
def calSuspend (s : State) : State :=
  if s.on R.SD_CAL_STAT_CALERR then s
  else (s.wr R.SD_CAL_STAT_CALERR 1).event Ev.CAL_RANGE 18

/-- The sums of a dwell emptied. -/
def calClear (c : CalState) : CalState :=
  { c with ticks := 0, n := 0, skip := false, sumSpare := 0, sumS := 0, sumSS := 0, sumY := 0, sumSY := 0 }

/-- The spare's gain from positions 0 and 1 (03 R104). -/
def State.calGain (s : State) : Rat := divR (s.rdQ R.SD_CAL_REF 31) (s.sd.cal.mean1 - s.sd.cal.mean0)

/-- The fit of a mapped channel's dwell (03 R104): targets of GCAL and OCAL. -/
def State.calFit (s : State) (ch : Nat) : CalFit :=
  let c := s.sd.cal
  let n : Rat := (c.n : Nat)
  let kept := 1 + s.rdQ (R.SD_CHn_CAL_GCAL ch) 15
  let a := if c.maxS - c.minS < 1 / 10 then kept
    else divR (n * c.sumSY - c.sumS * c.sumY) (n * c.sumSS - c.sumS * c.sumS)
  let c0 := divR (c.sumY - a * c.sumS) n
  { ch := ch, gain := if c.maxS - c.minS < 1 / 10 then kept - 1 else a - 1, ofs := -(divR c0 a) }

/-- The length of a calibration fit's slice in cyc: open, within the 800 cyc of 02 R62 (DESIGN CHOICE, assumption log 14). -/
def calSliceLen : Nat := 800

/-- The end of a position's dwell (03 R104): positions 0 and 1 give the spare's offset and gain, a mapped position a fit,
which then runs in slices on the siding lane (R103); a dwell that a loss has discarded gives nothing (R105). -/
def calPositionEnd (s : State) : State :=
  let pos := s.rd R.SD_CAL_STAT_POS
  let n : Rat := (s.sd.cal.n : Nat)
  if s.sd.cal.skip then s
  else if pos = 0 then
    let m := divR s.sd.cal.sumSpare n
    let s := { s with sd.cal.mean0 := m }
    if 5 / 100 < absR m then calSuspend s else s
  else if pos = 1 then
    let s := { s with sd.cal.mean1 := divR s.sd.cal.sumSpare n }
    if s.calGain < 95 / 100 ∨ 105 / 100 < s.calGain then calSuspend s else s
  else
    match s.calChannel pos with
    | none => s
    | some ch =>
      { s with
        sd.cal.fits := s.sd.cal.fits ++ [s.calFit ch]
        ln.jobs := s.ln.jobs ++ [{ handle := 0x10000 + ch, len := calSliceLen, left := 1 }] }

/-- CAL_POSITION_STEP: after SETTLE and DWELL ticks the selector moves on at a boundary (03 R102, R103); PASSES counts when
it returns to position 0. -/
def calPositionStepIfDue (s : State) : State :=
  if s.on R.SD_CAL_CTL_EN ∧ !s.on R.SD_CAL_STAT_CALERR ∧ (s.roleCh 9).isSome
      ∧ max 1 (s.rd R.SD_CAL_CTL_SETTLE) + s.calDwell ≤ s.sd.cal.ticks then
    let s := calPositionEnd s
    let next := s.calNext (s.rd R.SD_CAL_STAT_POS)
    let s := if next = 0 then s.incWrap R.SD_CAL_STAT_PASSES else s
    { s.wr R.SD_CAL_STAT_POS next with sd.cal := calClear s.sd.cal }
  else s

/-- One tick of calibration (03 R103): past the settling ticks, the paired MEANs of the spare and the mapped channel are
accumulated, the spare corrected first (R104). Without a SPARE, calibration does not run (R93). SETTLE = 0 acts as 1, the nearer end of
its range (DESIGN CHOICE, assumption log 41). -/
def calTick (s : State) : State :=
  if !s.on R.SD_CAL_CTL_EN then { s with sd.cal := calClear s.sd.cal }
  else
    match s.roleCh 9 with
    | none => calSuspend s
    | some spare =>
      if s.on R.SD_CAL_STAT_CALERR then s
      else
        let c := s.sd.cal
        let sp := (s.sdc spare).norm
        let x := match s.calChannel (s.rd R.SD_CAL_STAT_POS) with
          | some ch => (s.sdc ch).norm
          | none => 0
        let y := grid ((sp - c.mean0) * s.calGain)
        let c' : CalState :=
          if c.ticks < max 1 (s.rd R.SD_CAL_CTL_SETTLE) then { c with ticks := c.ticks + 1 }
          else { c with
            ticks := c.ticks + 1
            n := c.n + 1
            sumSpare := c.sumSpare + sp
            sumS := c.sumS + x
            sumSS := grid (c.sumSS + x * x)
            sumY := c.sumY + y
            sumSY := grid (c.sumSY + x * y)
            minS := if c.n = 0 then x else minR c.minS x
            maxS := if c.n = 0 then x else maxR c.maxS x }
        calPositionStepIfDue { s with sd.cal := c' }

/-- A correction moved toward its target by at most a step (03 R104). -/
def moveToward (step now target : Rat) : Rat := clampR (now - step) (now + step) target

/-- CAL_FIT_APPLY: a fit whose slices have run is applied at the boundary, or raises CAL_RANGE (03 R103–R105); the third in
a row on one channel sets SUSPECT and raises SD_SUSPECT. -/
def calFitApply (s : State) : State :=
  match s.sd.cal.fits with
  | [] => s
  | f :: rest =>
    if !f.ready then s
    else
      let s := { s with sd.cal.fits := rest }
      if 2 / 100 < absR f.gain ∨ 1 / 100 < absR f.ofs then
        let s := s.setSdc f.ch (fun c => { c with rangeRun := c.rangeRun + 1 })
        let s : State := { s.event Ev.CAL_RANGE 18 with sd.cal.ranged := s.sd.cal.ranged + 1 }
        if (s.sdc f.ch).rangeRun = 3 then (s.wr (R.SD_CHn_STAT_SUSPECT f.ch) 1).event Ev.SD_SUSPECT 18 else s
      else
        let s : State := { s.setSdc f.ch (fun c => { c with rangeRun := 0 }) with sd.cal.applied := s.sd.cal.applied + 1 }
        let s := s.postQ (R.SD_CHn_CAL_GCAL f.ch) 15 (moveToward (1 / 1000) (s.rdQ (R.SD_CHn_CAL_GCAL f.ch) 15) f.gain)
        s.postQ (R.SD_CHn_CAL_OCAL f.ch) 15 (moveToward (5 / 10000) (s.rdQ (R.SD_CHn_CAL_OCAL f.ch) 15) f.ofs)

/-- The slices of a channel's fit have run (03 R103). -/
def calFitReady (ch : Nat) (s : State) : State :=
  { s with sd.cal.fits := s.sd.cal.fits.map (fun f => if f.ch = ch then { f with ready := true } else f) }

end Sys2Proof.Machine
end

