-- ==== Sys2Proof/Machine/Timetable.lean ====
section
/-! DEFINITION. The Timetable and the datapath's integrity (02): entries and their check, swaps and period changes, lane
errors, stale tables and their check, idle windows and slices, lane loss. -/

namespace Sys2Proof.Machine

/-! ### Entries (02 R53–R57, R89) -/

/-- One entry of the Timetable. -/
structure TtEntry where
  en : Bool
  lane : Nat
  kind : Nat
  task : Nat
  start : Nat
  span : Nat
  deriving DecidableEq, Repr

/-- An entry from its two words (02 R89). -/
def ttDecode (w0 w1 : Word) : TtEntry :=
  { en := testB w0.toNat 31, lane := bitsOf w0.toNat 29 28, kind := bitsOf w0.toNat 27 24, task := bitsOf w0.toNat 23 16
    start := bitsOf w0.toNat 14 0, span := bitsOf w1.toNat 14 0 }

/-- The two words of an entry (02 R89). -/
def ttEncode (e : TtEntry) : Word × Word :=
  (BitVec.ofNat 32 (b2n e.en * 2 ^ 31 + e.lane % 4 * 2 ^ 28 + e.kind % 16 * 2 ^ 24 + e.task % 256 * 2 ^ 16 + e.start % 2 ^ 15),
    BitVec.ofNat 32 (e.span % 2 ^ 15))

/-- The active table. -/
def State.ttActive (s : State) : List TtEntry :=
  (List.range 16).map (fun n => ttDecode (s.word (R.TT_ACTIVEn_W0 n).addr) (s.word (R.TT_ACTIVEn_W1 n).addr))

/-- The shadow table. -/
def State.ttShadow (s : State) : List TtEntry :=
  (List.range 16).map (fun n => ttDecode (s.word (R.TT_ENTRYn_W0_EN n).addr) (s.word (R.TT_ENTRYn_W1_SPAN n).addr))

/-- A table written over the words of the active table. -/
def State.ttWriteActive (s : State) (t : List TtEntry) : State :=
  (t.zipIdx).foldl (fun s e => (s.setWord (R.TT_ACTIVEn_W0 e.2).addr (ttEncode e.1).1).setWord (R.TT_ACTIVEn_W1 e.2).addr (ttEncode e.1).2) s

/-- A table written over the words of the shadow table. -/
def State.ttWriteShadow (s : State) (t : List TtEntry) : State :=
  (t.zipIdx).foldl (fun s e =>
    (s.setWord (R.TT_ENTRYn_W0_EN e.2).addr (ttEncode e.1).1).setWord (R.TT_ENTRYn_W1_SPAN e.2).addr (ttEncode e.1).2) s

/-- The entries of a task code that are enabled. -/
def ttTask (t : List TtEntry) (code : Nat) : List TtEntry := t.filter (fun e => e.en && e.kind == 0 && e.task == code)

/-- An entry's end: the substitution point of a task, the end of a window. -/
def TtEntry.stop (e : TtEntry) : Nat := e.start + e.span

/-- The check of 02 R57, in table order: 0 where every check holds, else the code of the first that fails. -/
def State.ttCheck (s : State) (t : List TtEntry) (period : Nat) (change : Bool) : Nat :=
  let en := t.filter (·.en)
  let tasks := en.filter (fun e => e.kind == 0)
  let first (code : Nat) : TtEntry := ((ttTask t code).head?).getD ⟨false, 0, 0, 0, 0, 0⟩
  if period < 8000 ∨ 20000 < period then 0x01
  else if change ∧ 1 < s.drive then 0x02
  else if [1, 2, 3].any (fun c => (ttTask t c).length != 1) then 0x03
  else if en.any (fun e => 1 < e.kind || (e.kind == 0 && (e.task < 1 || 3 < e.task))) then 0x04
  else if tasks.any (fun e => e.span < Config.taskLength e.task) then 0x05
  else if (first 1).start < 48 ∨ (first 2).start < (first 1).stop ∨ (first 3).start < (first 2).stop then 0x06
  else if en.any (fun e => period < e.stop) ∨ period < (first 3).stop + 96 then 0x07
  else if (en.zipIdx).any (fun a => (en.zipIdx).any (fun b =>
      a.2 < b.2 && a.1.lane == b.1.lane && max a.1.start b.1.start < min a.1.stop b.1.stop)) then 0x08
  else if en.any (fun e => testB (s.rd R.LN_STAT_UNUSABLE) e.lane) then 0x09
  else if en.any (fun e => e.kind == 1 && e.lane != s.rd R.LN_STAT_SIDING) then 0x0A
  else 0

/-- TT.STAT.NORES for a table (02 R55): a task has reserve where its budget is at least twice its length plus 24. -/
def ttNores (t : List TtEntry) : Nat :=
  ([1, 2, 3].map (fun c =>
    if (ttTask t c).any (fun e => e.span < 2 * Config.taskLength c + 24) then 2 ^ (c - 1) else 0)).sum

/-- A refusal recorded (02 R58). -/
def ttReject (code : Nat) (s : State) : State := (s.wr R.TT_STAT_REJ 1).wr R.TT_STAT_REJCODE code

/-- The period that pending changes leave: the pending one, else the one in force. -/
def State.ttPeriodNext (s : State) : Nat :=
  match s.tt.periodDue with
  | some (p, _) => p
  | none => s.period

/-- TT_CTL_SWAP: a write of 1 checks the shadow table and makes the swap pending, 64 cyc ahead at least (02 R58). While a period change
is pending the check takes the pending period, and 0x02 is one of its checks, since both take effect together (DEDUCED from R60, R546;
assumption log 33). -/
def ttSwapWrite (s : State) : State :=
  if s.on R.TT_STAT_SWPEND then s
  else
    let code := s.ttCheck s.ttShadow s.ttPeriodNext s.tt.periodDue.isSome
    if code ≠ 0 then ttReject code s
    else
      let s := (s.wr R.TT_STAT_SWPEND 1).wr R.TT_STAT_PEND 1
      { s with tt := { s.tt with swapDue := some (s.time.tb + 64), passed := s.ttShadow.map ttEncode, shadowIgnored := false } }

/-- TT_PERIOD_CYC: a write of the period is checked and becomes pending (02 R60); RWL. -/
def ttPeriodWrite (p : Nat) (s : State) : State :=
  if s.on R.SB_LOCK_LOCKED then s
  else if p = s.period ∧ s.tt.periodDue.isNone then s
  else
    let code := s.ttCheck (if s.on R.TT_STAT_SWPEND then s.ttShadow else s.ttActive) p true
    if code ≠ 0 then ttReject code s
    else { s.wr R.TT_STAT_PEND 1 with tt.periodDue := some (p, s.time.tb + 64) }

/-- A write of a word of the shadow table (02 R59): ignored while a swap is pending. -/
def ttShadowWrite (a : Nat) (v : Word) (s : State) : State :=
  if s.on R.TT_STAT_SWPEND then { s with tt.shadowIgnored := true }
  else s.setWord a (v &&& accessMask a .rw)

/-- At a boundary at or after the TB named, R57 is checked again and the pending changes take effect, or none of them does (02 R58–R60,
R546). The table of a swap is the one that its check passed (R59): a lane loss may have remapped the shadow since (R86, R88). -/
def ttChange (tb : Nat) (s : State) : State :=
  let sw := match s.tt.swapDue with | some d => decide (d ≤ tb) | none => false
  let pd := match s.tt.periodDue with | some (p, d) => if d ≤ tb then some p else none | none => none
  if !sw ∧ pd.isNone then s
  else
    let table := if sw then s.tt.passed.map (fun w => ttDecode w.1 w.2) else s.ttActive
    let per := pd.getD s.period
    let code := s.ttCheck table per pd.isSome
    let late := s.tt.shadowIgnored
    let s := { s with tt := { s.tt with
      swapDue := if sw then none else s.tt.swapDue
      periodDue := if pd.isSome then none else s.tt.periodDue
      passed := if sw then [] else s.tt.passed
      shadowIgnored := if sw then false else s.tt.shadowIgnored
      done := some code } }
    let s := if sw then s.wr R.TT_STAT_SWPEND 0 else s
    let s := s.wr R.TT_STAT_PEND (b2n (s.tt.swapDue.isSome || s.tt.periodDue.isSome))
    if code ≠ 0 then ttReject code s
    else
      let s := if sw then (s.ttWriteActive table).wr R.TT_STAT_NORES (ttNores table) else s
      let s := s.wr R.TT_PERIOD_CYC per
      if sw ∧ late then ttReject 0x0B s else s

/-- TIMETABLE_CHANGE_DUE: the pending swap or period change is decided (02 R58, R60, R546). -/
def ttChangeIfDue (s : State) : State := ttChange s.time.tbLast s

/-! ### Lane errors (02 R67–R72) -/

/-- LANE_SUSPECT: the fourth detected error of a lane within 4,096 ticks (02 R72). -/
def laneSuspectIfDue (lane : Nat) (s : State) : State :=
  let e : List Nat := (s.ln.errTicks.toList[lane]?).getD []
  match (e.drop 3).head? with
  | some t =>
    if wrapTo 32 ((s.tickno : Int) - t) < 4096 then
      { s with ln.errTicks := s.ln.errTicks.mapFinIdx (fun i x _ => if i = lane then [] else x) }.event Ev.LANE_SUSPECT (lane + 1)
    else s
  | none => s

/-- A detected error is counted and recorded (02 R69): its lane, its kind as LN.LASTERR codes it, the task code. -/
def laneErrorRecord (lane kind task : Nat) (s : State) : State :=
  let s := s.inc (if kind = 1 then R.LN_ERRn_RESIDUE lane else R.LN_ERRn_PARITY lane)
  let s := (((s.wr R.LN_LASTERR_LANE lane).wr R.LN_LASTERR_KIND kind).wr R.LN_LASTERR_TASK task).wr R.LN_LASTERR_OFFSET s.phase
  let s := s.wr R.LN_LASTERR_TICK s.tickno
  { s with ln.errTicks := s.ln.errTicks.mapFinIdx (fun i x _ => if i = lane then (s.tickno :: x).take 4 else x) }

/-- A detected error that aborts a task (02 R69): LANE_ERR, LANE_SUSPECT. -/
def laneError (lane kind task : Nat) (s : State) : State :=
  let s := laneErrorRecord lane kind task s
  laneSuspectIfDue lane (s.event Ev.LANE_ERR (lane + 1) (bytesLE 4 (s.word (R.LN_LASTERR_LANE).addr).toNat))

/-- The last-good register of a task for a table that turns stale (02 R80): the value that the task read last from the table, 0 where
it has read none. Which of the table's words that was follows from the order of reads inside the task, which the spec leaves to the
lanes: an open word of the table (assumption log 34). -/
def lastGoodDraw (id : Nat) (s : State) (task : Nat) : State :=
  if testB s.ln.reads (16 * task + id) then
    let d := s.drawBits 16
    let w := s.bankWord s.ln.bankB ((tblPlace id).1 + 4 * (d.1 % max 1 (tblPlace id).2))
    { d.2 with ln.lastGood := smapSet (fun _ => 0) d.2.ln.lastGood (16 * task + id) w }
  else s

/-- A table turns stale (02 R80): from the failing read on each task reads its last-good value. -/
def staleSet (id : Nat) (s : State) : State :=
  let s := if s.stale id then s else [1, 2, 3].foldl (lastGoodDraw id) s
  { s.wrBit R.LN_TBLSTALE id true with ln.clearStale := s.ln.clearStale &&& (2 ^ 16 - 1 - 2 ^ id) }

/-- A coefficient or table read fails its parity check (02 R69, R80): the table is stale, the error is counted and recorded with KIND 3,
and TABLE_PARITY goes out. Its DATA holds the table ID in byte 0 and the address in bytes 4–7, with zeros between (DESIGN CHOICE:
R80 names the two and no place; assumption log 35). -/
def tableParity (lane task id addr : Nat) (s : State) : State :=
  let s := laneErrorRecord lane 3 task (staleSet id s)
  laneSuspectIfDue lane (s.event Ev.TABLE_PARITY (lane + 1) (bytesLE 1 id ++ [0, 0, 0] ++ bytesLE 4 addr))

/-- The table that holds a byte of a bank, by its offset (01 R544). -/
def tableAt (off : Nat) : Option Nat :=
  if off < 512 then some 0
  else (List.range 10).find? (fun i => i ≠ 0 && (tblPlace i).1 ≤ off && off < (tblPlace i).1 + 4 * (tblPlace i).2)

/-! ### Table check (02 R82, R84) -/

/-- The words of a table in a bank as bytes, in the order of its CRC (01 R544). -/
def State.tableBytes (s : State) (bank : Bool) (id : Nat) : List Byte :=
  ((List.range (tblPlace id).2).map (fun i => bytesLE 4 (s.bankWord bank ((tblPlace id).1 + 4 * i)).toNat)).flatten

/-- LN_TBLCHK_GO: a write of LN.TBLCHK with GO starts the check of a table (02 R82). -/
def tblchkWrite (v : Word) (s : State) : State :=
  if R.LN_TBLCHK_GO.get v = 1 then
    { (s.wr R.LN_TBLRES_DONE 0).wr R.LN_TBLRES_FAIL 0 with ln.checking := some (R.LN_TBLCHK_ID.get v) }
  else s

/-- A cause that the firmware raises (05 R203, 15 R488): it goes to the log with SRC 14, and marks the sequencer. -/
def mpCause (bit detail value : Nat) (s : State) : State :=
  let rec_ := eventRecord (causeEvent bit) 14 s.tickno s.time.tb (bytesLE 1 bit ++ bytesLE 1 s.drive ++ bytesLE 1 s.sub
    ++ bytesLE 1 detail ++ bytesLE 4 value)
  { s with
    mp.log := s.mp.log ++ [rec_]
    seq.raised := s.seq.raised ++ [(bit, detail)] }

/-- TABLE_CHECK_DONE: the check of a table ends (02 R82): DONE, clearing the stale bit at the next boundary, or FAIL; a second
failure raises TABLE_LOST (R84). Failures of a table count until a check of it passes, and TABLE_LOST is raised only for a table that is
stale (DESIGN CHOICE; assumption log 36). -/
def tableCheckDone (parityOk : Bool) (s : State) : State :=
  match s.ln.checking with
  | none => s
  | some id =>
    let s := { s with ln := { s.ln with checking := none, loading := none } }
    let ok := parityOk && (tblPlace id).2 != 0 && crc32c (s.tableBytes s.ln.bankB id) == (s.rd R.LN_TBLCRC)
    if ok then
      { s.wr R.LN_TBLRES_DONE 1 with ln := { s.ln with
        clearStale := s.ln.clearStale ||| 2 ^ id
        checkFails := smapErase id s.ln.checkFails } }
    else
      let n : Nat := smapGet (fun _ => 0) s.ln.checkFails id + 1
      let s : State := { s.wr R.LN_TBLRES_FAIL 1 with ln.checkFails := smapSet (fun _ => 0) s.ln.checkFails id n }
      if n = 2 ∧ s.stale id = true then mpCause 3 id 0 s else s

/-- The stale bits that passed checks clear at a boundary (02 R82). -/
def staleClear (s : State) : State :=
  { s.wr R.LN_TBLSTALE (s.rd R.LN_TBLSTALE &&& (2 ^ 16 - 1 - s.ln.clearStale)) with ln.clearStale := 0 }

/-! ### Slices (02 R62–R66) -/

/-- The end of the idle window that the time lies in, as an offset. -/
def State.windowEnd (s : State) : Option Nat :=
  ((s.ttActive.filter (fun e => e.en && e.kind == 1 && decide (e.start ≤ s.phase) && decide (s.phase < e.stop))).head?).map (·.stop)

/-- The slices of a job that has run: one fewer left; a finished calibration fit is ready (03 R103). -/
def sliceDone (s : State) : State :=
  match s.ln.slice with
  | none => s
  | some (k, _, _, _) =>
    let s : State := { s with ln.slice := none }
    match k with
    | .scrub => { s with ln.scrubBlock := (s.ln.scrubBlock + 1) % 256 }
    | .job h =>
      let jobs := s.ln.jobs.map (fun j => if j.handle = h then { j with left := j.left - 1 } else j)
      let done := jobs.any (fun j => j.handle == h && j.left == 0)
      let s : State := { s with ln.jobs := jobs.filter (fun j => j.left != 0) }
      if h = 0x20000 then { s.inc R.BI_SLICES with bi.slices := s.bi.slices + 1 }
      else if done = true ∧ 0x10000 ≤ h then calFitReady (h - 0x10000) s else s

/-- The running slice has come to its end. -/
def sliceEndIfDue (s : State) : State :=
  match s.ln.slice with
  | some (_, _, t, len) => if t + len ≤ s.time.tb then sliceDone s else s
  | none => s

/-- A parity error that the scrub finds is handled as one of a lane read (02 R65): in a piece of the bank in force as a table read's;
anywhere else (the other bank, lane state, a bank's unused bytes) as lane data, KIND 2, task code 0, on the lane that scrubs (DESIGN
CHOICE; assumption log 37). -/
def scrubError (addr : Nat) (s : State) : State :=
  let lane := s.rd R.LN_STAT_SIDING
  let base := if s.ln.bankB then 0x10130000 else 0x10120000
  match (if base ≤ addr ∧ addr < base + 0x10000 then tableAt (addr - base) else none) with
  | some id => tableParity lane 0 id addr s
  | none => laneError lane 2 0 s

/-- The task of a lane that a self-test slice could rotate away in this tick (02 R66): not after a Hold-1, not degraded, not twice;
the task has not started yet. -/
def State.canRotate (s : State) (lane : Nat) : Option TtEntry :=
  if s.ln.holdLastTick ∨ s.on R.LN_STAT_DEGRADED ∨ s.ln.rotated.isSome then none
  else (s.ttActive.filter (fun e => e.en && e.kind == 0 && e.lane == lane && decide (s.phase ≤ e.start)
    && !((s.ln.tasks.toList[e.task - 1]?).getD {}).started)).head?

/-- A slice runs from now on: what, on which lane, for how long. -/
def State.runSlice (s : State) (k : SliceKind) (lane len : Nat) : State := { s with ln.slice := some (k, lane, s.time.tb, len) }

/-- The next slice of the job that is served, where it can start: a lane self-test slice of L0–L2 by rotation inside the budget of the
task of the lane under test, any other in the rest of the window (02 R62, R64, R66). -/
def jobSlice (j : SliceJob) (room : Nat) (s : State) : Option State :=
  match (j.lane.filter (· < 3)) with
  | some l =>
    match s.canRotate l with
    | some e =>
      if j.len ≤ e.span then
        let s := s.advanceTo e.start
        some ({ s with ln.rotated := some l }.runSlice (.job j.handle) l j.len)
      else none
    | none => none
  | none => if j.len ≤ room then some (s.runSlice (.job j.handle) (s.rd R.LN_STAT_SIDING) j.len) else none

/-- A scrub slice where it fits the rest of the window (02 R65). -/
def scrubSlice (bad : Option Nat) (room : Nat) (s : State) : State :=
  if 512 ≤ room then
    let s := { s with ln.scrubReserved := true }.runSlice .scrub (s.rd R.LN_STAT_SIDING) 512
    match bad with
    | some a => scrubError a s
    | none => s
  else s

/-- SLICE_START: the next slice in the order of R64 starts where its length fits the rest of the window (02 R62): the reserved one of the
scrub, the job served first, the scrub in the room that this job leaves; a slice still running ends first. `bad` names a byte whose parity
the scrub finds wrong. -/
def sliceStart (bad : Option Nat) (s : State) : State :=
  let s := match s.ln.slice with
    | some (_, _, t, len) => sliceDone { s with time.tb := max s.time.tb (t + len) }
    | none => s
  let room := (s.windowEnd.getD s.phase) - s.phase
  let reserve := s.tickno % 16 == 0 && !s.ln.scrubReserved
  if reserve then scrubSlice bad room s
  else ((s.ln.jobs.head?).bind (fun j => jobSlice j room s)).getD (scrubSlice bad room s)

/-- A slice is given up without effect (02 R62, R63); one of a BIST job counts in BI.ABORTS (15 R469). -/
def sliceDrop (s : State) : State :=
  match s.ln.slice with
  | some (.job h, _, _, _) => { (if h = 0x20000 then s.inc R.BI_ABORTS else s) with ln.slice := none }
  | _ => { s with ln.slice := none }

/-- A recomputation preempts a slice on the siding lane (02 R63): one that ended by the time the error was detected is complete; a slice
on another lane runs on. -/
def slicePreempt (detected : Nat) (s : State) : State :=
  match s.ln.slice with
  | some (_, lane, t, len) => if t + len ≤ detected then sliceDone s else if lane = s.rd R.LN_STAT_SIDING then sliceDrop s else s
  | none => s

/-- SLICE_ABORT: a slice still running at the end of its window is aborted there and repeated later (02 R62). -/
def sliceAbort (s : State) : State :=
  match s.ln.slice with
  | none => s
  | some (_, _, t, len) => if t + len ≤ s.time.tb then sliceDone s else sliceDrop s

/-! ### Lane loss (02 R85–R88) -/

/-- A window without a span: what is left of it, earlier piece first (02 R86). -/
def windowPieces (a b c d : Nat) : List (Nat × Nat) :=
  if b ≤ c ∨ d ≤ a then [(a, b)]
  else (if a < c then [(a, c)] else []) ++ (if d < b then [(d, b)] else [])

/-- One window of a table excluded from a span (02 R86). -/
def excludeOne (t : List TtEntry) (n c d : Nat) : List TtEntry :=
  match t[n]? with
  | none => t
  | some e =>
    if !e.en ∨ e.kind ≠ 1 then t
    else
      let put (t : List TtEntry) (i : Nat) (x : TtEntry) : List TtEntry := t.set i x
      match windowPieces e.start e.stop c d with
      | [] => put t n { e with en := false }
      | [p] => put t n { e with start := p.1, span := p.2 - p.1 }
      | p :: q :: _ =>
        match (t.zipIdx).find? (fun x => !x.1.en) with
        | some (_, i) =>
          put (put t n { e with start := p.1, span := p.2 - p.1 }) i
            { en := true, lane := e.lane, kind := 1, task := 0, start := q.1, span := q.2 - q.1 }
        | none =>
          let r := if p.2 - p.1 < q.2 - q.1 then q else p
          put t n { e with start := r.1, span := r.2 - r.1 }

/-- Every window of a table excluded from the spans of a list. -/
def excludeAll (t : List TtEntry) (spans : List (Nat × Nat)) : List TtEntry :=
  spans.foldl (fun t p => (List.range 16).foldl (fun t n => excludeOne t n p.1 p.2) t) t

/-- A table remapped after the loss of a lane (02 R86). Entries that are disabled move as well: those of KIND 0 that name the lost lane,
and with L3 those of KIND 1 (DESIGN CHOICE: R86 speaks of the lane's entries; assumption log 38). -/
def remap (lost : Nat) (t : List TtEntry) : List TtEntry :=
  if lost < 3 then
    let spans := (t.filter (fun e => e.en && e.kind == 0 && e.lane == lost)).map (fun e => (e.start, e.stop))
    excludeAll (t.map (fun e => if e.kind = 0 ∧ e.lane = lost then { e with lane := 3 } else e)) spans
  else
    let spans := (t.filter (fun e => e.en && e.kind == 0 && e.lane == 2)).map (fun e => (e.start, e.stop))
    excludeAll (t.map (fun e => if e.kind = 1 then { e with lane := 2 } else e)) spans

/-- LANE_LOST: a lane that failed BIST is marked unusable at a boundary and the Timetable remaps; a second one raises DATAPATH
instead (02 R85–R87). -/
def laneLost (lane : Nat) (s : State) : State :=
  if testB (s.rd R.LN_STAT_UNUSABLE) lane then s
  else
    let second := s.rd R.LN_STAT_UNUSABLE != 0
    let s := (s.wrBit R.LN_STAT_UNUSABLE lane true).wr R.LN_STAT_DEGRADED 1
    let s := s.event Ev.LANE_LOST (lane + 1)
    if second then s.cause 0 (lane + 1) 0 (s.word (R.LN_STAT_HOLDRUN).addr).toNat
    else
      let s := if lane = 3 then s.wr R.LN_STAT_SIDING 2 else s
      (s.ttWriteActive (remap lane s.ttActive)).ttWriteShadow (remap lane s.ttShadow)

/-- The lanes that failed BIST since the last boundary are lost (02 R85). -/
def laneLostIfDue (s : State) : State :=
  let f := s.ln.bistFailed
  (List.range 4).foldl (fun s l => if testB f l then laneLost l s else s) { s with ln.bistFailed := 0 }

/-! ### Bank swap (04 R156, R157) -/

/-- A table of the active bank is being loaded: between its first write and its check (04 R156). -/
def State.loadInProgress (s : State) : Bool := s.ln.loading.isSome

/-- BANK_SWAP_EFFECT: at the boundary of the named tick the banks change over, or the swap is refused (04 R156). -/
def bankSwapIfDue (s : State) : State :=
  match s.ln.bankTick with
  | none => s
  | some t =>
    if modDiff 32 s.tickno t < 0 then s
    else
      let ok := s.rd R.LN_TBLSTALE == 0 && !s.loadInProgress
      let s := { s.wr R.LN_BANK_PEND 0 with ln := { s.ln with bankTick := none, bankDone := some ok } }
      if ok then { s.wr R.LN_BANK_ACTIVE (1 - s.rd R.LN_BANK_ACTIVE) with ln.bankB := !s.ln.bankB } else s

end Sys2Proof.Machine
end

