-- ==== Sys2Proof/Machine/Link.lean ====
section
/-! DEFINITION. Beysta Link (08): cells and their handling, synchronisation, unit IDs, role epochs, consists, the exchange of
shares and contributions, takeover by a deputy. -/

namespace Sys2Proof.Machine

/-! ### Cells (08 R282–R286) -/

/-- CRC-16/CCITT with the initial value 0xFFFF (08 R282). -/
def crc16 (bs : List Byte) : Nat := bs.foldl (crcByteN 16 0x1021) 0xFFFF

/-- The eight bytes before the payload of a cell (08 R282). -/
def cellHead (typ flags stick dst hops src epoch : Nat) : List Byte :=
  [BitVec.ofNat 8 (typ % 16 + flags % 16 * 16)] ++ bytesLE 1 stick ++ bytesLE 2 (dst % 2048 + hops % 32 * 2048)
    ++ bytesLE 2 (src % 2048) ++ bytesLE 2 epoch

/-- The 30 bytes before the check of a cell (08 R282). -/
def cellBytes (typ flags stick dst hops src epoch : Nat) (payload : List Byte) : List Byte :=
  cellHead typ flags stick dst hops src epoch ++ padTo 22 payload

/-- A cell with its CRC. -/
def cellSeal (b : List Byte) : List Byte := padTo 30 b ++ bytesLE 2 (crc16 (padTo 30 b))

def cellType (c : List Byte) : Nat := fieldLE c 0 1 % 16
def cellFlags (c : List Byte) : Nat := fieldLE c 0 1 / 16
def cellStick (c : List Byte) : Nat := fieldLE c 1 1
def cellDst (c : List Byte) : Nat := fieldLE c 2 2 % 2048
def cellHops (c : List Byte) : Nat := fieldLE c 2 2 / 2048
def cellSrc (c : List Byte) : Nat := fieldLE c 4 2 % 2048
def cellEpoch (c : List Byte) : Nat := fieldLE c 6 2
def cellPayload (c : List Byte) : List Byte := (c.drop 8).take 22

/-- The unit's own ID. -/
def State.uid (s : State) : Nat := s.rd R.BL_UID_ID

/-- STICK of the unit: bits [7:0] of its system tick number (08 R282). -/
def State.stick (s : State) : Nat := s.rd R.BL_SN % 256

/-- The unit is LOCKED (08 R291). -/
def State.linkLocked (s : State) : Bool := s.rd R.BL_SYNC_STATE == 2

/-- A port that is up. -/
def State.portUp (s : State) (p : Nat) : Bool := s.on (R.BL_Pp_STAT_UP p)

/-- A port that carries more than SYNC and DELAY cells (08 R287). -/
def State.portOpen (s : State) (p : Nat) : Bool := s.portUp p && !s.bit R.BL_STAT_BLOCKED p

/-- SYNC, DELAY_REQ and DELAY_RESP cells: of the port hardware (08 R283). -/
def isLineCell (c : List Byte) : Bool := cellType c == 3 || cellType c == 4 || cellType c == 5

/-- Exchange cells (08 R285): SHARE and CONTRIB. -/
def isExchange (c : List Byte) : Bool := cellType c == 1 || cellType c == 2

/-- The exchange window is valid (08 R310). -/
def State.windowValid (s : State) : Bool :=
  let sub := (s.taskSlot 3).1 + (s.taskSlot 3).2
  decide (sub + 200 ≤ s.rd R.BL_WIN_OPEN) && decide (s.rd R.BL_WIN_OPEN + s.rd R.BL_WIN_LEN ≤ s.period)

/-- An exchange cell can start: the own window is open; a unit whose window is not valid has none that could close (08 R285, R310). -/
def State.exchangeOpen (s : State) : Bool := s.bl.winOpen || !s.windowValid

/-- What a cell says after a stay of `d` eighths of a cyc (08 R289). -/
def LinkMsg.aged (d : Nat) : LinkMsg → LinkMsg
  | .sync m => .sync { m with corr := m.corr + d }
  | .delayResp n => .delayResp (n + d)
  | m => m

/-- A cell leaves: the CRC is added, the time of a DELAY_REQ is kept (08 R282, R289). -/
def emitCell (h : HeldCell) (s : State) : State :=
  let now := 8 * s.time.tb
  let c := match h.msg with
    | some (m, t) => h.cell.take 8 ++ padTo 22 (Config.linkPayload (LinkMsg.aged (now - t) m))
    | none => h.cell
  let s := { s with out.cells := s.out.cells ++ [(h.port, cellSeal c)] }
  if cellType h.cell = 4 then { s with bl.reqAt := smapSet (fun _ => none) s.bl.reqAt h.port (some now) } else s

/-- A cell given to a port (08 R285, R287): an exchange cell leaves in the window or is discarded, any other one leaves outside it; a
blocked port carries SYNC and DELAY cells only. -/
def sendHeld (h : HeldCell) (s : State) : State :=
  if !s.portUp h.port ∨ !isLineCell h.cell ∧ s.bit R.BL_STAT_BLOCKED h.port then s
  else if isExchange h.cell then (if s.exchangeOpen then emitCell h s else s.inc (R.BL_Pp_DISCARD h.port))
  else if s.bl.winOpen then { s with bl.held := s.bl.held ++ [h] }
  else emitCell h s

/-- A cell sent on a port. -/
def sendCell (p : Nat) (c : List Byte) (s : State) : State := sendHeld { port := p, cell := c, msg := none } s

/-- The cells that have waited for the window to close: SYNC and DELAY cells first, then the others (08 R285). -/
def releaseHeld (s : State) : State :=
  let hs := s.bl.held
  (hs.filter (fun h => isLineCell h.cell) ++ hs.filter (fun h => !isLineCell h.cell)).foldl (fun s h => sendHeld h s)
    { s with bl.held := [] }

/-- A cell of the port hardware or of an enumeration for the neighbour, DST 0; `t`: the arrival that it answers, in eighths of a cyc. -/
def sendNbr (p typ hops src : Nat) (m : LinkMsg) (t : Nat) (s : State) : State :=
  sendHeld { port := p, cell := cellBytes typ 0 s.stick 0 hops src 0 (Config.linkPayload m), msg := some (m, t) } s

/-- The port of the route table for a unit (08 R284, R320). -/
def State.route (s : State) (uid : Nat) : Option Nat :=
  if 1 ≤ uid ∧ uid ≤ 1024 ∧ s.on (R.BL_RT_n_VALID (uid - 1)) then some (s.rd (R.BL_RT_n_PORT (uid - 1))) else none

/-- The ports by which a cell leaves for a unit: the one of the route table, and both of the ring where it crosses the ring (08 R287). -/
def State.portsTo (s : State) (uid : Nat) : List Nat :=
  match s.route uid with
  | some q => if testB s.bl.ring q then (List.range 4).filter (testB s.bl.ring) else [q]
  | none => []

/-- A unicast cell sent along its route; a unit without an ID sends none but ENUM cells (08 R294). -/
def sendTo (typ dst epoch : Nat) (payload : List Byte) (s : State) : State :=
  if s.uid = 0 ∧ typ ≠ 6 then s
  else (s.portsTo dst).foldl (fun s p => sendCell p (cellBytes typ 0 s.stick dst 0 s.uid epoch payload) s) s

/-- A message whose payload the spec gives no bytes, sent to a unit. -/
def sendMsg (typ dst epoch : Nat) (m : LinkMsg) (s : State) : State := sendTo typ dst epoch (Config.linkPayload m) s

/-- The EPOCH_STALE NOTICE to a sender (08 R298), at most one in any 16 ticks. -/
def notice (src typ seen : Nat) (s : State) : State :=
  let last := smapGet (fun _ => 0) s.bl.noticeAt src
  if last ≠ 0 ∧ wrapTo 32 ((s.tickno : Int) + 1 - last) < 16 then s
  else
    let none_ := s.rd R.BL_ROLE_KIND == 0
    let s := { s with bl.noticeAt := smapSet (fun _ => 0) s.bl.noticeAt src (s.tickno + 1) }
    sendTo 8 src 0 ([1#8] ++ bytesLE 1 (s.rd R.BL_ROLE_KIND) ++ bytesLE 2 (s.rd R.BL_EPOCH)
      ++ bytesLE 1 (if none_ then 255 else s.rd R.BL_ROLE_CONSIST) ++ bytesLE 1 (if none_ then 255 else s.rd R.BL_ROLE_SLOT)
      ++ bytesLE 1 typ ++ bytesLE 2 seen) s

/-- A cell whose epoch is stale: counted, a NOTICE goes back (08 R298). -/
def staleCell (c : List Byte) (seen : Nat) (s : State) : State := notice (cellSrc c) (cellType c) seen (s.inc R.BL_STALECNT)

/-- The ports by which a cell that arrived on a port is forwarded (08 R284 step 4): by the route, by the consist mask, or by every open
port. -/
def State.forwardPorts (s : State) (p : Nat) (c : List Byte) : List Nat :=
  (List.range 4).filter (fun q => q ≠ p &&
    (if cellType c = 1 then s.bit (R.BL_CM_c (fieldLE c 8 1 % 128)) q && s.portOpen q
     else if cellDst c = 2047 then s.portOpen q
     else (s.portsTo (cellDst c)).contains q))

/-- Forwarding of a cell (08 R284 steps 3 and 4). -/
def forward (p : Nat) (c : List Byte) (s : State) : State :=
  let qs := s.forwardPorts p c
  if qs.isEmpty then s
  else if 31 ≤ cellHops c then s.inc (R.BL_Pp_DISCARD p)
  else
    let c' := cellBytes (cellType c) (cellFlags c) (cellStick c) (cellDst c) (cellHops c + 1) (cellSrc c) (cellEpoch c) (cellPayload c)
    qs.foldl (fun s q => sendCell q c' s) s

/-- Whether a cell is a second copy from the ring, or the unit's own one that has gone round it (08 R287). -/
def State.isCopy (s : State) (c : List Byte) : Bool :=
  cellDst c != 0 && ((cellSrc c == s.uid && s.uid != 0)
    || s.bl.seen.any (fun x => x == (cellSrc c, cellType c + 256 * cellStick c, cellPayload c)))

/-- A cell remembered as taken. -/
def remember (c : List Byte) (s : State) : State :=
  { s with bl.seen := ((cellSrc c, cellType c + 256 * cellStick c, cellPayload c) :: s.bl.seen).take 64 }

/-- The receive steps common to all cells (08 R284, R287): count, CRC, a type that is not the row's, a blocked port, a second copy.
`f` delivers or forwards. -/
def receiveCell (p : Nat) (c : List Byte) (typ : Nat) (f : State → State) (s : State) : State :=
  if !s.portUp p then s
  else
    let s := s.inc (R.BL_Pp_RXCELLS p)
    if fieldLE c 30 2 ≠ crc16 (padTo 30 c) then s.inc (R.BL_Pp_CRCERR p)
    else if cellType c ≠ typ ∨ typ = 0 ∨ 9 < typ then s.inc (R.BL_Pp_DISCARD p)
    else if !isLineCell c ∧ s.bit R.BL_STAT_BLOCKED p then s
    else if isLineCell c then f s
    else if s.isCopy c then s
    else f (remember c s)

/-- A SHARE or CONTRIB outside the receiver's window or with another STICK than its current one is discarded and counted; it is neither
delivered nor forwarded (08 R285). -/
def exchangeTake (p : Nat) (c : List Byte) (f : State → State) (s : State) : State :=
  if cellStick c = s.stick ∧ s.exchangeOpen then f s else s.inc (R.BL_Pp_DISCARD p)

/-- A management cell for this unit is delivered to Q62, and what it says acts; without a credit it is dropped (08 R283, R284; 01 R37,
R41: slots of 64 bytes). -/
def toQ62 (c : List Byte) (f : State → State) (s : State) : State :=
  let s' := s.qPush 62 (padTo 64 c)
  if s.qCredit 62 = 0 then s' else f s'

/-! ### Roles and epochs (08 R297–R303) -/

/-- A change of role: the epoch increments, and every 64 changes it is saved (08 R297). -/
def roleChange (kind consist slot : Nat) (s : State) : State :=
  let s := (((s.wr R.BL_ROLE_KIND kind).wr R.BL_ROLE_CONSIST consist).wr R.BL_ROLE_SLOT slot).incWrap R.BL_EPOCH
  let n := s.bl.roleChanges + 1
  { s with
    bl.roleChanges := n
    mp.saves := if n % 64 = 0 then s.mp.saves ++ [2] else s.mp.saves }

/-- A unit outside a consist runs TORQUE with TORQUE_REF 0 (08 R303, R308, R315). -/
def toTorqueZero (s : State) : State :=
  let a := s
  let s := { s with ol := { s.ol with torqueRef := 0, slots := smapErase 2 s.ol.slots } }
  let s := if s.drive = 3 then (if s.sub = 0 then s.wr R.LN_MD_STAT_MODE 2 else s.wr R.LN_MD_STAT_PREV 2) else s
  s.driveEvent a

/-- A member detaches (08 R308): role NONE, TORQUE with reference 0. -/
def detach (s : State) : State :=
  let s := toTorqueZero (roleChange 0 0 0 s)
  let s := { s with bl := { s.bl with missRun := 0, prevMissing := false, share := none, takenBy := none, fadeDir := 0, f := 0 } }
  s.event Ev.MEMBER_DETACHED 9

/-- MEMBER_DETACHED: MISSMAX missing shares in a row (08 R308). -/
def memberDetachedIfDue (s : State) : State :=
  if s.isMember ∧ max 1 (s.rd R.BL_CS_CFG_MISSMAX) ≤ s.bl.missRun then detach s else s

/-- REMOVAL_FADE_END: the reverse fade has reached 0 (08 R303). -/
def removalFadeEndIfDue (s : State) : State :=
  if s.isMember ∧ s.bl.fadeDir < 0 ∧ s.bl.f ≤ 0 then
    let head := s.rd R.BL_CS_UNITS_HEAD
    let s := toTorqueZero (roleChange 0 0 0 s)
    let s := sendMsg 7 head s.bl.headEpoch (.consist (.removed (BitVec.ofNat 16 (s.rd R.BL_EPOCH)))) s
    { s with bl := { s.bl with fadeDir := 0, f := 0, takenBy := none, missRun := 0, prevMissing := false } }
  else s

/-- The fade of a tick (08 R303): f moves by 1 / FADE. -/
def fadeTick (s : State) : State :=
  let n := s.rd R.BL_CS_FADE
  let step : Rat := if n = 0 then 1 else 1 / (n : Nat)
  if s.bl.fadeDir > 0 then { s with bl.f := minR 1 (s.bl.f + step) }
  else if s.bl.fadeDir < 0 then { s with bl.f := maxR 0 (s.bl.f - step) }
  else s

/-- The offset o = (1 − f) × T0 of a rising fade, 0 in a removal (08 R303). -/
def State.consistOffset (s : State) : Rat := if s.bl.fadeDir < 0 then 0 else grid ((1 - s.bl.f) * s.bl.t0)

/-- The unit is in READY, or in RUN outside an emergency: it can take part in a consist (08 R302). -/
def State.joinable (s : State) : Bool := s.drive == 2 || (s.drive == 3 && s.sub == 0)

/-- JOIN: at the tick J the unit's role and epoch change and it enters SHARE (08 R303). A unit that an emergency has taken out before J
does not join, and the head hears of it: the add completes with BAD_STATE (08 R317). -/
def joinIfDue (s : State) : State :=
  match s.bl.join with
  | none => s
  | some j =>
    if !s.joinable then sendMsg 7 j.head j.headEpoch (.consist (.refuse 1)) { s with bl := { s.bl with join := none } }
    else if modDiff 32 (s.rd R.BL_SN) j.sn < 0 then s
    else
      let a := s
      let mode := s.rd R.LN_MD_STAT_MODE
      let s := roleChange (if j.deputy then 3 else 2) j.consist j.slot s
      let s := { s with bl := { s.bl with
        join := none
        headEpoch := j.headEpoch
        f := if s.rd R.BL_CS_FADE = 0 then 1 else 0
        fadeDir := 1
        t0 := if s.drive = 3 then s.olp.tdem else 0
        soloMode := mode
        missRun := 0
        prevMissing := false
        share := none
        takenBy := none } }
      let s := s.wr R.BL_CS_UNITS_HEAD j.head
      if s.drive = 2 then
        let s := ((s.wr R.LN_MD_STAT_STATE 3).wr R.LN_MD_STAT_MODE 5)
        let s : State := { s with
          seq := { s.seq with flyStart := true, starting := false }
          ln := { s.ln with tasks := s.ln.tasks.map (fun t => { t with everValid := false }) } }
        s.gateRefresh.driveEvent a
      else (s.wr R.LN_MD_STAT_MODE 5).driveEvent a

/-! ### The consist map (08 R299, R320) -/

/-- A slot of the map written. -/
def slotWrite (slot uid epoch weight tsc : Nat) (s : State) : State :=
  let s := ((s.wr (R.BL_CS_Ms_ID_USED slot) 1).wr (R.BL_CS_Ms_ID_UID slot) uid).wr (R.BL_CS_Ms_ID_EPOCH slot) epoch
  (((s.wr (R.BL_CS_Ms_W_WEIGHT slot) weight).wr (R.BL_CS_Ms_W_STATUS slot) 0).wr (R.BL_CS_Ms_TSC slot) tsc).wr (R.BL_CS_Ms_SHARE slot) 0

/-- A slot of the map freed. -/
def slotFree (slot : Nat) (s : State) : State :=
  let s := ((s.wr (R.BL_CS_Ms_ID_USED slot) 0).wr (R.BL_CS_Ms_ID_UID slot) 0).wr (R.BL_CS_Ms_ID_EPOCH slot) 0
  (((s.wr (R.BL_CS_Ms_W_WEIGHT slot) 0).wr (R.BL_CS_Ms_W_STATUS slot) 0).wr (R.BL_CS_Ms_TSC slot) 0).wr (R.BL_CS_Ms_SHARE slot) 0

/-- The slots in use. -/
def State.slotsUsed (s : State) : List Nat := (List.range 64).filter (fun i => s.on (R.BL_CS_Ms_ID_USED i))

/-- The slot of a unit. -/
def State.slotOf (s : State) (uid : Nat) : Option Nat := s.slotsUsed.find? (fun i => s.rd (R.BL_CS_Ms_ID_UID i) == uid)

/-- The own slot of a head: 0, or the slot of a deputy that has taken the role. -/
def State.ownSlot (s : State) : Nat := s.rd R.BL_ROLE_SLOT

/-- The members of the map: slot and unit, without the own slot. -/
def State.memberSlots (s : State) : List (Nat × Nat) :=
  (s.slotsUsed.filter (· ≠ s.ownSlot)).map (fun i => (i, s.rd (R.BL_CS_Ms_ID_UID i)))

/-! ### The root's map of the links (08 R287, R288, R295) -/

/-- The unit acts as the root. -/
def State.isRoot (s : State) : Bool := (s.rd R.BL_CFG_ROOT == 1 || s.bl.rootTaken) && !s.bl.rootOff

/-- A unit in the tree over the links: the unit above it, the port there that leads to it, its own port upwards, its hops from the root. -/
structure TreeNode where
  uid : Nat
  up : Nat
  upPort : Nat
  ownPort : Nat
  hops : Nat
  deriving DecidableEq, Repr

/-- One level more of the tree. -/
def spanStep (links : List LinkEdge) (ns : List TreeNode) : List TreeNode :=
  let one (acc : List TreeNode) (a pa b pb : Nat) : List TreeNode :=
    match ns.find? (fun n => n.uid == a) with
    | some n => if acc.any (fun m => m.uid == b) then acc
        else acc ++ [{ uid := b, up := a, upPort := pa, ownPort := pb, hops := n.hops + 1 }]
    | none => acc
  links.foldl (fun acc l => one (one acc l.a l.pa l.b l.pb) l.b l.pb l.a l.pa) ns

/-- The tree from the root, level by level: no unit lies beyond 32 hops (08 R288). -/
def spanTree (root : Nat) (links : List LinkEdge) : List TreeNode :=
  (List.range 32).foldl (fun ns _ => spanStep links ns) [{ uid := root, up := root, upPort := 0, ownPort := 0, hops := 0 }]

/-- The links of the units: their tree, the link that closes the ring, the links that close other loops (08 R287). -/
structure Topology where
  nodes : List TreeNode
  ring : Option LinkEdge
  loops : List LinkEdge
  deriving DecidableEq, Repr

/-- A link of the tree. -/
def onTree (ns : List TreeNode) (l : LinkEdge) : Bool :=
  ns.any (fun n => 0 < n.hops &&
    (n == { n with uid := l.b, up := l.a, upPort := l.pa, ownPort := l.pb }
      || n == { n with uid := l.a, up := l.b, upPort := l.pb, ownPort := l.pa }))

/-- What the links make up: the first link outside the tree closes the ring, the others are to be blocked (08 R287). -/
def topologyOf (root : Nat) (links : List LinkEdge) : Topology :=
  let ns := spanTree root links
  let known (u : Nat) : Bool := ns.any (fun n => n.uid == u)
  let out := links.filter (fun l => !onTree ns l && known l.a && known l.b)
  { nodes := ns, ring := out.head?, loops := out.drop 1 }

def State.topology (s : State) : Topology := topologyOf s.uid s.bl.links

/-- A unit and those above it, up to the root. -/
def Topology.above (t : Topology) : Nat → Nat → List Nat
  | 0, u => [u]
  | n + 1, u =>
    match t.nodes.find? (fun m => m.uid == u) with
    | some m => if m.hops = 0 then [u] else u :: t.above n m.up
    | none => [u]

/-- The links of the tree between two units, each by its lower unit. -/
def Topology.path (t : Topology) (u v : Nat) : List Nat :=
  let a := t.above 32 u
  let b := t.above 32 v
  a.filter (fun x => !b.contains x) ++ b.filter (fun x => !a.contains x)

/-- The links of the tree that the ring runs over. -/
def Topology.ringPath (t : Topology) : List Nat :=
  match t.ring with
  | some l => t.path l.a l.b
  | none => []

/-- A path crosses the ring. -/
def Topology.crosses (t : Topology) (u v : Nat) : Bool := (t.path u v).any t.ringPath.contains

/-- Hops between two units; a path that crosses the ring counts along the longer of its two directions (08 R288). -/
def Topology.hops (t : Topology) (u v : Nat) : Nat :=
  let e := (t.path u v).length
  let k := ((t.path u v).filter t.ringPath.contains).length
  if k = 0 then e else e - k + max k (t.ringPath.length + 1 - k)

/-- Ports as bits. -/
def portBits (f : Nat → Bool) : Nat := (List.range 4).foldl (fun m p => if f p then m + 2 ^ p else m) 0

/-- The ports of a unit on links of the tree. -/
def Topology.portsOn (t : Topology) (edges : List Nat) (u p : Nat) : Bool :=
  t.nodes.any (fun n => edges.contains n.uid && ((n.uid == u && n.ownPort == p) || (n.up == u && n.upPort == p)))

/-- A port of the link that closes the ring. -/
def Topology.closes (t : Topology) (u p : Nat) : Bool :=
  match t.ring with
  | some l => (l.a == u && l.pa == p) || (l.b == u && l.pb == p)
  | none => false

/-- The port towards a unit. -/
def Topology.portTo (t : Topology) (u d : Nat) : Option Nat :=
  let e := t.path u d
  match t.nodes.find? (fun n => e.contains n.uid && n.up == u) with
  | some n => some n.upPort
  | none => (t.nodes.find? (fun n => n.uid == u)).map (·.ownPort)

/-- The links that the cells of a consist use, of its head and members; all of the ring where a path crosses it (08 R287, R300). -/
def Topology.consistPath (t : Topology) (head : Nat) (members : List Nat) : List Nat :=
  members.flatMap (t.path head) ++ (if members.any (t.crosses head) then t.ringPath else [])

/-- The port mask of a consist at a unit (08 R295, R300). -/
def Topology.consistMask (t : Topology) (head : Nat) (members : List Nat) (u : Nat) : Nat :=
  let es := t.consistPath head members
  portBits (fun p => t.portsOn es u p || (members.any (t.crosses head) && t.closes u p))

/-- SHARE cells of a consist over the link above a unit, away from the root or towards it, and its contributions, which cross the link
the other way (08 R311). In the ring both run over every link. -/
def Topology.linkLoad (t : Topology) (head : Nat) (members : List (Nat × Nat)) (e : Nat) (down : Bool) : Nat × Nat :=
  let below (u : Nat) : Bool := (t.above 32 u).contains e
  let far := members.filter (fun m =>
    if t.ringPath.contains e then t.crosses head m.1 else below m.1 == down && below head == !down)
  let cells := ((List.range 13).filter (fun c => c == 0 || members.any (fun m => m.2 / 5 == c))).length
  (if far.isEmpty then 0 else cells, far.length)

/-! ### Depth and load (08 R311) -/

/-- The bound of an exchange in cyc (08 R311), rounded up to whole cyc: depth h, cells S and C over one link. -/
def exchangeBound (h sCells cCells : Nat) : Nat := (2000 + 5088 * h + 1024 * ((sCells - 1) + (cCells - 1)) + 9) / 10

/-- NSOFS (08 R311). -/
def nsofs (h sCells : Nat) : Nat := (640 + 2544 * h + 1024 * (sCells - 1) + 360 + 9) / 10

/-- Depth and cells of the consist that the unit heads, of slots with their units (08 R311): the largest hop count; the SHARE cells and the
contributions of every consist over the busiest of its links. A head that is not the root knows its own ports only: it counts its own
cells there, one SHARE cell for five slots (assumption log 58). -/
def State.consistLoad (s : State) (slots : List (Nat × Nat)) (hopsOf : Nat → Nat) : Nat × Nat × Nat :=
  let h := slots.foldl (fun x u => max x (hopsOf u.2)) 0
  let most (xs : List Nat) : Nat := max 1 (xs.foldl max 0)
  if s.isRoot then
    let t := s.topology
    let members := slots.map (fun u => (u.2, u.1))
    let all := (s.uid, members) :: (s.bl.consists.filter (fun c => c.1 ≠ s.rd R.BL_ROLE_CONSIST)).map (·.2)
    let es := (t.consistPath s.uid (members.map (·.1))).flatMap (fun e => [(e, true), (e, false)])
    let load (f : Nat × Nat → Nat) : Nat := most (es.map (fun e =>
      if f (t.linkLoad s.uid members e.1 e.2) = 0 then 0
      else all.foldl (fun x c => x + f (t.linkLoad c.1 c.2 e.1 e.2)) 0))
    (h, load (·.1), load (·.2))
  else
    let cells := ((List.range 13).filter (fun c => c == 0 || slots.any (fun u => u.1 / 5 == c))).length
    (h, cells, most ((List.range 4).map (fun p => (slots.filter (fun u => s.route u.2 == some p)).length)))

/-- Hops to a member: the root has them from the links, another head as it took them at the add. -/
def State.memberHops (s : State) (u : Nat) : Nat :=
  if s.isRoot then s.topology.hops s.uid u else smapGet (fun _ => 0) s.bl.memberHops u

/-- The load of the consist as it stands. -/
def State.presentLoad (s : State) : Nat × Nat × Nat := s.consistLoad s.memberSlots s.memberHops

/-- BL.CS_BOUND, BL.CS_STAT.DEPTH and BL.CS_NSOFS of a load, with BUDGETERR where the bound exceeds the window (08 R311). -/
def loadPost (l : Nat × Nat × Nat) (s : State) : State :=
  let bound := exchangeBound l.1 l.2.1 l.2.2
  ((s.wr R.BL_CS_BOUND bound).wr R.BL_CS_STAT_DEPTH l.1).wr R.BL_CS_STAT_BUDGETERR (b2n (s.rd R.BL_WIN_LEN < bound))

/-- After a route change the head evaluates the bound again; one that it breaks sets BUDGETERR and raises CONSIST_BUDGET (08 R311). -/
def budgetCheck (s : State) : State :=
  if !s.isHead then s
  else
    let old := s.on R.BL_CS_STAT_BUDGETERR
    let s := loadPost s.presentLoad s
    if s.on R.BL_CS_STAT_BUDGETERR ∧ !old then s.event Ev.CONSIST_BUDGET 9 (bytesLE 1 (s.rd R.BL_ROLE_CONSIST)) else s

/-! ### Tables that the root writes (08 R295, R320) -/

/-- What a MGMT cell sets: a route, a consist mask, the ring and the blocked ports. -/
def takeMgmt (m : MgmtMsg) (s : State) : State :=
  match m with
  | .route uid valid port => budgetCheck ((s.wr (R.BL_RT_n_VALID uid.val) (b2n valid)).wr (R.BL_RT_n_PORT uid.val) port.val)
  | .mask consist ports => s.wr (R.BL_CM_c consist.val) ports.toNat
  | .ring closed ports blocked =>
    { (s.wr R.BL_STAT_RING (b2n closed)).wr R.BL_STAT_BLOCKED blocked.toNat with bl.ring := ports.toNat }

/-- The mask message of a consist for a unit. -/
def Topology.maskMsg (t : Topology) (u : Nat) (c : Nat × Nat × List (Nat × Nat)) : MgmtMsg :=
  .mask (Fin.ofNat 128 c.1) (BitVec.ofNat 4 (t.consistMask c.2.1 (c.2.2.map (·.1)) u))

/-- The route message of a unit for another one. -/
def Topology.routeMsg (t : Topology) (u d : Nat) : MgmtMsg :=
  .route (Fin.ofNat 1024 (d - 1)) true (Fin.ofNat 4 ((t.portTo u d).getD 0))

/-- The messages that write a unit's tables: routes to the units and to none that are lost, the masks, the ring. -/
def Topology.tables (t : Topology) (lost : List Nat) (consists : List (Nat × Nat × List (Nat × Nat))) (u : Nat) : List MgmtMsg :=
  ((t.nodes.filter (fun n => n.uid != u)).map (fun n => t.routeMsg u n.uid))
    ++ lost.map (fun d => .route (Fin.ofNat 1024 (d - 1)) false 0)
    ++ consists.map (t.maskMsg u)
    ++ [.ring (t.nodes.any (fun n => n.uid == u && portBits (fun p => t.portsOn t.ringPath u p || t.closes u p) != 0))
          (BitVec.ofNat 4 (portBits (fun p => t.portsOn t.ringPath u p || t.closes u p)))
          (BitVec.ofNat 4 (portBits (fun p => t.loops.any (fun l => l.a == u && l.pa == p))))]

/-- Messages to a unit: taken by the root itself, sent to another one with the epoch that the root knows (08 R295, R298). -/
def mgmtTo (u : Nat) (msgs : List MgmtMsg) (s : State) : State :=
  msgs.foldl (fun s m =>
    if u = s.uid then takeMgmt m s else sendMsg 9 u (smapGet (fun _ => 0) s.bl.epochs u) (.mgmt m) s) s

/-- The root writes its own tables, then those of every other unit (08 R295). -/
def rootTables (lost : List Nat) (s : State) : State :=
  let t := s.topology
  t.nodes.foldl (fun s n => mgmtTo n.uid (t.tables lost s.bl.consists n.uid) s) s

/-- The root takes a unit into a consist or out of it, and sets the port masks (08 R300). A head without its consist ends it. -/
def rootConsist (number head uid slot : Nat) (joined : Bool) (s : State) : State :=
  let old := smapGet (fun _ => (0, [])) s.bl.consists number
  let others := old.2.filter (fun m => m.1 ≠ uid)
  let new : Nat × List (Nat × Nat) :=
    if uid = head then (if joined then (head, others) else (0, []))
    else (head, if joined then others ++ [(uid, slot)] else others)
  let s := { s with bl.consists := smapSet (fun _ => (0, [])) s.bl.consists number new }
  let t := s.topology
  t.nodes.foldl (fun s n => mgmtTo n.uid [t.maskMsg n.uid (number, new)] s) s

/-- The head reports a unit of its consist to the root, which sets the port masks (08 R300; assumption log 19). -/
def consistReport (uid slot : Nat) (joined : Bool) (s : State) : State :=
  let c := s.rd R.BL_ROLE_CONSIST
  if s.isRoot then rootConsist c s.uid uid slot joined s
  else sendMsg 6 s.bl.rootId 0 (.enum (.consist (Fin.ofNat 128 c) (BitVec.ofNat 11 uid) (Fin.ofNat 64 slot) joined)) s

/-! ### Changes of the map (08 R299, R303) -/

/-- The head tells its consist of the deputy, the map and NSOFS: members their deputy and NSOFS, the deputy every slot (08 R300, R311,
R314). -/
def mapSpread (s : State) : State :=
  let dep := s.rd R.BL_CS_UNITS_DEPUTY
  let depEpoch := match s.slotOf dep with | some i => s.rd (R.BL_CS_Ms_ID_EPOCH i) | none => 0
  let tell (slot uid : Nat) (m : ConsistMsg) (s : State) : State := sendMsg 7 uid (s.rd (R.BL_CS_Ms_ID_EPOCH slot)) (.consist m) s
  s.memberSlots.foldl (fun s m =>
    let s := tell m.1 m.2 (.nsofs (BitVec.ofNat 16 (s.rd R.BL_CS_NSOFS))) s
    let s := tell m.1 m.2 (.deputy (BitVec.ofNat 11 dep) (BitVec.ofNat 16 depEpoch)) s
    if m.2 ≠ dep then s
    else (List.range 64).foldl (fun s i => tell m.1 m.2 (.copy (Fin.ofNat 64 i) (BitVec.ofNat 11 (s.rd (R.BL_CS_Ms_ID_UID i)))
      (BitVec.ofNat 16 (s.rd (R.BL_CS_Ms_ID_EPOCH i))) (BitVec.ofNat 16 (s.rd (R.BL_CS_Ms_W_WEIGHT i)))
      (BitVec.ofNat 32 (s.rd (R.BL_CS_Ms_TSC i)))) s) s) s

/-- A unit leaves the head's map. -/
def memberGone (slot uid : Nat) (s : State) : State :=
  let s := slotFree slot s
  let s := if s.rd R.BL_CS_UNITS_DEPUTY = uid then s.wr R.BL_CS_UNITS_DEPUTY 0 else s
  if s.isHead then mapSpread (consistReport uid slot false s) else s

/-- A NOTICE taken into the map at a boundary (08 R299): the new epoch of the same role, or the slot is freed. -/
def noticeApply (n : Nat × Nat × Nat × Nat × Nat) (s : State) : State :=
  let (src, kind, consist, slot, epoch) := n
  match s.slotOf src with
  | none => s
  | some i =>
    let s := { s with bl.changed := i :: s.bl.changed }
    if (kind = 2 ∨ kind = 3) ∧ consist = s.rd R.BL_ROLE_CONSIST ∧ slot = i then s.wr (R.BL_CS_Ms_ID_EPOCH i) epoch
    else (memberGone i src s).event Ev.MEMBER_GONE 9 (bytesLE 2 src ++ bytesLE 1 i)

/-- An add ends without effect, with its status. -/
def addEnd (st : Nat) (a : AddPlan) (s : State) : State :=
  { s with bl := { s.bl with add := none, ended := some (st, a.slot, a.sn, 0) } }

/-- An add takes effect at J, on the head (08 R303); one that the unit refuses or has not answered by J ends without effect. -/
def addIfDue (s : State) : State :=
  match s.bl.add with
  | none => s
  | some a =>
    let due := decide (0 ≤ modDiff 32 (s.rd R.BL_SN) a.sn)
    match a.refused, a.answer with
    | some st, _ => addEnd st a s
    | none, none => if due then addEnd 4 a s else s
    | none, some (epoch, tsc) =>
      if !due then s
      else
        let s := slotWrite a.slot a.uid epoch a.weight tsc s
        let s := if a.uid = s.bl.deputyNamed then s.wr R.BL_CS_UNITS_DEPUTY a.uid else s
        let s := { s with bl := { s.bl with changed := a.slot :: s.bl.changed, add := none, ended := some (0, a.slot, a.sn, epoch) } }
        mapSpread (consistReport a.uid a.slot true s)

/-! ### Exchange (08 R303–R309) -/

/-- The lanes run: no second lane is unusable (02 R87). -/
def State.lanesRun (s : State) : Bool := !s.hasCause 0 && !s.hold8

/-- The unit is in an emergency toward its consist (08 R312). -/
def State.inEmergency (s : State) : Bool :=
  (1 ≤ s.sub && s.sub ≤ 4) || s.drive == 5 || s.drive == 6 || s.drive == 0 || s.on R.SB_STAT_STO || s.rd R.SB_SFLT != 0

/-- The code F of a fade factor, UQ0.8 with 0xFF for 1, and what a code means (08 R306). -/
def fadeCode (f : Rat) : Nat := if f = 1 then 255 else (clampI 0 254 (toFix 8 f)).toNat
def fadeOf (n : Nat) : Rat := if n = 255 then 1 else ofFix 8 n

/-- The contribution of a member (08 R306). -/
def contribPayload (status echo : Nat) (s : State) : List Byte :=
  bytesLE 1 (s.rd R.BL_ROLE_CONSIST) ++ bytesLE 1 (s.rd R.BL_ROLE_SLOT) ++ bytesLE 1 status
    ++ bytesLE 1 (fadeCode s.bl.f)
    ++ bytesLE 4 (wrapTo 32 (toFix 8 s.olp.cpos)) ++ bytesLE 4 (wrapTo 32 (toFix 8 s.olp.cneg))
    ++ bytesLE 4 (wrapTo 32 (toFix 8 s.consistOffset)) ++ bytesLE 2 echo

/-- The transmit queue of a port. -/
def txQueue (p : Nat) : Nat := 12 + 2 * p

/-- The receive queue of a port. -/
def rxQueue (p : Nat) : Nat := 13 + 2 * p

/-- The head, or the deputy that has taken its role. -/
def State.headId (s : State) : Nat := (s.bl.takenBy).getD (s.rd R.BL_CS_UNITS_HEAD)

/-- The port toward the head. -/
def State.headPort (s : State) : Option Nat := s.route s.headId

/-- A member's contribution launched with the share received as its echo, once per window (08 R306). -/
def launchContrib (echo : Nat) (noshare : Bool) (s : State) : State :=
  if s.bl.launched ∨ !s.linkLocked then s
  else
    match s.headPort with
    | none => s
    | some p =>
      let r := s.qPop (txQueue p)
      match r.1 with
      | none => s
      | some c =>
        let st := if noshare then 2 else fieldLE c 10 1
        let payload := (cellPayload c).take 2 ++ bytesLE 1 st ++ (((cellPayload c).drop 3).take 13) ++ bytesLE 2 echo
        sendTo 2 (cellDst c) s.bl.headEpoch payload { r.2 with bl.launched := true }

/-- The contribution prepared by LIMSHARE and pushed toward the head (08 R306). -/
def prepareContrib (s : State) : State :=
  match s.headPort with
  | none => s
  | some p =>
    let st := if s.inEmergency then 3 else 1
    let s := { s with bl.ofsHist := (s.consistOffset :: s.bl.ofsHist).take 4 }
    (s.setQueue (txQueue p) { s.queue (txQueue p) with items := [] }).qPush (txQueue p)
      (cellSeal (cellBytes 2 0 s.stick s.headId 0 s.uid s.bl.headEpoch (contribPayload st 0x8000 s)))

/-- The share state of a member for the tick (08 R308): the share, 0 where excluded, held once where missing, then 0. -/
def memberShare (s : State) : Rat × State :=
  match s.bl.share with
  | some code =>
    let s := { s with bl := { s.bl with prevMissing := false, missRun := 0 } }
    if code = 0x8000 then (0, s)
    else (fmtQ 32 8 (ofFix 15 (signedOf 16 code) * maxR (s.cu 3 R.LN_OL_TMAXM 8) (s.cu 3 R.LN_OL_TMAXG 8)), s)
  | none =>
    let s' := { s.inc R.BL_CS_MISSSH with bl := { s.bl with prevMissing := true, missRun := s.bl.missRun + 1 } }
    (if s.bl.prevMissing then 0 else s.lim.share, s')

/-- The share of each unit by water filling (08 R304): units as slot, ceiling c_i and effective weight g_i; λ is raised until the shares
sum to `a`. -/
def waterFill : Nat → Rat → List (Nat × Rat × Rat) → List (Nat × Rat)
  | 0, _, us => us.map (fun u => (u.1, 0))
  | n + 1, a, us =>
    let g := us.foldl (fun x u => x + u.2.2) 0
    if g ≤ 0 then us.map (fun u => (u.1, 0))
    else
      let lam := a / g
      let full := us.filter (fun u => u.2.1 < lam * u.2.2)
      if full.isEmpty then us.map (fun u => (u.1, lam * u.2.2))
      else
        let rest := us.filter (fun u => !(u.2.1 < lam * u.2.2))
        full.map (fun u => (u.1, u.2.1)) ++ waterFill n (a - full.foldl (fun x u => x + u.2.1) 0) rest

/-- The shares that the head computes (08 R304): slot and share, and SHORT. Units: slot, f × w, C_pos, C_neg, offset. -/
def headShares (d : Rat) (us : List (Nat × Rat × Rat × Rat × Rat)) : List (Nat × Rat) × Bool :=
  let r := d - us.foldl (fun x u => x + u.2.2.2.2) 0
  let c (u : Nat × Rat × Rat × Rat × Rat) : Rat :=
    maxR 0 ((if 0 ≤ r then u.2.2.1 else u.2.2.2.1) - absR u.2.2.2.2)
  let act := us.filter (fun u => 0 < u.2.1)
  let total := act.foldl (fun x u => x + c u) 0
  let a := minR (absR r) total
  let sh := waterFill 65 a (act.map (fun u => (u.1, c u, u.2.1)))
  (us.map (fun u =>
      (u.1, match sh.find? (fun x => x.1 == u.1) with | some x => fmtQ 32 8 (signR r * x.2) | none => 0)),
    decide (total < absR r))

/-- The units of P with their effective weights, ceilings and offsets (08 R304, R309). -/
def State.present (s : State) : List (Nat × Rat × Rat × Rat × Rat) :=
  s.slotsUsed.filterMap (fun i =>
    let w := s.rdU (R.BL_CS_Ms_W_WEIGHT i) 15
    if i = s.ownSlot then
      let off := s.sub = 3 ∨ s.sub = 4 ∨ s.drive ≠ 3 ∧ s.drive ≠ 4
      some (i, w, if off then 0 else s.olp.cpos, if off then 0 else s.olp.cneg, 0)
    else if s.bl.changed.contains i then none
    else match smapGet (fun _ => none) s.bl.contribs i with
      | some c => if c.status = 1 then some (i, grid (fadeOf c.f * w), c.cpos, c.cneg, c.ofs) else none
      | none => none)

/-- HANDOVER is asked, or D is 0 (08 R313): the head's reaction takes it out of service. -/
def State.headOut (s : State) : Bool :=
  s.hasCause 0 || s.hold8 || s.on R.SB_STAT_STO || s.rd R.SB_SFLT != 0

/-- The entry code of a slot in a SHARE cell (08 R305). -/
def shareEntry (s : State) (shares : List (Nat × Rat)) (i : Nat) : List Byte :=
  let tsc := s.rdU (R.BL_CS_Ms_TSC i) 8
  let code : Nat :=
    match shares.find? (fun x => x.1 == i) with
    | some x => if tsc = 0 then 0 else wrapTo 16 (clampI (-32767) 32767 (toFix 15 (x.2 / tsc)))
    | none => 0x8000
  bytesLE 2 (s.rd (R.BL_CS_Ms_ID_EPOCH i)) ++ bytesLE 2 code

/-- One SHARE cell of the head (08 R305). -/
def shareCell (s : State) (d : Rat) (shares : List (Nat × Rat)) (cell : Nat) : List Byte :=
  let flags := (if s.sub = 2 then 1 else 0) + (if s.on R.BL_CS_STAT_TAKEN then 2 else 0)
    + (if s.headOut ∧ s.rd R.BL_CS_UNITS_DEPUTY ≠ 0 then 4 else 0)
  let entry (i : Nat) : List Byte :=
    if i = 0 then bytesLE 4 (wrapTo 32 (toFix 8 d))
    else if i < 64 ∧ s.on (R.BL_CS_Ms_ID_USED i) then shareEntry s shares i
    else [0, 0, 0, 0]
  cellBytes 1 flags s.stick 2047 0 s.uid 0
    (bytesLE 1 (s.rd R.BL_ROLE_CONSIST) ++ bytesLE 1 cell ++ ((List.range 5).map (fun k => entry (5 * cell + k))).flatten)

/-- The SHARE cells pushed into the transmit queues of the ports of the consist mask (08 R304, R305). -/
def pushShares (d : Rat) (shares : List (Nat × Rat)) (s : State) : State :=
  let cells := (List.range 13).filter (fun c => (List.range 5).any (fun k => s.slotsUsed.contains (5 * c + k)))
  let mask := s.rd (R.BL_CM_c (s.rd R.BL_ROLE_CONSIST))
  (List.range 4).foldl (fun s p =>
    if testB mask p then cells.foldl (fun s c => s.qPush (txQueue p) (cellSeal (shareCell s d shares c))) s else s) s

/-- The head's part of LIMSHARE (08 R304, R307, R309, R315). -/
def headLimshare (s : State) : State :=
  let s := { s with lim := { s.lim with share := s.bl.shareNext, ofs := 0 } }
  let miss := s.slotsUsed.filter (fun i => i ≠ s.ownSlot ∧ (smapGet (fun _ => none) s.bl.contribs i).isNone)
  let s := s.add R.BL_CS_MISSCT miss.length
  let s : State := s.slotsUsed.foldl (fun (s : State) i => s.wr (R.BL_CS_Ms_W_STATUS i)
    (if i = s.ownSlot then 1 else match smapGet (fun _ => none) s.bl.contribs i with | some c => c.status | none => 4)) s
  let others := s.slotsUsed.filter (· ≠ s.ownSlot)
  let alone := !others.isEmpty && miss.length == others.length
  let d : Rat := if s.headOut = true ∧ s.rd R.BL_CS_UNITS_DEPUTY = 0 then 0 else s.olp.d
  let us := s.present
  let r := headShares d us
  let act := us.filter (fun u => 0 < u.2.1)
  let s := s.postU R.BL_CS_CPOS 8 (act.foldl (fun x u => x + u.2.2.1) 0)
  let s := s.postU R.BL_CS_CNEG 8 (act.foldl (fun x u => x + u.2.2.2.1) 0)
  let s := (s.wr R.BL_CS_STAT_SHORT (b2n r.2)).wr R.BL_CS_STAT_PRESENT us.length
  let held := alone && s.rd R.BL_CS_UNITS_DEPUTY != 0
  let own := match r.1.find? (fun x => x.1 == s.ownSlot) with | some x => x.2 | none => 0
  let s : State := r.1.foldl (fun (s : State) x => s.postQ (R.BL_CS_Ms_SHARE x.1) 8 x.2) s
  let s := { s with bl := { s.bl with
    shareNext := if held then s.bl.shareNext else if s.sub = 3 ∨ s.sub = 4 then 0 else own
    noContrib := if alone then s.bl.noContrib + 1 else 0
    changed := [] } }
  pushShares d r.1 s

/-- A member's part of LIMSHARE (08 R306, R308, R312): the share state posted, the fade, the next contribution. -/
def memberLimshare (s : State) : State :=
  let m := memberShare s
  let s := m.2
  let ofs := (s.bl.ofsHist.drop 1).headD 0
  let s := { s with lim := { s.lim with share := m.1, ofs := ofs }, bl.share := none }
  let s := if s.inEmergency then { s with bl := { s.bl with fadeDir := 0, f := 0 } } else fadeTick s
  memberDetachedIfDue (removalFadeEndIfDue (prepareContrib s))

/-- The share part of a LIMSHARE posting (08 R307); the receive queues are drained. -/
def shareStep (s : State) : State :=
  let s := [13, 15, 17, 19].foldl (fun s q => s.qDrain q) s
  if s.isHead then headLimshare s
  else if s.isMember then memberLimshare s
  else { s with lim := { s.lim with share := 0, ofs := 0 } }

/-- A Hold-1 of LIMSHARE in a consist (08 R317): the held cells are resent with the current STICK, the share state is held. -/
def shareHold (s : State) : State :=
  if s.isHead then
    pushShares s.olp.d (s.slotsUsed.map (fun i => (i, s.rdQ (R.BL_CS_Ms_SHARE i) 8))) s
  else if s.isMember then prepareContrib { s with bl.share := none }
  else s

/-- EXCHANGE_WINDOW_OPEN: the window opens; 64 cyc later the head's SHARE cells leave (08 R305, R307, R310). -/
def windowOpen (s : State) : State :=
  let s := s.advanceTo (s.rd R.BL_WIN_OPEN)
  if !s.windowValid ∨ s.bl.winOpen then s
  else
    let s := { s with bl := { s.bl with winOpen := true, launched := false, share := none, headSeen := false, handover := false, contribs := [] } }
    if s.isHead ∧ s.linkLocked ∧ s.uid ≠ 0 then
      (List.range 4).foldl (fun s p =>
        let items := (s.queue (txQueue p)).items
        items.foldl (fun s c =>
          sendCell p (cellBytes (cellType c) (cellFlags c) s.stick (cellDst c) 0 s.uid (cellEpoch c) (cellPayload c)) s)
          (s.qDrain (txQueue p))) s
    else s

/-- The staged management cell of a port is sent (08 R286); a unit without an ID sends none but ENUM cells (R294). -/
def mtxSend (p : Nat) (s : State) : State :=
  let bytes := (((List.range 8).map (fun w => bytesLE 4 (s.word (R.BL_Pp_MTX_Ww p w).addr).toNat)).flatten).take 30
  let s := s.wr (R.BL_Pp_MTX_BUSY p) 0
  if s.uid = 0 ∧ cellType bytes ≠ 6 then s else sendCell p bytes s

/-- EXCHANGE_WINDOW_CLOSE: exchange cells that have not started are discarded and counted, the cells that have waited leave (08 R285),
a staged management cell too (R286); a window without a head's share cell counts (R314). -/
def windowClose (s : State) : State :=
  let s := s.advanceTo (s.rd R.BL_WIN_OPEN + s.rd R.BL_WIN_LEN)
  if !s.bl.winOpen then s
  else
    let s := { s with bl := { s.bl with winOpen := false, headMiss := if s.bl.headSeen then 0 else s.bl.headMiss + 1 } }
    (List.range 4).foldl (fun s p =>
      let n := (s.queue (txQueue p)).items.length
      let s := (s.add (R.BL_Pp_DISCARD p) n).qDrain (txQueue p)
      if s.on (R.BL_Pp_MTX_BUSY p) ∧ s.portUp p then mtxSend p s else s) (releaseHeld s)

/-- BL_MTX_GO: a write of BL.Pp_MTX.GO sends the staged cell outside the window (08 R286); ignored while BUSY. -/
def mtxGo (p : Nat) (s : State) : State :=
  if s.on (R.BL_Pp_MTX_BUSY p) then s
  else if s.bl.winOpen ∨ !s.portUp p then s.wr (R.BL_Pp_MTX_BUSY p) 1
  else mtxSend p s

/-- A SHARE cell of this unit's consist from its head, or from the deputy with TAKEN (08 R305, R314). -/
def takeShare (p : Nat) (c : List Byte) (s : State) : State :=
  let src := cellSrc c
  let taken := testB (cellFlags c) 1
  let head := s.rd R.BL_CS_UNITS_HEAD
  let fromTaken := taken && src == s.rd R.BL_CS_UNITS_DEPUTY
  let ok := match s.bl.takenBy with | some u => src == u | none => src == head || fromTaken
  if !ok ∨ s.qCredit (rxQueue p) = 0 then (if ok then s.qPush (rxQueue p) c else s)
  else
    let s := s.qPush (rxQueue p) c
    let s := { s with bl := { s.bl with
      takenBy := if fromTaken then some src else s.bl.takenBy
      headEpoch := if fromTaken ∧ s.bl.takenBy.isNone then (s.bl.deputyEpoch + 1) % 2 ^ 16 else s.bl.headEpoch
      headSeen := true
      handover := s.bl.handover || testB (cellFlags c) 2
      headHold := testB (cellFlags c) 0
      dSeen := if fieldLE c 9 1 = 0 then ofFix 8 (signedOf 32 (fieldLE c 10 4)) else s.bl.dSeen } }
    let slot := s.rd R.BL_ROLE_SLOT
    if fieldLE c 9 1 = slot / 5 ∧ 0 < slot then
      let off := 10 + 4 * (slot % 5)
      if fieldLE c off 2 ≠ s.rd R.BL_EPOCH then staleCell c (fieldLE c off 2) s
      else launchContrib (fieldLE c (off + 2) 2) false { s with bl.share := some (fieldLE c (off + 2) 2) }
    else s

/-- SHARE: a SHARE cell is received, delivered to a member and forwarded (08 R283, R284, R298, R305). -/
def shareArrives (p : Nat) (c : List Byte) (s : State) : State :=
  receiveCell p c 1 (exchangeTake p c (fun s =>
    let mine := s.isMember && fieldLE c 8 1 == s.rd R.BL_ROLE_CONSIST && s.linkLocked
    forward p c (if mine then takeShare p c s else s))) s

/-- CONTRIB: a member's contribution reaches the head, or is forwarded (08 R283, R284, R306). -/
def contribArrives (p : Nat) (c : List Byte) (s : State) : State :=
  receiveCell p c 2 (exchangeTake p c (fun s =>
    if cellDst c ≠ s.uid ∨ s.uid = 0 then forward p c s
    else if !s.linkLocked then s
    else if cellEpoch c ≠ s.rd R.BL_EPOCH then staleCell c (cellEpoch c) s
    else
      let lost := s.qCredit (rxQueue p) = 0
      let s := s.qPush (rxQueue p) c
      let slot := fieldLE c 9 1 % 64
      if lost ∨ !s.isHead ∨ fieldLE c 8 1 ≠ s.rd R.BL_ROLE_CONSIST ∨ s.slotOf (cellSrc c) ≠ some slot then s
      else { s with bl.contribs := smapSet (fun _ => none) s.bl.contribs slot (some {
          status := fieldLE c 10 1
          f := fieldLE c 11 1
          cpos := ofFix 8 (signedOf 32 (fieldLE c 12 4))
          cneg := ofFix 8 (signedOf 32 (fieldLE c 16 4))
          ofs := ofFix 8 (signedOf 32 (fieldLE c 20 4)) }) })) s

/-- NOSHARE_LAUNCH: without a share by window open plus NSOFS the contribution leaves with NOSHARE (08 R306). -/
def noshareLaunch (s : State) : State :=
  let s := s.advanceTo (s.rd R.BL_WIN_OPEN + s.rd R.BL_CS_NSOFS)
  if s.isMember ∧ s.bl.winOpen ∧ s.bl.share.isNone then launchContrib 0x8000 true s else s

/-! ### Takeover (08 R314, R315) -/

/-- The windows before a takeover. -/
def State.takeWindows (s : State) : Nat := max 1 (s.rd R.BL_CS_CFG_TAKE)

/-- DEPUTY_TAKEOVER: at the boundary after a HANDOVER, or TAKE windows without the head's share cells, the deputy becomes the head,
its path continuing from D (08 R314). -/
def deputyTakeoverIfDue (s : State) : State :=
  if s.rd R.BL_ROLE_KIND = 3 ∧ (s.bl.handover ∨ s.takeWindows ≤ s.bl.headMiss) then
    let a := s
    let s := roleChange 1 (s.rd R.BL_ROLE_CONSIST) (s.rd R.BL_ROLE_SLOT) s
    let s := ((s.wr R.BL_CS_STAT_TAKEN 1).wr R.BL_CS_UNITS_HEAD s.uid).wr (R.BL_CS_Ms_ID_EPOCH s.ownSlot) (s.rd R.BL_EPOCH)
    let s := { s with
      bl := { s.bl with handover := false, headMiss := 0, changed := 0 :: s.bl.changed, shareNext := s.lim.share, noContrib := 0 }
      olp := { s.olp with d := s.bl.dSeen, path := 0 } }
    let s := if s.drive = 3 ∧ s.sub = 0 ∧ s.rd R.LN_MD_STAT_MODE = 5 then
        s.wr R.LN_MD_STAT_MODE (if s.bl.soloMode = 0 then 1 else s.bl.soloMode) else s
    (consistReport s.uid s.ownSlot true s).driveEvent a
  else s

/-- TAKEOVER: a head with a deputy gives up its role after TAKE windows without any contribution (08 R315). -/
def takeoverIfDue (s : State) : State :=
  if s.isHead ∧ s.rd R.BL_CS_UNITS_DEPUTY ≠ 0 ∧ s.rd R.BL_CS_UNITS_DEPUTY ≠ s.uid ∧ s.takeWindows ≤ s.bl.noContrib then
    let s := toTorqueZero (roleChange 0 0 0 s)
    { s with bl := { s.bl with noContrib := 0, shareNext := 0 } }.event Ev.TAKEOVER 9
  else s

/-! ### Synchronisation (08 R289–R293) -/

/-- BL.SYNC.STATE changes; leaving or entering LOCKED raises SYNC_LOCK or SYNC_LOST (08 R291: each change of state). -/
def syncState (n : Nat) (s : State) : State :=
  if s.rd R.BL_SYNC_STATE = n then s
  else (s.wr R.BL_SYNC_STATE n).event (if n = 2 then Ev.SYNC_LOCK else Ev.SYNC_LOST) 9 (bytesLE 1 (s.rd R.BL_SYNC_STATE) ++ bytesLE 1 n)

/-- The rate correction (08 R290): above 1 µs in READY, RUN and STOPPING at the ±100 ppm limit in the direction that reduces the error;
else a value of the control loop within the limit, which the spec leaves open (assumption log 20). The error in eighths of a cyc. -/
def trimRate (err : Int) (s : State) : State :=
  let far := 2 ≤ s.drive ∧ s.drive ≤ 4
  if far ∧ 3200 < err then s.wr R.TB_TRIM (wrapTo 32 (-429497))
  else if far ∧ err < -3200 then s.wr R.TB_TRIM 429497
  else
    let d := s.drawBits 32
    d.2.wr R.TB_TRIM (wrapTo 32 ((d.1 % 858995 : Nat) - 429497 : Int))

/-- A step of TB to the system value at the next boundary, in OFF and STANDBY (08 R290, 01 R31), else the rate. -/
def correctTime (err : Int) (s : State) : State :=
  if (3200 < err ∨ err < -3200) ∧ s.drive ≤ 1 then { s with time.stepTo := some (-((2 * err + 8) / 16)) }
  else trimRate err s

/-- The serial of the module. -/
def State.serial (s : State) : Nat := s.rd R.BL_SERIAL_LO + 2 ^ 32 * s.rd R.BL_SERIAL_HI

/-- A SYNC forwarded at once on the other ports, with the correction that the unit gives it (08 R289); HOPS counts it. -/
def syncForward (p hops t : Nat) (src : Nat) (m : SyncMsg) (s : State) : State :=
  if 31 ≤ hops then s.inc (R.BL_Pp_DISCARD p)
  else ((List.range 4).filter (· ≠ p)).foldl (fun s q => sendNbr q 3 (hops + 1) src (.sync m) t s) s

/-- A unit takes a SYNC: its error, and what follows from it (08 R289–R291, R293). The error in eighths of a cyc. -/
def syncTake (hops src : Nat) (err : Int) (m : SyncMsg) (s : State) : State :=
  let s := { s with bl := { s.bl with syncAge := 0, holdTicks := 0, rootId := src } }
  let s := ((s.wr R.BL_SYNC_HOLDOVER 0).wr R.BL_SYNC_HOPS (hops + 1)).satQ R.BL_SYNC_ERR 0 ((err : Rat) * 625 / 2)
  if m.period ≠ s.period then syncState 3 { s with bl := { s.bl with syncGood := 0, syncBad := 0 } }
  else
    let s := correctTime err s
    let good := decide (-6 ≤ err ∧ err ≤ 6)
    let bad := decide (err < -64 ∨ 64 < err)
    let s := { s with bl := { s.bl with
      syncGood := if good then s.bl.syncGood + 1 else 0
      syncBad := if bad then s.bl.syncBad + 1 else 0 } }
    if s.linkLocked then (if 3 ≤ s.bl.syncBad then syncState 1 s else s)
    else if 16 ≤ s.bl.syncGood then syncState 2 s
    else syncState 1 s

/-- Another unit's SYNC at a unit that acts as the root (08 R292): two units with ROOT = 1 raise ROOT_CONFLICT, and the one with the
higher serial then acts as ROOT = 0; a standby root gives the role back to a root, and to a standby root of a lower serial (assumption log
59). True where the unit follows the SYNC. -/
def rootMeets (p : Nat) (m : SyncMsg) (s : State) : Bool × State :=
  let lower := decide (m.serial.toNat < s.serial)
  if s.rd R.BL_CFG_ROOT = 1 then
    (if m.standby then (false, s)
     else
      let s := s.event Ev.ROOT_CONFLICT (9 + p)
      (lower, if lower then { s with bl := { s.bl with rootOff := true, rootTaken := false } } else s))
  else if !m.standby ∨ lower then (true, { s with bl.rootTaken := false })
  else (false, s)

/-- SYNC: a SYNC cell from a neighbour, `frac` eighths of a cyc into its cycle: the error is the own TB less the root's TB and the
correction, which takes the delay of the incoming path; it is forwarded with the correction, and the unit corrects its TB (08 R289–R293).
The second copy from a ring and the unit's own SYNC are discarded (R287). -/
def syncArrives (p : Nat) (c : List Byte) (frac : Nat) (m : SyncMsg) (s : State) : State :=
  receiveCell p c 3 (fun s =>
    if m.serial.toNat = s.serial ∨ s.bl.syncTb = some (m.tb, m.serial.toNat) then s
    else
      let r := if s.isRoot then rootMeets p m s else (true, s)
      if !r.1 then r.2
      else
        let s := { r.2 with bl.syncTb := some (m.tb, m.serial.toNat) }
        let now := 8 * s.time.tb + frac
        let m := { m with corr := m.corr + s.rd (R.BL_Pp_DELAY p) }
        let s := syncForward p (cellHops c) now (cellSrc c) m s
        syncTake (cellHops c) (cellSrc c) ((now : Int) - (8 * m.tb + m.corr : Nat)) m s) s

/-- SYNC_LOST: three SYNCs beyond 20 ns, or 4,000 ticks of holdover, take the unit out of LOCKED (08 R291, R292). -/
def syncLostIfDue (s : State) : State :=
  if s.linkLocked ∧ !s.isRoot ∧ 3 ≤ s.bl.syncBad then syncState 1 s
  else if s.linkLocked ∧ !s.isRoot ∧ s.on R.BL_SYNC_HOLDOVER ∧ 4000 ≤ s.bl.holdTicks then syncState 0 (s.wr R.BL_SYNC_HOLDOVER 0)
  else s

/-- HOLDOVER: no SYNC for 64 ticks: a locked unit keeps its rate, a standby root takes the root role (08 R292). -/
def holdoverIfDue (s : State) : State :=
  if s.isRoot ∨ s.bl.syncAge < 64 then s
  else if s.rd R.BL_CFG_ROOT = 2 ∧ !s.bl.rootOff then { s with bl.rootTaken := true }
  else if s.linkLocked then s.wr R.BL_SYNC_HOLDOVER 1 else s

/-- The root's SYNC on every port, with its TB and P (08 R289). -/
def rootSync (s : State) : State :=
  let m : SyncMsg := { tb := s.time.tb, period := s.period, corr := 0, serial := BitVec.ofNat 48 s.serial, standby := s.rd R.BL_CFG_ROOT != 1 }
  (List.range 4).foldl (fun s q => sendNbr q 3 0 s.uid (.sync m) (8 * s.time.tb) s) s

/-- The link's part of a tick boundary (08 R289, R290, R292, R299): SYNC from the root every 8 ticks, ages, SN, notices,
takeovers, joins. -/
def linkBoundary (s : State) : State :=
  let s := { s with bl := { s.bl with
    seen := s.bl.seen.filter (fun x => x.2.1 / 256 == s.rd R.BL_SN % 256)
    cut := s.bl.cut || decide (64 ≤ s.bl.syncAge + 1)
    syncAge := s.bl.syncAge + 1
    holdTicks := if s.on R.BL_SYNC_HOLDOVER then s.bl.holdTicks + 1 else 0 } }
  let sn := s.time.tbLast / s.period % 2 ^ 32
  let s := (s.wr R.BL_SN sn).wr R.BL_SNOFS (wrapTo 32 ((sn : Int) - s.tickno))
  let s := if s.isRoot then
      let s := if s.linkLocked then s else syncState 2 s
      if s.tickno % 8 = 0 then rootSync s else s
    else s
  let s := if s.tickno % 64 = 0 then (List.range 4).foldl (fun s q => sendNbr q 4 0 s.uid .delayReq (8 * s.time.tb) s) s else s
  let s := syncLostIfDue (holdoverIfDue s)
  let n := s.bl.notices
  let s := n.foldl (fun s x => noticeApply x s) { s with bl.notices := [] }
  joinIfDue (addIfDue (takeoverIfDue (deputyTakeoverIfDue s)))

/-- DELAY_REQ: answered with DELAY_RESP (08 R289). -/
def delayReq (p : Nat) (c : List Byte) (frac : Nat) (s : State) : State :=
  receiveCell p c 4 (fun s => sendNbr p 5 0 s.uid (.delayResp 0) (8 * s.time.tb + frac) s) s

/-- DELAY_RESP: half of the round trip, without the stay at the neighbour, is the one-way delay (08 R289). -/
def delayResp (p : Nat) (c : List Byte) (frac stay : Nat) (s : State) : State :=
  receiveCell p c 5 (fun s =>
    match smapGet (fun _ => none) s.bl.reqAt p with
    | none => s
    | some t =>
      ({ s with bl.reqAt := smapErase p s.bl.reqAt }).satU (R.BL_Pp_DELAY p) 0 ((8 * s.time.tb + frac - t - stay : Nat) / 2 : Rat)) s

/-! ### Unit IDs (08 R294–R296) -/

/-- The ID that the root gives a unit (08 R295): the one it has in the root's map, the one held for it, the one it holds already, its
preferred one where free, the lowest free one. -/
def State.pickId (s : State) (serial pref id : Nat) : Option Nat :=
  let free (i : Nat) : Bool :=
    1 ≤ i && i ≤ 1024 && s.bl.units.all (fun u => u.1 != i) && s.bl.idHolds.all (fun h => h.1 != i) && i != s.uid
  match s.bl.units.find? (fun u => u.2 == serial), s.bl.idHolds.find? (fun h => h.2.1 == serial) with
  | some u, _ => some u.1
  | none, some h => some h.1
  | none, none =>
    if free id then some id
    else if free pref then some pref
    else ((List.range 1024).map (· + 1)).find? free

/-- The probe of the port that the enumeration has come to: on an own port at once, else the unit there is asked; with none left the
root writes the tables (08 R295). -/
def enumNext (s : State) : State :=
  match s.bl.todo with
  | [] => rootTables [] s
  | (u, p) :: _ => if u = s.uid then sendNbr p 6 0 s.uid (.enum .probe) (8 * s.time.tb) s else sendMsg 6 u 0 (.enum (.ask (Fin.ofNat 4 p))) s

/-- The root adds ports to its enumeration, and starts it where it stood still. -/
def enumAdd (ps : List (Nat × Nat)) (s : State) : State :=
  let idle := s.bl.todo.isEmpty
  let s := { s with bl.todo := s.bl.todo ++ ps }
  if idle ∧ !ps.isEmpty then enumNext s else s

/-- An answer of the enumeration: it goes on with the next port. An answer for another port than the one it has come to has no effect. -/
def enumAnswer (u p : Nat) (f : State → State) (s : State) : State :=
  match s.bl.todo with
  | [] => s
  | x :: rest => if x = (u, p) then enumNext (f { s with bl.todo := rest }) else s

/-- The root takes the unit that answered at a port of unit `u` into its map (08 R295, R296): it gives it its ID, notes the link and
adds its other ports; beyond 32 hops or without a free ID the unit is refused. -/
def enumUnit (u p serial pref id epoch far : Nat) (s : State) : State :=
  let link (n : Nat) : LinkEdge := { a := u, pa := p, b := n, pb := far }
  let known (n : Nat) : Bool := s.bl.links.any (fun l => l == link n || l == { a := n, pa := far, b := u, pb := p })
  if serial = s.serial then (if known s.uid then s else { s with bl.links := s.bl.links ++ [link s.uid] })
  else
    let hops := match s.topology.nodes.find? (fun n => n.uid == u) with | some n => n.hops | none => 32
    let old := s.bl.units.any (fun x => x.2 == serial)
    match (if !old ∧ 32 ≤ hops then none else s.pickId serial pref id) with
    | some n =>
      let s := { s with bl := { s.bl with
        units := smapSet (fun _ => 0) s.bl.units n serial
        epochs := smapSet (fun _ => 0) s.bl.epochs n epoch
        idHolds := s.bl.idHolds.filter (fun h => h.2.1 != serial)
        links := if known n then s.bl.links else s.bl.links ++ [link n]
        todo := if s.bl.listed.contains n then s.bl.todo
          else s.bl.todo ++ ((List.range 4).filter (· ≠ far)).map (fun q => (n, q))
        listed := if s.bl.listed.contains n then s.bl.listed else n :: s.bl.listed } }
      let s := if u = s.uid then sendNbr p 6 0 s.uid (.enum (.assign (BitVec.ofNat 11 n))) (8 * s.time.tb) s
        else sendMsg 6 u 0 (.enum (.give (Fin.ofNat 4 p) (BitVec.ofNat 11 n))) s
      let t := s.topology
      let s := ((t.above 32 n).filter (· ≠ n)).foldl (fun s v => mgmtTo v [t.routeMsg v n] s) s
      mgmtTo n (t.tables [] s.bl.consists n) s
    | none => { s with bl := { s.bl with refused := s.bl.refused + 1 } }.event Ev.UNIT_REFUSED (if u = s.uid then 9 + p else 9) (bytesLE 6 serial)

/-- The root's map without a link at a port: the units that no path leads to any more keep their IDs, which are held free for 10 s, and
the tables are written again (08 R287, R295). -/
def linkGone (u p : Nat) (s : State) : State :=
  let first := s.bl.todo.head?
  let s := { s with bl.links := s.bl.links.filter (fun l => !((l.a == u && l.pa == p) || (l.b == u && l.pb == p))) }
  let t := s.topology
  let lost := s.bl.units.filter (fun x => !t.nodes.any (fun n => n.uid == x.1))
  let here (n : Nat) : Bool := lost.all (fun x => x.1 != n)
  let s := { s with bl := { s.bl with
    units := s.bl.units.filter (fun x => here x.1)
    idHolds := lost.map (fun x => (x.1, x.2, s.time.tb + msCyc 10000)) ++ s.bl.idHolds
    listed := s.bl.listed.filter here
    todo := s.bl.todo.filter (fun x => here x.1 && x != (u, p)) } }
  let s := rootTables (lost.map (·.1)) s
  if s.bl.todo.isEmpty ∨ s.bl.todo.head? = first then s else enumNext s

/-- An ENUM cell for this unit (08 R295): the root collects answers and gives IDs; another unit answers probes, probes its own ports when
asked, and takes an ID where it has none or has been cut off: an enumeration never changes the ID of a unit that has stayed connected. -/
def enumTake (p src : Nat) (msg : EnumMsg) (s : State) : State :=
  let now := 8 * s.time.tb
  let toRoot (m : EnumMsg) (s : State) : State := sendMsg 6 s.bl.asker 0 (.enum m) s
  match msg with
  | .probe =>
    sendNbr p 6 0 s.uid (.enum (.identity (BitVec.ofNat 48 s.serial) (BitVec.ofNat 11 (s.rd R.BL_UID_PREF)) (BitVec.ofNat 11 s.uid)
      (BitVec.ofNat 16 (s.rd R.BL_EPOCH)) (Fin.ofNat 4 p))) now s
  | .identity serial pref id epoch far =>
    if s.isRoot then enumAnswer s.uid p (enumUnit s.uid p serial.toNat pref.toNat id.toNat epoch.toNat far.val) s
    else toRoot (.found (Fin.ofNat 4 p) serial pref id epoch far) s
  | .ask q =>
    let s := { s with bl.asker := src }
    if s.portOpen q.val then sendNbr q.val 6 0 s.uid (.enum .probe) now s else toRoot (.nothing q) s
  | .found q serial pref id epoch far =>
    if s.isRoot then enumAnswer src q.val (enumUnit src q.val serial.toNat pref.toNat id.toNat epoch.toNat far.val) s else s
  | .nothing q => if s.isRoot then enumAnswer src q.val id s else s
  | .assign n =>
    if s.isRoot then s
    else if s.uid = 0 ∨ s.bl.cut then { s.wr R.BL_UID_ID n.toNat with bl.cut := false } else s
  | .give q n => sendNbr q.val 6 0 s.uid (.enum (.assign n)) now s
  | .link q up =>
    if !s.isRoot then s
    else if up then enumAdd [(src, q.val)] s else linkGone src q.val s
  | .consist number uid slot joined => if s.isRoot then rootConsist number.val src uid.toNat slot.val joined s else s

/-- ENUM: an ENUM cell for the neighbour or for an ID (08 R283, R295); its payload has no bytes in the spec (assumption log 19). -/
def enumArrives (p : Nat) (c : List Byte) (msg : EnumMsg) (s : State) : State :=
  receiveCell p c 6 (fun s =>
    if cellDst c ≠ 0 ∧ cellDst c ≠ s.uid then forward p c s
    else toQ62 c (enumTake p (cellSrc c) msg) s) s

/-- The root starts an enumeration: it takes its own ID, PREF or 1, and goes on from its ports that are up (08 R295). -/
def enumStart (s : State) : State :=
  let pref := s.rd R.BL_UID_PREF
  let s := if s.uid = 0 then s.wr R.BL_UID_ID (if 1 ≤ pref ∧ pref ≤ 1024 then pref else 1) else s
  enumAdd (((List.range 4).filter s.portOpen).map (fun q => (s.uid, q)))
    { s with bl := { s.bl with todo := [], listed := [s.uid], refused := 0 } }

/-- MGMT: route tables, consist masks and the ring's state as the root writes them (08 R284, R295, R320). -/
def mgmtArrives (p : Nat) (c : List Byte) (msg : MgmtMsg) (s : State) : State :=
  receiveCell p c 9 (fun s =>
    let mine := cellDst c = s.uid ∧ s.uid ≠ 0
    let s := if !mine then forward p c s else s
    if !mine ∧ cellDst c ≠ 2047 then s
    else if mine ∧ cellEpoch c ≠ s.rd R.BL_EPOCH then staleCell c (cellEpoch c) s
    else toQ62 c (takeMgmt msg) s) s

/-- LINK_UP: a port comes up after 1 ms of error-free decoding (08 R281); the root enumerates it, another unit tells the root (R295). -/
def linkUp (p : Nat) (nbr : Nat) (s : State) : State :=
  if !s.on R.BL_CFG_EN ∨ s.portUp p then s
  else
    let s := ((s.wr (R.BL_Pp_STAT_UP p) 1).wr (R.BL_Pp_STAT_LOS p) 0).wr (R.BL_Pp_STAT_NBR p) nbr
    let s := (s.wrBit R.BL_STAT_UP p true).event Ev.LINK_UP (9 + p) (bytesLE 1 p)
    let s := (s.qConsumer (txQueue p) true).qConsumer (rxQueue p) true
    if s.isRoot then enumAdd [(s.uid, p)] s else sendMsg 6 s.bl.rootId 0 (.enum (.link (Fin.ofNat 4 p) true)) s

/-- A port that goes down (08 R281): its queues are flushed and give no credit (01 R39), cells that wait for it are lost; the root's map
follows, another unit tells the root. -/
def portDown (p : Nat) (s : State) : State :=
  if !s.portUp p then s
  else
    let s := (s.wr (R.BL_Pp_STAT_UP p) 0).wr (R.BL_Pp_STAT_NBR p) 0
    let s := (s.wrBit R.BL_STAT_UP p false).event Ev.LINK_DOWN (9 + p) (bytesLE 1 p)
    let s := (s.qConsumer (txQueue p) false).qConsumer (rxQueue p) false
    let s := { s with bl := { s.bl with
      held := s.bl.held.filter (fun h => h.port ≠ p)
      reqAt := smapErase p s.bl.reqAt
      cut := s.bl.cut || s.rd R.BL_STAT_UP == 0 } }
    if s.isRoot then linkGone s.uid p s else sendMsg 6 s.bl.rootId 0 (.enum (.link (Fin.ofNat 4 p) false)) s

/-- LINK_DOWN: loss of signal or code violations take a port down (08 R281). -/
def linkDown (p : Nat) (los : Bool) (s : State) : State := portDown p (s.wr (R.BL_Pp_STAT_LOS p) (b2n los))

/-- BL.CFG.EN is cleared (08 R318): the ports are down, and their queues give no credit (01 R39). -/
def linkDisable (s : State) : State :=
  (List.range 4).foldl (fun s p => ((portDown p s).qConsumer (txQueue p) false).qConsumer (rxQueue p) false) s

/-- ID_HOLD_EXPIRY: the 10 s of a held ID have run out (08 R295). -/
def idHoldExpiry (s : State) : State :=
  { s with bl.idHolds := s.bl.idHolds.filter (fun h => s.time.tb < h.2.2) }

/-! ### CONSIST and NOTICE (08 R298, R299, R303) -/

/-- What keeps a unit from joining, by its status (08 R302): the unit is to be locked, with the head's P and window, in no consist, and in
READY, or in RUN in SPEED or TORQUE. -/
def State.joinRefusal (s : State) (per : Nat) (win : Word) : Option Nat :=
  if !s.linkLocked ∨ !s.windowValid ∨ per ≠ s.period ∨ win ≠ s.word R.BL_WIN_OPEN.addr then some 0x04
  else if s.rd R.BL_ROLE_KIND ≠ 0 ∨ s.bl.join.isSome then some 0x01
  else if s.drive = 2 ∨ (s.drive = 3 ∧ s.sub = 0 ∧ (s.rd R.LN_MD_STAT_MODE = 1 ∨ s.rd R.LN_MD_STAT_MODE = 2)) then none
  else some 0x01

/-- What a CONSIST cell for this unit says (08 R303, R311, R314). -/
def consistTake (src : Nat) (msg : ConsistMsg) (s : State) : State :=
  match msg with
  | .offer consist slot sn headEpoch deputy per win n =>
    match s.joinRefusal per.toNat win with
    | some st => sendMsg 7 src headEpoch.toNat (.consist (.refuse (BitVec.ofNat 8 st))) s
    | none =>
      let tsc := max (s.rd R.LN_OL_TMAXM) (s.rd R.LN_OL_TMAXG)
      let s := { s.wr R.BL_CS_NSOFS n.toNat with bl.join := some {
        sn := sn.toNat, consist := consist.val, slot := slot.val, head := src, headEpoch := headEpoch.toNat, deputy := deputy, tsc := tsc } }
      sendMsg 7 src headEpoch.toNat (.consist (.accept (BitVec.ofNat 16 (s.rd R.BL_EPOCH + 1)) (BitVec.ofNat 32 tsc))) s
  | .accept epoch tsc =>
    match s.bl.add with
    | some a => if a.uid = src then { s with bl.add := some { a with answer := some (epoch.toNat, tsc.toNat) } } else s
    | none => s
  | .refuse status =>
    match s.bl.add with
    | some a => if a.uid = src then { s with bl.add := some { a with refused := some status.toNat } } else s
    | none => s
  | .remove => if s.isMember then { s with bl := { s.bl with fadeDir := -1 } } else s
  | .removed epoch =>
    match s.slotOf src with
    | some i => if s.isHead then memberGone i src { s with bl.goneEpoch := epoch.toNat } else s
    | none => s
  | .copy slot uid epoch weight tsc =>
    if s.rd R.BL_ROLE_KIND ≠ 3 then s
    else if uid = 0 then slotFree slot.val s
    else slotWrite slot.val uid.toNat epoch.toNat weight.toNat tsc.toNat s
  | .deputy uid epoch => if s.isMember then { s.wr R.BL_CS_UNITS_DEPUTY uid.toNat with bl.deputyEpoch := epoch.toNat } else s
  | .nsofs n => if s.isMember then s.wr R.BL_CS_NSOFS n.toNat else s

/-- CONSIST: a join, its answer, a removal or a copy of the map (08 R303); the payload's bytes are not given (assumption log 19). -/
def consistArrives (p : Nat) (c : List Byte) (msg : ConsistMsg) (s : State) : State :=
  receiveCell p c 7 (fun s =>
    if cellDst c ≠ s.uid ∨ s.uid = 0 then forward p c s
    else if cellEpoch c ≠ s.rd R.BL_EPOCH then staleCell c (cellEpoch c) s
    else toQ62 c (consistTake (cellSrc c) msg) s) s

/-- What an EPOCH_STALE for this unit does (08 R298, R299): the root writes the sender's tables again with the epoch it shows; a member that
has it from its head loses the consist; a head or deputy takes it into its map at the next boundary. -/
def noticeTake (c : List Byte) (s : State) : State :=
  let src := cellSrc c
  if fieldLE c 8 1 ≠ 1 then s
  else
    let s := if s.isRoot ∧ fieldLE c 14 1 = 9 then
        let s := { s with bl.epochs := smapSet (fun _ => 0) s.bl.epochs src (fieldLE c 10 2) }
        mgmtTo src (s.topology.tables [] s.bl.consists src) s
      else s
    if s.rd R.BL_ROLE_KIND = 2 then
      (if src = s.rd R.BL_CS_UNITS_HEAD then detach (s.event Ev.CONSIST_LOST 9) else s)
    else if s.isHead ∨ s.rd R.BL_ROLE_KIND = 3 then
      let s : State := match s.bl.add with
        | some a => if a.uid = src ∧ a.answer.isSome then
            { s with bl.add := some { a with answer := none, refused := some 0x23 } } else s
        | none => s
      { s with bl := { s.bl with notices := s.bl.notices ++ [(src, fieldLE c 9 1, fieldLE c 12 1, fieldLE c 13 1, fieldLE c 10 2)] } }
    else s

/-- NOTICE: an EPOCH_STALE for this unit, or for another one (08 R283, R284, R298). -/
def noticeArrives (p : Nat) (c : List Byte) (s : State) : State :=
  receiveCell p c 8 (fun s =>
    if cellDst c ≠ s.uid ∨ s.uid = 0 then forward p c s else toQ62 c (noticeTake c) s) s

end Sys2Proof.Machine
end

