-- ==== Sys2Proof/Machine/Tasks.lean ====
section
/-! DEFINITION. The lane tasks as steps (02 R53–R79): their runs, recomputation, substitution with Hold-1 and rest outputs, DATAPATH
and HOLD8; and LIMSHARE (03 R122, 05 R194, R205–R208; 08 R304). -/

namespace Sys2Proof.Machine

/-! ### LIMSHARE (05 R194, R206–R208) -/

/-- The regenerative ceiling R (05 R207). -/
def State.regenCeiling (s : State) : Rat :=
  let t := s.cu 3 R.LN_OL_TMAXG 8
  let v := s.vdc
  if 120 / 100 ≤ v ∨ s.hasCause 9 = true ∨ s.spanCloses = true then 0
  else if v ≤ 115 / 100 then t
  else grid (t * (120 / 100 - v) / (5 / 100))

/-- ASCARM (05 R194). -/
def State.ascReady (s : State) : Bool :=
  s.on R.LN_MD_CFG_ASCEN && !s.con 3 R.LN_CF_MACH_TYPE && decide (s.rdU R.LN_MD_ASCW 16 ≤ absR s.omegaM)
    && (s.fbValid || s.cf.emfValid) && !s.ascBlock

/-- One run of LIMSHARE on the state at its task start: what it will post, with the schedule of a commit tick. -/
def limRun (s : State) : LimNew :=
  let lim : LimState := { s.lim with ascarm := s.ascReady, regen := s.regenCeiling }
  if s.commitTick then
    let r := schedule s
    let du := s.duties
    let lim : LimState := { lim with du := #v[du.1.1, du.1.2.1, du.1.2.2], u0 := du.2.2, dch := r.2.2 }
    { lim := lim, pw := r.2.1, sched := some r.1, dch := r.2.2 }
  else { lim := lim, pw := s.pw, sched := none, dch := 0 }

/-- The blocks of a schedule are staged once LIMSHARE has run (06 R219). -/
def limStage (s : State) : State :=
  match s.limNew with
  | some n => match n.sched with
    | some w => stageBlocks w s
    | none => s
  | none => s

/-- vdc of the tick in which a span of GK full on began (05 R208). -/
def spanMark (s : State) : State :=
  match s.pw.span with
  | some (a, none, e) =>
    if a < s.time.tbLast + s.period then { s with pw := { s.pw with span := some (a, some s.vdc, e) } } else s
  | _ => s

/-- GK has been full on for 2 ms without a fall of vdc (05 R208). -/
def State.spanFault (s : State) : Bool := s.spanFaultAt s.time.tb

/-- CHOPPER_FAULT from the span, judged at a substitution point of LIMSHARE; R = 0 from this tick on (05 R208). -/
def chopperFaultIfDue (s : State) : State :=
  if s.spanFault ∧ !s.hasCause 9 then
    { s.cause 9 (s.runLane 3 + 1) 3 s.vdcRaw with lim := { s.lim with regen := 0 } }.wr R.LN_MD_REGEN 0
  else s

/-- DC_OV from MEAN at a posting of LIMSHARE (05 R203, R205): once, in the first tick at or above Vov. -/
def dcOvMeanIfDue (s : State) : State :=
  if 125 / 100 ≤ s.vdc ∧ !s.hasCause 7 then s.cause 7 (s.runLane 3 + 1) 1 s.vdcRaw else s

/-- vdc has been below Vuv in each of the last eight ticks, all of them in one of the states given. -/
def State.undervoltage (s : State) (states : List Nat) : Bool :=
  decide (8 ≤ s.seq.vdcHist.length) && (s.seq.vdcHist.take 8).all (fun x => decide (x.1 < 70 / 100) && states.contains x.2)

/-- DC_UV, raised by LIMSHARE (05 R203, R205). -/
def dcUvRaiseIfDue (s : State) : State :=
  if s.undervoltage [3, 4] ∧ !s.hasCause 8 then s.cause 8 (s.runLane 3 + 1) 0 s.vdcRaw else s

/-- A schedule committed as computed (03 R122), with the chopper's and the compensation's status. -/
def limCommit (n : LimNew) (s : State) : State :=
  match n.sched with
  | none => s
  | some w =>
    let dropped := s.vsDropped
    vsStatus dropped (chopperStatus n.dch (commitSchedule w n.pw .accept s))

/-- LIMSHARE's output posted (02 R54). -/
def limPost (s : State) : State :=
  match s.limNew with
  | none => s
  | some n =>
    let s := limCommit n s
    let s : State := { s with limNew := none, lim := { n.lim with share := s.lim.share, ofs := s.lim.ofs } }
    shareStep (dcUvRaiseIfDue (dcOvMeanIfDue (s.postQ R.LN_MD_REGEN 8 s.lim.regen)))

/-- The commit of a Hold-1 or of a rest output on a commit tick (02 R75, R76): the last schedule once more, or all off, which is
staged like a new one. -/
def holdCommit (rest : Bool) (s : State) : State :=
  if !s.commitTick then s
  else
    let h := heldSchedule s rest
    if rest ∨ !s.pw.committed then commitSchedule h.1 h.2 .accept (stageBlocks h.1 s)
    else commitSchedule h.1 h.2 .rearm s

/-- LIMSHARE's rest output (02 R76). -/
def limRest (s : State) : State :=
  let s := holdCommit true { s with limNew := none }
  { s with
    lim := { s.lim with ascarm := false, regen := 0, share := 0, ofs := 0 }
    bl := { s.bl with shareNext := 0, share := none } }.wr R.LN_MD_REGEN 0

/-- vdc of the tick is kept for the levels of R205, with the drive state. -/
def vdcTake (s : State) : State :=
  { s with seq := { s.seq with vdcHist := ((s.vdc, s.drive) :: s.seq.vdcHist).take 8 } }

/-- A span that has ended has been judged at this substitution point (05 R208). -/
def spanDrop (s : State) : State :=
  match s.pw.span with
  | some (_, _, some e) => if e ≤ s.time.tb then { s with pw := { s.pw with span := none } } else s
  | _ => s

/-- What every substitution point of LIMSHARE does besides (05 R208; 09 R322): the span of GK, ALIVE_OUT. -/
def limAlways (s : State) : State :=
  spanDrop (chopperFaultIfDue (spanMark { s with pm := if s.sys.latchedOff then s.pm else { s.pm with aliveOut := !s.pm.aliveOut } }))

/-! ### Runs (02 R53, R54, R69) -/

/-- What a task takes from outside at its start: pulses (03 R136), records and lever values (04 R144–R148), a partner's state (09 R329,
R334). -/
def taskTake (code : Nat) (s : State) : State :=
  match code with
  | 1 => alignStandby 1 { s with gd := { s.gd with
      pulsesIn := s.gd.pulses.filter (fun p => p.2.2 != s.tickno)
      pulses := s.gd.pulses.filter (fun p => p.2.2 == s.tickno) } }
  | 2 => outerTake s
  | _ => alignStandby 3 s

/-- What a run computes, from the inputs at its start. -/
def taskCompute (code : Nat) (s : State) : State :=
  match code with
  | 1 => { s with cfNew := some (cfRun s) }
  | 2 => { s with olNew := some (outerRun s) }
  | _ => { s with limNew := some (limRun s) }

/-- What a run that has come to its end does before its substitution point: ISUM (03 R108), the staged blocks (06 R219). -/
def taskDone (code : Nat) (s : State) : State :=
  match code with
  | 1 => isumIfDue s
  | 2 => s
  | _ => limStage s

/-- The KIND of LN.LASTERR for an error that aborts a task (02 R90). -/
def faultKind : LaneFault → Nat
  | .registerFile => 0
  | .residue => 1
  | .stateRead | .upstream | .ownBlock _ => 2

/-- The tables that a task reads in a run, but for those that return no last-good value when stale (02 R80; 03 R138). -/
def State.tableReads (s : State) (code : Nat) : List Nat :=
  match code with
  | 1 => [0, if s.con 1 R.LN_CF_MACH_TYPE then 7 else 6]
  | 2 => 0 :: s.outerReads
  | _ => [0]

/-- The reads that a run makes of its tables, and the tables that turn stale in it (02 R80). The whole run reads last-good values of a
table that turns stale in it (DESIGN CHOICE: the order of the reads inside a task is the lane's; assumption log 34). -/
def tableMarks (code : Nat) (tables : List (Fin 10 × Nat × BitVec 32)) (s : State) : State :=
  let s := tables.foldl (fun s x => staleSet x.1.val s) s
  { s with ln.reads := (s.tableReads code).foldl (fun n id => if s.stale id then n else n ||| 2 ^ (16 * code + id)) s.ln.reads }

/-- The parity errors of a run's table reads, each at its cycle (02 R69, R80). -/
def tableErrors (lane code start : Nat) (tables : List (Fin 10 × Nat × BitVec 32)) (s : State) : State :=
  tables.foldl (fun s x => tableParity lane code x.1.val x.2.2.toNat (s.advanceTo (start + min x.2.1 (Config.taskLength code)))) s

/-- The table errors that a run meets before an error aborts it. -/
def runMet (run : TaskRun) : List (Fin 10 × Nat × BitVec 32) :=
  match run.fault with
  | some (_, off) => run.tables.filter (fun x => x.2.1 ≤ off)
  | none => run.tables

/-- The error that aborts a run (02 R69): LANE_ERR; in the own state block SRAM_PARITY goes out as well, with the address (R71; DEDUCED:
the reload reads it for the lane, assumption log 39). -/
def runFault (lane code start : Nat) (k : LaneFault) (off : Nat) (s : State) : State :=
  let s := laneError lane (faultKind k) code (s.advanceTo (start + min off (Config.taskLength code)))
  match k with
  | .ownBlock a => s.event Ev.SRAM_PARITY (lane + 1) (bytesLE 4 a.toNat)
  | _ => s

/-- A run of a task (02 R54, R66, R69, R86, R87): once per tick, from its start; a task on an unusable lane does not run. An error aborts
it and asks for a recomputation, unless the module is degraded, the task is rotated or the error rules it out. -/
def taskRun (code : Nat) (run : TaskRun) (s : State) : State :=
  let slot := s.taskSlot code
  let s := s.advanceTo slot.1
  if (s.task code).started then s
  else
    let s := drainImmediate s
    let lane := s.runLane code
    if testB (s.rd R.LN_STAT_UNUSABLE) lane then
      s.setTask code (fun t => { t with started := true, aborted := true, noRecompute := true })
    else
      let s := taskCompute code (taskTake code (tableMarks code (runMet run) s))
      let s := tableErrors lane code slot.1 (runMet run) s
      match run.fault with
      | none => taskDone code (s.setTask code (fun t => { t with started := true, ready := true }))
      | some (k, off) =>
        let s := runFault lane code slot.1 k off s
        let no := k = .upstream ∨ s.on R.LN_STAT_DEGRADED ∨ s.ln.rotated.isSome ∧ lane = s.rd R.LN_STAT_SIDING
        s.setTask code (fun t => { t with
          started := true
          aborted := true
          noRecompute := decide no
          recompAt := if no then none else some (s.time.tb + 16) })

/-- CURFLD: the current and field task (03 R116). -/
def curfld (run : TaskRun) (s : State) : State := taskRun 1 run s

/-- OUTER: the outer task (04 R142). -/
def outer (run : TaskRun) (s : State) : State := taskRun 2 run s

/-- LIMSHARE: the limit and share task (03 R122, 08 R304). -/
def limshare (run : TaskRun) (s : State) : State := taskRun 3 run s

/-- RECOMPUTATION: 16 cyc after the error the siding lane starts on the unchanged inputs; a slice there is aborted (02 R63, R73). Its own
table reads can fail as those of the run (R67, R80); an error that aborts it leads to Hold-1 (R69). -/
def recomputation (task : Fin 3) (run : TaskRun) (s : State) : State :=
  let code := task.val + 1
  let t := s.task code
  match t.recompAt with
  | none => s
  | some at_ =>
    let s := slicePreempt (at_ - 16) { s with time := { s.time with tb := max s.time.tb at_ } }
    let lane := s.rd R.LN_STAT_SIDING
    let start := at_ - s.time.tbLast
    let s := if runMet run = [] then s else tableErrors lane code start (runMet run) (taskCompute code (tableMarks code (runMet run) s))
    match run.fault with
    | some (k, off) => (runFault lane code start k off s).setTask code (fun t => { t with recompAt := none, noRecompute := true })
    | none => s.setTask code (fun t => { t with recompAt := none, recompEnd := some (at_ + Config.taskLength code) })

/-- RECOMPUTED_OUTPUT_POSTED: 8 cyc after the recomputation ends; it counts where it comes by the substitution point (02 R73). -/
def recomputedPosted (task : Fin 3) (s : State) : State :=
  let code := task.val + 1
  let t := s.task code
  match t.recompEnd with
  | none => s
  | some e =>
    let slot := s.taskSlot code
    let s := { s with time := { s.time with tb := max s.time.tb (e + 8) } }
    if e + 8 ≤ s.time.tbLast + slot.1 + slot.2 ∧ !t.posted then
      taskDone code ((s.inc R.LN_RECOMP).setTask code (fun t => { t with recompEnd := none, ready := true }))
    else s.setTask code (fun t => { t with recompEnd := none })

/-! ### Substitution (02 R74–R79) -/

/-- The lane of the task held first in this tick. -/
def State.heldLane (s : State) : Nat :=
  match [1, 2, 3].find? (fun c => (s.task c).held && (s.task c).posted) with
  | some c => s.runLane c
  | none => s.rd R.LN_LASTERR_LANE

/-- DATAPATH: raised by the lane of the held task and latched where HOLDRUN has reached 3 (02 R78, 05 R203). -/
def datapathRaise (s : State) : State :=
  (s.cause 0 (s.heldLane + 1) 0 (s.word (R.LN_STAT_HOLDRUN).addr).toNat).wrBit R.LN_MD_FLT 0 true

/-- DATAPATH on the state (02 R78). -/
def datapathIfDue (s : State) : State :=
  if 3 ≤ s.rd R.LN_STAT_HOLDRUN ∧ s.ln.holdThisTick ∧ !s.hasCause 0 then datapathRaise s else s

/-- HOLD8 on the state: HOLDRUN has reached 8; every GATE_EN goes low and the brake is set (02 R79). The drive follows at the next
boundary (05 R183). -/
def hold8IfDue (s : State) : State :=
  if 8 ≤ s.rd R.LN_STAT_HOLDRUN ∧ s.ln.holdThisTick ∧ !s.hasCause 1 then
    (s.cause 1 0 0 (s.word (R.LN_STAT_HOLDRUN).addr).toNat).gateRefresh.brakeSet
  else s

/-- A Hold-1 is counted (02 R77): once per tick in HOLDRUN, every time in LN.HOLD1. -/
def holdCount (code : Nat) (s : State) : State :=
  let s := (s.inc R.LN_HOLD1).event Ev.HOLD1 (s.runLane code + 1)
  if s.ln.holdThisTick then s
  else
    let s : State := { s with ln := { s.ln with holdThisTick := true } }
    hold8IfDue (datapathIfDue (s.inc R.LN_STAT_HOLDRUN))

/-- A task's valid output is posted. -/
def taskPost (code : Nat) (s : State) : State :=
  match code with
  | 1 => cfPost s
  | 2 => outerPost s
  | _ => limPost s

/-- A task's output of the previous tick stands once more (02 R74, R75; 08 R317). -/
def taskHold (code : Nat) (s : State) : State :=
  match code with
  | 1 => cfKeep s
  | 2 => outerBack s
  | _ => shareHold (holdCommit false { s with limNew := none })

/-- A task's rest output (02 R76). -/
def taskRest (code : Nat) (s : State) : State :=
  match code with
  | 1 => cfRest s
  | 2 => outerRest s
  | _ => limRest s

/-- SUBSTITUTION_POINT: at its start plus budget a task's output is posted; without a valid one, Hold-1, or the rest output with
DATAPATH where there is nothing to hold (02 R54, R73–R79). -/
def substitutionPoint (task : Fin 3) (s : State) : State :=
  let code := task.val + 1
  let slot := s.taskSlot code
  let s := s.advanceTo (slot.1 + slot.2)
  let t := s.task code
  if t.posted then s
  else
    let s := if code = 3 then vdcTake s else s
    let s :=
      if t.ready then
        taskPost code (s.setTask code (fun t => { t with posted := true, everValid := true, held := false, rest := false }))
      else if t.everValid then
        holdCount code (taskHold code (s.setTask code (fun t => { t with posted := true, held := true, rest := false })))
      else
        let s := taskRest code (s.setTask code (fun t => { t with posted := true, held := true, rest := true }))
        holdCount code (if s.hasCause 0 then s else datapathRaise s)
    if code = 3 then limAlways s else s

end Sys2Proof.Machine
end

