-- ==== Sys2Proof/Machine/Sequencer.lean ====
section
/-! DEFINITION. The drive sequencer (05 R182–R211): states, requests, emergency sub-modes, brake sequence, causes and reactions. -/

namespace Sys2Proof.Machine

/-! ### Changes of state, mode and sub-mode (05 R183, R185, R191) -/

/-- The profile in force (05 R202): 3 acts as 2, WINCH without a brake as GENERAL. -/
def State.profile (s : State) : Nat :=
  let p := s.rd R.LN_MD_CFG_PROF
  if p = 0 then 0 else if p = 1 ∧ s.on R.LN_MD_CFG_BRAKE then 1 else 2

/-- TENSION and PAYOUT are refused (05 R190): THRUSTER, or KFT = 0. -/
def State.profileRefuses (s : State) : Bool := s.rd R.LN_MD_CFG_PROF == 0 || s.coef 2 R.LN_OL_KFT == 0

/-- A request that waits for its completion ends with a result. -/
def abandon (result : Nat) (s : State) : State :=
  let s := if s.seq.enabling then { s with seq := { s.seq with enabling := false } }.reqDone 1 result else s
  if s.seq.starting then { s with seq := { s.seq with starting := false } }.reqDone 3 result else s

/-- The drive enters an emergency sub-mode (05 R191, R192, R198): E-RAMP and E-HOLD start their time limit and, where the stage is
modulated, the brake sequence in hold; E-HOLD sets the brake; with the stage lost slip is watched for events. -/
def enterSub (state sub cause : Nat) (demand : Bool) (s : State) : State :=
  let s := enter state sub cause demand s
  let s := if sub = 2 then s.brakeSet else s
  if sub = 1 ∨ sub = 2 then
    if state = 4 then
      let s := s.brakePhase 2
      { s with seq := { s.seq with entryAt := some s.time.tb, taperAt := none, slipWatch := false } }
    else if sub = 2 then
      { s with seq := { s.seq with slipWatch := true, slipOnly := true, slipRef := if s.seq.slipWatch then s.seq.slipRef else s.pfb } }
    else s
  else s

/-! ### Brake sequence (05 R196–R200) -/

/-- BRAKE_SET_CONFIRMED: the set is confirmed (05 R196). -/
def State.setConfirmed (s : State) : Bool :=
  s.on R.LN_MD_BRK_SETCMD && (if s.on R.LN_MD_CFG_BRKFB then decide (8 ≤ s.seq.brkHigh)
    else decide (s.seq.setAt + msCyc s.brkSetMs ≤ s.time.tb))

/-- Phase 5: the drive leaves STOPPING, to READY at the end of a normal stop or a demanded sub-mode, to FAULT at the end of one entered
on a cause (05 R186, R191, R197). -/
def stopEnd (s : State) : State :=
  if s.sub = 0 ∨ s.on R.LN_MD_STAT_DEMAND then enter 2 0 0 false s
  else enter 5 s.sub (s.rd R.LN_MD_STAT_CAUSE) false s

/-- The phases of a stop that modulates run in STOPPING (05 R197, R198). -/
def State.stopRuns (s : State) : Bool := s.drive == 4 && s.sub ≤ 2

/-- STANDSTILL_REACHED: 8 ticks at or below WSTOP end hold, or a demanded E-COAST (05 R191, R197). -/
def standstillIfDue (s : State) : State :=
  if s.seq.stillRun < 8 then s
  else if s.stopRuns ∧ s.rd R.LN_MD_BRK_PH = 2 then
    let s : State := { s with seq := { s.seq with entryAt := none } }
    if s.on R.LN_MD_CFG_BRAKE then (s.brakePhase 3).brakeSet else stopEnd s
  else if s.drive = 4 ∧ s.sub = 4 ∧ s.on R.LN_MD_STAT_DEMAND then stopEnd s
  else s

/-- BRAKE_SET_CONFIRMED on the state: the taper starts, with T* and the position recorded (05 R197). -/
def brakeSetConfirmedIfDue (s : State) : State :=
  if s.stopRuns ∧ s.rd R.LN_MD_BRK_PH = 3 ∧ s.setConfirmed then
    let s := (s.brakePhase 4).postQ R.LN_MD_HOLDT 8 s.olp.tdem
    { s with seq := { s.seq with taperAt := some s.time.tb, slipRef := s.pfb, slipWatch := true, slipOnly := false } }
  else s

/-- TAPER_COMPLETE: the taper and BRKTAPER ms without slip have passed (05 R197). -/
def taperCompleteIfDue (s : State) : State :=
  match s.seq.taperAt with
  | some t =>
    if s.stopRuns ∧ s.rd R.LN_MD_BRK_PH = 4 ∧ t + 2 * msCyc s.brkTaperMs ≤ s.time.tb then stopEnd s else s
  | none => s

/-- How far the feedback position has moved from the recorded value. -/
def State.slipMove (s : State) : Int := signedOf 48 (wrapTo 48 (s.pfb - s.seq.slipRef))

/-- BRAKE_SLIP in phases 4 and 5 (05 R197): latched, the ceilings restored and hold taken up again with PH = 6; with the stage lost an
event only (R198). -/
def brakeSlipIfDue (s : State) : State :=
  let ph := s.rd R.LN_MD_BRK_PH
  if s.seq.slipWatch ∧ (ph = 4 ∨ ph = 5) ∧ ((s.rd R.LN_MD_BRKSLIP : Int) < s.slipMove ∨ s.slipMove < -(s.rd R.LN_MD_BRKSLIP : Int)) then
    let v := wrapTo 32 s.slipMove
    if s.seq.slipOnly then
      { s.event Ev.BRAKE_SLIP 15 (bytesLE 1 16 ++ bytesLE 1 s.drive ++ bytesLE 1 s.sub ++ bytesLE 1 0 ++ bytesLE 4 v) with
        seq := { s.seq with slipWatch := false } }
    else
      let s := s.cause 16 15 0 v
      let s := s.brakePhase 6
      { s with seq := { s.seq with slipWatch := false, taperAt := none } }
  else s

/-- BRAKE_RELEASED: the release is confirmed and the ramp target becomes the command (05 R200). -/
def brakeReleasedIfDue (s : State) : State :=
  let ok := if s.on R.LN_MD_CFG_BRKFB then decide (8 ≤ s.seq.brkLow)
    else decide (s.seq.releaseAt + msCyc (s.rd R.LN_MD_BRKT_BRKREL) ≤ s.time.tb)
  if s.drive = 3 ∧ s.rd R.LN_MD_BRK_PH = 1 ∧ s.seq.release ∧ ok then s.brakePhase 0 else s

/-- BRAKE_FAIL: the feedback does not follow a set or a release within its time plus 500 ms (05 R197, R200); a start completes with
BRAKE_FAIL and the drive returns to READY. -/
def brakeFailIfDue (s : State) : State :=
  if !s.on R.LN_MD_CFG_BRAKE ∨ !s.on R.LN_MD_CFG_BRKFB then s
  else if s.seq.setWatch ∧ s.seq.setAt + msCyc (s.brkSetMs + 500) ≤ s.time.tb then
    let s : State := { s with seq := { s.seq with setWatch := false } }
    if s.on R.LN_MD_BRK_FB ∨ s.hasCause 15 then s else s.cause 15 15 0 0
  else if s.drive = 3 ∧ s.rd R.LN_MD_BRK_PH = 1 ∧ s.seq.release ∧ s.on R.LN_MD_BRK_FB
      ∧ s.seq.releaseAt + msCyc (s.rd R.LN_MD_BRKT_BRKREL + 500) ≤ s.time.tb then
    let s := if s.hasCause 15 then s else s.cause 15 15 0 0
    let s := abandon 11 s
    enter 2 0 0 false s
  else s

/-- ERTMO: standstill is not reached within ERTMO ms of the entry into E-RAMP or E-HOLD (05 R192). -/
def ertmoIfDue (s : State) : State :=
  match s.seq.entryAt with
  | none => s
  | some t =>
    if 8 ≤ s.seq.stillRun then { s with seq := { s.seq with entryAt := none } }
    else if t + msCyc (s.rd R.LN_MD_ERTMO) ≤ s.time.tb then
      let s : State := { s with seq := { s.seq with entryAt := none } }
      if s.hasCause 14 then s else s.cause 14 15 0 0
    else s

/-- ASC_EXIT: E-ASC ends and the drive enters E-COAST; the low sides go off (05 R199). -/
def ascExitIfDue (s : State) : State :=
  if s.sub = 3 ∧ (s.drive = 4 ∨ s.drive = 5) ∧ 8 ≤ s.seq.ascRun then
    let s := [1, 3, 5].foldl (fun s c => s.setGch c (fun g => { g with on := false, armed := [], staged := none, acted := 0, waitOn := none, ascWait := false })) s
    enter s.drive 4 (s.rd R.LN_MD_STAT_CAUSE) (s.on R.LN_MD_STAT_DEMAND) s
  else s

/-- READY gives way to STANDBY once vdc has been below Vuv for 8 ticks in READY (05 R186, R205). -/
def readyUvIfDue (s : State) : State :=
  if s.drive = 2 ∧ s.undervoltage [2] then enter 1 s.sub (s.rd R.LN_MD_STAT_CAUSE) false (abandon 3 s) else s

/-- DC_UV (05 R205): the cause in RUN or STOPPING, STANDBY from READY. -/
def dcUvIfDue (s : State) : State := readyUvIfDue (dcUvRaiseIfDue s)

/-! ### Causes and reactions (05 R201–R204, R209, R210) -/

/-- The partner is in service (02 R78). -/
def State.partnerInService (s : State) : Bool :=
  match s.pm.block with
  | some b =>
    (s.rd R.PM_STAT_PSTATE == 2 || s.rd R.PM_STAT_PSTATE == 3) && !b.release
      && (b.carry || (s.rd R.PM_CFG_CONF == 2 && s.rd R.PM_STAT_PSTATE == 3 && b.takeok))
  | none => false

/-- The rank of a sub-mode as a reaction (05 R201); none ranks last. -/
def subRank : Nat → Nat
  | 3 => 4
  | 4 => 5
  | 2 => 6
  | 1 => 7
  | 5 => 8
  | _ => 9

/-- The reaction of a stage-loss cause (05 R202). -/
def State.stageLoss (s : State) : Nat := if s.profile = 1 then 2 else 4

/-- The sub-mode that a cause asks for, 0 none (05 R202, R203, R209). -/
def State.reaction (s : State) (bit : Nat) : Nat :=
  match bit with
  | 0 => if s.partnerInService then 4 else 1
  | 1 => 4
  | 2 | 3 | 5 | 8 => 1
  | 7 => if s.seq.dcovAct == some true && !s.ascBlock && s.drive != 2 then 3 else 4
  | 9 => if s.profile = 1 then 2 else 0
  | 13 => if (s.degradedPath || (s.rd R.FB_STAT_WHY == 2 && !s.fb.lost)) && s.sub != 5 then 5 else s.stageLoss
  | 15 | 16 => 0
  | _ => s.stageLoss

/-- Whether a cause, with its detail code, is an ASC block (05 R194). -/
def ascBlocks (c : Nat × Nat) : Bool :=
  c.1 == 11 || c.1 == 1 || c.1 == 6 || (c.1 == 10 && (c.2 == 1 || c.2 == 3 || c.2 == 5))

/-- Whether a cause is latched: an alarm is not (05 R203). -/
def causeLatches (c : Nat × Nat) : Bool := !(c.1 == 3) || c.2 == 0 || c.2 == 6 || c.2 == 7

/-- DC_OV in hardware (05 R209): by the ASCARM latched, E-ASC or the phase channels off; in READY the phase channels go off (R210). The
brake is commanded set where there is one. -/
def dcovHardware (s : State) : State :=
  let asc := s.lim.ascarm && !s.ascBlock && s.drive != 2
  let s : State := { s with seq := { s.seq with dcovAct := some asc } }
  let s := if asc then ascAct s else State.gateRefresh { s with seq := { s.seq with phaseOff := true } }
  if s.on R.LN_MD_CFG_BRAKE then s.brakeSet else s

/-- The MEAN detection of DC_OV has the same reaction at its boundary, where the fast path has not acted (05 R209). -/
def dcovMeanAct (cs : List (Nat × Nat)) (s : State) : State :=
  if cs.any (fun c => c.1 == 7) ∧ s.seq.dcovAct = none then dcovHardware s else s

/-- Step 2 of R183: a cause is latched in LN.MD_FLT; ISUM brings the phase-off request (R203, 10 R345). -/
def latchCause (c : Nat × Nat) (s : State) : State :=
  if !causeLatches c then s
  else
    let s := s.wrBit R.LN_MD_FLT c.1 true
    { s with seq := { s.seq with
      phaseOff := s.seq.phaseOff || c.1 == 4
      chopOv := s.seq.chopOv || (c.1 == 9 && c.2 == 3)
      lostTables := if c.1 = 3 then s.seq.lostTables ||| 2 ^ c.2 else s.seq.lostTables } }

/-- A reaction is applied from the state in force (05 R186, R191, R198, R201): nothing in OFF, STANDBY and LOCKOUT; in READY a stop ends
at once, in FAULT. -/
def applyReaction (sub cause : Nat) (s : State) : State :=
  let st := s.drive
  if st ≤ 1 ∨ st = 6 then s
  else
    let s := if st = 2 then abandon 2 s else if sub = 5 then s else abandon 2 s
    if sub = 5 then (if st = 3 then enter 3 5 cause false s else s)
    else if sub = 3 ∨ sub = 4 then enterSub 5 sub cause false s
    else if st = 5 ∨ st = 2 then enterSub 5 sub cause false s
    else if sub = 2 ∧ s.stageLost then enterSub 5 2 cause false s
    else enterSub 4 sub cause false s

/-- Step 3 of R183 over the causes just latched: the reaction of highest rank replaces the one in force where it ranks higher; an ASC
block in E-ASC gives E-COAST (05 R201). -/
def react (cs : List (Nat × Nat)) (s : State) : State :=
  let cs := cs.filter causeLatches
  match (if s.sub = 3 then cs.find? ascBlocks else none) with
  | some c => applyReaction 4 (c.1 + 1) s
  | none =>
    let best := cs.foldl (fun (b : Option (Nat × Nat)) c =>
      let r := s.reaction c.1
      if r = 0 then b
      else match b with
        | none => some (r, c.1 + 1)
        | some x => if subRank r < subRank x.1 then some (r, c.1 + 1) else b) none
    match best with
    | none => s
    | some x =>
      if subRank x.1 < (if s.drive = 3 ∨ s.drive = 4 ∨ s.drive = 5 then subRank s.sub else 9) then applyReaction x.1 x.2 s else s

/-- The sub-mode that a change to LOCKOUT, STANDBY or READY leaves in SUB: one entered on a cause stays until RESET or START (05 R191;
DEDUCED, assumption log 48). -/
def State.heldSub (s : State) : Nat := if s.on R.LN_MD_STAT_DEMAND then 0 else s.sub

/-- Step 1 of R183: what the Signal Box has done in hardware (05 R186, R201; 10 R358; 17 R528, R529): LOCKOUT on a safety fault, STANDBY
at the end of a boot, after a reset sequence and on STO, the stage lost in E-HOLD. -/
def takeGateActions (s : State) : State :=
  if s.drive = 0 then
    if s.sys.latchedOff then s
    else if s.sys.lockNext then enter 6 0 0x42 false { s with sys := { s.sys with lockNext := false, standbyNext := false } }
    else if s.sys.standbyNext then enter 1 0 0 false { s with sys := { s.sys with standbyNext := false } }
    else s
  else if s.rd R.SB_SFLT ≠ 0 then (if s.drive = 6 then s else enter 6 (if s.sub = 3 then 4 else s.heldSub) 0x42 false (abandon 2 s))
  else if s.drive = 6 then enter 1 s.heldSub (s.rd R.LN_MD_STAT_CAUSE) false s
  else if s.on R.SB_STAT_STO ∧ 2 ≤ s.drive then enterSub 1 4 0x41 false (abandon 7 s)
  else if s.drive = 4 ∧ s.sub = 2 ∧ s.stageLost then enterSub 5 2 (s.rd R.LN_MD_STAT_CAUSE) false s
  else s

/-! ### Requests (05 R184–R190) -/

/-- A write of LN.MD_REQ with GO = 1 (05 R184). -/
def mdReqWrite (v : Word) (s : State) : State :=
  if R.LN_MD_REQ_GO.get v = 0 then s
  else if s.on R.LN_MD_RES_PEND then s.wr R.LN_MD_RES_RESULT 6
  else
    let abs := R.LN_MD_REQ_ABS.get v = 1
    let ahead := modDiff 32 (s.rd R.LN_MD_REQTICK) s.tickno
    if abs ∧ 65536 < ahead then s.wr R.LN_MD_RES_RESULT 1
    else
      { s.wr R.LN_MD_RES_PEND 1 with seq := { s.seq with req := some {
        code := R.LN_MD_REQ_CODE.get v
        mode := R.LN_MD_REQ_MODE.get v
        sub := R.LN_MD_REQ_SUB.get v
        tick := if abs ∧ 0 < ahead then some (s.rd R.LN_MD_REQTICK) else none
        due := if abs then s.time.tb else s.time.tb + 64 } } }

/-- vdc has been at or above Vrdy in each of the last eight ticks (05 R187). -/
def State.dcReady (s : State) : Bool :=
  decide (8 ≤ s.seq.vdcHist.length) && (s.seq.vdcHist.take 8).all (fun x => decide (85 / 100 ≤ x.1))

/-- The first reason for which ENABLE is refused, in the order of R187. -/
def State.enableRefusal (s : State) : Option Nat :=
  if s.rd R.LN_MD_FLT ≠ 0 then some 2
  else if s.on R.SB_STAT_STO ∨ s.on R.SB_STAT_CRCERR ∨ !s.on R.SB_STAT_GUARDDONE then some 7
  else if !s.on R.SD_STAT_ALLVALID ∨ !s.rolesForGates then some 4
  else if !s.dcReady then some 3
  else if !(s.gd.ch.toList.all (·.link)) then some 4
  else if s.runRefused then some 4
  else none

/-- ENABLE (05 R186, R187): READY and the bootstrap precharge, or the refusal; the request completes with the precharge. A sub-mode that
STO or a cause has left in SUB stays (R191). -/
def enableReq (s : State) : State :=
  if s.drive ≠ 1 ∨ s.isStandby then s.reqDone 1 1
  else match s.enableRefusal with
    | some r => s.reqDone 1 r
    | none =>
      let s := enter 2 s.sub (if s.sub = 0 then 0 else s.rd R.LN_MD_STAT_CAUSE) false s
      { s.wr R.GD_STAT_PREDONE 0 with
        seq := { s.seq with enabling := true }
        sb := { s.sb with testAt := s.time.tb, testDue := false }
        gd := { s.gd with preStart := some s.time.tb, preLeg := 0 } }

/-- DISABLE (05 R186). -/
def disableReq (s : State) : State :=
  if s.drive ≠ 2 ∨ s.isStandby then s.reqDone 2 1
  else (enter 1 s.sub (s.rd R.LN_MD_STAT_CAUSE) false (abandon 1 s)).reqDone 2 0

/-- The mode of the next start: it reads in MODE once SUB is 0 (05 R189, R191). -/
def State.modeChoose (s : State) (mode : Nat) : State :=
  if s.sub = 0 then s.wr R.LN_MD_STAT_MODE mode else s.wr R.LN_MD_STAT_PREV mode

/-- START (04 R174, 05 R186, R187, R190, R200): a flying start from READY, or a normal stop resumed; it completes with START = 4. -/
def startReq (mode : Nat) (s : State) : State :=
  if !(1 ≤ mode ∧ mode ≤ 4) ∨ s.isStandby ∨ !(s.drive = 2 ∨ (s.drive = 4 ∧ s.sub = 0)) then s.reqDone 3 1
  else if (mode = 3 ∨ mode = 4) ∧ s.profileRefuses then s.reqDone 3 5
  else if s.drive = 2 ∧ !s.on R.GD_STAT_PREDONE then s.reqDone 3 6
  else
    let fresh := s.drive = 2
    let s := s.modeChoose mode
    let held := s.on R.LN_MD_CFG_BRAKE ∧ s.on R.LN_MD_BRK_SETCMD
    let a := s
    let s := enter 3 0 0 false s
    let s := if fresh ∨ !held then s else (s.brakePhase 1).wr R.LN_MD_BRK_SETCMD 0
    let s := if s.on R.LN_MD_CFG_BRAKE ∧ held then s else s.brakePhase 0
    { s with seq := { s.seq with
      starting := true
      flyStart := decide fresh
      resume := !decide fresh
      release := if !fresh ∧ held then true else a.seq.release
      releaseAt := if !fresh ∧ held then s.time.tb else a.seq.releaseAt
      brkLow := 0
      setWatch := false
      taperAt := none
      entryAt := none
      slipWatch := false } }

/-- STOP (05 R186, R197): the brake sequence starts in phase 2; after a slip the taper is tried again. -/
def stopReq (s : State) : State :=
  if s.drive = 3 ∧ !s.isStandby then
    let s := enter 4 0 0 false (abandon 1 s)
    (s.brakePhase 2).reqDone 4 0
  else if s.drive = 4 ∧ s.rd R.LN_MD_BRK_PH = 6 ∧ !s.isStandby then (s.brakePhase 2).reqDone 4 0
  else s.reqDone 4 1

/-- EMERGENCY (05 R186, R191, R194). -/
def emergencyReq (sub : Nat) (s : State) : State :=
  if s.isStandby then s.reqDone 5 1
  else if sub = 5 then
    if s.drive ≠ 3 then s.reqDone 5 1
    else if !s.degradedPath then s.reqDone 5 4
    else (fbSwitchNow s.fbSec 2 (enter 3 5 0x40 true s)).reqDone 5 0
  else
    let ok := s.drive = 3 ∨ (s.drive = 4 ∧ (s.sub = 0 ∨ (s.on R.LN_MD_STAT_DEMAND ∧ subRank sub < subRank s.sub)))
    if !(1 ≤ sub ∧ sub ≤ 4) ∨ !ok ∨ (sub = 3 ∧ (!s.lim.ascarm ∨ s.ascBlock)) then s.reqDone 5 1
    else (enterSub (if sub = 2 ∧ s.stageLost then 5 else 4) sub 0x40 true (abandon 1 s)).reqDone 5 0

/-- MODE (05 R189, R190, R195): a mode change in RUN, the mode of the next START in READY, the way out of E-LIMP. -/
def modeReq (mode : Nat) (s : State) : State :=
  if s.isStandby ∨ !(1 ≤ mode ∧ mode ≤ 4) then s.reqDone 6 1
  else if s.drive = 2 then
    let a := s
    ((s.modeChoose mode).driveEvent a).reqDone 6 0
  else if s.drive ≠ 3 then s.reqDone 6 1
  else if s.sub = 5 ∧ !s.fbReturnOk then s.reqDone 6 4
  else if 1 ≤ s.olp.start ∧ s.olp.start ≤ 3 then s.reqDone 6 6
  else
    let limp := s.sub = 5
    let cur := if limp then s.rd R.LN_MD_STAT_PREV else s.rd R.LN_MD_STAT_MODE
    if cur = 5 then s.reqDone 6 1
    else if mode ≠ cur ∧ (mode = 3 ∨ mode = 4) ∧ s.profileRefuses then s.reqDone 6 5
    else if mode ≠ cur ∧ (mode = 3 ∨ mode = 4) ∧ (cur = 3 ∨ cur = 4) ∧ s.olp.compl then s.reqDone 6 6
    else
      let a := s
      let s := if limp then
          let s := ((s.wr R.LN_MD_STAT_SUB 0).wr R.LN_MD_STAT_CAUSE 0).wr R.LN_MD_STAT_DEMAND 0
          fbSwitchNow s.fbPri 0 s
        else s
      ((s.wr R.LN_MD_STAT_MODE mode).driveEvent a).reqDone 6 0

/-- A latched cause is still present (05 R188). -/
def State.causePresent (s : State) : Bool :=
  let high := decide (120 / 100 ≤ s.vdc)
  (s.bit R.LN_MD_FLT 7 && high) || (s.bit R.LN_MD_FLT 9 && s.seq.chopOv && high)
    || (s.bit R.LN_MD_FLT 9 && s.seq.chopDiag && !s.gd.diagPass)
    || (s.bit R.LN_MD_FLT 0 && 2 ≤ ((List.range 4).filter (fun l => testB (s.rd R.LN_STAT_UNUSABLE) l)).length)
    || (s.bit R.LN_MD_FLT 3 && (s.rd R.LN_TBLSTALE &&& s.seq.lostTables) != 0)

/-- RESET (05 R186, R188): the causes clear and the drive stands in STANDBY. -/
def resetReq (s : State) : State :=
  if s.isStandby ∨ !(s.drive = 1 ∨ s.drive = 5) ∨ s.sub = 3 then s.reqDone 7 1
  else if s.causePresent then s.reqDone 7 2
  else
    let s := s.wr R.LN_MD_FLT 0
    let s := { s with
      seq := { s.seq with phaseOff := false, chopOv := false, chopDiag := false, lostTables := 0, dcovAct := none }
      bl := if s.isMember then { s.bl with f := 0, fadeDir := 1 } else s.bl }
    (enter 1 0 0 false s).reqDone 7 0

/-- A request evaluated at its boundary (05 R183 step 4, R211): PEND reads 0 from then on and RESULT 0 unless the request comes to
another result (DEDUCED from R184, R211, assumption log 29). -/
def evalRequest (r : SeqReq) (s : State) : State :=
  let s : State := { (s.wr R.LN_MD_RES_PEND 0).wr R.LN_MD_RES_RESULT 0 with seq := { s.seq with req := none } }
  match r.code with
  | 1 => enableReq s
  | 2 => disableReq s
  | 3 => startReq r.mode s
  | 4 => stopReq s
  | 5 => emergencyReq r.sub s
  | 6 => modeReq r.mode s
  | 7 => resetReq s
  | c => s.reqDone c 1

/-- Step 4 of R183: a Token SBC demand, then SS1, then the pending request, at most one of them (10 R352, R353). -/
def requestStep (s : State) : State :=
  let hold := s.seq.sbcAsk
  let ramp := s.seq.ss1Ask
  let moving := s.drive = 3 ∨ s.drive = 4
  let s : State := { s with seq := { s.seq with sbcAsk := false, ss1Ask := false } }
  if hold ∧ moving ∧ subRank 2 < subRank s.sub then enterSub (if s.stageLost then 5 else 4) 2 0x40 true (abandon 1 s)
  else if ramp ∧ moving ∧ subRank 1 < subRank s.sub then enterSub 4 1 0x40 true (abandon 1 s)
  else match s.seq.req with
    | none => s
    | some r =>
      let due := match r.tick with
        | some t => decide (0 ≤ modDiff 32 s.tickno t)
        | none => decide (r.due ≤ s.time.tb)
      if due then evalRequest r s else s

/-! ### The boundary (05 R183) -/

/-- The tick counts of the sequencer, on the quantities latched at the boundary. -/
def seqCounts (s : State) : State :=
  let still := decide (absR s.omegaM ≤ s.rdU R.LN_MD_WSTOP 16)
  let asc := decide (absR s.omegaM < minR (s.rdU R.LN_MD_ASCXW 16) (s.rdU R.LN_MD_ASCW 16) ∧ s.vdc < 120 / 100)
  let fb := s.on R.LN_MD_BRK_FB
  { s with seq := { s.seq with
    stillRun := if still then s.seq.stillRun + 1 else 0
    ascRun := if asc then s.seq.ascRun + 1 else 0
    brkHigh := if fb then s.seq.brkHigh + 1 else 0
    brkLow := if fb then 0 else s.seq.brkLow + 1
    setWatch := s.seq.setWatch && !fb
    zeroRun := if s.olPath = 7 then s.seq.zeroRun + 1 else 0 } }

/-- What the sequencer watches at a boundary: the phases of the brake sequence, E-ASC, the time limits. -/
def seqWatch (s : State) : State :=
  ertmoIfDue (brakeFailIfDue (brakeReleasedIfDue (brakeSlipIfDue (ascExitIfDue (readyUvIfDue
    (taperCompleteIfDue (brakeSetConfirmedIfDue (standstillIfDue s))))))))

/-- SEQUENCER_BOUNDARY (05 R183): gate actions taken over, causes of the tick before latched, what the state and sub-mode in force come to
an end of (R186, R191–R200; DEDUCED, assumption log 27), the reaction, one request. `new` are the causes raised before this boundary. -/
def sequencerBoundary (new : List (Nat × Nat)) (s : State) : State :=
  let s := takeGateActions (seqCounts s)
  let s := dcovMeanAct new (new.foldl (fun s c => latchCause c s) s)
  let s := react new (seqWatch s.gateRefresh)
  let s : State := { s with seq := { s.seq with dcovAct := none } }
  requestStep s.gateRefresh

end Sys2Proof.Machine
end

