-- ==== Sys2Proof/Machine/Pair.lean ====
section
/-! DEFINITION. The redundant pair (09): pairing, time, the state block, heartbeat and loss, shares, standby and takeover, release
and engage. -/

namespace Sys2Proof.Machine

/-! ### Pairing and the block (R321–R326) -/

/-- The partner's serial (R323, R343). -/
def State.pser (s : State) : Nat := s.rd R.PM_PSER_LO + 2 ^ 32 * s.rd R.PM_PSER_HI

/-- PSTATE. -/
def State.pstate (s : State) : Nat := s.rd R.PM_STAT_PSTATE

/-- The module modulates its phase channels in RUN or STOPPING and RELEASE is 0: CARRY (R325). -/
def State.carries (s : State) : Bool := s.modulating && !s.pm.release

/-- A partner block is valid for a tick (R326). -/
def State.blockValid (s : State) (b : PairBlock) (sn : Nat) : Bool :=
  b.crcOk && b.complete && b.parity.isNone && b.serial == s.pser && b.sn == sn && b.period == s.period

/-- The partner's block shows what pairing needs (R323, R331). -/
def State.pairingOk (s : State) (b : PairBlock) : Bool :=
  b.conf == s.rd R.PM_CFG_CONF && b.side == !s.on R.PM_CFG_SIDE && b.step == Config.dieStep.toNat
    && (s.rd R.PM_CFG_CONF != 1 || s.rd R.PM_SHARE + b.nomShare == 0x8000)

/-- PM_CFG_EN: a write of PM.CFG.EN starts pairing, or is refused (R323); 0 unpairs, and Q20 and Q21 give no credit (01 R39). -/
def pmCfgEn (on : Bool) (s : State) : State :=
  let s := ((s.wr R.PM_CFG_EN (b2n on)).qConsumer 20 on).qConsumer 21 on
  let conf := s.rd R.PM_CFG_CONF
  let slot := s.taskSlot 3
  if !on then
    { (s.wr R.PM_STAT_PSTATE 0).wr R.PM_STAT_TAKEOK 0 with pm := { s.pm with waitOwn := false, relStep := 0, released := false } }.gateRefresh
  else if s.pstate ≠ 0 then s
  else if conf = 0 ∨ conf = 3 ∨ s.period < slot.1 + slot.2 + 4392 then s.wr R.PM_STAT_CFGERR 1
  else s.wr R.PM_STAT_PSTATE 1

/-- MIRROR_BLOCK: a partner block arrives on X7, `frac` eighths of a cyc into its cycle (R321, R324, R326). Its TBL against the own TB, less
the time from its launch to here that the loopback measured, gives the error, by which side B corrects its TB unless the link timebase
governs. -/
def mirrorBlock (b : PairBlock) (frac flight : Nat) (s : State) : State :=
  let room := decide (0 < s.qCredit 21)
  let s := s.qPush 21 (blockBytes b)
  let s := match b.parity with | some a => s.event Ev.SRAM_PARITY 13 (bytesLE 4 a) | none => s
  if !room ∨ s.pstate = 0 then s
  else
    let s : State := { s with pm := { s.pm with arrived := some b, shadow := some b } }
    if !b.crcOk ∨ b.serial ≠ s.pser then s
    else
      let err : Int := (8 * s.time.tb + frac : Nat) - (8 * b.tbl + flight : Nat)
      let s := (s.satQ R.PM_SYNCERR 0 ((err : Rat) * 625 / 2)).wr R.PM_STAT_PERIOD (b2n (b.period != s.period))
      if s.on R.PM_CFG_SIDE ∧ !s.linkLocked ∧ b.period = s.period then correctTime err s else s

/-- The causes whose reaction takes the phase channels off, raised or latched, and the other grounds of R328. -/
def State.releaseCond (s : State) : Bool :=
  let off (bit : Nat) : Bool := bit == 0 || s.reaction bit == 3 || s.reaction bit == 4
  (List.range 17).any (fun bit => s.hasCause bit && off bit) || s.drive == 5 || s.drive == 6 || s.on R.SB_STAT_STO
    || s.rd R.SB_SFLT != 0
    || (s.rd R.PM_CFG_CONF == 2 && s.drive == 4 && (s.sub == 1 || s.sub == 2) && !s.on R.LN_MD_STAT_DEMAND)
    || (s.rd R.PM_CFG_CONF == 2 && s.pstate == 3 && s.on R.LN_STAT_DEGRADED
        && (match s.pm.block with | some b => !b.degraded | none => false))

/-- The own state block at the end of a tick's lane work (02 R70, R325). -/
def State.ownBlock (s : State) : PairBlock :=
  let release := s.pm.release || s.releaseCond
  { sn := s.rd R.BL_SN
    tbl := s.time.tb
    hbseq := s.pm.hbseq
    serial := Config.serial.toNat
    side := s.on R.PM_CFG_SIDE
    conf := s.rd R.PM_CFG_CONF
    state := s.drive
    mode := s.rd R.LN_MD_STAT_MODE
    sub := s.sub
    degraded := s.on R.LN_STAT_DEGRADED
    release := release
    own := s.on R.PM_STAT_OWN
    fwpend := s.pm.fwPend
    bankB := s.ln.bankB
    carry := s.carries && !release
    takeok := s.on R.PM_STAT_TAKEOK
    held := (List.range 3).foldl (fun n i => n + (if (s.task (i + 1)).held then 2 ^ i else 0)) 0
    rest := (List.range 3).any (fun i => (s.task (i + 1)).rest)
    period := s.period
    share := s.rd R.PM_SHAREEFF
    d := s.olp.d
    tstar := s.olp.tdem
    te := s.cf.torque
    cpos := s.olp.cpos
    cneg := s.olp.cneg
    joinsn := s.rd R.PM_JOINSN
    pfb := s.fb.pos
    step := Config.dieStep.toNat
    nomShare := s.rd R.PM_SHARE
    cf := s.cf
    ol := s.ol
    olp := s.olp
    lim := s.lim
    pw := s.pw }

/-- The mirror engine assembles the own block and pushes it to Q20; the block before it has left on X7 (02 R70, R321). A byte whose parity
bit is wrong, at the address given, keeps the block of the tick off Q20 (02 R71). -/
def blockPush (bad : Option Nat) (s : State) : State :=
  let b := s.ownBlock
  let s := { s.qDrain 20 with pm := { s.pm with own := some b, hbseq := (s.pm.hbseq + 1) % 2 ^ 32 } }
  match bad with
  | some a => s.event Ev.SRAM_PARITY 13 (bytesLE 4 a)
  | none =>
    { s.qPush 20 (blockBytes b) with out.block := if 0 < s.qCredit 20 then some b else s.out.block }

/-! ### Sideband (R322, R327, R335) -/

/-- ALIVE_IN: a level at the pin; a change is a toggle (R322, R327). -/
def aliveInput (level : Bool) (s : State) : State :=
  if level = s.pm.aliveIn then s
  else { s with pm := { s.pm with aliveIn := level, aliveToggled := true } }

/-- CHG_IN: a level at the pin (R322, R335). -/
def chgInput (level : Bool) (s : State) : State :=
  let s := s.wr R.PM_STAT_CHGIN (b2n level)
  if level then { s with pm := { s.pm with chgLow := 0 } } else s

/-! ### Takeover (R335) -/

/-- The module takes the stage of an ACTIVE-STANDBY pair: CHG_OWN, its own state in force, PW.CTL.RUN (R335). -/
def takeStage (s : State) : State :=
  let s := (s.wr R.PM_STAT_OWN 1).wr R.PM_STAT_LEAD 1
  stateEffects s.drive { s with pm := { s.pm with waitOwn := false, share := 1 } }

/-- The survivor goes on alone (R335, R342): a standby only with TAKEOK, once CHG_IN is low; none takes over with an own cause at the
same boundary, or from a partner of another period (R323). -/
def survive (ownCause : Bool) (s : State) : State :=
  let s : State := { s with pm := { s.pm with lossSeen := true } }
  if ownCause ∨ s.on R.PM_STAT_PERIOD then s
  else
    let alone (s : State) : State :=
      let s := (s.wr R.PM_STAT_PSTATE 4).wr R.PM_STAT_TAKEOK 0
      { s with pm := { s.pm with share := 1, fadeDir := 0, fading := false, pShare := 0, pFade := 0, aligned := false } }
    if s.rd R.PM_CFG_CONF = 1 ∨ s.pstate = 3 then (alone s).wr R.PM_STAT_LEAD 1
    else if !s.on R.PM_STAT_TAKEOK then s
    else if s.on R.PM_STAT_CHGIN then
      let s := alone s
      { s with pm := { s.pm with waitOwn := true, chgLow := 0 } }
    else takeStage (alone s)

/-- The module is in service with a partner. -/
def State.paired (s : State) : Bool := s.pstate == 2 || s.pstate == 3

/-- PARTNER_RELEASE: a valid block with RELEASE, or with CARRY gone in ACTIVE-ACTIVE (R328). -/
def partnerReleaseIfDue (ownCause : Bool) (s : State) : State :=
  match s.pm.block with
  | none => s
  | some b =>
    if s.paired ∧ !s.pm.lossSeen ∧ (b.release ∨ (s.rd R.PM_CFG_CONF = 1 ∧ s.pm.carried ∧ !b.carry)) then
      survive ownCause (s.event Ev.PARTNER_RELEASE 13)
    else s

/-- PARTNER_LOST: two heartbeats missed (R327). -/
def partnerLostIfDue (ownCause : Bool) (s : State) : State :=
  if 2 ≤ s.rd R.PM_MISS_HB ∧ !s.pm.lossSeen ∧ 2 ≤ s.pstate ∧ s.pstate ≠ 4 then
    let a := s.event Ev.PARTNER_LOST 13
    if s.paired then survive ownCause a else { a with pm.lossSeen := true }
  else s

/-- MIRROR_LOST: two blocks missed with heartbeats present (R327). -/
def mirrorLostIfDue (s : State) : State :=
  if 2 ≤ s.rd R.PM_MISS_BLK ∧ !s.on R.PM_STAT_MIRRLOST ∧ s.pstate ≠ 0 then
    { s.wr R.PM_STAT_MIRRLOST 1 with pm := { s.pm with validRun := 0, aligned := false } }.event Ev.MIRROR_LOST 13
  else s

/-- ALIVE_LOST: ALIVE_IN static for 8 ticks while blocks are valid (R327). -/
def aliveLostIfDue (s : State) : State :=
  if 8 ≤ s.pm.aliveStill ∧ !s.on R.PM_STAT_ALIVELOST ∧ s.pstate ≠ 0 then (s.wr R.PM_STAT_ALIVELOST 1).event Ev.ALIVE_LOST 13 else s

/-- SYNCED: 64 valid blocks in a row within 2 ns; it clears after 3 beyond 20 ns (R324). -/
def syncedIfDue (s : State) : State :=
  if s.on R.PM_STAT_SYNCED then (if 3 ≤ s.pm.syncBad then s.wr R.PM_STAT_SYNCED 0 else s)
  else if 64 ≤ s.pm.syncGood then s.wr R.PM_STAT_SYNCED 1 else s

/-- CHG_OWN_ASSERT: a waiting survivor asserts CHG_OWN after CHG_IN has been low for 2 ticks (R335). -/
def chgOwnAssertIfDue (s : State) : State :=
  if s.pm.waitOwn ∧ 2 ≤ s.pm.chgLow then takeStage s else s

/-- PAIR_FB: the partner's p_fb is beyond PTOL for 8 ticks (R332). -/
def pairFbIfDue (s : State) : State :=
  if s.pm.pfbRun = 8 then { s.event Ev.PAIR_FB 13 with pm := { s.pm with pfbRun := 9 } } else s

/-! ### Evaluation of a tick (R324, R327) -/

/-- The block of the tick just ended is judged, its misses counted (R326, R327). -/
def blockJudge (sn : Nat) (s : State) : State :=
  let ok := match s.pm.arrived with
    | some b => if s.blockValid b sn then some b else none
    | none => none
  let s := if s.pm.arrived.isSome ∧ ok.isNone then s.inc R.PM_BADBLK else s
  let tog := s.pm.aliveToggled
  let s := if ok.isSome then (s.wr R.PM_MISS_HB 0).wr R.PM_MISS_BLK 0
    else if tog then (s.wr R.PM_MISS_HB 0).inc R.PM_MISS_BLK
    else s.inc R.PM_MISS_HB
  let s := match ok with
    | some b => s.wr R.PM_HBSEQ b.hbseq
    | none => s
  let err := s.rdI R.PM_SYNCERR
  let good := ok.isSome && decide (-2000 ≤ err ∧ err ≤ 2000)
  let bad := ok.isSome && decide (err < -20000 ∨ 20000 < err)
  let far := match ok with
    | some b => decide ((s.rd R.PM_PTOL : Int) < (signedOf 48 (wrapTo 48 ((b.pfb : Int) - s.fb.pos))).natAbs)
    | none => false
  let s : State := { s with pm := { s.pm with
    block := ok
    arrived := none
    aliveToggled := false
    aliveStill := if tog then 0 else if ok.isSome then s.pm.aliveStill + 1 else 0
    validRun := if ok.isSome then s.pm.validRun + 1 else 0
    syncGood := if good then s.pm.syncGood + 1 else 0
    syncBad := if bad then s.pm.syncBad + 1 else if ok.isSome then 0 else s.pm.syncBad
    pfbRun := if far then (if 9 ≤ s.pm.pfbRun then 9 else s.pm.pfbRun + 1) else 0
    chgLow := if s.on R.PM_STAT_CHGIN then 0 else s.pm.chgLow + 1
    lossSeen := s.pm.lossSeen && !((ok.isSome || tog) && (match ok with | some b => !b.release | none => true)) } }
  let s := if tog then s.wr R.PM_STAT_ALIVELOST 0 else s
  if 64 ≤ s.pm.validRun then s.wr R.PM_STAT_MIRRLOST 0 else s

/-- BANK_SKEW: a follower's active bank differs from the lead's (R332), once. -/
def bankSkewIfDue (s : State) : State :=
  let differ := match s.pm.block with
    | some b => s.pstate == 2 && b.bankB != s.ln.bankB
    | none => s.pm.skew
  let raise := differ && !s.pm.skew
  let s : State := { s with pm := { s.pm with skew := differ } }
  if raise then s.event Ev.BANK_SKEW 13 else s

/-- Pairing completes, or a partner comes back to a module that runs alone (R323, R537; R337). -/
def pairForm (s : State) : State :=
  match s.pm.block with
  | none => s
  | some b =>
    if !s.pairingOk b then s
    else if s.pstate = 4 ∧ !b.release ∧ !s.pm.waitOwn then s.wr R.PM_STAT_PSTATE 3
    else if s.pstate ≠ 1 then s
    else if b.carry ∨ b.own then
      { s.wr R.PM_STAT_PSTATE 5 with pm := { s.pm with released := true, release := true } }.gateRefresh
    else if s.carries ∨ s.on R.PM_STAT_OWN ∨ !s.on R.PM_CFG_SIDE then
      let s := (s.wr R.PM_STAT_PSTATE 3).wr R.PM_STAT_LEAD 1
      if s.rd R.PM_CFG_CONF = 2 then s.wr R.PM_STAT_OWN 1 else s
    else
      let s := s.wr R.PM_STAT_PSTATE 2
      if s.rd R.PM_CFG_CONF = 2 then s.wr R.PW_CTL_RUN 0 else s

/-- The pair engine at a boundary, before the sequencer: the tick just ended, `sn` its system tick number (R327, R335). -/
def pairBoundary (sn : Nat) (ownCause : Bool) (s : State) : State :=
  if s.pstate = 0 then { s with pm := { s.pm with arrived := none, aliveToggled := false, block := none } }
  else
    let s := syncedIfDue (blockJudge sn (s.qDrain 21))
    let s := partnerLostIfDue ownCause (partnerReleaseIfDue ownCause s)
    let s := chgOwnAssertIfDue (aliveLostIfDue (mirrorLostIfDue s))
    let s := bankSkewIfDue (pairFbIfDue (pairForm s))
    match s.pm.block with
    | some b => { s with pm := { s.pm with carried := b.carry } }
    | none => s

/-! ### Shares (R330, R331) -/

/-- One tick of a fade: the share that moves by its nominal value / FADE. -/
def fadeStep (s : State) (nominal : Rat) (dir : Int) (x : Rat) : Rat :=
  let n := s.rd R.PM_FADE
  let step : Rat := if n = 0 then 1 else grid (nominal / (n : Nat))
  if 0 < dir then minR nominal (x + step) else maxR 0 (x - step)

/-- The nominal share. -/
def State.nominal (s : State) : Rat := s.rdU R.PM_SHARE 15

/-- A fade of the own share whose JOINSN has come takes a step; the partner's share keeps the sum at 1 (R331). -/
def ownFadeStep (s : State) : State :=
  let x := fadeStep s s.nominal s.pm.fadeDir s.pm.share
  let ended := if 0 < s.pm.fadeDir then decide (s.nominal ≤ x) else decide (x ≤ 0)
  { s with pm := { s.pm with
    share := x
    pShare := 1 - x
    fading := !ended
    fadeDir := if ended then 0 else s.pm.fadeDir
    released := s.pm.released || (ended && decide (s.pm.fadeDir < 0)) } }

/-- PAIR_JOIN: at JOINSN the fade of the share starts (R331). -/
def pairJoinIfDue (s : State) : State :=
  if s.pm.fadeDir ≠ 0 ∧ !s.pm.fading ∧ s.rd R.PM_CFG_CONF = 1 ∧ s.paired ∧ 0 ≤ modDiff 32 (s.rd R.BL_SN) (s.rd R.PM_JOINSN)
      ∧ (s.carries ∨ s.pm.fadeDir < 0) then
    ownFadeStep { s with pm.fading := true }
  else s

/-- JOINSN named 64 ticks ahead for a join or a release (R331, R337). -/
def nameJoin (dir : Int) (s : State) : State :=
  let s := s.wr R.PM_JOINSN (s.rd R.BL_SN + 64)
  { s with pm := { s.pm with fadeDir := dir, fading := false } }

/-- The partner's fade as its block announces it (R331). -/
def partnerFade (s : State) : State :=
  match s.pm.block with
  | none => s
  | some b =>
    let s : State := if s.pm.pJoin = some b.joinsn then s
      else if s.pm.pJoin = none then { s with pm := { s.pm with pJoin := some b.joinsn, pShare := if b.carry then ofFix 15 b.share else 0 } }
      else { s with pm := { s.pm with pJoin := some b.joinsn, pFade := if s.pm.pShare ≤ 0 then 1 else -1 } }
    if s.pm.pFade = 0 ∨ modDiff 32 (s.rd R.BL_SN) b.joinsn < 0 then s
    else
      let x := fadeStep s (1 - s.nominal) s.pm.pFade s.pm.pShare
      let ended := if 0 < s.pm.pFade then decide (1 - s.nominal ≤ x) else decide (x ≤ 0)
      { s with pm := { s.pm with pShare := x, pFade := if ended then 0 else s.pm.pFade } }

/-- The effective share of a tick in ACTIVE-ACTIVE with a partner in service (R331). -/
def shareTick (s : State) : State :=
  let s := partnerFade s
  if !s.carries then
    { s with pm := { s.pm with
      share := 0
      fading := false
      released := s.pm.released || decide (s.pm.fadeDir < 0)
      fadeDir := if s.pm.fadeDir < 0 then 0 else s.pm.fadeDir } }
  else
    let starts := !s.pm.carry
    let s := if starts ∧ (s.pm.carried ∨ s.pstate = 2) then nameJoin 1 { s with pm.share := 0 } else s
    if s.pm.fading then ownFadeStep s
    else if s.pm.fadeDir > 0 then pairJoinIfDue s
    else if s.pm.fadeDir < 0 then pairJoinIfDue { s with pm.share := 1 - s.pm.pShare }
    else { s with pm.share := 1 - s.pm.pShare }

/-- The share of this tick, by the place of the module (R331). -/
def pairShare (s : State) : State :=
  let carries := s.carries
  let s := if s.rd R.PM_CFG_CONF = 1 ∧ s.paired then shareTick s
    else { s with pm := { s.pm with share := if carries then 1 else 0, fadeDir := 0, fading := false, pShare := 0, pFade := 0, pJoin := none } }
  { s.wr R.PM_SHAREEFF (toFix 15 s.pm.share).toNat with pm := { s.pm with carry := carries } }

/-! ### Standby and release after the sequencer (R328, R334, R337) -/

/-- The standby follows the drive state, mode and sub-mode of the active module's header, unless something of its own acts (R334). -/
def standbyFollow (s : State) : State :=
  if !s.isStandby ∨ s.pm.waitOwn ∨ s.rd R.LN_MD_FLT ≠ 0 ∨ s.drive = 0 ∨ s.drive = 6 ∨ s.on R.SB_STAT_STO then s
  else match s.pm.block with
    | none => s
    | some b =>
      if b.release ∨ (b.state = s.drive ∧ b.mode = s.rd R.LN_MD_STAT_MODE ∧ b.sub = s.sub) then s
      else
        let a := s
        let s := ((s.wr R.LN_MD_STAT_STATE b.state).wr R.LN_MD_STAT_MODE b.mode).wr R.LN_MD_STAT_SUB b.sub
        (stateEffects a.drive s).driveEvent a

/-- The steps of a release of the stage in ACTIVE-STANDBY, and the end of a fade in ACTIVE-ACTIVE (R337): RELEASE, then CHG_OWN low. -/
def releaseTick (s : State) : State :=
  let active := s.rd R.PM_CFG_CONF = 2 ∧ s.pstate = 3
  if s.pm.relStep = 2 then
    { (s.wr R.PM_STAT_OWN 0).wr R.PM_STAT_LEAD 0 with pm := { s.pm with relStep := 0 } }
  else if s.pm.relStep = 1 ∨ (active ∧ s.releaseCond = true) then
    { s.wr R.PM_STAT_PSTATE 5 with pm := { s.pm with relStep := 2, released := true, release := true, share := 0 } }.gateRefresh
  else if s.pm.released ∧ s.pstate ≠ 5 then
    { (s.wr R.PM_STAT_PSTATE 5).wr R.PM_STAT_LEAD 0 with pm := { s.pm with release := true } }.gateRefresh
  else s

/-- TAKEOK (R334). -/
def takeokTick (s : State) : State :=
  let aligned := s.pm.aligned || s.alignBlock.isSome
  let ok := s.isStandby && !s.pm.waitOwn && s.on R.PM_STAT_SYNCED && !s.on R.PM_STAT_MIRRLOST && aligned && s.rd R.LN_MD_FLT == 0
    && !s.pm.release
  { s.wr R.PM_STAT_TAKEOK (b2n ok) with pm := { s.pm with aligned := aligned && s.pstate == 2 } }

/-- The pair engine at a boundary, after the sequencer. -/
def pairPost (s : State) : State :=
  if s.pstate = 0 then s
  else
    let s := releaseTick (standbyFollow s)
    let s : State := { s with pm := { s.pm with release := s.releaseCond || s.pm.released } }
    let s := pairShare s
    let lead := s.pstate == 4 || s.pstate == 3
    takeokTick (s.wr R.PM_STAT_LEAD (b2n lead))

/-! ### Commands (R337, R338, R434) -/

/-- The partner can carry: it shows TAKEOK, or CARRY without a cause in ACTIVE-ACTIVE (R337). -/
def State.partnerCanCarry (s : State) : Bool :=
  match s.pm.block with
  | some b => b.takeok || (s.rd R.PM_CFG_CONF == 1 && b.carry && !b.release && b.state != 5)
  | none => false

/-- Why a release is refused, by its status (R337, R434): BAD_STATE 1, BUSY 6. -/
def State.releaseRefused (s : State) : Option Nat :=
  if s.pstate = 0 then some 1
  else if s.pstate = 5 ∨ s.isStandby then none
  else if s.partnerCanCarry then none
  else some 6

/-- An orderly release starts (R337). -/
def releaseStart (s : State) : State :=
  if s.pstate = 5 then s
  else if s.rd R.PM_CFG_CONF = 1 then
    (if s.carries then nameJoin (-1) s
     else { s.wr R.PM_STAT_PSTATE 5 with pm := { s.pm with released := true, release := true } }.gateRefresh)
  else if s.isStandby then
    { (s.wr R.PM_STAT_PSTATE 5).wr R.PM_STAT_TAKEOK 0 with pm := { s.pm with released := true, release := true } }.gateRefresh
  else { s with pm.relStep := 1 }

/-- PM_CTL_RELEASE: a write of PM.CTL.RELEASE (R337). -/
def pmRelease (s : State) : State :=
  match s.releaseRefused with
  | some _ => s.wr R.PM_STAT_CFGERR 1
  | none => releaseStart s

/-- ENGAGE completes NOT_VALID until the module is synchronised and 64 valid blocks have come in a row (R338). -/
def State.engageRefused (s : State) : Bool :=
  s.pstate ≤ 1 || !s.on R.PM_STAT_SYNCED || decide (s.pm.validRun < 64)

/-- The module joins: at its JOINSN in ACTIVE-ACTIVE, as the standby in ACTIVE-STANDBY (R337). -/
def engageStart (s : State) : State :=
  if s.pstate ≠ 5 then s
  else
    let s := s.wr R.PM_STAT_PSTATE 2
    let s : State := { s with pm := { s.pm with released := false, release := s.releaseCond, aligned := false, relStep := 0, lossSeen := false } }
    if s.rd R.PM_CFG_CONF = 1 then (nameJoin 1 s).gateRefresh else (s.wr R.PW_CTL_RUN 0).gateRefresh

/-- PM_CTL_ENGAGE: a write of PM.CTL.ENGAGE (R338). -/
def pmEngage (s : State) : State := if s.engageRefused then s.wr R.PM_STAT_CFGERR 1 else engageStart s

end Sys2Proof.Machine
end

