-- ==== Sys2Proof/Machine/SignalBox.lean ====
section
/-! DEFINITION. The Signal Box (10): limits, safety inputs and outputs, STO, SS1, SBC, SLS, the safety speed, safety faults, LOCKOUT
and its reset, the Token layer. -/

namespace Sys2Proof.Machine

/-! ### Limits (R344, 01 R25) -/

/-- The effective limits: of the commissioned field and the requests the lowest (01 R25). -/
def effRefresh (s : State) : State :=
  let low (a b c : Fld) : Nat := min (s.rd a) (min (s.rd b) (s.rd c))
  (((s.wr R.SB_EFF_IPH (low R.SB_LIMIT_IPH R.SB_REQL_IPH R.SB_REQM_IPH)).wr R.SB_EFF_ICH
    (low R.SB_LIMIT_ICH R.SB_REQL_ICH R.SB_REQM_ICH)).wr R.SB_EFF_VOV (low R.SB_LIMIT_VOV R.SB_REQL_VOV R.SB_REQM_VOV)).wr
    R.SB_EFF_WOS (low R.SB_LIMIT_WOS R.SB_REQL_WOS R.SB_REQM_WOS)

/-- A request takes effect in the cycle after its write (R344). -/
def effDue (s : State) : State :=
  match s.sb.effAt with
  | some t => if t < s.time.tb then effRefresh { s with sb := { s.sb with effAt := none } } else s
  | none => s

/-- OVERCURRENT: the fast-path output of a channel, from the bits sampled so far in the tick, exceeds its limit: the cause, and OFFCMD to
all seven channels (R344; 03 R98). -/
def overcurrent (ch : Nat) (bits : List Bool) (s : State) : State :=
  let s := effDue s
  let value := s.fastPath ch bits
  let role := s.rd (R.SD_CHn_CFG_ROLE ch)
  let limit := if role = 8 then s.rd R.SB_EFF_ICH else s.rd R.SB_EFF_IPH
  if s.sdRuns ch ∧ (role = 1 ∨ role = 2 ∨ role = 3 ∨ role = 8) ∧ limit * 65536 < value.natAbs then
    let s := if s.hasCause 11 then s else s.cause 11 0 role (wrapTo 32 value)
    (List.range 7).foldl (sendOff false) s
  else s

/-- The fast-path output of the channel with role VDC; none runs: the least value. -/
def State.fastVdc (s : State) (bits : List Bool) : Int :=
  match s.roleCh 4 with
  | some n => if s.sdRuns n then s.fastPath n bits else -(2 ^ 31)
  | none => -(2 ^ 31)

/-- DC_OV: the fast-path output of VDC exceeds its limit; the Signal Box acts in hardware by the ASCARM it has latched (05 R209). -/
def dcOv (bits : List Bool) (s : State) : State :=
  let s := effDue s
  if s.fastVdc bits ≤ ((s.rd R.SB_EFF_VOV * 65536 : Nat) : Int) ∨ s.seq.dcovAct.isSome ∨ s.hasCause 7 then s
  else dcovHardware (s.cause 7 0 0 s.vdcRaw)

/-- REQM_GATE_GOFF: a write of SB.REQM_GATE (R345). -/
def reqmGate (off : Bool) (s : State) : State := (s.wr R.SB_REQM_GATE_GOFF (b2n off)).gateRefresh

/-! ### Safety faults (R356, R357) -/

/-- The low-side gate supply starts or stops (R350, R351, R357). -/
def supplySet (on : Bool) (s : State) : State :=
  if s.sb.supply = on ∨ (on = true ∧ s.sys.latchedOff = true) then s
  else
    let s : State := { s with sb := { s.sb with supply := on, supplyAt := s.time.tb } }
    if on then s else s.wr R.SB_STAT_GSUP 0

/-- A safety fault: gates, outputs and the low-side supply go off in the same cycle, the bit and the first fault are latched, the event
is raised (R357). -/
def safetyFault (bit : Nat) (s : State) : State :=
  let s : State := { s with sb := { s.sb with faultTick := some s.tickno } }
  if testB (s.rd R.SB_SFLT) bit then s
  else
    let s := if s.rd R.SB_SFLT = 0 ∧ s.rd R.SB_FIRST_CODE = 0 then (s.wr R.SB_FIRST_CODE (bit + 1)).wr R.SB_FIRST_TICK s.tickno else s
    let s := (s.wrBit R.SB_SFLT bit true).wr R.SB_STAT_LOCKOUT 1
    (supplySet false s.gateRefresh.soutRefresh).event Ev.SAFETY_FAULT 0

/-- SUPPLY: 20 ms after the low-side supply has stopped, a low-side rail is still above its trip threshold (R351). -/
def supplyCheck (railUp : Bool) (s : State) : State :=
  if railUp ∧ !s.sb.supply ∧ s.sb.supplyAt + msCyc 20 ≤ s.time.tb then safetyFault 10 s else s

/-- INPUT_TEST: in the tick with TICKNO mod 1,024 = 512 every input stage is forced to both levels (R348). -/
def inputTest (follows : Bool) (s : State) : State :=
  if s.tickno % 1024 = 512 ∧ !follows then safetyFault 3 s else s

/-- GEN_RB: ONCMD is high 64 cyc after a fall of the GATE_EN driver, or a driver's level has differed from its command for 4 cyc
(R345). -/
def genRb (readback : Option (Fin 7)) (s : State) : State :=
  let late := (List.range 7).any (fun c => !(s.gch c).drive && s.on (R.GD_CHc_STAT_ONCMD c) && decide ((s.gch c).driveFall + 64 ≤ s.time.tb)
    && (s.gch c).driveFall != 0)
  if late ∨ readback.isSome then safetyFault 2 s else s

/-- The level of SOUT0 or SOUT1 at its pin (R349): the command, off for the 300 µs of a test pulse. -/
def State.soutPin (s : State) (out1 : Bool) : Bool :=
  (if out1 then s.sout1 else s.sout0) && !(s.sb.soutAt != 0 && decide (s.time.tb < s.sb.soutAt + 120000))

/-- SOUT_TEST: every 1,000 ms a high output is switched off for 300 µs and its readback checked, or the readback of a tick is compared
with the command (R349): two ticks of difference latch SOUT_RB. -/
def soutTest (pulse follows : Bool) (s : State) : State :=
  if pulse then
    (if s.on R.SB_SBC_CFG_TESTEN ∧ (s.sout0 ∨ s.sout1) ∧ s.sb.soutAt + msCyc 1000 ≤ s.time.tb then
      let s : State := { s with sb.soutAt := s.time.tb }
      if follows then s else safetyFault 4 s
     else s)
  else
    let n := if follows then 0 else s.sb.soutRun + 1
    let s : State := { s with sb.soutRun := n }
    if 2 ≤ n then safetyFault 4 s else s

/-- SB_SELF: the self-test of logic, comparators and filters (R356). -/
def sbSelf (pass : Bool) (s : State) : State := if pass then s else safetyFault 0 s

/-! ### The safety parameter set (R361) -/

/-- The words of a register row. -/
def rowAddrs (r : RegRow) : List Nat :=
  r.dims.foldl (fun as d => as.flatMap (fun a => (List.range d.2).map (fun i => a + d.1 * i))) [r.fld.addr]

/-- The registers that hold an RWL field, in ascending order of address. -/
def rwlAddrs : List Nat :=
  let rows := rowsTB ++ rowsQM ++ rowsTT ++ rowsLN ++ rowsSD ++ rowsPW ++ rowsGD ++ rowsFB ++ rowsBL ++ rowsPM ++ rowsSB ++ rowsCAN
    ++ rowsHS ++ rowsTH ++ rowsNV ++ rowsBI ++ rowsCC ++ rowsTE ++ rowsSYS
  let as := (rows.filter (fun r => r.access == .rwl)).flatMap rowAddrs
  (as.foldl (fun (m : SMap Unit) a => smapInsert a () (smapErase a m)) []).map (·.1)

/-- The CRC-32C of the safety parameter set over the values that `word` gives (R361). -/
def paramCrc (word : Nat → Word) : Nat :=
  Nat.xor (rwlAddrs.foldl (fun c a =>
    crc32cRun (crc32cRun c (bytesLE 4 a)) (bytesLE 4 (word a &&& accessMask a .rwl).toNat)) 0xFFFFFFFF) 0xFFFFFFFF

/-- CFG_CRC: the CRC of the live set is recomputed; while commissioning is open or nothing is confirmed there is nothing to compare
(R356, R361). -/
def cfgCrc (s : State) : State :=
  if !s.on R.SB_LOCK_LOCKED ∨ s.on R.SB_LOCK_OPEN ∨ s.on R.SB_STAT_CRCERR then s
  else if paramCrc s.word = s.rd R.SB_CRC_CONF then s
  else safetyFault 1 s

/-! ### Token layer (R364–R370) -/

/-- A Token connection. -/
def State.tok (s : State) (t : Nat) : TokState := (s.sb.tok.toList[t]?).getD {}

/-- The state with a Token connection changed. -/
def State.setTok (s : State) (t : Nat) (f : TokState → TokState) : State :=
  { s with sb.tok := s.sb.tok.mapFinIdx (fun i x _ => if i = t then f x else x) }

/-- CID of a connection for an epoch (R366). -/
def State.tokCid (s : State) (t epoch : Nat) : Nat :=
  crc16 (bytesLE 2 (s.rd (R.SB_TOKt_CFG_CONN t)) ++ bytesLE 2 s.uid ++ bytesLE 2 epoch)

/-- SCRC of a frame's bytes 0–59 with the seed of a CID (R366). -/
def tokScrc (cid : Nat) (b : List Byte) : Nat := Nat.xor (crc32cRun (cid * 65536 + cid) (b.take 60)) 0xFFFFFFFF

/-- A frame put into the TX mailbox of a connection (R365, R370). -/
def tokSend (t typ epoch wdt : Nat) (payload : List Byte) (s : State) : State :=
  let c := s.tok t
  let cid := s.tokCid t epoch
  let body := bytesLE 1 (typ + 16) ++ [0] ++ bytesLE 2 cid ++ bytesLE 2 c.seq ++ bytesLE 2 epoch ++ bytesLE 2 wdt
    ++ bytesLE 1 payload.length ++ [0] ++ padTo 44 payload ++ bytesLE 2 (s.rd (R.SB_TOKt_STAT_LASTSEQ t)) ++ [0, 0]
  let frame := body ++ bytesLE 4 (tokScrc cid body)
  let s := (List.range 16).foldl (fun s w => s.wr (R.SB_TOKt_TXw t w) (fieldLE frame (4 * w) 4)) s
  (s.setTok t (fun c => { c with seq := (c.seq + 1) % 65536 })).wr (R.SB_TOKt_STAT_TXRDY t) 1

/-- The payload of a DATA frame from the module (R370). -/
def State.tokData (s : State) : List Byte :=
  bytesLE 1 (s.rd R.SB_STAT_STO + 2 * s.rd R.SB_STAT_SS1 + 4 * s.rd R.SB_STAT_SLS + 8 * b2n (!s.sout0) + 16 * s.rd R.SB_STAT_LOCKOUT
    + 32 * s.rd R.SB_STAT_GUARDDONE + 64 * s.rd R.SB_STAT_CRCERR)
  ++ bytesLE 2 (s.rd R.SB_SFLT) ++ bytesLE 4 (s.rd R.SB_WSB) ++ bytesLE 1 s.drive

/-- A NOTICE from the module (R370). -/
def tokNotice (t refused : Nat) (s : State) : State :=
  let kind := s.rd R.BL_ROLE_KIND
  let none_ (f : Fld) : Nat := if kind = 0 then 0xFF else s.rd f
  tokSend t 2 0 (s.tok t).wdt ([1] ++ bytesLE 1 kind ++ bytesLE 2 (s.rd R.BL_EPOCH) ++ bytesLE 1 (none_ R.BL_ROLE_CONSIST)
    ++ bytesLE 1 (none_ R.BL_ROLE_SLOT) ++ bytesLE 2 refused) s

/-- The received frame as the firmware has copied it. -/
def State.tokRx (s : State) : List Byte := (List.range 16).flatMap (fun w => bytesLE 4 (s.rd (R.SB_TOK_RXw w)))

/-- SEQWIN and the window test (R367). -/
def State.tokWindow (s : State) (t seq : Nat) : Bool :=
  let win := max 1 (min 64 (s.rd (R.SB_TOKt_CFG_SEQWIN t)))
  let d := wrapTo 16 ((seq : Int) - s.rd (R.SB_TOKt_STAT_LASTSEQ t))
  1 ≤ d && decide (d ≤ win)

/-- A Token SBC demand in RUN or STOPPING asks for E-HOLD (R353). -/
def sbcAsk (before : Bool) (s : State) : State :=
  if !before ∧ s.tokenAny 3 ∧ (s.drive = 3 ∨ s.drive = 4) then { s with seq := { s.seq with sbcAsk := true } } else s

/-- An accepted frame: the connection is established or renewed, the payload applies, the watchdog is armed, a reply is put out
(R367, R368). -/
def tokAccept (t : Nat) (b : List Byte) (s : State) : State :=
  let wdt := fieldLE b 8 2
  let sbc := s.tokenAny 3
  let s := (s.wr (R.SB_TOKt_STAT_LASTSEQ t) (fieldLE b 4 2)).wr (R.SB_TOKt_STAT_ESTAB t) 1
  let s := s.setTok t (fun c => { c with byte := fieldLE b 12 1, expires := some (s.time.tb + msCyc wdt), wdt := wdt })
  let s := sbcAsk sbc s.soutRefresh
  tokSend t 1 (s.rd R.BL_EPOCH) wdt s.tokData s

/-- TOKEN_FRAME: the frame given with GO is checked, in the order of R366. -/
def tokenFrameIfDue (s : State) : State :=
  if s.rd R.SB_TOK_RXRES_RESULT ≠ 7 then s
  else
    let b := s.tokRx
    let res (n : Nat) (s : State) : State := s.wr R.SB_TOK_RXRES_RESULT n
    let len := fieldLE b 10 1
    if fieldLE b 0 1 ≠ 0x11 ∨ len = 0 ∨ 44 < len then res 1 s
    else
      match [0, 1].find? (fun t => s.on (R.SB_TOKt_CFG_EN t) && s.tokCid t (fieldLE b 6 2) == fieldLE b 2 2) with
      | none => res 6 s
      | some t =>
        let s := s.wr R.SB_TOK_RXRES_CONN t
        let rej (n : Nat) (s : State) : State := res n (s.inc (R.SB_TOKt_REJ t))
        if tokScrc (fieldLE b 2 2) b ≠ fieldLE b 60 4 then rej 2 s
        else if fieldLE b 6 2 ≠ s.rd R.BL_EPOCH then
          let s := s.wr (R.SB_TOKt_STAT_STALE t) 1
          let due := match (s.tok t).noticeAt with
            | some a => decide (a + msCyc (fieldLE b 8 2) ≤ s.time.tb)
            | none => true
          rej 3 (if due then (tokNotice t (fieldLE b 6 2) s).setTok t (fun c => { c with noticeAt := some s.time.tb }) else s)
        else if !(s.tokWindow t (fieldLE b 4 2)) ∧ !(testB (fieldLE b 1 1) 0 ∧ !s.on (R.SB_TOKt_STAT_ESTAB t)) then rej 4 s
        else if fieldLE b 8 2 < 5 ∨ s.rd (R.SB_TOKt_WD_WDMAX t) < fieldLE b 8 2 then rej 5 s
        else if testB (fieldLE b 1 1) 0 ∨ s.on (R.SB_TOKt_STAT_ESTAB t) then res 0 (tokAccept t b s)
        else rej 4 s

/-- A write of SB.TOK_RXCTL.GO (R366). -/
def tokGo (s : State) : State := s.wr R.SB_TOK_RXRES_RESULT 7

/-- TOKEN_TMO: the watchdog of an established connection expires (R369). -/
def tokenTmoOne (s : State) (t : Nat) : State :=
  match (s.tok t).expires with
  | none => s
  | some e =>
    if s.time.tb < e ∨ !s.on (R.SB_TOKt_STAT_ESTAB t) then s
    else
      let sbc := s.tokenAny 3
      let s := (s.wr (R.SB_TOKt_STAT_ESTAB t) 0).setTok t (fun c => { c with expires := none, byte := 0 })
      let s := sbcAsk sbc s.soutRefresh
      if s.rd (R.SB_TOKt_CFG_FUNCMASK t) ≠ 0 then safetyFault 9 s else s.event Ev.TOKEN_LOST 0

/-- TOKEN_TMO over both connections. -/
def tokenTmoIfDue (s : State) : State := tokenTmoOne (tokenTmoOne s 0) 1

/-- TOK_TX_READ: the read of the last word of SB.TOKt_TX clears TXRDY (R373). -/
def tokTxRead (t : Nat) (s : State) : State := (s.wr (R.SB_TOKt_STAT_TXRDY t) 0).answer (s.word (R.SB_TOKt_TXw t 15).addr)

/-- A NOTICE on every established connection at a change of BL.EPOCH (R370). -/
def epochNotices (s : State) : State :=
  let e := s.rd R.BL_EPOCH
  if s.sb.epochSeen = e then s
  else
    [0, 1].foldl (fun s t => if s.on (R.SB_TOKt_STAT_ESTAB t) then tokNotice t 0 s else s) { s with sb.epochSeen := e }

/-! ### Inputs (R346, R347, R359) -/

/-- The filtered level of an input: 0 STO_N, 1–4 SIN0–SIN3, 5 SRST. -/
def State.inLevel (s : State) (i : Nat) : Bool := testB (s.word (R.SB_IN_STAT_STO_N).addr).toNat i

/-- The role of an input; STO_N acts as STO, SRST has none (R346). -/
def State.inRole (s : State) (i : Nat) : Nat := if i = 0 then 1 else if i ≤ 4 then s.rd (R.SB_SINi_CFG_ROLE (i - 1)) else 0

/-- Samples that a new level needs (R347): FILT outside 5–100 acts as the nearer limit; SRST has 10 ms. -/
def State.inSamples (s : State) (i : Nat) : Nat :=
  let filt := if i = 0 then s.rd R.SB_STO_FILT else s.rd (R.SB_SINi_CFG_FILT (i - 1))
  let tf := if i = 5 then 4000000 else 40000 * max 5 (min 100 filt)
  (tf + s.period - 1) / s.period + 1

/-- An input whose role and filtered level demand a function. -/
def State.inDemands (s : State) (role : Nat) : Bool := (List.range 5).any (fun i => s.inRole i == role && !s.inLevel i)

/-- The start-up guard test: a GUARD input has gone low and then high (R359). -/
def guardTrack (i : Nat) (level : Bool) (s : State) : State :=
  if s.inRole i ≠ 2 then s
  else if !level then { s with sb := { s.sb with guardLow := s.sb.guardLow ||| 2 ^ i } }
  else if testB s.sb.guardLow i then { s with sb := { s.sb with guardDone := s.sb.guardDone ||| 2 ^ i } }
  else s

/-- A rise or fall of the filtered SRST (R358). -/
def srstEdge (level : Bool) (s : State) : State :=
  if level then (if s.drive = 6 then { s with sb := { s.sb with srstAt := some s.time.tb } } else s)
  else match s.sb.srstAt with
    | none => s
    | some t =>
      let s : State := { s with sb := { s.sb with srstAt := none } }
      if t + msCyc 500 ≤ s.time.tb ∧ s.time.tb ≤ t + msCyc 3000 then { s with sb := { s.sb with srstFall := some s.tickno } } else s

/-- A change of a filtered level takes effect (R347). -/
def inputAccept (i : Nat) (level : Bool) (s : State) : State :=
  if s.inLevel i = level then s
  else
    let f : Fld := ⟨(R.SB_IN_STAT_STO_N).addr, i, i⟩
    let s := s.wr f (b2n level)
    if i = 5 then srstEdge level s else guardTrack i level s

/-- One sample of an input at a boundary (R346, R347). -/
def inputSample (i : Nat) (level : Bool) (s : State) : State :=
  let n := if level = s.inLevel i then 0 else (s.sb.run.toList[i]?).getD 0 + 1
  let put (s : State) (n : Nat) : State := { s with sb.run := s.sb.run.mapFinIdx (fun j x _ => if j = i then n else x) }
  if s.inSamples i ≤ n then inputAccept i level (put s 0) else put s n

/-- GUARDDONE (R359). -/
def guardRefresh (s : State) : State :=
  let open_ := (List.range 5).any (fun i => s.inRole i == 2 && !testB s.sb.guardDone i)
  if s.on R.SB_STAT_GUARDDONE ∨ open_ then s else s.wr R.SB_STAT_GUARDDONE 1

/-! ### Safety speed (R355) -/

/-- ω_sb at a boundary; a primary without counts gives an open value, and no motion gives 0. -/
def State.wSb (s : State) : Rat :=
  let old := (s.sb.hist[7]?).getD ((s.sb.hist.getLast?).getD (s.pfb, s.rdI R.FB_POSCORR))
  let d : Int := signedOf 48 (wrapTo 48 (s.pfb - old.1 - (s.rdI R.FB_POSCORR - old.2)))
  if d = 0 then 0
  else divR ((d : Rat) * 2 * piR) (((s.cprOf (s.rd R.FB_SEL_PRI) : Nat) : Rat) * 8 * s.tSecond)

/-- ω_sb as the register holds it. -/
def State.wsb (s : State) : Rat := s.rdQ R.SB_WSB 16

/-- The safety speed of a boundary. -/
def speedTick (s : State) : State :=
  let w := s.wSb
  let s := s.satQ R.SB_WSB 16 w
  let far := decide (s.rdU R.SB_WDISC 16 < absR (s.wsb - s.omegaM))
  { s with sb := { s.sb with
    hist := ((s.pfb, s.rdI R.FB_POSCORR) :: s.sb.hist).take 8
    discRun := if far then s.sb.discRun + 1 else 0 } }

/-- SPD_DISC (R355). -/
def spdDiscIfDue (s : State) : State := if 16 ≤ s.sb.discRun then safetyFault 7 s else s

/-- FB_SAFE: SS1-r or SLS is monitored on a source that does not serve (R355). -/
def fbSafeIfDue (s : State) : State :=
  if (s.sb.ss1R ∨ s.on R.SB_STAT_SLSMON) ∧ (s.rd R.FB_STAT_OPSRC = 5 ∨ s.fb.lost) then safetyFault 8 s else s

/-- OVERSPEED: |ω_sb| exceeds its limit (R344, 05 R203). -/
def overspeedIfDue (s : State) : State :=
  if s.rdU R.SB_EFF_WOS 16 < absR s.wsb ∧ !s.hasCause 12 then s.cause 12 0 0 (s.rd R.SB_WSB) else s

/-! ### SLS and SS1 (R352, R354) -/

/-- SLS at a boundary (R354). -/
def slsTick (s : State) : State :=
  let sel := s.inDemands 5 || s.tokenAny 2
  if !sel then { (s.wr R.SB_STAT_SLS 0).wr R.SB_STAT_SLSMON 0 with sb := { s.sb with slsAt := none } }
  else
    let t := s.sb.slsAt.getD s.time.tb
    let s : State := { s.wr R.SB_STAT_SLS 1 with sb := { s.sb with slsAt := some t } }
    if t + msCyc (s.rd R.SB_SLS_TDLY) ≤ s.time.tb then
      let s := s.wr R.SB_STAT_SLSMON 1
      if s.rdU R.SB_SLS_W 16 < absR s.wsb then safetyFault 6 s else s
    else s

/-- SS1 is demanded: as SS1-t, as SS1-r (R352). -/
def State.ss1Demands (s : State) : Bool × Bool :=
  let tok := s.tokenAny 1
  (s.inDemands 3 || (tok && !s.on R.SB_SS1_CFG_TOKR), s.inDemands 4 || (tok && s.on R.SB_SS1_CFG_TOKR))

/-- The envelope of SS1-r at a boundary (R352). -/
def State.ss1Env (s : State) (t0 : Nat) : Rat :=
  let ofs := s.rdU R.SB_SS1_WOFS 16
  let t : Rat := ((s.time.tb - t0 : Nat) : Rat) / 400000000
  let dly : Rat := (s.rd R.SB_SS1_TIME_TDLY : Rat) / 1000
  if t ≤ dly then s.sb.ss1W0 + ofs
  else maxR ofs (s.sb.ss1W0 + ofs - s.rdU R.SB_SS1_DEC 16 * (t - dly))

/-- SS1 is over: a demand for STO follows (R352). -/
def ss1Over (s : State) : State :=
  { s.wr R.SB_STAT_SS1 0 with sb := { s.sb with ss1At := none, ss1T := false, ss1R := false, ss1Ended := true } }

/-- SS1_END: SS1 ends at its time, or at standstill (R352). -/
def ss1EndIfDue (s : State) : State :=
  match s.sb.ss1At with
  | none => s
  | some t0 =>
    let t := s.sb.ss1T && decide (t0 + msCyc (s.rd R.SB_SS1_TIME_T) ≤ s.time.tb)
    let r := s.sb.ss1R && (decide (8 ≤ s.sb.ss1Still) || decide (t0 + msCyc (s.rd R.SB_SS1_TMAX) ≤ s.time.tb))
    if t || r then ss1Over s else s

/-- SS1 at a boundary: the decision, the monitoring, the end (R352). -/
def ss1Tick (s : State) : State :=
  let d := s.ss1Demands
  match s.sb.ss1At with
  | some t0 =>
    let still := decide (absR s.wsb ≤ s.rdU R.SB_SS1_WSTOP 16)
    let s : State := { s with sb := { s.sb with ss1Still := if still then s.sb.ss1Still + 1 else 0 } }
    let s := if s.sb.ss1R ∧ s.ss1Env t0 < absR s.wsb then safetyFault 5 s else s
    ss1EndIfDue s
  | none =>
    if !(d.1 || d.2) then { s with sb := { s.sb with ss1Ended := false } }
    else if s.sb.ss1Ended then s
    else if s.drive = 3 ∨ s.drive = 4 then
      { s.wr R.SB_STAT_SS1 1 with
        sb := { s.sb with ss1At := some s.time.tb, ss1T := d.1, ss1R := d.2, ss1W0 := absR s.wsb, ss1Still := 0 }
        seq := { s.seq with ss1Ask := true } }
    else ss1Over s

/-! ### STO (R350, R351) -/

/-- STO is demanded (R350). -/
def State.stoDemand (s : State) : Bool :=
  s.inDemands 1 || s.inDemands 2 || s.tokenAny 0 || s.sb.ss1Ended || !s.on R.SB_LOCK_LOCKED || s.on R.SB_LOCK_OPEN
    || s.on R.SB_STAT_CRCERR || !s.on R.SB_STAT_GUARDDONE

/-- The STO decision sets (R350). -/
def stoSet (s : State) : State :=
  let s := s.wr R.SB_STAT_STO 1
  let ended := s.sb.ss1Ended || s.sb.ss1At.isSome
  let s : State := { s.wr R.SB_STAT_SS1 0 with sb := { s.sb with
    ss1At := none, ss1T := false, ss1R := false, ss1Ended := ended, testAt := s.time.tb, testDue := false } }
  (supplySet false s.gateRefresh.soutRefresh).event Ev.STO_ON 0

/-- The low-side rails and GSUP (R351): every low-side rail has been up for 20 ms. -/
def gsupTick (s : State) : State :=
  let up := s.sb.supply && [1, 3, 5].all (fun c => (s.gch c).present % 4 == 0)
  let s : State := if up then s else { s with sb.railsAt := s.time.tb }
  s.wr R.SB_STAT_GSUP (b2n (up && decide (max s.sb.railsAt s.sb.supplyAt + msCyc 20 ≤ s.time.tb)))

/-- STO_OFF: no demand remains and GSUP reads 1 (R351). -/
def stoOffIfDue (s : State) : State :=
  if s.on R.SB_STAT_STO ∧ !s.stoDemand ∧ s.on R.SB_STAT_GSUP then
    ((s.wr R.SB_STAT_STO 0).gateRefresh.soutRefresh).event Ev.STO_OFF 0
  else s

/-- STO at a boundary: the decision, or the restart of the supply (R350, R351). -/
def stoTick (s : State) : State :=
  if s.stoDemand then (if s.on R.SB_STAT_STO then s else stoSet s)
  else stoOffIfDue (gsupTick (if s.rd R.SB_SFLT = 0 then supplySet true s else s))

/-- STO_TEST_DUE: 720 h without a demand or an ENABLE (R371). -/
def stoTestDueIfDue (s : State) : State :=
  if !s.sb.testDue ∧ s.sb.testAt + msCyc 2592000000 ≤ s.time.tb then { s with sb.testDue := true }.event Ev.STO_TEST_DUE 0 else s

/-- SAFETY_INPUT_CHANGE: a filtered change of an input takes effect, with what it demands or ends (R347). -/
def safetyInputChange (i : Fin 6) (level : Bool) (s : State) : State :=
  stoTick (ss1Tick (slsTick (guardRefresh (inputAccept i.val level s))))

/-! ### Reset sequence (R358) -/

/-- A pulse of SRST longer than 3.0 s is ignored. -/
def srstLong (s : State) : State :=
  match s.sb.srstAt with
  | some t => if t + msCyc 3000 < s.time.tb then { s.wr R.SB_STAT_SRSTLONG 1 with sb := { s.sb with srstAt := none } } else s
  | none => s

/-- LOCKOUT_EXIT: the tests that the fall of SRST starts (R358): all passed, the faults clear; otherwise theirs are latched and the drive
stays in LOCKOUT. -/
def lockoutExit (selfOk inputsOk : Bool) (s : State) : State :=
  match s.sb.srstFall with
  | none => s
  | some tick =>
    let s : State := { s with sb := { s.sb with srstFall := none } }
    let fresh := match s.sb.faultTick with
      | some f => decide (0 ≤ modDiff 32 f tick)
      | none => false
    let s := if selfOk then s else safetyFault 0 s
    let s := if inputsOk then s else safetyFault 3 s
    let crcOk := !s.on R.SB_LOCK_LOCKED || s.on R.SB_LOCK_OPEN || s.on R.SB_STAT_CRCERR || paramCrc s.word == s.rd R.SB_CRC_CONF
    let s := if crcOk then s else safetyFault 1 s
    if fresh = true ∨ !selfOk ∨ !inputsOk ∨ crcOk = false then s
    else
      let s := (((s.wr R.SB_SFLT 0).wr R.SB_FIRST_CODE 0).wr R.SB_FIRST_TICK 0).wr R.SB_STAT_LOCKOUT 0
      let s := (s.wr (R.SB_TOKt_STAT_ESTAB 0) 0).wr (R.SB_TOKt_STAT_ESTAB 1) 0
      let s := (s.setTok 0 (fun c => { c with expires := none, byte := 0 })).setTok 1 (fun c => { c with expires := none, byte := 0 })
      let s := if s.stoDemand then s else supplySet true s
      (s.gateRefresh.soutRefresh).event Ev.LOCKOUT_EXIT 0

/-! ### MP watchdog and boundary -/

/-- MPWD: a write of SB.MPWD restarts the watchdog (01 R29). -/
def mpwdWrite (s : State) : State := { s with sb.mpwdAt := s.time.tb }

/-- The Signal Box at a boundary, with the levels of STO_N, SIN0–SIN3 and SRST as sampled (R346). -/
def signalBoxBoundary (inputs : Fin 6 → Bool) (s : State) : State :=
  let s := (List.finRange 6).foldl (fun s i => inputSample i.val (inputs i) s) s
  let s := guardRefresh (srstLong (tokenTmoIfDue (tokenFrameIfDue (effRefresh s))))
  let s := fbSafeIfDue (overspeedIfDue (spdDiscIfDue (speedTick s)))
  let s := stoTick (ss1Tick (slsTick s))
  stoTestDueIfDue (epochNotices s.soutRefresh)

/-! ### The debug port (16 R515) -/

/-- X9 gives access while commissioning is open; DBG_TDO is high-impedance otherwise. -/
def State.debugOpen (s : State) : Bool := s.on R.SB_LOCK_OPEN

end Sys2Proof.Machine
end

