-- ==== Sys2Proof/Machine/Nor.lean ====
section
/-! DEFINITION. Non-volatile memory (14 R453–R460, 17 R528): the NOR array, its jobs, the dual-copy stores, the journal, the log ring. -/

namespace Sys2Proof.Machine

/-! ### The array (R453) -/

/-- Bytes of a sector and of a page. -/
def norSector : Nat := 0x10000
def norPage : Nat := 256

/-- The NOR array without a sector's content: an erased byte reads 0xFF. -/
def norErase (sector : Nat) (s : State) : State :=
  { s with
    nor := s.nor.filter (fun c => c.1 / norSector != sector)
    nv.torn := s.nv.torn.filter (fun t => t.1 != sector) }

/-- A page programmed: bits go from 1 to 0 only. -/
def norProgram (a : Nat) (bs : List Byte) (s : State) : State :=
  s.setNor a (bs.mapIdx (fun i b => b &&& s.norByte (a + i)))

/-- An erase of a sector is abandoned: it holds open values from now on (14 R461). -/
def norTear (sector : Nat) (s : State) : State :=
  let s := norErase sector s
  { s with nv.torn := s.nv.torn ++ [(sector, s.free)], free := s.free + norSector }

/-- A sector's erase was abandoned and has not been made up. -/
def State.isTorn (s : State) (sector : Nat) : Bool := s.nv.torn.any (fun t => t.1 == sector)

/-- The bytes of a span are blank. -/
def State.norBlank (s : State) (a n : Nat) : Bool :=
  !s.isTorn (a / norSector) && !s.nor.any (fun c => decide (a ≤ c.1 ∧ c.1 < a + n))

/-- Pages of a sector that are in use, counted from its start: one past the last page that is not blank. -/
def State.norUsed (s : State) (sector : Nat) : Nat :=
  if s.isTorn sector then 256
  else s.nor.foldl (fun n c => if c.1 / norSector = sector then max n (c.1 % norSector / norPage + 1) else n) 0

/-! ### Stores (R455, R456) -/

/-- The address of a store in a copy: 0 CONFIG, 1 JOURNAL, 2 STATE, 3 SHUTDOWN (R453, R455). -/
def storeAddr (copy store : Nat) : Nat := 0x02200000 + 0x40000 * copy + norSector * store

/-- A record with its header (R455); the store codes are the model's (assumption log 23). -/
def storeRecord (code seq : Nat) (body : List Byte) : List Byte :=
  let pages := (16 + body.length + 255) / 256
  let body := padTo (pages * 256 - 16) body
  bytesLE 2 code ++ bytesLE 2 pages ++ bytesLE 4 seq ++ bytesLE 4 (crc32c body) ++ [0, 0, 0, 0] ++ body

/-- The length in pages and the SEQ of a valid record at an address (R456). -/
def State.recordAt (s : State) (code a : Nat) : Option (Nat × Nat) :=
  let h := s.norBytes a 16
  let n := fieldLE h 2 2
  if fieldLE h 0 2 = code ∧ 1 ≤ n ∧ n ≤ 256 then
    (if crc32c (s.norBytes (a + 16) (n * 256 - 16)) = fieldLE h 8 4 then some (n, fieldLE h 4 4) else none)
  else none

/-- The newest valid record from a page of a sector on: its address, its pages and its SEQ. -/
def State.newestFrom (s : State) (code base used : Nat) : Nat → Nat → Option (Nat × Nat × Nat) → Option (Nat × Nat × Nat)
  | 0, _, best => best
  | n + 1, p, best =>
    if used ≤ p then best
    else match s.recordAt code (base + 256 * p) with
      | some r => s.newestFrom code base used n (p + r.1) (some (base + 256 * p, r.1, r.2))
      | none => s.newestFrom code base used n (p + 1) best

/-- The newest valid record of a store in a copy. -/
def State.storeNewest (s : State) (copy store : Nat) : Option (Nat × Nat × Nat) :=
  let a := storeAddr copy store
  s.newestFrom (store + 1) a (s.norUsed (a / norSector)) 256 0 none

/-- The record of a store in use: its copy, address, pages and SEQ (R456). -/
def State.storeInUse (s : State) (store : Nat) : Option (Nat × Nat × Nat × Nat) :=
  match s.storeNewest 0 store, s.storeNewest 1 store with
  | some a, some b => if 0 < modDiff 32 b.2.2 a.2.2 then some (1, b) else some (0, a)
  | some a, none => some (0, a)
  | none, some b => some (1, b)
  | none, none => none

/-- The body of the record in use, from byte 16. -/
def State.storeBody (s : State) (store : Nat) : Option (List Byte) :=
  (s.storeInUse store).map (fun r => s.norBytes (r.2.1 + 16) (r.2.2.1 * 256 - 16))

/-- A sector is retired (R454). -/
def State.isRetired (s : State) (sector : Nat) : Bool := s.nv.retired.contains sector

/-- The target copy of a record (R456): the one without a valid record or with the lower SEQ; a retired sector's store runs on the
other copy. -/
def State.storeTarget (s : State) (store : Nat) : Nat :=
  let c := match s.storeNewest 0 store, s.storeNewest 1 store with
    | none, _ => 0
    | some _, none => 1
    | some a, some b => if 0 < modDiff 32 b.2.2 a.2.2 then 0 else 1
  if s.isRetired (storeAddr c store / norSector) then 1 - c else c

/-- The steps of a record written into a store (R456): an erase where there is no room, the pages but the first, the first. -/
def storeOps (s : State) (store : Nat) (body : List Byte) (copy : Option Nat) : List NorOp :=
  let seq := match s.storeInUse store with | some r => (r.2.2.2 + 1) % 2 ^ 32 | none => 1
  let base := storeAddr (copy.getD (s.storeTarget store)) store
  let r := storeRecord (store + 1) seq body
  let pages := r.length / 256
  let used := s.norUsed (base / norSector)
  let erase := decide (256 < used + pages)
  let at_ := base + 256 * (if erase then 0 else used)
  let page (i : Nat) : NorOp := .program (at_ + 256 * i) ((r.drop (256 * i)).take 256)
  (if erase then [.erase (base / norSector)] else []) ++ (List.range (pages - 1)).map (fun i => page (i + 1)) ++ [page 0]

/-- The steps of a region job: its erases, then its pages, a header page last. -/
def regionOps (sectors : List Nat) (addr : Nat) (bytes : List Byte) (headerLast : Bool) : List NorOp :=
  let pages := (bytes.length + 255) / 256
  let page (i : Nat) : NorOp := .program (addr + 256 * i) ((bytes.drop (256 * i)).take 256)
  let is := List.range pages
  sectors.map NorOp.erase ++ (if headerLast then (is.drop 1).map page ++ (is.take 1).map page else is.map page)

/-! ### Jobs (R454) -/

/-- Jobs go onto Q56 in order, as far as it has credits (01 R37). The items' bytes are the model's (assumption log 9). -/
def norPush (s : State) : State :=
  s.nv.wait.foldl (fun s j =>
    if 0 < s.qCredit 56 then
      { s.qPush 56 (padTo 32 (bytesLE 4 j.id)) with
        nv := { s.nv with wait := s.nv.wait.filter (fun x => x.id != j.id), jobs := s.nv.jobs ++ [j] } }
    else s) s

/-- A job for Q56: its number, and the state with it. -/
def norQueue (req : NorReq) (s : State) : Nat × State :=
  let id := s.nv.nextId
  (id, norPush { s with nv := { s.nv with wait := s.nv.wait ++ [{ id := id, req := req }], nextId := id + 1 } })

/-- The blank check before the first program into a sector after a boot: one that is not blank there is erased first (R454). -/
def blankCheck (s : State) (done : List Nat) : List NorOp → List NorOp
  | [] => []
  | .erase n :: os => .erase n :: blankCheck s (n :: done) os
  | .read xs :: os => .read xs :: blankCheck s done os
  | .program a bs :: os =>
    let n := a / norSector
    if done.contains n ∨ s.norBlank a bs.length then .program a bs :: blankCheck s (n :: done) os
    else .erase n :: .program a bs :: blankCheck s (n :: done) os

/-- NV.STAT.OP for the step that runs (R467). -/
def norOpCode (j : NorJob) : Nat :=
  match j.ops with
  | .erase _ :: _ => 3
  | .program _ _ :: _ => 2
  | .read _ :: _ => 1
  | [] => 0

/-- The sector that a step changes. -/
def NorOp.sector : NorOp → Option Nat
  | .erase n => some n
  | .program a _ => some (a / norSector)
  | .read _ => none

/-- The job in progress is one with its steps: one that needs a retired sector fails at once (R454). -/
def norStart (j : NorJob) (s : State) : State :=
  let ops := match j.req with
    | .store n body copy => storeOps s n body copy
    | .region ss a bs h => regionOps ss a bs h
    | .read xs => [.read xs]
  let lost := ops.any (fun o => o.sector.any s.isRetired)
  let j : NorJob := { j with ops := if lost then [] else blankCheck s s.nv.checked ops, failed := lost }
  { s with nv := { s.nv with run := some j } }.wr R.NV_STAT_OP (norOpCode j)

/-- NOR_JOB: the controller takes the next job of Q56 (R454). -/
def norJob (s : State) : State :=
  match s.nv.run, s.nv.jobs with
  | none, j :: rest =>
    let s := (s.qPop 56).2
    norStart j { s with nv := { s.nv with jobs := rest } }
  | _, _ => s

/-- The next record that the controller writes on its own, without the MP (17 R528): a job in progress is set aside, an erase suspended
(R453), a program not before its page has ended. -/
def norOwn (s : State) : State :=
  match s.nv.own with
  | [] => s
  | j :: rest =>
    let t : State := { s with nv := { s.nv with own := rest } }
    match s.nv.run with
    | none => norStart j t
    | some r =>
      if r.own ∨ norOpCode r = 2 then s
      else norStart j ({ t with nv.aside := some r }.wr R.NV_STAT_SUSP (b2n (norOpCode r == 3)))

/-- NV registers follow the stores (R467). -/
def nvRefresh (s : State) : State :=
  let f (s : State) (store : Nat) (seq sel : Fld) : State :=
    match s.storeInUse store with
    | some r => (s.wr seq r.2.2.2).wr sel r.1
    | none => s
  f (f s 0 R.NV_CFGSEQ R.NV_SEL_CFG) 1 R.NV_JNLSEQ R.NV_SEL_JNL

/-- More than 96 sectors would have to be retired (17 R540). -/
def State.norFull (s : State) : Bool := decide (96 < s.nv.retired.length)

/-- A sector is retired after two failures (R454); a store's loss of a copy and the 97th retirement raise NV_DEGRADED (17 R540). -/
def norRetire (sector : Nat) (s : State) : State :=
  let n := s.nv.retired.length + 1
  let s : State := { s with
    nv.retired := (s.nv.retired ++ [sector]).take 97
    mp.saves := s.mp.saves ++ [2] }
  let s := s.wr R.NV_RETIRED (min n 96)
  if (0x220 ≤ sector ∧ sector < 0x228) ∨ 96 < n then s.mpEvent Ev.NV_DEGRADED [] else s

/-- The job in progress has ended: its result goes onto Q57, or waits there for a credit (01 R37). A record of the controller's own gives
no result; the job set aside for it goes on. -/
def norEnd (j : NorJob) (s : State) : State :=
  let s := s.wr R.NV_STAT_OP 0
  if !j.own ∧ s.qCredit 57 = 0 then { s with nv := { s.nv with run := some { j with ops := [] } } }
  else
    let s : State := if j.own then
        match s.nv.aside with
        | some r => ({ s with nv := { s.nv with run := some r, aside := none } }.wr R.NV_STAT_OP (norOpCode r)).wr R.NV_STAT_SUSP 0
        | none => { s with nv := { s.nv with run := none } }
      else
        { s.qPush 57 (padTo 32 (bytesLE 4 j.id ++ bytesLE 1 (b2n j.failed))) with
          nv := { s.nv with run := none, done := s.nv.done ++ [(j.id, j.failed, j.data)] } }
    match j.req with
    | .store _ _ _ => norOwn (nvRefresh s)
    | _ => norOwn s

/-- A job that has ended and waits for Q57 goes on once it has a credit (01 R37). -/
def norRelease (s : State) : State :=
  match s.nv.run with
  | some j => if j.ops.isEmpty then norEnd j s else s
  | none => s

/-- A step of a job carried out, the bytes that it reads. -/
def norStep (s : State) : NorOp → List Byte × State
  | .erase n => ([], (norErase n s).inc R.NV_ERASECNT)
  | .program a bs => ([], norProgram a bs s)
  | .read xs => (xs.flatMap (fun x => s.norBytes x.1 x.2), s)

/-- The sector of an erase awaited since a shutdown is erased, and sectors that a step has changed need no blank check (R454, R463). -/
def norChecked (op : NorOp) (s : State) : State :=
  match op.sector with
  | none => s
  | some n =>
    let s := if s.rd R.NV_DIRTY_SECTOR = n ∧ s.on R.NV_DIRTY_VALID ∧ op = .erase n then s.wr R.NV_DIRTY_VALID 0 else s
    { s with nv := { s.nv with checked := if s.nv.checked.contains n then s.nv.checked else n :: s.nv.checked } }

/-- NOR_OPERATION_COMPLETE: a page program, an erase or a read ends; a program or erase is verified and, twice failed, its sector is
retired (R454). -/
def norComplete (ok : Bool) (s : State) : State :=
  match s.nv.run with
  | none => s
  | some j =>
    match j.ops with
    | [] => norEnd j s
    | op :: ops =>
      match ok, op.sector with
      | false, some n =>
        let s := s.inc R.NV_FAILCNT
        if 1 ≤ j.fails then norEnd { j with failed := true } (norRetire n s)
        else { s with nv := { s.nv with run := some { j with fails := 1 } } }
      | _, _ =>
        let r := norStep s op
        let j : NorJob := { j with ops := ops, fails := 0, data := j.data ++ r.1 }
        let s := norChecked op r.2
        if ops.isEmpty then norEnd j s
        else norOwn ({ s with nv := { s.nv with run := some j } }.wr R.NV_STAT_OP (norOpCode j))

/-! ### Bodies of the stores (R455, R457, R464; 17 R528) -/

/-- The body of a JOURNAL record (R457). -/
def journalBody (j : Journal) : List Byte :=
  bytesLE 1 j.active ++ bytesLE 1 j.istate ++ [0, 0] ++ bytesLE 4 j.total ++ bytesLE 4 j.staged ++ bytesLE 4 j.iver ++ bytesLE 4 j.aver
    ++ bytesLE 2 j.handle ++ bytesLE 2 j.ctag ++ bytesLE 2 j.opcode ++ bytesLE 1 j.queue ++ [0] ++ bytesLE 4 j.swaptick
    ++ padTo 32 j.digest

/-- The journal that a body holds. -/
def journalOf (b : List Byte) : Journal :=
  { active := fieldLE b 0 1, istate := fieldLE b 1 1, total := fieldLE b 4 4, staged := fieldLE b 8 4, iver := fieldLE b 12 4
    aver := fieldLE b 16 4, handle := fieldLE b 20 2, ctag := fieldLE b 22 2, opcode := fieldLE b 24 2, queue := fieldLE b 26 1
    swaptick := fieldLE b 28 4, digest := (b.drop 32).take 32 }

/-- The body of a STATE record (17 R528): BL.EPOCH, the safety faults, the retired sectors. -/
def State.stateBody (s : State) (sflt first : Nat) : List Byte :=
  bytesLE 2 (s.rd R.BL_EPOCH) ++ bytesLE 2 sflt ++ bytesLE 1 first ++ [0] ++ bytesLE 2 (min 96 s.nv.retired.length) ++ bytesLE 4 s.nv.sdseq
    ++ padTo 36 [] ++ (List.range 96).flatMap (fun i => bytesLE 2 ((s.nv.retired[i]?).getD 0xFFFF))

/-- A STATE record written while the module boots, before boot complete (08 R297): the controller carries out its steps at once. -/
def stateSaveNow (s : State) : State :=
  let ops := blankCheck s s.nv.checked (storeOps s 2 (s.stateBody s.nv.lockout.1 s.nv.lockout.2) none)
  ops.foldl (fun s op => (norStep s op).2) s

/-- A STATE record queued. -/
def stateSave (s : State) : State := (norQueue (.store 2 (s.stateBody s.nv.lockout.1 s.nv.lockout.2) none) s).2

/-- The NOR controller's own STATE record at a LOCKOUT entry and after a passed reset sequence: it takes no part of the MP, and goes ahead
of the jobs of Q56 (17 R528). -/
def lockoutSave (s : State) : State :=
  let new := (s.rd R.SB_SFLT, s.rd R.SB_FIRST_CODE)
  if (new.1 = 0) = (s.nv.lockout.1 = 0) then s
  else norOwn { s with nv := { s.nv with
    lockout := new
    own := s.nv.own ++ [{ id := 0, req := .store 2 (s.stateBody new.1 new.2) none, own := true }] } }

/-- The journal changed and queued for its store (R457). -/
def journalSave (j : Journal) (s : State) : State := (norQueue (.store 1 (journalBody j) none) { s with nv.journal := j }).2

/-- The body of a CONFIG record (R455): state, pending flag, CRC, commissioning code, the RWL words in ascending order; the record's own
layout is the model's (assumption log 23). -/
def State.configBody (s : State) (confirmed : Bool) : List Byte :=
  bytesLE 1 (b2n confirmed) ++ bytesLE 1 (b2n s.sb.pendPser.isSome) ++ [0, 0] ++ bytesLE 4 (s.rd (if confirmed then R.SB_CRC_CONF else R.SB_CRC_CALC))
    ++ bytesLE 4 s.sb.code ++ [0, 0, 0, 0] ++ rwlAddrs.flatMap (fun a => bytesLE 4 (s.word a &&& accessMask a .rwl).toNat)

/-- The set that a CONFIG record holds, loaded into the registers (10 R363). -/
def configLoad (b : List Byte) (s : State) : State :=
  rwlAddrs.zipIdx.foldl (fun s x =>
    let m := accessMask x.1 .rwl
    s.setWord x.1 ((s.word x.1 &&& ~~~m) ||| (BitVec.ofNat 32 (fieldLE b (16 + 4 * x.2) 4) &&& m))) s

/-- Jobs queued one after another: their numbers. -/
def norQueueAll (reqs : List NorReq) (s : State) : List Nat × State :=
  reqs.foldl (fun acc r => let x := norQueue r acc.2; (acc.1 ++ [x.1], x.2)) ([], s)

/-- The two CONFIG writes of a safety command, one into each copy (R456), a retired sector's copy left out (R454): the jobs' numbers. -/
def configSave (confirmed : Bool) (s : State) : List Nat × State :=
  let c := s.storeTarget 0
  let body := s.configBody confirmed
  let other := if s.isRetired (storeAddr (1 - c) 0 / norSector) then [] else [1 - c]
  norQueueAll ((c :: other).map (fun n => .store 0 body (some n))) s

/-! ### Table images (R458) -/

/-- The address of image slot n. -/
def imageAddr (n : Nat) : Nat := 0x02280000 + 0x20000 * n

/-- The newest valid image: its slot and its SEQ. -/
def State.imageNewest (s : State) : Option (Nat × Nat) :=
  (List.range 64).foldl (fun best n =>
    match s.recordAt 5 (imageAddr n) with
    | some r => (match best with
      | some x => if 0 < modDiff 32 r.2 x.2 then some (n, r.2) else best
      | none => some (n, r.2))
    | none => best) none

/-- The body of an image: the coefficient pages, then tables 1–9 each followed by its CRC-32C (R458; 01 R544). -/
def State.imageBody (s : State) : List Byte :=
  let word (off : Nat) : List Byte := bytesLE 4 (s.bankWord s.ln.bankB off).toNat
  (List.range 128).flatMap (fun i => word (4 * i))
    ++ (List.range 9).flatMap (fun i =>
      let t := s.tableBytes s.ln.bankB (i + 1)
      t ++ bytesLE 4 (crc32c t))

/-- The offset in an image's body of the coefficient pages (table 0) or of table n (R458). -/
def imageOffset : Nat → Nat
  | 0 => 0
  | n => 512 + ((List.range (n - 1)).map (fun i => 4 * (tblPlace (i + 1)).2 + 4)).foldl (· + ·) 0

/-- A word of a table in an image slot. -/
def State.imageWord (s : State) (slot table i : Nat) : Word :=
  BitVec.ofNat 32 (ofBytesLE (s.norBytes (imageAddr slot + 16 + imageOffset table + 4 * i) 4))

/-- The span of the body of the image in use, which a save reads where it does not take every part from the active bank (R458). -/
def State.imageSpan (s : State) : Option (Nat × Nat) :=
  s.imageNewest.bind (fun r => (s.recordAt 5 (imageAddr r.1)).map (fun x => (imageAddr r.1 + 16, x.1 * 256 - 16)))

/-- PAR.SAVE's image: the parts selected from the active bank, the others from the body of the image in use (R458). -/
def State.imageNew (s : State) (pages tables : Bool) (old : List Byte) : List Byte :=
  let new := s.imageBody
  let old := if old.isEmpty then new else old
  (if pages then new.take 512 else padTo 512 old) ++ (if tables then new.drop 512 else padTo (new.length - 512) (old.drop 512))

/-- The sectors of an image slot, and whether none of them is retired. -/
def slotSectors (n : Nat) : List Nat := [imageAddr n / norSector, imageAddr n / norSector + 1]
def State.slotWhole (s : State) (n : Nat) : Bool := (slotSectors n).all (fun x => !s.isRetired x)

/-- The image slots of a save: the next pair in rotation (R458); pairs with a retired sector are skipped (R454), and used with one slot
only where no other pair is left (DESIGN CHOICE, assumption log 67). -/
def State.saveSlots (s : State) : List Nat :=
  let first := match s.imageNewest with | some x => (x.1 / 2 + 1) % 32 | none => 0
  let pairs := (List.range 32).map (fun i => (first + i) % 32)
  match pairs.find? (fun p => s.slotWhole (2 * p) && s.slotWhole (2 * p + 1)) with
  | some p => [2 * p, 2 * p + 1]
  | none => ((pairs.flatMap (fun p => [2 * p, 2 * p + 1])).filter s.slotWhole).take 1

/-- The jobs of a PAR.SAVE (R458), each slot erased before it is written: their numbers and the SEQ. -/
def imageSave (pages tables : Bool) (old : List Byte) (s : State) : List Nat × Nat × State :=
  let seq := match s.imageNewest with | some x => (x.2 + 1) % 2 ^ 32 | none => 1
  let body := storeRecord 5 seq (s.imageNew pages tables old)
  let r := norQueueAll (s.saveSlots.map (fun n => .region (slotSectors n) (imageAddr n) body true)) s
  (r.1, seq, r.2)

/-! ### The log (R459; 15 R489, R490) -/

/-- The sectors of the log ring: the first, how many. -/
def logBase : Nat := 0x2A8
def logSectors : Nat := 3416

/-- The next sector of the log ring after one that is not retired (R454). -/
def State.logNext (s : State) (n : Nat) : Nat :=
  (((List.range logSectors).map (fun i => logBase + (n - logBase + 1 + i) % logSectors)).find? (fun m => !s.isRetired m)).getD n

/-- The NOR address of a log record, where a sector holds it. -/
def State.logAddr (s : State) (seq : Nat) : Option Nat :=
  (s.nv.logMap.find? (fun e => decide (e.2 ≤ seq ∧ seq < e.2 + 2048))).map (fun e => e.1 * norSector + 32 * (seq - e.2))

/-- The sector that takes a record: the write sector where it has room and is not retired; otherwise the next one, entered with it. -/
def State.logSector (s : State) (seq : Nat) : Nat × Bool :=
  match s.nv.logMap.getLast? with
  | some e => if seq < e.2 + 2048 ∧ !s.isRetired e.1 then (e.1, false) else (s.logNext e.1, true)
  | none => (s.logNext (logBase + logSectors - 1), true)

/-- A record given its sequence and put into the buffer; ATTN follows (15 R489; 13 R440). -/
def logPut (ring flags : Nat) (r : List Byte) (s : State) : State :=
  let seq := s.logSeq
  let entry := bytesLE 6 seq ++ r.take 3 ++ bytesLE 1 flags ++ [0, 0] ++ (r.drop 4).take 4 ++ (r.drop 16).take 16
  let s : State := { s with nv := { s.nv with logSeq := (seq + 1) % 2 ^ 48 } }
  let s : State := { s with mp := { s.mp with
    bufferAt := if s.mp.buffer.isEmpty then s.time.tb else s.mp.bufferAt
    buffer := s.mp.buffer ++ [entry] } }
  let attn (b : Nat) (s : State) : State := (s.wrBit R.HS_ATTN b true).wr R.HS_IRQ_ATTN 1
  let s := if ring = 38 then attn 0 s else if ring = 39 then attn 1 s else if ring = 41 then attn 2 s else s
  if ring = 38 ∧ fieldLE r 0 2 = Ev.STO_TEST_DUE.code then attn 5 s else s

/-- The records of the buffer that go into the page of the first one. -/
def State.logBatch (s : State) : List (List Byte) :=
  let first := fieldLE (s.mp.buffer.headD []) 0 6
  let at_ := match s.nv.logMap.getLast? with
    | some e => if (s.logSector first).2 then 0 else (first - e.2) % 8
    | none => 0
  s.mp.buffer.take (8 - at_)

/-- The sectors of the ring after one of them is taken anew: the older ones, which are retired, go with it. -/
def logDrop (n : Nat) (m : List (Nat × Nat)) : List (Nat × Nat) :=
  if m.any (fun e => e.1 == n) then (m.dropWhile (fun e => e.1 != n)).drop 1 else m

/-- A page of the log as steps of the NOR: its address and bytes, the sector after one that is entered, which is kept erased (R459). The
sector entered belongs to the ring from now on, and the records of the one erased are lost. -/
def logWrite (rs : List (List Byte)) (s : State) : Nat × List Nat × State :=
  let first := fieldLE (rs.headD []) 0 6
  let r := s.logSector first
  if r.2 then
    let next := s.logNext r.1
    (r.1 * norSector, [next], { s with nv.logMap := logDrop next (logDrop r.1 s.nv.logMap) ++ [(r.1, first)] })
  else ((s.logAddr first).getD 0, [], s)

/-- LOG_PAGE_PROGRAM: a page of 8 records, or what there is 100 ms after the first, is programmed (R459). -/
def logPage (s : State) : State :=
  let rs := s.logBatch
  if rs.isEmpty ∨ (rs.length = s.mp.buffer.length ∧ rs.length < 8 ∧ s.time.tb < s.mp.bufferAt + msCyc 100) then s
  else
    let w := logWrite rs s
    let s := (norQueue (.region w.2.1 w.1 rs.flatten false) w.2.2).2
    { s with mp := { s.mp with buffer := s.mp.buffer.drop rs.length, bufferAt := s.time.tb } }

/-- The spans of NOR that hold the records of a range of sequences. -/
def State.logSpans (s : State) (first n : Nat) : List (Nat × Nat) :=
  (List.range n).filterMap (fun i => (s.logAddr (first + i)).map (fun a => (a, 32)))

/-- One event ring of a pass: drops are logged as EVENTS_LOST and flag the next record (15 R489). -/
def ringPass (ring : Nat) (s : State) : List (Nat × Nat × List Byte) × State :=
  let n := s.rd (R.QM_Qnn_DROP_COUNT ring)
  let s := s.wr (R.QM_Qnn_DROP_COUNT ring) 0
  let lostRec := eventRecord Ev.EVENTS_LOST 14 s.tickno s.time.tb (bytesLE 1 ring ++ [0, 0, 0] ++ bytesLE 4 n)
  let items := (s.queue ring).items
  let s := s.qDrain ring
  let lost := testB s.mp.lost (ring - 38) || n != 0
  let tagged := items.mapIdx (fun i r => (ring, b2n (lost && i == 0), r))
  let s : State := { s with mp := { s.mp with
    lost := if lost && items.isEmpty then s.mp.lost ||| 2 ^ (ring - 38) else s.mp.lost &&& (15 - 2 ^ (ring - 38)) } }
  ((if n = 0 then [] else [(0, 0, lostRec)]) ++ tagged, s)

/-- Records placed by their TB. -/
def byTb (rs : List (Nat × Nat × List Byte)) : List (Nat × Nat × List Byte) :=
  rs.foldl (fun acc r => (acc.filter (fun x => fieldLE x.2.2 8 8 ≤ fieldLE r.2.2 8 8)) ++ [r]
    ++ (acc.filter (fun x => fieldLE r.2.2 8 8 < fieldLE x.2.2 8 8))) []

/-- EVENT_RING_PASS: the firmware pops the four event rings and logs their records in TB order (15 R489). -/
def eventRingPass (s : State) : State :=
  if s.rd R.HS_STAT_MPSTATE ≠ 0 then s
  else
    let own := s.mp.log.map (fun r => (0, 0, r))
    let s : State := { s with mp.log := [] }
    let r := [38, 39, 40, 41].foldl (fun (acc : List (Nat × Nat × List Byte) × State) q =>
      let x := ringPass q acc.2
      (acc.1 ++ x.1, x.2)) (own, s)
    (byTb r.1).foldl (fun s x => logPut x.1 x.2.1 x.2.2 s) r.2

end Sys2Proof.Machine
end

