-- ==== Sys2Proof/Machine/Thermal.lean ====
section
/-! DEFINITION. Thermal monitor and supplies (14 R442–R452, 06 R243): measurements and their cross-check, throttling, compensation,
ride-through; the shutdown sequence (R461–R465). -/

namespace Sys2Proof.Machine

/-! ### Shutdown (R461–R465) -/

/-- The body of a shutdown record (R464). -/
def State.shutdownBody (s : State) (a : State) (cause sensor nvop dirty : Nat) : List Byte :=
  bytesLE 1 cause ++ bytesLE 1 sensor ++ bytesLE 1 nvop ++ [0] ++ bytesLE 4 dirty ++ bytesLE 8 s.time.tb ++ bytesLE 4 s.tickno
    ++ (List.range 11).flatMap (fun n => bytesLE 2 (s.rd (R.TH_Tn_USED n))) ++ bytesLE 2 (s.rd R.TH_STAT_SUSPECT)
    ++ bytesLE 2 (s.rd R.BL_EPOCH) ++ bytesLE 1 a.drive ++ bytesLE 1 a.sub

/-- The NOR at a shutdown (R461): a page program runs to its end, an erase is abandoned, queued jobs are discarded. With NVOP and the
sector of the abandoned erase. -/
def norStop (s : State) : Nat × Nat × State :=
  let head (j : Option NorJob) : Option NorOp := j.bind (fun j => j.ops.head?)
  let jobs := [head s.nv.run, head s.nv.aside].filterMap id
  let s : State := { s.setQueue 56 { s.queue 56 with items := [] } with
    nv := { s.nv with wait := [], jobs := [], own := [], run := none, aside := none } }
  let s := jobs.foldl (fun s op => match op with
    | .program a bs => norProgram a bs s
    | .erase n => (norTear n s).wr R.NV_STAT_SUSP 1
    | .read _ => s) (s.wr R.NV_STAT_OP 0)
  match jobs.findSome? (fun op => match op with | .erase n => some n | _ => none) with
  | some n => (2, n, s)
  | none => if jobs.any (fun op => match op with | .program _ _ => true | _ => false) then (1, 0xFFFFFFFF, s) else (0, 0xFFFFFFFF, s)

/-- The shutdown record takes the ready page of the target copy, or of the other one (R462). -/
def shutdownRecord (body : List Byte) (s : State) : State :=
  let seq := match s.storeInUse 3 with | some r => (r.2.2.2 + 1) % 2 ^ 32 | none => 1
  let sector (c : Nat) : Nat := storeAddr c 3 / norSector
  let room (c : Nat) : Bool := decide (s.norUsed (sector c) < 256) && !s.isRetired (sector c)
  let c := s.storeTarget 3
  let put (c : Nat) : State := norProgram (storeAddr c 3 + 256 * s.norUsed (sector c)) (storeRecord 4 seq body) s
  if room c then put c else if room (1 - c) then put (1 - c) else s

/-- The partial page of the log buffer is programmed (R459, R461): a page program that ends and the record take at most 3.0 ms, so that 1.6
ms always remain. No erase runs. -/
def shutdownLog (s : State) : State :=
  let rs := s.logBatch
  if rs.isEmpty then s
  else
    let w := logWrite rs s
    { norProgram w.1 rs.flatten w.2.2 with mp.buffer := s.mp.buffer.drop rs.length }

/-- SHUTDOWN_SEQUENCE: gates, the low-side supply and the outputs go off, ALIVE_OUT stops, CHG_OWN falls, the drive is OFF; the record and
the log page are programmed (R461); for TEMP_SD RPS_G opens the external switch. A sequence in progress goes on unchanged (R465). -/
def shutdown (cause sensor : Nat) (s : State) : State :=
  if s.sys.latchedOff then s
  else
    let a := s
    let s : State := { s with sys := { s.sys with
      latchedOff := true
      shutCause := cause
      shutAt := s.time.tb
      rpsOpen := s.sys.rpsOpen || cause == 1
      standbyNext := false } }
    let s := enter 0 0 0 false s
    let s : State := { s with seq := { s.seq with req := none, enabling := false, starting := false } }
    let s := (supplySet false s).soutRefresh
    let s := s.wr R.PM_STAT_OWN 0
    let n := norStop s
    let s := n.2.2
    if a.sys.bootStopped then s
    else shutdownLog (shutdownRecord (s.shutdownBody a cause sensor n.1 n.2.1) s)

/-- PX_C_HALT: at the end of the shutdown sequence PX-C halts (R461). -/
def pxCHalt (s : State) : State := if s.sys.latchedOff then { s with sys.halted := true } else s

/-! ### Supplies (R451, R452; 06 R243) -/

/-- The supply monitors' readings (R466). -/
def supplyReadings (vin vhb : BitVec 16) (s : State) : State := (s.wr R.TH_AUX_VIN vin.toNat).wr R.TH_AUX_VHB vhb.toNat

/-- Ride-through starts. -/
def rideStart (s : State) : State := if s.on R.TH_SUP_RIDE then s else (s.wr R.TH_SUP_RIDE 1).inc R.TH_RIDECNT

/-- AUX_OV: the external switch opens; ride-through starts (06 R243). -/
def auxOv (vin vhb : BitVec 16) (s : State) : State :=
  (rideStart { (supplyReadings vin vhb s).wr R.TH_SUP_OVOPEN 1 with sys.rpsOpen := true }).event Ev.AUX_OV 8

/-- SWITCH_RECLOSE: the external switch closes; ride-through ends where the supply is good (06 R243; 14 R452). After TEMP_SD the switch
stays open (R463). -/
def switchReclose (vin vhb : BitVec 16) (s : State) : State :=
  let s := (supplyReadings vin vhb s).wr R.TH_SUP_OVOPEN 0
  if s.sys.latchedOff ∧ s.sys.shutCause = 1 then s
  else
  let s : State := { s with sys.rpsOpen := false }
  if s.on R.TH_SUP_AUXOK then s.wr R.TH_SUP_RIDE 0 else s

/-- AUX_LOSS: ride-through starts (R451). -/
def auxLoss (vin vhb : BitVec 16) (s : State) : State :=
  (rideStart ((supplyReadings vin vhb s).wr R.TH_SUP_AUXOK 0)).event Ev.AUX_LOSS 8

/-- AUX_BACK: the supply is good; ride-through ends unless the switch stands open (R451, R452). -/
def auxBack (vin vhb : BitVec 16) (s : State) : State :=
  let s := (supplyReadings vin vhb s).wr R.TH_SUP_AUXOK 1
  if s.on R.TH_SUP_RIDE then
    let s := s.event Ev.AUX_BACK 8
    if s.on R.TH_SUP_OVOPEN then s else s.wr R.TH_SUP_RIDE 0
  else s

/-- HOLDUP_BUS_LOW: the hold-up bus has fallen to 20.0 V in ride-through: the shutdown sequence starts (R452). -/
def holdupBusLow (vin vhb : BitVec 16) (s : State) : State :=
  let s := supplyReadings vin vhb s
  if s.on R.TH_SUP_RIDE then shutdown (if s.on R.TH_SUP_OVOPEN then 3 else 2) 0xFF s else s

/-- HBOK: the hold-up bus is charged (R452). -/
def hbok (vin vhb : BitVec 16) (s : State) : State := (supplyReadings vin vhb s).wr R.TH_SUP_HBOK 1

/-! ### Sensors (R442–R444) -/

/-- A temperature from its 16 bits (R442). -/
def tempOf (n : Nat) : Rat := ofFix 7 (signedOf 16 n)

/-- T_warn, T_lim and T_SD of a sensor; a TX input has no T_SD (R442, R444, R466). -/
def State.tWarn (s : State) (n : Nat) : Rat := if n = 0 then 110 else if n ≤ 7 then 125 else tempOf (s.rd (R.TH_TXi_WARN (n - 8)))
def State.tLim (s : State) (n : Nat) : Rat :=
  if n = 0 then 125 else if n ≤ 7 then 140
  else
    let w := tempOf (s.rd (R.TH_TXi_WARN (n - 8)))
    let l := tempOf (s.rd (R.TH_TXi_LIM (n - 8)))
    if l ≤ w then w + 1 else l
def tSd (n : Nat) : Option Rat := if n = 0 then some 135 else if n ≤ 7 then some 150 else none

/-- The raw and the used reading in force. -/
def State.tRaw (s : State) (n : Nat) : Rat := tempOf (s.rd (R.TH_Tn_RAW n))
def State.tUsed (s : State) (n : Nat) : Rat := tempOf (s.rd (R.TH_Tn_USED n))

/-- The measuring interval of a sensor (R443). -/
def State.tInterval (s : State) (n : Nat) : Nat := if s.bit R.TH_RATE_FAST n then 400000 else 4000000

/-- The resistance of a PT1000 over its value at 0 °C, by the Callendar–Van Dusen equation of IEC 60751 (R444; its coefficients:
PRESUMED, assumption log 24). -/
def cvd (t : Rat) : Rat :=
  let q := 1 + mkRat 39083 10000000 * t - mkRat 5775 10000000000 * t * t
  if t < 0 then q - mkRat 4183 1000000000000000 * (t - 100) * t * t * t else q

/-- The temperature at which the equation gives a ratio, by bisection in steps of 2⁻ᵏ·512 from −256 °C. -/
def cvdInv (r : Rat) : Nat → Rat → Rat → Rat
  | 0, _, t => t
  | k + 1, h, t => cvdInv r k (h / 2) (if cvd (t + h) ≤ r then t + h else t)

/-- The temperature of an external input from its resistance in Ω, rounded to the format (R444). -/
def State.txTemp (s : State) (i : Nat) (ohm : Rat) : Rat :=
  if s.rd R.TH_TXCFG / 4 ^ i % 4 = 2 then cvdInv (ohm / 1000) 24 256 (-256)
  else if ohm ≤ 0 then 256
  else
    let rn := s.rdU (R.TH_TXi_RN i) 16
    let b := s.rdU (R.TH_TXi_B i) 16
    divR 1 (mkRat 100 29815 + divR (lnR (divR ohm rn)) b) - mkRat 27315 100

/-! ### Cross-check (R445–R447) -/

/-- The pairs: number, sensors a and b (R445; sensors 1–7 are GU-H, GU-L, GV-H, GV-L, GW-H, GW-L, GK). -/
def tempPairs : List (Nat × Nat × Nat) :=
  [(0, 1, 2), (1, 3, 4), (2, 5, 6), (3, 1, 3), (4, 3, 5), (5, 2, 0), (6, 4, 0), (7, 6, 0), (8, 7, 0), (9, 7, 6)]

/-- The pairs of a die: the pair and the neighbour. -/
def tempNeighbours (n : Nat) : List (Nat × Nat) :=
  tempPairs.filterMap (fun p => if p.2.1 = n then some (p.1, p.2.2) else if p.2.2 = n then some (p.1, p.2.1) else none)

/-- A pair's offset, °C. -/
def State.pairOffset (s : State) (p : Nat) : Rat := s.rdQ (R.TH_NBOFSp p) 8

/-- A die is measured and credible (R446). -/
def State.tCredible (s : State) (n : Nat) : Bool := testB s.th.measured n && !testB s.th.suspect n && !testB s.th.stale n

/-- A pair disagrees (R445). -/
def State.pairDisagrees (s : State) (p : Nat) : Bool :=
  match tempPairs[p]? with
  | some (_, a, b) => decide (6 < absR (s.tRaw a - s.tRaw b - s.pairOffset p))
  | none => false

/-- A neighbour's reading corrected by the pair offset to a die (R447). -/
def State.corrected (s : State) (n p m : Nat) : Rat :=
  match tempPairs[p]? with
  | some (_, a, _) => if a = n then s.tRaw m + s.pairOffset p else s.tRaw m - s.pairOffset p
  | none => s.tRaw m

/-- The highest of some numbers. -/
def highest : List Rat → Option Rat
  | [] => none
  | x :: xs => some (xs.foldl maxR x)

/-- The used reading of a die (R447). -/
def State.usedOf (s : State) (n : Nat) : Rat :=
  if s.tCredible n then s.tRaw n
  else match highest ((tempNeighbours n).filterMap (fun x => if s.tCredible x.2 then some (s.corrected n x.1 x.2) else none)) with
    | some t => t
    | none => match highest (((List.range 8).filter s.tCredible).map s.tRaw) with
      | some t => t
      | none => s.tLim n

/-- An entry of a vector of counts changed. -/
def setAt {n : Nat} (v : Vector Nat n) (i x : Nat) : Vector Nat n := v.mapFinIdx (fun j y _ => if j = i then x else y)

/-- A bit of a number set or cleared. -/
def withBit (w n : Nat) (on : Bool) : Nat := if testB w n = on then w else if on then w + 2 ^ n else w - 2 ^ n

/-- The cross-check of a die at its measurement (R446): three in a row against every one of at least two credible neighbours make it
suspect, 1,000 in a row in agreement make it credible again. -/
def crossCheck (n : Nat) (s : State) : State :=
  if testB s.th.stale n then s
  else
    let near := (tempNeighbours n).filter (fun x => s.tCredible x.2)
    let all := near.all (fun x => s.pairDisagrees x.1)
    let none_ := near.all (fun x => !s.pairDisagrees x.1)
    if testB s.th.suspect n then
      let run := if none_ ∧ !near.isEmpty then (s.th.okRun.toList[n]?).getD 0 + 1 else 0
      if 1000 ≤ run then { s with th := { s.th with suspect := withBit s.th.suspect n false, okRun := setAt s.th.okRun n 0 } }
      else { s with th := { s.th with okRun := setAt s.th.okRun n run } }
    else
      let run := if 2 ≤ near.length ∧ all then (s.th.susRun.toList[n]?).getD 0 + 1 else 0
      if 3 ≤ run then
        { s with th := { s.th with suspect := withBit s.th.suspect n true, susRun := setAt s.th.susRun n 0 } }.event Ev.TEMP_SUSPECT 8
      else { s with th := { s.th with susRun := setAt s.th.susRun n run } }

/-- A pair that disagrees in three measurements of its first die and makes no die suspect raises TEMP_PAIR (R446). -/
def pairCheck (n : Nat) (s : State) : State :=
  (tempPairs.filter (fun p => p.2.1 == n)).foldl (fun s p =>
    let live := s.tCredible p.2.1 && s.tCredible p.2.2 && s.pairDisagrees p.1
    let run := if live then (s.th.pairRun.toList[p.1]?).getD 0 + 1 else 0
    let s : State := { s with th := { s.th with pairRun := setAt s.th.pairRun p.1 (min run 4) } }
    if run = 3 then s.event Ev.TEMP_PAIR 8 else s) s

/-! ### Throttling, warnings, compensation (R443, R448–R450) -/

/-- A sensor has been measured since the reset, and an external input is still configured: one that is off takes part in nothing (R448,
R466). -/
def State.tMeasured (s : State) (n : Nat) : Bool :=
  testB s.th.measured n && (decide (n < 8) || (s.rd R.TH_TXCFG / 4 ^ (n - 8) % 4 == 1 || s.rd R.TH_TXCFG / 4 ^ (n - 8) % 4 == 2))

/-- The factor of a sensor (R448). -/
def State.factorOf (s : State) (n : Nat) : Rat :=
  if s.tMeasured n then clampR 0 1 (divR (s.tLim n - s.tUsed n) (s.tLim n - s.tWarn n)) else 1

/-- f_th and the sensor that gives it (R448). -/
def factorPost (s : State) : State :=
  let r := (List.range 11).foldl (fun (b : Rat × Nat) n => let f := s.factorOf n; if f < b.1 then (f, n) else b) (1, 0)
  (s.wr R.TH_FTH_F (toFix 15 r.1).toNat).wr R.TH_FTH_SRC r.2

/-- TEMP_WARN and TEMP_OK of a sensor (R449). -/
def warnCheck (s : State) (n : Nat) : State :=
  let t := s.tUsed n
  if s.bit R.TH_STAT_WARN n then
    (if t < s.tWarn n - 5 then (s.wrBit R.TH_STAT_WARN n false).event Ev.TEMP_OK 8 else s)
  else if s.tWarn n ≤ t then (s.wrBit R.TH_STAT_WARN n true).event Ev.TEMP_WARN 8
  else s

/-- The rate of a sensor (R443). -/
def rateCheck (s : State) (n : Nat) : State :=
  let t := s.tUsed n
  if s.tLim n - 10 ≤ t then s.wrBit R.TH_RATE_FAST n true
  else if t < s.tLim n - 12 then s.wrBit R.TH_RATE_FAST n false else s

/-- A column of the compensation table at a temperature, between its points (R450). -/
def compAt (read : Nat → Int) (t : Rat) : Rat :=
  let x := (clampR (-40) 120 t + 40) / 10
  let i := x.floor.toNat
  let a : Rat := read (min i 16)
  let b : Rat := read (min (i + 1) 16)
  a + (b - a) * (x - (i : Nat))

/-- The compensation of the TCXO and of the references at a measurement of PX-C (R450). -/
def compensate (s : State) : State :=
  let t := s.tUsed 0
  let old := s.rdI R.TH_COMP_TCXO
  let goal := roundAway (compAt (fun i => (Config.compPoint i).1.toInt) t)
  let new := clampI (old - 2) (old + 2) goal
  let trim (ppb : Int) : Int := toFix 32 ((ppb : Rat) / 1000000000)
  let s := s.wr R.TB_TRIM (wrapTo 32 (s.rdI R.TB_TRIM + trim new - trim old))
  let s := s.wr R.TH_COMP_TCXO (wrapTo 16 new)
  s.wr R.TH_COMP_REF (wrapTo 16 (roundAway (compAt (fun i => (Config.compPoint i).2.toInt) t)))

/-- The used readings that follow a measurement: the dies by R447, a TX input at its limit while it is faulted (R444). -/
def usedPost (s : State) : State :=
  let u := (List.range 8).map s.usedOf
  let s := (List.range 8).foldl (fun s n => if testB s.th.measured n then s.satQ (R.TH_Tn_USED n) 7 ((u[n]?).getD 0) else s) s
  (List.range 3).foldl (fun s i =>
    if testB s.th.measured (8 + i) then
      s.satQ (R.TH_Tn_USED (8 + i)) 7 (if s.bit R.TH_STAT_TXFAULT i then s.tLim (8 + i) else s.tRaw (8 + i))
    else s) s

/-- A reading of a sensor taken over: its raw value, whether it is stale; none where nothing is there to measure. -/
def takeReading (n : Nat) (reading : BitVec 32) (s : State) : Option State :=
  let done (s : State) : State := { s with th.measured := withBit s.th.measured n true }
  if n = 0 then some (done (s.wr (R.TH_Tn_RAW 0) (reading.toNat % 2 ^ 16)))
  else if n ≤ 7 then
    match s.th.pxg.toList[n - 1]? with
    | some (some r) =>
      let old := decide (2 * s.tInterval n < s.time.tb - r.2)
      some (done { s.wr (R.TH_Tn_RAW n) r.1 with th.stale := withBit s.th.stale n old })
    | _ => none
  else
    let i := n - 8
    let cfg := s.rd R.TH_TXCFG / 4 ^ i % 4
    if cfg = 1 ∨ cfg = 2 then
      let t := s.txTemp i (ofFix 16 reading.toNat)
      let bad := decide (t < -50 ∨ 200 < t)
      let s := s.satQ (R.TH_Tn_RAW n) 7 t
      let new := bad && !s.bit R.TH_STAT_TXFAULT i
      let s := s.wrBit R.TH_STAT_TXFAULT i bad
      some (done (if new then s.event Ev.TEMP_SENSOR 8 else s))
    else none

/-- The first die whose used reading is at or above its T_SD (R461, R465). -/
def State.tooHot (s : State) : Option Nat :=
  (List.range 8).find? (fun n => testB s.th.measured n && (match tSd n with | some t => decide (t ≤ s.tUsed n) | none => false))

/-- TEMP_MEASUREMENT: a sensor is measured (R443): the die diode in Q9.7 °C, an external input as a resistance in UQ16.16 Ω; a PX-G by
the PERIODIC record that came last. A sensor that is not due has no measurement. -/
def tempMeasurement (n : Fin 11) (reading : BitVec 32) (s : State) : State :=
  if testB s.th.measured n.val ∧ s.time.tb < (s.th.measuredAt.toList[n.val]?).getD 0 + s.tInterval n.val then s
  else match takeReading n.val reading s with
  | none => s
  | some s =>
    let s : State := { s with th.measuredAt := setAt s.th.measuredAt n.val s.time.tb }
    let s := if n.val ≤ 7 then pairCheck n.val (crossCheck n.val s) else s
    let s := usedPost (s.wr R.TH_STAT_SUSPECT (s.th.suspect ||| s.th.stale))
    let s := (List.range 11).foldl (fun s k => if s.tMeasured k then rateCheck (warnCheck s k) k else s) s
    let s := factorPost (if n.val = 0 then compensate s else s)
    match s.tooHot with
    | some k => shutdown 1 k s
    | none => s

end Sys2Proof.Machine
end

