-- ==== Sys2Proof/Machine/Can.lean ====
section
/-! DEFINITION. The CAN FD controllers (11): modes, reception through filters, transmit buffers, timestamps, errors and fault
confinement. -/

namespace Sys2Proof.Machine

/-- A controller. -/
def State.canc (s : State) (n : Nat) : CanState := (s.can.toList[n]?).getD {}

/-- The state with a controller changed. -/
def State.setCan (s : State) (n : Nat) (f : CanState → CanState) : State :=
  { s with can := s.can.mapFinIdx (fun i x _ => if i = n then f x else x) }

/-- MODE in force; 3 acts as 0 (R376). -/
def State.canMode (s : State) (n : Nat) : Nat := s.rd (R.CANn_CTL_MODE n) % 3

/-- The controller is on the bus (R376, R390). -/
def State.canOnBus (s : State) (n : Nat) : Bool :=
  s.canMode n != 0 && !(s.canc n).integrating && !(s.canc n).busOff

/-- CANn.TS: the timestamp counter, from TB (R387). -/
def State.canTs (s : State) (ago : Nat) : Nat := (s.time.tb - ago) / 400 % 2 ^ 32

/-- A stamp as TB, by any TB read less than 2³² µs after the frame: the firmware forms the STAMP of a HEAVE_SAMPLE so (R388). -/
def stampTb (now ts : Nat) : Nat :=
  let u := now / 400
  400 * (u - wrapTo 32 ((u : Int) - ts)) + 200

/-! ### Error state (R389, R390) -/

/-- ERR.STATE by the counters (R389, R393). -/
def State.canErrState (s : State) (n : Nat) : Nat :=
  let c := s.canc n
  if s.canMode n = 0 then 3 else if c.busOff then 2 else if c.integrating then 3
  else if 128 ≤ c.tec ∨ 128 ≤ c.rec_ then 1 else 0

/-- CANn.ERR follows the counters; changes set ESTATE and raise the events of R389. -/
def canRefresh (n : Nat) (s : State) : State :=
  let c := s.canc n
  let old := s.rd (R.CANn_ERR_STATE n)
  let warn := s.on (R.CANn_ERR_EWARN n)
  let new := s.canErrState n
  let warn' := decide (96 ≤ c.tec ∨ 96 ≤ c.rec_)
  let s := (((s.wr (R.CANn_ERR_TEC n) (min 255 c.tec)).wr (R.CANn_ERR_REC n) (c.rec_ % 128)).wr (R.CANn_ERR_RP n) (b2n (128 ≤ c.rec_))).wr
    (R.CANn_ERR_STATE n) new
  let s := s.wr (R.CANn_ERR_EWARN n) (b2n warn')
  let s := if new ≠ old ∨ warn ≠ warn' then s.wr (R.CANn_IRQ_ESTATE n) 1 else s
  let s := if warn' && !warn then s.event Ev.CAN_WARN (6 + n) else s
  if new = 1 ∧ old ≠ 1 then s.event Ev.CAN_PASSIVE (6 + n)
  else if new = 0 ∧ old = 1 then s.event Ev.CAN_ACTIVE (6 + n)
  else s

/-! ### Modes (R376, R377) -/

/-- The configuration that leaving INIT requires (R377). -/
def State.canConfigOk (s : State) (n : Nat) : Bool :=
  let t1 := s.rd (R.CANn_NBT_NTSEG1 n) + 1
  let nominal := (1 + t1 + s.rd (R.CANn_NBT_NTSEG2 n) + 1) * (s.rd (R.CANn_NBT_NBRP n) + 1)
  let data := (1 + s.rd (R.CANn_DBT_DTSEG1 n) + 1 + s.rd (R.CANn_DBT_DTSEG2 n) + 1) * (s.rd (R.CANn_DBT_DBRP n) + 1)
  2 ≤ t1 && 80 ≤ nominal && decide (s.rd (R.CANn_NBT_NSJW n) ≤ s.rd (R.CANn_NBT_NTSEG2 n)) && 16 ≤ data && decide (data ≤ nominal)
    && decide (s.rd (R.CANn_DBT_DSJW n) ≤ s.rd (R.CANn_DBT_DTSEG2 n))

/-- The state of a buffer: 0 EMPTY, 1 PENDING, 2 ACTIVE, 3 DONE, 4 CANCELLED, 5 FAILED (R394). -/
def State.txb (s : State) (n b : Nat) : Nat := s.rd (R.CANn_TXBb_STAT_STATE n b)

/-- The buffer whose frame is on the bus. -/
def State.canActive (s : State) (n : Nat) : Option Nat := (List.range 3).find? (fun b => s.txb n b == 2)

/-- CAN_CTL_MODE: a write of CANn.CTL.MODE (R376): checked on leaving INIT; a 0 waits for the end of the frame on the bus. -/
def canModeWrite (n mode : Nat) (s : State) : State :=
  if mode % 3 = 0 then
    if (s.canActive n).isSome ∧ s.canMode n ≠ 0 then s.setCan n (fun c => { c with initPend := true })
    else canRefresh n ((s.wr (R.CANn_CTL_MODE n) mode).setCan n (fun c => { c with integrating := false }))
  else if s.canMode n ≠ 0 then
    canRefresh n ((s.wr (R.CANn_CTL_MODE n) mode).setCan n (fun c => { c with initPend := false }))
  else if s.canConfigOk n then
    canRefresh n ((s.wr (R.CANn_CTL_MODE n) mode).setCan n (fun c => { c with integrating := true, initPend := false }))
  else s.wr (R.CANn_STAT_CFGERR n) 1

/-- CAN_INTEGRATION: 11 recessive bits in a row; the controller joins the bus (R376). -/
def canIntegration (n : Nat) (s : State) : State :=
  if s.canMode n = 0 ∨ (s.canc n).busOff then s
  else canRefresh n (s.setCan n (fun c => { c with integrating := false }))

/-- CAN_CTL_RECOVER: a write of CANn.CTL.RECOVER (R390). -/
def canRecover (n : Nat) (s : State) : State :=
  if (s.canc n).busOff then s.setCan n (fun c => { c with recovering := true }) else s

/-- CAN_RECOVERED: 128 times 11 recessive bits complete the recovery (R390). -/
def canRecovered (n : Nat) (s : State) : State :=
  let c := s.canc n
  if c.busOff ∧ c.recovering then
    let s := s.setCan n (fun c => { c with busOff := false, recovering := false, tec := 0, rec_ := 0, integrating := true })
    (canRefresh n s).event Ev.CAN_RECOVERED (6 + n)
  else s

/-! ### Reception (R379–R382) -/

/-- Bytes that a DLC stands for (R374). -/
def canBytes (fdf : Bool) (dlc : Nat) : Nat :=
  if dlc ≤ 8 then dlc
  else if !fdf then 8
  else if dlc ≤ 12 then 4 * dlc - 24 else if dlc = 13 then 32 else if dlc = 14 then 48 else 64

/-- Whether a filter matches (R379). -/
def State.canFilter (s : State) (n f : Nat) (x : CanFrame) : Bool :=
  let id := if x.xtd then x.id.toNat else x.id.toNat / 2 ^ 18 * 2 ^ 18
  let mask := if x.xtd then s.rd (R.CANn_FLTf_MASK n f) else s.rd (R.CANn_FLTf_MASK n f) / 2 ^ 18 * 2 ^ 18
  s.on (R.CANn_FLTf_CFG_EN n f) && s.on (R.CANn_FLTf_CFG_XTD n f) == x.xtd
    && (Nat.xor id (s.rd (R.CANn_FLTf_MATCH n f)) &&& mask) == 0

/-- The receive record (R381). -/
def canRecord (s : State) (x : CanFrame) (filt frseq : Nat) : List Byte :=
  let rtr := x.rtr && !x.fdf
  let id := if x.xtd then x.id.toNat else x.id.toNat / 2 ^ 18 * 2 ^ 18
  bytesLE 4 (id + 2 ^ 30 * b2n rtr + 2 ^ 31 * b2n x.xtd) ++ bytesLE 4 (s.canTs x.sofAge)
    ++ bytesLE 1 (x.dlc.val + 16 * b2n x.fdf + 32 * b2n x.brs + 64 * b2n x.esi) ++ bytesLE 1 filt ++ bytesLE 2 frseq ++ [0, 0, 0, 0]
    ++ (if rtr then padTo 64 [] else padTo 64 (x.data.take (canBytes x.fdf x.dlc.val)))

/-- A frame sent to a FIFO: numbered, and pushed to its queue (R379, R382). -/
def canToFifo (n fifo filt : Nat) (x : CanFrame) (s : State) : State :=
  let f := if fifo = 0 then R.CANn_FRSEQ_F0 n else R.CANn_FRSEQ_F1 n
  let s := s.incWrap f
  s.qPush (8 + 2 * n + fifo) (canRecord s x filt (s.rd f))

/-- The receive counter after a frame received well (ISO 11898-1): down by one, from above 127 to a value from 119 to 127. -/
def canReceivedWell (n : Nat) (s : State) : State :=
  let r := (s.canc n).rec_
  if s.canMode n = 2 then s
  else if 127 < r then
    let d := s.drawBits 8
    d.2.setCan n (fun c => { c with rec_ := 119 + d.1 % 9 })
  else s.setCan n (fun c => { c with rec_ := c.rec_ - 1 })

/-- CAN_FRAME_VALID: a frame becomes valid and is filtered (R379). -/
def canFrameValid (n : Nat) (x : CanFrame) (s : State) : State :=
  if !s.canOnBus n then s
  else
    let s := canRefresh n (canReceivedWell n s)
    match (List.range 32).find? (fun f => s.canFilter n f x) with
    | some f =>
      if s.on (R.CANn_FLTf_CFG_REJECT n f) then s else canToFifo n (s.rd (R.CANn_FLTf_CFG_FIFO n f)) f x s
    | none =>
      let m := s.rd (R.CANn_CFG_NOMATCH n)
      if m = 1 ∨ m = 2 then canToFifo n (m - 1) 32 x s else s

/-! ### Transmission (R383–R386) -/

/-- A buffer goes to FAILED (R385). -/
def txFail (n b : Nat) (s : State) : State :=
  let s := s.wr (R.CANn_TXBb_STAT_STATE n b) 5
  s.wrBit (R.CANn_IRQ_TXFAIL n) b true

/-- One bit of CANn.TXCTL.REQ (R383). -/
def txReq (n b : Nat) (s : State) : State :=
  if s.txb n b = 1 ∨ s.txb n b = 2 then s
  else if s.on (R.CANn_TXBb_CTL_FDF n b) ∧ s.on (R.CANn_TXBb_ID_RTR n b) then (txFail n b s).wr (R.CANn_STAT_CFGERR n) 1
  else (s.wr (R.CANn_TXBb_STAT_STATE n b) 1).wr (R.CANn_TXBb_STAT_TRIES n b) 0

/-- CAN_TXCTL_REQ: a write of CANn.TXCTL.REQ (R383). -/
def canTxReq (n bits : Nat) (s : State) : State := (List.range 3).foldl (fun s b => if testB bits b then txReq n b s else s) s

/-- One bit of CANn.TXCTL.CANCEL (R386). -/
def txCancel (n b : Nat) (s : State) : State :=
  if s.txb n b = 1 then s.wr (R.CANn_TXBb_STAT_STATE n b) 4
  else if s.txb n b = 2 then s.wr (R.CANn_STAT_CANREF n) 1
  else s

/-- CAN_TXCTL_CANCEL: a write of CANn.TXCTL.CANCEL (R386). -/
def canTxCancel (n bits : Nat) (s : State) : State :=
  (List.range 3).foldl (fun s b => if testB bits b then txCancel n b s else s) s

/-- The order of arbitration of a buffer's frame, the lowest winning, then the buffer's number (R384). -/
def State.txKey (s : State) (n b : Nat) : Nat :=
  let id := s.rd (R.CANn_TXBb_ID_ID n b)
  let x := s.rd (R.CANn_TXBb_ID_XTD n b)
  (((id / 2 ^ 18 * 2 + x) * 2 ^ 18 + (if x = 1 then id % 2 ^ 18 else 0)) * 2 + s.rd (R.CANn_TXBb_ID_RTR n b)) * 4 + b

/-- The buffer that the controller selects at a start point (R384). -/
def State.txSelect (s : State) (n : Nat) : Option Nat :=
  let p := (List.range 3).filter (fun b => s.txb n b == 1)
  if s.on (R.CANn_CFG_TXORD n) then p.head?
  else p.foldl (fun best b => match best with
    | none => some b
    | some a => if s.txKey n b < s.txKey n a then some b else some a) none

/-- What a buffer puts on the bus: identifier, format with BRS only in an FD frame, data (R374, R383). -/
def txImage (s : State) (n b : Nat) : List Byte :=
  let fdf := s.on (R.CANn_TXBb_CTL_FDF n b)
  let dlc := s.rd (R.CANn_TXBb_CTL_DLC n b)
  let brs := fdf && s.on (R.CANn_TXBb_CTL_BRS n b)
  let esi := fdf && s.rd (R.CANn_ERR_STATE n) == 1
  bytesLE 4 (s.word (R.CANn_TXBb_ID_XTD n b).addr).toNat ++ bytesLE 1 (dlc + 16 * b2n fdf + 32 * b2n brs + 64 * b2n esi)
    ++ (if s.on (R.CANn_TXBb_ID_RTR n b) then []
        else ((List.range 16).flatMap (fun w => bytesLE 4 (s.rd (R.CANn_TXBb_Dw n b w)))).take (canBytes fdf dlc))

/-- CAN_TX_START: at a start point one PENDING buffer is selected and its frame begins (R384); in a frame with BRS the delay is
measured, in mtq (R378). -/
def canTxStart (n tdcv : Nat) (s : State) : State :=
  if s.canMode n ≠ 1 ∨ !s.canOnBus n ∨ (s.canActive n).isSome then s
  else match s.txSelect n with
    | none => s
    | some b =>
      let s := s.wr (R.CANn_TXBb_STAT_STATE n b) 2
      let s := s.wr (R.CANn_TXBb_STAT_TRIES n b) (max 1 (s.rd (R.CANn_TXBb_STAT_TRIES n b)))
      let s : State := { s with out.can := s.out.can ++ [(n, txImage s n b)] }
      let brs := s.on (R.CANn_TXBb_CTL_FDF n b) && s.on (R.CANn_TXBb_CTL_BRS n b)
      let s := if brs then s.wr (R.CANn_TDC_TDCV n) (min 127 tdcv) else s
      let bad := brs && s.on (R.CANn_TDC_EN n) && decide (127 < tdcv + s.rd (R.CANn_TDC_TDCO n))
      let s := s.setCan n (fun c => { c with tdcBad := bad })
      if bad then s.wr (R.CANn_STAT_TDCERR n) 1 else s

/-- A MODE 0 that waited for the end of a frame takes effect (R376). -/
def canInitIfDue (n : Nat) (s : State) : State :=
  if (s.canc n).initPend then
    canRefresh n ((s.wr (R.CANn_CTL_MODE n) 0).setCan n (fun c => { c with initPend := false, integrating := false }))
  else s

/-- CAN_TX_END: the frame of the ACTIVE buffer ends (R385); its start-of-frame edge was `sofAge` cyc ago (R387). A frame whose secondary
sample point is out of reach ends with a bit error (R378); one that MODE 0 waits for stays PENDING where it does not succeed (R392). -/
def canTxEnd (n : Nat) (how : CanEnd) (sofAge : Nat) (s : State) : State :=
  match s.canActive n with
  | none => s
  | some b =>
    let again (s : State) : State :=
      if s.on (R.CANn_CFG_DAR n) ∧ !(s.canc n).initPend then txFail n b s else s.wr (R.CANn_TXBb_STAT_STATE n b) 1
    let s := match (if (s.canc n).tdcBad ∧ how = .sent then CanEnd.error else how) with
      | .sent =>
        let s := ((s.wr (R.CANn_TXBb_STAT_STATE n b) 3).wr (R.CANn_TXBb_TS n b) (s.canTs sofAge)).wrBit (R.CANn_IRQ_TXDONE n) b true
        canRefresh n (s.setCan n (fun c => { c with tec := c.tec - 1 }))
      | .arbitrationLost => again s
      | .error => again (if s.on (R.CANn_CFG_DAR n) then s else s.inc (R.CANn_TXBb_STAT_TRIES n b))
    canInitIfDue n s

/-! ### Errors (R378, R389–R391) -/

/-- Bus-off: every PENDING and ACTIVE buffer fails; recovery starts at once with ABOR (R390). -/
def canBusOff (n : Nat) (s : State) : State :=
  let s := (List.range 3).foldl (fun s b => if s.txb n b = 1 ∨ s.txb n b = 2 then txFail n b s else s) s
  let s := s.setCan n (fun c => { c with busOff := true, recovering := s.on (R.CANn_CFG_ABOR n), integrating := false })
  canInitIfDue n (((canRefresh n s).inc (R.CANn_BOCNT n)).event Ev.CAN_BUSOFF (6 + n))

/-- The last error code, of the data phase or not (R389). -/
def canCode (n code : Nat) (dataPhase : Bool) (s : State) : State :=
  s.wr (if dataPhase then R.CANn_ERR_DLEC n else R.CANn_ERR_LEC n) code

/-- The counters after an error (R389), frozen in LISTEN (R376). -/
def canCount (n : Nat) (kind : CanErr) (s : State) : State :=
  if s.canMode n = 2 then s
  else
    let s := s.setCan n (fun c => match kind with
      | .receive => { c with rec_ := min 255 (c.rec_ + 1) }
      | .receiveEight => { c with rec_ := min 255 (c.rec_ + 8) }
      | .transmit => { c with tec := c.tec + 8 }
      | .uncounted => c
      | .resRecessive => { c with rec_ := min 255 (c.rec_ + 1) })
    if 255 < (s.canc n).tec ∧ !(s.canc n).busOff then canBusOff n s else canRefresh n s

/-- CAN_ERROR: an error on the bus, with its code and phase (R389), or a recessive res bit (R391). -/
def canError (n : Nat) (kind : CanErr) (code : Nat) (dataPhase : Bool) (s : State) : State :=
  if !s.canOnBus n then s
  else if kind = .resRecessive then
    if s.on (R.CANn_CFG_RESACT n) then canCount n kind (canCode n 2 dataPhase s)
    else
      let s := (s.wr (R.CANn_STAT_PXE n) 1).event Ev.CAN_PXE (6 + n)
      canRefresh n (s.setCan n (fun c => { c with integrating := true }))
  else canCount n kind (canCode n code dataPhase s)

/-- A write of the configuration registers, which INIT alone takes (R377). -/
def canConfigWrite (n a : Nat) (v : Word) (s : State) : State :=
  if s.canMode n ≠ 0 then s.wr (R.CANn_STAT_CFGERR n) 1
  else
    let m := accessMask a .rw
    s.setWord a ((s.word a &&& ~~~m) ||| (v &&& m))

/-- A write into a transmit buffer, which is ignored while it is PENDING or ACTIVE (R383). -/
def canBufferWrite (n b a : Nat) (v : Word) (s : State) : State :=
  if s.txb n b = 1 ∨ s.txb n b = 2 then s.wr (R.CANn_STAT_CFGERR n) 1
  else
    let m := accessMask a .rw
    s.setWord a ((s.word a &&& ~~~m) ||| (v &&& m))

end Sys2Proof.Machine
end

