-- ==== Sys2Proof/Machine/Views.lean ====
section
/-! DEFINITION. What a read of a register word or of a byte on the internal bus gives, without the effects of the read (00 R14, R16;
01 R33, R42, R48). -/

namespace Sys2Proof.Machine

/-- QM.Qnn_STAT of a queue (01 R42, R43). -/
def State.qStat (s : State) (n : Nat) : Word :=
  BitVec.ofNat 32 ((qPolicy n).code * 2 ^ 30 + qDepth n * 2 ^ 18 + s.qFill n * 2 ^ 9 + (qDepth n - s.qFill n))

/-- HS.IRQ.CPL: bit c while FILL of Q(c + 4) is at or above WMARK with WM_IE = 1 (12 R416). -/
def State.cplIrq (s : State) : Nat :=
  (List.range 4).foldl (fun n c =>
    n + (if s.on (R.QM_Qnn_CTL_WM_IE (c + 4)) ∧ s.qWmark (c + 4) ≤ s.qFill (c + 4) then 2 ^ c else 0)) 0

/-- HS.IRQ as a whole. -/
def State.hsIrq (s : State) : Word := (s.word R.HS_IRQ_CPL.addr &&& ~~~0xF#32) ||| BitVec.ofNat 32 s.cplIrq

/-- HINT_N is low (12 R416). -/
def State.hint (s : State) : Bool := s.hsIrq &&& s.word R.HS_IE.addr != 0

/-- The word at a register's address as a read returns it: words that show a live quantity are computed, WO fields read 0. -/
def State.peek (s : State) (a : Nat) : Word :=
  let w :=
    if a = R.TB_CNT_LO.addr then BitVec.ofNat 32 s.time.tb
    else if a = R.TB_PHASE.addr then BitVec.ofNat 32 s.phase
    else if a = R.TB_LAST_LO.addr then BitVec.ofNat 32 s.time.tbLast
    else if 0x40020000 ≤ a ∧ a < 0x40020400 ∧ a % 16 = 4 then s.qStat ((a - 0x40020000) / 16)
    else if a = (R.CANn_TS 0).addr ∨ a = (R.CANn_TS 1).addr then BitVec.ofNat 32 (s.canTs 0)
    else if a = R.FB_POS_LO.addr then BitVec.ofNat 32 s.fb.pos
    else if a = R.FB_HOFS_LO.addr then BitVec.ofNat 32 (wrapTo 48 s.fb.hofs)
    else if a = R.NV_LOGSEQ_LO.addr then BitVec.ofNat 32 s.nv.logSeq
    else if a = R.NV_LOGOLD_LO.addr then BitVec.ofNat 32 s.logOld
    else if a = R.HS_IRQ_CPL.addr then s.hsIrq
    else if 0x4013011C ≤ a ∧ a < 0x4013051C ∧ (a - 0x4013011C) % 0x40 = 0 then
      BitVec.ofNat 32 ((s.te.ring.toList[(a - 0x4013011C) / 0x40]?).getD {}).trigTb
    else s.word a
  w &&& ~~~accessMask a .wo

/-- Where the firmware image of the active slot stands in the NOR (09 R339, 14 R453). -/
def State.slotBase (s : State) (active : Bool) : Nat :=
  if (s.nv.journal.active == 0) == active then 0x00200000 else 0x01200000

/-- A byte of on-die SRAM, of the firmware window or of the MP boot ROM (01 R48–R50): the CRC unit and the firmware read it without
effects. The ROM's contents are the die's (assumption log 5). -/
def State.busByte (s : State) (a : Nat) : Byte :=
  if a < 0x10000 then Config.romByte a
  else if 0x20000000 ≤ a ∧ a < 0x21000000 then s.norByte (s.slotBase true + (a - 0x20000000))
  else s.memByte a

/-- A range lies in on-die SRAM or in the firmware window. -/
def busRange (a n : Nat) : Bool :=
  decide (0x10000000 ≤ a ∧ a + n ≤ 0x10600000) || decide (0x20000000 ≤ a ∧ a + n ≤ 0x21000000)

end Sys2Proof.Machine
end

