-- ==== Sys2Proof/Machine/Bist.lean ====
section
/-! DEFINITION. Self-test and check values (15 R468–R477, R492, R493): BIST jobs and their consequences, the CRC unit. -/

namespace Sys2Proof.Machine

/-! ### BIST jobs (R468–R471) -/

/-- A trace ring changed. -/
def State.setRing (s : State) (r : Nat) (f : TeRing → TeRing) : State :=
  { s with te := { s.te with ring := s.te.ring.mapFinIdx (fun i x _ => if i = r then f x else x) } }

/-- A trace ring. -/
def State.ring (s : State) (r : Nat) : TeRing := (s.te.ring.toList[r]?).getD {}

/-- A ring armed or triggered returns to CONFIGURED, its samples discarded (R484). -/
def ringDisarm (r : Nat) (s : State) : State :=
  if s.bit R.TE_STAT_ARMED r ∨ s.bit R.TE_STAT_TRIGGERED r then
    ((s.wrBit R.TE_STAT_ARMED r false).wrBit R.TE_STAT_TRIGGERED r false).setRing r
      (fun x => { x with samples := [], asked := false, last := none, count := 0, taken := 0 })
  else s

/-- The slices of a job. -/
def bistSlices (j : BistJob) : List SliceJob :=
  if j.kind = 1 then [{ handle := 0x20000, len := 800, left := 64, lane := some j.lane }]
  else if j.kind = 2 then [{ handle := 0x20000, len := 760, left := (j.len + 255) / 256 }]
  else []

/-- The controller takes the next job of Q58 (R468). A full memory job disarms every ring (R491). -/
def bistTake (s : State) : State :=
  match s.bi.run, s.bi.jobs with
  | none, j :: rest =>
    if s.bi.held.isSome then s
    else
    let s := (s.qPop 58).2
    let s : State := { s with
      bi := { s.bi with run := some j, jobs := rest, abort := false, slices := 0 }
      ln.jobs := s.ln.jobs ++ bistSlices j }
    let s := ((s.wr R.BI_STAT_JOB j.kind).wr R.BI_STAT_LANE j.lane).wr R.BI_STAT_BUSY 1
    if j.kind = 3 then (List.range 16).foldl (fun s r => ringDisarm r s) s else s
  | _, _ => s

/-- Jobs go onto Q58 in order, as far as it has credits (01 R37); the items' bytes are the model's (assumption log 9). -/
def bistPush (s : State) : State :=
  bistTake (s.bi.wait.foldl (fun s j =>
    if 0 < s.qCredit 58 then
      { s.qPush 58 (padTo 32 (bytesLE 4 j.id)) with
        bi := { s.bi with wait := s.bi.wait.filter (fun x => x.id != j.id), jobs := s.bi.jobs ++ [j] } }
    else s) s)

/-- A job for Q58. -/
def bistQueue (j : BistJob) (s : State) : State := bistPush { s with bi.wait := s.bi.wait ++ [j] }

/-- A result goes onto Q59, or is held until it has a credit; the controller takes no other job until then (01 R37). -/
def bistPost (e : BistEnd) (s : State) : State :=
  if s.qCredit 59 = 0 then { s with bi.held := some e }
  else bistTake { s.qPush 59 (padTo 32 (bytesLE 4 e.id ++ bytesLE 2 e.status)) with bi := { s.bi with held := none, done := s.bi.done ++ [e] } }

/-- The running job ends: its result on Q59, its slices dropped (R469, R472). -/
def bistEnd (status addr bit channels : Nat) (s : State) : State :=
  match s.bi.run with
  | none => s
  | some j =>
    let slice := match s.ln.slice with
      | some (.job 0x20000, _, _, _) => none
      | x => x
    let e : BistEnd := { id := j.id, status := status, addr := addr, bit := bit, channels := channels, slices := s.bi.slices }
    let s : State := { s with
      bi := { s.bi with run := none, abort := false }
      ln := { s.ln with slice := slice, jobs := s.ln.jobs.filter (fun x => x.handle != 0x20000) } }
    bistPost e ((s.wr R.BI_STAT_JOB 0).wr R.BI_STAT_BUSY 0)

/-- A slice of the running job is in progress. -/
def State.bistSlicing (s : State) : Bool :=
  match s.ln.slice with
  | some (.job 0x20000, _, _, _) => true
  | _ => false

/-- BI_CTL_ABORT: the job stops at its next step (R492); a gate test runs to its end (13 R439). -/
def bistAbort (s : State) : State :=
  match s.bi.run with
  | none => s
  | some j =>
    if j.kind = 4 then s
    else if s.bistSlicing then { s with
      bi.abort := true
      ln.jobs := s.ln.jobs.map (fun x => if x.handle = 0x20000 then { x with left := min x.left 1 } else x) }
    else bistEnd 0x1B 0 0x3FF 0 s

/-- A job is given up: the running one as by BI.CTL.ABORT, a queued one leaves Q58 (13 R439). -/
def bistDrop (id : Nat) (s : State) : State :=
  if s.bi.run.any (fun j => j.id == id) then bistAbort s
  else
    let q := s.queue 58
    { s.setQueue 58 { q with items := q.items.filter (fun i => fieldLE i 0 4 != id) } with
      bi := { s.bi with wait := s.bi.wait.filter (fun j => j.id != id), jobs := s.bi.jobs.filter (fun j => j.id != id) } }

/-- A lane test of a module that becomes degraded ends with NOT_VALID (R469); a continuous job ends with ABORTED at a rise of GATE_EN
(R491); an abort asked for takes effect between slices. -/
def bistStopIfDue (s : State) : State :=
  match s.bi.run with
  | none => s
  | some j =>
    if j.kind = 1 ∧ s.on R.LN_STAT_DEGRADED then bistEnd 4 0 0x3FF 0 s
    else if 3 ≤ j.kind ∧ (List.range 7).any (fun c => (s.gch c).drive) then bistEnd 0x1A 0 0x3FF 0 s
    else if s.bi.abort ∧ !s.bistSlicing then bistEnd 0x1B 0 0x3FF 0 s
    else s

/-- BI.FAIL and BI.FAILADDR take a failure, which is logged (R472, R473). -/
def bistReport (kind addr bit : Nat) (s : State) : State :=
  let s := ((s.wr R.BI_FAIL_KIND kind).wr R.BI_FAIL_BIT bit).wr R.BI_FAILADDR addr
  s.mpEvent Ev.BIST_FAIL (bytesLE 4 (s.word R.BI_FAIL_KIND.addr).toNat ++ bytesLE 4 (s.rd R.BI_FAILADDR))

/-- The tables that have a word in the 256-B block of a byte of lane data (R473; 01 R544). -/
def tablesAt (a : Nat) : List Nat :=
  if 0x10120000 ≤ a ∧ a < 0x10140000 then
    let lo := a % 0x10000 / 256 * 256
    (List.range 10).filter (fun t =>
      let p := tblPlace t
      decide (p.1 < lo + 256 ∧ lo < p.1 + 4 * p.2))
  else []

/-- The consequences of a failure (R473), where it fits the job. -/
def bistFail (j : BistJob) (f : BistFail) (s : State) : State :=
  match f with
  | .lane unit index bit =>
    if j.kind ≠ 1 then s
    else
      let a := unit.val * 2 ^ 24 + index.toNat
      let s := bistReport 1 a bit.toNat s
      bistEnd 0x1E a bit.toNat 0 { s with ln.bistFailed := withBitOn s.ln.bistFailed j.lane }
  | .sram addr bit =>
    if j.kind = 2 ∨ j.kind = 3 then
      let s := bistReport 2 addr.toNat bit.val s
      let s := (tablesAt addr.toNat).foldl (fun s t => mpCause 3 t 0 s) s
      bistEnd 0x1E addr.toNat bit.val 0 s
    else s
  | .granary off bit =>
    if j.kind = 3 then
      let s := bistReport 3 off.toNat bit.val s
      bistEnd 0x1E off.toNat bit.val 0 { s with te := { s.te with failed := s.te.failed ++ [off.toNat / 2 ^ 26] } }
    else s
  | .gate ch item =>
    if j.kind = 4 then
      let a := ch.val * 2 ^ 24 + item.val
      bistEnd 0x1E a 0xFF (2 ^ ch.val) (bistReport 4 a 0xFF s)
    else s
where
  /-- A bit of a number set. -/
  withBitOn (w n : Nat) : Nat := if testB w n then w else w + 2 ^ n

/-- BIST_JOB_RESULT: the running job ends, with its first failure or none (R472); a job in slices passes once they have all run. -/
def bistJobResult (fail : Option BistFail) (s : State) : State :=
  match s.bi.run with
  | none => bistTake s
  | some j =>
    if s.bi.abort then (if s.bistSlicing then s else bistEnd 0x1B 0 0x3FF 0 s)
    else match fail with
      | some f => bistFail j f s
      | none => if s.ln.jobs.any (fun x => x.handle == 0x20000) || s.bistSlicing then s else bistEnd 0 0 0x3FF 0 s

/-! ### CRC unit (R474–R477) -/

/-- A running CRC value taken over bytes, by the polynomial's code (R474). -/
def ccRun (poly v : Nat) (bs : List Byte) : Nat :=
  match poly with
  | 0 => bs.foldl (crcByteR 0xEDB88320) v
  | 1 => crc32cRun v bs
  | 2 => bs.foldl (crcByteN 16 0x1021) (v % 2 ^ 16)
  | _ => bs.foldl (crcByteN 8 0x2F) (v % 2 ^ 8)

/-- The initial value and the final XOR of a polynomial (R474). -/
def ccInit : Nat → Nat
  | 0 | 1 => 0xFFFFFFFF
  | 2 => 0xFFFF
  | _ => 0xFF
def ccFinal (poly v : Nat) : Nat :=
  match poly with
  | 0 | 1 => Nat.xor v 0xFFFFFFFF
  | 2 => v
  | _ => Nat.xor v 0xFF

/-- The scan of a channel. -/
def State.ccScan (s : State) (k : Nat) : Option CcScan := (s.cc.scan.toList[k]?).getD none

/-- The scan of a channel replaced, and its BUSY bit. -/
def State.setScan (s : State) (k : Nat) (x : Option CcScan) : State :=
  { s with cc := { s.cc with scan := s.cc.scan.mapFinIdx (fun i y _ => if i = k then x else y) } }.wrBit R.CC_STAT_BUSY k x.isSome

/-- A refused write or GO (R493). -/
def ccRefuse (s : State) : State := s.wr R.CC_STAT_CFGERR 1

/-- A GO on a channel with the values in its registers; none where it is refused (R475, R476). -/
def ccStart (k : Nat) (job : Option Nat) (s : State) : Option State :=
  let start := s.rd (R.CC_CHk_START k)
  let len := s.rd (R.CC_CHk_LEN k)
  let poly := s.rd (R.CC_CHk_CTL_POLY k)
  let context := s.on R.CC_CFG_ARR
  if (s.ccScan k).isSome ∨ (context ∧ k ≠ 0) ∨ len = 0 ∨ 0x1000000 < len ∨ !busRange start len then none
  else
    let init := if context ∨ s.on (R.CC_CHk_CTL_CONT k) then s.rd (R.CC_CHk_VAL k) else ccInit poly
    some (s.setScan k (some { start := start, len := len, poly := poly, cmp := s.on (R.CC_CHk_CTL_CMP k), init := init, job := job }))

/-- CC_CHK_CTL_GO: a write of CC.CHk_CTL with GO = 1 (R476). -/
def ccGo (k : Nat) (s : State) : State := (ccStart k none s).getD (ccRefuse s)

/-- CC_CHK_DATA: 4 bytes fed to an idle channel (R476); in CONTEXT to CH0 alone (R475). -/
def ccData (k : Nat) (w : Word) (s : State) : State :=
  if (s.ccScan k).isSome ∨ (s.on R.CC_CFG_ARR ∧ k ≠ 0) then ccRefuse s
  else
    let poly := s.rd (R.CC_CHk_CTL_POLY k)
    let v := ccRun poly (s.rd (R.CC_CHk_VAL k)) (bytesLE 4 w.toNat)
    (s.wr (R.CC_CHk_VAL k) v).wr (R.CC_CHk_RES k) (ccFinal poly v)

/-- The running value of a channel takes the initial value of a polynomial written to it, in MULTI (R475, R493). -/
def ccValWrite (k : Nat) (w : Word) (s : State) : State :=
  if s.on R.CC_CFG_ARR ∧ k = 0 ∧ (s.ccScan 0).isNone then s.wr (R.CC_CHk_VAL 0) w.toNat else ccRefuse s

/-- A write of CC.CFG: refused while a channel is busy (R475). -/
def ccCfgWrite (w : Word) (s : State) : State :=
  if s.rd R.CC_STAT_BUSY ≠ 0 then ccRefuse s else s.setWord R.CC_CFG_ARR.addr (w &&& 1)

/-- The result of a job of Q60 goes onto Q61 with RES, CHk_DONE and the bits of its channel (R477); the channel stays busy until it has a
credit (01 R37). The item's layout is the model's (assumption log 9). -/
def ccPost (k : Nat) (s : State) : State :=
  match s.ccScan k with
  | none => s
  | some x =>
    match x.job with
    | none => if x.ended then s.setScan k none else s
    | some j =>
      if !x.ended ∨ s.qCredit 61 = 0 then s
      else
        let bits := b2n (s.bit R.CC_IRQ_DONE k) + 2 * b2n (s.bit R.CC_IRQ_MISM k) + 4 * b2n (s.bit R.CC_STAT_PERR k)
        let res := s.rd (R.CC_CHk_RES k)
        let st := if s.rd (R.CC_CHk_DONE k) < x.len then 0x16 else if x.cmp ∧ res ≠ s.rd (R.CC_CHk_EXP k) then 0x18 else 0
        let s := s.setScan k none
        { s.qPush 61 (padTo 32 (bytesLE 4 j ++ bytesLE 4 res ++ bytesLE 4 (s.rd (R.CC_CHk_DONE k)) ++ bytesLE 1 bits)) with
          cc := { s.cc with done := s.cc.done ++ [(j, st, res)] } }

/-- CRC_SCAN_END: the scan of a channel ends (R477), at the byte whose word has a parity error where there is one (R476). -/
def ccScanEnd (k : Nat) (perr : Option (BitVec 24)) (s : State) : State :=
  match s.ccScan k with
  | none => s
  | some x =>
    if x.ended then ccPost k s
    else
    let bad := match perr with | some o => decide (o.toNat < x.len) | none => false
    let n := match perr with | some o => min o.toNat x.len | none => x.len
    let v := ccRun x.poly x.init ((List.range n).map (fun i => s.busByte (x.start + i)))
    let res := ccFinal x.poly v
    let mism := !bad && x.cmp && res != s.rd (R.CC_CHk_EXP k)
    let s := ((s.setScan k (some { x with ended := true })).wr (R.CC_CHk_VAL k) v).wr (R.CC_CHk_RES k) res
    let s := (s.wr (R.CC_CHk_DONE k) n).wrBit R.CC_IRQ_DONE k true
    let s := if bad then s.wrBit R.CC_STAT_PERR k true else s
    ccPost k (if mism then s.wrBit R.CC_IRQ_MISM k true else s)

/-- A scan that reads the firmware window ends at a firmware swap; its command completes with ABORTED (R491). -/
def ccSwapAbort (s : State) : State :=
  (List.range 4).foldl (fun s k =>
    match s.ccScan k with
    | some x =>
      if 0x20000000 ≤ x.start ∧ !x.ended then
        let s := s.setScan k none
        match x.job with
        | some j => { s with cc := { s.cc with done := s.cc.done ++ [(j, 0x1A, 0)] } }
        | none => s
      else s
    | none => s) s

/-- A job of Q60 for a free channel (R477): CTL, START, LEN and EXP go through Q60 and are taken over, the scan started; none where no
channel is free or Q60 has no credit (01 R37). -/
def ccJob (id poly start len exp : Nat) (s : State) : Option State :=
  if s.qCredit 60 = 0 then none
  else match (List.range (if s.on R.CC_CFG_ARR then 1 else 4)).find? (fun k => (s.ccScan k).isNone) with
  | none => none
  | some k =>
    let item := bytesLE 1 k ++ bytesLE 4 ((R.CC_CHk_CTL_GO k).set 1 ((R.CC_CHk_CTL_CMP k).set 1 (BitVec.ofNat 32 poly))).toNat
      ++ bytesLE 4 start ++ bytesLE 4 len ++ bytesLE 4 exp
    let s := ((s.qPush 60 (padTo 32 item)).qPop 60).2
    let s := (s.wr (R.CC_CHk_CTL_POLY k) poly).wr (R.CC_CHk_CTL_CMP k) 1
    let s := ((s.wr (R.CC_CHk_CTL_CONT k) 0).wr (R.CC_CHk_START k) start).wr (R.CC_CHk_LEN k) len
    let s := if s.on R.CC_CFG_ARR then s.wr (R.CC_CHk_VAL k) (ccInit poly) else s
    ccStart k (some id) (s.wr (R.CC_CHk_EXP k) exp)

end Sys2Proof.Machine
end

