-- ==== Sys2Proof/Machine/Host.lean ====
section
/-! DEFINITION. Host interface (12): queues and doorbells, completion records, handles, the MP out of service. -/

namespace Sys2Proof.Machine

/-! ### Window (R403, R405) -/

/-- Window offsets of a command queue's and of a completion queue's slots. -/
def cmdBase : Nat → Nat
  | 0 => 0x1000
  | 1 => 0x1400
  | 2 => 0x2400
  | _ => 0x3400
def cplBase : Nat → Nat
  | 0 => 0x3800
  | 1 => 0x3A00
  | 2 => 0x4200
  | _ => 0x4A00

/-- The address on the internal bus of a window offset (R403). -/
def winAddr (off : Nat) : Nat := 0x10000000 + off

/-- The address of the slot of a count. -/
def cmdSlot (c n : Nat) : Nat := winAddr (cmdBase c + 64 * (n % qDepth c))
def cplSlot (c n : Nat) : Nat := winAddr (cplBase c + 32 * (n % qDepth (c + 4)))

/-- The slots of a command queue that are occupied (R404). -/
def State.cmdOccupied (s : State) (c : Nat) : List Nat :=
  (List.range (s.qFill c)).map (fun i => (s.rd (R.HS_CQc_HEAD c) + i) % 2 ^ 16 % qDepth c)

/-- The MP is in service. -/
def State.mpServes (s : State) : Bool := s.rd R.HS_STAT_MPSTATE == 0

/-! ### Doorbells (R405, R406) -/

/-- A write of HS.CQc_TAIL (R406): nothing, refused as a whole, or TAIL advances and the MP is to be signalled. With the result code of
R401. -/
def doorbellWrite (c tail : Nat) (s : State) : Nat × State :=
  let n := wrapTo 16 ((tail : Int) - s.rd (R.HS_CQc_TAIL c))
  if n = 0 then (0, s)
  else if s.qCredit c < n then
    let s := (s.wrBit R.HS_IRQ_REFUSED c true).add (R.QM_Qnn_DROP_COUNT c) n
    (6, s.wr (R.QM_Qnn_FLAG_DROPPED c) 1)
  else
    let empty := s.qFill c == 0
    let s := (s.wr (R.HS_CQc_TAIL c) tail).qIrq c
    (0, { s with hs := { s.hs with
      bells := s.hs.bells ++ [(c, tail % 2 ^ 16, s.time.tb + 40)]
      q2At := if c = 2 ∧ empty then s.time.tb else s.hs.q2At } })

/-- DOORBELL: a write of HS.CQc_TAIL. -/
def doorbell (c tail : Nat) (s : State) : State := (doorbellWrite c tail s).2

/-- DOORBELL_SIGNAL: 40 cyc after an accepted doorbell, within this tick, the MP knows its descriptors (R406). -/
def doorbellSignal (s : State) : State :=
  match s.hs.bells with
  | [] => s
  | (c, tail, due) :: rest =>
    if s.time.tbLast + s.period ≤ due then s
    else { s with
      time := { s.time with tb := max s.time.tb due }
      hs := { s.hs with bells := rest, seen := setAt4 s.hs.seen c tail } }
where
  /-- An entry of the TAILs known. -/
  setAt4 (v : Vector Nat 4) (c x : Nat) : Vector Nat 4 := v.mapFinIdx (fun i y _ => if i = c then x else y)

/-! ### Handles (R412–R414) -/

/-- The handle-table entry of a slot, and the state with it written. -/
def State.entryOf (s : State) (slot : Nat) : Nat := ofBytesLE (s.memBytes (winAddr (0x5000 + 2 * slot)) 2)
def State.setEntry (s : State) (slot e : Nat) : State := s.setMem (winAddr (0x5000 + 2 * slot)) (bytesLE 2 e)

/-- The state of a handle-table entry: 0 free, 1 outstanding, 2 FINAL written. -/
def entryState (e : Nat) : Nat := e / 2 ^ 10 % 4

/-- A handle names a slot in use with its present generation (R413). -/
def State.handleOk (s : State) (h : Nat) : Bool :=
  let e := s.entryOf (h % 4096)
  e / 4096 == h / 4096 && entryState e != 0 && h / 4096 != 0

/-- A handle issued on the slot that has been free longest, with its next generation (R412). -/
def issueHandle (queue family : Nat) (s : State) : Option (Nat × State) :=
  let take (slot : Nat) (s : State) : Nat × State :=
    let gen := s.entryOf slot / 4096 % 15 + 1
    (gen * 4096 + slot, s.setEntry slot (gen * 4096 + 1024 + queue % 4 * 256 + family % 256))
  if s.hs.fresh < 4096 then some (take s.hs.fresh { s with hs.fresh := s.hs.fresh + 1 })
  else match s.hs.freed with
    | [] => none
    | slot :: rest => some (take slot { s with hs.freed := rest })

/-- A slot is free again (R413). -/
def freeHandle (slot : Nat) (s : State) : State :=
  { s.setEntry slot (s.entryOf slot - 1024 * entryState (s.entryOf slot)) with hs.freed := s.hs.freed ++ [slot] }

/-! ### Records (R409–R411) -/

/-- The bytes of a record as written in this tick. -/
def Record.bytes (r : Record) (tick : Nat) : List Byte :=
  bytesLE 2 r.handle ++ bytesLE 2 r.status ++ bytesLE 2 r.ctag ++ bytesLE 2 r.opcode ++ bytesLE 1 r.kind ++ bytesLE 1 r.queue
    ++ bytesLE 2 r.dseq ++ bytesLE 4 tick ++ padTo 16 r.result

/-- A record written into its completion queue (R409, R416). -/
def writeRecord (r : Record) (s : State) : State :=
  let tail := s.rd (R.HS_CPLc_TAIL r.queue)
  let b := r.bytes s.tickno
  let s := (s.setMem (cplSlot r.queue tail) b).wr (R.HS_CPLc_TAIL r.queue) (tail + 1)
  let s := s.qIrq (r.queue + 4)
  let s := if r.noirq then s else s.wr R.HS_IRQ_ATTN 1
  if r.kind = 2 ∧ r.handle ≠ 0 then
    let slot := r.handle % 4096
    let e := s.entryOf slot
    let s := s.setEntry slot (e - 1024 * entryState e + 2048)
    { s with hs := { s.hs with finals := smapSet (fun _ => []) s.hs.finals slot b } }
  else s

/-- A record goes out where its queue has a credit and no record of that queue is held; otherwise it is held (R411). -/
def putRecord (r : Record) (s : State) : State :=
  if 0 < s.qCredit (r.queue + 4) ∧ !s.hs.held.any (fun x => x.queue == r.queue) then writeRecord r s
  else { s with hs := { s.hs with held := s.hs.held ++ [r] } }

/-- FINAL_RECORD_RELEASE: held records go out in order as far as credits allow (R411). -/
def recordRelease (s : State) : State :=
  if s.mpServes then s.hs.held.foldl (fun s r => putRecord r s) { s with hs := { s.hs with held := [] } } else s

/-- CPL_HEAD_WRITE: records are consumed; the handle slots of FINAL records become free (R411, R413). -/
def cplHeadWrite (c head : Nat) (s : State) : State :=
  let old := s.rd (R.HS_CPLc_HEAD c)
  let n := wrapTo 16 ((head : Int) - old)
  if s.qFill (c + 4) < n then s.wr R.HS_STAT_PTRERR 1
  else
    let done := (List.range n).map (fun i => s.memBytes (cplSlot c ((old + i) % 2 ^ 16)) 32)
    let s := (s.wr (R.HS_CPLc_HEAD c) head).qPopped (c + 4) n
    done.foldl (fun s b =>
      let h := fieldLE b 0 2
      if fieldLE b 8 1 = 2 ∧ h ≠ 0 ∧ entryState (s.entryOf (h % 4096)) = 2 then freeHandle (h % 4096) s else s) s

/-! ### Works -/

/-- A work completes: its FINAL record (R410). -/
def finish (w : Work) (status : Nat) (result : List Byte) (s : State) : State :=
  let r : Record := {
    handle := w.handle
    status := status
    ctag := w.ctag
    opcode := w.opcode
    kind := 2
    queue := w.queue
    dseq := w.dseq
    result := result
    noirq := w.noirq }
  putRecord r { s with hs := { s.hs with works := s.hs.works.filter (fun x => x.handle != w.handle) } }

/-- A work changed. -/
def setWork (w : Work) (k : WorkKind) (s : State) : State :=
  { s with hs := { s.hs with works := s.hs.works.map (fun x => if x.handle = w.handle then { x with kind := k } else x) } }

/-- Some outstanding work is of a kind. -/
def State.anyWork (s : State) (p : WorkKind → Bool) : Bool := s.hs.works.any (fun w => p w.kind)

/-! ### Popping (R407, R415) -/

/-- The head descriptor of a queue as the slot holds it. -/
def State.headBytes (s : State) (c : Nat) : List Byte := s.memBytes (cmdSlot c (s.rd (R.HS_CQc_HEAD c))) 64

/-- The head of a queue may be popped: the MP knows it, its completion queue has a credit, and a fence is met (R407, R415). -/
def State.canPop (s : State) (c : Nat) : Bool :=
  s.rd (R.HS_CQc_HEAD c) != (s.hs.seen.toList[c]?).getD 0 && decide (0 < s.qCredit (c + 4))
    && (!testB (fieldLE (s.headBytes c) 2 1) 0
      || !(s.hs.works.any (fun w => w.queue == c) || s.hs.held.any (fun r => r.queue == c)))

/-- The queue served next (R407). -/
def State.nextQueue (s : State) : Option Nat :=
  let order := if s.rd (R.HS_CQc_HEAD 2) ≠ s.rd (R.HS_CQc_TAIL 2) ∧ s.hs.q2At + msCyc 100 ≤ s.time.tb then [3, 0, 2, 1] else [3, 0, 1, 2]
  order.find? s.canPop

/-- A queue's head popped: HEAD advances (R405). -/
def popHead (c : Nat) (s : State) : State :=
  let s := (s.wr (R.HS_CQc_HEAD c) (s.rd (R.HS_CQc_HEAD c) + 1)).qPopped c 1
  if c = 2 then { s with hs := { s.hs with q2At := s.time.tb } } else s

/-! ### The MP out of service (R417, R418; 01 R29) -/

/-- The MP is out of service with an MPSTATE; MPDOWN is set where it leaves service (R416). -/
def mpOut (mpstate : Nat) (s : State) : State :=
  let s' := s.wr R.HS_STAT_MPSTATE mpstate
  if s.mpServes then s'.wr R.HS_IRQ_MPDOWN 1 else s'

/-- The work behind an outstanding handle is stopped (R418): self-tests, scans, waits. -/
def stopWork (s : State) (w : Work) : State :=
  let s := setWork w .stopped s
  match w.kind with
  | .bist id _ _ => bistDrop id s
  | _ => s

/-- The MP is put into reset with a cause of SYS.RST.MPCAUSE (R418; 17 R538). -/
def mpReset (cause : Nat) (s : State) : State :=
  let s := ((mpOut 2 s).inc R.SYS_RST_MPCNT).wr R.SYS_RST_MPCAUSE cause
  let s := s.hs.works.foldl stopWork s
  { s with
    mp := {}
    nv := { s.nv with wait := [] }
    bi := { s.bi with wait := [] }
    hs := { s.hs with seen := Vector.replicate 4 0 } }

/-- MP_LOST: 100 ms without a write of SB.MPWD (01 R29), also during a swap, from the boot's end on (DEDUCED, assumption log 31); a second one within 60 s of the first raises MP_REPEAT (05 R203). -/
def mpLostIfDue (s : State) : State :=
  if s.sb.mpwdAt + msCyc 100 ≤ s.time.tb ∧ s.rd R.HS_STAT_MPSTATE ≠ 3 then
    let s := mpReset 1 ((mpwdWrite s).event Ev.MP_LOST 0)
    match s.seq.mpLostAt with
    | some (tb, tick) =>
      if s.time.tb ≤ tb + msCyc 60000 then s.cause 2 15 0 tick
      else { s with seq := { s.seq with mpLostAt := some (s.time.tb, s.tickno) } }
    | none => { s with seq := { s.seq with mpLostAt := some (s.time.tb, s.tickno) } }
  else s

end Sys2Proof.Machine
end

