-- ==== Sys2Proof/Machine/Trace.lean ====
section
/-! DEFINITION. The trace engine (15 R478–R486, R494): nodes, rings, triggers, the sample instant. -/

namespace Sys2Proof.Machine

/-! ### Nodes (R479, R480) -/

/-- The block base of a register node, by ID[15:12] (R479). -/
def nodeBase : Nat → Option Nat
  | 0x0 => some 0x40010000
  | 0x1 => some 0x40050000
  | 0x2 => some 0x40060000
  | 0x3 => some 0x40070000
  | 0x4 => some 0x40080000
  | 0x5 => some 0x40040000
  | 0x6 => some 0x40090000
  | 0x7 => some 0x400A0000
  | 0x8 => some 0x400B0000
  | 0x9 => some 0x400F0000
  | 0xA => some 0x400C0000
  | 0xB => some 0x400D0000
  | 0xC => some 0x40020000
  | _ => none

/-- A lane variable in its register format; beyond the format the word is open. -/
def varWord (frac : Nat) (x : Rat) : Word :=
  let n := toFix frac x
  if -(2 ^ 31 : Nat) ≤ n ∧ n < (2 ^ 31 : Nat) then BitVec.ofInt 32 n else Config.overflow 32 frac x

/-- The lane variables, by index (R480; formats of R106, R144; the flux in the format of LN.CF_PSI, the duties in that of u_x). -/
def State.laneVar (s : State) (i : Nat) : Option Word :=
  let c := s.cf
  let l := s.olp
  match i with
  | 0 => some (varWord 30 c.imd)
  | 1 => some (varWord 30 c.imq)
  | 2 => some (varWord 30 c.ipd)
  | 3 => some (varWord 30 c.ipq)
  | 4 => some (varWord 30 c.idRef)
  | 5 => some (varWord 30 c.iqRef)
  | 6 => some (varWord 30 c.vd)
  | 7 => some (varWord 30 c.vq)
  | 8 => some (varWord 30 c.u[0])
  | 9 => some (varWord 30 c.u[1])
  | 10 => some (varWord 30 c.u[2])
  | 11 => some (BitVec.ofInt 32 (toFix 32 c.thetaE))
  | 12 => some (varWord 16 c.omegaE)
  | 13 => some (BitVec.ofInt 32 (toFix 32 c.psir))
  | 14 => some (varWord 30 c.did)
  | 15 => some (varWord 30 c.ia)
  | 16 => some (varWord 30 c.ib)
  | 17 => some (varWord 30 c.vdc)
  | 18 => some (varWord 8 c.torque)
  | 19 => some (varWord 16 l.wref)
  | 20 => some (varWord 16 l.ramp)
  | 21 => some (varWord 8 l.xs)
  | 22 => some (varWord 8 l.u)
  | 23 => some (varWord 8 l.rate)
  | 24 => some (varWord 8 l.tRef)
  | 25 => some (varWord 8 l.fMeas)
  | 26 => some (varWord 16 l.xt)
  | 27 => some (BitVec.ofInt 32 (roundAway l.pTraj))
  | 28 => some (BitVec.ofInt 32 (clampI (-(2 ^ 31 : Nat)) ((2 ^ 31 : Nat) - 1) (roundAway l.posErr)))
  | 29 => some (varWord 16 l.yd)
  | 30 => some (varWord 16 s.ol.hvOutZ)
  | 31 => some (varWord 16 s.ol.hvOutV)
  | 32 => some (varWord 16 l.wHeave)
  | 33 => some (varWord 8 l.tcog)
  | 34 => some (varWord 30 s.lim.du[0])
  | 35 => some (varWord 30 s.lim.du[1])
  | 36 => some (varWord 30 s.lim.du[2])
  | 37 => some (varWord 30 s.lim.u0)
  | 38 => some (varWord 30 s.lim.dch)
  | 39 => some (varWord 8 s.lim.share)
  | 40 => some (varWord 8 l.cpos)
  | 41 => some (varWord 8 l.cneg)
  | 42 => some (varWord 8 l.tl)
  | 0xFFF => some 0
  | _ => none

/-- The value of a node; none where the ID is refused or names an unlisted offset (R479). -/
def State.node (s : State) (id : Nat) : Option Word :=
  if id / 0x1000 = 0xF then s.laneVar (id % 0x1000)
  else match nodeBase (id / 0x1000) with
    | some b => if isRegister (b + 4 * (id % 0x1000)) then some (s.peek (b + 4 * (id % 0x1000))) else none
    | none => none

/-- Whether a node can be sampled. -/
def nodeOk (id : Nat) : Bool :=
  if id / 0x1000 = 0xF then decide (id % 0x1000 ≤ 42) || id == 0xFFFF
  else match nodeBase (id / 0x1000) with
    | some b => isRegister (b + 4 * (id % 0x1000))
    | none => false

/-! ### Rings (R483, R484) -/

/-- Signals of a ring. -/
def State.ringSignals (s : State) (r : Nat) : Nat := if s.on (R.TE_Rr_CFG_SIG32 r) then 32 else 8

/-- The nodes of a ring, in list order. -/
def State.ringNodes (s : State) (r : Nat) : List Nat :=
  (List.range (s.ringSignals r)).map (fun i => if i % 2 = 0 then s.rd (R.TE_Rr_NODEw_A r (i / 2)) else s.rd (R.TE_Rr_NODEw_B r (i / 2)))

/-- The segments of a ring's allocation (R483, R494). -/
def State.ringAlloc (s : State) (r : Nat) : Nat × Nat :=
  let b := s.rd (R.TE_Rr_ALLOC_BASE r)
  let n := s.rd (R.TE_Rr_ALLOC_NSEG r)
  (b, if 128 < b + n then 0 else n)

/-- A segment is retired. -/
def State.segRetired (s : State) (n : Nat) : Bool := s.bit (R.TE_RETIREDw (n / 32)) (n % 32)

/-- The capacity of a ring in samples (R483). -/
def State.ringCap (s : State) (r : Nat) : Nat :=
  let a := s.ringAlloc r
  ((List.range a.2).filter (fun i => !s.segRetired (a.1 + i))).length * (if s.on (R.TE_Rr_CFG_SIG32 r) then 524288 else 2097152)

/-- A ring meets the conditions of R483. -/
def State.ringConfigured (s : State) (r : Nat) : Bool :=
  let a := s.ringAlloc r
  let cap := s.ringCap r
  (s.ring r).configDone && cap != 0 && decide (s.rd (R.TE_Rr_PRE r) < cap)
    && (List.range 16).all (fun q => q == r || !s.bit R.TE_STAT_CONFIGURED q
      || (let b := s.ringAlloc q; decide (a.1 + a.2 ≤ b.1 ∨ b.1 + b.2 ≤ a.1)))

/-- CAP and CONFIGURED of a ring follow its registers. -/
def ringRefresh (r : Nat) (s : State) : State :=
  let s := s.wr (R.TE_Rr_CAP r) (s.ringCap r)
  s.wrBit R.TE_STAT_CONFIGURED r (s.ringConfigured r)

/-- A ring is armed or triggered: its registers take no writes (R494). -/
def State.ringBusy (s : State) (r : Nat) : Bool := s.bit R.TE_STAT_ARMED r || s.bit R.TE_STAT_TRIGGERED r

/-- Failed segments become retired at an arming (R473). -/
def retireSegments (s : State) : State :=
  let f := s.te.failed
  f.foldl (fun s n => s.wrBit (R.TE_RETIREDw (n / 32)) (n % 32) true) { s with te := { s.te with failed := [] } }

/-- A ring is armed, its samples cleared (R484). -/
def ringArm (r : Nat) (s : State) : State :=
  let s := ringRefresh r (retireSegments s)
  if s.bit R.TE_STAT_CONFIGURED r then
    let s := s.setRing r (fun x => { x with samples := [], asked := false, last := none, count := 0, taken := 0 })
    ((s.wrBit R.TE_STAT_ARMED r true).wrBit R.TE_STAT_TRIGGERED r false).wrBit R.TE_STAT_STOPPED r false
  else s

/-- The rings of a mask. -/
def ringsOf (mask : Nat) : List Nat := (List.range 16).filter (testB mask)

/-- TE_CTL_ARM, TE_CTL_DISARM, TE_TRIG: writes of the trace engine's control registers (R494). -/
def teArm (mask : Nat) (s : State) : State := (ringsOf mask).foldl (fun s r => ringArm r s) s
def teDisarm (mask : Nat) (s : State) : State := (ringsOf mask).foldl (fun s r => ringDisarm r s) s
def teTrig (mask : Nat) (s : State) : State :=
  (ringsOf mask).foldl (fun s r => if s.bit R.TE_STAT_ARMED r then s.setRing r (fun x => { x with asked := true }) else s) s

/-! ### Triggers (R485) -/

/-- The trigger word's fields. -/
def State.trigCond (s : State) (r : Nat) : Nat := s.rd (R.TE_Rr_TRIGHI r) / 2 ^ 28
def State.trigUns (s : State) (r : Nat) : Bool := testB (s.rd (R.TE_Rr_TRIGHI r)) 27
def State.trigNode (s : State) (r : Nat) : Nat := s.rd (R.TE_Rr_TRIGHI r) % 2 ^ 16
def State.trigLevel (s : State) (r : Nat) : Word := BitVec.ofNat 32 (s.rd (R.TE_Rr_TRIGLO r))

/-- A word as a number, signed or not. -/
def wordInt (uns : Bool) (w : Word) : Int := if uns then w.toNat else w.toInt

/-- The trigger condition of an armed ring on its own, chains apart. -/
def State.trigOwn (s : State) (r : Nat) : Bool :=
  let u := s.trigUns r
  let lv := wordInt u (s.trigLevel r)
  let x := s.ring r
  let now := wordInt u ((s.node (s.trigNode r)).getD 0)
  let up := match x.last with | some w => decide (wordInt u w < lv ∧ lv ≤ now) | none => false
  let down := match x.last with | some w => decide (lv < wordInt u w ∧ now ≤ lv) | none => false
  x.asked || (match s.trigCond r with
    | 1 => up
    | 2 => down
    | 3 => up || down
    | 4 => decide (lv ≤ now)
    | 5 => decide (now ≤ lv)
    | 6 => ((s.node (s.trigNode r)).getD 0) &&& s.trigLevel r != 0
    | 7 => s.te.evs.any (fun e => e.2 == (s.trigLevel r).toNat % 2 ^ 16)
    | 9 => s.te.evs.any (fun e => e.1 == 38 || e.1 == 39)
    | _ => false)

/-- The ring that a ring is chained to; two rings chained to each other do not trigger one another (R491). -/
def State.trigChain (s : State) (r : Nat) : Option Nat :=
  if s.trigCond r = 8 then
    let q := (s.trigLevel r).toNat % 16
    if s.trigCond q = 8 ∧ (s.trigLevel q).toNat % 16 = r then none else some q
  else none

/-- One round of chained triggers. -/
def State.chainRound (s : State) (t : List Nat) : List Nat :=
  (List.range 16).filter (fun r => t.contains r || (s.bit R.TE_STAT_ARMED r &&
    (match s.trigChain r with | some q => t.contains q | none => false)))

/-- The rings that trigger at a sample instant. -/
def State.triggers (s : State) : List Nat :=
  let t := (List.range 16).filter (fun r => s.bit R.TE_STAT_ARMED r && s.trigOwn r)
  (List.range 16).foldl (fun t _ => s.chainRound t) t

/-- A ring triggers (R484). -/
def ringTrigger (s : State) (r : Nat) : State :=
  let held := min ((s.ring r).samples.length) (s.rd (R.TE_Rr_PRE r))
  let s := (s.wrBit R.TE_STAT_ARMED r false).wrBit R.TE_STAT_TRIGGERED r true
  let s := (s.wr (R.TE_Rr_TICK r) s.tickno).wr (R.TE_Rr_HELD r) held
  s.setRing r (fun x => { x with trigTb := s.time.tb, asked := false, samples := x.samples.take held })

/-! ### Samples (R481, R482) -/

/-- A 64-B slot pushed into a ring's queue; a dropped one counts in GAPS (R482). The Granary writer takes the slots by QUEUE_POP. -/
def traceSlot (r : Nat) (ws : List Word) (s : State) : Bool × State :=
  let ok := decide (0 < s.qCredit (22 + r))
  let s := s.qPush (22 + r) (padTo 64 (ws.flatMap (fun w => bytesLE 4 w.toNat)))
  (ok, if ok then s else s.inc (R.TE_Rr_GAPS r))

/-- Words that a dropped slot leaves in its block: open values. -/
def openWords : Nat → State → List Word × State
  | 0, s => ([], s)
  | n + 1, s =>
    let d := s.drawBits 32
    let r := openWords n d.2
    (BitVec.ofNat 32 d.1 :: r.1, r.2)

/-- The block of the two latest samples of an 8-signal ring goes out; a lone sample is completed with zeros (R482). -/
def block8 (r : Nat) (last : List Word) (s : State) : State :=
  let x := s.ring r
  let b := (x.count - 1) / 2
  let mine := (x.samples.filter (fun k => k.block == b)).reverse
  let p := traceSlot r (x.half ++ last) s
  if p.1 then p.2
  else
    let o := openWords 16 p.2
    o.2.setRing r (fun x => { x with samples := x.samples.map (fun k =>
      if k.block = b then { k with words := (if mine.head? = some k then o.1.take 8 else o.1.drop 8), bad := 1 } else k) })

/-- A sample of a ring at the sample instant. -/
def ringSample (s : State) (r : Nat) : State :=
  let ws := (s.ringNodes r).map (fun n => (s.node n).getD 0)
  let x := s.ring r
  let pre := s.rd (R.TE_Rr_PRE r)
  let trig := s.bit R.TE_STAT_TRIGGERED r
  if s.ringSignals r = 8 then
    let k : TeSample := { words := ws, block := x.count / 2 }
    let s := s.setRing r (fun x => { x with
      samples := if trig then k :: x.samples else (k :: x.samples).take (max pre 1), count := x.count + 1
      taken := if trig then x.taken + 1 else 0 })
    if x.count % 2 = 1 then block8 r ws s else s.setRing r (fun x => { x with half := ws })
  else
    let a := traceSlot r (ws.take 16) s
    let b := traceSlot r (ws.drop 16) a.2
    let oa := if a.1 then (ws.take 16, b.2) else openWords 16 b.2
    let ob := if b.1 then (ws.drop 16, oa.2) else openWords 16 oa.2
    let k : TeSample := { words := oa.1 ++ ob.1, block := 2 * x.count, bad := b2n (!a.1) + b2n (!b.1) }
    ob.2.setRing r (fun x => { x with
      samples := if trig then k :: x.samples else (k :: x.samples).take (max pre 1), count := x.count + 1
      taken := if trig then x.taken + 1 else 0 })

/-- A triggered ring stops (R484); an odd last sample's block is completed with zeros. -/
def ringHalt (r : Nat) (s : State) : State :=
  let s := if s.ringSignals r = 8 ∧ (s.ring r).count % 2 = 1 then block8 r [] s else s
  (s.wrBit R.TE_STAT_TRIGGERED r false).wrBit R.TE_STAT_STOPPED r true

/-- RING_STOP: a triggered ring has taken CAP − PRE samples (R484). -/
def ringStopIfDue (r : Nat) (s : State) : State :=
  if s.bit R.TE_STAT_TRIGGERED r ∧ s.rd (R.TE_Rr_CAP r) - s.rd (R.TE_Rr_PRE r) ≤ (s.ring r).taken then ringHalt r s else s

/-- One ring at a sample instant: the trigger node's value is kept; a sample where BL.SN mod DEC = 0 (R481). -/
def ringInstant (s : State) (r : Nat) : State :=
  if s.ringBusy r then
    let s := s.setRing r (fun x => { x with last := s.node (s.trigNode r) })
    if s.rd R.BL_SN % (max 1 (s.rd (R.TE_Rr_CFG_DEC r))) = 0 then ringStopIfDue r (ringSample s r) else s
  else s

/-- The rings at a sample instant: triggers are evaluated, then rings sample; the events since the last instant are used up (15 R481,
R485). -/
def ringsSample (s : State) : State :=
  let s := (List.range 16).foldl ringInstant (s.triggers.foldl ringTrigger s)
  { s with te := { s.te with evs := [] } }

/-- TRACE_SAMPLE: 112 cyc after LIMSHARE's substitution point, once in a tick, the own state block is pushed, triggers are evaluated and
rings sample (R481, R485; 02 R70). A byte of the own block whose parity bit is wrong comes with the tick's inputs (02 R71). -/
def traceSample (s : State) : State :=
  if s.te.sampled then s
  else
    let slot := s.taskSlot 3
    let s := s.advanceTo (slot.1 + slot.2 + 112)
    ringsSample (blockPush s.te.upset { s with te := { s.te with sampled := true } })

/-- A step of TB or a change of the period: an armed ring returns to CONFIGURED, a triggered one stops (R491). -/
def traceTimeChange (s : State) : State :=
  (List.range 16).foldl (fun s r =>
    if s.bit R.TE_STAT_TRIGGERED r then ringHalt r s else if s.bit R.TE_STAT_ARMED r then ringDisarm r s else s) s

/-! ### Configuration and readout (R486; 13 R432) -/

/-- TR.CONFIG's registers: nodes, decimation, pre-trigger samples, trigger word. -/
def ringConfig (r dec pre : Nat) (sig32 : Bool) (trig : Nat) (nodes : List Nat) (s : State) : State :=
  let s := (s.wr (R.TE_Rr_CFG_DEC r) dec).wr (R.TE_Rr_CFG_SIG32 r) (b2n sig32)
  let s := ((s.wr (R.TE_Rr_PRE r) pre).wr (R.TE_Rr_TRIGLO r) (trig % 2 ^ 32)).wr (R.TE_Rr_TRIGHI r) (trig / 2 ^ 32)
  let s := nodes.zipIdx.foldl (fun s x => s.wr (if x.2 % 2 = 0 then R.TE_Rr_NODEw_A r (x.2 / 2) else R.TE_Rr_NODEw_B r (x.2 / 2)) x.1) s
  let s := (s.wrBit R.TE_STAT_STOPPED r false).setRing r (fun x => { x with configDone := true, samples := [], count := 0, taken := 0 })
  ringRefresh r s

/-- The samples of a stopped ring from one relative to sample 0 on, as many as fill a number of bytes: the first one's index, the
samples (R486). -/
def State.ringRead (s : State) (r : Nat) (first : Int) (bytes : Nat) : Int × List TeSample :=
  let held := s.rd (R.TE_Rr_HELD r)
  let all := (s.ring r).samples.reverse
  let size := 4 * s.ringSignals r
  let n : Int := ((bytes / size : Nat) : Int)
  let lo : Int := max first (-(held : Int))
  let hi : Int := min (first + n) ((all.length : Int) - held)
  (lo, if lo < hi then (all.drop (lo + held).toNat).take (hi - lo).toNat else [])

/-- Blocks with a bad guard among samples that are read. -/
def badBlocks (sig : Nat) (ks : List TeSample) : Nat :=
  if sig = 8 then ((ks.filter (fun k => k.bad != 0)).map (·.block)).eraseDups.length
  else ks.foldl (fun n k => n + k.bad) 0

end Sys2Proof.Machine
end

