-- ==== Sys2Proof/Machine/Access.lean ====
section
/-! DEFINITION. Reads and writes of register words and of SRAM on the internal bus, with their effects (00 R14–R18; 01 R33, R45, R48,
R51), and the pushes and pops of the queues (01 R36–R38). -/

namespace Sys2Proof.Machine

/-! ### Reads (00 R14, 01 R33) -/

/-- The upper half that a read of a lower half latches: its register and its value (01 R33; 07 R277; 14 R467; 15 R494). -/
def State.latchOf (s : State) (a : Nat) : Option (Fld × Nat) :=
  if a = R.TB_CNT_LO.addr then some (R.TB_CNT_HI, s.time.tb / 2 ^ 32)
  else if a = R.TB_LAST_LO.addr then some (R.TB_LAST_HI, s.time.tbLast / 2 ^ 32)
  else if a = R.FB_POS_LO.addr then some (R.FB_POS_HI, s.fb.pos / 2 ^ 32)
  else if a = R.FB_HOFS_LO.addr then some (R.FB_HOFS_HI, wrapTo 48 s.fb.hofs / 2 ^ 32)
  else if a = R.NV_LOGSEQ_LO.addr then some (R.NV_LOGSEQ_HI, s.nv.logSeq / 2 ^ 32)
  else if a = R.NV_LOGOLD_LO.addr then some (R.NV_LOGOLD_HI, s.logOld / 2 ^ 32)
  else if 0x4013011C ≤ a ∧ a < 0x4013051C ∧ (a - 0x4013011C) % 0x40 = 0 then
    some (R.TE_Rr_TB_HI ((a - 0x4013011C) / 0x40), (s.ring ((a - 0x4013011C) / 0x40)).trigTb / 2 ^ 32)
  else none

/-- What a read of a register word does: RC fields clear, a lower half latches its upper half, the last word of a Token frame clears
TXRDY (00 R14; 01 R33; 10 R373). -/
def readEffects (a : Nat) (s : State) : State :=
  let rc := accessMask a .rc
  let s := if rc = 0 then s else s.setWord a (s.word a &&& ~~~rc)
  let s := match s.latchOf a with
    | some (f, v) => s.wr f v
    | none => s
  if a = (R.SB_TOKt_TXw 0 15).addr then s.wr (R.SB_TOKt_STAT_TXRDY 0) 0
  else if a = (R.SB_TOKt_TXw 1 15).addr then s.wr (R.SB_TOKt_STAT_TXRDY 1) 0
  else s

/-- A word read on the internal bus by a requester (0 the MP, 1 a command): its value, whether the address may be read, the state after
(01 R48). The MP alone reads the boot ROM and the firmware window; the ROM is no target of the CRC unit. -/
def busRead (a requester : Nat) (s : State) : Word × Bool × State :=
  if isRegister a then (s.peek a, true, readEffects a s)
  else if (busRange a 4 ∧ (a < 0x20000000 ∨ requester = 0)) ∨ (a + 4 ≤ 0x10000 ∧ requester = 0) then
    (BitVec.ofNat 32 (ofBytesLE ((List.range 4).map (fun i => s.busByte (a + i)))), true, s)
  else (0, false, s.badAddr a 0 requester)

/-- A read of a register by the MP: its value is put out. -/
def registerRead (a : Nat) (s : State) : State :=
  let r := busRead a 0 s
  r.2.2.answer r.1

/-! ### Writes (00 R14–R16) -/

/-- The bits of a word that a write sets: RW, and RWL until the lock is applied (00 R14). -/
def State.writable (s : State) (a : Nat) : Word :=
  accessMask a .rw ||| (if s.on R.SB_LOCK_LOCKED then 0 else accessMask a .rwl)

/-- A write under a mask. -/
def maskedWrite (a : Nat) (m v : Word) (s : State) : State := s.setWord a ((s.word a &&& ~~~m) ||| (v &&& m))

/-- A write by the access codes alone (00 R14, R16). -/
def plainWrite (a : Nat) (v : Word) (s : State) : State :=
  let c := accessMask a .w1c
  let w := (s.word a &&& ~~~(s.writable a)) ||| (v &&& s.writable a)
  s.setWord a (w &&& ~~~(v &&& c))

/-- A write of a commissioned limit or of a request of the MP: it takes effect in the cycle after (10 R344). -/
def limitWrite (a : Nat) (v : Word) (s : State) : State := { plainWrite a v s with sb.effAt := some s.time.tb }

/-- Watermark bits cleared; one whose queue is still at its watermark sets again (01 R45). -/
def qmIrqClear (hi : Bool) (v : Word) (s : State) : State :=
  let base := if hi then 32 else 0
  let s := plainWrite (if hi then R.QM_IRQ1 else R.QM_IRQ0).addr v s
  (List.range 32).foldl (fun s n => if testB v.toNat n then s.qIrq (base + n) else s) s

/-- A write into the QM block (01 R42–R45). -/
def qmWrite (a : Nat) (v : Word) (s : State) : State :=
  if a = R.QM_IRQ0.addr then qmIrqClear false v s
  else if a = R.QM_IRQ1.addr then qmIrqClear true v s
  else if a % 16 = 0 then (plainWrite a v s).qIrq ((a - 0x40020000) / 16)
  else plainWrite a v s

/-- A write into the TT block (02 R58–R60, R89). -/
def ttWriteReg (a : Nat) (v : Word) (s : State) : State :=
  if a = R.TT_CTL_SWAP.addr then (if testB v.toNat 0 then ttSwapWrite s else s)
  else if a = R.TT_PERIOD_CYC.addr then ttPeriodWrite (R.TT_PERIOD_CYC.get v) s
  else if 0x40030100 ≤ a ∧ a < 0x40030180 then ttShadowWrite a v s
  else plainWrite a v s

/-- A write into the LN block (02 R82, R90; 05 R184). -/
def lnWrite (a : Nat) (v : Word) (s : State) : State :=
  if a = R.LN_TBLCHK_GO.addr then tblchkWrite v s
  else if a = R.LN_MD_REQ_GO.addr then mdReqWrite v s
  else plainWrite a v s

/-- A write into the SD block (03 R92, R99, R139). -/
def sdWrite (a : Nat) (v : Word) (s : State) : State :=
  if a = R.SD_CFG_EN.addr then sdConfigWrite v s
  else if 0x40050100 ≤ a ∧ (a - 0x40050100) % 0x20 = 0 then sdChannelConfig ((a - 0x40050100) / 0x20) v s
  else if 0x40050100 ≤ a ∧ (a - 0x40050100) % 0x20 = 0x1C then
    (if testB v.toNat 0 then sdRestartWrite ((a - 0x40050100) / 0x20) s else s)
  else plainWrite a v s

/-- A write into the PW block (03 R123–R125, R140). -/
def pwWrite (a : Nat) (v : Word) (s : State) : State :=
  if a = R.PW_CTL_RUN.addr then pwRunWrite (testB v.toNat 0) s
  else if a = R.PW_CARRIER_K.addr then pwCarrierWrite v s
  else if a = R.PW_PHASE.addr then pwPhaseWrite v s
  else if a = R.PW_MODE.addr then pwModeWrite v s
  else plainWrite a v s

/-- A write into the GD block (06 R223, R239, R245). -/
def gdWrite (a : Nat) (v : Word) (s : State) : State :=
  if a = R.GD_DTMIN.addr then
    (if 80 ≤ R.GD_DTMIN.get v ∧ R.GD_DTMIN.get v ≤ 4000 then plainWrite a v s else s)
  else if a = R.GD_DIAG_CTL_GO.addr then
    let s := plainWrite a v s
    if R.GD_DIAG_CTL_GO.get v = 1 then diagGo s else s
  else if 0x40070100 ≤ a ∧ (a - 0x40070100) % 0x40 < 0xC then configWrite ((a - 0x40070100) / 0x40) a v s
  else plainWrite a v s

/-- A write into the FB block (07 R247, R260, R271, R277–R280): while EN = 1 the RWL fields take no write and CFGERR sets. -/
def fbWrite (a : Nat) (v : Word) (s : State) : State :=
  if a = R.FB_CTL_EN.addr then
    let s := fbEnWrite (R.FB_CTL_EN.get v = 1) s
    let s := if R.FB_CTL_CORR.get v = 1 then fbCorrect s else s
    if R.FB_CTL_USEPRI.get v = 1 then fbUsePri s else s
  else if a = R.FB_EMU_CFG_EN.addr then emuConfigWrite v s
  else if s.on R.FB_CTL_EN ∧ accessMask a .rwl ≠ 0 then maskedWrite a (accessMask a .rw) v (s.wr R.FB_STAT_CFGERR 1)
  else plainWrite a v s

/-- A write into the BL block (08 R286, R318–R320). -/
def blWrite (a : Nat) (v : Word) (s : State) : State :=
  if 0x40090100 ≤ a ∧ a < 0x40090200 then
    let p := (a - 0x40090100) / 0x40
    let off := (a - 0x40090100) % 0x40
    if off = 0x14 then (if testB v.toNat 0 then mtxGo p s else s)
    else if 0x18 ≤ off ∧ off < 0x38 then (if s.on (R.BL_Pp_MTX_BUSY p) then s else s.setWord a v)
    else plainWrite a v s
  else
    let en := s.on R.BL_CFG_EN
    let s := plainWrite a v s
    if en ∧ !s.on R.BL_CFG_EN then linkDisable s else s

/-- A write into the PM block (09 R323, R337, R338, R343). -/
def pmWrite (a : Nat) (v : Word) (s : State) : State :=
  if a = R.PM_CFG_EN.addr then
    pmCfgEn (R.PM_CFG_EN.get v = 1) (if s.on R.SB_LOCK_LOCKED then s else maskedWrite a (accessMask a .rwl) v s)
  else if a = R.PM_CTL_RELEASE.addr then
    let s := if R.PM_CTL_RELEASE.get v = 1 then pmRelease s else s
    if R.PM_CTL_ENGAGE.get v = 1 then pmEngage s else s
  else plainWrite a v s

/-- A write into the SB block (01 R25, R29; 10 R344, R345, R366, R373). -/
def sbWrite (a : Nat) (v : Word) (s : State) : State :=
  if a = R.SB_MPWD.addr then mpwdWrite s
  else if 0x400B0040 ≤ a ∧ a < 0x400B0070 then limitWrite a v s
  else if a = R.SB_REQM_GATE_GOFF.addr then reqmGate (testB v.toNat 0) s
  else if 0x400B0180 ≤ a ∧ a < 0x400B01C0 then s.setWord a v
  else if a = R.SB_TOK_RXCTL_GO.addr then (if R.SB_TOK_RXCTL_GO.get v = 1 then tokGo s else s)
  else plainWrite a v s

/-- A write into a CAN block (11 R376, R377, R380, R383, R386, R390, R393–R395). -/
def canWrite (n a : Nat) (v : Word) (s : State) : State :=
  let off := a % 0x10000
  if off = 0 then
    let s := canModeWrite n (v.toNat % 4) s
    if testB v.toNat 2 then canRecover n s else s
  else if 4 ≤ off ∧ off ≤ 0x10 then canConfigWrite n a v s
  else if off = 0x28 then canTxCancel n (v.toNat / 256 % 8) (canTxReq n (v.toNat % 8) s)
  else if 0x100 ≤ off ∧ off < 0x280 then canBufferWrite n ((off - 0x100) / 0x80) a v s
  else plainWrite a v s

/-- A write by the MP into the HS block (12 R416, R421): the doorbells and the heads of the completion queues are the host's, and a write
of the MP does not change them (01 R22, 12 R405; DEDUCED, assumption log 30). -/
def hsWrite (a : Nat) (v : Word) (s : State) : State :=
  if (0x400E0020 ≤ a ∧ a < 0x400E0040 ∧ a % 8 = 0) ∨ (0x400E0044 ≤ a ∧ a < 0x400E0060 ∧ a % 8 = 4) then s
  else if 0x400E0060 ≤ a ∧ a < 0x400E0070 then (plainWrite a v s).qIrq ((a - 0x400E0060) / 4 + 4)
  else plainWrite a v s

/-- A write into the CC block (15 R475, R476, R493). -/
def ccWrite (a : Nat) (v : Word) (s : State) : State :=
  if a = R.CC_CFG_ARR.addr then ccCfgWrite v s
  else if a < 0x40120100 then plainWrite a v s
  else
    let k := (a - 0x40120100) / 0x20
    let off := (a - 0x40120100) % 0x20
    if off = 0 then
      let s := plainWrite a v s
      if testB v.toNat 31 then ccGo k s else s
    else if off = 0x10 then ccValWrite k v s
    else if off = 0x14 then ccData k v s
    else plainWrite a v s

/-- A write into the TE block (15 R494): the registers of an armed or triggered ring take no write. -/
def teWrite (a : Nat) (v : Word) (s : State) : State :=
  if a = R.TE_CTL_ARM.addr then teArm (R.TE_CTL_ARM.get v) (teDisarm (R.TE_CTL_DISARM.get v) s)
  else if a = R.TE_TRIG.addr then teTrig (R.TE_TRIG.get v) s
  else if 0x40130100 ≤ a then
    let r := (a - 0x40130100) % 0x700 / 0x40
    if s.ringBusy r then s else ringRefresh r (plainWrite a v s)
  else plainWrite a v s

/-- Some bit of a register takes a write: it holds more than RO and RC fields (00 R14, R15). -/
def takesWrite (a : Nat) : Bool := accessMask a .rw ||| accessMask a .rwl ||| accessMask a .w1c ||| accessMask a .wo != 0

/-- A write of a register word the spec lists, with its effects; one that holds RO fields only does not change (00 R15). -/
def regWrite (a : Nat) (v : Word) (s : State) : State :=
  if !takesWrite a then s
  else match a / 0x10000 with
  | 0x4002 => qmWrite a v s
  | 0x4003 => ttWriteReg a v s
  | 0x4004 => lnWrite a v s
  | 0x4005 => sdWrite a v s
  | 0x4006 => pwWrite a v s
  | 0x4007 => gdWrite a v s
  | 0x4008 => fbWrite a v s
  | 0x4009 => blWrite a v s
  | 0x400A => pmWrite a v s
  | 0x400B => sbWrite a v s
  | 0x400C => canWrite 0 a v s
  | 0x400D => canWrite 1 a v s
  | 0x400E => hsWrite a v s
  | 0x4011 => if testB v.toNat 0 ∧ a = R.BI_CTL_ABORT.addr then bistAbort s else plainWrite a v s
  | 0x4012 => ccWrite a v s
  | 0x4013 => teWrite a v s
  | _ => plainWrite a v s

/-- The bytes of on-die SRAM that the MP writes (01 R22, R50, R51): its own data and the host window but for the command areas, which are
the host's. -/
def mpWrites (a : Nat) : Bool :=
  decide (0x10000000 ≤ a ∧ a < 0x10001000) || decide (0x10003800 ≤ a ∧ a < 0x10010000) || decide (0x10300000 ≤ a ∧ a < 0x10600000)

/-- A word written on the internal bus by a requester (0 the MP, 1 a command): whether the address may be written, and the state after
(01 R48, R50, R51). A region that another block writes is refused as an unlisted address is (DEDUCED, assumption log 30). -/
def busWrite (a : Nat) (v : Word) (requester : Nat) (s : State) : Bool × State :=
  if isRegister a then (true, regWrite a v s)
  else if mpWrites a ∧ a % 4 = 0 then
    (true, s.setMem a (bytesLE 4 v.toNat))
  else (false, s.badAddr a 1 requester)

/-- REGISTER_WRITE: a write by the MP of a word (00 R14). -/
def registerWrite (a : Nat) (v : Word) (s : State) : State := (busWrite (a / 4 * 4) v 0 s).2

/-! ### Queues (01 R36–R39) -/

/-- What a consumer does with an item that it pops outside its own step: the parameter queues write their bank (01 R41). -/
def consume (n : Nat) (item : List Byte) (s : State) : State :=
  if n = 52 then bankItem s.ln.bankB item s else if n = 53 then bankItem (!s.ln.bankB) item s else s

/-- QUEUE_PUSH: a producer pushes an item; Q00–Q07 take theirs through their pointers (12 R405). -/
def queuePush (n : Nat) (item : List Byte) (s : State) : State := if n < 8 then s else s.qPush n item

/-- QUEUE_POP: a consumer pops an item, which is put out. An item with a parity error, at an address, is discarded and counted (02 R71).
An item of Q00–Q07 leaves with DESCRIPTOR_POP or the host's head (12 R405), a pop of an empty one sets UNDERRUN (R38). Q53 is not popped
while a swap is pending (04 R157). -/
def queuePop (n : Nat) (bad : Option (BitVec 32)) (s : State) : State :=
  if n < 8 then (if s.qFill n = 0 then s.wr (R.QM_Qnn_FLAG_UNDERRUN n) 1 else s)
  else if n = 53 ∧ s.ln.bankTick.isSome then s
  else
    let r := s.qPop n
    match r.1, bad with
    | some _, some a => (r.2.event Ev.SRAM_PARITY 5 (bytesLE 4 a.toNat)).qLose n
    | some i, none =>
      let s := consume n i r.2
      { s with out.item := some i }
    | none, _ => r.2

end Sys2Proof.Machine
end

