-- ==== Sys2Proof/Machine/HostPort.lean ====
section
/-! DEFINITION. The SPI port of the host (12 R396–R404, R421): transactions on the host window. -/

namespace Sys2Proof.Machine

/-- The CRC-8 of the port over bytes (R399). -/
def crc8 (bs : List Byte) : Nat := (bs.foldl (crcByteN 8 0x2F) 0xFF) ^^^ 0xFF

/-- The bytes of a word in wire order (R396, R399). -/
def wireBytes (w : Word) : List Byte := (bytesLE 4 w.toNat).reverse

/-- A word of 24 bits with the CRC-8 over them (R398, R400). -/
def sealed (top : Nat) : Word := BitVec.ofNat 32 (top * 256 + crc8 (wireBytes (BitVec.ofNat 32 (top * 256)) |>.take 3))

/-- The status word (R400). -/
def State.spiStatus (s : State) : Word :=
  sealed ((if s.sys.noMarker then 0 else 0xA * 2 ^ 20) + s.rd R.HS_STAT_LASTRES % 16 * 2 ^ 16 + s.hsIrq.toNat % 2 ^ 12 * 16 + s.rd R.HS_STAT_MPSTATE % 4 * 4)

/-- The fields of a header (R398). -/
def hdrWrite (h : Word) : Bool := testB h.toNat 31
def hdrWords (h : Word) : Nat := h.toNat / 2 ^ 24 % 128 + 1
def hdrOffset (h : Word) : Nat := 4 * (h.toNat / 2 ^ 10 % 2 ^ 14)
def hdrOk (h : Word) : Bool := crc8 (wireBytes h |>.take 3) == h.toNat % 256

/-! ### Window (R403) -/

/-- The regions of the window: first offset, end, kind: 0 control page, 1 reserved, 2 + c the slots of a command queue, 6 read only,
7 the bulk area. -/
def windowRegions : List (Nat × Nat × Nat) :=
  [(0, 0x100, 0), (0x100, 0x1000, 1), (0x1000, 0x1400, 2), (0x1400, 0x2400, 3), (0x2400, 0x3400, 4), (0x3400, 0x3800, 5),
   (0x3800, 0x3A00, 6), (0x3A00, 0x4200, 6), (0x4200, 0x4A00, 6), (0x4A00, 0x4C00, 6), (0x4C00, 0x5000, 1), (0x5000, 0x7000, 6),
   (0x7000, 0x8000, 1), (0x8000, 0x10000, 7)]

/-- The region that holds a range of the window as a whole; none where it crosses a boundary. -/
def regionOf (off n : Nat) : Option (Nat × Nat × Nat) := windowRegions.find? (fun r => decide (r.1 ≤ off ∧ off + n ≤ r.2.1))

/-- The access that a transaction asks for is out of order (R401, code 4): it crosses a region, or its COUNT is above 1 in the control
page; COUNT is the header's field, so that two words pass and are one snapshot (DEDUCED, assumption log 25). -/
def addrBad (off n : Nat) : Bool :=
  match regionOf off (4 * n) with
  | none => true
  | some r => r.2.2 == 0 && decide (2 < n)

/-- A write is refused (R401, code 5). -/
def State.accessBad (s : State) (off n : Nat) : Bool :=
  match regionOf off (4 * n) with
  | none => true
  | some r =>
    let k := r.2.2
    if k = 0 then (List.range n).any (fun i =>
      let a := 0x400E0000 + off + 4 * i
      !isRegister a || (accessMask a .rw ||| accessMask a .w1c ||| accessMask a .wo) == 0)
    else if 2 ≤ k ∧ k ≤ 5 then
      let first := (off - r.1) / 64
      let last := (off - r.1 + 4 * n - 1) / 64
      (s.cmdOccupied (k - 2)).any (fun i => decide (first ≤ i ∧ i ≤ last))
    else k != 7

/-- A transaction ends with a result code (R401, R421). -/
def spiResult (code : Nat) (s : State) : State :=
  let s := s.wr R.HS_STAT_LASTRES code
  let s := if code = 1 ∨ code = 2 then s.inc R.HS_SPIERR_CRC else if 3 ≤ code ∧ code ≤ 5 then s.inc R.HS_SPIERR_OTHER else s
  if 1 ≤ code ∧ code ≤ 5 then s.wr R.HS_IRQ_SPIERR 1 else s

/-- A control-page word written with its effects; the code is 0, or 6 for a refused doorbell (R401, R406). -/
def controlWrite (off : Nat) (v : Word) (s : State) : Nat × State :=
  if 0x20 ≤ off ∧ off < 0x40 ∧ off % 8 = 0 then doorbellWrite ((off - 0x20) / 8) (v.toNat % 2 ^ 16) s
  else (0, regWrite (0x400E0000 + off) v s)

/-- Two ranges meet. -/
def meets (lo hi : Nat) : Option (Nat × Nat) → Bool
  | some r => decide (lo < r.2 ∧ r.1 < hi)
  | none => false

/-- Bytes of an item made open. -/
def openItem (item : List Byte) (s : State) : List Byte × State :=
  item.foldl (fun acc _ => let d := acc.2.drawBits 8; (acc.1 ++ [BitVec.ofNat 8 d.1], d.2)) ([], s)

/-- Items made open. -/
def openItems (items : List (List Byte)) (s : State) : List (List Byte) × State :=
  items.foldl (fun acc i => let d := openItem i acc.2; (acc.1 ++ [d.1], d.2)) ([], s)

/-- The bytes that a NOR step programs made open. -/
def openOps (ops : List NorOp) (s : State) : List NorOp × State :=
  ops.foldl (fun acc o => match o with
    | .erase n => (acc.1 ++ [.erase n], acc.2)
    | .read xs => (acc.1 ++ [.read xs], acc.2)
    | .program a bs => let d := openItem bs acc.2; (acc.1 ++ [.program a d.1], d.2)) ([], s)

/-- A staging job whose data the host overwrites: what it has yet to program is open. -/
def openJob (j : NorJob) (s : State) : NorJob × State :=
  let r := match j.req with
    | .region ss a bs h => let d := openItem bs s; (NorReq.region ss a d.1 h, d.2)
    | r => (r, s)
  let o := openOps j.ops r.2
  ({ j with req := r.1, ops := o.1 }, o.2)

/-- The staging jobs of a list that a work names. -/
def openJobs (ids : List Nat) (jobs : List NorJob) (s : State) : List NorJob × State :=
  jobs.foldl (fun acc j =>
    if ids.contains j.id then (let d := openJob j acc.2; (acc.1 ++ [d.1], d.2)) else (acc.1 ++ [j], acc.2)) ([], s)

/-- The staging jobs named by a work, wherever they stand. -/
def openStaging (ids : List Nat) (s : State) : State :=
  let a := openJobs ids s.nv.run.toList s
  let b := openJobs ids s.nv.aside.toList a.2
  let c := openJobs ids s.nv.jobs b.2
  let d := openJobs ids s.nv.wait c.2
  { d.2 with nv := { d.2.nv with run := a.1.head?, aside := b.1.head?, jobs := c.1, wait := d.1 } }

/-- The host writes into the bulk area: the data of every command that the area belongs to are open from then on (R404). -/
def bulkWritten (lo hi : Nat) (s : State) : State :=
  let tails := (List.range 4).map (fun c => s.rd (R.HS_CQc_TAIL c))
  let hit := s.hs.works.filter (fun w => meets lo hi w.area)
  let s := if (List.range 4).all (fun c => s.qFill c == 0) then s
    else { s with hs := { s.hs with spoils := s.hs.spoils ++ [(lo, hi, tails)] } }
  let s : State := { s with
    hs := { s.hs with works := s.hs.works.map (fun w => if meets lo hi w.area then { w with spoiled := true } else w) }
    mp := { s.mp with streams := s.mp.streams.map (fun x =>
      if hit.any (fun w => w.handle == x.handle) then { x with spoiled := true } else x) } }
  let s := hit.foldl (fun s w => match w.kind with
    | .firmware ids _ _ _ => openStaging ids s
    | _ => s) s
  match s.mp.stall with
  | some x =>
    if meets lo hi x.area then
      let d := openItems x.items s
      { d.2 with mp := { d.2.mp with stall := some { x with items := d.1 } } }
    else s
  | none => s

/-- The data of a write applied: control-page words with their effects, window bytes otherwise (R401, R402). -/
def spiApply (off : Nat) (data : List Word) (s : State) : Nat × State :=
  if off < 0x100 then
    data.zipIdx.foldl (fun acc x =>
      let r := controlWrite (off + 4 * x.2) x.1 acc.2
      (max acc.1 r.1, r.2)) (0, s)
  else
    let s := s.setMem (winAddr off) (data.flatMap (fun w => bytesLE 4 w.toNat))
    (0, if 0x8000 ≤ off then bulkWritten (off - 0x8000) (off - 0x8000 + 4 * data.length) s else s)

/-- SPI_WRITE_TRANSACTION: the words clocked in between a fall and a rise of HS_CS_N, the rise on a word boundary or not (R397, R401,
R402). -/
def spiWrite (words : List Word) (aligned : Bool) (s : State) : State :=
  match words with
  | [] => spiResult 3 { s with out.spi := [s.spiStatus] }
  | h :: rest =>
    let n := hdrWords h
    let data := rest.take n
    let t := (rest.drop n).headD 0
    let s := { s with out.spi := s.spiStatus :: rest.map (fun _ => 0) }
    if !hdrOk h then spiResult 1 s
    else if !aligned ∨ rest.length ≠ n + 1 then spiResult 3 s
    else if t.toNat % 256 ≠ crc8 (data.flatMap wireBytes) then spiResult 2 s
    else if addrBad (hdrOffset h) n then spiResult 4 s
    else if s.accessBad (hdrOffset h) n then spiResult 5 s
    else
      let r := spiApply (hdrOffset h) data s
      spiResult r.1 r.2

/-- A window word as a read returns it, and the state after (R402, R403): a reserved region reads 0. -/
def windowRead (off : Nat) (s : State) : Word × State :=
  if off < 0x100 then
    (if isRegister (0x400E0000 + off) then (s.peek (0x400E0000 + off), readEffects (0x400E0000 + off) s) else (0, s))
  else match regionOf off 4 with
    | some r => if r.2.2 = 1 then (0, s) else (s.memWord (winAddr off), s)
    | none => (0, s)

/-- The words of a read. -/
def windowWords : Nat → Nat → State → List Word × State
  | _, 0, s => ([], s)
  | off, n + 1, s =>
    let r := windowRead off s
    let rest := windowWords (off + 4) n r.2
    (r.1 :: rest.1, rest.2)

/-- The read trailer (R400). -/
def readTrailer (code : Nat) (data : List Word) : Word :=
  let top := 0xA * 2 ^ 20 + code * 2 ^ 16
  BitVec.ofNat 32 (top * 256 + crc8 (data.flatMap wireBytes ++ (wireBytes (BitVec.ofNat 32 (top * 256))).take 3))

/-- SPI_READ_TRANSACTION: the header, the words clocked in all, the rise on a word boundary or not, whether a parity error was met
(R397, R401, R402; 02 R67). A read whose transaction is discarded clears nothing. -/
def spiRead (h : Word) (count : Nat) (aligned : Bool) (parity : Bool) (s : State) : State :=
  let n := hdrWords h
  let off := hdrOffset h
  let st := s.spiStatus
  let put (ws : List Word) (s : State) : State := { s with out.spi := padZero count (st :: 0 :: ws) }
  if count = 0 then spiResult 3 s
  else if !hdrOk h then spiResult 1 (put [] s)
  else if !aligned ∨ count ≠ n + 3 then
    spiResult 3 (put (if addrBad off n then [] else (windowWords off n s).1) s)
  else if addrBad off n then
    spiResult 4 (put (List.replicate n 0 ++ [readTrailer 0 (List.replicate n 0)]) s)
  else
    let r := windowWords off n s
    let code := if parity ∧ 0x100 ≤ off then 7 else 0
    let s := if code = 7 then r.2.event Ev.SRAM_PARITY 5 (bytesLE 4 (winAddr off)) else r.2
    spiResult code (put (r.1 ++ [readTrailer code r.1]) s)
where
  /-- Exactly `k` words: cut off or filled with 0. -/
  padZero (k : Nat) (ws : List Word) : List Word := (ws ++ List.replicate k 0).take k

end Sys2Proof.Machine
end

