-- ==== Sys2Proof/Machine/Command.lean ====
section
/-! DEFINITION. What every command of the host shares (12 R408–R410, R415; 13 R422–R425): the checks of its descriptor, its data in the
bulk area, its outcome at the pop. -/

namespace Sys2Proof.Machine

/-! ### Outcomes (12 R410) -/

/-- What a command comes to at its pop: a single FINAL record with a status and RESULT; work behind a handle, with the area of the bulk
area that it names; items for a queue whose credits the firmware waits for (01 R37), with the start of its RESULT. -/
inductive Plan where
  | final (status : Nat) (result : List Byte) (s : State)
  | go (area : Option (Nat × Nat)) (f : Nat → State → WorkKind × State) (s : Option State := none)
  | wait (queue : Nat) (items : List (List Byte)) (result : List Byte) (area : Option (Nat × Nat)) (s : State)

/-- A refusal with no RESULT. -/
def Plan.refuse (status : Nat) (s : State) : Plan := .final status [] s

/-- The record of a descriptor. -/
def descRecord (op : Nat) (d : Desc) (handle kind status : Nat) (result : List Byte) : Record :=
  { handle := handle
    status := status
    ctag := d.ctag.toNat
    opcode := op
    kind := kind
    queue := d.queue.val
    dseq := d.dseq.toNat
    result := result
    noirq := testB d.flags.toNat 1 }

/-! ### Waiting for credits (01 R37; 13 R428) -/

/-- RESULT of a command that has pushed its items: what was known, and for setpoints TICKNO of the first push. -/
def stallResult (x : Stall) : List Byte :=
  if x.queue = 50 then x.record.result ++ bytesLE 4 x.first else x.record.result

/-- The firmware pushes what its queue has credits for, in order; the FINAL record follows the last item. -/
def stallPush (s : State) : State :=
  match s.mp.stall with
  | none => s
  | some x =>
    let n := min (s.qCredit x.queue) x.items.length
    let s := (x.items.take n).foldl (fun s i => s.qPush x.queue i) s
    let s := if x.queue = 53 then drainStaging s else s
    let x : Stall := { x with
      items := x.items.drop n
      first := if x.pushed = 0 ∧ 0 < n then s.tickno else x.first
      pushed := x.pushed + n }
    if x.items.isEmpty then
      putRecord { x.record with result := stallResult x } { s with mp := { s.mp with stall := none } }
    else { s with mp := { s.mp with stall := some x } }

/-! ### Checks (12 R408, R413; 13 R422–R424) -/

/-- The mask of a byte of the descriptor by a command's table: first byte, last byte, bits. -/
def namedMask (named : List (Nat × Nat × Nat)) (i : Nat) : Nat :=
  named.foldl (fun m x => if x.1 ≤ i ∧ i ≤ x.2.1 then m ||| x.2.2 else m) 0

/-- PARAM bits that the command's table does not name are 0 (13 R422; 12 R408). -/
def paramOk (named : List (Nat × Nat × Nat)) (p : List Byte) : Bool :=
  p.zipIdx.all (fun x => x.1.toNat &&& (255 - namedMask named (8 + x.2)) == 0)

/-- The opcodes that the recovery loader serves (17 R533). -/
def recoveryServes (op : Nat) : Bool := op == 0x0101 || op == 0x0102 || op == 0x0108 || op / 256 == 9

/-- Why a descriptor is refused before its command looks at it: a queue that does not take the opcode (R424), a reserved bit (12 R408), a
handle that does not exist (12 R413), the recovery loader (17 R533). -/
def State.descRefused (s : State) (op : Nat) (named : List (Nat × Nat × Nat)) (d : Desc) : Option Nat :=
  let own := op == 0x0103 || op == 0x0104
  if s.on R.SYS_BOOT_RECOVERY ∧ !recoveryServes op then some 0x01
  else if (op / 256 == 8) != (d.queue.val == 3) ∧ !(d.queue.val = 3 ∧ (own || op == 0x0102) = true) then some 0x12
  else if 3 < d.flags.toNat ∨ d.reserved ≠ 0 ∨ !paramOk named d.param then some 0x11
  else if (own || d.handle != 0) ∧ !s.handleOk d.handle.toNat then some 0x14
  else none

/-- A number of the descriptor: `n` bytes from an offset. -/
def pnum (d : Desc) (off n : Nat) : Nat := fieldLE d.param (off - 8) n

/-- The handle issued, the ACCEPTED record written and the work begun (12 R410, R414). -/
def startWork (op : Nat) (d : Desc) (area : Option (Nat × Nat)) (f : Nat → State → WorkKind × State) (s : State) : State :=
  match issueHandle d.queue.val (op / 256) s with
  | none => putRecord (descRecord op d 0 2 0x15 []) s
  | some (h, s) =>
    let r := f h (putRecord (descRecord op d h 1 0 []) s)
    { r.2 with hs := { r.2.hs with works := r.2.hs.works ++ [{
        handle := h
        ctag := d.ctag.toNat
        opcode := op
        queue := d.queue.val
        dseq := d.dseq.toNat
        noirq := testB d.flags.toNat 1
        kind := r.1
        area := area }] } }

/-- A plan carried out. -/
def runPlan (op : Nat) (d : Desc) (s : State) : Plan → State
  | .final status result s => putRecord (descRecord op d 0 2 status result) s
  | .go area f t => startWork op d area f (t.getD s)
  | .wait queue items result area s =>
    stallPush { s with mp := { s.mp with stall := some {
      record := descRecord op d 0 2 0 result
      queue := queue
      items := items
      area := area } } }

/-- A command at its pop: its descriptor checked, its effect, its records (12 R410, R419; 13 R422–R424). The MP out of service, or
waiting for credits, does nothing. -/
def command (op : Nat) (named : List (Nat × Nat × Nat)) (d : Desc) (act : State → Plan) (s : State) : State :=
  if !s.mpServes ∨ s.mp.stall.isSome then s
  else match d.parity with
    | some a => runPlan op d s (.refuse 0x16 (s.event Ev.SRAM_PARITY 5 (bytesLE 4 a.toNat)))
    | none =>
      match s.descRefused op named d with
      | some st => runPlan op d s (.refuse st s)
      | none => runPlan op d s (act s)

/-! ### Data in the bulk area (12 R404, R419) -/

/-- A range lies outside the bulk area. -/
def bulkBad (off n : Nat) : Bool := decide (0x8000 < off + n)

/-- The host has written into a range after the doorbell that covers the descriptor (12 R404). -/
def State.spoilHit (s : State) (d : Desc) (lo hi : Nat) : Bool :=
  s.hs.spoils.any (fun x =>
    let age := wrapTo 16 (((x.2.2[d.queue.val]?).getD 0 : Int) - d.dseq.toNat)
    decide (x.1 < hi ∧ lo < x.2.1 ∧ 1 ≤ age ∧ age ≤ 32768))

/-- The bytes that a command reads from the bulk area; open where the host has spoiled them. -/
def bulkBytes (d : Desc) (off n : Nat) (s : State) : List Byte × State :=
  if s.spoilHit d off (off + n) then openItem (List.replicate n 0) s else (s.memBytes (winAddr (0x8000 + off)) n, s)

/-- A command that reads its data: PARITY where an error was met in them (12 R419), otherwise what it does with them. -/
def withBulk (d : Desc) (off n : Nat) (s : State) (f : List Byte → State → Plan) : Plan :=
  match d.bulkParity with
  | some a => .refuse 0x16 (s.event Ev.SRAM_PARITY 5 (bytesLE 4 a.toNat))
  | none =>
    let b := bulkBytes d off n s
    f b.1 b.2

/-- Bytes of a command's answer copied into the bulk area at its offset. -/
def bulkPut (off : Nat) (b : List Byte) (s : State) : State := s.setMem (winAddr (0x8000 + off)) b

/-- The words that bytes spell. -/
def wordsOf : Nat → List Byte → List Word
  | 0, _ => []
  | n + 1, b => BitVec.ofNat 32 (fieldLE b 0 4) :: wordsOf n (b.drop 4)

/-! ### Ticks named (13 R430) -/

/-- How many ticks a named TICKNO lies ahead. -/
def State.ticksAhead (s : State) (tick : Nat) : Int := modDiff 32 tick s.tickno

/-- Why a tick named with ABS = 1 is refused: less than 2 ticks ahead, more than 65,536. -/
def State.tickRefused (s : State) (abs : Bool) (tick : Nat) : Option Nat :=
  if !abs then none
  else if 65536 < s.ticksAhead tick then some 0x11
  else if s.ticksAhead tick < 2 then some 0x04
  else none

/-- The tick at whose boundary a command without ABS acts: the first boundary at least 64 cyc ahead. -/
def State.tick64 (s : State) : Nat :=
  (s.tickno + (if s.time.tb + 64 ≤ s.time.tbLast + s.period then 1 else 2)) % 2 ^ 32

end Sys2Proof.Machine
end

