-- ==== Sys2Proof/Machine/CmdSystem.lean ====
section
/-! DEFINITION. System commands and drive requests (13 R426–R428, R439, R440). -/

namespace Sys2Proof.Machine

/-! ### System, 0x01xx (R426) -/

/-- SYS.INFO. -/
def cmdSysInfo (d : Desc) : State → State := command 0x0101 [] d (fun s =>
  .final 0 (bytesLE 2 (s.rd R.SYS_ID_PART) ++ bytesLE 1 (s.rd R.SYS_ID_STEP * 16 + s.rd R.SYS_ID_GSTEP) ++ bytesLE 1 (s.rd R.HS_ID_IFVER)
    ++ bytesLE 1 s.nv.journal.active ++ [0] ++ bytesLE 4 s.nv.journal.aver ++ bytesLE 6 Config.serial.toNat) s)

/-- SYS.NOP. -/
def cmdSysNop (d : Desc) : State → State := command 0x0102 [] d (fun s => .final 0 [] s)

/-- SYS.QUERY: the handle-table entry and, once written, the FINAL record of the handle. -/
def cmdSysQuery (d : Desc) : State → State := command 0x0103 [] d (fun s =>
  let slot := d.handle.toNat % 4096
  let e := s.entryOf slot
  let b := if entryState e = 2 then smapGet (fun _ => []) s.hs.finals slot else []
  let status := if entryState e = 2 then fieldLE b 2 2 else 0xFFFF
  .final 0 (bytesLE 2 e ++ bytesLE 2 status ++ padTo 12 ((b.drop 16).take 12)) s)

/-- The commands that can be cancelled (R439). -/
def cancellable (op : Nat) : Bool :=
  (0x0401 ≤ op && op ≤ 0x0406) || op == 0x0504 || op == 0x0505 || op == 0x0905 || op == 0x0901 || op == 0x0902

/-- The steps of NOR jobs after the one in progress are dropped, and those of jobs still queued or waiting (R439). -/
def norDrop (ids : List Nat) (s : State) : State :=
  let q := s.queue 56
  { s.setQueue 56 { q with items := q.items.filter (fun i => !ids.contains (fieldLE i 0 4)) } with nv := { s.nv with
    wait := s.nv.wait.filter (fun j => !ids.contains j.id)
    jobs := s.nv.jobs.filter (fun j => !ids.contains j.id)
    aside := s.nv.aside.map (fun j => if ids.contains j.id then { j with ops := j.ops.take 1 } else j)
    run := s.nv.run.map (fun j => if ids.contains j.id then { j with ops := j.ops.take 1 } else j) } }

/-- A test that has already started to drive a pin runs to its end (R439). -/
def State.drivesPin (s : State) (k : WorkKind) : Bool :=
  match k with
  | .diag => s.gd.diag.isSome
  | .bist id _ _ => s.bi.run.any (fun j => j.id == id && j.kind == 4)
  | _ => false

/-- The journal after a firmware step that was cancelled: the slot is unverified (R439). -/
def stepCancelled (s : State) : State :=
  let j := s.nv.journal
  journalSave { j with istate := min j.istate 2, iver := 0, handle := 0, ctag := 0, opcode := 0, queue := 0 } s

/-- The work of a cancelled command stops (R439): a running BIST job ends at its next step, everything else at once; a firmware step
leaves the slot unverified. -/
def cancelWork (w : Work) (s : State) : State :=
  match w.kind with
  | .bist id _ _ =>
    if s.bi.run.any (fun j => j.id == id) then bistAbort s else finish w 0x1B [] (bistDrop id s)
  | .crcScan job =>
    finish w 0x1B [] ((List.range 4).foldl (fun s k => if (s.ccScan k).any (fun x => x.job == some job) then s.setScan k none else s) s)
  | .firmware jobs _ _ _ => finish w 0x1B [] (stepCancelled (norDrop jobs s))
  | .fwVerify job => finish w 0x1B [] (stepCancelled (norDrop [job] s))
  | .norRead job _ _ _ => finish w 0x1B [] (norDrop [job] s)
  | _ => finish w 0x1B [] s

/-- SYS.CANCEL (R426, R439, R441). -/
def cmdSysCancel (d : Desc) : State → State := command 0x0104 [] d (fun s =>
  let h := d.handle.toNat
  match s.hs.works.find? (fun w => w.handle == h) with
  | none => .final 0x01 (bytesLE 2 h) s
  | some w =>
    if !cancellable w.opcode ∨ s.drivesPin w.kind then .final 0x01 (bytesLE 2 h) s
    else .final 0 (bytesLE 2 h) (cancelWork w s))

/-- HS.ATTN written by the MP (12 R416; R440). -/
def attnWrite (v : Nat) (s : State) : State := (s.wr R.HS_ATTN v).wr R.HS_IRQ_ATTN 1

/-- A bit of HS.ATTN set (R440). -/
def attnSet (b : Nat) (s : State) : State := (s.wrBit R.HS_ATTN b true).wr R.HS_IRQ_ATTN 1

/-- SYS.ATTN_CLR. -/
def cmdSysAttnClr (d : Desc) : State → State := command 0x0105 [(8, 11, 255)] d (fun s =>
  let v := (s.rd R.HS_ATTN) &&& (2 ^ 32 - 1 - pnum d 8 4)
  .final 0 (bytesLE 4 v) (attnWrite v s))

/-- SYS.TIME. -/
def cmdSysTime (d : Desc) : State → State := command 0x0106 [] d (fun s =>
  .final 0 (bytesLE 8 s.time.tbLast ++ bytesLE 4 s.tickno ++ bytesLE 4 (s.rd R.BL_SNOFS)) s)

/-- The status that a rejection code of 02 R57 maps to (R426). -/
def rejectStatus (code : Nat) : Nat := if code = 0 ∨ code = 0x0B then 0 else if code = 2 then 1 else if code = 9 then 4 else 0x11

/-- The writes that SYS.TIMETABLE asks for: entries, the period, the swap, in the order of R426; the code of a refusal. -/
def timetableWrites (entries : List Byte) (swap : Bool) (period : Option Nat) (s : State) : Option Nat × State :=
  let s := (wordsOf (entries.length / 4) entries).zipIdx.foldl (fun s x => ttShadowWrite (0x40030100 + 4 * (x.2 % 32)) x.1 s) s
  let s : State := { s with tt := { s.tt with done := none } }
  let p : Option Nat × State := match period with
    | none => (none, s)
    | some p =>
      let t := ttPeriodWrite p s
      if t.tt.periodDue.isNone ∧ p ≠ s.period then (some (t.rd R.TT_STAT_REJCODE), t) else (none, t)
  match p.1 with
  | some c => (some c, p.2)
  | none =>
    if swap then
      let t := ttSwapWrite p.2
      if t.on R.TT_STAT_SWPEND then (none, t) else (some (t.rd R.TT_STAT_REJCODE), t)
    else (none, p.2)

/-- SYS.TIMETABLE (R426, R438). -/
def cmdSysTimetable (d : Desc) : State → State := command 0x0107 [(8, 8, 7), (10, 15, 255)] d (fun s =>
  let f := pnum d 8 1
  let off := pnum d 12 4
  let period := if testB f 2 then some (pnum d 10 2) else none
  if testB f 2 ∧ s.on R.SB_LOCK_LOCKED then .refuse 0x17 s
  else if s.on R.TT_STAT_PEND then .final 0x06 (bytesLE 1 (s.rd R.TT_STAT_REJCODE)) s
  else if testB f 0 ∧ bulkBad off 128 then .refuse 0x11 s
  else
    let act (b : List Byte) (s : State) : Plan :=
      let r := timetableWrites b (testB f 1) period s
      match r.1 with
      | some c => .final (rejectStatus c) (bytesLE 1 c) r.2
      | none => .go none (fun _ s => (.timetable, (timetableWrites b (testB f 1) period s).2)) (some s)
    if testB f 0 then withBulk d off 128 s act else act [] s)

/-- SYS.RESET (R426): the FINAL record first, the reset 1 ms after it. -/
def cmdSysReset (d : Desc) : State → State := command 0x0108 [(8, 8, 255)] d (fun s =>
  let k := pnum d 8 1
  if k ≠ 1 ∧ k ≠ 2 then .refuse 0x11 s
  else if k = 2 ∧ !(s.drive ≤ 1 ∨ s.drive = 5 ∨ s.drive = 6) then .refuse 0x01 s
  else .final 0 [] { s with sys := { s.sys with resetDue := some (s.time.tb + msCyc 1, k) } })

/-! ### Drive requests, 0x020x (R427) -/

/-- RESULT of a drive request. -/
def State.mdResult (s : State) (result : Nat) : List Byte :=
  bytesLE 1 s.drive ++ bytesLE 1 (s.rd R.LN_MD_STAT_MODE) ++ bytesLE 1 s.sub ++ bytesLE 1 result ++ bytesLE 4 s.tickno

/-- A command marked idle runs (R431). -/
def State.idleRuns (s : State) : Bool := s.gd.diag.isSome || s.bi.run.any (fun j => 3 ≤ j.kind) || (s.bi.wait ++ s.bi.jobs).any (fun j => 3 ≤ j.kind)

/-- The word of LN.MD_REQ for a request. -/
def mdReqWord (abs : Bool) (code mode sub : Nat) : Word :=
  R.LN_MD_REQ_GO.set 1 (R.LN_MD_REQ_ABS.set (b2n abs) (R.LN_MD_REQ_CODE.set code (R.LN_MD_REQ_MODE.set mode (R.LN_MD_REQ_SUB.set sub 0))))

/-- A drive request (R427): MODE and SUB checked where the request uses them, the tick named, a request pending. -/
def cmdMd (code : Nat) (d : Desc) : State → State :=
  command (0x0200 + code) [(8, 8, 1), (9, 10, 255), (12, 15, 255)] d (fun s =>
    let abs := testB (pnum d 8 1) 0
    let mode := pnum d 9 1
    let sub := pnum d 10 1
    let tick := pnum d 12 4
    if code = 3 ∧ !(1 ≤ mode ∧ mode ≤ 4) then .refuse 0x11 s
    else if code = 5 ∧ !(1 ≤ sub ∧ sub ≤ 5) then .refuse 0x11 s
    else if code = 6 ∧ !(1 ≤ mode ∧ mode ≤ 5) then .refuse 0x11 s
    else if abs = true ∧ 65536 < s.ticksAhead tick then .refuse 0x11 s
    else if code = 6 ∧ mode = 5 then .refuse 0x01 s
    else if s.on R.LN_MD_RES_PEND ∨ (code = 1 ∧ s.idleRuns = true) then .refuse 0x06 s
    else .go none (fun _ s => (.md code, mdReqWrite (mdReqWord abs code mode sub) (s.wr R.LN_MD_REQTICK tick))))

/-- MD.ENABLE, MD.DISABLE, MD.START, MD.STOP, MD.EMERGENCY, MD.MODE, MD.RESET. -/
def cmdMdEnable (d : Desc) : State → State := cmdMd 1 d
def cmdMdDisable (d : Desc) : State → State := cmdMd 2 d
def cmdMdStart (d : Desc) : State → State := cmdMd 3 d
def cmdMdStop (d : Desc) : State → State := cmdMd 4 d
def cmdMdEmergency (d : Desc) : State → State := cmdMd 5 d
def cmdMdMode (d : Desc) : State → State := cmdMd 6 d
def cmdMdReset (d : Desc) : State → State := cmdMd 7 d

/-! ### Setpoints, 0x021x (R428) -/

/-- A setpoint record that may be pushed (R428; 04 R146, R147). -/
def State.setpointOk (s : State) (r : List Byte) : Bool :=
  let kind := fieldLE r 0 1
  decide (1 ≤ kind ∧ kind ≤ 8) && decide (fieldLE r 1 1 ≤ 1) && fieldLE r 2 2 == 0 && fieldLE r 28 4 == 0
    && (kind != 4 || fieldLE r 14 2 == 0)
    && !(fieldLE r 1 1 == 1 && decide (65536 < s.ticksAhead (fieldLE r 4 4)))

/-- Bytes cut into records of 32. -/
def records32 : Nat → List Byte → List (List Byte)
  | 0, _ => []
  | n + 1, b => b.take 32 :: records32 n (b.drop 32)

/-- SP.WRITE. -/
def cmdSpWrite (d : Desc) : State → State := command 0x0210 [(8, 39, 255)] d (fun s =>
  let r := padTo 32 (d.param.take 32)
  if s.setpointOk r then .wait 50 [r] [] none s else .refuse 0x11 s)

/-- SP.WRITE_N: every record is checked before any is pushed. -/
def cmdSpWriteN (d : Desc) : State → State := command 0x0211 [(8, 12, 255)] d (fun s =>
  let off := pnum d 8 4
  let n := pnum d 12 1
  if off % 32 ≠ 0 ∨ n = 0 ∨ 64 < n ∨ bulkBad off (32 * n) then .refuse 0x11 s
  else withBulk d off (32 * n) s (fun b s =>
    let rs := records32 n b
    if rs.all s.setpointOk then .wait 50 rs (bytesLE 4 n) (some (off, off + 32 * n)) s else .refuse 0x11 s))

end Sys2Proof.Machine
end

