-- ==== Sys2Proof/Machine/CmdParam.lean ====
section
/-! DEFINITION. Register, parameter and table commands and the firmware's streams of parameter writes (13 R429, R430; 02 R82; 04 R156,
R157). -/

namespace Sys2Proof.Machine

/-! ### Registers (R429) -/

/-- REG.READ. -/
def cmdRegRead (d : Desc) : State → State := command 0x0301 [(8, 12, 255)] d (fun s =>
  let a := pnum d 8 4
  let n := pnum d 12 1
  if a % 4 ≠ 0 ∨ n = 0 ∨ 4 < n then .refuse 0x11 s
  else
    let r := (List.range n).foldl (fun (acc : List Byte × Bool × State) i =>
      let x := busRead ((a + 4 * i) % 2 ^ 32) 1 acc.2.2
      (acc.1 ++ bytesLE 4 x.1.toNat, acc.2.1 && x.2.1, x.2.2)) ([], true, s)
    .final (if r.2.1 then 0 else 0x13) r.1 r.2.2)

/-- The word at an address as REG.WRITE reads it back: without the effects of a read, so that no counter clears and no pair latches (R429
leaves this open; DESIGN CHOICE, assumption log 68). -/
def State.readBack (s : State) (a : Nat) : Word :=
  if isRegister a then s.peek a else if busRange a 4 then BitVec.ofNat 32 (ofBytesLE ((List.range 4).map (fun i => s.busByte (a + i)))) else 0

/-- REG.WRITE (R429, R436, R438; 00 R15). -/
def cmdRegWrite (d : Desc) : State → State := command 0x0302 [(8, 15, 255)] d (fun s =>
  let a := pnum d 8 4
  if a % 4 ≠ 0 then .refuse 0x11 s
  else if s.sb.blocked = true ∧ accessMask a .rwl ≠ 0 then .final 0x06 (bytesLE 4 (s.readBack a).toNat) s
  else if s.on R.SB_LOCK_LOCKED ∧ accessMask a .rwl ≠ 0 then .final 0x17 (bytesLE 4 (s.readBack a).toNat) s
  else
    let r := busWrite a (BitVec.ofNat 32 (pnum d 12 4)) 1 s
    .final (if r.1 then 0 else 0x13) (bytesLE 4 (r.2.readBack a).toNat) r.2)

/-! ### Staging (R429) -/

/-- The offset in a bank of a word of the coefficient pages. -/
def pageOffset (a : Nat) : Option Nat :=
  if !isRegister a then none
  else if 0x40041000 ≤ a ∧ a < 0x40041100 then some (a - 0x40041000)
  else if 0x40042000 ≤ a ∧ a < 0x40042100 then some (0x100 + (a - 0x40042000))
  else none

/-- Items of 14 words from an offset on. -/
def paramItems : Nat → Nat → List Word → List (List Byte)
  | 0, _, _ => []
  | n + 1, off, ws => if ws.isEmpty then [] else paramItem off (ws.take 14) :: paramItems n (off + 56) (ws.drop 14)

/-- PAR.STAGE. -/
def cmdParStage (d : Desc) : State → State := command 0x0303 [(8, 13, 255), (16, 19, 255)] d (fun s =>
  let a := pnum d 8 4
  let n := pnum d 12 2
  let off := pnum d 16 4
  if a % 4 ≠ 0 ∨ n = 0 ∨ 64 < n ∨ bulkBad off (4 * n) then .refuse 0x11 s
  else match pageOffset a, pageOffset (a + 4 * (n - 1)) with
    | some lo, some hi =>
      if hi ≠ lo + 4 * (n - 1) ∨ (List.range n).any (fun i => (pageOffset (a + 4 * i)).isNone) then .refuse 0x13 s
      else withBulk d off (4 * n) s (fun b s =>
        .wait 53 (paramItems 5 lo (wordsOf n b)) (bytesLE 2 n) (some (off, off + 4 * n)) s)
    | _, _ => .refuse 0x13 s)

/-! ### Tables and banks (R429, R430) -/

/-- RESULT of TBL.LOAD. -/
def tblResult (table : Nat) (active : Bool) (crc : Nat) : List Byte :=
  bytesLE 1 table ++ bytesLE 1 (b2n (!active)) ++ [0, 0] ++ bytesLE 4 crc

/-- TBL.LOAD: the data are checked before anything is written; a table being loaded by another TBL.LOAD is BUSY. -/
def cmdTblLoad (d : Desc) : State → State := command 0x0304 [(8, 8, 255), (9, 9, 1), (12, 23, 255)] d (fun s =>
  let t := pnum d 8 1
  let active := pnum d 9 1 == 0
  let off := pnum d 12 4
  let len := pnum d 16 4
  let size := 4 * (tblPlace t).2
  if t = 0 ∨ 9 < t ∨ len ≠ size ∨ bulkBad off len then .refuse 0x11 s
  else withBulk d off len s (fun b s =>
    let crc := crc32c b
    if crc ≠ pnum d 20 4 then .final 0x18 (tblResult t active crc) s
    else if s.anyWork (fun k => match k with | .tblLoad u _ _ => u == t | _ => false) then .final 0x06 (tblResult t active crc) s
    else .go (some (off, off + len)) (fun h s => (.tblLoad t active crc, { s with mp := { s.mp with streams := s.mp.streams ++ [{
        handle := h
        table := t
        queue := if active then 52 else 53
        src := .bulk off
        pieces := [((tblPlace t).1, (tblPlace t).2)]
        crc := crc }] } })) (some s)))

/-- A bank swap requested for a tick (04 R156). -/
def bankSwapRequest (tick : Nat) (s : State) : State :=
  { (s.wr R.LN_BANK_PEND 1).wr R.LN_BANK_TICK tick with ln := { s.ln with bankTick := some tick, bankDone := none } }

/-- BANK.SWAP. -/
def cmdBankSwap (d : Desc) : State → State := command 0x0305 [(8, 8, 1), (12, 15, 255)] d (fun s =>
  let abs := testB (pnum d 8 1) 0
  match s.tickRefused abs (pnum d 12 4) with
  | some st => .refuse st s
  | none =>
    if s.ln.bankTick.isSome then .refuse 0x06 s
    else .go none (fun _ s => (.bankSwap, bankSwapRequest (if abs then pnum d 12 4 else s.tick64) s)))

/-- The pieces of a bank: the coefficient pages and tables 1–9 (01 R544). -/
def bankPieces : List (Nat × Nat) := (List.range 10).map tblPlace

/-- BANK.COPY. -/
def cmdBankCopy (d : Desc) : State → State := command 0x0306 [] d (fun s =>
  if s.ln.bankTick.isSome then .refuse 0x06 s
  else .go none (fun h s =>
    (.bankCopy (bankPieces.foldl (fun n p => n + p.2) 0), { s with mp := { s.mp with streams := s.mp.streams ++ [{
      handle := h
      table := 16
      queue := 53
      src := .bank
      pieces := bankPieces }] } })))

/-- A PAR.SAVE runs. -/
def State.parSaves (s : State) : Bool := s.anyWork (fun k => match k with | .parRead _ _ _ | .parSave _ _ => true | _ => false)

/-- The jobs of a PAR.SAVE with the body of the image in use. -/
def parWrite (pages tables : Bool) (old : List Byte) (s : State) : WorkKind × State :=
  let r := imageSave pages tables old s
  (.parSave r.1 r.2.1, r.2.2)

/-- A PAR.SAVE begins: parts that it does not select are read from the image in use first (14 R458). -/
def parBegin (pages tables : Bool) (s : State) : WorkKind × State :=
  match (if pages && tables then none else s.imageSpan) with
  | none => parWrite pages tables [] s
  | some x =>
    let r := norQueue (.read [x]) s
    (.parRead r.1 pages tables, r.2)

/-- PAR.SAVE (R429; 14 R458; 17 R540). -/
def cmdParSave (d : Desc) : State → State := command 0x0307 [(8, 8, 3)] d (fun s =>
  let f := pnum d 8 1
  if s.norFull then .refuse 0x1D s
  else if s.parSaves then .refuse 0x06 s
  else .go none (fun _ s => parBegin (testB f 0) (testB f 1) s))

/-- FB.CORRECT: the commanded correction, which takes effect at the next boundary (07 R260); RESULT is what it comes to. -/
def cmdFbCorrect (d : Desc) : State → State := command 0x0308 [] d (fun s =>
  if !s.on R.FB_CTL_EN ∨ s.rd R.FB_SEL_IDXSRC = 0 then .refuse 0x04 s
  else
    let c := -s.rdI R.FB_IDX_ACC
    let after := clampI (-(2 ^ 31 : Nat)) ((2 ^ 31 : Nat) - 1) (s.rdI R.FB_POSCORR + s.fb.abz.pendCorr + c)
    .final 0 (bytesLE 4 (wrapTo 32 after) ++ bytesLE 4 (wrapTo 32 c)) (fbCorrect s))

/-! ### Streams (02 R82; 04 R157; 13 R429) -/

/-- Words of a stream's source at an offset of the bank; open where the host has spoiled them (12 R404). -/
def streamWords (x : Stream) (off n : Nat) (s : State) : List Word × State :=
  let start := off + 4 * x.pos
  match x.src with
  | .bulk base =>
    if x.spoiled then
      let b := openItem (List.replicate (4 * n) 0) s
      (wordsOf n b.1, b.2)
    else ((List.range n).map (fun i => s.memWord (winAddr (0x8000 + base + 4 * (x.pos + i)))), s)
  | .words ws => ((ws.drop x.pos).take n, s)
  | .image _ _ _ => ([], s)
  | .bank => ((List.range n).map (fun i => s.bankWord s.ln.bankB (start + 4 * i)), s)

/-- A stream pushes items of 14 words as far as its queue has credits. -/
def streamPush : Nat → Stream → State → Stream × State
  | 0, x, s => (x, s)
  | n + 1, x, s =>
    match x.pieces with
    | [] => (x, s)
    | (off, len) :: rest =>
      if s.qCredit x.queue = 0 then (x, s)
      else
        let k := min 14 (len - x.pos)
        let w := streamWords x off k s
        let s := w.2.qPush x.queue (paramItem (off + 4 * x.pos) w.1)
        let s : State := if x.queue = 52 then { s with ln := { s.ln with loading := some x.table } } else s
        streamPush n (if x.pos + k < len then { x with pos := x.pos + k } else { x with pieces := rest, pos := 0 }) s

/-- The commands of a stream end: TBL.LOAD, BANK.COPY. -/
def streamEnd (x : Stream) (status : Nat) (s : State) : State :=
  match s.hs.works.find? (fun w => x.handle != 0 && w.handle == x.handle) with
  | none => s
  | some w => match w.kind with
    | .tblLoad t active crc => finish w status (tblResult t active crc) s
    | .bankCopy n => finish w status (bytesLE 4 n) s
    | _ => s

/-- A table is lost: no copy of it serves (02 R84). It is not reloaded again. -/
def tableLost (id : Nat) (s : State) : State :=
  mpCause 3 id 0 { s with ln := { s.ln with checkFails := smapSet (fun _ => 0) s.ln.checkFails id 2 } }

/-- The read of a table from an image slot: the header, then the table with its CRC (14 R455, R458); the coefficient pages have none. -/
def imageRead (slot id : Nat) (s : State) : Nat × State :=
  norQueue (.read [(imageAddr slot, 16), (imageAddr slot + 16 + imageOffset id, 4 * (tblPlace id).2 + (if id = 0 then 0 else 4))]) s

/-- The words of a table that has been read from an image slot and its CRC-32C; none where that copy fails: no header of its SEQ there, a
wrong CRC, or for the coefficient pages a record that is not valid (02 R84; 14 R456, R458). -/
def imageTaken (slot seq id : Nat) (data : List Byte) (s : State) : Option (List Word × Nat) :=
  let n := (tblPlace id).2
  let body := (data.drop 16).take (4 * n)
  let crc := crc32c body
  let ok := if id = 0 then (s.recordAt 5 (imageAddr slot)).isSome else fieldLE data (16 + 4 * n) 4 == crc
  if ok ∧ fieldLE data 0 2 = 5 ∧ fieldLE data 4 4 = seq then some (wordsOf n body, crc) else none

/-- A stream whose words a NOR job reads: once it has ended they are taken, or copy 1 is read where copy 0 fails; where both fail
TABLE_LOST is raised (02 R82, R84; 14 R458). -/
def streamRead (x : Stream) (slot seq job : Nat) (s : State) : Option Stream × State :=
  match s.nv.done.find? (fun e => e.1 == job) with
  | none => (some x, s)
  | some e =>
    let s := s.wr R.NV_SEL_TBL (slot % 2)
    match imageTaken slot seq x.table e.2.2 s with
    | some r => (some { x with src := .words r.1, crc := r.2 }, s)
    | none =>
      if slot % 2 = 0 then
        let r := imageRead (slot + 1) x.table s
        (some { x with src := .image (slot + 1) seq r.1 }, r.2)
      else (none, tableLost x.table s)

/-- Items pushed; once they have all landed, the check of a table of the active bank (02 R82), then the stream's end. -/
def streamWrite (x : Stream) (s : State) : Option Stream × State :=
  if x.phase = 0 then
    let r := streamPush 32 x s
    let s := if x.queue = 53 then drainStaging r.2 else r.2
    let x := r.1
    if !x.pieces.isEmpty then (some x, s)
    else if x.queue = 53 ∧ (s.queue 53).items.isEmpty = true then (none, streamEnd x 0 s)
    else (some { x with phase := 1 }, s)
  else if x.phase = 1 then
    if !(s.queue x.queue).items.isEmpty then (some x, s)
    else if x.queue = 53 then (none, streamEnd x 0 s)
    else if s.ln.checking.isSome then (some x, s)
    else
      let s := tblchkWrite (R.LN_TBLCHK_GO.set 1 (R.LN_TBLCHK_ID.set x.table 0)) (s.wr R.LN_TBLCRC x.crc)
      (some { x with phase := 2 }, s)
  else if s.ln.checking.isSome then (some x, s)
  else (none, streamEnd x (if s.on R.LN_TBLRES_FAIL then 0x18 else 0) s)

/-- One pass of a stream. -/
def streamStep (x : Stream) (s : State) : Option Stream × State :=
  match x.src with
  | .image slot seq job => streamRead x slot seq job s
  | _ => streamWrite x s

/-- The first stream of a parameter queue takes a pass. -/
def streamPass (q : Nat) (s : State) : State :=
  match s.mp.streams.find? (fun x => x.queue == q) with
  | none => s
  | some x =>
    let rest := s.mp.streams.filter (fun y => y != x)
    let r := streamStep x s
    { r.2 with mp := { r.2.mp with streams := r.1.toList ++ rest } }

/-- The reload of a stale table from the image in use, copy 0 first (02 R82, R84; 14 R458); without an image TABLE_LOST is raised (17
R532). -/
def reloadTable (id : Nat) (s : State) : State :=
  let fails : Nat := smapGet (fun _ => 0) s.ln.checkFails id
  if !s.stale id ∨ testB s.ln.clearStale id ∨ 2 ≤ fails ∨ s.mp.streams.any (fun x => x.queue == 52 && x.table == id) then s
  else match s.imageNewest with
    | none => tableLost id s
    | some (slot, seq) =>
      let copy0 := slot / 2 * 2
      let r := imageRead copy0 id s
      { r.2 with mp := { r.2.mp with streams := r.2.mp.streams ++ [{
          handle := 0
          table := id
          queue := 52
          src := .image copy0 seq r.1
          pieces := [((tblPlace id).1, (tblPlace id).2)] }] } }

/-- Every stale table is reloaded. -/
def reloadTables (s : State) : State := (List.range 10).foldl (fun s id => reloadTable id s) s

end Sys2Proof.Machine
end

