-- ==== Sys2Proof/Machine/CmdSafety.lean ====
section
/-! DEFINITION. Pair and safety commands (13 R434–R436, R438; 10 R361–R363; 09 R337, R338). -/

namespace Sys2Proof.Machine

/-! ### Pair, 0x07xx (R434, R435) -/

/-- PR.RELEASE. -/
def cmdPrRelease (d : Desc) : State → State := command 0x0701 [] d (fun s =>
  match s.releaseRefused with
  | some st => .final st (bytesLE 1 s.pstate) s
  | none => .go none (fun _ s => (.prRelease, releaseStart s)))

/-- PR.ENGAGE. -/
def cmdPrEngage (d : Desc) : State → State := command 0x0702 [] d (fun s =>
  if s.engageRefused then .refuse 0x04 s else .go none (fun _ s => (.prEngage, engageStart s)))

/-- The words of the set with a serial in place of PM.PSER (R435). -/
def State.wordWithSerial (s : State) (serial a : Nat) : Word :=
  if a = R.PM_PSER_LO.addr then R.PM_PSER_LO.set serial (s.word a)
  else if a = R.PM_PSER_HI.addr then R.PM_PSER_HI.set (serial / 2 ^ 32) (s.word a)
  else s.word a

/-- PR.PSER: the Signal Box holds the new serial as pending and gives the CRC of the set with it (R435); the CONFIG
records take the flag of a pending serial (14 R455, R456). -/
def cmdPrPser (d : Desc) : State → State := command 0x0703 [(8, 13, 255), (16, 19, 255)] d (fun s =>
  let serial := pnum d 8 6
  if pnum d 16 4 ≠ s.sb.code then .refuse 0x17 s
  else if s.pstate ≠ 0 ∧ s.pstate ≠ 4 then .refuse 0x01 s
  else if s.on R.SB_LOCK_OPEN ∨ s.sb.pendPser.isSome then .refuse 0x06 s
  else .go none (fun _ s =>
    let crc := paramCrc (s.wordWithSerial serial)
    let r := configSave (s.on R.SB_LOCK_LOCKED) { s with sb := { s.sb with pendPser := some serial } }
    (.prPser r.1 crc, r.2)))

/-! ### Safety, 0x08xx (R436) -/

/-- SAFE.OPEN (10 R362). -/
def cmdSafeOpen (d : Desc) : State → State := command 0x0801 [(8, 11, 255), (12, 12, 1), (16, 19, 255)] d (fun s =>
  if 1 < s.drive ∨ !s.on R.SB_STAT_STO ∨ pnum d 8 4 ≠ s.sb.code then .refuse 0x17 s
  else
    let s := (s.wr R.SB_LOCK_LOCKED 0).wr R.SB_LOCK_OPEN 1
    .final 0 [] { s with sb := { s.sb with
      code := if testB (pnum d 12 1) 0 then pnum d 16 4 else s.sb.code
      pendPser := none
      closed := false } })

/-- SAFE.CLOSE: the CRC of the set is computed, the set stored in both copies, unconfirmed (10 R363). -/
def cmdSafeClose (d : Desc) : State → State := command 0x0802 [] d (fun s =>
  if !s.on R.SB_LOCK_OPEN then .refuse 0x01 s
  else .go none (fun _ s =>
    let s := s.wr R.SB_CRC_CALC (paramCrc s.word)
    let r := configSave false { s with sb := { s.sb with closed := true, blocked := true } }
    (.safeClose r.1, r.2)))

/-- The confirmation of the closed set, or of the substituted serial (10 R363; R435). -/
def safeConfirmed (subst : Bool) (crc : Nat) (s : State) : List Nat × State :=
  let s := s.wr R.SB_CRC_CONF crc
  let s := if subst then
      let serial := s.sb.pendPser.getD 0
      let s := (s.setWord R.PM_PSER_LO.addr (s.wordWithSerial serial R.PM_PSER_LO.addr))
      let s := s.setWord R.PM_PSER_HI.addr (s.wordWithSerial serial R.PM_PSER_HI.addr)
      { s with sb := { s.sb with pendPser := none } }
    else
      let s := ((s.wr R.SB_LOCK_LOCKED 1).wr R.SB_LOCK_OPEN 0).wr R.SB_STAT_CRCERR 0
      ({ s with sb := { s.sb with closed := false } }).event Ev.COMMISSIONED 0
  configSave true s

/-- SAFE.CONFIRM (R436, R346): a wrong CRC with SUBST = 0 asks for a new close, with SUBST = 1 discards the serial. -/
def cmdSafeConfirm (d : Desc) : State → State := command 0x0803 [(8, 11, 255), (12, 12, 1)] d (fun s =>
  let subst := testB (pnum d 12 1) 0
  let conf := bytesLE 4 (s.rd R.SB_CRC_CONF)
  let want := match s.sb.pendPser with
    | some serial => if subst then paramCrc (s.wordWithSerial serial) else s.rd R.SB_CRC_CALC
    | none => s.rd R.SB_CRC_CALC
  if subst = true ∧ s.sb.pendPser.isNone = true then .final 0x01 conf s
  else if subst = false ∧ !s.sb.closed then .final 0x01 conf s
  else if subst = false ∧ (List.range 4).any (fun i => 6 ≤ s.rd (R.SB_SINi_CFG_ROLE i)) then .final 0x04 conf s
  else if pnum d 8 4 ≠ want then
    .final 0x18 conf (if subst then { s with sb := { s.sb with pendPser := none } } else { s with sb := { s.sb with closed := false } })
  else .go none (fun _ s =>
    let r := safeConfirmed subst want s
    (.safeConfirm r.1, r.2)))

/-- SAFE.STATUS. -/
def cmdSafeStatus (d : Desc) : State → State := command 0x0804 [] d (fun s =>
  .final 0 (bytesLE 2 (s.rd R.SB_SFLT) ++ bytesLE 1 (s.rd R.SB_FIRST_CODE)
    ++ bytesLE 1 (s.rd R.SB_LOCK_LOCKED + 2 * s.rd R.SB_LOCK_OPEN + 4 * b2n s.sb.closed + 8 * b2n s.sb.pendPser.isSome)
    ++ bytesLE 4 (s.rd R.SB_FIRST_TICK) ++ bytesLE 4 (s.rd R.SB_CRC_CALC) ++ bytesLE 4 (s.rd R.SB_CRC_CONF)) s)

end Sys2Proof.Machine
end

