-- ==== Sys2Proof/Machine/CmdTest.lean ====
section
/-! DEFINITION. Diagnostic, test, trace and event commands (13 R431, R432; 15 R468–R490). -/

namespace Sys2Proof.Machine

/-! ### Diagnostics and tests, 0x04xx (R431) -/

/-- The conditions of a command marked idle: the stage idle, and the module of a pair released (R431; 09 R341). -/
def State.idleOk (s : State) : Bool := s.stageIdle && (s.pstate == 0 || s.pstate == 5)

/-- DIAG.OFFSTATE. -/
def cmdDiagOffstate (d : Desc) : State → State := command 0x0401 [(8, 8, 1)] d (fun s =>
  if !s.idleOk ∨ (s.rd R.PM_CFG_CONF = 2 ∧ s.on R.PM_STAT_CHGIN) then .refuse 0x19 s
  else if s.vdc < 5 / 100 then .refuse 0x04 s
  else if s.idleRuns then .refuse 0x06 s
  else .go none (fun _ s => (.diag, diagGo (s.wr R.GD_DIAG_CTL_LOAD (pnum d 8 1)))))

/-- BIST.LANE. -/
def cmdBistLane (d : Desc) : State → State := command 0x0402 [(8, 8, 255)] d (fun s =>
  let l := pnum d 8 1
  if 3 < l then .refuse 0x11 s
  else if s.on R.LN_STAT_DEGRADED ∨ testB (s.rd R.LN_STAT_UNUSABLE) l then .refuse 0x04 s
  else if s.anyWork (fun k => match k with | .bist _ x 0 => x == l | _ => false) then .refuse 0x06 s
  else .go none (fun h s => (.bist h l 0, bistQueue { id := h, kind := 1, lane := l } s)))

/-- The targets of BIST.MEM: lane data and BIST scratch; the Granary has no bus address (15 R468; 01 R50). -/
def bistRange (a n : Nat) : Bool := decide (0x10120000 ≤ a ∧ a + n ≤ 0x10300000)

/-- BIST.MEM. -/
def cmdBistMem (d : Desc) : State → State := command 0x0403 [(8, 8, 255), (12, 19, 255)] d (fun s =>
  let mode := pnum d 8 1
  let a := pnum d 12 4
  let n := pnum d 16 4
  if 1 < mode ∨ n = 0 then .refuse 0x11 s
  else if !bistRange a n then .refuse 0x13 s
  else if mode = 1 ∧ !s.idleOk then .refuse 0x19 s
  else .go none (fun h s => (.bist h 0 n, bistQueue { id := h, kind := 2 + mode, start := a, len := n } s)))

/-- BIST.GATE. -/
def cmdBistGate (d : Desc) : State → State := command 0x0404 [(8, 8, 127)] d (fun s =>
  if !s.idleOk then .refuse 0x19 s
  else .go none (fun h s => (.bist h 0 0, bistQueue { id := h, kind := 4, mask := pnum d 8 1 } s)))

/-- CAL.PASS. -/
def cmdCalPass (d : Desc) : State → State := command 0x0405 [] d (fun s =>
  if !s.on R.SD_CAL_CTL_EN ∨ s.on R.SD_CAL_STAT_CALERR then .refuse 0x04 s
  else .go none (fun _ s => (.calPass (s.rd R.SD_CAL_STAT_PASSES) s.sd.cal.applied s.sd.cal.ranged, s)))

/-- A scan of Q60 started on a free channel, or kept waiting (15 R477). -/
def crcBegin (id poly start len exp : Nat) (s : State) : WorkKind × State :=
  match ccJob id poly start len exp s with
  | some t => (.crcScan id, t)
  | none => (.crcWait poly start len exp, s)

/-- CRC.SCAN. -/
def cmdCrcScan (d : Desc) : State → State := command 0x0406 [(8, 8, 255), (12, 23, 255)] d (fun s =>
  let poly := pnum d 8 1
  let start := pnum d 12 4
  let len := pnum d 16 4
  if 3 < poly ∨ len = 0 then .refuse 0x11 s
  else if 0x1000000 < len ∨ !busRange start len then .refuse 0x13 s
  else .go none (fun h s => crcBegin h poly start len (pnum d 20 4) s))

/-! ### Trace and events, 0x05xx (R432; 15 R483–R490) -/

/-- The trigger word is refused (15 R485). -/
def trigBad (t : Nat) : Bool :=
  let cond := t / 2 ^ 60
  decide (10 ≤ cond) || t / 2 ^ 48 % 2 ^ 11 != 0 || (decide (1 ≤ cond ∧ cond ≤ 6) && !nodeOk (t / 2 ^ 32 % 2 ^ 16))

/-- TR.CONFIG: one whose ring would not be configured by it is refused (15 R483; 17 R540). -/
def cmdTrConfig (d : Desc) : State → State := command 0x0501 [(8, 27, 255)] d (fun s =>
  let r := pnum d 8 1
  let sig := pnum d 9 1
  let off := pnum d 24 4
  let trig := pnum d 16 8
  if 15 < r ∨ (sig ≠ 8 ∧ sig ≠ 32) ∨ pnum d 10 2 = 0 ∨ bulkBad off (2 * sig) ∨ trigBad trig then .refuse 0x11 s
  else if s.ringBusy r then .refuse 0x06 s
  else withBulk d off (2 * sig) s (fun b s =>
    let nodes := (List.range sig).map (fun i => fieldLE b (2 * i) 2)
    let t := ringConfig r (pnum d 10 2) (pnum d 12 4) (sig == 32) trig nodes s
    if nodes.any (fun n => !nodeOk n) ∨ !t.bit R.TE_STAT_CONFIGURED r then .refuse 0x11 s
    else .final 0 (bytesLE 1 r) t))

/-- TR.ARM. -/
def cmdTrArm (d : Desc) : State → State := command 0x0502 [(8, 11, 255)] d (fun s =>
  let arm := pnum d 8 2
  if (ringsOf arm).any (fun r => !s.ringConfigured r) then .refuse 0x04 s
  else
    let s := teArm arm (teDisarm (pnum d 10 2) s)
    .final 0 (bytesLE 2 (s.rd R.TE_STAT_ARMED)) s)

/-- TR.TRIGGER. -/
def cmdTrTrigger (d : Desc) : State → State := command 0x0503 [(8, 9, 255)] d (fun s =>
  let rings := pnum d 8 2
  if (ringsOf rings).any (fun r => !s.bit R.TE_STAT_ARMED r) then .refuse 0x04 s
  else .final 0 (bytesLE 4 s.tickno) (teTrig rings s))

/-- Failing guards met in a readout are counted and logged (15 R486). -/
def guardCount (r bad : Nat) (s : State) : State :=
  if bad = 0 then s
  else ((s.add (R.TE_Rr_BADBLK r) bad).add R.TE_GUARDERR bad).mpEvent Ev.TRACE_GUARD (bytesLE 1 r ++ [0, 0, 0] ++ bytesLE 4 bad)

/-- TR.READ. -/
def cmdTrRead (d : Desc) : State → State := command 0x0504 [(8, 8, 255), (12, 23, 255)] d (fun s =>
  let r := pnum d 8 1
  let n := pnum d 16 4
  let off := pnum d 20 4
  if 15 < r ∨ n = 0 ∨ 0x8000 < n ∨ bulkBad off n then .refuse 0x11 s
  else if !s.bit R.TE_STAT_STOPPED r then .refuse 0x01 s
  else .go (some (off, off + n)) (fun _ s =>
    let x := s.ringRead r (signedOf 32 (pnum d 12 4)) n
    let b := x.2.flatMap (fun k => k.words.flatMap (fun w => bytesLE 4 w.toNat))
    let tb : Int := ((s.ring r).trigTb : Int) + x.1 * ((max 1 (s.rd (R.TE_Rr_CFG_DEC r)) * s.period : Nat) : Int)
    let s := guardCount r (badBlocks (s.ringSignals r) x.2) (bulkPut off b s)
    (.ready 0 (bytesLE 4 b.length ++ bytesLE 8 (wrapTo 64 tb)), s)))

/-- Spans of NOR read into the bulk area through a job of Q56, other bytes after them (01 R49); with no span nothing is read. -/
def readWork (spans : List (Nat × Nat)) (off : Nat) (tail result : List Byte) (s : State) : WorkKind × State :=
  if spans.isEmpty then (.ready 0 result, bulkPut off tail s)
  else
    let r := norQueue (.read spans) s
    (.norRead r.1 off tail result, r.2)

/-- EV.READ: the records that stand in NOR, and those that the MP still buffers (15 R490). -/
def cmdEvRead (d : Desc) : State → State := command 0x0505 [(8, 19, 255)] d (fun s =>
  let n := pnum d 14 2
  let off := pnum d 16 4
  if n = 0 ∨ 1024 < n ∨ bulkBad off (32 * n) then .refuse 0x11 s
  else .go (some (off, off + 32 * n)) (fun _ s =>
    let first := max (pnum d 8 6) s.logOld
    let k := min n (s.logSeq - first)
    let tail := (s.mp.buffer.filter (fun r => decide (first ≤ fieldLE r 0 6 ∧ fieldLE r 0 6 < first + k))).flatten
    let inNor := k - tail.length / 32
    readWork (s.logSpans first inNor) off tail (bytesLE 6 first ++ bytesLE 2 k ++ bytesLE 6 (first + k)) s))

end Sys2Proof.Machine
end

