-- ==== Sys2Proof/Machine/CmdLink.lean ====
section
/-! DEFINITION. Link and consist commands (13 R433; 08 R295, R302, R303, R311, R317). -/

namespace Sys2Proof.Machine

/-- LK.ENUM. -/
def cmdLkEnum (d : Desc) : State → State := command 0x0601 [] d (fun s =>
  if !s.isRoot then .refuse 0x01 s else .go none (fun _ s => (.enumerate, enumStart s)))

/-- The own share scale, in the format of LN.OL_TMAXM. -/
def State.ownTsc (s : State) : Nat := max (s.rd R.LN_OL_TMAXM) (s.rd R.LN_OL_TMAXG)

/-- A consist number is free: the root knows no consist of it, another unit no port mask. -/
def State.consistFree (s : State) (c : Nat) : Bool := s.rd (R.BL_CM_c c) == 0 && s.bl.consists.all (fun x => x.1 != c)

/-- The unit may form a consist (08 R302). -/
def State.mayForm (s : State) : Bool :=
  s.rd R.BL_ROLE_KIND == 0 && s.windowValid
    && (s.drive == 2 || (s.drive == 3 && s.sub == 0 && 1 ≤ s.rd R.LN_MD_STAT_MODE && s.rd R.LN_MD_STAT_MODE ≤ 4
      && (s.rd R.LN_OL_STAT_START == 0 || s.rd R.LN_OL_STAT_START == 4)))

/-- CS.FORM. -/
def cmdCsForm (d : Desc) : State → State := command 0x0602 [(8, 8, 255), (10, 13, 255)] d (fun s =>
  let c := pnum d 8 1
  let deputy := pnum d 10 2
  if (127 < c ∧ c ≠ 0xFF) ∨ 1024 < deputy then .refuse 0x11 s
  else if !s.linkLocked then .refuse 0x04 s
  else if !s.mayForm then .refuse 0x01 s
  else if s.rd R.BL_WIN_LEN < exchangeBound 0 1 1 then .refuse 0x22 s
  else
    let pick := if c = 0xFF then (List.range 128).find? s.consistFree else some c
    match pick with
    | none => .refuse 0x21 s
    | some c => if !s.consistFree c then .refuse 0x01 s else .go none (fun _ s => (.csForm c (pnum d 12 2) deputy, s)))

/-- The head role takes effect (08 R300, R302): slot 0 of the map is the own unit, with its weight and share scale. -/
def formConsist (consist weight deputy : Nat) (s : State) : State :=
  let s := roleChange 1 consist 0 s
  let s := slotWrite 0 s.uid (s.rd R.BL_EPOCH) weight s.ownTsc s
  let s := (s.wr R.BL_CS_UNITS_HEAD s.uid).wr R.BL_CS_UNITS_DEPUTY 0
  consistReport s.uid 0 true (loadPost (0, 1, 1)
    { s with bl := { s.bl with f := 1, fadeDir := 0, deputyNamed := deputy, memberHops := [], noContrib := 0, contribs := [] } })

/-- An add or a removal of the head is pending (08 R302). -/
def State.consistPending (s : State) : Bool :=
  s.bl.add.isSome || s.anyWork (fun k => match k with | .csAdd | .csRemove _ | .csDissolve _ => true | _ => false)

/-- Hops to a unit: the root knows the links; another head has no rule that tells it, and the number is open. -/
def hopsTo (uid : Nat) (s : State) : Nat × State :=
  if s.isRoot then (s.topology.hops s.uid uid, s) else s.drawBits 6

/-- The offer of a join sent, J 64 ticks ahead (08 R303). -/
def addStart (uid slot weight hops : Nat) (load : Nat × Nat × Nat) (s : State) : State :=
  let j := (s.rd R.BL_SN + 64) % 2 ^ 32
  let e := s.drawBits 16
  let n := nsofs load.1 load.2.1
  let s := sendMsg 7 uid e.1 (.consist (.offer (Fin.ofNat 128 (s.rd R.BL_ROLE_CONSIST)) (Fin.ofNat 64 slot) (BitVec.ofNat 32 j)
    (BitVec.ofNat 16 (s.rd R.BL_EPOCH)) (uid == s.bl.deputyNamed) (BitVec.ofNat 15 s.period) (s.word R.BL_WIN_OPEN.addr)
    (BitVec.ofNat 16 n))) e.2
  let s := loadPost load (s.wr R.BL_CS_NSOFS n)
  { s with bl := { s.bl with
    memberHops := smapSet (fun _ => 0) s.bl.memberHops uid hops
    ended := none
    add := some { uid := uid, slot := slot, weight := weight, sn := j, answer := none } } }

/-- CS.ADD. -/
def cmdCsAdd (d : Desc) : State → State := command 0x0603 [(10, 14, 255)] d (fun s =>
  let uid := pnum d 10 2
  let slot := pnum d 14 1
  if uid = 0 ∨ 1024 < uid ∨ slot = 0 ∨ (63 < slot ∧ slot ≠ 0xFF) then .refuse 0x11 s
  else if !s.isHead then .refuse 0x01 s
  else if s.consistPending then .refuse 0x06 s
  else if 64 ≤ s.slotsUsed.length then .refuse 0x20 s
  else if (s.slotOf uid).isSome ∨ uid = s.uid then .refuse 0x01 s
  else
    let pick := if slot = 0xFF then ((List.range 64).drop 1).find? (fun i => !s.slotsUsed.contains i) else some slot
    match pick with
    | none => .refuse 0x20 s
    | some slot =>
      if s.slotsUsed.contains slot then .refuse 0x11 s
      else
        let h := hopsTo uid s
        let s := h.2
        let load := s.consistLoad ((slot, uid) :: s.memberSlots) (fun u => if u = uid then h.1 else s.memberHops u)
        if s.rd R.BL_WIN_LEN < exchangeBound load.1 load.2.1 load.2.2 then .refuse 0x22 s
        else .go none (fun _ t => (.csAdd, addStart uid slot (pnum d 12 2) h.1 load { t with free := s.free })))

/-- A removal cell to a member (08 R303). -/
def removeCell (slot uid : Nat) (s : State) : State := sendMsg 7 uid (s.rd (R.BL_CS_Ms_ID_EPOCH slot)) (.consist .remove) s

/-- CS.REMOVE. -/
def cmdCsRemove (d : Desc) : State → State := command 0x0604 [(10, 11, 255)] d (fun s =>
  let uid := pnum d 10 2
  match (if s.isHead ∧ uid ≠ s.uid then s.slotOf uid else none) with
  | none => .refuse 0x01 s
  | some slot => .go none (fun _ s =>
    (.csRemove uid, removeCell slot uid { s with bl := { s.bl with removing := some uid } })))

/-- CS.DISSOLVE: as a removal of every member. -/
def cmdCsDissolve (d : Desc) : State → State := command 0x0605 [] d (fun s =>
  if !s.isHead then .refuse 0x01 s
  else .go none (fun _ s =>
    (.csDissolve s.memberSlots.length, s.memberSlots.foldl (fun s m => removeCell m.1 m.2 s) s)))

end Sys2Proof.Machine
end

