-- ==== Sys2Proof/Machine/CmdFirmware.lean ====
section
/-! DEFINITION. NOR and firmware commands (13 R437; 09 R339, R340; 14 R453–R458). -/

namespace Sys2Proof.Machine

/-- The journal with a step in progress. -/
def Journal.step (j : Journal) (h op : Nat) (d : Desc) : Journal :=
  { j with handle := h, ctag := d.ctag.toNat, opcode := op, queue := d.queue.val }

/-- The journal with no step in progress. -/
def Journal.idle (j : Journal) : Journal := { j with handle := 0, ctag := 0, opcode := 0, queue := 0 }

/-- The partner's block shows FWPEND (09 R340). -/
def State.partnerSwaps (s : State) : Bool := s.pm.block.any (·.fwpend)

/-- A swap of firmware is pending. -/
def State.swapPending (s : State) : Bool := s.nv.journal.istate == 4

/-- A firmware step is in progress. -/
def State.stepRuns (s : State) : Bool := s.nv.journal.handle != 0

/-- The inactive slot: its address and its sectors (14 R453). -/
def State.idleSlot (s : State) : Nat := s.slotBase false
def State.idleSectors (s : State) : List Nat := (List.range 256).map (fun i => s.idleSlot / norSector + i)

/-- An erase of the whole inactive slot is queued or runs (17 R534). -/
def State.slotErasing (s : State) : Bool :=
  (s.nv.wait ++ s.nv.jobs ++ s.nv.run.toList ++ s.nv.aside.toList).any (fun j => match j.req with
    | .region ss _ b _ => ss == s.idleSectors && b.isEmpty
    | .store _ _ _ | .read _ => false)

/-- FW.STAGE: a chunk written into the inactive slot, the one at offset 0 after an erase of it (R437). -/
def cmdFwStage (d : Desc) : State → State := command 0x0901 [(8, 23, 255)] d (fun s =>
  let off := pnum d 8 4
  let len := pnum d 12 4
  let bulk := pnum d 16 4
  let j := s.nv.journal
  let total := if off = 0 then pnum d 20 4 else j.total
  if off % 4096 ≠ 0 ∨ len = 0 ∨ 0x8000 < len ∨ bulkBad bulk len ∨ 0x1000000 < total ∨ total < off + len then .refuse 0x11 s
  else if s.swapPending ∨ s.partnerSwaps ∨ s.stepRuns then .refuse 0x06 s
  else if off ≠ 0 ∧ !(j.istate = 1 ∧ j.staged = off) then .refuse 0x11 s
  else if s.norFull ∨ s.idleSectors.any s.isRetired then .refuse 0x1D s
  else withBulk d bulk len s (fun b s => .go (some (bulk, bulk + len)) (fun h s =>
    let before : Journal := { j with istate := 1, total := total, staged := off, iver := 0 }
    let after : Journal := { before with istate := if off + len = total then 2 else 1, staged := off + len }
    let erase := if off = 0 ∧ !s.slotErasing then s.idleSectors else []
    let s := journalSave (before.step h 0x0901 d) s
    let r := norQueue (.region erase (s.idleSlot + off) b false) s
    (.firmware [r.1] after 0 (bytesLE 4 (off + len)), r.2)) (some s)))

/-- FW.VERIFY: the staged image is read, then its hash and signature are checked (09 R339). -/
def cmdFwVerify (d : Desc) : State → State := command 0x0902 [] d (fun s =>
  let j := s.nv.journal
  if !((j.istate = 2 ∨ j.istate = 3) ∧ j.staged = j.total) ∨ s.stepRuns then .refuse 0x01 s
  else .go none (fun h s =>
    let r := norQueue (.read [(s.idleSlot, j.total)]) (journalSave (j.step h 0x0902 d) s)
    (.fwVerify r.1, r.2)))

/-- FW.SWAP (R430, R437, R441; 09 R340). -/
def cmdFwSwap (d : Desc) : State → State := command 0x0903 [(8, 8, 1), (12, 15, 255)] d (fun s =>
  let abs := testB (pnum d 8 1) 0
  let j := s.nv.journal
  match s.tickRefused abs (pnum d 12 4) with
  | some st => .refuse st s
  | none =>
    if s.swapPending ∨ s.partnerSwaps ∨ s.stepRuns ∨ s.parSaves then .refuse 0x06 s
    else if j.istate ≠ 3 then .refuse 0x01 s
    else .go none (fun h s =>
      let tick := if abs then pnum d 12 4 else s.tick64
      (.fwSwap tick, journalSave ({ j with istate := 4, swaptick := tick }.step h 0x0903 d) s)))

/-- FW.DISCARD. -/
def cmdFwDiscard (d : Desc) : State → State := command 0x0904 [] d (fun s =>
  let j := s.nv.journal
  if s.swapPending ∨ s.stepRuns then .refuse 0x06 s
  else .go none (fun h s =>
    let erase := if s.slotErasing then [] else s.idleSectors
    let s := journalSave (j.step h 0x0904 d) s
    let r := norQueue (.region erase s.idleSlot [] false) s
    (.firmware [r.1] { j with istate := 0, total := 0, staged := 0, iver := 0, digest := [] } 0 [], r.2)))

/-- The regions of NV.READ: address and size (14 R453). -/
def nvRegion : Nat → Nat × Nat
  | 1 => (0x00200000, 0x1000000)
  | 2 => (0x01200000, 0x1000000)
  | 3 => (0x02200000, 0x40000)
  | 4 => (0x02240000, 0x40000)
  | 5 => (0x02280000, 0x800000)
  | 6 => (0x02A80000, 3416 * 0x10000)
  | _ => (0, 0)

/-- NV.READ. -/
def cmdNvRead (d : Desc) : State → State := command 0x0905 [(8, 8, 255), (12, 23, 255)] d (fun s =>
  let r := nvRegion (pnum d 8 1)
  let off := pnum d 12 4
  let len := pnum d 16 4
  let bulk := pnum d 20 4
  if len = 0 ∨ 0x8000 < len ∨ r.2 < off + len ∨ bulkBad bulk len then .refuse 0x11 s
  else .go (some (bulk, bulk + len)) (fun _ s => readWork [(r.1 + off, len)] bulk [] (bytesLE 4 len) s))

/-! ### The pop (12 R405, R407, R408) -/

/-- An opcode that no command has (13 R422). -/
def badOpcode (op : Nat) (d : Desc) (s : State) : State :=
  if !s.mpServes ∨ s.mp.stall.isSome then s
  else match d.parity with
    | some a => runPlan op d s (.refuse 0x16 (s.event Ev.SRAM_PARITY 5 (bytesLE 4 a.toNat)))
    | none => runPlan op d s (.refuse (if s.on R.SYS_BOOT_RECOVERY then 0x01 else 0x10) s)

/-- The command of a descriptor by its opcode (13 R422). -/
def dispatchOpcode (op : Nat) (d : Desc) : State → State :=
  match op with
  | 0x0101 => cmdSysInfo d
  | 0x0102 => cmdSysNop d
  | 0x0103 => cmdSysQuery d
  | 0x0104 => cmdSysCancel d
  | 0x0105 => cmdSysAttnClr d
  | 0x0106 => cmdSysTime d
  | 0x0107 => cmdSysTimetable d
  | 0x0108 => cmdSysReset d
  | 0x0201 => cmdMdEnable d
  | 0x0202 => cmdMdDisable d
  | 0x0203 => cmdMdStart d
  | 0x0204 => cmdMdStop d
  | 0x0205 => cmdMdEmergency d
  | 0x0206 => cmdMdMode d
  | 0x0207 => cmdMdReset d
  | 0x0210 => cmdSpWrite d
  | 0x0211 => cmdSpWriteN d
  | 0x0301 => cmdRegRead d
  | 0x0302 => cmdRegWrite d
  | 0x0303 => cmdParStage d
  | 0x0304 => cmdTblLoad d
  | 0x0305 => cmdBankSwap d
  | 0x0306 => cmdBankCopy d
  | 0x0307 => cmdParSave d
  | 0x0308 => cmdFbCorrect d
  | 0x0401 => cmdDiagOffstate d
  | 0x0402 => cmdBistLane d
  | 0x0403 => cmdBistMem d
  | 0x0404 => cmdBistGate d
  | 0x0405 => cmdCalPass d
  | 0x0406 => cmdCrcScan d
  | 0x0501 => cmdTrConfig d
  | 0x0502 => cmdTrArm d
  | 0x0503 => cmdTrTrigger d
  | 0x0504 => cmdTrRead d
  | 0x0505 => cmdEvRead d
  | 0x0601 => cmdLkEnum d
  | 0x0602 => cmdCsForm d
  | 0x0603 => cmdCsAdd d
  | 0x0604 => cmdCsRemove d
  | 0x0605 => cmdCsDissolve d
  | 0x0701 => cmdPrRelease d
  | 0x0702 => cmdPrEngage d
  | 0x0703 => cmdPrPser d
  | 0x0801 => cmdSafeOpen d
  | 0x0802 => cmdSafeClose d
  | 0x0803 => cmdSafeConfirm d
  | 0x0804 => cmdSafeStatus d
  | 0x0901 => cmdFwStage d
  | 0x0902 => cmdFwVerify d
  | 0x0903 => cmdFwSwap d
  | 0x0904 => cmdFwDiscard d
  | 0x0905 => cmdNvRead d
  | op => badOpcode op d

/-- Spoiled ranges that no descriptor in front of them waits for any more. -/
def spoilsPrune (s : State) : State :=
  { s with hs := { s.hs with spoils := s.hs.spoils.filter (fun x => (List.range 4).any (fun c =>
    let left := wrapTo 16 (((x.2.2[c]?).getD 0 : Int) - s.rd (R.HS_CQc_HEAD c))
    decide (1 ≤ left ∧ left ≤ 32768))) } }

/-- DESCRIPTOR_POP: the firmware pops the head of the queue that it serves next and carries its command out. -/
def descriptorPop (parity bulkParity : Option (BitVec 32)) (s : State) : State :=
  if !s.mpServes ∨ s.mp.stall.isSome then s
  else match s.nextQueue with
    | none => s
    | some c =>
      let b := s.headBytes c
      let d : Desc := {
        queue := Fin.ofNat 4 c
        dseq := BitVec.ofNat 16 (s.rd (R.HS_CQc_HEAD c))
        flags := BitVec.ofNat 8 (fieldLE b 2 1)
        reserved := BitVec.ofNat 8 (fieldLE b 3 1)
        handle := BitVec.ofNat 16 (fieldLE b 4 2)
        ctag := BitVec.ofNat 16 (fieldLE b 6 2)
        param := b.drop 8
        parity := parity
        bulkParity := bulkParity }
      spoilsPrune (dispatchOpcode (fieldLE b 0 2) d (popHead c s))

end Sys2Proof.Machine
end

