-- ==== Sys2Proof/Machine/Works.lean ====
section
/-! DEFINITION. The completion of commands that have a handle, and the firmware's pass at a tick boundary (12 R410, R411; 13 R426–R441). -/

namespace Sys2Proof.Machine

/-! ### Drive requests (13 R427) -/

/-- A drive request completes. -/
def mdFinish (w : Work) (result : Nat) (s : State) : State := finish w result (s.mdResult result) s

/-- A drive request that waits for an outcome: ENABLE for the precharge, START for START = 4, STOP for READY; what has ended it first. -/
def mdWait (w : Work) (code : Nat) (s : State) : State :=
  let first : Nat := (((s.seq.done.filter (fun e => e.1 == code)).head?).map (·.2)).getD 1
  if code = 1 then (if s.seq.enabling then s else mdFinish w first s)
  else if code = 3 then (if s.seq.starting then s else mdFinish w first s)
  else if s.drive = 4 then s
  else mdFinish w (if s.drive = 2 then 0 else if s.drive = 5 ∨ s.drive = 6 then 2 else if s.drive = 1 then 7 else 1) s

/-- A drive request: once it has been evaluated it completes, or waits for its outcome (`code` + 16). -/
def mdPoll (w : Work) (code : Nat) (s : State) : State :=
  if 16 ≤ code then mdWait w (code - 16) s
  else if s.seq.req.isSome then s
  else match ((s.seq.done.filter (fun e => e.1 == code)).getLast?) with
    | some (_, r) => if code = 4 ∧ r = 0 then setWork w (.md (code + 16)) s else mdFinish w r s
    | none => if code = 1 ∨ code = 3 then setWork w (.md (code + 16)) s else mdFinish w (s.rd R.LN_MD_RES_RESULT) s

/-! ### Other completions -/

/-- SYS.TIMETABLE: the change is decided (13 R426; 02 R546). -/
def timetablePoll (w : Work) (s : State) : State :=
  if s.on R.TT_STAT_PEND then s
  else finish w (rejectStatus (s.tt.done.getD 0)) (bytesLE 1 (s.rd R.TT_STAT_REJCODE) ++ [0, 0, 0] ++ bytesLE 4 s.tickno) s

/-- BANK.SWAP: the swap has been decided at its boundary (04 R156). -/
def bankSwapPoll (w : Work) (s : State) : State :=
  match s.ln.bankDone with
  | none => s
  | some ok => finish w (if ok then 0 else 6) (bytesLE 4 s.tickno ++ bytesLE 1 (s.rd R.LN_BANK_ACTIVE)) s

/-- Whether every one of a list of NOR jobs has ended, and whether all of them failed. -/
def State.jobsEnd (s : State) (jobs : List Nat) : Option Bool :=
  if jobs.all (fun j => s.nv.done.any (fun e => e.1 == j)) then
    some (!jobs.isEmpty && jobs.all (fun j => s.nv.done.any (fun e => e.1 == j && e.2.1)))
  else none

/-- The bytes that a job has read, once it has ended. -/
def State.jobData (s : State) (job : Nat) : Option (List Byte) := (s.nv.done.find? (fun e => e.1 == job)).map (·.2.2)

/-- PAR.SAVE: the image in use has been read, one of its copies (14 R458, R467). -/
def parReadPoll (w : Work) (job : Nat) (pages tables : Bool) (s : State) : State :=
  match s.jobData job with
  | none => s
  | some old =>
    let s := match s.imageNewest with
      | some r => s.wr R.NV_SEL_TBL (r.1 % 2)
      | none => s
    let r := parWrite pages tables old s
    setWork w r.1 r.2

/-- PAR.SAVE: both slots written, or neither (13 R429, R425). -/
def parSavePoll (w : Work) (jobs : List Nat) (seq : Nat) (s : State) : State :=
  match s.jobsEnd jobs with
  | none => s
  | some true => finish w 0x1D [] s
  | some false =>
    if jobs.isEmpty then finish w 0x1D [] s
    else
      let s := match s.imageNewest with
        | some r => s.wr R.NV_TBLSEQ r.2
        | none => s
      finish w 0 (bytesLE 4 seq) s

/-- DIAG.OFFSTATE (13 R431; 06 R239, R241). -/
def diagPoll (w : Work) (s : State) : State :=
  if s.gd.diag.isSome then s
  else
    let r := bytesLE 1 (s.rd R.GD_DIAG_RES_U) ++ bytesLE 1 (s.rd R.GD_DIAG_RES_V) ++ bytesLE 1 (s.rd R.GD_DIAG_RES_W)
      ++ bytesLE 1 (s.rd R.GD_DIAG_RES_K) ++ bytesLE 4 s.tickno
    finish w (if s.on R.GD_DIAG_RES_DONE then 0 else 0x1A) r s

/-- The bytes that a memory job has tested: its range where it passed; slices of 256 B; of a full test that failed the number is open. -/
def bistBytes (op : Nat) (e : BistEnd) (len : Nat) (s : State) : Nat × State :=
  if e.status = 0 ∨ op ≠ 0x0403 then (len, s)
  else if 0 < e.slices then (min len (256 * e.slices), s)
  else s.drawBits 32

/-- A BIST command: the job's result (13 R431; 15 R472). -/
def bistPoll (w : Work) (job lane len : Nat) (s : State) : State :=
  match s.bi.done.find? (fun e => e.id == job) with
  | none => s
  | some e =>
    let bad := e.status == 0x1E
    let addr := if bad then e.addr else 0
    let bit := if bad then e.bit else 0
    let n := bistBytes w.opcode e len s
    let r := if w.opcode = 0x0402 then
        bytesLE 1 (b2n bad) ++ bytesLE 1 lane ++ [0, 0] ++ bytesLE 4 addr ++ bytesLE 1 bit ++ [0, 0, 0] ++ bytesLE 4 e.slices
      else if w.opcode = 0x0403 then [0, 0, 0, 0] ++ bytesLE 4 addr ++ bytesLE 1 bit ++ [0, 0, 0] ++ bytesLE 4 n.1
      else bytesLE 1 e.channels ++ [0, 0, 0] ++ bytesLE 4 (addr % 256)
    finish w e.status r n.2

/-- CAL.PASS: the next pass is complete, or calibration has stopped (13 R431; 03 R103, R105). -/
def calPassPoll (w : Work) (passes applied ranged : Nat) (s : State) : State :=
  if !s.on R.SD_CAL_CTL_EN ∨ s.on R.SD_CAL_STAT_CALERR then finish w 4 [] s
  else if s.rd R.SD_CAL_STAT_PASSES = passes then s
  else finish w 0 (bytesLE 2 (s.rd R.SD_CAL_STAT_PASSES) ++ bytesLE 1 (s.sd.cal.applied - applied)
    ++ bytesLE 1 (s.sd.cal.ranged - ranged)) s

/-- CRC.SCAN: a free channel, then the result (13 R431; 15 R477). -/
def crcWaitPoll (w : Work) (poly start len exp : Nat) (s : State) : State :=
  let r := crcBegin w.handle poly start len exp s
  setWork w r.1 r.2
def crcScanPoll (w : Work) (job : Nat) (s : State) : State :=
  match s.cc.done.find? (fun e => e.1 == job) with
  | none => s
  | some e => finish w e.2.1 (bytesLE 4 e.2.2) s

/-- LK.ENUM: every branch that is up has been reported (13 R433; 08 R295). -/
def enumPoll (w : Work) (s : State) : State :=
  if !s.isRoot then finish w 1 [] s
  else if !s.bl.todo.isEmpty then s
  else finish w 0 (bytesLE 2 (s.bl.units.length + b2n (s.uid != 0)) ++ bytesLE 2 s.bl.refused) s

/-- CS.FORM: the head role takes effect (13 R433). -/
def csFormPoll (w : Work) (consist weight deputy : Nat) (s : State) : State :=
  let s := formConsist consist weight deputy s
  finish w 0 (bytesLE 1 consist ++ [0] ++ bytesLE 2 (s.rd R.BL_EPOCH)) s

/-- CS.ADD: at J, or when the unit has refused; a head that has lost its role in between completes with EPOCH_STALE (08 R302, R317). -/
def csAddPoll (w : Work) (s : State) : State :=
  match s.bl.ended with
  | some (st, slot, j, epoch) =>
    finish w st (bytesLE 1 slot ++ [0, 0, 0] ++ bytesLE 4 j ++ bytesLE 2 epoch) { s with bl := { s.bl with ended := none } }
  | none => if s.isHead then s else finish w 0x23 [] { s with bl := { s.bl with add := none } }

/-- CS.REMOVE: the unit has left the map (13 R433; 08 R303). -/
def csRemovePoll (w : Work) (uid : Nat) (s : State) : State :=
  if !s.isHead then finish w 0x23 [] s
  else if (s.slotOf uid).isSome then s
  else finish w 0 (bytesLE 2 s.bl.goneEpoch) { s with bl := { s.bl with removing := none } }

/-- CS.DISSOLVE: every member has left; the head's role becomes NONE (13 R433; 08 R302). -/
def csDissolvePoll (w : Work) (removed : Nat) (s : State) : State :=
  if !s.isHead then finish w 0x23 [] s
  else if !s.memberSlots.isEmpty then s
  else
    let s := roleChange 0 0 0 (slotFree s.ownSlot (consistReport s.uid 0 false s))
    finish w 0 (bytesLE 1 removed) ((s.wr R.BL_CS_UNITS_HEAD 0).wr R.BL_CS_UNITS_DEPUTY 0)

/-- PR.RELEASE: PSTATE is RELEASED; a release that a loss of the partner has ended completes with BUSY (13 R434; 09 R335, R337). -/
def prReleasePoll (w : Work) (s : State) : State :=
  if s.pstate = 5 then finish w 0 (bytesLE 1 s.pstate) s
  else if s.pstate = 0 then finish w 1 (bytesLE 1 s.pstate) s
  else if s.pm.fadeDir = 0 ∧ s.pm.relStep = 0 ∧ !s.pm.released then finish w 6 (bytesLE 1 s.pstate) s
  else s

/-- PR.ENGAGE: the fade has started at JOINSN, or TAKEOK has set (13 R434; 09 R337). -/
def prEngagePoll (w : Work) (s : State) : State :=
  let aa := s.rd R.PM_CFG_CONF = 1
  if s.pstate = 0 ∨ s.pstate = 5 then finish w 1 [] s
  else if (aa ∧ (s.pm.fading = true ∨ s.pm.fadeDir = 0)) ∨ (¬aa ∧ (s.on R.PM_STAT_TAKEOK ∨ s.pstate = 3 ∨ s.pstate = 4)) then
    finish w 0 ([0, 0, 0, 0] ++ bytesLE 4 (if aa then s.rd R.PM_JOINSN else 0)) s
  else s

/-- SAFE.CLOSE, PR.PSER and SAFE.CONFIRM: the set is stored (13 R435, R436; 14 R456). -/
def safeClosePoll (w : Work) (jobs : List Nat) (s : State) : State :=
  match s.jobsEnd jobs with
  | none => s
  | some failed => finish w (if failed then 0x1D else 0) (bytesLE 4 (s.rd R.SB_CRC_CALC)) s
def prPserPoll (w : Work) (jobs : List Nat) (crc : Nat) (s : State) : State :=
  match s.jobsEnd jobs with
  | none => s
  | some failed => finish w (if failed then 0x1D else 0) (bytesLE 4 crc) s
def safeConfirmPoll (w : Work) (jobs : List Nat) (s : State) : State :=
  match s.jobsEnd jobs with
  | none => s
  | some _ => finish w 0 (bytesLE 4 (s.rd R.SB_CRC_CONF)) { s with sb := { s.sb with blocked := false } }

/-- A firmware step: its NOR jobs have ended; the journal takes the state after it (13 R437; 14 R457). -/
def firmwarePoll (w : Work) (jobs : List Nat) (after : Journal) (status : Nat) (result : List Byte) (s : State) : State :=
  match s.jobsEnd jobs with
  | none => s
  | some true => finish w 0x1D (bytesLE 4 s.nv.journal.staged) (journalSave s.nv.journal.idle s)
  | some false => finish w status result (journalSave after.idle s)

/-- FW.VERIFY: the image has been read (13 R437; 09 R339). -/
def fwVerifyPoll (w : Work) (job : Nat) (s : State) : State :=
  match s.jobData job with
  | none => s
  | some image =>
    let j := s.nv.journal
    let ok := Config.imageVerifies image
    let v := (Config.imageVersion image).toNat
    let after : Journal := if ok then { j with istate := 3, iver := v, digest := Config.sha256 image } else { j with istate := 2, iver := 0 }
    finish w (if ok then 0 else 0x18) (bytesLE 4 j.total ++ bytesLE 4 (if ok then v else 0)) (journalSave after.idle s)

/-- A command that waited for the next pass alone: an area of the bulk area that the host has spoiled is open (12 R404). -/
def readyPoll (w : Work) (status : Nat) (result : List Byte) (s : State) : State :=
  let s := match w.area with
    | some (lo, hi) =>
      if w.spoiled then
        let b := openItem (List.replicate (hi - lo) 0) s
        bulkPut lo b.1 b.2
      else s
    | none => s
  finish w status result s

/-- A read of NOR into the bulk area has ended (13 R432, R437). -/
def norReadPoll (w : Work) (job off : Nat) (tail result : List Byte) (s : State) : State :=
  match s.jobData job with
  | none => s
  | some b => readyPoll w 0 result (bulkPut off (b ++ tail) s)

/-- One outstanding command. -/
def workPoll (w : Work) (s : State) : State :=
  match w.kind with
  | .stopped => s
  | .ready st r => readyPoll w st r s
  | .timetable => timetablePoll w s
  | .md c => mdPoll w c s
  | .tblLoad _ _ _ => s
  | .bankCopy _ => s
  | .bankSwap => bankSwapPoll w s
  | .parRead job pages tables => parReadPoll w job pages tables s
  | .parSave jobs seq => parSavePoll w jobs seq s
  | .norRead job off tail r => norReadPoll w job off tail r s
  | .fwVerify job => fwVerifyPoll w job s
  | .diag => diagPoll w s
  | .bist job lane len => bistPoll w job lane len s
  | .calPass a b c => calPassPoll w a b c s
  | .crcWait poly start len exp => crcWaitPoll w poly start len exp s
  | .crcScan job => crcScanPoll w job s
  | .enumerate => enumPoll w s
  | .csForm c wt d => csFormPoll w c wt d s
  | .csAdd => csAddPoll w s
  | .csRemove uid => csRemovePoll w uid s
  | .csDissolve n => csDissolvePoll w n s
  | .prRelease => prReleasePoll w s
  | .prEngage => prEngagePoll w s
  | .prPser jobs crc => prPserPoll w jobs crc s
  | .safeClose jobs => safeClosePoll w jobs s
  | .safeConfirm jobs => safeConfirmPoll w jobs s
  | .firmware jobs after st r => firmwarePoll w jobs after st r s
  | .fwSwap _ => s

/-- Every outstanding command in order, each as it stands at its turn. -/
def worksPoll (s : State) : State :=
  (s.hs.works.map (·.handle)).foldl (fun s h =>
    match s.hs.works.find? (fun w => w.handle == h) with
    | some w => workPoll w s
    | none => s) s

/-! ### The firmware's pass -/

/-- The lanes that LANE_SUSPECT records on Q40 name. -/
def State.suspectLanes (s : State) : List Nat :=
  (s.queue 40).items.filterMap (fun r => if fieldLE r 0 2 = Ev.LANE_SUSPECT.code then some (fieldLE r 2 1 - 1) else none)

/-- The self-test that the firmware queues for a suspect lane (02 R72), where it may run (15 R469) and does not run already; its job has a
number beyond the handles. -/
def laneTest (s : State) (lane : Nat) : State :=
  let id := 0x30000 + lane
  if s.on R.LN_STAT_DEGRADED ∨ testB (s.rd R.LN_STAT_UNUSABLE) lane
      ∨ (s.bi.run.toList ++ s.bi.jobs ++ s.bi.wait).any (fun j => j.id == id) then s
  else bistQueue { id := id, kind := 1, lane := lane } s

/-- EVENT_RING_PASS: the records of the event rings are logged (15 R489); suspect lanes are tested. -/
def eventPass (s : State) : State := if s.mpServes then s.suspectLanes.foldl laneTest (eventRingPass s) else s

/-- NOR jobs that some command waits for. -/
def workJobs : WorkKind → List Nat
  | .parRead job _ _ => [job]
  | .norRead job _ _ _ => [job]
  | .fwVerify job => [job]
  | .parSave jobs _ => jobs
  | .prPser jobs _ => jobs
  | .safeClose jobs => jobs
  | .safeConfirm jobs => jobs
  | .firmware jobs _ _ _ => jobs
  | _ => []

/-- What the firmware has seen. -/
def seenAll (s : State) : State :=
  let wait := s.hs.works.flatMap (fun w => workJobs w.kind)
    ++ s.mp.streams.filterMap (fun x => match x.src with | .image _ _ job => some job | _ => none)
  { s with
    seq := { s.seq with done := [] }
    tt := { s.tt with done := none }
    ln := { s.ln with bankDone := none }
    bi := { s.bi with done := [] }
    cc := { s.cc with done := [] }
    nv := { s.nv with done := s.nv.done.filter (fun e => wait.contains e.1) } }

/-- DRIVE_STATE in HS.ATTN (13 R440). -/
def attnDrive (s : State) : State :=
  if s.mp.stateSeen = s.drive then s else attnSet 3 { s with mp := { s.mp with stateSeen := s.drive } }

/-- Store saves that are due (14 R456; 08 R297). -/
def savesRun (s : State) : State :=
  let n := s.mp.saves
  if n.isEmpty then s else stateSave { s with mp := { s.mp with saves := [] } }

/-- The firmware pops the results of Q57, Q59 and Q61 and the management cells of Q62 (01 R41), and queues the jobs that waited for a credit
(01 R37). -/
def mpQueues (s : State) : State :=
  let s := [57, 59, 61, 62].foldl (fun s q => if (s.queue q).items.isEmpty then s else s.qDrain q) s
  bistPush (norPush s)

/-- The engines that wait for a credit of a queue that the firmware pops go on (01 R37). -/
def engineRelease (s : State) : State :=
  let s := match s.bi.held with
    | some e => bistPost e s
    | none => s
  (List.range 4).foldl (fun s k => ccPost k s) (norRelease s)

/-- What the firmware does at a tick boundary: results, waiting pushes, streams of parameters, completions, stores, held records. -/
def mpPoll (s : State) : State :=
  if !s.mpServes then engineRelease s
  else
    let s := streamPass 53 (streamPass 52 (reloadTables (stallPush (mpQueues (engineRelease s)))))
    let s := seenAll (worksPoll s)
    recordRelease (savesRun (attnDrive s))

end Sys2Proof.Machine
end

