-- ==== Sys2Proof/Machine/Startup.lean ====
section
/-! DEFINITION. Start-up and reset (17 R525–R537): power-on, module reset, the boot path, journal recovery, the MP's resets and restarts,
the firmware swap (09 R339, R340; 12 R416–R418). -/

namespace Sys2Proof.Machine

/-! ### What a reset leaves (R526) -/

/-- Every part at its reset values; the NOR contents, the draws of open values and the queue of steps go on. The table of R526 does not name
the TH, NV, BI, CC, HS and SYS blocks: they are reinitialised like the others (DESIGN CHOICE, assumption log 69). -/
def blank (s : State) : State :=
  { State.reset with
    nor := s.nor
    nv := { torn := s.nv.torn }
    free := s.free
    pending := s.pending }

/-- Trace rings at a module reset (R527): a TRIGGERED one stops, an ARMED one becomes CONFIGURED. -/
def ringsReset (s : State) : State :=
  (List.range 16).foldl (fun s r =>
    if s.bit R.TE_STAT_TRIGGERED r then ringHalt r s else if s.bit R.TE_STAT_ARMED r then ringDisarm r s else s) s

/-- The trace engine with the Granary as a module reset keeps them (R526, R527). -/
def keepTrace (old s : State) : State :=
  { s with
    regs := (old.regs.filter (fun r => r.1 / 0x10000 == 0x4013)).foldl (fun m r => smapSet resetWord m r.1 r.2) s.regs
    te := { old.te with evs := [], sampled := false } }

/-- The NOR at a module reset: the operation in progress ends first; a STATE record that waits for its job is written (R542). -/
def norFlush (s : State) : State :=
  let run (j : NorJob) (s : State) : State :=
    (match j.req with
      | .store 2 _ _ => j.ops
      | _ => j.ops.take 1).foldl (fun s op => (norStep s op).2) s
  let s := (s.nv.run.toList ++ s.nv.aside.toList).foldl (fun s j => run j s) s
  (s.nv.own ++ s.nv.jobs ++ s.nv.wait).foldl (fun s j => match j.req with
    | .store 2 body copy => (storeOps s 2 body copy).foldl (fun s op => (norStep s op).2) s
    | _ => s) s

/-! ### Boot: tests and the loader (R529, R530) -/

/-- Lane self-test: a failing lane is marked unusable and logged (02 R85; 15 R473). What its self-test found there is open. -/
def bootLane (f : BootFacts) (s : State) (lane : Nat) : State :=
  if testB f.lanesFailed.toNat lane then
    let d := openItem (List.replicate 8 0) s
    laneLost lane (d.2.mpEvent Ev.BIST_FAIL d.1)
  else s

/-- SYS.ID.GSTEP: the lowest stepping of the PX-Gs that answer (01 R52); with none it is open. -/
def bootSteps (f : BootFacts) (s : State) : State :=
  let found := (List.finRange 7).filterMap (fun c => if testB f.answers.toNat c.val then some f.steps[c].toNat else none)
  match found with
  | [] => let d := s.drawBits 4; d.2.wr R.SYS_ID_GSTEP d.1
  | x :: xs => s.wr R.SYS_ID_GSTEP (xs.foldl min x)

/-- The confirmation that the CONFIG store holds: the lock and the code, a mismatch of the CRC; without one the set is open (10 R361–R363). -/
def bootConfirm (b : List Byte) (s : State) : State :=
  if fieldLE b 0 1 = 1 then
    let conf := fieldLE b 4 4
    let s : State := { (s.wr R.SB_CRC_CONF conf).wr R.SB_LOCK_LOCKED 1 with sb := { s.sb with code := fieldLE b 8 4 } }
    if conf = s.rd R.SB_CRC_CALC then s else (s.wr R.SB_STAT_CRCERR 1).event Ev.SAFETY_CRC 0
  else ((s.wr R.SB_LOCK_OPEN 1).wr R.SB_STAT_CRCERR 1).event Ev.SAFETY_CRC 0

/-- The set of the CONFIG store, its CRC and the lock (10 R361–R363); enabled sigma-delta channels start with their set. -/
def bootConfig (s : State) : State :=
  let b := (s.storeBody 0).getD []
  let s := if b.isEmpty then s else configLoad b s
  let s := effRefresh (s.wr R.SB_CRC_CALC (paramCrc s.word))
  guardRefresh <| bootConfirm b ((List.range 12).foldl (fun s n => if s.on (R.SD_CHn_CFG_EN n) then sdRestart n s else s) s)

/-- SYS.RST.CAUSE (R525): the newest shutdown record gives it where its SEQ lies beyond SDSEQ, which then takes that SEQ. A module reset
has the code 5. The sector of an abandoned erase is to be erased first after boot complete (14 R463; R542). -/
def bootCause (module : Bool) (s : State) : State :=
  match s.storeInUse 3, s.storeBody 3 with
  | some r, some b =>
    let new := decide (0 < modDiff 32 r.2.2.2 s.nv.sdseq)
    let dirty := fieldLE b 4 4
    let s := s.wr R.SYS_RST_CAUSE (if module then 5 else if new then 1 + fieldLE b 0 1 else 1)
    let s : State := if new then { s with nv := { s.nv with sdseq := r.2.2.2 } } else s
    if dirty = 0xFFFFFFFF ∨ !s.isTorn dirty then s
    else
      { (s.wr R.NV_DIRTY_SECTOR dirty).wr R.NV_DIRTY_VALID 1 with
        nv := { s.nv with bootJobs := [.region [dirty] (dirty * norSector) [] false] } }
  | _, _ => s.wr R.SYS_RST_CAUSE (if module then 5 else 1)

/-- The STATE store: the safety faults, the epoch beyond every one used, which is saved at once, before boot complete; retired sectors
(R528; 08 R297). -/
def bootState (module : Bool) (s : State) : State :=
  let b := (s.storeBody 2).getD []
  let n := fieldLE b 6 2
  let sflt := fieldLE b 2 2
  let first := fieldLE b 4 1
  let s := ((s.wr R.BL_EPOCH (fieldLE b 0 2 + 256)).wr R.SB_SFLT sflt).wr R.SB_FIRST_CODE first
  let s : State := if sflt ≠ 0 then { s.wr R.SB_STAT_LOCKOUT 1 with sys.lockNext := true } else s
  let s : State := { s.wr R.NV_RETIRED (min n 96) with nv := { s.nv with
    lockout := (sflt, first)
    sdseq := fieldLE b 8 4
    retired := (List.range (min n 96)).map (fun i => fieldLE b (48 + 2 * i) 2) } }
  stateSaveNow (bootCause module s)

/-! ### Journal recovery (R533–R535) -/

/-- The journal after recovery, the code of SYS.BOOT.JREC, whether the inactive slot is erased (R533). -/
def recovered (j : Journal) : Journal × Nat × Bool :=
  let cleared : Journal := { j with istate := 0, total := 0, staged := 0, iver := 0, digest := [] }
  if j.istate = 1 ∨ j.istate = 2 then (cleared, 1, true)
  else if j.istate = 3 ∧ j.handle ≠ 0 ∧ j.opcode = 0x0904 then (cleared, 1, true)
  else if j.istate = 4 then ({ j with istate := 3 }, 2, false)
  else (j, 0, false)

/-- The slot booted (R533): the active one, the other one where that fails and the journal marks it VERIFIED, or none. -/
def slotChoice (slots : BitVec 2) (j : Journal) : Option (Journal × Bool) :=
  if testB slots.toNat j.active then some (j, false)
  else if j.istate = 3 ∧ testB slots.toNat (1 - j.active) then
    some ({ j with active := 1 - j.active, aver := j.iver, istate := 0, total := 0, staged := 0, iver := 0, digest := [] }, true)
  else none

/-- The job that erases the inactive slot, where it does not run already (R534). -/
def State.slotEraseReq (s : State) : NorReq := .region s.idleSectors s.idleSlot [] false

/-- The recovery loader runs: no firmware slot passes (R533). -/
def bootRecovery (s : State) : State := (s.wr R.SYS_BOOT_RECOVERY 1).wr R.SYS_BOOT_JREC 4

/-- The journal at a boot: recovery, the choice of the slot, the jobs that wait for boot complete (R533, R534). -/
def bootJournal (slots : BitVec 2) (s : State) : State :=
  let j := ((s.storeBody 1).map journalOf).getD {}
  let r := recovered j
  let c := slotChoice slots r.1
  let s : State := { s with nv := { s.nv with journal := match c with | some x => x.1 | none => r.1 } }
  let code := match c with | some (_, true) => 3 | _ => r.2.1
  let s := (s.wr R.SYS_BOOT_JREC code).wr R.SYS_BOOT_SLOT s.nv.journal.active
  let changed := r.2.1 != 0 || j.handle != 0 || (match c with | some (_, b) => b | none => false)
  let save : List NorReq := if changed then [.store 1 (journalBody s.nv.journal.idle) none] else []
  let s : State := { s with nv := { s.nv with
    bootJobs := s.nv.bootJobs ++ save ++ (if r.2.2 then [s.slotEraseReq] else []) } }
  if c.isNone then bootRecovery s else s

/-- The FINAL record of a firmware step that a reset has interrupted, and its slot of the handle table (R535). -/
def bootReport (s : State) : State :=
  let j := s.nv.journal
  if j.handle = 0 then s
  else
    let slot := j.handle % 4096
    let s := s.setEntry slot (j.handle / 4096 * 4096 + 1024 + j.queue % 4 * 256 + j.opcode / 256 % 256)
    let s : State := { s with
      hs := { s.hs with fresh := 4096, freed := (List.range 4096).filter (· != slot) }
      nv := { s.nv with journal := j.idle } }
    writeRecord {
      handle := j.handle
      status := 0x1C
      ctag := j.ctag
      opcode := j.opcode
      kind := 2
      queue := j.queue % 4
      dseq := 0xFFFF
      result := bytesLE 1 j.istate ++ [0, 0, 0] ++ bytesLE 4 j.aver
      noirq := false } s

/-! ### Boot: tables, links, log (R529, R531, R532) -/

/-- A table loaded into both banks from an image slot; table 0 stands for the coefficient pages. -/
def bootTable (slot : Nat) (s : State) (id : Nat) : State :=
  let p := tblPlace id
  (List.range p.2).foldl (fun s i =>
    let w := s.imageWord slot id i
    bankPut true (p.1 + 4 * i) w (bankPut false (p.1 + 4 * i) w s)) s

/-- The coefficient pages and the tables of the newest image; without one every table stays stale and is lost (R532; 02 R84). -/
def bootTables (s : State) : State :=
  match s.imageNewest with
  | some r => ((List.range 10).foldl (bootTable r.1) ((s.wr R.NV_TBLSEQ r.2).wr R.NV_SEL_TBL (r.1 % 2))).wr R.LN_TBLSTALE 0
  | none =>
    (List.range 10).foldl (fun s id =>
      tableLost id s) (s.wr R.LN_TBLSTALE 0x3FF)

/-- GLINK to a PX-G at boot: up and locked, or missing (R529, R531). -/
def bootLink (f : BootFacts) (s : State) (c : Nat) : State :=
  let up := testB f.answers.toNat c
  let s := s.setGch c (fun g => { g with
    link := up
    lock := up
    oneWay := (f.delays.toList.getD c 0).toNat
    syncGood := if up then 16 else 0
    present := if up then g.present else g.present ||| 0x20
    latch := if up then g.latch else g.latch ||| 0x20 })
  gkPermit (statusReport (if up then s else s.wrBit R.SYS_BOOT_GMISS c true) c)

/-- The sectors of the log ring that hold records, the oldest first (14 R459). -/
def State.logScan (s : State) : List (Nat × Nat) :=
  let sectors := (s.nor.foldl (fun acc c => let n := c.1 / norSector; if logBase ≤ n ∧ !acc.contains n then n :: acc else acc) [])
  let found := sectors.filterMap (fun n =>
    let first := fieldLE (s.norBytes (n * norSector) 6) 0 6
    if first = 2 ^ 48 - 1 ∨ s.isTorn n then none else some (n, first))
  found.foldl (fun acc e => acc.filter (fun x => x.2 < e.2) ++ [e] ++ acc.filter (fun x => e.2 < x.2)) []

/-- The log at a boot: its sectors, and the sequence after the last record that stands in the newest one (14 R459). -/
def bootLog (s : State) : State :=
  let m := s.logScan
  let next := match m.getLast? with
    | some e => (List.range 2048).foldl (fun n i =>
        if fieldLE (s.norBytes (e.1 * norSector + 32 * i) 6) 0 6 = e.2 + i then e.2 + i + 1 else n) e.2
    | none => 0
  { s with nv := { s.nv with logMap := m, logSeq := next } }

/-- The MP comes into service (12 R416). -/
def mpIn (s : State) : State := attnSet 4 (mpwdWrite ((s.wr R.HS_STAT_MPSTATE 0).wr R.HS_IRQ_MPUP 1))

/-- A failure in lane data or the BIST scratch leaves its block in use; the tables in it are lost (R530; 15 R473). -/
def bootMemory (f : BootFacts) (s : State) : State :=
  match f.memFail with
  | some (a, bit) => (tablesAt a.toNat).foldl (fun s t => mpCause 3 t 0 s) (bistReport 2 a.toNat bit.val s)
  | none => s

/-- The loader and the firmware, once a boot loader copy passes. -/
def bootLoader (module : Bool) (f : BootFacts) (s : State) : State :=
  let s := bootMemory f (bootTables (nvRefresh (bootLog (bootState module (bootConfig s)))))
  let s := bootJournal f.slots s
  let s := mpIn (bootReport s)
  (List.range 7).foldl (bootLink f) (bootSteps f s)

/-- The boot path from a part at its reset values (R529, R530). -/
def boot (module : Bool) (f : BootFacts) (s : State) : State :=
  let s := (List.range 4).foldl (bootLane f) s
  let stop (s : State) : State := { s with sys := { s.sys with bootStopped := true } }
  if !f.sramOk then stop (s.wr R.SYS_BOOT_JREC 5)
  else if testB f.loaders.toNat 0 then bootLoader module f s
  else if testB f.loaders.toNat 1 then bootLoader module f (s.wr R.SYS_BOOT_LDR 1)
  else stop { s with sys := { s.sys with noMarker := true } }

/-- POWER_ON: supply good, also after PX-C has halted (R525, R526, R529). An erase that ran leaves its sector open (14 R461). -/
def powerOn (f : BootFacts) (s : State) : State := boot false f (blank (norStop s).2.2)

/-- MODULE_RESET: 1 ms after the SYS.RESET record a reset with KIND 2 takes effect (R525–R528, R542; 13 R426). -/
def moduleReset (f : BootFacts) (s : State) : State :=
  match s.sys.resetDue with
  | some (t, 2) =>
    let old := ringsReset (norFlush (lockoutSave { s with time := { s.time with tb := max s.time.tb t } }))
    boot true f (keepTrace old (blank old))
  | _ => s

/-- The background erases of the SHUTDOWN store: a full sector, while the other copy holds a ready page (14 R462). -/
def State.shutdownErases (s : State) : List NorReq :=
  let sector (c : Nat) : Nat := storeAddr c 3 / norSector
  let ready (c : Nat) : Bool := decide (s.norUsed (sector c) < 256) && !s.isRetired (sector c)
  ((List.range 2).filter (fun c => !ready c && ready (1 - c) && !s.isRetired (sector c))).map (fun c =>
    .region [sector c] (storeAddr c 3) [] false)

/-- BOOT_COMPLETE: the sequencer enters STANDBY at the next boundary (05 R186); the jobs that have waited are queued, a full SHUTDOWN sector is erased; a root enumerates
(08 R295). -/
def bootComplete (s : State) : State :=
  if s.sys.booted ∨ s.sys.bootStopped ∨ s.sys.latchedOff then s
  else
    let s : State := { s with sys := { s.sys with booted := true, standbyNext := !s.on R.SYS_BOOT_RECOVERY } }
    let s := (s.wr R.SYS_BOOTMS (min 65535 ((s.time.tb + 800000) / 400000))).wr R.TH_SUP_HBOK 1
    let jobs := s.nv.bootJobs ++ s.shutdownErases
    let s := (norQueueAll jobs { s with nv := { s.nv with bootJobs := [] } }).2
    if s.rd R.BL_CFG_ROOT = 1 then enumStart s else s

/-! ### The MP (09 R339, R340; 12 R417, R418; R533) -/

/-- SRAM_PARITY of the MP data region (02 R71). -/
def mpDataParity (a : Option (BitVec 32)) (s : State) : State :=
  match a with
  | some x => s.event Ev.SRAM_PARITY 5 (bytesLE 4 x.toNat)
  | none => s

/-- MP_RESET with the code of SYS.RST.MPCAUSE less 1: MP_LOST, a parity error of the MP's data region with its address, SYS.RESET KIND 1
(01 R29; 02 R71; R525). -/
def mpResetNow (cause : Fin 3) (addr : Option (BitVec 32)) (s : State) : State :=
  match cause with
  | 0 => mpReset 1 ((mpwdWrite s).event Ev.MP_LOST 0)
  | 1 => mpReset 2 (mpDataParity addr s)
  | _ => mpReset 3 { s with sys := { s.sys with resetDue := none } }

/-- A SYS.RESET with KIND 1 takes effect (13 R426). -/
def resetIfDue (s : State) : State :=
  match s.sys.resetDue with
  | some (t, 1) => if t ≤ s.time.tb then mpResetNow 2 none s else s
  | _ => s

/-- The firmware swap at its boundary: the slot window switches, the MP restarts from the other slot (09 R339, R340; 12 R417). -/
def swapNow (s : State) : State :=
  let s := ccSwapAbort ((mpOut 1 s).inc R.SYS_RST_MPCNT)
  let j := s.nv.journal
  let after : Journal := { j with active := 1 - j.active % 2, istate := 3, iver := j.aver, aver := j.iver, swaptick := s.tickno }
  { s.wr R.SYS_RST_MPCAUSE 4 with
    nv := { s.nv with journal := after }
    pm := { s.pm with fwPend := true } }

/-- The tick of a firmware swap that is pending. -/
def State.swapTick (s : State) : Option Nat :=
  s.hs.works.findSome? (fun w => match w.kind with | .fwSwap t => some t | _ => none)

/-- FIRMWARE_SWAP: at the boundary of the tick named (09 R339). -/
def firmwareSwapIfDue (s : State) : State :=
  match s.swapTick with
  | some t => if s.mpServes ∧ s.swapPending ∧ 0 ≤ modDiff 32 s.tickno t then swapNow s else s
  | none => s

/-- The firmware runs again: it knows every TAIL, and serves (12 R416, R417). -/
def mpBack (s : State) : State :=
  let s : State := { s with hs := { s.hs with bells := [], seen := Vector.ofFn (fun c => s.rd (R.HS_CQc_TAIL c.val)) } }
  mpIn (s.wr R.SYS_BOOT_SLOT s.nv.journal.active)

/-- After a firmware swap the new firmware completes the command and clears FWPEND (12 R417; 13 R437; 09 R340). -/
def swapDone (s : State) : State :=
  let j := s.nv.journal
  let s := mpBack (journalSave j.idle { s with pm := { s.pm with fwPend := false } })
  match s.hs.works.find? (fun w => match w.kind with | .fwSwap _ => true | _ => false) with
  | some w => finish w 0 (bytesLE 4 j.iver ++ bytesLE 4 j.aver ++ bytesLE 4 j.swaptick) s
  | none => s

/-- After an MP reset every handle in STATE 1 gets a FINAL record ABORTED_BY_RESET, and the journal is recovered (12 R418; R533). -/
def resetDone (s : State) : State :=
  let ws := s.hs.works
  let lost := s.hs.held.filter (fun r => r.kind == 2 && r.handle != 0)
  let r := recovered s.nv.journal
  let s : State := { s with
    ln := { s.ln with loading := none }
    hs := { s.hs with held := [] } }
  let s := lost.foldl (fun s r => putRecord { r with status := 0x1C, result := [] } s) (mpBack s)
  let s := ws.foldl (fun s w => finish w 0x1C [] s) s
  let s := if r.2.1 = 0 then s else s.wr R.SYS_BOOT_JREC r.2.1
  let s := if r.2.1 ≠ 0 ∨ s.nv.journal.handle ≠ 0 then journalSave r.1.idle s else s
  if r.2.2 ∧ !s.slotErasing then (norQueue s.slotEraseReq s).2 else s

/-- MP_RESTART: the MP is in service again after a swap or a reset (12 R416–R418). -/
def mpRestart (s : State) : State :=
  if s.rd R.HS_STAT_MPSTATE = 1 then swapDone s
  else if s.rd R.HS_STAT_MPSTATE = 2 then resetDone s
  else s

end Sys2Proof.Machine
end

