-- ==== Sys2Proof/Machine/Tick.lean ====
section
/-! DEFINITION. The tick boundary (01 R30, R31, R46; 95: what TICK_BOUNDARY holds) and the core-clock cycle between boundaries. -/

namespace Sys2Proof.Machine

/-! ### A step of TB (R31; 08 R290) -/

/-- A mark in TB moved with a step: the intervals that run are not changed by it (DEDUCED from R31; assumption log 26). -/
def moved (d : Int) (t : Nat) : Nat := ((t : Int) + d).toNat

/-- Marks of the Signal Box. -/
def SbState.moveMarks (d : Int) (x : SbState) : SbState :=
  { x with
    supplyAt := moved d x.supplyAt
    railsAt := moved d x.railsAt
    ss1At := x.ss1At.map (moved d)
    slsAt := x.slsAt.map (moved d)
    srstAt := x.srstAt.map (moved d)
    testAt := moved d x.testAt
    soutAt := if x.soutAt = 0 then 0 else moved d x.soutAt
    effAt := x.effAt.map (moved d)
    mpwdAt := moved d x.mpwdAt
    tok := x.tok.map (fun t => { t with expires := t.expires.map (moved d), noticeAt := t.noticeAt.map (moved d) }) }

/-- Marks of the drive sequencer. -/
def SeqState.moveMarks (d : Int) (x : SeqState) : SeqState :=
  { x with
    setAt := moved d x.setAt
    releaseAt := moved d x.releaseAt
    taperAt := x.taperAt.map (moved d)
    entryAt := x.entryAt.map (moved d)
    mpLostAt := x.mpLostAt.map (fun t => (moved d t.1, t.2))
    req := x.req.map (fun r => { r with due := moved d r.due }) }

/-- Marks of the gate drive. -/
def GdState.moveMarks (d : Int) (x : GdState) : GdState :=
  { x with
    ch := x.ch.map (fun g => { g with
      driveFall := moved d g.driveFall, enFall := moved d g.enFall, offAt := moved d g.offAt, lowAt := moved d g.lowAt
      permitUp := moved d g.permitUp, permitDown := moved d g.permitDown, onAt := moved d g.onAt, offTxAt := moved d g.offTxAt
      dsatAt := g.dsatAt.map (moved d), syncAt := g.syncAt.map (moved d), telAt := g.telAt.map (moved d)
      ltb := g.ltb - 2500 * d, stepTx := true })
    leg := x.leg.map (fun l => { l with
      warnAt := moved d l.warnAt, pulseAt := l.pulseAt.map (moved d), frameAt := l.frameAt.map (moved d) })
    stageAt := x.stageAt.map (moved d)
    commitAt := x.commitAt.map (moved d)
    preStart := x.preStart.map (moved d)
    diag := x.diag.map (fun g => { g with since := moved d g.since }) }

/-- Marks of the feedback: counts stay, the speed windows and the sample grids restart at the stepped TB (07 R273, R274). -/
def fbTimeStep (d : Int) (s : State) : State :=
  let f := s.fb
  fbWindowRestart { s with fb := { f with
    gridFrom := s.time.tb
    emuAt := moved d f.emuAt
    src := f.src.map (fun x => { x with stamp := moved d x.stamp, older := x.older.map (fun o => (o.1, o.2.1, moved d o.2.2)) })
    emuStep := (moved d f.emuStep.1, f.emuStep.2)
    abz := { f.abz with
      lead := f.abz.lead.map (fun l => (l.1, moved d l.2))
      late := f.abz.late.map (fun e => match e with
        | .count a b t => .count a b (moved d t)
        | .index z t => .index z (moved d t)) }
    hall := { f.hall with tEdge := moved d f.hall.tEdge } } }

/-- The other marks. -/
def moveMarks (d : Int) (s : State) : State :=
  { s with
    sys := { s.sys with resetDue := s.sys.resetDue.map (fun r => (moved d r.1, r.2)) }
    tt := { s.tt with swapDue := s.tt.swapDue.map (moved d), periodDue := s.tt.periodDue.map (fun p => (p.1, moved d p.2)) }
    ln := { s.ln with slice := s.ln.slice.map (fun x => (x.1, x.2.1, moved d x.2.2.1, x.2.2.2)) }
    sb := s.sb.moveMarks d
    seq := s.seq.moveMarks d
    gd := s.gd.moveMarks d
    bl := { s.bl with
      idHolds := s.bl.idHolds.map (fun h => (h.1, h.2.1, moved d h.2.2))
      reqAt := s.bl.reqAt.map (fun r => (r.1, r.2.map (moved (8 * d)))) }
    th := { s.th with
      pxg := s.th.pxg.map (fun r => r.map (fun x => (x.1, moved d x.2)))
      measuredAt := s.th.measuredAt.map (moved d) }
    hs := { s.hs with bells := s.hs.bells.map (fun b => (b.1, b.2.1, moved d b.2.2)), q2At := moved d s.hs.q2At }
    mp := { s.mp with bufferAt := moved d s.mp.bufferAt } }

/-- TB_STEP at a boundary in OFF or STANDBY (R31): TB takes its new value, TB.LAST the largest multiple of P not above it (08 R290); filters,
speed windows and traces follow (03 R101; 07 R273; 15 R491). -/
def tbStep (d : Int) (s : State) : State :=
  let tb := moved d s.time.tb
  let s := moveMarks d { s with time := { s.time with tb := tb, tbLast := tb / s.period * s.period } }
  traceTimeChange (sdTimeStep (fbTimeStep d s))

/-- The time at a boundary (R30): TB has reached TB.LAST plus the period, TB.LAST takes its value, TICKNO increments; a pending step is
taken in OFF and STANDBY, else it is not taken (08 R317). -/
def timeBoundary (s : State) : State :=
  let tb := s.time.tbLast + s.period
  let step := s.time.stepTo
  let s := { s with time := { s.time with tb := tb, tbLast := tb, stepTo := none } }.incWrap R.TB_TICKNO
  match step with
  | some d => if s.drive ≤ 1 then tbStep d s else s
  | none => s

/-! ### Parts of the boundary -/

/-- The progress of a task for a new tick. -/
def TaskState.fresh (t : TaskState) : TaskState :=
  { t with started := false, aborted := false, noRecompute := false, ready := false, recompAt := none, recompEnd := none, posted := false }

/-- The lane engine for a new tick (02 R64, R66, R77): a tick without a Hold-1 ends the run. -/
def tickReset (s : State) : State :=
  let s := if s.ln.holdThisTick then s else s.wr R.LN_STAT_HOLDRUN 0
  { s with
    ln := { s.ln with
      tasks := s.ln.tasks.map TaskState.fresh
      rotated := none
      holdLastTick := s.ln.holdThisTick
      holdThisTick := false
      scrubReserved := false }
    cfNew := none
    olNew := none
    limNew := none
    te := { s.te with sampled := false } }

/-- The Timetable, the banks and the lanes at a boundary: changes that are due (02 R58–R60, R82, R85; 04 R156, R157; 15 R469). -/
def laneBoundary (s : State) : State :=
  let p := s.period
  let s := ttChange s.time.tb (laneLostIfDue (tickReset s))
  let s := if s.period = p then s else traceTimeChange s
  bistStopIfDue (drainStaging (bankSwapIfDue (staleClear s)))

/-- The bells that are due at a boundary (12 R406). -/
def bellsDue (s : State) : State :=
  (s.hs.bells.filter (fun b => b.2.2 ≤ s.time.tb)).foldl (fun s b =>
    { s with hs := { s.hs with seen := doorbellSignal.setAt4 s.hs.seen b.1 b.2.1 } })
    { s with hs := { s.hs with bells := s.hs.bells.filter (fun b => s.time.tb < b.2.2) } }

/-- LEVER_SAMPLE: the analog sampler pushes a lever value (04 R148). -/
def leverSample (v : Option (BitVec 16)) (s : State) : State :=
  match v with
  | some x => s.qPush 51 (padTo 32 (bytesLE 2 x.toNat))
  | none => s

/-- Some of the causes raised takes a reaction (09 R335). -/
def State.ownCause (s : State) (cs : List (Nat × Nat)) : Bool := cs.any (fun c => causeLatches c && s.reaction c.1 != 0)

/-- The causes raised before the boundary are taken to the sequencer. -/
def dropRaised (n : Nat) (s : State) : State := { s with seq := { s.seq with raised := s.seq.raised.drop n } }

/-- TICK_BOUNDARY (R30): the time, what is due, the sigma-delta windows, the feedback, the link and the pair, the drive sequencer, the
Signal Box, the firmware. -/
def tickBoundary (inp : TickInputs) (s : State) : State :=
  let new := s.seq.raised
  let sn := s.rd R.BL_SN
  let s := laneBoundary (bellsDue (timeBoundary s))
  let s := calTick (calFitApply (sdWindowClose inp.sd { s with te := { s.te with upset := inp.upset.map (·.toNat) } }))
  let s := linkBoundary (feedbackBoundary s)
  let s := pairBoundary sn (s.ownCause new) s
  let s := sequencerBoundary new (dropRaised new.length (s.wr R.LN_MD_BRK_FB (b2n inp.brkFb)))
  let s := signalBoxBoundary (fun i => inp.safety[i]) (pairPost s)
  mpPoll (resetIfDue (firmwareSwapIfDue (leverSample inp.lever (lockoutSave s))))

/-! ### Between boundaries -/

/-- One core-clock cycle with no step waiting: TB counts up, short of the next boundary, which is a step of its own (R31; DESIGN CHOICE,
assumption log 1). -/
def idleCycle (s : State) : State :=
  if s.sys.halted then s
  else
    effDue (bellsDue { s with time := { s.time with tb := max s.time.tb (min (s.time.tb + 1) (s.time.tbLast + s.period - 1)) } })

end Sys2Proof.Machine
end

