-- ==== Sys2Proof/Machine/Live.lean ====
section
/-! DEFINITION. How a step acts on the module, and the few steps whose operation is put together from others. -/

namespace Sys2Proof.Machine

/-- A step on the module: PX-C acts until it has halted (14 R461); what the step before it put out is gone. -/
def live (f : State → State) (s : State) : Host.Outcome State Fault Refusal :=
  if s.sys.halted then .next s else .next (f { s with out := {} })

/-- A request of the drive evaluated: ENABLE, DISABLE, START, STOP, EMERGENCY, MODE, RESET by their codes (05 R184, R186). -/
def request (code mode sub : Nat) (s : State) : State :=
  evalRequest { code := code, mode := mode, sub := sub, tick := none, due := 0 } s

/-- LANE_LOST of one lane: it has failed its self-test since the last boundary (02 R85). -/
def laneLostDue (lane : Nat) (s : State) : State :=
  if testB s.ln.bistFailed lane then laneLost lane { s with ln := { s.ln with bistFailed := withBit s.ln.bistFailed lane false } } else s

end Sys2Proof.Machine
end

