-- ==== Sys2Proof/Machine/ExecCan.lean ====
section
/-! DEFINITION. The meanings of the steps of the CAN FD controllers (11). Each carries out its operation on a module that runs. -/

namespace Sys2Proof.Machine

/-- CAN_CTL_MODE (R376): A write of CANn.CTL.MODE changes the controller mode after checking the configuration. -/
def execCanCtlMode (n : Fin 2) (mode : BitVec 2) (s : State) : Host.Outcome State Fault Refusal := live (canModeWrite n.val mode.toNat) s

/-- CAN_CTL_RECOVER (R390): A write of CANn.CTL.RECOVER starts bus-off recovery. -/
def execCanCtlRecover (n : Fin 2) (s : State) : Host.Outcome State Fault Refusal := live (canRecover n.val) s

/-- CAN_TXCTL_REQ (R383): A write of CANn.TXCTL.REQ sets a transmit buffer PENDING. -/
def execCanTxctlReq (n : Fin 2) (buffers : BitVec 3) (s : State) : Host.Outcome State Fault Refusal := live (canTxReq n.val buffers.toNat) s

/-- CAN_TXCTL_CANCEL (R386): A write of CANn.TXCTL.CANCEL cancels a pending buffer or is refused. -/
def execCanTxctlCancel (n : Fin 2) (buffers : BitVec 3) (s : State) : Host.Outcome State Fault Refusal := live (canTxCancel n.val buffers.toNat) s

/-- CAN_FRAME_VALID (R379): A received frame becomes valid, is filtered and its record pushed to a FIFO queue. -/
def execCanFrameValid (n : Fin 2) (frame : CanFrame) (s : State) : Host.Outcome State Fault Refusal := live (canFrameValid n.val frame) s

/-- CAN_TX_START (R384): At a start point the controller selects one pending buffer and begins its frame. -/
def execCanTxStart (n : Fin 2) (tdcv : BitVec 7) (s : State) : Host.Outcome State Fault Refusal := live (canTxStart n.val tdcv.toNat) s

/-- CAN_TX_END (R385): A transmission ends as DONE, retried, FAILED or lost in arbitration. -/
def execCanTxEnd (n : Fin 2) (how : CanEnd) (sofAge : Nat) (s : State) : Host.Outcome State Fault Refusal := live (canTxEnd n.val how sofAge) s

/-- CAN_ERROR (R389): A protocol error updates the error counters and may change error state or enter bus-off. -/
def execCanError (n : Fin 2) (kind : CanErr) (code : BitVec 3) (dataPhase : Bool) (s : State) : Host.Outcome State Fault Refusal := live (canError n.val kind code.toNat dataPhase) s

/-- CAN_RECOVERED (R390): 128 occurrences of 11 recessive bits complete bus-off recovery. -/
def execCanRecovered (n : Fin 2) (s : State) : Host.Outcome State Fault Refusal := live (canRecovered n.val) s

/-- CAN_INTEGRATION (R376): After 11 consecutive recessive bits the controller joins the bus. -/
def execCanIntegration (n : Fin 2) (s : State) : Host.Outcome State Fault Refusal := live (canIntegration n.val) s

end Sys2Proof.Machine
end

