-- ==== Sys2Proof/Machine/ExecCommand.lean ====
section
/-! DEFINITION. The meanings of the steps of the commands of the host (13). Each carries out its operation on a module that runs. -/

namespace Sys2Proof.Machine

/-- SYS_INFO (R426): SYS.INFO returns identification and firmware data. -/
def execSysInfo (d : Desc) (s : State) : Host.Outcome State Fault Refusal := live (cmdSysInfo d) s

/-- SYS_NOP (R426): SYS.NOP completes with no action. -/
def execSysNop (d : Desc) (s : State) : Host.Outcome State Fault Refusal := live (cmdSysNop d) s

/-- SYS_QUERY (R426): SYS.QUERY returns a handle's table entry and final status. -/
def execSysQuery (d : Desc) (s : State) : Host.Outcome State Fault Refusal := live (cmdSysQuery d) s

/-- SYS_CANCEL (R439): SYS.CANCEL stops a cancellable command within 1 ms. -/
def execSysCancel (d : Desc) (s : State) : Host.Outcome State Fault Refusal := live (cmdSysCancel d) s

/-- SYS_ATTN_CLR (R440): SYS.ATTN_CLR clears bits of HS.ATTN. -/
def execSysAttnClr (d : Desc) (s : State) : Host.Outcome State Fault Refusal := live (cmdSysAttnClr d) s

/-- SYS_TIME (R426): SYS.TIME returns TB.LAST, TICKNO and BL.SNOFS of one boundary. -/
def execSysTime (d : Desc) (s : State) : Host.Outcome State Fault Refusal := live (cmdSysTime d) s

/-- SYS_TIMETABLE (R426): SYS.TIMETABLE writes the shadow table, period and swap and completes when the change takes effect. -/
def execSysTimetable (d : Desc) (s : State) : Host.Outcome State Fault Refusal := live (cmdSysTimetable d) s

/-- SYS_RESET (R426): SYS.RESET writes its record and requests an MP restart or module reset 1 ms later. -/
def execSysReset (d : Desc) (s : State) : Host.Outcome State Fault Refusal := live (cmdSysReset d) s

/-- MD_ENABLE (R427): MD.ENABLE submits an ENABLE request and completes at precharge end or refusal. -/
def execMdEnable (d : Desc) (s : State) : Host.Outcome State Fault Refusal := live (cmdMdEnable d) s

/-- MD_DISABLE (R427): MD.DISABLE submits a DISABLE request. -/
def execMdDisable (d : Desc) (s : State) : Host.Outcome State Fault Refusal := live (cmdMdDisable d) s

/-- MD_START (R427): MD.START submits a START request and completes when START reaches 4 or is refused. -/
def execMdStart (d : Desc) (s : State) : Host.Outcome State Fault Refusal := live (cmdMdStart d) s

/-- MD_STOP (R427): MD.STOP submits a STOP request and completes when the stop ends in READY. -/
def execMdStop (d : Desc) (s : State) : Host.Outcome State Fault Refusal := live (cmdMdStop d) s

/-- MD_EMERGENCY (R427): MD.EMERGENCY submits an EMERGENCY request for a sub-mode. -/
def execMdEmergency (d : Desc) (s : State) : Host.Outcome State Fault Refusal := live (cmdMdEmergency d) s

/-- MD_MODE (R427): MD.MODE submits a MODE request. -/
def execMdMode (d : Desc) (s : State) : Host.Outcome State Fault Refusal := live (cmdMdMode d) s

/-- MD_RESET (R427): MD.RESET submits a RESET request. -/
def execMdReset (d : Desc) (s : State) : Host.Outcome State Fault Refusal := live (cmdMdReset d) s

/-- SP_WRITE (R428): SP.WRITE pushes one setpoint record into Q50. -/
def execSpWrite (d : Desc) (s : State) : Host.Outcome State Fault Refusal := live (cmdSpWrite d) s

/-- SP_WRITE_N (R428): SP.WRITE_N checks and pushes several setpoint records into Q50. -/
def execSpWriteN (d : Desc) (s : State) : Host.Outcome State Fault Refusal := live (cmdSpWriteN d) s

/-- REG_READ (R429): REG.READ returns up to four register words. -/
def execRegRead (d : Desc) (s : State) : Host.Outcome State Fault Refusal := live (cmdRegRead d) s

/-- REG_WRITE (R429): REG.WRITE writes one register and returns its read-back value. -/
def execRegWrite (d : Desc) (s : State) : Host.Outcome State Fault Refusal := live (cmdRegWrite d) s

/-- PAR_STAGE (R429): PAR.STAGE queues coefficient words to the inactive bank through Q53. -/
def execParStage (d : Desc) (s : State) : Host.Outcome State Fault Refusal := live (cmdParStage d) s

/-- TBL_LOAD (R429): TBL.LOAD checks and loads a table into the active or inactive bank. -/
def execTblLoad (d : Desc) (s : State) : Host.Outcome State Fault Refusal := live (cmdTblLoad d) s

/-- BANK_SWAP (R429): BANK.SWAP requests a bank swap at a named or the next tick. -/
def execBankSwap (d : Desc) (s : State) : Host.Outcome State Fault Refusal := live (cmdBankSwap d) s

/-- BANK_COPY (R429): BANK.COPY copies the active bank into the inactive bank. -/
def execBankCopy (d : Desc) (s : State) : Host.Outcome State Fault Refusal := live (cmdBankCopy d) s

/-- PAR_SAVE (R458): PAR.SAVE writes the active bank as a table image to NOR. -/
def execParSave (d : Desc) (s : State) : Host.Outcome State Fault Refusal := live (cmdParSave d) s

/-- FB_CORRECT (R429): FB.CORRECT applies the commanded index correction. -/
def execFbCorrect (d : Desc) (s : State) : Host.Outcome State Fault Refusal := live (cmdFbCorrect d) s

/-- DIAG_OFFSTATE (R431): DIAG.OFFSTATE runs off-state diagnostics on an idle stage. -/
def execDiagOffstate (d : Desc) (s : State) : Host.Outcome State Fault Refusal := live (cmdDiagOffstate d) s

/-- BIST_LANE (R431): BIST.LANE tests one lane in slices. -/
def execBistLane (d : Desc) (s : State) : Host.Outcome State Fault Refusal := live (cmdBistLane d) s

/-- BIST_MEM (R431): BIST.MEM runs a slice or full memory test. -/
def execBistMem (d : Desc) (s : State) : Host.Outcome State Fault Refusal := live (cmdBistMem d) s

/-- BIST_GATE (R431): BIST.GATE tests the PX-G channels in the mask on an idle stage. -/
def execBistGate (d : Desc) (s : State) : Host.Outcome State Fault Refusal := live (cmdBistGate d) s

/-- CAL_PASS (R431): CAL.PASS completes at the next completed calibration pass. -/
def execCalPass (d : Desc) (s : State) : Host.Outcome State Fault Refusal := live (cmdCalPass d) s

/-- CRC_SCAN (R431): CRC.SCAN runs a CRC unit scan and compares the expected value. -/
def execCrcScan (d : Desc) (s : State) : Host.Outcome State Fault Refusal := live (cmdCrcScan d) s

/-- TR_CONFIG (R432): TR.CONFIG configures a trace ring's nodes, decimation and trigger. -/
def execTrConfig (d : Desc) (s : State) : Host.Outcome State Fault Refusal := live (cmdTrConfig d) s

/-- TR_ARM (R432): TR.ARM arms or disarms trace rings. -/
def execTrArm (d : Desc) (s : State) : Host.Outcome State Fault Refusal := live (cmdTrArm d) s

/-- TR_TRIGGER (R432): TR.TRIGGER triggers armed rings at the next sample instant. -/
def execTrTrigger (d : Desc) (s : State) : Host.Outcome State Fault Refusal := live (cmdTrTrigger d) s

/-- TR_READ (R486): TR.READ copies samples of a stopped ring to the bulk area. -/
def execTrRead (d : Desc) (s : State) : Host.Outcome State Fault Refusal := live (cmdTrRead d) s

/-- EV_READ (R432): EV.READ returns log records from a given sequence. -/
def execEvRead (d : Desc) (s : State) : Host.Outcome State Fault Refusal := live (cmdEvRead d) s

/-- LK_ENUM (R433): LK.ENUM runs an enumeration from the root. -/
def execLkEnum (d : Desc) (s : State) : Host.Outcome State Fault Refusal := live (cmdLkEnum d) s

/-- CS_FORM (R433): CS.FORM forms a consist with this unit as head. -/
def execCsForm (d : Desc) (s : State) : Host.Outcome State Fault Refusal := live (cmdCsForm d) s

/-- CS_ADD (R433): CS.ADD adds a member, completing at its join tick. -/
def execCsAdd (d : Desc) (s : State) : Host.Outcome State Fault Refusal := live (cmdCsAdd d) s

/-- CS_REMOVE (R433): CS.REMOVE removes a member through the reverse fade. -/
def execCsRemove (d : Desc) (s : State) : Host.Outcome State Fault Refusal := live (cmdCsRemove d) s

/-- CS_DISSOLVE (R433): CS.DISSOLVE removes every member and ends the head role. -/
def execCsDissolve (d : Desc) (s : State) : Host.Outcome State Fault Refusal := live (cmdCsDissolve d) s

/-- PR_RELEASE (R434): PR.RELEASE releases the module from its pair. -/
def execPrRelease (d : Desc) (s : State) : Host.Outcome State Fault Refusal := live (cmdPrRelease d) s

/-- PR_ENGAGE (R434): PR.ENGAGE engages the module into the pair. -/
def execPrEngage (d : Desc) (s : State) : Host.Outcome State Fault Refusal := live (cmdPrEngage d) s

/-- PR_PSER (R435): PR.PSER holds a new partner serial pending and returns the CRC for confirmation. -/
def execPrPser (d : Desc) (s : State) : Host.Outcome State Fault Refusal := live (cmdPrPser d) s

/-- SAFE_OPEN (R436): SAFE.OPEN opens commissioning with a matching code and releases the lock. -/
def execSafeOpen (d : Desc) (s : State) : Host.Outcome State Fault Refusal := live (cmdSafeOpen d) s

/-- SAFE_CLOSE (R436): SAFE.CLOSE computes the CRC and stores the set unconfirmed. -/
def execSafeClose (d : Desc) (s : State) : Host.Outcome State Fault Refusal := live (cmdSafeClose d) s

/-- SAFE_CONFIRM (R436): SAFE.CONFIRM confirms the entered CRC and applies the lock, or a pending serial. -/
def execSafeConfirm (d : Desc) (s : State) : Host.Outcome State Fault Refusal := live (cmdSafeConfirm d) s

/-- SAFE_STATUS (R436): SAFE.STATUS returns the safety fault and configuration status. -/
def execSafeStatus (d : Desc) (s : State) : Host.Outcome State Fault Refusal := live (cmdSafeStatus d) s

/-- FW_STAGE (R437): FW.STAGE writes a firmware image chunk into the inactive slot. -/
def execFwStage (d : Desc) (s : State) : Host.Outcome State Fault Refusal := live (cmdFwStage d) s

/-- FW_VERIFY (R437): FW.VERIFY checks the staged image's hash and signature. -/
def execFwVerify (d : Desc) (s : State) : Host.Outcome State Fault Refusal := live (cmdFwVerify d) s

/-- FW_SWAP (R437): FW.SWAP names the tick of a firmware swap. -/
def execFwSwap (d : Desc) (s : State) : Host.Outcome State Fault Refusal := live (cmdFwSwap d) s

/-- FW_DISCARD (R437): FW.DISCARD erases the inactive slot. -/
def execFwDiscard (d : Desc) (s : State) : Host.Outcome State Fault Refusal := live (cmdFwDiscard d) s

/-- NV_READ (R437): NV.READ copies a NOR region range to the bulk area. -/
def execNvRead (d : Desc) (s : State) : Host.Outcome State Fault Refusal := live (cmdNvRead d) s

end Sys2Proof.Machine
end

