-- ==== Sys2Proof/Machine/ExecDrive.lean ====
section
/-! DEFINITION. The meanings of the steps of the drive sequencer and its limits (05; 10 R344). Each carries out its operation on a module that runs. -/

namespace Sys2Proof.Machine

/-- ENABLE (R187): An ENABLE request is evaluated at its boundary and takes the drive to READY or is refused. -/
def execEnable (s : State) : Host.Outcome State Fault Refusal := live (request 1 0 0) s

/-- DISABLE (R186): A DISABLE request is evaluated and takes the drive from READY to STANDBY. -/
def execDisable (s : State) : Host.Outcome State Fault Refusal := live (request 2 0 0) s

/-- START (R174): A START request is evaluated, taking the drive into RUN with a flying start or resuming a normal stop. -/
def execStart (mode : Fin 8) (s : State) : Host.Outcome State Fault Refusal := live (request 3 mode.val 0) s

/-- STOP (R197): A STOP request is evaluated and starts the brake sequence in phase 2. -/
def execStop (s : State) : Host.Outcome State Fault Refusal := live (request 4 0 0) s

/-- EMERGENCY (R191): An EMERGENCY request is evaluated and enters the named sub-mode on demand. -/
def execEmergency (sub : Fin 8) (s : State) : Host.Outcome State Fault Refusal := live (request 5 0 sub.val) s

/-- MODE (R189): A MODE request is evaluated and changes the mode under the rules of R190. -/
def execMode (mode : Fin 8) (s : State) : Host.Outcome State Fault Refusal := live (request 6 mode.val 0) s

/-- RESET (R188): A RESET request is evaluated, clearing latched causes and leaving the drive in STANDBY, or is refused. -/
def execReset (s : State) : Host.Outcome State Fault Refusal := live (request 7 0 0) s

/-- STANDSTILL_REACHED (R197): |ωm| stays at or below WSTOP for 8 ticks, ending hold or an on-demand E-COAST. -/
def execStandstillReached (s : State) : Host.Outcome State Fault Refusal := live standstillIfDue s

/-- BRAKE_SET_CONFIRMED (R196): BRK_FB high for 8 ticks or BRKSET ms elapsed confirms the brake set and starts the taper. -/
def execBrakeSetConfirmed (s : State) : Host.Outcome State Fault Refusal := live brakeSetConfirmedIfDue s

/-- TAPER_COMPLETE (R197): The taper and BRKTAPER ms without slip end and phase 5 begins as the drive leaves STOPPING. -/
def execTaperComplete (s : State) : Host.Outcome State Fault Refusal := live taperCompleteIfDue s

/-- BRAKE_RELEASED (R200): BRK_FB low for 8 ticks or BRKREL ms ends the release and the ramp target becomes the command. -/
def execBrakeReleased (s : State) : Host.Outcome State Fault Refusal := live brakeReleasedIfDue s

/-- BRAKE_FAIL (R196): The brake feedback fails to follow within its time plus 500 ms and BRAKE_FAIL is latched. -/
def execBrakeFail (s : State) : Host.Outcome State Fault Refusal := live brakeFailIfDue s

/-- ERTMO (R192): The emergency stop does not reach standstill within ERTMO ms and ERTMO is latched. -/
def execErtmo (s : State) : Host.Outcome State Fault Refusal := live ertmoIfDue s

/-- ASC_EXIT (R199): |ωm| below ASCXW for 8 ticks with vdc below 1.20 ends E-ASC into E-COAST. -/
def execAscExit (s : State) : Host.Outcome State Fault Refusal := live ascExitIfDue s

/-- DC_UV (R205): vdc below Vuv for 8 consecutive ticks raises DC_UV in RUN or STOPPING, or returns READY to STANDBY. -/
def execDcUv (s : State) : Host.Outcome State Fault Refusal := live dcUvIfDue s

/-- DC_OV (R209): The fast-path DC-link comparator trips and the Signal Box enters E-ASC or E-COAST in hardware. -/
def execDcOv (bits : List Bool) (s : State) : Host.Outcome State Fault Refusal := live (dcOv bits) s

/-- CHOPPER_FAULT (R208): GK held full on for 2 ms without a fall of vdc raises CHOPPER_FAULT and sets R = 0. -/
def execChopperFault (s : State) : Host.Outcome State Fault Refusal := live chopperFaultIfDue s

/-- PRECHARGE_DONE (R233): Every bootstrap reaches 16 V, PREDONE sets and the ENABLE completes. -/
def execPrechargeDone (s : State) : Host.Outcome State Fault Refusal := live prechargeDoneIfDue s

/-- PRECHARGE_TIMEOUT (R233): Precharge not done within 100 ms returns the drive to STANDBY with NOT_VALID. -/
def execPrechargeTimeout (s : State) : Host.Outcome State Fault Refusal := live prechargeTimeoutIfDue s

/-- OVERCURRENT (R344): The fast-path output of IU, IV, IW or ICH exceeds the effective current limit: OVERCURRENT is latched and
OFFCMD is sent to all seven channels. -/
def execOvercurrent (ch : Fin 12) (bits : List Bool) (s : State) : Host.Outcome State Fault Refusal := live (overcurrent ch.val bits) s

end Sys2Proof.Machine
end

