-- ==== Sys2Proof/Machine/ExecHost.lean ====
section
/-! DEFINITION. The meanings of the steps of the host port, queues, registers, start-up and reset (00, 01, 12, 17). Each carries out its operation on a module that runs. -/

namespace Sys2Proof.Machine

/-- FIRMWARE_SWAP (R339): At the named boundary the MP halts, the slot window switches and the MP restarts from the verified slot.
-/
def execFirmwareSwap (s : State) : Host.Outcome State Fault Refusal := live firmwareSwapIfDue s

/-- SPI_WRITE_TRANSACTION (R402): A host write transaction ends and takes effect as a whole, or is discarded with a result code. -/
def execSpiWriteTransaction (words : List Word) (aligned : Bool) (s : State) : Host.Outcome State Fault Refusal := live (spiWrite words aligned) s

/-- SPI_READ_TRANSACTION (R402): A host read transaction returns window data with a result code. -/
def execSpiReadTransaction (header : Word) (count : Nat) (aligned : Bool) (parity : Bool) (s : State) : Host.Outcome State Fault Refusal := live (spiRead header count aligned parity) s

/-- DOORBELL (R406): A write of HS.CQc_TAIL announces descriptors, advancing TAIL or being refused. -/
def execDoorbell (c : Fin 4) (tail : BitVec 16) (s : State) : Host.Outcome State Fault Refusal := live (doorbell c.val tail.toNat) s

/-- DOORBELL_SIGNAL (R406): 40 cyc after an accepted doorbell the MP is signalled. -/
def execDoorbellSignal (s : State) : Host.Outcome State Fault Refusal := live doorbellSignal s

/-- DESCRIPTOR_POP (R407): The MP pops a command descriptor in queue order when its completion queue has credit. -/
def execDescriptorPop (parity : Option (BitVec 32)) (bulkParity : Option (BitVec 32)) (s : State) : Host.Outcome State Fault Refusal := live (descriptorPop parity bulkParity) s

/-- FINAL_RECORD_RELEASE (R411): A held FINAL record goes out when the host frees a completion slot. -/
def execFinalRecordRelease (s : State) : Host.Outcome State Fault Refusal := live recordRelease s

/-- CPL_HEAD_WRITE (R411): A host write of HS.CPLc_HEAD consumes records and frees handle slots. -/
def execCplHeadWrite (c : Fin 4) (head : BitVec 16) (s : State) : Host.Outcome State Fault Refusal := live (cplHeadWrite c.val head.toNat) s

/-- MP_RESTART (R418): The MP returns to service and reports outstanding handles ABORTED_BY_RESET before serving descriptors. -/
def execMpRestart (s : State) : Host.Outcome State Fault Refusal := live mpRestart s

/-- MODULE_RESET (R526): A module reset reinitialises the parts of R526 and boot follows. -/
def execModuleReset (facts : BootFacts) (s : State) : Host.Outcome State Fault Refusal := live (moduleReset facts) s

/-- QUEUE_PUSH (R36): A producer pushes an item into a queue, taking a credit or acting under its no-credit policy. -/
def execQueuePush (n : Fin 64) (item : List Byte) (s : State) : Host.Outcome State Fault Refusal := live (queuePush n.val item) s

/-- QUEUE_POP (R36): A consumer pops an item and returns a credit, or finds the queue empty. -/
def execQueuePop (n : Fin 64) (bad : Option (BitVec 32)) (s : State) : Host.Outcome State Fault Refusal := live (queuePop n.val bad) s

/-- QM_IRQ_CLEAR (R45): A W1C write of QM.IRQ0 or QM.IRQ1 clears watermark bits, which set again if still at watermark. -/
def execQmIrqClear (hi : Bool) (value : Word) (s : State) : Host.Outcome State Fault Refusal := live (qmIrqClear hi value) s

/-- TB_CNT_LO_READ (R33): A read of TB.CNT_LO latches TB[63:32] into TB.CNT_HI. -/
def execTbCntLoRead (s : State) : Host.Outcome State Fault Refusal := live (registerRead R.TB_CNT_LO.addr) s

/-- TB_LAST_LO_READ (R33): A read of TB.LAST_LO latches TB.LAST_HI. -/
def execTbLastLoRead (s : State) : Host.Outcome State Fault Refusal := live (registerRead R.TB_LAST_LO.addr) s

/-- FB_POS_LO_READ (R277): A read of FB.POS_LO latches FB.POS_HI. -/
def execFbPosLoRead (s : State) : Host.Outcome State Fault Refusal := live (registerRead R.FB_POS_LO.addr) s

/-- FB_HOFS_LO_READ (R277): A read of FB.HOFS_LO latches FB.HOFS_HI. -/
def execFbHofsLoRead (s : State) : Host.Outcome State Fault Refusal := live (registerRead R.FB_HOFS_LO.addr) s

/-- NV_LOGSEQ_LO_READ (R467): A read of NV.LOGSEQ_LO latches NV.LOGSEQ_HI. -/
def execNvLogseqLoRead (s : State) : Host.Outcome State Fault Refusal := live (registerRead R.NV_LOGSEQ_LO.addr) s

/-- NV_LOGOLD_LO_READ (R467): A read of NV.LOGOLD_LO latches NV.LOGOLD_HI. -/
def execNvLogoldLoRead (s : State) : Host.Outcome State Fault Refusal := live (registerRead R.NV_LOGOLD_LO.addr) s

/-- TE_TB_LO_READ (R494): A read of TE.Rr_TB_LO latches TE.Rr_TB_HI. -/
def execTeTbLoRead (r : Fin 16) (s : State) : Host.Outcome State Fault Refusal := live (registerRead (R.TE_Rr_TB_LO r.val).addr) s

/-- READ_CLEAR_COUNTER (R14): A read of an RC field returns it and clears it in the same access. -/
def execReadClearCounter (addr : BitVec 32) (s : State) : Host.Outcome State Fault Refusal := live (registerRead (addr.toNat / 4 * 4)) s

/-- REGISTER_WRITE (R14): A write to a register without a row of its own sets, triggers or clears fields per their access codes and
lock. -/
def execRegisterWrite (addr : BitVec 32) (value : Word) (s : State) : Host.Outcome State Fault Refusal := live (registerWrite addr.toNat value) s

/-- POWER_ON (R529): Supply good starts the boot path: BIST, memory test, loader, stores, firmware and tables. -/
def execPowerOn (facts : BootFacts) (s : State) : Host.Outcome State Fault Refusal := .next (powerOn facts { s with out := {} })

/-- BOOT_COMPLETE (R529): Boot completes and the sequencer enters STANDBY at the next boundary. -/
def execBootComplete (s : State) : Host.Outcome State Fault Refusal := live bootComplete s

/-- MP_RESET (R418): The MP is put into reset: MPSTATE reads 2, MPDOWN sets and the work of outstanding handles stops. -/
def execMpReset (cause : Fin 3) (addr : Option (BitVec 32)) (s : State) : Host.Outcome State Fault Refusal := live (mpResetNow cause addr) s

end Sys2Proof.Machine
end

