-- ==== Sys2Proof/Machine/ExecNetwork.lean ====
section
/-! DEFINITION. The meanings of the steps of the Beysta Link and the redundant pair (08, 09). Each carries out its operation on a module that runs. -/

namespace Sys2Proof.Machine

/-- SHARE (R305): A SHARE cell is received, delivered to members and forwarded per the consist mask. -/
def execShare (p : Fin 4) (cell : List Byte) (s : State) : Host.Outcome State Fault Refusal := live (shareArrives p.val cell) s

/-- CONTRIB (R306): A CONTRIB cell reaches the head with a member's status, ceilings and offset. -/
def execContrib (p : Fin 4) (cell : List Byte) (s : State) : Host.Outcome State Fault Refusal := live (contribArrives p.val cell) s

/-- SYNC (R289): A link SYNC cell arrives, is forwarded with correction, and the unit corrects its TB. -/
def execSync (p : Fin 4) (cell : TimedCell) (tb period corr : Nat) (root : SyncRoot) (s : State) : Host.Outcome State Fault Refusal :=
  live (syncArrives p.val cell.bytes cell.frac.val
    { tb := tb, period := period, corr := corr, serial := root.serial, standby := root.standby }) s

/-- DELAY_REQ (R289): A DELAY_REQ cell from the neighbour is answered with DELAY_RESP. -/
def execDelayReq (p : Fin 4) (cell : TimedCell) (s : State) : Host.Outcome State Fault Refusal :=
  live (delayReq p.val cell.bytes cell.frac.val) s

/-- DELAY_RESP (R289): A DELAY_RESP cell gives the round trip and updates BL.Pp_DELAY. -/
def execDelayResp (p : Fin 4) (cell : TimedCell) (stay : Nat) (s : State) : Host.Outcome State Fault Refusal :=
  live (delayResp p.val cell.bytes cell.frac.val stay) s

/-- ENUM (R295): An ENUM cell assigns or queries a unit ID during enumeration. -/
def execEnum (p : Fin 4) (cell : List Byte) (msg : EnumMsg) (s : State) : Host.Outcome State Fault Refusal := live (enumArrives p.val cell msg) s

/-- CONSIST (R303): A CONSIST cell carries a join tick or consist change to a unit. -/
def execConsist (p : Fin 4) (cell : List Byte) (msg : ConsistMsg) (s : State) : Host.Outcome State Fault Refusal := live (consistArrives p.val cell msg) s

/-- NOTICE (R299): An EPOCH_STALE NOTICE updates the consist map or makes a member detach. -/
def execNotice (p : Fin 4) (cell : List Byte) (s : State) : Host.Outcome State Fault Refusal := live (noticeArrives p.val cell) s

/-- MGMT (R295): A MGMT cell writes route tables and consist masks. -/
def execMgmt (p : Fin 4) (cell : List Byte) (msg : MgmtMsg) (s : State) : Host.Outcome State Fault Refusal := live (mgmtArrives p.val cell msg) s

/-- LINK_UP (R281): A port decodes 1 ms error-free and comes up. -/
def execLinkUp (p : Fin 4) (nbr : BitVec 11) (s : State) : Host.Outcome State Fault Refusal := live (linkUp p.val nbr.toNat) s

/-- LINK_DOWN (R281): Loss of signal or excessive code violations take a port down. -/
def execLinkDown (p : Fin 4) (los : Bool) (s : State) : Host.Outcome State Fault Refusal := live (linkDown p.val los) s

/-- BL_MTX_GO (R286): A write of BL.Pp_MTX.GO sends the staged management cell outside the window. -/
def execBlMtxGo (p : Fin 4) (s : State) : Host.Outcome State Fault Refusal := live (mtxGo p.val) s

/-- NOSHARE_LAUNCH (R306): A member with no share by window open plus NSOFS launches its contribution with NOSHARE. -/
def execNoshareLaunch (s : State) : Host.Outcome State Fault Refusal := live noshareLaunch s

/-- HOLDOVER (R292): No SYNC for 64 ticks puts a locked unit into holdover or makes a standby root take the root role. -/
def execHoldover (s : State) : Host.Outcome State Fault Refusal := live holdoverIfDue s

/-- SYNC_LOST (R291): Three SYNCs beyond 20 ns or 4,000 ticks of holdover take the unit out of LOCKED. -/
def execSyncLost (s : State) : Host.Outcome State Fault Refusal := live syncLostIfDue s

/-- JOIN (R303): At join tick J the member's role and epoch change and it enters SHARE with the fade starting. -/
def execJoin (s : State) : Host.Outcome State Fault Refusal := live joinIfDue s

/-- REMOVAL_FADE_END (R303): The reverse fade reaches 0 and the member's role becomes NONE in TORQUE. -/
def execRemovalFadeEnd (s : State) : Host.Outcome State Fault Refusal := live removalFadeEndIfDue s

/-- MEMBER_DETACHED (R308): After MISSMAX consecutive missing shares the member detaches. -/
def execMemberDetached (s : State) : Host.Outcome State Fault Refusal := live memberDetachedIfDue s

/-- DEPUTY_TAKEOVER (R314): The deputy takes the head role after HANDOVER or TAKE windows without head share cells. -/
def execDeputyTakeover (s : State) : Host.Outcome State Fault Refusal := live deputyTakeoverIfDue s

/-- TAKEOVER (R315): A head without contributions for TAKE windows gives up its role to the deputy. -/
def execTakeover (s : State) : Host.Outcome State Fault Refusal := live takeoverIfDue s

/-- MIRROR_BLOCK (R321): A partner state block arrives on X7 and is checked for validity. -/
def execMirrorBlock (b : Machine.PairBlock) (arrival : X7Arrival) (s : State) : Host.Outcome State Fault Refusal :=
  live (mirrorBlock b arrival.frac.val arrival.flight) s

/-- ALIVE_IN (R322): The partner's ALIVE_OUT toggles at ALIVE_IN, counting as heartbeat. -/
def execAliveIn (level : Bool) (s : State) : Host.Outcome State Fault Refusal := live (aliveInput level) s

/-- CHG_IN (R335): The partner's CHG_OWN changes at CHG_IN. -/
def execChgIn (level : Bool) (s : State) : Host.Outcome State Fault Refusal := live (chgInput level) s

/-- PARTNER_LOST (R327): MISS.HB reaches 2, partner loss is declared and the survivor takes over. -/
def execPartnerLost (s : State) : Host.Outcome State Fault Refusal := live (fun s => partnerLostIfDue (s.ownCause s.seq.raised) s) s

/-- PARTNER_RELEASE (R328): A partner block with RELEASE or CARRY 0 leads to takeover at the next boundary. -/
def execPartnerRelease (s : State) : Host.Outcome State Fault Refusal := live (fun s => partnerReleaseIfDue (s.ownCause s.seq.raised) s) s

/-- MIRROR_LOST (R327): MISS.BLK reaches 2 with heartbeats present and the module stops aligning. -/
def execMirrorLost (s : State) : Host.Outcome State Fault Refusal := live mirrorLostIfDue s

/-- ALIVE_LOST (R327): ALIVE_IN static for 8 ticks while blocks are valid raises ALIVE_LOST. -/
def execAliveLost (s : State) : Host.Outcome State Fault Refusal := live aliveLostIfDue s

/-- SYNCED (R324): 64 consecutive valid blocks within 2 ns set PM.STAT.SYNCED. -/
def execSynced (s : State) : Host.Outcome State Fault Refusal := live syncedIfDue s

/-- CHG_OWN_ASSERT (R335): A waiting standby asserts CHG_OWN after CHG_IN has been low for 2 ticks. -/
def execChgOwnAssert (s : State) : Host.Outcome State Fault Refusal := live chgOwnAssertIfDue s

/-- PAIR_FB (R332): The partner's p_fb differs beyond PTOL for 8 ticks and PAIR_FB is raised. -/
def execPairFb (s : State) : Host.Outcome State Fault Refusal := live pairFbIfDue s

/-- PAIR_JOIN (R331): At JOINSN the carrying module's share fade starts. -/
def execPairJoin (s : State) : Host.Outcome State Fault Refusal := live pairJoinIfDue s

/-- PM_CFG_EN (R323): A write of PM.CFG.EN starts pairing, or is refused. -/
def execPmCfgEn (on : Bool) (s : State) : Host.Outcome State Fault Refusal := live (pmCfgEn on) s

/-- PM_CTL_RELEASE (R337): A write of PM.CTL.RELEASE starts an orderly release of the module. -/
def execPmCtlRelease (s : State) : Host.Outcome State Fault Refusal := live pmRelease s

/-- PM_CTL_ENGAGE (R338): A write of PM.CTL.ENGAGE joins the module at JOINSN or as standby. -/
def execPmCtlEngage (s : State) : Host.Outcome State Fault Refusal := live pmEngage s

/-- EXCHANGE_WINDOW_OPEN (R307): At BL.WIN.OPEN the exchange window opens, exchange cells get priority and the head's SHARE cells
leave at open plus 64 cyc. -/
def execExchangeWindowOpen (s : State) : Host.Outcome State Fault Refusal := live windowOpen s

/-- EXCHANGE_WINDOW_CLOSE (R285): At OPEN plus LEN the window closes and SHARE or CONTRIB cells that have not started are discarded
and counted. -/
def execExchangeWindowClose (s : State) : Host.Outcome State Fault Refusal := live windowClose s

/-- ID_HOLD_EXPIRY (R295): The 10 s for which the root holds a disconnected unit's ID free runs out, and the ID becomes free. -/
def execIdHoldExpiry (s : State) : Host.Outcome State Fault Refusal := live idHoldExpiry s

end Sys2Proof.Machine
end

