-- ==== Sys2Proof/Machine/ExecPosition.lean ====
section
/-! DEFINITION. The meanings of the steps of the position feedback (07). Each carries out its operation on a module that runs. -/

namespace Sys2Proof.Machine

/-- FB_CTL_EN (R247): A write of FB.CTL.EN enables feedback if the source configuration passes its checks. -/
def execFbCtlEn (on : Bool) (s : State) : Host.Outcome State Fault Refusal := live (fbEnWrite on) s

/-- FB_CTL_CORR (R260): A write of FB.CTL.CORR applies the commanded correction at the next boundary. -/
def execFbCtlCorr (s : State) : Host.Outcome State Fault Refusal := live fbCorrect s

/-- FB_CTL_USEPRI (R271): A write of FB.CTL.USEPRI returns the operating source to the primary when revalidated. -/
def execFbCtlUsepri (s : State) : Host.Outcome State Fault Refusal := live fbUsePri s

/-- ENCODER_EDGE (R253): A transition of ENC_A or ENC_B changes the count, or counts as an illegal transition. -/
def execEncoderEdge (a : Bool) (b : Bool) (s : State) : Host.Outcome State Fault Refusal := live (encoderEdge a b) s

/-- INDEX_LATCH (R256): An accepted ENC_Z rising edge latches IDXLAT and runs the drift check. -/
def execIndexLatch (z : Bool) (s : State) : Host.Outcome State Fault Refusal := live (indexLatch z) s

/-- INDEX_MISS (R258): Travel beyond CPR plus IDXTOL without a latch records an index miss. -/
def execIndexMiss (s : State) : Host.Outcome State Fault Refusal := live indexMissIfDue s

/-- LINE_FAULT (R253): An RS-422 pair inside the fault window for 1 µs sets ABFAULT or ZFAULT. -/
def execLineFault (pair : Fin 3) (present : Bool) (s : State) : Host.Outcome State Fault Refusal := live (lineFault pair present) s

/-- SINCOS_SAMPLE (R262): The converters sample sin and cos every 400 cyc and update the position and amplitude checks. -/
def execSincosSample (sin : BitVec 16) (cos : BitVec 16) (s : State) : Host.Outcome State Fault Refusal := live (sincosSample sin cos) s

/-- RESOLVER_SAMPLE (R264): The windings are sampled at an excitation peak and the position updated. -/
def execResolverSample (sin : BitVec 16) (cos : BitVec 16) (excOk : Bool) (s : State) : Host.Outcome State Fault Refusal := live (resolverSample sin cos excOk) s

/-- SSI_FRAME (R266): An SSI frame is clocked SSI_LEAD before the boundary and decoded, or counted bad. -/
def execSsiFrame (bits : List Bool) (s : State) : Host.Outcome State Fault Refusal := live (ssiFrame bits) s

/-- HALL_TRANSITION (R268): A Hall transition accepted after FILT sets the sector edge angle or SKIP. -/
def execHallTransition (code : Fin 8) (s : State) : Host.Outcome State Fault Refusal := live (hallTransition code) s

/-- HALL_TIMEOUT (R268): No Hall transition for TMO ms sets the angle to the sector centre and ωm to 0. -/
def execHallTimeout (s : State) : Host.Outcome State Fault Refusal := live hallTimeoutIfDue s

/-- SOURCE_VALID (R248): 64 ticks after a source's clearing condition has gone its VALID sets. -/
def execSourceValid (source : Fin 5) (s : State) : Host.Outcome State Fault Refusal := live (sourceValidIfDue (source.val + 1)) s

/-- ENCODER_EMULATION_EDGE (R275): The emulation output moves one quadrature edge toward its target. -/
def execEncoderEmulationEdge (s : State) : Host.Outcome State Fault Refusal := live emulationEdge s

/-- QUARTER_PERIOD_COUNT (R262): A comparator transition on AN_SIN or AN_COS changes the quarter-period count Qc. -/
def execQuarterPeriodCount (up : Bool) (s : State) : Host.Outcome State Fault Refusal := live (quarterPeriod up) s

end Sys2Proof.Machine
end

