-- ==== Sys2Proof/Machine/ExecSafety.lean ====
section
/-! DEFINITION. The meanings of the steps of the Signal Box (10). Each carries out its operation on a module that runs. -/

namespace Sys2Proof.Machine

/-- SAFETY_INPUT_CHANGE (R347): A filtered safety input change takes effect after F agreeing samples, demanding or ending STO, SS1
or SLS. -/
def execSafetyInputChange (input : Fin 6) (level : Bool) (s : State) : Host.Outcome State Fault Refusal := live (safetyInputChange input level) s

/-- STO_OFF (R351): With no demand left and GSUP set the STO decision clears. -/
def execStoOff (s : State) : Host.Outcome State Fault Refusal := live stoOffIfDue s

/-- SUPPLY (R351): A low-side rail still up 20 ms after the supply stopped latches SUPPLY. -/
def execSupply (railUp : Bool) (s : State) : Host.Outcome State Fault Refusal := live (supplyCheck railUp) s

/-- INPUT_TEST (R348): In the tick with TICKNO mod 1,024 = 512 each input stage is forced to both levels and checked. -/
def execInputTest (follows : Bool) (s : State) : Host.Outcome State Fault Refusal := live (inputTest follows) s

/-- GEN_RB (R345): ONCMD still high 64 cyc after GATE_EN fell, or a driver readback mismatch, latches GEN_RB. -/
def execGenRb (readback : Option (Fin 7)) (s : State) : Host.Outcome State Fault Refusal := live (genRb readback) s

/-- SOUT_TEST (R349): Every 1,000 ms a high output is switched off for 300 µs and its readback checked. -/
def execSoutTest (pulse : Bool) (follows : Bool) (s : State) : Host.Outcome State Fault Refusal := live (soutTest pulse follows) s

/-- SS1_END (R352): SS1 ends at its time or standstill and becomes a demand for STO. -/
def execSs1End (s : State) : Host.Outcome State Fault Refusal := live ss1EndIfDue s

/-- SPD_DISC (R355): |ω_sb − ωm| beyond WDISC at 16 boundaries latches SPD_DISC. -/
def execSpdDisc (s : State) : Host.Outcome State Fault Refusal := live spdDiscIfDue s

/-- SB_SELF (R356): Every 4,096 ticks the Signal Box self-tests its logic, comparators and filters. -/
def execSbSelf (pass : Bool) (s : State) : Host.Outcome State Fault Refusal := live (sbSelf pass) s

/-- CFG_CRC (R356): Every 4,096 ticks the live safety parameter CRC is recomputed and compared. -/
def execCfgCrc (s : State) : Host.Outcome State Fault Refusal := live cfgCrc s

/-- LOCKOUT_EXIT (R358): The SRST fall of a valid reset sequence runs the tests and, if passed, leaves LOCKOUT. -/
def execLockoutExit (selfOk : Bool) (inputsOk : Bool) (s : State) : Host.Outcome State Fault Refusal := live (fun s => lockoutSave (lockoutExit selfOk inputsOk s)) s

/-- TOKEN_FRAME (R366): A received Token frame is checked at the next boundary and accepted or refused. -/
def execTokenFrame (s : State) : Host.Outcome State Fault Refusal := live tokenFrameIfDue s

/-- TOKEN_TMO (R369): An established Token connection's watchdog expires, latching TOKEN_TMO or raising TOKEN_LOST. -/
def execTokenTmo (s : State) : Host.Outcome State Fault Refusal := live tokenTmoIfDue s

/-- TOK_TX_READ (R373): A read of the last word of SB.TOKt_TX clears TXRDY. -/
def execTokTxRead (t : Fin 2) (s : State) : Host.Outcome State Fault Refusal := live (tokTxRead t.val) s

/-- STO_TEST_DUE (R371): 720 h without a demand or ENABLE raises STO_TEST_DUE. -/
def execStoTestDue (s : State) : Host.Outcome State Fault Refusal := live stoTestDueIfDue s

/-- REQM_GATE_GOFF (R345): A write of SB.REQM_GATE.GOFF takes or releases every GATE_EN through the enable chain. -/
def execReqmGateGoff (off : Bool) (s : State) : Host.Outcome State Fault Refusal := live (reqmGate off) s

/-- MPWD (R29): A write of SB.MPWD restarts the MP watchdog. -/
def execMpwd (s : State) : Host.Outcome State Fault Refusal := live mpwdWrite s

/-- MP_LOST (R29): 100 ms without an SB.MPWD write raises MP_LOST and resets the MP. -/
def execMpLost (s : State) : Host.Outcome State Fault Refusal := live mpLostIfDue s

end Sys2Proof.Machine
end

