-- ==== Sys2Proof/Machine/ExecService.lean ====
section
/-! DEFINITION. The meanings of the steps of the thermal monitor, supplies, NOR, self-test, CRC unit and trace (14, 15). Each carries out its operation on a module that runs. -/

namespace Sys2Proof.Machine

/-- AUX_OV (R243): The auxiliary input above 36 V for 2 µs opens the external switch and starts ride-through. -/
def execAuxOv (vin : BitVec 16) (vhb : BitVec 16) (s : State) : Host.Outcome State Fault Refusal := live (auxOv vin vhb) s

/-- SWITCH_RECLOSE (R243): The auxiliary input below 35 V for 10 ms closes the external switch again. -/
def execSwitchReclose (vin : BitVec 16) (vhb : BitVec 16) (s : State) : Host.Outcome State Fault Refusal := live (switchReclose vin vhb) s

/-- TEMP_MEASUREMENT (R443): A sensor is measured, cross-checked, and the thermal factor, warnings and compensation updated. -/
def execTempMeasurement (sensor : Fin 11) (reading : BitVec 32) (s : State) : Host.Outcome State Fault Refusal := live (tempMeasurement sensor reading) s

/-- PX_C_HALT (R461): At t_s plus 5 ms at the latest PX-C halts and internal supplies turn off. -/
def execPxCHalt (s : State) : Host.Outcome State Fault Refusal := live pxCHalt s

/-- AUX_LOSS (R451): The auxiliary input below 15.5 V for 100 µs starts ride-through. -/
def execAuxLoss (vin : BitVec 16) (vhb : BitVec 16) (s : State) : Host.Outcome State Fault Refusal := live (auxLoss vin vhb) s

/-- AUX_BACK (R451): The auxiliary input above 16.5 V for 10 ms ends ride-through. -/
def execAuxBack (vin : BitVec 16) (vhb : BitVec 16) (s : State) : Host.Outcome State Fault Refusal := live (auxBack vin vhb) s

/-- HOLDUP_BUS_LOW (R452): The hold-up bus falls to 20 V and the shutdown sequence starts. -/
def execHoldupBusLow (vin : BitVec 16) (vhb : BitVec 16) (s : State) : Host.Outcome State Fault Refusal := live (holdupBusLow vin vhb) s

/-- HBOK (R452): The hold-up bus finishes charging and TH.SUP.HBOK sets. -/
def execHbok (vin : BitVec 16) (vhb : BitVec 16) (s : State) : Host.Outcome State Fault Refusal := live (hbok vin vhb) s

/-- NOR_JOB (R454): The NOR controller takes a job, blank-checking and erasing before the first program of a sector. -/
def execNorJob (s : State) : Host.Outcome State Fault Refusal := live norJob s

/-- NOR_OPERATION_COMPLETE (R454): A page program or sector erase ends and is verified, or the sector is retired. -/
def execNorOperationComplete (ok : Bool) (s : State) : Host.Outcome State Fault Refusal := live (norComplete ok) s

/-- LOG_PAGE_PROGRAM (R459): The MP programs a log page when 8 records are collected or 100 ms after the first. -/
def execLogPageProgram (s : State) : Host.Outcome State Fault Refusal := live logPage s

/-- EVENT_RING_PASS (R489): At least every 1 ms the MP pops the event rings, numbers the records and logs drops. -/
def execEventRingPass (s : State) : Host.Outcome State Fault Refusal := live eventPass s

/-- BIST_JOB_RESULT (R472): A BIST job ends and returns its result on Q59, applying the consequences of a failure. -/
def execBistJobResult (fail : Option BistFail) (s : State) : Host.Outcome State Fault Refusal := live (bistJobResult fail) s

/-- BI_CTL_ABORT (R492): A write of BI.CTL.ABORT stops the running BIST job at its next step. -/
def execBiCtlAbort (s : State) : Host.Outcome State Fault Refusal := live bistAbort s

/-- CC_CHK_CTL_GO (R476): A write of CC.CHk_CTL.GO starts a CRC scan on a channel. -/
def execCcChkCtlGo (k : Fin 4) (value : Word) (s : State) : Host.Outcome State Fault Refusal := live (ccWrite (R.CC_CHk_CTL_GO k.val).addr value) s

/-- CC_CHK_DATA (R476): A write of CC.CHk_DATA feeds 4 bytes into an idle CRC channel. -/
def execCcChkData (k : Fin 4) (w : Word) (s : State) : Host.Outcome State Fault Refusal := live (ccData k.val w) s

/-- CRC_SCAN_END (R477): A CRC scan ends, RES takes the final value and a mismatch or parity error is flagged. -/
def execCrcScanEnd (k : Fin 4) (perr : Option (BitVec 24)) (s : State) : Host.Outcome State Fault Refusal := live (ccScanEnd k.val perr) s

/-- TRACE_SAMPLE (R481): At the LIMSHARE substitution point plus 112 cyc rings sample their nodes and triggers are evaluated. -/
def execTraceSample (s : State) : Host.Outcome State Fault Refusal := live traceSample s

/-- RING_STOP (R484): A triggered ring stops after CAP − PRE samples. -/
def execRingStop (r : Fin 16) (s : State) : Host.Outcome State Fault Refusal := live (ringStopIfDue r.val) s

/-- TE_CTL_ARM (R494): A write of TE.CTL.ARM arms configured rings. -/
def execTeCtlArm (mask : BitVec 16) (s : State) : Host.Outcome State Fault Refusal := live (teArm mask.toNat) s

/-- TE_CTL_DISARM (R494): A write of TE.CTL.DISARM returns rings to CONFIGURED. -/
def execTeCtlDisarm (mask : BitVec 16) (s : State) : Host.Outcome State Fault Refusal := live (teDisarm mask.toNat) s

/-- TE_TRIG (R494): A write of TE.TRIG triggers rings at the next sample instant. -/
def execTeTrig (mask : BitVec 16) (s : State) : Host.Outcome State Fault Refusal := live (teTrig mask.toNat) s

end Sys2Proof.Machine
end

