-- ==== Sys2Proof/Machine/ExecStage.lean ====
section
/-! DEFINITION. The meanings of the steps of the sigma-delta inputs, edge scheduler and gate drive (03, 06). Each carries out its operation on a module that runs. -/

namespace Sys2Proof.Machine

/-- SD_CHANNEL_CONFIG (R92): A write of SD.CHn_CFG sets a channel's role and enable, refusing duplicate or invalid roles. -/
def execSdChannelConfig (ch : Fin 12) (value : Word) (s : State) : Host.Outcome State Fault Refusal := live (sdChannelConfig ch.val value) s

/-- SD_RESTART (R99): A write of SD.CHn_RST.RESTART clears LOSS and refills the channel's filters. -/
def execSdRestart (ch : Fin 12) (s : State) : Host.Outcome State Fault Refusal := live (sdRestartWrite ch.val) s

/-- SD_VALID (R99): Once the filters have filled after enable or restart, the channel sets VALID. -/
def execSdValid (ch : Fin 12) (s : State) : Host.Outcome State Fault Refusal := live (sdValidIfDue ch.val) s

/-- SD_LOSS (R99): 64 bits without a transition clear VALID, set LOSS and raise SD_LOSS. -/
def execSdLoss (ch : Fin 12) (s : State) : Host.Outcome State Fault Refusal := live (sdLoss ch.val) s

/-- CAL_POSITION_STEP (R103): After SETTLE and DWELL ticks the calibration selector moves to the next position at a boundary. -/
def execCalPositionStep (s : State) : Host.Outcome State Fault Refusal := live calPositionStepIfDue s

/-- CAL_FIT_APPLY (R104): A completed calibration fit is applied to GCAL and OCAL at the next boundary, or raises CAL_RANGE. -/
def execCalFitApply (s : State) : Host.Outcome State Fault Refusal := live calFitApply s

/-- PW_CTL_RUN (R123): A write of PW.CTL.RUN starts real schedules at the next commit tick or makes later commits all-off. -/
def execPwCtlRun (run : Bool) (s : State) : Host.Outcome State Fault Refusal := live (pwRunWrite run) s

/-- EDGE_LATE (R135): Late edges in a third consecutive carrier raise EDGE_LATE. -/
def execEdgeLate (s : State) : Host.Outcome State Fault Refusal := live edgeLateIfDue s

/-- VS_COMPENSATION_DROPPED (R137): A volt-second residue still unplaced after 8 carriers is dropped and counted in PW.VSLOST. -/
def execVsCompensationDropped (s : State) : Host.Outcome State Fault Refusal := live vsDropIfDue s

/-- GLINK_CONFIG (R223): A CONFIG frame reaches a PX-G and is applied or refused, answered by ACK. -/
def execGlinkConfig (c : Fin 7) (ok : Bool) (s : State) : Host.Outcome State Fault Refusal := live (glinkConfig c.val ok) s

/-- CONFIG_RESEND (R214): An unacknowledged CONFIG is resent, and after three resends CFGREJ is set. -/
def execConfigResend (c : Fin 7) (s : State) : Host.Outcome State Fault Refusal := live (configResend c.val) s

/-- GLINK_SYNC (R217): A SYNC frame reaches a PX-G, which slews or steps LTB and tracks its lock. -/
def execGlinkSync (c : Fin 7) (ok : Bool) (t : SyncTiming) (s : State) : Host.Outcome State Fault Refusal :=
  live (glinkSync c.val ok t.drift t.taken t.flight) s

/-- LOCK (R218): After 16 consecutive SYNC errors within ±1 ns the channel sets LOCK. -/
def execLock (c : Fin 7) (s : State) : Host.Outcome State Fault Refusal := live (lockIfDue c.val) s

/-- GLINK_LOOP (R217): A LOOP frame is echoed to measure the link round trip. -/
def execGlinkLoop (c : Fin 7) (tag : Option Byte) (roundTrip : Nat) (s : State) : Host.Outcome State Fault Refusal :=
  live (glinkLoop c.val tag roundTrip) s

/-- STAGE (R219): A STAGE frame delivers an inert channel block to the PX-G. -/
def execStage (c : Fin 7) (ok : Bool) (s : State) : Host.Outcome State Fault Refusal := live (stageArrives c.val ok) s

/-- COMMIT (R219): A COMMIT frame arms, re-arms or rejects the staged block, or records a MISS. -/
def execCommit (c : Fin 7) (ok : Bool) (s : State) : Host.Outcome State Fault Refusal := live (commitArrives c.val ok) s

/-- ACK (R213): An ACK frame from a PX-G reports the CONFIG applied or refused. -/
def execAck (c : Fin 7) (ok : Bool) (s : State) : Host.Outcome State Fault Refusal := live (ackArrives c.val ok) s

/-- STATUS (R213): A STATUS frame reports latches, BSWARN and LOCK on change and at least every 100 µs. -/
def execStatus (c : Fin 7) (ok : Bool) (s : State) : Host.Outcome State Fault Refusal := live (statusArrives c.val ok) s

/-- TEL (R244): A TEL frame delivers one telemetry record, stamped and pushed to its queue. -/
def execTel (c : Fin 7) (ok : Bool) (s : State) : Host.Outcome State Fault Refusal := live (telArrives c.val ok) s

/-- DIAGRES (R213): A DIAGRES frame returns a sense reading of off-state diagnostics. -/
def execDiagres (c : Fin 7) (mv : Nat) (frame : DiagFrame) (s : State) : Host.Outcome State Fault Refusal :=
  live (diagResult c.val mv frame) s

/-- PERIODIC (R244): Every GD.TELPER µs a PX-G sends a PERIODIC telemetry record. -/
def execPeriodic (c : Fin 7) (pos : BitVec 16) (neg : BitVec 16) (temp : BitVec 16) (s : State) : Host.Outcome State Fault Refusal := live (periodicRecord c.val pos neg temp) s

/-- LINK_LATCH (R214): No valid symbol for 64 symbol periods turns the channel off and latches LINK. -/
def execLinkLatch (c : Fin 7) (uplink : Bool) (s : State) : Host.Outcome State Fault Refusal := live (linkLatch c.val uplink) s

/-- ONCMD (R216): A change of a channel's commanded-on level reaches PX-C over the event lane. -/
def execOncmd (c : Fin 7) (s : State) : Host.Outcome State Fault Refusal := live (oncmd c.val) s

/-- VGEON (R216): A crossing of OFFTH by the gate-emitter voltage reaches PX-C over the event lane. -/
def execVgeon (c : Fin 7) (level : Bool) (s : State) : Host.Outcome State Fault Refusal := live (vgeon c.val level) s

/-- PERMIT (R224): PX-C raises PERMIT for a channel once its partner is off-confirmed and the dead time has passed. -/
def execPermit (c : Fin 7) (s : State) : Host.Outcome State Fault Refusal := live (permitRaise c.val) s

/-- OFFCMD (R216): A gate-off command reaches a PX-G, which turns off and latches OFFCMD. -/
def execOffcmd (c : Fin 7) (s : State) : Host.Outcome State Fault Refusal := live (offcmd c.val) s

/-- ARMED_EDGE_ACTS (R220): An armed edge acts at its TB instant, subject to the permit for turn-ons. -/
def execArmedEdgeActs (c : Fin 7) (s : State) : Host.Outcome State Fault Refusal := live (armedEdgeActs c.val) s

/-- TURN_ON_DROP (R225): A turn-on delayed by more than DLYMAX is dropped with the rest of its pulse. -/
def execTurnOnDrop (c : Fin 7) (s : State) : Host.Outcome State Fault Refusal := live (turnOnDropIfDue c.val) s

/-- SHOOT_ATTEMPT (R227): Both channels of a leg on for 2 cycles makes the Signal Box send OFFCMD to both. -/
def execShootAttempt (leg : Fin 3) (s : State) : Host.Outcome State Fault Refusal := live (shootAttempt leg.val) s

/-- DESAT (R228): The sense voltage above DSTH for 16 cyc triggers soft turn-off and latches DESAT. -/
def execDesat (c : Fin 7) (s : State) : Host.Outcome State Fault Refusal := live (desat c.val) s

/-- UVLO (R236): A gate rail crosses its lockout threshold, turning the channel off and latching UVLOP or UVLON. -/
def execUvlo (c : Fin 7) (negative : Bool) (trip : Bool) (s : State) : Host.Outcome State Fault Refusal := live (uvlo c.val negative trip) s

/-- BSWARN (R232): A bootstrap voltage falls to BSWARN and the PX-G reports it in STATUS. -/
def execBswarn (leg : Fin 3) (level : Bool) (s : State) : Host.Outcome State Fault Refusal := live (bswarn leg.val level) s

/-- REFRESH_PULSE_INSERT (R232): The Signal Box inserts a refresh pulse at the first eligible carrier after BSWARN. -/
def execRefreshPulseInsert (r : RefreshFrames) (s : State) : Host.Outcome State Fault Refusal :=
  live (refreshInsert r.leg.val r.highOk r.lowOk) s

/-- REFRESH_PULSE_COMPLETE (R232): A refresh pulse completes and is reported to CURFLD for compensation. -/
def execRefreshPulseComplete (leg : Fin 3) (s : State) : Host.Outcome State Fault Refusal := live (refreshComplete leg.val) s

/-- GATE_EN_LOW (R237): GATE_EN falls at a PX-G, turning the channel off and discarding its blocks. -/
def execGateEnLow (c : Fin 7) (s : State) : Host.Outcome State Fault Refusal := live (gateEnLow c.val) s

/-- GATE_EN_RISE (R237): GATE_EN rises after at least 10 µs low and clears the channel's latches. -/
def execGateEnRise (c : Fin 7) (s : State) : Host.Outcome State Fault Refusal := live (gateEnRise c.val) s

/-- DIAG_CTL_GO (R239): A write of GD.DIAG_CTL.GO starts off-state diagnostics if the stage is idle. -/
def execDiagCtlGo (load : Bool) (s : State) : Host.Outcome State Fault Refusal := live (fun s => diagGo (s.wr R.GD_DIAG_CTL_LOAD (b2n load))) s

/-- OFFSTATE_DIAG_STEP (R240): 2 ms after driving its pins a diagnostic step reads and classifies the nodes. -/
def execOffstateDiagStep (s : State) : Host.Outcome State Fault Refusal := live diagStep s

end Sys2Proof.Machine
end

