-- ==== Sys2Proof/Machine/ExecTick.lean ====
section
/-! DEFINITION. The meanings of the steps of the tick, lanes, tasks and what they watch (02–04). Each carries out its operation on a module that runs. -/

namespace Sys2Proof.Machine

/-- TICK_BOUNDARY (R30): TB reaches TB.LAST plus the period: TICKNO increments, the Timetable restarts and sigma-delta windows
close, feedback is latched and the sequencer runs its boundary actions. -/
def execTickBoundary (inp : TickInputs) (s : State) : Host.Outcome State Fault Refusal := live (tickBoundary inp) s

/-- CURFLD (R116): The CURFLD task runs on its lane from its start offset: current reconstruction, current loop, field control and
voltage references. -/
def execCurfld (run : TaskRun) (s : State) : Host.Outcome State Fault Refusal := live (curfld run) s

/-- OUTER (R142): The OUTER task runs from its start offset: setpoint pops, outer loops, observer, ceilings and torque demand. -/
def execOuter (run : TaskRun) (s : State) : Host.Outcome State Fault Refusal := live (outer run) s

/-- LIMSHARE (R304): The LIMSHARE task runs from its start offset: limits, chopper law, regenerative ceiling, share computation and
edge staging. -/
def execLimshare (run : TaskRun) (s : State) : Host.Outcome State Fault Refusal := live (limshare run) s

/-- SUBSTITUTION_POINT (R54): At a task's start plus budget its output is posted or substituted, with Hold-1 or rest output where no
valid output exists. -/
def execSubstitutionPoint (task : Fin 3) (s : State) : Host.Outcome State Fault Refusal := live (substitutionPoint task) s

/-- RECOMPUTATION (R73): 16 cyc after an error the siding lane starts recomputing the aborted task from its unchanged inputs. -/
def execRecomputation (task : Fin 3) (run : TaskRun) (s : State) : Host.Outcome State Fault Refusal := live (recomputation task run) s

/-- RECOMPUTED_OUTPUT_POSTED (R73): When the recomputation ends its output is posted 8 cyc later and replaces the task output if in
time. -/
def execRecomputedOutputPosted (task : Fin 3) (s : State) : Host.Outcome State Fault Refusal := live (recomputedPosted task) s

/-- DATAPATH (R78): HOLDRUN reaching 3 raises and latches DATAPATH, whose reaction begins at the next boundary. -/
def execDatapath (s : State) : Host.Outcome State Fault Refusal := live datapathIfDue s

/-- HOLD8 (R79): HOLDRUN reaching 8 makes the Signal Box take every GATE_EN low and set the brake, entering E-COAST. -/
def execHold8 (s : State) : Host.Outcome State Fault Refusal := live hold8IfDue s

/-- LANE_SUSPECT (R72): A fourth detected error on one lane within 4,096 ticks raises LANE_SUSPECT and restarts the count. -/
def execLaneSuspect (lane : Fin 4) (s : State) : Host.Outcome State Fault Refusal := live (laneSuspectIfDue lane.val) s

/-- LANE_LOST (R85): At the boundary after a lane fails BIST it is marked unusable and the Timetable remaps, or a second loss raises
DATAPATH. -/
def execLaneLost (lane : Fin 4) (s : State) : Host.Outcome State Fault Refusal := live (laneLostDue lane.val) s

/-- SLICE_START (R62): A self-test, calibration or scrub slice starts in an idle window on the siding lane when it fits. -/
def execSliceStart (bad : Option (BitVec 32)) (s : State) : Host.Outcome State Fault Refusal := live (sliceStart (bad.map BitVec.toNat)) s

/-- SLICE_ABORT (R62): A slice still running at its window end is aborted and repeated later. -/
def execSliceAbort (s : State) : Host.Outcome State Fault Refusal := live sliceAbort s

/-- TIMETABLE_CHANGE_DUE (R546): At the boundary where a pending swap or period change is due, R57 is checked again and the change
takes effect or is refused. -/
def execTimetableChangeDue (s : State) : Host.Outcome State Fault Refusal := live ttChangeIfDue s

/-- TT_CTL_SWAP (R58): A write of TT.CTL.SWAP checks the shadow table and makes a swap pending. -/
def execTtCtlSwap (s : State) : Host.Outcome State Fault Refusal := live ttSwapWrite s

/-- TT_PERIOD_CYC (R60): A write of TT.PERIOD.CYC checks and pends a period change. -/
def execTtPeriodCyc (value : Word) (s : State) : Host.Outcome State Fault Refusal := live (ttPeriodWrite (R.TT_PERIOD_CYC.get value)) s

/-- LN_TBLCHK_GO (R82): A write of LN.TBLCHK with GO starts the lane-data controller's check of a reloaded table. -/
def execLnTblchkGo (value : Word) (s : State) : Host.Outcome State Fault Refusal := live (tblchkWrite value) s

/-- TABLE_CHECK_DONE (R82): The table check ends with DONE, clearing the stale bit at the next boundary, or FAIL. -/
def execTableCheckDone (parityOk : Bool) (s : State) : Host.Outcome State Fault Refusal := live (tableCheckDone parityOk) s

/-- ISUM (R108): The zero-sequence current exceeds SD.ISUMLIM in a fourth consecutive tick and ISUM is raised. -/
def execIsum (s : State) : Host.Outcome State Fault Refusal := live isumIfDue s

/-- SETPOINT_APPLY (R147): A pending setpoint record applies at the task start of the tick named by APPLY_TICK. -/
def execSetpointApply (s : State) : Host.Outcome State Fault Refusal := live setpointApply s

/-- LEVER_STALE (R148): No lever value for LVTMO ticks sets LVSTALE and takes the lever input as 0. -/
def execLeverStale (s : State) : Host.Outcome State Fault Refusal := live leverStaleIfDue s

/-- TENSION_SRC (R148): A load-pin value older than LVTMO ticks sets LPSTALE and tension falls back to the estimate. -/
def execTensionSrc (s : State) : Host.Outcome State Fault Refusal := live tensionSrcIfDue s

/-- SHOCK_CLEAR (R163): After |rate| stays below SHKEXIT for CHOLD ticks the SHOCK flag clears and compliance ends. -/
def execShockClear (s : State) : Host.Outcome State Fault Refusal := live shockClearIfDue s

/-- HEAVE_STALE (R169): The heave extrapolation age exceeds HVTMO, HVSTALE sets and the terms fade to zero. -/
def execHeaveStale (s : State) : Host.Outcome State Fault Refusal := live heaveStaleIfDue s

/-- BANK_SWAP_EFFECT (R156): A pending bank swap takes effect at the task start of its named tick, or is refused as BUSY. -/
def execBankSwapEffect (s : State) : Host.Outcome State Fault Refusal := live (fun s => drainStaging (bankSwapIfDue s)) s

/-- FLUX_BUILD_END (R176): The induction rotor flux reaches 0.9 ψr* and the start ramp begins. -/
def execFluxBuildEnd (s : State) : Host.Outcome State Fault Refusal := live fluxBuildEndIfDue s

/-- FLUX_TIMEOUT (R176): The flux build exceeds FLUXTMO, gates go off and the start completes with FLUX_TIMEOUT. -/
def execFluxTimeout (s : State) : Host.Outcome State Fault Refusal := live fluxTimeoutIfDue s

/-- START_COMPLETE (R178): START reaches 4 when the command is first reached and the start completes OK. -/
def execStartComplete (s : State) : Host.Outcome State Fault Refusal := live startCompleteIfDue s

end Sys2Proof.Machine
end

