-- ==== Sys2Proof/Machine/Dispatch.lean ====
section
/-! DEFINITION. The dispatch: one arm per constructor of Instr, each one direct call of a meaning. -/

namespace Sys2Proof.Machine

def exec (i : Instr) (s : State) : Host.Outcome State Fault Refusal :=
  match i with
  | .tickBoundary inp => Sys2Proof.Machine.execTickBoundary inp s
  | .curfld run => Sys2Proof.Machine.execCurfld run s
  | .outer run => Sys2Proof.Machine.execOuter run s
  | .limshare run => Sys2Proof.Machine.execLimshare run s
  | .substitutionPoint task => Sys2Proof.Machine.execSubstitutionPoint task s
  | .recomputation task run => Sys2Proof.Machine.execRecomputation task run s
  | .recomputedOutputPosted task => Sys2Proof.Machine.execRecomputedOutputPosted task s
  | .datapath => Sys2Proof.Machine.execDatapath s
  | .hold8 => Sys2Proof.Machine.execHold8 s
  | .laneSuspect lane => Sys2Proof.Machine.execLaneSuspect lane s
  | .laneLost lane => Sys2Proof.Machine.execLaneLost lane s
  | .sliceStart bad => Sys2Proof.Machine.execSliceStart bad s
  | .sliceAbort => Sys2Proof.Machine.execSliceAbort s
  | .timetableChangeDue => Sys2Proof.Machine.execTimetableChangeDue s
  | .ttCtlSwap => Sys2Proof.Machine.execTtCtlSwap s
  | .ttPeriodCyc value => Sys2Proof.Machine.execTtPeriodCyc value s
  | .lnTblchkGo value => Sys2Proof.Machine.execLnTblchkGo value s
  | .tableCheckDone parityOk => Sys2Proof.Machine.execTableCheckDone parityOk s
  | .sdChannelConfig ch value => Sys2Proof.Machine.execSdChannelConfig ch value s
  | .sdRestart ch => Sys2Proof.Machine.execSdRestart ch s
  | .sdValid ch => Sys2Proof.Machine.execSdValid ch s
  | .sdLoss ch => Sys2Proof.Machine.execSdLoss ch s
  | .calPositionStep => Sys2Proof.Machine.execCalPositionStep s
  | .calFitApply => Sys2Proof.Machine.execCalFitApply s
  | .isum => Sys2Proof.Machine.execIsum s
  | .pwCtlRun run => Sys2Proof.Machine.execPwCtlRun run s
  | .edgeLate => Sys2Proof.Machine.execEdgeLate s
  | .vsCompensationDropped => Sys2Proof.Machine.execVsCompensationDropped s
  | .setpointApply => Sys2Proof.Machine.execSetpointApply s
  | .leverStale => Sys2Proof.Machine.execLeverStale s
  | .tensionSrc => Sys2Proof.Machine.execTensionSrc s
  | .shockClear => Sys2Proof.Machine.execShockClear s
  | .heaveStale => Sys2Proof.Machine.execHeaveStale s
  | .bankSwapEffect => Sys2Proof.Machine.execBankSwapEffect s
  | .fluxBuildEnd => Sys2Proof.Machine.execFluxBuildEnd s
  | .fluxTimeout => Sys2Proof.Machine.execFluxTimeout s
  | .startComplete => Sys2Proof.Machine.execStartComplete s
  | .enable => Sys2Proof.Machine.execEnable s
  | .disable => Sys2Proof.Machine.execDisable s
  | .start mode => Sys2Proof.Machine.execStart mode s
  | .stop => Sys2Proof.Machine.execStop s
  | .emergency sub => Sys2Proof.Machine.execEmergency sub s
  | .mode mode => Sys2Proof.Machine.execMode mode s
  | .reset => Sys2Proof.Machine.execReset s
  | .standstillReached => Sys2Proof.Machine.execStandstillReached s
  | .brakeSetConfirmed => Sys2Proof.Machine.execBrakeSetConfirmed s
  | .taperComplete => Sys2Proof.Machine.execTaperComplete s
  | .brakeReleased => Sys2Proof.Machine.execBrakeReleased s
  | .brakeFail => Sys2Proof.Machine.execBrakeFail s
  | .ertmo => Sys2Proof.Machine.execErtmo s
  | .ascExit => Sys2Proof.Machine.execAscExit s
  | .dcUv => Sys2Proof.Machine.execDcUv s
  | .dcOv bits => Sys2Proof.Machine.execDcOv bits s
  | .chopperFault => Sys2Proof.Machine.execChopperFault s
  | .prechargeDone => Sys2Proof.Machine.execPrechargeDone s
  | .prechargeTimeout => Sys2Proof.Machine.execPrechargeTimeout s
  | .glinkConfig c ok => Sys2Proof.Machine.execGlinkConfig c ok s
  | .configResend c => Sys2Proof.Machine.execConfigResend c s
  | .glinkSync c ok t => Sys2Proof.Machine.execGlinkSync c ok t s
  | .lock c => Sys2Proof.Machine.execLock c s
  | .glinkLoop c tag roundTrip => Sys2Proof.Machine.execGlinkLoop c tag roundTrip s
  | .stage c ok => Sys2Proof.Machine.execStage c ok s
  | .commit c ok => Sys2Proof.Machine.execCommit c ok s
  | .ack c ok => Sys2Proof.Machine.execAck c ok s
  | .status c ok => Sys2Proof.Machine.execStatus c ok s
  | .tel c ok => Sys2Proof.Machine.execTel c ok s
  | .diagres c mv frame => Sys2Proof.Machine.execDiagres c mv frame s
  | .periodic c pos neg temp => Sys2Proof.Machine.execPeriodic c pos neg temp s
  | .linkLatch c uplink => Sys2Proof.Machine.execLinkLatch c uplink s
  | .oncmd c => Sys2Proof.Machine.execOncmd c s
  | .vgeon c level => Sys2Proof.Machine.execVgeon c level s
  | .permit c => Sys2Proof.Machine.execPermit c s
  | .offcmd c => Sys2Proof.Machine.execOffcmd c s
  | .armedEdgeActs c => Sys2Proof.Machine.execArmedEdgeActs c s
  | .turnOnDrop c => Sys2Proof.Machine.execTurnOnDrop c s
  | .shootAttempt leg => Sys2Proof.Machine.execShootAttempt leg s
  | .desat c => Sys2Proof.Machine.execDesat c s
  | .uvlo c negative trip => Sys2Proof.Machine.execUvlo c negative trip s
  | .bswarn leg level => Sys2Proof.Machine.execBswarn leg level s
  | .refreshPulseInsert r => Sys2Proof.Machine.execRefreshPulseInsert r s
  | .refreshPulseComplete leg => Sys2Proof.Machine.execRefreshPulseComplete leg s
  | .gateEnLow c => Sys2Proof.Machine.execGateEnLow c s
  | .gateEnRise c => Sys2Proof.Machine.execGateEnRise c s
  | .diagCtlGo load => Sys2Proof.Machine.execDiagCtlGo load s
  | .offstateDiagStep => Sys2Proof.Machine.execOffstateDiagStep s
  | .auxOv vin vhb => Sys2Proof.Machine.execAuxOv vin vhb s
  | .switchReclose vin vhb => Sys2Proof.Machine.execSwitchReclose vin vhb s
  | .fbCtlEn on => Sys2Proof.Machine.execFbCtlEn on s
  | .fbCtlCorr => Sys2Proof.Machine.execFbCtlCorr s
  | .fbCtlUsepri => Sys2Proof.Machine.execFbCtlUsepri s
  | .encoderEdge a b => Sys2Proof.Machine.execEncoderEdge a b s
  | .indexLatch z => Sys2Proof.Machine.execIndexLatch z s
  | .indexMiss => Sys2Proof.Machine.execIndexMiss s
  | .lineFault pair present => Sys2Proof.Machine.execLineFault pair present s
  | .sincosSample sin cos => Sys2Proof.Machine.execSincosSample sin cos s
  | .resolverSample sin cos excOk => Sys2Proof.Machine.execResolverSample sin cos excOk s
  | .ssiFrame bits => Sys2Proof.Machine.execSsiFrame bits s
  | .hallTransition code => Sys2Proof.Machine.execHallTransition code s
  | .hallTimeout => Sys2Proof.Machine.execHallTimeout s
  | .sourceValid source => Sys2Proof.Machine.execSourceValid source s
  | .encoderEmulationEdge => Sys2Proof.Machine.execEncoderEmulationEdge s
  | .share p cell => Sys2Proof.Machine.execShare p cell s
  | .contrib p cell => Sys2Proof.Machine.execContrib p cell s
  | .sync p cell tb period corr root => Sys2Proof.Machine.execSync p cell tb period corr root s
  | .delayReq p cell => Sys2Proof.Machine.execDelayReq p cell s
  | .delayResp p cell stay => Sys2Proof.Machine.execDelayResp p cell stay s
  | .enum p cell msg => Sys2Proof.Machine.execEnum p cell msg s
  | .consist p cell msg => Sys2Proof.Machine.execConsist p cell msg s
  | .notice p cell => Sys2Proof.Machine.execNotice p cell s
  | .mgmt p cell msg => Sys2Proof.Machine.execMgmt p cell msg s
  | .linkUp p nbr => Sys2Proof.Machine.execLinkUp p nbr s
  | .linkDown p los => Sys2Proof.Machine.execLinkDown p los s
  | .blMtxGo p => Sys2Proof.Machine.execBlMtxGo p s
  | .noshareLaunch => Sys2Proof.Machine.execNoshareLaunch s
  | .holdover => Sys2Proof.Machine.execHoldover s
  | .syncLost => Sys2Proof.Machine.execSyncLost s
  | .join => Sys2Proof.Machine.execJoin s
  | .removalFadeEnd => Sys2Proof.Machine.execRemovalFadeEnd s
  | .memberDetached => Sys2Proof.Machine.execMemberDetached s
  | .deputyTakeover => Sys2Proof.Machine.execDeputyTakeover s
  | .takeover => Sys2Proof.Machine.execTakeover s
  | .mirrorBlock b arrival => Sys2Proof.Machine.execMirrorBlock b arrival s
  | .aliveIn level => Sys2Proof.Machine.execAliveIn level s
  | .chgIn level => Sys2Proof.Machine.execChgIn level s
  | .partnerLost => Sys2Proof.Machine.execPartnerLost s
  | .partnerRelease => Sys2Proof.Machine.execPartnerRelease s
  | .mirrorLost => Sys2Proof.Machine.execMirrorLost s
  | .aliveLost => Sys2Proof.Machine.execAliveLost s
  | .synced => Sys2Proof.Machine.execSynced s
  | .chgOwnAssert => Sys2Proof.Machine.execChgOwnAssert s
  | .pairFb => Sys2Proof.Machine.execPairFb s
  | .pairJoin => Sys2Proof.Machine.execPairJoin s
  | .pmCfgEn on => Sys2Proof.Machine.execPmCfgEn on s
  | .pmCtlRelease => Sys2Proof.Machine.execPmCtlRelease s
  | .pmCtlEngage => Sys2Proof.Machine.execPmCtlEngage s
  | .firmwareSwap => Sys2Proof.Machine.execFirmwareSwap s
  | .safetyInputChange input level => Sys2Proof.Machine.execSafetyInputChange input level s
  | .stoOff => Sys2Proof.Machine.execStoOff s
  | .supply railUp => Sys2Proof.Machine.execSupply railUp s
  | .inputTest follows => Sys2Proof.Machine.execInputTest follows s
  | .genRb readback => Sys2Proof.Machine.execGenRb readback s
  | .soutTest pulse follows => Sys2Proof.Machine.execSoutTest pulse follows s
  | .ss1End => Sys2Proof.Machine.execSs1End s
  | .spdDisc => Sys2Proof.Machine.execSpdDisc s
  | .sbSelf pass => Sys2Proof.Machine.execSbSelf pass s
  | .cfgCrc => Sys2Proof.Machine.execCfgCrc s
  | .lockoutExit selfOk inputsOk => Sys2Proof.Machine.execLockoutExit selfOk inputsOk s
  | .tokenFrame => Sys2Proof.Machine.execTokenFrame s
  | .tokenTmo => Sys2Proof.Machine.execTokenTmo s
  | .tokTxRead t => Sys2Proof.Machine.execTokTxRead t s
  | .stoTestDue => Sys2Proof.Machine.execStoTestDue s
  | .reqmGateGoff off => Sys2Proof.Machine.execReqmGateGoff off s
  | .mpwd => Sys2Proof.Machine.execMpwd s
  | .mpLost => Sys2Proof.Machine.execMpLost s
  | .canCtlMode n mode => Sys2Proof.Machine.execCanCtlMode n mode s
  | .canCtlRecover n => Sys2Proof.Machine.execCanCtlRecover n s
  | .canTxctlReq n buffers => Sys2Proof.Machine.execCanTxctlReq n buffers s
  | .canTxctlCancel n buffers => Sys2Proof.Machine.execCanTxctlCancel n buffers s
  | .canFrameValid n frame => Sys2Proof.Machine.execCanFrameValid n frame s
  | .canTxStart n tdcv => Sys2Proof.Machine.execCanTxStart n tdcv s
  | .canTxEnd n how sofAge => Sys2Proof.Machine.execCanTxEnd n how sofAge s
  | .canError n kind code dataPhase => Sys2Proof.Machine.execCanError n kind code dataPhase s
  | .canRecovered n => Sys2Proof.Machine.execCanRecovered n s
  | .canIntegration n => Sys2Proof.Machine.execCanIntegration n s
  | .spiWriteTransaction words aligned => Sys2Proof.Machine.execSpiWriteTransaction words aligned s
  | .spiReadTransaction header count aligned parity => Sys2Proof.Machine.execSpiReadTransaction header count aligned parity s
  | .doorbell c tail => Sys2Proof.Machine.execDoorbell c tail s
  | .doorbellSignal => Sys2Proof.Machine.execDoorbellSignal s
  | .descriptorPop parity bulkParity => Sys2Proof.Machine.execDescriptorPop parity bulkParity s
  | .finalRecordRelease => Sys2Proof.Machine.execFinalRecordRelease s
  | .cplHeadWrite c head => Sys2Proof.Machine.execCplHeadWrite c head s
  | .mpRestart => Sys2Proof.Machine.execMpRestart s
  | .sysInfo d => Sys2Proof.Machine.execSysInfo d s
  | .sysNop d => Sys2Proof.Machine.execSysNop d s
  | .sysQuery d => Sys2Proof.Machine.execSysQuery d s
  | .sysCancel d => Sys2Proof.Machine.execSysCancel d s
  | .sysAttnClr d => Sys2Proof.Machine.execSysAttnClr d s
  | .sysTime d => Sys2Proof.Machine.execSysTime d s
  | .sysTimetable d => Sys2Proof.Machine.execSysTimetable d s
  | .sysReset d => Sys2Proof.Machine.execSysReset d s
  | .moduleReset facts => Sys2Proof.Machine.execModuleReset facts s
  | .mdEnable d => Sys2Proof.Machine.execMdEnable d s
  | .mdDisable d => Sys2Proof.Machine.execMdDisable d s
  | .mdStart d => Sys2Proof.Machine.execMdStart d s
  | .mdStop d => Sys2Proof.Machine.execMdStop d s
  | .mdEmergency d => Sys2Proof.Machine.execMdEmergency d s
  | .mdMode d => Sys2Proof.Machine.execMdMode d s
  | .mdReset d => Sys2Proof.Machine.execMdReset d s
  | .spWrite d => Sys2Proof.Machine.execSpWrite d s
  | .spWriteN d => Sys2Proof.Machine.execSpWriteN d s
  | .regRead d => Sys2Proof.Machine.execRegRead d s
  | .regWrite d => Sys2Proof.Machine.execRegWrite d s
  | .parStage d => Sys2Proof.Machine.execParStage d s
  | .tblLoad d => Sys2Proof.Machine.execTblLoad d s
  | .bankSwap d => Sys2Proof.Machine.execBankSwap d s
  | .bankCopy d => Sys2Proof.Machine.execBankCopy d s
  | .parSave d => Sys2Proof.Machine.execParSave d s
  | .fbCorrect d => Sys2Proof.Machine.execFbCorrect d s
  | .diagOffstate d => Sys2Proof.Machine.execDiagOffstate d s
  | .bistLane d => Sys2Proof.Machine.execBistLane d s
  | .bistMem d => Sys2Proof.Machine.execBistMem d s
  | .bistGate d => Sys2Proof.Machine.execBistGate d s
  | .calPass d => Sys2Proof.Machine.execCalPass d s
  | .crcScan d => Sys2Proof.Machine.execCrcScan d s
  | .trConfig d => Sys2Proof.Machine.execTrConfig d s
  | .trArm d => Sys2Proof.Machine.execTrArm d s
  | .trTrigger d => Sys2Proof.Machine.execTrTrigger d s
  | .trRead d => Sys2Proof.Machine.execTrRead d s
  | .evRead d => Sys2Proof.Machine.execEvRead d s
  | .lkEnum d => Sys2Proof.Machine.execLkEnum d s
  | .csForm d => Sys2Proof.Machine.execCsForm d s
  | .csAdd d => Sys2Proof.Machine.execCsAdd d s
  | .csRemove d => Sys2Proof.Machine.execCsRemove d s
  | .csDissolve d => Sys2Proof.Machine.execCsDissolve d s
  | .prRelease d => Sys2Proof.Machine.execPrRelease d s
  | .prEngage d => Sys2Proof.Machine.execPrEngage d s
  | .prPser d => Sys2Proof.Machine.execPrPser d s
  | .safeOpen d => Sys2Proof.Machine.execSafeOpen d s
  | .safeClose d => Sys2Proof.Machine.execSafeClose d s
  | .safeConfirm d => Sys2Proof.Machine.execSafeConfirm d s
  | .safeStatus d => Sys2Proof.Machine.execSafeStatus d s
  | .fwStage d => Sys2Proof.Machine.execFwStage d s
  | .fwVerify d => Sys2Proof.Machine.execFwVerify d s
  | .fwSwap d => Sys2Proof.Machine.execFwSwap d s
  | .fwDiscard d => Sys2Proof.Machine.execFwDiscard d s
  | .nvRead d => Sys2Proof.Machine.execNvRead d s
  | .tempMeasurement sensor reading => Sys2Proof.Machine.execTempMeasurement sensor reading s
  | .pxCHalt => Sys2Proof.Machine.execPxCHalt s
  | .auxLoss vin vhb => Sys2Proof.Machine.execAuxLoss vin vhb s
  | .auxBack vin vhb => Sys2Proof.Machine.execAuxBack vin vhb s
  | .holdupBusLow vin vhb => Sys2Proof.Machine.execHoldupBusLow vin vhb s
  | .hbok vin vhb => Sys2Proof.Machine.execHbok vin vhb s
  | .norJob => Sys2Proof.Machine.execNorJob s
  | .norOperationComplete ok => Sys2Proof.Machine.execNorOperationComplete ok s
  | .logPageProgram => Sys2Proof.Machine.execLogPageProgram s
  | .eventRingPass => Sys2Proof.Machine.execEventRingPass s
  | .bistJobResult fail => Sys2Proof.Machine.execBistJobResult fail s
  | .biCtlAbort => Sys2Proof.Machine.execBiCtlAbort s
  | .ccChkCtlGo k value => Sys2Proof.Machine.execCcChkCtlGo k value s
  | .ccChkData k w => Sys2Proof.Machine.execCcChkData k w s
  | .crcScanEnd k perr => Sys2Proof.Machine.execCrcScanEnd k perr s
  | .traceSample => Sys2Proof.Machine.execTraceSample s
  | .ringStop r => Sys2Proof.Machine.execRingStop r s
  | .teCtlArm mask => Sys2Proof.Machine.execTeCtlArm mask s
  | .teCtlDisarm mask => Sys2Proof.Machine.execTeCtlDisarm mask s
  | .teTrig mask => Sys2Proof.Machine.execTeTrig mask s
  | .queuePush n item => Sys2Proof.Machine.execQueuePush n item s
  | .queuePop n bad => Sys2Proof.Machine.execQueuePop n bad s
  | .qmIrqClear hi value => Sys2Proof.Machine.execQmIrqClear hi value s
  | .tbCntLoRead => Sys2Proof.Machine.execTbCntLoRead s
  | .tbLastLoRead => Sys2Proof.Machine.execTbLastLoRead s
  | .fbPosLoRead => Sys2Proof.Machine.execFbPosLoRead s
  | .fbHofsLoRead => Sys2Proof.Machine.execFbHofsLoRead s
  | .nvLogseqLoRead => Sys2Proof.Machine.execNvLogseqLoRead s
  | .nvLogoldLoRead => Sys2Proof.Machine.execNvLogoldLoRead s
  | .teTbLoRead r => Sys2Proof.Machine.execTeTbLoRead r s
  | .readClearCounter addr => Sys2Proof.Machine.execReadClearCounter addr s
  | .registerWrite addr value => Sys2Proof.Machine.execRegisterWrite addr value s
  | .powerOn facts => Sys2Proof.Machine.execPowerOn facts s
  | .bootComplete => Sys2Proof.Machine.execBootComplete s
  | .overcurrent ch bits => Sys2Proof.Machine.execOvercurrent ch bits s
  | .mpReset cause addr => Sys2Proof.Machine.execMpReset cause addr s
  | .exchangeWindowOpen => Sys2Proof.Machine.execExchangeWindowOpen s
  | .exchangeWindowClose => Sys2Proof.Machine.execExchangeWindowClose s
  | .quarterPeriodCount up => Sys2Proof.Machine.execQuarterPeriodCount up s
  | .idHoldExpiry => Sys2Proof.Machine.execIdHoldExpiry s

end Sys2Proof.Machine
end

