-- ==== Sys2Proof/Safety.lean ====
section
/-! DEFINITION. What claims rest on: the canonical forms of the state, and what a safe run and a safe power stage are. -/

namespace Sys2Proof.Machine

/-- A memory in canonical form: addresses strictly rising, no entry equal to what an unlisted address reads as. -/
def Memory.wf (blank : Byte) (m : List Host.Cell) : Bool := smapWf (fun _ => blank) m

/-- The register words, the memories and the queues of the state stand in their canonical forms: equal contents are equal data. -/
abbrev State.Canonical (s : State) : Prop :=
  smapWf resetWord s.regs = true ∧ Memory.wf 0 s.mem = true ∧ Memory.wf 0xFF s.nor = true ∧ smapWf (fun _ => {}) s.queues = true

/-- PX-C runs: it has not halted (14 R461). -/
abbrev State.Running (s : State) : Prop := s.sys.halted = false

/-- The invariant of the machine: the canonical forms hold, and TB stands at or after the last tick boundary (01 R30, R31). -/
abbrev State.Inv (s : State) : Prop := s.Canonical ∧ s.time.tbLast ≤ s.time.tb

/-- The state that a step acts on: what the step before it put out is gone. -/
def State.cleared (s : State) : State := { s with out := {} }

/-- A cell that a port takes as one of a type (08 R284, R287): the port is up, the cell's check holds, the type is the one asked for; but for
SYNC and DELAY, which stay on their line, the port is not blocked and the cell is no second copy from the ring. -/
abbrev State.Accepts (s : State) (p : Nat) (cell : List Byte) (typ : Nat) : Prop :=
  s.portUp p = true ∧ fieldLE cell 30 2 = crc16 (padTo 30 cell) ∧ cellType cell = typ ∧
    (isLineCell cell = true ∨ (s.bit R.BL_STAT_BLOCKED p = false ∧ s.isCopy cell = false))

/-- A safety fault is latched by a step (10 R357): its bit stands; where it is new, LOCKOUT stands, the low-side gate supply, every gate
driver and SOUT1 are off, SAFETY_FAULT is raised, and the first of all is kept as such. -/
abbrev SafetyLatched (bit : Nat) (s t : State) : Prop :=
  t.bit R.SB_SFLT bit = true ∧
  (s.bit R.SB_SFLT bit = false →
    t.rd R.SB_STAT_LOCKOUT = 1 ∧ t.sb.supply = false ∧ (∀ c, c < 7 → (t.gch c).drive = false) ∧ t.sout1 = false ∧
    t.te.evs = s.te.evs ++ [(38, 0x0103)] ∧
    (s.rd R.SB_SFLT = 0 → s.rd R.SB_FIRST_CODE = 0 → t.rd R.SB_FIRST_CODE = bit + 1 ∧ t.rd R.SB_FIRST_TICK = s.tickno))

/-- The firmware takes a command of an opcode (12 R408; 13 R422): it serves, waits for no credits, the descriptor is in order for the PARAM
bytes that the command names, and a record can go out. -/
abbrev State.Serves (s : State) (op : Nat) (named : List (Nat × Nat × Nat)) (d : Desc) : Prop :=
  s.Running ∧ s.mpServes = true ∧ s.mp.stall = none ∧ d.parity = none ∧ s.descRefused op named d = none ∧
    0 < s.qCredit (d.queue.val + 4) ∧ s.hs.held = []

/-- A command ends at its pop: its FINAL record, with no handle, is the next one of its completion queue (12 R409, R410). -/
abbrev Finished (op : Nat) (d : Desc) (status : Nat) (result : List Byte) (s t : State) : Prop :=
  t.rd (R.HS_CPLc_TAIL d.queue) = (s.rd (R.HS_CPLc_TAIL d.queue) + 1) % 2 ^ 16 ∧
    t.memBytes (cplSlot d.queue (s.rd (R.HS_CPLc_TAIL d.queue))) 32 = (descRecord op d 0 2 status result).bytes s.tickno

/-- A handle can be issued (12 R412). -/
abbrev State.HandleFree (s : State) : Prop := s.hs.fresh < 4096 ∨ s.hs.freed ≠ []

/-- A command goes on behind a handle: its ACCEPTED record is the next one of its completion queue, and its work, of a kind, waits
(12 R410, R412, R414). -/
def Accepted (op : Nat) (d : Desc) (kind : Nat → WorkKind → Prop) (s t : State) : Prop :=
  t.rd (R.HS_CPLc_TAIL d.queue) = (s.rd (R.HS_CPLc_TAIL d.queue) + 1) % 2 ^ 16 ∧
    ∃ w, t.hs.works = s.hs.works ++ [w] ∧ w.opcode = op ∧ kind w.handle w.kind ∧
      t.memBytes (cplSlot d.queue (s.rd (R.HS_CPLc_TAIL d.queue))) 32 = (descRecord op d w.handle 1 0 []).bytes s.tickno

/-- A run of `k` steps that meets no fault and no refusal ends in `t`. -/
def Runs : Nat → State → State → Prop
  | 0, s, t => s = t
  | k + 1, s, t => ∃ u, step s = .next u ∧ Runs k u t

/-- The parts of the state, one for each field but the queue of commands. -/
inductive Part where
  | regs | mem | nor | queues | sys | time | tt | ln | sd | cf | cfNew | ol | olp | olNew | gd | pw | lim
  | limNew | fb | pm | sb | can | bl | th | nv | te | bi | cc | hs | mp | seq | out | free
  deriving DecidableEq, Repr

/-- The two states hold the same in a part. -/
def State.sameAt (a b : State) : Part → Prop
  | .regs => b.regs = a.regs
  | .mem => b.mem = a.mem
  | .nor => b.nor = a.nor
  | .queues => b.queues = a.queues
  | .sys => b.sys = a.sys
  | .time => b.time = a.time
  | .tt => b.tt = a.tt
  | .ln => b.ln = a.ln
  | .sd => b.sd = a.sd
  | .cf => b.cf = a.cf
  | .cfNew => b.cfNew = a.cfNew
  | .ol => b.ol = a.ol
  | .olp => b.olp = a.olp
  | .olNew => b.olNew = a.olNew
  | .gd => b.gd = a.gd
  | .pw => b.pw = a.pw
  | .lim => b.lim = a.lim
  | .limNew => b.limNew = a.limNew
  | .fb => b.fb = a.fb
  | .pm => b.pm = a.pm
  | .sb => b.sb = a.sb
  | .can => b.can = a.can
  | .bl => b.bl = a.bl
  | .th => b.th = a.th
  | .nv => b.nv = a.nv
  | .te => b.te = a.te
  | .bi => b.bi = a.bi
  | .cc => b.cc = a.cc
  | .hs => b.hs = a.hs
  | .mp => b.mp = a.mp
  | .seq => b.seq = a.seq
  | .out => b.out = a.out
  | .free => b.free = a.free

/-- The two states hold the same in every part but those listed: what a command leaves alone. -/
def SameOutside (ps : List Part) (a b : State) : Prop := ∀ p : Part, p ∉ ps → a.sameAt b p

end Sys2Proof.Machine
end

