-- ==== Sys2Proof/Machine/Footprint.lean ====
section
/-! DEFINITION. Which parts of the state each command may change. -/

namespace Sys2Proof.Machine

/-- The parts of the state that a command may change; every other part stays as it is. -/
def touches : Instr → List Part
  | .tickBoundary _ =>
      [.regs, .mem, .queues, .sys, .time, .tt, .ln, .sd, .cfNew, .ol, .olp, .olNew, .gd, .limNew, .fb, .pm, .sb, .bl, .th, .nv, .te, .bi,
       .cc, .hs, .mp, .seq, .out, .free]
  | .curfld _ => [.regs, .queues, .time, .ln, .cf, .cfNew, .ol, .olp, .olNew, .gd, .pw, .lim, .limNew, .te, .seq, .out, .free]
  | .outer _ => [.regs, .queues, .time, .ln, .cf, .cfNew, .ol, .olp, .olNew, .gd, .pw, .lim, .limNew, .te, .seq, .out, .free]
  | .limshare _ => [.regs, .queues, .time, .ln, .cf, .cfNew, .ol, .olp, .olNew, .gd, .pw, .lim, .limNew, .te, .seq, .out, .free]
  | .substitutionPoint _ =>
      [.regs, .queues, .time, .ln, .cf, .cfNew, .ol, .olp, .olNew, .gd, .pw, .lim, .limNew, .fb, .pm, .bl, .te, .mp, .seq, .out]
  | .recomputation _ _ => [.regs, .queues, .time, .ln, .sd, .cfNew, .olNew, .limNew, .te, .bi, .out, .free]
  | .recomputedOutputPosted _ => [.regs, .queues, .time, .ln, .cf, .cfNew, .gd, .te, .seq, .out]
  | .datapath => [.regs, .queues, .te, .seq, .out]
  | .hold8 => [.regs, .queues, .gd, .te, .seq, .out]
  | .laneSuspect _ => [.regs, .queues, .ln, .te, .out]
  | .laneLost _ => [.regs, .queues, .ln, .te, .seq, .out]
  | .sliceStart _ => [.regs, .queues, .time, .ln, .sd, .te, .bi, .out, .free]
  | .sliceAbort => [.regs, .ln, .sd, .bi, .out]
  | .timetableChangeDue => [.regs, .tt, .out]
  | .ttCtlSwap => [.regs, .tt, .out]
  | .ttPeriodCyc _ => [.regs, .tt, .out]
  | .lnTblchkGo _ => [.regs, .ln, .out]
  | .tableCheckDone _ => [.regs, .ln, .mp, .seq, .out]
  | .sdChannelConfig _ _ => [.regs, .sd, .gd, .out]
  | .sdRestart _ => [.regs, .sd, .gd, .out]
  | .sdValid _ => [.regs, .gd, .out]
  | .sdLoss _ => [.regs, .queues, .sd, .gd, .te, .seq, .out]
  | .calPositionStep => [.regs, .queues, .ln, .sd, .te, .out]
  | .calFitApply => [.regs, .queues, .sd, .te, .out]
  | .isum => [.regs, .queues, .cf, .cfNew, .te, .seq, .out]
  | .pwCtlRun _ => [.regs, .gd, .out]
  | .edgeLate => [.regs, .queues, .pw, .te, .seq, .out]
  | .vsCompensationDropped => [.regs, .pw, .out]
  | .setpointApply => [.ol, .out]
  | .leverStale => [.regs, .queues, .ol, .te, .out]
  | .tensionSrc => [.regs, .queues, .ol, .te, .out]
  | .shockClear => [.regs, .olp, .out]
  | .heaveStale => [.regs, .queues, .ol, .te, .out]
  | .bankSwapEffect => [.regs, .queues, .ln, .out]
  | .fluxBuildEnd => [.regs, .queues, .ln, .olp, .olNew, .gd, .fb, .te, .seq, .out]
  | .fluxTimeout => [.regs, .queues, .ln, .olp, .gd, .te, .seq, .out]
  | .startComplete => [.regs, .seq, .out]
  | .enable => [.regs, .queues, .ln, .gd, .fb, .sb, .bl, .te, .seq, .out]
  | .disable => [.regs, .queues, .ln, .gd, .fb, .sb, .bl, .te, .seq, .out]
  | .start _ => [.regs, .queues, .ln, .gd, .fb, .sb, .bl, .te, .seq, .out]
  | .stop => [.regs, .queues, .ln, .gd, .fb, .sb, .bl, .te, .seq, .out]
  | .emergency _ => [.regs, .queues, .ln, .gd, .fb, .sb, .bl, .te, .seq, .out]
  | .mode _ => [.regs, .queues, .ln, .gd, .fb, .sb, .bl, .te, .seq, .out]
  | .reset => [.regs, .queues, .ln, .gd, .fb, .sb, .bl, .te, .seq, .out]
  | .standstillReached => [.regs, .queues, .ln, .gd, .te, .seq, .out]
  | .brakeSetConfirmed => [.regs, .seq, .out]
  | .taperComplete => [.regs, .queues, .ln, .gd, .te, .seq, .out]
  | .brakeReleased => [.regs, .seq, .out]
  | .brakeFail => [.regs, .queues, .ln, .gd, .te, .seq, .out]
  | .ertmo => [.regs, .queues, .te, .seq, .out]
  | .ascExit => [.regs, .queues, .ln, .gd, .te, .seq, .out]
  | .dcUv => [.regs, .queues, .ln, .gd, .te, .seq, .out]
  | .dcOv _ => [.regs, .queues, .gd, .sb, .te, .seq, .out]
  | .chopperFault => [.regs, .queues, .lim, .te, .seq, .out]
  | .prechargeDone => [.regs, .gd, .seq, .out]
  | .prechargeTimeout => [.regs, .queues, .gd, .te, .seq, .out]
  | .glinkConfig _ _ => [.regs, .gd, .out]
  | .configResend _ => [.regs, .gd, .out]
  | .glinkSync _ _ _ => [.regs, .gd, .out]
  | .lock _ => [.regs, .gd, .out]
  | .glinkLoop _ _ _ => [.regs, .gd, .out]
  | .stage _ _ => [.regs, .gd, .out]
  | .commit _ _ => [.regs, .queues, .time, .gd, .pw, .te, .seq, .out, .free]
  | .ack _ _ => [.regs, .gd, .out]
  | .status _ _ => [.regs, .queues, .gd, .te, .seq, .out, .free]
  | .tel _ _ => [.regs, .queues, .gd, .th, .out]
  | .diagres _ _ _ => [.regs, .gd, .out]
  | .periodic _ _ _ _ => [.gd, .out]
  | .linkLatch _ _ => [.regs, .queues, .gd, .te, .seq, .out, .free]
  | .oncmd _ => [.regs, .gd, .out]
  | .vgeon _ _ => [.regs, .gd, .out]
  | .permit _ => [.regs, .time, .gd, .out]
  | .offcmd _ => [.gd, .out]
  | .armedEdgeActs _ => [.regs, .queues, .time, .gd, .pw, .te, .seq, .out]
  | .turnOnDrop _ => [.regs, .gd, .out]
  | .shootAttempt _ => [.gd, .out]
  | .desat _ => [.gd, .out, .free]
  | .uvlo _ _ _ => [.gd, .out]
  | .bswarn _ _ => [.gd, .out]
  | .refreshPulseInsert _ => [.regs, .gd, .out]
  | .refreshPulseComplete _ => [.regs, .gd, .out]
  | .gateEnLow _ => [.gd, .out]
  | .gateEnRise _ => [.regs, .gd, .out]
  | .diagCtlGo _ => [.regs, .gd, .out]
  | .offstateDiagStep => [.regs, .queues, .gd, .te, .seq, .out]
  | .auxOv _ _ => [.regs, .queues, .sys, .te, .out]
  | .switchReclose _ _ => [.regs, .sys, .out]
  | .fbCtlEn _ => [.regs, .queues, .fb, .te, .seq, .out]
  | .fbCtlCorr => [.fb, .out]
  | .fbCtlUsepri => [.regs, .fb, .out]
  | .encoderEdge _ _ => [.regs, .queues, .fb, .te, .seq, .out]
  | .indexLatch _ => [.regs, .queues, .time, .fb, .te, .seq, .out]
  | .indexMiss => [.regs, .queues, .fb, .te, .seq, .out]
  | .lineFault _ _ => [.regs, .queues, .fb, .te, .seq, .out]
  | .sincosSample _ _ => [.regs, .queues, .time, .fb, .te, .seq, .out]
  | .resolverSample _ _ _ => [.regs, .queues, .time, .fb, .te, .seq, .out]
  | .ssiFrame _ => [.regs, .queues, .time, .fb, .te, .seq, .out]
  | .hallTransition _ => [.regs, .queues, .fb, .te, .seq, .out]
  | .hallTimeout => [.fb, .out]
  | .sourceValid _ => [.fb, .out]
  | .encoderEmulationEdge => [.regs, .time, .fb, .out]
  | .share _ _ => [.regs, .queues, .bl, .out]
  | .contrib _ _ => [.regs, .queues, .bl, .out]
  | .sync _ _ _ _ _ _ => [.regs, .queues, .time, .bl, .te, .out, .free]
  | .delayReq _ _ => [.regs, .bl, .out]
  | .delayResp _ _ _ => [.regs, .bl, .out]
  | .enum _ _ _ => [.regs, .queues, .bl, .te, .out]
  | .consist _ _ _ => [.regs, .queues, .bl, .te, .out]
  | .notice _ _ => [.regs, .queues, .ol, .bl, .te, .mp, .out]
  | .mgmt _ _ _ => [.regs, .queues, .bl, .te, .out]
  | .linkUp _ _ => [.regs, .queues, .bl, .te, .out]
  | .linkDown _ _ => [.regs, .queues, .bl, .te, .out]
  | .blMtxGo _ => [.regs, .bl, .out]
  | .noshareLaunch => [.regs, .queues, .time, .bl, .out]
  | .holdover => [.regs, .bl, .out]
  | .syncLost => [.regs, .queues, .te, .out]
  | .join => [.regs, .queues, .ln, .gd, .bl, .te, .mp, .seq, .out]
  | .removalFadeEnd => [.regs, .queues, .ol, .bl, .te, .mp, .out]
  | .memberDetached => [.regs, .queues, .ol, .bl, .te, .mp, .out]
  | .deputyTakeover => [.regs, .queues, .olp, .bl, .te, .mp, .out]
  | .takeover => [.regs, .queues, .ol, .bl, .te, .mp, .out]
  | .mirrorBlock _ _ => [.regs, .queues, .time, .pm, .te, .out, .free]
  | .aliveIn _ => [.pm, .out]
  | .chgIn _ => [.regs, .pm, .out]
  | .partnerLost => [.regs, .queues, .ln, .gd, .pm, .te, .seq, .out]
  | .partnerRelease => [.regs, .queues, .ln, .gd, .pm, .te, .seq, .out]
  | .mirrorLost => [.regs, .queues, .pm, .te, .out]
  | .aliveLost => [.regs, .queues, .te, .out]
  | .synced => [.regs, .out]
  | .chgOwnAssert => [.regs, .ln, .gd, .pm, .seq, .out]
  | .pairFb => [.regs, .queues, .pm, .te, .out]
  | .pairJoin => [.pm, .out]
  | .pmCfgEn _ => [.regs, .queues, .gd, .pm, .out]
  | .pmCtlRelease => [.regs, .gd, .pm, .out]
  | .pmCtlEngage => [.regs, .gd, .pm, .out]
  | .firmwareSwap => [.regs, .pm, .nv, .cc, .out]
  | .safetyInputChange _ _ => [.regs, .queues, .gd, .sb, .te, .seq, .out]
  | .stoOff => [.regs, .queues, .gd, .te, .out]
  | .supply _ => [.regs, .queues, .gd, .sb, .te, .out]
  | .inputTest _ => [.regs, .queues, .gd, .sb, .te, .out]
  | .genRb _ => [.regs, .queues, .gd, .sb, .te, .out]
  | .soutTest _ _ => [.regs, .queues, .gd, .sb, .te, .out]
  | .ss1End => [.regs, .sb, .out]
  | .spdDisc => [.regs, .queues, .gd, .sb, .te, .out]
  | .sbSelf _ => [.regs, .queues, .gd, .sb, .te, .out]
  | .cfgCrc => [.regs, .queues, .gd, .sb, .te, .out]
  | .lockoutExit _ _ => [.regs, .queues, .gd, .sb, .nv, .te, .out]
  | .tokenFrame => [.regs, .sb, .seq, .out]
  | .tokenTmo => [.regs, .queues, .gd, .sb, .te, .seq, .out]
  | .tokTxRead _ => [.regs, .out]
  | .stoTestDue => [.regs, .queues, .sb, .te, .out]
  | .reqmGateGoff _ => [.regs, .gd, .out]
  | .mpwd => [.sb, .out]
  | .mpLost => [.regs, .queues, .ln, .sb, .nv, .te, .bi, .hs, .mp, .seq, .out]
  | .canCtlMode _ _ => [.regs, .queues, .can, .te, .out]
  | .canCtlRecover _ => [.can, .out]
  | .canTxctlReq _ _ => [.regs, .out]
  | .canTxctlCancel _ _ => [.regs, .out]
  | .canFrameValid _ _ => [.regs, .queues, .can, .te, .out, .free]
  | .canTxStart _ _ => [.regs, .can, .out]
  | .canTxEnd _ _ _ => [.regs, .queues, .can, .te, .out]
  | .canError _ _ _ _ => [.regs, .queues, .can, .te, .out]
  | .canRecovered _ => [.regs, .queues, .can, .te, .out]
  | .canIntegration _ => [.regs, .queues, .can, .te, .out]
  | .spiWriteTransaction _ _ =>
      [.regs, .mem, .queues, .tt, .ln, .sd, .gd, .fb, .pm, .sb, .can, .bl, .nv, .te, .bi, .cc, .hs, .mp, .seq, .out, .free]
  | .spiReadTransaction _ _ _ _ => [.regs, .queues, .te, .out]
  | .doorbell _ _ => [.regs, .hs, .out]
  | .doorbellSignal => [.time, .hs, .out]
  | .descriptorPop _ _ =>
      [.regs, .mem, .queues, .sys, .tt, .ln, .sd, .gd, .fb, .pm, .sb, .can, .bl, .nv, .te, .bi, .cc, .hs, .mp, .seq, .out, .free]
  | .finalRecordRelease => [.regs, .mem, .hs, .out]
  | .cplHeadWrite _ _ => [.regs, .mem, .queues, .hs, .out]
  | .mpRestart => [.regs, .mem, .queues, .ln, .pm, .sb, .nv, .hs, .out]
  | .sysInfo _ => [.regs, .mem, .queues, .ln, .te, .hs, .mp, .out]
  | .sysNop _ => [.regs, .mem, .queues, .ln, .te, .hs, .mp, .out]
  | .sysQuery _ => [.regs, .mem, .queues, .ln, .te, .hs, .mp, .out]
  | .sysCancel _ => [.regs, .mem, .queues, .ln, .nv, .te, .bi, .cc, .hs, .mp, .out]
  | .sysAttnClr _ => [.regs, .mem, .queues, .ln, .te, .hs, .mp, .out]
  | .sysTime _ => [.regs, .mem, .queues, .ln, .te, .hs, .mp, .out]
  | .sysTimetable _ => [.regs, .mem, .queues, .tt, .ln, .te, .hs, .mp, .out, .free]
  | .sysReset _ => [.regs, .mem, .queues, .sys, .ln, .te, .hs, .mp, .out]
  | .moduleReset _ =>
      [.regs, .mem, .nor, .queues, .sys, .time, .tt, .ln, .sd, .cf, .cfNew, .ol, .olp, .olNew, .gd, .pw, .lim, .limNew, .fb, .pm, .sb,
       .can, .bl, .th, .nv, .te, .bi, .cc, .hs, .mp, .seq, .out, .free]
  | .mdEnable _ => [.regs, .mem, .queues, .ln, .te, .hs, .mp, .seq, .out]
  | .mdDisable _ => [.regs, .mem, .queues, .ln, .te, .hs, .mp, .seq, .out]
  | .mdStart _ => [.regs, .mem, .queues, .ln, .te, .hs, .mp, .seq, .out]
  | .mdStop _ => [.regs, .mem, .queues, .ln, .te, .hs, .mp, .seq, .out]
  | .mdEmergency _ => [.regs, .mem, .queues, .ln, .te, .hs, .mp, .seq, .out]
  | .mdMode _ => [.regs, .mem, .queues, .ln, .te, .hs, .mp, .seq, .out]
  | .mdReset _ => [.regs, .mem, .queues, .ln, .te, .hs, .mp, .seq, .out]
  | .spWrite _ => [.regs, .mem, .queues, .ln, .te, .hs, .mp, .out]
  | .spWriteN _ => [.regs, .mem, .queues, .ln, .te, .hs, .mp, .out, .free]
  | .regRead _ => [.regs, .mem, .queues, .ln, .te, .hs, .mp, .out]
  | .regWrite _ => [.regs, .mem, .queues, .tt, .ln, .sd, .gd, .fb, .pm, .sb, .can, .bl, .te, .bi, .cc, .hs, .mp, .seq, .out]
  | .parStage _ => [.regs, .mem, .queues, .ln, .te, .hs, .mp, .out, .free]
  | .tblLoad _ => [.regs, .mem, .queues, .ln, .te, .hs, .mp, .out, .free]
  | .bankSwap _ => [.regs, .mem, .queues, .ln, .te, .hs, .mp, .out]
  | .bankCopy _ => [.regs, .mem, .queues, .ln, .te, .hs, .mp, .out]
  | .parSave _ => [.regs, .mem, .queues, .ln, .nv, .te, .hs, .mp, .out]
  | .fbCorrect _ => [.regs, .mem, .queues, .ln, .fb, .te, .hs, .mp, .out]
  | .diagOffstate _ => [.regs, .mem, .queues, .ln, .gd, .te, .hs, .mp, .out]
  | .bistLane _ => [.regs, .mem, .queues, .ln, .te, .bi, .hs, .mp, .out]
  | .bistMem _ => [.regs, .mem, .queues, .ln, .te, .bi, .hs, .mp, .out]
  | .bistGate _ => [.regs, .mem, .queues, .ln, .te, .bi, .hs, .mp, .out]
  | .calPass _ => [.regs, .mem, .queues, .ln, .te, .hs, .mp, .out]
  | .crcScan _ => [.regs, .mem, .queues, .ln, .te, .cc, .hs, .mp, .out]
  | .trConfig _ => [.regs, .mem, .queues, .ln, .te, .hs, .mp, .out, .free]
  | .trArm _ => [.regs, .mem, .queues, .ln, .te, .hs, .mp, .out]
  | .trTrigger _ => [.regs, .mem, .queues, .ln, .te, .hs, .mp, .out]
  | .trRead _ => [.regs, .mem, .queues, .ln, .te, .hs, .mp, .out]
  | .evRead _ => [.regs, .mem, .queues, .ln, .nv, .te, .hs, .mp, .out]
  | .lkEnum _ => [.regs, .mem, .queues, .ln, .bl, .te, .hs, .mp, .out]
  | .csForm _ => [.regs, .mem, .queues, .ln, .te, .hs, .mp, .out]
  | .csAdd _ => [.regs, .mem, .queues, .ln, .bl, .te, .hs, .mp, .out, .free]
  | .csRemove _ => [.regs, .mem, .queues, .ln, .bl, .te, .hs, .mp, .out]
  | .csDissolve _ => [.regs, .mem, .queues, .ln, .bl, .te, .hs, .mp, .out]
  | .prRelease _ => [.regs, .mem, .queues, .ln, .gd, .pm, .te, .hs, .mp, .out]
  | .prEngage _ => [.regs, .mem, .queues, .ln, .gd, .pm, .te, .hs, .mp, .out]
  | .prPser _ => [.regs, .mem, .queues, .ln, .sb, .nv, .te, .hs, .mp, .out]
  | .safeOpen _ => [.regs, .mem, .queues, .ln, .sb, .te, .hs, .mp, .out]
  | .safeClose _ => [.regs, .mem, .queues, .ln, .sb, .nv, .te, .hs, .mp, .out]
  | .safeConfirm _ => [.regs, .mem, .queues, .ln, .sb, .nv, .te, .hs, .mp, .out]
  | .safeStatus _ => [.regs, .mem, .queues, .ln, .te, .hs, .mp, .out]
  | .fwStage _ => [.regs, .mem, .queues, .ln, .nv, .te, .hs, .mp, .out, .free]
  | .fwVerify _ => [.regs, .mem, .queues, .ln, .nv, .te, .hs, .mp, .out]
  | .fwSwap _ => [.regs, .mem, .queues, .ln, .nv, .te, .hs, .mp, .out]
  | .fwDiscard _ => [.regs, .mem, .queues, .ln, .nv, .te, .hs, .mp, .out]
  | .nvRead _ => [.regs, .mem, .queues, .ln, .nv, .te, .hs, .mp, .out]
  | .tempMeasurement _ _ => [.regs, .nor, .queues, .sys, .ln, .gd, .sb, .th, .nv, .te, .mp, .seq, .out, .free]
  | .pxCHalt => [.sys, .out]
  | .auxLoss _ _ => [.regs, .queues, .te, .out]
  | .auxBack _ _ => [.regs, .queues, .te, .out]
  | .holdupBusLow _ _ => [.regs, .nor, .queues, .sys, .ln, .gd, .sb, .nv, .te, .mp, .seq, .out, .free]
  | .hbok _ _ => [.regs, .out]
  | .norJob => [.regs, .queues, .nv, .out]
  | .norOperationComplete _ => [.regs, .nor, .queues, .nv, .te, .mp, .out]
  | .logPageProgram => [.regs, .queues, .nv, .mp, .out]
  | .eventRingPass => [.regs, .queues, .ln, .nv, .te, .bi, .mp, .out]
  | .bistJobResult _ => [.regs, .queues, .ln, .te, .bi, .mp, .seq, .out]
  | .biCtlAbort => [.regs, .queues, .ln, .te, .bi, .out]
  | .ccChkCtlGo _ _ => [.regs, .cc, .out]
  | .ccChkData _ _ => [.regs, .out]
  | .crcScanEnd _ _ => [.regs, .queues, .cc, .out]
  | .traceSample => [.regs, .queues, .time, .pm, .te, .out, .free]
  | .ringStop _ => [.regs, .queues, .te, .out, .free]
  | .teCtlArm _ => [.regs, .te, .out]
  | .teCtlDisarm _ => [.regs, .te, .out]
  | .teTrig _ => [.te, .out]
  | .queuePush _ _ => [.regs, .queues, .out]
  | .queuePop _ _ => [.regs, .queues, .ln, .te, .out]
  | .qmIrqClear _ _ => [.regs, .out]
  | .tbCntLoRead => [.regs, .queues, .te, .out]
  | .tbLastLoRead => [.regs, .queues, .te, .out]
  | .fbPosLoRead => [.regs, .queues, .te, .out]
  | .fbHofsLoRead => [.regs, .queues, .te, .out]
  | .nvLogseqLoRead => [.regs, .queues, .te, .out]
  | .nvLogoldLoRead => [.regs, .queues, .te, .out]
  | .teTbLoRead _ => [.regs, .queues, .te, .out]
  | .readClearCounter _ => [.regs, .queues, .te, .out]
  | .registerWrite _ _ => [.regs, .mem, .queues, .tt, .ln, .sd, .gd, .fb, .pm, .sb, .can, .bl, .te, .bi, .cc, .seq, .out]
  | .powerOn _ =>
      [.regs, .mem, .nor, .queues, .sys, .time, .tt, .ln, .sd, .cf, .cfNew, .ol, .olp, .olNew, .gd, .pw, .lim, .limNew, .fb, .pm, .sb,
       .can, .bl, .th, .nv, .te, .bi, .cc, .hs, .mp, .seq, .out, .free]
  | .bootComplete => [.regs, .queues, .sys, .bl, .nv, .te, .out]
  | .overcurrent _ _ => [.regs, .queues, .gd, .sb, .te, .seq, .out]
  | .mpReset _ _ => [.regs, .queues, .sys, .ln, .sb, .nv, .te, .bi, .hs, .mp, .seq, .out]
  | .exchangeWindowOpen => [.regs, .queues, .time, .bl, .out]
  | .exchangeWindowClose => [.regs, .queues, .time, .bl, .out]
  | .quarterPeriodCount _ => [.fb, .out]
  | .idHoldExpiry => [.bl, .out]

/-- The 64 KiB blocks of registers (01 R48): the two CAN controllers count as one; the coefficient banks (01 R544) and all other addresses as one. -/
inductive RegBlock where
  | sys | tb | qm | tt | ln | sd | pw | gd | fb | bl | pm | sb | can | hs | th | nv | bi | cc | te | banks
  deriving DecidableEq, Repr

/-- The block of an address. -/
def regBlock (a : Nat) : RegBlock :=
  match a / 0x10000 with
  | 0x4000 => .sys
  | 0x4001 => .tb
  | 0x4002 => .qm
  | 0x4003 => .tt
  | 0x4004 => .ln
  | 0x4005 => .sd
  | 0x4006 => .pw
  | 0x4007 => .gd
  | 0x4008 => .fb
  | 0x4009 => .bl
  | 0x400A => .pm
  | 0x400B => .sb
  | 0x400C | 0x400D => .can
  | 0x400E => .hs
  | 0x400F => .th
  | 0x4010 => .nv
  | 0x4011 => .bi
  | 0x4012 => .cc
  | 0x4013 => .te
  | _ => .banks

/-- The blocks of registers whose words a command may change; words in other blocks keep theirs. -/
def writes : Instr → List RegBlock
  | .tickBoundary _ => [.sys, .tb, .qm, .tt, .ln, .sd, .pw, .gd, .fb, .bl, .pm, .sb, .hs, .nv, .bi, .cc, .te, .banks]
  | .curfld _ => [.qm, .ln, .sb, .th, .banks]
  | .outer _ => [.qm, .ln, .sb, .th, .banks]
  | .limshare _ => [.qm, .ln, .sb, .th, .banks]
  | .substitutionPoint _ => [.qm, .ln, .pw, .bl, .sb, .th, .banks]
  | .recomputation _ _ => [.qm, .ln, .sb, .bi]
  | .recomputedOutputPosted _ => [.qm, .ln, .sb]
  | .datapath => [.qm, .ln, .sb, .banks]
  | .hold8 => [.qm, .ln, .sb, .banks]
  | .laneSuspect _ => [.qm, .sb]
  | .laneLost _ => [.qm, .tt, .ln, .sb]
  | .sliceStart _ => [.qm, .ln, .sb, .bi]
  | .sliceAbort => [.bi]
  | .timetableChangeDue => [.tt]
  | .ttCtlSwap => [.tt]
  | .ttPeriodCyc _ => [.tt]
  | .lnTblchkGo _ => [.ln]
  | .tableCheckDone _ => [.ln]
  | .sdChannelConfig _ _ => [.sd]
  | .sdRestart _ => [.sd]
  | .sdValid _ => [.sd]
  | .sdLoss _ => [.qm, .sd, .sb]
  | .calPositionStep => [.qm, .sd, .sb]
  | .calFitApply => [.qm, .sd, .sb]
  | .isum => [.qm, .sb]
  | .pwCtlRun _ => [.pw]
  | .edgeLate => [.qm, .sb]
  | .vsCompensationDropped => [.pw]
  | .setpointApply => []
  | .leverStale => [.qm, .sb]
  | .tensionSrc => [.qm, .sb]
  | .shockClear => [.ln, .bl, .banks]
  | .heaveStale => [.qm, .sb]
  | .bankSwapEffect => [.ln, .banks]
  | .fluxBuildEnd => [.qm, .ln, .pw, .bl, .sb, .banks]
  | .fluxTimeout => [.qm, .ln, .pw, .sb, .banks]
  | .startComplete => [.ln, .banks]
  | .enable => [.qm, .ln, .pw, .gd, .fb, .sb, .banks]
  | .disable => [.qm, .ln, .pw, .gd, .fb, .sb, .banks]
  | .start _ => [.qm, .ln, .pw, .gd, .fb, .sb, .banks]
  | .stop => [.qm, .ln, .pw, .gd, .fb, .sb, .banks]
  | .emergency _ => [.qm, .ln, .pw, .gd, .fb, .sb, .banks]
  | .mode _ => [.qm, .ln, .pw, .gd, .fb, .sb, .banks]
  | .reset => [.qm, .ln, .pw, .gd, .fb, .sb, .banks]
  | .standstillReached => [.qm, .ln, .pw, .sb, .banks]
  | .brakeSetConfirmed => [.ln, .banks]
  | .taperComplete => [.qm, .ln, .pw, .sb, .banks]
  | .brakeReleased => [.ln, .banks]
  | .brakeFail => [.qm, .ln, .pw, .sb, .banks]
  | .ertmo => [.qm, .sb]
  | .ascExit => [.qm, .ln, .pw, .sb, .banks]
  | .dcUv => [.qm, .ln, .pw, .sb, .banks]
  | .dcOv _ => [.qm, .ln, .sb, .banks]
  | .chopperFault => [.qm, .ln, .sb, .banks]
  | .prechargeDone => [.ln, .gd, .banks]
  | .prechargeTimeout => [.qm, .ln, .pw, .sb, .banks]
  | .glinkConfig _ _ => [.gd]
  | .configResend _ => [.gd]
  | .glinkSync _ _ _ => [.sys, .gd]
  | .lock _ => [.gd]
  | .glinkLoop _ _ _ => [.sys, .gd]
  | .stage _ _ => [.gd]
  | .commit _ _ => [.qm, .pw, .gd, .sb]
  | .ack _ _ => [.gd]
  | .status _ _ => [.qm, .gd, .sb]
  | .tel _ _ => [.qm, .gd, .sb]
  | .diagres _ _ _ => [.gd]
  | .periodic _ _ _ _ => []
  | .linkLatch _ _ => [.qm, .gd, .sb]
  | .oncmd _ => [.gd]
  | .vgeon _ _ => [.gd]
  | .permit _ => [.gd]
  | .offcmd _ => []
  | .armedEdgeActs _ => [.qm, .pw, .gd, .sb]
  | .turnOnDrop _ => [.gd]
  | .shootAttempt _ => []
  | .desat _ => []
  | .uvlo _ _ _ => []
  | .bswarn _ _ => []
  | .refreshPulseInsert _ => [.gd]
  | .refreshPulseComplete _ => [.gd]
  | .gateEnLow _ => []
  | .gateEnRise _ => [.gd]
  | .diagCtlGo _ => [.gd]
  | .offstateDiagStep => [.qm, .gd, .sb]
  | .auxOv _ _ => [.qm, .sb, .th]
  | .switchReclose _ _ => [.th]
  | .fbCtlEn _ => [.qm, .fb, .sb]
  | .fbCtlCorr => []
  | .fbCtlUsepri => [.fb]
  | .encoderEdge _ _ => [.qm, .fb, .sb]
  | .indexLatch _ => [.qm, .fb, .sb]
  | .indexMiss => [.qm, .fb, .sb]
  | .lineFault _ _ => [.qm, .fb, .sb]
  | .sincosSample _ _ => [.qm, .fb, .sb]
  | .resolverSample _ _ _ => [.qm, .fb, .sb]
  | .ssiFrame _ => [.qm, .fb, .sb]
  | .hallTransition _ => [.qm, .fb, .sb]
  | .hallTimeout => []
  | .sourceValid _ => []
  | .encoderEmulationEdge => [.fb]
  | .share _ _ => [.qm, .bl, .sb]
  | .contrib _ _ => [.qm, .bl, .sb]
  | .sync _ _ _ _ _ _ => [.tb, .qm, .bl, .sb]
  | .delayReq _ _ => [.bl]
  | .delayResp _ _ _ => [.bl]
  | .enum _ _ _ => [.qm, .bl, .sb]
  | .consist _ _ _ => [.qm, .ln, .bl, .sb, .banks]
  | .notice _ _ => [.qm, .ln, .bl, .sb, .banks]
  | .mgmt _ _ _ => [.qm, .bl, .sb]
  | .linkUp _ _ => [.qm, .bl, .sb]
  | .linkDown _ _ => [.qm, .bl, .sb]
  | .blMtxGo _ => [.bl]
  | .noshareLaunch => [.qm, .bl]
  | .holdover => [.bl]
  | .syncLost => [.qm, .bl, .sb]
  | .join => [.qm, .ln, .bl, .sb, .banks]
  | .removalFadeEnd => [.qm, .ln, .bl, .sb, .banks]
  | .memberDetached => [.qm, .ln, .bl, .sb, .banks]
  | .deputyTakeover => [.qm, .ln, .bl, .sb, .banks]
  | .takeover => [.qm, .ln, .bl, .sb, .banks]
  | .mirrorBlock _ _ => [.tb, .qm, .pm, .sb]
  | .aliveIn _ => []
  | .chgIn _ => [.pm]
  | .partnerLost => [.qm, .ln, .pw, .pm, .sb, .banks]
  | .partnerRelease => [.qm, .ln, .pw, .pm, .sb, .banks]
  | .mirrorLost => [.qm, .pm, .sb]
  | .aliveLost => [.qm, .pm, .sb]
  | .synced => [.pm]
  | .chgOwnAssert => [.ln, .pw, .pm, .sb, .banks]
  | .pairFb => [.qm, .sb]
  | .pairJoin => []
  | .pmCfgEn _ => [.pm]
  | .pmCtlRelease => [.pm]
  | .pmCtlEngage => [.pw, .pm]
  | .firmwareSwap => [.sys, .hs, .cc]
  | .safetyInputChange _ _ => [.qm, .sb]
  | .stoOff => [.qm, .sb]
  | .supply _ => [.qm, .sb]
  | .inputTest _ => [.qm, .sb]
  | .genRb _ => [.qm, .sb]
  | .soutTest _ _ => [.qm, .sb]
  | .ss1End => [.sb]
  | .spdDisc => [.qm, .sb]
  | .sbSelf _ => [.qm, .sb]
  | .cfgCrc => [.qm, .sb]
  | .lockoutExit _ _ => [.qm, .sb, .nv]
  | .tokenFrame => [.sb]
  | .tokenTmo => [.qm, .sb]
  | .tokTxRead _ => [.sb]
  | .stoTestDue => [.qm, .sb]
  | .reqmGateGoff _ => [.sb]
  | .mpwd => []
  | .mpLost => [.sys, .qm, .sb, .hs, .bi, .te]
  | .canCtlMode _ _ => [.qm, .sb, .can]
  | .canCtlRecover _ => []
  | .canTxctlReq _ _ => [.can]
  | .canTxctlCancel _ _ => [.can]
  | .canFrameValid _ _ => [.qm, .sb, .can]
  | .canTxStart _ _ => [.can]
  | .canTxEnd _ _ _ => [.qm, .sb, .can]
  | .canError _ _ _ _ => [.qm, .sb, .can]
  | .canRecovered _ => [.qm, .sb, .can]
  | .canIntegration _ => [.qm, .sb, .can]
  | .spiWriteTransaction _ _ => [.sys, .tb, .qm, .tt, .ln, .sd, .pw, .gd, .fb, .bl, .pm, .sb, .can, .hs, .th, .nv, .bi, .cc, .te, .banks]
  | .spiReadTransaction _ _ _ _ => [.tb, .qm, .fb, .sb, .hs, .nv, .te]
  | .doorbell _ _ => [.qm, .hs]
  | .doorbellSignal => []
  | .descriptorPop _ _ => [.sys, .tb, .qm, .tt, .ln, .sd, .pw, .gd, .fb, .bl, .pm, .sb, .can, .hs, .th, .nv, .bi, .cc, .te, .banks]
  | .finalRecordRelease => [.qm, .hs]
  | .cplHeadWrite _ _ => [.hs]
  | .mpRestart => [.sys, .qm, .sb, .hs]
  | .sysInfo _ => [.qm, .sb, .hs, .banks]
  | .sysNop _ => [.qm, .sb, .hs, .banks]
  | .sysQuery _ => [.qm, .sb, .hs, .banks]
  | .sysCancel _ => [.qm, .sb, .hs, .bi, .cc, .te, .banks]
  | .sysAttnClr _ => [.qm, .sb, .hs, .banks]
  | .sysTime _ => [.qm, .sb, .hs, .banks]
  | .sysTimetable _ => [.qm, .tt, .sb, .hs, .banks]
  | .sysReset _ => [.qm, .sb, .hs, .banks]
  | .moduleReset _ => [.sys, .tb, .qm, .tt, .ln, .sd, .pw, .gd, .fb, .bl, .pm, .sb, .can, .hs, .th, .nv, .bi, .cc, .te, .banks]
  | .mdEnable _ => [.qm, .ln, .sb, .hs, .banks]
  | .mdDisable _ => [.qm, .ln, .sb, .hs, .banks]
  | .mdStart _ => [.qm, .ln, .sb, .hs, .banks]
  | .mdStop _ => [.qm, .ln, .sb, .hs, .banks]
  | .mdEmergency _ => [.qm, .ln, .sb, .hs, .banks]
  | .mdMode _ => [.qm, .ln, .sb, .hs, .banks]
  | .mdReset _ => [.qm, .ln, .sb, .hs, .banks]
  | .spWrite _ => [.qm, .sb, .hs, .banks]
  | .spWriteN _ => [.qm, .sb, .hs, .banks]
  | .regRead _ => [.sys, .tb, .qm, .tt, .ln, .sd, .pw, .gd, .fb, .bl, .pm, .sb, .can, .hs, .th, .nv, .bi, .cc, .te, .banks]
  | .regWrite _ => [.sys, .tb, .qm, .tt, .ln, .sd, .pw, .gd, .fb, .bl, .pm, .sb, .can, .hs, .th, .nv, .bi, .cc, .te, .banks]
  | .parStage _ => [.qm, .sb, .hs, .banks]
  | .tblLoad _ => [.qm, .sb, .hs, .banks]
  | .bankSwap _ => [.qm, .ln, .sb, .hs, .banks]
  | .bankCopy _ => [.qm, .sb, .hs, .banks]
  | .parSave _ => [.qm, .sb, .hs, .banks]
  | .fbCorrect _ => [.qm, .sb, .hs, .banks]
  | .diagOffstate _ => [.qm, .gd, .sb, .hs, .banks]
  | .bistLane _ => [.qm, .sb, .hs, .bi, .te, .banks]
  | .bistMem _ => [.qm, .sb, .hs, .bi, .te, .banks]
  | .bistGate _ => [.qm, .sb, .hs, .bi, .te, .banks]
  | .calPass _ => [.qm, .sb, .hs, .banks]
  | .crcScan _ => [.qm, .sb, .hs, .cc, .banks]
  | .trConfig _ => [.qm, .sb, .hs, .te, .banks]
  | .trArm _ => [.qm, .sb, .hs, .te, .banks]
  | .trTrigger _ => [.qm, .sb, .hs, .banks]
  | .trRead _ => [.qm, .sb, .hs, .te, .banks]
  | .evRead _ => [.qm, .sb, .hs, .banks]
  | .lkEnum _ => [.qm, .bl, .sb, .hs, .banks]
  | .csForm _ => [.qm, .sb, .hs, .banks]
  | .csAdd _ => [.qm, .bl, .sb, .hs, .banks]
  | .csRemove _ => [.qm, .bl, .sb, .hs, .banks]
  | .csDissolve _ => [.qm, .bl, .sb, .hs, .banks]
  | .prRelease _ => [.qm, .pm, .sb, .hs, .banks]
  | .prEngage _ => [.qm, .pw, .pm, .sb, .hs, .banks]
  | .prPser _ => [.qm, .sb, .hs, .banks]
  | .safeOpen _ => [.qm, .sb, .hs, .banks]
  | .safeClose _ => [.qm, .sb, .hs, .banks]
  | .safeConfirm _ => [.qm, .pm, .sb, .hs, .banks]
  | .safeStatus _ => [.qm, .sb, .hs, .banks]
  | .fwStage _ => [.qm, .sb, .hs, .banks]
  | .fwVerify _ => [.qm, .sb, .hs, .banks]
  | .fwSwap _ => [.qm, .sb, .hs, .banks]
  | .fwDiscard _ => [.qm, .sb, .hs, .banks]
  | .nvRead _ => [.qm, .sb, .hs, .banks]
  | .tempMeasurement _ _ => [.tb, .qm, .ln, .pw, .pm, .sb, .th, .nv, .banks]
  | .pxCHalt => []
  | .auxLoss _ _ => [.qm, .sb, .th]
  | .auxBack _ _ => [.qm, .sb, .th]
  | .holdupBusLow _ _ => [.qm, .ln, .pw, .pm, .sb, .th, .nv, .banks]
  | .hbok _ _ => [.th]
  | .norJob => [.qm, .nv]
  | .norOperationComplete _ => [.qm, .sb, .nv]
  | .logPageProgram => [.qm, .sb]
  | .eventRingPass => [.qm, .sb, .hs, .bi, .te]
  | .bistJobResult _ => [.qm, .sb, .bi, .te]
  | .biCtlAbort => [.qm, .sb, .bi, .te]
  | .ccChkCtlGo _ _ => [.cc]
  | .ccChkData _ _ => [.cc]
  | .crcScanEnd _ _ => [.qm, .sb, .cc]
  | .traceSample => [.qm, .sb, .te]
  | .ringStop _ => [.qm, .sb, .te]
  | .teCtlArm _ => [.te]
  | .teCtlDisarm _ => [.te]
  | .teTrig _ => []
  | .queuePush _ _ => [.qm, .sb]
  | .queuePop _ _ => [.qm, .sb, .banks]
  | .qmIrqClear _ _ => [.qm]
  | .tbCntLoRead => [.tb, .qm, .fb, .sb, .nv, .te]
  | .tbLastLoRead => [.tb, .qm, .fb, .sb, .nv, .te]
  | .fbPosLoRead => [.tb, .qm, .fb, .sb, .nv, .te]
  | .fbHofsLoRead => [.tb, .qm, .fb, .sb, .nv, .te]
  | .nvLogseqLoRead => [.tb, .qm, .fb, .sb, .nv, .te]
  | .nvLogoldLoRead => [.tb, .qm, .fb, .sb, .nv, .te]
  | .teTbLoRead _ => [.tb, .qm, .fb, .sb, .nv, .te]
  | .readClearCounter _ => [.sys, .tb, .qm, .tt, .ln, .sd, .pw, .gd, .fb, .bl, .pm, .sb, .can, .hs, .th, .nv, .bi, .cc, .te, .banks]
  | .registerWrite _ _ => [.sys, .tb, .qm, .tt, .ln, .sd, .pw, .gd, .fb, .bl, .pm, .sb, .can, .hs, .th, .nv, .bi, .cc, .te, .banks]
  | .powerOn _ => [.sys, .tb, .qm, .tt, .ln, .sd, .pw, .gd, .fb, .bl, .pm, .sb, .can, .hs, .th, .nv, .bi, .cc, .te, .banks]
  | .bootComplete => [.sys, .qm, .bl, .sb, .th]
  | .overcurrent _ _ => [.qm, .sb]
  | .mpReset _ _ => [.sys, .qm, .sb, .hs, .bi, .te]
  | .exchangeWindowOpen => [.bl]
  | .exchangeWindowClose => [.bl]
  | .quarterPeriodCount _ => []
  | .idHoldExpiry => []

end Sys2Proof.Machine
end

