-- ==== Sys2Proof/Certificates/Slice0/Obligations.lean ====
section
/-! DEFINITION. The statements for the provers: the machine's rules as a whole, then each family of steps, each step with what it leaves. -/

open Sys2Proof Sys2Proof.Machine

/-- A step runs the command at the front of the queue -/
def Obligations.StepRunsFront : Prop :=
  ∀ (c : Instr) (rest : List Instr) (s : State), s.pending = c :: rest → step s = exec c { s with pending := rest }

/-- With no command waiting a step is one core-clock cycle (the model's choice, assumption log 1; TB counts up by one per cycle, 01 R31). -/
def Obligations.EmptyQueueIsOneCycle : Prop :=
  ∀ s : State, s.Running → s.pending = [] → ∃ t, step s = .next t ∧
    (s.time.tb + 1 < s.time.tbLast + s.period → t.time.tb = s.time.tb + 1) ∧
    (s.time.tbLast + s.period ≤ s.time.tb + 1 → t.time.tb = s.time.tb) ∧
    t.time.tbLast = s.time.tbLast ∧ SameOutside [.time, .hs] s t ∧ t.pending = []

/-- No command stops the machine, and none touches the queue of commands -/
def Obligations.EveryCommandCompletes : Prop :=
  ∀ (c : Instr) (s : State), ∃ t, exec c s = .next t ∧ t.pending = s.pending

/-- Reset, the invariant holds -/
def Obligations.InvariantAtReset : Prop :=
  State.reset.Inv ∧ State.reset.Running ∧ State.reset.pending = [] ∧ (∀ a, State.reset.word a = resetWord (State.reset.home a)) ∧
    State.reset.rd R.TT_PERIOD_CYC = 10000 ∧ State.reset.drive = 0 ∧ State.reset.rd R.TH_FTH_F = 0x8000 ∧
    (∀ n, n < 64 → (State.reset.queue n).items = [] ∧ State.reset.qCredit n = qDepth n) ∧
    ∀ c, c < 7 → (State.reset.gch c).drive = false

/-- Every step keeps the invariant -/
def Obligations.InvariantKept : Prop :=
  ∀ s t : State, s.Inv → step s = .next t → t.Inv

/-- Each command leaves every part of the state and every block of registers outside its footprint as it was (Machine/Footprint.lean lists the parts
and the blocks that a command may change; what a step outputs is replaced by every step). -/
def Obligations.CommandFootprint : Prop :=
  ∀ (c : Instr) (s t : State), exec c s = .next t → SameOutside (touches c) s t ∧
    ∀ a, t.home a = s.home a → regBlock (s.home a) ∉ writes c → t.word a = s.word a

/-- A halted module changes nothing until power returns -/
def Obligations.HaltedModuleKeepsItsState : Prop :=
  ∀ (c : Instr) (s : State), s.sys.halted = true → (∀ f, c ≠ .powerOn f) → exec c s = .next s

/-- TB is stepped at a tick boundary in OFF or STANDBY alone -/
def Obligations.TimeIsRateOnlyWhileTheDriveIsOn : Prop :=
  (∀ (inp : TickInputs) (s : State), s.Running → ∃ t, exec (.tickBoundary inp) s = .next t ∧ t.time.stepTo = none ∧
    (2 ≤ s.drive ∨ s.time.stepTo = none → t.time.tb = s.time.tbLast + s.period ∧ t.time.tbLast = s.time.tbLast + s.period) ∧
    (∀ d, s.drive ≤ 1 → s.time.stepTo = some d →
      (t.time.tb : Int) = max 0 (s.time.tbLast + s.period + d) ∧ t.time.tbLast = t.time.tb / s.period * s.period)) ∧
  (∀ (c : Instr) (s t : State), (∀ inp, c ≠ .tickBoundary inp) → (∀ f, c ≠ .moduleReset f) → (∀ f, c ≠ .powerOn f) →
    exec c s = .next t → s.time.tb ≤ t.time.tb ∧ t.time.tbLast = s.time.tbLast)

/-- A task runs once per tick from its start offset -/
def Obligations.TaskRunsFromItsStart : Prop :=
  ∀ (run : TaskRun) (s : State), s.Running → s.rd R.LN_STAT_UNUSABLE = 0 →
    ((s.task 1).started = false → run.fault = none → ∃ t, exec (.curfld run) s = .next t ∧
      (t.task 1).started = true ∧ (t.task 1).ready = true ∧ t.cfNew.isSome = true ∧
      (run.tables = [] → t.time.tb = max s.time.tb (s.time.tbLast + (s.taskSlot 1).1))) ∧
    ((s.task 2).started = false → run.fault = none → ∃ t, exec (.outer run) s = .next t ∧
      (t.task 2).started = true ∧ (t.task 2).ready = true ∧ t.olNew.isSome = true ∧
      (run.tables = [] → t.time.tb = max s.time.tb (s.time.tbLast + (s.taskSlot 2).1))) ∧
    ((s.task 3).started = false → run.fault = none → ∃ t, exec (.limshare run) s = .next t ∧
      (t.task 3).started = true ∧ (t.task 3).ready = true ∧ t.limNew.isSome = true ∧
      (run.tables = [] → t.time.tb = max s.time.tb (s.time.tbLast + (s.taskSlot 3).1))) ∧
    (∀ k off, run.fault = some (k, off) →
      ((s.task 1).started = false → ∃ t, exec (.curfld run) s = .next t ∧ (t.task 1).aborted = true ∧ (t.task 1).ready = (s.task 1).ready) ∧
      ((s.task 2).started = false → ∃ t, exec (.outer run) s = .next t ∧ (t.task 2).aborted = true ∧ (t.task 2).ready = (s.task 2).ready) ∧
      ((s.task 3).started = false → ∃ t, exec (.limshare run) s = .next t ∧ (t.task 3).aborted = true ∧
        (t.task 3).ready = (s.task 3).ready))

/-- At its substitution point a task's output is posted, held or replaced by the rest output -/
def Obligations.SubstitutionPointPostsOrHolds : Prop :=
  ∀ (task : Fin 3) (s : State), s.Running → (s.task (task.val + 1)).posted = false →
    ((s.task (task.val + 1)).ready = true → ∃ t, exec (.substitutionPoint task) s = .next t ∧
      (t.task (task.val + 1)).posted = true ∧ (t.task (task.val + 1)).held = false ∧ (t.task (task.val + 1)).everValid = true ∧
      t.ln.holdThisTick = s.ln.holdThisTick ∧
      t.time.tb = max s.time.tb (s.time.tbLast + ((s.taskSlot (task.val + 1)).1 + (s.taskSlot (task.val + 1)).2))) ∧
    ((s.task (task.val + 1)).ready = false → (s.task (task.val + 1)).everValid = true → ∃ t, exec (.substitutionPoint task) s = .next t ∧
      (t.task (task.val + 1)).posted = true ∧ (t.task (task.val + 1)).held = true ∧ (t.task (task.val + 1)).rest = false ∧
      t.ln.holdThisTick = true) ∧
    ((s.task (task.val + 1)).ready = false → (s.task (task.val + 1)).everValid = false → ∃ t, exec (.substitutionPoint task) s = .next t ∧
      (t.task (task.val + 1)).posted = true ∧ (t.task (task.val + 1)).held = true ∧ (t.task (task.val + 1)).rest = true ∧
      t.ln.holdThisTick = true)

/-- The siding lane recomputes an aborted task -/
def Obligations.RecomputationOfAnAbortedTask : Prop :=
  ∀ (task : Fin 3) (s : State), s.Running →
    (∀ a, (s.task (task.val + 1)).recompAt = some a →
      (∀ run : TaskRun, run.fault = none → ∃ t, exec (.recomputation task run) s = .next t ∧
        (t.task (task.val + 1)).recompAt = none ∧
        (t.task (task.val + 1)).recompEnd = some (a + Config.taskLength (task.val + 1)) ∧
        (∀ k t0 len, s.ln.slice = some (k, s.rd R.LN_STAT_SIDING, t0, len) → t.ln.slice = none) ∧
        (run.tables = [] → t.time.tb = max s.time.tb a)) ∧
      (∀ (run : TaskRun) k off, run.fault = some (k, off) → ∃ t, exec (.recomputation task run) s = .next t ∧
        (t.task (task.val + 1)).recompAt = none ∧ (t.task (task.val + 1)).noRecompute = true ∧
        (t.task (task.val + 1)).recompEnd = (s.task (task.val + 1)).recompEnd ∧
        (∀ k t0 len, s.ln.slice = some (k, s.rd R.LN_STAT_SIDING, t0, len) → t.ln.slice = none))) ∧
    (∀ e, (s.task (task.val + 1)).recompEnd = some e →
      (e + 8 ≤ s.time.tbLast + (s.taskSlot (task.val + 1)).1 + (s.taskSlot (task.val + 1)).2 → (s.task (task.val + 1)).posted = false →
        ∃ t, exec (.recomputedOutputPosted task) s = .next t ∧ (t.task (task.val + 1)).ready = true ∧
          (t.task (task.val + 1)).recompEnd = none ∧ t.time.tb = max s.time.tb (e + 8)) ∧
      (s.time.tbLast + (s.taskSlot (task.val + 1)).1 + (s.taskSlot (task.val + 1)).2 < e + 8 →
        ∃ t, exec (.recomputedOutputPosted task) s = .next t ∧ (t.task (task.val + 1)).ready = (s.task (task.val + 1)).ready ∧
          (t.task (task.val + 1)).recompEnd = none))

/-- DATAPATH, HOLD8, LANE_SUSPECT, LANE_LOST and ISUM are raised when they are due -/
def Obligations.DatapathFaultsAreRaised : Prop :=
  ∀ s : State, s.Running →
    (3 ≤ s.rd R.LN_STAT_HOLDRUN → s.ln.holdThisTick = true → s.hasCause 0 = false → ∃ t, exec .datapath s = .next t ∧
      t.seq.raised = s.seq.raised ++ [(0, 0)] ∧ t.te.evs = s.te.evs ++ [(39, 0x020A)] ∧ t.bit R.LN_MD_FLT 0 = true) ∧
    (8 ≤ s.rd R.LN_STAT_HOLDRUN → s.ln.holdThisTick = true → s.hasCause 1 = false → ∃ t, exec .hold8 s = .next t ∧
      t.seq.raised = s.seq.raised ++ [(1, 0)] ∧ t.te.evs = s.te.evs ++ [(39, 0x020B)] ∧
      (∀ c, c < 7 → (t.gch c).drive = false) ∧ t.rd R.LN_MD_BRK_SETCMD = 1) ∧
    (∀ (lane : Fin 4) (t0 : Nat), (((s.ln.errTicks.toList[lane.val]?).getD []).drop 3).head? = some t0 →
      wrapTo 32 ((s.tickno : Int) - t0) < 4096 → ∃ t, exec (.laneSuspect lane) s = .next t ∧
      t.te.evs = s.te.evs ++ [(40, 0x0301)] ∧ t.ln.errTicks.toList[lane.val]? = some []) ∧
    (∀ lane : Fin 4, testB s.ln.bistFailed lane.val = true → s.rd R.LN_STAT_UNUSABLE = 0 → ∃ t, exec (.laneLost lane) s = .next t ∧
      t.bit R.LN_STAT_UNUSABLE lane.val = true ∧ t.rd R.LN_STAT_DEGRADED = 1 ∧ t.te.evs = s.te.evs ++ [(39, 0x0205)]) ∧
    (∀ lane : Fin 4, testB s.ln.bistFailed lane.val = true → s.rd R.LN_STAT_UNUSABLE ≠ 0 → s.bit R.LN_STAT_UNUSABLE lane.val = false →
      ∃ t, exec (.laneLost lane) s = .next t ∧ t.seq.raised = s.seq.raised ++ [(0, 0)]) ∧
    (s.cfNew = none → 4 ≤ s.cf.isumRun → s.cf.isumRaised = false → ∃ t, exec .isum s = .next t ∧
      t.cf.isumRaised = true ∧ t.seq.raised = s.seq.raised ++ [(4, 0)] ∧ t.te.evs = s.te.evs ++ [(39, 0x020E)]) ∧
    (∀ c, s.cfNew = some c → 4 ≤ c.isumRun → c.isumRaised = false → ∃ t, exec .isum s = .next t ∧
      t.cfNew = some { c with isumRaised := true } ∧ t.seq.raised = s.seq.raised ++ [(4, 0)])

/-- A slice starts where it fits the idle window and is aborted at its end -/
def Obligations.SlicesRunInsideIdleWindows : Prop :=
  ∀ s : State, s.Running →
    (∀ e, s.ln.slice = none → s.ln.jobs = [] → s.windowEnd = some e → s.phase + 512 ≤ e →
      ∃ t, exec (.sliceStart none) s = .next t ∧ t.ln.slice = some (.scrub, s.rd R.LN_STAT_SIDING, s.time.tb, 512)) ∧
    (∀ e bad j rest, s.ln.slice = none → s.ln.jobs = j :: rest → j.lane = none → s.tickno % 16 ≠ 0 → s.windowEnd = some e →
      s.phase + j.len ≤ e → ∃ t, exec (.sliceStart bad) s = .next t ∧
        t.ln.slice = some (.job j.handle, s.rd R.LN_STAT_SIDING, s.time.tb, j.len)) ∧
    (∀ e bad j rest, s.ln.slice = none → s.ln.jobs = j :: rest → j.lane = none → s.tickno % 16 ≠ 0 → s.windowEnd = some e →
      e < s.phase + j.len → e < s.phase + 512 → ∃ t, exec (.sliceStart bad) s = .next t ∧ t.ln.slice = none) ∧
    (∀ e j rest, s.ln.slice = none → s.ln.jobs = j :: rest → j.lane = none → s.tickno % 16 ≠ 0 → s.windowEnd = some e →
      e < s.phase + j.len → s.phase + 512 ≤ e → ∃ t, exec (.sliceStart none) s = .next t ∧
        t.ln.slice = some (.scrub, s.rd R.LN_STAT_SIDING, s.time.tb, 512)) ∧
    (∀ k l t0 len, s.ln.slice = some (k, l, t0, len) → s.time.tb < t0 + len → ∃ t, exec .sliceAbort s = .next t ∧ t.ln.slice = none ∧
      t.ln.jobs = s.ln.jobs)

/-- Swaps and period changes of the Timetable are checked, pend and take effect at the boundary -/
def Obligations.TimetableChanges : Prop :=
  ∀ s : State, s.Running →
    (s.on R.TT_STAT_SWPEND = false → s.ttCheck s.ttShadow s.ttPeriodNext s.tt.periodDue.isSome = 0 → ∃ t, exec .ttCtlSwap s = .next t ∧
      t.tt.swapDue = some (s.time.tb + 64) ∧ t.tt.passed = s.ttShadow.map ttEncode ∧ t.rd R.TT_STAT_SWPEND = 1 ∧ t.rd R.TT_STAT_PEND = 1) ∧
    (s.on R.TT_STAT_SWPEND = false → s.ttCheck s.ttShadow s.ttPeriodNext s.tt.periodDue.isSome ≠ 0 → ∃ t, exec .ttCtlSwap s = .next t ∧
      t.tt = s.tt ∧ t.rd R.TT_STAT_REJ = 1 ∧
      t.rd R.TT_STAT_REJCODE = s.ttCheck s.ttShadow s.ttPeriodNext s.tt.periodDue.isSome) ∧
    (∀ v : Word, s.on R.SB_LOCK_LOCKED = false → (R.TT_PERIOD_CYC.get v ≠ s.period ∨ s.tt.periodDue.isSome = true) →
      s.ttCheck (if s.on R.TT_STAT_SWPEND then s.ttShadow else s.ttActive) (R.TT_PERIOD_CYC.get v) true = 0 →
      ∃ t, exec (.ttPeriodCyc v) s = .next t ∧ t.tt.periodDue = some (R.TT_PERIOD_CYC.get v, s.time.tb + 64) ∧
        t.rd R.TT_STAT_PEND = 1 ∧ t.period = s.period) ∧
    (∀ v : Word, s.on R.SB_LOCK_LOCKED = true → ∃ t, exec (.ttPeriodCyc v) s = .next t ∧ t = s.cleared) ∧
    (∀ d, s.tt.swapDue = some d → d ≤ s.time.tbLast → s.tt.periodDue = none → s.tt.passed = s.ttShadow.map ttEncode →
      s.ttCheck s.ttShadow s.period false = 0 →
      ∃ t, exec .timetableChangeDue s = .next t ∧ t.tt.swapDue = none ∧ t.tt.done = some 0 ∧ t.ttActive = s.ttShadow ∧
        t.period = s.period) ∧
    (∀ d, s.tt.swapDue = some d → d ≤ s.time.tbLast → s.tt.periodDue = none →
      s.ttCheck (s.tt.passed.map (fun w => ttDecode w.1 w.2)) s.period false ≠ 0 →
      ∃ t, exec .timetableChangeDue s = .next t ∧ t.tt.swapDue = none ∧ t.ttActive = s.ttActive ∧ t.period = s.period ∧
        t.rd R.TT_STAT_REJ = 1) ∧
    (∀ p d, s.tt.swapDue = none → s.tt.periodDue = some (p, d) → d ≤ s.time.tbLast → s.ttCheck s.ttActive p true = 0 →
      ∃ t, exec .timetableChangeDue s = .next t ∧ t.tt.periodDue = none ∧ t.period = p ∧ t.ttActive = s.ttActive)

/-- A reloaded table is checked, and its stale bit clears at the boundary -/
def Obligations.StaleTablesAreChecked : Prop :=
  ∀ s : State, s.Running →
    (∀ v : Word, R.LN_TBLCHK_GO.get v = 1 → ∃ t, exec (.lnTblchkGo v) s = .next t ∧ t.ln.checking = some (R.LN_TBLCHK_ID.get v) ∧
      t.rd R.LN_TBLRES_DONE = 0 ∧ t.rd R.LN_TBLRES_FAIL = 0) ∧
    (∀ id, s.ln.checking = some id → (tblPlace id).2 ≠ 0 → crc32c (s.tableBytes s.ln.bankB id) = s.rd R.LN_TBLCRC →
      ∃ t, exec (.tableCheckDone true) s = .next t ∧ t.ln.checking = none ∧ t.rd R.LN_TBLRES_DONE = 1 ∧ testB t.ln.clearStale id = true) ∧
    (∀ id, s.ln.checking = some id → smapGet (fun _ => 0) s.ln.checkFails id = 0 → ∃ t, exec (.tableCheckDone false) s = .next t ∧
      t.ln.checking = none ∧ t.rd R.LN_TBLRES_FAIL = 1 ∧ t.ln.clearStale = s.ln.clearStale ∧ t.seq.raised = s.seq.raised) ∧
    (∀ id, s.ln.checking = some id → smapGet (fun _ => 0) s.ln.checkFails id = 1 → s.stale id = true →
      ∃ t, exec (.tableCheckDone false) s = .next t ∧ t.ln.checking = none ∧ t.seq.raised = s.seq.raised ++ [(3, id)]) ∧
    (∀ tick, s.ln.bankTick = some tick → 0 ≤ modDiff 32 s.tickno tick → s.rd R.LN_TBLSTALE = 0 → s.loadInProgress = false →
      ∃ t, exec .bankSwapEffect s = .next t ∧ t.ln.bankB = !s.ln.bankB ∧ t.ln.bankTick = none ∧ t.ln.bankDone = some true) ∧
    (∀ tick, s.ln.bankTick = some tick → 0 ≤ modDiff 32 s.tickno tick → s.rd R.LN_TBLSTALE ≠ 0 →
      ∃ t, exec .bankSwapEffect s = .next t ∧ t.ln.bankB = s.ln.bankB ∧ t.ln.bankTick = none ∧ t.ln.bankDone = some false)

/-- Setpoint records apply in their tick, and inputs that are too old fall back -/
def Obligations.SetpointsAndStaleInputs : Prop :=
  ∀ s : State, s.Running →
    (∀ kind r, s.ol.slots = [(kind, r)] → recordDue r s.tickno = true → ∃ t, exec .setpointApply s = .next t ∧ t.ol.slots = [] ∧
      (kind = 1 → t.ol.speedRef = recQ r 8 16) ∧ (kind = 2 → t.ol.torqueRef = recQ r 8 8) ∧
      (kind = 3 → t.ol.tensionRef = recQ r 8 8) ∧ (kind = 4 → t.ol.positionRef = signedOf 48 (fieldLE r 8 6)) ∧
      (kind = 5 → t.ol.curveIn = ofFix 15 (signedOf 16 (fieldLE r 8 2))) ∧
      (kind = 7 → t.ol.loadPin = recQ r 8 8 ∧ t.ol.loadPinSeen = true) ∧
      (kind = 8 → t.ol.ceilM = some (maxR 0 (recQ r 8 8)) ∧ t.ol.ceilG = some (maxR 0 (recQ r 12 8)))) ∧
    (s.ol.leverStale = false → s.coef 2 R.LN_OL_LVTMO ≤ s.ol.leverAge → ∃ t, exec .leverStale s = .next t ∧
      t.ol.leverStale = true ∧ t.ol.lever = 0 ∧ t.te.evs = s.te.evs ++ [(40, 0x0305)]) ∧
    (s.ol.loadPinSeen = true → s.ol.loadPinStale = false → s.loadPinOld = true → ∃ t, exec .tensionSrc s = .next t ∧
      t.ol.loadPinStale = true ∧ t.te.evs = s.te.evs ++ [(40, 0x0306)]) ∧
    (s.ol.hvSeen = true → s.ol.hvStale = false →
      ((s.coef 2 R.LN_OL_HVTMO * s.period : Nat) : Int) < (s.time.tbLast : Int) + s.coef 2 R.LN_OL_HVLEAD - s.ol.hvStamp →
      ∃ t, exec .heaveStale s = .next t ∧ t.ol.hvStale = true ∧ t.ol.hvFrozenZ = s.heaveNow.1 ∧ t.ol.hvFrozenV = s.heaveNow.2 ∧
        t.te.evs = s.te.evs ++ [(40, 0x0309)]) ∧
    (s.olp.shock = true → s.coef 2 R.LN_OL_CHOLD ≤ s.olp.calm → ∃ t, exec .shockClear s = .next t ∧ t.olp.shock = false ∧
      t.olp.compl = false)

/-- A start ends in its ramp, in FLUX_TIMEOUT or complete -/
def Obligations.StartsEnd : Prop :=
  ∀ s : State, s.Running →
    (s.olp.start = 2 → s.fluxBuilt = true → s.induction = true → s.drive = 3 → ∃ t, exec .fluxBuildEnd s = .next t ∧
      t.olp.start = 3 ∧ t.seq.flyStart = false) ∧
    (s.olp.start = 2 → s.fluxBuilt = false → s.drive = 3 → s.fluxLate s.olp = true → ∃ t, exec .fluxTimeout s = .next t ∧
      t.drive = 2 ∧ t.olp.start = 0 ∧ t.seq.starting = false ∧ t.seq.done = s.seq.done ++ [(3, 9)]) ∧
    (s.seq.starting = true → s.olp.start = 4 → ∃ t, exec .startComplete s = .next t ∧
      t.seq.starting = false ∧ t.seq.done = s.seq.done ++ [(3, 0)])

/-- A sigma-delta channel takes its role, restarts, becomes VALID and loses its signal -/
def Obligations.SigmaDeltaChannelSteps : Prop :=
  ∀ (ch : Fin 12) (s : State), s.Running →
    (∀ v : Word, s.on R.SB_LOCK_LOCKED = false →
      (11 ≤ (R.SD_CHn_CFG_ROLE ch.val).get v ∨ (1 ≤ (R.SD_CHn_CFG_ROLE ch.val).get v ∧ (R.SD_CHn_CFG_ROLE ch.val).get v ≤ 9 ∧
          ∃ m : Fin 12, m ≠ ch ∧ s.rd (R.SD_CHn_CFG_ROLE m.val) = (R.SD_CHn_CFG_ROLE ch.val).get v)) →
      ∃ t, exec (.sdChannelConfig ch v) s = .next t ∧ t.rd (R.SD_CHn_CFG_ROLE ch.val) = 0 ∧ t.rd R.SD_STAT_CFGERR = 1 ∧
        t.rd (R.SD_CHn_CFG_EN ch.val) = (R.SD_CHn_CFG_EN ch.val).get v) ∧
    (∀ v : Word, s.on R.SB_LOCK_LOCKED = false →
      ((R.SD_CHn_CFG_ROLE ch.val).get v = 0 ∨ (R.SD_CHn_CFG_ROLE ch.val).get v = 10 ∨ ((R.SD_CHn_CFG_ROLE ch.val).get v ≤ 9 ∧
          ∀ m : Fin 12, m ≠ ch → s.rd (R.SD_CHn_CFG_ROLE m.val) ≠ (R.SD_CHn_CFG_ROLE ch.val).get v)) →
      ∃ t, exec (.sdChannelConfig ch v) s = .next t ∧ t.rd (R.SD_CHn_CFG_ROLE ch.val) = (R.SD_CHn_CFG_ROLE ch.val).get v ∧
        t.rd (R.SD_CHn_CFG_EN ch.val) = (R.SD_CHn_CFG_EN ch.val).get v) ∧
    (∀ v : Word, s.on R.SB_LOCK_LOCKED = true → ∃ t, exec (.sdChannelConfig ch v) s = .next t ∧
      t.rd (R.SD_CHn_CFG_ROLE ch.val) = s.rd (R.SD_CHn_CFG_ROLE ch.val) ∧ t.rd (R.SD_CHn_CFG_EN ch.val) = s.rd (R.SD_CHn_CFG_EN ch.val) ∧
      t.rd (R.SD_CHn_CFG_SKEW ch.val) = (R.SD_CHn_CFG_SKEW ch.val).get v) ∧
    (s.on (R.SD_CHn_CFG_EN ch.val) = true → ∃ t, exec (.sdRestart ch) s = .next t ∧ t.rd (R.SD_CHn_STAT_VALID ch.val) = 0 ∧
      t.rd (R.SD_CHn_STAT_LOSS ch.val) = 0 ∧ (t.sdc ch.val).bits = [] ∧ (t.sdc ch.val).fillFrom = s.time.tb) ∧
    (s.on R.SD_CFG_EN = true → s.on (R.SD_CHn_CFG_EN ch.val) = true → s.on (R.SD_CHn_STAT_LOSS ch.val) = false →
      3 * s.sdRatio ≤ s.bitsSince (s.sdc ch.val).fillFrom → 46 ≤ s.bitsSince (s.sdc ch.val).fillFrom →
      ∃ t, exec (.sdValid ch) s = .next t ∧ t.rd (R.SD_CHn_STAT_VALID ch.val) = 1) ∧
    (s.sdRuns ch.val = true → s.on (R.SD_CHn_STAT_LOSS ch.val) = false → ∃ t, exec (.sdLoss ch) s = .next t ∧
      t.rd (R.SD_CHn_STAT_VALID ch.val) = 0 ∧ t.rd (R.SD_CHn_STAT_LOSS ch.val) = 1 ∧ t.te.evs = s.te.evs ++ [(39, 0x0206)] ∧
      (fastRole (s.rd (R.SD_CHn_CFG_ROLE ch.val)) = true → t.seq.raised = s.seq.raised ++ [(6, ch.val)]) ∧
      (fastRole (s.rd (R.SD_CHn_CFG_ROLE ch.val)) = false → t.seq.raised = s.seq.raised))

/-- The calibration selector moves on, and a fit is applied or refused -/
def Obligations.CalibrationSteps : Prop :=
  ∀ s : State, s.Running →
    (s.on R.SD_CAL_CTL_EN = true → s.on R.SD_CAL_STAT_CALERR = false → (s.roleCh 9).isSome = true →
      max 1 (s.rd R.SD_CAL_CTL_SETTLE) + s.calDwell ≤ s.sd.cal.ticks → ∃ t, exec .calPositionStep s = .next t ∧
      t.rd R.SD_CAL_STAT_POS = s.calNext (s.rd R.SD_CAL_STAT_POS) ∧ t.sd.cal.ticks = 0 ∧ t.sd.cal.n = 0) ∧
    (∀ f rest, s.sd.cal.fits = f :: rest → f.ready = true → absR f.gain ≤ 2 / 100 → absR f.ofs ≤ 1 / 100 →
      ∃ t, exec .calFitApply s = .next t ∧ t.sd.cal.fits = rest ∧ t.sd.cal.applied = s.sd.cal.applied + 1 ∧ t.te = s.te) ∧
    (∀ f rest, s.sd.cal.fits = f :: rest → f.ready = true → (2 / 100 < absR f.gain ∨ 1 / 100 < absR f.ofs) →
      (s.sdc f.ch).rangeRun ≠ 2 → ∃ t, exec .calFitApply s = .next t ∧ t.sd.cal.fits = rest ∧
      t.sd.cal.ranged = s.sd.cal.ranged + 1 ∧ t.te.evs = s.te.evs ++ [(40, 0x0303)])

/-- PW.CTL.RUN, EDGE_LATE and dropped volt-second residues -/
def Obligations.PwmSteps : Prop :=
  ∀ s : State, s.Running →
    (∃ t, exec (.pwCtlRun false) s = .next t ∧ t.rd R.PW_CTL_RUN = 0) ∧
    (s.runRefused = false → ∃ t, exec (.pwCtlRun true) s = .next t ∧ t.rd R.PW_CTL_RUN = 1) ∧
    (s.runRefused = true → ∃ t, exec (.pwCtlRun true) s = .next t ∧ t.rd R.PW_STAT_CFGERR = 1 ∧ t.rd R.PW_CTL_RUN = s.rd R.PW_CTL_RUN) ∧
    (3 ≤ s.pw.lateRun → s.hasCause 5 = false → ∃ t, exec .edgeLate s = .next t ∧ t.pw.lateRun = 0 ∧ t.seq.raised = s.seq.raised ++ [(5, 0)] ∧
      t.te.evs = s.te.evs ++ [(39, 0x020F)]) ∧
    ((∃ r ∈ s.pw.residues, r.left = 0) → ∃ t, exec .vsCompensationDropped s = .next t ∧
      t.pw.residues = s.pw.residues.filter (fun r => r.left ≠ 0) ∧
      t.rd R.PW_VSLOST = min (s.rd R.PW_VSLOST + (s.pw.residues.filter (fun r => r.left = 0)).length) 65535)

/-- A CONFIG frame is applied or refused, acknowledged, and resent without an answer -/
def Obligations.GateLinkConfiguration : Prop :=
  ∀ (c : Fin 7) (a : Nat) (v : Word) (n : Nat) (rest : List (GdItem × Nat)) (s : State), s.Running →
    (s.gch c.val).config = (.word a v, n) :: rest →
    (a = (R.GD_CHc_CFG0_VON c.val).addr ∨ a = (R.GD_CHc_CFG1_DSEN c.val).addr ∨ a = (R.GD_CHc_BOOST_EN c.val).addr) →
    (∀ held : Word, s.frameFits c.val 160 true = true →
      held = (if a = (R.GD_CHc_CFG0_VON c.val).addr then (s.gch c.val).cfg0
        else if a = (R.GD_CHc_CFG1_DSEN c.val).addr then (s.gch c.val).cfg1 else (s.gch c.val).boost) →
      ((configRefused (a - (R.GD_CHc_CFG0_VON c.val).addr) v.toNat = true ∨
        (((held ^^^ v) &&& ~~~(configLive (a - (R.GD_CHc_CFG0_VON c.val).addr))) ≠ 0 ∧ (s.gch c.val).en = true)) →
        ∃ t, exec (.glinkConfig c true) s = .next t ∧ (t.gch c.val).config = (.word a v, n) :: rest ∧ (t.gch c.val).ack = some false ∧
          (t.gch c.val).cfg0 = (s.gch c.val).cfg0 ∧ (t.gch c.val).cfg1 = (s.gch c.val).cfg1 ∧ (t.gch c.val).boost = (s.gch c.val).boost) ∧
      (configRefused (a - (R.GD_CHc_CFG0_VON c.val).addr) v.toNat = false →
        ((held ^^^ v) &&& ~~~(configLive (a - (R.GD_CHc_CFG0_VON c.val).addr))) = 0 ∨ (s.gch c.val).en = false →
        ∃ t, exec (.glinkConfig c true) s = .next t ∧ (t.gch c.val).config = (.word a v, n) :: rest ∧ (t.gch c.val).ack = some true ∧
          (a = (R.GD_CHc_CFG0_VON c.val).addr → (t.gch c.val).cfg0 = v) ∧ (a = (R.GD_CHc_CFG1_DSEN c.val).addr → (t.gch c.val).cfg1 = v) ∧
          (a = (R.GD_CHc_BOOST_EN c.val).addr → (t.gch c.val).boost = v))) ∧
    (s.frameFits c.val 160 true = true → ∃ t, exec (.glinkConfig c false) s = .next t ∧ t.gd = s.gd ∧
      t.rd (R.GD_CHc_LINKERR c.val) = min (s.rd (R.GD_CHc_LINKERR c.val) + 1) (2 ^ 32 - 1)) ∧
    (∀ ok, s.frameFits c.val 160 true = false → ∃ t, exec (.glinkConfig c ok) s = .next t ∧ t = s.cleared) ∧
    ((s.gch c.val).ack = some true → ∃ t, exec (.ack c true) s = .next t ∧ t.word a = v ∧ (t.gch c.val).config = rest ∧
      (t.gch c.val).ack = none) ∧
    ((s.gch c.val).ack = some false → ∃ t, exec (.ack c true) s = .next t ∧ t.rd (R.GD_CHc_STAT_CFGREJ c.val) = 1 ∧ t.word a = s.word a ∧
      (t.gch c.val).config = rest) ∧
    ((s.gch c.val).ack ≠ none → ∃ t, exec (.ack c false) s = .next t ∧ (t.gch c.val).ack = none ∧
      (t.gch c.val).config = (s.gch c.val).config ∧
      t.rd (R.GD_CHc_LINKERR c.val) = min (s.rd (R.GD_CHc_LINKERR c.val) + 1) (2 ^ 32 - 1)) ∧
    ((s.gch c.val).ack = none → n < 3 → ∃ t, exec (.configResend c) s = .next t ∧ (t.gch c.val).config = (.word a v, n + 1) :: rest) ∧
    ((s.gch c.val).ack = none → 3 ≤ n → ∃ t, exec (.configResend c) s = .next t ∧ (t.gch c.val).config = rest ∧
      t.rd (R.GD_CHc_STAT_CFGREJ c.val) = 1)

/-- SYNC, LOOP and the lock of a PX-G's clock, and a link that falls silent -/
def Obligations.GateLinkClocks : Prop :=
  ∀ (c : Fin 7) (s : State), s.Running →
    (∀ tm : SyncTiming, s.frameFits c.val 160 false = true → (s.gch c.val).stepTx = true →
      ∃ t, exec (.glinkSync c true tm) s = .next t ∧ (t.gch c.val).lock = false ∧ (t.gch c.val).armed = [] ∧
        (t.gch c.val).staged = none ∧ (t.gch c.val).on = false ∧ (t.gch c.val).stepTx = false ∧
        (t.gch c.val).ltb = -(eighthPs ((tm.flight : Int) - (s.gch c.val).oneWay)) ∧ (c = 6 → t.rd (R.GD_CHc_STAT_PERMIT 6) = 0)) ∧
    (∀ (tm : SyncTiming) (e : Int), s.frameFits c.val 160 false = true → (s.gch c.val).stepTx = false →
      e = (s.gch c.val).slewed tm.drift tm.taken + eighthPs ((tm.flight : Int) - (s.gch c.val).oneWay) →
      (-1000 ≤ e → e ≤ 1000 → ∃ t, exec (.glinkSync c true tm) s = .next t ∧
        (t.gch c.val).syncGood = (s.gch c.val).syncGood + 1 ∧ (t.gch c.val).syncBad = 0 ∧ (t.gch c.val).ltbErr = e ∧
        t.rd (R.GD_CHc_SYNCERR c.val) = wrapTo 16 e ∧ (t.gch c.val).latch = (s.gch c.val).latch) ∧
      (e < -2000 ∨ 2000 < e → (s.gch c.val).lock = true → 2 ≤ (s.gch c.val).syncBad →
        ∃ t, exec (.glinkSync c true tm) s = .next t ∧ testB (t.gch c.val).latch 6 = true ∧ (t.gch c.val).on = false ∧
          (t.gch c.val).armed = [])) ∧
    (∀ tm : SyncTiming, s.frameFits c.val 160 false = true → ∃ t, exec (.glinkSync c false tm) s = .next t ∧
      (t.gch c.val).lock = (s.gch c.val).lock ∧ (t.gch c.val).syncGood = (s.gch c.val).syncGood ∧
      t.rd (R.GD_CHc_LINKERR c.val) = min (s.rd (R.GD_CHc_LINKERR c.val) + 1) (2 ^ 32 - 1)) ∧
    (16 ≤ (s.gch c.val).syncGood → (s.gch c.val).lock = false → ∃ t, exec (.lock c) s = .next t ∧ (t.gch c.val).lock = true ∧
      (c = 6 → t.rd (R.GD_CHc_STAT_PERMIT 6) = 1)) ∧
    (∀ (b : Byte) rt, s.frameFits c.val 80 true = true → (s.gch c.val).link = true → (s.gch c.val).loopTag = some b.toNat →
      ∃ t, exec (.glinkLoop c (some b) rt) s = .next t ∧ (t.gch c.val).loopTag = none ∧
        (t.gch c.val).config = (s.gch c.val).config ++ [(.delay (rt / 2), 0)]) ∧
    (∀ rt, s.frameFits c.val 80 true = true → ∃ t, exec (.glinkLoop c none rt) s = .next t ∧ t.gd = s.gd ∧
      t.rd (R.GD_CHc_LINKERR c.val) = min (s.rd (R.GD_CHc_LINKERR c.val) + 1) (2 ^ 32 - 1)) ∧
    (∀ up, ∃ t, exec (.linkLatch c up) s = .next t ∧ (t.gch c.val).link = false ∧ testB (t.gch c.val).latch 5 = true ∧
      (t.gch c.val).on = false ∧ (t.gch c.val).armed = [] ∧
      (up = true → t.rd (latchField c.val) = (t.gch c.val).latch % 256))

/-- A block is staged, armed, armed again, missed or rejected -/
def Obligations.StagingAndArming : Prop :=
  ∀ (c : Fin 7) (s : State), s.Running →
    (∀ b, (s.gch c.val).en = true → (s.gch c.val).latch = 0 → (s.gch c.val).stageTx = some b →
      ∃ t, exec (.stage c true) s = .next t ∧ (t.gch c.val).staged = some b ∧ (t.gch c.val).stageTx = none) ∧
    (∀ b, (s.gch c.val).stageTx = some b → ∃ t, exec (.stage c false) s = .next t ∧ (t.gch c.val).staged = (s.gch c.val).staged ∧
      (t.gch c.val).stageTx = none ∧ t.rd (R.GD_CHc_LINKERR c.val) = min (s.rd (R.GD_CHc_LINKERR c.val) + 1) (2 ^ 32 - 1)) ∧
    (∀ cseq b, (s.gch c.val).en = true → (s.gch c.val).latch = 0 → (s.gch c.val).stageTx = none →
      (s.gch c.val).commitTx = some (.accept, cseq) → (s.gch c.val).staged = some b → b.cseq % 256 = cseq % 256 →
      ∃ t, exec (.commit c true) s = .next t ∧ (t.gch c.val).staged = none ∧ (t.gch c.val).lastArmed = some b ∧
        (t.gch c.val).armed.length = (s.gch c.val).armed.length + 1 ∧ (t.gch c.val).commitTx = none ∧
        t.time.tb = max s.time.tb (min (s.gd.commitAt.getD 0 + 96) (s.time.tbLast + s.period - 1))) ∧
    (∀ cseq b, (s.gch c.val).en = true → (s.gch c.val).latch = 0 → (s.gch c.val).stageTx = none →
      (s.gch c.val).commitTx = some (.rearm, cseq) → (s.gch c.val).lastArmed = some b →
      ∃ t, exec (.commit c true) s = .next t ∧
        (t.gch c.val).lastArmed = some { b with cstart := b.cstart + (s.gch c.val).tc, cseq := cseq } ∧
        (t.gch c.val).armed.length = (s.gch c.val).armed.length + 1) ∧
    (∀ v cseq, (s.gch c.val).en = true → (s.gch c.val).latch = 0 → (s.gch c.val).stageTx = none →
      (s.gch c.val).commitTx = some (v, cseq) → ∃ t, exec (.commit c false) s = .next t ∧
      (t.gch c.val).staged = none ∧
      t.rd (R.GD_CHc_LINKERR c.val) = min (s.rd (R.GD_CHc_LINKERR c.val) + 1) (2 ^ 32 - 1) ∧
      (t.gch c.val).armed = (s.gch c.val).armed ++ [{ cseq := cseq, cstart := t.nextStart, edges := [edgeWord false 0], miss := true }]) ∧
    (∀ cseq, (s.gch c.val).stageTx = none → (s.gch c.val).commitTx = some (.rejectShoot, cseq) →
      ∃ t, exec (.commit c true) s = .next t ∧
        testB (t.gch c.val).latch 3 = true ∧ (t.gch c.val).armed = [] ∧ (t.gch c.val).staged = none) ∧
    (∀ cseq, (s.gch c.val).stageTx = none → (s.gch c.val).commitTx = some (.rejectSched, cseq) →
      ∃ t, exec (.commit c true) s = .next t ∧
        testB (t.gch c.val).latch 7 = true ∧ (t.gch c.val).armed = [] ∧ (t.gch c.val).staged = none)

/-- STATUS, TEL, DIAGRES and PERIODIC records from a PX-G -/
def Obligations.UplinkRecords : Prop :=
  ∀ (c : Fin 7) (s : State), s.Running →
    (∃ t, exec (.status c true) s = .next t ∧ t.rd (latchField c.val) = (s.gch c.val).latch % 256 ∧
      t.rd (R.GD_CHc_STAT_LOCK c.val) = b2n (s.gch c.val).lock ∧ (t.gch c.val).news = 0) ∧
    (c.val < 6 → (s.gch c.val).news &&& 3 ≠ 0 → ¬(s.sub = 3 ∧ c.val % 2 = 0) → ∃ t, exec (.status c true) s = .next t ∧
      (t.gch (partner c.val)).offTx = some ((s.gch (partner c.val)).offTx == some true)) ∧
    (∃ t, exec (.status c false) s = .next t ∧ t.rd (latchField c.val) = s.rd (latchField c.val) ∧
      t.rd (R.GD_CHc_LINKERR c.val) = min (s.rd (R.GD_CHc_LINKERR c.val) + 1) (2 ^ 32 - 1)) ∧
    (∀ pos neg temp, (∀ t0, (s.gch c.val).telAt = some t0 → t0 + s.telPeriod c.val ≤ s.time.tb) → ∃ t, exec (.periodic c pos neg temp) s = .next t ∧ (t.gch c.val).tel = (s.gch c.val).tel ++
      [(1, 0, bytesLE 2 pos.toNat ++ bytesLE 2 neg.toNat ++ bytesLE 2 temp.toNat ++ bytesLE 2 (wrapTo 16 (s.gch c.val).ltbErr))]) ∧
    (∀ kind cseq data rest, (s.gch c.val).tel = (kind, cseq, data) :: rest → kind ≠ 1 → 0 < s.qCredit (42 + c.val) →
      ∃ t, exec (.tel c true) s = .next t ∧ (t.gch c.val).tel = rest ∧
        (t.queue (42 + c.val)).items = (s.queue (42 + c.val)).items ++ [bytesLE 1 kind ++ bytesLE 1 c.val ++
          bytesLE 2 (extendCseq cseq (s.rd R.PW_CSEQ % 2 ^ 16)) ++ bytesLE 4 s.tickno ++ data]) ∧
    (∀ cseq data rest, (s.gch c.val).tel = (1, cseq, data) :: rest → ∃ t, exec (.tel c true) s = .next t ∧ (t.gch c.val).tel = rest ∧
      t.rd (R.GD_CHc_RAIL_POS c.val) = fieldLE data 0 2 ∧ t.rd (R.GD_CHc_RAIL_NEG c.val) = fieldLE data 2 2) ∧
    (∀ r rest, (s.gch c.val).tel = r :: rest → ∃ t, exec (.tel c false) s = .next t ∧ (t.gch c.val).tel = rest ∧ t.queues = s.queues ∧
      t.rd (R.GD_CHc_LINKERR c.val) = min (s.rd (R.GD_CHc_LINKERR c.val) + 1) (2 ^ 32 - 1)) ∧
    (∀ d mv, s.gd.diag = some d → c.val = diagSense d.step →
      (∃ t, exec (.diagres c mv .answered) s = .next t ∧ t.gd.diag = some { d with reading := some mv }) ∧
      (∃ t, exec (.diagres c mv .answerLost) s = .next t ∧ t.gd.diag = some { d with lost := true } ∧
        t.rd (R.GD_CHc_LINKERR c.val) = min (s.rd (R.GD_CHc_LINKERR c.val) + 1) (2 ^ 32 - 1)))

/-- ONCMD, VGEON, PERMIT and waiting turn-ons -/
def Obligations.GateLevelsAndPermits : Prop :=
  ∀ (c : Fin 7) (s : State), s.Running →
    (∃ t, exec (.oncmd c) s = .next t ∧ t.rd (R.GD_CHc_STAT_ONCMD c.val) = b2n (s.gch c.val).on) ∧
    (∀ level, ∃ t, exec (.vgeon c level) s = .next t ∧ t.rd (R.GD_CHc_STAT_VGEON c.val) = b2n level) ∧
    (c.val < 6 → s.rd (R.GD_CHc_STAT_VGEON c.val) = 0 → s.offDue (partner c.val) s.time.tb = false → ∃ t, exec (.vgeon c true) s = .next t ∧
      t.rd (R.GD_CHc_STAT_PERMIT (partner c.val)) = 0) ∧
    (c.val < 6 → s.on (R.GD_CHc_STAT_ONCMD (partner c.val)) = false → s.on (R.GD_CHc_STAT_VGEON (partner c.val)) = false →
      permitDue c.val s + 40 < s.time.tbLast + s.period → s.offDue c.val (max s.time.tb (permitDue c.val s)) = false →
      ∃ t, exec (.permit c) s = .next t ∧ t.on (R.GD_CHc_STAT_PERMIT c.val) = true) ∧
    (c.val = 6 → (s.gch 6).lock = true → ∃ t, exec (.permit c) s = .next t ∧ t.on (R.GD_CHc_STAT_PERMIT c.val) = true) ∧
    (∀ b rest w ws, (s.gch c.val).armed = b :: rest → b.edges.drop (s.gch c.val).acted = w :: ws →
      edgeValid w = true → s.edgeInstant c.val b w / 8 < s.time.tbLast + s.period →
      (edgeLevel w = false → ∃ t, exec (.armedEdgeActs c) s = .next t ∧ (t.gch c.val).on = false ∧
        (t.gch c.val).acted = (s.gch c.val).acted + 1 ∧ t.time.tb = max s.time.tb (s.edgeInstant c.val b w / 8)) ∧
      (edgeLevel w = true → (s.gch c.val).lock = true → (s.gch c.val).dropPulse = false → (s.gch c.val).latch = 0 →
        (s.gch c.val).en = true →
        (c.val = 6 ∨ s.on (R.GD_CHc_STAT_PERMIT c.val) = true ∧ (s.gch c.val).permitDown ≤ (s.gch c.val).permitUp ∧
          (s.gch c.val).permitUp + 40 ≤ s.edgeInstant c.val b w / 8) → ∃ t, exec (.armedEdgeActs c) s = .next t ∧
        (t.gch c.val).on = true ∧ (t.gch c.val).acted = (s.gch c.val).acted + 1)) ∧
    (∀ t0, (s.gch c.val).waitOn = some t0 → (s.gch c.val).ascWait = false → s.rd R.GD_DLYMAX < s.time.tb - t0 → ∃ t, exec (.turnOnDrop c) s = .next t ∧
      (t.gch c.val).waitOn = none ∧ (t.gch c.val).dropPulse = true ∧
      t.rd (R.GD_CHc_CNT_DROPPED c.val) = min (s.rd (R.GD_CHc_CNT_DROPPED c.val) + 1) 65535)

/-- A shoot-through attempt, DESAT, UVLO and OFFCMD turn the channels off and latch -/
def Obligations.GateProtection : Prop :=
  ∀ (s : State), s.Running →
    (∀ leg : Fin 3,
      (s.on (R.GD_CHc_STAT_ONCMD (2 * leg.val)) = true ∨ s.on (R.GD_CHc_STAT_VGEON (2 * leg.val)) = true) →
      (s.on (R.GD_CHc_STAT_ONCMD (2 * leg.val + 1)) = true ∨ s.on (R.GD_CHc_STAT_VGEON (2 * leg.val + 1)) = true) →
      ∃ t, exec (.shootAttempt leg) s = .next t ∧ (t.gch (2 * leg.val)).offTx = some true ∧
        (t.gch (2 * leg.val + 1)).offTx = some true ∧ t.regs = s.regs) ∧
    (∀ c : Fin 7, (R.GD_CHc_CFG1_DSEN c.val).get (s.gch c.val).cfg1 = 1 → (s.gch c.val).on = true →
      (s.gch c.val).onAt + 40 * (R.GD_CHc_CFG1_DSBLANK c.val).get (s.gch c.val).cfg1 + 16 ≤ s.time.tb → ∃ t, exec (.desat c) s = .next t ∧
      testB (t.gch c.val).latch 2 = true ∧ (t.gch c.val).on = false ∧ (t.gch c.val).soft = true ∧ (t.gch c.val).armed = []) ∧
    (∀ (c : Fin 7) negative, ∃ t, exec (.uvlo c negative true) s = .next t ∧
      testB (t.gch c.val).latch (if negative then 1 else 0) = true ∧ (t.gch c.val).on = false ∧ (t.gch c.val).armed = [] ∧
      testB (t.gch c.val).news (if negative then 1 else 0) = true) ∧
    (∀ (c : Fin 7) negative, ∃ t, exec (.uvlo c negative false) s = .next t ∧ (t.gch c.val).latch = (s.gch c.val).latch ∧
      testB (t.gch c.val).present (if negative then 1 else 0) = false) ∧
    (∀ c : Fin 7, ∃ t, exec (.offcmd c) s = .next t ∧ testB (t.gch c.val).latch 4 = true ∧ (t.gch c.val).on = false ∧
      (t.gch c.val).armed = [] ∧ (t.gch c.val).staged = none ∧ (t.gch c.val).offTx = none ∧
      ((s.gch c.val).offTx = some true → testB (t.gch c.val).latch 3 = true))

/-- BSWARN and the refresh pulse of a leg -/
def Obligations.BootstrapRefresh : Prop :=
  ∀ (leg : Fin 3) (s : State), s.Running →
    (∀ level, ∃ t, exec (.bswarn leg level) s = .next t ∧ (t.gleg leg.val).bswarn = level) ∧
    (∀ c : Fin 7, c.val = 2 * leg.val → ∃ t, exec (.status c true) s = .next t ∧
      t.rd (R.GD_CHc_STAT_BSWARN (2 * leg.val)) = b2n (s.gleg leg.val).bswarn) ∧
    (∀ (b : EdgeBlock) (r : RefreshFrames), r.leg = leg → s.on (R.GD_CHc_STAT_BSWARN (2 * leg.val)) = true → s.on R.GD_REFRESH_EN = true →
      s.sub ≠ 3 → (s.gleg leg.val).pulse = none → laneSpan s.gd.stageAt 500 s.time.tb = false →
      laneSpan s.gd.commitAt 76 s.time.tb = false →
      (s.commitTick = true → s.time.tb + 200 < s.time.tbLast + (s.taskSlot 3).1 + (s.taskSlot 3).2 ∨
        s.time.tbLast + (s.taskSlot 3).1 + (s.taskSlot 3).2 ≤ s.time.tb) →
      (s.gch (2 * leg.val)).armed.find? (fun b => refreshFits leg.val b.cstart s) = some b →
      ∃ t, exec (.refreshPulseInsert r) s = .next t ∧ (t.gleg leg.val).pulse = some b.cseq ∧ (t.gleg leg.val).pulseAt = some b.cstart ∧
        (t.gch (2 * leg.val)).armed.length = (s.gch (2 * leg.val)).armed.length ∧
        (r.highOk = true → r.lowOk = true → t.regs = s.regs) ∧
        (r.highOk = false → (t.gch (2 * leg.val)).armed = (s.gch (2 * leg.val)).armed ∧ t.rd (R.GD_CHc_LINKERR (2 * leg.val)) =
          min (s.rd (R.GD_CHc_LINKERR (2 * leg.val)) + 1) (2 ^ 32 - 1))) ∧
    (∀ cseq, (s.gleg leg.val).pulse = some cseq → ∃ t, exec (.refreshPulseComplete leg) s = .next t ∧ (t.gleg leg.val).pulse = none ∧
      t.gd.pulses = s.gd.pulses ++ [(leg.val, (s.gleg leg.val).out, s.tickno)] ∧
      t.rd R.GD_RFCNT = min (s.rd R.GD_RFCNT + 1) (2 ^ 32 - 1))

/-- GATE_EN falls and rises at a PX-G -/
def Obligations.GateEnableEdges : Prop :=
  ∀ (c : Fin 7) (s : State), s.Running →
    ((s.gch c.val).en = true → (s.gch c.val).drive = false → ∃ t, exec (.gateEnLow c) s = .next t ∧ (t.gch c.val).en = false ∧
      (t.gch c.val).on = false ∧ (t.gch c.val).armed = [] ∧ (t.gch c.val).staged = none ∧ (t.gch c.val).enFall = s.time.tb) ∧
    ((s.gch c.val).en = false → (s.gch c.val).drive = true → ∃ t, exec (.gateEnRise c) s = .next t ∧ (t.gch c.val).en = true ∧
      t.gd.diag = none ∧
      ((s.gch c.val).enFall + 4000 ≤ s.time.tb → (t.gch c.val).latch = presentCauses (s.gch c.val) ∧
        (t.gch c.val).news = presentCauses (s.gch c.val)) ∧
      (s.time.tb < (s.gch c.val).enFall + 4000 → (t.gch c.val).latch = (s.gch c.val).latch))

/-- Off-state diagnostics start, step and end -/
def Obligations.OffStateDiagnostics : Prop :=
  ∀ s : State, s.Running →
    (∀ load, s.stageIdle = true → 5 / 100 ≤ s.vdc → ∃ t, exec (.diagCtlGo load) s = .next t ∧
      t.gd.diag = some { since := s.time.tb } ∧ t.rd R.GD_DIAG_CTL_LOAD = b2n load ∧ t.rd R.GD_DIAG_RES_DONE = 0) ∧
    (∀ load, s.stageIdle = false ∨ s.vdc < 5 / 100 → ∃ t, exec (.diagCtlGo load) s = .next t ∧
      t.gd.diag = s.gd.diag ∧ t.rd R.GD_DIAG_RES_NOTRUN = 1 ∧ t.rd R.GD_DIAG_RES_DONE = 0) ∧
    (∀ d mv, s.gd.diag = some d → d.lost = false → d.reading = some mv → d.since + msCyc 2 ≤ s.time.tb → d.step < 9 →
      ∃ t, exec .offstateDiagStep s = .next t ∧ t.gd.diag =
        some { diagRead (s.on R.GD_DIAG_CTL_LOAD) mv d with reading := none, lost := false, since := s.time.tb, step := d.step + 1 }) ∧
    (∀ d, s.gd.diag = some d → d.lost = true → d.since + msCyc 2 ≤ s.time.tb → d.step < 9 →
      ∃ t, exec .offstateDiagStep s = .next t ∧ t.gd.diag =
        some { d with reading := none, lost := false, since := s.time.tb, step := d.step + 1 }) ∧
    (∀ d mv, s.gd.diag = some d → d.lost = false → d.reading = some mv → d.since + msCyc 2 ≤ s.time.tb → d.step = 10 →
      ∃ t, exec .offstateDiagStep s = .next t ∧ t.gd.diag = none ∧ t.rd R.GD_DIAG_RES_DONE = 1)

/-- ENABLE and DISABLE -/
def Obligations.EnableAndDisable : Prop :=
  ∀ s : State, s.Running →
    (s.drive = 1 → s.isStandby = false → s.enableRefusal = none → ∃ t, exec .enable s = .next t ∧ t.drive = 2 ∧ t.sub = s.sub ∧
      t.seq.enabling = true ∧ t.gd.preStart = some s.time.tb ∧ t.rd R.PW_CTL_RUN = 1 ∧ t.rd R.GD_STAT_PREDONE = 0) ∧
    (∀ r, s.drive = 1 → s.isStandby = false → s.enableRefusal = some r → ∃ t, exec .enable s = .next t ∧ t.drive = 1 ∧
      t.rd R.LN_MD_RES_RESULT = r) ∧
    (s.drive ≠ 1 ∨ s.isStandby = true → ∃ t, exec .enable s = .next t ∧ t.drive = s.drive ∧ t.rd R.LN_MD_RES_RESULT = 1) ∧
    (s.drive = 2 → s.isStandby = false → ∃ t, exec .disable s = .next t ∧ t.drive = 1 ∧ t.sub = s.sub ∧ t.rd R.LN_MD_RES_RESULT = 0 ∧
      t.rd R.PW_CTL_RUN = 0 ∧ (∀ c, c < 7 → (t.gch c).drive = false)) ∧
    (s.drive ≠ 2 ∨ s.isStandby = true → ∃ t, exec .disable s = .next t ∧ t.drive = s.drive ∧ t.rd R.LN_MD_RES_RESULT = 1)

/-- START and STOP -/
def Obligations.StartAndStop : Prop :=
  ∀ (mode : Fin 8) (s : State), s.Running →
    (1 ≤ mode.val → mode.val ≤ 4 → s.isStandby = false → s.drive = 2 → s.on R.GD_STAT_PREDONE = true →
      (mode.val ≤ 2 ∨ s.profileRefuses = false) → ∃ t, exec (.start mode) s = .next t ∧ t.drive = 3 ∧ t.sub = 0 ∧
      t.rd R.LN_MD_STAT_MODE = mode.val ∧ t.seq.starting = true ∧ t.seq.flyStart = true ∧ t.seq.resume = false) ∧
    (1 ≤ mode.val → mode.val ≤ 4 → s.isStandby = false → s.drive = 4 → s.sub = 0 → (mode.val ≤ 2 ∨ s.profileRefuses = false) →
      ∃ t, exec (.start mode) s = .next t ∧ t.drive = 3 ∧ t.rd R.LN_MD_STAT_MODE = mode.val ∧ t.seq.starting = true ∧
        t.seq.flyStart = false ∧ t.seq.resume = true) ∧
    (s.drive ≠ 2 → ¬(s.drive = 4 ∧ s.sub = 0) → ∃ t, exec (.start mode) s = .next t ∧ t.drive = s.drive ∧ t.rd R.LN_MD_RES_RESULT = 1) ∧
    (1 ≤ mode.val → mode.val ≤ 4 → s.isStandby = false → s.drive = 2 → s.on R.GD_STAT_PREDONE = false →
      (mode.val ≤ 2 ∨ s.profileRefuses = false) → ∃ t, exec (.start mode) s = .next t ∧ t.drive = 2 ∧ t.rd R.LN_MD_RES_RESULT = 6) ∧
    (s.drive = 3 → s.isStandby = false → ∃ t, exec .stop s = .next t ∧ t.drive = 4 ∧ t.sub = 0 ∧ t.rd R.LN_MD_BRK_PH = 2 ∧
      t.rd R.LN_MD_RES_RESULT = 0) ∧
    (s.drive ≠ 3 → s.drive ≠ 4 → ∃ t, exec .stop s = .next t ∧ t.drive = s.drive ∧ t.rd R.LN_MD_RES_RESULT = 1)

/-- EMERGENCY, MODE and RESET -/
def Obligations.EmergencyModeAndReset : Prop :=
  ∀ s : State, s.Running → s.isStandby = false →
    (∀ sub : Fin 8, s.drive = 3 → (sub.val = 1 ∨ sub.val = 4 ∨ (sub.val = 2 ∧ s.stageLost = false) ∨
        (sub.val = 3 ∧ s.lim.ascarm = true ∧ s.ascBlock = false)) →
      ∃ t, exec (.emergency sub) s = .next t ∧ t.drive = 4 ∧ t.sub = sub.val ∧ t.on R.LN_MD_STAT_DEMAND = true ∧
        t.rd R.LN_MD_STAT_CAUSE = 0x40 ∧ t.rd R.LN_MD_RES_RESULT = 0) ∧
    (s.drive = 3 → s.stageLost = true → ∃ t, exec (.emergency 2) s = .next t ∧ t.drive = 5 ∧ t.sub = 2) ∧
    (s.drive = 3 → s.degradedPath = true → ∃ t, exec (.emergency 5) s = .next t ∧ t.drive = 3 ∧ t.sub = 5 ∧
      t.rd R.LN_MD_RES_RESULT = 0) ∧
    (s.drive ≠ 3 → s.drive ≠ 4 → ∀ sub : Fin 8, ∃ t, exec (.emergency sub) s = .next t ∧ t.drive = s.drive ∧ t.sub = s.sub ∧
      t.rd R.LN_MD_RES_RESULT = 1) ∧
    (∀ mode : Fin 8, 1 ≤ mode.val → mode.val ≤ 4 → s.drive = 2 → s.sub = 0 → ∃ t, exec (.mode mode) s = .next t ∧
      t.rd R.LN_MD_STAT_MODE = mode.val ∧ t.drive = 2 ∧ t.rd R.LN_MD_RES_RESULT = 0) ∧
    (∀ mode : Fin 8, 1 ≤ mode.val → mode.val ≤ 4 → s.drive = 2 → s.sub ≠ 0 → ∃ t, exec (.mode mode) s = .next t ∧
      t.rd R.LN_MD_STAT_PREV = mode.val ∧ t.rd R.LN_MD_STAT_MODE = s.rd R.LN_MD_STAT_MODE ∧ t.drive = 2 ∧ t.rd R.LN_MD_RES_RESULT = 0) ∧
    (∀ mode : Fin 8, s.drive = 3 → s.sub = 5 → s.fbReturnOk = false → 1 ≤ mode.val → mode.val ≤ 4 → ∃ t, exec (.mode mode) s = .next t ∧
      t.sub = 5 ∧ t.drive = 3 ∧ t.rd R.LN_MD_RES_RESULT = 4) ∧
    (∀ mode : Fin 8, 1 ≤ mode.val → mode.val ≤ 4 → s.drive = 3 → s.sub = 0 → s.rd R.LN_MD_STAT_MODE ≠ 5 → s.olp.start = 0 ∨ 4 ≤ s.olp.start →
      s.profileRefuses = false → s.olp.compl = false → ∃ t, exec (.mode mode) s = .next t ∧
      t.rd R.LN_MD_STAT_MODE = mode.val ∧ t.drive = 3 ∧ t.rd R.LN_MD_RES_RESULT = 0) ∧
    (s.drive = 1 ∨ s.drive = 5 → s.sub ≠ 3 → s.causePresent = false → ∃ t, exec .reset s = .next t ∧ t.drive = 1 ∧ t.sub = 0 ∧
      t.rd R.LN_MD_FLT = 0 ∧ t.rd R.LN_MD_RES_RESULT = 0) ∧
    (s.drive = 1 ∨ s.drive = 5 → s.sub ≠ 3 → s.causePresent = true → ∃ t, exec .reset s = .next t ∧ t.drive = s.drive ∧
      t.rd R.LN_MD_FLT = s.rd R.LN_MD_FLT ∧ t.rd R.LN_MD_RES_RESULT = 2)

/-- The steps of the brake sequence -/
def Obligations.BrakeSequenceSteps : Prop :=
  ∀ s : State, s.Running →
    (8 ≤ s.seq.stillRun → s.drive = 4 → s.sub ≤ 2 → s.rd R.LN_MD_BRK_PH = 2 → s.on R.LN_MD_CFG_BRAKE = true →
      ∃ t, exec .standstillReached s = .next t ∧ t.rd R.LN_MD_BRK_PH = 3 ∧ t.rd R.LN_MD_BRK_SETCMD = 1 ∧ t.drive = 4) ∧
    (8 ≤ s.seq.stillRun → s.drive = 4 → s.sub ≤ 2 → s.rd R.LN_MD_BRK_PH = 2 → s.on R.LN_MD_CFG_BRAKE = false →
      ∃ t, exec .standstillReached s = .next t ∧
        (s.sub = 0 ∨ s.on R.LN_MD_STAT_DEMAND = true → t.drive = 2 ∧ t.sub = 0) ∧
        (s.sub ≠ 0 → s.on R.LN_MD_STAT_DEMAND = false → t.drive = 5 ∧ t.sub = s.sub)) ∧
    (8 ≤ s.seq.stillRun → s.drive = 4 → s.sub = 4 → s.on R.LN_MD_STAT_DEMAND = true →
      ∃ t, exec .standstillReached s = .next t ∧ t.drive = 2 ∧ t.sub = 0) ∧
    (s.drive = 4 → s.sub ≤ 2 → s.rd R.LN_MD_BRK_PH = 3 → s.setConfirmed = true → ∃ t, exec .brakeSetConfirmed s = .next t ∧
      t.rd R.LN_MD_BRK_PH = 4 ∧ t.seq.taperAt = some s.time.tb ∧ t.seq.slipRef = s.pfb ∧ t.seq.slipWatch = true) ∧
    (∀ t0, s.seq.taperAt = some t0 → s.drive = 4 → s.sub ≤ 2 → s.rd R.LN_MD_BRK_PH = 4 →
      t0 + 2 * msCyc s.brkTaperMs ≤ s.time.tb → ∃ t, exec .taperComplete s = .next t ∧
        (s.sub = 0 ∨ s.on R.LN_MD_STAT_DEMAND = true → t.drive = 2 ∧ t.sub = 0) ∧
        (s.sub ≠ 0 → s.on R.LN_MD_STAT_DEMAND = false → t.drive = 5 ∧ t.sub = s.sub)) ∧
    (s.drive = 3 → s.rd R.LN_MD_BRK_PH = 1 → s.seq.release = true →
      (s.on R.LN_MD_CFG_BRKFB = true ∧ 8 ≤ s.seq.brkLow ∨
        s.on R.LN_MD_CFG_BRKFB = false ∧ s.seq.releaseAt + msCyc (s.rd R.LN_MD_BRKT_BRKREL) ≤ s.time.tb) →
      ∃ t, exec .brakeReleased s = .next t ∧ t.rd R.LN_MD_BRK_PH = 0) ∧
    (s.on R.LN_MD_CFG_BRAKE = true → s.on R.LN_MD_CFG_BRKFB = true → s.seq.setWatch = true →
      s.seq.setAt + msCyc (s.brkSetMs + 500) ≤ s.time.tb → s.on R.LN_MD_BRK_FB = false → s.hasCause 15 = false →
      ∃ t, exec .brakeFail s = .next t ∧ t.seq.raised = s.seq.raised ++ [(15, 0)] ∧ t.seq.setWatch = false) ∧
    (s.on R.LN_MD_CFG_BRAKE = true → s.on R.LN_MD_CFG_BRKFB = true → s.seq.setWatch = false → s.drive = 3 → s.rd R.LN_MD_BRK_PH = 1 →
      s.seq.release = true → s.on R.LN_MD_BRK_FB = true → s.seq.releaseAt + msCyc (s.rd R.LN_MD_BRKT_BRKREL + 500) ≤ s.time.tb →
      s.hasCause 15 = false → ∃ t, exec .brakeFail s = .next t ∧ t.seq.raised = s.seq.raised ++ [(15, 0)] ∧ t.drive = 2)

/-- ERTMO, ASC exit, DC_UV, DC_OV, CHOPPER_FAULT, OVERCURRENT and the precharge -/
def Obligations.DriveFaultSteps : Prop :=
  ∀ s : State, s.Running →
    (∀ t0, s.seq.entryAt = some t0 → s.seq.stillRun < 8 → t0 + msCyc (s.rd R.LN_MD_ERTMO) ≤ s.time.tb → s.hasCause 14 = false →
      ∃ t, exec .ertmo s = .next t ∧ t.seq.raised = s.seq.raised ++ [(14, 0)] ∧ t.seq.entryAt = none) ∧
    (s.sub = 3 → s.drive = 4 ∨ s.drive = 5 → 8 ≤ s.seq.ascRun → ∃ t, exec .ascExit s = .next t ∧ t.sub = 4 ∧ t.drive = s.drive ∧
      (∀ l : Fin 3, (t.gch (2 * l.val + 1)).on = false ∧ (t.gch (2 * l.val + 1)).armed = [])) ∧
    (s.undervoltage [3, 4] = true → s.hasCause 8 = false → ∃ t, exec .dcUv s = .next t ∧ t.seq.raised = s.seq.raised ++ [(8, 0)]) ∧
    (s.drive = 2 → s.undervoltage [2] = true → ∃ t, exec .dcUv s = .next t ∧ t.drive = 1) ∧
    (∀ bits : List Bool, s.sb.effAt = none → ((s.rd R.SB_EFF_VOV * 65536 : Nat) : Int) < s.fastVdc bits → s.seq.dcovAct = none → s.hasCause 7 = false →
      ∃ t, exec (.dcOv bits) s = .next t ∧ (7, 0) ∈ t.seq.raised ∧ t.seq.dcovAct = some (s.lim.ascarm && !s.ascBlock && s.drive != 2) ∧
        ((s.lim.ascarm && !s.ascBlock && s.drive != 2) = false → t.seq.phaseOff = true ∧ ∀ c, c < 6 → (t.gch c).drive = false) ∧
        ((s.lim.ascarm && !s.ascBlock && s.drive != 2) = true → ∀ l : Fin 3, (t.gch (2 * l.val)).offTx.isSome = true ∧ (t.gch (2 * l.val + 1)).armed = []) ∧
        (s.on R.LN_MD_CFG_BRAKE = true → t.rd R.LN_MD_BRK_SETCMD = 1)) ∧
    (s.spanFault = true → s.hasCause 9 = false → ∃ t, exec .chopperFault s = .next t ∧ t.seq.raised = s.seq.raised ++ [(9, 3)] ∧
      t.lim.regen = 0 ∧ t.rd R.LN_MD_REGEN = 0) ∧
    (∀ (ch : Fin 12) (bits : List Bool), s.sb.effAt = none → s.sdRuns ch.val = true →
      (s.rd (R.SD_CHn_CFG_ROLE ch.val) = 1 ∨ s.rd (R.SD_CHn_CFG_ROLE ch.val) = 2 ∨ s.rd (R.SD_CHn_CFG_ROLE ch.val) = 3) →
      s.rd R.SB_EFF_IPH * 65536 < (s.fastPath ch.val bits).natAbs → s.hasCause 11 = false → ∃ t, exec (.overcurrent ch bits) s = .next t ∧
      (11, s.rd (R.SD_CHn_CFG_ROLE ch.val)) ∈ t.seq.raised ∧
      ∀ c, c < 7 → (t.gch c).offTx = some ((s.gch c).offTx == some true)) ∧
    (∀ (ch : Fin 12) (bits : List Bool), s.sb.effAt = none → s.sdRuns ch.val = true →
      s.rd (R.SD_CHn_CFG_ROLE ch.val) = 8 → s.rd R.SB_EFF_ICH * 65536 < (s.fastPath ch.val bits).natAbs →
      ∃ t, exec (.overcurrent ch bits) s = .next t ∧ ∀ c, c < 7 → (t.gch c).offTx = some ((s.gch c).offTx == some true)) ∧
    (s.drive = 2 → s.on R.GD_STAT_PREDONE = false → (∀ l : Fin 3, 4096 ≤ s.rd (R.GD_CHc_RAIL_POS (2 * l.val))) →
      ∃ t, exec .prechargeDone s = .next t ∧ t.rd R.GD_STAT_PREDONE = 1 ∧ t.gd.preStart = none ∧ t.seq.enabling = false ∧
        (s.seq.enabling = true → t.seq.done = s.seq.done ++ [(1, 0)])) ∧
    (∀ t0, s.gd.preStart = some t0 → s.drive = 2 → s.on R.GD_STAT_PREDONE = false → t0 + msCyc 100 ≤ s.time.tb →
      ∃ t, exec .prechargeTimeout s = .next t ∧ t.drive = 1 ∧ t.rd R.PW_CTL_RUN = 0 ∧ t.gd.preStart = none ∧
        (s.seq.enabling = true → t.seq.done = s.seq.done ++ [(1, 4)]))

/-- Feedback is enabled, corrected and returned to the primary; sources become VALID -/
def Obligations.FeedbackControl : Prop :=
  ∀ s : State, s.Running →
    (∃ t, exec (.fbCtlEn false) s = .next t ∧ t.rd R.FB_CTL_EN = 0 ∧ t.fb.emuA = false ∧ t.fb.emuB = false ∧ t.fb.emuZ = false) ∧
    (s.on R.FB_CTL_EN = false → s.fbRefused = true → ∃ t, exec (.fbCtlEn true) s = .next t ∧ t.rd R.FB_CTL_EN = 0 ∧
      t.rd R.FB_STAT_CFGERR = 1) ∧
    (s.on R.FB_CTL_EN = false → s.fbRefused = false → ∃ t, exec (.fbCtlEn true) s = .next t ∧ t.rd R.FB_CTL_EN = 1 ∧
      t.fb.lost = false ∧ t.fb.hadLoss = false ∧ t.fb.hofs = 0 ∧
      ∀ k : Fin 5, (t.fsrc (k.val + 1)).valid = !s.fbCond (k.val + 1)) ∧
    (s.on R.FB_CTL_EN = true → ∃ t, exec (.fbCtlEn true) s = .next t ∧ t = s.cleared) ∧
    (∃ t, exec .fbCtlCorr s = .next t ∧ t.fb.abz.pendCmd = true ∧ t.regs = s.regs) ∧
    (s.rd R.FB_STAT_WHY = 3 → s.fbReturnOk = true → ∃ t, exec .fbCtlUsepri s = .next t ∧ t.fb.change = some 0 ∧ t.regs = s.regs) ∧
    (s.rd R.FB_STAT_WHY ≠ 3 ∨ s.fbReturnOk = false → ∃ t, exec .fbCtlUsepri s = .next t ∧ t.rd R.FB_STAT_CFGERR = 1 ∧ t.fb = s.fb) ∧
    (∀ source : Fin 5, (s.fsrc (source.val + 1)).valid = false → s.fbCond (source.val + 1) = false →
      64 ≤ (s.fsrc (source.val + 1)).calm → s.on R.FB_CTL_EN = true → ∃ t, exec (.sourceValid source) s = .next t ∧
      (t.fsrc (source.val + 1)).valid = true ∧ t.regs = s.regs)

/-- The incremental encoder counts, latches its index and loses VALID on a line fault -/
def Obligations.IncrementalEncoder : Prop :=
  ∀ s : State, s.Running →
    (∀ a b : Bool, s.on R.FB_CTL_EN = true → s.edgeLate = false → (quadrant a b - quadrant s.fb.abz.a s.fb.abz.b) % 4 = 1 →
      ∃ t, exec (.encoderEdge a b) s = .next t ∧
        (t.fsrc 1).posx = signedOf 48 (wrapTo 48 (if s.on R.FB_ABZ_CFG_SWAP then (s.fsrc 1).posx - 1 else (s.fsrc 1).posx + 1)) ∧
        t.rd R.FB_CNT = wrapTo 32 (t.fsrc 1).posx ∧ t.fb.abz.a = a ∧ t.fb.abz.b = b) ∧
    (∀ a b : Bool, s.on R.FB_CTL_EN = true → s.edgeLate = false → (quadrant a b - quadrant s.fb.abz.a s.fb.abz.b) % 4 = 3 →
      ∃ t, exec (.encoderEdge a b) s = .next t ∧
        (t.fsrc 1).posx = signedOf 48 (wrapTo 48 (if s.on R.FB_ABZ_CFG_SWAP then (s.fsrc 1).posx + 1 else (s.fsrc 1).posx - 1)) ∧
        t.rd R.FB_CNT = wrapTo 32 (t.fsrc 1).posx ∧ t.fb.abz.a = a ∧ t.fb.abz.b = b) ∧
    (∀ a b : Bool, s.on R.FB_CTL_EN = true → s.edgeLate = false → (quadrant a b - quadrant s.fb.abz.a s.fb.abz.b) % 4 = 2 →
      ∃ t, exec (.encoderEdge a b) s = .next t ∧ (t.fsrc 1).posx = (s.fsrc 1).posx ∧ t.rd R.FB_ABZ_STAT_ILL = 1 ∧
        t.rd R.FB_ABZ_ILLCNT = min (s.rd R.FB_ABZ_ILLCNT + 1) (2 ^ (R.FB_ABZ_ILLCNT).width - 1) ∧ t.fb.abz.a = a ∧ t.fb.abz.b = b) ∧
    (∀ a b : Bool, s.edgeLate = true → ∃ t, exec (.encoderEdge a b) s = .next t ∧ t.regs = s.regs ∧
      t.fb.abz = { s.fb.abz with late := s.fb.abz.late ++ [.count a b s.time.tb] }) ∧
    (s.fb.abz.z = false → s.on R.FB_CTL_EN = true → s.edgeLate = false → s.fbIdx ≠ 0 → s.fb.abz.faultZ = false →
      (s.on R.FB_ABZ_CFG_ZQUAL = false ∨ (s.fb.abz.a = true ∧ s.fb.abz.b = true)) →
      ∃ t, exec (.indexLatch true) s = .next t ∧ t.rd R.FB_IDXLAT = wrapTo 32 (s.fsrc s.fbIdx).posx ∧
        t.rd R.FB_IDXPREV = s.rd R.FB_IDXLAT ∧ t.rd R.FB_IDXCNT = min (s.rd R.FB_IDXCNT + 1) (2 ^ (R.FB_IDXCNT).width - 1) ∧
        ((s.fsrc s.fbIdx).valid = true → (t.fsrc s.fbIdx).aligned = true) ∧ t.fb.abz.idxSeen = true) ∧
    (s.edgeLate = false → ∃ t, exec (.indexLatch false) s = .next t ∧ t.regs = s.regs ∧ t.fb.abz = { s.fb.abz with z := false }) ∧
    (s.on R.FB_CTL_EN = true → s.fbIdx ≠ 0 → s.fb.abz.idxSeen = true →
      s.cprOf s.fbIdx + s.rd R.FB_IDXTOL < (diff48 (s.fsrc s.fbIdx).posx s.fb.abz.idxFrom).natAbs → ∃ t, exec .indexMiss s = .next t ∧
      t.rd R.FB_IDX_STAT_MISS = 1 ∧ (40, 0x030C) ∈ t.te.evs ∧ t.fb.abz.idxFrom = (s.fsrc s.fbIdx).posx) ∧
    (∀ present, ∃ t, exec (.lineFault 0 present) s = .next t ∧ t.rd R.FB_ABZ_STAT_ABFAULT = b2n (present || s.fb.abz.faultB) ∧
      t.fb.abz.faultA = present ∧ (present = true → (t.fsrc 1).valid = false)) ∧
    (∀ present, ∃ t, exec (.lineFault 1 present) s = .next t ∧ t.rd R.FB_ABZ_STAT_ABFAULT = b2n (s.fb.abz.faultA || present) ∧
      t.fb.abz.faultB = present ∧ (present = true → (t.fsrc 1).valid = false)) ∧
    (∀ present, ∃ t, exec (.lineFault 2 present) s = .next t ∧ t.rd R.FB_ABZ_STAT_ZFAULT = b2n present ∧ t.fb.abz.faultZ = present)

/-- Sin/cos, resolver and SSI samples -/
def Obligations.SampledFeedbackSources : Prop :=
  ∀ s : State, s.Running → s.on R.FB_CTL_EN = true →
    (∀ sin cos : BitVec 16, s.fb.gridFrom + (s.time.tb - s.fb.gridFrom + 399) / 400 * 400 < s.time.tbLast + s.period →
      ∃ t, exec (.sincosSample sin cos) s = .next t ∧
        t.time.tb = s.fb.gridFrom + (s.time.tb - s.fb.gridFrom + 399) / 400 * 400 ∧
        t.rd R.FB_SC_STAT_AMP =
          sampleAmp (grid ((ofFix 15 sin.toInt - s.rdQ R.FB_SC_OFS_SIN 15) * s.rdU R.FB_SC_GAIN_SIN 15))
            (grid ((ofFix 15 cos.toInt - s.rdQ R.FB_SC_OFS_COS 15) * s.rdU R.FB_SC_GAIN_COS 15))) ∧
    (∀ up, ∃ t, exec (.quarterPeriodCount up) s = .next t ∧ t.fb.qc = (if up then s.fb.qc + 1 else s.fb.qc - 1) ∧ t.regs = s.regs) ∧
    (∀ (sin cos : BitVec 16) (ok : Bool), (s.resolverPeak s.time.tb).1 < s.time.tbLast + s.period → (s.resolverPeak s.time.tb).2 = false →
      ∃ t, exec (.resolverSample sin cos ok) s = .next t ∧ t.time.tb = max s.time.tb (s.resolverPeak s.time.tb).1 ∧
        t.rd R.FB_RS_STAT_EXCFAULT = b2n (!ok) ∧ t.rd R.FB_RS_STAT_AMP = sampleAmp (ofFix 15 sin.toInt) (ofFix 15 cos.toInt) ∧
        (t.fsrc 3).raw = ((toFix 16 (angleTurn (ofFix 15 cos.toInt) (ofFix 15 sin.toInt))) % 65536).toNat) ∧
    (∀ dat : List Bool, dat.length = s.rd R.FB_SSI_CFG_BITS → s.ssiLength + 40 ≤ s.rd R.FB_SSI_LEAD → s.on R.FB_SSI_CFG_ERRBIT = false →
      s.on R.FB_SSI_CFG_PARITY = false → (s.fsrc 4).first = false → ∃ t, exec (.ssiFrame (true :: dat)) s = .next t ∧
      (t.fsrc 4).raw = (if s.on R.FB_SSI_CFG_GRAY then grayDecode dat.length (ofBitsMSB dat) 0 else ofBitsMSB dat) ∧
      (t.fsrc 4).posx = signedOf 48 (wrapTo 48 ((t.fsrc 4).raw : Int)) ∧ (t.fsrc 4).first = true ∧ (t.fsrc 4).badRun = 0) ∧
    (∀ bits : List Bool, s.ssiLength + 40 ≤ s.rd R.FB_SSI_LEAD → ∃ t, exec (.ssiFrame (false :: bits)) s = .next t ∧
      t.rd R.FB_SSI_STAT_FRAMEERR = 1 ∧ t.rd R.FB_SSI_ERRCNT = min (s.rd R.FB_SSI_ERRCNT + 1) (2 ^ (R.FB_SSI_ERRCNT).width - 1) ∧
      (t.fsrc 4).posx = (s.fsrc 4).posx) ∧
    (∀ bits : List Bool, s.rd R.FB_SSI_LEAD < s.ssiLength + 40 → ∃ t, exec (.ssiFrame bits) s = .next t ∧
      t.rd R.FB_SSI_STAT_LATE = 1 ∧ t.rd R.FB_SSI_ERRCNT = min (s.rd R.FB_SSI_ERRCNT + 1) (2 ^ (R.FB_SSI_ERRCNT).width - 1))

/-- Hall transitions, their timeout, and the encoder emulation -/
def Obligations.HallsAndEmulation : Prop :=
  ∀ s : State, s.Running → s.on R.FB_CTL_EN = true →
    (∀ code : Fin 8, s.hallSector code.val < 6 → s.fb.hall.seen = true →
      (s.hallSector code.val + 6 - s.fb.hall.sector) % 6 = 1 → ∃ t, exec (.hallTransition code) s = .next t ∧
      (t.fsrc 5).posx = signedOf 48 (wrapTo 48 ((s.fsrc 5).posx + 1)) ∧ t.fb.hall.sector = s.hallSector code.val ∧ t.rd R.FB_HALL_STAT_STATE = code.val) ∧
    (∀ code : Fin 8, s.hallSector code.val < 6 → s.fb.hall.seen = true →
      (s.hallSector code.val + 6 - s.fb.hall.sector) % 6 = 5 → ∃ t, exec (.hallTransition code) s = .next t ∧
      (t.fsrc 5).posx = signedOf 48 (wrapTo 48 ((s.fsrc 5).posx - 1)) ∧ t.fb.hall.sector = s.hallSector code.val ∧ t.rd R.FB_HALL_STAT_STATE = code.val) ∧
    (∀ code : Fin 8, s.hallSector code.val < 6 → s.fb.hall.seen = true →
      2 ≤ (s.hallSector code.val + 6 - s.fb.hall.sector) % 6 → (s.hallSector code.val + 6 - s.fb.hall.sector) % 6 ≤ 4 →
      ∃ t, exec (.hallTransition code) s = .next t ∧ t.rd R.FB_HALL_STAT_SKIP = 1 ∧ t.fb.hall.sector = s.hallSector code.val) ∧
    (∀ code : Fin 8, 6 ≤ s.hallSector code.val → ∃ t, exec (.hallTransition code) s = .next t ∧
      t.rd R.FB_HALL_STAT_BADSTATE = 1 ∧ t.fb.hall.invalid = true ∧ (t.fsrc 5).posx = (s.fsrc 5).posx) ∧
    (∀ code : Fin 8, s.hallSector code.val < 6 → s.fb.hall.seen = false → ∃ t, exec (.hallTransition code) s = .next t ∧
      t.fb.hall.seen = true ∧ t.fb.hall.sector = s.hallSector code.val ∧ (t.fsrc 5).posx = (s.hallSector code.val : Nat)) ∧
    (s.fb.hall.stopped = false → s.fb.hall.tEdge + msCyc (s.rd R.FB_HALL_CFG_TMO) ≤ s.time.tb → ∃ t, exec .hallTimeout s = .next t ∧
      t.fb.hall.stopped = true ∧ t.fb.hall.gap = none ∧ t.regs = s.regs) ∧
    (s.on R.FB_EMU_CFG_EN = true → s.fb.emuOut < s.fb.emuTarget → max s.time.tb (max (s.fb.emuAt + 40) s.emuEdgeAt) < s.time.tbLast + s.period →
      ∃ t, exec .encoderEmulationEdge s = .next t ∧ t.fb.emuOut = s.fb.emuOut + 1 ∧ t.time.tb = max s.time.tb (max (s.fb.emuAt + 40) s.emuEdgeAt) ∧
        t.fb.emuAt = t.time.tb) ∧
    (s.on R.FB_EMU_CFG_EN = true → s.fb.emuTarget < s.fb.emuOut → max s.time.tb (max (s.fb.emuAt + 40) s.emuEdgeAt) < s.time.tbLast + s.period →
      ∃ t, exec .encoderEmulationEdge s = .next t ∧ t.fb.emuOut = s.fb.emuOut - 1 ∧ t.time.tb = max s.time.tb (max (s.fb.emuAt + 40) s.emuEdgeAt))

/-- Ports of the Beysta Link, delay cells, the staged management cell, held IDs -/
def Obligations.LinkPortsAndCells : Prop :=
  ∀ (p : Fin 4) (s : State), s.Running →
    (∀ nbr, s.on R.BL_CFG_EN = true → s.portUp p = false → ∃ t, exec (.linkUp p nbr) s = .next t ∧ t.portUp p = true ∧
      t.rd (R.BL_Pp_STAT_LOS p) = 0 ∧ t.rd (R.BL_Pp_STAT_NBR p) = nbr.toNat ∧ t.bit R.BL_STAT_UP p = true ∧
      (t.queue (txQueue p)).off = false ∧ (t.queue (rxQueue p)).off = false ∧
      (41, 0x0401) ∈ t.te.evs ∧ (s.isRoot = false → t.te.evs = s.te.evs ++ [(41, 0x0401)]) ∧
      (s.isRoot = true → t.bl.todo = s.bl.todo ++ [(s.uid, p.val)])) ∧
    (∀ nbr, s.on R.BL_CFG_EN = false ∨ s.portUp p = true → exec (.linkUp p nbr) s = .next s.cleared) ∧
    (∀ los, s.portUp p = true → ∃ t, exec (.linkDown p los) s = .next t ∧ t.portUp p = false ∧
      t.rd (R.BL_Pp_STAT_LOS p) = b2n los ∧ t.rd (R.BL_Pp_STAT_NBR p) = 0 ∧ t.bit R.BL_STAT_UP p = false ∧
      (t.queue (txQueue p)).items = [] ∧ (41, 0x0402) ∈ t.te.evs ∧
      (s.isRoot = false → t.te.evs = s.te.evs ++ [(41, 0x0402)] ∧ t.bl.idHolds = s.bl.idHolds)) ∧
    (∀ los, s.portUp p = false → ∃ t, exec (.linkDown p los) s = .next t ∧ t.rd (R.BL_Pp_STAT_LOS p) = b2n los ∧ t.te = s.te ∧
      t.bl = s.bl) ∧
    (∀ cell : TimedCell, s.Accepts p cell.bytes 4 → s.bl.winOpen = false → ∃ t, exec (.delayReq p cell) s = .next t ∧
      t.out.cells.length = 1 ∧
      t.rd (R.BL_Pp_RXCELLS p) = min (s.rd (R.BL_Pp_RXCELLS p) + 1) (2 ^ (R.BL_Pp_RXCELLS p).width - 1)) ∧
    (∀ cell : TimedCell, s.Accepts p cell.bytes 4 → s.bl.winOpen = true → ∃ t, exec (.delayReq p cell) s = .next t ∧
      t.out.cells = [] ∧ t.bl.held.length = s.bl.held.length + 1) ∧
    (∀ (cell : TimedCell) (stay t0 : Nat), s.Accepts p cell.bytes 5 → smapGet (fun _ => none) s.bl.reqAt p.val = some t0 →
      ∃ t, exec (.delayResp p cell stay) s = .next t ∧
        t.rd (R.BL_Pp_DELAY p) = min ((8 * s.time.tb + cell.frac.val - t0 - stay + 1) / 2) 0xFFFF) ∧
    (∀ cell : TimedCell, s.portUp p = true → fieldLE cell.bytes 30 2 ≠ crc16 (padTo 30 cell.bytes) →
      ∃ t, exec (.delayReq p cell) s = .next t ∧ t.out.cells = [] ∧
        t.rd (R.BL_Pp_CRCERR p) = min (s.rd (R.BL_Pp_CRCERR p) + 1) (2 ^ (R.BL_Pp_CRCERR p).width - 1)) ∧
    (∀ (cell : TimedCell) (stay : Nat), s.portUp p = true → fieldLE cell.bytes 30 2 ≠ crc16 (padTo 30 cell.bytes) →
      ∃ t, exec (.delayResp p cell stay) s = .next t ∧ t.rd (R.BL_Pp_DELAY p) = s.rd (R.BL_Pp_DELAY p) ∧ t.bl = s.bl ∧
        t.rd (R.BL_Pp_CRCERR p) = min (s.rd (R.BL_Pp_CRCERR p) + 1) (2 ^ (R.BL_Pp_CRCERR p).width - 1)) ∧
    (∀ (cell : TimedCell) (stay : Nat), s.portUp p = false → exec (.delayReq p cell) s = .next s.cleared ∧
      exec (.delayResp p cell stay) s = .next s.cleared) ∧
    (s.on (R.BL_Pp_MTX_BUSY p) = false → s.bl.winOpen = false → s.portOpen p = true → s.uid ≠ 0 →
      (cellType (bytesLE 4 (s.word (R.BL_Pp_MTX_Ww p 0).addr).toNat) = 7 ∨ cellType (bytesLE 4 (s.word (R.BL_Pp_MTX_Ww p 0).addr).toNat) = 9) →
      ∃ t, exec (.blMtxGo p) s = .next t ∧ t.out.cells.length = 1 ∧ t.rd (R.BL_Pp_MTX_BUSY p) = 0) ∧
    (s.on (R.BL_Pp_MTX_BUSY p) = false → s.bl.winOpen = true ∨ s.portUp p = false → ∃ t, exec (.blMtxGo p) s = .next t ∧
      t.out.cells = [] ∧ t.rd (R.BL_Pp_MTX_BUSY p) = 1) ∧
    (s.on (R.BL_Pp_MTX_BUSY p) = true → exec (.blMtxGo p) s = .next s.cleared) ∧
    exec .idHoldExpiry s = .next { s.cleared with
      bl.idHolds := s.bl.idHolds.filter (fun h => s.time.tb < h.2.2) }

/-- Synchronisation of the link: SYNC, holdover, loss of lock -/
def Obligations.LinkSynchronisation : Prop :=
  ∀ s : State, s.Running →
    (∀ (p : Fin 4) (cell : TimedCell) (tb period corr : Nat) (root : SyncRoot) (err : Int), s.Accepts p cell.bytes 3 →
      root.serial.toNat ≠ s.serial → s.bl.syncTb ≠ some (tb, root.serial.toNat) →
      err = ((8 * s.time.tb + cell.frac.val : Nat) : Int) - (8 * tb + (corr + s.rd (R.BL_Pp_DELAY p)) : Nat) →
      (s.isRoot = true → s.rd R.BL_CFG_ROOT = 1 → root.standby = false → ∃ t, exec (.sync p cell tb period corr root) s = .next t ∧
        (41, 0x0405) ∈ t.te.evs ∧ t.isRoot = decide (s.serial ≤ root.serial.toNat)) ∧
      (s.isRoot = false → period ≠ s.period → ∃ t, exec (.sync p cell tb period corr root) s = .next t ∧
        t.rd R.BL_SYNC_STATE = 3 ∧ t.rd R.BL_SYNC_HOPS = (cellHops cell.bytes + 1) % 32 ∧ t.bl.syncAge = 0 ∧ t.time = s.time) ∧
      (s.isRoot = false → period = s.period → s.linkLocked = false → -6 ≤ err → err ≤ 6 → 15 ≤ s.bl.syncGood →
        ∃ t, exec (.sync p cell tb period corr root) s = .next t ∧ t.linkLocked = true ∧ t.te.evs = s.te.evs ++ [(41, 0x0403)]) ∧
      (s.isRoot = false → period = s.period → s.linkLocked = true → err < -64 ∨ 64 < err → 2 ≤ s.bl.syncBad →
        ∃ t, exec (.sync p cell tb period corr root) s = .next t ∧ t.rd R.BL_SYNC_STATE = 1 ∧
          t.te.evs = s.te.evs ++ [(41, 0x0404)]) ∧
      (s.isRoot = false → period = s.period → 3200 < err → s.drive ≤ 1 →
        ∃ t, exec (.sync p cell tb period corr root) s = .next t ∧ t.time.stepTo = some (-((2 * err + 8) / 16))) ∧
      (s.isRoot = false → period = s.period → 3200 < err → 2 ≤ s.drive → s.drive ≤ 4 →
        ∃ t, exec (.sync p cell tb period corr root) s = .next t ∧ t.rdI R.TB_TRIM = -429497 ∧ t.time = s.time)) ∧
    (∀ (p : Fin 4) (cell : TimedCell) (tb period corr : Nat) (root : SyncRoot), s.Accepts p cell.bytes 3 →
      root.serial.toNat = s.serial ∨ s.bl.syncTb = some (tb, root.serial.toNat) →
      ∃ t, exec (.sync p cell tb period corr root) s = .next t ∧ t.bl = s.bl ∧ t.out.cells = [] ∧ t.time = s.time ∧
        t.rd (R.BL_Pp_RXCELLS p) = min (s.rd (R.BL_Pp_RXCELLS p) + 1) (2 ^ (R.BL_Pp_RXCELLS p).width - 1)) ∧
    (s.isRoot = false → 64 ≤ s.bl.syncAge → s.linkLocked = true → s.rd R.BL_CFG_ROOT ≠ 2 → ∃ t, exec .holdover s = .next t ∧
      t.on R.BL_SYNC_HOLDOVER = true ∧ t.linkLocked = true) ∧
    (s.isRoot = false → 64 ≤ s.bl.syncAge → s.rd R.BL_CFG_ROOT = 2 → s.bl.rootOff = false → ∃ t, exec .holdover s = .next t ∧
      t.isRoot = true) ∧
    (s.isRoot = true ∨ s.bl.syncAge < 64 → exec .holdover s = .next s.cleared) ∧
    (s.isRoot = false → s.linkLocked = true → 3 ≤ s.bl.syncBad → ∃ t, exec .syncLost s = .next t ∧ t.rd R.BL_SYNC_STATE = 1 ∧
      t.te.evs = s.te.evs ++ [(41, 0x0404)]) ∧
    (s.isRoot = false → s.linkLocked = true → s.bl.syncBad < 3 → s.on R.BL_SYNC_HOLDOVER = true → 4000 ≤ s.bl.holdTicks →
      ∃ t, exec .syncLost s = .next t ∧ t.rd R.BL_SYNC_STATE = 0 ∧ t.rd R.BL_SYNC_HOLDOVER = 0 ∧
        t.te.evs = s.te.evs ++ [(41, 0x0404)]) ∧
    (s.isRoot = true ∨ s.linkLocked = false → exec .syncLost s = .next s.cleared)

/-- What the cells of the link do at their unit -/
def Obligations.CellsAreCheckedAndTaken : Prop :=
  ∀ (p : Fin 4) (cell : List Byte) (s : State), s.Running →
    (∀ i ∈ [Instr.share p cell, .contrib p cell, .notice p cell], s.portUp p = true → fieldLE cell 30 2 ≠ crc16 (padTo 30 cell) →
      ∃ t, exec i s = .next t ∧ t.rd (R.BL_Pp_CRCERR p) = min (s.rd (R.BL_Pp_CRCERR p) + 1) (2 ^ (R.BL_Pp_CRCERR p).width - 1) ∧
        t.bl = s.bl ∧ t.queues = s.queues ∧ t.out.cells = []) ∧
    (∀ id, s.Accepts p cell 6 → cellDst cell = s.uid ∨ cellDst cell = 0 → 0 < s.qCredit 62 → s.isRoot = false → s.uid = 0 ∨ s.bl.cut = true →
      ∃ t, exec (.enum p cell (.assign id)) s = .next t ∧ t.uid = id.toNat ∧ t.bl.cut = false ∧
        (t.queue 62).items = (s.queue 62).items ++ [padTo 64 cell]) ∧
    (∀ (q far : Fin 4) (serial : BitVec 48) (pref id : BitVec 11) (epoch : BitVec 16) (rest : List (Nat × Nat)),
      s.Accepts p cell 6 → cellDst cell = s.uid ∨ cellDst cell = 0 → 0 < s.qCredit 62 → s.isRoot = true →
      s.bl.todo = (cellSrc cell, q.val) :: rest → serial.toNat ≠ s.serial →
      (∀ n, (s.bl.units.any (fun x => x.2 == serial.toNat) = true ∨
          ∃ v, s.topology.nodes.find? (fun v => v.uid == cellSrc cell) = some v ∧ v.hops < 32) →
        s.pickId serial.toNat pref.toNat id.toNat = some n →
        ∃ t, exec (.enum p cell (.found q serial pref id epoch far)) s = .next t ∧ smapGet (fun _ => 0) t.bl.units n = serial.toNat) ∧
      (s.pickId serial.toNat pref.toNat id.toNat = none →
        ∃ t, exec (.enum p cell (.found q serial pref id epoch far)) s = .next t ∧ t.bl.refused = s.bl.refused + 1 ∧
          (41, 0x0406) ∈ t.te.evs ∧ t.bl.units = s.bl.units)) ∧
    (s.Accepts p cell 9 → cellDst cell = s.uid → s.uid ≠ 0 → cellEpoch cell = s.rd R.BL_EPOCH → 0 < s.qCredit 62 →
      (∀ (uid : Fin 1024) (valid : Bool) (port : Fin 4), ∃ t, exec (.mgmt p cell (.route uid valid port)) s = .next t ∧
        t.rd (R.BL_RT_n_VALID uid) = b2n valid ∧ t.rd (R.BL_RT_n_PORT uid) = port.val) ∧
      (∀ (consist : Fin 128) (ports : BitVec 4), ∃ t, exec (.mgmt p cell (.mask consist ports)) s = .next t ∧
        t.rd (R.BL_CM_c consist) = ports.toNat) ∧
      (∀ (closed : Bool) (ports blocked : BitVec 4), ∃ t, exec (.mgmt p cell (.ring closed ports blocked)) s = .next t ∧
        t.rd R.BL_STAT_RING = b2n closed ∧ t.rd R.BL_STAT_BLOCKED = blocked.toNat ∧ t.bl.ring = ports.toNat)) ∧
    (∀ msg, s.Accepts p cell 9 → cellDst cell = s.uid → s.uid ≠ 0 → cellEpoch cell ≠ s.rd R.BL_EPOCH →
      ∃ t, exec (.mgmt p cell msg) s = .next t ∧
        t.rd R.BL_STALECNT = min (s.rd R.BL_STALECNT + 1) (2 ^ R.BL_STALECNT.width - 1) ∧
        t.rd R.BL_STAT_RING = s.rd R.BL_STAT_RING ∧ t.queues = s.queues) ∧
    (∀ msg, s.Accepts p cell 9 → cellDst cell = s.uid → s.uid ≠ 0 → cellEpoch cell = s.rd R.BL_EPOCH → s.qCredit 62 = 0 →
      ∃ t, exec (.mgmt p cell msg) s = .next t ∧ t.queues = s.queues ∧ t.bl.ring = s.bl.ring ∧
        t.rd R.BL_STAT_RING = s.rd R.BL_STAT_RING) ∧
    (s.Accepts p cell 7 → cellDst cell = s.uid → s.uid ≠ 0 → cellEpoch cell = s.rd R.BL_EPOCH → 0 < s.qCredit 62 →
      (∀ (consist : Fin 128) (slot : Fin 64) (sn : BitVec 32) (headEpoch : BitVec 16) (deputy : Bool) (per : BitVec 15) (win : Word)
          (nsofs : BitVec 16), s.joinRefusal per.toNat win = none →
        ∃ t j, exec (.consist p cell (.offer consist slot sn headEpoch deputy per win nsofs)) s = .next t ∧ t.bl.join = some j ∧
          j.sn = sn.toNat ∧ j.consist = consist.val ∧ j.slot = slot.val ∧ j.head = cellSrc cell ∧ j.headEpoch = headEpoch.toNat ∧
          j.deputy = deputy ∧ t.rd R.BL_CS_NSOFS = nsofs.toNat) ∧
      (∀ (consist : Fin 128) (slot : Fin 64) (sn : BitVec 32) (headEpoch : BitVec 16) (deputy : Bool) (per : BitVec 15) (win : Word)
          (nsofs : BitVec 16), (s.joinRefusal per.toNat win).isSome = true →
        ∃ t, exec (.consist p cell (.offer consist slot sn headEpoch deputy per win nsofs)) s = .next t ∧ t.bl.join = s.bl.join) ∧
      (s.isMember = true → ∃ t, exec (.consist p cell .remove) s = .next t ∧ t.bl.fadeDir = -1) ∧
      (∀ uid epoch, s.isMember = true → ∃ t, exec (.consist p cell (.deputy uid epoch)) s = .next t ∧
        t.rd R.BL_CS_UNITS_DEPUTY = uid.toNat ∧ t.bl.deputyEpoch = epoch.toNat)) ∧
    (s.Accepts p cell 8 → cellDst cell = s.uid → s.uid ≠ 0 → fieldLE cell 8 1 = 1 → 0 < s.qCredit 62 →
      (s.rd R.BL_ROLE_KIND = 2 → cellSrc cell = s.rd R.BL_CS_UNITS_HEAD → ∃ t, exec (.notice p cell) s = .next t ∧
        t.rd R.BL_ROLE_KIND = 0 ∧ t.rd R.BL_EPOCH = (s.rd R.BL_EPOCH + 1) % 2 ^ 16 ∧ t.ol.torqueRef = 0 ∧
        (41, 0x0408) ∈ t.te.evs ∧ (41, 0x0409) ∈ t.te.evs) ∧
      (s.isHead = true → ∃ t, exec (.notice p cell) s = .next t ∧ t.bl.notices = s.bl.notices ++
        [(cellSrc cell, fieldLE cell 9 1, fieldLE cell 12 1, fieldLE cell 13 1, fieldLE cell 10 2)])) ∧
    (s.Accepts p cell 1 → s.isMember = true → fieldLE cell 8 1 = s.rd R.BL_ROLE_CONSIST → s.linkLocked = true → s.exchangeOpen = true →
      s.bl.takenBy = none → cellStick cell = s.stick → cellSrc cell = s.rd R.BL_CS_UNITS_HEAD → testB (cellFlags cell) 1 = false →
      0 < s.qCredit (rxQueue p) → 0 < s.rd R.BL_ROLE_SLOT → fieldLE cell 9 1 = s.rd R.BL_ROLE_SLOT / 5 →
      fieldLE cell (10 + 4 * (s.rd R.BL_ROLE_SLOT % 5)) 2 = s.rd R.BL_EPOCH → ∃ t, exec (.share p cell) s = .next t ∧
        t.bl.share = some (fieldLE cell (12 + 4 * (s.rd R.BL_ROLE_SLOT % 5)) 2) ∧ t.bl.headSeen = true) ∧
    (∀ i ∈ [Instr.share p cell, .contrib p cell], s.Accepts p cell (if i = .share p cell then 1 else 2) →
      cellStick cell ≠ s.stick ∨ s.exchangeOpen = false → ∃ t, exec i s = .next t ∧ t.out.cells = [] ∧
        t.rd (R.BL_Pp_DISCARD p) = min (s.rd (R.BL_Pp_DISCARD p) + 1) (2 ^ (R.BL_Pp_DISCARD p).width - 1) ∧ t.bl.share = s.bl.share ∧
        t.bl.contribs = s.bl.contribs) ∧
    (s.Accepts p cell 2 → cellDst cell = s.uid → s.uid ≠ 0 → s.linkLocked = true → cellStick cell = s.stick → s.exchangeOpen = true →
      cellEpoch cell = s.rd R.BL_EPOCH → 0 < s.qCredit (rxQueue p) → s.isHead = true → fieldLE cell 8 1 = s.rd R.BL_ROLE_CONSIST →
      s.slotOf (cellSrc cell) = some (fieldLE cell 9 1 % 64) → ∃ t r, exec (.contrib p cell) s = .next t ∧
        smapGet (fun _ => none) t.bl.contribs (fieldLE cell 9 1 % 64) = some r ∧ r.status = fieldLE cell 10 1 ∧ r.f = fieldLE cell 11 1 ∧
        r.cpos = ofFix 8 (signedOf 32 (fieldLE cell 12 4)) ∧ r.cneg = ofFix 8 (signedOf 32 (fieldLE cell 16 4)))

/-- Roles in a consist, and the exchange window -/
def Obligations.ConsistRoles : Prop :=
  ∀ s : State, s.Running →
    (∀ j, s.bl.join = some j → s.joinable = true → 0 ≤ modDiff 32 (s.rd R.BL_SN) j.sn → j.consist < 128 → j.slot < 64 → ∃ t, exec .join s = .next t ∧
      t.bl.join = none ∧ t.rd R.BL_ROLE_KIND = (if j.deputy then 3 else 2) ∧ t.rd R.BL_ROLE_CONSIST = j.consist ∧
      t.rd R.BL_ROLE_SLOT = j.slot ∧ t.rd R.BL_EPOCH = (s.rd R.BL_EPOCH + 1) % 2 ^ 16 ∧ t.bl.fadeDir = 1 ∧
      (s.drive = 2 → t.drive = 3 ∧ t.rd R.LN_MD_STAT_MODE = 5 ∧ t.seq.flyStart = true) ∧
      (s.drive = 3 → s.sub = 0 → t.drive = 3 ∧ t.rd R.LN_MD_STAT_MODE = 5)) ∧
    (s.bl.join = none → exec .join s = .next s.cleared) ∧
    (s.bl.join.isSome = true → s.joinable = false → ∃ t, exec .join s = .next t ∧ t.bl.join = none ∧ t.regs = s.regs) ∧
    (s.isMember = true → s.bl.fadeDir < 0 → s.bl.f ≤ 0 → ∃ t, exec .removalFadeEnd s = .next t ∧ t.rd R.BL_ROLE_KIND = 0 ∧
      t.rd R.BL_EPOCH = (s.rd R.BL_EPOCH + 1) % 2 ^ 16 ∧ t.ol.torqueRef = 0 ∧ t.bl.fadeDir = 0 ∧
      (s.drive = 3 → s.sub = 0 → t.rd R.LN_MD_STAT_MODE = 2)) ∧
    (s.isMember = false ∨ 0 ≤ s.bl.fadeDir → exec .removalFadeEnd s = .next s.cleared) ∧
    (s.isMember = true → max 1 (s.rd R.BL_CS_CFG_MISSMAX) ≤ s.bl.missRun → ∃ t, exec .memberDetached s = .next t ∧
      t.rd R.BL_ROLE_KIND = 0 ∧ t.ol.torqueRef = 0 ∧ (s.drive = 3 → s.sub = 0 → t.rd R.LN_MD_STAT_MODE = 2) ∧ (41, 0x0409) ∈ t.te.evs) ∧
    (s.isMember = false ∨ s.bl.missRun < max 1 (s.rd R.BL_CS_CFG_MISSMAX) → exec .memberDetached s = .next s.cleared) ∧
    (s.rd R.BL_ROLE_KIND = 3 → s.bl.handover = true ∨ s.takeWindows ≤ s.bl.headMiss → ∃ t, exec .deputyTakeover s = .next t ∧
      t.isHead = true ∧ t.rd R.BL_CS_STAT_TAKEN = 1 ∧ t.rd R.BL_CS_UNITS_HEAD = s.uid ∧ t.olp.d = s.bl.dSeen ∧
      t.bl.shareNext = s.lim.share) ∧
    (s.rd R.BL_ROLE_KIND ≠ 3 ∨ (s.bl.handover = false ∧ s.bl.headMiss < s.takeWindows) → exec .deputyTakeover s = .next s.cleared) ∧
    (s.isHead = true → s.rd R.BL_CS_UNITS_DEPUTY ≠ 0 → s.rd R.BL_CS_UNITS_DEPUTY ≠ s.uid → s.takeWindows ≤ s.bl.noContrib →
      ∃ t, exec .takeover s = .next t ∧ t.rd R.BL_ROLE_KIND = 0 ∧ t.ol.torqueRef = 0 ∧ (41, 0x040B) ∈ t.te.evs) ∧
    (s.isHead = false ∨ s.rd R.BL_CS_UNITS_DEPUTY = 0 ∨ s.bl.noContrib < s.takeWindows → exec .takeover s = .next s.cleared) ∧
    (s.windowValid = true → s.bl.winOpen = false → ∃ t, exec .exchangeWindowOpen s = .next t ∧ t.bl.winOpen = true ∧ t.bl.share = none ∧
      t.bl.contribs = [] ∧ t.time.tb = max s.time.tb (s.time.tbLast + s.rd R.BL_WIN_OPEN)) ∧
    (s.windowValid = false → ∃ t, exec .exchangeWindowOpen s = .next t ∧ t.bl = s.bl ∧ t.out.cells = []) ∧
    (s.bl.winOpen = true → ∃ t, exec .exchangeWindowClose s = .next t ∧ t.bl.winOpen = false ∧
      t.bl.headMiss = (if s.bl.headSeen then 0 else s.bl.headMiss + 1) ∧ (∀ p, p < 4 → (t.queue (txQueue p)).items = [])) ∧
    (s.bl.winOpen = false → ∃ t, exec .exchangeWindowClose s = .next t ∧ t.bl = s.bl ∧ t.regs = s.regs) ∧
    (∀ p c, s.isMember = true → s.bl.winOpen = true → s.bl.share = none → s.bl.launched = false → s.linkLocked = true →
      s.headPort = some p → p < 4 → (s.queue (txQueue p)).off = false → (s.queue (txQueue p)).items = [c] → ∃ t,
      exec .noshareLaunch s = .next t ∧ t.bl.launched = true ∧ (t.queue (txQueue p)).items = [] ∧
        (s.route (cellDst c) = some p → s.portOpen p = true → s.uid ≠ 0 → t.out.cells.length = 1)) ∧
    (s.isMember = false ∨ s.bl.winOpen = false ∨ s.bl.share.isSome = true → ∃ t, exec .noshareLaunch s = .next t ∧ t.bl = s.bl ∧
      t.out.cells = [] ∧ t.queues = s.queues)

/-- The partner's block, its sideband and what a module concludes from them -/
def Obligations.PairLinkIsWatched : Prop :=
  ∀ s : State, s.Running →
    (∀ (b : PairBlock) (x : X7Arrival), 0 < s.qCredit 21 → s.pstate ≠ 0 → ∃ t, exec (.mirrorBlock b x) s = .next t ∧
      t.pm.arrived = some b ∧ t.te.evs = (if b.parity.isSome then s.te.evs ++ [(39, 0x0202)] else s.te.evs) ∧
      (∀ err : Int, err = ((8 * s.time.tb + x.frac.val : Nat) : Int) - (8 * b.tbl + x.flight : Nat) →
        b.crcOk = true → b.serial = s.pser → t.rdI R.PM_SYNCERR = clampI (-32768) 32767 (roundAway ((err : Rat) * 625 / 2)) ∧
        t.rd R.PM_STAT_PERIOD = b2n (b.period != s.period) ∧
        (s.on R.PM_CFG_SIDE = false ∨ s.linkLocked = true ∨ b.period ≠ s.period → t.time = s.time) ∧
        (s.on R.PM_CFG_SIDE = true → s.linkLocked = false → b.period = s.period → s.drive ≤ 1 → 3200 < err →
          t.time.stepTo = some (-((2 * err + 8) / 16)))) ∧
      (b.crcOk = false ∨ b.serial ≠ s.pser → t.rd R.PM_SYNCERR = s.rd R.PM_SYNCERR ∧ t.time = s.time)) ∧
    (∀ (b : PairBlock) (x : X7Arrival), s.qCredit 21 = 0 ∨ s.pstate = 0 → ∃ t, exec (.mirrorBlock b x) s = .next t ∧ t.pm = s.pm ∧
      t.rd R.PM_SYNCERR = s.rd R.PM_SYNCERR ∧ t.time = s.time) ∧
    (∀ level, level ≠ s.pm.aliveIn → exec (.aliveIn level) s = .next { s.cleared with
      pm := { s.pm with aliveIn := level, aliveToggled := true } }) ∧
    (∀ level, level = s.pm.aliveIn → exec (.aliveIn level) s = .next s.cleared) ∧
    (∀ level, ∃ t, exec (.chgIn level) s = .next t ∧ t.rd R.PM_STAT_CHGIN = b2n level ∧
      t.pm.chgLow = (if level then 0 else s.pm.chgLow) ∧ t.rd R.PM_STAT_PSTATE = s.rd R.PM_STAT_PSTATE) ∧
    (2 ≤ s.rd R.PM_MISS_BLK → s.on R.PM_STAT_MIRRLOST = false → s.pstate ≠ 0 → ∃ t, exec .mirrorLost s = .next t ∧
      t.rd R.PM_STAT_MIRRLOST = 1 ∧ t.pm.aligned = false ∧ t.te.evs = s.te.evs ++ [(41, 0x040D)]) ∧
    (s.rd R.PM_MISS_BLK < 2 ∨ s.on R.PM_STAT_MIRRLOST = true ∨ s.pstate = 0 → exec .mirrorLost s = .next s.cleared) ∧
    (8 ≤ s.pm.aliveStill → s.on R.PM_STAT_ALIVELOST = false → s.pstate ≠ 0 → ∃ t, exec .aliveLost s = .next t ∧
      t.rd R.PM_STAT_ALIVELOST = 1 ∧ t.te.evs = s.te.evs ++ [(41, 0x040E)] ∧ t.pm = s.pm) ∧
    (s.pm.aliveStill < 8 ∨ s.on R.PM_STAT_ALIVELOST = true ∨ s.pstate = 0 → exec .aliveLost s = .next s.cleared) ∧
    (s.on R.PM_STAT_SYNCED = false → 64 ≤ s.pm.syncGood → ∃ t, exec .synced s = .next t ∧ t.rd R.PM_STAT_SYNCED = 1 ∧ t.pm = s.pm) ∧
    (s.on R.PM_STAT_SYNCED = true → 3 ≤ s.pm.syncBad → ∃ t, exec .synced s = .next t ∧ t.rd R.PM_STAT_SYNCED = 0 ∧ t.pm = s.pm) ∧
    (s.on R.PM_STAT_SYNCED = true → s.pm.syncBad < 3 → exec .synced s = .next s.cleared) ∧
    (s.on R.PM_STAT_SYNCED = false → s.pm.syncGood < 64 → exec .synced s = .next s.cleared) ∧
    (s.pm.pfbRun = 8 → ∃ t, exec .pairFb s = .next t ∧ t.te.evs = s.te.evs ++ [(41, 0x0410)] ∧ t.pm.pfbRun = 9) ∧
    (s.pm.pfbRun ≠ 8 → exec .pairFb s = .next s.cleared) ∧
    (s.pm.waitOwn = true → 2 ≤ s.pm.chgLow → ∃ t, exec .chgOwnAssert s = .next t ∧ t.rd R.PM_STAT_OWN = 1 ∧ t.rd R.PM_STAT_LEAD = 1 ∧
      t.pm.waitOwn = false ∧ t.pm.share = 1 ∧ (s.pstate ≠ 2 → 2 ≤ s.drive → s.drive ≤ 5 → (s.runRefused = false → t.rd R.PW_CTL_RUN = 1) ∧
        (s.runRefused = true → s.rd R.PW_CTL_RUN = 0 → t.rd R.PW_CTL_RUN = 0 ∧ t.rd R.PW_STAT_CFGERR = 1))) ∧
    (s.pm.waitOwn = false ∨ s.pm.chgLow < 2 → exec .chgOwnAssert s = .next s.cleared)

/-- Pairing, loss of the partner, release, engage, share fades -/
def Obligations.PairTakesOverReleasesAndEngages : Prop :=
  ∀ s : State, s.Running →
    (∃ t, exec (.pmCfgEn false) s = .next t ∧ t.rd R.PM_CFG_EN = 0 ∧ t.pstate = 0 ∧ t.rd R.PM_STAT_TAKEOK = 0 ∧ t.pm.waitOwn = false) ∧
    (s.pstate = 0 → s.rd R.PM_CFG_CONF = 1 ∨ s.rd R.PM_CFG_CONF = 2 → (s.taskSlot 3).1 + (s.taskSlot 3).2 + 4392 ≤ s.period →
      ∃ t, exec (.pmCfgEn true) s = .next t ∧ t.rd R.PM_CFG_EN = 1 ∧ t.pstate = 1) ∧
    (s.pstate = 0 → s.rd R.PM_CFG_CONF = 0 ∨ s.rd R.PM_CFG_CONF = 3 ∨ s.period < (s.taskSlot 3).1 + (s.taskSlot 3).2 + 4392 →
      ∃ t, exec (.pmCfgEn true) s = .next t ∧ t.pstate = 0 ∧ t.rd R.PM_STAT_CFGERR = 1) ∧
    (2 ≤ s.rd R.PM_MISS_HB → s.pm.lossSeen = false → s.pstate = 2 ∨ s.pstate = 3 → ∃ t, exec .partnerLost s = .next t ∧
      (41, 0x040C) ∈ t.te.evs ∧ t.pm.lossSeen = true ∧
      (s.ownCause s.seq.raised = true ∨ s.on R.PM_STAT_PERIOD = true → t.pstate = s.pstate) ∧
      (s.ownCause s.seq.raised = false → s.on R.PM_STAT_PERIOD = false → s.rd R.PM_CFG_CONF = 1 ∨ s.pstate = 3 →
        t.pstate = 4 ∧ t.rd R.PM_STAT_LEAD = 1 ∧ t.pm.share = 1) ∧
      (s.ownCause s.seq.raised = false → s.on R.PM_STAT_PERIOD = false → s.rd R.PM_CFG_CONF ≠ 1 → s.pstate = 2 →
        (s.on R.PM_STAT_TAKEOK = false → t.pstate = 2) ∧
        (s.on R.PM_STAT_TAKEOK = true → t.pstate = 4 ∧ t.rd R.PM_STAT_TAKEOK = 0 ∧
          (s.on R.PM_STAT_CHGIN = true → t.pm.waitOwn = true ∧ t.rd R.PM_STAT_OWN = s.rd R.PM_STAT_OWN) ∧
          (s.on R.PM_STAT_CHGIN = false → t.pm.waitOwn = false ∧ t.rd R.PM_STAT_OWN = 1)))) ∧
    (s.rd R.PM_MISS_HB < 2 ∨ s.pm.lossSeen = true ∨ s.pstate < 2 ∨ s.pstate = 4 → exec .partnerLost s = .next s.cleared) ∧
    (∀ b, s.pm.block = some b → b.release = true → s.pm.lossSeen = false → s.pstate = 2 ∨ s.pstate = 3 →
      ∃ t, exec .partnerRelease s = .next t ∧ (41, 0x040F) ∈ t.te.evs ∧ t.pm.lossSeen = true ∧
        (s.ownCause s.seq.raised = false → s.on R.PM_STAT_PERIOD = false → s.rd R.PM_CFG_CONF = 1 ∨ s.pstate = 3 →
          t.pstate = 4 ∧ t.pm.share = 1)) ∧
    (s.pm.block = none ∨ s.pm.lossSeen = true → exec .partnerRelease s = .next s.cleared) ∧
    (s.pm.fadeDir ≠ 0 → s.pm.fading = false → s.rd R.PM_CFG_CONF = 1 → s.pstate = 2 ∨ s.pstate = 3 →
      0 ≤ modDiff 32 (s.rd R.BL_SN) (s.rd R.PM_JOINSN) → s.carries = true → ∃ t, exec .pairJoin s = .next t ∧
      t.pm.share = fadeStep s s.nominal s.pm.fadeDir s.pm.share ∧ t.pm.pShare = 1 - t.pm.share ∧ t.regs = s.regs) ∧
    (s.pm.fadeDir = 0 ∨ s.pm.fading = true ∨ modDiff 32 (s.rd R.BL_SN) (s.rd R.PM_JOINSN) < 0 → exec .pairJoin s = .next s.cleared) ∧
    (s.pstate = 0 ∨ (s.pstate ≠ 5 ∧ s.isStandby = false ∧ s.partnerCanCarry = false) → ∃ t, exec .pmCtlRelease s = .next t ∧
      t.rd R.PM_STAT_CFGERR = 1 ∧ t.pstate = s.pstate ∧ t.pm = s.pm) ∧
    (s.pstate = 5 → exec .pmCtlRelease s = .next s.cleared) ∧
    (s.pstate ≠ 0 → s.pstate ≠ 5 → s.rd R.PM_CFG_CONF = 1 → s.partnerCanCarry = true → s.carries = true →
      ∃ t, exec .pmCtlRelease s = .next t ∧ t.rd R.PM_JOINSN = (s.rd R.BL_SN + 64) % 2 ^ 32 ∧ t.pm.fadeDir = -1 ∧ t.pstate = s.pstate) ∧
    (s.pstate ≠ 0 → s.pstate ≠ 5 → s.isStandby = true → ∃ t, exec .pmCtlRelease s = .next t ∧ t.pstate = 5 ∧ t.pm.release = true ∧
      t.rd R.PM_STAT_TAKEOK = 0) ∧
    (s.pstate ≠ 0 → s.pstate ≠ 5 → s.rd R.PM_CFG_CONF = 2 → s.isStandby = false → s.partnerCanCarry = true →
      ∃ t, exec .pmCtlRelease s = .next t ∧ t.pm.relStep = 1 ∧ t.regs = s.regs) ∧
    (s.engageRefused = true → ∃ t, exec .pmCtlEngage s = .next t ∧ t.rd R.PM_STAT_CFGERR = 1 ∧ t.pstate = s.pstate) ∧
    (s.engageRefused = false → s.pstate = 5 → ∃ t, exec .pmCtlEngage s = .next t ∧ t.pstate = 2 ∧ t.pm.released = false ∧
      (s.rd R.PM_CFG_CONF = 1 → t.rd R.PM_JOINSN = (s.rd R.BL_SN + 64) % 2 ^ 32 ∧ t.pm.fadeDir = 1) ∧
      (s.rd R.PM_CFG_CONF ≠ 1 → t.rd R.PW_CTL_RUN = 0))

/-- The checks of the Signal Box and the faults that they latch -/
def Obligations.SafetyFaultsLatch : Prop :=
  ∀ s : State, s.Running →
    (s.sb.supply = false → s.sb.supplyAt + msCyc 20 ≤ s.time.tb → ∃ t, exec (.supply true) s = .next t ∧ SafetyLatched 10 s t) ∧
    (∀ railUp, railUp = false ∨ s.sb.supply = true ∨ s.time.tb < s.sb.supplyAt + msCyc 20 →
      exec (.supply railUp) s = .next s.cleared) ∧
    (s.tickno % 1024 = 512 → ∃ t, exec (.inputTest false) s = .next t ∧ SafetyLatched 3 s t) ∧
    (∀ follows, follows = true ∨ s.tickno % 1024 ≠ 512 → exec (.inputTest follows) s = .next s.cleared) ∧
    (∀ c, ∃ t, exec (.genRb (some c)) s = .next t ∧ SafetyLatched 2 s t) ∧
    (∀ c, c < 7 → (s.gch c).drive = false → s.on (R.GD_CHc_STAT_ONCMD c) = true → (s.gch c).driveFall ≠ 0 →
      (s.gch c).driveFall + 64 ≤ s.time.tb → ∃ t, exec (.genRb none) s = .next t ∧ SafetyLatched 2 s t) ∧
    ((∀ c, c < 7 → (s.gch c).drive = true ∨ s.on (R.GD_CHc_STAT_ONCMD c) = false ∨ s.time.tb < (s.gch c).driveFall + 64) →
      exec (.genRb none) s = .next s.cleared) ∧
    (s.on R.SB_SBC_CFG_TESTEN = true → s.sout0 = true ∨ s.sout1 = true → s.sb.soutAt + msCyc 1000 ≤ s.time.tb →
      ∃ t, exec (.soutTest true false) s = .next t ∧ SafetyLatched 4 s t ∧ t.sb.soutAt = s.time.tb) ∧
    (s.on R.SB_SBC_CFG_TESTEN = true → s.sout0 = true ∨ s.sout1 = true → s.sb.soutAt + msCyc 1000 ≤ s.time.tb →
      exec (.soutTest true true) s = .next { s.cleared with sb.soutAt := s.time.tb }) ∧
    (∀ follows, s.on R.SB_SBC_CFG_TESTEN = false ∨ (s.sout0 = false ∧ s.sout1 = false) ∨ s.time.tb < s.sb.soutAt + msCyc 1000 →
      exec (.soutTest true follows) s = .next s.cleared) ∧
    (1 ≤ s.sb.soutRun → ∃ t, exec (.soutTest false false) s = .next t ∧ SafetyLatched 4 s t) ∧
    (s.sb.soutRun = 0 → exec (.soutTest false false) s = .next { s.cleared with sb.soutRun := 1 }) ∧
    (exec (.soutTest false true) s = .next { s.cleared with sb.soutRun := 0 }) ∧
    (16 ≤ s.sb.discRun → ∃ t, exec .spdDisc s = .next t ∧ SafetyLatched 7 s t) ∧
    (s.sb.discRun < 16 → exec .spdDisc s = .next s.cleared) ∧
    (∃ t, exec (.sbSelf false) s = .next t ∧ SafetyLatched 0 s t) ∧
    (exec (.sbSelf true) s = .next s.cleared) ∧
    (s.on R.SB_LOCK_LOCKED = true → s.on R.SB_LOCK_OPEN = false → s.on R.SB_STAT_CRCERR = false → paramCrc s.word ≠ s.rd R.SB_CRC_CONF →
      ∃ t, exec .cfgCrc s = .next t ∧ SafetyLatched 1 s t) ∧
    (s.on R.SB_LOCK_LOCKED = false ∨ s.on R.SB_LOCK_OPEN = true ∨ paramCrc s.word = s.rd R.SB_CRC_CONF →
      exec .cfgCrc s = .next s.cleared)

/-- Safety inputs, STO and its end, SS1, the reset of LOCKOUT, gate-off by request, the watchdog of the MP -/
def Obligations.SafeTorqueOff : Prop :=
  ∀ s : State, s.Running →
    (∀ input level, ∃ t, exec (.safetyInputChange input level) s = .next t ∧ t.inLevel input = level) ∧
    (∃ t, exec (.safetyInputChange 0 false) s = .next t ∧ t.on R.SB_STAT_STO = true ∧
      (s.on R.SB_STAT_STO = false → t.sb.supply = false ∧ (38, 0x0101) ∈ t.te.evs ∧ ∀ c, c < 7 → (t.gch c).drive = false)) ∧
    (s.on R.SB_STAT_STO = true → s.stoDemand = false → s.on R.SB_STAT_GSUP = true → ∃ t, exec .stoOff s = .next t ∧
      t.on R.SB_STAT_STO = false ∧ t.te.evs = s.te.evs ++ [(38, 0x0102)] ∧ t.sb = s.sb) ∧
    (s.on R.SB_STAT_STO = false ∨ s.stoDemand = true ∨ s.on R.SB_STAT_GSUP = false → exec .stoOff s = .next s.cleared) ∧
    (∀ t0, s.sb.ss1At = some t0 → s.sb.ss1T = true → t0 + msCyc (s.rd R.SB_SS1_TIME_T) ≤ s.time.tb → ∃ t, exec .ss1End s = .next t ∧
      t.rd R.SB_STAT_SS1 = 0 ∧ t.sb.ss1At = none ∧ t.sb.ss1Ended = true ∧ t.stoDemand = true) ∧
    (∀ t0, s.sb.ss1At = some t0 → s.sb.ss1R = true → 8 ≤ s.sb.ss1Still → ∃ t, exec .ss1End s = .next t ∧ t.rd R.SB_STAT_SS1 = 0 ∧
      t.sb.ss1At = none ∧ t.sb.ss1Ended = true) ∧
    (s.sb.ss1At = none → exec .ss1End s = .next s.cleared) ∧
    (∀ tick, s.sb.srstFall = some tick → (∀ f, s.sb.faultTick = some f → modDiff 32 f tick < 0) →
      s.on R.SB_LOCK_LOCKED = false ∨ s.on R.SB_LOCK_OPEN = true ∨ paramCrc s.word = s.rd R.SB_CRC_CONF →
      ∃ t, exec (.lockoutExit true true) s = .next t ∧ t.rd R.SB_SFLT = 0 ∧ t.rd R.SB_FIRST_CODE = 0 ∧ t.rd R.SB_STAT_LOCKOUT = 0 ∧
        t.sb.srstFall = none ∧ (38, 0x0104) ∈ t.te.evs) ∧
    (∀ tick f, s.sb.srstFall = some tick → s.sb.faultTick = some f → 0 ≤ modDiff 32 f tick → s.on R.SB_LOCK_LOCKED = false →
      ∃ t, exec (.lockoutExit true true) s = .next t ∧ t.rd R.SB_SFLT = s.rd R.SB_SFLT ∧ t.sb.srstFall = none) ∧
    (s.sb.srstFall = none → ∀ selfOk inputsOk, ∃ t, exec (.lockoutExit selfOk inputsOk) s = .next t ∧
      t.rd R.SB_SFLT = s.rd R.SB_SFLT ∧ t.sb = s.sb) ∧
    (s.sb.testDue = false → s.sb.testAt + msCyc 2592000000 ≤ s.time.tb → ∃ t, exec .stoTestDue s = .next t ∧ t.sb.testDue = true ∧
      t.te.evs = s.te.evs ++ [(38, 0x0108)]) ∧
    (s.sb.testDue = true ∨ s.time.tb < s.sb.testAt + msCyc 2592000000 → exec .stoTestDue s = .next s.cleared) ∧
    (∀ off, ∃ t, exec (.reqmGateGoff off) s = .next t ∧ t.rd R.SB_REQM_GATE_GOFF = b2n off ∧
      (off = true → ∀ c, c < 7 → (t.gch c).drive = false)) ∧
    (exec .mpwd s = .next { s.cleared with sb.mpwdAt := s.time.tb }) ∧
    (s.sb.mpwdAt + msCyc 100 ≤ s.time.tb → s.rd R.HS_STAT_MPSTATE ≠ 3 → ∃ t, exec .mpLost s = .next t ∧
      (39, 0x0209) ∈ t.te.evs ∧ t.rd R.HS_STAT_MPSTATE = 2 ∧ (s.rd R.HS_STAT_MPSTATE = 0 → t.rd R.HS_IRQ_MPDOWN = 1) ∧ t.rd R.SYS_RST_MPCAUSE = 1 ∧
      (s.seq.mpLostAt = none → t.seq.mpLostAt = some (s.time.tb, s.tickno)) ∧
      (∀ at_ tick, s.seq.mpLostAt = some (at_, tick) → s.time.tb ≤ at_ + msCyc 60000 → (2, 0) ∈ t.seq.raised)) ∧
    (s.time.tb < s.sb.mpwdAt + msCyc 100 ∨ s.rd R.HS_STAT_MPSTATE = 3 → exec .mpLost s = .next s.cleared)

/-- Token frames -/
def Obligations.TokenConnections : Prop :=
  ∀ s : State, s.Running →
    (s.rd R.SB_TOK_RXRES_RESULT ≠ 7 → exec .tokenFrame s = .next s.cleared) ∧
    (s.rd R.SB_TOK_RXRES_RESULT = 7 → fieldLE s.tokRx 0 1 ≠ 0x11 ∨ fieldLE s.tokRx 10 1 = 0 ∨ 44 < fieldLE s.tokRx 10 1 →
      ∃ t, exec .tokenFrame s = .next t ∧ t.rd R.SB_TOK_RXRES_RESULT = 1 ∧ t.sb = s.sb) ∧
    (s.rd R.SB_TOK_RXRES_RESULT = 7 → fieldLE s.tokRx 0 1 = 0x11 → 1 ≤ fieldLE s.tokRx 10 1 → fieldLE s.tokRx 10 1 ≤ 44 →
      ((∀ n, n < 2 → s.on (R.SB_TOKt_CFG_EN n) = false ∨ s.tokCid n (fieldLE s.tokRx 6 2) ≠ fieldLE s.tokRx 2 2) →
        ∃ t, exec .tokenFrame s = .next t ∧ t.rd R.SB_TOK_RXRES_RESULT = 6 ∧ t.sb = s.sb) ∧
      (s.on (R.SB_TOKt_CFG_EN 0) = true → s.tokCid 0 (fieldLE s.tokRx 6 2) = fieldLE s.tokRx 2 2 →
        (tokScrc (fieldLE s.tokRx 2 2) s.tokRx ≠ fieldLE s.tokRx 60 4 → ∃ t, exec .tokenFrame s = .next t ∧
          t.rd R.SB_TOK_RXRES_RESULT = 2 ∧ t.rd R.SB_TOK_RXRES_CONN = 0 ∧ t.sb = s.sb ∧
          t.rd (R.SB_TOKt_REJ 0) = min (s.rd (R.SB_TOKt_REJ 0) + 1) (2 ^ (R.SB_TOKt_REJ 0).width - 1)) ∧
        (tokScrc (fieldLE s.tokRx 2 2) s.tokRx = fieldLE s.tokRx 60 4 → fieldLE s.tokRx 6 2 ≠ s.rd R.BL_EPOCH → ∃ t,
          exec .tokenFrame s = .next t ∧ t.rd R.SB_TOK_RXRES_RESULT = 3 ∧ t.rd (R.SB_TOKt_STAT_STALE 0) = 1) ∧
        (tokScrc (fieldLE s.tokRx 2 2) s.tokRx = fieldLE s.tokRx 60 4 → fieldLE s.tokRx 6 2 = s.rd R.BL_EPOCH →
          s.tokWindow 0 (fieldLE s.tokRx 4 2) = false → testB (fieldLE s.tokRx 1 1) 0 = false → ∃ t,
          exec .tokenFrame s = .next t ∧ t.rd R.SB_TOK_RXRES_RESULT = 4 ∧ t.sb = s.sb) ∧
        (tokScrc (fieldLE s.tokRx 2 2) s.tokRx = fieldLE s.tokRx 60 4 → fieldLE s.tokRx 6 2 = s.rd R.BL_EPOCH →
          s.tokWindow 0 (fieldLE s.tokRx 4 2) = true → 5 ≤ fieldLE s.tokRx 8 2 → fieldLE s.tokRx 8 2 ≤ s.rd (R.SB_TOKt_WD_WDMAX 0) →
          s.on (R.SB_TOKt_STAT_ESTAB 0) = true → ∃ t, exec .tokenFrame s = .next t ∧
          t.rd R.SB_TOK_RXRES_RESULT = 0 ∧
          t.rd (R.SB_TOKt_STAT_LASTSEQ 0) = fieldLE s.tokRx 4 2 ∧ t.on (R.SB_TOKt_STAT_ESTAB 0) = true ∧
          t.rd (R.SB_TOKt_STAT_TXRDY 0) = 1 ∧ (t.tok 0).byte = fieldLE s.tokRx 12 1 ∧
          (t.tok 0).expires = some (s.time.tb + msCyc (fieldLE s.tokRx 8 2))))) ∧
    (∀ e, (s.tok 0).expires = some e → e ≤ s.time.tb → s.on (R.SB_TOKt_STAT_ESTAB 0) = true → (s.tok 1).expires = none →
      ∃ t, exec .tokenTmo s = .next t ∧ t.on (R.SB_TOKt_STAT_ESTAB 0) = false ∧ (t.tok 0).expires = none ∧
        (s.rd (R.SB_TOKt_CFG_FUNCMASK 0) ≠ 0 → t.bit R.SB_SFLT 9 = true) ∧
        (s.rd (R.SB_TOKt_CFG_FUNCMASK 0) = 0 → t.te.evs = s.te.evs ++ [(38, 0x0107)])) ∧
    ((s.tok 0).expires = none → (s.tok 1).expires = none → exec .tokenTmo s = .next s.cleared) ∧
    (∀ n : Fin 2, ∃ t, exec (.tokTxRead n) s = .next t ∧ t.rd (R.SB_TOKt_STAT_TXRDY n) = 0 ∧
      t.out.readData = some (s.word (R.SB_TOKt_TXw n 15).addr) ∧ t.sb = s.sb)

/-- The CAN FD controllers -/
def Obligations.CanControllers : Prop :=
  ∀ (n : Fin 2) (s : State), s.Running →
    (∀ mode : BitVec 2, mode.toNat = 1 ∨ mode.toNat = 2 → s.canMode n = 0 →
      (s.canConfigOk n = true → ∃ t, exec (.canCtlMode n mode) s = .next t ∧ t.canMode n = mode.toNat ∧ (t.canc n).integrating = true) ∧
      (s.canConfigOk n = false → ∃ t, exec (.canCtlMode n mode) s = .next t ∧ t.canMode n = 0 ∧ t.rd (R.CANn_STAT_CFGERR n) = 1 ∧
        t.can = s.can)) ∧
    (∀ mode : BitVec 2, mode.toNat = 0 ∨ mode.toNat = 3 →
      (s.canActive n = none → ∃ t, exec (.canCtlMode n mode) s = .next t ∧ t.canMode n = 0 ∧ t.rd (R.CANn_ERR_STATE n) = 3) ∧
      ((s.canActive n).isSome = true → s.canMode n ≠ 0 → ∃ t, exec (.canCtlMode n mode) s = .next t ∧ t.canMode n = s.canMode n ∧
        (t.canc n).initPend = true)) ∧
    (s.canMode n ≠ 0 → (s.canc n).busOff = false → ∃ t, exec (.canIntegration n) s = .next t ∧ t.canOnBus n = true) ∧
    (s.canMode n = 0 ∨ (s.canc n).busOff = true → exec (.canIntegration n) s = .next s.cleared) ∧
    (∀ (buffers : BitVec 3) (b : Fin 3),
      (testB buffers.toNat b = true → s.txb n b ≠ 1 → s.txb n b ≠ 2 → s.on (R.CANn_TXBb_CTL_FDF n b) = false ∨
        s.on (R.CANn_TXBb_ID_RTR n b) = false → ∃ t, exec (.canTxctlReq n buffers) s = .next t ∧ t.txb n b = 1 ∧
        t.rd (R.CANn_TXBb_STAT_TRIES n b) = 0) ∧
      (testB buffers.toNat b = true → s.txb n b ≠ 1 → s.txb n b ≠ 2 → s.on (R.CANn_TXBb_CTL_FDF n b) = true →
        s.on (R.CANn_TXBb_ID_RTR n b) = true → ∃ t, exec (.canTxctlReq n buffers) s = .next t ∧ t.txb n b = 5 ∧
        t.rd (R.CANn_STAT_CFGERR n) = 1 ∧ t.bit (R.CANn_IRQ_TXFAIL n) b = true) ∧
      (testB buffers.toNat b = false ∨ s.txb n b = 1 ∨ s.txb n b = 2 → ∃ t, exec (.canTxctlReq n buffers) s = .next t ∧
        t.txb n b = s.txb n b) ∧
      (testB buffers.toNat b = true → s.txb n b = 1 → ∃ t, exec (.canTxctlCancel n buffers) s = .next t ∧ t.txb n b = 4) ∧
      (testB buffers.toNat b = true → s.txb n b = 2 → ∃ t, exec (.canTxctlCancel n buffers) s = .next t ∧ t.txb n b = 2 ∧
        t.rd (R.CANn_STAT_CANREF n) = 1) ∧
      (testB buffers.toNat b = false ∨ (s.txb n b ≠ 1 ∧ s.txb n b ≠ 2) → ∃ t, exec (.canTxctlCancel n buffers) s = .next t ∧
        t.txb n b = s.txb n b)) ∧
    (∀ tdcv b, s.canMode n = 1 → s.canOnBus n = true → s.canActive n = none → s.txSelect n = some b → ∃ t,
      exec (.canTxStart n tdcv) s = .next t ∧ t.txb n b = 2 ∧ t.out.can.length = 1 ∧
      t.rd (R.CANn_TXBb_STAT_TRIES n b) = max 1 (s.rd (R.CANn_TXBb_STAT_TRIES n b))) ∧
    (∀ tdcv, s.canMode n ≠ 1 ∨ s.canOnBus n = false ∨ (s.canActive n).isSome = true ∨ s.txSelect n = none →
      exec (.canTxStart n tdcv) s = .next s.cleared) ∧
    (∀ b sofAge, s.canActive n = some b →
      ((s.canc n).tdcBad = false → ∃ t, exec (.canTxEnd n .sent sofAge) s = .next t ∧ t.txb n b = 3 ∧ t.bit (R.CANn_IRQ_TXDONE n) b = true ∧
        t.rd (R.CANn_TXBb_TS n b) = s.canTs sofAge ∧ (t.canc n).tec = (s.canc n).tec - 1) ∧
      (∀ how, how ≠ CanEnd.sent ∨ (s.canc n).tdcBad = true → ∃ t, exec (.canTxEnd n how sofAge) s = .next t ∧
        t.txb n b = (if s.on (R.CANn_CFG_DAR n) && !(s.canc n).initPend then 5 else 1) ∧
        t.rd (R.CANn_TXBb_STAT_TRIES n b) = (if how = .arbitrationLost ∨ s.on (R.CANn_CFG_DAR n) = true then
          s.rd (R.CANn_TXBb_STAT_TRIES n b) else min (s.rd (R.CANn_TXBb_STAT_TRIES n b) + 1) (2 ^ (R.CANn_TXBb_STAT_TRIES n b).width - 1)))) ∧
    (∀ how sofAge, s.canActive n = none → exec (.canTxEnd n how sofAge) s = .next s.cleared) ∧
    (∀ frame f, s.canOnBus n = true → f < 32 → s.canFilter n f frame = true → (∀ g, g < f → s.canFilter n g frame = false) →
      (s.on (R.CANn_FLTf_CFG_REJECT n f) = false → ∃ t, exec (.canFrameValid n frame) s = .next t ∧
        (s.rd (R.CANn_FLTf_CFG_FIFO n f) = 0 → t.rd (R.CANn_FRSEQ_F0 n) = (s.rd (R.CANn_FRSEQ_F0 n) + 1) % 2 ^ (R.CANn_FRSEQ_F0 n).width) ∧
        (0 < s.qCredit (8 + 2 * n.val + s.rd (R.CANn_FLTf_CFG_FIFO n f)) →
          ∃ item, (t.queue (8 + 2 * n.val + s.rd (R.CANn_FLTf_CFG_FIFO n f))).items =
            (s.queue (8 + 2 * n.val + s.rd (R.CANn_FLTf_CFG_FIFO n f))).items ++ [item])) ∧
      (s.on (R.CANn_FLTf_CFG_REJECT n f) = true → ∃ t, exec (.canFrameValid n frame) s = .next t ∧
        t.queue (8 + 2 * n.val) = s.queue (8 + 2 * n.val) ∧ t.queue (9 + 2 * n.val) = s.queue (9 + 2 * n.val))) ∧
    (∀ frame, s.canOnBus n = false → exec (.canFrameValid n frame) s = .next s.cleared) ∧
    (∀ (code : BitVec 3) (dataPhase : Bool), s.canOnBus n = true → s.canMode n = 1 → (s.canc n).tec ≤ 255 →
      (∃ t, exec (.canError n .receive code dataPhase) s = .next t ∧ (t.canc n).rec_ = min 255 ((s.canc n).rec_ + 1) ∧
        t.rd (if dataPhase then R.CANn_ERR_DLEC n else R.CANn_ERR_LEC n) = code.toNat) ∧
      ((s.canc n).tec + 8 ≤ 255 → ∃ t, exec (.canError n .transmit code dataPhase) s = .next t ∧
        (t.canc n).tec = (s.canc n).tec + 8 ∧ (t.canc n).busOff = false) ∧
      (255 < (s.canc n).tec + 8 → ∃ t, exec (.canError n .transmit code dataPhase) s = .next t ∧ (t.canc n).busOff = true ∧
        (t.canc n).recovering = s.on (R.CANn_CFG_ABOR n) ∧ (40, 0x0312) ∈ t.te.evs ∧ ∀ b, b < 3 → t.txb n b ≠ 1 ∧ t.txb n b ≠ 2) ∧
      (s.on (R.CANn_CFG_RESACT n) = false → ∃ t, exec (.canError n .resRecessive code dataPhase) s = .next t ∧
        t.rd (R.CANn_STAT_PXE n) = 1 ∧ (40, 0x0314) ∈ t.te.evs ∧ (t.canc n).integrating = true)) ∧
    (∀ kind code dataPhase, kind ≠ CanErr.resRecessive → s.canOnBus n = true → s.canMode n = 2 → ∃ t,
      exec (.canError n kind code dataPhase) s = .next t ∧ t.can = s.can) ∧
    (∀ kind code dataPhase, s.canOnBus n = false → exec (.canError n kind code dataPhase) s = .next s.cleared) ∧
    ((s.canc n).busOff = true → ∃ t, exec (.canCtlRecover n) s = .next t ∧ (t.canc n).recovering = true ∧ t.regs = s.regs) ∧
    ((s.canc n).busOff = false → exec (.canCtlRecover n) s = .next s.cleared) ∧
    ((s.canc n).busOff = true → (s.canc n).recovering = true → ∃ t, exec (.canRecovered n) s = .next t ∧ (t.canc n).busOff = false ∧
      (t.canc n).tec = 0 ∧ (t.canc n).rec_ = 0 ∧ (40, 0x0313) ∈ t.te.evs) ∧
    ((s.canc n).busOff = false ∨ (s.canc n).recovering = false → exec (.canRecovered n) s = .next s.cleared)

/-- Transactions of the host port, doorbells, completion pointers, held records -/
def Obligations.HostTransactions : Prop :=
  ∀ s : State, s.Running →
    (∀ aligned, ∃ t, exec (.spiWriteTransaction [] aligned) s = .next t ∧ t.rd R.HS_STAT_LASTRES = 3 ∧
      t.rd R.HS_IRQ_SPIERR = 1 ∧ t.mem = s.mem) ∧
    (∀ h rest aligned, hdrOk h = false → ∃ t, exec (.spiWriteTransaction (h :: rest) aligned) s = .next t ∧
      t.rd R.HS_STAT_LASTRES = 1 ∧ t.rd R.HS_SPIERR_CRC = min (s.rd R.HS_SPIERR_CRC + 1) 0xFFFF ∧ t.rd R.HS_IRQ_SPIERR = 1 ∧
      t.mem = s.mem ∧ t.out.spi = s.spiStatus :: rest.map (fun _ => 0)) ∧
    (∀ h rest aligned, hdrOk h = true → aligned = false ∨ rest.length ≠ hdrWords h + 1 → ∃ t,
      exec (.spiWriteTransaction (h :: rest) aligned) s = .next t ∧ t.rd R.HS_STAT_LASTRES = 3 ∧ t.mem = s.mem) ∧
    (∀ (h : Word) (data : List Word) (w : Word), hdrOk h = true → data.length = hdrWords h →
      (w.toNat % 256 ≠ crc8 (data.flatMap wireBytes) → ∃ t, exec (.spiWriteTransaction (h :: (data ++ [w])) true) s = .next t ∧
        t.rd R.HS_STAT_LASTRES = 2 ∧ t.mem = s.mem) ∧
      (w.toNat % 256 = crc8 (data.flatMap wireBytes) →
        (addrBad (hdrOffset h) (hdrWords h) = true → ∃ t, exec (.spiWriteTransaction (h :: (data ++ [w])) true) s = .next t ∧
          t.rd R.HS_STAT_LASTRES = 4 ∧ t.mem = s.mem) ∧
        (addrBad (hdrOffset h) (hdrWords h) = false → s.accessBad (hdrOffset h) (hdrWords h) = true → ∃ t,
          exec (.spiWriteTransaction (h :: (data ++ [w])) true) s = .next t ∧ t.rd R.HS_STAT_LASTRES = 5 ∧ t.mem = s.mem) ∧
        (0x8000 ≤ hdrOffset h → hdrOffset h + 4 * hdrWords h ≤ 0x10000 → ∃ t,
          exec (.spiWriteTransaction (h :: (data ++ [w])) true) s = .next t ∧ t.rd R.HS_STAT_LASTRES = 0 ∧
          t.memBytes (winAddr (hdrOffset h)) (4 * hdrWords h) = data.flatMap (fun x => bytesLE 4 x.toNat)))) ∧
    (∀ h aligned parity, ∃ t, exec (.spiReadTransaction h 0 aligned parity) s = .next t ∧ t.rd R.HS_STAT_LASTRES = 3 ∧ t.mem = s.mem) ∧
    (∀ h count aligned parity, count ≠ 0 → hdrOk h = false → ∃ t, exec (.spiReadTransaction h count aligned parity) s = .next t ∧
      t.rd R.HS_STAT_LASTRES = 1 ∧ t.mem = s.mem) ∧
    (∀ h parity, hdrOk h = true → hdrWords h = 1 → 0x8000 ≤ hdrOffset h → hdrOffset h + 4 ≤ 0x10000 → ∃ t,
      exec (.spiReadTransaction h 4 true parity) s = .next t ∧ t.rd R.HS_STAT_LASTRES = (if parity then 7 else 0) ∧
      t.out.spi = [s.spiStatus, 0, s.memWord (winAddr (hdrOffset h)),
        readTrailer (if parity then 7 else 0) [s.memWord (winAddr (hdrOffset h))]] ∧
      t.te.evs = (if parity then s.te.evs ++ [(39, 0x0202)] else s.te.evs) ∧ t.mem = s.mem) ∧
    (∀ (c : Fin 4) (tail : BitVec 16),
      (tail.toNat = s.rd (R.HS_CQc_TAIL c) → exec (.doorbell c tail) s = .next s.cleared) ∧
      (s.qCredit c < wrapTo 16 ((tail.toNat : Int) - s.rd (R.HS_CQc_TAIL c)) → ∃ t, exec (.doorbell c tail) s = .next t ∧
        t.rd (R.HS_CQc_TAIL c) = s.rd (R.HS_CQc_TAIL c) ∧ t.bit R.HS_IRQ_REFUSED c = true ∧ t.rd (R.QM_Qnn_FLAG_DROPPED c) = 1 ∧
        t.hs = s.hs) ∧
      (tail.toNat ≠ s.rd (R.HS_CQc_TAIL c) → wrapTo 16 ((tail.toNat : Int) - s.rd (R.HS_CQc_TAIL c)) ≤ s.qCredit c → ∃ t,
        exec (.doorbell c tail) s = .next t ∧ t.rd (R.HS_CQc_TAIL c) = tail.toNat ∧
        t.hs.bells = s.hs.bells ++ [(c.val, tail.toNat, s.time.tb + 40)])) ∧
    (s.hs.bells = [] → exec .doorbellSignal s = .next s.cleared) ∧
    (∀ c tail due rest, s.hs.bells = (c, tail, due) :: rest → c < 4 → due < s.time.tbLast + s.period → ∃ t,
      exec .doorbellSignal s = .next t ∧ t.hs.seen.toList[c]? = some tail ∧ t.hs.bells = rest ∧ t.time.tb = max s.time.tb due) ∧
    (∀ c tail due rest, s.hs.bells = (c, tail, due) :: rest → s.time.tbLast + s.period ≤ due →
      exec .doorbellSignal s = .next s.cleared) ∧
    (∀ (c : Fin 4) (head : BitVec 16),
      (s.qFill (c.val + 4) < wrapTo 16 ((head.toNat : Int) - s.rd (R.HS_CPLc_HEAD c)) → ∃ t, exec (.cplHeadWrite c head) s = .next t ∧
        t.rd R.HS_STAT_PTRERR = 1 ∧ t.rd (R.HS_CPLc_HEAD c) = s.rd (R.HS_CPLc_HEAD c) ∧ t.hs = s.hs) ∧
      (wrapTo 16 ((head.toNat : Int) - s.rd (R.HS_CPLc_HEAD c)) ≤ s.qFill (c.val + 4) → ∃ t, exec (.cplHeadWrite c head) s = .next t ∧
        t.rd (R.HS_CPLc_HEAD c) = head.toNat)) ∧
    (∀ r, s.mpServes = true → s.hs.held = [r] → r.queue < 4 → 0 < s.qCredit (r.queue + 4) → ∃ t,
      exec .finalRecordRelease s = .next t ∧ t.hs.held = [] ∧
      t.rd (R.HS_CPLc_TAIL r.queue) = (s.rd (R.HS_CPLc_TAIL r.queue) + 1) % 2 ^ 16 ∧
      t.memBytes (cplSlot r.queue (s.rd (R.HS_CPLc_TAIL r.queue))) 32 = r.bytes s.tickno) ∧
    (s.mpServes = false → exec .finalRecordRelease s = .next s.cleared)

/-- The management processor, its resets and restarts; module reset, power-on, the end of boot -/
def Obligations.ProcessorAndResets : Prop :=
  (∀ s : State, s.Running →
    (s.mpServes = false ∨ s.mp.stall.isSome = true ∨ s.nextQueue = none → ∀ a b,
      exec (.descriptorPop a b) s = .next s.cleared) ∧
    (∀ c a b, s.mpServes = true → s.mp.stall = none → s.nextQueue = some c → fieldLE (s.headBytes c) 0 2 = 0x0102 → s.hs.held = [] →
      ∃ t, exec (.descriptorPop a b) s = .next t ∧ t.rd (R.HS_CQc_HEAD c) = (s.rd (R.HS_CQc_HEAD c) + 1) % 2 ^ 16 ∧
        t.rd (R.HS_CPLc_TAIL c) = (s.rd (R.HS_CPLc_TAIL c) + 1) % 2 ^ 16) ∧
    (∀ (cause : Fin 3) (addr : Option (BitVec 32)), ∃ t, exec (.mpReset cause addr) s = .next t ∧ t.rd R.HS_STAT_MPSTATE = 2 ∧
      (s.mpServes = true → t.rd R.HS_IRQ_MPDOWN = 1) ∧ t.rd R.SYS_RST_MPCAUSE = cause.val + 1 ∧
      t.rd R.SYS_RST_MPCNT = min (s.rd R.SYS_RST_MPCNT + 1) 0xFF ∧ t.mp = {} ∧ t.hs.works.length = s.hs.works.length ∧
      t.ol = s.ol ∧ t.cf = s.cf ∧ t.pw = s.pw) ∧
    (s.rd R.HS_STAT_MPSTATE = 2 → ∃ t, exec .mpRestart s = .next t ∧ t.rd R.HS_STAT_MPSTATE = 0 ∧ t.rd R.HS_IRQ_MPUP = 1 ∧
      t.hs.works = [] ∧ t.hs.bells = []) ∧
    (s.rd R.HS_STAT_MPSTATE = 1 → ∃ t, exec .mpRestart s = .next t ∧ t.rd R.HS_STAT_MPSTATE = 0 ∧ t.rd R.HS_IRQ_MPUP = 1 ∧
      t.pm.fwPend = false ∧ t.nv.journal.handle = 0) ∧
    (s.rd R.HS_STAT_MPSTATE ≠ 1 → s.rd R.HS_STAT_MPSTATE ≠ 2 → exec .mpRestart s = .next s.cleared) ∧
    (∀ tick, s.swapTick = some tick → s.mpServes = true → s.swapPending = true → 0 ≤ modDiff 32 s.tickno tick → ∃ t,
      exec .firmwareSwap s = .next t ∧ t.rd R.HS_STAT_MPSTATE = 1 ∧ t.rd R.HS_IRQ_MPDOWN = 1 ∧ t.rd R.SYS_RST_MPCAUSE = 4 ∧
      t.nv.journal.active = 1 - s.nv.journal.active % 2 ∧ t.nv.journal.aver = s.nv.journal.iver ∧
      t.nv.journal.iver = s.nv.journal.aver ∧ t.pm.fwPend = true ∧ t.ol = s.ol ∧ t.cf = s.cf) ∧
    (s.swapTick = none ∨ s.mpServes = false ∨ s.swapPending = false → exec .firmwareSwap s = .next s.cleared) ∧
    (∀ at_ facts, s.sys.resetDue = some (at_, 2) → ∃ t, exec (.moduleReset facts) s = .next t ∧ t.pending = s.pending ∧
      t.tt = State.reset.tt ∧ t.cf = State.reset.cf ∧ t.ol = State.reset.ol ∧ t.olp = State.reset.olp ∧ t.pw = State.reset.pw ∧
      t.lim = State.reset.lim ∧ t.fb = State.reset.fb ∧ t.pm = State.reset.pm ∧ t.can = State.reset.can ∧ t.bl = State.reset.bl ∧
      t.th = State.reset.th) ∧
    (∀ facts, s.sys.resetDue = none → exec (.moduleReset facts) s = .next s.cleared) ∧
    (s.sys.booted = false → s.sys.bootStopped = false → s.sys.latchedOff = false → ∃ t, exec .bootComplete s = .next t ∧
      t.sys.booted = true ∧ t.sys.standbyNext = !s.on R.SYS_BOOT_RECOVERY ∧ t.rd R.TH_SUP_HBOK = 1 ∧ t.nv.bootJobs = [] ∧
      (s.nv.wait = [] → t.nv.jobs.length + t.nv.wait.length =
        s.nv.jobs.length + s.nv.bootJobs.length + s.shutdownErases.length)) ∧
    (s.sys.booted = true ∨ s.sys.bootStopped = true ∨ s.sys.latchedOff = true → exec .bootComplete s = .next s.cleared)) ∧
  (∀ (facts : BootFacts) (s : State), ∃ t, exec (.powerOn facts) s = .next t ∧ t.pending = s.pending ∧ t.sys.halted = false ∧
    t.tt = State.reset.tt ∧ t.time = State.reset.time ∧ t.cf = State.reset.cf ∧ t.ol = State.reset.ol ∧ t.olp = State.reset.olp ∧
    t.pw = State.reset.pw ∧ t.lim = State.reset.lim ∧ t.fb = State.reset.fb ∧ t.pm = State.reset.pm ∧ t.can = State.reset.can ∧
    t.bl = State.reset.bl ∧ t.th = State.reset.th ∧
    (facts.sramOk = false → t.sys.bootStopped = true ∧ t.rd R.SYS_BOOT_JREC = 5) ∧
    (facts.sramOk = true → facts.loaders.toNat = 0 → t.sys.bootStopped = true ∧ t.sys.noMarker = true) ∧
    (facts.sramOk = true → testB facts.loaders.toNat 0 = true → t.rd R.HS_STAT_MPSTATE = 0 ∧ t.rd R.HS_IRQ_MPUP = 1))

/-- Which commands Q03 takes -/
def Obligations.CommandsOnTheWrongQueue : Prop :=
  ∀ (d : Desc) (s : State), s.Running → s.mpServes = true → s.mp.stall = none → d.parity = none → 0 < s.qCredit (d.queue.val + 4) →
    s.hs.held = [] →
    (∀ x ∈ [(0x0101, Instr.sysInfo d), (0x0102, .sysNop d), (0x0103, .sysQuery d), (0x0104, .sysCancel d), (0x0105, .sysAttnClr d),
        (0x0106, .sysTime d), (0x0107, .sysTimetable d), (0x0108, .sysReset d), (0x0201, .mdEnable d), (0x0202, .mdDisable d),
        (0x0203, .mdStart d), (0x0204, .mdStop d), (0x0205, .mdEmergency d), (0x0206, .mdMode d), (0x0207, .mdReset d),
        (0x0210, .spWrite d), (0x0211, .spWriteN d), (0x0301, .regRead d), (0x0302, .regWrite d), (0x0303, .parStage d),
        (0x0304, .tblLoad d), (0x0305, .bankSwap d), (0x0306, .bankCopy d), (0x0307, .parSave d), (0x0308, .fbCorrect d),
        (0x0401, .diagOffstate d), (0x0402, .bistLane d), (0x0403, .bistMem d), (0x0404, .bistGate d), (0x0405, .calPass d),
        (0x0406, .crcScan d), (0x0501, .trConfig d), (0x0502, .trArm d), (0x0503, .trTrigger d), (0x0504, .trRead d),
        (0x0505, .evRead d), (0x0601, .lkEnum d), (0x0602, .csForm d), (0x0603, .csAdd d), (0x0604, .csRemove d),
        (0x0605, .csDissolve d), (0x0701, .prRelease d), (0x0702, .prEngage d), (0x0703, .prPser d), (0x0801, .safeOpen d),
        (0x0802, .safeClose d), (0x0803, .safeConfirm d), (0x0804, .safeStatus d), (0x0901, .fwStage d), (0x0902, .fwVerify d),
        (0x0903, .fwSwap d), (0x0904, .fwDiscard d), (0x0905, .nvRead d)],
      s.on R.SYS_BOOT_RECOVERY = false ∨ recoveryServes x.1 = true →
      (d.queue.val = 3 → x.1 / 256 ≠ 8 → x.1 ≠ 0x0102 → x.1 ≠ 0x0103 → x.1 ≠ 0x0104 → ∃ t, exec x.2 s = .next t ∧
        Finished x.1 d 0x12 [] s t) ∧
      (d.queue.val ≠ 3 → x.1 / 256 = 8 → ∃ t, exec x.2 s = .next t ∧ Finished x.1 d 0x12 [] s t) ∧
      ((d.queue.val = 3 ↔ x.1 / 256 = 8) ∨ (d.queue.val = 3 ∧ (x.1 = 0x0102 ∨ x.1 = 0x0103 ∨ x.1 = 0x0104)) → ∀ named,
        s.descRefused x.1 named d ≠ some 0x12))

/-- REG.WRITE of a locked register, and of one that is read only -/
def Obligations.RegWriteOfLockedAndReadOnlyRegisters : Prop :=
  ∀ (d : Desc) (s : State), s.Serves 0x0302 [(8, 15, 255)] d → pnum d 8 4 % 4 = 0 → isRegister (pnum d 8 4) = true →
    (s.on R.SB_LOCK_LOCKED = true → s.sb.blocked = false → accessMask (pnum d 8 4) .rwl ≠ 0 →
      exec (.regWrite d) s =
        .next (putRecord (descRecord 0x0302 d 0 2 0x17 (bytesLE 4 (s.readBack (pnum d 8 4)).toNat)) s.cleared)) ∧
    (accessMask (pnum d 8 4) .ro ≠ 0 → (∀ k, k ≠ .ro → accessMask (pnum d 8 4) k = 0) →
      exec (.regWrite d) s =
        .next (putRecord (descRecord 0x0302 d 0 2 0 (bytesLE 4 (s.readBack (pnum d 8 4)).toNat)) s.cleared)) ∧
    (∀ r, ∃ t, putRecord (descRecord 0x0302 d 0 2 r (bytesLE 4 (s.readBack (pnum d 8 4)).toNat)) s.cleared = t ∧
      Finished 0x0302 d r (bytesLE 4 (s.readBack (pnum d 8 4)).toNat) s t ∧
      ∀ a, a / 0x10000 ≠ 0x4002 → a / 0x10000 ≠ 0x400E → t.word a = s.word a)

/-- System commands, drive requests, setpoints -/
def Obligations.SystemAndDriveCommands : Prop :=
  ∀ (d : Desc) (s : State), s.HandleFree →
    (s.Serves 0x0101 [] d → ∃ t, exec (.sysInfo d) s = .next t ∧ Finished 0x0101 d 0 (bytesLE 2 (s.rd R.SYS_ID_PART) ++
      bytesLE 1 (s.rd R.SYS_ID_STEP * 16 + s.rd R.SYS_ID_GSTEP) ++ bytesLE 1 (s.rd R.HS_ID_IFVER) ++ bytesLE 1 s.nv.journal.active ++
      [0] ++ bytesLE 4 s.nv.journal.aver ++ bytesLE 6 Config.serial.toNat) s t) ∧
    (s.Serves 0x0102 [] d → ∃ t, exec (.sysNop d) s = .next t ∧ Finished 0x0102 d 0 [] s t ∧ SameOutside [.regs, .mem, .out] s t) ∧
    (s.Serves 0x0103 [] d → entryState (s.entryOf (d.handle.toNat % 4096)) = 1 → ∃ t, exec (.sysQuery d) s = .next t ∧
      Finished 0x0103 d 0 (bytesLE 2 (s.entryOf (d.handle.toNat % 4096)) ++ bytesLE 2 0xFFFF) s t) ∧
    (s.Serves 0x0104 [] d → s.hs.works.find? (fun w => w.handle == d.handle.toNat) = none → ∃ t, exec (.sysCancel d) s = .next t ∧
      Finished 0x0104 d 0x01 (bytesLE 2 d.handle.toNat) s t ∧ t.hs.works = s.hs.works) ∧
    (∀ w p a r, s.Serves 0x0104 [] d → s.hs.works.find? (fun w => w.handle == d.handle.toNat) = some w → w.opcode = 0x0405 →
      w.kind = .calPass p a r → w.queue < 4 → w.queue ≠ d.queue.val → ∃ t, exec (.sysCancel d) s = .next t ∧
      Finished 0x0104 d 0 (bytesLE 2 d.handle.toNat) s t ∧ t.hs.works = s.hs.works.filter (fun x => x.handle != w.handle)) ∧
    (s.Serves 0x0105 [(8, 11, 255)] d → ∃ t, exec (.sysAttnClr d) s = .next t ∧ t.rd R.HS_IRQ_ATTN = 1 ∧
      t.rd R.HS_ATTN = s.rd R.HS_ATTN &&& (2 ^ 32 - 1 - pnum d 8 4) ∧ Finished 0x0105 d 0 (bytesLE 4 (t.rd R.HS_ATTN)) s t) ∧
    (s.Serves 0x0106 [] d → ∃ t, exec (.sysTime d) s = .next t ∧
      Finished 0x0106 d 0 (bytesLE 8 s.time.tbLast ++ bytesLE 4 s.tickno ++ bytesLE 4 (s.rd R.BL_SNOFS)) s t) ∧
    (s.Serves 0x0107 [(8, 8, 7), (10, 15, 255)] d → s.on R.TT_STAT_PEND = false → pnum d 8 1 = 0 → ∃ t,
      exec (.sysTimetable d) s = .next t ∧ Accepted 0x0107 d (fun _ k => k = .timetable) s t ∧ t.tt.done = none) ∧
    (s.Serves 0x0107 [(8, 8, 7), (10, 15, 255)] d → s.on R.TT_STAT_PEND = true → testB (pnum d 8 1) 2 = false → ∃ t,
      exec (.sysTimetable d) s = .next t ∧ Finished 0x0107 d 0x06 (bytesLE 1 (s.rd R.TT_STAT_REJCODE)) s t ∧ t.tt = s.tt) ∧
    (s.Serves 0x0108 [(8, 8, 255)] d → pnum d 8 1 = 1 ∨ (pnum d 8 1 = 2 ∧ (s.drive ≤ 1 ∨ s.drive = 5 ∨ s.drive = 6)) → ∃ t,
      exec (.sysReset d) s = .next t ∧ Finished 0x0108 d 0 [] s t ∧
      t.sys.resetDue = some (s.time.tb + msCyc 1, pnum d 8 1)) ∧
    (s.Serves 0x0108 [(8, 8, 255)] d → pnum d 8 1 = 2 → 2 ≤ s.drive → s.drive ≤ 4 → ∃ t, exec (.sysReset d) s = .next t ∧
      Finished 0x0108 d 0x01 [] s t ∧ t.sys = s.sys) ∧
    (∀ x ∈ [(1, Instr.mdEnable d), (2, .mdDisable d), (3, .mdStart d), (4, .mdStop d), (5, .mdEmergency d), (6, .mdMode d),
        (7, .mdReset d)],
      s.Serves (0x0200 + x.1) [(8, 8, 1), (9, 10, 255), (12, 15, 255)] d →
      (x.1 = 3 ∨ x.1 = 6 → 1 ≤ pnum d 9 1 ∧ pnum d 9 1 ≤ 4) → (x.1 = 5 → 1 ≤ pnum d 10 1 ∧ pnum d 10 1 ≤ 5) →
      testB (pnum d 8 1) 0 = false →
      (s.on R.LN_MD_RES_PEND = false → (x.1 = 1 → s.idleRuns = false) → ∃ t, exec x.2 s = .next t ∧
        Accepted (0x0200 + x.1) d (fun _ k => k = .md x.1) s t ∧ t.on R.LN_MD_RES_PEND = true ∧
        ∃ q, t.seq.req = some q ∧ q.code = x.1 ∧ q.tick = none ∧ q.due = s.time.tb + 64) ∧
      (s.on R.LN_MD_RES_PEND = true → ∃ t, exec x.2 s = .next t ∧ Finished (0x0200 + x.1) d 0x06 [] s t ∧ t.seq = s.seq)) ∧
    (s.Serves 0x0210 [(8, 39, 255)] d → s.setpointOk (padTo 32 (d.param.take 32)) = true → 0 < s.qCredit 50 → ∃ t,
      exec (.spWrite d) s = .next t ∧ Finished 0x0210 d 0 (bytesLE 4 s.tickno) s t ∧
      (t.queue 50).items = (s.queue 50).items ++ [padTo 32 (d.param.take 32)] ∧ t.mp.stall = none) ∧
    (s.Serves 0x0210 [(8, 39, 255)] d → s.setpointOk (padTo 32 (d.param.take 32)) = false → ∃ t, exec (.spWrite d) s = .next t ∧
      Finished 0x0210 d 0x11 [] s t ∧ t.queues = s.queues) ∧
    (s.Serves 0x0210 [(8, 39, 255)] d → s.setpointOk (padTo 32 (d.param.take 32)) = true → s.qCredit 50 = 0 → ∃ t,
      exec (.spWrite d) s = .next t ∧ t.mp.stall.isSome = true ∧ t.queues = s.queues ∧ t.regs = s.regs) ∧
    (∀ b, s.Serves 0x0211 [(8, 12, 255)] d → pnum d 8 4 % 32 = 0 → 1 ≤ pnum d 12 1 → pnum d 12 1 ≤ 64 →
      bulkBad (pnum d 8 4) (32 * pnum d 12 1) = false → d.bulkParity = none →
      s.spoilHit d (pnum d 8 4) (pnum d 8 4 + 32 * pnum d 12 1) = false →
      b = s.memBytes (winAddr (0x8000 + pnum d 8 4)) (32 * pnum d 12 1) → (records32 (pnum d 12 1) b).all s.setpointOk = true →
      pnum d 12 1 ≤ s.qCredit 50 → ∃ t, exec (.spWriteN d) s = .next t ∧
      Finished 0x0211 d 0 (bytesLE 4 (pnum d 12 1) ++ bytesLE 4 s.tickno) s t ∧
      (t.queue 50).items = (s.queue 50).items ++ records32 (pnum d 12 1) b)

/-- Register, staging, table, bank and save commands -/
def Obligations.RegisterAndTableCommands : Prop :=
  ∀ (d : Desc) (s : State), s.HandleFree →
    (s.Serves 0x0301 [(8, 12, 255)] d → pnum d 8 4 % 4 = 0 → pnum d 12 1 = 1 → isRegister (pnum d 8 4) = true → ∃ t,
      exec (.regRead d) s = .next t ∧ Finished 0x0301 d 0 (bytesLE 4 (s.peek (pnum d 8 4)).toNat) s t) ∧
    (s.Serves 0x0301 [(8, 12, 255)] d → pnum d 8 4 % 4 = 0 → pnum d 12 1 = 1 → isRegister (pnum d 8 4) = false →
      busRange (pnum d 8 4) 4 = false → ∃ t, exec (.regRead d) s = .next t ∧ Finished 0x0301 d 0x13 [0, 0, 0, 0] s t ∧
      (40, 0x0302) ∈ t.te.evs) ∧
    (s.Serves 0x0302 [(8, 15, 255)] d → pnum d 8 4 % 4 = 0 → isRegister (pnum d 8 4) = true →
      pnum d 8 4 / 0x10000 = 0x400F ∨ pnum d 8 4 / 0x10000 = 0x4010 → s.sb.blocked = false → s.on R.SB_LOCK_LOCKED = false →
      takesWrite (pnum d 8 4) = true → ∃ t, exec (.regWrite d) s = .next t ∧
      t.word (pnum d 8 4) = ((s.word (pnum d 8 4) &&& ~~~(s.writable (pnum d 8 4))) |||
        (BitVec.ofNat 32 (pnum d 12 4) &&& s.writable (pnum d 8 4))) &&&
          ~~~(BitVec.ofNat 32 (pnum d 12 4) &&& accessMask (pnum d 8 4) .w1c) ∧
      Finished 0x0302 d 0 (bytesLE 4 (t.readBack (pnum d 8 4)).toNat) s t) ∧
    (∀ off, s.Serves 0x0303 [(8, 13, 255), (16, 19, 255)] d → pnum d 8 4 % 4 = 0 → pnum d 12 2 = 1 →
      bulkBad (pnum d 16 4) 4 = false → pageOffset (pnum d 8 4) = some off → d.bulkParity = none →
      s.spoilHit d (pnum d 16 4) (pnum d 16 4 + 4) = false → s.ln.bankTick = none → (s.queue 53).items = [] →
      (s.queue 53).off = false → bankMask off ≠ 0 → ∃ t, exec (.parStage d) s = .next t ∧ Finished 0x0303 d 0 (bytesLE 2 1) s t ∧
      t.bankWord (!s.ln.bankB) off = s.memWord (winAddr (0x8000 + pnum d 16 4)) &&& bankMask off ∧
      (∀ x, x < 0x10000 → t.bankWord s.ln.bankB x = s.bankWord s.ln.bankB x)) ∧
    (s.Serves 0x0303 [(8, 13, 255), (16, 19, 255)] d → pnum d 8 4 % 4 = 0 → pnum d 12 2 = 1 → bulkBad (pnum d 16 4) 4 = false →
      pageOffset (pnum d 8 4) = none → ∃ t, exec (.parStage d) s = .next t ∧ Finished 0x0303 d 0x13 [] s t) ∧
    (∀ b, s.Serves 0x0304 [(8, 8, 255), (9, 9, 1), (12, 23, 255)] d → 1 ≤ pnum d 8 1 → pnum d 8 1 ≤ 9 →
      pnum d 16 4 = 4 * (tblPlace (pnum d 8 1)).2 → bulkBad (pnum d 12 4) (pnum d 16 4) = false → d.bulkParity = none →
      s.spoilHit d (pnum d 12 4) (pnum d 12 4 + pnum d 16 4) = false →
      b = s.memBytes (winAddr (0x8000 + pnum d 12 4)) (pnum d 16 4) →
      (crc32c b = pnum d 20 4 → (∀ w ∈ s.hs.works, ∀ u a c, w.kind ≠ .tblLoad u a c) → ∃ t x, exec (.tblLoad d) s = .next t ∧
        Accepted 0x0304 d (fun h k => k = .tblLoad (pnum d 8 1) (pnum d 9 1 == 0) (crc32c b) ∧ x.handle = h) s t ∧
        t.mp.streams = s.mp.streams ++ [x] ∧ x.table = pnum d 8 1 ∧ x.queue = (if pnum d 9 1 = 0 then 52 else 53)) ∧
      (crc32c b ≠ pnum d 20 4 → ∃ t, exec (.tblLoad d) s = .next t ∧
        Finished 0x0304 d 0x18 (tblResult (pnum d 8 1) (pnum d 9 1 == 0) (crc32c b)) s t ∧ t.mp = s.mp)) ∧
    (s.Serves 0x0305 [(8, 8, 1), (12, 15, 255)] d → s.ln.bankTick = none → testB (pnum d 8 1) 0 = true →
      2 ≤ s.ticksAhead (pnum d 12 4) → s.ticksAhead (pnum d 12 4) ≤ 65536 → ∃ t, exec (.bankSwap d) s = .next t ∧
      Accepted 0x0305 d (fun _ k => k = .bankSwap) s t ∧ t.ln.bankTick = some (pnum d 12 4) ∧ t.rd R.LN_BANK_PEND = 1 ∧
      t.rd R.LN_BANK_TICK = pnum d 12 4) ∧
    (s.Serves 0x0305 [(8, 8, 1), (12, 15, 255)] d → s.ln.bankTick = none → testB (pnum d 8 1) 0 = false → ∃ t,
      exec (.bankSwap d) s = .next t ∧ Accepted 0x0305 d (fun _ k => k = .bankSwap) s t ∧ t.ln.bankTick = some s.tick64) ∧
    (s.Serves 0x0305 [(8, 8, 1), (12, 15, 255)] d → s.ln.bankTick.isSome = true → testB (pnum d 8 1) 0 = false → ∃ t,
      exec (.bankSwap d) s = .next t ∧ Finished 0x0305 d 0x06 [] s t ∧ t.ln = s.ln) ∧
    (s.Serves 0x0306 [] d → s.ln.bankTick = none → ∃ t x n, exec (.bankCopy d) s = .next t ∧
      Accepted 0x0306 d (fun h k => k = .bankCopy n ∧ x.handle = h) s t ∧ t.mp.streams = s.mp.streams ++ [x] ∧ x.queue = 53 ∧
      x.src = .bank ∧ x.pieces = bankPieces) ∧
    (s.Serves 0x0307 [(8, 8, 3)] d → s.norFull = false → s.parSaves = false → s.nv.wait = [] →
      (pnum d 8 1 % 4 = 3 ∨ s.imageSpan = none → ∃ t, exec (.parSave d) s = .next t ∧
        (∃ q, Accepted 0x0307 d (fun _ k => k = .parSave ((List.range s.saveSlots.length).map (fun i => s.nv.nextId + i)) q) s t) ∧
        t.nv.jobs.length + t.nv.wait.length = s.nv.jobs.length + s.saveSlots.length) ∧
      (∀ x, pnum d 8 1 % 4 ≠ 3 → s.imageSpan = some x → ∃ t, exec (.parSave d) s = .next t ∧
        Accepted 0x0307 d (fun _ k => k = .parRead s.nv.nextId (testB (pnum d 8 1) 0) (testB (pnum d 8 1) 1)) s t ∧
        ∃ j, t.nv.jobs ++ t.nv.wait = s.nv.jobs ++ [j] ∧ j.id = s.nv.nextId ∧ j.req = .read [x])) ∧
    (s.Serves 0x0307 [(8, 8, 3)] d → s.norFull = false → s.parSaves = true → ∃ t, exec (.parSave d) s = .next t ∧
      Finished 0x0307 d 0x06 [] s t ∧ t.nv = s.nv) ∧
    (s.Serves 0x0307 [(8, 8, 3)] d → s.norFull = true → ∃ t, exec (.parSave d) s = .next t ∧ Finished 0x0307 d 0x1D [] s t ∧
      t.nv = s.nv) ∧
    (s.Serves 0x0308 [] d → s.on R.FB_CTL_EN = true → s.rd R.FB_SEL_IDXSRC ≠ 0 → ∃ t r, exec (.fbCorrect d) s = .next t ∧
      Finished 0x0308 d 0 r s t ∧ t.fb.abz.pendCmd = true) ∧
    (s.Serves 0x0308 [] d → s.on R.FB_CTL_EN = false ∨ s.rd R.FB_SEL_IDXSRC = 0 → ∃ t, exec (.fbCorrect d) s = .next t ∧
      Finished 0x0308 d 4 [] s t ∧ t.fb = s.fb)

/-- Diagnostics, self-tests, CRC scan, trace and event commands -/
def Obligations.TestAndTraceCommands : Prop :=
  ∀ (d : Desc) (s : State), s.HandleFree →
    (s.Serves 0x0401 [(8, 8, 1)] d → s.idleOk = true → s.rd R.PM_CFG_CONF ≠ 2 → 5 / 100 ≤ s.vdc → s.idleRuns = false → ∃ t,
      exec (.diagOffstate d) s = .next t ∧ Accepted 0x0401 d (fun _ k => k = .diag) s t ∧ t.gd.diag.isSome = true ∧
      t.rd R.GD_DIAG_CTL_LOAD = pnum d 8 1 % 2) ∧
    (s.Serves 0x0401 [(8, 8, 1)] d → s.idleOk = false → ∃ t, exec (.diagOffstate d) s = .next t ∧ Finished 0x0401 d 0x19 [] s t ∧
      t.gd = s.gd) ∧
    (s.Serves 0x0402 [(8, 8, 255)] d → pnum d 8 1 ≤ 3 → s.on R.LN_STAT_DEGRADED = false →
      testB (s.rd R.LN_STAT_UNUSABLE) (pnum d 8 1) = false → s.hs.works = [] → s.bi.run = none → s.bi.jobs = [] → s.bi.wait = [] → s.bi.held = none → 0 < s.qCredit 58 → ∃ t j,
      exec (.bistLane d) s = .next t ∧ Accepted 0x0402 d (fun h k => k = .bist h (pnum d 8 1) 0 ∧ j.id = h) s t ∧
      t.bi.run = some j ∧ j.kind = 1 ∧ j.lane = pnum d 8 1 ∧ t.rd R.BI_STAT_BUSY = 1) ∧
    (s.Serves 0x0402 [(8, 8, 255)] d → pnum d 8 1 ≤ 3 → s.on R.LN_STAT_DEGRADED = true → ∃ t, exec (.bistLane d) s = .next t ∧
      Finished 0x0402 d 4 [] s t ∧ t.bi = s.bi) ∧
    (s.Serves 0x0403 [(8, 8, 255), (12, 19, 255)] d → pnum d 8 1 = 0 → 1 ≤ pnum d 16 4 → bistRange (pnum d 12 4) (pnum d 16 4) = true →
      s.bi.run = none → s.bi.jobs = [] → s.bi.wait = [] → s.bi.held = none → 0 < s.qCredit 58 → ∃ t j, exec (.bistMem d) s = .next t ∧
      Accepted 0x0403 d (fun h k => k = .bist h 0 (pnum d 16 4) ∧ j.id = h) s t ∧ t.bi.run = some j ∧ j.kind = 2 ∧
      j.start = pnum d 12 4 ∧ j.len = pnum d 16 4) ∧
    (s.Serves 0x0403 [(8, 8, 255), (12, 19, 255)] d → pnum d 8 1 ≤ 1 → 1 ≤ pnum d 16 4 →
      bistRange (pnum d 12 4) (pnum d 16 4) = false → ∃ t, exec (.bistMem d) s = .next t ∧ Finished 0x0403 d 0x13 [] s t) ∧
    (s.Serves 0x0404 [(8, 8, 127)] d → s.idleOk = true → s.bi.run = none → s.bi.jobs = [] → s.bi.wait = [] → s.bi.held = none → 0 < s.qCredit 58 → ∃ t j, exec (.bistGate d) s = .next t ∧
      Accepted 0x0404 d (fun h k => k = .bist h 0 0 ∧ j.id = h) s t ∧ t.bi.run = some j ∧ j.kind = 4 ∧ j.mask = pnum d 8 1) ∧
    (s.Serves 0x0404 [(8, 8, 127)] d → s.idleOk = false → ∃ t, exec (.bistGate d) s = .next t ∧ Finished 0x0404 d 0x19 [] s t ∧
      t.bi = s.bi) ∧
    (s.Serves 0x0405 [] d → s.on R.SD_CAL_CTL_EN = true → s.on R.SD_CAL_STAT_CALERR = false → ∃ t, exec (.calPass d) s = .next t ∧
      Accepted 0x0405 d (fun _ k => k = .calPass (s.rd R.SD_CAL_STAT_PASSES) s.sd.cal.applied s.sd.cal.ranged) s t) ∧
    (s.Serves 0x0405 [] d → s.on R.SD_CAL_CTL_EN = false ∨ s.on R.SD_CAL_STAT_CALERR = true → ∃ t,
      exec (.calPass d) s = .next t ∧ Finished 0x0405 d 4 [] s t) ∧
    (s.Serves 0x0406 [(8, 8, 255), (12, 23, 255)] d → pnum d 8 1 ≤ 3 → 1 ≤ pnum d 16 4 → pnum d 16 4 ≤ 0x1000000 →
      busRange (pnum d 12 4) (pnum d 16 4) = true → s.ccScan 0 = none → 0 < s.qCredit 60 → ∃ t x, exec (.crcScan d) s = .next t ∧
      Accepted 0x0406 d (fun h k => k = .crcScan h ∧ x.job = some h) s t ∧ t.ccScan 0 = some x ∧ x.start = pnum d 12 4 ∧
      x.len = pnum d 16 4 ∧ x.poly = pnum d 8 1 ∧ x.init = ccInit (pnum d 8 1)) ∧
    (s.Serves 0x0406 [(8, 8, 255), (12, 23, 255)] d → pnum d 8 1 ≤ 3 → 1 ≤ pnum d 16 4 →
      busRange (pnum d 12 4) (pnum d 16 4) = false → ∃ t, exec (.crcScan d) s = .next t ∧ Finished 0x0406 d 0x13 [] s t ∧ t.cc = s.cc) ∧
    (∀ b, s.Serves 0x0501 [(8, 27, 255)] d → pnum d 8 1 ≤ 15 → pnum d 9 1 = 8 → pnum d 10 2 ≠ 0 →
      bulkBad (pnum d 24 4) 16 = false → trigBad (pnum d 16 8) = false → s.ringBusy (pnum d 8 1) = false → d.bulkParity = none →
      s.spoilHit d (pnum d 24 4) (pnum d 24 4 + 16) = false →
      b = (List.range 8).map (fun i => fieldLE (s.memBytes (winAddr (0x8000 + pnum d 24 4)) 16) (2 * i) 2) →
      b.all nodeOk = true →
      (ringConfig (pnum d 8 1) (pnum d 10 2) (pnum d 12 4) false (pnum d 16 8) b s.cleared).bit R.TE_STAT_CONFIGURED (pnum d 8 1) = true →
      ∃ t, exec (.trConfig d) s = .next t ∧ Finished 0x0501 d 0 (bytesLE 1 (pnum d 8 1)) s t ∧
        t.bit R.TE_STAT_CONFIGURED (pnum d 8 1) = true ∧ t.rd (R.TE_Rr_CFG_DEC (pnum d 8 1)) = pnum d 10 2 ∧
        (t.ring (pnum d 8 1)).samples = []) ∧
    (s.Serves 0x0501 [(8, 27, 255)] d → pnum d 8 1 ≤ 15 → pnum d 9 1 = 8 → pnum d 10 2 ≠ 0 → bulkBad (pnum d 24 4) 16 = false →
      trigBad (pnum d 16 8) = false → s.ringBusy (pnum d 8 1) = true → ∃ t, exec (.trConfig d) s = .next t ∧
      Finished 0x0501 d 0x06 [] s t ∧ t.te = s.te) ∧
    (s.Serves 0x0502 [(8, 11, 255)] d → (ringsOf (pnum d 8 2)).all (fun r => s.ringConfigured r) = true → ∃ t,
      exec (.trArm d) s = .next t ∧ Finished 0x0502 d 0 (bytesLE 2 (t.rd R.TE_STAT_ARMED)) s t) ∧
    (∀ r ∈ ringsOf (pnum d 8 2), s.Serves 0x0502 [(8, 11, 255)] d → s.ringConfigured r = false → ∃ t,
      exec (.trArm d) s = .next t ∧ Finished 0x0502 d 4 [] s t ∧ t.te = s.te) ∧
    (s.Serves 0x0503 [(8, 9, 255)] d → (∀ r ∈ ringsOf (pnum d 8 2), s.bit R.TE_STAT_ARMED r = true) → ∃ t,
      exec (.trTrigger d) s = .next t ∧ Finished 0x0503 d 0 (bytesLE 4 s.tickno) s t ∧
      ∀ r ∈ ringsOf (pnum d 8 2), (t.ring r).asked = true) ∧
    (∀ r ∈ ringsOf (pnum d 8 2), s.Serves 0x0503 [(8, 9, 255)] d → s.bit R.TE_STAT_ARMED r = false → ∃ t,
      exec (.trTrigger d) s = .next t ∧ Finished 0x0503 d 4 [] s t ∧ t.te = s.te) ∧
    (s.Serves 0x0504 [(8, 8, 255), (12, 23, 255)] d → pnum d 8 1 ≤ 15 → 1 ≤ pnum d 16 4 → pnum d 16 4 ≤ 0x8000 →
      bulkBad (pnum d 20 4) (pnum d 16 4) = false →
      (s.bit R.TE_STAT_STOPPED (pnum d 8 1) = true → ∃ t r, exec (.trRead d) s = .next t ∧
        Accepted 0x0504 d (fun _ k => k = .ready 0 r) s t) ∧
      (s.bit R.TE_STAT_STOPPED (pnum d 8 1) = false → ∃ t, exec (.trRead d) s = .next t ∧ Finished 0x0504 d 1 [] s t)) ∧
    (∀ first n, s.Serves 0x0505 [(8, 19, 255)] d → 1 ≤ pnum d 14 2 → pnum d 14 2 ≤ 1024 →
      bulkBad (pnum d 16 4) (32 * pnum d 14 2) = false → first = max (pnum d 8 6) s.logOld →
      n = min (pnum d 14 2) (s.logSeq - first) → ∃ t kind, exec (.evRead d) s = .next t ∧
      Accepted 0x0505 d (fun _ k => k = kind) s t ∧
      (kind = .ready 0 (bytesLE 6 first ++ bytesLE 2 n ++ bytesLE 6 (first + n)) ∨
        ∃ job tail, kind = .norRead job (pnum d 16 4) tail (bytesLE 6 first ++ bytesLE 2 n ++ bytesLE 6 (first + n))))

/-- Link and consist, pair, safety, NOR and firmware commands -/
def Obligations.LinkPairSafetyAndFirmwareCommands : Prop :=
  ∀ (d : Desc) (s : State), s.HandleFree →
    (s.Serves 0x0601 [] d → (s.isRoot = true → ∃ t, exec (.lkEnum d) s = .next t ∧ Accepted 0x0601 d (fun _ k => k = .enumerate) s t) ∧
      (s.isRoot = false → ∃ t, exec (.lkEnum d) s = .next t ∧ Finished 0x0601 d 1 [] s t ∧ t.bl = s.bl)) ∧
    (s.Serves 0x0602 [(8, 8, 255), (10, 13, 255)] d → pnum d 8 1 ≤ 127 → pnum d 10 2 ≤ 1024 →
      (s.linkLocked = true → s.mayForm = true → exchangeBound 0 1 1 ≤ s.rd R.BL_WIN_LEN → s.consistFree (pnum d 8 1) = true → ∃ t,
        exec (.csForm d) s = .next t ∧ Accepted 0x0602 d (fun _ k => k = .csForm (pnum d 8 1) (pnum d 12 2) (pnum d 10 2)) s t) ∧
      (s.linkLocked = false → ∃ t, exec (.csForm d) s = .next t ∧ Finished 0x0602 d 4 [] s t)) ∧
    (∀ load, s.Serves 0x0603 [(10, 14, 255)] d → 1 ≤ pnum d 10 2 → pnum d 10 2 ≤ 1024 → 1 ≤ pnum d 14 1 → pnum d 14 1 ≤ 63 →
      load = (hopsTo (pnum d 10 2) s).2.consistLoad ((pnum d 14 1, pnum d 10 2) :: (hopsTo (pnum d 10 2) s).2.memberSlots)
        (fun u => if u = pnum d 10 2 then (hopsTo (pnum d 10 2) s).1 else (hopsTo (pnum d 10 2) s).2.memberHops u) →
      (s.isHead = true → s.consistPending = false → s.slotsUsed.length < 64 → s.slotOf (pnum d 10 2) = none →
        pnum d 10 2 ≠ s.uid → s.slotsUsed.contains (pnum d 14 1) = false →
        exchangeBound load.1 load.2.1 load.2.2 ≤ s.rd R.BL_WIN_LEN →
        ∃ t a, exec (.csAdd d) s = .next t ∧ Accepted 0x0603 d (fun _ k => k = .csAdd) s t ∧ t.bl.add = some a ∧
          a.uid = pnum d 10 2 ∧ a.slot = pnum d 14 1 ∧ a.weight = pnum d 12 2 ∧ a.sn = (s.rd R.BL_SN + 64) % 2 ^ 32) ∧
      (s.isHead = false → ∃ t, exec (.csAdd d) s = .next t ∧ Finished 0x0603 d 1 [] s t ∧ t.bl = s.bl)) ∧
    (s.Serves 0x0604 [(10, 11, 255)] d →
      (∀ slot, s.isHead = true → pnum d 10 2 ≠ s.uid → s.slotOf (pnum d 10 2) = some slot → ∃ t, exec (.csRemove d) s = .next t ∧
        Accepted 0x0604 d (fun _ k => k = .csRemove (pnum d 10 2)) s t ∧ t.bl.removing = some (pnum d 10 2)) ∧
      (s.isHead = false ∨ s.slotOf (pnum d 10 2) = none → ∃ t, exec (.csRemove d) s = .next t ∧ Finished 0x0604 d 1 [] s t)) ∧
    (s.Serves 0x0605 [] d → (s.isHead = true → ∃ t, exec (.csDissolve d) s = .next t ∧
        Accepted 0x0605 d (fun _ k => k = .csDissolve s.memberSlots.length) s t) ∧
      (s.isHead = false → ∃ t, exec (.csDissolve d) s = .next t ∧ Finished 0x0605 d 1 [] s t)) ∧
    (s.Serves 0x0701 [] d → (s.releaseRefused = none → ∃ t, exec (.prRelease d) s = .next t ∧
        Accepted 0x0701 d (fun _ k => k = .prRelease) s t ∧ (s.pstate ≠ 5 → s.rd R.PM_CFG_CONF = 2 → s.isStandby = false →
          t.pm.relStep = 1)) ∧
      (∀ st, s.releaseRefused = some st → ∃ t, exec (.prRelease d) s = .next t ∧ Finished 0x0701 d st (bytesLE 1 s.pstate) s t ∧
        t.pm = s.pm)) ∧
    (s.Serves 0x0702 [] d → (s.engageRefused = false → ∃ t, exec (.prEngage d) s = .next t ∧
        Accepted 0x0702 d (fun _ k => k = .prEngage) s t ∧ (s.pstate = 5 → t.pstate = 2 ∧ t.pm.released = false)) ∧
      (s.engageRefused = true → ∃ t, exec (.prEngage d) s = .next t ∧ Finished 0x0702 d 4 [] s t ∧ t.pm = s.pm)) ∧
    (s.Serves 0x0703 [(8, 13, 255), (16, 19, 255)] d →
      (pnum d 16 4 = s.sb.code → s.pstate = 0 ∨ s.pstate = 4 → s.on R.SB_LOCK_OPEN = false → s.sb.pendPser = none → ∃ t,
        exec (.prPser d) s = .next t ∧ t.sb.pendPser = some (pnum d 8 6) ∧ ∃ j, Accepted 0x0703 d
          (fun _ k => k = .prPser j (paramCrc (s.wordWithSerial (pnum d 8 6)))) s t) ∧
      (pnum d 16 4 ≠ s.sb.code → ∃ t, exec (.prPser d) s = .next t ∧ Finished 0x0703 d 0x17 [] s t ∧ t.sb = s.sb)) ∧
    (s.Serves 0x0801 [(8, 11, 255), (12, 12, 1), (16, 19, 255)] d →
      (s.drive ≤ 1 → s.on R.SB_STAT_STO = true → pnum d 8 4 = s.sb.code → ∃ t, exec (.safeOpen d) s = .next t ∧
        Finished 0x0801 d 0 [] s t ∧ t.rd R.SB_LOCK_LOCKED = 0 ∧ t.rd R.SB_LOCK_OPEN = 1 ∧ t.sb.pendPser = none ∧
        t.sb.code = (if testB (pnum d 12 1) 0 then pnum d 16 4 else s.sb.code)) ∧
      (2 ≤ s.drive ∨ s.on R.SB_STAT_STO = false ∨ pnum d 8 4 ≠ s.sb.code → ∃ t, exec (.safeOpen d) s = .next t ∧
        Finished 0x0801 d 0x17 [] s t ∧ t.sb = s.sb ∧ t.rd R.SB_LOCK_LOCKED = s.rd R.SB_LOCK_LOCKED)) ∧
    (s.Serves 0x0802 [] d →
      (s.on R.SB_LOCK_OPEN = true → ∃ t, exec (.safeClose d) s = .next t ∧ t.sb.closed = true ∧
        t.rd R.SB_CRC_CALC = paramCrc s.word ∧ ∃ j, Accepted 0x0802 d (fun _ k => k = .safeClose j) s t ∧ 1 ≤ j.length ∧
        (s.nv.wait = [] → t.nv.jobs.length + t.nv.wait.length = s.nv.jobs.length + j.length)) ∧
      (s.on R.SB_LOCK_OPEN = false → ∃ t, exec (.safeClose d) s = .next t ∧ Finished 0x0802 d 1 [] s t ∧ t.sb = s.sb)) ∧
    (s.Serves 0x0803 [(8, 11, 255), (12, 12, 1)] d → testB (pnum d 12 1) 0 = false →
      (s.sb.closed = true → (∀ i, i < 4 → s.rd (R.SB_SINi_CFG_ROLE i) < 6) → pnum d 8 4 = s.rd R.SB_CRC_CALC → ∃ t j,
        exec (.safeConfirm d) s = .next t ∧ Accepted 0x0803 d (fun _ k => k = .safeConfirm j) s t ∧ t.rd R.SB_LOCK_LOCKED = 1 ∧
        t.rd R.SB_LOCK_OPEN = 0 ∧ t.rd R.SB_CRC_CONF = s.rd R.SB_CRC_CALC ∧ t.rd R.SB_STAT_CRCERR = 0 ∧ (38, 0x0106) ∈ t.te.evs) ∧
      (s.sb.closed = true → (∀ i, i < 4 → s.rd (R.SB_SINi_CFG_ROLE i) < 6) → pnum d 8 4 ≠ s.rd R.SB_CRC_CALC → ∃ t,
        exec (.safeConfirm d) s = .next t ∧ Finished 0x0803 d 0x18 (bytesLE 4 (s.rd R.SB_CRC_CONF)) s t ∧ t.sb.closed = false ∧
        t.rd R.SB_LOCK_LOCKED = s.rd R.SB_LOCK_LOCKED) ∧
      (s.sb.closed = false → ∃ t, exec (.safeConfirm d) s = .next t ∧ Finished 0x0803 d 0x01 (bytesLE 4 (s.rd R.SB_CRC_CONF)) s t ∧
        t.sb = s.sb)) ∧
    (s.Serves 0x0804 [] d → ∃ t, exec (.safeStatus d) s = .next t ∧ Finished 0x0804 d 0 (bytesLE 2 (s.rd R.SB_SFLT) ++
      bytesLE 1 (s.rd R.SB_FIRST_CODE) ++ bytesLE 1 (s.rd R.SB_LOCK_LOCKED + 2 * s.rd R.SB_LOCK_OPEN + 4 * b2n s.sb.closed +
        8 * b2n s.sb.pendPser.isSome) ++ bytesLE 4 (s.rd R.SB_FIRST_TICK) ++ bytesLE 4 (s.rd R.SB_CRC_CALC) ++
      bytesLE 4 (s.rd R.SB_CRC_CONF)) s t ∧ t.sb = s.sb) ∧
    (s.Serves 0x0901 [(8, 23, 255)] d → pnum d 8 4 = 0 → 1 ≤ pnum d 12 4 → pnum d 12 4 ≤ 0x8000 →
      bulkBad (pnum d 16 4) (pnum d 12 4) = false → pnum d 12 4 ≤ pnum d 20 4 → pnum d 20 4 ≤ 0x1000000 →
      (s.swapPending = false → s.partnerSwaps = false → s.stepRuns = false → s.norFull = false →
        s.idleSectors.any s.isRetired = false → s.nv.wait = [] → d.bulkParity = none →
        s.spoilHit d (pnum d 16 4) (pnum d 16 4 + pnum d 12 4) = false → ∃ t j a, exec (.fwStage d) s = .next t ∧
        Accepted 0x0901 d (fun h k => k = .firmware j a 0 (bytesLE 4 (pnum d 12 4)) ∧ t.nv.journal.handle = h) s t ∧
        t.nv.journal.istate = 1 ∧ t.nv.journal.total = pnum d 20 4 ∧ a.staged = pnum d 12 4 ∧
        a.istate = (if pnum d 12 4 = pnum d 20 4 then 2 else 1) ∧ t.nv.jobs.length + t.nv.wait.length = s.nv.jobs.length + 2) ∧
      (s.stepRuns = true → ∃ t, exec (.fwStage d) s = .next t ∧ Finished 0x0901 d 0x06 [] s t ∧ t.nv = s.nv)) ∧
    (s.Serves 0x0902 [] d →
      (s.nv.journal.istate = 2 ∨ s.nv.journal.istate = 3 → s.nv.journal.staged = s.nv.journal.total → s.stepRuns = false →
        s.nv.wait = [] → ∃ t j, exec (.fwVerify d) s = .next t ∧
        Accepted 0x0902 d (fun h k => k = .fwVerify j.id ∧ t.nv.journal.handle = h) s t ∧
        (t.nv.jobs ++ t.nv.wait).getLast? = some j ∧ j.req = .read [(s.idleSlot, s.nv.journal.total)]) ∧
      (s.nv.journal.istate ≠ 2 → s.nv.journal.istate ≠ 3 → ∃ t, exec (.fwVerify d) s = .next t ∧ Finished 0x0902 d 1 [] s t ∧
        t.nv = s.nv)) ∧
    (s.Serves 0x0903 [(8, 8, 1), (12, 15, 255)] d → testB (pnum d 8 1) 0 = false → s.swapPending = false → s.partnerSwaps = false →
      s.stepRuns = false → s.parSaves = false →
      (s.nv.journal.istate = 3 → ∃ t, exec (.fwSwap d) s = .next t ∧ Accepted 0x0903 d (fun _ k => k = .fwSwap s.tick64) s t ∧
        t.nv.journal.istate = 4 ∧ t.nv.journal.swaptick = s.tick64 ∧ t.swapPending = true) ∧
      (s.nv.journal.istate ≠ 3 → ∃ t, exec (.fwSwap d) s = .next t ∧ Finished 0x0903 d 1 [] s t ∧ t.nv = s.nv)) ∧
    (s.Serves 0x0904 [] d → s.swapPending = false →
      (s.stepRuns = false → s.nv.wait = [] → ∃ t j a, exec (.fwDiscard d) s = .next t ∧
        Accepted 0x0904 d (fun h k => k = .firmware j a 0 [] ∧ t.nv.journal.handle = h) s t ∧ a.istate = 0 ∧ a.staged = 0 ∧
        t.nv.jobs.length + t.nv.wait.length = s.nv.jobs.length + 2) ∧
      (s.stepRuns = true → ∃ t, exec (.fwDiscard d) s = .next t ∧ Finished 0x0904 d 0x06 [] s t ∧ t.nv = s.nv)) ∧
    (s.Serves 0x0905 [(8, 8, 255), (12, 23, 255)] d → 1 ≤ pnum d 16 4 → pnum d 16 4 ≤ 0x8000 →
      pnum d 12 4 + pnum d 16 4 ≤ (nvRegion (pnum d 8 1)).2 → bulkBad (pnum d 20 4) (pnum d 16 4) = false → s.nv.wait = [] → ∃ t j,
      exec (.nvRead d) s = .next t ∧
      Accepted 0x0905 d (fun _ k => k = .norRead j.id (pnum d 20 4) [] (bytesLE 4 (pnum d 16 4))) s t ∧
      t.nv.jobs ++ t.nv.wait = s.nv.jobs ++ [j] ∧ j.req = .read [((nvRegion (pnum d 8 1)).1 + pnum d 12 4, pnum d 16 4)])

/-- Temperatures, supplies, the NOR controller, the log -/
def Obligations.ThermalSupplyAndNor : Prop :=
  ∀ s : State, s.Running →
    (∀ reading : BitVec 32, testB s.th.measured 0 = false ∨ (s.th.measuredAt.toList[0]?).getD 0 + s.tInterval 0 ≤ s.time.tb →
      ∃ t, exec (.tempMeasurement 0 reading) s = .next t ∧
      t.rd (R.TH_Tn_RAW 0) = reading.toNat % 2 ^ 16 ∧ testB t.th.measured 0 = true ∧
      (s.th.measured = 0 → s.th.suspect = 0 → s.th.stale = 0 →
        (135 ≤ tempOf (reading.toNat % 2 ^ 16) → s.sys.latchedOff = false → t.sys.latchedOff = true ∧ t.sys.shutCause = 1 ∧
          t.drive = 0 ∧ t.sb.supply = false ∧ ∀ c, c < 7 → (t.gch c).drive = false) ∧
        (tempOf (reading.toNat % 2 ^ 16) ≤ 110 → t.rd R.TH_FTH_F = 0x8000 ∧ t.sys = s.sys))) ∧
    (∀ (n : Fin 11) (reading : BitVec 32), 1 ≤ n.val → n.val ≤ 7 → s.th.pxg.toList[n.val - 1]? = some none →
      exec (.tempMeasurement n reading) s = .next s.cleared) ∧
    (∀ (n : Fin 11) (reading : BitVec 32), 8 ≤ n.val → s.rd R.TH_TXCFG / 4 ^ (n.val - 8) % 4 ≠ 1 →
      s.rd R.TH_TXCFG / 4 ^ (n.val - 8) % 4 ≠ 2 → exec (.tempMeasurement n reading) s = .next s.cleared) ∧
    (s.sys.latchedOff = true → ∃ t, exec .pxCHalt s = .next t ∧ t.sys.halted = true ∧ SameOutside [.sys, .out] s t) ∧
    (s.sys.latchedOff = false → exec .pxCHalt s = .next s.cleared) ∧
    (∀ vin vhb : BitVec 16,
      (∃ t, exec (.auxLoss vin vhb) s = .next t ∧ t.rd R.TH_AUX_VIN = vin.toNat ∧ t.rd R.TH_AUX_VHB = vhb.toNat ∧
        t.rd R.TH_SUP_AUXOK = 0 ∧ t.rd R.TH_SUP_RIDE = 1 ∧ t.te.evs = s.te.evs ++ [(40, 0x31A)] ∧
        t.rd R.TH_RIDECNT = (if s.on R.TH_SUP_RIDE then s.rd R.TH_RIDECNT else min (s.rd R.TH_RIDECNT + 1) 0xFFFFFFFF)) ∧
      (∃ t, exec (.auxOv vin vhb) s = .next t ∧ t.rd R.TH_SUP_OVOPEN = 1 ∧ t.rd R.TH_SUP_RIDE = 1 ∧
        t.te.evs = s.te.evs ++ [(40, 0x30B)] ∧
        t.rd R.TH_RIDECNT = (if s.on R.TH_SUP_RIDE then s.rd R.TH_RIDECNT else min (s.rd R.TH_RIDECNT + 1) 0xFFFFFFFF)) ∧
      (∃ t, exec (.auxBack vin vhb) s = .next t ∧ t.rd R.TH_SUP_AUXOK = 1 ∧
        t.te.evs = s.te.evs ++ (if s.on R.TH_SUP_RIDE then [(40, 0x31B)] else []) ∧
        t.on R.TH_SUP_RIDE = (s.on R.TH_SUP_RIDE && s.on R.TH_SUP_OVOPEN)) ∧
      (∃ t, exec (.switchReclose vin vhb) s = .next t ∧ t.rd R.TH_SUP_OVOPEN = 0 ∧
        t.on R.TH_SUP_RIDE = (s.on R.TH_SUP_RIDE && !s.on R.TH_SUP_AUXOK) ∧ SameOutside [.regs, .out] s t) ∧
      (∃ t, exec (.hbok vin vhb) s = .next t ∧ t.rd R.TH_SUP_HBOK = 1 ∧ SameOutside [.regs, .out] s t) ∧
      (s.on R.TH_SUP_RIDE = true → s.sys.latchedOff = false → ∃ t, exec (.holdupBusLow vin vhb) s = .next t ∧
        t.sys.latchedOff = true ∧ t.sys.shutCause = (if s.on R.TH_SUP_OVOPEN then 3 else 2) ∧ t.drive = 0 ∧
        t.rd R.PM_STAT_OWN = 0 ∧ t.sb.supply = false ∧ ∀ c, c < 7 → (t.gch c).drive = false) ∧
      (s.on R.TH_SUP_RIDE = false → ∃ t, exec (.holdupBusLow vin vhb) s = .next t ∧ SameOutside [.regs, .out] s t)) ∧
    (∀ j rest, s.nv.run = none → s.nv.jobs = j :: rest → ∃ t r, exec .norJob s = .next t ∧ t.nv.run = some r ∧ r.id = j.id ∧
      r.req = j.req ∧ t.nv.jobs = rest ∧ t.rd R.NV_STAT_OP = norOpCode r) ∧
    (s.nv.run.isSome = true ∨ s.nv.jobs = [] → exec .norJob s = .next s.cleared) ∧
    (s.nv.run = none → ∀ ok, exec (.norOperationComplete ok) s = .next s.cleared) ∧
    (∀ j op ops, s.nv.run = some j → j.ops = op :: ops →
      (∀ n, op = .erase n → ∃ t, exec (.norOperationComplete true) s = .next t ∧ (∀ k, k < 0x10000 → t.norByte (n * 0x10000 + k) = 0xFF) ∧
        t.rd R.NV_ERASECNT = min (s.rd R.NV_ERASECNT + 1) 0xFFFFFFFF) ∧
      (∀ a bs, op = .program a bs → s.nv.torn = [] → ∃ t, exec (.norOperationComplete true) s = .next t ∧
        (∀ i b, bs[i]? = some b → t.norByte (a + i) = b &&& s.norByte (a + i)) ∧
        ∀ x, x < a ∨ a + bs.length ≤ x → t.norByte x = s.norByte x) ∧
      (∀ xs, op = .read xs → ∀ ok, ∃ t, exec (.norOperationComplete ok) s = .next t ∧ t.nor = s.nor ∧
        (s.nv.own = [] → ops ≠ [] → t.nv.run = some { j with ops := ops, fails := 0, data := j.data ++ (norStep s op).1 })) ∧
      (ops = [] → j.own = false → s.nv.own = [] → 0 < s.qCredit 57 → ∃ t, exec (.norOperationComplete true) s = .next t ∧
        t.nv.run = none ∧ t.nv.done = s.nv.done ++ [(j.id, j.failed, j.data ++ (norStep s op).1)]) ∧
      (ops = [] → j.own = false → s.qCredit 57 = 0 → ∃ t, exec (.norOperationComplete true) s = .next t ∧
        t.nv.run = some { j with ops := [], fails := 0, data := j.data ++ (norStep s op).1 } ∧ t.nv.done = s.nv.done) ∧
      (ops ≠ [] → s.nv.own = [] → ∃ t, exec (.norOperationComplete true) s = .next t ∧
        t.nv.run = some { j with ops := ops, fails := 0, data := j.data ++ (norStep s op).1 } ∧ t.nv.done = s.nv.done) ∧
      (∀ n, j.fails = 0 → op.sector = some n → ∃ t, exec (.norOperationComplete false) s = .next t ∧ t.nv.run = some { j with fails := 1 } ∧ t.nor = s.nor ∧
        t.rd R.NV_FAILCNT = min (s.rd R.NV_FAILCNT + 1) 0xFFFFFFFF) ∧
      (∀ n, 1 ≤ j.fails → op.sector = some n → j.own = false → s.nv.own = [] → 0 < s.qCredit 57 → ∃ t,
        exec (.norOperationComplete false) s = .next t ∧ t.nv.run = none ∧ t.nv.done = s.nv.done ++ [(j.id, true, j.data)] ∧
        t.nor = s.nor ∧ t.nv.retired = (s.nv.retired ++ [n]).take 97)) ∧
    (s.mp.buffer ≠ [] → s.logBatch.length < s.mp.buffer.length ∨ 8 ≤ s.logBatch.length ∨ s.mp.bufferAt + msCyc 100 ≤ s.time.tb → ∃ t,
      exec .logPageProgram s = .next t ∧ t.mp.buffer = s.mp.buffer.drop s.logBatch.length ∧
      (s.nv.wait = [] → t.nv.jobs.length + t.nv.wait.length = s.nv.jobs.length + 1)) ∧
    (s.mp.buffer = [] ∨ (s.logBatch.length = s.mp.buffer.length ∧ s.logBatch.length < 8 ∧ s.time.tb < s.mp.bufferAt + msCyc 100) →
      exec .logPageProgram s = .next s.cleared)

/-- Event pass, self-test jobs, CRC scans, trace rings -/
def Obligations.SelfTestScanAndTrace : Prop :=
  ∀ s : State, s.Running →
    (s.rd R.HS_STAT_MPSTATE ≠ 0 → exec .eventRingPass s = .next s.cleared) ∧
    (s.rd R.HS_STAT_MPSTATE = 0 → s.nv.logSeq < 2 ^ 48 → ∃ t, exec .eventRingPass s = .next t ∧ t.mp.log = [] ∧
      (∀ q ∈ [38, 39, 40, 41], (t.queue q).items = [] ∧ t.rd (R.QM_Qnn_DROP_COUNT q) = 0) ∧
      ∃ n, n = ([38, 39, 40, 41].map (fun q => (s.queue q).items.length + (if s.rd (R.QM_Qnn_DROP_COUNT q) = 0 then 0 else 1))).sum +
          s.mp.log.length ∧
        t.nv.logSeq = (s.nv.logSeq + n) % 2 ^ 48 ∧ t.mp.buffer.length = s.mp.buffer.length + n) ∧
    (s.bi.run = none → s.bi.jobs = [] → ∀ fail, exec (.bistJobResult fail) s = .next s.cleared) ∧
    (∀ j rest fail, s.bi.run = none → s.bi.jobs = j :: rest → s.bi.held = none → ∃ t, exec (.bistJobResult fail) s = .next t ∧ t.bi.run = some j ∧
      t.bi.jobs = rest ∧ t.rd R.BI_STAT_BUSY = 1) ∧
    (∀ j, s.bi.run = some j → s.bi.abort = false → 0 < s.qCredit 59 →
      (s.ln.jobs.any (fun x => x.handle == 0x20000) = false → s.bistSlicing = false → ∃ t e, exec (.bistJobResult none) s = .next t ∧
        t.bi.done = s.bi.done ++ [e] ∧ e.id = j.id ∧ e.status = 0) ∧
      (∀ (unit : Fin 7) (index : BitVec 24) (bit : Byte), j.kind = 1 → j.lane < 32 → ∃ t e,
        exec (.bistJobResult (some (.lane unit index bit))) s = .next t ∧ t.bi.done = s.bi.done ++ [e] ∧ e.id = j.id ∧
        e.status = 0x1E ∧ testB t.ln.bistFailed j.lane = true ∧ t.rd R.BI_FAIL_KIND = 1 ∧ t.rd R.BI_FAIL_BIT = bit.toNat ∧
        t.rd R.BI_FAILADDR = unit.val * 2 ^ 24 + index.toNat ∧ (39, 0x21A) ∈ t.te.evs) ∧
      (∀ (ch : Fin 7) (item : Fin 8), j.kind = 4 → ∃ t e, exec (.bistJobResult (some (.gate ch item))) s = .next t ∧
        t.bi.done = s.bi.done ++ [e] ∧ e.id = j.id ∧ e.status = 0x1E ∧ e.channels = 2 ^ ch.val ∧ t.rd R.BI_FAIL_KIND = 4 ∧
        t.rd R.BI_FAILADDR = ch.val * 2 ^ 24 + item.val ∧ (39, 0x21A) ∈ t.te.evs)) ∧
    (s.bi.run = none → exec .biCtlAbort s = .next s.cleared) ∧
    (∀ j, s.bi.run = some j →
      (j.kind = 4 → exec .biCtlAbort s = .next s.cleared) ∧
      (j.kind ≠ 4 → s.bistSlicing = true → ∃ t, exec .biCtlAbort s = .next t ∧ t.bi = { s.bi with abort := true }) ∧
      (j.kind ≠ 4 → s.bistSlicing = false → s.qCredit 59 = 0 → ∃ t e, exec .biCtlAbort s = .next t ∧ t.bi.held = some e ∧
        t.bi.done = s.bi.done ∧ e.id = j.id ∧ e.status = 0x1B) ∧
      (j.kind ≠ 4 → s.bistSlicing = false → 0 < s.qCredit 59 → ∃ t e, exec .biCtlAbort s = .next t ∧ t.bi.done = s.bi.done ++ [e] ∧ e.id = j.id ∧
        e.status = 0x1B)) ∧
    (∀ (k : Fin 4) (value : Word), testB value.toNat 31 = true →
      (s.on R.CC_CFG_ARR = false → s.ccScan k = none → 1 ≤ s.rd (R.CC_CHk_LEN k) → s.rd (R.CC_CHk_LEN k) ≤ 0x1000000 →
        busRange (s.rd (R.CC_CHk_START k)) (s.rd (R.CC_CHk_LEN k)) = true → ∃ t x, exec (.ccChkCtlGo k value) s = .next t ∧
        t.ccScan k = some x ∧ x.start = s.rd (R.CC_CHk_START k) ∧ x.len = s.rd (R.CC_CHk_LEN k) ∧ x.job = none ∧
        x.poly = value.toNat % 4 ∧ x.cmp = testB value.toNat 3 ∧ t.bit R.CC_STAT_BUSY k = true) ∧
      ((s.ccScan k).isSome = true → ∃ t, exec (.ccChkCtlGo k value) s = .next t ∧ t.rd R.CC_STAT_CFGERR = 1 ∧ t.cc = s.cc)) ∧
    (∀ (k : Fin 4) (w : Word),
      (s.on R.CC_CFG_ARR = false → s.ccScan k = none → ∃ t v, exec (.ccChkData k w) s = .next t ∧
        v = ccRun (s.rd (R.CC_CHk_CTL_POLY k)) (s.rd (R.CC_CHk_VAL k)) (bytesLE 4 w.toNat) ∧
        t.rd (R.CC_CHk_VAL k) = v % 2 ^ 32 ∧ t.rd (R.CC_CHk_RES k) = ccFinal (s.rd (R.CC_CHk_CTL_POLY k)) v % 2 ^ 32 ∧
        SameOutside [.regs, .out] s t) ∧
      ((s.ccScan k).isSome = true → ∃ t, exec (.ccChkData k w) s = .next t ∧ t.rd R.CC_STAT_CFGERR = 1 ∧
        t.rd (R.CC_CHk_VAL k) = s.rd (R.CC_CHk_VAL k))) ∧
    (∀ (k : Fin 4),
      (∀ perr, s.ccScan k = none → exec (.crcScanEnd k perr) s = .next s.cleared) ∧
      (∀ x, s.ccScan k = some x → x.ended = false → x.job = none ∨ 0 < s.qCredit 61 → ∃ t res, exec (.crcScanEnd k none) s = .next t ∧
        res = ccFinal x.poly (ccRun x.poly x.init ((List.range x.len).map (fun i => s.busByte (x.start + i)))) ∧ t.ccScan k = none ∧
        t.rd (R.CC_CHk_RES k) = res % 2 ^ 32 ∧ t.bit R.CC_IRQ_DONE k = true ∧
        t.bit R.CC_IRQ_MISM k = (s.bit R.CC_IRQ_MISM k || (x.cmp && res != s.rd (R.CC_CHk_EXP k)))) ∧
      (∀ x (o : BitVec 24), s.ccScan k = some x → x.ended = false → x.job = none ∨ 0 < s.qCredit 61 → o.toNat < x.len → ∃ t, exec (.crcScanEnd k (some o)) s = .next t ∧
        t.ccScan k = none ∧ t.bit R.CC_STAT_PERR k = true ∧ t.rd (R.CC_CHk_DONE k) = o.toNat ∧ t.bit R.CC_IRQ_DONE k = true ∧
        t.bit R.CC_IRQ_MISM k = s.bit R.CC_IRQ_MISM k) ∧
      (∀ x perr, s.ccScan k = some x → x.ended = false → x.job.isSome = true → s.qCredit 61 = 0 → ∃ t, exec (.crcScanEnd k perr) s = .next t ∧
        t.ccScan k = some { x with ended := true } ∧ t.bit R.CC_IRQ_DONE k = true)) ∧
    (s.te.sampled = true → exec .traceSample s = .next s.cleared) ∧
    (s.te.sampled = false → ∃ t, exec .traceSample s = .next t ∧ t.te.sampled = true ∧ t.te.evs = [] ∧ t.pm.own.isSome = true ∧
      t.pm.hbseq = (s.pm.hbseq + 1) % 2 ^ 32 ∧
      t.time.tb = max s.time.tb (s.time.tbLast + ((s.taskSlot 3).1 + (s.taskSlot 3).2 + 112))) ∧
    (∀ r : Fin 16,
      (s.bit R.TE_STAT_TRIGGERED r = false ∨ (s.ring r).taken < s.rd (R.TE_Rr_CAP r) - s.rd (R.TE_Rr_PRE r) →
        exec (.ringStop r) s = .next s.cleared) ∧
      (s.bit R.TE_STAT_TRIGGERED r = true → s.rd (R.TE_Rr_CAP r) - s.rd (R.TE_Rr_PRE r) ≤ (s.ring r).taken → ∃ t,
        exec (.ringStop r) s = .next t ∧ t.bit R.TE_STAT_TRIGGERED r = false ∧ t.bit R.TE_STAT_STOPPED r = true) ∧
      (s.te.failed = [] → s.ringConfigured r = true → ∃ t, exec (.teCtlArm (BitVec.ofNat 16 (2 ^ r.val))) s = .next t ∧
        t.bit R.TE_STAT_ARMED r = true ∧ t.bit R.TE_STAT_TRIGGERED r = false ∧ t.bit R.TE_STAT_STOPPED r = false ∧
        (t.ring r).samples = [] ∧ t.rd (R.TE_Rr_CAP r) = s.ringCap r % 2 ^ 32) ∧
      (s.te.failed = [] → s.ringConfigured r = false → ∃ t, exec (.teCtlArm (BitVec.ofNat 16 (2 ^ r.val))) s = .next t ∧
        t.bit R.TE_STAT_ARMED r = s.bit R.TE_STAT_ARMED r ∧ t.bit R.TE_STAT_CONFIGURED r = false ∧ t.te = s.te) ∧
      (s.bit R.TE_STAT_ARMED r = true ∨ s.bit R.TE_STAT_TRIGGERED r = true → ∃ t,
        exec (.teCtlDisarm (BitVec.ofNat 16 (2 ^ r.val))) s = .next t ∧ t.bit R.TE_STAT_ARMED r = false ∧
        t.bit R.TE_STAT_TRIGGERED r = false ∧ (t.ring r).samples = []) ∧
      (s.bit R.TE_STAT_ARMED r = false → s.bit R.TE_STAT_TRIGGERED r = false →
        exec (.teCtlDisarm (BitVec.ofNat 16 (2 ^ r.val))) s = .next s.cleared) ∧
      (s.bit R.TE_STAT_ARMED r = true → ∃ t, exec (.teTrig (BitVec.ofNat 16 (2 ^ r.val))) s = .next t ∧ (t.ring r).asked = true ∧
        SameOutside [.te, .out] s t) ∧
      (s.bit R.TE_STAT_ARMED r = false → exec (.teTrig (BitVec.ofNat 16 (2 ^ r.val))) s = .next s.cleared))

/-- A pop from an empty queue -/
def Obligations.PopOfAnEmptyQueue : Prop :=
  ∀ s : State,
    (∀ n, n < 64 → (s.queue n).items = [] ∨ (s.queue n).off = true → (s.qPop n).1 = none ∧
      (s.qPop n).2.rd (R.QM_Qnn_FLAG_UNDERRUN n) = 1 ∧ ∀ m, (s.qPop n).2.qCredit m = s.qCredit m) ∧
    (∀ (n : Fin 64) bad, s.Running → n.val < 8 → s.qFill n = 0 → ∃ t, exec (.queuePop n bad) s = .next t ∧ t.out.item = none ∧
      t.rd (R.QM_Qnn_FLAG_UNDERRUN n) = 1 ∧ (∀ m, t.qCredit m = s.qCredit m) ∧ SameOutside [.regs, .out] s t) ∧
    (∀ (n : Fin 64) bad, s.Running → 8 ≤ n.val → n.val ≠ 53 ∨ s.ln.bankTick = none → (s.queue n).items = [] ∨ (s.queue n).off = true →
      ∃ t, exec (.queuePop n bad) s = .next t ∧ t.out.item = none ∧ t.rd (R.QM_Qnn_FLAG_UNDERRUN n) = 1 ∧
        (∀ m, t.qCredit m = s.qCredit m) ∧ SameOutside [.regs, .out] s t)

/-- Reads and writes of registers by the MP, pushes and pops -/
def Obligations.RegisterAccessAndQueues : Prop :=
  ∀ s : State, s.Running →
    (∃ t, exec .tbCntLoRead s = .next t ∧ t.out.readData = some (BitVec.ofNat 32 s.time.tb) ∧
      t.rd R.TB_CNT_HI = s.time.tb / 2 ^ 32 % 2 ^ 32 ∧ SameOutside [.regs, .out] s t) ∧
    (∃ t, exec .tbLastLoRead s = .next t ∧ t.out.readData = some (BitVec.ofNat 32 s.time.tbLast) ∧
      t.rd R.TB_LAST_HI = s.time.tbLast / 2 ^ 32 % 2 ^ 32 ∧ SameOutside [.regs, .out] s t) ∧
    (∃ t, exec .fbPosLoRead s = .next t ∧ t.out.readData = some (BitVec.ofNat 32 s.fb.pos) ∧
      t.rd R.FB_POS_HI = s.fb.pos / 2 ^ 32 % 2 ^ 16 ∧ SameOutside [.regs, .out] s t) ∧
    (∃ t, exec .fbHofsLoRead s = .next t ∧ t.out.readData = some (BitVec.ofNat 32 (wrapTo 48 s.fb.hofs)) ∧
      t.rd R.FB_HOFS_HI = wrapTo 48 s.fb.hofs / 2 ^ 32 ∧ SameOutside [.regs, .out] s t) ∧
    (∃ t, exec .nvLogseqLoRead s = .next t ∧ t.out.readData = some (BitVec.ofNat 32 s.nv.logSeq) ∧
      t.rd R.NV_LOGSEQ_HI = s.nv.logSeq / 2 ^ 32 % 2 ^ 16 ∧ SameOutside [.regs, .out] s t) ∧
    (∃ t, exec .nvLogoldLoRead s = .next t ∧ t.out.readData = some (BitVec.ofNat 32 s.logOld) ∧
      t.rd R.NV_LOGOLD_HI = s.logOld / 2 ^ 32 % 2 ^ 16 ∧ SameOutside [.regs, .out] s t) ∧
    (∀ r : Fin 16, ∃ t, exec (.teTbLoRead r) s = .next t ∧ t.out.readData = some (BitVec.ofNat 32 (s.ring r).trigTb) ∧
      t.rd (R.TE_Rr_TB_HI r) = (s.ring r).trigTb / 2 ^ 32 % 2 ^ 32 ∧ SameOutside [.regs, .out] s t) ∧
    (∀ (addr : BitVec 32) a, a = addr.toNat / 4 * 4 →
      (isRegister a = true → ∃ t, exec (.readClearCounter addr) s = .next t ∧ t.out.readData = some (s.peek a) ∧
        t.word a = s.word a &&& ~~~accessMask a .rc ∧ SameOutside [.regs, .out] s t) ∧
      (isRegister a = false → busRange a 4 = true → ∃ t, exec (.readClearCounter addr) s = .next t ∧ t.regs = s.regs ∧
        t.out.readData = some (BitVec.ofNat 32 (ofBytesLE ((List.range 4).map (fun i => s.busByte (a + i)))))) ∧
      (a < 0x10000 → ∃ t, exec (.readClearCounter addr) s = .next t ∧ t.regs = s.regs ∧
        t.out.readData = some (BitVec.ofNat 32 (ofBytesLE ((List.range 4).map (fun i => Config.romByte (a + i)))))) ∧
      (isRegister a = false → busRange a 4 = false → 0x10000 ≤ a → ∃ t, exec (.readClearCounter addr) s = .next t ∧ t.out.readData = some 0 ∧
        t.te.evs = s.te.evs ++ [(40, 0x302)])) ∧
    (∀ (addr : BitVec 32) (v : Word) a, a = addr.toNat / 4 * 4 →
      (isRegister a = true → takesWrite a = false → exec (.registerWrite addr v) s = .next s.cleared) ∧
      (isRegister a = true → a / 0x10000 = 0x4001 ∨ a / 0x10000 = 0x400F ∨ a / 0x10000 = 0x4010 → ∃ t m,
        exec (.registerWrite addr v) s = .next t ∧
        m = accessMask a .rw ||| (if s.on R.SB_LOCK_LOCKED then 0 else accessMask a .rwl) ∧
        t.word a = ((s.word a &&& ~~~m) ||| (v &&& m)) &&& ~~~(v &&& accessMask a .w1c) ∧
        (∀ b, s.home b ≠ s.home a → t.word b = s.word b) ∧ SameOutside [.regs, .out] s t) ∧
      (isRegister a = false → (0x10000000 ≤ a ∧ a < 0x10001000) ∨ (0x10003800 ≤ a ∧ a < 0x10010000) ∨ (0x10300000 ≤ a ∧ a < 0x10600000) → ∃ t,
        exec (.registerWrite addr v) s = .next t ∧ t.memBytes a 4 = bytesLE 4 v.toNat ∧
        (∀ x, x < a ∨ a + 4 ≤ x → t.memByte x = s.memByte x) ∧ SameOutside [.mem, .out] s t) ∧
      (isRegister a = false → mpWrites a = false → ∃ t, exec (.registerWrite addr v) s = .next t ∧ t.mem = s.mem ∧
        t.te.evs = s.te.evs ++ [(40, 0x302)])) ∧
    (∀ (hi : Bool) (value : Word) n q, n < 32 → q = n + (if hi then 32 else 0) → ∃ t, exec (.qmIrqClear hi value) s = .next t ∧
      t.bit (if hi then R.QM_IRQ1 else R.QM_IRQ0) n =
        ((s.bit (if hi then R.QM_IRQ1 else R.QM_IRQ0) n && !testB value.toNat n) ||
          (testB value.toNat n && s.on (R.QM_Qnn_CTL_WM_IE q) && decide (s.qWmark q ≤ s.qFill q))) ∧
      SameOutside [.regs, .out] s t) ∧
    (∀ (n : Fin 64) (item : List Byte),
      (n.val < 8 → exec (.queuePush n item) s = .next s.cleared) ∧
      (8 ≤ n.val → 0 < s.qCredit n → ∃ t, exec (.queuePush n item) s = .next t ∧
        (t.queue n).items = (s.queue n).items ++ [item] ∧ (∀ m, m ≠ n.val → t.queue m = s.queue m) ∧
        SameOutside [.regs, .queues, .out] s t) ∧
      (8 ≤ n.val → s.qCredit n = 0 → qPolicy n = .drop → ∃ t, exec (.queuePush n item) s = .next t ∧
        t.rd (R.QM_Qnn_DROP_COUNT n) = min (s.rd (R.QM_Qnn_DROP_COUNT n) + 1) 0xFFFFFFFF ∧
        t.rd (R.QM_Qnn_FLAG_DROPPED n) = 1 ∧ SameOutside [.regs, .out] s t) ∧
      (8 ≤ n.val → s.qCredit n = 0 → qPolicy n = .wait → exec (.queuePush n item) s = .next s.cleared)) ∧
    (∀ (n : Fin 64) i is, 8 ≤ n.val → n.val ≠ 53 ∨ s.ln.bankTick = none → (s.queue n).items = i :: is → (s.queue n).off = false →
      (∃ t, exec (.queuePop n none) s = .next t ∧ t.out.item = some i ∧ (t.queue n).items = is ∧
        (∀ m, m ≠ n.val → t.queue m = s.queue m) ∧ SameOutside [.regs, .queues, .ln, .out] s t) ∧
      (∀ a, n.val ≠ 39 → ∃ t, exec (.queuePop n (some a)) s = .next t ∧ t.out.item = none ∧ (t.queue n).items = is ∧
        t.rd (R.QM_Qnn_DROP_COUNT n) = min (s.rd (R.QM_Qnn_DROP_COUNT n) + 1) 0xFFFFFFFF ∧
        t.te.evs = s.te.evs ++ [(39, 0x202)])) ∧
    (∀ (n : Fin 64) bad, (n.val < 8 ∧ s.qFill n ≠ 0) ∨ (n.val = 53 ∧ s.ln.bankTick.isSome = true) → exec (.queuePop n bad) s = .next s.cleared)
end

