-- ==== Sys2Proof/Laws/Crc.lean ====
section
/-! SUPPORT. Laws of the checks. -/

set_option Elab.async false

namespace Sys2Proof.Machine

theorem crcBitR_lt {poly c : Nat} (hp : poly < 2 ^ 32) (hc : c < 2 ^ 32) : crcBitR poly c < 2 ^ 32 := by
  unfold crcBitR
  split
  · exact Nat.xor_lt_two_pow (by omega) hp
  · omega

theorem crcByteR_lt {poly c : Nat} (hp : poly < 2 ^ 32) (hc : c < 2 ^ 32) (b : Byte) : crcByteR poly c b < 2 ^ 32 := by
  have hb : b.toNat < 2 ^ 32 := lt_trans b.isLt (by decide)
  have h : ∀ (n x : Nat), x < 2 ^ 32 → Nat.repeat (crcBitR poly) n x < 2 ^ 32 := by
    intro n
    induction n with
    | zero => intro x hx; exact hx
    | succ n ih => intro x hx; exact crcBitR_lt hp (ih x hx)
  exact h 8 _ (Nat.xor_lt_two_pow hc hb)

/-- CRC-32C has 32 bits (15 R475). -/
theorem crc32c_lt (bs : List Byte) : crc32c bs < 2 ^ 32 := by
  have h : ∀ (bs : List Byte) (c : Nat), c < 2 ^ 32 → crc32cRun c bs < 2 ^ 32 := by
    intro bs
    induction bs with
    | nil => intro c hc; exact hc
    | cons b bs ih => intro c hc; exact ih _ (crcByteR_lt (by decide) hc b)
  exact Nat.xor_lt_two_pow (h bs _ (by decide)) (by decide)

/-- CRC-32C over a run of zero bytes, twelve at a time. -/
theorem crc32cRun_zeros (n c d : Nat) (h : crc32cRun c (List.replicate 12 0) = d) :
    crc32cRun c (List.replicate (12 + n) 0) = crc32cRun d (List.replicate n 0) := by
  rw [← h, List.replicate_add, crc32cRun, List.foldl_append]; rfl

theorem crc32c_zeros : crc32c (List.replicate 132 0) = 0xFBA32BA2 := by
  unfold crc32c
  rw [crc32cRun_zeros 120 _ 3567209122 (by decide +kernel), crc32cRun_zeros 108 _ 2063864593 (by decide +kernel),
    crc32cRun_zeros 96 _ 98162989 (by decide +kernel), crc32cRun_zeros 84 _ 3614688582 (by decide +kernel),
    crc32cRun_zeros 72 _ 2784295630 (by decide +kernel), crc32cRun_zeros 60 _ 3760037940 (by decide +kernel),
    crc32cRun_zeros 48 _ 203975781 (by decide +kernel), crc32cRun_zeros 36 _ 2920151892 (by decide +kernel),
    crc32cRun_zeros 24 _ 3019410457 (by decide +kernel), crc32cRun_zeros 12 _ 157617692 (by decide +kernel),
    crc32cRun_zeros 0 _ 73192541 (by decide +kernel)]
  decide
end Sys2Proof.Machine
end

