-- ==== Sys2Proof/Laws/SMap.lean ====
section
/-! SUPPORT. Sparse tables: what a read gives after a write, and that every operation keeps the canonical form. -/

set_option Elab.async false

namespace Sys2Proof.Machine

variable {α : Type} (d : Nat → α)

theorem smapGet_erase_same (m : SMap α) (k : Nat) : smapGet d (smapErase k m) k = d k := by
  induction m with
  | nil => rfl
  | cons x m ih =>
    obtain ⟨j, v⟩ := x
    by_cases h : j = k <;> simp [smapErase, smapGet, h, ih]

theorem smapGet_erase_ne (m : SMap α) {k a : Nat} (h : a ≠ k) : smapGet d (smapErase k m) a = smapGet d m a := by
  induction m with
  | nil => rfl
  | cons x m ih =>
    obtain ⟨j, v⟩ := x
    by_cases hj : j = k
    · have : ¬ k = a := fun e => h e.symm
      simp [smapErase, smapGet, hj, ih, this]
    · simp [smapErase, smapGet, hj, ih]

theorem smapGet_insert_same (m : SMap α) (k : Nat) (v : α) (h : smapGet d m k = d k) (hk : ∀ x ∈ m, x.1 ≠ k) :
    smapGet d (smapInsert k v m) k = v := by
  induction m with
  | nil => simp [smapInsert, smapGet]
  | cons x m ih =>
    obtain ⟨j, w⟩ := x
    have hj : j ≠ k := hk (j, w) (by simp)
    unfold smapInsert
    split
    · simp [smapGet]
    · simp only [smapGet, if_neg hj] at h ⊢
      exact ih h (fun y hy => hk y (by simp [hy]))

theorem smapGet_insert_ne (m : SMap α) {k a : Nat} (v : α) (h : a ≠ k) : smapGet d (smapInsert k v m) a = smapGet d m a := by
  have hk : ¬ k = a := fun e => h e.symm
  induction m with
  | nil => simp [smapInsert, smapGet, hk]
  | cons x m ih =>
    obtain ⟨j, w⟩ := x
    unfold smapInsert
    split
    · simp [smapGet, hk]
    · by_cases ha : j = a <;> simp [smapGet, ha, ih]

theorem smapErase_keys (k : Nat) (m : SMap α) : ∀ x ∈ smapErase k m, x.1 ≠ k := by
  induction m with
  | nil => simp [smapErase]
  | cons y m ih =>
    obtain ⟨j, v⟩ := y
    by_cases h : j = k
    · simpa [smapErase, h] using ih
    · intro x hx
      simp only [smapErase, if_neg h, List.mem_cons] at hx
      rcases hx with rfl | hx
      · exact h
      · exact ih x hx

variable [DecidableEq α]

/-- A read at the key of the latest write gives what was written. -/
@[simp] theorem smapGet_set_same (m : SMap α) (k : Nat) (v : α) : smapGet d (smapSet d m k v) k = v := by
  unfold smapSet
  split
  · next h => rw [smapGet_erase_same, h]
  · exact smapGet_insert_same d _ k v (smapGet_erase_same d m k) (smapErase_keys k m)

/-- A write leaves every other key alone. -/
theorem smapGet_set_ne (m : SMap α) {k a : Nat} (v : α) (h : a ≠ k) : smapGet d (smapSet d m k v) a = smapGet d m a := by
  unfold smapSet
  split
  · exact smapGet_erase_ne d m h
  · rw [smapGet_insert_ne d _ v h, smapGet_erase_ne d m h]

omit [DecidableEq α] in
theorem smapAbove_mono {b c : Nat} (m : SMap α) (h : c ≤ b) (hm : smapAbove b m = true) : smapAbove c m = true := by
  induction m with
  | nil => rfl
  | cons x m ih =>
    simp only [smapAbove, Bool.and_eq_true, decide_eq_true_eq] at hm ⊢
    exact ⟨by omega, ih hm.2⟩

omit [DecidableEq α] in
theorem smapAbove_erase {b k : Nat} (m : SMap α) (hm : smapAbove b m = true) : smapAbove b (smapErase k m) = true := by
  induction m with
  | nil => rfl
  | cons x m ih =>
    obtain ⟨j, v⟩ := x
    simp only [smapAbove, Bool.and_eq_true, decide_eq_true_eq] at hm
    by_cases h : j = k
    · simpa [smapErase, h] using ih hm.2
    · simp [smapErase, h, smapAbove, hm.1, ih hm.2]

omit [DecidableEq α] in
theorem smapAbove_insert {b k : Nat} (v : α) (m : SMap α) (hb : b < k) (hm : smapAbove b m = true) :
    smapAbove b (smapInsert k v m) = true := by
  induction m with
  | nil => simp [smapInsert, smapAbove, hb]
  | cons x m ih =>
    obtain ⟨j, w⟩ := x
    unfold smapInsert
    split
    · simp only [smapAbove, Bool.and_eq_true, decide_eq_true_eq] at hm ⊢
      exact ⟨hb, hm.1, hm.2⟩
    · simp only [smapAbove, Bool.and_eq_true, decide_eq_true_eq] at hm ⊢
      exact ⟨hm.1, ih hm.2⟩

/-- Erasing an entry keeps the canonical form. -/
theorem smapWf_erase (k : Nat) (m : SMap α) (hm : smapWf d m = true) : smapWf d (smapErase k m) = true := by
  induction m with
  | nil => rfl
  | cons x m ih =>
    obtain ⟨j, v⟩ := x
    simp only [smapWf, Bool.and_eq_true, decide_eq_true_eq] at hm
    by_cases h : j = k
    · simpa [smapErase, h] using ih hm.2
    · simp [smapErase, h, smapWf, hm.1.1, smapAbove_erase m hm.1.2, ih hm.2]

/-- Inserting at an absent key keeps the canonical form. -/
theorem smapWf_insert (k : Nat) (v : α) (m : SMap α) (hv : v ≠ d k) (hk : ∀ x ∈ m, x.1 ≠ k) (hm : smapWf d m = true) :
    smapWf d (smapInsert k v m) = true := by
  induction m with
  | nil => simp [smapInsert, smapWf, smapAbove, hv]
  | cons x m ih =>
    obtain ⟨j, w⟩ := x
    have hj : j ≠ k := hk (j, w) (by simp)
    simp only [smapWf, Bool.and_eq_true, decide_eq_true_eq] at hm
    unfold smapInsert
    split
    · next h =>
      simp only [smapWf, smapAbove, Bool.and_eq_true, decide_eq_true_eq]
      exact ⟨⟨hv, h, smapAbove_mono m (Nat.le_of_lt h) hm.1.2⟩, hm⟩
    · next h =>
      simp only [smapWf, Bool.and_eq_true, decide_eq_true_eq]
      exact ⟨⟨hm.1.1, smapAbove_insert v m (by omega) hm.1.2⟩, ih (fun y hy => hk y (by simp [hy])) hm.2⟩

/-- A write keeps the canonical form. -/
theorem smapWf_set (m : SMap α) (k : Nat) (v : α) (hm : smapWf d m = true) : smapWf d (smapSet d m k v) = true := by
  unfold smapSet
  split
  · exact smapWf_erase d k m hm
  · next h => exact smapWf_insert d k v _ h (smapErase_keys k m) (smapWf_erase d k m hm)

omit [DecidableEq α] in
theorem smapAbove_filter (p : Nat × α → Bool) (b : Nat) (m : SMap α) (hm : smapAbove b m = true) :
    smapAbove b (m.filter p) = true := by
  induction m with
  | nil => rfl
  | cons x m ih =>
    simp only [smapAbove, Bool.and_eq_true, decide_eq_true_eq] at hm
    by_cases h : p x = true
    · simp [List.filter, h, smapAbove, hm.1, ih hm.2]
    · simp [List.filter, h, ih hm.2]

/-- Dropping entries keeps the canonical form. -/
theorem smapWf_filter (p : Nat × α → Bool) (m : SMap α) (hm : smapWf d m = true) : smapWf d (m.filter p) = true := by
  induction m with
  | nil => rfl
  | cons x m ih =>
    obtain ⟨j, v⟩ := x
    simp only [smapWf, Bool.and_eq_true, decide_eq_true_eq] at hm
    by_cases h : p (j, v) = true
    · simp [List.filter, h, smapWf, hm.1.1, smapAbove_filter p j m hm.1.2, ih hm.2]
    · simp [List.filter, h, ih hm.2]

end Sys2Proof.Machine
end

