-- ==== Sys2Proof/Laws/Regs.lean ====
section
/-! SUPPORT. Registers: what a field reads after a write of itself, of another field of its word, of another word. -/

set_option Elab.async false

namespace Sys2Proof.Machine

/-- A field lies within a word. -/
abbrev Fld.Ok (f : Fld) : Prop := f.lsb ≤ f.msb ∧ f.msb < 32

/-- Two fields of one word share no bit. -/
abbrev Fld.Apart (f g : Fld) : Prop := f.msb < g.lsb ∨ g.msb < f.lsb

theorem Fld.width_pos {f : Fld} (h : f.Ok) : f.width + f.lsb ≤ 32 := by
  unfold Fld.width; omega

theorem Fld.mask_toNat {f : Fld} (h : f.Ok) : f.mask.toNat = (2 ^ f.width - 1) * 2 ^ f.lsb := by
  have hw := Fld.width_pos h
  have h1 : (2 ^ f.width - 1) * 2 ^ f.lsb < 2 ^ 32 := by
    have h2 : 2 ^ f.width * 2 ^ f.lsb ≤ 2 ^ 32 := by
      rw [← Nat.pow_add]; exact Nat.pow_le_pow_right (by omega) hw
    have h3 : (2 ^ f.width - 1) * 2 ^ f.lsb < 2 ^ f.width * 2 ^ f.lsb :=
      Nat.mul_lt_mul_of_pos_right (by have := Nat.two_pow_pos f.width; omega) (Nat.two_pow_pos _)
    omega
  unfold Fld.mask
  rw [BitVec.toNat_ofNat, Nat.mod_eq_of_lt h1]

/-- The bits of a mask. -/
theorem Fld.mask_bit {f : Fld} (h : f.Ok) (i : Nat) : f.mask.toNat.testBit i = decide (f.lsb ≤ i ∧ i ≤ f.msb) := by
  rw [Fld.mask_toNat h, Nat.mul_comm, Nat.testBit_two_pow_mul, Nat.testBit_two_pow_sub_one]
  unfold Fld.width
  by_cases h1 : f.lsb ≤ i
  · by_cases h2 : i ≤ f.msb
    · simp [h1, h2]; omega
    · simp [h1, h2]; omega
  · simp [h1]

/-- The bits of a value put into place. -/
theorem Fld.put_bit {f : Fld} (h : f.Ok) (v i : Nat) :
    (BitVec.ofNat 32 (v % 2 ^ f.width * 2 ^ f.lsb)).toNat.testBit i = (decide (f.lsb ≤ i ∧ i ≤ f.msb) && v.testBit (i - f.lsb)) := by
  have hw := Fld.width_pos h
  have h1 : v % 2 ^ f.width * 2 ^ f.lsb < 2 ^ 32 := by
    have h2 : 2 ^ f.width * 2 ^ f.lsb ≤ 2 ^ 32 := by
      rw [← Nat.pow_add]; exact Nat.pow_le_pow_right (by omega) hw
    have h3 : v % 2 ^ f.width * 2 ^ f.lsb < 2 ^ f.width * 2 ^ f.lsb :=
      Nat.mul_lt_mul_of_pos_right (Nat.mod_lt _ (Nat.two_pow_pos _)) (Nat.two_pow_pos _)
    omega
  rw [BitVec.toNat_ofNat, Nat.mod_eq_of_lt h1, Nat.mul_comm, Nat.testBit_two_pow_mul, Nat.testBit_mod_two_pow]
  unfold Fld.width
  by_cases h1 : f.lsb ≤ i
  · by_cases h2 : i ≤ f.msb
    · simp [h1, h2]; omega
    · simp [h1, h2]; omega
  · simp [h1]

/-- The bits of a word after a write of a field. -/
theorem Fld.set_bit {f : Fld} (h : f.Ok) (v : Nat) (w : Word) (i : Nat) :
    (f.set v w).toNat.testBit i = if f.lsb ≤ i ∧ i ≤ f.msb then v.testBit (i - f.lsb) else w.toNat.testBit i := by
  have h1 := Fld.mask_bit h i
  have h2 := Fld.put_bit h v i
  rw [BitVec.testBit_toNat] at h1 h2
  unfold Fld.set
  rw [BitVec.testBit_toNat, BitVec.testBit_toNat, BitVec.getLsbD_or, BitVec.getLsbD_and, BitVec.getLsbD_not, h1, h2]
  have hm := h.2
  by_cases hc : f.lsb ≤ i ∧ i ≤ f.msb
  · simp [hc]
  · by_cases hi : i < 32
    · simp [hc, hi]
    · simp [hc, hi, BitVec.getLsbD_of_ge w i (by omega)]

/-- The bits of a field. -/
theorem Fld.get_bit (f : Fld) (w : Word) (i : Nat) :
    (f.get w).testBit i = (decide (i < f.width) && w.toNat.testBit (i + f.lsb)) := by
  unfold Fld.get
  rw [Nat.testBit_mod_two_pow, Nat.testBit_div_two_pow]

/-- A field reads what was written into it, cut to its width. -/
theorem Fld.get_set {f : Fld} (h : f.Ok) (v : Nat) (w : Word) : f.get (f.set v w) = v % 2 ^ f.width := by
  apply Nat.eq_of_testBit_eq
  intro i
  rw [Fld.get_bit, Fld.set_bit h, Nat.testBit_mod_two_pow]
  by_cases hi : i < f.width
  · have : f.lsb ≤ i + f.lsb ∧ i + f.lsb ≤ f.msb := by unfold Fld.width at hi; omega
    rw [if_pos this, Nat.add_sub_cancel]
  · simp [hi]

/-- A write of one field leaves the others of its word alone. -/
theorem Fld.get_set_apart {f g : Fld} (h : f.Ok) (ha : f.Apart g) (v : Nat) (w : Word) : g.get (f.set v w) = g.get w := by
  apply Nat.eq_of_testBit_eq
  intro i
  rw [Fld.get_bit, Fld.get_bit, Fld.set_bit h]
  by_cases hi : i < g.width
  · have : ¬ (f.lsb ≤ i + g.lsb ∧ i + g.lsb ≤ f.msb) := by unfold Fld.width at hi; unfold Fld.Apart at ha; omega
    rw [if_neg this]
  · simp [hi]

/-! ### Words of the state -/

@[simp] theorem State.home_setWord (s : State) (a b : Nat) (w : Word) : (s.setWord a w).home b = s.home b := rfl
@[simp] theorem State.home_wr (s : State) (f : Fld) (v b : Nat) : (s.wr f v).home b = s.home b := rfl

/-- A word outside the pages that stand for others is held at its own address. -/
theorem State.home_self (s : State) (a : Nat) (h : ¬ (0x40041000 ≤ a ∧ a < 0x40041100)) (h2 : ¬ (0x40042000 ≤ a ∧ a < 0x40042100))
    (h3 : ¬ (0x400E0060 ≤ a ∧ a < 0x400E0070)) : s.home a = a := by
  unfold State.home
  simp only [if_neg h, if_neg h2, if_neg h3]

@[simp] theorem State.word_setWord_same (s : State) (a : Nat) (w : Word) : (s.setWord a w).word a = w := by
  unfold State.word State.setWord
  exact smapGet_set_same _ _ _ _

theorem State.word_setWord_ne (s : State) {a b : Nat} (w : Word) (h : s.home b ≠ s.home a) : (s.setWord a w).word b = s.word b := by
  unfold State.word State.setWord
  exact smapGet_set_ne _ _ _ h

/-! ### Fields of the state -/

/-- A field reads what was written into it. -/
theorem State.rd_wr_same (s : State) {f : Fld} (h : f.Ok) (v : Nat) : (s.wr f v).rd f = v % 2 ^ f.width := by
  unfold State.rd State.wr
  rw [State.word_setWord_same, Fld.get_set h]

/-- A write of a field leaves the fields of other words alone. -/
theorem State.rd_wr_word (s : State) {f g : Fld} (v : Nat) (h : s.home g.addr ≠ s.home f.addr) : (s.wr f v).rd g = s.rd g := by
  unfold State.rd State.wr
  rw [State.word_setWord_ne _ _ h]

/-- A write of a field leaves the other fields of its word alone. -/
theorem State.rd_wr_apart (s : State) {f g : Fld} (h : f.Ok) (ha : f.Apart g) (hw : g.addr = f.addr) (v : Nat) :
    (s.wr f v).rd g = s.rd g := by
  unfold State.rd State.wr
  rw [hw, State.word_setWord_same, Fld.get_set_apart h ha]

/-- A one-bit field written with a truth value reads as it. -/
theorem State.on_wr_same (s : State) {f : Fld} (h : f.msb = f.lsb) (hm : f.msb < 32) (b : Bool) : (s.wr f (b2n b)).on f = b := by
  unfold State.on
  rw [State.rd_wr_same s ⟨Nat.le_of_eq h.symm, hm⟩]
  have : f.width = 1 := by unfold Fld.width; omega
  rw [this]
  cases b <;> rfl

end Sys2Proof.Machine
end

