-- ==== Sys2Proof/Laws/Sound.lean ====
section
/-! SUPPORT. Soundness of a state along an operation, and what the operation leaves alone. The lemmas of this folder say of every
operation: from a sound state it gives a sound state (canonical forms hold, TB stands at or after the last boundary), the queue of commands stays as
it was, and it changes no part and no register block outside its mask. A mask is a number with one bit for each part of the state and
one for each block of registers. -/

set_option Elab.async false

namespace Sys2Proof.Machine

/-- The bit of a part in a mask. -/
def Part.bit : Part → Nat
  | .regs => 0
  | .mem => 1
  | .nor => 2
  | .queues => 3
  | .sys => 4
  | .time => 5
  | .tt => 6
  | .ln => 7
  | .sd => 8
  | .cf => 9
  | .cfNew => 10
  | .ol => 11
  | .olp => 12
  | .olNew => 13
  | .gd => 14
  | .pw => 15
  | .lim => 16
  | .limNew => 17
  | .fb => 18
  | .pm => 19
  | .sb => 20
  | .can => 21
  | .bl => 22
  | .th => 23
  | .nv => 24
  | .te => 25
  | .bi => 26
  | .cc => 27
  | .hs => 28
  | .mp => 29
  | .seq => 30
  | .out => 31
  | .free => 32

/-- The bit of the register block that a key of the register map lies in: the 64 KiB blocks of 01 R48, the two CAN controllers as one, the
coefficient banks and whatever else as one. -/
def unitBit (k : Nat) : Nat :=
  if k / 0x10000 = 0x400D then 45
  else if 0x4000 ≤ k / 0x10000 ∧ k / 0x10000 ≤ 0x4013 then k / 0x10000 - 0x3FDF
  else 53

/-- A state `s` as an operation leaves it that began at `a`: sound if `a` was, with the commands of `a` waiting, and every part and every
register block in the mask `m` that of `a`. -/
structure State.Sound (m : Nat) (s a : State) : Prop where
  regs : smapWf resetWord a.regs = true → smapWf resetWord s.regs = true
  mem : Memory.wf 0 a.mem = true → Memory.wf 0 s.mem = true
  nor : Memory.wf 0xFF a.nor = true → Memory.wf 0xFF s.nor = true
  queues : smapWf (fun _ => {}) a.queues = true → smapWf (fun _ => {}) s.queues = true
  time : a.time.tbLast ≤ a.time.tb → s.time.tbLast ≤ s.time.tb
  pending : s.pending = a.pending
  same : ∀ p : Part, m.testBit p.bit = true → a.sameAt s p
  words : ∀ k, m.testBit (unitBit k) = true → smapGet resetWord s.regs k = smapGet resetWord a.regs k

variable {m : Nat} {a s : State}

/-- A part of an operation touches no more than the operation. -/
theorem mask_mono {f g : Nat} (h : m &&& g = 0) (hfg : f &&& g = f) : m &&& f = 0 := by
  rw [← hfg, Nat.and_comm f g, ← Nat.and_assoc, h, Nat.zero_and]

/-- What an operation touches is not in the mask of what stays. -/
theorem mask_absurd {f i : Nat} (h : m &&& f = 0) (hm : m.testBit i = true) (hf : f.testBit i = true) : False := by
  have := Nat.testBit_and m f i
  rw [h, hm, hf] at this
  simp at this

/-- The relation for a state written out by its fields. -/
def SoundMk (m : Nat) (a : State) (regs : SMap Word) (mem : List Host.Cell) (nor : List Host.Cell) (queues : SMap Queue) (sys : SysState) (time : TimeState) (tt : TtState) (ln : LnState) (sd : SdState) (cf : CfState) (cfNew : Option CfState) (ol : OlState) (olp : OlLoop) (olNew : Option OlLoop) (gd : GdState) (pw : PwState) (lim : LimState) (limNew : Option LimNew) (fb : FbState) (pm : PmState) (sb : SbState) (can : Vector CanState 2) (bl : BlState) (th : ThState) (nv : NvState) (te : TeState) (bi : BiState) (cc : CcState) (hs : HsState) (mp : MpState) (seq : SeqState) (out : Output) (free : Nat) (pending : List Instr) : Prop :=
  State.Sound m ⟨regs, mem, nor, queues, sys, time, tt, ln, sd, cf, cfNew, ol, olp, olNew, gd, pw, lim, limNew, fb, pm, sb, can, bl, th, nv, te, bi, cc, hs, mp, seq, out, free, pending⟩ a

theorem sound_mk {regs : SMap Word} {mem : List Host.Cell} {nor : List Host.Cell} {queues : SMap Queue} {sys : SysState} {time : TimeState} {tt :
    TtState} {ln : LnState} {sd : SdState} {cf : CfState} {cfNew : Option CfState} {ol : OlState} {olp : OlLoop} {olNew : Option
    OlLoop} {gd : GdState} {pw : PwState} {lim : LimState} {limNew : Option LimNew} {fb : FbState} {pm : PmState} {sb : SbState}
    {can : Vector CanState 2} {bl : BlState} {th : ThState} {nv : NvState} {te : TeState} {bi : BiState} {cc : CcState} {hs :
    HsState} {mp : MpState} {seq : SeqState} {out : Output} {free : Nat} {pending : List Instr} :
    State.Sound m ⟨regs, mem, nor, queues, sys, time, tt, ln, sd, cf, cfNew, ol, olp, olNew, gd, pw, lim, limNew, fb, pm, sb, can, bl, th, nv, te, bi, cc, hs, mp, seq, out, free, pending⟩ a ↔
      SoundMk m a regs mem nor queues sys time tt ln sd cf cfNew ol olp olNew gd pw lim limNew fb pm sb can bl th nv te bi cc hs mp seq out free pending := Iff.rfl

/-- A state whose core fields are those of a sound state is sound; what differs lies outside the mask. -/
theorem sound_parts {sys : SysState} {tt : TtState} {ln : LnState} {sd : SdState} {cf : CfState} {cfNew : Option CfState} {ol : OlState} {olp :
    OlLoop} {olNew : Option OlLoop} {gd : GdState} {pw : PwState} {lim : LimState} {limNew : Option LimNew} {fb : FbState} {pm :
    PmState} {sb : SbState} {can : Vector CanState 2} {bl : BlState} {th : ThState} {nv : NvState} {te : TeState} {bi : BiState} {cc
    : CcState} {hs : HsState} {mp : MpState} {seq : SeqState} {out : Output} {free : Nat}
    (h4 : m.testBit 4 = true → sys = s.sys) (h6 : m.testBit 6 = true → tt = s.tt) (h7 : m.testBit 7 = true → ln = s.ln) (h8 :
    m.testBit 8 = true → sd = s.sd) (h9 : m.testBit 9 = true → cf = s.cf) (h10 : m.testBit 10 = true → cfNew = s.cfNew) (h11 :
    m.testBit 11 = true → ol = s.ol) (h12 : m.testBit 12 = true → olp = s.olp) (h13 : m.testBit 13 = true → olNew = s.olNew) (h14 :
    m.testBit 14 = true → gd = s.gd) (h15 : m.testBit 15 = true → pw = s.pw) (h16 : m.testBit 16 = true → lim = s.lim) (h17 :
    m.testBit 17 = true → limNew = s.limNew) (h18 : m.testBit 18 = true → fb = s.fb) (h19 : m.testBit 19 = true → pm = s.pm) (h20 :
    m.testBit 20 = true → sb = s.sb) (h21 : m.testBit 21 = true → can = s.can) (h22 : m.testBit 22 = true → bl = s.bl) (h23 :
    m.testBit 23 = true → th = s.th) (h24 : m.testBit 24 = true → nv = s.nv) (h25 : m.testBit 25 = true → te = s.te) (h26 : m.testBit
    26 = true → bi = s.bi) (h27 : m.testBit 27 = true → cc = s.cc) (h28 : m.testBit 28 = true → hs = s.hs) (h29 : m.testBit 29 = true
    → mp = s.mp) (h30 : m.testBit 30 = true → seq = s.seq) (h31 : m.testBit 31 = true → out = s.out) (h32 : m.testBit 32 = true → free
    = s.free)
    (h : s.Sound m a) :
    SoundMk m a s.regs s.mem s.nor s.queues sys s.time tt ln sd cf cfNew ol olp olNew gd pw lim limNew fb pm sb can bl th nv te bi cc hs mp seq out free s.pending where
  regs := h.regs
  mem := h.mem
  nor := h.nor
  queues := h.queues
  time := h.time
  pending := h.pending
  words := h.words
  same := by
    intro p hm
    have h := h.same p hm
    cases p with
    | regs => exact (rfl).trans h
    | mem => exact (rfl).trans h
    | nor => exact (rfl).trans h
    | queues => exact (rfl).trans h
    | sys => exact (h4 hm).trans h
    | time => exact (rfl).trans h
    | tt => exact (h6 hm).trans h
    | ln => exact (h7 hm).trans h
    | sd => exact (h8 hm).trans h
    | cf => exact (h9 hm).trans h
    | cfNew => exact (h10 hm).trans h
    | ol => exact (h11 hm).trans h
    | olp => exact (h12 hm).trans h
    | olNew => exact (h13 hm).trans h
    | gd => exact (h14 hm).trans h
    | pw => exact (h15 hm).trans h
    | lim => exact (h16 hm).trans h
    | limNew => exact (h17 hm).trans h
    | fb => exact (h18 hm).trans h
    | pm => exact (h19 hm).trans h
    | sb => exact (h20 hm).trans h
    | can => exact (h21 hm).trans h
    | bl => exact (h22 hm).trans h
    | th => exact (h23 hm).trans h
    | nv => exact (h24 hm).trans h
    | te => exact (h25 hm).trans h
    | bi => exact (h26 hm).trans h
    | cc => exact (h27 hm).trans h
    | hs => exact (h28 hm).trans h
    | mp => exact (h29 hm).trans h
    | seq => exact (h30 hm).trans h
    | out => exact (h31 hm).trans h
    | free => exact (h32 hm).trans h

/-- As `sound_parts`, where TB changes. -/
theorem sound_time {l n : Nat} {o : Option Int} {sys : SysState} {tt : TtState} {ln : LnState} {sd : SdState} {cf : CfState} {cfNew : Option CfState} {ol : OlState}
    {olp : OlLoop} {olNew : Option OlLoop} {gd : GdState} {pw : PwState} {lim : LimState} {limNew : Option LimNew} {fb :
    FbState} {pm : PmState} {sb : SbState} {can : Vector CanState 2} {bl : BlState} {th : ThState} {nv : NvState} {te :
    TeState} {bi : BiState} {cc : CcState} {hs : HsState} {mp : MpState} {seq : SeqState} {out : Output} {free : Nat}
    (h5 : m.testBit 5 = true → (⟨n, l, o⟩ : TimeState) = s.time)
    (h4 : m.testBit 4 = true → sys = s.sys) (h6 : m.testBit 6 = true → tt = s.tt) (h7 : m.testBit 7 = true → ln = s.ln) (h8 :
    m.testBit 8 = true → sd = s.sd) (h9 : m.testBit 9 = true → cf = s.cf) (h10 : m.testBit 10 = true → cfNew = s.cfNew) (h11 :
    m.testBit 11 = true → ol = s.ol) (h12 : m.testBit 12 = true → olp = s.olp) (h13 : m.testBit 13 = true → olNew = s.olNew) (h14 :
    m.testBit 14 = true → gd = s.gd) (h15 : m.testBit 15 = true → pw = s.pw) (h16 : m.testBit 16 = true → lim = s.lim) (h17 :
    m.testBit 17 = true → limNew = s.limNew) (h18 : m.testBit 18 = true → fb = s.fb) (h19 : m.testBit 19 = true → pm = s.pm) (h20 :
    m.testBit 20 = true → sb = s.sb) (h21 : m.testBit 21 = true → can = s.can) (h22 : m.testBit 22 = true → bl = s.bl) (h23 :
    m.testBit 23 = true → th = s.th) (h24 : m.testBit 24 = true → nv = s.nv) (h25 : m.testBit 25 = true → te = s.te) (h26 : m.testBit
    26 = true → bi = s.bi) (h27 : m.testBit 27 = true → cc = s.cc) (h28 : m.testBit 28 = true → hs = s.hs) (h29 : m.testBit 29 = true
    → mp = s.mp) (h30 : m.testBit 30 = true → seq = s.seq) (h31 : m.testBit 31 = true → out = s.out) (h32 : m.testBit 32 = true → free
    = s.free)
    (h : s.Sound m a) (hn : s.time.tbLast ≤ s.time.tb → l ≤ n) :
    SoundMk m a s.regs s.mem s.nor s.queues sys ⟨n, l, o⟩ tt ln sd cf cfNew ol olp olNew gd pw lim limNew fb pm sb can bl th nv te bi cc hs mp seq out free s.pending where
  regs := h.regs
  mem := h.mem
  nor := h.nor
  queues := h.queues
  time := fun w => hn (h.time w)
  pending := h.pending
  words := h.words
  same := by
    intro p hm
    have h := h.same p hm
    cases p with
    | regs => exact (rfl).trans h
    | mem => exact (rfl).trans h
    | nor => exact (rfl).trans h
    | queues => exact (rfl).trans h
    | sys => exact (h4 hm).trans h
    | time => exact (h5 hm).trans h
    | tt => exact (h6 hm).trans h
    | ln => exact (h7 hm).trans h
    | sd => exact (h8 hm).trans h
    | cf => exact (h9 hm).trans h
    | cfNew => exact (h10 hm).trans h
    | ol => exact (h11 hm).trans h
    | olp => exact (h12 hm).trans h
    | olNew => exact (h13 hm).trans h
    | gd => exact (h14 hm).trans h
    | pw => exact (h15 hm).trans h
    | lim => exact (h16 hm).trans h
    | limNew => exact (h17 hm).trans h
    | fb => exact (h18 hm).trans h
    | pm => exact (h19 hm).trans h
    | sb => exact (h20 hm).trans h
    | can => exact (h21 hm).trans h
    | bl => exact (h22 hm).trans h
    | th => exact (h23 hm).trans h
    | nv => exact (h24 hm).trans h
    | te => exact (h25 hm).trans h
    | bi => exact (h26 hm).trans h
    | cc => exact (h27 hm).trans h
    | hs => exact (h28 hm).trans h
    | mp => exact (h29 hm).trans h
    | seq => exact (h30 hm).trans h
    | out => exact (h31 hm).trans h
    | free => exact (h32 hm).trans h

/-- A state that differs from a sound one outside the mask and the core only is sound. -/
theorem sound_upd {x y : State} (h : x.Sound m a) (hp : ∀ p : Part, m.testBit p.bit = true → x.sameAt y p)
    (hr : y.regs = x.regs := by rfl) (hm : y.mem = x.mem := by rfl) (hn : y.nor = x.nor := by rfl)
    (hq : y.queues = x.queues := by rfl) (ht : y.time = x.time := by rfl) (hc : y.pending = x.pending := by rfl) :
    y.Sound m a where
  regs := hr ▸ h.regs
  mem := hm ▸ h.mem
  nor := hn ▸ h.nor
  queues := hq ▸ h.queues
  time := ht ▸ h.time
  pending := hc ▸ h.pending
  words := hr ▸ h.words
  same := by
    intro p hb
    have h1 := h.same p hb
    have h2 := hp p hb
    cases p <;> exact Eq.trans h2 h1

theorem sound_refl (m : Nat) (s : State) : s.Sound m s :=
  ⟨id, id, id, id, id, rfl, fun p _ => by cases p <;> rfl, fun _ _ => rfl⟩

/-! ### The register blocks that a write touches -/

/-- The bits of the registers and of every block of them. -/
abbrev allUnits : Nat := 0x3FFFFE00000001

/-- The bits of the registers and of the blocks that hold the words of a span of addresses: where the span lies in one block that
block's, with the banks' for the pages of the LN block that show them and the queue manager's for HS.CPLc_CTL. -/
def touch (lo len : Nat) : Nat :=
  if lo / 0x10000 = (lo + len) / 0x10000 ∨ (lo / 0x10000 = 0x400C ∧ (lo + len) / 0x10000 = 0x400D) then
    1 ||| 2 ^ unitBit lo ||| (if lo / 0x10000 = 0x4004 ∧ 0x40041000 ≤ lo + len then 2 ^ 53 else 0)
      ||| (if lo / 0x10000 = 0x400E ∧ 0x400E0060 ≤ lo + len ∧ lo < 0x400E0070 then 2 ^ 35 else 0)
  else allUnits

/-- The word of an address lies in no block of the mask. -/
def AddrOutside (m a : Nat) : Prop := m.testBit 0 = false ∧ ∀ s : State, m.testBit (unitBit (s.home a)) = false

theorem bit_clear {m t i : Nat} (h : m &&& t = 0) (ht : t.testBit i = true) : m.testBit i = false := by
  cases hm : m.testBit i with
  | false => rfl
  | true => exact (mask_absurd h hm ht).elim

theorem span_block {lo len a : Nat} (h1 : lo ≤ a) (h2 : a ≤ lo + len)
    (h : lo / 0x10000 = (lo + len) / 0x10000 ∨ (lo / 0x10000 = 0x400C ∧ (lo + len) / 0x10000 = 0x400D)) : unitBit a = unitBit lo := by
  have := Nat.div_le_div_right (c := 0x10000) h1
  have := Nat.div_le_div_right (c := 0x10000) h2
  unfold unitBit
  rcases h with h | ⟨ha, hb⟩
  · rw [show a / 0x10000 = lo / 0x10000 by omega]
  · rw [ha]
    rcases (by omega : a / 0x10000 = 0x400C ∨ a / 0x10000 = 0x400D) with h | h <;> rw [h] <;> rfl

/-- Where the word of an address is held. -/
theorem home_cases (s : State) (a : Nat) :
    s.home a = a ∨ (0x40041000 ≤ a ∧ a / 0x10000 = 0x4004 ∧ unitBit (s.home a) = 53) ∨
      (0x400E0060 ≤ a ∧ a < 0x400E0070 ∧ unitBit (s.home a) = 35) := by
  have hb : ∀ x, x < 0x1000 → unitBit (0x10130000 + x) = 53 ∧ unitBit (0x10120000 + x) = 53 := by
    intro x hx
    have h1 : (0x10130000 + x) / 0x10000 = 0x1013 := by omega
    have h2 : (0x10120000 + x) / 0x10000 = 0x1012 := by omega
    unfold unitBit
    rw [h1, h2]
    exact ⟨rfl, rfl⟩
  unfold State.home
  dsimp only
  split
  · refine .inr (.inl ⟨by omega, by omega, ?_⟩)
    split
    · exact (hb _ (by omega)).1
    · exact (hb _ (by omega)).2
  · split
    · refine .inr (.inl ⟨by omega, by omega, ?_⟩)
      rw [Nat.add_assoc]
      split
      · exact (hb _ (by omega)).1
      · exact (hb _ (by omega)).2
    · split
      · refine .inr (.inr ⟨by omega, by omega, ?_⟩)
        have h3 : (0x40020040 + 0x10 * ((a - 0x400E0060) / 4)) / 0x10000 = 0x4002 := by omega
        unfold unitBit
        rw [h3]
        rfl
      · exact .inl rfl

theorem unitBit_mem (k : Nat) : allUnits.testBit (unitBit k) = true := by
  unfold unitBit
  split
  · rfl
  · split
    · generalize k / 0x10000 = b at *
      have h : ∀ i, i < 20 → allUnits.testBit (i + 0x21) = true := by decide
      have := h (b - 0x4000) (by omega)
      rwa [show b - 0x4000 + 0x21 = b - 0x3FDF by omega] at this
    · rfl

theorem addrOutside_all {a : Nat} (h : m &&& allUnits = 0) : AddrOutside m a :=
  ⟨bit_clear h rfl, fun _ => bit_clear h (unitBit_mem _)⟩

theorem addrOutside_span {lo len a : Nat} (h : m &&& touch lo len = 0) (h1 : lo ≤ a) (h2 : a ≤ lo + len) : AddrOutside m a := by
  unfold touch at h
  split at h
  next hb =>
    refine ⟨bit_clear h (by simp), fun s => ?_⟩
    have hu := span_block h1 h2 hb
    have hd1 := Nat.div_le_div_right (c := 0x10000) h1
    have hd2 := Nat.div_le_div_right (c := 0x10000) h2
    rcases home_cases s a with he | ⟨ha, hl, he⟩ | ⟨ha, hl, he⟩
    · rw [he, hu]
      exact bit_clear h (by simp [Nat.testBit_or, Nat.testBit_two_pow_self])
    · rw [he]
      refine bit_clear h ?_
      rw [if_pos (show lo / 0x10000 = 0x4004 ∧ 0x40041000 ≤ lo + len from ⟨by omega, by omega⟩), Nat.testBit_or, Nat.testBit_or,
        show ((2 : Nat) ^ 53).testBit 53 = true from rfl, Bool.or_true, Bool.true_or]
    · rw [he]
      refine bit_clear h ?_
      rw [if_pos (show lo / 0x10000 = 0x400E ∧ 0x400E0060 ≤ lo + len ∧ lo < 0x400E0070 from ⟨by omega, by omega, by omega⟩),
        Nat.testBit_or, show ((2 : Nat) ^ 35).testBit 35 = true from rfl, Bool.or_true]
  next => exact addrOutside_all h
theorem addrOutside0 {A : Nat} (h : m &&& touch A 0 = 0) : AddrOutside m A := addrOutside_span h (Nat.le_refl _) (Nat.le_refl _)

theorem addrOutside1 {A S n C : Nat} (h : m &&& touch A (S * (C - 1)) = 0) (hC : 0 < C) :
    AddrOutside m (A + S * (n % C)) := by
  have := Nat.mul_le_mul_left S (Nat.le_sub_one_of_lt (Nat.mod_lt n hC))
  exact addrOutside_span h (Nat.le_add_right _ _) (Nat.add_le_add_left this A)

theorem addrOutside_mod {A n C : Nat} (h : m &&& touch A (C - 1) = 0) (hC : 0 < C) : AddrOutside m (A + n % C) :=
  addrOutside_span h (Nat.le_add_right _ _) (Nat.add_le_add_left (Nat.le_sub_one_of_lt (Nat.mod_lt n hC)) A)

theorem addrOutside2 {A S n C T k D : Nat} (h : m &&& touch A (S * (C - 1) + T * (D - 1)) = 0) (hC : 0 < C)
    (hD : 0 < D) : AddrOutside m (A + S * (n % C) + T * (k % D)) := by
  have h1 := Nat.mul_le_mul_left S (Nat.le_sub_one_of_lt (Nat.mod_lt n hC))
  have h2 := Nat.mul_le_mul_left T (Nat.le_sub_one_of_lt (Nat.mod_lt k hD))
  refine addrOutside_span h (by omega) (by omega)

theorem addrOutside_ite {c : Prop} [Decidable c] {f g : Fld} (hf : AddrOutside m f.addr) (hg : AddrOutside m g.addr) :
    AddrOutside m (if c then f else g).addr := by
  split <;> assumption

theorem sound_ite {c : Prop} [Decidable c] {x y : State} (hx : x.Sound m a) (hy : y.Sound m a) :
    State.Sound m (if c then x else y) a := by
  split <;> assumption

theorem sound_have {P : Prop} (x : State) (h : x.Sound m a) (k : x.Sound m a → P) : P := k h

theorem sound_fun {P : Prop} {α β : Type} (_ : α → β) (h : P) : P := h

theorem sound_foldl {α : Type} {f : State → α → State} (l : List α) (h : s.Sound m a)
    (hf : ∀ s x, State.Sound m s a → State.Sound m (f s x) a) : (l.foldl f s).Sound m a := by
  induction l generalizing s with
  | nil => exact h
  | cons x l ih => exact ih (hf s x h)

theorem sound_foldl_of {α β : Type} (g : β → State) {f : β → α → β} {b : β} (l : List α) (h : (g b).Sound m a)
    (hf : ∀ b x, State.Sound m (g b) a → State.Sound m (g (f b x)) a) : (g (l.foldl f b)).Sound m a := by
  induction l generalizing b with
  | nil => exact h
  | cons x l ih => exact ih (hf b x h)

theorem sound_foldl_snd {α β : Type} {f : β × State → α → β × State} {b : β × State} (l : List α) (h : b.2.Sound m a)
    (hf : ∀ b x, State.Sound m b.2 a → State.Sound m (f b x).2 a) : (l.foldl f b).2.Sound m a :=
  sound_foldl_of Prod.snd l h hf

end Sys2Proof.Machine
end

