-- ==== Sys2Proof/Laws/SoundOps.lean ====
section
/-! SUPPORT. The operations of Machine/Ops.lean keep a state sound. -/

set_option Elab.async false

namespace Sys2Proof.Machine

variable {ms : Nat} {sa : State}

theorem State.setWord_sound (hp : ms &&& 0x1 = 0) (s : State) (a : Nat) (w : Word) (hw0 : AddrOutside ms a) (hs : s.Sound ms sa) :
    State.Sound ms (s.setWord a w) sa where
  regs := fun h => smapWf_set _ _ _ _ (hs.regs h)
  mem := hs.mem
  nor := hs.nor
  queues := hs.queues
  time := hs.time
  pending := hs.pending
  same := fun p hm => by have h1 := hs.same p hm; cases p <;> first | exact (mask_absurd hp hm rfl).elim | exact h1
  words := fun k hk => by
    have hne : k ≠ s.home a := fun e => by rw [e, hw0.2 s] at hk; cases hk
    exact (smapGet_set_ne _ _ _ hne).trans (hs.words k hk)

theorem State.wr_sound (hp : ms &&& 0x1 = 0) (s : State) (f : Fld) (v : Nat) (hw0 : AddrOutside ms f.addr) (hs : s.Sound ms sa) : State.Sound ms (State.wr s f v) sa := by
  unfold State.wr
  repeat'
    first
    | assumption | (intro _) | with_reducible apply sound_ite | with_reducible apply State.setWord_sound
    | with_reducible apply addrOutside_ite | with_reducible apply addrOutside2 | with_reducible apply addrOutside1
    | with_reducible apply addrOutside_mod | with_reducible apply addrOutside0 | exact Nat.zero_lt_succ _ | (exact mask_mono hp rfl)
    | ((with_reducible apply sound_parts) <;> first | (intro _; with_reducible rfl) | exact fun hm => (mask_absurd hp hm rfl).elim | skip)
    | simp (zeta := false) (etaStruct := .none) only [sound_mk] | (extract_lets +onlyGivenNames x; refine sound_have x ?_ ?_; subst x)
    | (extract_lets +onlyGivenNames x; refine sound_fun x ?_; subst x) | (extract_lets +onlyGivenNames x) | split
    | simp (zeta := false) (zetaDelta := true) (etaStruct := .none) only [sound_mk]

theorem State.wrBit_sound (hp : ms &&& 0x1 = 0) (s : State) (f : Fld) (n : Nat) (v : Bool) (hw0 : AddrOutside ms f.addr) (hs : s.Sound ms sa) : State.Sound ms (State.wrBit s f n v) sa := by
  unfold State.wrBit
  repeat'
    first
    | assumption | (intro _) | with_reducible apply sound_ite | with_reducible apply State.wr_sound
    | with_reducible apply addrOutside_ite | with_reducible apply addrOutside2 | with_reducible apply addrOutside1
    | with_reducible apply addrOutside_mod | with_reducible apply addrOutside0 | exact Nat.zero_lt_succ _ | (exact mask_mono hp rfl)
    | ((with_reducible apply sound_parts) <;> first | (intro _; with_reducible rfl) | exact fun hm => (mask_absurd hp hm rfl).elim | skip)
    | simp (zeta := false) (etaStruct := .none) only [sound_mk] | (extract_lets +onlyGivenNames x; refine sound_have x ?_ ?_; subst x)
    | (extract_lets +onlyGivenNames x; refine sound_fun x ?_; subst x) | (extract_lets +onlyGivenNames x) | split
    | simp (zeta := false) (zetaDelta := true) (etaStruct := .none) only [sound_mk]

theorem State.add_sound (hp : ms &&& 0x1 = 0) (s : State) (f : Fld) (n : Nat) (hw0 : AddrOutside ms f.addr) (hs : s.Sound ms sa) : State.Sound ms (State.add s f n) sa := by
  unfold State.add
  repeat'
    first
    | assumption | (intro _) | with_reducible apply sound_ite | with_reducible apply State.wr_sound
    | with_reducible apply addrOutside_ite | with_reducible apply addrOutside2 | with_reducible apply addrOutside1
    | with_reducible apply addrOutside_mod | with_reducible apply addrOutside0 | exact Nat.zero_lt_succ _ | (exact mask_mono hp rfl)
    | ((with_reducible apply sound_parts) <;> first | (intro _; with_reducible rfl) | exact fun hm => (mask_absurd hp hm rfl).elim | skip)
    | simp (zeta := false) (etaStruct := .none) only [sound_mk] | (extract_lets +onlyGivenNames x; refine sound_have x ?_ ?_; subst x)
    | (extract_lets +onlyGivenNames x; refine sound_fun x ?_; subst x) | (extract_lets +onlyGivenNames x) | split
    | simp (zeta := false) (zetaDelta := true) (etaStruct := .none) only [sound_mk]

theorem State.inc_sound (hp : ms &&& 0x1 = 0) (s : State) (f : Fld) (hw0 : AddrOutside ms f.addr) (hs : s.Sound ms sa) : State.Sound ms (State.inc s f) sa := by
  unfold State.inc
  repeat'
    first
    | assumption | (intro _) | with_reducible apply sound_ite | with_reducible apply State.add_sound
    | with_reducible apply addrOutside_ite | with_reducible apply addrOutside2 | with_reducible apply addrOutside1
    | with_reducible apply addrOutside_mod | with_reducible apply addrOutside0 | exact Nat.zero_lt_succ _ | (exact mask_mono hp rfl)
    | ((with_reducible apply sound_parts) <;> first | (intro _; with_reducible rfl) | exact fun hm => (mask_absurd hp hm rfl).elim | skip)
    | simp (zeta := false) (etaStruct := .none) only [sound_mk] | (extract_lets +onlyGivenNames x; refine sound_have x ?_ ?_; subst x)
    | (extract_lets +onlyGivenNames x; refine sound_fun x ?_; subst x) | (extract_lets +onlyGivenNames x) | split
    | simp (zeta := false) (zetaDelta := true) (etaStruct := .none) only [sound_mk]

theorem State.incWrap_sound (hp : ms &&& 0x1 = 0) (s : State) (f : Fld) (hw0 : AddrOutside ms f.addr) (hs : s.Sound ms sa) : State.Sound ms (State.incWrap s f) sa := by
  unfold State.incWrap
  repeat'
    first
    | assumption | (intro _) | with_reducible apply sound_ite | with_reducible apply State.wr_sound
    | with_reducible apply addrOutside_ite | with_reducible apply addrOutside2 | with_reducible apply addrOutside1
    | with_reducible apply addrOutside_mod | with_reducible apply addrOutside0 | exact Nat.zero_lt_succ _ | (exact mask_mono hp rfl)
    | ((with_reducible apply sound_parts) <;> first | (intro _; with_reducible rfl) | exact fun hm => (mask_absurd hp hm rfl).elim | skip)
    | simp (zeta := false) (etaStruct := .none) only [sound_mk] | (extract_lets +onlyGivenNames x; refine sound_have x ?_ ?_; subst x)
    | (extract_lets +onlyGivenNames x; refine sound_fun x ?_; subst x) | (extract_lets +onlyGivenNames x) | split
    | simp (zeta := false) (zetaDelta := true) (etaStruct := .none) only [sound_mk]

theorem State.drawBits_sound (hp : ms &&& 0x100000000 = 0) (s : State) (w : Nat) (hs : s.Sound ms sa) : State.Sound ms (State.drawBits s w).2 sa := by
  unfold State.drawBits
  repeat'
    first
    | assumption | (intro _) | with_reducible apply sound_ite | (exact mask_mono hp rfl)
    | ((with_reducible apply sound_parts) <;> first | (intro _; with_reducible rfl) | exact fun hm => (mask_absurd hp hm rfl).elim | skip)
    | simp (zeta := false) (etaStruct := .none) only [sound_mk] | (extract_lets +onlyGivenNames x; refine sound_have x ?_ ?_; subst x)
    | (extract_lets +onlyGivenNames x; refine sound_fun x ?_; subst x) | (extract_lets +onlyGivenNames x) | split
    | simp (zeta := false) (zetaDelta := true) (etaStruct := .none) only [sound_mk]

theorem State.drawNum_sound (hp : ms &&& 0x100000000 = 0) (s : State) (hs : s.Sound ms sa) : State.Sound ms (State.drawNum s).2 sa := by
  unfold State.drawNum
  repeat'
    first
    | assumption | (intro _) | with_reducible apply sound_ite | (exact mask_mono hp rfl)
    | ((with_reducible apply sound_parts) <;> first | (intro _; with_reducible rfl) | exact fun hm => (mask_absurd hp hm rfl).elim | skip)
    | simp (zeta := false) (etaStruct := .none) only [sound_mk] | (extract_lets +onlyGivenNames x; refine sound_have x ?_ ?_; subst x)
    | (extract_lets +onlyGivenNames x; refine sound_fun x ?_; subst x) | (extract_lets +onlyGivenNames x) | split
    | simp (zeta := false) (zetaDelta := true) (etaStruct := .none) only [sound_mk]

theorem State.postQ_sound (hp : ms &&& 0x1 = 0) (s : State) (f : Fld) (frac : Nat) (x : Rat) (hw0 : AddrOutside ms f.addr) (hs : s.Sound ms sa) : State.Sound ms (State.postQ s f frac x) sa := by
  unfold State.postQ
  repeat'
    first
    | assumption | (intro _) | with_reducible apply sound_ite | with_reducible apply State.wr_sound
    | with_reducible apply addrOutside_ite | with_reducible apply addrOutside2 | with_reducible apply addrOutside1
    | with_reducible apply addrOutside_mod | with_reducible apply addrOutside0 | exact Nat.zero_lt_succ _ | (exact mask_mono hp rfl)
    | ((with_reducible apply sound_parts) <;> first | (intro _; with_reducible rfl) | exact fun hm => (mask_absurd hp hm rfl).elim | skip)
    | simp (zeta := false) (etaStruct := .none) only [sound_mk] | (extract_lets +onlyGivenNames x; refine sound_have x ?_ ?_; subst x)
    | (extract_lets +onlyGivenNames x; refine sound_fun x ?_; subst x) | (extract_lets +onlyGivenNames x) | split
    | simp (zeta := false) (zetaDelta := true) (etaStruct := .none) only [sound_mk]

theorem State.postU_sound (hp : ms &&& 0x1 = 0) (s : State) (f : Fld) (frac : Nat) (x : Rat) (hw0 : AddrOutside ms f.addr) (hs : s.Sound ms sa) : State.Sound ms (State.postU s f frac x) sa := by
  unfold State.postU
  repeat'
    first
    | assumption | (intro _) | with_reducible apply sound_ite | with_reducible apply State.wr_sound
    | with_reducible apply addrOutside_ite | with_reducible apply addrOutside2 | with_reducible apply addrOutside1
    | with_reducible apply addrOutside_mod | with_reducible apply addrOutside0 | exact Nat.zero_lt_succ _ | (exact mask_mono hp rfl)
    | ((with_reducible apply sound_parts) <;> first | (intro _; with_reducible rfl) | exact fun hm => (mask_absurd hp hm rfl).elim | skip)
    | simp (zeta := false) (etaStruct := .none) only [sound_mk] | (extract_lets +onlyGivenNames x; refine sound_have x ?_ ?_; subst x)
    | (extract_lets +onlyGivenNames x; refine sound_fun x ?_; subst x) | (extract_lets +onlyGivenNames x) | split
    | simp (zeta := false) (zetaDelta := true) (etaStruct := .none) only [sound_mk]

theorem State.satQ_sound (hp : ms &&& 0x1 = 0) (s : State) (f : Fld) (frac : Nat) (x : Rat) (hw0 : AddrOutside ms f.addr) (hs : s.Sound ms sa) : State.Sound ms (State.satQ s f frac x) sa := by
  unfold State.satQ
  repeat'
    first
    | assumption | (intro _) | with_reducible apply sound_ite | with_reducible apply State.wr_sound
    | with_reducible apply addrOutside_ite | with_reducible apply addrOutside2 | with_reducible apply addrOutside1
    | with_reducible apply addrOutside_mod | with_reducible apply addrOutside0 | exact Nat.zero_lt_succ _ | (exact mask_mono hp rfl)
    | ((with_reducible apply sound_parts) <;> first | (intro _; with_reducible rfl) | exact fun hm => (mask_absurd hp hm rfl).elim | skip)
    | simp (zeta := false) (etaStruct := .none) only [sound_mk] | (extract_lets +onlyGivenNames x; refine sound_have x ?_ ?_; subst x)
    | (extract_lets +onlyGivenNames x; refine sound_fun x ?_; subst x) | (extract_lets +onlyGivenNames x) | split
    | simp (zeta := false) (zetaDelta := true) (etaStruct := .none) only [sound_mk]

theorem State.satU_sound (hp : ms &&& 0x1 = 0) (s : State) (f : Fld) (frac : Nat) (x : Rat) (hw0 : AddrOutside ms f.addr) (hs : s.Sound ms sa) : State.Sound ms (State.satU s f frac x) sa := by
  unfold State.satU
  repeat'
    first
    | assumption | (intro _) | with_reducible apply sound_ite | with_reducible apply State.wr_sound
    | with_reducible apply addrOutside_ite | with_reducible apply addrOutside2 | with_reducible apply addrOutside1
    | with_reducible apply addrOutside_mod | with_reducible apply addrOutside0 | exact Nat.zero_lt_succ _ | (exact mask_mono hp rfl)
    | ((with_reducible apply sound_parts) <;> first | (intro _; with_reducible rfl) | exact fun hm => (mask_absurd hp hm rfl).elim | skip)
    | simp (zeta := false) (etaStruct := .none) only [sound_mk] | (extract_lets +onlyGivenNames x; refine sound_have x ?_ ?_; subst x)
    | (extract_lets +onlyGivenNames x; refine sound_fun x ?_; subst x) | (extract_lets +onlyGivenNames x) | split
    | simp (zeta := false) (zetaDelta := true) (etaStruct := .none) only [sound_mk]

theorem State.advanceTo_sound (hp : ms &&& 0x20 = 0) (s : State) (off : Nat) (hs : s.Sound ms sa) : (s.advanceTo off).Sound ms sa := by
  have h := hs
  exact { h with time := fun w => Nat.le_trans (h.time w) (Nat.le_max_left _ _), same := fun p hm => by have h1 := h.same p hm; cases p <;> first | exact (mask_absurd hp hm rfl).elim | exact h1 }

theorem State.setMemByte_sound (hp : ms &&& 0x2 = 0) (s : State) (a : Nat) (b : Byte) (hs : s.Sound ms sa) : (s.setMemByte a b).Sound ms sa := by
  have h := hs
  exact { h with mem := fun w => smapWf_set _ _ _ _ (h.mem w), same := fun p hm => by have h1 := h.same p hm; cases p <;> first | exact (mask_absurd hp hm rfl).elim | exact h1 }

theorem State.setMem_sound (hp : ms &&& 0x2 = 0) (s : State) (a : Nat) (b : List Byte) (hs : s.Sound ms sa) : (s.setMem a b).Sound ms sa := by
  induction b generalizing s a with
  | nil => exact hs
  | cons x b ih => exact ih _ _ (State.setMemByte_sound (mask_mono hp rfl) s a x hs)

theorem State.setNor_sound (hp : ms &&& 0x4 = 0) (s : State) (a : Nat) (b : List Byte) (hs : s.Sound ms sa) : (s.setNor a b).Sound ms sa := by
  induction b generalizing s a with
  | nil => exact hs
  | cons x b ih =>
    have h := hs
    exact ih _ _ { h with nor := fun w => smapWf_set _ _ _ _ (h.nor w), same := fun p hm => by have h1 := h.same p hm; cases p <;> first | exact (mask_absurd hp hm rfl).elim | exact h1 }

theorem State.setBankWord_sound (hp : ms &&& 0x20000000000001 = 0) (s : State) (b : Bool) (off : Nat) (w : Word) (hs : s.Sound ms sa) :
    State.Sound ms (s.setBankWord b off w) sa where
  regs := fun h => smapWf_set _ _ _ _ (hs.regs h)
  mem := hs.mem
  nor := hs.nor
  queues := hs.queues
  time := hs.time
  pending := hs.pending
  same := fun p hm => by have h1 := hs.same p hm; cases p <;> first | exact (mask_absurd hp hm rfl).elim | exact h1
  words := fun k hk => by
    have hne : k ≠ (if b then 0x10130000 else 0x10120000) + off % 0x10000 := fun e => by
      have hu : unitBit k = 53 := by
        have h1 : k / 0x10000 = 0x1013 ∨ k / 0x10000 = 0x1012 := by
          rw [e]
          split <;> omega
        unfold unitBit
        rcases h1 with h1 | h1 <;> rw [h1] <;> rfl
      rw [hu] at hk
      exact mask_absurd hp hk rfl
    exact (smapGet_set_ne _ _ _ hne).trans (hs.words k hk)

theorem State.setQueue_sound (hp : ms &&& 0x8 = 0) (s : State) (n : Nat) (q : Queue) (hs : s.Sound ms sa) : (s.setQueue n q).Sound ms sa := by
  have h := hs
  exact { h with queues := fun w => smapWf_set _ _ _ _ (h.queues w), same := fun p hm => by have h1 := h.same p hm; cases p <;> first | exact (mask_absurd hp hm rfl).elim | exact h1 }

theorem State.qPopped_sound (hp : ms &&& 0x8 = 0) (s : State) (n k : Nat) (hs : s.Sound ms sa) : State.Sound ms (State.qPopped s n k) sa := by
  unfold State.qPopped
  repeat'
    first
    | assumption | (intro _) | with_reducible apply sound_ite | with_reducible apply State.setQueue_sound | (exact mask_mono hp rfl)
    | ((with_reducible apply sound_parts) <;> first | (intro _; with_reducible rfl) | exact fun hm => (mask_absurd hp hm rfl).elim | skip)
    | simp (zeta := false) (etaStruct := .none) only [sound_mk] | (extract_lets +onlyGivenNames x; refine sound_have x ?_ ?_; subst x)
    | (extract_lets +onlyGivenNames x; refine sound_fun x ?_; subst x) | (extract_lets +onlyGivenNames x) | split
    | simp (zeta := false) (zetaDelta := true) (etaStruct := .none) only [sound_mk]
    | ((with_reducible apply sound_time) <;> first | (intro _; with_reducible rfl) | exact fun hm => (mask_absurd hp hm rfl).elim | skip)
    | omega | exact Nat.le_trans ‹_ ≤ _› (Nat.le_max_left _ _)

theorem State.qIrq_sound (hp : ms &&& 0x800000001 = 0) (s : State) (n : Nat) (hs : s.Sound ms sa) : State.Sound ms (State.qIrq s n) sa := by
  unfold State.qIrq
  repeat'
    first
    | assumption | (intro _) | with_reducible apply sound_ite | with_reducible apply State.wrBit_sound
    | with_reducible apply addrOutside_ite | with_reducible apply addrOutside2 | with_reducible apply addrOutside1
    | with_reducible apply addrOutside_mod | with_reducible apply addrOutside0 | exact Nat.zero_lt_succ _ | (exact mask_mono hp rfl)
    | ((with_reducible apply sound_parts) <;> first | (intro _; with_reducible rfl) | exact fun hm => (mask_absurd hp hm rfl).elim | skip)
    | simp (zeta := false) (etaStruct := .none) only [sound_mk] | (extract_lets +onlyGivenNames x; refine sound_have x ?_ ?_; subst x)
    | (extract_lets +onlyGivenNames x; refine sound_fun x ?_; subst x) | (extract_lets +onlyGivenNames x) | split
    | simp (zeta := false) (zetaDelta := true) (etaStruct := .none) only [sound_mk]

theorem State.qLose_sound (hp : ms &&& 0x100800000001 = 0) (s : State) (n : Nat) (hs : s.Sound ms sa) : State.Sound ms (State.qLose s n) sa := by
  unfold State.qLose
  repeat'
    first
    | assumption | (intro _) | with_reducible apply sound_ite | with_reducible apply State.inc_sound
    | with_reducible apply State.wr_sound | with_reducible apply addrOutside_ite | with_reducible apply addrOutside2
    | with_reducible apply addrOutside1 | with_reducible apply addrOutside_mod | with_reducible apply addrOutside0
    | exact Nat.zero_lt_succ _ | (exact mask_mono hp rfl)
    | ((with_reducible apply sound_parts) <;> first | (intro _; with_reducible rfl) | exact fun hm => (mask_absurd hp hm rfl).elim | skip)
    | simp (zeta := false) (etaStruct := .none) only [sound_mk] | (extract_lets +onlyGivenNames x; refine sound_have x ?_ ?_; subst x)
    | (extract_lets +onlyGivenNames x; refine sound_fun x ?_; subst x) | (extract_lets +onlyGivenNames x) | split
    | simp (zeta := false) (zetaDelta := true) (etaStruct := .none) only [sound_mk]

theorem State.qPush_sound (hp : ms &&& 0x100800000009 = 0) (s : State) (n : Nat) (item : List Byte) (hs : s.Sound ms sa) : State.Sound ms (State.qPush s n item) sa := by
  unfold State.qPush
  repeat'
    first
    | assumption | (intro _) | with_reducible apply sound_ite | with_reducible apply State.qIrq_sound
    | with_reducible apply State.qLose_sound | with_reducible apply State.setQueue_sound | with_reducible apply addrOutside_ite
    | with_reducible apply addrOutside2 | with_reducible apply addrOutside1 | with_reducible apply addrOutside_mod
    | with_reducible apply addrOutside0 | exact Nat.zero_lt_succ _ | (exact mask_mono hp rfl)
    | ((with_reducible apply sound_parts) <;> first | (intro _; with_reducible rfl) | exact fun hm => (mask_absurd hp hm rfl).elim | skip)
    | simp (zeta := false) (etaStruct := .none) only [sound_mk] | (extract_lets +onlyGivenNames x; refine sound_have x ?_ ?_; subst x)
    | (extract_lets +onlyGivenNames x; refine sound_fun x ?_; subst x) | (extract_lets +onlyGivenNames x) | split
    | simp (zeta := false) (zetaDelta := true) (etaStruct := .none) only [sound_mk]

theorem State.qPop_sound (hp : ms &&& 0x800000009 = 0) (s : State) (n : Nat) (hs : s.Sound ms sa) : State.Sound ms (State.qPop s n).2 sa := by
  unfold State.qPop
  repeat'
    first
    | assumption | (intro _) | with_reducible apply sound_ite | with_reducible apply State.qPopped_sound
    | with_reducible apply State.setQueue_sound | with_reducible apply State.wr_sound | with_reducible apply addrOutside_ite
    | with_reducible apply addrOutside2 | with_reducible apply addrOutside1 | with_reducible apply addrOutside_mod
    | with_reducible apply addrOutside0 | exact Nat.zero_lt_succ _ | (exact mask_mono hp rfl)
    | ((with_reducible apply sound_parts) <;> first | (intro _; with_reducible rfl) | exact fun hm => (mask_absurd hp hm rfl).elim | skip)
    | simp (zeta := false) (etaStruct := .none) only [sound_mk] | (extract_lets +onlyGivenNames x; refine sound_have x ?_ ?_; subst x)
    | (extract_lets +onlyGivenNames x; refine sound_fun x ?_; subst x) | (extract_lets +onlyGivenNames x) | split
    | simp (zeta := false) (zetaDelta := true) (etaStruct := .none) only [sound_mk]

theorem State.qDrain_sound (hp : ms &&& 0x8 = 0) (s : State) (n : Nat) (hs : s.Sound ms sa) : State.Sound ms (State.qDrain s n) sa := by
  unfold State.qDrain
  repeat'
    first
    | assumption | (intro _) | with_reducible apply sound_ite | with_reducible apply State.qPopped_sound
    | with_reducible apply State.setQueue_sound | (exact mask_mono hp rfl)
    | ((with_reducible apply sound_parts) <;> first | (intro _; with_reducible rfl) | exact fun hm => (mask_absurd hp hm rfl).elim | skip)
    | simp (zeta := false) (etaStruct := .none) only [sound_mk] | (extract_lets +onlyGivenNames x; refine sound_have x ?_ ?_; subst x)
    | (extract_lets +onlyGivenNames x; refine sound_fun x ?_; subst x) | (extract_lets +onlyGivenNames x) | split
    | simp (zeta := false) (zetaDelta := true) (etaStruct := .none) only [sound_mk]

theorem State.qConsumer_sound (hp : ms &&& 0x8 = 0) (s : State) (n : Nat) (on : Bool) (hs : s.Sound ms sa) : State.Sound ms (State.qConsumer s n on) sa := by
  unfold State.qConsumer
  repeat'
    first
    | assumption | (intro _) | with_reducible apply sound_ite | with_reducible apply State.setQueue_sound | (exact mask_mono hp rfl)
    | ((with_reducible apply sound_parts) <;> first | (intro _; with_reducible rfl) | exact fun hm => (mask_absurd hp hm rfl).elim | skip)
    | simp (zeta := false) (etaStruct := .none) only [sound_mk] | (extract_lets +onlyGivenNames x; refine sound_have x ?_ ?_; subst x)
    | (extract_lets +onlyGivenNames x; refine sound_fun x ?_; subst x) | (extract_lets +onlyGivenNames x) | split
    | simp (zeta := false) (zetaDelta := true) (etaStruct := .none) only [sound_mk]

theorem State.arbPush_sound (hp : ms &&& 0x100800000009 = 0) (s : State) (ring : Nat) (item : List Byte) (hs : s.Sound ms sa) : State.Sound ms (State.arbPush s ring item) sa := by
  unfold State.arbPush
  repeat'
    first
    | assumption | (intro _) | with_reducible apply sound_ite | with_reducible apply State.qIrq_sound
    | with_reducible apply State.qLose_sound | with_reducible apply State.qPush_sound | with_reducible apply State.setQueue_sound
    | with_reducible apply addrOutside_ite | with_reducible apply addrOutside2 | with_reducible apply addrOutside1
    | with_reducible apply addrOutside_mod | with_reducible apply addrOutside0 | exact Nat.zero_lt_succ _ | (exact mask_mono hp rfl)
    | ((with_reducible apply sound_parts) <;> first | (intro _; with_reducible rfl) | exact fun hm => (mask_absurd hp hm rfl).elim | skip)
    | simp (zeta := false) (etaStruct := .none) only [sound_mk] | (extract_lets +onlyGivenNames x; refine sound_have x ?_ ?_; subst x)
    | (extract_lets +onlyGivenNames x; refine sound_fun x ?_; subst x) | (extract_lets +onlyGivenNames x) | split
    | simp (zeta := false) (zetaDelta := true) (etaStruct := .none) only [sound_mk]

theorem State.event_sound (hp : ms &&& 0x100802000009 = 0) (s : State) (e : EventId) (src : Nat) (data : List Byte) (hs : s.Sound ms sa) : State.Sound ms (State.event s e src data) sa := by
  unfold State.event
  repeat'
    first
    | assumption | (intro _) | with_reducible apply sound_ite | with_reducible apply State.arbPush_sound
    | with_reducible apply addrOutside_ite | with_reducible apply addrOutside2 | with_reducible apply addrOutside1
    | with_reducible apply addrOutside_mod | with_reducible apply addrOutside0 | exact Nat.zero_lt_succ _ | (exact mask_mono hp rfl)
    | ((with_reducible apply sound_parts) <;> first | (intro _; with_reducible rfl) | exact fun hm => (mask_absurd hp hm rfl).elim | skip)
    | simp (zeta := false) (etaStruct := .none) only [sound_mk] | (extract_lets +onlyGivenNames x; refine sound_have x ?_ ?_; subst x)
    | (extract_lets +onlyGivenNames x; refine sound_fun x ?_; subst x) | (extract_lets +onlyGivenNames x) | split
    | simp (zeta := false) (zetaDelta := true) (etaStruct := .none) only [sound_mk]
    | ((with_reducible apply sound_time) <;> first | (intro _; with_reducible rfl) | exact fun hm => (mask_absurd hp hm rfl).elim | skip)
    | omega | exact Nat.le_trans ‹_ ≤ _› (Nat.le_max_left _ _)

theorem State.mpEvent_sound (hp : ms &&& 0x22000000 = 0) (s : State) (e : EventId) (data : List Byte) (hs : s.Sound ms sa) : State.Sound ms (State.mpEvent s e data) sa := by
  unfold State.mpEvent
  repeat'
    first
    | assumption | (intro _) | with_reducible apply sound_ite | (exact mask_mono hp rfl)
    | ((with_reducible apply sound_parts) <;> first | (intro _; with_reducible rfl) | exact fun hm => (mask_absurd hp hm rfl).elim | skip)
    | simp (zeta := false) (etaStruct := .none) only [sound_mk] | (extract_lets +onlyGivenNames x; refine sound_have x ?_ ?_; subst x)
    | (extract_lets +onlyGivenNames x; refine sound_fun x ?_; subst x) | (extract_lets +onlyGivenNames x) | split
    | simp (zeta := false) (zetaDelta := true) (etaStruct := .none) only [sound_mk]
    | ((with_reducible apply sound_time) <;> first | (intro _; with_reducible rfl) | exact fun hm => (mask_absurd hp hm rfl).elim | skip)
    | omega | exact Nat.le_trans ‹_ ≤ _› (Nat.le_max_left _ _)

theorem State.badAddr_sound (hp : ms &&& 0x100802000009 = 0) (s : State) (a access requester : Nat) (hs : s.Sound ms sa) : State.Sound ms (State.badAddr s a access requester) sa := by
  unfold State.badAddr
  repeat'
    first
    | assumption | (intro _) | with_reducible apply sound_ite | with_reducible apply State.event_sound
    | with_reducible apply addrOutside_ite | with_reducible apply addrOutside2 | with_reducible apply addrOutside1
    | with_reducible apply addrOutside_mod | with_reducible apply addrOutside0 | exact Nat.zero_lt_succ _ | (exact mask_mono hp rfl)
    | ((with_reducible apply sound_parts) <;> first | (intro _; with_reducible rfl) | exact fun hm => (mask_absurd hp hm rfl).elim | skip)
    | simp (zeta := false) (etaStruct := .none) only [sound_mk] | (extract_lets +onlyGivenNames x; refine sound_have x ?_ ?_; subst x)
    | (extract_lets +onlyGivenNames x; refine sound_fun x ?_; subst x) | (extract_lets +onlyGivenNames x) | split
    | simp (zeta := false) (zetaDelta := true) (etaStruct := .none) only [sound_mk]

theorem State.cause_sound (hp : ms &&& 0x100842000009 = 0) (s : State) (bit src detail value : Nat) (hs : s.Sound ms sa) : State.Sound ms (State.cause s bit src detail value) sa := by
  unfold State.cause
  repeat'
    first
    | assumption | (intro _) | with_reducible apply sound_ite | with_reducible apply State.event_sound
    | with_reducible apply addrOutside_ite | with_reducible apply addrOutside2 | with_reducible apply addrOutside1
    | with_reducible apply addrOutside_mod | with_reducible apply addrOutside0 | exact Nat.zero_lt_succ _ | (exact mask_mono hp rfl)
    | ((with_reducible apply sound_parts) <;> first | (intro _; with_reducible rfl) | exact fun hm => (mask_absurd hp hm rfl).elim | skip)
    | simp (zeta := false) (etaStruct := .none) only [sound_mk] | (extract_lets +onlyGivenNames x; refine sound_have x ?_ ?_; subst x)
    | (extract_lets +onlyGivenNames x; refine sound_fun x ?_; subst x) | (extract_lets +onlyGivenNames x) | split
    | simp (zeta := false) (zetaDelta := true) (etaStruct := .none) only [sound_mk]

theorem State.answer_sound (hp : ms &&& 0x80000000 = 0) (s : State) (w : Word) (hs : s.Sound ms sa) : State.Sound ms (State.answer s w) sa := by
  unfold State.answer
  repeat'
    first
    | assumption | (intro _) | with_reducible apply sound_ite | (exact mask_mono hp rfl)
    | ((with_reducible apply sound_parts) <;> first | (intro _; with_reducible rfl) | exact fun hm => (mask_absurd hp hm rfl).elim | skip)
    | simp (zeta := false) (etaStruct := .none) only [sound_mk] | (extract_lets +onlyGivenNames x; refine sound_have x ?_ ?_; subst x)
    | (extract_lets +onlyGivenNames x; refine sound_fun x ?_; subst x) | (extract_lets +onlyGivenNames x) | split
    | simp (zeta := false) (zetaDelta := true) (etaStruct := .none) only [sound_mk]

end Sys2Proof.Machine
end

