-- ==== Sys2Proof/Laws/State.lean ====
section
/-! SUPPORT. The fields of the state after each of its updates: one lemma for a field and an update. -/

set_option Elab.async false

namespace Sys2Proof.Machine

variable (s : State)

/-! ### State.setWord -/

@[simp] theorem State.setWord_mem (a : Nat) (w : Word) : (s.setWord a w).mem = s.mem := rfl
@[simp] theorem State.setWord_nor (a : Nat) (w : Word) : (s.setWord a w).nor = s.nor := rfl
@[simp] theorem State.setWord_queues (a : Nat) (w : Word) : (s.setWord a w).queues = s.queues := rfl
@[simp] theorem State.setWord_sys (a : Nat) (w : Word) : (s.setWord a w).sys = s.sys := rfl
@[simp] theorem State.setWord_time (a : Nat) (w : Word) : (s.setWord a w).time = s.time := rfl
@[simp] theorem State.setWord_tt (a : Nat) (w : Word) : (s.setWord a w).tt = s.tt := rfl
@[simp] theorem State.setWord_ln (a : Nat) (w : Word) : (s.setWord a w).ln = s.ln := rfl
@[simp] theorem State.setWord_sd (a : Nat) (w : Word) : (s.setWord a w).sd = s.sd := rfl
@[simp] theorem State.setWord_cf (a : Nat) (w : Word) : (s.setWord a w).cf = s.cf := rfl
@[simp] theorem State.setWord_cfNew (a : Nat) (w : Word) : (s.setWord a w).cfNew = s.cfNew := rfl
@[simp] theorem State.setWord_ol (a : Nat) (w : Word) : (s.setWord a w).ol = s.ol := rfl
@[simp] theorem State.setWord_olp (a : Nat) (w : Word) : (s.setWord a w).olp = s.olp := rfl
@[simp] theorem State.setWord_olNew (a : Nat) (w : Word) : (s.setWord a w).olNew = s.olNew := rfl
@[simp] theorem State.setWord_gd (a : Nat) (w : Word) : (s.setWord a w).gd = s.gd := rfl
@[simp] theorem State.setWord_pw (a : Nat) (w : Word) : (s.setWord a w).pw = s.pw := rfl
@[simp] theorem State.setWord_lim (a : Nat) (w : Word) : (s.setWord a w).lim = s.lim := rfl
@[simp] theorem State.setWord_limNew (a : Nat) (w : Word) : (s.setWord a w).limNew = s.limNew := rfl
@[simp] theorem State.setWord_fb (a : Nat) (w : Word) : (s.setWord a w).fb = s.fb := rfl
@[simp] theorem State.setWord_pm (a : Nat) (w : Word) : (s.setWord a w).pm = s.pm := rfl
@[simp] theorem State.setWord_sb (a : Nat) (w : Word) : (s.setWord a w).sb = s.sb := rfl
@[simp] theorem State.setWord_can (a : Nat) (w : Word) : (s.setWord a w).can = s.can := rfl
@[simp] theorem State.setWord_bl (a : Nat) (w : Word) : (s.setWord a w).bl = s.bl := rfl
@[simp] theorem State.setWord_th (a : Nat) (w : Word) : (s.setWord a w).th = s.th := rfl
@[simp] theorem State.setWord_nv (a : Nat) (w : Word) : (s.setWord a w).nv = s.nv := rfl
@[simp] theorem State.setWord_te (a : Nat) (w : Word) : (s.setWord a w).te = s.te := rfl
@[simp] theorem State.setWord_bi (a : Nat) (w : Word) : (s.setWord a w).bi = s.bi := rfl
@[simp] theorem State.setWord_cc (a : Nat) (w : Word) : (s.setWord a w).cc = s.cc := rfl
@[simp] theorem State.setWord_hs (a : Nat) (w : Word) : (s.setWord a w).hs = s.hs := rfl
@[simp] theorem State.setWord_mp (a : Nat) (w : Word) : (s.setWord a w).mp = s.mp := rfl
@[simp] theorem State.setWord_seq (a : Nat) (w : Word) : (s.setWord a w).seq = s.seq := rfl
@[simp] theorem State.setWord_out (a : Nat) (w : Word) : (s.setWord a w).out = s.out := rfl
@[simp] theorem State.setWord_free (a : Nat) (w : Word) : (s.setWord a w).free = s.free := rfl
@[simp] theorem State.setWord_pending (a : Nat) (w : Word) : (s.setWord a w).pending = s.pending := rfl

/-! ### State.wr -/

@[simp] theorem State.wr_mem (f : Fld) (v : Nat) : (s.wr f v).mem = s.mem := rfl
@[simp] theorem State.wr_nor (f : Fld) (v : Nat) : (s.wr f v).nor = s.nor := rfl
@[simp] theorem State.wr_queues (f : Fld) (v : Nat) : (s.wr f v).queues = s.queues := rfl
@[simp] theorem State.wr_sys (f : Fld) (v : Nat) : (s.wr f v).sys = s.sys := rfl
@[simp] theorem State.wr_time (f : Fld) (v : Nat) : (s.wr f v).time = s.time := rfl
@[simp] theorem State.wr_tt (f : Fld) (v : Nat) : (s.wr f v).tt = s.tt := rfl
@[simp] theorem State.wr_ln (f : Fld) (v : Nat) : (s.wr f v).ln = s.ln := rfl
@[simp] theorem State.wr_sd (f : Fld) (v : Nat) : (s.wr f v).sd = s.sd := rfl
@[simp] theorem State.wr_cf (f : Fld) (v : Nat) : (s.wr f v).cf = s.cf := rfl
@[simp] theorem State.wr_cfNew (f : Fld) (v : Nat) : (s.wr f v).cfNew = s.cfNew := rfl
@[simp] theorem State.wr_ol (f : Fld) (v : Nat) : (s.wr f v).ol = s.ol := rfl
@[simp] theorem State.wr_olp (f : Fld) (v : Nat) : (s.wr f v).olp = s.olp := rfl
@[simp] theorem State.wr_olNew (f : Fld) (v : Nat) : (s.wr f v).olNew = s.olNew := rfl
@[simp] theorem State.wr_gd (f : Fld) (v : Nat) : (s.wr f v).gd = s.gd := rfl
@[simp] theorem State.wr_pw (f : Fld) (v : Nat) : (s.wr f v).pw = s.pw := rfl
@[simp] theorem State.wr_lim (f : Fld) (v : Nat) : (s.wr f v).lim = s.lim := rfl
@[simp] theorem State.wr_limNew (f : Fld) (v : Nat) : (s.wr f v).limNew = s.limNew := rfl
@[simp] theorem State.wr_fb (f : Fld) (v : Nat) : (s.wr f v).fb = s.fb := rfl
@[simp] theorem State.wr_pm (f : Fld) (v : Nat) : (s.wr f v).pm = s.pm := rfl
@[simp] theorem State.wr_sb (f : Fld) (v : Nat) : (s.wr f v).sb = s.sb := rfl
@[simp] theorem State.wr_can (f : Fld) (v : Nat) : (s.wr f v).can = s.can := rfl
@[simp] theorem State.wr_bl (f : Fld) (v : Nat) : (s.wr f v).bl = s.bl := rfl
@[simp] theorem State.wr_th (f : Fld) (v : Nat) : (s.wr f v).th = s.th := rfl
@[simp] theorem State.wr_nv (f : Fld) (v : Nat) : (s.wr f v).nv = s.nv := rfl
@[simp] theorem State.wr_te (f : Fld) (v : Nat) : (s.wr f v).te = s.te := rfl
@[simp] theorem State.wr_bi (f : Fld) (v : Nat) : (s.wr f v).bi = s.bi := rfl
@[simp] theorem State.wr_cc (f : Fld) (v : Nat) : (s.wr f v).cc = s.cc := rfl
@[simp] theorem State.wr_hs (f : Fld) (v : Nat) : (s.wr f v).hs = s.hs := rfl
@[simp] theorem State.wr_mp (f : Fld) (v : Nat) : (s.wr f v).mp = s.mp := rfl
@[simp] theorem State.wr_seq (f : Fld) (v : Nat) : (s.wr f v).seq = s.seq := rfl
@[simp] theorem State.wr_out (f : Fld) (v : Nat) : (s.wr f v).out = s.out := rfl
@[simp] theorem State.wr_free (f : Fld) (v : Nat) : (s.wr f v).free = s.free := rfl
@[simp] theorem State.wr_pending (f : Fld) (v : Nat) : (s.wr f v).pending = s.pending := rfl

/-! ### State.wrBit -/

@[simp] theorem State.wrBit_mem (f : Fld) (n : Nat) (b : Bool) : (s.wrBit f n b).mem = s.mem := rfl
@[simp] theorem State.wrBit_nor (f : Fld) (n : Nat) (b : Bool) : (s.wrBit f n b).nor = s.nor := rfl
@[simp] theorem State.wrBit_queues (f : Fld) (n : Nat) (b : Bool) : (s.wrBit f n b).queues = s.queues := rfl
@[simp] theorem State.wrBit_sys (f : Fld) (n : Nat) (b : Bool) : (s.wrBit f n b).sys = s.sys := rfl
@[simp] theorem State.wrBit_time (f : Fld) (n : Nat) (b : Bool) : (s.wrBit f n b).time = s.time := rfl
@[simp] theorem State.wrBit_tt (f : Fld) (n : Nat) (b : Bool) : (s.wrBit f n b).tt = s.tt := rfl
@[simp] theorem State.wrBit_ln (f : Fld) (n : Nat) (b : Bool) : (s.wrBit f n b).ln = s.ln := rfl
@[simp] theorem State.wrBit_sd (f : Fld) (n : Nat) (b : Bool) : (s.wrBit f n b).sd = s.sd := rfl
@[simp] theorem State.wrBit_cf (f : Fld) (n : Nat) (b : Bool) : (s.wrBit f n b).cf = s.cf := rfl
@[simp] theorem State.wrBit_cfNew (f : Fld) (n : Nat) (b : Bool) : (s.wrBit f n b).cfNew = s.cfNew := rfl
@[simp] theorem State.wrBit_ol (f : Fld) (n : Nat) (b : Bool) : (s.wrBit f n b).ol = s.ol := rfl
@[simp] theorem State.wrBit_olp (f : Fld) (n : Nat) (b : Bool) : (s.wrBit f n b).olp = s.olp := rfl
@[simp] theorem State.wrBit_olNew (f : Fld) (n : Nat) (b : Bool) : (s.wrBit f n b).olNew = s.olNew := rfl
@[simp] theorem State.wrBit_gd (f : Fld) (n : Nat) (b : Bool) : (s.wrBit f n b).gd = s.gd := rfl
@[simp] theorem State.wrBit_pw (f : Fld) (n : Nat) (b : Bool) : (s.wrBit f n b).pw = s.pw := rfl
@[simp] theorem State.wrBit_lim (f : Fld) (n : Nat) (b : Bool) : (s.wrBit f n b).lim = s.lim := rfl
@[simp] theorem State.wrBit_limNew (f : Fld) (n : Nat) (b : Bool) : (s.wrBit f n b).limNew = s.limNew := rfl
@[simp] theorem State.wrBit_fb (f : Fld) (n : Nat) (b : Bool) : (s.wrBit f n b).fb = s.fb := rfl
@[simp] theorem State.wrBit_pm (f : Fld) (n : Nat) (b : Bool) : (s.wrBit f n b).pm = s.pm := rfl
@[simp] theorem State.wrBit_sb (f : Fld) (n : Nat) (b : Bool) : (s.wrBit f n b).sb = s.sb := rfl
@[simp] theorem State.wrBit_can (f : Fld) (n : Nat) (b : Bool) : (s.wrBit f n b).can = s.can := rfl
@[simp] theorem State.wrBit_bl (f : Fld) (n : Nat) (b : Bool) : (s.wrBit f n b).bl = s.bl := rfl
@[simp] theorem State.wrBit_th (f : Fld) (n : Nat) (b : Bool) : (s.wrBit f n b).th = s.th := rfl
@[simp] theorem State.wrBit_nv (f : Fld) (n : Nat) (b : Bool) : (s.wrBit f n b).nv = s.nv := rfl
@[simp] theorem State.wrBit_te (f : Fld) (n : Nat) (b : Bool) : (s.wrBit f n b).te = s.te := rfl
@[simp] theorem State.wrBit_bi (f : Fld) (n : Nat) (b : Bool) : (s.wrBit f n b).bi = s.bi := rfl
@[simp] theorem State.wrBit_cc (f : Fld) (n : Nat) (b : Bool) : (s.wrBit f n b).cc = s.cc := rfl
@[simp] theorem State.wrBit_hs (f : Fld) (n : Nat) (b : Bool) : (s.wrBit f n b).hs = s.hs := rfl
@[simp] theorem State.wrBit_mp (f : Fld) (n : Nat) (b : Bool) : (s.wrBit f n b).mp = s.mp := rfl
@[simp] theorem State.wrBit_seq (f : Fld) (n : Nat) (b : Bool) : (s.wrBit f n b).seq = s.seq := rfl
@[simp] theorem State.wrBit_out (f : Fld) (n : Nat) (b : Bool) : (s.wrBit f n b).out = s.out := rfl
@[simp] theorem State.wrBit_free (f : Fld) (n : Nat) (b : Bool) : (s.wrBit f n b).free = s.free := rfl
@[simp] theorem State.wrBit_pending (f : Fld) (n : Nat) (b : Bool) : (s.wrBit f n b).pending = s.pending := rfl

/-! ### State.inc -/

@[simp] theorem State.inc_mem (f : Fld) : (s.inc f).mem = s.mem := rfl
@[simp] theorem State.inc_nor (f : Fld) : (s.inc f).nor = s.nor := rfl
@[simp] theorem State.inc_queues (f : Fld) : (s.inc f).queues = s.queues := rfl
@[simp] theorem State.inc_sys (f : Fld) : (s.inc f).sys = s.sys := rfl
@[simp] theorem State.inc_time (f : Fld) : (s.inc f).time = s.time := rfl
@[simp] theorem State.inc_tt (f : Fld) : (s.inc f).tt = s.tt := rfl
@[simp] theorem State.inc_ln (f : Fld) : (s.inc f).ln = s.ln := rfl
@[simp] theorem State.inc_sd (f : Fld) : (s.inc f).sd = s.sd := rfl
@[simp] theorem State.inc_cf (f : Fld) : (s.inc f).cf = s.cf := rfl
@[simp] theorem State.inc_cfNew (f : Fld) : (s.inc f).cfNew = s.cfNew := rfl
@[simp] theorem State.inc_ol (f : Fld) : (s.inc f).ol = s.ol := rfl
@[simp] theorem State.inc_olp (f : Fld) : (s.inc f).olp = s.olp := rfl
@[simp] theorem State.inc_olNew (f : Fld) : (s.inc f).olNew = s.olNew := rfl
@[simp] theorem State.inc_gd (f : Fld) : (s.inc f).gd = s.gd := rfl
@[simp] theorem State.inc_pw (f : Fld) : (s.inc f).pw = s.pw := rfl
@[simp] theorem State.inc_lim (f : Fld) : (s.inc f).lim = s.lim := rfl
@[simp] theorem State.inc_limNew (f : Fld) : (s.inc f).limNew = s.limNew := rfl
@[simp] theorem State.inc_fb (f : Fld) : (s.inc f).fb = s.fb := rfl
@[simp] theorem State.inc_pm (f : Fld) : (s.inc f).pm = s.pm := rfl
@[simp] theorem State.inc_sb (f : Fld) : (s.inc f).sb = s.sb := rfl
@[simp] theorem State.inc_can (f : Fld) : (s.inc f).can = s.can := rfl
@[simp] theorem State.inc_bl (f : Fld) : (s.inc f).bl = s.bl := rfl
@[simp] theorem State.inc_th (f : Fld) : (s.inc f).th = s.th := rfl
@[simp] theorem State.inc_nv (f : Fld) : (s.inc f).nv = s.nv := rfl
@[simp] theorem State.inc_te (f : Fld) : (s.inc f).te = s.te := rfl
@[simp] theorem State.inc_bi (f : Fld) : (s.inc f).bi = s.bi := rfl
@[simp] theorem State.inc_cc (f : Fld) : (s.inc f).cc = s.cc := rfl
@[simp] theorem State.inc_hs (f : Fld) : (s.inc f).hs = s.hs := rfl
@[simp] theorem State.inc_mp (f : Fld) : (s.inc f).mp = s.mp := rfl
@[simp] theorem State.inc_seq (f : Fld) : (s.inc f).seq = s.seq := rfl
@[simp] theorem State.inc_out (f : Fld) : (s.inc f).out = s.out := rfl
@[simp] theorem State.inc_free (f : Fld) : (s.inc f).free = s.free := rfl
@[simp] theorem State.inc_pending (f : Fld) : (s.inc f).pending = s.pending := rfl

/-! ### State.add -/

@[simp] theorem State.add_mem (f : Fld) (n : Nat) : (s.add f n).mem = s.mem := rfl
@[simp] theorem State.add_nor (f : Fld) (n : Nat) : (s.add f n).nor = s.nor := rfl
@[simp] theorem State.add_queues (f : Fld) (n : Nat) : (s.add f n).queues = s.queues := rfl
@[simp] theorem State.add_sys (f : Fld) (n : Nat) : (s.add f n).sys = s.sys := rfl
@[simp] theorem State.add_time (f : Fld) (n : Nat) : (s.add f n).time = s.time := rfl
@[simp] theorem State.add_tt (f : Fld) (n : Nat) : (s.add f n).tt = s.tt := rfl
@[simp] theorem State.add_ln (f : Fld) (n : Nat) : (s.add f n).ln = s.ln := rfl
@[simp] theorem State.add_sd (f : Fld) (n : Nat) : (s.add f n).sd = s.sd := rfl
@[simp] theorem State.add_cf (f : Fld) (n : Nat) : (s.add f n).cf = s.cf := rfl
@[simp] theorem State.add_cfNew (f : Fld) (n : Nat) : (s.add f n).cfNew = s.cfNew := rfl
@[simp] theorem State.add_ol (f : Fld) (n : Nat) : (s.add f n).ol = s.ol := rfl
@[simp] theorem State.add_olp (f : Fld) (n : Nat) : (s.add f n).olp = s.olp := rfl
@[simp] theorem State.add_olNew (f : Fld) (n : Nat) : (s.add f n).olNew = s.olNew := rfl
@[simp] theorem State.add_gd (f : Fld) (n : Nat) : (s.add f n).gd = s.gd := rfl
@[simp] theorem State.add_pw (f : Fld) (n : Nat) : (s.add f n).pw = s.pw := rfl
@[simp] theorem State.add_lim (f : Fld) (n : Nat) : (s.add f n).lim = s.lim := rfl
@[simp] theorem State.add_limNew (f : Fld) (n : Nat) : (s.add f n).limNew = s.limNew := rfl
@[simp] theorem State.add_fb (f : Fld) (n : Nat) : (s.add f n).fb = s.fb := rfl
@[simp] theorem State.add_pm (f : Fld) (n : Nat) : (s.add f n).pm = s.pm := rfl
@[simp] theorem State.add_sb (f : Fld) (n : Nat) : (s.add f n).sb = s.sb := rfl
@[simp] theorem State.add_can (f : Fld) (n : Nat) : (s.add f n).can = s.can := rfl
@[simp] theorem State.add_bl (f : Fld) (n : Nat) : (s.add f n).bl = s.bl := rfl
@[simp] theorem State.add_th (f : Fld) (n : Nat) : (s.add f n).th = s.th := rfl
@[simp] theorem State.add_nv (f : Fld) (n : Nat) : (s.add f n).nv = s.nv := rfl
@[simp] theorem State.add_te (f : Fld) (n : Nat) : (s.add f n).te = s.te := rfl
@[simp] theorem State.add_bi (f : Fld) (n : Nat) : (s.add f n).bi = s.bi := rfl
@[simp] theorem State.add_cc (f : Fld) (n : Nat) : (s.add f n).cc = s.cc := rfl
@[simp] theorem State.add_hs (f : Fld) (n : Nat) : (s.add f n).hs = s.hs := rfl
@[simp] theorem State.add_mp (f : Fld) (n : Nat) : (s.add f n).mp = s.mp := rfl
@[simp] theorem State.add_seq (f : Fld) (n : Nat) : (s.add f n).seq = s.seq := rfl
@[simp] theorem State.add_out (f : Fld) (n : Nat) : (s.add f n).out = s.out := rfl
@[simp] theorem State.add_free (f : Fld) (n : Nat) : (s.add f n).free = s.free := rfl
@[simp] theorem State.add_pending (f : Fld) (n : Nat) : (s.add f n).pending = s.pending := rfl

/-! ### State.incWrap -/

@[simp] theorem State.incWrap_mem (f : Fld) : (s.incWrap f).mem = s.mem := rfl
@[simp] theorem State.incWrap_nor (f : Fld) : (s.incWrap f).nor = s.nor := rfl
@[simp] theorem State.incWrap_queues (f : Fld) : (s.incWrap f).queues = s.queues := rfl
@[simp] theorem State.incWrap_sys (f : Fld) : (s.incWrap f).sys = s.sys := rfl
@[simp] theorem State.incWrap_time (f : Fld) : (s.incWrap f).time = s.time := rfl
@[simp] theorem State.incWrap_tt (f : Fld) : (s.incWrap f).tt = s.tt := rfl
@[simp] theorem State.incWrap_ln (f : Fld) : (s.incWrap f).ln = s.ln := rfl
@[simp] theorem State.incWrap_sd (f : Fld) : (s.incWrap f).sd = s.sd := rfl
@[simp] theorem State.incWrap_cf (f : Fld) : (s.incWrap f).cf = s.cf := rfl
@[simp] theorem State.incWrap_cfNew (f : Fld) : (s.incWrap f).cfNew = s.cfNew := rfl
@[simp] theorem State.incWrap_ol (f : Fld) : (s.incWrap f).ol = s.ol := rfl
@[simp] theorem State.incWrap_olp (f : Fld) : (s.incWrap f).olp = s.olp := rfl
@[simp] theorem State.incWrap_olNew (f : Fld) : (s.incWrap f).olNew = s.olNew := rfl
@[simp] theorem State.incWrap_gd (f : Fld) : (s.incWrap f).gd = s.gd := rfl
@[simp] theorem State.incWrap_pw (f : Fld) : (s.incWrap f).pw = s.pw := rfl
@[simp] theorem State.incWrap_lim (f : Fld) : (s.incWrap f).lim = s.lim := rfl
@[simp] theorem State.incWrap_limNew (f : Fld) : (s.incWrap f).limNew = s.limNew := rfl
@[simp] theorem State.incWrap_fb (f : Fld) : (s.incWrap f).fb = s.fb := rfl
@[simp] theorem State.incWrap_pm (f : Fld) : (s.incWrap f).pm = s.pm := rfl
@[simp] theorem State.incWrap_sb (f : Fld) : (s.incWrap f).sb = s.sb := rfl
@[simp] theorem State.incWrap_can (f : Fld) : (s.incWrap f).can = s.can := rfl
@[simp] theorem State.incWrap_bl (f : Fld) : (s.incWrap f).bl = s.bl := rfl
@[simp] theorem State.incWrap_th (f : Fld) : (s.incWrap f).th = s.th := rfl
@[simp] theorem State.incWrap_nv (f : Fld) : (s.incWrap f).nv = s.nv := rfl
@[simp] theorem State.incWrap_te (f : Fld) : (s.incWrap f).te = s.te := rfl
@[simp] theorem State.incWrap_bi (f : Fld) : (s.incWrap f).bi = s.bi := rfl
@[simp] theorem State.incWrap_cc (f : Fld) : (s.incWrap f).cc = s.cc := rfl
@[simp] theorem State.incWrap_hs (f : Fld) : (s.incWrap f).hs = s.hs := rfl
@[simp] theorem State.incWrap_mp (f : Fld) : (s.incWrap f).mp = s.mp := rfl
@[simp] theorem State.incWrap_seq (f : Fld) : (s.incWrap f).seq = s.seq := rfl
@[simp] theorem State.incWrap_out (f : Fld) : (s.incWrap f).out = s.out := rfl
@[simp] theorem State.incWrap_free (f : Fld) : (s.incWrap f).free = s.free := rfl
@[simp] theorem State.incWrap_pending (f : Fld) : (s.incWrap f).pending = s.pending := rfl

/-! ### State.setBankWord -/

@[simp] theorem State.setBankWord_mem (b : Bool) (o : Nat) (w : Word) : (s.setBankWord b o w).mem = s.mem := rfl
@[simp] theorem State.setBankWord_nor (b : Bool) (o : Nat) (w : Word) : (s.setBankWord b o w).nor = s.nor := rfl
@[simp] theorem State.setBankWord_queues (b : Bool) (o : Nat) (w : Word) : (s.setBankWord b o w).queues = s.queues := rfl
@[simp] theorem State.setBankWord_sys (b : Bool) (o : Nat) (w : Word) : (s.setBankWord b o w).sys = s.sys := rfl
@[simp] theorem State.setBankWord_time (b : Bool) (o : Nat) (w : Word) : (s.setBankWord b o w).time = s.time := rfl
@[simp] theorem State.setBankWord_tt (b : Bool) (o : Nat) (w : Word) : (s.setBankWord b o w).tt = s.tt := rfl
@[simp] theorem State.setBankWord_ln (b : Bool) (o : Nat) (w : Word) : (s.setBankWord b o w).ln = s.ln := rfl
@[simp] theorem State.setBankWord_sd (b : Bool) (o : Nat) (w : Word) : (s.setBankWord b o w).sd = s.sd := rfl
@[simp] theorem State.setBankWord_cf (b : Bool) (o : Nat) (w : Word) : (s.setBankWord b o w).cf = s.cf := rfl
@[simp] theorem State.setBankWord_cfNew (b : Bool) (o : Nat) (w : Word) : (s.setBankWord b o w).cfNew = s.cfNew := rfl
@[simp] theorem State.setBankWord_ol (b : Bool) (o : Nat) (w : Word) : (s.setBankWord b o w).ol = s.ol := rfl
@[simp] theorem State.setBankWord_olp (b : Bool) (o : Nat) (w : Word) : (s.setBankWord b o w).olp = s.olp := rfl
@[simp] theorem State.setBankWord_olNew (b : Bool) (o : Nat) (w : Word) : (s.setBankWord b o w).olNew = s.olNew := rfl
@[simp] theorem State.setBankWord_gd (b : Bool) (o : Nat) (w : Word) : (s.setBankWord b o w).gd = s.gd := rfl
@[simp] theorem State.setBankWord_pw (b : Bool) (o : Nat) (w : Word) : (s.setBankWord b o w).pw = s.pw := rfl
@[simp] theorem State.setBankWord_lim (b : Bool) (o : Nat) (w : Word) : (s.setBankWord b o w).lim = s.lim := rfl
@[simp] theorem State.setBankWord_limNew (b : Bool) (o : Nat) (w : Word) : (s.setBankWord b o w).limNew = s.limNew := rfl
@[simp] theorem State.setBankWord_fb (b : Bool) (o : Nat) (w : Word) : (s.setBankWord b o w).fb = s.fb := rfl
@[simp] theorem State.setBankWord_pm (b : Bool) (o : Nat) (w : Word) : (s.setBankWord b o w).pm = s.pm := rfl
@[simp] theorem State.setBankWord_sb (b : Bool) (o : Nat) (w : Word) : (s.setBankWord b o w).sb = s.sb := rfl
@[simp] theorem State.setBankWord_can (b : Bool) (o : Nat) (w : Word) : (s.setBankWord b o w).can = s.can := rfl
@[simp] theorem State.setBankWord_bl (b : Bool) (o : Nat) (w : Word) : (s.setBankWord b o w).bl = s.bl := rfl
@[simp] theorem State.setBankWord_th (b : Bool) (o : Nat) (w : Word) : (s.setBankWord b o w).th = s.th := rfl
@[simp] theorem State.setBankWord_nv (b : Bool) (o : Nat) (w : Word) : (s.setBankWord b o w).nv = s.nv := rfl
@[simp] theorem State.setBankWord_te (b : Bool) (o : Nat) (w : Word) : (s.setBankWord b o w).te = s.te := rfl
@[simp] theorem State.setBankWord_bi (b : Bool) (o : Nat) (w : Word) : (s.setBankWord b o w).bi = s.bi := rfl
@[simp] theorem State.setBankWord_cc (b : Bool) (o : Nat) (w : Word) : (s.setBankWord b o w).cc = s.cc := rfl
@[simp] theorem State.setBankWord_hs (b : Bool) (o : Nat) (w : Word) : (s.setBankWord b o w).hs = s.hs := rfl
@[simp] theorem State.setBankWord_mp (b : Bool) (o : Nat) (w : Word) : (s.setBankWord b o w).mp = s.mp := rfl
@[simp] theorem State.setBankWord_seq (b : Bool) (o : Nat) (w : Word) : (s.setBankWord b o w).seq = s.seq := rfl
@[simp] theorem State.setBankWord_out (b : Bool) (o : Nat) (w : Word) : (s.setBankWord b o w).out = s.out := rfl
@[simp] theorem State.setBankWord_free (b : Bool) (o : Nat) (w : Word) : (s.setBankWord b o w).free = s.free := rfl
@[simp] theorem State.setBankWord_pending (b : Bool) (o : Nat) (w : Word) : (s.setBankWord b o w).pending = s.pending := rfl

/-! ### State.setMemByte -/

@[simp] theorem State.setMemByte_regs (a : Nat) (b : Byte) : (s.setMemByte a b).regs = s.regs := rfl
@[simp] theorem State.setMemByte_nor (a : Nat) (b : Byte) : (s.setMemByte a b).nor = s.nor := rfl
@[simp] theorem State.setMemByte_queues (a : Nat) (b : Byte) : (s.setMemByte a b).queues = s.queues := rfl
@[simp] theorem State.setMemByte_sys (a : Nat) (b : Byte) : (s.setMemByte a b).sys = s.sys := rfl
@[simp] theorem State.setMemByte_time (a : Nat) (b : Byte) : (s.setMemByte a b).time = s.time := rfl
@[simp] theorem State.setMemByte_tt (a : Nat) (b : Byte) : (s.setMemByte a b).tt = s.tt := rfl
@[simp] theorem State.setMemByte_ln (a : Nat) (b : Byte) : (s.setMemByte a b).ln = s.ln := rfl
@[simp] theorem State.setMemByte_sd (a : Nat) (b : Byte) : (s.setMemByte a b).sd = s.sd := rfl
@[simp] theorem State.setMemByte_cf (a : Nat) (b : Byte) : (s.setMemByte a b).cf = s.cf := rfl
@[simp] theorem State.setMemByte_cfNew (a : Nat) (b : Byte) : (s.setMemByte a b).cfNew = s.cfNew := rfl
@[simp] theorem State.setMemByte_ol (a : Nat) (b : Byte) : (s.setMemByte a b).ol = s.ol := rfl
@[simp] theorem State.setMemByte_olp (a : Nat) (b : Byte) : (s.setMemByte a b).olp = s.olp := rfl
@[simp] theorem State.setMemByte_olNew (a : Nat) (b : Byte) : (s.setMemByte a b).olNew = s.olNew := rfl
@[simp] theorem State.setMemByte_gd (a : Nat) (b : Byte) : (s.setMemByte a b).gd = s.gd := rfl
@[simp] theorem State.setMemByte_pw (a : Nat) (b : Byte) : (s.setMemByte a b).pw = s.pw := rfl
@[simp] theorem State.setMemByte_lim (a : Nat) (b : Byte) : (s.setMemByte a b).lim = s.lim := rfl
@[simp] theorem State.setMemByte_limNew (a : Nat) (b : Byte) : (s.setMemByte a b).limNew = s.limNew := rfl
@[simp] theorem State.setMemByte_fb (a : Nat) (b : Byte) : (s.setMemByte a b).fb = s.fb := rfl
@[simp] theorem State.setMemByte_pm (a : Nat) (b : Byte) : (s.setMemByte a b).pm = s.pm := rfl
@[simp] theorem State.setMemByte_sb (a : Nat) (b : Byte) : (s.setMemByte a b).sb = s.sb := rfl
@[simp] theorem State.setMemByte_can (a : Nat) (b : Byte) : (s.setMemByte a b).can = s.can := rfl
@[simp] theorem State.setMemByte_bl (a : Nat) (b : Byte) : (s.setMemByte a b).bl = s.bl := rfl
@[simp] theorem State.setMemByte_th (a : Nat) (b : Byte) : (s.setMemByte a b).th = s.th := rfl
@[simp] theorem State.setMemByte_nv (a : Nat) (b : Byte) : (s.setMemByte a b).nv = s.nv := rfl
@[simp] theorem State.setMemByte_te (a : Nat) (b : Byte) : (s.setMemByte a b).te = s.te := rfl
@[simp] theorem State.setMemByte_bi (a : Nat) (b : Byte) : (s.setMemByte a b).bi = s.bi := rfl
@[simp] theorem State.setMemByte_cc (a : Nat) (b : Byte) : (s.setMemByte a b).cc = s.cc := rfl
@[simp] theorem State.setMemByte_hs (a : Nat) (b : Byte) : (s.setMemByte a b).hs = s.hs := rfl
@[simp] theorem State.setMemByte_mp (a : Nat) (b : Byte) : (s.setMemByte a b).mp = s.mp := rfl
@[simp] theorem State.setMemByte_seq (a : Nat) (b : Byte) : (s.setMemByte a b).seq = s.seq := rfl
@[simp] theorem State.setMemByte_out (a : Nat) (b : Byte) : (s.setMemByte a b).out = s.out := rfl
@[simp] theorem State.setMemByte_free (a : Nat) (b : Byte) : (s.setMemByte a b).free = s.free := rfl
@[simp] theorem State.setMemByte_pending (a : Nat) (b : Byte) : (s.setMemByte a b).pending = s.pending := rfl

/-! ### State.setQueue -/

@[simp] theorem State.setQueue_regs (n : Nat) (x : Queue) : (s.setQueue n x).regs = s.regs := rfl
@[simp] theorem State.setQueue_mem (n : Nat) (x : Queue) : (s.setQueue n x).mem = s.mem := rfl
@[simp] theorem State.setQueue_nor (n : Nat) (x : Queue) : (s.setQueue n x).nor = s.nor := rfl
@[simp] theorem State.setQueue_sys (n : Nat) (x : Queue) : (s.setQueue n x).sys = s.sys := rfl
@[simp] theorem State.setQueue_time (n : Nat) (x : Queue) : (s.setQueue n x).time = s.time := rfl
@[simp] theorem State.setQueue_tt (n : Nat) (x : Queue) : (s.setQueue n x).tt = s.tt := rfl
@[simp] theorem State.setQueue_ln (n : Nat) (x : Queue) : (s.setQueue n x).ln = s.ln := rfl
@[simp] theorem State.setQueue_sd (n : Nat) (x : Queue) : (s.setQueue n x).sd = s.sd := rfl
@[simp] theorem State.setQueue_cf (n : Nat) (x : Queue) : (s.setQueue n x).cf = s.cf := rfl
@[simp] theorem State.setQueue_cfNew (n : Nat) (x : Queue) : (s.setQueue n x).cfNew = s.cfNew := rfl
@[simp] theorem State.setQueue_ol (n : Nat) (x : Queue) : (s.setQueue n x).ol = s.ol := rfl
@[simp] theorem State.setQueue_olp (n : Nat) (x : Queue) : (s.setQueue n x).olp = s.olp := rfl
@[simp] theorem State.setQueue_olNew (n : Nat) (x : Queue) : (s.setQueue n x).olNew = s.olNew := rfl
@[simp] theorem State.setQueue_gd (n : Nat) (x : Queue) : (s.setQueue n x).gd = s.gd := rfl
@[simp] theorem State.setQueue_pw (n : Nat) (x : Queue) : (s.setQueue n x).pw = s.pw := rfl
@[simp] theorem State.setQueue_lim (n : Nat) (x : Queue) : (s.setQueue n x).lim = s.lim := rfl
@[simp] theorem State.setQueue_limNew (n : Nat) (x : Queue) : (s.setQueue n x).limNew = s.limNew := rfl
@[simp] theorem State.setQueue_fb (n : Nat) (x : Queue) : (s.setQueue n x).fb = s.fb := rfl
@[simp] theorem State.setQueue_pm (n : Nat) (x : Queue) : (s.setQueue n x).pm = s.pm := rfl
@[simp] theorem State.setQueue_sb (n : Nat) (x : Queue) : (s.setQueue n x).sb = s.sb := rfl
@[simp] theorem State.setQueue_can (n : Nat) (x : Queue) : (s.setQueue n x).can = s.can := rfl
@[simp] theorem State.setQueue_bl (n : Nat) (x : Queue) : (s.setQueue n x).bl = s.bl := rfl
@[simp] theorem State.setQueue_th (n : Nat) (x : Queue) : (s.setQueue n x).th = s.th := rfl
@[simp] theorem State.setQueue_nv (n : Nat) (x : Queue) : (s.setQueue n x).nv = s.nv := rfl
@[simp] theorem State.setQueue_te (n : Nat) (x : Queue) : (s.setQueue n x).te = s.te := rfl
@[simp] theorem State.setQueue_bi (n : Nat) (x : Queue) : (s.setQueue n x).bi = s.bi := rfl
@[simp] theorem State.setQueue_cc (n : Nat) (x : Queue) : (s.setQueue n x).cc = s.cc := rfl
@[simp] theorem State.setQueue_hs (n : Nat) (x : Queue) : (s.setQueue n x).hs = s.hs := rfl
@[simp] theorem State.setQueue_mp (n : Nat) (x : Queue) : (s.setQueue n x).mp = s.mp := rfl
@[simp] theorem State.setQueue_seq (n : Nat) (x : Queue) : (s.setQueue n x).seq = s.seq := rfl
@[simp] theorem State.setQueue_out (n : Nat) (x : Queue) : (s.setQueue n x).out = s.out := rfl
@[simp] theorem State.setQueue_free (n : Nat) (x : Queue) : (s.setQueue n x).free = s.free := rfl
@[simp] theorem State.setQueue_pending (n : Nat) (x : Queue) : (s.setQueue n x).pending = s.pending := rfl

/-! ### State.advanceTo -/

@[simp] theorem State.advanceTo_regs (o : Nat) : (s.advanceTo o).regs = s.regs := rfl
@[simp] theorem State.advanceTo_mem (o : Nat) : (s.advanceTo o).mem = s.mem := rfl
@[simp] theorem State.advanceTo_nor (o : Nat) : (s.advanceTo o).nor = s.nor := rfl
@[simp] theorem State.advanceTo_queues (o : Nat) : (s.advanceTo o).queues = s.queues := rfl
@[simp] theorem State.advanceTo_sys (o : Nat) : (s.advanceTo o).sys = s.sys := rfl
@[simp] theorem State.advanceTo_tt (o : Nat) : (s.advanceTo o).tt = s.tt := rfl
@[simp] theorem State.advanceTo_ln (o : Nat) : (s.advanceTo o).ln = s.ln := rfl
@[simp] theorem State.advanceTo_sd (o : Nat) : (s.advanceTo o).sd = s.sd := rfl
@[simp] theorem State.advanceTo_cf (o : Nat) : (s.advanceTo o).cf = s.cf := rfl
@[simp] theorem State.advanceTo_cfNew (o : Nat) : (s.advanceTo o).cfNew = s.cfNew := rfl
@[simp] theorem State.advanceTo_ol (o : Nat) : (s.advanceTo o).ol = s.ol := rfl
@[simp] theorem State.advanceTo_olp (o : Nat) : (s.advanceTo o).olp = s.olp := rfl
@[simp] theorem State.advanceTo_olNew (o : Nat) : (s.advanceTo o).olNew = s.olNew := rfl
@[simp] theorem State.advanceTo_gd (o : Nat) : (s.advanceTo o).gd = s.gd := rfl
@[simp] theorem State.advanceTo_pw (o : Nat) : (s.advanceTo o).pw = s.pw := rfl
@[simp] theorem State.advanceTo_lim (o : Nat) : (s.advanceTo o).lim = s.lim := rfl
@[simp] theorem State.advanceTo_limNew (o : Nat) : (s.advanceTo o).limNew = s.limNew := rfl
@[simp] theorem State.advanceTo_fb (o : Nat) : (s.advanceTo o).fb = s.fb := rfl
@[simp] theorem State.advanceTo_pm (o : Nat) : (s.advanceTo o).pm = s.pm := rfl
@[simp] theorem State.advanceTo_sb (o : Nat) : (s.advanceTo o).sb = s.sb := rfl
@[simp] theorem State.advanceTo_can (o : Nat) : (s.advanceTo o).can = s.can := rfl
@[simp] theorem State.advanceTo_bl (o : Nat) : (s.advanceTo o).bl = s.bl := rfl
@[simp] theorem State.advanceTo_th (o : Nat) : (s.advanceTo o).th = s.th := rfl
@[simp] theorem State.advanceTo_nv (o : Nat) : (s.advanceTo o).nv = s.nv := rfl
@[simp] theorem State.advanceTo_te (o : Nat) : (s.advanceTo o).te = s.te := rfl
@[simp] theorem State.advanceTo_bi (o : Nat) : (s.advanceTo o).bi = s.bi := rfl
@[simp] theorem State.advanceTo_cc (o : Nat) : (s.advanceTo o).cc = s.cc := rfl
@[simp] theorem State.advanceTo_hs (o : Nat) : (s.advanceTo o).hs = s.hs := rfl
@[simp] theorem State.advanceTo_mp (o : Nat) : (s.advanceTo o).mp = s.mp := rfl
@[simp] theorem State.advanceTo_seq (o : Nat) : (s.advanceTo o).seq = s.seq := rfl
@[simp] theorem State.advanceTo_out (o : Nat) : (s.advanceTo o).out = s.out := rfl
@[simp] theorem State.advanceTo_free (o : Nat) : (s.advanceTo o).free = s.free := rfl
@[simp] theorem State.advanceTo_pending (o : Nat) : (s.advanceTo o).pending = s.pending := rfl

/-! ### State.answer -/

@[simp] theorem State.answer_regs (w : Word) : (s.answer w).regs = s.regs := rfl
@[simp] theorem State.answer_mem (w : Word) : (s.answer w).mem = s.mem := rfl
@[simp] theorem State.answer_nor (w : Word) : (s.answer w).nor = s.nor := rfl
@[simp] theorem State.answer_queues (w : Word) : (s.answer w).queues = s.queues := rfl
@[simp] theorem State.answer_sys (w : Word) : (s.answer w).sys = s.sys := rfl
@[simp] theorem State.answer_time (w : Word) : (s.answer w).time = s.time := rfl
@[simp] theorem State.answer_tt (w : Word) : (s.answer w).tt = s.tt := rfl
@[simp] theorem State.answer_ln (w : Word) : (s.answer w).ln = s.ln := rfl
@[simp] theorem State.answer_sd (w : Word) : (s.answer w).sd = s.sd := rfl
@[simp] theorem State.answer_cf (w : Word) : (s.answer w).cf = s.cf := rfl
@[simp] theorem State.answer_cfNew (w : Word) : (s.answer w).cfNew = s.cfNew := rfl
@[simp] theorem State.answer_ol (w : Word) : (s.answer w).ol = s.ol := rfl
@[simp] theorem State.answer_olp (w : Word) : (s.answer w).olp = s.olp := rfl
@[simp] theorem State.answer_olNew (w : Word) : (s.answer w).olNew = s.olNew := rfl
@[simp] theorem State.answer_gd (w : Word) : (s.answer w).gd = s.gd := rfl
@[simp] theorem State.answer_pw (w : Word) : (s.answer w).pw = s.pw := rfl
@[simp] theorem State.answer_lim (w : Word) : (s.answer w).lim = s.lim := rfl
@[simp] theorem State.answer_limNew (w : Word) : (s.answer w).limNew = s.limNew := rfl
@[simp] theorem State.answer_fb (w : Word) : (s.answer w).fb = s.fb := rfl
@[simp] theorem State.answer_pm (w : Word) : (s.answer w).pm = s.pm := rfl
@[simp] theorem State.answer_sb (w : Word) : (s.answer w).sb = s.sb := rfl
@[simp] theorem State.answer_can (w : Word) : (s.answer w).can = s.can := rfl
@[simp] theorem State.answer_bl (w : Word) : (s.answer w).bl = s.bl := rfl
@[simp] theorem State.answer_th (w : Word) : (s.answer w).th = s.th := rfl
@[simp] theorem State.answer_nv (w : Word) : (s.answer w).nv = s.nv := rfl
@[simp] theorem State.answer_te (w : Word) : (s.answer w).te = s.te := rfl
@[simp] theorem State.answer_bi (w : Word) : (s.answer w).bi = s.bi := rfl
@[simp] theorem State.answer_cc (w : Word) : (s.answer w).cc = s.cc := rfl
@[simp] theorem State.answer_hs (w : Word) : (s.answer w).hs = s.hs := rfl
@[simp] theorem State.answer_mp (w : Word) : (s.answer w).mp = s.mp := rfl
@[simp] theorem State.answer_seq (w : Word) : (s.answer w).seq = s.seq := rfl
@[simp] theorem State.answer_free (w : Word) : (s.answer w).free = s.free := rfl
@[simp] theorem State.answer_pending (w : Word) : (s.answer w).pending = s.pending := rfl

end Sys2Proof.Machine
end

