-- ==== Sys2Proof/Laws/Live.lean ====
section
/-! SUPPORT. What a step answers on a module that runs and on one that has halted, and what an event and a cause leave alone. -/

set_option Elab.async false

namespace Sys2Proof.Machine

/-- On a module that runs a step answers its operation's state. -/
theorem live_next {s : State} (f : State → State) (h : s.Running) : live f s = .next (f s.cleared) := by
  unfold live
  rw [State.Running] at h
  rw [h]
  rfl

/-- On a module that has halted a step changes nothing. -/
theorem live_halted {s : State} (f : State → State) (h : s.sys.halted = true) : live f s = .next s := by
  unfold live
  rw [h]
  rfl

/-- What an operation with a footprint leaves alone, part by part. -/
theorem sound_part {m : Nat} {s a : State} (h : s.Sound m a) (p : Part) (hm : m.testBit p.bit = true) : a.sameAt s p := h.same p hm

/-! ### The state a step acts on -/

@[simp] theorem State.cleared_regs (s : State) : s.cleared.regs = s.regs := rfl
@[simp] theorem State.cleared_mem (s : State) : s.cleared.mem = s.mem := rfl
@[simp] theorem State.cleared_nor (s : State) : s.cleared.nor = s.nor := rfl
@[simp] theorem State.cleared_queues (s : State) : s.cleared.queues = s.queues := rfl
@[simp] theorem State.cleared_sys (s : State) : s.cleared.sys = s.sys := rfl
@[simp] theorem State.cleared_time (s : State) : s.cleared.time = s.time := rfl
@[simp] theorem State.cleared_tt (s : State) : s.cleared.tt = s.tt := rfl
@[simp] theorem State.cleared_ln (s : State) : s.cleared.ln = s.ln := rfl
@[simp] theorem State.cleared_sd (s : State) : s.cleared.sd = s.sd := rfl
@[simp] theorem State.cleared_cf (s : State) : s.cleared.cf = s.cf := rfl
@[simp] theorem State.cleared_cfNew (s : State) : s.cleared.cfNew = s.cfNew := rfl
@[simp] theorem State.cleared_ol (s : State) : s.cleared.ol = s.ol := rfl
@[simp] theorem State.cleared_olp (s : State) : s.cleared.olp = s.olp := rfl
@[simp] theorem State.cleared_olNew (s : State) : s.cleared.olNew = s.olNew := rfl
@[simp] theorem State.cleared_gd (s : State) : s.cleared.gd = s.gd := rfl
@[simp] theorem State.cleared_pw (s : State) : s.cleared.pw = s.pw := rfl
@[simp] theorem State.cleared_lim (s : State) : s.cleared.lim = s.lim := rfl
@[simp] theorem State.cleared_limNew (s : State) : s.cleared.limNew = s.limNew := rfl
@[simp] theorem State.cleared_fb (s : State) : s.cleared.fb = s.fb := rfl
@[simp] theorem State.cleared_pm (s : State) : s.cleared.pm = s.pm := rfl
@[simp] theorem State.cleared_sb (s : State) : s.cleared.sb = s.sb := rfl
@[simp] theorem State.cleared_can (s : State) : s.cleared.can = s.can := rfl
@[simp] theorem State.cleared_bl (s : State) : s.cleared.bl = s.bl := rfl
@[simp] theorem State.cleared_th (s : State) : s.cleared.th = s.th := rfl
@[simp] theorem State.cleared_nv (s : State) : s.cleared.nv = s.nv := rfl
@[simp] theorem State.cleared_te (s : State) : s.cleared.te = s.te := rfl
@[simp] theorem State.cleared_bi (s : State) : s.cleared.bi = s.bi := rfl
@[simp] theorem State.cleared_cc (s : State) : s.cleared.cc = s.cc := rfl
@[simp] theorem State.cleared_hs (s : State) : s.cleared.hs = s.hs := rfl
@[simp] theorem State.cleared_mp (s : State) : s.cleared.mp = s.mp := rfl
@[simp] theorem State.cleared_seq (s : State) : s.cleared.seq = s.seq := rfl
@[simp] theorem State.cleared_free (s : State) : s.cleared.free = s.free := rfl
@[simp] theorem State.cleared_pending (s : State) : s.cleared.pending = s.pending := rfl
@[simp] theorem State.cleared_word (s : State) (a : Nat) : s.cleared.word a = s.word a := rfl
@[simp] theorem State.cleared_rd (s : State) (f : Fld) : s.cleared.rd f = s.rd f := rfl

/-! ### Pushes, events, causes -/

@[simp] theorem State.qLose_mem (s : State) (n : Nat) : (s.qLose n).mem = s.mem :=
  (State.qLose_sound (ms := 0x1fffffffe) rfl s _ (sound_refl _ s)).same .mem rfl
@[simp] theorem State.qLose_nor (s : State) (n : Nat) : (s.qLose n).nor = s.nor :=
  (State.qLose_sound (ms := 0x1fffffffe) rfl s _ (sound_refl _ s)).same .nor rfl
@[simp] theorem State.qLose_queues (s : State) (n : Nat) : (s.qLose n).queues = s.queues :=
  (State.qLose_sound (ms := 0x1fffffffe) rfl s _ (sound_refl _ s)).same .queues rfl
@[simp] theorem State.qLose_sys (s : State) (n : Nat) : (s.qLose n).sys = s.sys :=
  (State.qLose_sound (ms := 0x1fffffffe) rfl s _ (sound_refl _ s)).same .sys rfl
@[simp] theorem State.qLose_time (s : State) (n : Nat) : (s.qLose n).time = s.time :=
  (State.qLose_sound (ms := 0x1fffffffe) rfl s _ (sound_refl _ s)).same .time rfl
@[simp] theorem State.qLose_tt (s : State) (n : Nat) : (s.qLose n).tt = s.tt :=
  (State.qLose_sound (ms := 0x1fffffffe) rfl s _ (sound_refl _ s)).same .tt rfl
@[simp] theorem State.qLose_ln (s : State) (n : Nat) : (s.qLose n).ln = s.ln :=
  (State.qLose_sound (ms := 0x1fffffffe) rfl s _ (sound_refl _ s)).same .ln rfl
@[simp] theorem State.qLose_sd (s : State) (n : Nat) : (s.qLose n).sd = s.sd :=
  (State.qLose_sound (ms := 0x1fffffffe) rfl s _ (sound_refl _ s)).same .sd rfl
@[simp] theorem State.qLose_cf (s : State) (n : Nat) : (s.qLose n).cf = s.cf :=
  (State.qLose_sound (ms := 0x1fffffffe) rfl s _ (sound_refl _ s)).same .cf rfl
@[simp] theorem State.qLose_cfNew (s : State) (n : Nat) : (s.qLose n).cfNew = s.cfNew :=
  (State.qLose_sound (ms := 0x1fffffffe) rfl s _ (sound_refl _ s)).same .cfNew rfl
@[simp] theorem State.qLose_ol (s : State) (n : Nat) : (s.qLose n).ol = s.ol :=
  (State.qLose_sound (ms := 0x1fffffffe) rfl s _ (sound_refl _ s)).same .ol rfl
@[simp] theorem State.qLose_olp (s : State) (n : Nat) : (s.qLose n).olp = s.olp :=
  (State.qLose_sound (ms := 0x1fffffffe) rfl s _ (sound_refl _ s)).same .olp rfl
@[simp] theorem State.qLose_olNew (s : State) (n : Nat) : (s.qLose n).olNew = s.olNew :=
  (State.qLose_sound (ms := 0x1fffffffe) rfl s _ (sound_refl _ s)).same .olNew rfl
@[simp] theorem State.qLose_gd (s : State) (n : Nat) : (s.qLose n).gd = s.gd :=
  (State.qLose_sound (ms := 0x1fffffffe) rfl s _ (sound_refl _ s)).same .gd rfl
@[simp] theorem State.qLose_pw (s : State) (n : Nat) : (s.qLose n).pw = s.pw :=
  (State.qLose_sound (ms := 0x1fffffffe) rfl s _ (sound_refl _ s)).same .pw rfl
@[simp] theorem State.qLose_lim (s : State) (n : Nat) : (s.qLose n).lim = s.lim :=
  (State.qLose_sound (ms := 0x1fffffffe) rfl s _ (sound_refl _ s)).same .lim rfl
@[simp] theorem State.qLose_limNew (s : State) (n : Nat) : (s.qLose n).limNew = s.limNew :=
  (State.qLose_sound (ms := 0x1fffffffe) rfl s _ (sound_refl _ s)).same .limNew rfl
@[simp] theorem State.qLose_fb (s : State) (n : Nat) : (s.qLose n).fb = s.fb :=
  (State.qLose_sound (ms := 0x1fffffffe) rfl s _ (sound_refl _ s)).same .fb rfl
@[simp] theorem State.qLose_pm (s : State) (n : Nat) : (s.qLose n).pm = s.pm :=
  (State.qLose_sound (ms := 0x1fffffffe) rfl s _ (sound_refl _ s)).same .pm rfl
@[simp] theorem State.qLose_sb (s : State) (n : Nat) : (s.qLose n).sb = s.sb :=
  (State.qLose_sound (ms := 0x1fffffffe) rfl s _ (sound_refl _ s)).same .sb rfl
@[simp] theorem State.qLose_can (s : State) (n : Nat) : (s.qLose n).can = s.can :=
  (State.qLose_sound (ms := 0x1fffffffe) rfl s _ (sound_refl _ s)).same .can rfl
@[simp] theorem State.qLose_bl (s : State) (n : Nat) : (s.qLose n).bl = s.bl :=
  (State.qLose_sound (ms := 0x1fffffffe) rfl s _ (sound_refl _ s)).same .bl rfl
@[simp] theorem State.qLose_th (s : State) (n : Nat) : (s.qLose n).th = s.th :=
  (State.qLose_sound (ms := 0x1fffffffe) rfl s _ (sound_refl _ s)).same .th rfl
@[simp] theorem State.qLose_nv (s : State) (n : Nat) : (s.qLose n).nv = s.nv :=
  (State.qLose_sound (ms := 0x1fffffffe) rfl s _ (sound_refl _ s)).same .nv rfl
@[simp] theorem State.qLose_te (s : State) (n : Nat) : (s.qLose n).te = s.te :=
  (State.qLose_sound (ms := 0x1fffffffe) rfl s _ (sound_refl _ s)).same .te rfl
@[simp] theorem State.qLose_bi (s : State) (n : Nat) : (s.qLose n).bi = s.bi :=
  (State.qLose_sound (ms := 0x1fffffffe) rfl s _ (sound_refl _ s)).same .bi rfl
@[simp] theorem State.qLose_cc (s : State) (n : Nat) : (s.qLose n).cc = s.cc :=
  (State.qLose_sound (ms := 0x1fffffffe) rfl s _ (sound_refl _ s)).same .cc rfl
@[simp] theorem State.qLose_hs (s : State) (n : Nat) : (s.qLose n).hs = s.hs :=
  (State.qLose_sound (ms := 0x1fffffffe) rfl s _ (sound_refl _ s)).same .hs rfl
@[simp] theorem State.qLose_mp (s : State) (n : Nat) : (s.qLose n).mp = s.mp :=
  (State.qLose_sound (ms := 0x1fffffffe) rfl s _ (sound_refl _ s)).same .mp rfl
@[simp] theorem State.qLose_seq (s : State) (n : Nat) : (s.qLose n).seq = s.seq :=
  (State.qLose_sound (ms := 0x1fffffffe) rfl s _ (sound_refl _ s)).same .seq rfl
@[simp] theorem State.qLose_out (s : State) (n : Nat) : (s.qLose n).out = s.out :=
  (State.qLose_sound (ms := 0x1fffffffe) rfl s _ (sound_refl _ s)).same .out rfl
@[simp] theorem State.qLose_free (s : State) (n : Nat) : (s.qLose n).free = s.free :=
  (State.qLose_sound (ms := 0x1fffffffe) rfl s _ (sound_refl _ s)).same .free rfl
@[simp] theorem State.qIrq_mem (s : State) (n : Nat) : (s.qIrq n).mem = s.mem :=
  (State.qIrq_sound (ms := 0x1fffffffe) rfl s _ (sound_refl _ s)).same .mem rfl
@[simp] theorem State.qIrq_nor (s : State) (n : Nat) : (s.qIrq n).nor = s.nor :=
  (State.qIrq_sound (ms := 0x1fffffffe) rfl s _ (sound_refl _ s)).same .nor rfl
@[simp] theorem State.qIrq_queues (s : State) (n : Nat) : (s.qIrq n).queues = s.queues :=
  (State.qIrq_sound (ms := 0x1fffffffe) rfl s _ (sound_refl _ s)).same .queues rfl
@[simp] theorem State.qIrq_sys (s : State) (n : Nat) : (s.qIrq n).sys = s.sys :=
  (State.qIrq_sound (ms := 0x1fffffffe) rfl s _ (sound_refl _ s)).same .sys rfl
@[simp] theorem State.qIrq_time (s : State) (n : Nat) : (s.qIrq n).time = s.time :=
  (State.qIrq_sound (ms := 0x1fffffffe) rfl s _ (sound_refl _ s)).same .time rfl
@[simp] theorem State.qIrq_tt (s : State) (n : Nat) : (s.qIrq n).tt = s.tt :=
  (State.qIrq_sound (ms := 0x1fffffffe) rfl s _ (sound_refl _ s)).same .tt rfl
@[simp] theorem State.qIrq_ln (s : State) (n : Nat) : (s.qIrq n).ln = s.ln :=
  (State.qIrq_sound (ms := 0x1fffffffe) rfl s _ (sound_refl _ s)).same .ln rfl
@[simp] theorem State.qIrq_sd (s : State) (n : Nat) : (s.qIrq n).sd = s.sd :=
  (State.qIrq_sound (ms := 0x1fffffffe) rfl s _ (sound_refl _ s)).same .sd rfl
@[simp] theorem State.qIrq_cf (s : State) (n : Nat) : (s.qIrq n).cf = s.cf :=
  (State.qIrq_sound (ms := 0x1fffffffe) rfl s _ (sound_refl _ s)).same .cf rfl
@[simp] theorem State.qIrq_cfNew (s : State) (n : Nat) : (s.qIrq n).cfNew = s.cfNew :=
  (State.qIrq_sound (ms := 0x1fffffffe) rfl s _ (sound_refl _ s)).same .cfNew rfl
@[simp] theorem State.qIrq_ol (s : State) (n : Nat) : (s.qIrq n).ol = s.ol :=
  (State.qIrq_sound (ms := 0x1fffffffe) rfl s _ (sound_refl _ s)).same .ol rfl
@[simp] theorem State.qIrq_olp (s : State) (n : Nat) : (s.qIrq n).olp = s.olp :=
  (State.qIrq_sound (ms := 0x1fffffffe) rfl s _ (sound_refl _ s)).same .olp rfl
@[simp] theorem State.qIrq_olNew (s : State) (n : Nat) : (s.qIrq n).olNew = s.olNew :=
  (State.qIrq_sound (ms := 0x1fffffffe) rfl s _ (sound_refl _ s)).same .olNew rfl
@[simp] theorem State.qIrq_gd (s : State) (n : Nat) : (s.qIrq n).gd = s.gd :=
  (State.qIrq_sound (ms := 0x1fffffffe) rfl s _ (sound_refl _ s)).same .gd rfl
@[simp] theorem State.qIrq_pw (s : State) (n : Nat) : (s.qIrq n).pw = s.pw :=
  (State.qIrq_sound (ms := 0x1fffffffe) rfl s _ (sound_refl _ s)).same .pw rfl
@[simp] theorem State.qIrq_lim (s : State) (n : Nat) : (s.qIrq n).lim = s.lim :=
  (State.qIrq_sound (ms := 0x1fffffffe) rfl s _ (sound_refl _ s)).same .lim rfl
@[simp] theorem State.qIrq_limNew (s : State) (n : Nat) : (s.qIrq n).limNew = s.limNew :=
  (State.qIrq_sound (ms := 0x1fffffffe) rfl s _ (sound_refl _ s)).same .limNew rfl
@[simp] theorem State.qIrq_fb (s : State) (n : Nat) : (s.qIrq n).fb = s.fb :=
  (State.qIrq_sound (ms := 0x1fffffffe) rfl s _ (sound_refl _ s)).same .fb rfl
@[simp] theorem State.qIrq_pm (s : State) (n : Nat) : (s.qIrq n).pm = s.pm :=
  (State.qIrq_sound (ms := 0x1fffffffe) rfl s _ (sound_refl _ s)).same .pm rfl
@[simp] theorem State.qIrq_sb (s : State) (n : Nat) : (s.qIrq n).sb = s.sb :=
  (State.qIrq_sound (ms := 0x1fffffffe) rfl s _ (sound_refl _ s)).same .sb rfl
@[simp] theorem State.qIrq_can (s : State) (n : Nat) : (s.qIrq n).can = s.can :=
  (State.qIrq_sound (ms := 0x1fffffffe) rfl s _ (sound_refl _ s)).same .can rfl
@[simp] theorem State.qIrq_bl (s : State) (n : Nat) : (s.qIrq n).bl = s.bl :=
  (State.qIrq_sound (ms := 0x1fffffffe) rfl s _ (sound_refl _ s)).same .bl rfl
@[simp] theorem State.qIrq_th (s : State) (n : Nat) : (s.qIrq n).th = s.th :=
  (State.qIrq_sound (ms := 0x1fffffffe) rfl s _ (sound_refl _ s)).same .th rfl
@[simp] theorem State.qIrq_nv (s : State) (n : Nat) : (s.qIrq n).nv = s.nv :=
  (State.qIrq_sound (ms := 0x1fffffffe) rfl s _ (sound_refl _ s)).same .nv rfl
@[simp] theorem State.qIrq_te (s : State) (n : Nat) : (s.qIrq n).te = s.te :=
  (State.qIrq_sound (ms := 0x1fffffffe) rfl s _ (sound_refl _ s)).same .te rfl
@[simp] theorem State.qIrq_bi (s : State) (n : Nat) : (s.qIrq n).bi = s.bi :=
  (State.qIrq_sound (ms := 0x1fffffffe) rfl s _ (sound_refl _ s)).same .bi rfl
@[simp] theorem State.qIrq_cc (s : State) (n : Nat) : (s.qIrq n).cc = s.cc :=
  (State.qIrq_sound (ms := 0x1fffffffe) rfl s _ (sound_refl _ s)).same .cc rfl
@[simp] theorem State.qIrq_hs (s : State) (n : Nat) : (s.qIrq n).hs = s.hs :=
  (State.qIrq_sound (ms := 0x1fffffffe) rfl s _ (sound_refl _ s)).same .hs rfl
@[simp] theorem State.qIrq_mp (s : State) (n : Nat) : (s.qIrq n).mp = s.mp :=
  (State.qIrq_sound (ms := 0x1fffffffe) rfl s _ (sound_refl _ s)).same .mp rfl
@[simp] theorem State.qIrq_seq (s : State) (n : Nat) : (s.qIrq n).seq = s.seq :=
  (State.qIrq_sound (ms := 0x1fffffffe) rfl s _ (sound_refl _ s)).same .seq rfl
@[simp] theorem State.qIrq_out (s : State) (n : Nat) : (s.qIrq n).out = s.out :=
  (State.qIrq_sound (ms := 0x1fffffffe) rfl s _ (sound_refl _ s)).same .out rfl
@[simp] theorem State.qIrq_free (s : State) (n : Nat) : (s.qIrq n).free = s.free :=
  (State.qIrq_sound (ms := 0x1fffffffe) rfl s _ (sound_refl _ s)).same .free rfl
@[simp] theorem State.qPush_mem (s : State) (n : Nat) (x : List Byte) : (s.qPush n x).mem = s.mem :=
  (State.qPush_sound (ms := 0x1fffffff6) rfl s _ _ (sound_refl _ s)).same .mem rfl
@[simp] theorem State.qPush_nor (s : State) (n : Nat) (x : List Byte) : (s.qPush n x).nor = s.nor :=
  (State.qPush_sound (ms := 0x1fffffff6) rfl s _ _ (sound_refl _ s)).same .nor rfl
@[simp] theorem State.qPush_sys (s : State) (n : Nat) (x : List Byte) : (s.qPush n x).sys = s.sys :=
  (State.qPush_sound (ms := 0x1fffffff6) rfl s _ _ (sound_refl _ s)).same .sys rfl
@[simp] theorem State.qPush_time (s : State) (n : Nat) (x : List Byte) : (s.qPush n x).time = s.time :=
  (State.qPush_sound (ms := 0x1fffffff6) rfl s _ _ (sound_refl _ s)).same .time rfl
@[simp] theorem State.qPush_tt (s : State) (n : Nat) (x : List Byte) : (s.qPush n x).tt = s.tt :=
  (State.qPush_sound (ms := 0x1fffffff6) rfl s _ _ (sound_refl _ s)).same .tt rfl
@[simp] theorem State.qPush_ln (s : State) (n : Nat) (x : List Byte) : (s.qPush n x).ln = s.ln :=
  (State.qPush_sound (ms := 0x1fffffff6) rfl s _ _ (sound_refl _ s)).same .ln rfl
@[simp] theorem State.qPush_sd (s : State) (n : Nat) (x : List Byte) : (s.qPush n x).sd = s.sd :=
  (State.qPush_sound (ms := 0x1fffffff6) rfl s _ _ (sound_refl _ s)).same .sd rfl
@[simp] theorem State.qPush_cf (s : State) (n : Nat) (x : List Byte) : (s.qPush n x).cf = s.cf :=
  (State.qPush_sound (ms := 0x1fffffff6) rfl s _ _ (sound_refl _ s)).same .cf rfl
@[simp] theorem State.qPush_cfNew (s : State) (n : Nat) (x : List Byte) : (s.qPush n x).cfNew = s.cfNew :=
  (State.qPush_sound (ms := 0x1fffffff6) rfl s _ _ (sound_refl _ s)).same .cfNew rfl
@[simp] theorem State.qPush_ol (s : State) (n : Nat) (x : List Byte) : (s.qPush n x).ol = s.ol :=
  (State.qPush_sound (ms := 0x1fffffff6) rfl s _ _ (sound_refl _ s)).same .ol rfl
@[simp] theorem State.qPush_olp (s : State) (n : Nat) (x : List Byte) : (s.qPush n x).olp = s.olp :=
  (State.qPush_sound (ms := 0x1fffffff6) rfl s _ _ (sound_refl _ s)).same .olp rfl
@[simp] theorem State.qPush_olNew (s : State) (n : Nat) (x : List Byte) : (s.qPush n x).olNew = s.olNew :=
  (State.qPush_sound (ms := 0x1fffffff6) rfl s _ _ (sound_refl _ s)).same .olNew rfl
@[simp] theorem State.qPush_gd (s : State) (n : Nat) (x : List Byte) : (s.qPush n x).gd = s.gd :=
  (State.qPush_sound (ms := 0x1fffffff6) rfl s _ _ (sound_refl _ s)).same .gd rfl
@[simp] theorem State.qPush_pw (s : State) (n : Nat) (x : List Byte) : (s.qPush n x).pw = s.pw :=
  (State.qPush_sound (ms := 0x1fffffff6) rfl s _ _ (sound_refl _ s)).same .pw rfl
@[simp] theorem State.qPush_lim (s : State) (n : Nat) (x : List Byte) : (s.qPush n x).lim = s.lim :=
  (State.qPush_sound (ms := 0x1fffffff6) rfl s _ _ (sound_refl _ s)).same .lim rfl
@[simp] theorem State.qPush_limNew (s : State) (n : Nat) (x : List Byte) : (s.qPush n x).limNew = s.limNew :=
  (State.qPush_sound (ms := 0x1fffffff6) rfl s _ _ (sound_refl _ s)).same .limNew rfl
@[simp] theorem State.qPush_fb (s : State) (n : Nat) (x : List Byte) : (s.qPush n x).fb = s.fb :=
  (State.qPush_sound (ms := 0x1fffffff6) rfl s _ _ (sound_refl _ s)).same .fb rfl
@[simp] theorem State.qPush_pm (s : State) (n : Nat) (x : List Byte) : (s.qPush n x).pm = s.pm :=
  (State.qPush_sound (ms := 0x1fffffff6) rfl s _ _ (sound_refl _ s)).same .pm rfl
@[simp] theorem State.qPush_sb (s : State) (n : Nat) (x : List Byte) : (s.qPush n x).sb = s.sb :=
  (State.qPush_sound (ms := 0x1fffffff6) rfl s _ _ (sound_refl _ s)).same .sb rfl
@[simp] theorem State.qPush_can (s : State) (n : Nat) (x : List Byte) : (s.qPush n x).can = s.can :=
  (State.qPush_sound (ms := 0x1fffffff6) rfl s _ _ (sound_refl _ s)).same .can rfl
@[simp] theorem State.qPush_bl (s : State) (n : Nat) (x : List Byte) : (s.qPush n x).bl = s.bl :=
  (State.qPush_sound (ms := 0x1fffffff6) rfl s _ _ (sound_refl _ s)).same .bl rfl
@[simp] theorem State.qPush_th (s : State) (n : Nat) (x : List Byte) : (s.qPush n x).th = s.th :=
  (State.qPush_sound (ms := 0x1fffffff6) rfl s _ _ (sound_refl _ s)).same .th rfl
@[simp] theorem State.qPush_nv (s : State) (n : Nat) (x : List Byte) : (s.qPush n x).nv = s.nv :=
  (State.qPush_sound (ms := 0x1fffffff6) rfl s _ _ (sound_refl _ s)).same .nv rfl
@[simp] theorem State.qPush_te (s : State) (n : Nat) (x : List Byte) : (s.qPush n x).te = s.te :=
  (State.qPush_sound (ms := 0x1fffffff6) rfl s _ _ (sound_refl _ s)).same .te rfl
@[simp] theorem State.qPush_bi (s : State) (n : Nat) (x : List Byte) : (s.qPush n x).bi = s.bi :=
  (State.qPush_sound (ms := 0x1fffffff6) rfl s _ _ (sound_refl _ s)).same .bi rfl
@[simp] theorem State.qPush_cc (s : State) (n : Nat) (x : List Byte) : (s.qPush n x).cc = s.cc :=
  (State.qPush_sound (ms := 0x1fffffff6) rfl s _ _ (sound_refl _ s)).same .cc rfl
@[simp] theorem State.qPush_hs (s : State) (n : Nat) (x : List Byte) : (s.qPush n x).hs = s.hs :=
  (State.qPush_sound (ms := 0x1fffffff6) rfl s _ _ (sound_refl _ s)).same .hs rfl
@[simp] theorem State.qPush_mp (s : State) (n : Nat) (x : List Byte) : (s.qPush n x).mp = s.mp :=
  (State.qPush_sound (ms := 0x1fffffff6) rfl s _ _ (sound_refl _ s)).same .mp rfl
@[simp] theorem State.qPush_seq (s : State) (n : Nat) (x : List Byte) : (s.qPush n x).seq = s.seq :=
  (State.qPush_sound (ms := 0x1fffffff6) rfl s _ _ (sound_refl _ s)).same .seq rfl
@[simp] theorem State.qPush_out (s : State) (n : Nat) (x : List Byte) : (s.qPush n x).out = s.out :=
  (State.qPush_sound (ms := 0x1fffffff6) rfl s _ _ (sound_refl _ s)).same .out rfl
@[simp] theorem State.qPush_free (s : State) (n : Nat) (x : List Byte) : (s.qPush n x).free = s.free :=
  (State.qPush_sound (ms := 0x1fffffff6) rfl s _ _ (sound_refl _ s)).same .free rfl
@[simp] theorem State.event_mem (s : State) (e : EventId) (src : Nat) (d : List Byte) : (s.event e src d).mem = s.mem :=
  (State.event_sound (ms := 0x1fdfffff6) rfl s _ _ _ (sound_refl _ s)).same .mem rfl
@[simp] theorem State.event_nor (s : State) (e : EventId) (src : Nat) (d : List Byte) : (s.event e src d).nor = s.nor :=
  (State.event_sound (ms := 0x1fdfffff6) rfl s _ _ _ (sound_refl _ s)).same .nor rfl
@[simp] theorem State.event_sys (s : State) (e : EventId) (src : Nat) (d : List Byte) : (s.event e src d).sys = s.sys :=
  (State.event_sound (ms := 0x1fdfffff6) rfl s _ _ _ (sound_refl _ s)).same .sys rfl
@[simp] theorem State.event_time (s : State) (e : EventId) (src : Nat) (d : List Byte) : (s.event e src d).time = s.time :=
  (State.event_sound (ms := 0x1fdfffff6) rfl s _ _ _ (sound_refl _ s)).same .time rfl
@[simp] theorem State.event_tt (s : State) (e : EventId) (src : Nat) (d : List Byte) : (s.event e src d).tt = s.tt :=
  (State.event_sound (ms := 0x1fdfffff6) rfl s _ _ _ (sound_refl _ s)).same .tt rfl
@[simp] theorem State.event_ln (s : State) (e : EventId) (src : Nat) (d : List Byte) : (s.event e src d).ln = s.ln :=
  (State.event_sound (ms := 0x1fdfffff6) rfl s _ _ _ (sound_refl _ s)).same .ln rfl
@[simp] theorem State.event_sd (s : State) (e : EventId) (src : Nat) (d : List Byte) : (s.event e src d).sd = s.sd :=
  (State.event_sound (ms := 0x1fdfffff6) rfl s _ _ _ (sound_refl _ s)).same .sd rfl
@[simp] theorem State.event_cf (s : State) (e : EventId) (src : Nat) (d : List Byte) : (s.event e src d).cf = s.cf :=
  (State.event_sound (ms := 0x1fdfffff6) rfl s _ _ _ (sound_refl _ s)).same .cf rfl
@[simp] theorem State.event_cfNew (s : State) (e : EventId) (src : Nat) (d : List Byte) : (s.event e src d).cfNew = s.cfNew :=
  (State.event_sound (ms := 0x1fdfffff6) rfl s _ _ _ (sound_refl _ s)).same .cfNew rfl
@[simp] theorem State.event_ol (s : State) (e : EventId) (src : Nat) (d : List Byte) : (s.event e src d).ol = s.ol :=
  (State.event_sound (ms := 0x1fdfffff6) rfl s _ _ _ (sound_refl _ s)).same .ol rfl
@[simp] theorem State.event_olp (s : State) (e : EventId) (src : Nat) (d : List Byte) : (s.event e src d).olp = s.olp :=
  (State.event_sound (ms := 0x1fdfffff6) rfl s _ _ _ (sound_refl _ s)).same .olp rfl
@[simp] theorem State.event_olNew (s : State) (e : EventId) (src : Nat) (d : List Byte) : (s.event e src d).olNew = s.olNew :=
  (State.event_sound (ms := 0x1fdfffff6) rfl s _ _ _ (sound_refl _ s)).same .olNew rfl
@[simp] theorem State.event_gd (s : State) (e : EventId) (src : Nat) (d : List Byte) : (s.event e src d).gd = s.gd :=
  (State.event_sound (ms := 0x1fdfffff6) rfl s _ _ _ (sound_refl _ s)).same .gd rfl
@[simp] theorem State.event_pw (s : State) (e : EventId) (src : Nat) (d : List Byte) : (s.event e src d).pw = s.pw :=
  (State.event_sound (ms := 0x1fdfffff6) rfl s _ _ _ (sound_refl _ s)).same .pw rfl
@[simp] theorem State.event_lim (s : State) (e : EventId) (src : Nat) (d : List Byte) : (s.event e src d).lim = s.lim :=
  (State.event_sound (ms := 0x1fdfffff6) rfl s _ _ _ (sound_refl _ s)).same .lim rfl
@[simp] theorem State.event_limNew (s : State) (e : EventId) (src : Nat) (d : List Byte) : (s.event e src d).limNew = s.limNew :=
  (State.event_sound (ms := 0x1fdfffff6) rfl s _ _ _ (sound_refl _ s)).same .limNew rfl
@[simp] theorem State.event_fb (s : State) (e : EventId) (src : Nat) (d : List Byte) : (s.event e src d).fb = s.fb :=
  (State.event_sound (ms := 0x1fdfffff6) rfl s _ _ _ (sound_refl _ s)).same .fb rfl
@[simp] theorem State.event_pm (s : State) (e : EventId) (src : Nat) (d : List Byte) : (s.event e src d).pm = s.pm :=
  (State.event_sound (ms := 0x1fdfffff6) rfl s _ _ _ (sound_refl _ s)).same .pm rfl
@[simp] theorem State.event_sb (s : State) (e : EventId) (src : Nat) (d : List Byte) : (s.event e src d).sb = s.sb :=
  (State.event_sound (ms := 0x1fdfffff6) rfl s _ _ _ (sound_refl _ s)).same .sb rfl
@[simp] theorem State.event_can (s : State) (e : EventId) (src : Nat) (d : List Byte) : (s.event e src d).can = s.can :=
  (State.event_sound (ms := 0x1fdfffff6) rfl s _ _ _ (sound_refl _ s)).same .can rfl
@[simp] theorem State.event_bl (s : State) (e : EventId) (src : Nat) (d : List Byte) : (s.event e src d).bl = s.bl :=
  (State.event_sound (ms := 0x1fdfffff6) rfl s _ _ _ (sound_refl _ s)).same .bl rfl
@[simp] theorem State.event_th (s : State) (e : EventId) (src : Nat) (d : List Byte) : (s.event e src d).th = s.th :=
  (State.event_sound (ms := 0x1fdfffff6) rfl s _ _ _ (sound_refl _ s)).same .th rfl
@[simp] theorem State.event_nv (s : State) (e : EventId) (src : Nat) (d : List Byte) : (s.event e src d).nv = s.nv :=
  (State.event_sound (ms := 0x1fdfffff6) rfl s _ _ _ (sound_refl _ s)).same .nv rfl
@[simp] theorem State.event_bi (s : State) (e : EventId) (src : Nat) (d : List Byte) : (s.event e src d).bi = s.bi :=
  (State.event_sound (ms := 0x1fdfffff6) rfl s _ _ _ (sound_refl _ s)).same .bi rfl
@[simp] theorem State.event_cc (s : State) (e : EventId) (src : Nat) (d : List Byte) : (s.event e src d).cc = s.cc :=
  (State.event_sound (ms := 0x1fdfffff6) rfl s _ _ _ (sound_refl _ s)).same .cc rfl
@[simp] theorem State.event_hs (s : State) (e : EventId) (src : Nat) (d : List Byte) : (s.event e src d).hs = s.hs :=
  (State.event_sound (ms := 0x1fdfffff6) rfl s _ _ _ (sound_refl _ s)).same .hs rfl
@[simp] theorem State.event_mp (s : State) (e : EventId) (src : Nat) (d : List Byte) : (s.event e src d).mp = s.mp :=
  (State.event_sound (ms := 0x1fdfffff6) rfl s _ _ _ (sound_refl _ s)).same .mp rfl
@[simp] theorem State.event_seq (s : State) (e : EventId) (src : Nat) (d : List Byte) : (s.event e src d).seq = s.seq :=
  (State.event_sound (ms := 0x1fdfffff6) rfl s _ _ _ (sound_refl _ s)).same .seq rfl
@[simp] theorem State.event_out (s : State) (e : EventId) (src : Nat) (d : List Byte) : (s.event e src d).out = s.out :=
  (State.event_sound (ms := 0x1fdfffff6) rfl s _ _ _ (sound_refl _ s)).same .out rfl
@[simp] theorem State.event_free (s : State) (e : EventId) (src : Nat) (d : List Byte) : (s.event e src d).free = s.free :=
  (State.event_sound (ms := 0x1fdfffff6) rfl s _ _ _ (sound_refl _ s)).same .free rfl
@[simp] theorem State.cause_mem (s : State) (bit src detail value : Nat) : (s.cause bit src detail value).mem = s.mem :=
  (State.cause_sound (ms := 0x1bdfffff6) rfl s _ _ _ _ (sound_refl _ s)).same .mem rfl
@[simp] theorem State.cause_nor (s : State) (bit src detail value : Nat) : (s.cause bit src detail value).nor = s.nor :=
  (State.cause_sound (ms := 0x1bdfffff6) rfl s _ _ _ _ (sound_refl _ s)).same .nor rfl
@[simp] theorem State.cause_sys (s : State) (bit src detail value : Nat) : (s.cause bit src detail value).sys = s.sys :=
  (State.cause_sound (ms := 0x1bdfffff6) rfl s _ _ _ _ (sound_refl _ s)).same .sys rfl
@[simp] theorem State.cause_time (s : State) (bit src detail value : Nat) : (s.cause bit src detail value).time = s.time :=
  (State.cause_sound (ms := 0x1bdfffff6) rfl s _ _ _ _ (sound_refl _ s)).same .time rfl
@[simp] theorem State.cause_tt (s : State) (bit src detail value : Nat) : (s.cause bit src detail value).tt = s.tt :=
  (State.cause_sound (ms := 0x1bdfffff6) rfl s _ _ _ _ (sound_refl _ s)).same .tt rfl
@[simp] theorem State.cause_ln (s : State) (bit src detail value : Nat) : (s.cause bit src detail value).ln = s.ln :=
  (State.cause_sound (ms := 0x1bdfffff6) rfl s _ _ _ _ (sound_refl _ s)).same .ln rfl
@[simp] theorem State.cause_sd (s : State) (bit src detail value : Nat) : (s.cause bit src detail value).sd = s.sd :=
  (State.cause_sound (ms := 0x1bdfffff6) rfl s _ _ _ _ (sound_refl _ s)).same .sd rfl
@[simp] theorem State.cause_cf (s : State) (bit src detail value : Nat) : (s.cause bit src detail value).cf = s.cf :=
  (State.cause_sound (ms := 0x1bdfffff6) rfl s _ _ _ _ (sound_refl _ s)).same .cf rfl
@[simp] theorem State.cause_cfNew (s : State) (bit src detail value : Nat) : (s.cause bit src detail value).cfNew = s.cfNew :=
  (State.cause_sound (ms := 0x1bdfffff6) rfl s _ _ _ _ (sound_refl _ s)).same .cfNew rfl
@[simp] theorem State.cause_ol (s : State) (bit src detail value : Nat) : (s.cause bit src detail value).ol = s.ol :=
  (State.cause_sound (ms := 0x1bdfffff6) rfl s _ _ _ _ (sound_refl _ s)).same .ol rfl
@[simp] theorem State.cause_olp (s : State) (bit src detail value : Nat) : (s.cause bit src detail value).olp = s.olp :=
  (State.cause_sound (ms := 0x1bdfffff6) rfl s _ _ _ _ (sound_refl _ s)).same .olp rfl
@[simp] theorem State.cause_olNew (s : State) (bit src detail value : Nat) : (s.cause bit src detail value).olNew = s.olNew :=
  (State.cause_sound (ms := 0x1bdfffff6) rfl s _ _ _ _ (sound_refl _ s)).same .olNew rfl
@[simp] theorem State.cause_gd (s : State) (bit src detail value : Nat) : (s.cause bit src detail value).gd = s.gd :=
  (State.cause_sound (ms := 0x1bdfffff6) rfl s _ _ _ _ (sound_refl _ s)).same .gd rfl
@[simp] theorem State.cause_pw (s : State) (bit src detail value : Nat) : (s.cause bit src detail value).pw = s.pw :=
  (State.cause_sound (ms := 0x1bdfffff6) rfl s _ _ _ _ (sound_refl _ s)).same .pw rfl
@[simp] theorem State.cause_lim (s : State) (bit src detail value : Nat) : (s.cause bit src detail value).lim = s.lim :=
  (State.cause_sound (ms := 0x1bdfffff6) rfl s _ _ _ _ (sound_refl _ s)).same .lim rfl
@[simp] theorem State.cause_limNew (s : State) (bit src detail value : Nat) : (s.cause bit src detail value).limNew = s.limNew :=
  (State.cause_sound (ms := 0x1bdfffff6) rfl s _ _ _ _ (sound_refl _ s)).same .limNew rfl
@[simp] theorem State.cause_fb (s : State) (bit src detail value : Nat) : (s.cause bit src detail value).fb = s.fb :=
  (State.cause_sound (ms := 0x1bdfffff6) rfl s _ _ _ _ (sound_refl _ s)).same .fb rfl
@[simp] theorem State.cause_pm (s : State) (bit src detail value : Nat) : (s.cause bit src detail value).pm = s.pm :=
  (State.cause_sound (ms := 0x1bdfffff6) rfl s _ _ _ _ (sound_refl _ s)).same .pm rfl
@[simp] theorem State.cause_sb (s : State) (bit src detail value : Nat) : (s.cause bit src detail value).sb = s.sb :=
  (State.cause_sound (ms := 0x1bdfffff6) rfl s _ _ _ _ (sound_refl _ s)).same .sb rfl
@[simp] theorem State.cause_can (s : State) (bit src detail value : Nat) : (s.cause bit src detail value).can = s.can :=
  (State.cause_sound (ms := 0x1bdfffff6) rfl s _ _ _ _ (sound_refl _ s)).same .can rfl
@[simp] theorem State.cause_bl (s : State) (bit src detail value : Nat) : (s.cause bit src detail value).bl = s.bl :=
  (State.cause_sound (ms := 0x1bdfffff6) rfl s _ _ _ _ (sound_refl _ s)).same .bl rfl
@[simp] theorem State.cause_th (s : State) (bit src detail value : Nat) : (s.cause bit src detail value).th = s.th :=
  (State.cause_sound (ms := 0x1bdfffff6) rfl s _ _ _ _ (sound_refl _ s)).same .th rfl
@[simp] theorem State.cause_nv (s : State) (bit src detail value : Nat) : (s.cause bit src detail value).nv = s.nv :=
  (State.cause_sound (ms := 0x1bdfffff6) rfl s _ _ _ _ (sound_refl _ s)).same .nv rfl
@[simp] theorem State.cause_bi (s : State) (bit src detail value : Nat) : (s.cause bit src detail value).bi = s.bi :=
  (State.cause_sound (ms := 0x1bdfffff6) rfl s _ _ _ _ (sound_refl _ s)).same .bi rfl
@[simp] theorem State.cause_cc (s : State) (bit src detail value : Nat) : (s.cause bit src detail value).cc = s.cc :=
  (State.cause_sound (ms := 0x1bdfffff6) rfl s _ _ _ _ (sound_refl _ s)).same .cc rfl
@[simp] theorem State.cause_hs (s : State) (bit src detail value : Nat) : (s.cause bit src detail value).hs = s.hs :=
  (State.cause_sound (ms := 0x1bdfffff6) rfl s _ _ _ _ (sound_refl _ s)).same .hs rfl
@[simp] theorem State.cause_mp (s : State) (bit src detail value : Nat) : (s.cause bit src detail value).mp = s.mp :=
  (State.cause_sound (ms := 0x1bdfffff6) rfl s _ _ _ _ (sound_refl _ s)).same .mp rfl
@[simp] theorem State.cause_out (s : State) (bit src detail value : Nat) : (s.cause bit src detail value).out = s.out :=
  (State.cause_sound (ms := 0x1bdfffff6) rfl s _ _ _ _ (sound_refl _ s)).same .out rfl
@[simp] theorem State.cause_free (s : State) (bit src detail value : Nat) : (s.cause bit src detail value).free = s.free :=
  (State.cause_sound (ms := 0x1bdfffff6) rfl s _ _ _ _ (sound_refl _ s)).same .free rfl

@[simp] theorem State.arbPush_te (s : State) (n : Nat) (x : List Byte) : (s.arbPush n x).te = s.te :=
  (State.arbPush_sound (ms := 0x1fffffff6) rfl s n x (sound_refl _ s)).same .te rfl

/-- An event joins the list of events; its record goes to its ring. -/
@[simp] theorem State.event_te (s : State) (e : EventId) (src : Nat) (d : List Byte) :
    (s.event e src d).te = { s.te with evs := s.te.evs ++ [(e.ring, e.code)] } := by
  unfold State.event
  rw [State.arbPush_te]

/-- A cause is marked for the sequencer. -/
@[simp] theorem State.cause_seq (s : State) (bit src detail value : Nat) :
    (s.cause bit src detail value).seq = { s.seq with raised := s.seq.raised ++ [(bit, detail)] } := by
  unfold State.cause
  simp only [State.event_seq]

@[simp] theorem State.cause_te (s : State) (bit src detail value : Nat) :
    (s.cause bit src detail value).te = { s.te with evs := s.te.evs ++ [((causeEvent bit).ring, (causeEvent bit).code)] } := by
  unfold State.cause
  simp only [State.event_te]

/-- A cause raised is there for the sequencer. -/
theorem State.cause_hasCause (s : State) (bit src detail value : Nat) : (s.cause bit src detail value).hasCause bit = true := by
  unfold State.hasCause
  rw [State.cause_seq]
  simp

/-! ### Registers after a push, an event, a cause -/

/-- An address that holds none of the words that a push writes: not the queue manager's, not their other name in the host block, not
SB.STAT. -/
def apartFromQueues (a : Nat) : Prop :=
  (a < 0x40020000 ∨ 0x40030000 ≤ a) ∧ (a < 0x400E0060 ∨ 0x400E0070 ≤ a) ∧ a ≠ (R.SB_STAT_SAFETY_EVT_LOST).addr

theorem State.word_wr_ne (s : State) (f : Fld) (v : Nat) {a : Nat} (h : s.home a ≠ s.home f.addr) : (s.wr f v).word a = s.word a := by
  unfold State.wr
  exact State.word_setWord_ne _ _ h

/-- Where a word apart from the queues stands. -/
theorem home_apart (s : State) {a : Nat} (h : apartFromQueues a) :
    (s.home a < 0x40020000 ∨ 0x40030000 ≤ s.home a) ∧ s.home a ≠ (R.SB_STAT_SAFETY_EVT_LOST).addr := by
  unfold apartFromQueues at h
  have hc : 0x400B0000 ≤ (R.SB_STAT_SAFETY_EVT_LOST).addr ∧ (R.SB_STAT_SAFETY_EVT_LOST).addr < 0x400C0000 := by decide
  obtain ⟨h1, h2, h3⟩ := h
  generalize (R.SB_STAT_SAFETY_EVT_LOST).addr = b at *
  unfold State.home
  dsimp only
  split
  · split <;> omega
  · split
    · split <;> omega
    · split <;> omega

/-- Where a word of the queue manager stands. -/
theorem home_queue (s : State) {a : Nat} (h : 0x40020000 ≤ a ∧ a < 0x40030000) : s.home a = a :=
  State.home_self s a (by omega) (by omega) (by omega)

theorem home_sbstat (s : State) : s.home (R.SB_STAT_SAFETY_EVT_LOST).addr = (R.SB_STAT_SAFETY_EVT_LOST).addr :=
  State.home_self s _ (by decide) (by decide) (by decide)

/-- A word of the queue manager written leaves the words apart from the queues. -/
theorem word_wr_queue (s : State) {f : Fld} (v : Nat) {a : Nat} (h : apartFromQueues a) (hf : 0x40020000 ≤ f.addr ∧ f.addr < 0x40030000) :
    (s.wr f v).word a = s.word a := by
  apply State.word_wr_ne
  rw [home_queue s hf]
  have := (home_apart s h).1
  omega

theorem word_wr_sbstat (s : State) (v : Nat) {a : Nat} (h : apartFromQueues a) :
    (s.wr R.SB_STAT_SAFETY_EVT_LOST v).word a = s.word a := by
  apply State.word_wr_ne
  rw [home_sbstat]
  exact (home_apart s h).2

theorem word_qLose (s : State) {n a : Nat} (hn : n < 64) (h : apartFromQueues a) : (s.qLose n).word a = s.word a := by
  have h1 : 0x40020000 ≤ (R.QM_Qnn_DROP_COUNT n).addr ∧ (R.QM_Qnn_DROP_COUNT n).addr < 0x40030000 := by
    simp only [R.QM_Qnn_DROP_COUNT]; omega
  have h2 : 0x40020000 ≤ (R.QM_Qnn_FLAG_DROPPED n).addr ∧ (R.QM_Qnn_FLAG_DROPPED n).addr < 0x40030000 := by
    simp only [R.QM_Qnn_FLAG_DROPPED]; omega
  have h3 : (State.wr (s.inc (R.QM_Qnn_DROP_COUNT n)) (R.QM_Qnn_FLAG_DROPPED n) 1).word a = s.word a := by
    rw [word_wr_queue _ _ h h2]
    exact word_wr_queue _ _ h h1
  unfold State.qLose
  dsimp only
  split
  · rw [word_wr_sbstat _ _ h, h3]
  · exact h3

theorem word_qIrq (s : State) {n a : Nat} (h : apartFromQueues a) : (s.qIrq n).word a = s.word a := by
  unfold State.qIrq
  split
  · unfold State.wrBit
    apply word_wr_queue _ _ h
    split <;> decide
  · rfl

theorem word_qPush (s : State) {n a : Nat} (x : List Byte) (hn : n < 64) (h : apartFromQueues a) : (s.qPush n x).word a = s.word a := by
  unfold State.qPush
  split
  · exact word_qIrq _ h
  · split
    · rfl
    · exact word_qLose _ hn h

/-- A push through the arbiter of an event ring leaves the words apart from the queues. -/
theorem word_arbPush (s : State) {n a : Nat} (x : List Byte) (hn : n < 64) (h : apartFromQueues a) : (s.arbPush n x).word a = s.word a := by
  unfold State.arbPush
  dsimp only
  split
  · exact word_qPush _ _ hn h
  · split
    · exact word_qIrq _ h
    · exact word_qLose _ hn h

theorem rd_qPush (s : State) {n : Nat} {f : Fld} (x : List Byte) (hn : n < 64) (h : apartFromQueues f.addr) : (s.qPush n x).rd f = s.rd f := by
  unfold State.rd
  rw [word_qPush _ _ hn h]

/-- An event leaves the words apart from the queues. -/
theorem word_event (s : State) {e : EventId} {a : Nat} (src : Nat) (d : List Byte) (hn : e.ring < 64) (h : apartFromQueues a) :
    (s.event e src d).word a = s.word a := by
  unfold State.event
  exact word_arbPush _ _ hn h

theorem rd_event (s : State) {e : EventId} {f : Fld} (src : Nat) (d : List Byte) (hn : e.ring < 64) (h : apartFromQueues f.addr) :
    (s.event e src d).rd f = s.rd f := by
  unfold State.rd
  rw [word_event _ _ _ hn h]

theorem causeEvent_ring (bit : Nat) : (causeEvent bit).ring < 64 := by
  unfold causeEvent
  split
  · exact (by decide : (39 : Nat) < 64)
  · split <;> exact (by decide : (39 : Nat) < 64)

/-- A cause leaves the words apart from the queues. -/
theorem word_cause (s : State) {a : Nat} (bit src detail value : Nat) (h : apartFromQueues a) :
    (s.cause bit src detail value).word a = s.word a := by
  unfold State.cause
  exact word_event _ _ _ (causeEvent_ring bit) h

theorem rd_cause (s : State) {f : Fld} (bit src detail value : Nat) (h : apartFromQueues f.addr) :
    (s.cause bit src detail value).rd f = s.rd f := by
  unfold State.rd
  rw [word_cause _ _ _ _ _ h]

end Sys2Proof.Machine
end

