-- ==== Sys2Proof/Laws/ParamCrc.lean ====
section
/-! SUPPORT. Laws of the CRC of the commissioned parameters. -/

set_option Elab.async false

namespace Sys2Proof.Machine

theorem crc32cRun_lt (bs : List Byte) {c : Nat} (hc : c < 2 ^ 32) : crc32cRun c bs < 2 ^ 32 := by
  unfold crc32cRun
  induction bs generalizing c with
  | nil => exact hc
  | cons b bs ih => exact ih (crcByteR_lt (by decide) hc b)

/-- The CRC of the parameters has 32 bits (10 R361). -/
theorem paramCrc_lt (word : Nat → Word) : paramCrc word < 2 ^ 32 := by
  unfold paramCrc
  refine Nat.xor_lt_two_pow ?_ (by decide)
  generalize rwlAddrs = l
  have h : ∀ c, c < 2 ^ 32 → l.foldl (fun c a =>
      crc32cRun (crc32cRun c (bytesLE 4 a)) (bytesLE 4 (word a &&& accessMask a .rwl).toNat)) c < 2 ^ 32 := by
    induction l with
    | nil => exact fun c hc => hc
    | cons a l ih => exact fun c hc => ih _ (crc32cRun_lt _ (crc32cRun_lt _ hc))
  exact h _ (by decide)

theorem paramFold_congr {v w : Nat → Word} (l : List Nat) (h : ∀ a ∈ l, v a = w a) (c : Nat) :
    l.foldl (fun c a => crc32cRun (crc32cRun c (bytesLE 4 a)) (bytesLE 4 (v a &&& accessMask a .rwl).toNat)) c
      = l.foldl (fun c a => crc32cRun (crc32cRun c (bytesLE 4 a)) (bytesLE 4 (w a &&& accessMask a .rwl).toNat)) c := by
  induction l generalizing c with
  | nil => rfl
  | cons a l ih =>
    rw [List.foldl_cons, List.foldl_cons, h a (List.mem_cons_self ..)]
    exact ih (fun b hb => h b (List.mem_cons_of_mem a hb)) _

/-- The CRC of the parameters reads the commissioned registers alone (10 R361). -/
theorem paramCrc_congr {v w : Nat → Word} (h : ∀ a ∈ rwlAddrs, v a = w a) : paramCrc v = paramCrc w := by
  unfold paramCrc
  rw [paramFold_congr rwlAddrs h]

/-- A confirmed CRC that differs from the one computed (10 R361). -/
theorem paramCrc_other (s : State) (h : ∀ a ∈ rwlAddrs, s.home a ≠ s.home (R.SB_CRC_CONF).addr) :
    paramCrc (s.wr R.SB_CRC_CONF (paramCrc s.word + 1)).word ≠ (s.wr R.SB_CRC_CONF (paramCrc s.word + 1)).rd R.SB_CRC_CONF := by
  have hc : paramCrc (s.wr R.SB_CRC_CONF (paramCrc s.word + 1)).word = paramCrc s.word :=
    paramCrc_congr (fun a ha => State.word_setWord_ne s _ (h a ha))
  rw [hc, State.rd_wr_same s (by decide)]
  have hw : (R.SB_CRC_CONF).width = 32 := by decide
  rw [hw]
  have := paramCrc_lt s.word
  generalize paramCrc s.word = c at *
  omega

end Sys2Proof.Machine
end

