-- ==== Sys2Proof/Laws/SoundFlags.lean ====
section
/-! SUPPORT. The operations of Machine/Flags.lean keep a state sound. -/

set_option Elab.async false

namespace Sys2Proof.Machine

variable {ms : Nat} {sa : State}

theorem State.brakePhase_sound (hp : ms &&& 0x20002040000001 = 0) (s : State) (n : Nat) (hs : s.Sound ms sa) : State.Sound ms (State.brakePhase s n) sa := by
  unfold State.brakePhase
  repeat'
    first
    | assumption | (intro _) | with_reducible apply sound_ite | with_reducible apply State.wr_sound
    | with_reducible apply addrOutside_ite | with_reducible apply addrOutside2 | with_reducible apply addrOutside1
    | with_reducible apply addrOutside_mod | with_reducible apply addrOutside0 | exact Nat.zero_lt_succ _ | (exact mask_mono hp rfl)
    | ((with_reducible apply sound_parts) <;> first | (intro _; with_reducible rfl) | exact fun hm => (mask_absurd hp hm rfl).elim | skip)
    | simp (zeta := false) (etaStruct := .none) only [sound_mk] | (extract_lets +onlyGivenNames x; refine sound_have x ?_ ?_; subst x)
    | (extract_lets +onlyGivenNames x; refine sound_fun x ?_; subst x) | (extract_lets +onlyGivenNames x) | split
    | simp (zeta := false) (zetaDelta := true) (etaStruct := .none) only [sound_mk]

theorem State.setGch_sound (hp : ms &&& 0x4000 = 0) (s : State) (c : Nat) (f : GdChan → GdChan) (hs : s.Sound ms sa) : State.Sound ms (State.setGch s c f) sa := by
  unfold State.setGch
  repeat'
    first
    | assumption | (intro _) | with_reducible apply sound_ite | (exact mask_mono hp rfl)
    | ((with_reducible apply sound_parts) <;> first | (intro _; with_reducible rfl) | exact fun hm => (mask_absurd hp hm rfl).elim | skip)
    | simp (zeta := false) (etaStruct := .none) only [sound_mk] | (extract_lets +onlyGivenNames x; refine sound_have x ?_ ?_; subst x)
    | (extract_lets +onlyGivenNames x; refine sound_fun x ?_; subst x) | (extract_lets +onlyGivenNames x) | split
    | simp (zeta := false) (zetaDelta := true) (etaStruct := .none) only [sound_mk]

theorem State.setGleg_sound (hp : ms &&& 0x4000 = 0) (s : State) (l : Nat) (f : GdLeg → GdLeg) (hs : s.Sound ms sa) : State.Sound ms (State.setGleg s l f) sa := by
  unfold State.setGleg
  repeat'
    first
    | assumption | (intro _) | with_reducible apply sound_ite | (exact mask_mono hp rfl)
    | ((with_reducible apply sound_parts) <;> first | (intro _; with_reducible rfl) | exact fun hm => (mask_absurd hp hm rfl).elim | skip)
    | simp (zeta := false) (etaStruct := .none) only [sound_mk] | (extract_lets +onlyGivenNames x; refine sound_have x ?_ ?_; subst x)
    | (extract_lets +onlyGivenNames x; refine sound_fun x ?_; subst x) | (extract_lets +onlyGivenNames x) | split
    | simp (zeta := false) (zetaDelta := true) (etaStruct := .none) only [sound_mk]

theorem State.gateRefreshOne_sound (hp : ms &&& 0x4000 = 0) (s : State) (c : Nat) (hs : s.Sound ms sa) : State.Sound ms (State.gateRefreshOne s c) sa := by
  unfold State.gateRefreshOne
  repeat'
    first
    | assumption | (intro _) | with_reducible apply sound_ite | with_reducible apply State.setGch_sound | (exact mask_mono hp rfl)
    | ((with_reducible apply sound_parts) <;> first | (intro _; with_reducible rfl) | exact fun hm => (mask_absurd hp hm rfl).elim | skip)
    | simp (zeta := false) (etaStruct := .none) only [sound_mk] | (extract_lets +onlyGivenNames x; refine sound_have x ?_ ?_; subst x)
    | (extract_lets +onlyGivenNames x; refine sound_fun x ?_; subst x) | (extract_lets +onlyGivenNames x) | split
    | simp (zeta := false) (zetaDelta := true) (etaStruct := .none) only [sound_mk]
    | ((with_reducible apply sound_time) <;> first | (intro _; with_reducible rfl) | exact fun hm => (mask_absurd hp hm rfl).elim | skip)
    | omega | exact Nat.le_trans ‹_ ≤ _› (Nat.le_max_left _ _)

theorem State.gateRefresh_sound (hp : ms &&& 0x4000 = 0) (s : State) (hs : s.Sound ms sa) : State.Sound ms (State.gateRefresh s) sa := by
  unfold State.gateRefresh
  repeat'
    first
    | assumption | (intro _) | with_reducible apply sound_ite | with_reducible apply State.gateRefreshOne_sound
    | with_reducible apply sound_foldl | with_reducible apply sound_foldl_snd | (exact mask_mono hp rfl)
    | ((with_reducible apply sound_parts) <;> first | (intro _; with_reducible rfl) | exact fun hm => (mask_absurd hp hm rfl).elim | skip)
    | simp (zeta := false) (etaStruct := .none) only [sound_mk] | (extract_lets +onlyGivenNames x; refine sound_have x ?_ ?_; subst x)
    | (extract_lets +onlyGivenNames x; refine sound_fun x ?_; subst x) | (extract_lets +onlyGivenNames x) | split
    | simp (zeta := false) (zetaDelta := true) (etaStruct := .none) only [sound_mk]

theorem State.soutRefresh_sound (hp : ms &&& 0x100000000001 = 0) (s : State) (hs : s.Sound ms sa) : State.Sound ms (State.soutRefresh s) sa := by
  unfold State.soutRefresh
  repeat'
    first
    | assumption | (intro _) | with_reducible apply sound_ite | with_reducible apply State.wr_sound
    | with_reducible apply addrOutside_ite | with_reducible apply addrOutside2 | with_reducible apply addrOutside1
    | with_reducible apply addrOutside_mod | with_reducible apply addrOutside0 | exact Nat.zero_lt_succ _ | (exact mask_mono hp rfl)
    | ((with_reducible apply sound_parts) <;> first | (intro _; with_reducible rfl) | exact fun hm => (mask_absurd hp hm rfl).elim | skip)
    | simp (zeta := false) (etaStruct := .none) only [sound_mk] | (extract_lets +onlyGivenNames x; refine sound_have x ?_ ?_; subst x)
    | (extract_lets +onlyGivenNames x; refine sound_fun x ?_; subst x) | (extract_lets +onlyGivenNames x) | split
    | simp (zeta := false) (zetaDelta := true) (etaStruct := .none) only [sound_mk]

theorem State.brakeSet_sound (hp : ms &&& 0x20102040000001 = 0) (s : State) (hs : s.Sound ms sa) : State.Sound ms (State.brakeSet s) sa := by
  unfold State.brakeSet
  repeat'
    first
    | assumption | (intro _) | with_reducible apply sound_ite | with_reducible apply State.wr_sound
    | with_reducible apply addrOutside_ite | with_reducible apply addrOutside2 | with_reducible apply addrOutside1
    | with_reducible apply addrOutside_mod | with_reducible apply addrOutside0 | exact Nat.zero_lt_succ _ | (exact mask_mono hp rfl)
    | ((with_reducible apply sound_parts) <;> first | (intro _; with_reducible rfl) | exact fun hm => (mask_absurd hp hm rfl).elim | skip)
    | simp (zeta := false) (etaStruct := .none) only [sound_mk] | (extract_lets +onlyGivenNames x; refine sound_have x ?_ ?_; subst x)
    | (extract_lets +onlyGivenNames x; refine sound_fun x ?_; subst x) | (extract_lets +onlyGivenNames x) | split
    | simp (zeta := false) (zetaDelta := true) (etaStruct := .none) only [sound_mk]
    | ((with_reducible apply sound_time) <;> first | (intro _; with_reducible rfl) | exact fun hm => (mask_absurd hp hm rfl).elim | skip)
    | omega | exact Nat.le_trans ‹_ ≤ _› (Nat.le_max_left _ _)

end Sys2Proof.Machine
end

