-- ==== Sys2Proof/Laws/SoundGate.lean ====
section
/-! SUPPORT. The operations of Machine/Gate.lean keep a state sound. -/

set_option Elab.async false

namespace Sys2Proof.Machine

variable {ms : Nat} {sa : State}

theorem State.driveEvent_sound (hp : ms &&& 0x100802000009 = 0) (b : State) (a : State) (hb : b.Sound ms sa) (ha : a.Sound ms sa) : State.Sound ms (State.driveEvent b a) sa := by
  unfold State.driveEvent
  repeat'
    first
    | assumption | (intro _) | with_reducible apply sound_ite | with_reducible apply State.event_sound
    | with_reducible apply addrOutside_ite | with_reducible apply addrOutside2 | with_reducible apply addrOutside1
    | with_reducible apply addrOutside_mod | with_reducible apply addrOutside0 | exact Nat.zero_lt_succ _ | (exact mask_mono hp rfl)
    | ((with_reducible apply sound_parts) <;> first | (intro _; with_reducible rfl) | exact fun hm => (mask_absurd hp hm rfl).elim | skip)
    | simp (zeta := false) (etaStruct := .none) only [sound_mk] | (extract_lets +onlyGivenNames x; refine sound_have x ?_ ?_; subst x)
    | (extract_lets +onlyGivenNames x; refine sound_fun x ?_; subst x) | (extract_lets +onlyGivenNames x) | split
    | simp (zeta := false) (zetaDelta := true) (etaStruct := .none) only [sound_mk]

theorem State.reqDone_sound (hp : ms &&& 0x20002040000001 = 0) (s : State) (code result : Nat) (hs : s.Sound ms sa) : State.Sound ms (State.reqDone s code result) sa := by
  unfold State.reqDone
  repeat'
    first
    | assumption | (intro _) | with_reducible apply sound_ite | with_reducible apply State.wr_sound
    | with_reducible apply addrOutside_ite | with_reducible apply addrOutside2 | with_reducible apply addrOutside1
    | with_reducible apply addrOutside_mod | with_reducible apply addrOutside0 | exact Nat.zero_lt_succ _ | (exact mask_mono hp rfl)
    | ((with_reducible apply sound_parts) <;> first | (intro _; with_reducible rfl) | exact fun hm => (mask_absurd hp hm rfl).elim | skip)
    | simp (zeta := false) (etaStruct := .none) only [sound_mk] | (extract_lets +onlyGivenNames x; refine sound_have x ?_ ?_; subst x)
    | (extract_lets +onlyGivenNames x; refine sound_fun x ?_; subst x) | (extract_lets +onlyGivenNames x) | split
    | simp (zeta := false) (zetaDelta := true) (etaStruct := .none) only [sound_mk]

theorem State.runSet_sound (hp : ms &&& 0x8000004001 = 0) (s : State) (run : Bool) (hs : s.Sound ms sa) : State.Sound ms (State.runSet s run) sa := by
  unfold State.runSet
  repeat'
    first
    | assumption | (intro _) | with_reducible apply sound_ite | with_reducible apply State.wr_sound
    | with_reducible apply addrOutside_ite | with_reducible apply addrOutside2 | with_reducible apply addrOutside1
    | with_reducible apply addrOutside_mod | with_reducible apply addrOutside0 | exact Nat.zero_lt_succ _ | (exact mask_mono hp rfl)
    | ((with_reducible apply sound_parts) <;> first | (intro _; with_reducible rfl) | exact fun hm => (mask_absurd hp hm rfl).elim | skip)
    | simp (zeta := false) (etaStruct := .none) only [sound_mk] | (extract_lets +onlyGivenNames x; refine sound_have x ?_ ?_; subst x)
    | (extract_lets +onlyGivenNames x; refine sound_fun x ?_; subst x) | (extract_lets +onlyGivenNames x) | split
    | simp (zeta := false) (zetaDelta := true) (etaStruct := .none) only [sound_mk]

theorem State.runOrder_sound (hp : ms &&& 0x8000004001 = 0) (s : State) (run : Bool) (hs : s.Sound ms sa) : State.Sound ms (State.runOrder s run) sa := by
  unfold State.runOrder
  repeat'
    first
    | assumption | (intro _) | with_reducible apply sound_ite | with_reducible apply State.runSet_sound
    | with_reducible apply addrOutside_ite | with_reducible apply addrOutside2 | with_reducible apply addrOutside1
    | with_reducible apply addrOutside_mod | with_reducible apply addrOutside0 | exact Nat.zero_lt_succ _ | (exact mask_mono hp rfl)
    | ((with_reducible apply sound_parts) <;> first | (intro _; with_reducible rfl) | exact fun hm => (mask_absurd hp hm rfl).elim | skip)
    | simp (zeta := false) (etaStruct := .none) only [sound_mk] | (extract_lets +onlyGivenNames x; refine sound_have x ?_ ?_; subst x)
    | (extract_lets +onlyGivenNames x; refine sound_fun x ?_; subst x) | (extract_lets +onlyGivenNames x) | split
    | simp (zeta := false) (zetaDelta := true) (etaStruct := .none) only [sound_mk]

theorem stateEffects_sound (hp : ms &&& 0x2010A040004081 = 0) (old : Nat) (s : State) (hs : s.Sound ms sa) : State.Sound ms (stateEffects old s) sa := by
  unfold stateEffects
  repeat'
    first
    | assumption | (intro _) | with_reducible apply sound_ite | with_reducible apply State.brakePhase_sound
    | with_reducible apply State.brakeSet_sound | with_reducible apply State.gateRefresh_sound
    | with_reducible apply State.runOrder_sound | with_reducible apply addrOutside_ite | with_reducible apply addrOutside2
    | with_reducible apply addrOutside1 | with_reducible apply addrOutside_mod | with_reducible apply addrOutside0
    | exact Nat.zero_lt_succ _ | (exact mask_mono hp rfl)
    | ((with_reducible apply sound_parts) <;> first | (intro _; with_reducible rfl) | exact fun hm => (mask_absurd hp hm rfl).elim | skip)
    | simp (zeta := false) (etaStruct := .none) only [sound_mk] | (extract_lets +onlyGivenNames x; refine sound_have x ?_ ?_; subst x)
    | (extract_lets +onlyGivenNames x; refine sound_fun x ?_; subst x) | (extract_lets +onlyGivenNames x) | split
    | simp (zeta := false) (zetaDelta := true) (etaStruct := .none) only [sound_mk]

theorem enter_sound (hp : ms &&& 0x2010A842004089 = 0) (state sub cause : Nat) (demand : Bool) (s : State) (hs : s.Sound ms sa) : State.Sound ms (enter state sub cause demand s) sa := by
  unfold enter
  repeat'
    first
    | assumption | (intro _) | with_reducible apply sound_ite | with_reducible apply State.cause_sound
    | with_reducible apply State.driveEvent_sound | with_reducible apply State.wr_sound | with_reducible apply stateEffects_sound
    | with_reducible apply addrOutside_ite | with_reducible apply addrOutside2 | with_reducible apply addrOutside1
    | with_reducible apply addrOutside_mod | with_reducible apply addrOutside0 | exact Nat.zero_lt_succ _ | (exact mask_mono hp rfl)
    | ((with_reducible apply sound_parts) <;> first | (intro _; with_reducible rfl) | exact fun hm => (mask_absurd hp hm rfl).elim | skip)
    | simp (zeta := false) (etaStruct := .none) only [sound_mk] | (extract_lets +onlyGivenNames x; refine sound_have x ?_ ?_; subst x)
    | (extract_lets +onlyGivenNames x; refine sound_fun x ?_; subst x) | (extract_lets +onlyGivenNames x) | split
    | simp (zeta := false) (zetaDelta := true) (etaStruct := .none) only [sound_mk]

theorem State.telRecord_sound (hp : ms &&& 0x4000 = 0) (s : State) (c kind cseq : Nat) (data : List Byte) (hs : s.Sound ms sa) : State.Sound ms (State.telRecord s c kind cseq data) sa := by
  unfold State.telRecord
  repeat'
    first
    | assumption | (intro _) | with_reducible apply sound_ite | with_reducible apply State.setGch_sound | (exact mask_mono hp rfl)
    | ((with_reducible apply sound_parts) <;> first | (intro _; with_reducible rfl) | exact fun hm => (mask_absurd hp hm rfl).elim | skip)
    | simp (zeta := false) (etaStruct := .none) only [sound_mk] | (extract_lets +onlyGivenNames x; refine sound_have x ?_ ?_; subst x)
    | (extract_lets +onlyGivenNames x; refine sound_fun x ?_; subst x) | (extract_lets +onlyGivenNames x) | split
    | simp (zeta := false) (zetaDelta := true) (etaStruct := .none) only [sound_mk]

theorem telArrives_sound (hp : ms &&& 0x110800804009 = 0) (c : Nat) (ok : Bool) (s : State) (hs : s.Sound ms sa) : State.Sound ms (telArrives c ok s) sa := by
  unfold telArrives
  repeat'
    first
    | assumption | (intro _) | with_reducible apply sound_ite | with_reducible apply State.inc_sound
    | with_reducible apply State.qPush_sound | with_reducible apply State.setGch_sound | with_reducible apply State.wr_sound
    | with_reducible apply addrOutside_ite | with_reducible apply addrOutside2 | with_reducible apply addrOutside1
    | with_reducible apply addrOutside_mod | with_reducible apply addrOutside0 | exact Nat.zero_lt_succ _ | (exact mask_mono hp rfl)
    | ((with_reducible apply sound_parts) <;> first | (intro _; with_reducible rfl) | exact fun hm => (mask_absurd hp hm rfl).elim | skip)
    | simp (zeta := false) (etaStruct := .none) only [sound_mk] | (extract_lets +onlyGivenNames x; refine sound_have x ?_ ?_; subst x)
    | (extract_lets +onlyGivenNames x; refine sound_fun x ?_; subst x) | (extract_lets +onlyGivenNames x) | split
    | simp (zeta := false) (zetaDelta := true) (etaStruct := .none) only [sound_mk]
    | ((with_reducible apply sound_time) <;> first | (intro _; with_reducible rfl) | exact fun hm => (mask_absurd hp hm rfl).elim | skip)
    | omega | exact Nat.le_trans ‹_ ≤ _› (Nat.le_max_left _ _)

theorem periodicRecord_sound (hp : ms &&& 0x4000 = 0) (c : Nat) (pos neg temp : BitVec 16) (s : State) (hs : s.Sound ms sa) : State.Sound ms (periodicRecord c pos neg temp s) sa := by
  unfold periodicRecord
  repeat'
    first
    | assumption | (intro _) | with_reducible apply sound_ite | with_reducible apply State.setGch_sound
    | with_reducible apply State.telRecord_sound | (exact mask_mono hp rfl)
    | ((with_reducible apply sound_parts) <;> first | (intro _; with_reducible rfl) | exact fun hm => (mask_absurd hp hm rfl).elim | skip)
    | simp (zeta := false) (etaStruct := .none) only [sound_mk] | (extract_lets +onlyGivenNames x; refine sound_have x ?_ ?_; subst x)
    | (extract_lets +onlyGivenNames x; refine sound_fun x ?_; subst x) | (extract_lets +onlyGivenNames x) | split
    | simp (zeta := false) (zetaDelta := true) (etaStruct := .none) only [sound_mk]
    | ((with_reducible apply sound_time) <;> first | (intro _; with_reducible rfl) | exact fun hm => (mask_absurd hp hm rfl).elim | skip)
    | omega | exact Nat.le_trans ‹_ ≤ _› (Nat.le_max_left _ _)

theorem pulseEnd_sound (hp : ms &&& 0x4000 = 0) (l : Nat) (s : State) (hs : s.Sound ms sa) : State.Sound ms (pulseEnd l s) sa := by
  unfold pulseEnd
  repeat'
    first
    | assumption | (intro _) | with_reducible apply sound_ite | with_reducible apply State.setGch_sound
    | with_reducible apply State.setGleg_sound | (exact mask_mono hp rfl)
    | ((with_reducible apply sound_parts) <;> first | (intro _; with_reducible rfl) | exact fun hm => (mask_absurd hp hm rfl).elim | skip)
    | simp (zeta := false) (etaStruct := .none) only [sound_mk] | (extract_lets +onlyGivenNames x; refine sound_have x ?_ ?_; subst x)
    | (extract_lets +onlyGivenNames x; refine sound_fun x ?_; subst x) | (extract_lets +onlyGivenNames x) | split
    | simp (zeta := false) (zetaDelta := true) (etaStruct := .none) only [sound_mk]
    | ((with_reducible apply sound_time) <;> first | (intro _; with_reducible rfl) | exact fun hm => (mask_absurd hp hm rfl).elim | skip)
    | omega | exact Nat.le_trans ‹_ ≤ _› (Nat.le_max_left _ _)

theorem pxgDiscard_sound (hp : ms &&& 0x4000 = 0) (s : State) (c : Nat) (hs : s.Sound ms sa) : State.Sound ms (pxgDiscard s c) sa := by
  unfold pxgDiscard
  repeat'
    first
    | assumption | (intro _) | with_reducible apply sound_ite | with_reducible apply State.setGch_sound
    | with_reducible apply pulseEnd_sound | (exact mask_mono hp rfl)
    | ((with_reducible apply sound_parts) <;> first | (intro _; with_reducible rfl) | exact fun hm => (mask_absurd hp hm rfl).elim | skip)
    | simp (zeta := false) (etaStruct := .none) only [sound_mk] | (extract_lets +onlyGivenNames x; refine sound_have x ?_ ?_; subst x)
    | (extract_lets +onlyGivenNames x; refine sound_fun x ?_; subst x) | (extract_lets +onlyGivenNames x) | split
    | simp (zeta := false) (zetaDelta := true) (etaStruct := .none) only [sound_mk]

theorem sendOff_sound (hp : ms &&& 0x4000 = 0) (shoot : Bool) (s : State) (c : Nat) (hs : s.Sound ms sa) : State.Sound ms (sendOff shoot s c) sa := by
  unfold sendOff
  repeat'
    first
    | assumption | (intro _) | with_reducible apply sound_ite | with_reducible apply State.setGch_sound | (exact mask_mono hp rfl)
    | ((with_reducible apply sound_parts) <;> first | (intro _; with_reducible rfl) | exact fun hm => (mask_absurd hp hm rfl).elim | skip)
    | simp (zeta := false) (etaStruct := .none) only [sound_mk] | (extract_lets +onlyGivenNames x; refine sound_have x ?_ ?_; subst x)
    | (extract_lets +onlyGivenNames x; refine sound_fun x ?_; subst x) | (extract_lets +onlyGivenNames x) | split
    | simp (zeta := false) (zetaDelta := true) (etaStruct := .none) only [sound_mk]
    | ((with_reducible apply sound_time) <;> first | (intro _; with_reducible rfl) | exact fun hm => (mask_absurd hp hm rfl).elim | skip)
    | omega | exact Nat.le_trans ‹_ ≤ _› (Nat.le_max_left _ _)

theorem lockoutPartner_sound (hp : ms &&& 0x4000 = 0) (c : Nat) (s : State) (hs : s.Sound ms sa) : State.Sound ms (lockoutPartner c s) sa := by
  unfold lockoutPartner
  repeat'
    first
    | assumption | (intro _) | with_reducible apply sound_ite | with_reducible apply sendOff_sound | (exact mask_mono hp rfl)
    | ((with_reducible apply sound_parts) <;> first | (intro _; with_reducible rfl) | exact fun hm => (mask_absurd hp hm rfl).elim | skip)
    | simp (zeta := false) (etaStruct := .none) only [sound_mk] | (extract_lets +onlyGivenNames x; refine sound_have x ?_ ?_; subst x)
    | (extract_lets +onlyGivenNames x; refine sound_fun x ?_; subst x) | (extract_lets +onlyGivenNames x) | split
    | simp (zeta := false) (zetaDelta := true) (etaStruct := .none) only [sound_mk]

theorem latchEvent_sound (hp : ms &&& 0x100802000009 = 0) (c : Nat) (s : State) (hs : s.Sound ms sa) : State.Sound ms (latchEvent c s) sa := by
  unfold latchEvent
  repeat'
    first
    | assumption | (intro _) | with_reducible apply sound_ite | with_reducible apply State.event_sound
    | with_reducible apply addrOutside_ite | with_reducible apply addrOutside2 | with_reducible apply addrOutside1
    | with_reducible apply addrOutside_mod | with_reducible apply addrOutside0 | exact Nat.zero_lt_succ _ | (exact mask_mono hp rfl)
    | ((with_reducible apply sound_parts) <;> first | (intro _; with_reducible rfl) | exact fun hm => (mask_absurd hp hm rfl).elim | skip)
    | simp (zeta := false) (etaStruct := .none) only [sound_mk] | (extract_lets +onlyGivenNames x; refine sound_have x ?_ ?_; subst x)
    | (extract_lets +onlyGivenNames x; refine sound_fun x ?_; subst x) | (extract_lets +onlyGivenNames x) | split
    | simp (zeta := false) (zetaDelta := true) (etaStruct := .none) only [sound_mk]

theorem latchCauses_sound (hp : ms &&& 0x100942000009 = 0) (c new : Nat) (s : State) (hs : s.Sound ms sa) : State.Sound ms (latchCauses c new s) sa := by
  unfold latchCauses
  repeat'
    first
    | assumption | (intro _) | with_reducible apply sound_ite | with_reducible apply State.cause_sound
    | with_reducible apply State.drawBits_sound | with_reducible apply latchEvent_sound | with_reducible apply addrOutside_ite
    | with_reducible apply addrOutside2 | with_reducible apply addrOutside1 | with_reducible apply addrOutside_mod
    | with_reducible apply addrOutside0 | exact Nat.zero_lt_succ _ | (exact mask_mono hp rfl)
    | ((with_reducible apply sound_parts) <;> first | (intro _; with_reducible rfl) | exact fun hm => (mask_absurd hp hm rfl).elim | skip)
    | simp (zeta := false) (etaStruct := .none) only [sound_mk] | (extract_lets +onlyGivenNames x; refine sound_have x ?_ ?_; subst x)
    | (extract_lets +onlyGivenNames x; refine sound_fun x ?_; subst x) | (extract_lets +onlyGivenNames x) | split
    | simp (zeta := false) (zetaDelta := true) (etaStruct := .none) only [sound_mk]

theorem statusReport_sound (hp : ms &&& 0x110942004009 = 0) (s : State) (c : Nat) (hs : s.Sound ms sa) : State.Sound ms (statusReport s c) sa := by
  unfold statusReport
  repeat'
    first
    | assumption | (intro _) | with_reducible apply sound_ite | with_reducible apply State.setGch_sound
    | with_reducible apply State.setGleg_sound | with_reducible apply State.wr_sound | with_reducible apply State.wrBit_sound
    | with_reducible apply latchCauses_sound | with_reducible apply lockoutPartner_sound | with_reducible apply addrOutside_ite
    | with_reducible apply addrOutside2 | with_reducible apply addrOutside1 | with_reducible apply addrOutside_mod
    | with_reducible apply addrOutside0 | exact Nat.zero_lt_succ _ | (exact mask_mono hp rfl)
    | ((with_reducible apply sound_parts) <;> first | (intro _; with_reducible rfl) | exact fun hm => (mask_absurd hp hm rfl).elim | skip)
    | simp (zeta := false) (etaStruct := .none) only [sound_mk] | (extract_lets +onlyGivenNames x; refine sound_have x ?_ ?_; subst x)
    | (extract_lets +onlyGivenNames x; refine sound_fun x ?_; subst x) | (extract_lets +onlyGivenNames x) | split
    | simp (zeta := false) (zetaDelta := true) (etaStruct := .none) only [sound_mk]
    | ((with_reducible apply sound_time) <;> first | (intro _; with_reducible rfl) | exact fun hm => (mask_absurd hp hm rfl).elim | skip)
    | omega | exact Nat.le_trans ‹_ ≤ _› (Nat.le_max_left _ _)

theorem pxgLatch_sound (hp : ms &&& 0x4000 = 0) (s : State) (c bit : Nat) (hs : s.Sound ms sa) : State.Sound ms (pxgLatch s c bit) sa := by
  unfold pxgLatch
  repeat'
    first
    | assumption | (intro _) | with_reducible apply sound_ite | with_reducible apply State.setGch_sound
    | with_reducible apply pxgDiscard_sound | (exact mask_mono hp rfl)
    | ((with_reducible apply sound_parts) <;> first | (intro _; with_reducible rfl) | exact fun hm => (mask_absurd hp hm rfl).elim | skip)
    | simp (zeta := false) (etaStruct := .none) only [sound_mk] | (extract_lets +onlyGivenNames x; refine sound_have x ?_ ?_; subst x)
    | (extract_lets +onlyGivenNames x; refine sound_fun x ?_; subst x) | (extract_lets +onlyGivenNames x) | split
    | simp (zeta := false) (zetaDelta := true) (etaStruct := .none) only [sound_mk]

theorem latchRecord_sound (hp : ms &&& 0x100004000 = 0) (s : State) (c : Nat) (hs : s.Sound ms sa) : State.Sound ms (latchRecord s c) sa := by
  unfold latchRecord
  repeat'
    first
    | assumption | (intro _) | with_reducible apply sound_ite | with_reducible apply State.drawBits_sound
    | with_reducible apply State.telRecord_sound | (exact mask_mono hp rfl)
    | ((with_reducible apply sound_parts) <;> first | (intro _; with_reducible rfl) | exact fun hm => (mask_absurd hp hm rfl).elim | skip)
    | simp (zeta := false) (etaStruct := .none) only [sound_mk] | (extract_lets +onlyGivenNames x; refine sound_have x ?_ ?_; subst x)
    | (extract_lets +onlyGivenNames x; refine sound_fun x ?_; subst x) | (extract_lets +onlyGivenNames x) | split
    | simp (zeta := false) (zetaDelta := true) (etaStruct := .none) only [sound_mk]

theorem offcmd_sound (hp : ms &&& 0x4000 = 0) (c : Nat) (s : State) (hs : s.Sound ms sa) : State.Sound ms (offcmd c s) sa := by
  unfold offcmd
  repeat'
    first
    | assumption | (intro _) | with_reducible apply sound_ite | with_reducible apply State.setGch_sound
    | with_reducible apply pxgLatch_sound | (exact mask_mono hp rfl)
    | ((with_reducible apply sound_parts) <;> first | (intro _; with_reducible rfl) | exact fun hm => (mask_absurd hp hm rfl).elim | skip)
    | simp (zeta := false) (etaStruct := .none) only [sound_mk] | (extract_lets +onlyGivenNames x; refine sound_have x ?_ ?_; subst x)
    | (extract_lets +onlyGivenNames x; refine sound_fun x ?_; subst x) | (extract_lets +onlyGivenNames x) | split
    | simp (zeta := false) (zetaDelta := true) (etaStruct := .none) only [sound_mk]

theorem statusArrives_sound (hp : ms &&& 0x110942004009 = 0) (c : Nat) (ok : Bool) (s : State) (hs : s.Sound ms sa) : State.Sound ms (statusArrives c ok s) sa := by
  unfold statusArrives
  repeat'
    first
    | assumption | (intro _) | with_reducible apply sound_ite | with_reducible apply State.inc_sound
    | with_reducible apply statusReport_sound | with_reducible apply addrOutside_ite | with_reducible apply addrOutside2
    | with_reducible apply addrOutside1 | with_reducible apply addrOutside_mod | with_reducible apply addrOutside0
    | exact Nat.zero_lt_succ _ | (exact mask_mono hp rfl)
    | ((with_reducible apply sound_parts) <;> first | (intro _; with_reducible rfl) | exact fun hm => (mask_absurd hp hm rfl).elim | skip)
    | simp (zeta := false) (etaStruct := .none) only [sound_mk] | (extract_lets +onlyGivenNames x; refine sound_have x ?_ ?_; subst x)
    | (extract_lets +onlyGivenNames x; refine sound_fun x ?_; subst x) | (extract_lets +onlyGivenNames x) | split
    | simp (zeta := false) (zetaDelta := true) (etaStruct := .none) only [sound_mk]

theorem linkLatch_sound (hp : ms &&& 0x110942004009 = 0) (c : Nat) (uplink : Bool) (s : State) (hs : s.Sound ms sa) : State.Sound ms (linkLatch c uplink s) sa := by
  unfold linkLatch
  repeat'
    first
    | assumption | (intro _) | with_reducible apply sound_ite | with_reducible apply State.setGch_sound
    | with_reducible apply pxgLatch_sound | with_reducible apply statusReport_sound | with_reducible apply addrOutside_ite
    | with_reducible apply addrOutside2 | with_reducible apply addrOutside1 | with_reducible apply addrOutside_mod
    | with_reducible apply addrOutside0 | exact Nat.zero_lt_succ _ | (exact mask_mono hp rfl)
    | ((with_reducible apply sound_parts) <;> first | (intro _; with_reducible rfl) | exact fun hm => (mask_absurd hp hm rfl).elim | skip)
    | simp (zeta := false) (etaStruct := .none) only [sound_mk] | (extract_lets +onlyGivenNames x; refine sound_have x ?_ ?_; subst x)
    | (extract_lets +onlyGivenNames x; refine sound_fun x ?_; subst x) | (extract_lets +onlyGivenNames x) | split
    | simp (zeta := false) (zetaDelta := true) (etaStruct := .none) only [sound_mk]

theorem State.configPending_sound (hp : ms &&& 0x10000000001 = 0) (s : State) (c : Nat) (hs : s.Sound ms sa) : State.Sound ms (State.configPending s c) sa := by
  unfold State.configPending
  repeat'
    first
    | assumption | (intro _) | with_reducible apply sound_ite | with_reducible apply State.wr_sound
    | with_reducible apply addrOutside_ite | with_reducible apply addrOutside2 | with_reducible apply addrOutside1
    | with_reducible apply addrOutside_mod | with_reducible apply addrOutside0 | exact Nat.zero_lt_succ _ | (exact mask_mono hp rfl)
    | ((with_reducible apply sound_parts) <;> first | (intro _; with_reducible rfl) | exact fun hm => (mask_absurd hp hm rfl).elim | skip)
    | simp (zeta := false) (etaStruct := .none) only [sound_mk] | (extract_lets +onlyGivenNames x; refine sound_have x ?_ ?_; subst x)
    | (extract_lets +onlyGivenNames x; refine sound_fun x ?_; subst x) | (extract_lets +onlyGivenNames x) | split
    | simp (zeta := false) (zetaDelta := true) (etaStruct := .none) only [sound_mk]

theorem configSend_sound (hp : ms &&& 0x10000004001 = 0) (c : Nat) (x : GdItem) (s : State) (hs : s.Sound ms sa) : State.Sound ms (configSend c x s) sa := by
  unfold configSend
  repeat'
    first
    | assumption | (intro _) | with_reducible apply sound_ite | with_reducible apply State.configPending_sound
    | with_reducible apply State.setGch_sound | with_reducible apply addrOutside_ite | with_reducible apply addrOutside2
    | with_reducible apply addrOutside1 | with_reducible apply addrOutside_mod | with_reducible apply addrOutside0
    | exact Nat.zero_lt_succ _ | (exact mask_mono hp rfl)
    | ((with_reducible apply sound_parts) <;> first | (intro _; with_reducible rfl) | exact fun hm => (mask_absurd hp hm rfl).elim | skip)
    | simp (zeta := false) (etaStruct := .none) only [sound_mk] | (extract_lets +onlyGivenNames x; refine sound_have x ?_ ?_; subst x)
    | (extract_lets +onlyGivenNames x; refine sound_fun x ?_; subst x) | (extract_lets +onlyGivenNames x) | split
    | simp (zeta := false) (zetaDelta := true) (etaStruct := .none) only [sound_mk]

theorem configWrite_sound (hp : ms &&& 0x10000004001 = 0) (c a : Nat) (v : Word) (s : State) (hs : s.Sound ms sa) : State.Sound ms (configWrite c a v s) sa := by
  unfold configWrite
  repeat'
    first
    | assumption | (intro _) | with_reducible apply sound_ite | with_reducible apply configSend_sound
    | with_reducible apply addrOutside_ite | with_reducible apply addrOutside2 | with_reducible apply addrOutside1
    | with_reducible apply addrOutside_mod | with_reducible apply addrOutside0 | exact Nat.zero_lt_succ _ | (exact mask_mono hp rfl)
    | ((with_reducible apply sound_parts) <;> first | (intro _; with_reducible rfl) | exact fun hm => (mask_absurd hp hm rfl).elim | skip)
    | simp (zeta := false) (etaStruct := .none) only [sound_mk] | (extract_lets +onlyGivenNames x; refine sound_have x ?_ ?_; subst x)
    | (extract_lets +onlyGivenNames x; refine sound_fun x ?_; subst x) | (extract_lets +onlyGivenNames x) | split
    | simp (zeta := false) (zetaDelta := true) (etaStruct := .none) only [sound_mk]

theorem glinkConfig_sound (hp : ms &&& 0x10000004001 = 0) (c : Nat) (ok : Bool) (s : State) (hs : s.Sound ms sa) : State.Sound ms (glinkConfig c ok s) sa := by
  unfold glinkConfig
  repeat'
    first
    | assumption | (intro _) | with_reducible apply sound_ite | with_reducible apply State.inc_sound
    | with_reducible apply State.setGch_sound | with_reducible apply addrOutside_ite | with_reducible apply addrOutside2
    | with_reducible apply addrOutside1 | with_reducible apply addrOutside_mod | with_reducible apply addrOutside0
    | exact Nat.zero_lt_succ _ | (exact mask_mono hp rfl)
    | ((with_reducible apply sound_parts) <;> first | (intro _; with_reducible rfl) | exact fun hm => (mask_absurd hp hm rfl).elim | skip)
    | simp (zeta := false) (etaStruct := .none) only [sound_mk] | (extract_lets +onlyGivenNames x; refine sound_have x ?_ ?_; subst x)
    | (extract_lets +onlyGivenNames x; refine sound_fun x ?_; subst x) | (extract_lets +onlyGivenNames x) | split
    | simp (zeta := false) (zetaDelta := true) (etaStruct := .none) only [sound_mk]

theorem ackArrives_sound (hp : ms &&& 0x10000004001 = 0) (c : Nat) (ok : Bool) (s : State) (hs : s.Sound ms sa) : State.Sound ms (ackArrives c ok s) sa := by
  unfold ackArrives
  repeat'
    first
    | assumption | (intro _) | with_reducible apply sound_ite | with_reducible apply State.configPending_sound
    | with_reducible apply State.inc_sound | with_reducible apply State.setGch_sound | with_reducible apply State.setWord_sound
    | with_reducible apply State.wr_sound | with_reducible apply addrOutside_ite | with_reducible apply addrOutside2
    | with_reducible apply addrOutside1 | with_reducible apply addrOutside_mod | with_reducible apply addrOutside0
    | exact Nat.zero_lt_succ _ | (exact mask_mono hp rfl)
    | ((with_reducible apply sound_parts) <;> first | (intro _; with_reducible rfl) | exact fun hm => (mask_absurd hp hm rfl).elim | skip)
    | simp (zeta := false) (etaStruct := .none) only [sound_mk] | (extract_lets +onlyGivenNames x; refine sound_have x ?_ ?_; subst x)
    | (extract_lets +onlyGivenNames x; refine sound_fun x ?_; subst x) | (extract_lets +onlyGivenNames x) | split
    | simp (zeta := false) (zetaDelta := true) (etaStruct := .none) only [sound_mk]

theorem configResend_sound (hp : ms &&& 0x10000004001 = 0) (c : Nat) (s : State) (hs : s.Sound ms sa) : State.Sound ms (configResend c s) sa := by
  unfold configResend
  repeat'
    first
    | assumption | (intro _) | with_reducible apply sound_ite | with_reducible apply State.configPending_sound
    | with_reducible apply State.setGch_sound | with_reducible apply State.wr_sound | with_reducible apply addrOutside_ite
    | with_reducible apply addrOutside2 | with_reducible apply addrOutside1 | with_reducible apply addrOutside_mod
    | with_reducible apply addrOutside0 | exact Nat.zero_lt_succ _ | (exact mask_mono hp rfl)
    | ((with_reducible apply sound_parts) <;> first | (intro _; with_reducible rfl) | exact fun hm => (mask_absurd hp hm rfl).elim | skip)
    | simp (zeta := false) (etaStruct := .none) only [sound_mk] | (extract_lets +onlyGivenNames x; refine sound_have x ?_ ?_; subst x)
    | (extract_lets +onlyGivenNames x; refine sound_fun x ?_; subst x) | (extract_lets +onlyGivenNames x) | split
    | simp (zeta := false) (zetaDelta := true) (etaStruct := .none) only [sound_mk]

theorem gkPermit_sound (hp : ms &&& 0x10000000001 = 0) (s : State) (hs : s.Sound ms sa) : State.Sound ms (gkPermit s) sa := by
  unfold gkPermit
  repeat'
    first
    | assumption | (intro _) | with_reducible apply sound_ite | with_reducible apply State.wr_sound
    | with_reducible apply addrOutside_ite | with_reducible apply addrOutside2 | with_reducible apply addrOutside1
    | with_reducible apply addrOutside_mod | with_reducible apply addrOutside0 | exact Nat.zero_lt_succ _ | (exact mask_mono hp rfl)
    | ((with_reducible apply sound_parts) <;> first | (intro _; with_reducible rfl) | exact fun hm => (mask_absurd hp hm rfl).elim | skip)
    | simp (zeta := false) (etaStruct := .none) only [sound_mk] | (extract_lets +onlyGivenNames x; refine sound_have x ?_ ?_; subst x)
    | (extract_lets +onlyGivenNames x; refine sound_fun x ?_; subst x) | (extract_lets +onlyGivenNames x) | split
    | simp (zeta := false) (zetaDelta := true) (etaStruct := .none) only [sound_mk]

theorem lockIfDue_sound (hp : ms &&& 0x10000004001 = 0) (c : Nat) (s : State) (hs : s.Sound ms sa) : State.Sound ms (lockIfDue c s) sa := by
  unfold lockIfDue
  repeat'
    first
    | assumption | (intro _) | with_reducible apply sound_ite | with_reducible apply State.setGch_sound
    | with_reducible apply gkPermit_sound | with_reducible apply addrOutside_ite | with_reducible apply addrOutside2
    | with_reducible apply addrOutside1 | with_reducible apply addrOutside_mod | with_reducible apply addrOutside0
    | exact Nat.zero_lt_succ _ | (exact mask_mono hp rfl)
    | ((with_reducible apply sound_parts) <;> first | (intro _; with_reducible rfl) | exact fun hm => (mask_absurd hp hm rfl).elim | skip)
    | simp (zeta := false) (etaStruct := .none) only [sound_mk] | (extract_lets +onlyGivenNames x; refine sound_have x ?_ ?_; subst x)
    | (extract_lets +onlyGivenNames x; refine sound_fun x ?_; subst x) | (extract_lets +onlyGivenNames x) | split
    | simp (zeta := false) (zetaDelta := true) (etaStruct := .none) only [sound_mk]

theorem linkAlive_sound (hp : ms &&& 0x200004001 = 0) (c : Nat) (s : State) (hs : s.Sound ms sa) : State.Sound ms (linkAlive c s) sa := by
  unfold linkAlive
  repeat'
    first
    | assumption | (intro _) | with_reducible apply sound_ite | with_reducible apply State.setGch_sound
    | with_reducible apply State.wrBit_sound | with_reducible apply addrOutside_ite | with_reducible apply addrOutside2
    | with_reducible apply addrOutside1 | with_reducible apply addrOutside_mod | with_reducible apply addrOutside0
    | exact Nat.zero_lt_succ _ | (exact mask_mono hp rfl)
    | ((with_reducible apply sound_parts) <;> first | (intro _; with_reducible rfl) | exact fun hm => (mask_absurd hp hm rfl).elim | skip)
    | simp (zeta := false) (etaStruct := .none) only [sound_mk] | (extract_lets +onlyGivenNames x; refine sound_have x ?_ ?_; subst x)
    | (extract_lets +onlyGivenNames x; refine sound_fun x ?_; subst x) | (extract_lets +onlyGivenNames x) | split
    | simp (zeta := false) (zetaDelta := true) (etaStruct := .none) only [sound_mk]

theorem syncStep_sound (hp : ms &&& 0x10000004001 = 0) (c flight : Nat) (s : State) (hs : s.Sound ms sa) : State.Sound ms (syncStep c flight s) sa := by
  unfold syncStep
  repeat'
    first
    | assumption | (intro _) | with_reducible apply sound_ite | with_reducible apply State.setGch_sound
    | with_reducible apply gkPermit_sound | with_reducible apply pxgDiscard_sound | with_reducible apply addrOutside_ite
    | with_reducible apply addrOutside2 | with_reducible apply addrOutside1 | with_reducible apply addrOutside_mod
    | with_reducible apply addrOutside0 | exact Nat.zero_lt_succ _ | (exact mask_mono hp rfl)
    | ((with_reducible apply sound_parts) <;> first | (intro _; with_reducible rfl) | exact fun hm => (mask_absurd hp hm rfl).elim | skip)
    | simp (zeta := false) (etaStruct := .none) only [sound_mk] | (extract_lets +onlyGivenNames x; refine sound_have x ?_ ?_; subst x)
    | (extract_lets +onlyGivenNames x; refine sound_fun x ?_; subst x) | (extract_lets +onlyGivenNames x) | split
    | simp (zeta := false) (zetaDelta := true) (etaStruct := .none) only [sound_mk]

theorem glinkSync_sound (hp : ms &&& 0x10200004001 = 0) (c : Nat) (ok : Bool) (drift : Int) (taken flight : Nat) (s : State) (hs : s.Sound ms sa) : State.Sound ms (glinkSync c ok drift taken flight s) sa := by
  unfold glinkSync
  repeat'
    first
    | assumption | (intro _) | with_reducible apply sound_ite | with_reducible apply State.inc_sound
    | with_reducible apply State.setGch_sound | with_reducible apply State.wr_sound | with_reducible apply linkAlive_sound
    | with_reducible apply lockIfDue_sound | with_reducible apply pxgLatch_sound | with_reducible apply syncStep_sound
    | with_reducible apply addrOutside_ite | with_reducible apply addrOutside2 | with_reducible apply addrOutside1
    | with_reducible apply addrOutside_mod | with_reducible apply addrOutside0 | exact Nat.zero_lt_succ _ | (exact mask_mono hp rfl)
    | ((with_reducible apply sound_parts) <;> first | (intro _; with_reducible rfl) | exact fun hm => (mask_absurd hp hm rfl).elim | skip)
    | simp (zeta := false) (etaStruct := .none) only [sound_mk] | (extract_lets +onlyGivenNames x; refine sound_have x ?_ ?_; subst x)
    | (extract_lets +onlyGivenNames x; refine sound_fun x ?_; subst x) | (extract_lets +onlyGivenNames x) | split
    | simp (zeta := false) (zetaDelta := true) (etaStruct := .none) only [sound_mk]
    | ((with_reducible apply sound_time) <;> first | (intro _; with_reducible rfl) | exact fun hm => (mask_absurd hp hm rfl).elim | skip)
    | omega | exact Nat.le_trans ‹_ ≤ _› (Nat.le_max_left _ _)

theorem glinkLoop_sound (hp : ms &&& 0x10200004001 = 0) (c : Nat) (tag : Option Byte) (roundTrip : Nat) (s : State) (hs : s.Sound ms sa) : State.Sound ms (glinkLoop c tag roundTrip s) sa := by
  unfold glinkLoop
  repeat'
    first
    | assumption | (intro _) | with_reducible apply sound_ite | with_reducible apply State.inc_sound
    | with_reducible apply State.setGch_sound | with_reducible apply configSend_sound | with_reducible apply linkAlive_sound
    | with_reducible apply addrOutside_ite | with_reducible apply addrOutside2 | with_reducible apply addrOutside1
    | with_reducible apply addrOutside_mod | with_reducible apply addrOutside0 | exact Nat.zero_lt_succ _ | (exact mask_mono hp rfl)
    | ((with_reducible apply sound_parts) <;> first | (intro _; with_reducible rfl) | exact fun hm => (mask_absurd hp hm rfl).elim | skip)
    | simp (zeta := false) (etaStruct := .none) only [sound_mk] | (extract_lets +onlyGivenNames x; refine sound_have x ?_ ?_; subst x)
    | (extract_lets +onlyGivenNames x; refine sound_fun x ?_; subst x) | (extract_lets +onlyGivenNames x) | split
    | simp (zeta := false) (zetaDelta := true) (etaStruct := .none) only [sound_mk]

theorem stageArrives_sound (hp : ms &&& 0x10000004001 = 0) (c : Nat) (ok : Bool) (s : State) (hs : s.Sound ms sa) : State.Sound ms (stageArrives c ok s) sa := by
  unfold stageArrives
  repeat'
    first
    | assumption | (intro _) | with_reducible apply sound_ite | with_reducible apply State.inc_sound
    | with_reducible apply State.setGch_sound | with_reducible apply addrOutside_ite | with_reducible apply addrOutside2
    | with_reducible apply addrOutside1 | with_reducible apply addrOutside_mod | with_reducible apply addrOutside0
    | exact Nat.zero_lt_succ _ | (exact mask_mono hp rfl)
    | ((with_reducible apply sound_parts) <;> first | (intro _; with_reducible rfl) | exact fun hm => (mask_absurd hp hm rfl).elim | skip)
    | simp (zeta := false) (etaStruct := .none) only [sound_mk] | (extract_lets +onlyGivenNames x; refine sound_have x ?_ ?_; subst x)
    | (extract_lets +onlyGivenNames x; refine sound_fun x ?_; subst x) | (extract_lets +onlyGivenNames x) | split
    | simp (zeta := false) (zetaDelta := true) (etaStruct := .none) only [sound_mk]

theorem countLate_sound (hp : ms &&& 0x8000008001 = 0) (cseq : Nat) (s : State) (hs : s.Sound ms sa) : State.Sound ms (countLate cseq s) sa := by
  unfold countLate
  repeat'
    first
    | assumption | (intro _) | with_reducible apply sound_ite | with_reducible apply State.inc_sound
    | with_reducible apply State.wr_sound | with_reducible apply addrOutside_ite | with_reducible apply addrOutside2
    | with_reducible apply addrOutside1 | with_reducible apply addrOutside_mod | with_reducible apply addrOutside0
    | exact Nat.zero_lt_succ _ | (exact mask_mono hp rfl)
    | ((with_reducible apply sound_parts) <;> first | (intro _; with_reducible rfl) | exact fun hm => (mask_absurd hp hm rfl).elim | skip)
    | simp (zeta := false) (etaStruct := .none) only [sound_mk] | (extract_lets +onlyGivenNames x; refine sound_have x ?_ ?_; subst x)
    | (extract_lets +onlyGivenNames x; refine sound_fun x ?_; subst x) | (extract_lets +onlyGivenNames x) | split
    | simp (zeta := false) (zetaDelta := true) (etaStruct := .none) only [sound_mk]

theorem edgeLateIfDue_sound (hp : ms &&& 0x100842008009 = 0) (s : State) (hs : s.Sound ms sa) : State.Sound ms (edgeLateIfDue s) sa := by
  unfold edgeLateIfDue
  repeat'
    first
    | assumption | (intro _) | with_reducible apply sound_ite | with_reducible apply State.cause_sound
    | with_reducible apply addrOutside_ite | with_reducible apply addrOutside2 | with_reducible apply addrOutside1
    | with_reducible apply addrOutside_mod | with_reducible apply addrOutside0 | exact Nat.zero_lt_succ _ | (exact mask_mono hp rfl)
    | ((with_reducible apply sound_parts) <;> first | (intro _; with_reducible rfl) | exact fun hm => (mask_absurd hp hm rfl).elim | skip)
    | simp (zeta := false) (etaStruct := .none) only [sound_mk] | (extract_lets +onlyGivenNames x; refine sound_have x ?_ ?_; subst x)
    | (extract_lets +onlyGivenNames x; refine sound_fun x ?_; subst x) | (extract_lets +onlyGivenNames x) | split
    | simp (zeta := false) (zetaDelta := true) (etaStruct := .none) only [sound_mk]

theorem dropTurnOn_sound (hp : ms &&& 0x10000004001 = 0) (c : Nat) (delay : Nat) (s : State) (hs : s.Sound ms sa) : State.Sound ms (dropTurnOn c delay s) sa := by
  unfold dropTurnOn
  repeat'
    first
    | assumption | (intro _) | with_reducible apply sound_ite | with_reducible apply State.inc_sound
    | with_reducible apply State.setGch_sound | with_reducible apply State.telRecord_sound | with_reducible apply addrOutside_ite
    | with_reducible apply addrOutside2 | with_reducible apply addrOutside1 | with_reducible apply addrOutside_mod
    | with_reducible apply addrOutside0 | exact Nat.zero_lt_succ _ | (exact mask_mono hp rfl)
    | ((with_reducible apply sound_parts) <;> first | (intro _; with_reducible rfl) | exact fun hm => (mask_absurd hp hm rfl).elim | skip)
    | simp (zeta := false) (etaStruct := .none) only [sound_mk] | (extract_lets +onlyGivenNames x; refine sound_have x ?_ ?_; subst x)
    | (extract_lets +onlyGivenNames x; refine sound_fun x ?_; subst x) | (extract_lets +onlyGivenNames x) | split
    | simp (zeta := false) (zetaDelta := true) (etaStruct := .none) only [sound_mk]

theorem turnOffActs_sound (hp : ms &&& 0x10000004001 = 0) (c : Nat) (s : State) (hs : s.Sound ms sa) : State.Sound ms (turnOffActs c s) sa := by
  unfold turnOffActs
  repeat'
    first
    | assumption | (intro _) | with_reducible apply sound_ite | with_reducible apply State.setGch_sound
    | with_reducible apply dropTurnOn_sound | with_reducible apply addrOutside_ite | with_reducible apply addrOutside2
    | with_reducible apply addrOutside1 | with_reducible apply addrOutside_mod | with_reducible apply addrOutside0
    | exact Nat.zero_lt_succ _ | (exact mask_mono hp rfl)
    | ((with_reducible apply sound_parts) <;> first | (intro _; with_reducible rfl) | exact fun hm => (mask_absurd hp hm rfl).elim | skip)
    | simp (zeta := false) (etaStruct := .none) only [sound_mk] | (extract_lets +onlyGivenNames x; refine sound_have x ?_ ?_; subst x)
    | (extract_lets +onlyGivenNames x; refine sound_fun x ?_; subst x) | (extract_lets +onlyGivenNames x) | split
    | simp (zeta := false) (zetaDelta := true) (etaStruct := .none) only [sound_mk]
    | ((with_reducible apply sound_time) <;> first | (intro _; with_reducible rfl) | exact fun hm => (mask_absurd hp hm rfl).elim | skip)
    | omega | exact Nat.le_trans ‹_ ≤ _› (Nat.le_max_left _ _)

theorem lateEdge_sound (hp : ms &&& 0x1800000C001 = 0) (c : Nat) (b : EdgeBlock) (i : Nat) (w : Word) (s : State) (hs : s.Sound ms sa) : State.Sound ms (lateEdge c b i w s) sa := by
  unfold lateEdge
  repeat'
    first
    | assumption | (intro _) | with_reducible apply sound_ite | with_reducible apply State.telRecord_sound
    | with_reducible apply countLate_sound | with_reducible apply turnOffActs_sound | with_reducible apply addrOutside_ite
    | with_reducible apply addrOutside2 | with_reducible apply addrOutside1 | with_reducible apply addrOutside_mod
    | with_reducible apply addrOutside0 | exact Nat.zero_lt_succ _ | (exact mask_mono hp rfl)
    | ((with_reducible apply sound_parts) <;> first | (intro _; with_reducible rfl) | exact fun hm => (mask_absurd hp hm rfl).elim | skip)
    | simp (zeta := false) (etaStruct := .none) only [sound_mk] | (extract_lets +onlyGivenNames x; refine sound_have x ?_ ?_; subst x)
    | (extract_lets +onlyGivenNames x; refine sound_fun x ?_; subst x) | (extract_lets +onlyGivenNames x) | split
    | simp (zeta := false) (zetaDelta := true) (etaStruct := .none) only [sound_mk]
    | ((with_reducible apply sound_time) <;> first | (intro _; with_reducible rfl) | exact fun hm => (mask_absurd hp hm rfl).elim | skip)
    | omega | exact Nat.le_trans ‹_ ≤ _› (Nat.le_max_left _ _)

theorem armEdges_sound (hp : ms &&& 0x1800000C001 = 0) (c : Nat) (b : EdgeBlock) (s : State) (i : Nat) (ws : List Word) (hs : s.Sound ms sa) :
    (armEdges c b s i ws).2.Sound ms sa := by
  induction ws generalizing s i with
  | nil => exact hs
  | cons w ws ih =>
    unfold armEdges
    exact ih _ _ (sound_ite (lateEdge_sound (mask_mono hp rfl) c b i w s hs) hs)

theorem armBlock_sound (hp : ms &&& 0x11884200C009 = 0) (c : Nat) (b : EdgeBlock) (s : State) (hs : s.Sound ms sa) : State.Sound ms (armBlock c b s) sa := by
  unfold armBlock
  repeat'
    first
    | assumption | (intro _) | with_reducible apply sound_ite | with_reducible apply State.setGch_sound
    | with_reducible apply armEdges_sound | with_reducible apply edgeLateIfDue_sound | with_reducible apply addrOutside_ite
    | with_reducible apply addrOutside2 | with_reducible apply addrOutside1 | with_reducible apply addrOutside_mod
    | with_reducible apply addrOutside0 | exact Nat.zero_lt_succ _ | (exact mask_mono hp rfl)
    | ((with_reducible apply sound_parts) <;> first | (intro _; with_reducible rfl) | exact fun hm => (mask_absurd hp hm rfl).elim | skip)
    | simp (zeta := false) (etaStruct := .none) only [sound_mk] | (extract_lets +onlyGivenNames x; refine sound_have x ?_ ?_; subst x)
    | (extract_lets +onlyGivenNames x; refine sound_fun x ?_; subst x) | (extract_lets +onlyGivenNames x) | split
    | simp (zeta := false) (zetaDelta := true) (etaStruct := .none) only [sound_mk]

theorem missBlock_sound (hp : ms &&& 0x4000 = 0) (c cseq cstart : Nat) (s : State) (hs : s.Sound ms sa) : State.Sound ms (missBlock c cseq cstart s) sa := by
  unfold missBlock
  repeat'
    first
    | assumption | (intro _) | with_reducible apply sound_ite | with_reducible apply State.setGch_sound | (exact mask_mono hp rfl)
    | ((with_reducible apply sound_parts) <;> first | (intro _; with_reducible rfl) | exact fun hm => (mask_absurd hp hm rfl).elim | skip)
    | simp (zeta := false) (etaStruct := .none) only [sound_mk] | (extract_lets +onlyGivenNames x; refine sound_have x ?_ ?_; subst x)
    | (extract_lets +onlyGivenNames x; refine sound_fun x ?_; subst x) | (extract_lets +onlyGivenNames x) | split
    | simp (zeta := false) (zetaDelta := true) (etaStruct := .none) only [sound_mk]

theorem missReport_sound (hp : ms &&& 0x10884200C009 = 0) (c cseq : Nat) (s : State) (hs : s.Sound ms sa) : State.Sound ms (missReport c cseq s) sa := by
  unfold missReport
  repeat'
    first
    | assumption | (intro _) | with_reducible apply sound_ite | with_reducible apply State.telRecord_sound
    | with_reducible apply countLate_sound | with_reducible apply edgeLateIfDue_sound | with_reducible apply addrOutside_ite
    | with_reducible apply addrOutside2 | with_reducible apply addrOutside1 | with_reducible apply addrOutside_mod
    | with_reducible apply addrOutside0 | exact Nat.zero_lt_succ _ | (exact mask_mono hp rfl)
    | ((with_reducible apply sound_parts) <;> first | (intro _; with_reducible rfl) | exact fun hm => (mask_absurd hp hm rfl).elim | skip)
    | simp (zeta := false) (etaStruct := .none) only [sound_mk] | (extract_lets +onlyGivenNames x; refine sound_have x ?_ ?_; subst x)
    | (extract_lets +onlyGivenNames x; refine sound_fun x ?_; subst x) | (extract_lets +onlyGivenNames x) | split
    | simp (zeta := false) (zetaDelta := true) (etaStruct := .none) only [sound_mk]

theorem commitTake_sound (hp : ms &&& 0x11884200C009 = 0) (c : Nat) (v : Verdict) (cseq : Nat) (s : State) (hs : s.Sound ms sa) : State.Sound ms (commitTake c v cseq s) sa := by
  unfold commitTake
  repeat'
    first
    | assumption | (intro _) | with_reducible apply sound_ite | with_reducible apply State.setGch_sound
    | with_reducible apply armBlock_sound | with_reducible apply missBlock_sound | with_reducible apply addrOutside_ite
    | with_reducible apply addrOutside2 | with_reducible apply addrOutside1 | with_reducible apply addrOutside_mod
    | with_reducible apply addrOutside0 | exact Nat.zero_lt_succ _ | (exact mask_mono hp rfl)
    | ((with_reducible apply sound_parts) <;> first | (intro _; with_reducible rfl) | exact fun hm => (mask_absurd hp hm rfl).elim | skip)
    | simp (zeta := false) (etaStruct := .none) only [sound_mk] | (extract_lets +onlyGivenNames x; refine sound_have x ?_ ?_; subst x)
    | (extract_lets +onlyGivenNames x; refine sound_fun x ?_; subst x) | (extract_lets +onlyGivenNames x) | split
    | simp (zeta := false) (zetaDelta := true) (etaStruct := .none) only [sound_mk]

theorem commitArrives_sound (hp : ms &&& 0x11894200C029 = 0) (c : Nat) (ok : Bool) (s : State) (hs : s.Sound ms sa) : State.Sound ms (commitArrives c ok s) sa := by
  unfold commitArrives
  repeat'
    first
    | assumption | (intro _) | with_reducible apply sound_ite | with_reducible apply State.inc_sound
    | with_reducible apply State.setGch_sound | with_reducible apply commitTake_sound | with_reducible apply latchRecord_sound
    | with_reducible apply missBlock_sound | with_reducible apply pxgLatch_sound | with_reducible apply addrOutside_ite
    | with_reducible apply addrOutside2 | with_reducible apply addrOutside1 | with_reducible apply addrOutside_mod
    | with_reducible apply addrOutside0 | exact Nat.zero_lt_succ _ | (exact mask_mono hp rfl)
    | ((with_reducible apply sound_parts) <;> first | (intro _; with_reducible rfl) | exact fun hm => (mask_absurd hp hm rfl).elim | skip)
    | simp (zeta := false) (etaStruct := .none) only [sound_mk] | (extract_lets +onlyGivenNames x; refine sound_have x ?_ ?_; subst x)
    | (extract_lets +onlyGivenNames x; refine sound_fun x ?_; subst x) | (extract_lets +onlyGivenNames x) | split
    | simp (zeta := false) (zetaDelta := true) (etaStruct := .none) only [sound_mk]
    | ((with_reducible apply sound_time) <;> first | (intro _; with_reducible rfl) | exact fun hm => (mask_absurd hp hm rfl).elim | skip)
    | omega | exact Nat.le_trans ‹_ ≤ _› (Nat.le_max_left _ _)

theorem turnOn_sound (hp : ms &&& 0x4000 = 0) (c : Nat) (s : State) (hs : s.Sound ms sa) : State.Sound ms (turnOn c s) sa := by
  unfold turnOn
  repeat'
    first
    | assumption | (intro _) | with_reducible apply sound_ite | with_reducible apply State.setGch_sound | (exact mask_mono hp rfl)
    | ((with_reducible apply sound_parts) <;> first | (intro _; with_reducible rfl) | exact fun hm => (mask_absurd hp hm rfl).elim | skip)
    | simp (zeta := false) (etaStruct := .none) only [sound_mk] | (extract_lets +onlyGivenNames x; refine sound_have x ?_ ?_; subst x)
    | (extract_lets +onlyGivenNames x; refine sound_fun x ?_; subst x) | (extract_lets +onlyGivenNames x) | split
    | simp (zeta := false) (zetaDelta := true) (etaStruct := .none) only [sound_mk]
    | ((with_reducible apply sound_time) <;> first | (intro _; with_reducible rfl) | exact fun hm => (mask_absurd hp hm rfl).elim | skip)
    | omega | exact Nat.le_trans ‹_ ≤ _› (Nat.le_max_left _ _)

theorem delayedOn_sound (hp : ms &&& 0x10000004001 = 0) (c : Nat) (delay : Nat) (s : State) (hs : s.Sound ms sa) : State.Sound ms (delayedOn c delay s) sa := by
  unfold delayedOn
  repeat'
    first
    | assumption | (intro _) | with_reducible apply sound_ite | with_reducible apply State.inc_sound
    | with_reducible apply State.telRecord_sound | with_reducible apply dropTurnOn_sound | with_reducible apply turnOn_sound
    | with_reducible apply addrOutside_ite | with_reducible apply addrOutside2 | with_reducible apply addrOutside1
    | with_reducible apply addrOutside_mod | with_reducible apply addrOutside0 | exact Nat.zero_lt_succ _ | (exact mask_mono hp rfl)
    | ((with_reducible apply sound_parts) <;> first | (intro _; with_reducible rfl) | exact fun hm => (mask_absurd hp hm rfl).elim | skip)
    | simp (zeta := false) (etaStruct := .none) only [sound_mk] | (extract_lets +onlyGivenNames x; refine sound_have x ?_ ?_; subst x)
    | (extract_lets +onlyGivenNames x; refine sound_fun x ?_; subst x) | (extract_lets +onlyGivenNames x) | split
    | simp (zeta := false) (zetaDelta := true) (etaStruct := .none) only [sound_mk]

theorem edgeActs_sound (hp : ms &&& 0x11884200C009 = 0) (c : Nat) (b : EdgeBlock) (idx : Nat) (w : Word) (s : State) (hs : s.Sound ms sa) : State.Sound ms (edgeActs c b idx w s) sa := by
  unfold edgeActs
  repeat'
    first
    | assumption | (intro _) | with_reducible apply sound_ite | with_reducible apply State.setGch_sound
    | with_reducible apply missReport_sound | with_reducible apply turnOffActs_sound | with_reducible apply turnOn_sound
    | with_reducible apply addrOutside_ite | with_reducible apply addrOutside2 | with_reducible apply addrOutside1
    | with_reducible apply addrOutside_mod | with_reducible apply addrOutside0 | exact Nat.zero_lt_succ _ | (exact mask_mono hp rfl)
    | ((with_reducible apply sound_parts) <;> first | (intro _; with_reducible rfl) | exact fun hm => (mask_absurd hp hm rfl).elim | skip)
    | simp (zeta := false) (etaStruct := .none) only [sound_mk] | (extract_lets +onlyGivenNames x; refine sound_have x ?_ ?_; subst x)
    | (extract_lets +onlyGivenNames x; refine sound_fun x ?_; subst x) | (extract_lets +onlyGivenNames x) | split
    | simp (zeta := false) (zetaDelta := true) (etaStruct := .none) only [sound_mk]
    | ((with_reducible apply sound_time) <;> first | (intro _; with_reducible rfl) | exact fun hm => (mask_absurd hp hm rfl).elim | skip)
    | omega | exact Nat.le_trans ‹_ ≤ _› (Nat.le_max_left _ _)

theorem ascOn_sound (hp : ms &&& 0x4000 = 0) (c : Nat) (s : State) (hs : s.Sound ms sa) : State.Sound ms (ascOn c s) sa := by
  unfold ascOn
  repeat'
    first
    | assumption | (intro _) | with_reducible apply sound_ite | with_reducible apply State.setGch_sound
    | with_reducible apply turnOn_sound | (exact mask_mono hp rfl)
    | ((with_reducible apply sound_parts) <;> first | (intro _; with_reducible rfl) | exact fun hm => (mask_absurd hp hm rfl).elim | skip)
    | simp (zeta := false) (etaStruct := .none) only [sound_mk] | (extract_lets +onlyGivenNames x; refine sound_have x ?_ ?_; subst x)
    | (extract_lets +onlyGivenNames x; refine sound_fun x ?_; subst x) | (extract_lets +onlyGivenNames x) | split
    | simp (zeta := false) (zetaDelta := true) (etaStruct := .none) only [sound_mk]
    | ((with_reducible apply sound_time) <;> first | (intro _; with_reducible rfl) | exact fun hm => (mask_absurd hp hm rfl).elim | skip)
    | omega | exact Nat.le_trans ‹_ ≤ _› (Nat.le_max_left _ _)

theorem ascAct_sound (hp : ms &&& 0x4000 = 0) (s : State) (hs : s.Sound ms sa) : State.Sound ms (ascAct s) sa :=
  sound_foldl _ (sound_foldl _ hs (fun s c h => sendOff_sound (mask_mono hp rfl) false s c h)) (fun s c h => ascOn_sound (mask_mono hp rfl) c s h)

theorem armedEdgeActs_go_sound (hp : ms &&& 0x11884200C029 = 0) (c n : Nat) (s : State) (hs : s.Sound ms sa) : (armedEdgeActs.go c n s).Sound ms sa := by
  induction n generalizing s with
  | zero => exact hs
  | succ n ih =>
    unfold armedEdgeActs.go
    repeat'
      first
      | assumption | apply ih | with_reducible apply sound_ite | with_reducible apply edgeActs_sound (mask_mono hp rfl) | with_reducible apply State.setGch_sound (mask_mono hp rfl)
      | ((with_reducible apply sound_parts) <;> first | (intro _; with_reducible rfl) | exact fun hm => (mask_absurd hp hm rfl).elim | skip)
      | ((with_reducible apply sound_time) <;> first | (intro _; with_reducible rfl) | exact fun hm => (mask_absurd hp hm rfl).elim | skip)
      | simp (zeta := false) (etaStruct := .none) only [sound_mk]
      | (extract_lets +onlyGivenNames x; refine sound_have x ?_ ?_; subst x) | (intro _) | (extract_lets +onlyGivenNames x) | split
      | exact Nat.le_trans ‹_ ≤ _› (Nat.le_max_left _ _)

theorem armedEdgeActs_sound (hp : ms &&& 0x11884200C029 = 0) (c : Nat) (s : State) (hs : s.Sound ms sa) : (armedEdgeActs c s).Sound ms sa :=
  armedEdgeActs_go_sound (mask_mono hp rfl) c _ s hs

theorem turnOnDropIfDue_sound (hp : ms &&& 0x10000004001 = 0) (c : Nat) (s : State) (hs : s.Sound ms sa) : State.Sound ms (turnOnDropIfDue c s) sa := by
  unfold turnOnDropIfDue
  repeat'
    first
    | assumption | (intro _) | with_reducible apply sound_ite | with_reducible apply dropTurnOn_sound
    | with_reducible apply addrOutside_ite | with_reducible apply addrOutside2 | with_reducible apply addrOutside1
    | with_reducible apply addrOutside_mod | with_reducible apply addrOutside0 | exact Nat.zero_lt_succ _ | (exact mask_mono hp rfl)
    | ((with_reducible apply sound_parts) <;> first | (intro _; with_reducible rfl) | exact fun hm => (mask_absurd hp hm rfl).elim | skip)
    | simp (zeta := false) (etaStruct := .none) only [sound_mk] | (extract_lets +onlyGivenNames x; refine sound_have x ?_ ?_; subst x)
    | (extract_lets +onlyGivenNames x; refine sound_fun x ?_; subst x) | (extract_lets +onlyGivenNames x) | split
    | simp (zeta := false) (zetaDelta := true) (etaStruct := .none) only [sound_mk]
    | ((with_reducible apply sound_time) <;> first | (intro _; with_reducible rfl) | exact fun hm => (mask_absurd hp hm rfl).elim | skip)
    | omega | exact Nat.le_trans ‹_ ≤ _› (Nat.le_max_left _ _)

theorem permitReaches_sound (hp : ms &&& 0x10000004021 = 0) (c : Nat) (s : State) (hs : s.Sound ms sa) : State.Sound ms (permitReaches c s) sa := by
  unfold permitReaches
  repeat'
    first
    | assumption | (intro _) | with_reducible apply sound_ite | with_reducible apply delayedOn_sound | with_reducible apply turnOn_sound
    | with_reducible apply addrOutside_ite | with_reducible apply addrOutside2 | with_reducible apply addrOutside1
    | with_reducible apply addrOutside_mod | with_reducible apply addrOutside0 | exact Nat.zero_lt_succ _ | (exact mask_mono hp rfl)
    | ((with_reducible apply sound_parts) <;> first | (intro _; with_reducible rfl) | exact fun hm => (mask_absurd hp hm rfl).elim | skip)
    | simp (zeta := false) (etaStruct := .none) only [sound_mk] | (extract_lets +onlyGivenNames x; refine sound_have x ?_ ?_; subst x)
    | (extract_lets +onlyGivenNames x; refine sound_fun x ?_; subst x) | (extract_lets +onlyGivenNames x) | split
    | simp (zeta := false) (zetaDelta := true) (etaStruct := .none) only [sound_mk]
    | ((with_reducible apply sound_time) <;> first | (intro _; with_reducible rfl) | exact fun hm => (mask_absurd hp hm rfl).elim | skip)
    | omega | exact Nat.le_trans ‹_ ≤ _› (Nat.le_max_left _ _)

theorem permitRaise_sound (hp : ms &&& 0x10000004021 = 0) (c : Nat) (s : State) (hs : s.Sound ms sa) : State.Sound ms (permitRaise c s) sa := by
  unfold permitRaise
  repeat'
    first
    | assumption | (intro _) | with_reducible apply sound_ite | with_reducible apply State.setGch_sound
    | with_reducible apply State.wr_sound | with_reducible apply gkPermit_sound | with_reducible apply permitReaches_sound
    | with_reducible apply addrOutside_ite | with_reducible apply addrOutside2 | with_reducible apply addrOutside1
    | with_reducible apply addrOutside_mod | with_reducible apply addrOutside0 | exact Nat.zero_lt_succ _ | (exact mask_mono hp rfl)
    | ((with_reducible apply sound_parts) <;> first | (intro _; with_reducible rfl) | exact fun hm => (mask_absurd hp hm rfl).elim | skip)
    | simp (zeta := false) (etaStruct := .none) only [sound_mk] | (extract_lets +onlyGivenNames x; refine sound_have x ?_ ?_; subst x)
    | (extract_lets +onlyGivenNames x; refine sound_fun x ?_; subst x) | (extract_lets +onlyGivenNames x) | split
    | simp (zeta := false) (zetaDelta := true) (etaStruct := .none) only [sound_mk]
    | ((with_reducible apply sound_time) <;> first | (intro _; with_reducible rfl) | exact fun hm => (mask_absurd hp hm rfl).elim | skip)
    | omega | exact Nat.le_trans ‹_ ≤ _› (Nat.le_max_left _ _)

theorem permitDrop_sound (hp : ms &&& 0x10000004001 = 0) (c : Nat) (s : State) (hs : s.Sound ms sa) : State.Sound ms (permitDrop c s) sa := by
  unfold permitDrop
  repeat'
    first
    | assumption | (intro _) | with_reducible apply sound_ite | with_reducible apply State.setGch_sound
    | with_reducible apply State.wr_sound | with_reducible apply addrOutside_ite | with_reducible apply addrOutside2
    | with_reducible apply addrOutside1 | with_reducible apply addrOutside_mod | with_reducible apply addrOutside0
    | exact Nat.zero_lt_succ _ | (exact mask_mono hp rfl)
    | ((with_reducible apply sound_parts) <;> first | (intro _; with_reducible rfl) | exact fun hm => (mask_absurd hp hm rfl).elim | skip)
    | simp (zeta := false) (etaStruct := .none) only [sound_mk] | (extract_lets +onlyGivenNames x; refine sound_have x ?_ ?_; subst x)
    | (extract_lets +onlyGivenNames x; refine sound_fun x ?_; subst x) | (extract_lets +onlyGivenNames x) | split
    | simp (zeta := false) (zetaDelta := true) (etaStruct := .none) only [sound_mk]
    | ((with_reducible apply sound_time) <;> first | (intro _; with_reducible rfl) | exact fun hm => (mask_absurd hp hm rfl).elim | skip)
    | omega | exact Nat.le_trans ‹_ ≤ _› (Nat.le_max_left _ _)

theorem gateLevel_sound (hp : ms &&& 0x10000004001 = 0) (c : Nat) (f : Fld) (level : Bool) (isCmd : Bool) (s : State) (hw0 : AddrOutside ms f.addr) (hs : s.Sound ms sa) : State.Sound ms (gateLevel c f level isCmd s) sa := by
  unfold gateLevel
  repeat'
    first
    | assumption | (intro _) | with_reducible apply sound_ite | with_reducible apply State.setGch_sound
    | with_reducible apply State.wr_sound | with_reducible apply permitDrop_sound | with_reducible apply addrOutside_ite
    | with_reducible apply addrOutside2 | with_reducible apply addrOutside1 | with_reducible apply addrOutside_mod
    | with_reducible apply addrOutside0 | exact Nat.zero_lt_succ _ | (exact mask_mono hp rfl)
    | ((with_reducible apply sound_parts) <;> first | (intro _; with_reducible rfl) | exact fun hm => (mask_absurd hp hm rfl).elim | skip)
    | simp (zeta := false) (etaStruct := .none) only [sound_mk] | (extract_lets +onlyGivenNames x; refine sound_have x ?_ ?_; subst x)
    | (extract_lets +onlyGivenNames x; refine sound_fun x ?_; subst x) | (extract_lets +onlyGivenNames x) | split
    | simp (zeta := false) (zetaDelta := true) (etaStruct := .none) only [sound_mk]
    | ((with_reducible apply sound_time) <;> first | (intro _; with_reducible rfl) | exact fun hm => (mask_absurd hp hm rfl).elim | skip)
    | omega | exact Nat.le_trans ‹_ ≤ _› (Nat.le_max_left _ _)

theorem oncmd_sound (hp : ms &&& 0x10000004001 = 0) (c : Nat) (s : State) (hs : s.Sound ms sa) : State.Sound ms (oncmd c s) sa := by
  unfold oncmd
  repeat'
    first
    | assumption | (intro _) | with_reducible apply sound_ite | with_reducible apply gateLevel_sound
    | with_reducible apply addrOutside_ite | with_reducible apply addrOutside2 | with_reducible apply addrOutside1
    | with_reducible apply addrOutside_mod | with_reducible apply addrOutside0 | exact Nat.zero_lt_succ _ | (exact mask_mono hp rfl)
    | ((with_reducible apply sound_parts) <;> first | (intro _; with_reducible rfl) | exact fun hm => (mask_absurd hp hm rfl).elim | skip)
    | simp (zeta := false) (etaStruct := .none) only [sound_mk] | (extract_lets +onlyGivenNames x; refine sound_have x ?_ ?_; subst x)
    | (extract_lets +onlyGivenNames x; refine sound_fun x ?_; subst x) | (extract_lets +onlyGivenNames x) | split
    | simp (zeta := false) (zetaDelta := true) (etaStruct := .none) only [sound_mk]

theorem vgeon_sound (hp : ms &&& 0x10000004001 = 0) (c : Nat) (level : Bool) (s : State) (hs : s.Sound ms sa) : State.Sound ms (vgeon c level s) sa := by
  unfold vgeon
  repeat'
    first
    | assumption | (intro _) | with_reducible apply sound_ite | with_reducible apply State.setGch_sound
    | with_reducible apply gateLevel_sound | with_reducible apply addrOutside_ite | with_reducible apply addrOutside2
    | with_reducible apply addrOutside1 | with_reducible apply addrOutside_mod | with_reducible apply addrOutside0
    | exact Nat.zero_lt_succ _ | (exact mask_mono hp rfl)
    | ((with_reducible apply sound_parts) <;> first | (intro _; with_reducible rfl) | exact fun hm => (mask_absurd hp hm rfl).elim | skip)
    | simp (zeta := false) (etaStruct := .none) only [sound_mk] | (extract_lets +onlyGivenNames x; refine sound_have x ?_ ?_; subst x)
    | (extract_lets +onlyGivenNames x; refine sound_fun x ?_; subst x) | (extract_lets +onlyGivenNames x) | split
    | simp (zeta := false) (zetaDelta := true) (etaStruct := .none) only [sound_mk]

theorem shootAttempt_sound (hp : ms &&& 0x4000 = 0) (l : Nat) (s : State) (hs : s.Sound ms sa) : State.Sound ms (shootAttempt l s) sa := by
  unfold shootAttempt
  repeat'
    first
    | assumption | (intro _) | with_reducible apply sound_ite | with_reducible apply sendOff_sound | (exact mask_mono hp rfl)
    | ((with_reducible apply sound_parts) <;> first | (intro _; with_reducible rfl) | exact fun hm => (mask_absurd hp hm rfl).elim | skip)
    | simp (zeta := false) (etaStruct := .none) only [sound_mk] | (extract_lets +onlyGivenNames x; refine sound_have x ?_ ?_; subst x)
    | (extract_lets +onlyGivenNames x; refine sound_fun x ?_; subst x) | (extract_lets +onlyGivenNames x) | split
    | simp (zeta := false) (zetaDelta := true) (etaStruct := .none) only [sound_mk]

theorem desat_sound (hp : ms &&& 0x100004000 = 0) (c : Nat) (s : State) (hs : s.Sound ms sa) : State.Sound ms (desat c s) sa := by
  unfold desat
  repeat'
    first
    | assumption | (intro _) | with_reducible apply sound_ite | with_reducible apply State.setGch_sound
    | with_reducible apply latchRecord_sound | with_reducible apply pxgLatch_sound | (exact mask_mono hp rfl)
    | ((with_reducible apply sound_parts) <;> first | (intro _; with_reducible rfl) | exact fun hm => (mask_absurd hp hm rfl).elim | skip)
    | simp (zeta := false) (etaStruct := .none) only [sound_mk] | (extract_lets +onlyGivenNames x; refine sound_have x ?_ ?_; subst x)
    | (extract_lets +onlyGivenNames x; refine sound_fun x ?_; subst x) | (extract_lets +onlyGivenNames x) | split
    | simp (zeta := false) (zetaDelta := true) (etaStruct := .none) only [sound_mk]
    | ((with_reducible apply sound_time) <;> first | (intro _; with_reducible rfl) | exact fun hm => (mask_absurd hp hm rfl).elim | skip)
    | omega | exact Nat.le_trans ‹_ ≤ _› (Nat.le_max_left _ _)

theorem uvlo_sound (hp : ms &&& 0x4000 = 0) (c : Nat) (negative trip : Bool) (s : State) (hs : s.Sound ms sa) : State.Sound ms (uvlo c negative trip s) sa := by
  unfold uvlo
  repeat'
    first
    | assumption | (intro _) | with_reducible apply sound_ite | with_reducible apply State.setGch_sound
    | with_reducible apply pxgLatch_sound | (exact mask_mono hp rfl)
    | ((with_reducible apply sound_parts) <;> first | (intro _; with_reducible rfl) | exact fun hm => (mask_absurd hp hm rfl).elim | skip)
    | simp (zeta := false) (etaStruct := .none) only [sound_mk] | (extract_lets +onlyGivenNames x; refine sound_have x ?_ ?_; subst x)
    | (extract_lets +onlyGivenNames x; refine sound_fun x ?_; subst x) | (extract_lets +onlyGivenNames x) | split
    | simp (zeta := false) (zetaDelta := true) (etaStruct := .none) only [sound_mk]

theorem bswarn_sound (hp : ms &&& 0x4000 = 0) (l : Nat) (level : Bool) (s : State) (hs : s.Sound ms sa) : State.Sound ms (bswarn l level s) sa := by
  unfold bswarn
  repeat'
    first
    | assumption | (intro _) | with_reducible apply sound_ite | with_reducible apply State.setGleg_sound | (exact mask_mono hp rfl)
    | ((with_reducible apply sound_parts) <;> first | (intro _; with_reducible rfl) | exact fun hm => (mask_absurd hp hm rfl).elim | skip)
    | simp (zeta := false) (etaStruct := .none) only [sound_mk] | (extract_lets +onlyGivenNames x; refine sound_have x ?_ ?_; subst x)
    | (extract_lets +onlyGivenNames x; refine sound_fun x ?_; subst x) | (extract_lets +onlyGivenNames x) | split
    | simp (zeta := false) (zetaDelta := true) (etaStruct := .none) only [sound_mk]

theorem refreshEdges_sound (hp : ms &&& 0x4000 = 0) (c cstart : Nat) (es : List Word) (s : State) (hs : s.Sound ms sa) : State.Sound ms (refreshEdges c cstart es s) sa := by
  unfold refreshEdges
  repeat'
    first
    | assumption | (intro _) | with_reducible apply sound_ite | with_reducible apply State.setGch_sound | (exact mask_mono hp rfl)
    | ((with_reducible apply sound_parts) <;> first | (intro _; with_reducible rfl) | exact fun hm => (mask_absurd hp hm rfl).elim | skip)
    | simp (zeta := false) (etaStruct := .none) only [sound_mk] | (extract_lets +onlyGivenNames x; refine sound_have x ?_ ?_; subst x)
    | (extract_lets +onlyGivenNames x; refine sound_fun x ?_; subst x) | (extract_lets +onlyGivenNames x) | split
    | simp (zeta := false) (zetaDelta := true) (etaStruct := .none) only [sound_mk]

theorem refreshInsert_sound (hp : ms &&& 0x10080004001 = 0) (l : Nat) (highOk lowOk : Bool) (s : State) (hs : s.Sound ms sa) : State.Sound ms (refreshInsert l highOk lowOk s) sa := by
  unfold refreshInsert
  repeat'
    first
    | assumption | (intro _) | with_reducible apply sound_ite | with_reducible apply State.inc_sound
    | with_reducible apply State.setGleg_sound | with_reducible apply refreshEdges_sound | with_reducible apply addrOutside_ite
    | with_reducible apply addrOutside2 | with_reducible apply addrOutside1 | with_reducible apply addrOutside_mod
    | with_reducible apply addrOutside0 | exact Nat.zero_lt_succ _ | (exact mask_mono hp rfl)
    | ((with_reducible apply sound_parts) <;> first | (intro _; with_reducible rfl) | exact fun hm => (mask_absurd hp hm rfl).elim | skip)
    | simp (zeta := false) (etaStruct := .none) only [sound_mk] | (extract_lets +onlyGivenNames x; refine sound_have x ?_ ?_; subst x)
    | (extract_lets +onlyGivenNames x; refine sound_fun x ?_; subst x) | (extract_lets +onlyGivenNames x) | split
    | simp (zeta := false) (zetaDelta := true) (etaStruct := .none) only [sound_mk]
    | ((with_reducible apply sound_time) <;> first | (intro _; with_reducible rfl) | exact fun hm => (mask_absurd hp hm rfl).elim | skip)
    | omega | exact Nat.le_trans ‹_ ≤ _› (Nat.le_max_left _ _)

theorem refreshComplete_sound (hp : ms &&& 0x10000004001 = 0) (l : Nat) (s : State) (hs : s.Sound ms sa) : State.Sound ms (refreshComplete l s) sa := by
  unfold refreshComplete
  repeat'
    first
    | assumption | (intro _) | with_reducible apply sound_ite | with_reducible apply State.inc_sound
    | with_reducible apply State.setGleg_sound | with_reducible apply State.telRecord_sound | with_reducible apply addrOutside_ite
    | with_reducible apply addrOutside2 | with_reducible apply addrOutside1 | with_reducible apply addrOutside_mod
    | with_reducible apply addrOutside0 | exact Nat.zero_lt_succ _ | (exact mask_mono hp rfl)
    | ((with_reducible apply sound_parts) <;> first | (intro _; with_reducible rfl) | exact fun hm => (mask_absurd hp hm rfl).elim | skip)
    | simp (zeta := false) (etaStruct := .none) only [sound_mk] | (extract_lets +onlyGivenNames x; refine sound_have x ?_ ?_; subst x)
    | (extract_lets +onlyGivenNames x; refine sound_fun x ?_; subst x) | (extract_lets +onlyGivenNames x) | split
    | simp (zeta := false) (zetaDelta := true) (etaStruct := .none) only [sound_mk]

theorem prechargeDoneIfDue_sound (hp : ms &&& 0x20012040004001 = 0) (s : State) (hs : s.Sound ms sa) : State.Sound ms (prechargeDoneIfDue s) sa := by
  unfold prechargeDoneIfDue
  repeat'
    first
    | assumption | (intro _) | with_reducible apply sound_ite | with_reducible apply State.reqDone_sound
    | with_reducible apply State.wr_sound | with_reducible apply addrOutside_ite | with_reducible apply addrOutside2
    | with_reducible apply addrOutside1 | with_reducible apply addrOutside_mod | with_reducible apply addrOutside0
    | exact Nat.zero_lt_succ _ | (exact mask_mono hp rfl)
    | ((with_reducible apply sound_parts) <;> first | (intro _; with_reducible rfl) | exact fun hm => (mask_absurd hp hm rfl).elim | skip)
    | simp (zeta := false) (etaStruct := .none) only [sound_mk] | (extract_lets +onlyGivenNames x; refine sound_have x ?_ ?_; subst x)
    | (extract_lets +onlyGivenNames x; refine sound_fun x ?_; subst x) | (extract_lets +onlyGivenNames x) | split
    | simp (zeta := false) (zetaDelta := true) (etaStruct := .none) only [sound_mk]

theorem prechargeTimeoutIfDue_sound (hp : ms &&& 0x2010A842004009 = 0) (s : State) (hs : s.Sound ms sa) : State.Sound ms (prechargeTimeoutIfDue s) sa := by
  unfold prechargeTimeoutIfDue
  repeat'
    first
    | assumption | (intro _) | with_reducible apply sound_ite | with_reducible apply State.driveEvent_sound
    | with_reducible apply State.gateRefresh_sound | with_reducible apply State.reqDone_sound | with_reducible apply State.wr_sound
    | with_reducible apply addrOutside_ite | with_reducible apply addrOutside2 | with_reducible apply addrOutside1
    | with_reducible apply addrOutside_mod | with_reducible apply addrOutside0 | exact Nat.zero_lt_succ _ | (exact mask_mono hp rfl)
    | ((with_reducible apply sound_parts) <;> first | (intro _; with_reducible rfl) | exact fun hm => (mask_absurd hp hm rfl).elim | skip)
    | simp (zeta := false) (etaStruct := .none) only [sound_mk] | (extract_lets +onlyGivenNames x; refine sound_have x ?_ ?_; subst x)
    | (extract_lets +onlyGivenNames x; refine sound_fun x ?_; subst x) | (extract_lets +onlyGivenNames x) | split
    | simp (zeta := false) (zetaDelta := true) (etaStruct := .none) only [sound_mk]
    | ((with_reducible apply sound_time) <;> first | (intro _; with_reducible rfl) | exact fun hm => (mask_absurd hp hm rfl).elim | skip)
    | omega | exact Nat.le_trans ‹_ ≤ _› (Nat.le_max_left _ _)

theorem gateEnLow_sound (hp : ms &&& 0x4000 = 0) (c : Nat) (s : State) (hs : s.Sound ms sa) : State.Sound ms (gateEnLow c s) sa := by
  unfold gateEnLow
  repeat'
    first
    | assumption | (intro _) | with_reducible apply sound_ite | with_reducible apply State.setGch_sound
    | with_reducible apply pxgDiscard_sound | (exact mask_mono hp rfl)
    | ((with_reducible apply sound_parts) <;> first | (intro _; with_reducible rfl) | exact fun hm => (mask_absurd hp hm rfl).elim | skip)
    | simp (zeta := false) (etaStruct := .none) only [sound_mk] | (extract_lets +onlyGivenNames x; refine sound_have x ?_ ?_; subst x)
    | (extract_lets +onlyGivenNames x; refine sound_fun x ?_; subst x) | (extract_lets +onlyGivenNames x) | split
    | simp (zeta := false) (zetaDelta := true) (etaStruct := .none) only [sound_mk]
    | ((with_reducible apply sound_time) <;> first | (intro _; with_reducible rfl) | exact fun hm => (mask_absurd hp hm rfl).elim | skip)
    | omega | exact Nat.le_trans ‹_ ≤ _› (Nat.le_max_left _ _)

theorem gateEnRise_sound (hp : ms &&& 0x10000004001 = 0) (c : Nat) (s : State) (hs : s.Sound ms sa) : State.Sound ms (gateEnRise c s) sa := by
  unfold gateEnRise
  repeat'
    first
    | assumption | (intro _) | with_reducible apply sound_ite | with_reducible apply State.setGch_sound
    | with_reducible apply State.wr_sound | with_reducible apply addrOutside_ite | with_reducible apply addrOutside2
    | with_reducible apply addrOutside1 | with_reducible apply addrOutside_mod | with_reducible apply addrOutside0
    | exact Nat.zero_lt_succ _ | (exact mask_mono hp rfl)
    | ((with_reducible apply sound_parts) <;> first | (intro _; with_reducible rfl) | exact fun hm => (mask_absurd hp hm rfl).elim | skip)
    | simp (zeta := false) (etaStruct := .none) only [sound_mk] | (extract_lets +onlyGivenNames x; refine sound_have x ?_ ?_; subst x)
    | (extract_lets +onlyGivenNames x; refine sound_fun x ?_; subst x) | (extract_lets +onlyGivenNames x) | split
    | simp (zeta := false) (zetaDelta := true) (etaStruct := .none) only [sound_mk]
    | ((with_reducible apply sound_time) <;> first | (intro _; with_reducible rfl) | exact fun hm => (mask_absurd hp hm rfl).elim | skip)
    | omega | exact Nat.le_trans ‹_ ≤ _› (Nat.le_max_left _ _)

theorem diagGo_sound (hp : ms &&& 0x10000004001 = 0) (s : State) (hs : s.Sound ms sa) : State.Sound ms (diagGo s) sa := by
  unfold diagGo
  repeat'
    first
    | assumption | (intro _) | with_reducible apply sound_ite | with_reducible apply State.setWord_sound
    | with_reducible apply State.wr_sound | with_reducible apply addrOutside_ite | with_reducible apply addrOutside2
    | with_reducible apply addrOutside1 | with_reducible apply addrOutside_mod | with_reducible apply addrOutside0
    | exact Nat.zero_lt_succ _ | (exact mask_mono hp rfl)
    | ((with_reducible apply sound_parts) <;> first | (intro _; with_reducible rfl) | exact fun hm => (mask_absurd hp hm rfl).elim | skip)
    | simp (zeta := false) (etaStruct := .none) only [sound_mk] | (extract_lets +onlyGivenNames x; refine sound_have x ?_ ?_; subst x)
    | (extract_lets +onlyGivenNames x; refine sound_fun x ?_; subst x) | (extract_lets +onlyGivenNames x) | split
    | simp (zeta := false) (zetaDelta := true) (etaStruct := .none) only [sound_mk]
    | ((with_reducible apply sound_time) <;> first | (intro _; with_reducible rfl) | exact fun hm => (mask_absurd hp hm rfl).elim | skip)
    | omega | exact Nat.le_trans ‹_ ≤ _› (Nat.le_max_left _ _)

theorem diagEnd_sound (hp : ms &&& 0x110842004009 = 0) (d : GdDiag) (s : State) (hs : s.Sound ms sa) : State.Sound ms (diagEnd d s) sa := by
  unfold diagEnd
  repeat'
    first
    | assumption | (intro _) | with_reducible apply sound_ite | with_reducible apply State.cause_sound
    | with_reducible apply State.wr_sound | with_reducible apply addrOutside_ite | with_reducible apply addrOutside2
    | with_reducible apply addrOutside1 | with_reducible apply addrOutside_mod | with_reducible apply addrOutside0
    | exact Nat.zero_lt_succ _ | (exact mask_mono hp rfl)
    | ((with_reducible apply sound_parts) <;> first | (intro _; with_reducible rfl) | exact fun hm => (mask_absurd hp hm rfl).elim | skip)
    | simp (zeta := false) (etaStruct := .none) only [sound_mk] | (extract_lets +onlyGivenNames x; refine sound_have x ?_ ?_; subst x)
    | (extract_lets +onlyGivenNames x; refine sound_fun x ?_; subst x) | (extract_lets +onlyGivenNames x) | split
    | simp (zeta := false) (zetaDelta := true) (etaStruct := .none) only [sound_mk]

theorem diagResult_sound (hp : ms &&& 0x10000004001 = 0) (c : Nat) (mv : Nat) (frame : DiagFrame) (s : State) (hs : s.Sound ms sa) : State.Sound ms (diagResult c mv frame s) sa := by
  unfold diagResult
  repeat'
    first
    | assumption | (intro _) | with_reducible apply sound_ite | with_reducible apply State.inc_sound
    | with_reducible apply State.telRecord_sound | with_reducible apply addrOutside_ite | with_reducible apply addrOutside2
    | with_reducible apply addrOutside1 | with_reducible apply addrOutside_mod | with_reducible apply addrOutside0
    | exact Nat.zero_lt_succ _ | (exact mask_mono hp rfl)
    | ((with_reducible apply sound_parts) <;> first | (intro _; with_reducible rfl) | exact fun hm => (mask_absurd hp hm rfl).elim | skip)
    | simp (zeta := false) (etaStruct := .none) only [sound_mk] | (extract_lets +onlyGivenNames x; refine sound_have x ?_ ?_; subst x)
    | (extract_lets +onlyGivenNames x; refine sound_fun x ?_; subst x) | (extract_lets +onlyGivenNames x) | split
    | simp (zeta := false) (zetaDelta := true) (etaStruct := .none) only [sound_mk]

theorem diagStep_sound (hp : ms &&& 0x110842004009 = 0) (s : State) (hs : s.Sound ms sa) : State.Sound ms (diagStep s) sa := by
  unfold diagStep
  repeat'
    first
    | assumption | (intro _) | with_reducible apply sound_ite | with_reducible apply diagEnd_sound
    | with_reducible apply addrOutside_ite | with_reducible apply addrOutside2 | with_reducible apply addrOutside1
    | with_reducible apply addrOutside_mod | with_reducible apply addrOutside0 | exact Nat.zero_lt_succ _ | (exact mask_mono hp rfl)
    | ((with_reducible apply sound_parts) <;> first | (intro _; with_reducible rfl) | exact fun hm => (mask_absurd hp hm rfl).elim | skip)
    | simp (zeta := false) (etaStruct := .none) only [sound_mk] | (extract_lets +onlyGivenNames x; refine sound_have x ?_ ?_; subst x)
    | (extract_lets +onlyGivenNames x; refine sound_fun x ?_; subst x) | (extract_lets +onlyGivenNames x) | split
    | simp (zeta := false) (zetaDelta := true) (etaStruct := .none) only [sound_mk]
    | ((with_reducible apply sound_time) <;> first | (intro _; with_reducible rfl) | exact fun hm => (mask_absurd hp hm rfl).elim | skip)
    | omega | exact Nat.le_trans ‹_ ≤ _› (Nat.le_max_left _ _)

end Sys2Proof.Machine
end

