-- ==== Sys2Proof/Laws/SoundLanes.lean ====
section
/-! SUPPORT. The operations of Machine/Lanes.lean keep a state sound. -/

set_option Elab.async false

namespace Sys2Proof.Machine

variable {ms : Nat} {sa : State}

theorem bankPut_sound (hp : ms &&& 0x20000000000081 = 0) (b : Bool) (off : Nat) (w : Word) (s : State) (hs : s.Sound ms sa) : State.Sound ms (bankPut b off w s) sa := by
  unfold bankPut
  repeat'
    first
    | assumption | (intro _) | with_reducible apply sound_ite | with_reducible apply State.setBankWord_sound
    | with_reducible apply addrOutside_ite | with_reducible apply addrOutside2 | with_reducible apply addrOutside1
    | with_reducible apply addrOutside_mod | with_reducible apply addrOutside0 | exact Nat.zero_lt_succ _ | (exact mask_mono hp rfl)
    | ((with_reducible apply sound_parts) <;> first | (intro _; with_reducible rfl) | exact fun hm => (mask_absurd hp hm rfl).elim | skip)
    | simp (zeta := false) (etaStruct := .none) only [sound_mk] | (extract_lets +onlyGivenNames x; refine sound_have x ?_ ?_; subst x)
    | (extract_lets +onlyGivenNames x; refine sound_fun x ?_; subst x) | (extract_lets +onlyGivenNames x) | split
    | simp (zeta := false) (zetaDelta := true) (etaStruct := .none) only [sound_mk]

theorem bankItem_sound (hp : ms &&& 0x20000000000081 = 0) (b : Bool) (item : List Byte) (s : State) (hs : s.Sound ms sa) : State.Sound ms (bankItem b item s) sa := by
  unfold bankItem
  repeat'
    first
    | assumption | (intro _) | with_reducible apply sound_ite | with_reducible apply bankPut_sound
    | with_reducible apply addrOutside_ite | with_reducible apply addrOutside2 | with_reducible apply addrOutside1
    | with_reducible apply addrOutside_mod | with_reducible apply addrOutside0 | exact Nat.zero_lt_succ _
    | with_reducible apply sound_foldl | with_reducible apply sound_foldl_snd | (exact mask_mono hp rfl)
    | ((with_reducible apply sound_parts) <;> first | (intro _; with_reducible rfl) | exact fun hm => (mask_absurd hp hm rfl).elim | skip)
    | simp (zeta := false) (etaStruct := .none) only [sound_mk] | (extract_lets +onlyGivenNames x; refine sound_have x ?_ ?_; subst x)
    | (extract_lets +onlyGivenNames x; refine sound_fun x ?_; subst x) | (extract_lets +onlyGivenNames x) | split
    | simp (zeta := false) (zetaDelta := true) (etaStruct := .none) only [sound_mk]

theorem drainParams_sound (hp : ms &&& 0x20000000000089 = 0) (q : Nat) (b : Bool) (s : State) (hs : s.Sound ms sa) : State.Sound ms (drainParams q b s) sa := by
  unfold drainParams
  repeat'
    first
    | assumption | (intro _) | with_reducible apply sound_ite | with_reducible apply State.qDrain_sound
    | with_reducible apply bankItem_sound | with_reducible apply addrOutside_ite | with_reducible apply addrOutside2
    | with_reducible apply addrOutside1 | with_reducible apply addrOutside_mod | with_reducible apply addrOutside0
    | exact Nat.zero_lt_succ _ | with_reducible apply sound_foldl | with_reducible apply sound_foldl_snd | (exact mask_mono hp rfl)
    | ((with_reducible apply sound_parts) <;> first | (intro _; with_reducible rfl) | exact fun hm => (mask_absurd hp hm rfl).elim | skip)
    | simp (zeta := false) (etaStruct := .none) only [sound_mk] | (extract_lets +onlyGivenNames x; refine sound_have x ?_ ?_; subst x)
    | (extract_lets +onlyGivenNames x; refine sound_fun x ?_; subst x) | (extract_lets +onlyGivenNames x) | split
    | simp (zeta := false) (zetaDelta := true) (etaStruct := .none) only [sound_mk]

theorem drainImmediate_sound (hp : ms &&& 0x20000000000089 = 0) (s : State) (hs : s.Sound ms sa) : State.Sound ms (drainImmediate s) sa := by
  unfold drainImmediate
  repeat'
    first
    | assumption | (intro _) | with_reducible apply sound_ite | with_reducible apply drainParams_sound
    | with_reducible apply addrOutside_ite | with_reducible apply addrOutside2 | with_reducible apply addrOutside1
    | with_reducible apply addrOutside_mod | with_reducible apply addrOutside0 | exact Nat.zero_lt_succ _ | (exact mask_mono hp rfl)
    | ((with_reducible apply sound_parts) <;> first | (intro _; with_reducible rfl) | exact fun hm => (mask_absurd hp hm rfl).elim | skip)
    | simp (zeta := false) (etaStruct := .none) only [sound_mk] | (extract_lets +onlyGivenNames x; refine sound_have x ?_ ?_; subst x)
    | (extract_lets +onlyGivenNames x; refine sound_fun x ?_; subst x) | (extract_lets +onlyGivenNames x) | split
    | simp (zeta := false) (zetaDelta := true) (etaStruct := .none) only [sound_mk]

theorem drainStaging_sound (hp : ms &&& 0x20000000000089 = 0) (s : State) (hs : s.Sound ms sa) : State.Sound ms (drainStaging s) sa := by
  unfold drainStaging
  repeat'
    first
    | assumption | (intro _) | with_reducible apply sound_ite | with_reducible apply drainParams_sound
    | with_reducible apply addrOutside_ite | with_reducible apply addrOutside2 | with_reducible apply addrOutside1
    | with_reducible apply addrOutside_mod | with_reducible apply addrOutside0 | exact Nat.zero_lt_succ _ | (exact mask_mono hp rfl)
    | ((with_reducible apply sound_parts) <;> first | (intro _; with_reducible rfl) | exact fun hm => (mask_absurd hp hm rfl).elim | skip)
    | simp (zeta := false) (etaStruct := .none) only [sound_mk] | (extract_lets +onlyGivenNames x; refine sound_have x ?_ ?_; subst x)
    | (extract_lets +onlyGivenNames x; refine sound_fun x ?_; subst x) | (extract_lets +onlyGivenNames x) | split
    | simp (zeta := false) (zetaDelta := true) (etaStruct := .none) only [sound_mk]

theorem State.setTask_sound (hp : ms &&& 0x80 = 0) (s : State) (code : Nat) (f : TaskState → TaskState) (hs : s.Sound ms sa) : State.Sound ms (State.setTask s code f) sa := by
  unfold State.setTask
  repeat'
    first
    | assumption | (intro _) | with_reducible apply sound_ite | (exact mask_mono hp rfl)
    | ((with_reducible apply sound_parts) <;> first | (intro _; with_reducible rfl) | exact fun hm => (mask_absurd hp hm rfl).elim | skip)
    | simp (zeta := false) (etaStruct := .none) only [sound_mk] | (extract_lets +onlyGivenNames x; refine sound_have x ?_ ?_; subst x)
    | (extract_lets +onlyGivenNames x; refine sound_fun x ?_; subst x) | (extract_lets +onlyGivenNames x) | split
    | simp (zeta := false) (zetaDelta := true) (etaStruct := .none) only [sound_mk]

end Sys2Proof.Machine
end

