-- ==== Sys2Proof/Laws/SoundCurfld.lean ====
section
/-! SUPPORT. The operations of Machine/Curfld.lean keep a state sound. -/

set_option Elab.async false

namespace Sys2Proof.Machine

variable {ms : Nat} {sa : State}

theorem isumIfDue_sound (hp : ms &&& 0x100842000609 = 0) (s : State) (hs : s.Sound ms sa) : State.Sound ms (isumIfDue s) sa := by
  unfold isumIfDue
  repeat'
    first
    | assumption | (intro _) | with_reducible apply sound_ite | with_reducible apply State.cause_sound
    | with_reducible apply addrOutside_ite | with_reducible apply addrOutside2 | with_reducible apply addrOutside1
    | with_reducible apply addrOutside_mod | with_reducible apply addrOutside0 | exact Nat.zero_lt_succ _ | (exact mask_mono hp rfl)
    | ((with_reducible apply sound_parts) <;> first | (intro _; with_reducible rfl) | exact fun hm => (mask_absurd hp hm rfl).elim | skip)
    | simp (zeta := false) (etaStruct := .none) only [sound_mk] | (extract_lets +onlyGivenNames x; refine sound_have x ?_ ?_; subst x)
    | (extract_lets +onlyGivenNames x; refine sound_fun x ?_; subst x) | (extract_lets +onlyGivenNames x) | split
    | simp (zeta := false) (zetaDelta := true) (etaStruct := .none) only [sound_mk]

theorem cfPost_sound (hp : ms &&& 0xC600 = 0) (s : State) (hs : s.Sound ms sa) : State.Sound ms (cfPost s) sa := by
  unfold cfPost
  repeat'
    first
    | assumption | (intro _) | with_reducible apply sound_ite | (exact mask_mono hp rfl)
    | ((with_reducible apply sound_parts) <;> first | (intro _; with_reducible rfl) | exact fun hm => (mask_absurd hp hm rfl).elim | skip)
    | simp (zeta := false) (etaStruct := .none) only [sound_mk] | (extract_lets +onlyGivenNames x; refine sound_have x ?_ ?_; subst x)
    | (extract_lets +onlyGivenNames x; refine sound_fun x ?_; subst x) | (extract_lets +onlyGivenNames x) | split
    | simp (zeta := false) (zetaDelta := true) (etaStruct := .none) only [sound_mk]

theorem cfKeep_sound (hp : ms &&& 0x4400 = 0) (s : State) (hs : s.Sound ms sa) : State.Sound ms (cfKeep s) sa := by
  unfold cfKeep
  repeat'
    first
    | assumption | (intro _) | with_reducible apply sound_ite | (exact mask_mono hp rfl)
    | ((with_reducible apply sound_parts) <;> first | (intro _; with_reducible rfl) | exact fun hm => (mask_absurd hp hm rfl).elim | skip)
    | simp (zeta := false) (etaStruct := .none) only [sound_mk] | (extract_lets +onlyGivenNames x; refine sound_have x ?_ ?_; subst x)
    | (extract_lets +onlyGivenNames x; refine sound_fun x ?_; subst x) | (extract_lets +onlyGivenNames x) | split
    | simp (zeta := false) (zetaDelta := true) (etaStruct := .none) only [sound_mk]

theorem cfRest_sound (hp : ms &&& 0x4600 = 0) (s : State) (hs : s.Sound ms sa) : State.Sound ms (cfRest s) sa := by
  unfold cfRest
  repeat'
    first
    | assumption | (intro _) | with_reducible apply sound_ite | with_reducible apply cfKeep_sound | (exact mask_mono hp rfl)
    | ((with_reducible apply sound_parts) <;> first | (intro _; with_reducible rfl) | exact fun hm => (mask_absurd hp hm rfl).elim | skip)
    | simp (zeta := false) (etaStruct := .none) only [sound_mk] | (extract_lets +onlyGivenNames x; refine sound_have x ?_ ?_; subst x)
    | (extract_lets +onlyGivenNames x; refine sound_fun x ?_; subst x) | (extract_lets +onlyGivenNames x) | split
    | simp (zeta := false) (zetaDelta := true) (etaStruct := .none) only [sound_mk]

end Sys2Proof.Machine
end

