-- ==== Sys2Proof/Laws/SoundOuter.lean ====
section
/-! SUPPORT. The operations of Machine/Outer.lean keep a state sound. -/

set_option Elab.async false

namespace Sys2Proof.Machine

variable {ms : Nat} {sa : State}

theorem setpointBad_sound (hp : ms &&& 0x100802000009 = 0) (r : List Byte) (s : State) (hs : s.Sound ms sa) : State.Sound ms (setpointBad r s) sa := by
  unfold setpointBad
  repeat'
    first
    | assumption | (intro _) | with_reducible apply sound_ite | with_reducible apply State.event_sound
    | with_reducible apply addrOutside_ite | with_reducible apply addrOutside2 | with_reducible apply addrOutside1
    | with_reducible apply addrOutside_mod | with_reducible apply addrOutside0 | exact Nat.zero_lt_succ _ | (exact mask_mono hp rfl)
    | ((with_reducible apply sound_parts) <;> first | (intro _; with_reducible rfl) | exact fun hm => (mask_absurd hp hm rfl).elim | skip)
    | simp (zeta := false) (etaStruct := .none) only [sound_mk] | (extract_lets +onlyGivenNames x; refine sound_have x ?_ ?_; subst x)
    | (extract_lets +onlyGivenNames x; refine sound_fun x ?_; subst x) | (extract_lets +onlyGivenNames x) | split
    | simp (zeta := false) (zetaDelta := true) (etaStruct := .none) only [sound_mk]

theorem heaveSample_sound (hp : ms &&& 0x800 = 0) (r : List Byte) (s : State) (hs : s.Sound ms sa) : State.Sound ms (heaveSample r s) sa := by
  unfold heaveSample
  repeat'
    first
    | assumption | (intro _) | with_reducible apply sound_ite | (exact mask_mono hp rfl)
    | ((with_reducible apply sound_parts) <;> first | (intro _; with_reducible rfl) | exact fun hm => (mask_absurd hp hm rfl).elim | skip)
    | simp (zeta := false) (etaStruct := .none) only [sound_mk] | (extract_lets +onlyGivenNames x; refine sound_have x ?_ ?_; subst x)
    | (extract_lets +onlyGivenNames x; refine sound_fun x ?_; subst x) | (extract_lets +onlyGivenNames x) | split
    | simp (zeta := false) (zetaDelta := true) (etaStruct := .none) only [sound_mk]

theorem applyRecord_sound (hp : ms &&& 0x800 = 0) (kind : Nat) (r : List Byte) (s : State) (hs : s.Sound ms sa) : State.Sound ms (applyRecord kind r s) sa := by
  unfold applyRecord
  repeat'
    first
    | assumption | (intro _) | with_reducible apply sound_ite | (exact mask_mono hp rfl)
    | ((with_reducible apply sound_parts) <;> first | (intro _; with_reducible rfl) | exact fun hm => (mask_absurd hp hm rfl).elim | skip)
    | simp (zeta := false) (etaStruct := .none) only [sound_mk] | (extract_lets +onlyGivenNames x; refine sound_have x ?_ ?_; subst x)
    | (extract_lets +onlyGivenNames x; refine sound_fun x ?_; subst x) | (extract_lets +onlyGivenNames x) | split
    | simp (zeta := false) (zetaDelta := true) (etaStruct := .none) only [sound_mk]

theorem setpointApply_sound (hp : ms &&& 0x800 = 0) (s : State) (hs : s.Sound ms sa) : State.Sound ms (setpointApply s) sa := by
  unfold setpointApply
  repeat'
    first
    | assumption | (intro _) | with_reducible apply sound_ite | with_reducible apply applyRecord_sound
    | with_reducible apply sound_foldl | with_reducible apply sound_foldl_snd | (exact mask_mono hp rfl)
    | ((with_reducible apply sound_parts) <;> first | (intro _; with_reducible rfl) | exact fun hm => (mask_absurd hp hm rfl).elim | skip)
    | simp (zeta := false) (etaStruct := .none) only [sound_mk] | (extract_lets +onlyGivenNames x; refine sound_have x ?_ ?_; subst x)
    | (extract_lets +onlyGivenNames x; refine sound_fun x ?_; subst x) | (extract_lets +onlyGivenNames x) | split
    | simp (zeta := false) (zetaDelta := true) (etaStruct := .none) only [sound_mk]

theorem takeRecord_sound (hp : ms &&& 0x100802000809 = 0) (r : List Byte) (s : State) (hs : s.Sound ms sa) : State.Sound ms (takeRecord r s) sa := by
  unfold takeRecord
  repeat'
    first
    | assumption | (intro _) | with_reducible apply sound_ite | with_reducible apply heaveSample_sound
    | with_reducible apply setpointApply_sound | with_reducible apply setpointBad_sound | with_reducible apply addrOutside_ite
    | with_reducible apply addrOutside2 | with_reducible apply addrOutside1 | with_reducible apply addrOutside_mod
    | with_reducible apply addrOutside0 | exact Nat.zero_lt_succ _ | (exact mask_mono hp rfl)
    | ((with_reducible apply sound_parts) <;> first | (intro _; with_reducible rfl) | exact fun hm => (mask_absurd hp hm rfl).elim | skip)
    | simp (zeta := false) (etaStruct := .none) only [sound_mk] | (extract_lets +onlyGivenNames x; refine sound_have x ?_ ?_; subst x)
    | (extract_lets +onlyGivenNames x; refine sound_fun x ?_; subst x) | (extract_lets +onlyGivenNames x) | split
    | simp (zeta := false) (zetaDelta := true) (etaStruct := .none) only [sound_mk]

theorem takeRecords_sound (hp : ms &&& 0x100802000809 = 0) (n : Nat) (s : State) (hs : s.Sound ms sa) : (takeRecords n s).Sound ms sa := by
  induction n generalizing s with
  | zero => exact hs
  | succ n ih =>
    unfold takeRecords
    have hq := State.qPop_sound (mask_mono hp rfl) s 50 hs
    split
    · exact hs
    · extract_lets r
      apply ih
      split
      · exact takeRecord_sound (mask_mono hp rfl) _ _ hq
      · exact hq

theorem takeLevers_sound (hp : ms &&& 0x800000809 = 0) (n : Nat) (s : State) (hs : s.Sound ms sa) : (takeLevers n s).Sound ms sa := by
  induction n generalizing s with
  | zero => exact hs
  | succ n ih =>
    unfold takeLevers
    have hq := State.qPop_sound (mask_mono hp rfl) s 51 hs
    split
    · exact hs
    · extract_lets r
      apply ih
      split
      · exact (sound_upd hq (fun p hm => by cases p <;> first | exact (mask_absurd hp hm rfl).elim | rfl))
      · exact hq

theorem leverStaleIfDue_sound (hp : ms &&& 0x100802000809 = 0) (s : State) (hs : s.Sound ms sa) : State.Sound ms (leverStaleIfDue s) sa := by
  unfold leverStaleIfDue
  repeat'
    first
    | assumption | (intro _) | with_reducible apply sound_ite | with_reducible apply State.event_sound
    | with_reducible apply addrOutside_ite | with_reducible apply addrOutside2 | with_reducible apply addrOutside1
    | with_reducible apply addrOutside_mod | with_reducible apply addrOutside0 | exact Nat.zero_lt_succ _ | (exact mask_mono hp rfl)
    | ((with_reducible apply sound_parts) <;> first | (intro _; with_reducible rfl) | exact fun hm => (mask_absurd hp hm rfl).elim | skip)
    | simp (zeta := false) (etaStruct := .none) only [sound_mk] | (extract_lets +onlyGivenNames x; refine sound_have x ?_ ?_; subst x)
    | (extract_lets +onlyGivenNames x; refine sound_fun x ?_; subst x) | (extract_lets +onlyGivenNames x) | split
    | simp (zeta := false) (zetaDelta := true) (etaStruct := .none) only [sound_mk]

theorem tensionSrcIfDue_sound (hp : ms &&& 0x100802000809 = 0) (s : State) (hs : s.Sound ms sa) : State.Sound ms (tensionSrcIfDue s) sa := by
  unfold tensionSrcIfDue
  repeat'
    first
    | assumption | (intro _) | with_reducible apply sound_ite | with_reducible apply State.event_sound
    | with_reducible apply addrOutside_ite | with_reducible apply addrOutside2 | with_reducible apply addrOutside1
    | with_reducible apply addrOutside_mod | with_reducible apply addrOutside0 | exact Nat.zero_lt_succ _ | (exact mask_mono hp rfl)
    | ((with_reducible apply sound_parts) <;> first | (intro _; with_reducible rfl) | exact fun hm => (mask_absurd hp hm rfl).elim | skip)
    | simp (zeta := false) (etaStruct := .none) only [sound_mk] | (extract_lets +onlyGivenNames x; refine sound_have x ?_ ?_; subst x)
    | (extract_lets +onlyGivenNames x; refine sound_fun x ?_; subst x) | (extract_lets +onlyGivenNames x) | split
    | simp (zeta := false) (zetaDelta := true) (etaStruct := .none) only [sound_mk]

theorem heaveStaleIfDue_sound (hp : ms &&& 0x100802000809 = 0) (s : State) (hs : s.Sound ms sa) : State.Sound ms (heaveStaleIfDue s) sa := by
  unfold heaveStaleIfDue
  repeat'
    first
    | assumption | (intro _) | with_reducible apply sound_ite | with_reducible apply State.event_sound
    | with_reducible apply addrOutside_ite | with_reducible apply addrOutside2 | with_reducible apply addrOutside1
    | with_reducible apply addrOutside_mod | with_reducible apply addrOutside0 | exact Nat.zero_lt_succ _ | (exact mask_mono hp rfl)
    | ((with_reducible apply sound_parts) <;> first | (intro _; with_reducible rfl) | exact fun hm => (mask_absurd hp hm rfl).elim | skip)
    | simp (zeta := false) (etaStruct := .none) only [sound_mk] | (extract_lets +onlyGivenNames x; refine sound_have x ?_ ?_; subst x)
    | (extract_lets +onlyGivenNames x; refine sound_fun x ?_; subst x) | (extract_lets +onlyGivenNames x) | split
    | simp (zeta := false) (zetaDelta := true) (etaStruct := .none) only [sound_mk]
    | ((with_reducible apply sound_time) <;> first | (intro _; with_reducible rfl) | exact fun hm => (mask_absurd hp hm rfl).elim | skip)
    | omega | exact Nat.le_trans ‹_ ≤ _› (Nat.le_max_left _ _)

theorem heaveTick_sound (hp : ms &&& 0x800 = 0) (s : State) (hs : s.Sound ms sa) : State.Sound ms (heaveTick s) sa := by
  unfold heaveTick
  repeat'
    first
    | assumption | (intro _) | with_reducible apply sound_ite | (exact mask_mono hp rfl)
    | ((with_reducible apply sound_parts) <;> first | (intro _; with_reducible rfl) | exact fun hm => (mask_absurd hp hm rfl).elim | skip)
    | simp (zeta := false) (etaStruct := .none) only [sound_mk] | (extract_lets +onlyGivenNames x; refine sound_have x ?_ ?_; subst x)
    | (extract_lets +onlyGivenNames x; refine sound_fun x ?_; subst x) | (extract_lets +onlyGivenNames x) | split
    | simp (zeta := false) (zetaDelta := true) (etaStruct := .none) only [sound_mk]
    | ((with_reducible apply sound_time) <;> first | (intro _; with_reducible rfl) | exact fun hm => (mask_absurd hp hm rfl).elim | skip)
    | omega | exact Nat.le_trans ‹_ ≤ _› (Nat.le_max_left _ _)

theorem formThermal_sound (hp : ms &&& 0x1000000000001 = 0) (s : State) (hs : s.Sound ms sa) : State.Sound ms (formThermal s) sa := by
  unfold formThermal
  repeat'
    first
    | assumption | (intro _) | with_reducible apply sound_ite | with_reducible apply State.postU_sound
    | with_reducible apply addrOutside_ite | with_reducible apply addrOutside2 | with_reducible apply addrOutside1
    | with_reducible apply addrOutside_mod | with_reducible apply addrOutside0 | exact Nat.zero_lt_succ _ | (exact mask_mono hp rfl)
    | ((with_reducible apply sound_parts) <;> first | (intro _; with_reducible rfl) | exact fun hm => (mask_absurd hp hm rfl).elim | skip)
    | simp (zeta := false) (etaStruct := .none) only [sound_mk] | (extract_lets +onlyGivenNames x; refine sound_have x ?_ ?_; subst x)
    | (extract_lets +onlyGivenNames x; refine sound_fun x ?_; subst x) | (extract_lets +onlyGivenNames x) | split
    | simp (zeta := false) (zetaDelta := true) (etaStruct := .none) only [sound_mk]

theorem alignOuter_sound (hp : ms &&& 0x1800 = 0) (s : State) (hs : s.Sound ms sa) : State.Sound ms (alignOuter s) sa := by
  unfold alignOuter
  repeat'
    first
    | assumption | (intro _) | with_reducible apply sound_ite | (exact mask_mono hp rfl)
    | ((with_reducible apply sound_parts) <;> first | (intro _; with_reducible rfl) | exact fun hm => (mask_absurd hp hm rfl).elim | skip)
    | simp (zeta := false) (etaStruct := .none) only [sound_mk] | (extract_lets +onlyGivenNames x; refine sound_have x ?_ ?_; subst x)
    | (extract_lets +onlyGivenNames x; refine sound_fun x ?_; subst x) | (extract_lets +onlyGivenNames x) | split
    | simp (zeta := false) (zetaDelta := true) (etaStruct := .none) only [sound_mk]

theorem alignStandby_sound (hp : ms &&& 0x18200 = 0) (code : Nat) (s : State) (hs : s.Sound ms sa) : State.Sound ms (alignStandby code s) sa := by
  unfold alignStandby
  repeat'
    first
    | assumption | (intro _) | with_reducible apply sound_ite | (exact mask_mono hp rfl)
    | ((with_reducible apply sound_parts) <;> first | (intro _; with_reducible rfl) | exact fun hm => (mask_absurd hp hm rfl).elim | skip)
    | simp (zeta := false) (etaStruct := .none) only [sound_mk] | (extract_lets +onlyGivenNames x; refine sound_have x ?_ ?_; subst x)
    | (extract_lets +onlyGivenNames x; refine sound_fun x ?_; subst x) | (extract_lets +onlyGivenNames x) | split
    | simp (zeta := false) (zetaDelta := true) (etaStruct := .none) only [sound_mk]

theorem outerTake_sound (hp : ms &&& 0x1100802001889 = 0) (s : State) (hs : s.Sound ms sa) : State.Sound ms (outerTake s) sa := by
  unfold outerTake
  repeat'
    first
    | assumption | (intro _) | with_reducible apply sound_ite | with_reducible apply alignOuter_sound
    | with_reducible apply formThermal_sound | with_reducible apply heaveStaleIfDue_sound | with_reducible apply heaveTick_sound
    | with_reducible apply leverStaleIfDue_sound | with_reducible apply setpointApply_sound | with_reducible apply takeLevers_sound
    | with_reducible apply takeRecords_sound | with_reducible apply tensionSrcIfDue_sound | with_reducible apply addrOutside_ite
    | with_reducible apply addrOutside2 | with_reducible apply addrOutside1 | with_reducible apply addrOutside_mod
    | with_reducible apply addrOutside0 | exact Nat.zero_lt_succ _ | (exact mask_mono hp rfl)
    | ((with_reducible apply sound_parts) <;> first | (intro _; with_reducible rfl) | exact fun hm => (mask_absurd hp hm rfl).elim | skip)
    | simp (zeta := false) (etaStruct := .none) only [sound_mk] | (extract_lets +onlyGivenNames x; refine sound_have x ?_ ?_; subst x)
    | (extract_lets +onlyGivenNames x; refine sound_fun x ?_; subst x) | (extract_lets +onlyGivenNames x) | split
    | simp (zeta := false) (zetaDelta := true) (etaStruct := .none) only [sound_mk]

theorem outerStatus_sound (hp : ms &&& 0x20042000000001 = 0) (s : State) (hs : s.Sound ms sa) : State.Sound ms (outerStatus s) sa := by
  unfold outerStatus
  repeat'
    first
    | assumption | (intro _) | with_reducible apply sound_ite | with_reducible apply State.postQ_sound
    | with_reducible apply State.wr_sound | with_reducible apply addrOutside_ite | with_reducible apply addrOutside2
    | with_reducible apply addrOutside1 | with_reducible apply addrOutside_mod | with_reducible apply addrOutside0
    | exact Nat.zero_lt_succ _ | (exact mask_mono hp rfl)
    | ((with_reducible apply sound_parts) <;> first | (intro _; with_reducible rfl) | exact fun hm => (mask_absurd hp hm rfl).elim | skip)
    | simp (zeta := false) (etaStruct := .none) only [sound_mk] | (extract_lets +onlyGivenNames x; refine sound_have x ?_ ?_; subst x)
    | (extract_lets +onlyGivenNames x; refine sound_fun x ?_; subst x) | (extract_lets +onlyGivenNames x) | split
    | simp (zeta := false) (zetaDelta := true) (etaStruct := .none) only [sound_mk]

theorem startRefused_sound (hp : ms &&& 0x2010A842005089 = 0) (code : Nat) (s : State) (hs : s.Sound ms sa) : State.Sound ms (startRefused code s) sa := by
  unfold startRefused
  repeat'
    first
    | assumption | (intro _) | with_reducible apply sound_ite | with_reducible apply State.reqDone_sound
    | with_reducible apply State.wr_sound | with_reducible apply enter_sound | with_reducible apply addrOutside_ite
    | with_reducible apply addrOutside2 | with_reducible apply addrOutside1 | with_reducible apply addrOutside_mod
    | with_reducible apply addrOutside0 | exact Nat.zero_lt_succ _ | (exact mask_mono hp rfl)
    | ((with_reducible apply sound_parts) <;> first | (intro _; with_reducible rfl) | exact fun hm => (mask_absurd hp hm rfl).elim | skip)
    | simp (zeta := false) (etaStruct := .none) only [sound_mk] | (extract_lets +onlyGivenNames x; refine sound_have x ?_ ?_; subst x)
    | (extract_lets +onlyGivenNames x; refine sound_fun x ?_; subst x) | (extract_lets +onlyGivenNames x) | split
    | simp (zeta := false) (zetaDelta := true) (etaStruct := .none) only [sound_mk]

theorem startCompleteIfDue_sound (hp : ms &&& 0x20002040000001 = 0) (s : State) (hs : s.Sound ms sa) : State.Sound ms (startCompleteIfDue s) sa := by
  unfold startCompleteIfDue
  repeat'
    first
    | assumption | (intro _) | with_reducible apply sound_ite | with_reducible apply State.reqDone_sound
    | with_reducible apply addrOutside_ite | with_reducible apply addrOutside2 | with_reducible apply addrOutside1
    | with_reducible apply addrOutside_mod | with_reducible apply addrOutside0 | exact Nat.zero_lt_succ _ | (exact mask_mono hp rfl)
    | ((with_reducible apply sound_parts) <;> first | (intro _; with_reducible rfl) | exact fun hm => (mask_absurd hp hm rfl).elim | skip)
    | simp (zeta := false) (etaStruct := .none) only [sound_mk] | (extract_lets +onlyGivenNames x; refine sound_have x ?_ ?_; subst x)
    | (extract_lets +onlyGivenNames x; refine sound_fun x ?_; subst x) | (extract_lets +onlyGivenNames x) | split
    | simp (zeta := false) (zetaDelta := true) (etaStruct := .none) only [sound_mk]

theorem outerEvents_sound (hp : ms &&& 0x20102802000009 = 0) (l : OlLoop) (s : State) (hs : s.Sound ms sa) : State.Sound ms (outerEvents l s) sa := by
  unfold outerEvents
  repeat'
    first
    | assumption | (intro _) | with_reducible apply sound_ite | with_reducible apply State.event_sound
    | with_reducible apply State.inc_sound | with_reducible apply addrOutside_ite | with_reducible apply addrOutside2
    | with_reducible apply addrOutside1 | with_reducible apply addrOutside_mod | with_reducible apply addrOutside0
    | exact Nat.zero_lt_succ _ | (exact mask_mono hp rfl)
    | ((with_reducible apply sound_parts) <;> first | (intro _; with_reducible rfl) | exact fun hm => (mask_absurd hp hm rfl).elim | skip)
    | simp (zeta := false) (etaStruct := .none) only [sound_mk] | (extract_lets +onlyGivenNames x; refine sound_have x ?_ ?_; subst x)
    | (extract_lets +onlyGivenNames x; refine sound_fun x ?_; subst x) | (extract_lets +onlyGivenNames x) | split
    | simp (zeta := false) (zetaDelta := true) (etaStruct := .none) only [sound_mk]

theorem outerPost_sound (hp : ms &&& 0x2014A842047089 = 0) (s : State) (hs : s.Sound ms sa) : State.Sound ms (outerPost s) sa := by
  unfold outerPost
  repeat'
    first
    | assumption | (intro _) | with_reducible apply sound_ite | with_reducible apply State.soutRefresh_sound
    | with_reducible apply State.wr_sound | with_reducible apply outerEvents_sound | with_reducible apply outerStatus_sound
    | with_reducible apply startCompleteIfDue_sound | with_reducible apply startRefused_sound | with_reducible apply addrOutside_ite
    | with_reducible apply addrOutside2 | with_reducible apply addrOutside1 | with_reducible apply addrOutside_mod
    | with_reducible apply addrOutside0 | exact Nat.zero_lt_succ _ | (exact mask_mono hp rfl)
    | ((with_reducible apply sound_parts) <;> first | (intro _; with_reducible rfl) | exact fun hm => (mask_absurd hp hm rfl).elim | skip)
    | simp (zeta := false) (etaStruct := .none) only [sound_mk] | (extract_lets +onlyGivenNames x; refine sound_have x ?_ ?_; subst x)
    | (extract_lets +onlyGivenNames x; refine sound_fun x ?_; subst x) | (extract_lets +onlyGivenNames x) | split
    | simp (zeta := false) (zetaDelta := true) (etaStruct := .none) only [sound_mk]
    | ((with_reducible apply sound_time) <;> first | (intro _; with_reducible rfl) | exact fun hm => (mask_absurd hp hm rfl).elim | skip)
    | omega | exact Nat.le_trans ‹_ ≤ _› (Nat.le_max_left _ _)

theorem outerBack_sound (hp : ms &&& 0x1000000002881 = 0) (s : State) (hs : s.Sound ms sa) : State.Sound ms (outerBack s) sa := by
  unfold outerBack
  repeat'
    first
    | assumption | (intro _) | with_reducible apply sound_ite | with_reducible apply State.wr_sound
    | with_reducible apply addrOutside_ite | with_reducible apply addrOutside2 | with_reducible apply addrOutside1
    | with_reducible apply addrOutside_mod | with_reducible apply addrOutside0 | exact Nat.zero_lt_succ _ | (exact mask_mono hp rfl)
    | ((with_reducible apply sound_parts) <;> first | (intro _; with_reducible rfl) | exact fun hm => (mask_absurd hp hm rfl).elim | skip)
    | simp (zeta := false) (etaStruct := .none) only [sound_mk] | (extract_lets +onlyGivenNames x; refine sound_have x ?_ ?_; subst x)
    | (extract_lets +onlyGivenNames x; refine sound_fun x ?_; subst x) | (extract_lets +onlyGivenNames x) | split
    | simp (zeta := false) (zetaDelta := true) (etaStruct := .none) only [sound_mk]

theorem outerRest_sound (hp : ms &&& 0x21002000003881 = 0) (s : State) (hs : s.Sound ms sa) : State.Sound ms (outerRest s) sa := by
  unfold outerRest
  repeat'
    first
    | assumption | (intro _) | with_reducible apply sound_ite | with_reducible apply State.wr_sound
    | with_reducible apply outerBack_sound | with_reducible apply addrOutside_ite | with_reducible apply addrOutside2
    | with_reducible apply addrOutside1 | with_reducible apply addrOutside_mod | with_reducible apply addrOutside0
    | exact Nat.zero_lt_succ _ | (exact mask_mono hp rfl)
    | ((with_reducible apply sound_parts) <;> first | (intro _; with_reducible rfl) | exact fun hm => (mask_absurd hp hm rfl).elim | skip)
    | simp (zeta := false) (etaStruct := .none) only [sound_mk] | (extract_lets +onlyGivenNames x; refine sound_have x ?_ ?_; subst x)
    | (extract_lets +onlyGivenNames x; refine sound_fun x ?_; subst x) | (extract_lets +onlyGivenNames x) | split
    | simp (zeta := false) (zetaDelta := true) (etaStruct := .none) only [sound_mk]

theorem fluxBuildEndIfDue_sound (hp : ms &&& 0x2014A842047089 = 0) (s : State) (hs : s.Sound ms sa) : State.Sound ms (fluxBuildEndIfDue s) sa := by
  unfold fluxBuildEndIfDue
  repeat'
    first
    | assumption | (intro _) | with_reducible apply sound_ite | with_reducible apply outerPost_sound
    | with_reducible apply addrOutside_ite | with_reducible apply addrOutside2 | with_reducible apply addrOutside1
    | with_reducible apply addrOutside_mod | with_reducible apply addrOutside0 | exact Nat.zero_lt_succ _ | (exact mask_mono hp rfl)
    | ((with_reducible apply sound_parts) <;> first | (intro _; with_reducible rfl) | exact fun hm => (mask_absurd hp hm rfl).elim | skip)
    | simp (zeta := false) (etaStruct := .none) only [sound_mk] | (extract_lets +onlyGivenNames x; refine sound_have x ?_ ?_; subst x)
    | (extract_lets +onlyGivenNames x; refine sound_fun x ?_; subst x) | (extract_lets +onlyGivenNames x) | split
    | simp (zeta := false) (zetaDelta := true) (etaStruct := .none) only [sound_mk]

theorem fluxTimeoutIfDue_sound (hp : ms &&& 0x2010A842005089 = 0) (s : State) (hs : s.Sound ms sa) : State.Sound ms (fluxTimeoutIfDue s) sa := by
  unfold fluxTimeoutIfDue
  repeat'
    first
    | assumption | (intro _) | with_reducible apply sound_ite | with_reducible apply startRefused_sound
    | with_reducible apply addrOutside_ite | with_reducible apply addrOutside2 | with_reducible apply addrOutside1
    | with_reducible apply addrOutside_mod | with_reducible apply addrOutside0 | exact Nat.zero_lt_succ _ | (exact mask_mono hp rfl)
    | ((with_reducible apply sound_parts) <;> first | (intro _; with_reducible rfl) | exact fun hm => (mask_absurd hp hm rfl).elim | skip)
    | simp (zeta := false) (etaStruct := .none) only [sound_mk] | (extract_lets +onlyGivenNames x; refine sound_have x ?_ ?_; subst x)
    | (extract_lets +onlyGivenNames x; refine sound_fun x ?_; subst x) | (extract_lets +onlyGivenNames x) | split
    | simp (zeta := false) (zetaDelta := true) (etaStruct := .none) only [sound_mk]

theorem shockClearIfDue_sound (hp : ms &&& 0x20042000001001 = 0) (s : State) (hs : s.Sound ms sa) : State.Sound ms (shockClearIfDue s) sa := by
  unfold shockClearIfDue
  repeat'
    first
    | assumption | (intro _) | with_reducible apply sound_ite | with_reducible apply outerStatus_sound
    | with_reducible apply addrOutside_ite | with_reducible apply addrOutside2 | with_reducible apply addrOutside1
    | with_reducible apply addrOutside_mod | with_reducible apply addrOutside0 | exact Nat.zero_lt_succ _ | (exact mask_mono hp rfl)
    | ((with_reducible apply sound_parts) <;> first | (intro _; with_reducible rfl) | exact fun hm => (mask_absurd hp hm rfl).elim | skip)
    | simp (zeta := false) (etaStruct := .none) only [sound_mk] | (extract_lets +onlyGivenNames x; refine sound_have x ?_ ?_; subst x)
    | (extract_lets +onlyGivenNames x; refine sound_fun x ?_; subst x) | (extract_lets +onlyGivenNames x) | split
    | simp (zeta := false) (zetaDelta := true) (etaStruct := .none) only [sound_mk]

end Sys2Proof.Machine
end

