-- ==== Sys2Proof/Laws/SoundPwm.lean ====
section
/-! SUPPORT. The operations of Machine/Pwm.lean keep a state sound. -/

set_option Elab.async false

namespace Sys2Proof.Machine

variable {ms : Nat} {sa : State}

theorem stageBlocks_sound (hp : ms &&& 0x4000 = 0) (sched : List Word) (s : State) (hs : s.Sound ms sa) : (stageBlocks sched s).Sound ms sa := by
  unfold stageBlocks
  extract_lets pre leg b0 x
  have hx : x.Sound ms sa := sound_foldl _ (sound_upd hs (fun p hm => by cases p <;> first | exact (mask_absurd hp hm rfl).elim | rfl)) (fun s c h => State.setGch_sound (mask_mono hp rfl) s c _ h)
  clear_value x
  split
  · exact (sound_upd hx (fun p hm => by cases p <;> first | exact (mask_absurd hp hm rfl).elim | rfl))
  · exact hx

theorem commitSchedule_sound (hp : ms &&& 0x800000C001 = 0) (sched : List Word) (pw : PwState) (ok : Verdict) (s : State) (hs : s.Sound ms sa) :
    State.Sound ms (commitSchedule sched pw ok s) sa := by
  unfold commitSchedule
  extract_lets sq vs z0 a b c
  have ha : a.Sound ms sa := sound_foldl _ (sound_upd hs (fun p hm => by cases p <;> first | exact (mask_absurd hp hm rfl).elim | rfl)) (fun s c h => State.setGch_sound (mask_mono hp rfl) s c _ h)
  clear_value a
  have hb : b.Sound ms sa := sound_foldl _ ha (fun s w h => State.setWord_sound (mask_mono hp rfl) s _ _ (by first | assumption | exact addrOutside_all (mask_mono hp rfl) | (with_reducible apply addrOutside2 <;> first | exact mask_mono hp rfl | exact Nat.zero_lt_succ _) | (with_reducible apply addrOutside1 <;> first | exact mask_mono hp rfl | exact Nat.zero_lt_succ _) | (with_reducible apply addrOutside0; exact mask_mono hp rfl)) h)
  clear_value b
  have hc : c.Sound ms sa := State.wr_sound (mask_mono hp rfl) _ _ _ (by first | assumption | exact addrOutside_all (mask_mono hp rfl) | (with_reducible apply addrOutside2 <;> first | exact mask_mono hp rfl | exact Nat.zero_lt_succ _) | (with_reducible apply addrOutside1 <;> first | exact mask_mono hp rfl | exact Nat.zero_lt_succ _) | (with_reducible apply addrOutside0; exact mask_mono hp rfl)) (State.wr_sound (mask_mono hp rfl) _ _ _ (by first | assumption | exact addrOutside_all (mask_mono hp rfl) | (with_reducible apply addrOutside2 <;> first | exact mask_mono hp rfl | exact Nat.zero_lt_succ _) | (with_reducible apply addrOutside1 <;> first | exact mask_mono hp rfl | exact Nat.zero_lt_succ _) | (with_reducible apply addrOutside0; exact mask_mono hp rfl)) hb)
  clear_value c
  exact (sound_upd hc (fun p hm => by cases p <;> first | exact (mask_absurd hp hm rfl).elim | rfl))

theorem chopperStatus_sound (hp : ms &&& 0x20002000000001 = 0) (dch : Rat) (s : State) (hs : s.Sound ms sa) : State.Sound ms (chopperStatus dch s) sa := by
  unfold chopperStatus
  repeat'
    first
    | assumption | (intro _) | with_reducible apply sound_ite | with_reducible apply State.satU_sound
    | with_reducible apply State.wr_sound | with_reducible apply addrOutside_ite | with_reducible apply addrOutside2
    | with_reducible apply addrOutside1 | with_reducible apply addrOutside_mod | with_reducible apply addrOutside0
    | exact Nat.zero_lt_succ _ | (exact mask_mono hp rfl)
    | ((with_reducible apply sound_parts) <;> first | (intro _; with_reducible rfl) | exact fun hm => (mask_absurd hp hm rfl).elim | skip)
    | simp (zeta := false) (etaStruct := .none) only [sound_mk] | (extract_lets +onlyGivenNames x; refine sound_have x ?_ ?_; subst x)
    | (extract_lets +onlyGivenNames x; refine sound_fun x ?_; subst x) | (extract_lets +onlyGivenNames x) | split
    | simp (zeta := false) (zetaDelta := true) (etaStruct := .none) only [sound_mk]

theorem vsStatus_sound (hp : ms &&& 0x8000000001 = 0) (dropped : Nat) (s : State) (hs : s.Sound ms sa) : State.Sound ms (vsStatus dropped s) sa := by
  unfold vsStatus
  repeat'
    first
    | assumption | (intro _) | with_reducible apply sound_ite | with_reducible apply State.add_sound
    | with_reducible apply State.wr_sound | with_reducible apply addrOutside_ite | with_reducible apply addrOutside2
    | with_reducible apply addrOutside1 | with_reducible apply addrOutside_mod | with_reducible apply addrOutside0
    | exact Nat.zero_lt_succ _ | (exact mask_mono hp rfl)
    | ((with_reducible apply sound_parts) <;> first | (intro _; with_reducible rfl) | exact fun hm => (mask_absurd hp hm rfl).elim | skip)
    | simp (zeta := false) (etaStruct := .none) only [sound_mk] | (extract_lets +onlyGivenNames x; refine sound_have x ?_ ?_; subst x)
    | (extract_lets +onlyGivenNames x; refine sound_fun x ?_; subst x) | (extract_lets +onlyGivenNames x) | split
    | simp (zeta := false) (zetaDelta := true) (etaStruct := .none) only [sound_mk]

theorem vsDropIfDue_sound (hp : ms &&& 0x8000008001 = 0) (s : State) (hs : s.Sound ms sa) : State.Sound ms (vsDropIfDue s) sa := by
  unfold vsDropIfDue
  repeat'
    first
    | assumption | (intro _) | with_reducible apply sound_ite | with_reducible apply vsStatus_sound
    | with_reducible apply addrOutside_ite | with_reducible apply addrOutside2 | with_reducible apply addrOutside1
    | with_reducible apply addrOutside_mod | with_reducible apply addrOutside0 | exact Nat.zero_lt_succ _ | (exact mask_mono hp rfl)
    | ((with_reducible apply sound_parts) <;> first | (intro _; with_reducible rfl) | exact fun hm => (mask_absurd hp hm rfl).elim | skip)
    | simp (zeta := false) (etaStruct := .none) only [sound_mk] | (extract_lets +onlyGivenNames x; refine sound_have x ?_ ?_; subst x)
    | (extract_lets +onlyGivenNames x; refine sound_fun x ?_; subst x) | (extract_lets +onlyGivenNames x) | split
    | simp (zeta := false) (zetaDelta := true) (etaStruct := .none) only [sound_mk]

theorem pwRunWrite_sound (hp : ms &&& 0x8000004001 = 0) (run : Bool) (s : State) (hs : s.Sound ms sa) : State.Sound ms (pwRunWrite run s) sa := by
  unfold pwRunWrite
  repeat'
    first
    | assumption | (intro _) | with_reducible apply sound_ite | with_reducible apply State.runSet_sound
    | with_reducible apply addrOutside_ite | with_reducible apply addrOutside2 | with_reducible apply addrOutside1
    | with_reducible apply addrOutside_mod | with_reducible apply addrOutside0 | exact Nat.zero_lt_succ _ | (exact mask_mono hp rfl)
    | ((with_reducible apply sound_parts) <;> first | (intro _; with_reducible rfl) | exact fun hm => (mask_absurd hp hm rfl).elim | skip)
    | simp (zeta := false) (etaStruct := .none) only [sound_mk] | (extract_lets +onlyGivenNames x; refine sound_have x ?_ ?_; subst x)
    | (extract_lets +onlyGivenNames x; refine sound_fun x ?_; subst x) | (extract_lets +onlyGivenNames x) | split
    | simp (zeta := false) (zetaDelta := true) (etaStruct := .none) only [sound_mk]

theorem pwCarrierWrite_sound (hp : ms &&& 0x8000000001 = 0) (v : Word) (s : State) (hs : s.Sound ms sa) : State.Sound ms (pwCarrierWrite v s) sa := by
  unfold pwCarrierWrite
  repeat'
    first
    | assumption | (intro _) | with_reducible apply sound_ite | with_reducible apply State.wr_sound
    | with_reducible apply addrOutside_ite | with_reducible apply addrOutside2 | with_reducible apply addrOutside1
    | with_reducible apply addrOutside_mod | with_reducible apply addrOutside0 | exact Nat.zero_lt_succ _ | (exact mask_mono hp rfl)
    | ((with_reducible apply sound_parts) <;> first | (intro _; with_reducible rfl) | exact fun hm => (mask_absurd hp hm rfl).elim | skip)
    | simp (zeta := false) (etaStruct := .none) only [sound_mk] | (extract_lets +onlyGivenNames x; refine sound_have x ?_ ?_; subst x)
    | (extract_lets +onlyGivenNames x; refine sound_fun x ?_; subst x) | (extract_lets +onlyGivenNames x) | split
    | simp (zeta := false) (zetaDelta := true) (etaStruct := .none) only [sound_mk]

theorem pwPhaseWrite_sound (hp : ms &&& 0x8000000001 = 0) (v : Word) (s : State) (hs : s.Sound ms sa) : State.Sound ms (pwPhaseWrite v s) sa := by
  unfold pwPhaseWrite
  repeat'
    first
    | assumption | (intro _) | with_reducible apply sound_ite | with_reducible apply State.wr_sound
    | with_reducible apply addrOutside_ite | with_reducible apply addrOutside2 | with_reducible apply addrOutside1
    | with_reducible apply addrOutside_mod | with_reducible apply addrOutside0 | exact Nat.zero_lt_succ _ | (exact mask_mono hp rfl)
    | ((with_reducible apply sound_parts) <;> first | (intro _; with_reducible rfl) | exact fun hm => (mask_absurd hp hm rfl).elim | skip)
    | simp (zeta := false) (etaStruct := .none) only [sound_mk] | (extract_lets +onlyGivenNames x; refine sound_have x ?_ ?_; subst x)
    | (extract_lets +onlyGivenNames x; refine sound_fun x ?_; subst x) | (extract_lets +onlyGivenNames x) | split
    | simp (zeta := false) (zetaDelta := true) (etaStruct := .none) only [sound_mk]

theorem pwModeWrite_sound (hp : ms &&& 0x8000000001 = 0) (v : Word) (s : State) (hs : s.Sound ms sa) : State.Sound ms (pwModeWrite v s) sa := by
  unfold pwModeWrite
  repeat'
    first
    | assumption | (intro _) | with_reducible apply sound_ite | with_reducible apply State.wr_sound
    | with_reducible apply addrOutside_ite | with_reducible apply addrOutside2 | with_reducible apply addrOutside1
    | with_reducible apply addrOutside_mod | with_reducible apply addrOutside0 | exact Nat.zero_lt_succ _ | (exact mask_mono hp rfl)
    | ((with_reducible apply sound_parts) <;> first | (intro _; with_reducible rfl) | exact fun hm => (mask_absurd hp hm rfl).elim | skip)
    | simp (zeta := false) (etaStruct := .none) only [sound_mk] | (extract_lets +onlyGivenNames x; refine sound_have x ?_ ?_; subst x)
    | (extract_lets +onlyGivenNames x; refine sound_fun x ?_; subst x) | (extract_lets +onlyGivenNames x) | split
    | simp (zeta := false) (zetaDelta := true) (etaStruct := .none) only [sound_mk]

end Sys2Proof.Machine
end

