-- ==== Sys2Proof/Laws/SoundSigmaDelta.lean ====
section
/-! SUPPORT. The operations of Machine/SigmaDelta.lean keep a state sound. -/

set_option Elab.async false

namespace Sys2Proof.Machine

variable {ms : Nat} {sa : State}

theorem State.setSdc_sound (hp : ms &&& 0x100 = 0) (s : State) (n : Nat) (f : SdChan → SdChan) (hs : s.Sound ms sa) : State.Sound ms (State.setSdc s n f) sa := by
  unfold State.setSdc
  repeat'
    first
    | assumption | (intro _) | with_reducible apply sound_ite | (exact mask_mono hp rfl)
    | ((with_reducible apply sound_parts) <;> first | (intro _; with_reducible rfl) | exact fun hm => (mask_absurd hp hm rfl).elim | skip)
    | simp (zeta := false) (etaStruct := .none) only [sound_mk] | (extract_lets +onlyGivenNames x; refine sound_have x ?_ ?_; subst x)
    | (extract_lets +onlyGivenNames x; refine sound_fun x ?_; subst x) | (extract_lets +onlyGivenNames x) | split
    | simp (zeta := false) (zetaDelta := true) (etaStruct := .none) only [sound_mk]

theorem sdAllValid_sound (hp : ms &&& 0x4000000001 = 0) (s : State) (hs : s.Sound ms sa) : State.Sound ms (sdAllValid s) sa := by
  unfold sdAllValid
  repeat'
    first
    | assumption | (intro _) | with_reducible apply sound_ite | with_reducible apply State.wr_sound
    | with_reducible apply addrOutside_ite | with_reducible apply addrOutside2 | with_reducible apply addrOutside1
    | with_reducible apply addrOutside_mod | with_reducible apply addrOutside0 | exact Nat.zero_lt_succ _ | (exact mask_mono hp rfl)
    | ((with_reducible apply sound_parts) <;> first | (intro _; with_reducible rfl) | exact fun hm => (mask_absurd hp hm rfl).elim | skip)
    | simp (zeta := false) (etaStruct := .none) only [sound_mk] | (extract_lets +onlyGivenNames x; refine sound_have x ?_ ?_; subst x)
    | (extract_lets +onlyGivenNames x; refine sound_fun x ?_; subst x) | (extract_lets +onlyGivenNames x) | split
    | simp (zeta := false) (zetaDelta := true) (etaStruct := .none) only [sound_mk]

theorem sdChanged_sound (hp : ms &&& 0x4000004001 = 0) (s : State) (hs : s.Sound ms sa) : State.Sound ms (sdChanged s) sa := by
  unfold sdChanged
  repeat'
    first
    | assumption | (intro _) | with_reducible apply sound_ite | with_reducible apply State.gateRefresh_sound
    | with_reducible apply sdAllValid_sound | with_reducible apply addrOutside_ite | with_reducible apply addrOutside2
    | with_reducible apply addrOutside1 | with_reducible apply addrOutside_mod | with_reducible apply addrOutside0
    | exact Nat.zero_lt_succ _ | (exact mask_mono hp rfl)
    | ((with_reducible apply sound_parts) <;> first | (intro _; with_reducible rfl) | exact fun hm => (mask_absurd hp hm rfl).elim | skip)
    | simp (zeta := false) (etaStruct := .none) only [sound_mk] | (extract_lets +onlyGivenNames x; refine sound_have x ?_ ?_; subst x)
    | (extract_lets +onlyGivenNames x; refine sound_fun x ?_; subst x) | (extract_lets +onlyGivenNames x) | split
    | simp (zeta := false) (zetaDelta := true) (etaStruct := .none) only [sound_mk]

theorem sdRestart_sound (hp : ms &&& 0x4000004101 = 0) (n : Nat) (s : State) (hs : s.Sound ms sa) : State.Sound ms (sdRestart n s) sa := by
  unfold sdRestart
  repeat'
    first
    | assumption | (intro _) | with_reducible apply sound_ite | with_reducible apply State.setSdc_sound
    | with_reducible apply State.wr_sound | with_reducible apply sdChanged_sound | with_reducible apply addrOutside_ite
    | with_reducible apply addrOutside2 | with_reducible apply addrOutside1 | with_reducible apply addrOutside_mod
    | with_reducible apply addrOutside0 | exact Nat.zero_lt_succ _ | (exact mask_mono hp rfl)
    | ((with_reducible apply sound_parts) <;> first | (intro _; with_reducible rfl) | exact fun hm => (mask_absurd hp hm rfl).elim | skip)
    | simp (zeta := false) (etaStruct := .none) only [sound_mk] | (extract_lets +onlyGivenNames x; refine sound_have x ?_ ?_; subst x)
    | (extract_lets +onlyGivenNames x; refine sound_fun x ?_; subst x) | (extract_lets +onlyGivenNames x) | split
    | simp (zeta := false) (zetaDelta := true) (etaStruct := .none) only [sound_mk]
    | ((with_reducible apply sound_time) <;> first | (intro _; with_reducible rfl) | exact fun hm => (mask_absurd hp hm rfl).elim | skip)
    | omega | exact Nat.le_trans ‹_ ≤ _› (Nat.le_max_left _ _)

theorem sdRestartWrite_sound (hp : ms &&& 0x4000004101 = 0) (n : Nat) (s : State) (hs : s.Sound ms sa) : State.Sound ms (sdRestartWrite n s) sa := by
  unfold sdRestartWrite
  repeat'
    first
    | assumption | (intro _) | with_reducible apply sound_ite | with_reducible apply sdRestart_sound
    | with_reducible apply addrOutside_ite | with_reducible apply addrOutside2 | with_reducible apply addrOutside1
    | with_reducible apply addrOutside_mod | with_reducible apply addrOutside0 | exact Nat.zero_lt_succ _ | (exact mask_mono hp rfl)
    | ((with_reducible apply sound_parts) <;> first | (intro _; with_reducible rfl) | exact fun hm => (mask_absurd hp hm rfl).elim | skip)
    | simp (zeta := false) (etaStruct := .none) only [sound_mk] | (extract_lets +onlyGivenNames x; refine sound_have x ?_ ?_; subst x)
    | (extract_lets +onlyGivenNames x; refine sound_fun x ?_; subst x) | (extract_lets +onlyGivenNames x) | split
    | simp (zeta := false) (zetaDelta := true) (etaStruct := .none) only [sound_mk]

theorem sdValidIfDue_sound (hp : ms &&& 0x4000004001 = 0) (n : Nat) (s : State) (hs : s.Sound ms sa) : State.Sound ms (sdValidIfDue n s) sa := by
  unfold sdValidIfDue
  repeat'
    first
    | assumption | (intro _) | with_reducible apply sound_ite | with_reducible apply State.wr_sound
    | with_reducible apply sdChanged_sound | with_reducible apply addrOutside_ite | with_reducible apply addrOutside2
    | with_reducible apply addrOutside1 | with_reducible apply addrOutside_mod | with_reducible apply addrOutside0
    | exact Nat.zero_lt_succ _ | (exact mask_mono hp rfl)
    | ((with_reducible apply sound_parts) <;> first | (intro _; with_reducible rfl) | exact fun hm => (mask_absurd hp hm rfl).elim | skip)
    | simp (zeta := false) (etaStruct := .none) only [sound_mk] | (extract_lets +onlyGivenNames x; refine sound_have x ?_ ?_; subst x)
    | (extract_lets +onlyGivenNames x; refine sound_fun x ?_; subst x) | (extract_lets +onlyGivenNames x) | split
    | simp (zeta := false) (zetaDelta := true) (etaStruct := .none) only [sound_mk]

theorem calDiscard_sound (hp : ms &&& 0x100 = 0) (n : Nat) (s : State) (hs : s.Sound ms sa) : State.Sound ms (calDiscard n s) sa := by
  unfold calDiscard
  repeat'
    first
    | assumption | (intro _) | with_reducible apply sound_ite | (exact mask_mono hp rfl)
    | ((with_reducible apply sound_parts) <;> first | (intro _; with_reducible rfl) | exact fun hm => (mask_absurd hp hm rfl).elim | skip)
    | simp (zeta := false) (etaStruct := .none) only [sound_mk] | (extract_lets +onlyGivenNames x; refine sound_have x ?_ ?_; subst x)
    | (extract_lets +onlyGivenNames x; refine sound_fun x ?_; subst x) | (extract_lets +onlyGivenNames x) | split
    | simp (zeta := false) (zetaDelta := true) (etaStruct := .none) only [sound_mk]

theorem sdLoss_sound (hp : ms &&& 0x104842004109 = 0) (n : Nat) (s : State) (hs : s.Sound ms sa) : State.Sound ms (sdLoss n s) sa := by
  unfold sdLoss
  repeat'
    first
    | assumption | (intro _) | with_reducible apply sound_ite | with_reducible apply State.cause_sound
    | with_reducible apply State.event_sound | with_reducible apply State.setSdc_sound | with_reducible apply State.wr_sound
    | with_reducible apply calDiscard_sound | with_reducible apply sdChanged_sound | with_reducible apply addrOutside_ite
    | with_reducible apply addrOutside2 | with_reducible apply addrOutside1 | with_reducible apply addrOutside_mod
    | with_reducible apply addrOutside0 | exact Nat.zero_lt_succ _ | (exact mask_mono hp rfl)
    | ((with_reducible apply sound_parts) <;> first | (intro _; with_reducible rfl) | exact fun hm => (mask_absurd hp hm rfl).elim | skip)
    | simp (zeta := false) (etaStruct := .none) only [sound_mk] | (extract_lets +onlyGivenNames x; refine sound_have x ?_ ?_; subst x)
    | (extract_lets +onlyGivenNames x; refine sound_fun x ?_; subst x) | (extract_lets +onlyGivenNames x) | split
    | simp (zeta := false) (zetaDelta := true) (etaStruct := .none) only [sound_mk]

theorem sdChannelConfig_sound (hp : ms &&& 0x4000004101 = 0) (n : Nat) (v : Word) (s : State) (hs : s.Sound ms sa) : State.Sound ms (sdChannelConfig n v s) sa := by
  unfold sdChannelConfig
  repeat'
    first
    | assumption | (intro _) | with_reducible apply sound_ite | with_reducible apply State.wr_sound
    | with_reducible apply sdChanged_sound | with_reducible apply sdRestart_sound | with_reducible apply addrOutside_ite
    | with_reducible apply addrOutside2 | with_reducible apply addrOutside1 | with_reducible apply addrOutside_mod
    | with_reducible apply addrOutside0 | exact Nat.zero_lt_succ _ | (exact mask_mono hp rfl)
    | ((with_reducible apply sound_parts) <;> first | (intro _; with_reducible rfl) | exact fun hm => (mask_absurd hp hm rfl).elim | skip)
    | simp (zeta := false) (etaStruct := .none) only [sound_mk] | (extract_lets +onlyGivenNames x; refine sound_have x ?_ ?_; subst x)
    | (extract_lets +onlyGivenNames x; refine sound_fun x ?_; subst x) | (extract_lets +onlyGivenNames x) | split
    | simp (zeta := false) (zetaDelta := true) (etaStruct := .none) only [sound_mk]

theorem sdConfigWrite_sound (hp : ms &&& 0x4000000101 = 0) (v : Word) (s : State) (hs : s.Sound ms sa) : State.Sound ms (sdConfigWrite v s) sa := by
  unfold sdConfigWrite
  repeat'
    first
    | assumption | (intro _) | with_reducible apply sound_ite | with_reducible apply State.setSdc_sound
    | with_reducible apply State.wr_sound | with_reducible apply addrOutside_ite | with_reducible apply addrOutside2
    | with_reducible apply addrOutside1 | with_reducible apply addrOutside_mod | with_reducible apply addrOutside0
    | exact Nat.zero_lt_succ _ | with_reducible apply sound_foldl | with_reducible apply sound_foldl_snd | (exact mask_mono hp rfl)
    | ((with_reducible apply sound_parts) <;> first | (intro _; with_reducible rfl) | exact fun hm => (mask_absurd hp hm rfl).elim | skip)
    | simp (zeta := false) (etaStruct := .none) only [sound_mk] | (extract_lets +onlyGivenNames x; refine sound_have x ?_ ?_; subst x)
    | (extract_lets +onlyGivenNames x; refine sound_fun x ?_; subst x) | (extract_lets +onlyGivenNames x) | split
    | simp (zeta := false) (zetaDelta := true) (etaStruct := .none) only [sound_mk]
    | ((with_reducible apply sound_time) <;> first | (intro _; with_reducible rfl) | exact fun hm => (mask_absurd hp hm rfl).elim | skip)
    | omega | exact Nat.le_trans ‹_ ≤ _› (Nat.le_max_left _ _)

theorem sdTimeStep_sound (hp : ms &&& 0x4000004101 = 0) (s : State) (hs : s.Sound ms sa) : State.Sound ms (sdTimeStep s) sa := by
  unfold sdTimeStep
  repeat'
    first
    | assumption | (intro _) | with_reducible apply sound_ite | with_reducible apply State.setSdc_sound
    | with_reducible apply State.wr_sound | with_reducible apply sdChanged_sound | with_reducible apply addrOutside_ite
    | with_reducible apply addrOutside2 | with_reducible apply addrOutside1 | with_reducible apply addrOutside_mod
    | with_reducible apply addrOutside0 | exact Nat.zero_lt_succ _ | with_reducible apply sound_foldl
    | with_reducible apply sound_foldl_snd | (exact mask_mono hp rfl)
    | ((with_reducible apply sound_parts) <;> first | (intro _; with_reducible rfl) | exact fun hm => (mask_absurd hp hm rfl).elim | skip)
    | simp (zeta := false) (etaStruct := .none) only [sound_mk] | (extract_lets +onlyGivenNames x; refine sound_have x ?_ ?_; subst x)
    | (extract_lets +onlyGivenNames x; refine sound_fun x ?_; subst x) | (extract_lets +onlyGivenNames x) | split
    | simp (zeta := false) (zetaDelta := true) (etaStruct := .none) only [sound_mk]
    | ((with_reducible apply sound_time) <;> first | (intro _; with_reducible rfl) | exact fun hm => (mask_absurd hp hm rfl).elim | skip)
    | omega | exact Nat.le_trans ‹_ ≤ _› (Nat.le_max_left _ _)

theorem sdCloseChannel_sound (hp : ms &&& 0x104842004109 = 0) (bits : List Bool) (n : Nat) (s : State) (hs : s.Sound ms sa) : State.Sound ms (sdCloseChannel bits n s) sa := by
  unfold sdCloseChannel
  repeat'
    first
    | assumption | (intro _) | with_reducible apply sound_ite | with_reducible apply State.postQ_sound
    | with_reducible apply State.satQ_sound | with_reducible apply State.setSdc_sound | with_reducible apply sdLoss_sound
    | with_reducible apply sdValidIfDue_sound | with_reducible apply addrOutside_ite | with_reducible apply addrOutside2
    | with_reducible apply addrOutside1 | with_reducible apply addrOutside_mod | with_reducible apply addrOutside0
    | exact Nat.zero_lt_succ _ | (exact mask_mono hp rfl)
    | ((with_reducible apply sound_parts) <;> first | (intro _; with_reducible rfl) | exact fun hm => (mask_absurd hp hm rfl).elim | skip)
    | simp (zeta := false) (etaStruct := .none) only [sound_mk] | (extract_lets +onlyGivenNames x; refine sound_have x ?_ ?_; subst x)
    | (extract_lets +onlyGivenNames x; refine sound_fun x ?_; subst x) | (extract_lets +onlyGivenNames x) | split
    | simp (zeta := false) (zetaDelta := true) (etaStruct := .none) only [sound_mk]

theorem sdWindowClose_sound (hp : ms &&& 0x104842004109 = 0) (bits : List (List Bool)) (s : State) (hs : s.Sound ms sa) : State.Sound ms (sdWindowClose bits s) sa := by
  unfold sdWindowClose
  repeat'
    first
    | assumption | (intro _) | with_reducible apply sound_ite | with_reducible apply State.wr_sound
    | with_reducible apply sdCloseChannel_sound | with_reducible apply addrOutside_ite | with_reducible apply addrOutside2
    | with_reducible apply addrOutside1 | with_reducible apply addrOutside_mod | with_reducible apply addrOutside0
    | exact Nat.zero_lt_succ _ | with_reducible apply sound_foldl | with_reducible apply sound_foldl_snd | (exact mask_mono hp rfl)
    | ((with_reducible apply sound_parts) <;> first | (intro _; with_reducible rfl) | exact fun hm => (mask_absurd hp hm rfl).elim | skip)
    | simp (zeta := false) (etaStruct := .none) only [sound_mk] | (extract_lets +onlyGivenNames x; refine sound_have x ?_ ?_; subst x)
    | (extract_lets +onlyGivenNames x; refine sound_fun x ?_; subst x) | (extract_lets +onlyGivenNames x) | split
    | simp (zeta := false) (zetaDelta := true) (etaStruct := .none) only [sound_mk]

theorem calSuspend_sound (hp : ms &&& 0x104802000009 = 0) (s : State) (hs : s.Sound ms sa) : State.Sound ms (calSuspend s) sa := by
  unfold calSuspend
  repeat'
    first
    | assumption | (intro _) | with_reducible apply sound_ite | with_reducible apply State.event_sound
    | with_reducible apply State.wr_sound | with_reducible apply addrOutside_ite | with_reducible apply addrOutside2
    | with_reducible apply addrOutside1 | with_reducible apply addrOutside_mod | with_reducible apply addrOutside0
    | exact Nat.zero_lt_succ _ | (exact mask_mono hp rfl)
    | ((with_reducible apply sound_parts) <;> first | (intro _; with_reducible rfl) | exact fun hm => (mask_absurd hp hm rfl).elim | skip)
    | simp (zeta := false) (etaStruct := .none) only [sound_mk] | (extract_lets +onlyGivenNames x; refine sound_have x ?_ ?_; subst x)
    | (extract_lets +onlyGivenNames x; refine sound_fun x ?_; subst x) | (extract_lets +onlyGivenNames x) | split
    | simp (zeta := false) (zetaDelta := true) (etaStruct := .none) only [sound_mk]

theorem calPositionEnd_sound (hp : ms &&& 0x104802000189 = 0) (s : State) (hs : s.Sound ms sa) : State.Sound ms (calPositionEnd s) sa := by
  unfold calPositionEnd
  repeat'
    first
    | assumption | (intro _) | with_reducible apply sound_ite | with_reducible apply calSuspend_sound
    | with_reducible apply addrOutside_ite | with_reducible apply addrOutside2 | with_reducible apply addrOutside1
    | with_reducible apply addrOutside_mod | with_reducible apply addrOutside0 | exact Nat.zero_lt_succ _ | (exact mask_mono hp rfl)
    | ((with_reducible apply sound_parts) <;> first | (intro _; with_reducible rfl) | exact fun hm => (mask_absurd hp hm rfl).elim | skip)
    | simp (zeta := false) (etaStruct := .none) only [sound_mk] | (extract_lets +onlyGivenNames x; refine sound_have x ?_ ?_; subst x)
    | (extract_lets +onlyGivenNames x; refine sound_fun x ?_; subst x) | (extract_lets +onlyGivenNames x) | split
    | simp (zeta := false) (zetaDelta := true) (etaStruct := .none) only [sound_mk]

theorem calPositionStepIfDue_sound (hp : ms &&& 0x104802000189 = 0) (s : State) (hs : s.Sound ms sa) : State.Sound ms (calPositionStepIfDue s) sa := by
  unfold calPositionStepIfDue
  repeat'
    first
    | assumption | (intro _) | with_reducible apply sound_ite | with_reducible apply State.incWrap_sound
    | with_reducible apply State.wr_sound | with_reducible apply calPositionEnd_sound | with_reducible apply addrOutside_ite
    | with_reducible apply addrOutside2 | with_reducible apply addrOutside1 | with_reducible apply addrOutside_mod
    | with_reducible apply addrOutside0 | exact Nat.zero_lt_succ _ | (exact mask_mono hp rfl)
    | ((with_reducible apply sound_parts) <;> first | (intro _; with_reducible rfl) | exact fun hm => (mask_absurd hp hm rfl).elim | skip)
    | simp (zeta := false) (etaStruct := .none) only [sound_mk] | (extract_lets +onlyGivenNames x; refine sound_have x ?_ ?_; subst x)
    | (extract_lets +onlyGivenNames x; refine sound_fun x ?_; subst x) | (extract_lets +onlyGivenNames x) | split
    | simp (zeta := false) (zetaDelta := true) (etaStruct := .none) only [sound_mk]

theorem calTick_sound (hp : ms &&& 0x104802000189 = 0) (s : State) (hs : s.Sound ms sa) : State.Sound ms (calTick s) sa := by
  unfold calTick
  repeat'
    first
    | assumption | (intro _) | with_reducible apply sound_ite | with_reducible apply calPositionStepIfDue_sound
    | with_reducible apply calSuspend_sound | with_reducible apply addrOutside_ite | with_reducible apply addrOutside2
    | with_reducible apply addrOutside1 | with_reducible apply addrOutside_mod | with_reducible apply addrOutside0
    | exact Nat.zero_lt_succ _ | (exact mask_mono hp rfl)
    | ((with_reducible apply sound_parts) <;> first | (intro _; with_reducible rfl) | exact fun hm => (mask_absurd hp hm rfl).elim | skip)
    | simp (zeta := false) (etaStruct := .none) only [sound_mk] | (extract_lets +onlyGivenNames x; refine sound_have x ?_ ?_; subst x)
    | (extract_lets +onlyGivenNames x; refine sound_fun x ?_; subst x) | (extract_lets +onlyGivenNames x) | split
    | simp (zeta := false) (zetaDelta := true) (etaStruct := .none) only [sound_mk]

theorem calFitApply_sound (hp : ms &&& 0x104802000109 = 0) (s : State) (hs : s.Sound ms sa) : State.Sound ms (calFitApply s) sa := by
  unfold calFitApply
  repeat'
    first
    | assumption | (intro _) | with_reducible apply sound_ite | with_reducible apply State.event_sound
    | with_reducible apply State.postQ_sound | with_reducible apply State.setSdc_sound | with_reducible apply State.wr_sound
    | with_reducible apply addrOutside_ite | with_reducible apply addrOutside2 | with_reducible apply addrOutside1
    | with_reducible apply addrOutside_mod | with_reducible apply addrOutside0 | exact Nat.zero_lt_succ _ | (exact mask_mono hp rfl)
    | ((with_reducible apply sound_parts) <;> first | (intro _; with_reducible rfl) | exact fun hm => (mask_absurd hp hm rfl).elim | skip)
    | simp (zeta := false) (etaStruct := .none) only [sound_mk] | (extract_lets +onlyGivenNames x; refine sound_have x ?_ ?_; subst x)
    | (extract_lets +onlyGivenNames x; refine sound_fun x ?_; subst x) | (extract_lets +onlyGivenNames x) | split
    | simp (zeta := false) (zetaDelta := true) (etaStruct := .none) only [sound_mk]

theorem calFitReady_sound (hp : ms &&& 0x100 = 0) (ch : Nat) (s : State) (hs : s.Sound ms sa) : State.Sound ms (calFitReady ch s) sa := by
  unfold calFitReady
  repeat'
    first
    | assumption | (intro _) | with_reducible apply sound_ite | (exact mask_mono hp rfl)
    | ((with_reducible apply sound_parts) <;> first | (intro _; with_reducible rfl) | exact fun hm => (mask_absurd hp hm rfl).elim | skip)
    | simp (zeta := false) (etaStruct := .none) only [sound_mk] | (extract_lets +onlyGivenNames x; refine sound_have x ?_ ?_; subst x)
    | (extract_lets +onlyGivenNames x; refine sound_fun x ?_; subst x) | (extract_lets +onlyGivenNames x) | split
    | simp (zeta := false) (zetaDelta := true) (etaStruct := .none) only [sound_mk]

end Sys2Proof.Machine
end

