-- ==== Sys2Proof/Laws/SoundFeedback.lean ====
section
/-! SUPPORT. The operations of Machine/Feedback.lean keep a state sound. -/

set_option Elab.async false

namespace Sys2Proof.Machine

variable {ms : Nat} {sa : State}

theorem State.setFsrc_sound (hp : ms &&& 0x40000 = 0) (s : State) (code : Nat) (f : FbSource → FbSource) (hs : s.Sound ms sa) : State.Sound ms (State.setFsrc s code f) sa := by
  unfold State.setFsrc
  repeat'
    first
    | assumption | (intro _) | with_reducible apply sound_ite | (exact mask_mono hp rfl)
    | ((with_reducible apply sound_parts) <;> first | (intro _; with_reducible rfl) | exact fun hm => (mask_absurd hp hm rfl).elim | skip)
    | simp (zeta := false) (etaStruct := .none) only [sound_mk] | (extract_lets +onlyGivenNames x; refine sound_have x ?_ ?_; subst x)
    | (extract_lets +onlyGivenNames x; refine sound_fun x ?_; subst x) | (extract_lets +onlyGivenNames x) | split
    | simp (zeta := false) (zetaDelta := true) (etaStruct := .none) only [sound_mk]

theorem State.setAbz_sound (hp : ms &&& 0x40000 = 0) (s : State) (f : AbzState → AbzState) (hs : s.Sound ms sa) : State.Sound ms (State.setAbz s f) sa := by
  unfold State.setAbz
  repeat'
    first
    | assumption | (intro _) | with_reducible apply sound_ite | (exact mask_mono hp rfl)
    | ((with_reducible apply sound_parts) <;> first | (intro _; with_reducible rfl) | exact fun hm => (mask_absurd hp hm rfl).elim | skip)
    | simp (zeta := false) (etaStruct := .none) only [sound_mk] | (extract_lets +onlyGivenNames x; refine sound_have x ?_ ?_; subst x)
    | (extract_lets +onlyGivenNames x; refine sound_fun x ?_; subst x) | (extract_lets +onlyGivenNames x) | split
    | simp (zeta := false) (zetaDelta := true) (etaStruct := .none) only [sound_mk]

theorem State.setPosx_sound (hp : ms &&& 0x40000 = 0) (s : State) (code : Nat) (value : Int) (hs : s.Sound ms sa) : State.Sound ms (State.setPosx s code value) sa := by
  unfold State.setPosx
  repeat'
    first
    | assumption | (intro _) | with_reducible apply sound_ite | with_reducible apply State.setFsrc_sound | (exact mask_mono hp rfl)
    | ((with_reducible apply sound_parts) <;> first | (intro _; with_reducible rfl) | exact fun hm => (mask_absurd hp hm rfl).elim | skip)
    | simp (zeta := false) (etaStruct := .none) only [sound_mk] | (extract_lets +onlyGivenNames x; refine sound_have x ?_ ?_; subst x)
    | (extract_lets +onlyGivenNames x; refine sound_fun x ?_; subst x) | (extract_lets +onlyGivenNames x) | split
    | simp (zeta := false) (zetaDelta := true) (etaStruct := .none) only [sound_mk]

theorem fbLose_sound (hp : ms &&& 0x100842040009 = 0) (code : Nat) (s : State) (hs : s.Sound ms sa) : State.Sound ms (fbLose code s) sa := by
  unfold fbLose
  repeat'
    first
    | assumption | (intro _) | with_reducible apply sound_ite | with_reducible apply State.cause_sound
    | with_reducible apply State.event_sound | with_reducible apply State.setFsrc_sound | with_reducible apply addrOutside_ite
    | with_reducible apply addrOutside2 | with_reducible apply addrOutside1 | with_reducible apply addrOutside_mod
    | with_reducible apply addrOutside0 | exact Nat.zero_lt_succ _ | (exact mask_mono hp rfl)
    | ((with_reducible apply sound_parts) <;> first | (intro _; with_reducible rfl) | exact fun hm => (mask_absurd hp hm rfl).elim | skip)
    | simp (zeta := false) (etaStruct := .none) only [sound_mk] | (extract_lets +onlyGivenNames x; refine sound_have x ?_ ?_; subst x)
    | (extract_lets +onlyGivenNames x; refine sound_fun x ?_; subst x) | (extract_lets +onlyGivenNames x) | split
    | simp (zeta := false) (zetaDelta := true) (etaStruct := .none) only [sound_mk]

theorem fbLoseIfDue_sound (hp : ms &&& 0x100842040009 = 0) (code : Nat) (s : State) (hs : s.Sound ms sa) : State.Sound ms (fbLoseIfDue code s) sa := by
  unfold fbLoseIfDue
  repeat'
    first
    | assumption | (intro _) | with_reducible apply sound_ite | with_reducible apply fbLose_sound | with_reducible apply addrOutside_ite
    | with_reducible apply addrOutside2 | with_reducible apply addrOutside1 | with_reducible apply addrOutside_mod
    | with_reducible apply addrOutside0 | exact Nat.zero_lt_succ _ | (exact mask_mono hp rfl)
    | ((with_reducible apply sound_parts) <;> first | (intro _; with_reducible rfl) | exact fun hm => (mask_absurd hp hm rfl).elim | skip)
    | simp (zeta := false) (etaStruct := .none) only [sound_mk] | (extract_lets +onlyGivenNames x; refine sound_have x ?_ ?_; subst x)
    | (extract_lets +onlyGivenNames x; refine sound_fun x ?_; subst x) | (extract_lets +onlyGivenNames x) | split
    | simp (zeta := false) (zetaDelta := true) (etaStruct := .none) only [sound_mk]

theorem sourceValidIfDue_sound (hp : ms &&& 0x40000 = 0) (code : Nat) (s : State) (hs : s.Sound ms sa) : State.Sound ms (sourceValidIfDue code s) sa := by
  unfold sourceValidIfDue
  repeat'
    first
    | assumption | (intro _) | with_reducible apply sound_ite | with_reducible apply State.setFsrc_sound | (exact mask_mono hp rfl)
    | ((with_reducible apply sound_parts) <;> first | (intro _; with_reducible rfl) | exact fun hm => (mask_absurd hp hm rfl).elim | skip)
    | simp (zeta := false) (etaStruct := .none) only [sound_mk] | (extract_lets +onlyGivenNames x; refine sound_have x ?_ ?_; subst x)
    | (extract_lets +onlyGivenNames x; refine sound_fun x ?_; subst x) | (extract_lets +onlyGivenNames x) | split
    | simp (zeta := false) (zetaDelta := true) (etaStruct := .none) only [sound_mk]

theorem emuLag_sound (hp : ms &&& 0x20000000001 = 0) (s : State) (hs : s.Sound ms sa) : State.Sound ms (emuLag s) sa := by
  unfold emuLag
  repeat'
    first
    | assumption | (intro _) | with_reducible apply sound_ite | with_reducible apply State.wr_sound
    | with_reducible apply addrOutside_ite | with_reducible apply addrOutside2 | with_reducible apply addrOutside1
    | with_reducible apply addrOutside_mod | with_reducible apply addrOutside0 | exact Nat.zero_lt_succ _ | (exact mask_mono hp rfl)
    | ((with_reducible apply sound_parts) <;> first | (intro _; with_reducible rfl) | exact fun hm => (mask_absurd hp hm rfl).elim | skip)
    | simp (zeta := false) (etaStruct := .none) only [sound_mk] | (extract_lets +onlyGivenNames x; refine sound_have x ?_ ?_; subst x)
    | (extract_lets +onlyGivenNames x; refine sound_fun x ?_; subst x) | (extract_lets +onlyGivenNames x) | split
    | simp (zeta := false) (zetaDelta := true) (etaStruct := .none) only [sound_mk]

theorem emuTrack_sound (hp : ms &&& 0x20000040001 = 0) (s : State) (hs : s.Sound ms sa) : State.Sound ms (emuTrack s) sa := by
  unfold emuTrack
  repeat'
    first
    | assumption | (intro _) | with_reducible apply sound_ite | with_reducible apply emuLag_sound | with_reducible apply addrOutside_ite
    | with_reducible apply addrOutside2 | with_reducible apply addrOutside1 | with_reducible apply addrOutside_mod
    | with_reducible apply addrOutside0 | exact Nat.zero_lt_succ _ | (exact mask_mono hp rfl)
    | ((with_reducible apply sound_parts) <;> first | (intro _; with_reducible rfl) | exact fun hm => (mask_absurd hp hm rfl).elim | skip)
    | simp (zeta := false) (etaStruct := .none) only [sound_mk] | (extract_lets +onlyGivenNames x; refine sound_have x ?_ ?_; subst x)
    | (extract_lets +onlyGivenNames x; refine sound_fun x ?_; subst x) | (extract_lets +onlyGivenNames x) | split
    | simp (zeta := false) (zetaDelta := true) (etaStruct := .none) only [sound_mk]
    | ((with_reducible apply sound_time) <;> first | (intro _; with_reducible rfl) | exact fun hm => (mask_absurd hp hm rfl).elim | skip)
    | omega | exact Nat.le_trans ‹_ ≤ _› (Nat.le_max_left _ _)

theorem emuPins_sound (hp : ms &&& 0x40000 = 0) (s : State) (hs : s.Sound ms sa) : State.Sound ms (emuPins s) sa := by
  unfold emuPins
  repeat'
    first
    | assumption | (intro _) | with_reducible apply sound_ite | (exact mask_mono hp rfl)
    | ((with_reducible apply sound_parts) <;> first | (intro _; with_reducible rfl) | exact fun hm => (mask_absurd hp hm rfl).elim | skip)
    | simp (zeta := false) (etaStruct := .none) only [sound_mk] | (extract_lets +onlyGivenNames x; refine sound_have x ?_ ?_; subst x)
    | (extract_lets +onlyGivenNames x; refine sound_fun x ?_; subst x) | (extract_lets +onlyGivenNames x) | split
    | simp (zeta := false) (zetaDelta := true) (etaStruct := .none) only [sound_mk]

theorem emulationEdge_sound (hp : ms &&& 0x20000040021 = 0) (s : State) (hs : s.Sound ms sa) : State.Sound ms (emulationEdge s) sa := by
  unfold emulationEdge
  repeat'
    first
    | assumption | (intro _) | with_reducible apply sound_ite | with_reducible apply emuLag_sound | with_reducible apply emuPins_sound
    | with_reducible apply addrOutside_ite | with_reducible apply addrOutside2 | with_reducible apply addrOutside1
    | with_reducible apply addrOutside_mod | with_reducible apply addrOutside0 | exact Nat.zero_lt_succ _ | (exact mask_mono hp rfl)
    | ((with_reducible apply sound_parts) <;> first | (intro _; with_reducible rfl) | exact fun hm => (mask_absurd hp hm rfl).elim | skip)
    | simp (zeta := false) (etaStruct := .none) only [sound_mk] | (extract_lets +onlyGivenNames x; refine sound_have x ?_ ?_; subst x)
    | (extract_lets +onlyGivenNames x; refine sound_fun x ?_; subst x) | (extract_lets +onlyGivenNames x) | split
    | simp (zeta := false) (zetaDelta := true) (etaStruct := .none) only [sound_mk]
    | ((with_reducible apply sound_time) <;> first | (intro _; with_reducible rfl) | exact fun hm => (mask_absurd hp hm rfl).elim | skip)
    | omega | exact Nat.le_trans ‹_ ≤ _› (Nat.le_max_left _ _)

theorem emuConfigWrite_sound (hp : ms &&& 0x20000040001 = 0) (v : Word) (s : State) (hs : s.Sound ms sa) : State.Sound ms (emuConfigWrite v s) sa := by
  unfold emuConfigWrite
  repeat'
    first
    | assumption | (intro _) | with_reducible apply sound_ite | with_reducible apply State.wr_sound | with_reducible apply emuPins_sound
    | with_reducible apply addrOutside_ite | with_reducible apply addrOutside2 | with_reducible apply addrOutside1
    | with_reducible apply addrOutside_mod | with_reducible apply addrOutside0 | exact Nat.zero_lt_succ _ | (exact mask_mono hp rfl)
    | ((with_reducible apply sound_parts) <;> first | (intro _; with_reducible rfl) | exact fun hm => (mask_absurd hp hm rfl).elim | skip)
    | simp (zeta := false) (etaStruct := .none) only [sound_mk] | (extract_lets +onlyGivenNames x; refine sound_have x ?_ ?_; subst x)
    | (extract_lets +onlyGivenNames x; refine sound_fun x ?_; subst x) | (extract_lets +onlyGivenNames x) | split
    | simp (zeta := false) (zetaDelta := true) (etaStruct := .none) only [sound_mk]

theorem fbStatus_sound (hp : ms &&& 0x20000000001 = 0) (s : State) (hs : s.Sound ms sa) : State.Sound ms (fbStatus s) sa := by
  unfold fbStatus
  repeat'
    first
    | assumption | (intro _) | with_reducible apply sound_ite | with_reducible apply State.wr_sound
    | with_reducible apply addrOutside_ite | with_reducible apply addrOutside2 | with_reducible apply addrOutside1
    | with_reducible apply addrOutside_mod | with_reducible apply addrOutside0 | exact Nat.zero_lt_succ _ | (exact mask_mono hp rfl)
    | ((with_reducible apply sound_parts) <;> first | (intro _; with_reducible rfl) | exact fun hm => (mask_absurd hp hm rfl).elim | skip)
    | simp (zeta := false) (etaStruct := .none) only [sound_mk] | (extract_lets +onlyGivenNames x; refine sound_have x ?_ ?_; subst x)
    | (extract_lets +onlyGivenNames x; refine sound_fun x ?_; subst x) | (extract_lets +onlyGivenNames x) | split
    | simp (zeta := false) (zetaDelta := true) (etaStruct := .none) only [sound_mk]

theorem fbWindowRestart_sound (hp : ms &&& 0x40000 = 0) (s : State) (hs : s.Sound ms sa) : State.Sound ms (fbWindowRestart s) sa := by
  unfold fbWindowRestart
  repeat'
    first
    | assumption | (intro _) | with_reducible apply sound_ite | (exact mask_mono hp rfl)
    | ((with_reducible apply sound_parts) <;> first | (intro _; with_reducible rfl) | exact fun hm => (mask_absurd hp hm rfl).elim | skip)
    | simp (zeta := false) (etaStruct := .none) only [sound_mk] | (extract_lets +onlyGivenNames x; refine sound_have x ?_ ?_; subst x)
    | (extract_lets +onlyGivenNames x; refine sound_fun x ?_; subst x) | (extract_lets +onlyGivenNames x) | split
    | simp (zeta := false) (zetaDelta := true) (etaStruct := .none) only [sound_mk]
    | ((with_reducible apply sound_time) <;> first | (intro _; with_reducible rfl) | exact fun hm => (mask_absurd hp hm rfl).elim | skip)
    | omega | exact Nat.le_trans ‹_ ≤ _› (Nat.le_max_left _ _)

theorem fbSwitch_sound (hp : ms &&& 0x20000040001 = 0) (code why : Nat) (pos : Int) (s : State) (hs : s.Sound ms sa) : State.Sound ms (fbSwitch code why pos s) sa := by
  unfold fbSwitch
  repeat'
    first
    | assumption | (intro _) | with_reducible apply sound_ite | with_reducible apply State.wr_sound
    | with_reducible apply addrOutside_ite | with_reducible apply addrOutside2 | with_reducible apply addrOutside1
    | with_reducible apply addrOutside_mod | with_reducible apply addrOutside0 | exact Nat.zero_lt_succ _ | (exact mask_mono hp rfl)
    | ((with_reducible apply sound_parts) <;> first | (intro _; with_reducible rfl) | exact fun hm => (mask_absurd hp hm rfl).elim | skip)
    | simp (zeta := false) (etaStruct := .none) only [sound_mk] | (extract_lets +onlyGivenNames x; refine sound_have x ?_ ?_; subst x)
    | (extract_lets +onlyGivenNames x; refine sound_fun x ?_; subst x) | (extract_lets +onlyGivenNames x) | split
    | simp (zeta := false) (zetaDelta := true) (etaStruct := .none) only [sound_mk]
    | ((with_reducible apply sound_time) <;> first | (intro _; with_reducible rfl) | exact fun hm => (mask_absurd hp hm rfl).elim | skip)
    | omega | exact Nat.le_trans ‹_ ≤ _› (Nat.le_max_left _ _)

theorem hallTake_sound (hp : ms &&& 0x120842040009 = 0) (code t : Nat) (s : State) (hs : s.Sound ms sa) : State.Sound ms (hallTake code t s) sa := by
  unfold hallTake
  repeat'
    first
    | assumption | (intro _) | with_reducible apply sound_ite | with_reducible apply State.setFsrc_sound
    | with_reducible apply State.setPosx_sound | with_reducible apply State.wr_sound | with_reducible apply emuTrack_sound
    | with_reducible apply fbLoseIfDue_sound | with_reducible apply addrOutside_ite | with_reducible apply addrOutside2
    | with_reducible apply addrOutside1 | with_reducible apply addrOutside_mod | with_reducible apply addrOutside0
    | exact Nat.zero_lt_succ _ | (exact mask_mono hp rfl)
    | ((with_reducible apply sound_parts) <;> first | (intro _; with_reducible rfl) | exact fun hm => (mask_absurd hp hm rfl).elim | skip)
    | simp (zeta := false) (etaStruct := .none) only [sound_mk] | (extract_lets +onlyGivenNames x; refine sound_have x ?_ ?_; subst x)
    | (extract_lets +onlyGivenNames x; refine sound_fun x ?_; subst x) | (extract_lets +onlyGivenNames x) | split
    | simp (zeta := false) (zetaDelta := true) (etaStruct := .none) only [sound_mk]

theorem fbEnWrite_sound (hp : ms &&& 0x120842040009 = 0) (on : Bool) (s : State) (hs : s.Sound ms sa) : State.Sound ms (fbEnWrite on s) sa := by
  unfold fbEnWrite
  repeat'
    first
    | assumption | (intro _) | with_reducible apply sound_ite | with_reducible apply State.setFsrc_sound
    | with_reducible apply State.wr_sound | with_reducible apply emuPins_sound | with_reducible apply fbStatus_sound
    | with_reducible apply hallTake_sound | with_reducible apply addrOutside_ite | with_reducible apply addrOutside2
    | with_reducible apply addrOutside1 | with_reducible apply addrOutside_mod | with_reducible apply addrOutside0
    | exact Nat.zero_lt_succ _ | with_reducible apply sound_foldl | with_reducible apply sound_foldl_snd | (exact mask_mono hp rfl)
    | ((with_reducible apply sound_parts) <;> first | (intro _; with_reducible rfl) | exact fun hm => (mask_absurd hp hm rfl).elim | skip)
    | simp (zeta := false) (etaStruct := .none) only [sound_mk] | (extract_lets +onlyGivenNames x; refine sound_have x ?_ ?_; subst x)
    | (extract_lets +onlyGivenNames x; refine sound_fun x ?_; subst x) | (extract_lets +onlyGivenNames x) | split
    | simp (zeta := false) (zetaDelta := true) (etaStruct := .none) only [sound_mk]
    | ((with_reducible apply sound_time) <;> first | (intro _; with_reducible rfl) | exact fun hm => (mask_absurd hp hm rfl).elim | skip)
    | omega | exact Nat.le_trans ‹_ ≤ _› (Nat.le_max_left _ _)

theorem fbUsePri_sound (hp : ms &&& 0x20000040001 = 0) (s : State) (hs : s.Sound ms sa) : State.Sound ms (fbUsePri s) sa := by
  unfold fbUsePri
  repeat'
    first
    | assumption | (intro _) | with_reducible apply sound_ite | with_reducible apply State.wr_sound
    | with_reducible apply addrOutside_ite | with_reducible apply addrOutside2 | with_reducible apply addrOutside1
    | with_reducible apply addrOutside_mod | with_reducible apply addrOutside0 | exact Nat.zero_lt_succ _ | (exact mask_mono hp rfl)
    | ((with_reducible apply sound_parts) <;> first | (intro _; with_reducible rfl) | exact fun hm => (mask_absurd hp hm rfl).elim | skip)
    | simp (zeta := false) (etaStruct := .none) only [sound_mk] | (extract_lets +onlyGivenNames x; refine sound_have x ?_ ?_; subst x)
    | (extract_lets +onlyGivenNames x; refine sound_fun x ?_; subst x) | (extract_lets +onlyGivenNames x) | split
    | simp (zeta := false) (zetaDelta := true) (etaStruct := .none) only [sound_mk]

theorem degradedAction_sound (hp : ms &&& 0x100842040009 = 0) (s : State) (hs : s.Sound ms sa) : State.Sound ms (degradedAction s) sa := by
  unfold degradedAction
  repeat'
    first
    | assumption | (intro _) | with_reducible apply sound_ite | with_reducible apply State.cause_sound
    | with_reducible apply State.event_sound | with_reducible apply addrOutside_ite | with_reducible apply addrOutside2
    | with_reducible apply addrOutside1 | with_reducible apply addrOutside_mod | with_reducible apply addrOutside0
    | exact Nat.zero_lt_succ _ | (exact mask_mono hp rfl)
    | ((with_reducible apply sound_parts) <;> first | (intro _; with_reducible rfl) | exact fun hm => (mask_absurd hp hm rfl).elim | skip)
    | simp (zeta := false) (etaStruct := .none) only [sound_mk] | (extract_lets +onlyGivenNames x; refine sound_have x ?_ ?_; subst x)
    | (extract_lets +onlyGivenNames x; refine sound_fun x ?_; subst x) | (extract_lets +onlyGivenNames x) | split
    | simp (zeta := false) (zetaDelta := true) (etaStruct := .none) only [sound_mk]

theorem idxDrift_sound (hp : ms &&& 0x120842040009 = 0) (drift : Nat) (acc : Int) (s : State) (hs : s.Sound ms sa) : State.Sound ms (idxDrift drift acc s) sa := by
  unfold idxDrift
  repeat'
    first
    | assumption | (intro _) | with_reducible apply sound_ite | with_reducible apply State.event_sound
    | with_reducible apply State.inc_sound | with_reducible apply State.setAbz_sound | with_reducible apply State.wr_sound
    | with_reducible apply degradedAction_sound | with_reducible apply addrOutside_ite | with_reducible apply addrOutside2
    | with_reducible apply addrOutside1 | with_reducible apply addrOutside_mod | with_reducible apply addrOutside0
    | exact Nat.zero_lt_succ _ | (exact mask_mono hp rfl)
    | ((with_reducible apply sound_parts) <;> first | (intro _; with_reducible rfl) | exact fun hm => (mask_absurd hp hm rfl).elim | skip)
    | simp (zeta := false) (etaStruct := .none) only [sound_mk] | (extract_lets +onlyGivenNames x; refine sound_have x ?_ ?_; subst x)
    | (extract_lets +onlyGivenNames x; refine sound_fun x ?_; subst x) | (extract_lets +onlyGivenNames x) | split
    | simp (zeta := false) (zetaDelta := true) (etaStruct := .none) only [sound_mk]

theorem idxGood_sound (hp : ms &&& 0x20000040001 = 0) (drift : Int) (s : State) (hs : s.Sound ms sa) : State.Sound ms (idxGood drift s) sa := by
  unfold idxGood
  repeat'
    first
    | assumption | (intro _) | with_reducible apply sound_ite | with_reducible apply State.inc_sound
    | with_reducible apply State.setAbz_sound | with_reducible apply State.wr_sound | with_reducible apply addrOutside_ite
    | with_reducible apply addrOutside2 | with_reducible apply addrOutside1 | with_reducible apply addrOutside_mod
    | with_reducible apply addrOutside0 | exact Nat.zero_lt_succ _ | (exact mask_mono hp rfl)
    | ((with_reducible apply sound_parts) <;> first | (intro _; with_reducible rfl) | exact fun hm => (mask_absurd hp hm rfl).elim | skip)
    | simp (zeta := false) (etaStruct := .none) only [sound_mk] | (extract_lets +onlyGivenNames x; refine sound_have x ?_ ?_; subst x)
    | (extract_lets +onlyGivenNames x; refine sound_fun x ?_; subst x) | (extract_lets +onlyGivenNames x) | split
    | simp (zeta := false) (zetaDelta := true) (etaStruct := .none) only [sound_mk]

theorem indexEdge_sound (hp : ms &&& 0x120842040009 = 0) (s : State) (hs : s.Sound ms sa) : State.Sound ms (indexEdge s) sa := by
  unfold indexEdge
  repeat'
    first
    | assumption | (intro _) | with_reducible apply sound_ite | with_reducible apply State.inc_sound
    | with_reducible apply State.setAbz_sound | with_reducible apply State.setFsrc_sound | with_reducible apply State.wr_sound
    | with_reducible apply idxDrift_sound | with_reducible apply idxGood_sound | with_reducible apply addrOutside_ite
    | with_reducible apply addrOutside2 | with_reducible apply addrOutside1 | with_reducible apply addrOutside_mod
    | with_reducible apply addrOutside0 | exact Nat.zero_lt_succ _ | (exact mask_mono hp rfl)
    | ((with_reducible apply sound_parts) <;> first | (intro _; with_reducible rfl) | exact fun hm => (mask_absurd hp hm rfl).elim | skip)
    | simp (zeta := false) (etaStruct := .none) only [sound_mk] | (extract_lets +onlyGivenNames x; refine sound_have x ?_ ?_; subst x)
    | (extract_lets +onlyGivenNames x; refine sound_fun x ?_; subst x) | (extract_lets +onlyGivenNames x) | split
    | simp (zeta := false) (zetaDelta := true) (etaStruct := .none) only [sound_mk]

theorem indexTake_sound (hp : ms &&& 0x120842040029 = 0) (z : Bool) (t : Nat) (s : State) (hs : s.Sound ms sa) : State.Sound ms (indexTake z t s) sa := by
  unfold indexTake
  repeat'
    first
    | assumption | (intro _) | with_reducible apply sound_ite | with_reducible apply State.setAbz_sound
    | with_reducible apply indexEdge_sound | with_reducible apply addrOutside_ite | with_reducible apply addrOutside2
    | with_reducible apply addrOutside1 | with_reducible apply addrOutside_mod | with_reducible apply addrOutside0
    | exact Nat.zero_lt_succ _ | (exact mask_mono hp rfl)
    | ((with_reducible apply sound_parts) <;> first | (intro _; with_reducible rfl) | exact fun hm => (mask_absurd hp hm rfl).elim | skip)
    | simp (zeta := false) (etaStruct := .none) only [sound_mk] | (extract_lets +onlyGivenNames x; refine sound_have x ?_ ?_; subst x)
    | (extract_lets +onlyGivenNames x; refine sound_fun x ?_; subst x) | (extract_lets +onlyGivenNames x) | split
    | simp (zeta := false) (zetaDelta := true) (etaStruct := .none) only [sound_mk]
    | ((with_reducible apply sound_time) <;> first | (intro _; with_reducible rfl) | exact fun hm => (mask_absurd hp hm rfl).elim | skip)
    | omega | exact Nat.le_trans ‹_ ≤ _› (Nat.le_max_left _ _)

theorem indexLatch_sound (hp : ms &&& 0x120842040029 = 0) (z : Bool) (s : State) (hs : s.Sound ms sa) : State.Sound ms (indexLatch z s) sa := by
  unfold indexLatch
  repeat'
    first
    | assumption | (intro _) | with_reducible apply sound_ite | with_reducible apply State.setAbz_sound
    | with_reducible apply indexTake_sound | with_reducible apply addrOutside_ite | with_reducible apply addrOutside2
    | with_reducible apply addrOutside1 | with_reducible apply addrOutside_mod | with_reducible apply addrOutside0
    | exact Nat.zero_lt_succ _ | (exact mask_mono hp rfl)
    | ((with_reducible apply sound_parts) <;> first | (intro _; with_reducible rfl) | exact fun hm => (mask_absurd hp hm rfl).elim | skip)
    | simp (zeta := false) (etaStruct := .none) only [sound_mk] | (extract_lets +onlyGivenNames x; refine sound_have x ?_ ?_; subst x)
    | (extract_lets +onlyGivenNames x; refine sound_fun x ?_; subst x) | (extract_lets +onlyGivenNames x) | split
    | simp (zeta := false) (zetaDelta := true) (etaStruct := .none) only [sound_mk]
    | ((with_reducible apply sound_time) <;> first | (intro _; with_reducible rfl) | exact fun hm => (mask_absurd hp hm rfl).elim | skip)
    | omega | exact Nat.le_trans ‹_ ≤ _› (Nat.le_max_left _ _)

theorem indexMissIfDue_sound (hp : ms &&& 0x120842040009 = 0) (s : State) (hs : s.Sound ms sa) : State.Sound ms (indexMissIfDue s) sa := by
  unfold indexMissIfDue
  repeat'
    first
    | assumption | (intro _) | with_reducible apply sound_ite | with_reducible apply State.setAbz_sound
    | with_reducible apply State.wr_sound | with_reducible apply idxDrift_sound | with_reducible apply addrOutside_ite
    | with_reducible apply addrOutside2 | with_reducible apply addrOutside1 | with_reducible apply addrOutside_mod
    | with_reducible apply addrOutside0 | exact Nat.zero_lt_succ _ | (exact mask_mono hp rfl)
    | ((with_reducible apply sound_parts) <;> first | (intro _; with_reducible rfl) | exact fun hm => (mask_absurd hp hm rfl).elim | skip)
    | simp (zeta := false) (etaStruct := .none) only [sound_mk] | (extract_lets +onlyGivenNames x; refine sound_have x ?_ ?_; subst x)
    | (extract_lets +onlyGivenNames x; refine sound_fun x ?_; subst x) | (extract_lets +onlyGivenNames x) | split
    | simp (zeta := false) (zetaDelta := true) (etaStruct := .none) only [sound_mk]

theorem fbCorrect_sound (hp : ms &&& 0x40000 = 0) (s : State) (hs : s.Sound ms sa) : State.Sound ms (fbCorrect s) sa := by
  unfold fbCorrect
  repeat'
    first
    | assumption | (intro _) | with_reducible apply sound_ite | with_reducible apply State.setAbz_sound | (exact mask_mono hp rfl)
    | ((with_reducible apply sound_parts) <;> first | (intro _; with_reducible rfl) | exact fun hm => (mask_absurd hp hm rfl).elim | skip)
    | simp (zeta := false) (etaStruct := .none) only [sound_mk] | (extract_lets +onlyGivenNames x; refine sound_have x ?_ ?_; subst x)
    | (extract_lets +onlyGivenNames x; refine sound_fun x ?_; subst x) | (extract_lets +onlyGivenNames x) | split
    | simp (zeta := false) (zetaDelta := true) (etaStruct := .none) only [sound_mk]

theorem fbCorrections_sound (hp : ms &&& 0x20000040001 = 0) (s : State) (hs : s.Sound ms sa) : State.Sound ms (fbCorrections s) sa := by
  unfold fbCorrections
  repeat'
    first
    | assumption | (intro _) | with_reducible apply sound_ite | with_reducible apply State.wr_sound
    | with_reducible apply addrOutside_ite | with_reducible apply addrOutside2 | with_reducible apply addrOutside1
    | with_reducible apply addrOutside_mod | with_reducible apply addrOutside0 | exact Nat.zero_lt_succ _ | (exact mask_mono hp rfl)
    | ((with_reducible apply sound_parts) <;> first | (intro _; with_reducible rfl) | exact fun hm => (mask_absurd hp hm rfl).elim | skip)
    | simp (zeta := false) (etaStruct := .none) only [sound_mk] | (extract_lets +onlyGivenNames x; refine sound_have x ?_ ?_; subst x)
    | (extract_lets +onlyGivenNames x; refine sound_fun x ?_; subst x) | (extract_lets +onlyGivenNames x) | split
    | simp (zeta := false) (zetaDelta := true) (etaStruct := .none) only [sound_mk]

theorem fbDirection_sound (hp : ms &&& 0x20000040001 = 0) (up : Bool) (before : Int) (s : State) (hs : s.Sound ms sa) : State.Sound ms (fbDirection up before s) sa := by
  unfold fbDirection
  repeat'
    first
    | assumption | (intro _) | with_reducible apply sound_ite | with_reducible apply State.wr_sound
    | with_reducible apply addrOutside_ite | with_reducible apply addrOutside2 | with_reducible apply addrOutside1
    | with_reducible apply addrOutside_mod | with_reducible apply addrOutside0 | exact Nat.zero_lt_succ _ | (exact mask_mono hp rfl)
    | ((with_reducible apply sound_parts) <;> first | (intro _; with_reducible rfl) | exact fun hm => (mask_absurd hp hm rfl).elim | skip)
    | simp (zeta := false) (etaStruct := .none) only [sound_mk] | (extract_lets +onlyGivenNames x; refine sound_have x ?_ ?_; subst x)
    | (extract_lets +onlyGivenNames x; refine sound_fun x ?_; subst x) | (extract_lets +onlyGivenNames x) | split
    | simp (zeta := false) (zetaDelta := true) (etaStruct := .none) only [sound_mk]

theorem encoderTake_sound (hp : ms &&& 0x120842040009 = 0) (a b : Bool) (t : Nat) (s : State) (hs : s.Sound ms sa) : State.Sound ms (encoderTake a b t s) sa := by
  unfold encoderTake
  repeat'
    first
    | assumption | (intro _) | with_reducible apply sound_ite | with_reducible apply State.inc_sound
    | with_reducible apply State.setAbz_sound | with_reducible apply State.setFsrc_sound | with_reducible apply State.setPosx_sound
    | with_reducible apply State.wr_sound | with_reducible apply emuTrack_sound | with_reducible apply fbDirection_sound
    | with_reducible apply fbLoseIfDue_sound | with_reducible apply indexMissIfDue_sound | with_reducible apply addrOutside_ite
    | with_reducible apply addrOutside2 | with_reducible apply addrOutside1 | with_reducible apply addrOutside_mod
    | with_reducible apply addrOutside0 | exact Nat.zero_lt_succ _ | (exact mask_mono hp rfl)
    | ((with_reducible apply sound_parts) <;> first | (intro _; with_reducible rfl) | exact fun hm => (mask_absurd hp hm rfl).elim | skip)
    | simp (zeta := false) (etaStruct := .none) only [sound_mk] | (extract_lets +onlyGivenNames x; refine sound_have x ?_ ?_; subst x)
    | (extract_lets +onlyGivenNames x; refine sound_fun x ?_; subst x) | (extract_lets +onlyGivenNames x) | split
    | simp (zeta := false) (zetaDelta := true) (etaStruct := .none) only [sound_mk]

theorem encoderEdge_sound (hp : ms &&& 0x120842040009 = 0) (a b : Bool) (s : State) (hs : s.Sound ms sa) : State.Sound ms (encoderEdge a b s) sa := by
  unfold encoderEdge
  repeat'
    first
    | assumption | (intro _) | with_reducible apply sound_ite | with_reducible apply State.setAbz_sound
    | with_reducible apply encoderTake_sound | with_reducible apply addrOutside_ite | with_reducible apply addrOutside2
    | with_reducible apply addrOutside1 | with_reducible apply addrOutside_mod | with_reducible apply addrOutside0
    | exact Nat.zero_lt_succ _ | (exact mask_mono hp rfl)
    | ((with_reducible apply sound_parts) <;> first | (intro _; with_reducible rfl) | exact fun hm => (mask_absurd hp hm rfl).elim | skip)
    | simp (zeta := false) (etaStruct := .none) only [sound_mk] | (extract_lets +onlyGivenNames x; refine sound_have x ?_ ?_; subst x)
    | (extract_lets +onlyGivenNames x; refine sound_fun x ?_; subst x) | (extract_lets +onlyGivenNames x) | split
    | simp (zeta := false) (zetaDelta := true) (etaStruct := .none) only [sound_mk]
    | ((with_reducible apply sound_time) <;> first | (intro _; with_reducible rfl) | exact fun hm => (mask_absurd hp hm rfl).elim | skip)
    | omega | exact Nat.le_trans ‹_ ≤ _› (Nat.le_max_left _ _)

theorem lateEdges_sound (hp : ms &&& 0x120842040029 = 0) (s : State) (hs : s.Sound ms sa) : State.Sound ms (lateEdges s) sa := by
  unfold lateEdges
  repeat'
    first
    | assumption | (intro _) | with_reducible apply sound_ite | with_reducible apply State.setAbz_sound
    | with_reducible apply encoderTake_sound | with_reducible apply indexTake_sound | with_reducible apply addrOutside_ite
    | with_reducible apply addrOutside2 | with_reducible apply addrOutside1 | with_reducible apply addrOutside_mod
    | with_reducible apply addrOutside0 | exact Nat.zero_lt_succ _ | with_reducible apply sound_foldl
    | with_reducible apply sound_foldl_snd | (exact mask_mono hp rfl)
    | ((with_reducible apply sound_parts) <;> first | (intro _; with_reducible rfl) | exact fun hm => (mask_absurd hp hm rfl).elim | skip)
    | simp (zeta := false) (etaStruct := .none) only [sound_mk] | (extract_lets +onlyGivenNames x; refine sound_have x ?_ ?_; subst x)
    | (extract_lets +onlyGivenNames x; refine sound_fun x ?_; subst x) | (extract_lets +onlyGivenNames x) | split
    | simp (zeta := false) (zetaDelta := true) (etaStruct := .none) only [sound_mk]

theorem lineFault_sound (hp : ms &&& 0x120842040009 = 0) (pair : Fin 3) (present : Bool) (s : State) (hs : s.Sound ms sa) : State.Sound ms (lineFault pair present s) sa := by
  unfold lineFault
  repeat'
    first
    | assumption | (intro _) | with_reducible apply sound_ite | with_reducible apply State.wr_sound
    | with_reducible apply fbLoseIfDue_sound | with_reducible apply addrOutside_ite | with_reducible apply addrOutside2
    | with_reducible apply addrOutside1 | with_reducible apply addrOutside_mod | with_reducible apply addrOutside0
    | exact Nat.zero_lt_succ _ | (exact mask_mono hp rfl)
    | ((with_reducible apply sound_parts) <;> first | (intro _; with_reducible rfl) | exact fun hm => (mask_absurd hp hm rfl).elim | skip)
    | simp (zeta := false) (etaStruct := .none) only [sound_mk] | (extract_lets +onlyGivenNames x; refine sound_have x ?_ ?_; subst x)
    | (extract_lets +onlyGivenNames x; refine sound_fun x ?_; subst x) | (extract_lets +onlyGivenNames x) | split
    | simp (zeta := false) (zetaDelta := true) (etaStruct := .none) only [sound_mk]

theorem fbSample_sound (hp : ms &&& 0x40000 = 0) (code : Nat) (posx : Int) (angle : Rat) (t : Nat) (s : State) (hs : s.Sound ms sa) : State.Sound ms (fbSample code posx angle t s) sa := by
  unfold fbSample
  repeat'
    first
    | assumption | (intro _) | with_reducible apply sound_ite | with_reducible apply State.setFsrc_sound
    | with_reducible apply State.setPosx_sound | (exact mask_mono hp rfl)
    | ((with_reducible apply sound_parts) <;> first | (intro _; with_reducible rfl) | exact fun hm => (mask_absurd hp hm rfl).elim | skip)
    | simp (zeta := false) (etaStruct := .none) only [sound_mk] | (extract_lets +onlyGivenNames x; refine sound_have x ?_ ?_; subst x)
    | (extract_lets +onlyGivenNames x; refine sound_fun x ?_; subst x) | (extract_lets +onlyGivenNames x) | split
    | simp (zeta := false) (zetaDelta := true) (etaStruct := .none) only [sound_mk]

theorem quarterPeriod_sound (hp : ms &&& 0x40000 = 0) (up : Bool) (s : State) (hs : s.Sound ms sa) : State.Sound ms (quarterPeriod up s) sa := by
  unfold quarterPeriod
  repeat'
    first
    | assumption | (intro _) | with_reducible apply sound_ite | (exact mask_mono hp rfl)
    | ((with_reducible apply sound_parts) <;> first | (intro _; with_reducible rfl) | exact fun hm => (mask_absurd hp hm rfl).elim | skip)
    | simp (zeta := false) (etaStruct := .none) only [sound_mk] | (extract_lets +onlyGivenNames x; refine sound_have x ?_ ?_; subst x)
    | (extract_lets +onlyGivenNames x; refine sound_fun x ?_; subst x) | (extract_lets +onlyGivenNames x) | split
    | simp (zeta := false) (zetaDelta := true) (etaStruct := .none) only [sound_mk]

theorem sincosSample_sound (hp : ms &&& 0x120842040029 = 0) (sin cos : BitVec 16) (s : State) (hs : s.Sound ms sa) : State.Sound ms (sincosSample sin cos s) sa := by
  unfold sincosSample
  repeat'
    first
    | assumption | (intro _) | with_reducible apply sound_ite | with_reducible apply State.setFsrc_sound
    | with_reducible apply State.wr_sound | with_reducible apply emuTrack_sound | with_reducible apply fbDirection_sound
    | with_reducible apply fbLoseIfDue_sound | with_reducible apply fbSample_sound | with_reducible apply indexMissIfDue_sound
    | with_reducible apply addrOutside_ite | with_reducible apply addrOutside2 | with_reducible apply addrOutside1
    | with_reducible apply addrOutside_mod | with_reducible apply addrOutside0 | exact Nat.zero_lt_succ _ | (exact mask_mono hp rfl)
    | ((with_reducible apply sound_parts) <;> first | (intro _; with_reducible rfl) | exact fun hm => (mask_absurd hp hm rfl).elim | skip)
    | simp (zeta := false) (etaStruct := .none) only [sound_mk] | (extract_lets +onlyGivenNames x; refine sound_have x ?_ ?_; subst x)
    | (extract_lets +onlyGivenNames x; refine sound_fun x ?_; subst x) | (extract_lets +onlyGivenNames x) | split
    | simp (zeta := false) (zetaDelta := true) (etaStruct := .none) only [sound_mk]
    | ((with_reducible apply sound_time) <;> first | (intro _; with_reducible rfl) | exact fun hm => (mask_absurd hp hm rfl).elim | skip)
    | omega | exact Nat.le_trans ‹_ ≤ _› (Nat.le_max_left _ _)

theorem resolverSample_sound (hp : ms &&& 0x120842040029 = 0) (sin cos : BitVec 16) (excOk : Bool) (s : State) (hs : s.Sound ms sa) :
    State.Sound ms (resolverSample sin cos excOk s) sa := by
  unfold resolverSample
  extract_lets pk t0 a sg x y amp bad b c d ang o posx e
  split
  · exact hs
  · have ha : a.Sound ms sa :=
      { hs with time := fun w => Nat.le_trans (hs.time w) (Nat.le_max_left _ _), same := fun p hm => by have h1 := hs.same p hm; cases p <;> first | exact (mask_absurd hp hm rfl).elim | exact h1 }
    clear_value a
    have hb : b.Sound ms sa := State.setFsrc_sound (mask_mono hp rfl) _ _ _ (State.wr_sound (mask_mono hp rfl) _ _ _ (by first | assumption | exact addrOutside_all (mask_mono hp rfl) | (with_reducible apply addrOutside2 <;> first | exact mask_mono hp rfl | exact Nat.zero_lt_succ _) | (with_reducible apply addrOutside1 <;> first | exact mask_mono hp rfl | exact Nat.zero_lt_succ _) | (with_reducible apply addrOutside0; exact mask_mono hp rfl)) ha)
    clear_value b
    have hc : c.Sound ms sa := sound_ite (State.wr_sound (mask_mono hp rfl) _ _ _ (by first | assumption | exact addrOutside_all (mask_mono hp rfl) | (with_reducible apply addrOutside2 <;> first | exact mask_mono hp rfl | exact Nat.zero_lt_succ _) | (with_reducible apply addrOutside1 <;> first | exact mask_mono hp rfl | exact Nat.zero_lt_succ _) | (with_reducible apply addrOutside0; exact mask_mono hp rfl)) hb) hb
    clear_value c
    have hd : d.Sound ms sa := State.wr_sound (mask_mono hp rfl) _ _ _ (by first | assumption | exact addrOutside_all (mask_mono hp rfl) | (with_reducible apply addrOutside2 <;> first | exact mask_mono hp rfl | exact Nat.zero_lt_succ _) | (with_reducible apply addrOutside1 <;> first | exact mask_mono hp rfl | exact Nat.zero_lt_succ _) | (with_reducible apply addrOutside0; exact mask_mono hp rfl)) hc
    clear_value d
    have he : e.Sound ms sa := fbSample_sound (mask_mono hp rfl) _ _ _ _ _ (State.setFsrc_sound (mask_mono hp rfl) _ _ _ hd)
    clear_value e
    exact emuTrack_sound (mask_mono hp rfl) _ (fbLoseIfDue_sound (mask_mono hp rfl) _ _ he)

theorem ssiBad_sound (hp : ms &&& 0x120842040009 = 0) (s : State) (hs : s.Sound ms sa) : State.Sound ms (ssiBad s) sa := by
  unfold ssiBad
  repeat'
    first
    | assumption | (intro _) | with_reducible apply sound_ite | with_reducible apply State.inc_sound
    | with_reducible apply State.setFsrc_sound | with_reducible apply fbLoseIfDue_sound | with_reducible apply addrOutside_ite
    | with_reducible apply addrOutside2 | with_reducible apply addrOutside1 | with_reducible apply addrOutside_mod
    | with_reducible apply addrOutside0 | exact Nat.zero_lt_succ _ | (exact mask_mono hp rfl)
    | ((with_reducible apply sound_parts) <;> first | (intro _; with_reducible rfl) | exact fun hm => (mask_absurd hp hm rfl).elim | skip)
    | simp (zeta := false) (etaStruct := .none) only [sound_mk] | (extract_lets +onlyGivenNames x; refine sound_have x ?_ ?_; subst x)
    | (extract_lets +onlyGivenNames x; refine sound_fun x ?_; subst x) | (extract_lets +onlyGivenNames x) | split
    | simp (zeta := false) (zetaDelta := true) (etaStruct := .none) only [sound_mk]

theorem ssiFrame_sound (hp : ms &&& 0x120842040029 = 0) (bits : List Bool) (s : State) (hs : s.Sound ms sa) : State.Sound ms (ssiFrame bits s) sa := by
  unfold ssiFrame
  repeat'
    first
    | assumption | (intro _) | with_reducible apply sound_ite | with_reducible apply State.advanceTo_sound
    | with_reducible apply State.setFsrc_sound | with_reducible apply State.wr_sound | with_reducible apply emuTrack_sound
    | with_reducible apply fbSample_sound | with_reducible apply ssiBad_sound | with_reducible apply addrOutside_ite
    | with_reducible apply addrOutside2 | with_reducible apply addrOutside1 | with_reducible apply addrOutside_mod
    | with_reducible apply addrOutside0 | exact Nat.zero_lt_succ _ | with_reducible apply sound_foldl
    | with_reducible apply sound_foldl_snd | (exact mask_mono hp rfl)
    | ((with_reducible apply sound_parts) <;> first | (intro _; with_reducible rfl) | exact fun hm => (mask_absurd hp hm rfl).elim | skip)
    | simp (zeta := false) (etaStruct := .none) only [sound_mk] | (extract_lets +onlyGivenNames x; refine sound_have x ?_ ?_; subst x)
    | (extract_lets +onlyGivenNames x; refine sound_fun x ?_; subst x) | (extract_lets +onlyGivenNames x) | split
    | simp (zeta := false) (zetaDelta := true) (etaStruct := .none) only [sound_mk]
    | ((with_reducible apply sound_time) <;> first | (intro _; with_reducible rfl) | exact fun hm => (mask_absurd hp hm rfl).elim | skip)
    | omega | exact Nat.le_trans ‹_ ≤ _› (Nat.le_max_left _ _)

theorem hallTransition_sound (hp : ms &&& 0x120842040009 = 0) (code : Fin 8) (s : State) (hs : s.Sound ms sa) : State.Sound ms (hallTransition code s) sa := by
  unfold hallTransition
  repeat'
    first
    | assumption | (intro _) | with_reducible apply sound_ite | with_reducible apply State.wr_sound
    | with_reducible apply hallTake_sound | with_reducible apply addrOutside_ite | with_reducible apply addrOutside2
    | with_reducible apply addrOutside1 | with_reducible apply addrOutside_mod | with_reducible apply addrOutside0
    | exact Nat.zero_lt_succ _ | (exact mask_mono hp rfl)
    | ((with_reducible apply sound_parts) <;> first | (intro _; with_reducible rfl) | exact fun hm => (mask_absurd hp hm rfl).elim | skip)
    | simp (zeta := false) (etaStruct := .none) only [sound_mk] | (extract_lets +onlyGivenNames x; refine sound_have x ?_ ?_; subst x)
    | (extract_lets +onlyGivenNames x; refine sound_fun x ?_; subst x) | (extract_lets +onlyGivenNames x) | split
    | simp (zeta := false) (zetaDelta := true) (etaStruct := .none) only [sound_mk]
    | ((with_reducible apply sound_time) <;> first | (intro _; with_reducible rfl) | exact fun hm => (mask_absurd hp hm rfl).elim | skip)
    | omega | exact Nat.le_trans ‹_ ≤ _› (Nat.le_max_left _ _)

theorem hallTimeoutIfDue_sound (hp : ms &&& 0x40000 = 0) (s : State) (hs : s.Sound ms sa) : State.Sound ms (hallTimeoutIfDue s) sa := by
  unfold hallTimeoutIfDue
  repeat'
    first
    | assumption | (intro _) | with_reducible apply sound_ite | (exact mask_mono hp rfl)
    | ((with_reducible apply sound_parts) <;> first | (intro _; with_reducible rfl) | exact fun hm => (mask_absurd hp hm rfl).elim | skip)
    | simp (zeta := false) (etaStruct := .none) only [sound_mk] | (extract_lets +onlyGivenNames x; refine sound_have x ?_ ?_; subst x)
    | (extract_lets +onlyGivenNames x; refine sound_fun x ?_; subst x) | (extract_lets +onlyGivenNames x) | split
    | simp (zeta := false) (zetaDelta := true) (etaStruct := .none) only [sound_mk]
    | ((with_reducible apply sound_time) <;> first | (intro _; with_reducible rfl) | exact fun hm => (mask_absurd hp hm rfl).elim | skip)
    | omega | exact Nat.le_trans ‹_ ≤ _› (Nat.le_max_left _ _)

theorem fbPost_sound (hp : ms &&& 0x20000040001 = 0) (theta omega : Rat) (pos : Int) (s : State) (hs : s.Sound ms sa) : State.Sound ms (fbPost theta omega pos s) sa := by
  unfold fbPost
  repeat'
    first
    | assumption | (intro _) | with_reducible apply sound_ite | with_reducible apply State.postQ_sound
    | with_reducible apply State.wr_sound | with_reducible apply addrOutside_ite | with_reducible apply addrOutside2
    | with_reducible apply addrOutside1 | with_reducible apply addrOutside_mod | with_reducible apply addrOutside0
    | exact Nat.zero_lt_succ _ | (exact mask_mono hp rfl)
    | ((with_reducible apply sound_parts) <;> first | (intro _; with_reducible rfl) | exact fun hm => (mask_absurd hp hm rfl).elim | skip)
    | simp (zeta := false) (etaStruct := .none) only [sound_mk] | (extract_lets +onlyGivenNames x; refine sound_have x ?_ ?_; subst x)
    | (extract_lets +onlyGivenNames x; refine sound_fun x ?_; subst x) | (extract_lets +onlyGivenNames x) | split
    | simp (zeta := false) (zetaDelta := true) (etaStruct := .none) only [sound_mk]

theorem fbLatch_sound (hp : ms &&& 0x20000040001 = 0) (s : State) (hs : s.Sound ms sa) : State.Sound ms (fbLatch s) sa := by
  unfold fbLatch
  repeat'
    first
    | assumption | (intro _) | with_reducible apply sound_ite | with_reducible apply fbPost_sound | with_reducible apply addrOutside_ite
    | with_reducible apply addrOutside2 | with_reducible apply addrOutside1 | with_reducible apply addrOutside_mod
    | with_reducible apply addrOutside0 | exact Nat.zero_lt_succ _ | (exact mask_mono hp rfl)
    | ((with_reducible apply sound_parts) <;> first | (intro _; with_reducible rfl) | exact fun hm => (mask_absurd hp hm rfl).elim | skip)
    | simp (zeta := false) (etaStruct := .none) only [sound_mk] | (extract_lets +onlyGivenNames x; refine sound_have x ?_ ?_; subst x)
    | (extract_lets +onlyGivenNames x; refine sound_fun x ?_; subst x) | (extract_lets +onlyGivenNames x) | split
    | simp (zeta := false) (zetaDelta := true) (etaStruct := .none) only [sound_mk]

theorem fbHistories_sound (hp : ms &&& 0x40000 = 0) (s : State) (hs : s.Sound ms sa) : State.Sound ms (fbHistories s) sa := by
  unfold fbHistories
  repeat'
    first
    | assumption | (intro _) | with_reducible apply sound_ite | with_reducible apply State.setAbz_sound
    | with_reducible apply State.setFsrc_sound | with_reducible apply sound_foldl | with_reducible apply sound_foldl_snd
    | (exact mask_mono hp rfl)
    | ((with_reducible apply sound_parts) <;> first | (intro _; with_reducible rfl) | exact fun hm => (mask_absurd hp hm rfl).elim | skip)
    | simp (zeta := false) (etaStruct := .none) only [sound_mk] | (extract_lets +onlyGivenNames x; refine sound_have x ?_ ?_; subst x)
    | (extract_lets +onlyGivenNames x; refine sound_fun x ?_; subst x) | (extract_lets +onlyGivenNames x) | split
    | simp (zeta := false) (zetaDelta := true) (etaStruct := .none) only [sound_mk]

theorem fbValidity_sound (hp : ms &&& 0x100842040009 = 0) (s : State) (hs : s.Sound ms sa) : (fbValidity s).Sound ms sa := by
  unfold fbValidity
  refine sound_foldl _ (sound_upd hs (fun p hm => by cases p <;> first | exact (mask_absurd hp hm rfl).elim | rfl)) (fun s c h => sound_ite ?_ ?_)
  · exact fbLose_sound (mask_mono hp rfl) c s h
  · exact sourceValidIfDue_sound (mask_mono hp rfl) c _ (State.setFsrc_sound (mask_mono hp rfl) s c _ h)

theorem fbChange_sound (hp : ms &&& 0x120842040009 = 0) (lossPend : Bool) (want : Option Nat) (s : State) (hs : s.Sound ms sa) : State.Sound ms (fbChange lossPend want s) sa := by
  unfold fbChange
  repeat'
    first
    | assumption | (intro _) | with_reducible apply sound_ite | with_reducible apply State.cause_sound
    | with_reducible apply State.event_sound | with_reducible apply fbSwitch_sound | with_reducible apply addrOutside_ite
    | with_reducible apply addrOutside2 | with_reducible apply addrOutside1 | with_reducible apply addrOutside_mod
    | with_reducible apply addrOutside0 | exact Nat.zero_lt_succ _ | (exact mask_mono hp rfl)
    | ((with_reducible apply sound_parts) <;> first | (intro _; with_reducible rfl) | exact fun hm => (mask_absurd hp hm rfl).elim | skip)
    | simp (zeta := false) (etaStruct := .none) only [sound_mk] | (extract_lets +onlyGivenNames x; refine sound_have x ?_ ?_; subst x)
    | (extract_lets +onlyGivenNames x; refine sound_fun x ?_; subst x) | (extract_lets +onlyGivenNames x) | split
    | simp (zeta := false) (zetaDelta := true) (etaStruct := .none) only [sound_mk]

theorem fbRestartIfDue_sound (hp : ms &&& 0x40000 = 0) (s : State) (hs : s.Sound ms sa) : State.Sound ms (fbRestartIfDue s) sa := by
  unfold fbRestartIfDue
  repeat'
    first
    | assumption | (intro _) | with_reducible apply sound_ite | with_reducible apply fbWindowRestart_sound | (exact mask_mono hp rfl)
    | ((with_reducible apply sound_parts) <;> first | (intro _; with_reducible rfl) | exact fun hm => (mask_absurd hp hm rfl).elim | skip)
    | simp (zeta := false) (etaStruct := .none) only [sound_mk] | (extract_lets +onlyGivenNames x; refine sound_have x ?_ ?_; subst x)
    | (extract_lets +onlyGivenNames x; refine sound_fun x ?_; subst x) | (extract_lets +onlyGivenNames x) | split
    | simp (zeta := false) (zetaDelta := true) (etaStruct := .none) only [sound_mk]
    | ((with_reducible apply sound_time) <;> first | (intro _; with_reducible rfl) | exact fun hm => (mask_absurd hp hm rfl).elim | skip)
    | omega | exact Nat.le_trans ‹_ ≤ _› (Nat.le_max_left _ _)

theorem feedbackBoundary_sound (hp : ms &&& 0x120842040029 = 0) (s : State) (hs : s.Sound ms sa) : State.Sound ms (feedbackBoundary s) sa := by
  unfold feedbackBoundary
  split
  · exact hs
  · extract_lets a f b0 b d e0 e
    have hb : b.Sound ms sa := (sound_upd hs (fun p hm => by cases p <;> first | exact (mask_absurd hp hm rfl).elim | rfl))
    clear_value b
    have hd : d.Sound ms sa := fbStatus_sound (mask_mono hp rfl) _ (fbValidity_sound (mask_mono hp rfl) _ (hallTimeoutIfDue_sound (mask_mono hp rfl) _ (indexMissIfDue_sound (mask_mono hp rfl) _ (fbCorrections_sound (mask_mono hp rfl) _ hb))))
    clear_value d
    have he : e.Sound ms sa := (sound_upd hd (fun p hm => by cases p <;> first | exact (mask_absurd hp hm rfl).elim | rfl))
    clear_value e
    exact lateEdges_sound (mask_mono hp rfl) _ (emuTrack_sound (mask_mono hp rfl) _ (fbHistories_sound (mask_mono hp rfl) _ (fbRestartIfDue_sound (mask_mono hp rfl) _ (fbLatch_sound (mask_mono hp rfl) _ (fbChange_sound (mask_mono hp rfl) _ _ _ he)))))

theorem fbSwitchNow_sound (hp : ms &&& 0x20000040001 = 0) (code why : Nat) (s : State) (hs : s.Sound ms sa) : State.Sound ms (fbSwitchNow code why s) sa := by
  unfold fbSwitchNow
  repeat'
    first
    | assumption | (intro _) | with_reducible apply sound_ite | with_reducible apply State.wr_sound | with_reducible apply fbLatch_sound
    | with_reducible apply fbRestartIfDue_sound | with_reducible apply fbSwitch_sound | with_reducible apply addrOutside_ite
    | with_reducible apply addrOutside2 | with_reducible apply addrOutside1 | with_reducible apply addrOutside_mod
    | with_reducible apply addrOutside0 | exact Nat.zero_lt_succ _ | (exact mask_mono hp rfl)
    | ((with_reducible apply sound_parts) <;> first | (intro _; with_reducible rfl) | exact fun hm => (mask_absurd hp hm rfl).elim | skip)
    | simp (zeta := false) (etaStruct := .none) only [sound_mk] | (extract_lets +onlyGivenNames x; refine sound_have x ?_ ?_; subst x)
    | (extract_lets +onlyGivenNames x; refine sound_fun x ?_; subst x) | (extract_lets +onlyGivenNames x) | split
    | simp (zeta := false) (zetaDelta := true) (etaStruct := .none) only [sound_mk]

end Sys2Proof.Machine
end

