-- ==== Sys2Proof/Laws/SoundViews.lean ====
section
/-! SUPPORT. The operations of Machine/Views.lean keep a state sound. -/

set_option Elab.async false

namespace Sys2Proof.Machine

variable {ms : Nat} {sa : State}

end Sys2Proof.Machine
end

