-- ==== Sys2Proof/Laws/SoundAccess.lean ====
section
/-! SUPPORT. The operations of Machine/Access.lean keep a state sound. -/

set_option Elab.async false

namespace Sys2Proof.Machine

variable {ms : Nat} {sa : State}

theorem readEffects_sound (hp : ms &&& 0x12120400000001 = 0) (a : Nat) (s : State) (hw0 : AddrOutside ms a) (hs : s.Sound ms sa) : State.Sound ms (readEffects a s) sa := by
  have hl : ∀ (t : State) f v, t.latchOf a = some (f, v) → AddrOutside ms f.addr := by
    intro t f v h
    unfold State.latchOf at h
    repeat'
      first
      | cases h | split at h | (with_reducible apply addrOutside1) | (with_reducible apply addrOutside0) | (exact mask_mono hp rfl)
      | (exact Nat.zero_lt_succ _)
  unfold readEffects
  extract_lets rc x y
  have hx : State.Sound ms x sa := sound_ite hs (State.setWord_sound (mask_mono hp rfl) s a _ (by first | assumption | exact addrOutside_all (mask_mono hp rfl) | (with_reducible apply addrOutside2 <;> first | exact mask_mono hp rfl | exact Nat.zero_lt_succ _) | (with_reducible apply addrOutside1 <;> first | exact mask_mono hp rfl | exact Nat.zero_lt_succ _) | (with_reducible apply addrOutside0; exact mask_mono hp rfl)) hs)
  clear_value x
  have hy : State.Sound ms y sa := by
    show State.Sound ms (match x.latchOf a with | some (f, v) => x.wr f v | none => x) sa
    split
    · next f v h => exact State.wr_sound (mask_mono hp rfl) x f v (hl x f v h) hx
    · exact hx
  clear_value y
  exact sound_ite (State.wr_sound (mask_mono hp rfl) _ _ _ (by first | assumption | exact addrOutside_all (mask_mono hp rfl) | (with_reducible apply addrOutside2 <;> first | exact mask_mono hp rfl | exact Nat.zero_lt_succ _) | (with_reducible apply addrOutside1 <;> first | exact mask_mono hp rfl | exact Nat.zero_lt_succ _) | (with_reducible apply addrOutside0; exact mask_mono hp rfl)) hy) (sound_ite (State.wr_sound (mask_mono hp rfl) _ _ _ (by first | assumption | exact addrOutside_all (mask_mono hp rfl) | (with_reducible apply addrOutside2 <;> first | exact mask_mono hp rfl | exact Nat.zero_lt_succ _) | (with_reducible apply addrOutside1 <;> first | exact mask_mono hp rfl | exact Nat.zero_lt_succ _) | (with_reducible apply addrOutside0; exact mask_mono hp rfl)) hy) hy)

theorem busRead_sound (hp : ms &&& 0x12120C02000009 = 0) (a requester : Nat) (s : State) (hw0 : AddrOutside ms a) (hs : s.Sound ms sa) : State.Sound ms (busRead a requester s).2.2 sa := by
  unfold busRead
  repeat'
    first
    | assumption | (intro _) | with_reducible apply sound_ite | with_reducible apply State.badAddr_sound
    | with_reducible apply readEffects_sound | with_reducible apply addrOutside_ite | with_reducible apply addrOutside2
    | with_reducible apply addrOutside1 | with_reducible apply addrOutside_mod | with_reducible apply addrOutside0
    | exact Nat.zero_lt_succ _ | (exact mask_mono hp rfl)
    | ((with_reducible apply sound_parts) <;> first | (intro _; with_reducible rfl) | exact fun hm => (mask_absurd hp hm rfl).elim | skip)
    | simp (zeta := false) (etaStruct := .none) only [sound_mk] | (extract_lets +onlyGivenNames x; refine sound_have x ?_ ?_; subst x)
    | (extract_lets +onlyGivenNames x; refine sound_fun x ?_; subst x) | (extract_lets +onlyGivenNames x) | split
    | simp (zeta := false) (zetaDelta := true) (etaStruct := .none) only [sound_mk]

theorem registerRead_sound (hp : ms &&& 0x12120C82000009 = 0) (a : Nat) (s : State) (hw0 : AddrOutside ms a) (hs : s.Sound ms sa) : State.Sound ms (registerRead a s) sa := by
  unfold registerRead
  repeat'
    first
    | assumption | (intro _) | with_reducible apply sound_ite | with_reducible apply State.answer_sound
    | with_reducible apply busRead_sound | with_reducible apply addrOutside_ite | with_reducible apply addrOutside2
    | with_reducible apply addrOutside1 | with_reducible apply addrOutside_mod | with_reducible apply addrOutside0
    | exact Nat.zero_lt_succ _ | (exact mask_mono hp rfl)
    | ((with_reducible apply sound_parts) <;> first | (intro _; with_reducible rfl) | exact fun hm => (mask_absurd hp hm rfl).elim | skip)
    | simp (zeta := false) (etaStruct := .none) only [sound_mk] | (extract_lets +onlyGivenNames x; refine sound_have x ?_ ?_; subst x)
    | (extract_lets +onlyGivenNames x; refine sound_fun x ?_; subst x) | (extract_lets +onlyGivenNames x) | split
    | simp (zeta := false) (zetaDelta := true) (etaStruct := .none) only [sound_mk]

theorem maskedWrite_sound (hp : ms &&& 0x1 = 0) (a : Nat) (m v : Word) (s : State) (hw0 : AddrOutside ms a) (hs : s.Sound ms sa) : State.Sound ms (maskedWrite a m v s) sa := by
  unfold maskedWrite
  repeat'
    first
    | assumption | (intro _) | with_reducible apply sound_ite | with_reducible apply State.setWord_sound
    | with_reducible apply addrOutside_ite | with_reducible apply addrOutside2 | with_reducible apply addrOutside1
    | with_reducible apply addrOutside_mod | with_reducible apply addrOutside0 | exact Nat.zero_lt_succ _ | (exact mask_mono hp rfl)
    | ((with_reducible apply sound_parts) <;> first | (intro _; with_reducible rfl) | exact fun hm => (mask_absurd hp hm rfl).elim | skip)
    | simp (zeta := false) (etaStruct := .none) only [sound_mk] | (extract_lets +onlyGivenNames x; refine sound_have x ?_ ?_; subst x)
    | (extract_lets +onlyGivenNames x; refine sound_fun x ?_; subst x) | (extract_lets +onlyGivenNames x) | split
    | simp (zeta := false) (zetaDelta := true) (etaStruct := .none) only [sound_mk]

theorem plainWrite_sound (hp : ms &&& 0x1 = 0) (a : Nat) (v : Word) (s : State) (hw0 : AddrOutside ms a) (hs : s.Sound ms sa) : State.Sound ms (plainWrite a v s) sa := by
  unfold plainWrite
  repeat'
    first
    | assumption | (intro _) | with_reducible apply sound_ite | with_reducible apply State.setWord_sound
    | with_reducible apply addrOutside_ite | with_reducible apply addrOutside2 | with_reducible apply addrOutside1
    | with_reducible apply addrOutside_mod | with_reducible apply addrOutside0 | exact Nat.zero_lt_succ _ | (exact mask_mono hp rfl)
    | ((with_reducible apply sound_parts) <;> first | (intro _; with_reducible rfl) | exact fun hm => (mask_absurd hp hm rfl).elim | skip)
    | simp (zeta := false) (etaStruct := .none) only [sound_mk] | (extract_lets +onlyGivenNames x; refine sound_have x ?_ ?_; subst x)
    | (extract_lets +onlyGivenNames x; refine sound_fun x ?_; subst x) | (extract_lets +onlyGivenNames x) | split
    | simp (zeta := false) (zetaDelta := true) (etaStruct := .none) only [sound_mk]

theorem limitWrite_sound (hp : ms &&& 0x3FFFFE00100001 = 0) (a : Nat) (v : Word) (s : State) (hs : s.Sound ms sa) : State.Sound ms (limitWrite a v s) sa := by
  unfold limitWrite
  repeat'
    first
    | assumption | (intro _) | with_reducible apply sound_ite | with_reducible apply plainWrite_sound
    | with_reducible apply addrOutside_all | with_reducible apply addrOutside_ite | with_reducible apply addrOutside2
    | with_reducible apply addrOutside1 | with_reducible apply addrOutside_mod | with_reducible apply addrOutside0
    | exact Nat.zero_lt_succ _ | (exact mask_mono hp rfl)
    | ((with_reducible apply sound_parts) <;> first | (intro _; with_reducible rfl) | exact fun hm => (mask_absurd hp hm rfl).elim | skip)
    | simp (zeta := false) (etaStruct := .none) only [sound_mk] | (extract_lets +onlyGivenNames x; refine sound_have x ?_ ?_; subst x)
    | (extract_lets +onlyGivenNames x; refine sound_fun x ?_; subst x) | (extract_lets +onlyGivenNames x) | split
    | simp (zeta := false) (zetaDelta := true) (etaStruct := .none) only [sound_mk]
    | ((with_reducible apply sound_time) <;> first | (intro _; with_reducible rfl) | exact fun hm => (mask_absurd hp hm rfl).elim | skip)
    | omega | exact Nat.le_trans ‹_ ≤ _› (Nat.le_max_left _ _)

theorem qmIrqClear_sound (hp : ms &&& 0x800000001 = 0) (hi : Bool) (v : Word) (s : State) (hs : s.Sound ms sa) : State.Sound ms (qmIrqClear hi v s) sa := by
  unfold qmIrqClear
  repeat'
    first
    | assumption | (intro _) | with_reducible apply sound_ite | with_reducible apply State.qIrq_sound
    | with_reducible apply plainWrite_sound | with_reducible apply addrOutside_ite | with_reducible apply addrOutside2
    | with_reducible apply addrOutside1 | with_reducible apply addrOutside_mod | with_reducible apply addrOutside0
    | exact Nat.zero_lt_succ _ | with_reducible apply sound_foldl | with_reducible apply sound_foldl_snd | (exact mask_mono hp rfl)
    | ((with_reducible apply sound_parts) <;> first | (intro _; with_reducible rfl) | exact fun hm => (mask_absurd hp hm rfl).elim | skip)
    | simp (zeta := false) (etaStruct := .none) only [sound_mk] | (extract_lets +onlyGivenNames x; refine sound_have x ?_ ?_; subst x)
    | (extract_lets +onlyGivenNames x; refine sound_fun x ?_; subst x) | (extract_lets +onlyGivenNames x) | split
    | simp (zeta := false) (zetaDelta := true) (etaStruct := .none) only [sound_mk]

theorem qmWrite_sound (hp : ms &&& 0x800000001 = 0) (a : Nat) (v : Word) (s : State) (hw0 : AddrOutside ms a) (hs : s.Sound ms sa) : State.Sound ms (qmWrite a v s) sa := by
  unfold qmWrite
  repeat'
    first
    | assumption | (intro _) | with_reducible apply sound_ite | with_reducible apply State.qIrq_sound
    | with_reducible apply plainWrite_sound | with_reducible apply qmIrqClear_sound | with_reducible apply addrOutside_ite
    | with_reducible apply addrOutside2 | with_reducible apply addrOutside1 | with_reducible apply addrOutside_mod
    | with_reducible apply addrOutside0 | exact Nat.zero_lt_succ _ | (exact mask_mono hp rfl)
    | ((with_reducible apply sound_parts) <;> first | (intro _; with_reducible rfl) | exact fun hm => (mask_absurd hp hm rfl).elim | skip)
    | simp (zeta := false) (etaStruct := .none) only [sound_mk] | (extract_lets +onlyGivenNames x; refine sound_have x ?_ ?_; subst x)
    | (extract_lets +onlyGivenNames x; refine sound_fun x ?_; subst x) | (extract_lets +onlyGivenNames x) | split
    | simp (zeta := false) (zetaDelta := true) (etaStruct := .none) only [sound_mk]

theorem ttWriteReg_sound (hp : ms &&& 0x1000000041 = 0) (a : Nat) (v : Word) (s : State) (hw0 : AddrOutside ms a) (hs : s.Sound ms sa) : State.Sound ms (ttWriteReg a v s) sa := by
  unfold ttWriteReg
  repeat'
    first
    | assumption | (intro _) | with_reducible apply sound_ite | with_reducible apply plainWrite_sound
    | with_reducible apply ttPeriodWrite_sound | with_reducible apply ttShadowWrite_sound | with_reducible apply ttSwapWrite_sound
    | with_reducible apply addrOutside_ite | with_reducible apply addrOutside2 | with_reducible apply addrOutside1
    | with_reducible apply addrOutside_mod | with_reducible apply addrOutside0 | exact Nat.zero_lt_succ _ | (exact mask_mono hp rfl)
    | ((with_reducible apply sound_parts) <;> first | (intro _; with_reducible rfl) | exact fun hm => (mask_absurd hp hm rfl).elim | skip)
    | simp (zeta := false) (etaStruct := .none) only [sound_mk] | (extract_lets +onlyGivenNames x; refine sound_have x ?_ ?_; subst x)
    | (extract_lets +onlyGivenNames x; refine sound_fun x ?_; subst x) | (extract_lets +onlyGivenNames x) | split
    | simp (zeta := false) (zetaDelta := true) (etaStruct := .none) only [sound_mk]

theorem lnWrite_sound (hp : ms &&& 0x20002040000081 = 0) (a : Nat) (v : Word) (s : State) (hw0 : AddrOutside ms a) (hs : s.Sound ms sa) : State.Sound ms (lnWrite a v s) sa := by
  unfold lnWrite
  repeat'
    first
    | assumption | (intro _) | with_reducible apply sound_ite | with_reducible apply mdReqWrite_sound
    | with_reducible apply plainWrite_sound | with_reducible apply tblchkWrite_sound | with_reducible apply addrOutside_ite
    | with_reducible apply addrOutside2 | with_reducible apply addrOutside1 | with_reducible apply addrOutside_mod
    | with_reducible apply addrOutside0 | exact Nat.zero_lt_succ _ | (exact mask_mono hp rfl)
    | ((with_reducible apply sound_parts) <;> first | (intro _; with_reducible rfl) | exact fun hm => (mask_absurd hp hm rfl).elim | skip)
    | simp (zeta := false) (etaStruct := .none) only [sound_mk] | (extract_lets +onlyGivenNames x; refine sound_have x ?_ ?_; subst x)
    | (extract_lets +onlyGivenNames x; refine sound_fun x ?_; subst x) | (extract_lets +onlyGivenNames x) | split
    | simp (zeta := false) (zetaDelta := true) (etaStruct := .none) only [sound_mk]

theorem sdWrite_sound (hp : ms &&& 0x4000004101 = 0) (a : Nat) (v : Word) (s : State) (hw0 : AddrOutside ms a) (hs : s.Sound ms sa) : State.Sound ms (sdWrite a v s) sa := by
  unfold sdWrite
  repeat'
    first
    | assumption | (intro _) | with_reducible apply sound_ite | with_reducible apply plainWrite_sound
    | with_reducible apply sdChannelConfig_sound | with_reducible apply sdConfigWrite_sound | with_reducible apply sdRestartWrite_sound
    | with_reducible apply addrOutside_ite | with_reducible apply addrOutside2 | with_reducible apply addrOutside1
    | with_reducible apply addrOutside_mod | with_reducible apply addrOutside0 | exact Nat.zero_lt_succ _ | (exact mask_mono hp rfl)
    | ((with_reducible apply sound_parts) <;> first | (intro _; with_reducible rfl) | exact fun hm => (mask_absurd hp hm rfl).elim | skip)
    | simp (zeta := false) (etaStruct := .none) only [sound_mk] | (extract_lets +onlyGivenNames x; refine sound_have x ?_ ?_; subst x)
    | (extract_lets +onlyGivenNames x; refine sound_fun x ?_; subst x) | (extract_lets +onlyGivenNames x) | split
    | simp (zeta := false) (zetaDelta := true) (etaStruct := .none) only [sound_mk]

theorem pwWrite_sound (hp : ms &&& 0x8000004001 = 0) (a : Nat) (v : Word) (s : State) (hw0 : AddrOutside ms a) (hs : s.Sound ms sa) : State.Sound ms (pwWrite a v s) sa := by
  unfold pwWrite
  repeat'
    first
    | assumption | (intro _) | with_reducible apply sound_ite | with_reducible apply plainWrite_sound
    | with_reducible apply pwCarrierWrite_sound | with_reducible apply pwModeWrite_sound | with_reducible apply pwPhaseWrite_sound
    | with_reducible apply pwRunWrite_sound | with_reducible apply addrOutside_ite | with_reducible apply addrOutside2
    | with_reducible apply addrOutside1 | with_reducible apply addrOutside_mod | with_reducible apply addrOutside0
    | exact Nat.zero_lt_succ _ | (exact mask_mono hp rfl)
    | ((with_reducible apply sound_parts) <;> first | (intro _; with_reducible rfl) | exact fun hm => (mask_absurd hp hm rfl).elim | skip)
    | simp (zeta := false) (etaStruct := .none) only [sound_mk] | (extract_lets +onlyGivenNames x; refine sound_have x ?_ ?_; subst x)
    | (extract_lets +onlyGivenNames x; refine sound_fun x ?_; subst x) | (extract_lets +onlyGivenNames x) | split
    | simp (zeta := false) (zetaDelta := true) (etaStruct := .none) only [sound_mk]

theorem gdWrite_sound (hp : ms &&& 0x10000004001 = 0) (a : Nat) (v : Word) (s : State) (hw0 : AddrOutside ms a) (hs : s.Sound ms sa) : State.Sound ms (gdWrite a v s) sa := by
  unfold gdWrite
  repeat'
    first
    | assumption | (intro _) | with_reducible apply sound_ite | with_reducible apply configWrite_sound
    | with_reducible apply diagGo_sound | with_reducible apply plainWrite_sound | with_reducible apply addrOutside_ite
    | with_reducible apply addrOutside2 | with_reducible apply addrOutside1 | with_reducible apply addrOutside_mod
    | with_reducible apply addrOutside0 | exact Nat.zero_lt_succ _ | (exact mask_mono hp rfl)
    | ((with_reducible apply sound_parts) <;> first | (intro _; with_reducible rfl) | exact fun hm => (mask_absurd hp hm rfl).elim | skip)
    | simp (zeta := false) (etaStruct := .none) only [sound_mk] | (extract_lets +onlyGivenNames x; refine sound_have x ?_ ?_; subst x)
    | (extract_lets +onlyGivenNames x; refine sound_fun x ?_; subst x) | (extract_lets +onlyGivenNames x) | split
    | simp (zeta := false) (zetaDelta := true) (etaStruct := .none) only [sound_mk]

theorem fbWrite_sound (hp : ms &&& 0x120842040009 = 0) (a : Nat) (v : Word) (s : State) (hw0 : AddrOutside ms a) (hs : s.Sound ms sa) : State.Sound ms (fbWrite a v s) sa := by
  unfold fbWrite
  repeat'
    first
    | assumption | (intro _) | with_reducible apply sound_ite | with_reducible apply State.wr_sound
    | with_reducible apply emuConfigWrite_sound | with_reducible apply fbCorrect_sound | with_reducible apply fbEnWrite_sound
    | with_reducible apply fbUsePri_sound | with_reducible apply maskedWrite_sound | with_reducible apply plainWrite_sound
    | with_reducible apply addrOutside_ite | with_reducible apply addrOutside2 | with_reducible apply addrOutside1
    | with_reducible apply addrOutside_mod | with_reducible apply addrOutside0 | exact Nat.zero_lt_succ _ | (exact mask_mono hp rfl)
    | ((with_reducible apply sound_parts) <;> first | (intro _; with_reducible rfl) | exact fun hm => (mask_absurd hp hm rfl).elim | skip)
    | simp (zeta := false) (etaStruct := .none) only [sound_mk] | (extract_lets +onlyGivenNames x; refine sound_have x ?_ ?_; subst x)
    | (extract_lets +onlyGivenNames x; refine sound_fun x ?_; subst x) | (extract_lets +onlyGivenNames x) | split
    | simp (zeta := false) (zetaDelta := true) (etaStruct := .none) only [sound_mk]

theorem blWrite_sound (hp : ms &&& 0x140882400009 = 0) (a : Nat) (v : Word) (s : State) (hw0 : AddrOutside ms a) (hs : s.Sound ms sa) : State.Sound ms (blWrite a v s) sa := by
  unfold blWrite
  have h0 := plainWrite_sound (mask_mono hp rfl) a v s (by first | assumption | exact addrOutside_all (mask_mono hp rfl) | (with_reducible apply addrOutside2 <;> first | exact mask_mono hp rfl | exact Nat.zero_lt_succ _) | (with_reducible apply addrOutside1 <;> first | exact mask_mono hp rfl | exact Nat.zero_lt_succ _) | (with_reducible apply addrOutside0; exact mask_mono hp rfl)) hs
  extract_lets p off en w
  exact sound_ite (sound_ite (sound_ite (mtxGo_sound (mask_mono hp rfl) p s hs) hs) (sound_ite (sound_ite hs (State.setWord_sound (mask_mono hp rfl) s _ _ (by first | assumption | exact addrOutside_all (mask_mono hp rfl) | (with_reducible apply addrOutside2 <;> first | exact mask_mono hp rfl | exact Nat.zero_lt_succ _) | (with_reducible apply addrOutside1 <;> first | exact mask_mono hp rfl | exact Nat.zero_lt_succ _) | (with_reducible apply addrOutside0; exact mask_mono hp rfl)) hs)) h0))
    (sound_ite (linkDisable_sound (mask_mono hp rfl) _ h0) h0)

theorem pmWrite_sound (hp : ms &&& 0x88000084009 = 0) (a : Nat) (v : Word) (s : State) (hw0 : AddrOutside ms a) (hs : s.Sound ms sa) : State.Sound ms (pmWrite a v s) sa := by
  unfold pmWrite
  repeat'
    first
    | assumption | (intro _) | with_reducible apply sound_ite | with_reducible apply maskedWrite_sound
    | with_reducible apply plainWrite_sound | with_reducible apply pmCfgEn_sound | with_reducible apply pmEngage_sound
    | with_reducible apply pmRelease_sound | with_reducible apply addrOutside_ite | with_reducible apply addrOutside2
    | with_reducible apply addrOutside1 | with_reducible apply addrOutside_mod | with_reducible apply addrOutside0
    | exact Nat.zero_lt_succ _ | (exact mask_mono hp rfl)
    | ((with_reducible apply sound_parts) <;> first | (intro _; with_reducible rfl) | exact fun hm => (mask_absurd hp hm rfl).elim | skip)
    | simp (zeta := false) (etaStruct := .none) only [sound_mk] | (extract_lets +onlyGivenNames x; refine sound_have x ?_ ?_; subst x)
    | (extract_lets +onlyGivenNames x; refine sound_fun x ?_; subst x) | (extract_lets +onlyGivenNames x) | split
    | simp (zeta := false) (zetaDelta := true) (etaStruct := .none) only [sound_mk]

theorem sbWrite_sound (hp : ms &&& 0x3FFFFE00104001 = 0) (a : Nat) (v : Word) (s : State) (hw0 : AddrOutside ms a) (hs : s.Sound ms sa) : State.Sound ms (sbWrite a v s) sa := by
  unfold sbWrite
  repeat'
    first
    | assumption | (intro _) | with_reducible apply sound_ite | with_reducible apply State.setWord_sound
    | with_reducible apply limitWrite_sound | with_reducible apply mpwdWrite_sound | with_reducible apply plainWrite_sound
    | with_reducible apply reqmGate_sound | with_reducible apply tokGo_sound | with_reducible apply addrOutside_all
    | with_reducible apply addrOutside_ite | with_reducible apply addrOutside2 | with_reducible apply addrOutside1
    | with_reducible apply addrOutside_mod | with_reducible apply addrOutside0 | exact Nat.zero_lt_succ _ | (exact mask_mono hp rfl)
    | ((with_reducible apply sound_parts) <;> first | (intro _; with_reducible rfl) | exact fun hm => (mask_absurd hp hm rfl).elim | skip)
    | simp (zeta := false) (etaStruct := .none) only [sound_mk] | (extract_lets +onlyGivenNames x; refine sound_have x ?_ ?_; subst x)
    | (extract_lets +onlyGivenNames x; refine sound_fun x ?_; subst x) | (extract_lets +onlyGivenNames x) | split
    | simp (zeta := false) (zetaDelta := true) (etaStruct := .none) only [sound_mk]

theorem canWrite_sound (hp : ms &&& 0x300802200009 = 0) (n a : Nat) (v : Word) (s : State) (hw0 : AddrOutside ms a) (hs : s.Sound ms sa) : State.Sound ms (canWrite n a v s) sa := by
  unfold canWrite
  repeat'
    first
    | assumption | (intro _) | with_reducible apply sound_ite | with_reducible apply canBufferWrite_sound
    | with_reducible apply canConfigWrite_sound | with_reducible apply canModeWrite_sound | with_reducible apply canRecover_sound
    | with_reducible apply canTxCancel_sound | with_reducible apply canTxReq_sound | with_reducible apply plainWrite_sound
    | with_reducible apply addrOutside_ite | with_reducible apply addrOutside2 | with_reducible apply addrOutside1
    | with_reducible apply addrOutside_mod | with_reducible apply addrOutside0 | exact Nat.zero_lt_succ _ | (exact mask_mono hp rfl)
    | ((with_reducible apply sound_parts) <;> first | (intro _; with_reducible rfl) | exact fun hm => (mask_absurd hp hm rfl).elim | skip)
    | simp (zeta := false) (etaStruct := .none) only [sound_mk] | (extract_lets +onlyGivenNames x; refine sound_have x ?_ ?_; subst x)
    | (extract_lets +onlyGivenNames x; refine sound_fun x ?_; subst x) | (extract_lets +onlyGivenNames x) | split
    | simp (zeta := false) (zetaDelta := true) (etaStruct := .none) only [sound_mk]

theorem hsWrite_sound (hp : ms &&& 0x800000001 = 0) (a : Nat) (v : Word) (s : State) (hw0 : AddrOutside ms a) (hs : s.Sound ms sa) : State.Sound ms (hsWrite a v s) sa := by
  unfold hsWrite
  repeat'
    first
    | assumption | (intro _) | with_reducible apply sound_ite | with_reducible apply State.qIrq_sound
    | with_reducible apply plainWrite_sound | with_reducible apply addrOutside_ite | with_reducible apply addrOutside2
    | with_reducible apply addrOutside1 | with_reducible apply addrOutside_mod | with_reducible apply addrOutside0
    | exact Nat.zero_lt_succ _ | (exact mask_mono hp rfl)
    | ((with_reducible apply sound_parts) <;> first | (intro _; with_reducible rfl) | exact fun hm => (mask_absurd hp hm rfl).elim | skip)
    | simp (zeta := false) (etaStruct := .none) only [sound_mk] | (extract_lets +onlyGivenNames x; refine sound_have x ?_ ?_; subst x)
    | (extract_lets +onlyGivenNames x; refine sound_fun x ?_; subst x) | (extract_lets +onlyGivenNames x) | split
    | simp (zeta := false) (zetaDelta := true) (etaStruct := .none) only [sound_mk]

theorem ccWrite_sound (hp : ms &&& 0x8000008000001 = 0) (a : Nat) (v : Word) (s : State) (hw0 : AddrOutside ms a) (hs : s.Sound ms sa) : State.Sound ms (ccWrite a v s) sa := by
  unfold ccWrite
  have h0 := plainWrite_sound (mask_mono hp rfl) a v s (by first | assumption | exact addrOutside_all (mask_mono hp rfl) | (with_reducible apply addrOutside2 <;> first | exact mask_mono hp rfl | exact Nat.zero_lt_succ _) | (with_reducible apply addrOutside1 <;> first | exact mask_mono hp rfl | exact Nat.zero_lt_succ _) | (with_reducible apply addrOutside0; exact mask_mono hp rfl)) hs
  extract_lets k off t
  have ht : t.Sound ms sa := h0
  clear_value t
  exact sound_ite (ccCfgWrite_sound (mask_mono hp rfl) v s hs) (sound_ite h0 (sound_ite (sound_ite (ccGo_sound (mask_mono hp rfl) k _ ht) ht)
    (sound_ite (ccValWrite_sound (mask_mono hp rfl) k v s hs) (sound_ite (ccData_sound (mask_mono hp rfl) k v s hs) h0))))

theorem teWrite_sound (hp : ms &&& 0x10000002000001 = 0) (a : Nat) (v : Word) (s : State) (hw0 : AddrOutside ms a) (hs : s.Sound ms sa) : State.Sound ms (teWrite a v s) sa := by
  unfold teWrite
  repeat'
    first
    | assumption | (intro _) | with_reducible apply sound_ite | with_reducible apply plainWrite_sound
    | with_reducible apply ringRefresh_sound | with_reducible apply teArm_sound | with_reducible apply teDisarm_sound
    | with_reducible apply teTrig_sound | with_reducible apply addrOutside_ite | with_reducible apply addrOutside2
    | with_reducible apply addrOutside1 | with_reducible apply addrOutside_mod | with_reducible apply addrOutside0
    | exact Nat.zero_lt_succ _ | (exact mask_mono hp rfl)
    | ((with_reducible apply sound_parts) <;> first | (intro _; with_reducible rfl) | exact fun hm => (mask_absurd hp hm rfl).elim | skip)
    | simp (zeta := false) (etaStruct := .none) only [sound_mk] | (extract_lets +onlyGivenNames x; refine sound_have x ?_ ?_; subst x)
    | (extract_lets +onlyGivenNames x; refine sound_fun x ?_; subst x) | (extract_lets +onlyGivenNames x) | split
    | simp (zeta := false) (zetaDelta := true) (etaStruct := .none) only [sound_mk]

theorem regWrite_sound (hp : ms &&& 0x3FFFFECE7C41C9 = 0) (a : Nat) (v : Word) (s : State) (hs : s.Sound ms sa) : State.Sound ms (regWrite a v s) sa := by
  unfold regWrite
  repeat'
    first
    | assumption | (intro _) | with_reducible apply sound_ite | with_reducible apply bistAbort_sound
    | with_reducible apply blWrite_sound | with_reducible apply canWrite_sound | with_reducible apply ccWrite_sound
    | with_reducible apply fbWrite_sound | with_reducible apply gdWrite_sound | with_reducible apply hsWrite_sound
    | with_reducible apply lnWrite_sound | with_reducible apply plainWrite_sound | with_reducible apply pmWrite_sound
    | with_reducible apply pwWrite_sound | with_reducible apply qmWrite_sound | with_reducible apply sbWrite_sound
    | with_reducible apply sdWrite_sound | with_reducible apply teWrite_sound | with_reducible apply ttWriteReg_sound
    | with_reducible apply addrOutside_all | with_reducible apply addrOutside_ite | with_reducible apply addrOutside2
    | with_reducible apply addrOutside1 | with_reducible apply addrOutside_mod | with_reducible apply addrOutside0
    | exact Nat.zero_lt_succ _ | (exact mask_mono hp rfl)
    | ((with_reducible apply sound_parts) <;> first | (intro _; with_reducible rfl) | exact fun hm => (mask_absurd hp hm rfl).elim | skip)
    | simp (zeta := false) (etaStruct := .none) only [sound_mk] | (extract_lets +onlyGivenNames x; refine sound_have x ?_ ?_; subst x)
    | (extract_lets +onlyGivenNames x; refine sound_fun x ?_; subst x) | (extract_lets +onlyGivenNames x) | split
    | simp (zeta := false) (zetaDelta := true) (etaStruct := .none) only [sound_mk]

theorem busWrite_sound (hp : ms &&& 0x3FFFFECE7C41CB = 0) (a : Nat) (v : Word) (requester : Nat) (s : State) (hs : s.Sound ms sa) : State.Sound ms (busWrite a v requester s).2 sa := by
  unfold busWrite
  repeat'
    first
    | assumption | (intro _) | with_reducible apply sound_ite | with_reducible apply State.badAddr_sound
    | with_reducible apply State.setMem_sound | with_reducible apply regWrite_sound | with_reducible apply addrOutside_all
    | with_reducible apply addrOutside_ite | with_reducible apply addrOutside2 | with_reducible apply addrOutside1
    | with_reducible apply addrOutside_mod | with_reducible apply addrOutside0 | exact Nat.zero_lt_succ _ | (exact mask_mono hp rfl)
    | ((with_reducible apply sound_parts) <;> first | (intro _; with_reducible rfl) | exact fun hm => (mask_absurd hp hm rfl).elim | skip)
    | simp (zeta := false) (etaStruct := .none) only [sound_mk] | (extract_lets +onlyGivenNames x; refine sound_have x ?_ ?_; subst x)
    | (extract_lets +onlyGivenNames x; refine sound_fun x ?_; subst x) | (extract_lets +onlyGivenNames x) | split
    | simp (zeta := false) (zetaDelta := true) (etaStruct := .none) only [sound_mk]

theorem registerWrite_sound (hp : ms &&& 0x3FFFFECE7C41CB = 0) (a : Nat) (v : Word) (s : State) (hs : s.Sound ms sa) : State.Sound ms (registerWrite a v s) sa := by
  unfold registerWrite
  repeat'
    first
    | assumption | (intro _) | with_reducible apply sound_ite | with_reducible apply busWrite_sound
    | with_reducible apply addrOutside_all | with_reducible apply addrOutside_ite | with_reducible apply addrOutside2
    | with_reducible apply addrOutside1 | with_reducible apply addrOutside_mod | with_reducible apply addrOutside0
    | exact Nat.zero_lt_succ _ | (exact mask_mono hp rfl)
    | ((with_reducible apply sound_parts) <;> first | (intro _; with_reducible rfl) | exact fun hm => (mask_absurd hp hm rfl).elim | skip)
    | simp (zeta := false) (etaStruct := .none) only [sound_mk] | (extract_lets +onlyGivenNames x; refine sound_have x ?_ ?_; subst x)
    | (extract_lets +onlyGivenNames x; refine sound_fun x ?_; subst x) | (extract_lets +onlyGivenNames x) | split
    | simp (zeta := false) (zetaDelta := true) (etaStruct := .none) only [sound_mk]

theorem consume_sound (hp : ms &&& 0x20000000000081 = 0) (n : Nat) (item : List Byte) (s : State) (hs : s.Sound ms sa) : State.Sound ms (consume n item s) sa := by
  unfold consume
  repeat'
    first
    | assumption | (intro _) | with_reducible apply sound_ite | with_reducible apply bankItem_sound
    | with_reducible apply addrOutside_ite | with_reducible apply addrOutside2 | with_reducible apply addrOutside1
    | with_reducible apply addrOutside_mod | with_reducible apply addrOutside0 | exact Nat.zero_lt_succ _ | (exact mask_mono hp rfl)
    | ((with_reducible apply sound_parts) <;> first | (intro _; with_reducible rfl) | exact fun hm => (mask_absurd hp hm rfl).elim | skip)
    | simp (zeta := false) (etaStruct := .none) only [sound_mk] | (extract_lets +onlyGivenNames x; refine sound_have x ?_ ?_; subst x)
    | (extract_lets +onlyGivenNames x; refine sound_fun x ?_; subst x) | (extract_lets +onlyGivenNames x) | split
    | simp (zeta := false) (zetaDelta := true) (etaStruct := .none) only [sound_mk]

theorem queuePush_sound (hp : ms &&& 0x100800000009 = 0) (n : Nat) (item : List Byte) (s : State) (hs : s.Sound ms sa) : State.Sound ms (queuePush n item s) sa := by
  unfold queuePush
  repeat'
    first
    | assumption | (intro _) | with_reducible apply sound_ite | with_reducible apply State.qPush_sound
    | with_reducible apply addrOutside_ite | with_reducible apply addrOutside2 | with_reducible apply addrOutside1
    | with_reducible apply addrOutside_mod | with_reducible apply addrOutside0 | exact Nat.zero_lt_succ _ | (exact mask_mono hp rfl)
    | ((with_reducible apply sound_parts) <;> first | (intro _; with_reducible rfl) | exact fun hm => (mask_absurd hp hm rfl).elim | skip)
    | simp (zeta := false) (etaStruct := .none) only [sound_mk] | (extract_lets +onlyGivenNames x; refine sound_have x ?_ ?_; subst x)
    | (extract_lets +onlyGivenNames x; refine sound_fun x ?_; subst x) | (extract_lets +onlyGivenNames x) | split
    | simp (zeta := false) (zetaDelta := true) (etaStruct := .none) only [sound_mk]

theorem queuePop_sound (hp : ms &&& 0x20100882000089 = 0) (n : Nat) (bad : Option (BitVec 32)) (s : State) (hs : s.Sound ms sa) : State.Sound ms (queuePop n bad s) sa := by
  unfold queuePop
  repeat'
    first
    | assumption | (intro _) | with_reducible apply sound_ite | with_reducible apply State.event_sound
    | with_reducible apply State.qLose_sound | with_reducible apply State.qPop_sound | with_reducible apply State.wr_sound
    | with_reducible apply consume_sound | with_reducible apply addrOutside_ite | with_reducible apply addrOutside2
    | with_reducible apply addrOutside1 | with_reducible apply addrOutside_mod | with_reducible apply addrOutside0
    | exact Nat.zero_lt_succ _ | (exact mask_mono hp rfl)
    | ((with_reducible apply sound_parts) <;> first | (intro _; with_reducible rfl) | exact fun hm => (mask_absurd hp hm rfl).elim | skip)
    | simp (zeta := false) (etaStruct := .none) only [sound_mk] | (extract_lets +onlyGivenNames x; refine sound_have x ?_ ?_; subst x)
    | (extract_lets +onlyGivenNames x; refine sound_fun x ?_; subst x) | (extract_lets +onlyGivenNames x) | split
    | simp (zeta := false) (zetaDelta := true) (etaStruct := .none) only [sound_mk]

end Sys2Proof.Machine
end

