-- ==== Sys2Proof/Laws/SoundHostPort.lean ====
section
/-! SUPPORT. The operations of Machine/HostPort.lean keep a state sound. -/

set_option Elab.async false

namespace Sys2Proof.Machine

variable {ms : Nat} {sa : State}

theorem spiResult_sound (hp : ms &&& 0x800000000001 = 0) (code : Nat) (s : State) (hs : s.Sound ms sa) : State.Sound ms (spiResult code s) sa := by
  unfold spiResult
  repeat'
    first
    | assumption | (intro _) | with_reducible apply sound_ite | with_reducible apply State.inc_sound
    | with_reducible apply State.wr_sound | with_reducible apply addrOutside_ite | with_reducible apply addrOutside2
    | with_reducible apply addrOutside1 | with_reducible apply addrOutside_mod | with_reducible apply addrOutside0
    | exact Nat.zero_lt_succ _ | (exact mask_mono hp rfl)
    | ((with_reducible apply sound_parts) <;> first | (intro _; with_reducible rfl) | exact fun hm => (mask_absurd hp hm rfl).elim | skip)
    | simp (zeta := false) (etaStruct := .none) only [sound_mk] | (extract_lets +onlyGivenNames x; refine sound_have x ?_ ?_; subst x)
    | (extract_lets +onlyGivenNames x; refine sound_fun x ?_; subst x) | (extract_lets +onlyGivenNames x) | split
    | simp (zeta := false) (zetaDelta := true) (etaStruct := .none) only [sound_mk]

theorem controlWrite_sound (hp : ms &&& 0x3FFFFEDE7C41C9 = 0) (off : Nat) (v : Word) (s : State) (hs : s.Sound ms sa) : State.Sound ms (controlWrite off v s).2 sa := by
  unfold controlWrite
  repeat'
    first
    | assumption | (intro _) | with_reducible apply sound_ite | with_reducible apply doorbellWrite_sound
    | with_reducible apply regWrite_sound | with_reducible apply addrOutside_all | with_reducible apply addrOutside_ite
    | with_reducible apply addrOutside2 | with_reducible apply addrOutside1 | with_reducible apply addrOutside_mod
    | with_reducible apply addrOutside0 | exact Nat.zero_lt_succ _ | (exact mask_mono hp rfl)
    | ((with_reducible apply sound_parts) <;> first | (intro _; with_reducible rfl) | exact fun hm => (mask_absurd hp hm rfl).elim | skip)
    | simp (zeta := false) (etaStruct := .none) only [sound_mk] | (extract_lets +onlyGivenNames x; refine sound_have x ?_ ?_; subst x)
    | (extract_lets +onlyGivenNames x; refine sound_fun x ?_; subst x) | (extract_lets +onlyGivenNames x) | split
    | simp (zeta := false) (zetaDelta := true) (etaStruct := .none) only [sound_mk]

theorem openItem_sound (hp : ms &&& 0x100000000 = 0) (item : List Byte) (s : State) (hs : s.Sound ms sa) : State.Sound ms (openItem item s).2 sa := by
  unfold openItem
  repeat'
    first
    | assumption | (intro _) | with_reducible apply sound_ite | with_reducible apply State.drawBits_sound
    | with_reducible apply sound_foldl | with_reducible apply sound_foldl_snd | (exact mask_mono hp rfl)
    | ((with_reducible apply sound_parts) <;> first | (intro _; with_reducible rfl) | exact fun hm => (mask_absurd hp hm rfl).elim | skip)
    | simp (zeta := false) (etaStruct := .none) only [sound_mk] | (extract_lets +onlyGivenNames x; refine sound_have x ?_ ?_; subst x)
    | (extract_lets +onlyGivenNames x; refine sound_fun x ?_; subst x) | (extract_lets +onlyGivenNames x) | split
    | simp (zeta := false) (zetaDelta := true) (etaStruct := .none) only [sound_mk]

theorem openItems_sound (hp : ms &&& 0x100000000 = 0) (items : List (List Byte)) (s : State) (hs : s.Sound ms sa) : State.Sound ms (openItems items s).2 sa := by
  unfold openItems
  repeat'
    first
    | assumption | (intro _) | with_reducible apply sound_ite | with_reducible apply openItem_sound | with_reducible apply sound_foldl
    | with_reducible apply sound_foldl_snd | (exact mask_mono hp rfl)
    | ((with_reducible apply sound_parts) <;> first | (intro _; with_reducible rfl) | exact fun hm => (mask_absurd hp hm rfl).elim | skip)
    | simp (zeta := false) (etaStruct := .none) only [sound_mk] | (extract_lets +onlyGivenNames x; refine sound_have x ?_ ?_; subst x)
    | (extract_lets +onlyGivenNames x; refine sound_fun x ?_; subst x) | (extract_lets +onlyGivenNames x) | split
    | simp (zeta := false) (zetaDelta := true) (etaStruct := .none) only [sound_mk]

theorem openOps_sound (hp : ms &&& 0x100000000 = 0) (ops : List NorOp) (s : State) (hs : s.Sound ms sa) : State.Sound ms (openOps ops s).2 sa := by
  unfold openOps
  repeat'
    first
    | assumption | (intro _) | with_reducible apply sound_ite | with_reducible apply openItem_sound | with_reducible apply sound_foldl
    | with_reducible apply sound_foldl_snd | (exact mask_mono hp rfl)
    | ((with_reducible apply sound_parts) <;> first | (intro _; with_reducible rfl) | exact fun hm => (mask_absurd hp hm rfl).elim | skip)
    | simp (zeta := false) (etaStruct := .none) only [sound_mk] | (extract_lets +onlyGivenNames x; refine sound_have x ?_ ?_; subst x)
    | (extract_lets +onlyGivenNames x; refine sound_fun x ?_; subst x) | (extract_lets +onlyGivenNames x) | split
    | simp (zeta := false) (zetaDelta := true) (etaStruct := .none) only [sound_mk]

theorem openJob_sound (hp : ms &&& 0x100000000 = 0) (j : NorJob) (s : State) (hs : s.Sound ms sa) : State.Sound ms (openJob j s).2 sa := by
  unfold openJob
  repeat'
    first
    | assumption | (intro _) | with_reducible apply sound_ite | with_reducible apply openItem_sound | with_reducible apply openOps_sound
    | (exact mask_mono hp rfl)
    | ((with_reducible apply sound_parts) <;> first | (intro _; with_reducible rfl) | exact fun hm => (mask_absurd hp hm rfl).elim | skip)
    | simp (zeta := false) (etaStruct := .none) only [sound_mk] | (extract_lets +onlyGivenNames x; refine sound_have x ?_ ?_; subst x)
    | (extract_lets +onlyGivenNames x; refine sound_fun x ?_; subst x) | (extract_lets +onlyGivenNames x) | split
    | simp (zeta := false) (zetaDelta := true) (etaStruct := .none) only [sound_mk]

theorem openJobs_sound (hp : ms &&& 0x100000000 = 0) (ids : List Nat) (jobs : List NorJob) (s : State) (hs : s.Sound ms sa) : State.Sound ms (openJobs ids jobs s).2 sa := by
  unfold openJobs
  repeat'
    first
    | assumption | (intro _) | with_reducible apply sound_ite | with_reducible apply openJob_sound | with_reducible apply sound_foldl
    | with_reducible apply sound_foldl_snd | (exact mask_mono hp rfl)
    | ((with_reducible apply sound_parts) <;> first | (intro _; with_reducible rfl) | exact fun hm => (mask_absurd hp hm rfl).elim | skip)
    | simp (zeta := false) (etaStruct := .none) only [sound_mk] | (extract_lets +onlyGivenNames x; refine sound_have x ?_ ?_; subst x)
    | (extract_lets +onlyGivenNames x; refine sound_fun x ?_; subst x) | (extract_lets +onlyGivenNames x) | split
    | simp (zeta := false) (zetaDelta := true) (etaStruct := .none) only [sound_mk]

theorem openStaging_sound (hp : ms &&& 0x101000000 = 0) (ids : List Nat) (s : State) (hs : s.Sound ms sa) : State.Sound ms (openStaging ids s) sa := by
  unfold openStaging
  repeat'
    first
    | assumption | (intro _) | with_reducible apply sound_ite | with_reducible apply openJobs_sound | (exact mask_mono hp rfl)
    | ((with_reducible apply sound_parts) <;> first | (intro _; with_reducible rfl) | exact fun hm => (mask_absurd hp hm rfl).elim | skip)
    | simp (zeta := false) (etaStruct := .none) only [sound_mk] | (extract_lets +onlyGivenNames x; refine sound_have x ?_ ?_; subst x)
    | (extract_lets +onlyGivenNames x; refine sound_fun x ?_; subst x) | (extract_lets +onlyGivenNames x) | split
    | simp (zeta := false) (zetaDelta := true) (etaStruct := .none) only [sound_mk]

theorem bulkWritten_sound (hp : ms &&& 0x131000000 = 0) (lo hi : Nat) (s : State) (hs : s.Sound ms sa) : State.Sound ms (bulkWritten lo hi s) sa := by
  unfold bulkWritten
  repeat'
    first
    | assumption | (intro _) | with_reducible apply sound_ite | with_reducible apply openItems_sound
    | with_reducible apply openStaging_sound | with_reducible apply sound_foldl | with_reducible apply sound_foldl_snd
    | (exact mask_mono hp rfl)
    | ((with_reducible apply sound_parts) <;> first | (intro _; with_reducible rfl) | exact fun hm => (mask_absurd hp hm rfl).elim | skip)
    | simp (zeta := false) (etaStruct := .none) only [sound_mk] | (extract_lets +onlyGivenNames x; refine sound_have x ?_ ?_; subst x)
    | (extract_lets +onlyGivenNames x; refine sound_fun x ?_; subst x) | (extract_lets +onlyGivenNames x) | split
    | simp (zeta := false) (zetaDelta := true) (etaStruct := .none) only [sound_mk]

theorem spiApply_sound (hp : ms &&& 0x3FFFFFFF7C41CB = 0) (off : Nat) (data : List Word) (s : State) (hs : s.Sound ms sa) : State.Sound ms (spiApply off data s).2 sa := by
  unfold spiApply
  repeat'
    first
    | assumption | (intro _) | with_reducible apply sound_ite | with_reducible apply State.setMem_sound
    | with_reducible apply bulkWritten_sound | with_reducible apply controlWrite_sound | with_reducible apply addrOutside_all
    | with_reducible apply addrOutside_ite | with_reducible apply addrOutside2 | with_reducible apply addrOutside1
    | with_reducible apply addrOutside_mod | with_reducible apply addrOutside0 | exact Nat.zero_lt_succ _
    | with_reducible apply sound_foldl | with_reducible apply sound_foldl_snd | (exact mask_mono hp rfl)
    | ((with_reducible apply sound_parts) <;> first | (intro _; with_reducible rfl) | exact fun hm => (mask_absurd hp hm rfl).elim | skip)
    | simp (zeta := false) (etaStruct := .none) only [sound_mk] | (extract_lets +onlyGivenNames x; refine sound_have x ?_ ?_; subst x)
    | (extract_lets +onlyGivenNames x; refine sound_fun x ?_; subst x) | (extract_lets +onlyGivenNames x) | split
    | simp (zeta := false) (zetaDelta := true) (etaStruct := .none) only [sound_mk]

theorem spiWrite_sound (hp : ms &&& 0x3FFFFFFF7C41CB = 0) (words : List Word) (aligned : Bool) (s : State) (hs : s.Sound ms sa) : State.Sound ms (spiWrite words aligned s) sa := by
  unfold spiWrite
  repeat'
    first
    | assumption | (intro _) | with_reducible apply sound_ite | with_reducible apply spiApply_sound
    | with_reducible apply spiResult_sound | with_reducible apply addrOutside_all | with_reducible apply addrOutside_ite
    | with_reducible apply addrOutside2 | with_reducible apply addrOutside1 | with_reducible apply addrOutside_mod
    | with_reducible apply addrOutside0 | exact Nat.zero_lt_succ _ | (exact mask_mono hp rfl)
    | ((with_reducible apply sound_parts) <;> first | (intro _; with_reducible rfl) | exact fun hm => (mask_absurd hp hm rfl).elim | skip)
    | simp (zeta := false) (etaStruct := .none) only [sound_mk] | (extract_lets +onlyGivenNames x; refine sound_have x ?_ ?_; subst x)
    | (extract_lets +onlyGivenNames x; refine sound_fun x ?_; subst x) | (extract_lets +onlyGivenNames x) | split
    | simp (zeta := false) (zetaDelta := true) (etaStruct := .none) only [sound_mk]

theorem windowRead_sound (hp : ms &&& 0x12920C00000001 = 0) (off : Nat) (s : State) (hs : s.Sound ms sa) : State.Sound ms (windowRead off s).2 sa := by
  unfold windowRead
  split
  · split
    · exact readEffects_sound (mask_mono hp rfl) _ _ (addrOutside_span (lo := 0x400E0000) (len := 0xFF) (mask_mono hp rfl) (by omega) (by omega)) hs
    · exact hs
  · split
    · split <;> exact hs
    · exact hs

theorem windowWords_sound (hp : ms &&& 0x12920C00000001 = 0) (off n : Nat) (s : State) (hs : s.Sound ms sa) : State.Sound ms (windowWords off n s).2 sa := by
  induction n generalizing s off with
  | zero => exact hs
  | succ n ih => exact ih _ _ (windowRead_sound (mask_mono hp rfl) off s hs)

theorem spiRead_sound (hp : ms &&& 0x12920C82000009 = 0) (h : Word) (count : Nat) (aligned : Bool) (parity : Bool) (s : State) (hs : s.Sound ms sa) : State.Sound ms (spiRead h count aligned parity s) sa := by
  unfold spiRead
  repeat'
    first
    | assumption | (intro _) | with_reducible apply sound_ite | with_reducible apply State.event_sound
    | with_reducible apply spiResult_sound | with_reducible apply windowWords_sound | with_reducible apply addrOutside_ite
    | with_reducible apply addrOutside2 | with_reducible apply addrOutside1 | with_reducible apply addrOutside_mod
    | with_reducible apply addrOutside0 | exact Nat.zero_lt_succ _ | (exact mask_mono hp rfl)
    | ((with_reducible apply sound_parts) <;> first | (intro _; with_reducible rfl) | exact fun hm => (mask_absurd hp hm rfl).elim | skip)
    | simp (zeta := false) (etaStruct := .none) only [sound_mk] | (extract_lets +onlyGivenNames x; refine sound_have x ?_ ?_; subst x)
    | (extract_lets +onlyGivenNames x; refine sound_fun x ?_; subst x) | (extract_lets +onlyGivenNames x) | split
    | simp (zeta := false) (zetaDelta := true) (etaStruct := .none) only [sound_mk]

end Sys2Proof.Machine
end

