-- ==== Sys2Proof/Laws/SoundCommand.lean ====
section
/-! SUPPORT. The operations of Machine/Command.lean keep a state sound. -/

set_option Elab.async false

namespace Sys2Proof.Machine

variable {ms : Nat} {sa : State}

/-- A plan whose states are sound, the operation having begun at `sa`. -/
def PlanSound (ms : Nat) (sa : State) : Plan → Prop
  | .final _ _ s => State.Sound ms s sa
  | .go _ f t => (∀ h s, State.Sound ms s sa → State.Sound ms (f h s).2 sa) ∧ ∀ u, t = some u → State.Sound ms u sa
  | .wait _ _ _ _ s => State.Sound ms s sa

theorem plan_final {n : Nat} {r : List Byte} {s : State} (h : s.Sound ms sa) : PlanSound ms sa (.final n r s) := h

theorem plan_refuse {n : Nat} {s : State} (h : s.Sound ms sa) : PlanSound ms sa (.refuse n s) := h

theorem plan_wait {n : Nat} {i : List (List Byte)} {r : List Byte} {a : Option (Nat × Nat)} {s : State} (h : s.Sound ms sa) :
    PlanSound ms sa (.wait n i r a s) := h

theorem plan_go {a : Option (Nat × Nat)} {f : Nat → State → WorkKind × State}
    (hf : ∀ h s, State.Sound ms s sa → State.Sound ms (f h s).2 sa) : PlanSound ms sa (.go a f none) := ⟨hf, fun _ h => nomatch h⟩

theorem plan_go_some {a : Option (Nat × Nat)} {f : Nat → State → WorkKind × State} {t : State} (ht : t.Sound ms sa)
    (hf : ∀ h s, State.Sound ms s sa → State.Sound ms (f h s).2 sa) : PlanSound ms sa (.go a f (some t)) :=
  ⟨hf, fun _ h => by cases h; exact ht⟩

theorem plan_ite {c : Prop} [Decidable c] {a b : Plan} (ha : PlanSound ms sa a) (hb : PlanSound ms sa b) :
    PlanSound ms sa (if c then a else b) := by split <;> assumption

-- NONE Plan.refuse
theorem stallPush_sound (hp : ms &&& 0x2090083000008B = 0) (s : State) (hs : s.Sound ms sa) : State.Sound ms (stallPush s) sa := by
  unfold stallPush
  repeat'
    first
    | assumption | (intro _) | with_reducible apply sound_ite | with_reducible apply State.qPush_sound
    | with_reducible apply drainStaging_sound | with_reducible apply putRecord_sound | with_reducible apply addrOutside_ite
    | with_reducible apply addrOutside2 | with_reducible apply addrOutside1 | with_reducible apply addrOutside_mod
    | with_reducible apply addrOutside0 | exact Nat.zero_lt_succ _ | with_reducible apply sound_foldl
    | with_reducible apply sound_foldl_snd | (exact mask_mono hp rfl)
    | ((with_reducible apply sound_parts) <;> first | (intro _; with_reducible rfl) | exact fun hm => (mask_absurd hp hm rfl).elim | skip)
    | simp (zeta := false) (etaStruct := .none) only [sound_mk] | (extract_lets +onlyGivenNames x; refine sound_have x ?_ ?_; subst x)
    | (extract_lets +onlyGivenNames x; refine sound_fun x ?_; subst x) | (extract_lets +onlyGivenNames x) | split
    | simp (zeta := false) (zetaDelta := true) (etaStruct := .none) only [sound_mk]

theorem startWork_sound (hp : ms &&& 0x800810000003 = 0) (op : Nat) (d : Desc) (area : Option (Nat × Nat)) (f : Nat → State → WorkKind × State) (s : State)
    (hf : ∀ h s, State.Sound ms s sa → State.Sound ms (f h s).2 sa) (hs : s.Sound ms sa) : State.Sound ms (startWork op d area f s) sa := by
  unfold startWork
  split
  · exact putRecord_sound (mask_mono hp rfl) _ _ hs
  · next h t heq => exact (sound_upd (hf h _ (putRecord_sound (mask_mono hp rfl) _ _ (issueHandle_sound (mask_mono hp rfl) hs heq))) (fun p hm => by cases p <;> first | exact (mask_absurd hp hm rfl).elim | rfl))

theorem runPlan_sound (hp : ms &&& 0x2090083000008B = 0) (op : Nat) (d : Desc) (s : State) (p : Plan) (hs : s.Sound ms sa) (hpl : PlanSound ms sa p) :
    State.Sound ms (runPlan op d s p) sa := by
  unfold runPlan
  split
  · exact putRecord_sound (mask_mono hp rfl) _ _ hpl
  · next t =>
    refine startWork_sound (mask_mono hp rfl) _ _ _ _ _ hpl.1 ?_
    cases t with
    | none => exact hs
    | some u => exact hpl.2 u rfl
  · exact stallPush_sound (mask_mono hp rfl) _ (sound_upd hpl (fun p hm => by cases p <;> first | exact (mask_absurd hp hm rfl).elim | rfl))

theorem command_sound (hp : ms &&& 0x2090083200008B = 0) (op : Nat) (named : List (Nat × Nat × Nat)) (d : Desc) (act : State → Plan) (s : State)
    (ha : ∀ s, State.Sound ms s sa → PlanSound ms sa (act s)) (hs : s.Sound ms sa) : State.Sound ms (command op named d act s) sa := by
  unfold command
  split
  · exact hs
  · split
    · exact runPlan_sound (mask_mono hp rfl) _ _ _ _ hs (plan_refuse (State.event_sound (mask_mono hp rfl) _ _ _ _ hs))
    · split
      · exact runPlan_sound (mask_mono hp rfl) _ _ _ _ hs (plan_refuse hs)
      · exact runPlan_sound (mask_mono hp rfl) _ _ _ _ hs (ha s hs)

theorem bulkBytes_sound (hp : ms &&& 0x100000000 = 0) (d : Desc) (off n : Nat) (s : State) (hs : s.Sound ms sa) : State.Sound ms (bulkBytes d off n s).2 sa := by
  unfold bulkBytes
  repeat'
    first
    | assumption | (intro _) | with_reducible apply sound_ite | with_reducible apply openItem_sound | (exact mask_mono hp rfl)
    | ((with_reducible apply sound_parts) <;> first | (intro _; with_reducible rfl) | exact fun hm => (mask_absurd hp hm rfl).elim | skip)
    | simp (zeta := false) (etaStruct := .none) only [sound_mk] | (extract_lets +onlyGivenNames x; refine sound_have x ?_ ?_; subst x)
    | (extract_lets +onlyGivenNames x; refine sound_fun x ?_; subst x) | (extract_lets +onlyGivenNames x) | split
    | simp (zeta := false) (zetaDelta := true) (etaStruct := .none) only [sound_mk]

theorem withBulk_sound (hp : ms &&& 0x100902000009 = 0) (d : Desc) (off n : Nat) (s : State) (f : List Byte → State → Plan) (hs : s.Sound ms sa)
    (hf : ∀ b s, State.Sound ms s sa → PlanSound ms sa (f b s)) : PlanSound ms sa (withBulk d off n s f) := by
  unfold withBulk
  split
  · exact plan_refuse (State.event_sound (mask_mono hp rfl) _ _ _ _ hs)
  · exact hf _ _ (bulkBytes_sound (mask_mono hp rfl) d off n s hs)

-- NONE withBulk
theorem bulkPut_sound (hp : ms &&& 0x2 = 0) (off : Nat) (b : List Byte) (s : State) (hs : s.Sound ms sa) : State.Sound ms (bulkPut off b s) sa := by
  unfold bulkPut
  repeat'
    first
    | assumption | (intro _) | with_reducible apply sound_ite | with_reducible apply State.setMem_sound | (exact mask_mono hp rfl)
    | ((with_reducible apply sound_parts) <;> first | (intro _; with_reducible rfl) | exact fun hm => (mask_absurd hp hm rfl).elim | skip)
    | simp (zeta := false) (etaStruct := .none) only [sound_mk] | (extract_lets +onlyGivenNames x; refine sound_have x ?_ ?_; subst x)
    | (extract_lets +onlyGivenNames x; refine sound_fun x ?_; subst x) | (extract_lets +onlyGivenNames x) | split
    | simp (zeta := false) (zetaDelta := true) (etaStruct := .none) only [sound_mk]

end Sys2Proof.Machine
end

