-- ==== Sys2Proof/Laws/SoundCmdSystem.lean ====
section
/-! SUPPORT. The operations of Machine/CmdSystem.lean keep a state sound. -/

set_option Elab.async false

namespace Sys2Proof.Machine

variable {ms : Nat} {sa : State}

theorem cmdSysInfo_sound (hp : ms &&& 0x2090083200008B = 0) (d : Desc) (s : State) (hs : s.Sound ms sa) : State.Sound ms (cmdSysInfo d s) sa := by
  unfold cmdSysInfo
  repeat'
    first
    | assumption | (intro _) | with_reducible apply sound_ite | with_reducible apply command_sound
    | with_reducible apply addrOutside_ite | with_reducible apply addrOutside2 | with_reducible apply addrOutside1
    | with_reducible apply addrOutside_mod | with_reducible apply addrOutside0 | exact Nat.zero_lt_succ _
    | with_reducible apply plan_ite | with_reducible apply plan_refuse | with_reducible apply plan_final | with_reducible apply plan_go
    | with_reducible apply plan_go_some | with_reducible apply plan_wait | with_reducible apply withBulk_sound
    | (exact mask_mono hp rfl)
    | ((with_reducible apply sound_parts) <;> first | (intro _; with_reducible rfl) | exact fun hm => (mask_absurd hp hm rfl).elim | skip)
    | simp (zeta := false) (etaStruct := .none) only [sound_mk] | (extract_lets +onlyGivenNames x; refine sound_have x ?_ ?_; subst x)
    | (extract_lets +onlyGivenNames x; refine sound_fun x ?_; subst x) | (extract_lets +onlyGivenNames x) | split
    | simp (zeta := false) (zetaDelta := true) (etaStruct := .none) only [sound_mk]

theorem cmdSysNop_sound (hp : ms &&& 0x2090083200008B = 0) (d : Desc) (s : State) (hs : s.Sound ms sa) : State.Sound ms (cmdSysNop d s) sa := by
  unfold cmdSysNop
  repeat'
    first
    | assumption | (intro _) | with_reducible apply sound_ite | with_reducible apply command_sound
    | with_reducible apply addrOutside_ite | with_reducible apply addrOutside2 | with_reducible apply addrOutside1
    | with_reducible apply addrOutside_mod | with_reducible apply addrOutside0 | exact Nat.zero_lt_succ _
    | with_reducible apply plan_ite | with_reducible apply plan_refuse | with_reducible apply plan_final | with_reducible apply plan_go
    | with_reducible apply plan_go_some | with_reducible apply plan_wait | with_reducible apply withBulk_sound
    | (exact mask_mono hp rfl)
    | ((with_reducible apply sound_parts) <;> first | (intro _; with_reducible rfl) | exact fun hm => (mask_absurd hp hm rfl).elim | skip)
    | simp (zeta := false) (etaStruct := .none) only [sound_mk] | (extract_lets +onlyGivenNames x; refine sound_have x ?_ ?_; subst x)
    | (extract_lets +onlyGivenNames x; refine sound_fun x ?_; subst x) | (extract_lets +onlyGivenNames x) | split
    | simp (zeta := false) (zetaDelta := true) (etaStruct := .none) only [sound_mk]

theorem cmdSysQuery_sound (hp : ms &&& 0x2090083200008B = 0) (d : Desc) (s : State) (hs : s.Sound ms sa) : State.Sound ms (cmdSysQuery d s) sa := by
  unfold cmdSysQuery
  repeat'
    first
    | assumption | (intro _) | with_reducible apply sound_ite | with_reducible apply command_sound
    | with_reducible apply addrOutside_ite | with_reducible apply addrOutside2 | with_reducible apply addrOutside1
    | with_reducible apply addrOutside_mod | with_reducible apply addrOutside0 | exact Nat.zero_lt_succ _
    | with_reducible apply plan_ite | with_reducible apply plan_refuse | with_reducible apply plan_final | with_reducible apply plan_go
    | with_reducible apply plan_go_some | with_reducible apply plan_wait | with_reducible apply withBulk_sound
    | (exact mask_mono hp rfl)
    | ((with_reducible apply sound_parts) <;> first | (intro _; with_reducible rfl) | exact fun hm => (mask_absurd hp hm rfl).elim | skip)
    | simp (zeta := false) (etaStruct := .none) only [sound_mk] | (extract_lets +onlyGivenNames x; refine sound_have x ?_ ?_; subst x)
    | (extract_lets +onlyGivenNames x; refine sound_fun x ?_; subst x) | (extract_lets +onlyGivenNames x) | split
    | simp (zeta := false) (zetaDelta := true) (etaStruct := .none) only [sound_mk]

theorem norDrop_sound (hp : ms &&& 0x1000008 = 0) (ids : List Nat) (s : State) (hs : s.Sound ms sa) : State.Sound ms (norDrop ids s) sa := by
  unfold norDrop
  repeat'
    first
    | assumption | (intro _) | with_reducible apply sound_ite | with_reducible apply State.setQueue_sound | (exact mask_mono hp rfl)
    | ((with_reducible apply sound_parts) <;> first | (intro _; with_reducible rfl) | exact fun hm => (mask_absurd hp hm rfl).elim | skip)
    | simp (zeta := false) (etaStruct := .none) only [sound_mk] | (extract_lets +onlyGivenNames x; refine sound_have x ?_ ?_; subst x)
    | (extract_lets +onlyGivenNames x; refine sound_fun x ?_; subst x) | (extract_lets +onlyGivenNames x) | split
    | simp (zeta := false) (zetaDelta := true) (etaStruct := .none) only [sound_mk]

theorem stepCancelled_sound (hp : ms &&& 0x100801000009 = 0) (s : State) (hs : s.Sound ms sa) : State.Sound ms (stepCancelled s) sa := by
  unfold stepCancelled
  repeat'
    first
    | assumption | (intro _) | with_reducible apply sound_ite | with_reducible apply journalSave_sound
    | with_reducible apply addrOutside_ite | with_reducible apply addrOutside2 | with_reducible apply addrOutside1
    | with_reducible apply addrOutside_mod | with_reducible apply addrOutside0 | exact Nat.zero_lt_succ _ | (exact mask_mono hp rfl)
    | ((with_reducible apply sound_parts) <;> first | (intro _; with_reducible rfl) | exact fun hm => (mask_absurd hp hm rfl).elim | skip)
    | simp (zeta := false) (etaStruct := .none) only [sound_mk] | (extract_lets +onlyGivenNames x; refine sound_have x ?_ ?_; subst x)
    | (extract_lets +onlyGivenNames x; refine sound_fun x ?_; subst x) | (extract_lets +onlyGivenNames x) | split
    | simp (zeta := false) (zetaDelta := true) (etaStruct := .none) only [sound_mk]

theorem cancelWork_sound (hp : ms &&& 0x1C90081F00008B = 0) (w : Work) (s : State) (hs : s.Sound ms sa) : State.Sound ms (cancelWork w s) sa := by
  unfold cancelWork
  repeat'
    first
    | assumption | (intro _) | with_reducible apply sound_ite | with_reducible apply State.setScan_sound
    | with_reducible apply bistAbort_sound | with_reducible apply bistDrop_sound | with_reducible apply finish_sound
    | with_reducible apply norDrop_sound | with_reducible apply stepCancelled_sound | with_reducible apply addrOutside_ite
    | with_reducible apply addrOutside2 | with_reducible apply addrOutside1 | with_reducible apply addrOutside_mod
    | with_reducible apply addrOutside0 | exact Nat.zero_lt_succ _ | with_reducible apply sound_foldl
    | with_reducible apply sound_foldl_snd | (exact mask_mono hp rfl)
    | ((with_reducible apply sound_parts) <;> first | (intro _; with_reducible rfl) | exact fun hm => (mask_absurd hp hm rfl).elim | skip)
    | simp (zeta := false) (etaStruct := .none) only [sound_mk] | (extract_lets +onlyGivenNames x; refine sound_have x ?_ ?_; subst x)
    | (extract_lets +onlyGivenNames x; refine sound_fun x ?_; subst x) | (extract_lets +onlyGivenNames x) | split
    | simp (zeta := false) (zetaDelta := true) (etaStruct := .none) only [sound_mk]

theorem cmdSysCancel_sound (hp : ms &&& 0x3C90083F00008B = 0) (d : Desc) (s : State) (hs : s.Sound ms sa) : State.Sound ms (cmdSysCancel d s) sa := by
  unfold cmdSysCancel
  repeat'
    first
    | assumption | (intro _) | with_reducible apply sound_ite | with_reducible apply cancelWork_sound
    | with_reducible apply command_sound | with_reducible apply addrOutside_ite | with_reducible apply addrOutside2
    | with_reducible apply addrOutside1 | with_reducible apply addrOutside_mod | with_reducible apply addrOutside0
    | exact Nat.zero_lt_succ _ | with_reducible apply plan_ite | with_reducible apply plan_refuse | with_reducible apply plan_final
    | with_reducible apply plan_go | with_reducible apply plan_go_some | with_reducible apply plan_wait
    | with_reducible apply withBulk_sound | (exact mask_mono hp rfl)
    | ((with_reducible apply sound_parts) <;> first | (intro _; with_reducible rfl) | exact fun hm => (mask_absurd hp hm rfl).elim | skip)
    | simp (zeta := false) (etaStruct := .none) only [sound_mk] | (extract_lets +onlyGivenNames x; refine sound_have x ?_ ?_; subst x)
    | (extract_lets +onlyGivenNames x; refine sound_fun x ?_; subst x) | (extract_lets +onlyGivenNames x) | split
    | simp (zeta := false) (zetaDelta := true) (etaStruct := .none) only [sound_mk]

theorem attnWrite_sound (hp : ms &&& 0x800000000001 = 0) (v : Nat) (s : State) (hs : s.Sound ms sa) : State.Sound ms (attnWrite v s) sa := by
  unfold attnWrite
  repeat'
    first
    | assumption | (intro _) | with_reducible apply sound_ite | with_reducible apply State.wr_sound
    | with_reducible apply addrOutside_ite | with_reducible apply addrOutside2 | with_reducible apply addrOutside1
    | with_reducible apply addrOutside_mod | with_reducible apply addrOutside0 | exact Nat.zero_lt_succ _ | (exact mask_mono hp rfl)
    | ((with_reducible apply sound_parts) <;> first | (intro _; with_reducible rfl) | exact fun hm => (mask_absurd hp hm rfl).elim | skip)
    | simp (zeta := false) (etaStruct := .none) only [sound_mk] | (extract_lets +onlyGivenNames x; refine sound_have x ?_ ?_; subst x)
    | (extract_lets +onlyGivenNames x; refine sound_fun x ?_; subst x) | (extract_lets +onlyGivenNames x) | split
    | simp (zeta := false) (zetaDelta := true) (etaStruct := .none) only [sound_mk]

theorem attnSet_sound (hp : ms &&& 0x800000000001 = 0) (b : Nat) (s : State) (hs : s.Sound ms sa) : State.Sound ms (attnSet b s) sa := by
  unfold attnSet
  repeat'
    first
    | assumption | (intro _) | with_reducible apply sound_ite | with_reducible apply State.wr_sound
    | with_reducible apply State.wrBit_sound | with_reducible apply addrOutside_ite | with_reducible apply addrOutside2
    | with_reducible apply addrOutside1 | with_reducible apply addrOutside_mod | with_reducible apply addrOutside0
    | exact Nat.zero_lt_succ _ | (exact mask_mono hp rfl)
    | ((with_reducible apply sound_parts) <;> first | (intro _; with_reducible rfl) | exact fun hm => (mask_absurd hp hm rfl).elim | skip)
    | simp (zeta := false) (etaStruct := .none) only [sound_mk] | (extract_lets +onlyGivenNames x; refine sound_have x ?_ ?_; subst x)
    | (extract_lets +onlyGivenNames x; refine sound_fun x ?_; subst x) | (extract_lets +onlyGivenNames x) | split
    | simp (zeta := false) (zetaDelta := true) (etaStruct := .none) only [sound_mk]

theorem cmdSysAttnClr_sound (hp : ms &&& 0x2090083200008B = 0) (d : Desc) (s : State) (hs : s.Sound ms sa) : State.Sound ms (cmdSysAttnClr d s) sa := by
  unfold cmdSysAttnClr
  repeat'
    first
    | assumption | (intro _) | with_reducible apply sound_ite | with_reducible apply attnWrite_sound
    | with_reducible apply command_sound | with_reducible apply addrOutside_ite | with_reducible apply addrOutside2
    | with_reducible apply addrOutside1 | with_reducible apply addrOutside_mod | with_reducible apply addrOutside0
    | exact Nat.zero_lt_succ _ | with_reducible apply plan_ite | with_reducible apply plan_refuse | with_reducible apply plan_final
    | with_reducible apply plan_go | with_reducible apply plan_go_some | with_reducible apply plan_wait
    | with_reducible apply withBulk_sound | (exact mask_mono hp rfl)
    | ((with_reducible apply sound_parts) <;> first | (intro _; with_reducible rfl) | exact fun hm => (mask_absurd hp hm rfl).elim | skip)
    | simp (zeta := false) (etaStruct := .none) only [sound_mk] | (extract_lets +onlyGivenNames x; refine sound_have x ?_ ?_; subst x)
    | (extract_lets +onlyGivenNames x; refine sound_fun x ?_; subst x) | (extract_lets +onlyGivenNames x) | split
    | simp (zeta := false) (zetaDelta := true) (etaStruct := .none) only [sound_mk]

theorem cmdSysTime_sound (hp : ms &&& 0x2090083200008B = 0) (d : Desc) (s : State) (hs : s.Sound ms sa) : State.Sound ms (cmdSysTime d s) sa := by
  unfold cmdSysTime
  repeat'
    first
    | assumption | (intro _) | with_reducible apply sound_ite | with_reducible apply command_sound
    | with_reducible apply addrOutside_ite | with_reducible apply addrOutside2 | with_reducible apply addrOutside1
    | with_reducible apply addrOutside_mod | with_reducible apply addrOutside0 | exact Nat.zero_lt_succ _
    | with_reducible apply plan_ite | with_reducible apply plan_refuse | with_reducible apply plan_final | with_reducible apply plan_go
    | with_reducible apply plan_go_some | with_reducible apply plan_wait | with_reducible apply withBulk_sound
    | (exact mask_mono hp rfl)
    | ((with_reducible apply sound_parts) <;> first | (intro _; with_reducible rfl) | exact fun hm => (mask_absurd hp hm rfl).elim | skip)
    | simp (zeta := false) (etaStruct := .none) only [sound_mk] | (extract_lets +onlyGivenNames x; refine sound_have x ?_ ?_; subst x)
    | (extract_lets +onlyGivenNames x; refine sound_fun x ?_; subst x) | (extract_lets +onlyGivenNames x) | split
    | simp (zeta := false) (zetaDelta := true) (etaStruct := .none) only [sound_mk]
    | ((with_reducible apply sound_time) <;> first | (intro _; with_reducible rfl) | exact fun hm => (mask_absurd hp hm rfl).elim | skip)
    | omega | exact Nat.le_trans ‹_ ≤ _› (Nat.le_max_left _ _)

theorem timetableWrites_sound (hp : ms &&& 0x1000000041 = 0) (entries : List Byte) (swap : Bool) (period : Option Nat) (s : State) (hs : s.Sound ms sa) : State.Sound ms (timetableWrites entries swap period s).2 sa := by
  unfold timetableWrites
  repeat'
    first
    | assumption | (intro _) | with_reducible apply sound_ite | with_reducible apply ttPeriodWrite_sound
    | with_reducible apply ttShadowWrite_sound | with_reducible apply ttSwapWrite_sound | with_reducible apply addrOutside_ite
    | with_reducible apply addrOutside2 | with_reducible apply addrOutside1 | with_reducible apply addrOutside_mod
    | with_reducible apply addrOutside0 | exact Nat.zero_lt_succ _ | with_reducible apply sound_foldl
    | with_reducible apply sound_foldl_snd | (exact mask_mono hp rfl)
    | ((with_reducible apply sound_parts) <;> first | (intro _; with_reducible rfl) | exact fun hm => (mask_absurd hp hm rfl).elim | skip)
    | simp (zeta := false) (etaStruct := .none) only [sound_mk] | (extract_lets +onlyGivenNames x; refine sound_have x ?_ ?_; subst x)
    | (extract_lets +onlyGivenNames x; refine sound_fun x ?_; subst x) | (extract_lets +onlyGivenNames x) | split
    | simp (zeta := false) (zetaDelta := true) (etaStruct := .none) only [sound_mk]

theorem cmdSysTimetable_sound (hp : ms &&& 0x209019320000CB = 0) (d : Desc) (s : State) (hs : s.Sound ms sa) : State.Sound ms (cmdSysTimetable d s) sa := by
  unfold cmdSysTimetable
  repeat'
    first
    | assumption | (intro _) | with_reducible apply sound_ite | with_reducible apply command_sound
    | with_reducible apply timetableWrites_sound | with_reducible apply withBulk_sound | with_reducible apply addrOutside_ite
    | with_reducible apply addrOutside2 | with_reducible apply addrOutside1 | with_reducible apply addrOutside_mod
    | with_reducible apply addrOutside0 | exact Nat.zero_lt_succ _ | with_reducible apply plan_ite | with_reducible apply plan_refuse
    | with_reducible apply plan_final | with_reducible apply plan_go | with_reducible apply plan_go_some
    | with_reducible apply plan_wait | with_reducible apply withBulk_sound | (exact mask_mono hp rfl)
    | ((with_reducible apply sound_parts) <;> first | (intro _; with_reducible rfl) | exact fun hm => (mask_absurd hp hm rfl).elim | skip)
    | simp (zeta := false) (etaStruct := .none) only [sound_mk] | (extract_lets +onlyGivenNames x; refine sound_have x ?_ ?_; subst x)
    | (extract_lets +onlyGivenNames x; refine sound_fun x ?_; subst x) | (extract_lets +onlyGivenNames x) | split
    | simp (zeta := false) (zetaDelta := true) (etaStruct := .none) only [sound_mk]

theorem cmdSysReset_sound (hp : ms &&& 0x2090083200009B = 0) (d : Desc) (s : State) (hs : s.Sound ms sa) : State.Sound ms (cmdSysReset d s) sa := by
  unfold cmdSysReset
  repeat'
    first
    | assumption | (intro _) | with_reducible apply sound_ite | with_reducible apply command_sound
    | with_reducible apply addrOutside_ite | with_reducible apply addrOutside2 | with_reducible apply addrOutside1
    | with_reducible apply addrOutside_mod | with_reducible apply addrOutside0 | exact Nat.zero_lt_succ _
    | with_reducible apply plan_ite | with_reducible apply plan_refuse | with_reducible apply plan_final | with_reducible apply plan_go
    | with_reducible apply plan_go_some | with_reducible apply plan_wait | with_reducible apply withBulk_sound
    | (exact mask_mono hp rfl)
    | ((with_reducible apply sound_parts) <;> first | (intro _; with_reducible rfl) | exact fun hm => (mask_absurd hp hm rfl).elim | skip)
    | simp (zeta := false) (etaStruct := .none) only [sound_mk] | (extract_lets +onlyGivenNames x; refine sound_have x ?_ ?_; subst x)
    | (extract_lets +onlyGivenNames x; refine sound_fun x ?_; subst x) | (extract_lets +onlyGivenNames x) | split
    | simp (zeta := false) (zetaDelta := true) (etaStruct := .none) only [sound_mk]
    | ((with_reducible apply sound_time) <;> first | (intro _; with_reducible rfl) | exact fun hm => (mask_absurd hp hm rfl).elim | skip)
    | omega | exact Nat.le_trans ‹_ ≤ _› (Nat.le_max_left _ _)

theorem cmdMd_sound (hp : ms &&& 0x2090287200008B = 0) (code : Nat) (d : Desc) (s : State) (hs : s.Sound ms sa) : State.Sound ms (cmdMd code d s) sa := by
  unfold cmdMd
  repeat'
    first
    | assumption | (intro _) | with_reducible apply sound_ite | with_reducible apply State.wr_sound | with_reducible apply command_sound
    | with_reducible apply mdReqWrite_sound | with_reducible apply addrOutside_ite | with_reducible apply addrOutside2
    | with_reducible apply addrOutside1 | with_reducible apply addrOutside_mod | with_reducible apply addrOutside0
    | exact Nat.zero_lt_succ _ | with_reducible apply plan_ite | with_reducible apply plan_refuse | with_reducible apply plan_final
    | with_reducible apply plan_go | with_reducible apply plan_go_some | with_reducible apply plan_wait
    | with_reducible apply withBulk_sound | (exact mask_mono hp rfl)
    | ((with_reducible apply sound_parts) <;> first | (intro _; with_reducible rfl) | exact fun hm => (mask_absurd hp hm rfl).elim | skip)
    | simp (zeta := false) (etaStruct := .none) only [sound_mk] | (extract_lets +onlyGivenNames x; refine sound_have x ?_ ?_; subst x)
    | (extract_lets +onlyGivenNames x; refine sound_fun x ?_; subst x) | (extract_lets +onlyGivenNames x) | split
    | simp (zeta := false) (zetaDelta := true) (etaStruct := .none) only [sound_mk]

theorem cmdMdEnable_sound (hp : ms &&& 0x2090287200008B = 0) (d : Desc) (s : State) (hs : s.Sound ms sa) : State.Sound ms (cmdMdEnable d s) sa := by
  unfold cmdMdEnable
  repeat'
    first
    | assumption | (intro _) | with_reducible apply sound_ite | with_reducible apply cmdMd_sound | with_reducible apply addrOutside_ite
    | with_reducible apply addrOutside2 | with_reducible apply addrOutside1 | with_reducible apply addrOutside_mod
    | with_reducible apply addrOutside0 | exact Nat.zero_lt_succ _ | (exact mask_mono hp rfl)
    | ((with_reducible apply sound_parts) <;> first | (intro _; with_reducible rfl) | exact fun hm => (mask_absurd hp hm rfl).elim | skip)
    | simp (zeta := false) (etaStruct := .none) only [sound_mk] | (extract_lets +onlyGivenNames x; refine sound_have x ?_ ?_; subst x)
    | (extract_lets +onlyGivenNames x; refine sound_fun x ?_; subst x) | (extract_lets +onlyGivenNames x) | split
    | simp (zeta := false) (zetaDelta := true) (etaStruct := .none) only [sound_mk]

theorem cmdMdDisable_sound (hp : ms &&& 0x2090287200008B = 0) (d : Desc) (s : State) (hs : s.Sound ms sa) : State.Sound ms (cmdMdDisable d s) sa := by
  unfold cmdMdDisable
  repeat'
    first
    | assumption | (intro _) | with_reducible apply sound_ite | with_reducible apply cmdMd_sound | with_reducible apply addrOutside_ite
    | with_reducible apply addrOutside2 | with_reducible apply addrOutside1 | with_reducible apply addrOutside_mod
    | with_reducible apply addrOutside0 | exact Nat.zero_lt_succ _ | (exact mask_mono hp rfl)
    | ((with_reducible apply sound_parts) <;> first | (intro _; with_reducible rfl) | exact fun hm => (mask_absurd hp hm rfl).elim | skip)
    | simp (zeta := false) (etaStruct := .none) only [sound_mk] | (extract_lets +onlyGivenNames x; refine sound_have x ?_ ?_; subst x)
    | (extract_lets +onlyGivenNames x; refine sound_fun x ?_; subst x) | (extract_lets +onlyGivenNames x) | split
    | simp (zeta := false) (zetaDelta := true) (etaStruct := .none) only [sound_mk]

theorem cmdMdStart_sound (hp : ms &&& 0x2090287200008B = 0) (d : Desc) (s : State) (hs : s.Sound ms sa) : State.Sound ms (cmdMdStart d s) sa := by
  unfold cmdMdStart
  repeat'
    first
    | assumption | (intro _) | with_reducible apply sound_ite | with_reducible apply cmdMd_sound | with_reducible apply addrOutside_ite
    | with_reducible apply addrOutside2 | with_reducible apply addrOutside1 | with_reducible apply addrOutside_mod
    | with_reducible apply addrOutside0 | exact Nat.zero_lt_succ _ | (exact mask_mono hp rfl)
    | ((with_reducible apply sound_parts) <;> first | (intro _; with_reducible rfl) | exact fun hm => (mask_absurd hp hm rfl).elim | skip)
    | simp (zeta := false) (etaStruct := .none) only [sound_mk] | (extract_lets +onlyGivenNames x; refine sound_have x ?_ ?_; subst x)
    | (extract_lets +onlyGivenNames x; refine sound_fun x ?_; subst x) | (extract_lets +onlyGivenNames x) | split
    | simp (zeta := false) (zetaDelta := true) (etaStruct := .none) only [sound_mk]

theorem cmdMdStop_sound (hp : ms &&& 0x2090287200008B = 0) (d : Desc) (s : State) (hs : s.Sound ms sa) : State.Sound ms (cmdMdStop d s) sa := by
  unfold cmdMdStop
  repeat'
    first
    | assumption | (intro _) | with_reducible apply sound_ite | with_reducible apply cmdMd_sound | with_reducible apply addrOutside_ite
    | with_reducible apply addrOutside2 | with_reducible apply addrOutside1 | with_reducible apply addrOutside_mod
    | with_reducible apply addrOutside0 | exact Nat.zero_lt_succ _ | (exact mask_mono hp rfl)
    | ((with_reducible apply sound_parts) <;> first | (intro _; with_reducible rfl) | exact fun hm => (mask_absurd hp hm rfl).elim | skip)
    | simp (zeta := false) (etaStruct := .none) only [sound_mk] | (extract_lets +onlyGivenNames x; refine sound_have x ?_ ?_; subst x)
    | (extract_lets +onlyGivenNames x; refine sound_fun x ?_; subst x) | (extract_lets +onlyGivenNames x) | split
    | simp (zeta := false) (zetaDelta := true) (etaStruct := .none) only [sound_mk]

theorem cmdMdEmergency_sound (hp : ms &&& 0x2090287200008B = 0) (d : Desc) (s : State) (hs : s.Sound ms sa) : State.Sound ms (cmdMdEmergency d s) sa := by
  unfold cmdMdEmergency
  repeat'
    first
    | assumption | (intro _) | with_reducible apply sound_ite | with_reducible apply cmdMd_sound | with_reducible apply addrOutside_ite
    | with_reducible apply addrOutside2 | with_reducible apply addrOutside1 | with_reducible apply addrOutside_mod
    | with_reducible apply addrOutside0 | exact Nat.zero_lt_succ _ | (exact mask_mono hp rfl)
    | ((with_reducible apply sound_parts) <;> first | (intro _; with_reducible rfl) | exact fun hm => (mask_absurd hp hm rfl).elim | skip)
    | simp (zeta := false) (etaStruct := .none) only [sound_mk] | (extract_lets +onlyGivenNames x; refine sound_have x ?_ ?_; subst x)
    | (extract_lets +onlyGivenNames x; refine sound_fun x ?_; subst x) | (extract_lets +onlyGivenNames x) | split
    | simp (zeta := false) (zetaDelta := true) (etaStruct := .none) only [sound_mk]

theorem cmdMdMode_sound (hp : ms &&& 0x2090287200008B = 0) (d : Desc) (s : State) (hs : s.Sound ms sa) : State.Sound ms (cmdMdMode d s) sa := by
  unfold cmdMdMode
  repeat'
    first
    | assumption | (intro _) | with_reducible apply sound_ite | with_reducible apply cmdMd_sound | with_reducible apply addrOutside_ite
    | with_reducible apply addrOutside2 | with_reducible apply addrOutside1 | with_reducible apply addrOutside_mod
    | with_reducible apply addrOutside0 | exact Nat.zero_lt_succ _ | (exact mask_mono hp rfl)
    | ((with_reducible apply sound_parts) <;> first | (intro _; with_reducible rfl) | exact fun hm => (mask_absurd hp hm rfl).elim | skip)
    | simp (zeta := false) (etaStruct := .none) only [sound_mk] | (extract_lets +onlyGivenNames x; refine sound_have x ?_ ?_; subst x)
    | (extract_lets +onlyGivenNames x; refine sound_fun x ?_; subst x) | (extract_lets +onlyGivenNames x) | split
    | simp (zeta := false) (zetaDelta := true) (etaStruct := .none) only [sound_mk]

theorem cmdMdReset_sound (hp : ms &&& 0x2090287200008B = 0) (d : Desc) (s : State) (hs : s.Sound ms sa) : State.Sound ms (cmdMdReset d s) sa := by
  unfold cmdMdReset
  repeat'
    first
    | assumption | (intro _) | with_reducible apply sound_ite | with_reducible apply cmdMd_sound | with_reducible apply addrOutside_ite
    | with_reducible apply addrOutside2 | with_reducible apply addrOutside1 | with_reducible apply addrOutside_mod
    | with_reducible apply addrOutside0 | exact Nat.zero_lt_succ _ | (exact mask_mono hp rfl)
    | ((with_reducible apply sound_parts) <;> first | (intro _; with_reducible rfl) | exact fun hm => (mask_absurd hp hm rfl).elim | skip)
    | simp (zeta := false) (etaStruct := .none) only [sound_mk] | (extract_lets +onlyGivenNames x; refine sound_have x ?_ ?_; subst x)
    | (extract_lets +onlyGivenNames x; refine sound_fun x ?_; subst x) | (extract_lets +onlyGivenNames x) | split
    | simp (zeta := false) (zetaDelta := true) (etaStruct := .none) only [sound_mk]

theorem cmdSpWrite_sound (hp : ms &&& 0x2090083200008B = 0) (d : Desc) (s : State) (hs : s.Sound ms sa) : State.Sound ms (cmdSpWrite d s) sa := by
  unfold cmdSpWrite
  repeat'
    first
    | assumption | (intro _) | with_reducible apply sound_ite | with_reducible apply command_sound
    | with_reducible apply addrOutside_ite | with_reducible apply addrOutside2 | with_reducible apply addrOutside1
    | with_reducible apply addrOutside_mod | with_reducible apply addrOutside0 | exact Nat.zero_lt_succ _
    | with_reducible apply plan_ite | with_reducible apply plan_refuse | with_reducible apply plan_final | with_reducible apply plan_go
    | with_reducible apply plan_go_some | with_reducible apply plan_wait | with_reducible apply withBulk_sound
    | (exact mask_mono hp rfl)
    | ((with_reducible apply sound_parts) <;> first | (intro _; with_reducible rfl) | exact fun hm => (mask_absurd hp hm rfl).elim | skip)
    | simp (zeta := false) (etaStruct := .none) only [sound_mk] | (extract_lets +onlyGivenNames x; refine sound_have x ?_ ?_; subst x)
    | (extract_lets +onlyGivenNames x; refine sound_fun x ?_; subst x) | (extract_lets +onlyGivenNames x) | split
    | simp (zeta := false) (zetaDelta := true) (etaStruct := .none) only [sound_mk]

theorem cmdSpWriteN_sound (hp : ms &&& 0x2090093200008B = 0) (d : Desc) (s : State) (hs : s.Sound ms sa) : State.Sound ms (cmdSpWriteN d s) sa := by
  unfold cmdSpWriteN
  repeat'
    first
    | assumption | (intro _) | with_reducible apply sound_ite | with_reducible apply command_sound | with_reducible apply withBulk_sound
    | with_reducible apply addrOutside_ite | with_reducible apply addrOutside2 | with_reducible apply addrOutside1
    | with_reducible apply addrOutside_mod | with_reducible apply addrOutside0 | exact Nat.zero_lt_succ _
    | with_reducible apply plan_ite | with_reducible apply plan_refuse | with_reducible apply plan_final | with_reducible apply plan_go
    | with_reducible apply plan_go_some | with_reducible apply plan_wait | with_reducible apply withBulk_sound
    | (exact mask_mono hp rfl)
    | ((with_reducible apply sound_parts) <;> first | (intro _; with_reducible rfl) | exact fun hm => (mask_absurd hp hm rfl).elim | skip)
    | simp (zeta := false) (etaStruct := .none) only [sound_mk] | (extract_lets +onlyGivenNames x; refine sound_have x ?_ ?_; subst x)
    | (extract_lets +onlyGivenNames x; refine sound_fun x ?_; subst x) | (extract_lets +onlyGivenNames x) | split
    | simp (zeta := false) (zetaDelta := true) (etaStruct := .none) only [sound_mk]

end Sys2Proof.Machine
end

