-- ==== Sys2Proof/Laws/SoundCmdParam.lean ====
section
/-! SUPPORT. The operations of Machine/CmdParam.lean keep a state sound. -/

set_option Elab.async false

namespace Sys2Proof.Machine

variable {ms : Nat} {sa : State}

theorem cmdRegRead_sound (hp : ms &&& 0x3FFFFE3200008B = 0) (d : Desc) (s : State) (hs : s.Sound ms sa) : State.Sound ms (cmdRegRead d s) sa := by
  unfold cmdRegRead
  refine command_sound (mask_mono hp rfl) _ _ _ _ _ (fun s h => ?_) hs
  extract_lets a n r
  refine plan_ite (plan_refuse h) (plan_final ?_)
  exact sound_foldl_of (fun acc : List Byte × Bool × State => acc.2.2) _ h (fun acc i h => busRead_sound (mask_mono hp rfl) _ _ _ (by first | assumption | exact addrOutside_all (mask_mono hp rfl) | (with_reducible apply addrOutside2 <;> first | exact mask_mono hp rfl | exact Nat.zero_lt_succ _) | (with_reducible apply addrOutside1 <;> first | exact mask_mono hp rfl | exact Nat.zero_lt_succ _) | (with_reducible apply addrOutside0; exact mask_mono hp rfl)) h)

theorem cmdRegWrite_sound (hp : ms &&& 0x3FFFFEFE7C41CB = 0) (d : Desc) (s : State) (hs : s.Sound ms sa) : State.Sound ms (cmdRegWrite d s) sa := by
  unfold cmdRegWrite
  repeat'
    first
    | assumption | (intro _) | with_reducible apply sound_ite | with_reducible apply busWrite_sound | with_reducible apply command_sound
    | with_reducible apply addrOutside_all | with_reducible apply addrOutside_ite | with_reducible apply addrOutside2
    | with_reducible apply addrOutside1 | with_reducible apply addrOutside_mod | with_reducible apply addrOutside0
    | exact Nat.zero_lt_succ _ | with_reducible apply plan_ite | with_reducible apply plan_refuse | with_reducible apply plan_final
    | with_reducible apply plan_go | with_reducible apply plan_go_some | with_reducible apply plan_wait
    | with_reducible apply withBulk_sound | (exact mask_mono hp rfl)
    | ((with_reducible apply sound_parts) <;> first | (intro _; with_reducible rfl) | exact fun hm => (mask_absurd hp hm rfl).elim | skip)
    | simp (zeta := false) (etaStruct := .none) only [sound_mk] | (extract_lets +onlyGivenNames x; refine sound_have x ?_ ?_; subst x)
    | (extract_lets +onlyGivenNames x; refine sound_fun x ?_; subst x) | (extract_lets +onlyGivenNames x) | split
    | simp (zeta := false) (zetaDelta := true) (etaStruct := .none) only [sound_mk]

theorem cmdParStage_sound (hp : ms &&& 0x2090093200008B = 0) (d : Desc) (s : State) (hs : s.Sound ms sa) : State.Sound ms (cmdParStage d s) sa := by
  unfold cmdParStage
  repeat'
    first
    | assumption | (intro _) | with_reducible apply sound_ite | with_reducible apply command_sound | with_reducible apply withBulk_sound
    | with_reducible apply addrOutside_ite | with_reducible apply addrOutside2 | with_reducible apply addrOutside1
    | with_reducible apply addrOutside_mod | with_reducible apply addrOutside0 | exact Nat.zero_lt_succ _
    | with_reducible apply plan_ite | with_reducible apply plan_refuse | with_reducible apply plan_final | with_reducible apply plan_go
    | with_reducible apply plan_go_some | with_reducible apply plan_wait | with_reducible apply withBulk_sound
    | (exact mask_mono hp rfl)
    | ((with_reducible apply sound_parts) <;> first | (intro _; with_reducible rfl) | exact fun hm => (mask_absurd hp hm rfl).elim | skip)
    | simp (zeta := false) (etaStruct := .none) only [sound_mk] | (extract_lets +onlyGivenNames x; refine sound_have x ?_ ?_; subst x)
    | (extract_lets +onlyGivenNames x; refine sound_fun x ?_; subst x) | (extract_lets +onlyGivenNames x) | split
    | simp (zeta := false) (zetaDelta := true) (etaStruct := .none) only [sound_mk]

theorem cmdTblLoad_sound (hp : ms &&& 0x2090093200008B = 0) (d : Desc) (s : State) (hs : s.Sound ms sa) : State.Sound ms (cmdTblLoad d s) sa := by
  unfold cmdTblLoad
  repeat'
    first
    | assumption | (intro _) | with_reducible apply sound_ite | with_reducible apply command_sound | with_reducible apply withBulk_sound
    | with_reducible apply addrOutside_ite | with_reducible apply addrOutside2 | with_reducible apply addrOutside1
    | with_reducible apply addrOutside_mod | with_reducible apply addrOutside0 | exact Nat.zero_lt_succ _
    | with_reducible apply plan_ite | with_reducible apply plan_refuse | with_reducible apply plan_final | with_reducible apply plan_go
    | with_reducible apply plan_go_some | with_reducible apply plan_wait | with_reducible apply withBulk_sound
    | (exact mask_mono hp rfl)
    | ((with_reducible apply sound_parts) <;> first | (intro _; with_reducible rfl) | exact fun hm => (mask_absurd hp hm rfl).elim | skip)
    | simp (zeta := false) (etaStruct := .none) only [sound_mk] | (extract_lets +onlyGivenNames x; refine sound_have x ?_ ?_; subst x)
    | (extract_lets +onlyGivenNames x; refine sound_fun x ?_; subst x) | (extract_lets +onlyGivenNames x) | split
    | simp (zeta := false) (zetaDelta := true) (etaStruct := .none) only [sound_mk]

theorem bankSwapRequest_sound (hp : ms &&& 0x2000000081 = 0) (tick : Nat) (s : State) (hs : s.Sound ms sa) : State.Sound ms (bankSwapRequest tick s) sa := by
  unfold bankSwapRequest
  repeat'
    first
    | assumption | (intro _) | with_reducible apply sound_ite | with_reducible apply State.wr_sound
    | with_reducible apply addrOutside_ite | with_reducible apply addrOutside2 | with_reducible apply addrOutside1
    | with_reducible apply addrOutside_mod | with_reducible apply addrOutside0 | exact Nat.zero_lt_succ _ | (exact mask_mono hp rfl)
    | ((with_reducible apply sound_parts) <;> first | (intro _; with_reducible rfl) | exact fun hm => (mask_absurd hp hm rfl).elim | skip)
    | simp (zeta := false) (etaStruct := .none) only [sound_mk] | (extract_lets +onlyGivenNames x; refine sound_have x ?_ ?_; subst x)
    | (extract_lets +onlyGivenNames x; refine sound_fun x ?_; subst x) | (extract_lets +onlyGivenNames x) | split
    | simp (zeta := false) (zetaDelta := true) (etaStruct := .none) only [sound_mk]

theorem cmdBankSwap_sound (hp : ms &&& 0x2090283200008B = 0) (d : Desc) (s : State) (hs : s.Sound ms sa) : State.Sound ms (cmdBankSwap d s) sa := by
  unfold cmdBankSwap
  repeat'
    first
    | assumption | (intro _) | with_reducible apply sound_ite | with_reducible apply bankSwapRequest_sound
    | with_reducible apply command_sound | with_reducible apply addrOutside_ite | with_reducible apply addrOutside2
    | with_reducible apply addrOutside1 | with_reducible apply addrOutside_mod | with_reducible apply addrOutside0
    | exact Nat.zero_lt_succ _ | with_reducible apply plan_ite | with_reducible apply plan_refuse | with_reducible apply plan_final
    | with_reducible apply plan_go | with_reducible apply plan_go_some | with_reducible apply plan_wait
    | with_reducible apply withBulk_sound | (exact mask_mono hp rfl)
    | ((with_reducible apply sound_parts) <;> first | (intro _; with_reducible rfl) | exact fun hm => (mask_absurd hp hm rfl).elim | skip)
    | simp (zeta := false) (etaStruct := .none) only [sound_mk] | (extract_lets +onlyGivenNames x; refine sound_have x ?_ ?_; subst x)
    | (extract_lets +onlyGivenNames x; refine sound_fun x ?_; subst x) | (extract_lets +onlyGivenNames x) | split
    | simp (zeta := false) (zetaDelta := true) (etaStruct := .none) only [sound_mk]

theorem cmdBankCopy_sound (hp : ms &&& 0x2090083200008B = 0) (d : Desc) (s : State) (hs : s.Sound ms sa) : State.Sound ms (cmdBankCopy d s) sa := by
  unfold cmdBankCopy
  repeat'
    first
    | assumption | (intro _) | with_reducible apply sound_ite | with_reducible apply command_sound
    | with_reducible apply addrOutside_ite | with_reducible apply addrOutside2 | with_reducible apply addrOutside1
    | with_reducible apply addrOutside_mod | with_reducible apply addrOutside0 | exact Nat.zero_lt_succ _
    | with_reducible apply plan_ite | with_reducible apply plan_refuse | with_reducible apply plan_final | with_reducible apply plan_go
    | with_reducible apply plan_go_some | with_reducible apply plan_wait | with_reducible apply withBulk_sound
    | with_reducible apply sound_foldl | with_reducible apply sound_foldl_snd | (exact mask_mono hp rfl)
    | ((with_reducible apply sound_parts) <;> first | (intro _; with_reducible rfl) | exact fun hm => (mask_absurd hp hm rfl).elim | skip)
    | simp (zeta := false) (etaStruct := .none) only [sound_mk] | (extract_lets +onlyGivenNames x; refine sound_have x ?_ ?_; subst x)
    | (extract_lets +onlyGivenNames x; refine sound_fun x ?_; subst x) | (extract_lets +onlyGivenNames x) | split
    | simp (zeta := false) (zetaDelta := true) (etaStruct := .none) only [sound_mk]

theorem parWrite_sound (hp : ms &&& 0x100801000009 = 0) (pages tables : Bool) (old : List Byte) (s : State) (hs : s.Sound ms sa) : State.Sound ms (parWrite pages tables old s).2 sa := by
  unfold parWrite
  repeat'
    first
    | assumption | (intro _) | with_reducible apply sound_ite | with_reducible apply imageSave_sound
    | with_reducible apply addrOutside_ite | with_reducible apply addrOutside2 | with_reducible apply addrOutside1
    | with_reducible apply addrOutside_mod | with_reducible apply addrOutside0 | exact Nat.zero_lt_succ _ | (exact mask_mono hp rfl)
    | ((with_reducible apply sound_parts) <;> first | (intro _; with_reducible rfl) | exact fun hm => (mask_absurd hp hm rfl).elim | skip)
    | simp (zeta := false) (etaStruct := .none) only [sound_mk] | (extract_lets +onlyGivenNames x; refine sound_have x ?_ ?_; subst x)
    | (extract_lets +onlyGivenNames x; refine sound_fun x ?_; subst x) | (extract_lets +onlyGivenNames x) | split
    | simp (zeta := false) (zetaDelta := true) (etaStruct := .none) only [sound_mk]

theorem parBegin_sound (hp : ms &&& 0x100801000009 = 0) (pages tables : Bool) (s : State) (hs : s.Sound ms sa) : State.Sound ms (parBegin pages tables s).2 sa := by
  unfold parBegin
  repeat'
    first
    | assumption | (intro _) | with_reducible apply sound_ite | with_reducible apply norQueue_sound
    | with_reducible apply parWrite_sound | with_reducible apply addrOutside_ite | with_reducible apply addrOutside2
    | with_reducible apply addrOutside1 | with_reducible apply addrOutside_mod | with_reducible apply addrOutside0
    | exact Nat.zero_lt_succ _ | (exact mask_mono hp rfl)
    | ((with_reducible apply sound_parts) <;> first | (intro _; with_reducible rfl) | exact fun hm => (mask_absurd hp hm rfl).elim | skip)
    | simp (zeta := false) (etaStruct := .none) only [sound_mk] | (extract_lets +onlyGivenNames x; refine sound_have x ?_ ?_; subst x)
    | (extract_lets +onlyGivenNames x; refine sound_fun x ?_; subst x) | (extract_lets +onlyGivenNames x) | split
    | simp (zeta := false) (zetaDelta := true) (etaStruct := .none) only [sound_mk]

theorem cmdParSave_sound (hp : ms &&& 0x2090083300008B = 0) (d : Desc) (s : State) (hs : s.Sound ms sa) : State.Sound ms (cmdParSave d s) sa := by
  unfold cmdParSave
  repeat'
    first
    | assumption | (intro _) | with_reducible apply sound_ite | with_reducible apply command_sound | with_reducible apply parBegin_sound
    | with_reducible apply addrOutside_ite | with_reducible apply addrOutside2 | with_reducible apply addrOutside1
    | with_reducible apply addrOutside_mod | with_reducible apply addrOutside0 | exact Nat.zero_lt_succ _
    | with_reducible apply plan_ite | with_reducible apply plan_refuse | with_reducible apply plan_final | with_reducible apply plan_go
    | with_reducible apply plan_go_some | with_reducible apply plan_wait | with_reducible apply withBulk_sound
    | (exact mask_mono hp rfl)
    | ((with_reducible apply sound_parts) <;> first | (intro _; with_reducible rfl) | exact fun hm => (mask_absurd hp hm rfl).elim | skip)
    | simp (zeta := false) (etaStruct := .none) only [sound_mk] | (extract_lets +onlyGivenNames x; refine sound_have x ?_ ?_; subst x)
    | (extract_lets +onlyGivenNames x; refine sound_fun x ?_; subst x) | (extract_lets +onlyGivenNames x) | split
    | simp (zeta := false) (zetaDelta := true) (etaStruct := .none) only [sound_mk]

theorem cmdFbCorrect_sound (hp : ms &&& 0x2090083204008B = 0) (d : Desc) (s : State) (hs : s.Sound ms sa) : State.Sound ms (cmdFbCorrect d s) sa := by
  unfold cmdFbCorrect
  repeat'
    first
    | assumption | (intro _) | with_reducible apply sound_ite | with_reducible apply command_sound
    | with_reducible apply fbCorrect_sound | with_reducible apply addrOutside_ite | with_reducible apply addrOutside2
    | with_reducible apply addrOutside1 | with_reducible apply addrOutside_mod | with_reducible apply addrOutside0
    | exact Nat.zero_lt_succ _ | with_reducible apply plan_ite | with_reducible apply plan_refuse | with_reducible apply plan_final
    | with_reducible apply plan_go | with_reducible apply plan_go_some | with_reducible apply plan_wait
    | with_reducible apply withBulk_sound | (exact mask_mono hp rfl)
    | ((with_reducible apply sound_parts) <;> first | (intro _; with_reducible rfl) | exact fun hm => (mask_absurd hp hm rfl).elim | skip)
    | simp (zeta := false) (etaStruct := .none) only [sound_mk] | (extract_lets +onlyGivenNames x; refine sound_have x ?_ ?_; subst x)
    | (extract_lets +onlyGivenNames x; refine sound_fun x ?_; subst x) | (extract_lets +onlyGivenNames x) | split
    | simp (zeta := false) (zetaDelta := true) (etaStruct := .none) only [sound_mk]

theorem streamWords_sound (hp : ms &&& 0x100000000 = 0) (x : Stream) (off n : Nat) (s : State) (hs : s.Sound ms sa) : State.Sound ms (streamWords x off n s).2 sa := by
  unfold streamWords
  repeat'
    first
    | assumption | (intro _) | with_reducible apply sound_ite | with_reducible apply openItem_sound | (exact mask_mono hp rfl)
    | ((with_reducible apply sound_parts) <;> first | (intro _; with_reducible rfl) | exact fun hm => (mask_absurd hp hm rfl).elim | skip)
    | simp (zeta := false) (etaStruct := .none) only [sound_mk] | (extract_lets +onlyGivenNames x; refine sound_have x ?_ ?_; subst x)
    | (extract_lets +onlyGivenNames x; refine sound_fun x ?_; subst x) | (extract_lets +onlyGivenNames x) | split
    | simp (zeta := false) (zetaDelta := true) (etaStruct := .none) only [sound_mk]

theorem streamPush_sound (hp : ms &&& 0x100900000089 = 0) (n : Nat) (x : Stream) (s : State) (hs : s.Sound ms sa) : State.Sound ms (streamPush n x s).2 sa := by
  induction n generalizing x s with
  | zero => exact hs
  | succ n ih =>
    unfold streamPush
    split
    · exact hs
    · split
      · exact hs
      · extract_lets k w a m b
        have ha : a.Sound ms sa := State.qPush_sound (mask_mono hp rfl) _ _ _ (streamWords_sound (mask_mono hp rfl) _ _ _ _ hs)
        clear_value a
        have hb : b.Sound ms sa := sound_ite (sound_upd ha (fun p hm => by cases p <;> first | exact (mask_absurd hp hm rfl).elim | rfl)) ha
        exact ih _ _ hb

theorem streamEnd_sound (hp : ms &&& 0x800810000003 = 0) (x : Stream) (status : Nat) (s : State) (hs : s.Sound ms sa) : State.Sound ms (streamEnd x status s) sa := by
  unfold streamEnd
  repeat'
    first
    | assumption | (intro _) | with_reducible apply sound_ite | with_reducible apply finish_sound | with_reducible apply addrOutside_ite
    | with_reducible apply addrOutside2 | with_reducible apply addrOutside1 | with_reducible apply addrOutside_mod
    | with_reducible apply addrOutside0 | exact Nat.zero_lt_succ _ | (exact mask_mono hp rfl)
    | ((with_reducible apply sound_parts) <;> first | (intro _; with_reducible rfl) | exact fun hm => (mask_absurd hp hm rfl).elim | skip)
    | simp (zeta := false) (etaStruct := .none) only [sound_mk] | (extract_lets +onlyGivenNames x; refine sound_have x ?_ ?_; subst x)
    | (extract_lets +onlyGivenNames x; refine sound_fun x ?_; subst x) | (extract_lets +onlyGivenNames x) | split
    | simp (zeta := false) (zetaDelta := true) (etaStruct := .none) only [sound_mk]

theorem tableLost_sound (hp : ms &&& 0x60000080 = 0) (id : Nat) (s : State) (hs : s.Sound ms sa) : State.Sound ms (tableLost id s) sa := by
  unfold tableLost
  repeat'
    first
    | assumption | (intro _) | with_reducible apply sound_ite | with_reducible apply mpCause_sound | (exact mask_mono hp rfl)
    | ((with_reducible apply sound_parts) <;> first | (intro _; with_reducible rfl) | exact fun hm => (mask_absurd hp hm rfl).elim | skip)
    | simp (zeta := false) (etaStruct := .none) only [sound_mk] | (extract_lets +onlyGivenNames x; refine sound_have x ?_ ?_; subst x)
    | (extract_lets +onlyGivenNames x; refine sound_fun x ?_; subst x) | (extract_lets +onlyGivenNames x) | split
    | simp (zeta := false) (zetaDelta := true) (etaStruct := .none) only [sound_mk]

theorem imageRead_sound (hp : ms &&& 0x100801000009 = 0) (slot id : Nat) (s : State) (hs : s.Sound ms sa) : State.Sound ms (imageRead slot id s).2 sa := by
  unfold imageRead
  repeat'
    first
    | assumption | (intro _) | with_reducible apply sound_ite | with_reducible apply norQueue_sound
    | with_reducible apply addrOutside_ite | with_reducible apply addrOutside2 | with_reducible apply addrOutside1
    | with_reducible apply addrOutside_mod | with_reducible apply addrOutside0 | exact Nat.zero_lt_succ _ | (exact mask_mono hp rfl)
    | ((with_reducible apply sound_parts) <;> first | (intro _; with_reducible rfl) | exact fun hm => (mask_absurd hp hm rfl).elim | skip)
    | simp (zeta := false) (etaStruct := .none) only [sound_mk] | (extract_lets +onlyGivenNames x; refine sound_have x ?_ ?_; subst x)
    | (extract_lets +onlyGivenNames x; refine sound_fun x ?_; subst x) | (extract_lets +onlyGivenNames x) | split
    | simp (zeta := false) (zetaDelta := true) (etaStruct := .none) only [sound_mk]

theorem streamRead_sound (hp : ms &&& 0x2100861000089 = 0) (x : Stream) (slot seq job : Nat) (s : State) (hs : s.Sound ms sa) : State.Sound ms (streamRead x slot seq job s).2 sa := by
  unfold streamRead
  repeat'
    first
    | assumption | (intro _) | with_reducible apply sound_ite | with_reducible apply State.wr_sound
    | with_reducible apply imageRead_sound | with_reducible apply tableLost_sound | with_reducible apply addrOutside_ite
    | with_reducible apply addrOutside2 | with_reducible apply addrOutside1 | with_reducible apply addrOutside_mod
    | with_reducible apply addrOutside0 | exact Nat.zero_lt_succ _ | (exact mask_mono hp rfl)
    | ((with_reducible apply sound_parts) <;> first | (intro _; with_reducible rfl) | exact fun hm => (mask_absurd hp hm rfl).elim | skip)
    | simp (zeta := false) (etaStruct := .none) only [sound_mk] | (extract_lets +onlyGivenNames x; refine sound_have x ?_ ?_; subst x)
    | (extract_lets +onlyGivenNames x; refine sound_fun x ?_; subst x) | (extract_lets +onlyGivenNames x) | split
    | simp (zeta := false) (zetaDelta := true) (etaStruct := .none) only [sound_mk]

theorem streamWrite_sound (hp : ms &&& 0x2090291000008B = 0) (x : Stream) (s : State) (hs : s.Sound ms sa) : State.Sound ms (streamWrite x s).2 sa := by
  unfold streamWrite
  repeat'
    first
    | assumption | (intro _) | with_reducible apply sound_ite | with_reducible apply State.wr_sound
    | with_reducible apply drainStaging_sound | with_reducible apply streamEnd_sound | with_reducible apply streamPush_sound
    | with_reducible apply tblchkWrite_sound | with_reducible apply addrOutside_ite | with_reducible apply addrOutside2
    | with_reducible apply addrOutside1 | with_reducible apply addrOutside_mod | with_reducible apply addrOutside0
    | exact Nat.zero_lt_succ _ | (exact mask_mono hp rfl)
    | ((with_reducible apply sound_parts) <;> first | (intro _; with_reducible rfl) | exact fun hm => (mask_absurd hp hm rfl).elim | skip)
    | simp (zeta := false) (etaStruct := .none) only [sound_mk] | (extract_lets +onlyGivenNames x; refine sound_have x ?_ ?_; subst x)
    | (extract_lets +onlyGivenNames x; refine sound_fun x ?_; subst x) | (extract_lets +onlyGivenNames x) | split
    | simp (zeta := false) (zetaDelta := true) (etaStruct := .none) only [sound_mk]

theorem streamStep_sound (hp : ms &&& 0x2290297100008B = 0) (x : Stream) (s : State) (hs : s.Sound ms sa) : State.Sound ms (streamStep x s).2 sa := by
  unfold streamStep
  repeat'
    first
    | assumption | (intro _) | with_reducible apply sound_ite | with_reducible apply streamRead_sound
    | with_reducible apply streamWrite_sound | with_reducible apply addrOutside_ite | with_reducible apply addrOutside2
    | with_reducible apply addrOutside1 | with_reducible apply addrOutside_mod | with_reducible apply addrOutside0
    | exact Nat.zero_lt_succ _ | (exact mask_mono hp rfl)
    | ((with_reducible apply sound_parts) <;> first | (intro _; with_reducible rfl) | exact fun hm => (mask_absurd hp hm rfl).elim | skip)
    | simp (zeta := false) (etaStruct := .none) only [sound_mk] | (extract_lets +onlyGivenNames x; refine sound_have x ?_ ?_; subst x)
    | (extract_lets +onlyGivenNames x; refine sound_fun x ?_; subst x) | (extract_lets +onlyGivenNames x) | split
    | simp (zeta := false) (zetaDelta := true) (etaStruct := .none) only [sound_mk]

theorem streamPass_sound (hp : ms &&& 0x2290297100008B = 0) (q : Nat) (s : State) (hs : s.Sound ms sa) : State.Sound ms (streamPass q s) sa := by
  unfold streamPass
  repeat'
    first
    | assumption | (intro _) | with_reducible apply sound_ite | with_reducible apply streamStep_sound
    | with_reducible apply addrOutside_ite | with_reducible apply addrOutside2 | with_reducible apply addrOutside1
    | with_reducible apply addrOutside_mod | with_reducible apply addrOutside0 | exact Nat.zero_lt_succ _ | (exact mask_mono hp rfl)
    | ((with_reducible apply sound_parts) <;> first | (intro _; with_reducible rfl) | exact fun hm => (mask_absurd hp hm rfl).elim | skip)
    | simp (zeta := false) (etaStruct := .none) only [sound_mk] | (extract_lets +onlyGivenNames x; refine sound_have x ?_ ?_; subst x)
    | (extract_lets +onlyGivenNames x; refine sound_fun x ?_; subst x) | (extract_lets +onlyGivenNames x) | split
    | simp (zeta := false) (zetaDelta := true) (etaStruct := .none) only [sound_mk]

theorem reloadTable_sound (hp : ms &&& 0x100861000089 = 0) (id : Nat) (s : State) (hs : s.Sound ms sa) : State.Sound ms (reloadTable id s) sa := by
  unfold reloadTable
  repeat'
    first
    | assumption | (intro _) | with_reducible apply sound_ite | with_reducible apply imageRead_sound
    | with_reducible apply tableLost_sound | with_reducible apply addrOutside_ite | with_reducible apply addrOutside2
    | with_reducible apply addrOutside1 | with_reducible apply addrOutside_mod | with_reducible apply addrOutside0
    | exact Nat.zero_lt_succ _ | (exact mask_mono hp rfl)
    | ((with_reducible apply sound_parts) <;> first | (intro _; with_reducible rfl) | exact fun hm => (mask_absurd hp hm rfl).elim | skip)
    | simp (zeta := false) (etaStruct := .none) only [sound_mk] | (extract_lets +onlyGivenNames x; refine sound_have x ?_ ?_; subst x)
    | (extract_lets +onlyGivenNames x; refine sound_fun x ?_; subst x) | (extract_lets +onlyGivenNames x) | split
    | simp (zeta := false) (zetaDelta := true) (etaStruct := .none) only [sound_mk]

theorem reloadTables_sound (hp : ms &&& 0x100861000089 = 0) (s : State) (hs : s.Sound ms sa) : State.Sound ms (reloadTables s) sa := by
  unfold reloadTables
  repeat'
    first
    | assumption | (intro _) | with_reducible apply sound_ite | with_reducible apply reloadTable_sound
    | with_reducible apply addrOutside_ite | with_reducible apply addrOutside2 | with_reducible apply addrOutside1
    | with_reducible apply addrOutside_mod | with_reducible apply addrOutside0 | exact Nat.zero_lt_succ _
    | with_reducible apply sound_foldl | with_reducible apply sound_foldl_snd | (exact mask_mono hp rfl)
    | ((with_reducible apply sound_parts) <;> first | (intro _; with_reducible rfl) | exact fun hm => (mask_absurd hp hm rfl).elim | skip)
    | simp (zeta := false) (etaStruct := .none) only [sound_mk] | (extract_lets +onlyGivenNames x; refine sound_have x ?_ ?_; subst x)
    | (extract_lets +onlyGivenNames x; refine sound_fun x ?_; subst x) | (extract_lets +onlyGivenNames x) | split
    | simp (zeta := false) (zetaDelta := true) (etaStruct := .none) only [sound_mk]

end Sys2Proof.Machine
end

