-- ==== Sys2Proof/Laws/SoundCmdSafety.lean ====
section
/-! SUPPORT. The operations of Machine/CmdSafety.lean keep a state sound. -/

set_option Elab.async false

namespace Sys2Proof.Machine

variable {ms : Nat} {sa : State}

theorem cmdPrRelease_sound (hp : ms &&& 0x2098083208408B = 0) (d : Desc) (s : State) (hs : s.Sound ms sa) : State.Sound ms (cmdPrRelease d s) sa := by
  unfold cmdPrRelease
  repeat'
    first
    | assumption | (intro _) | with_reducible apply sound_ite | with_reducible apply command_sound
    | with_reducible apply releaseStart_sound | with_reducible apply addrOutside_ite | with_reducible apply addrOutside2
    | with_reducible apply addrOutside1 | with_reducible apply addrOutside_mod | with_reducible apply addrOutside0
    | exact Nat.zero_lt_succ _ | with_reducible apply plan_ite | with_reducible apply plan_refuse | with_reducible apply plan_final
    | with_reducible apply plan_go | with_reducible apply plan_go_some | with_reducible apply plan_wait
    | with_reducible apply withBulk_sound | (exact mask_mono hp rfl)
    | ((with_reducible apply sound_parts) <;> first | (intro _; with_reducible rfl) | exact fun hm => (mask_absurd hp hm rfl).elim | skip)
    | simp (zeta := false) (etaStruct := .none) only [sound_mk] | (extract_lets +onlyGivenNames x; refine sound_have x ?_ ?_; subst x)
    | (extract_lets +onlyGivenNames x; refine sound_fun x ?_; subst x) | (extract_lets +onlyGivenNames x) | split
    | simp (zeta := false) (zetaDelta := true) (etaStruct := .none) only [sound_mk]

theorem cmdPrEngage_sound (hp : ms &&& 0x2098883208408B = 0) (d : Desc) (s : State) (hs : s.Sound ms sa) : State.Sound ms (cmdPrEngage d s) sa := by
  unfold cmdPrEngage
  repeat'
    first
    | assumption | (intro _) | with_reducible apply sound_ite | with_reducible apply command_sound
    | with_reducible apply engageStart_sound | with_reducible apply addrOutside_ite | with_reducible apply addrOutside2
    | with_reducible apply addrOutside1 | with_reducible apply addrOutside_mod | with_reducible apply addrOutside0
    | exact Nat.zero_lt_succ _ | with_reducible apply plan_ite | with_reducible apply plan_refuse | with_reducible apply plan_final
    | with_reducible apply plan_go | with_reducible apply plan_go_some | with_reducible apply plan_wait
    | with_reducible apply withBulk_sound | (exact mask_mono hp rfl)
    | ((with_reducible apply sound_parts) <;> first | (intro _; with_reducible rfl) | exact fun hm => (mask_absurd hp hm rfl).elim | skip)
    | simp (zeta := false) (etaStruct := .none) only [sound_mk] | (extract_lets +onlyGivenNames x; refine sound_have x ?_ ?_; subst x)
    | (extract_lets +onlyGivenNames x; refine sound_fun x ?_; subst x) | (extract_lets +onlyGivenNames x) | split
    | simp (zeta := false) (zetaDelta := true) (etaStruct := .none) only [sound_mk]

theorem cmdPrPser_sound (hp : ms &&& 0x2090083310008B = 0) (d : Desc) (s : State) (hs : s.Sound ms sa) : State.Sound ms (cmdPrPser d s) sa := by
  unfold cmdPrPser
  repeat'
    first
    | assumption | (intro _) | with_reducible apply sound_ite | with_reducible apply command_sound
    | with_reducible apply configSave_sound | with_reducible apply addrOutside_ite | with_reducible apply addrOutside2
    | with_reducible apply addrOutside1 | with_reducible apply addrOutside_mod | with_reducible apply addrOutside0
    | exact Nat.zero_lt_succ _ | with_reducible apply plan_ite | with_reducible apply plan_refuse | with_reducible apply plan_final
    | with_reducible apply plan_go | with_reducible apply plan_go_some | with_reducible apply plan_wait
    | with_reducible apply withBulk_sound | (exact mask_mono hp rfl)
    | ((with_reducible apply sound_parts) <;> first | (intro _; with_reducible rfl) | exact fun hm => (mask_absurd hp hm rfl).elim | skip)
    | simp (zeta := false) (etaStruct := .none) only [sound_mk] | (extract_lets +onlyGivenNames x; refine sound_have x ?_ ?_; subst x)
    | (extract_lets +onlyGivenNames x; refine sound_fun x ?_; subst x) | (extract_lets +onlyGivenNames x) | split
    | simp (zeta := false) (zetaDelta := true) (etaStruct := .none) only [sound_mk]

theorem cmdSafeOpen_sound (hp : ms &&& 0x2090083210008B = 0) (d : Desc) (s : State) (hs : s.Sound ms sa) : State.Sound ms (cmdSafeOpen d s) sa := by
  unfold cmdSafeOpen
  repeat'
    first
    | assumption | (intro _) | with_reducible apply sound_ite | with_reducible apply State.wr_sound | with_reducible apply command_sound
    | with_reducible apply addrOutside_ite | with_reducible apply addrOutside2 | with_reducible apply addrOutside1
    | with_reducible apply addrOutside_mod | with_reducible apply addrOutside0 | exact Nat.zero_lt_succ _
    | with_reducible apply plan_ite | with_reducible apply plan_refuse | with_reducible apply plan_final | with_reducible apply plan_go
    | with_reducible apply plan_go_some | with_reducible apply plan_wait | with_reducible apply withBulk_sound
    | (exact mask_mono hp rfl)
    | ((with_reducible apply sound_parts) <;> first | (intro _; with_reducible rfl) | exact fun hm => (mask_absurd hp hm rfl).elim | skip)
    | simp (zeta := false) (etaStruct := .none) only [sound_mk] | (extract_lets +onlyGivenNames x; refine sound_have x ?_ ?_; subst x)
    | (extract_lets +onlyGivenNames x; refine sound_fun x ?_; subst x) | (extract_lets +onlyGivenNames x) | split
    | simp (zeta := false) (zetaDelta := true) (etaStruct := .none) only [sound_mk]

theorem cmdSafeClose_sound (hp : ms &&& 0x2090083310008B = 0) (d : Desc) (s : State) (hs : s.Sound ms sa) : State.Sound ms (cmdSafeClose d s) sa := by
  unfold cmdSafeClose
  repeat'
    first
    | assumption | (intro _) | with_reducible apply sound_ite | with_reducible apply State.wr_sound | with_reducible apply command_sound
    | with_reducible apply configSave_sound | with_reducible apply addrOutside_ite | with_reducible apply addrOutside2
    | with_reducible apply addrOutside1 | with_reducible apply addrOutside_mod | with_reducible apply addrOutside0
    | exact Nat.zero_lt_succ _ | with_reducible apply plan_ite | with_reducible apply plan_refuse | with_reducible apply plan_final
    | with_reducible apply plan_go | with_reducible apply plan_go_some | with_reducible apply plan_wait
    | with_reducible apply withBulk_sound | (exact mask_mono hp rfl)
    | ((with_reducible apply sound_parts) <;> first | (intro _; with_reducible rfl) | exact fun hm => (mask_absurd hp hm rfl).elim | skip)
    | simp (zeta := false) (etaStruct := .none) only [sound_mk] | (extract_lets +onlyGivenNames x; refine sound_have x ?_ ?_; subst x)
    | (extract_lets +onlyGivenNames x; refine sound_fun x ?_; subst x) | (extract_lets +onlyGivenNames x) | split
    | simp (zeta := false) (zetaDelta := true) (etaStruct := .none) only [sound_mk]

theorem safeConfirmed_sound (hp : ms &&& 0x180803100009 = 0) (subst : Bool) (crc : Nat) (s : State) (hs : s.Sound ms sa) : State.Sound ms (safeConfirmed subst crc s).2 sa := by
  unfold safeConfirmed
  repeat'
    first
    | assumption | (intro _) | with_reducible apply sound_ite | with_reducible apply State.event_sound
    | with_reducible apply State.setWord_sound | with_reducible apply State.wr_sound | with_reducible apply configSave_sound
    | with_reducible apply addrOutside_ite | with_reducible apply addrOutside2 | with_reducible apply addrOutside1
    | with_reducible apply addrOutside_mod | with_reducible apply addrOutside0 | exact Nat.zero_lt_succ _ | (exact mask_mono hp rfl)
    | ((with_reducible apply sound_parts) <;> first | (intro _; with_reducible rfl) | exact fun hm => (mask_absurd hp hm rfl).elim | skip)
    | simp (zeta := false) (etaStruct := .none) only [sound_mk] | (extract_lets +onlyGivenNames x; refine sound_have x ?_ ?_; subst x)
    | (extract_lets +onlyGivenNames x; refine sound_fun x ?_; subst x) | (extract_lets +onlyGivenNames x) | split
    | simp (zeta := false) (zetaDelta := true) (etaStruct := .none) only [sound_mk]

theorem cmdSafeConfirm_sound (hp : ms &&& 0x2098083310008B = 0) (d : Desc) (s : State) (hs : s.Sound ms sa) : State.Sound ms (cmdSafeConfirm d s) sa := by
  unfold cmdSafeConfirm
  repeat'
    first
    | assumption | (intro _) | with_reducible apply sound_ite | with_reducible apply command_sound
    | with_reducible apply safeConfirmed_sound | with_reducible apply addrOutside_ite | with_reducible apply addrOutside2
    | with_reducible apply addrOutside1 | with_reducible apply addrOutside_mod | with_reducible apply addrOutside0
    | exact Nat.zero_lt_succ _ | with_reducible apply plan_ite | with_reducible apply plan_refuse | with_reducible apply plan_final
    | with_reducible apply plan_go | with_reducible apply plan_go_some | with_reducible apply plan_wait
    | with_reducible apply withBulk_sound | (exact mask_mono hp rfl)
    | ((with_reducible apply sound_parts) <;> first | (intro _; with_reducible rfl) | exact fun hm => (mask_absurd hp hm rfl).elim | skip)
    | simp (zeta := false) (etaStruct := .none) only [sound_mk] | (extract_lets +onlyGivenNames x; refine sound_have x ?_ ?_; subst x)
    | (extract_lets +onlyGivenNames x; refine sound_fun x ?_; subst x) | (extract_lets +onlyGivenNames x) | split
    | simp (zeta := false) (zetaDelta := true) (etaStruct := .none) only [sound_mk]

theorem cmdSafeStatus_sound (hp : ms &&& 0x2090083200008B = 0) (d : Desc) (s : State) (hs : s.Sound ms sa) : State.Sound ms (cmdSafeStatus d s) sa := by
  unfold cmdSafeStatus
  repeat'
    first
    | assumption | (intro _) | with_reducible apply sound_ite | with_reducible apply command_sound
    | with_reducible apply addrOutside_ite | with_reducible apply addrOutside2 | with_reducible apply addrOutside1
    | with_reducible apply addrOutside_mod | with_reducible apply addrOutside0 | exact Nat.zero_lt_succ _
    | with_reducible apply plan_ite | with_reducible apply plan_refuse | with_reducible apply plan_final | with_reducible apply plan_go
    | with_reducible apply plan_go_some | with_reducible apply plan_wait | with_reducible apply withBulk_sound
    | (exact mask_mono hp rfl)
    | ((with_reducible apply sound_parts) <;> first | (intro _; with_reducible rfl) | exact fun hm => (mask_absurd hp hm rfl).elim | skip)
    | simp (zeta := false) (etaStruct := .none) only [sound_mk] | (extract_lets +onlyGivenNames x; refine sound_have x ?_ ?_; subst x)
    | (extract_lets +onlyGivenNames x; refine sound_fun x ?_; subst x) | (extract_lets +onlyGivenNames x) | split
    | simp (zeta := false) (zetaDelta := true) (etaStruct := .none) only [sound_mk]

end Sys2Proof.Machine
end

