-- ==== Sys2Proof/Laws/SoundCmdTest.lean ====
section
/-! SUPPORT. The operations of Machine/CmdTest.lean keep a state sound. -/

set_option Elab.async false

namespace Sys2Proof.Machine

variable {ms : Nat} {sa : State}

theorem cmdDiagOffstate_sound (hp : ms &&& 0x2091083200408B = 0) (d : Desc) (s : State) (hs : s.Sound ms sa) : State.Sound ms (cmdDiagOffstate d s) sa := by
  unfold cmdDiagOffstate
  repeat'
    first
    | assumption | (intro _) | with_reducible apply sound_ite | with_reducible apply State.wr_sound | with_reducible apply command_sound
    | with_reducible apply diagGo_sound | with_reducible apply addrOutside_ite | with_reducible apply addrOutside2
    | with_reducible apply addrOutside1 | with_reducible apply addrOutside_mod | with_reducible apply addrOutside0
    | exact Nat.zero_lt_succ _ | with_reducible apply plan_ite | with_reducible apply plan_refuse | with_reducible apply plan_final
    | with_reducible apply plan_go | with_reducible apply plan_go_some | with_reducible apply plan_wait
    | with_reducible apply withBulk_sound | (exact mask_mono hp rfl)
    | ((with_reducible apply sound_parts) <;> first | (intro _; with_reducible rfl) | exact fun hm => (mask_absurd hp hm rfl).elim | skip)
    | simp (zeta := false) (etaStruct := .none) only [sound_mk] | (extract_lets +onlyGivenNames x; refine sound_have x ?_ ?_; subst x)
    | (extract_lets +onlyGivenNames x; refine sound_fun x ?_; subst x) | (extract_lets +onlyGivenNames x) | split
    | simp (zeta := false) (zetaDelta := true) (etaStruct := .none) only [sound_mk]

theorem cmdBistLane_sound (hp : ms &&& 0x3490083600008B = 0) (d : Desc) (s : State) (hs : s.Sound ms sa) : State.Sound ms (cmdBistLane d s) sa := by
  unfold cmdBistLane
  repeat'
    first
    | assumption | (intro _) | with_reducible apply sound_ite | with_reducible apply bistQueue_sound
    | with_reducible apply command_sound | with_reducible apply addrOutside_ite | with_reducible apply addrOutside2
    | with_reducible apply addrOutside1 | with_reducible apply addrOutside_mod | with_reducible apply addrOutside0
    | exact Nat.zero_lt_succ _ | with_reducible apply plan_ite | with_reducible apply plan_refuse | with_reducible apply plan_final
    | with_reducible apply plan_go | with_reducible apply plan_go_some | with_reducible apply plan_wait
    | with_reducible apply withBulk_sound | (exact mask_mono hp rfl)
    | ((with_reducible apply sound_parts) <;> first | (intro _; with_reducible rfl) | exact fun hm => (mask_absurd hp hm rfl).elim | skip)
    | simp (zeta := false) (etaStruct := .none) only [sound_mk] | (extract_lets +onlyGivenNames x; refine sound_have x ?_ ?_; subst x)
    | (extract_lets +onlyGivenNames x; refine sound_fun x ?_; subst x) | (extract_lets +onlyGivenNames x) | split
    | simp (zeta := false) (zetaDelta := true) (etaStruct := .none) only [sound_mk]

theorem cmdBistMem_sound (hp : ms &&& 0x3490083600008B = 0) (d : Desc) (s : State) (hs : s.Sound ms sa) : State.Sound ms (cmdBistMem d s) sa := by
  unfold cmdBistMem
  repeat'
    first
    | assumption | (intro _) | with_reducible apply sound_ite | with_reducible apply bistQueue_sound
    | with_reducible apply command_sound | with_reducible apply addrOutside_ite | with_reducible apply addrOutside2
    | with_reducible apply addrOutside1 | with_reducible apply addrOutside_mod | with_reducible apply addrOutside0
    | exact Nat.zero_lt_succ _ | with_reducible apply plan_ite | with_reducible apply plan_refuse | with_reducible apply plan_final
    | with_reducible apply plan_go | with_reducible apply plan_go_some | with_reducible apply plan_wait
    | with_reducible apply withBulk_sound | (exact mask_mono hp rfl)
    | ((with_reducible apply sound_parts) <;> first | (intro _; with_reducible rfl) | exact fun hm => (mask_absurd hp hm rfl).elim | skip)
    | simp (zeta := false) (etaStruct := .none) only [sound_mk] | (extract_lets +onlyGivenNames x; refine sound_have x ?_ ?_; subst x)
    | (extract_lets +onlyGivenNames x; refine sound_fun x ?_; subst x) | (extract_lets +onlyGivenNames x) | split
    | simp (zeta := false) (zetaDelta := true) (etaStruct := .none) only [sound_mk]

theorem cmdBistGate_sound (hp : ms &&& 0x3490083600008B = 0) (d : Desc) (s : State) (hs : s.Sound ms sa) : State.Sound ms (cmdBistGate d s) sa := by
  unfold cmdBistGate
  repeat'
    first
    | assumption | (intro _) | with_reducible apply sound_ite | with_reducible apply bistQueue_sound
    | with_reducible apply command_sound | with_reducible apply addrOutside_ite | with_reducible apply addrOutside2
    | with_reducible apply addrOutside1 | with_reducible apply addrOutside_mod | with_reducible apply addrOutside0
    | exact Nat.zero_lt_succ _ | with_reducible apply plan_ite | with_reducible apply plan_refuse | with_reducible apply plan_final
    | with_reducible apply plan_go | with_reducible apply plan_go_some | with_reducible apply plan_wait
    | with_reducible apply withBulk_sound | (exact mask_mono hp rfl)
    | ((with_reducible apply sound_parts) <;> first | (intro _; with_reducible rfl) | exact fun hm => (mask_absurd hp hm rfl).elim | skip)
    | simp (zeta := false) (etaStruct := .none) only [sound_mk] | (extract_lets +onlyGivenNames x; refine sound_have x ?_ ?_; subst x)
    | (extract_lets +onlyGivenNames x; refine sound_fun x ?_; subst x) | (extract_lets +onlyGivenNames x) | split
    | simp (zeta := false) (zetaDelta := true) (etaStruct := .none) only [sound_mk]

theorem cmdCalPass_sound (hp : ms &&& 0x2090083200008B = 0) (d : Desc) (s : State) (hs : s.Sound ms sa) : State.Sound ms (cmdCalPass d s) sa := by
  unfold cmdCalPass
  repeat'
    first
    | assumption | (intro _) | with_reducible apply sound_ite | with_reducible apply command_sound
    | with_reducible apply addrOutside_ite | with_reducible apply addrOutside2 | with_reducible apply addrOutside1
    | with_reducible apply addrOutside_mod | with_reducible apply addrOutside0 | exact Nat.zero_lt_succ _
    | with_reducible apply plan_ite | with_reducible apply plan_refuse | with_reducible apply plan_final | with_reducible apply plan_go
    | with_reducible apply plan_go_some | with_reducible apply plan_wait | with_reducible apply withBulk_sound
    | (exact mask_mono hp rfl)
    | ((with_reducible apply sound_parts) <;> first | (intro _; with_reducible rfl) | exact fun hm => (mask_absurd hp hm rfl).elim | skip)
    | simp (zeta := false) (etaStruct := .none) only [sound_mk] | (extract_lets +onlyGivenNames x; refine sound_have x ?_ ?_; subst x)
    | (extract_lets +onlyGivenNames x; refine sound_fun x ?_; subst x) | (extract_lets +onlyGivenNames x) | split
    | simp (zeta := false) (zetaDelta := true) (etaStruct := .none) only [sound_mk]

theorem crcBegin_sound (hp : ms &&& 0x8100808000009 = 0) (id poly start len exp : Nat) (s : State) (hs : s.Sound ms sa) : State.Sound ms (crcBegin id poly start len exp s).2 sa := by
  unfold crcBegin
  split
  · next h => exact ccJob_sound (mask_mono hp rfl) hs h
  · exact hs

theorem cmdCrcScan_sound (hp : ms &&& 0x2890083A00008B = 0) (d : Desc) (s : State) (hs : s.Sound ms sa) : State.Sound ms (cmdCrcScan d s) sa := by
  unfold cmdCrcScan
  repeat'
    first
    | assumption | (intro _) | with_reducible apply sound_ite | with_reducible apply command_sound | with_reducible apply crcBegin_sound
    | with_reducible apply addrOutside_ite | with_reducible apply addrOutside2 | with_reducible apply addrOutside1
    | with_reducible apply addrOutside_mod | with_reducible apply addrOutside0 | exact Nat.zero_lt_succ _
    | with_reducible apply plan_ite | with_reducible apply plan_refuse | with_reducible apply plan_final | with_reducible apply plan_go
    | with_reducible apply plan_go_some | with_reducible apply plan_wait | with_reducible apply withBulk_sound
    | (exact mask_mono hp rfl)
    | ((with_reducible apply sound_parts) <;> first | (intro _; with_reducible rfl) | exact fun hm => (mask_absurd hp hm rfl).elim | skip)
    | simp (zeta := false) (etaStruct := .none) only [sound_mk] | (extract_lets +onlyGivenNames x; refine sound_have x ?_ ?_; subst x)
    | (extract_lets +onlyGivenNames x; refine sound_fun x ?_; subst x) | (extract_lets +onlyGivenNames x) | split
    | simp (zeta := false) (zetaDelta := true) (etaStruct := .none) only [sound_mk]

theorem cmdTrConfig_sound (hp : ms &&& 0x3090093200008B = 0) (d : Desc) (s : State) (hs : s.Sound ms sa) : State.Sound ms (cmdTrConfig d s) sa := by
  unfold cmdTrConfig
  repeat'
    first
    | assumption | (intro _) | with_reducible apply sound_ite | with_reducible apply command_sound
    | with_reducible apply ringConfig_sound | with_reducible apply withBulk_sound | with_reducible apply addrOutside_ite
    | with_reducible apply addrOutside2 | with_reducible apply addrOutside1 | with_reducible apply addrOutside_mod
    | with_reducible apply addrOutside0 | exact Nat.zero_lt_succ _ | with_reducible apply plan_ite | with_reducible apply plan_refuse
    | with_reducible apply plan_final | with_reducible apply plan_go | with_reducible apply plan_go_some
    | with_reducible apply plan_wait | with_reducible apply withBulk_sound | (exact mask_mono hp rfl)
    | ((with_reducible apply sound_parts) <;> first | (intro _; with_reducible rfl) | exact fun hm => (mask_absurd hp hm rfl).elim | skip)
    | simp (zeta := false) (etaStruct := .none) only [sound_mk] | (extract_lets +onlyGivenNames x; refine sound_have x ?_ ?_; subst x)
    | (extract_lets +onlyGivenNames x; refine sound_fun x ?_; subst x) | (extract_lets +onlyGivenNames x) | split
    | simp (zeta := false) (zetaDelta := true) (etaStruct := .none) only [sound_mk]

theorem cmdTrArm_sound (hp : ms &&& 0x3090083200008B = 0) (d : Desc) (s : State) (hs : s.Sound ms sa) : State.Sound ms (cmdTrArm d s) sa := by
  unfold cmdTrArm
  repeat'
    first
    | assumption | (intro _) | with_reducible apply sound_ite | with_reducible apply command_sound | with_reducible apply teArm_sound
    | with_reducible apply teDisarm_sound | with_reducible apply addrOutside_ite | with_reducible apply addrOutside2
    | with_reducible apply addrOutside1 | with_reducible apply addrOutside_mod | with_reducible apply addrOutside0
    | exact Nat.zero_lt_succ _ | with_reducible apply plan_ite | with_reducible apply plan_refuse | with_reducible apply plan_final
    | with_reducible apply plan_go | with_reducible apply plan_go_some | with_reducible apply plan_wait
    | with_reducible apply withBulk_sound | (exact mask_mono hp rfl)
    | ((with_reducible apply sound_parts) <;> first | (intro _; with_reducible rfl) | exact fun hm => (mask_absurd hp hm rfl).elim | skip)
    | simp (zeta := false) (etaStruct := .none) only [sound_mk] | (extract_lets +onlyGivenNames x; refine sound_have x ?_ ?_; subst x)
    | (extract_lets +onlyGivenNames x; refine sound_fun x ?_; subst x) | (extract_lets +onlyGivenNames x) | split
    | simp (zeta := false) (zetaDelta := true) (etaStruct := .none) only [sound_mk]

theorem cmdTrTrigger_sound (hp : ms &&& 0x2090083200008B = 0) (d : Desc) (s : State) (hs : s.Sound ms sa) : State.Sound ms (cmdTrTrigger d s) sa := by
  unfold cmdTrTrigger
  repeat'
    first
    | assumption | (intro _) | with_reducible apply sound_ite | with_reducible apply command_sound | with_reducible apply teTrig_sound
    | with_reducible apply addrOutside_ite | with_reducible apply addrOutside2 | with_reducible apply addrOutside1
    | with_reducible apply addrOutside_mod | with_reducible apply addrOutside0 | exact Nat.zero_lt_succ _
    | with_reducible apply plan_ite | with_reducible apply plan_refuse | with_reducible apply plan_final | with_reducible apply plan_go
    | with_reducible apply plan_go_some | with_reducible apply plan_wait | with_reducible apply withBulk_sound
    | (exact mask_mono hp rfl)
    | ((with_reducible apply sound_parts) <;> first | (intro _; with_reducible rfl) | exact fun hm => (mask_absurd hp hm rfl).elim | skip)
    | simp (zeta := false) (etaStruct := .none) only [sound_mk] | (extract_lets +onlyGivenNames x; refine sound_have x ?_ ?_; subst x)
    | (extract_lets +onlyGivenNames x; refine sound_fun x ?_; subst x) | (extract_lets +onlyGivenNames x) | split
    | simp (zeta := false) (zetaDelta := true) (etaStruct := .none) only [sound_mk]

theorem guardCount_sound (hp : ms &&& 0x10000022000001 = 0) (r bad : Nat) (s : State) (hs : s.Sound ms sa) : State.Sound ms (guardCount r bad s) sa := by
  unfold guardCount
  repeat'
    first
    | assumption | (intro _) | with_reducible apply sound_ite | with_reducible apply State.add_sound
    | with_reducible apply State.mpEvent_sound | with_reducible apply addrOutside_ite | with_reducible apply addrOutside2
    | with_reducible apply addrOutside1 | with_reducible apply addrOutside_mod | with_reducible apply addrOutside0
    | exact Nat.zero_lt_succ _ | (exact mask_mono hp rfl)
    | ((with_reducible apply sound_parts) <;> first | (intro _; with_reducible rfl) | exact fun hm => (mask_absurd hp hm rfl).elim | skip)
    | simp (zeta := false) (etaStruct := .none) only [sound_mk] | (extract_lets +onlyGivenNames x; refine sound_have x ?_ ?_; subst x)
    | (extract_lets +onlyGivenNames x; refine sound_fun x ?_; subst x) | (extract_lets +onlyGivenNames x) | split
    | simp (zeta := false) (zetaDelta := true) (etaStruct := .none) only [sound_mk]

theorem cmdTrRead_sound (hp : ms &&& 0x3090083200008B = 0) (d : Desc) (s : State) (hs : s.Sound ms sa) : State.Sound ms (cmdTrRead d s) sa := by
  unfold cmdTrRead
  repeat'
    first
    | assumption | (intro _) | with_reducible apply sound_ite | with_reducible apply bulkPut_sound | with_reducible apply command_sound
    | with_reducible apply guardCount_sound | with_reducible apply addrOutside_ite | with_reducible apply addrOutside2
    | with_reducible apply addrOutside1 | with_reducible apply addrOutside_mod | with_reducible apply addrOutside0
    | exact Nat.zero_lt_succ _ | with_reducible apply plan_ite | with_reducible apply plan_refuse | with_reducible apply plan_final
    | with_reducible apply plan_go | with_reducible apply plan_go_some | with_reducible apply plan_wait
    | with_reducible apply withBulk_sound | (exact mask_mono hp rfl)
    | ((with_reducible apply sound_parts) <;> first | (intro _; with_reducible rfl) | exact fun hm => (mask_absurd hp hm rfl).elim | skip)
    | simp (zeta := false) (etaStruct := .none) only [sound_mk] | (extract_lets +onlyGivenNames x; refine sound_have x ?_ ?_; subst x)
    | (extract_lets +onlyGivenNames x; refine sound_fun x ?_; subst x) | (extract_lets +onlyGivenNames x) | split
    | simp (zeta := false) (zetaDelta := true) (etaStruct := .none) only [sound_mk]

theorem readWork_sound (hp : ms &&& 0x10080100000B = 0) (spans : List (Nat × Nat)) (off : Nat) (tail result : List Byte) (s : State) (hs : s.Sound ms sa) : State.Sound ms (readWork spans off tail result s).2 sa := by
  unfold readWork
  repeat'
    first
    | assumption | (intro _) | with_reducible apply sound_ite | with_reducible apply bulkPut_sound | with_reducible apply norQueue_sound
    | with_reducible apply addrOutside_ite | with_reducible apply addrOutside2 | with_reducible apply addrOutside1
    | with_reducible apply addrOutside_mod | with_reducible apply addrOutside0 | exact Nat.zero_lt_succ _ | (exact mask_mono hp rfl)
    | ((with_reducible apply sound_parts) <;> first | (intro _; with_reducible rfl) | exact fun hm => (mask_absurd hp hm rfl).elim | skip)
    | simp (zeta := false) (etaStruct := .none) only [sound_mk] | (extract_lets +onlyGivenNames x; refine sound_have x ?_ ?_; subst x)
    | (extract_lets +onlyGivenNames x; refine sound_fun x ?_; subst x) | (extract_lets +onlyGivenNames x) | split
    | simp (zeta := false) (zetaDelta := true) (etaStruct := .none) only [sound_mk]

theorem cmdEvRead_sound (hp : ms &&& 0x2090083300008B = 0) (d : Desc) (s : State) (hs : s.Sound ms sa) : State.Sound ms (cmdEvRead d s) sa := by
  unfold cmdEvRead
  repeat'
    first
    | assumption | (intro _) | with_reducible apply sound_ite | with_reducible apply command_sound | with_reducible apply readWork_sound
    | with_reducible apply addrOutside_ite | with_reducible apply addrOutside2 | with_reducible apply addrOutside1
    | with_reducible apply addrOutside_mod | with_reducible apply addrOutside0 | exact Nat.zero_lt_succ _
    | with_reducible apply plan_ite | with_reducible apply plan_refuse | with_reducible apply plan_final | with_reducible apply plan_go
    | with_reducible apply plan_go_some | with_reducible apply plan_wait | with_reducible apply withBulk_sound
    | (exact mask_mono hp rfl)
    | ((with_reducible apply sound_parts) <;> first | (intro _; with_reducible rfl) | exact fun hm => (mask_absurd hp hm rfl).elim | skip)
    | simp (zeta := false) (etaStruct := .none) only [sound_mk] | (extract_lets +onlyGivenNames x; refine sound_have x ?_ ?_; subst x)
    | (extract_lets +onlyGivenNames x; refine sound_fun x ?_; subst x) | (extract_lets +onlyGivenNames x) | split
    | simp (zeta := false) (zetaDelta := true) (etaStruct := .none) only [sound_mk]

end Sys2Proof.Machine
end

