-- ==== Sys2Proof/Laws/SoundCmdLink.lean ====
section
/-! SUPPORT. The operations of Machine/CmdLink.lean keep a state sound. -/

set_option Elab.async false

namespace Sys2Proof.Machine

variable {ms : Nat} {sa : State}

theorem cmdLkEnum_sound (hp : ms &&& 0x209408B240008B = 0) (d : Desc) (s : State) (hs : s.Sound ms sa) : State.Sound ms (cmdLkEnum d s) sa := by
  unfold cmdLkEnum
  repeat'
    first
    | assumption | (intro _) | with_reducible apply sound_ite | with_reducible apply command_sound
    | with_reducible apply enumStart_sound | with_reducible apply addrOutside_ite | with_reducible apply addrOutside2
    | with_reducible apply addrOutside1 | with_reducible apply addrOutside_mod | with_reducible apply addrOutside0
    | exact Nat.zero_lt_succ _ | with_reducible apply plan_ite | with_reducible apply plan_refuse | with_reducible apply plan_final
    | with_reducible apply plan_go | with_reducible apply plan_go_some | with_reducible apply plan_wait
    | with_reducible apply withBulk_sound | (exact mask_mono hp rfl)
    | ((with_reducible apply sound_parts) <;> first | (intro _; with_reducible rfl) | exact fun hm => (mask_absurd hp hm rfl).elim | skip)
    | simp (zeta := false) (etaStruct := .none) only [sound_mk] | (extract_lets +onlyGivenNames x; refine sound_have x ?_ ?_; subst x)
    | (extract_lets +onlyGivenNames x; refine sound_fun x ?_; subst x) | (extract_lets +onlyGivenNames x) | split
    | simp (zeta := false) (zetaDelta := true) (etaStruct := .none) only [sound_mk]

theorem cmdCsForm_sound (hp : ms &&& 0x2090083200008B = 0) (d : Desc) (s : State) (hs : s.Sound ms sa) : State.Sound ms (cmdCsForm d s) sa := by
  unfold cmdCsForm
  repeat'
    first
    | assumption | (intro _) | with_reducible apply sound_ite | with_reducible apply command_sound
    | with_reducible apply addrOutside_ite | with_reducible apply addrOutside2 | with_reducible apply addrOutside1
    | with_reducible apply addrOutside_mod | with_reducible apply addrOutside0 | exact Nat.zero_lt_succ _
    | with_reducible apply plan_ite | with_reducible apply plan_refuse | with_reducible apply plan_final | with_reducible apply plan_go
    | with_reducible apply plan_go_some | with_reducible apply plan_wait | with_reducible apply withBulk_sound
    | (exact mask_mono hp rfl)
    | ((with_reducible apply sound_parts) <;> first | (intro _; with_reducible rfl) | exact fun hm => (mask_absurd hp hm rfl).elim | skip)
    | simp (zeta := false) (etaStruct := .none) only [sound_mk] | (extract_lets +onlyGivenNames x; refine sound_have x ?_ ?_; subst x)
    | (extract_lets +onlyGivenNames x; refine sound_fun x ?_; subst x) | (extract_lets +onlyGivenNames x) | split
    | simp (zeta := false) (zetaDelta := true) (etaStruct := .none) only [sound_mk]

theorem formConsist_sound (hp : ms &&& 0x1408A2400009 = 0) (consist weight deputy : Nat) (s : State) (hs : s.Sound ms sa) : State.Sound ms (formConsist consist weight deputy s) sa := by
  unfold formConsist
  repeat'
    first
    | assumption | (intro _) | with_reducible apply sound_ite | with_reducible apply State.wr_sound
    | with_reducible apply consistReport_sound | with_reducible apply loadPost_sound | with_reducible apply roleChange_sound
    | with_reducible apply slotWrite_sound | with_reducible apply addrOutside_ite | with_reducible apply addrOutside2
    | with_reducible apply addrOutside1 | with_reducible apply addrOutside_mod | with_reducible apply addrOutside0
    | exact Nat.zero_lt_succ _ | (exact mask_mono hp rfl)
    | ((with_reducible apply sound_parts) <;> first | (intro _; with_reducible rfl) | exact fun hm => (mask_absurd hp hm rfl).elim | skip)
    | simp (zeta := false) (etaStruct := .none) only [sound_mk] | (extract_lets +onlyGivenNames x; refine sound_have x ?_ ?_; subst x)
    | (extract_lets +onlyGivenNames x; refine sound_fun x ?_; subst x) | (extract_lets +onlyGivenNames x) | split
    | simp (zeta := false) (zetaDelta := true) (etaStruct := .none) only [sound_mk]

theorem hopsTo_sound (hp : ms &&& 0x100000000 = 0) (uid : Nat) (s : State) (hs : s.Sound ms sa) : State.Sound ms (hopsTo uid s).2 sa := by
  unfold hopsTo
  repeat'
    first
    | assumption | (intro _) | with_reducible apply sound_ite | with_reducible apply State.drawBits_sound | (exact mask_mono hp rfl)
    | ((with_reducible apply sound_parts) <;> first | (intro _; with_reducible rfl) | exact fun hm => (mask_absurd hp hm rfl).elim | skip)
    | simp (zeta := false) (etaStruct := .none) only [sound_mk] | (extract_lets +onlyGivenNames x; refine sound_have x ?_ ?_; subst x)
    | (extract_lets +onlyGivenNames x; refine sound_fun x ?_; subst x) | (extract_lets +onlyGivenNames x) | split
    | simp (zeta := false) (zetaDelta := true) (etaStruct := .none) only [sound_mk]

theorem addStart_sound (hp : ms &&& 0x40180400001 = 0) (uid slot weight hops : Nat) (load : Nat × Nat × Nat) (s : State) (hs : s.Sound ms sa) : State.Sound ms (addStart uid slot weight hops load s) sa := by
  unfold addStart
  repeat'
    first
    | assumption | (intro _) | with_reducible apply sound_ite | with_reducible apply State.add_sound
    | with_reducible apply State.answer_sound | with_reducible apply State.drawBits_sound | with_reducible apply State.wr_sound
    | with_reducible apply loadPost_sound | with_reducible apply sendMsg_sound | with_reducible apply addrOutside_ite
    | with_reducible apply addrOutside2 | with_reducible apply addrOutside1 | with_reducible apply addrOutside_mod
    | with_reducible apply addrOutside0 | exact Nat.zero_lt_succ _ | (exact mask_mono hp rfl)
    | ((with_reducible apply sound_parts) <;> first | (intro _; with_reducible rfl) | exact fun hm => (mask_absurd hp hm rfl).elim | skip)
    | simp (zeta := false) (etaStruct := .none) only [sound_mk] | (extract_lets +onlyGivenNames x; refine sound_have x ?_ ?_; subst x)
    | (extract_lets +onlyGivenNames x; refine sound_fun x ?_; subst x) | (extract_lets +onlyGivenNames x) | split
    | simp (zeta := false) (zetaDelta := true) (etaStruct := .none) only [sound_mk]

theorem cmdCsAdd_sound (hp : ms &&& 0x209409B240008B = 0) (d : Desc) (s : State) (hs : s.Sound ms sa) : State.Sound ms (cmdCsAdd d s) sa := by
  unfold cmdCsAdd
  repeat'
    first
    | assumption | (intro _) | with_reducible apply sound_ite | with_reducible apply addStart_sound | with_reducible apply command_sound
    | with_reducible apply hopsTo_sound | with_reducible apply addrOutside_ite | with_reducible apply addrOutside2
    | with_reducible apply addrOutside1 | with_reducible apply addrOutside_mod | with_reducible apply addrOutside0
    | exact Nat.zero_lt_succ _ | with_reducible apply plan_ite | with_reducible apply plan_refuse | with_reducible apply plan_final
    | with_reducible apply plan_go | with_reducible apply plan_go_some | with_reducible apply plan_wait
    | with_reducible apply withBulk_sound | (exact mask_mono hp rfl)
    | ((with_reducible apply sound_parts) <;> first | (intro _; with_reducible rfl) | exact fun hm => (mask_absurd hp hm rfl).elim | skip)
    | simp (zeta := false) (etaStruct := .none) only [sound_mk] | (extract_lets +onlyGivenNames x; refine sound_have x ?_ ?_; subst x)
    | (extract_lets +onlyGivenNames x; refine sound_fun x ?_; subst x) | (extract_lets +onlyGivenNames x) | split
    | simp (zeta := false) (zetaDelta := true) (etaStruct := .none) only [sound_mk]

theorem removeCell_sound (hp : ms &&& 0x40080400001 = 0) (slot uid : Nat) (s : State) (hs : s.Sound ms sa) : State.Sound ms (removeCell slot uid s) sa := by
  unfold removeCell
  repeat'
    first
    | assumption | (intro _) | with_reducible apply sound_ite | with_reducible apply sendMsg_sound
    | with_reducible apply addrOutside_ite | with_reducible apply addrOutside2 | with_reducible apply addrOutside1
    | with_reducible apply addrOutside_mod | with_reducible apply addrOutside0 | exact Nat.zero_lt_succ _ | (exact mask_mono hp rfl)
    | ((with_reducible apply sound_parts) <;> first | (intro _; with_reducible rfl) | exact fun hm => (mask_absurd hp hm rfl).elim | skip)
    | simp (zeta := false) (etaStruct := .none) only [sound_mk] | (extract_lets +onlyGivenNames x; refine sound_have x ?_ ?_; subst x)
    | (extract_lets +onlyGivenNames x; refine sound_fun x ?_; subst x) | (extract_lets +onlyGivenNames x) | split
    | simp (zeta := false) (zetaDelta := true) (etaStruct := .none) only [sound_mk]

theorem cmdCsRemove_sound (hp : ms &&& 0x209408B240008B = 0) (d : Desc) (s : State) (hs : s.Sound ms sa) : State.Sound ms (cmdCsRemove d s) sa := by
  unfold cmdCsRemove
  repeat'
    first
    | assumption | (intro _) | with_reducible apply sound_ite | with_reducible apply command_sound
    | with_reducible apply removeCell_sound | with_reducible apply addrOutside_ite | with_reducible apply addrOutside2
    | with_reducible apply addrOutside1 | with_reducible apply addrOutside_mod | with_reducible apply addrOutside0
    | exact Nat.zero_lt_succ _ | with_reducible apply plan_ite | with_reducible apply plan_refuse | with_reducible apply plan_final
    | with_reducible apply plan_go | with_reducible apply plan_go_some | with_reducible apply plan_wait
    | with_reducible apply withBulk_sound | (exact mask_mono hp rfl)
    | ((with_reducible apply sound_parts) <;> first | (intro _; with_reducible rfl) | exact fun hm => (mask_absurd hp hm rfl).elim | skip)
    | simp (zeta := false) (etaStruct := .none) only [sound_mk] | (extract_lets +onlyGivenNames x; refine sound_have x ?_ ?_; subst x)
    | (extract_lets +onlyGivenNames x; refine sound_fun x ?_; subst x) | (extract_lets +onlyGivenNames x) | split
    | simp (zeta := false) (zetaDelta := true) (etaStruct := .none) only [sound_mk]

theorem cmdCsDissolve_sound (hp : ms &&& 0x209408B240008B = 0) (d : Desc) (s : State) (hs : s.Sound ms sa) : State.Sound ms (cmdCsDissolve d s) sa := by
  unfold cmdCsDissolve
  repeat'
    first
    | assumption | (intro _) | with_reducible apply sound_ite | with_reducible apply command_sound
    | with_reducible apply removeCell_sound | with_reducible apply addrOutside_ite | with_reducible apply addrOutside2
    | with_reducible apply addrOutside1 | with_reducible apply addrOutside_mod | with_reducible apply addrOutside0
    | exact Nat.zero_lt_succ _ | with_reducible apply plan_ite | with_reducible apply plan_refuse | with_reducible apply plan_final
    | with_reducible apply plan_go | with_reducible apply plan_go_some | with_reducible apply plan_wait
    | with_reducible apply withBulk_sound | with_reducible apply sound_foldl | with_reducible apply sound_foldl_snd
    | (exact mask_mono hp rfl)
    | ((with_reducible apply sound_parts) <;> first | (intro _; with_reducible rfl) | exact fun hm => (mask_absurd hp hm rfl).elim | skip)
    | simp (zeta := false) (etaStruct := .none) only [sound_mk] | (extract_lets +onlyGivenNames x; refine sound_have x ?_ ?_; subst x)
    | (extract_lets +onlyGivenNames x; refine sound_fun x ?_; subst x) | (extract_lets +onlyGivenNames x) | split
    | simp (zeta := false) (zetaDelta := true) (etaStruct := .none) only [sound_mk]

end Sys2Proof.Machine
end

