-- ==== Sys2Proof/Laws/SoundCmdFirmware.lean ====
section
/-! SUPPORT. The operations of Machine/CmdFirmware.lean keep a state sound. -/

set_option Elab.async false

namespace Sys2Proof.Machine

variable {ms : Nat} {sa : State}

theorem cmdFwStage_sound (hp : ms &&& 0x2090093300008B = 0) (d : Desc) (s : State) (hs : s.Sound ms sa) : State.Sound ms (cmdFwStage d s) sa := by
  unfold cmdFwStage
  repeat'
    first
    | assumption | (intro _) | with_reducible apply sound_ite | with_reducible apply command_sound
    | with_reducible apply journalSave_sound | with_reducible apply norQueue_sound | with_reducible apply withBulk_sound
    | with_reducible apply addrOutside_ite | with_reducible apply addrOutside2 | with_reducible apply addrOutside1
    | with_reducible apply addrOutside_mod | with_reducible apply addrOutside0 | exact Nat.zero_lt_succ _
    | with_reducible apply plan_ite | with_reducible apply plan_refuse | with_reducible apply plan_final | with_reducible apply plan_go
    | with_reducible apply plan_go_some | with_reducible apply plan_wait | with_reducible apply withBulk_sound
    | (exact mask_mono hp rfl)
    | ((with_reducible apply sound_parts) <;> first | (intro _; with_reducible rfl) | exact fun hm => (mask_absurd hp hm rfl).elim | skip)
    | simp (zeta := false) (etaStruct := .none) only [sound_mk] | (extract_lets +onlyGivenNames x; refine sound_have x ?_ ?_; subst x)
    | (extract_lets +onlyGivenNames x; refine sound_fun x ?_; subst x) | (extract_lets +onlyGivenNames x) | split
    | simp (zeta := false) (zetaDelta := true) (etaStruct := .none) only [sound_mk]

theorem cmdFwVerify_sound (hp : ms &&& 0x2090083300008B = 0) (d : Desc) (s : State) (hs : s.Sound ms sa) : State.Sound ms (cmdFwVerify d s) sa := by
  unfold cmdFwVerify
  repeat'
    first
    | assumption | (intro _) | with_reducible apply sound_ite | with_reducible apply command_sound
    | with_reducible apply journalSave_sound | with_reducible apply norQueue_sound | with_reducible apply addrOutside_ite
    | with_reducible apply addrOutside2 | with_reducible apply addrOutside1 | with_reducible apply addrOutside_mod
    | with_reducible apply addrOutside0 | exact Nat.zero_lt_succ _ | with_reducible apply plan_ite | with_reducible apply plan_refuse
    | with_reducible apply plan_final | with_reducible apply plan_go | with_reducible apply plan_go_some
    | with_reducible apply plan_wait | with_reducible apply withBulk_sound | (exact mask_mono hp rfl)
    | ((with_reducible apply sound_parts) <;> first | (intro _; with_reducible rfl) | exact fun hm => (mask_absurd hp hm rfl).elim | skip)
    | simp (zeta := false) (etaStruct := .none) only [sound_mk] | (extract_lets +onlyGivenNames x; refine sound_have x ?_ ?_; subst x)
    | (extract_lets +onlyGivenNames x; refine sound_fun x ?_; subst x) | (extract_lets +onlyGivenNames x) | split
    | simp (zeta := false) (zetaDelta := true) (etaStruct := .none) only [sound_mk]

theorem cmdFwSwap_sound (hp : ms &&& 0x2090083300008B = 0) (d : Desc) (s : State) (hs : s.Sound ms sa) : State.Sound ms (cmdFwSwap d s) sa := by
  unfold cmdFwSwap
  repeat'
    first
    | assumption | (intro _) | with_reducible apply sound_ite | with_reducible apply command_sound
    | with_reducible apply journalSave_sound | with_reducible apply addrOutside_ite | with_reducible apply addrOutside2
    | with_reducible apply addrOutside1 | with_reducible apply addrOutside_mod | with_reducible apply addrOutside0
    | exact Nat.zero_lt_succ _ | with_reducible apply plan_ite | with_reducible apply plan_refuse | with_reducible apply plan_final
    | with_reducible apply plan_go | with_reducible apply plan_go_some | with_reducible apply plan_wait
    | with_reducible apply withBulk_sound | (exact mask_mono hp rfl)
    | ((with_reducible apply sound_parts) <;> first | (intro _; with_reducible rfl) | exact fun hm => (mask_absurd hp hm rfl).elim | skip)
    | simp (zeta := false) (etaStruct := .none) only [sound_mk] | (extract_lets +onlyGivenNames x; refine sound_have x ?_ ?_; subst x)
    | (extract_lets +onlyGivenNames x; refine sound_fun x ?_; subst x) | (extract_lets +onlyGivenNames x) | split
    | simp (zeta := false) (zetaDelta := true) (etaStruct := .none) only [sound_mk]

theorem cmdFwDiscard_sound (hp : ms &&& 0x2090083300008B = 0) (d : Desc) (s : State) (hs : s.Sound ms sa) : State.Sound ms (cmdFwDiscard d s) sa := by
  unfold cmdFwDiscard
  repeat'
    first
    | assumption | (intro _) | with_reducible apply sound_ite | with_reducible apply command_sound
    | with_reducible apply journalSave_sound | with_reducible apply norQueue_sound | with_reducible apply addrOutside_ite
    | with_reducible apply addrOutside2 | with_reducible apply addrOutside1 | with_reducible apply addrOutside_mod
    | with_reducible apply addrOutside0 | exact Nat.zero_lt_succ _ | with_reducible apply plan_ite | with_reducible apply plan_refuse
    | with_reducible apply plan_final | with_reducible apply plan_go | with_reducible apply plan_go_some
    | with_reducible apply plan_wait | with_reducible apply withBulk_sound | (exact mask_mono hp rfl)
    | ((with_reducible apply sound_parts) <;> first | (intro _; with_reducible rfl) | exact fun hm => (mask_absurd hp hm rfl).elim | skip)
    | simp (zeta := false) (etaStruct := .none) only [sound_mk] | (extract_lets +onlyGivenNames x; refine sound_have x ?_ ?_; subst x)
    | (extract_lets +onlyGivenNames x; refine sound_fun x ?_; subst x) | (extract_lets +onlyGivenNames x) | split
    | simp (zeta := false) (zetaDelta := true) (etaStruct := .none) only [sound_mk]

theorem cmdNvRead_sound (hp : ms &&& 0x2090083300008B = 0) (d : Desc) (s : State) (hs : s.Sound ms sa) : State.Sound ms (cmdNvRead d s) sa := by
  unfold cmdNvRead
  repeat'
    first
    | assumption | (intro _) | with_reducible apply sound_ite | with_reducible apply command_sound | with_reducible apply readWork_sound
    | with_reducible apply addrOutside_ite | with_reducible apply addrOutside2 | with_reducible apply addrOutside1
    | with_reducible apply addrOutside_mod | with_reducible apply addrOutside0 | exact Nat.zero_lt_succ _
    | with_reducible apply plan_ite | with_reducible apply plan_refuse | with_reducible apply plan_final | with_reducible apply plan_go
    | with_reducible apply plan_go_some | with_reducible apply plan_wait | with_reducible apply withBulk_sound
    | (exact mask_mono hp rfl)
    | ((with_reducible apply sound_parts) <;> first | (intro _; with_reducible rfl) | exact fun hm => (mask_absurd hp hm rfl).elim | skip)
    | simp (zeta := false) (etaStruct := .none) only [sound_mk] | (extract_lets +onlyGivenNames x; refine sound_have x ?_ ?_; subst x)
    | (extract_lets +onlyGivenNames x; refine sound_fun x ?_; subst x) | (extract_lets +onlyGivenNames x) | split
    | simp (zeta := false) (zetaDelta := true) (etaStruct := .none) only [sound_mk]

theorem badOpcode_sound (hp : ms &&& 0x2090083200008B = 0) (op : Nat) (d : Desc) (s : State) (hs : s.Sound ms sa) : State.Sound ms (badOpcode op d s) sa := by
  unfold badOpcode
  split
  · exact hs
  · split
    · exact runPlan_sound (mask_mono hp rfl) _ _ _ _ hs (plan_refuse (State.event_sound (mask_mono hp rfl) _ _ _ _ hs))
    · exact runPlan_sound (mask_mono hp rfl) _ _ _ _ hs (plan_refuse hs)

theorem dispatchOpcode_sound (hp : ms &&& 0x3FFFFFFF7C41DB = 0) (op : Nat) (d : Desc) (s : State) (hs : s.Sound ms sa) : State.Sound ms (dispatchOpcode op d s) sa := by
  unfold dispatchOpcode
  repeat'
    first
    | assumption | (intro _) | with_reducible apply sound_ite | with_reducible apply badOpcode_sound
    | with_reducible apply cmdBankCopy_sound | with_reducible apply cmdBankSwap_sound | with_reducible apply cmdBistGate_sound
    | with_reducible apply cmdBistLane_sound | with_reducible apply cmdBistMem_sound | with_reducible apply cmdCalPass_sound
    | with_reducible apply cmdCrcScan_sound | with_reducible apply cmdCsAdd_sound | with_reducible apply cmdCsDissolve_sound
    | with_reducible apply cmdCsForm_sound | with_reducible apply cmdCsRemove_sound | with_reducible apply cmdDiagOffstate_sound
    | with_reducible apply cmdEvRead_sound | with_reducible apply cmdFbCorrect_sound | with_reducible apply cmdFwDiscard_sound
    | with_reducible apply cmdFwStage_sound | with_reducible apply cmdFwSwap_sound | with_reducible apply cmdFwVerify_sound
    | with_reducible apply cmdLkEnum_sound | with_reducible apply cmdMdDisable_sound | with_reducible apply cmdMdEmergency_sound
    | with_reducible apply cmdMdEnable_sound | with_reducible apply cmdMdMode_sound | with_reducible apply cmdMdReset_sound
    | with_reducible apply cmdMdStart_sound | with_reducible apply cmdMdStop_sound | with_reducible apply cmdNvRead_sound
    | with_reducible apply cmdParSave_sound | with_reducible apply cmdParStage_sound | with_reducible apply cmdPrEngage_sound
    | with_reducible apply cmdPrPser_sound | with_reducible apply cmdPrRelease_sound | with_reducible apply cmdRegRead_sound
    | with_reducible apply cmdRegWrite_sound | with_reducible apply cmdSafeClose_sound | with_reducible apply cmdSafeConfirm_sound
    | with_reducible apply cmdSafeOpen_sound | with_reducible apply cmdSafeStatus_sound | with_reducible apply cmdSpWrite_sound
    | with_reducible apply cmdSpWriteN_sound | with_reducible apply cmdSysAttnClr_sound | with_reducible apply cmdSysCancel_sound
    | with_reducible apply cmdSysInfo_sound | with_reducible apply cmdSysNop_sound | with_reducible apply cmdSysQuery_sound
    | with_reducible apply cmdSysReset_sound | with_reducible apply cmdSysTime_sound | with_reducible apply cmdSysTimetable_sound
    | with_reducible apply cmdTblLoad_sound | with_reducible apply cmdTrArm_sound | with_reducible apply cmdTrConfig_sound
    | with_reducible apply cmdTrRead_sound | with_reducible apply cmdTrTrigger_sound | with_reducible apply addrOutside_all
    | with_reducible apply addrOutside_ite | with_reducible apply addrOutside2 | with_reducible apply addrOutside1
    | with_reducible apply addrOutside_mod | with_reducible apply addrOutside0 | exact Nat.zero_lt_succ _ | (exact mask_mono hp rfl)
    | ((with_reducible apply sound_parts) <;> first | (intro _; with_reducible rfl) | exact fun hm => (mask_absurd hp hm rfl).elim | skip)
    | simp (zeta := false) (etaStruct := .none) only [sound_mk] | (extract_lets +onlyGivenNames x; refine sound_have x ?_ ?_; subst x)
    | (extract_lets +onlyGivenNames x; refine sound_fun x ?_; subst x) | (extract_lets +onlyGivenNames x) | split
    | simp (zeta := false) (zetaDelta := true) (etaStruct := .none) only [sound_mk]

theorem spoilsPrune_sound (hp : ms &&& 0x10000000 = 0) (s : State) (hs : s.Sound ms sa) : State.Sound ms (spoilsPrune s) sa := by
  unfold spoilsPrune
  repeat'
    first
    | assumption | (intro _) | with_reducible apply sound_ite | (exact mask_mono hp rfl)
    | ((with_reducible apply sound_parts) <;> first | (intro _; with_reducible rfl) | exact fun hm => (mask_absurd hp hm rfl).elim | skip)
    | simp (zeta := false) (etaStruct := .none) only [sound_mk] | (extract_lets +onlyGivenNames x; refine sound_have x ?_ ?_; subst x)
    | (extract_lets +onlyGivenNames x; refine sound_fun x ?_; subst x) | (extract_lets +onlyGivenNames x) | split
    | simp (zeta := false) (zetaDelta := true) (etaStruct := .none) only [sound_mk]

theorem descriptorPop_sound (hp : ms &&& 0x3FFFFFFF7C41DB = 0) (parity bulkParity : Option (BitVec 32)) (s : State) (hs : s.Sound ms sa) : State.Sound ms (descriptorPop parity bulkParity s) sa := by
  unfold descriptorPop
  repeat'
    first
    | assumption | (intro _) | with_reducible apply sound_ite | with_reducible apply dispatchOpcode_sound
    | with_reducible apply popHead_sound | with_reducible apply spoilsPrune_sound | with_reducible apply addrOutside_all
    | with_reducible apply addrOutside_ite | with_reducible apply addrOutside2 | with_reducible apply addrOutside1
    | with_reducible apply addrOutside_mod | with_reducible apply addrOutside0 | exact Nat.zero_lt_succ _ | (exact mask_mono hp rfl)
    | ((with_reducible apply sound_parts) <;> first | (intro _; with_reducible rfl) | exact fun hm => (mask_absurd hp hm rfl).elim | skip)
    | simp (zeta := false) (etaStruct := .none) only [sound_mk] | (extract_lets +onlyGivenNames x; refine sound_have x ?_ ?_; subst x)
    | (extract_lets +onlyGivenNames x; refine sound_fun x ?_; subst x) | (extract_lets +onlyGivenNames x) | split
    | simp (zeta := false) (zetaDelta := true) (etaStruct := .none) only [sound_mk]

end Sys2Proof.Machine
end

