-- ==== Sys2Proof/Laws/SoundWorks.lean ====
section
/-! SUPPORT. The operations of Machine/Works.lean keep a state sound. -/

set_option Elab.async false

namespace Sys2Proof.Machine

variable {ms : Nat} {sa : State}

theorem mdFinish_sound (hp : ms &&& 0x800810000003 = 0) (w : Work) (result : Nat) (s : State) (hs : s.Sound ms sa) : State.Sound ms (mdFinish w result s) sa := by
  unfold mdFinish
  repeat'
    first
    | assumption | (intro _) | with_reducible apply sound_ite | with_reducible apply finish_sound | with_reducible apply addrOutside_ite
    | with_reducible apply addrOutside2 | with_reducible apply addrOutside1 | with_reducible apply addrOutside_mod
    | with_reducible apply addrOutside0 | exact Nat.zero_lt_succ _ | (exact mask_mono hp rfl)
    | ((with_reducible apply sound_parts) <;> first | (intro _; with_reducible rfl) | exact fun hm => (mask_absurd hp hm rfl).elim | skip)
    | simp (zeta := false) (etaStruct := .none) only [sound_mk] | (extract_lets +onlyGivenNames x; refine sound_have x ?_ ?_; subst x)
    | (extract_lets +onlyGivenNames x; refine sound_fun x ?_; subst x) | (extract_lets +onlyGivenNames x) | split
    | simp (zeta := false) (zetaDelta := true) (etaStruct := .none) only [sound_mk]

theorem mdWait_sound (hp : ms &&& 0x800810000003 = 0) (w : Work) (code : Nat) (s : State) (hs : s.Sound ms sa) : State.Sound ms (mdWait w code s) sa := by
  unfold mdWait
  repeat'
    first
    | assumption | (intro _) | with_reducible apply sound_ite | with_reducible apply mdFinish_sound
    | with_reducible apply addrOutside_ite | with_reducible apply addrOutside2 | with_reducible apply addrOutside1
    | with_reducible apply addrOutside_mod | with_reducible apply addrOutside0 | exact Nat.zero_lt_succ _ | (exact mask_mono hp rfl)
    | ((with_reducible apply sound_parts) <;> first | (intro _; with_reducible rfl) | exact fun hm => (mask_absurd hp hm rfl).elim | skip)
    | simp (zeta := false) (etaStruct := .none) only [sound_mk] | (extract_lets +onlyGivenNames x; refine sound_have x ?_ ?_; subst x)
    | (extract_lets +onlyGivenNames x; refine sound_fun x ?_; subst x) | (extract_lets +onlyGivenNames x) | split
    | simp (zeta := false) (zetaDelta := true) (etaStruct := .none) only [sound_mk]

theorem mdPoll_sound (hp : ms &&& 0x800810000003 = 0) (w : Work) (code : Nat) (s : State) (hs : s.Sound ms sa) : State.Sound ms (mdPoll w code s) sa := by
  unfold mdPoll
  repeat'
    first
    | assumption | (intro _) | with_reducible apply sound_ite | with_reducible apply mdFinish_sound | with_reducible apply mdWait_sound
    | with_reducible apply setWork_sound | with_reducible apply addrOutside_ite | with_reducible apply addrOutside2
    | with_reducible apply addrOutside1 | with_reducible apply addrOutside_mod | with_reducible apply addrOutside0
    | exact Nat.zero_lt_succ _ | (exact mask_mono hp rfl)
    | ((with_reducible apply sound_parts) <;> first | (intro _; with_reducible rfl) | exact fun hm => (mask_absurd hp hm rfl).elim | skip)
    | simp (zeta := false) (etaStruct := .none) only [sound_mk] | (extract_lets +onlyGivenNames x; refine sound_have x ?_ ?_; subst x)
    | (extract_lets +onlyGivenNames x; refine sound_fun x ?_; subst x) | (extract_lets +onlyGivenNames x) | split
    | simp (zeta := false) (zetaDelta := true) (etaStruct := .none) only [sound_mk]

theorem timetablePoll_sound (hp : ms &&& 0x800810000003 = 0) (w : Work) (s : State) (hs : s.Sound ms sa) : State.Sound ms (timetablePoll w s) sa := by
  unfold timetablePoll
  repeat'
    first
    | assumption | (intro _) | with_reducible apply sound_ite | with_reducible apply finish_sound | with_reducible apply addrOutside_ite
    | with_reducible apply addrOutside2 | with_reducible apply addrOutside1 | with_reducible apply addrOutside_mod
    | with_reducible apply addrOutside0 | exact Nat.zero_lt_succ _ | (exact mask_mono hp rfl)
    | ((with_reducible apply sound_parts) <;> first | (intro _; with_reducible rfl) | exact fun hm => (mask_absurd hp hm rfl).elim | skip)
    | simp (zeta := false) (etaStruct := .none) only [sound_mk] | (extract_lets +onlyGivenNames x; refine sound_have x ?_ ?_; subst x)
    | (extract_lets +onlyGivenNames x; refine sound_fun x ?_; subst x) | (extract_lets +onlyGivenNames x) | split
    | simp (zeta := false) (zetaDelta := true) (etaStruct := .none) only [sound_mk]

theorem bankSwapPoll_sound (hp : ms &&& 0x800810000003 = 0) (w : Work) (s : State) (hs : s.Sound ms sa) : State.Sound ms (bankSwapPoll w s) sa := by
  unfold bankSwapPoll
  repeat'
    first
    | assumption | (intro _) | with_reducible apply sound_ite | with_reducible apply finish_sound | with_reducible apply addrOutside_ite
    | with_reducible apply addrOutside2 | with_reducible apply addrOutside1 | with_reducible apply addrOutside_mod
    | with_reducible apply addrOutside0 | exact Nat.zero_lt_succ _ | (exact mask_mono hp rfl)
    | ((with_reducible apply sound_parts) <;> first | (intro _; with_reducible rfl) | exact fun hm => (mask_absurd hp hm rfl).elim | skip)
    | simp (zeta := false) (etaStruct := .none) only [sound_mk] | (extract_lets +onlyGivenNames x; refine sound_have x ?_ ?_; subst x)
    | (extract_lets +onlyGivenNames x; refine sound_fun x ?_; subst x) | (extract_lets +onlyGivenNames x) | split
    | simp (zeta := false) (zetaDelta := true) (etaStruct := .none) only [sound_mk]

theorem parReadPoll_sound (hp : ms &&& 0x2100811000009 = 0) (w : Work) (job : Nat) (pages tables : Bool) (s : State) (hs : s.Sound ms sa) : State.Sound ms (parReadPoll w job pages tables s) sa := by
  unfold parReadPoll
  repeat'
    first
    | assumption | (intro _) | with_reducible apply sound_ite | with_reducible apply State.wr_sound
    | with_reducible apply parWrite_sound | with_reducible apply setWork_sound | with_reducible apply addrOutside_ite
    | with_reducible apply addrOutside2 | with_reducible apply addrOutside1 | with_reducible apply addrOutside_mod
    | with_reducible apply addrOutside0 | exact Nat.zero_lt_succ _ | (exact mask_mono hp rfl)
    | ((with_reducible apply sound_parts) <;> first | (intro _; with_reducible rfl) | exact fun hm => (mask_absurd hp hm rfl).elim | skip)
    | simp (zeta := false) (etaStruct := .none) only [sound_mk] | (extract_lets +onlyGivenNames x; refine sound_have x ?_ ?_; subst x)
    | (extract_lets +onlyGivenNames x; refine sound_fun x ?_; subst x) | (extract_lets +onlyGivenNames x) | split
    | simp (zeta := false) (zetaDelta := true) (etaStruct := .none) only [sound_mk]

theorem parSavePoll_sound (hp : ms &&& 0x2800810000003 = 0) (w : Work) (jobs : List Nat) (seq : Nat) (s : State) (hs : s.Sound ms sa) : State.Sound ms (parSavePoll w jobs seq s) sa := by
  unfold parSavePoll
  repeat'
    first
    | assumption | (intro _) | with_reducible apply sound_ite | with_reducible apply State.wr_sound | with_reducible apply finish_sound
    | with_reducible apply addrOutside_ite | with_reducible apply addrOutside2 | with_reducible apply addrOutside1
    | with_reducible apply addrOutside_mod | with_reducible apply addrOutside0 | exact Nat.zero_lt_succ _ | (exact mask_mono hp rfl)
    | ((with_reducible apply sound_parts) <;> first | (intro _; with_reducible rfl) | exact fun hm => (mask_absurd hp hm rfl).elim | skip)
    | simp (zeta := false) (etaStruct := .none) only [sound_mk] | (extract_lets +onlyGivenNames x; refine sound_have x ?_ ?_; subst x)
    | (extract_lets +onlyGivenNames x; refine sound_fun x ?_; subst x) | (extract_lets +onlyGivenNames x) | split
    | simp (zeta := false) (zetaDelta := true) (etaStruct := .none) only [sound_mk]

theorem diagPoll_sound (hp : ms &&& 0x800810000003 = 0) (w : Work) (s : State) (hs : s.Sound ms sa) : State.Sound ms (diagPoll w s) sa := by
  unfold diagPoll
  repeat'
    first
    | assumption | (intro _) | with_reducible apply sound_ite | with_reducible apply finish_sound | with_reducible apply addrOutside_ite
    | with_reducible apply addrOutside2 | with_reducible apply addrOutside1 | with_reducible apply addrOutside_mod
    | with_reducible apply addrOutside0 | exact Nat.zero_lt_succ _ | (exact mask_mono hp rfl)
    | ((with_reducible apply sound_parts) <;> first | (intro _; with_reducible rfl) | exact fun hm => (mask_absurd hp hm rfl).elim | skip)
    | simp (zeta := false) (etaStruct := .none) only [sound_mk] | (extract_lets +onlyGivenNames x; refine sound_have x ?_ ?_; subst x)
    | (extract_lets +onlyGivenNames x; refine sound_fun x ?_; subst x) | (extract_lets +onlyGivenNames x) | split
    | simp (zeta := false) (zetaDelta := true) (etaStruct := .none) only [sound_mk]

theorem bistBytes_sound (hp : ms &&& 0x100000000 = 0) (op : Nat) (e : BistEnd) (len : Nat) (s : State) (hs : s.Sound ms sa) : State.Sound ms (bistBytes op e len s).2 sa := by
  unfold bistBytes
  repeat'
    first
    | assumption | (intro _) | with_reducible apply sound_ite | with_reducible apply State.drawBits_sound | (exact mask_mono hp rfl)
    | ((with_reducible apply sound_parts) <;> first | (intro _; with_reducible rfl) | exact fun hm => (mask_absurd hp hm rfl).elim | skip)
    | simp (zeta := false) (etaStruct := .none) only [sound_mk] | (extract_lets +onlyGivenNames x; refine sound_have x ?_ ?_; subst x)
    | (extract_lets +onlyGivenNames x; refine sound_fun x ?_; subst x) | (extract_lets +onlyGivenNames x) | split
    | simp (zeta := false) (zetaDelta := true) (etaStruct := .none) only [sound_mk]

theorem bistPoll_sound (hp : ms &&& 0x800910000003 = 0) (w : Work) (job lane len : Nat) (s : State) (hs : s.Sound ms sa) : State.Sound ms (bistPoll w job lane len s) sa := by
  unfold bistPoll
  repeat'
    first
    | assumption | (intro _) | with_reducible apply sound_ite | with_reducible apply bistBytes_sound | with_reducible apply finish_sound
    | with_reducible apply addrOutside_ite | with_reducible apply addrOutside2 | with_reducible apply addrOutside1
    | with_reducible apply addrOutside_mod | with_reducible apply addrOutside0 | exact Nat.zero_lt_succ _ | (exact mask_mono hp rfl)
    | ((with_reducible apply sound_parts) <;> first | (intro _; with_reducible rfl) | exact fun hm => (mask_absurd hp hm rfl).elim | skip)
    | simp (zeta := false) (etaStruct := .none) only [sound_mk] | (extract_lets +onlyGivenNames x; refine sound_have x ?_ ?_; subst x)
    | (extract_lets +onlyGivenNames x; refine sound_fun x ?_; subst x) | (extract_lets +onlyGivenNames x) | split
    | simp (zeta := false) (zetaDelta := true) (etaStruct := .none) only [sound_mk]

theorem calPassPoll_sound (hp : ms &&& 0x800810000003 = 0) (w : Work) (passes applied ranged : Nat) (s : State) (hs : s.Sound ms sa) : State.Sound ms (calPassPoll w passes applied ranged s) sa := by
  unfold calPassPoll
  repeat'
    first
    | assumption | (intro _) | with_reducible apply sound_ite | with_reducible apply finish_sound | with_reducible apply addrOutside_ite
    | with_reducible apply addrOutside2 | with_reducible apply addrOutside1 | with_reducible apply addrOutside_mod
    | with_reducible apply addrOutside0 | exact Nat.zero_lt_succ _ | (exact mask_mono hp rfl)
    | ((with_reducible apply sound_parts) <;> first | (intro _; with_reducible rfl) | exact fun hm => (mask_absurd hp hm rfl).elim | skip)
    | simp (zeta := false) (etaStruct := .none) only [sound_mk] | (extract_lets +onlyGivenNames x; refine sound_have x ?_ ?_; subst x)
    | (extract_lets +onlyGivenNames x; refine sound_fun x ?_; subst x) | (extract_lets +onlyGivenNames x) | split
    | simp (zeta := false) (zetaDelta := true) (etaStruct := .none) only [sound_mk]

theorem crcWaitPoll_sound (hp : ms &&& 0x8100818000009 = 0) (w : Work) (poly start len exp : Nat) (s : State) (hs : s.Sound ms sa) : State.Sound ms (crcWaitPoll w poly start len exp s) sa := by
  unfold crcWaitPoll
  repeat'
    first
    | assumption | (intro _) | with_reducible apply sound_ite | with_reducible apply crcBegin_sound | with_reducible apply setWork_sound
    | with_reducible apply addrOutside_ite | with_reducible apply addrOutside2 | with_reducible apply addrOutside1
    | with_reducible apply addrOutside_mod | with_reducible apply addrOutside0 | exact Nat.zero_lt_succ _ | (exact mask_mono hp rfl)
    | ((with_reducible apply sound_parts) <;> first | (intro _; with_reducible rfl) | exact fun hm => (mask_absurd hp hm rfl).elim | skip)
    | simp (zeta := false) (etaStruct := .none) only [sound_mk] | (extract_lets +onlyGivenNames x; refine sound_have x ?_ ?_; subst x)
    | (extract_lets +onlyGivenNames x; refine sound_fun x ?_; subst x) | (extract_lets +onlyGivenNames x) | split
    | simp (zeta := false) (zetaDelta := true) (etaStruct := .none) only [sound_mk]

theorem crcScanPoll_sound (hp : ms &&& 0x800810000003 = 0) (w : Work) (job : Nat) (s : State) (hs : s.Sound ms sa) : State.Sound ms (crcScanPoll w job s) sa := by
  unfold crcScanPoll
  repeat'
    first
    | assumption | (intro _) | with_reducible apply sound_ite | with_reducible apply finish_sound | with_reducible apply addrOutside_ite
    | with_reducible apply addrOutside2 | with_reducible apply addrOutside1 | with_reducible apply addrOutside_mod
    | with_reducible apply addrOutside0 | exact Nat.zero_lt_succ _ | (exact mask_mono hp rfl)
    | ((with_reducible apply sound_parts) <;> first | (intro _; with_reducible rfl) | exact fun hm => (mask_absurd hp hm rfl).elim | skip)
    | simp (zeta := false) (etaStruct := .none) only [sound_mk] | (extract_lets +onlyGivenNames x; refine sound_have x ?_ ?_; subst x)
    | (extract_lets +onlyGivenNames x; refine sound_fun x ?_; subst x) | (extract_lets +onlyGivenNames x) | split
    | simp (zeta := false) (zetaDelta := true) (etaStruct := .none) only [sound_mk]

theorem enumPoll_sound (hp : ms &&& 0x800810000003 = 0) (w : Work) (s : State) (hs : s.Sound ms sa) : State.Sound ms (enumPoll w s) sa := by
  unfold enumPoll
  repeat'
    first
    | assumption | (intro _) | with_reducible apply sound_ite | with_reducible apply finish_sound | with_reducible apply addrOutside_ite
    | with_reducible apply addrOutside2 | with_reducible apply addrOutside1 | with_reducible apply addrOutside_mod
    | with_reducible apply addrOutside0 | exact Nat.zero_lt_succ _ | (exact mask_mono hp rfl)
    | ((with_reducible apply sound_parts) <;> first | (intro _; with_reducible rfl) | exact fun hm => (mask_absurd hp hm rfl).elim | skip)
    | simp (zeta := false) (etaStruct := .none) only [sound_mk] | (extract_lets +onlyGivenNames x; refine sound_have x ?_ ?_; subst x)
    | (extract_lets +onlyGivenNames x; refine sound_fun x ?_; subst x) | (extract_lets +onlyGivenNames x) | split
    | simp (zeta := false) (zetaDelta := true) (etaStruct := .none) only [sound_mk]

theorem csFormPoll_sound (hp : ms &&& 0x9408B240000B = 0) (w : Work) (consist weight deputy : Nat) (s : State) (hs : s.Sound ms sa) : State.Sound ms (csFormPoll w consist weight deputy s) sa := by
  unfold csFormPoll
  repeat'
    first
    | assumption | (intro _) | with_reducible apply sound_ite | with_reducible apply finish_sound
    | with_reducible apply formConsist_sound | with_reducible apply addrOutside_ite | with_reducible apply addrOutside2
    | with_reducible apply addrOutside1 | with_reducible apply addrOutside_mod | with_reducible apply addrOutside0
    | exact Nat.zero_lt_succ _ | (exact mask_mono hp rfl)
    | ((with_reducible apply sound_parts) <;> first | (intro _; with_reducible rfl) | exact fun hm => (mask_absurd hp hm rfl).elim | skip)
    | simp (zeta := false) (etaStruct := .none) only [sound_mk] | (extract_lets +onlyGivenNames x; refine sound_have x ?_ ?_; subst x)
    | (extract_lets +onlyGivenNames x; refine sound_fun x ?_; subst x) | (extract_lets +onlyGivenNames x) | split
    | simp (zeta := false) (zetaDelta := true) (etaStruct := .none) only [sound_mk]

theorem csAddPoll_sound (hp : ms &&& 0x800810400003 = 0) (w : Work) (s : State) (hs : s.Sound ms sa) : State.Sound ms (csAddPoll w s) sa := by
  unfold csAddPoll
  repeat'
    first
    | assumption | (intro _) | with_reducible apply sound_ite | with_reducible apply State.add_sound | with_reducible apply finish_sound
    | with_reducible apply addrOutside_ite | with_reducible apply addrOutside2 | with_reducible apply addrOutside1
    | with_reducible apply addrOutside_mod | with_reducible apply addrOutside0 | exact Nat.zero_lt_succ _ | (exact mask_mono hp rfl)
    | ((with_reducible apply sound_parts) <;> first | (intro _; with_reducible rfl) | exact fun hm => (mask_absurd hp hm rfl).elim | skip)
    | simp (zeta := false) (etaStruct := .none) only [sound_mk] | (extract_lets +onlyGivenNames x; refine sound_have x ?_ ?_; subst x)
    | (extract_lets +onlyGivenNames x; refine sound_fun x ?_; subst x) | (extract_lets +onlyGivenNames x) | split
    | simp (zeta := false) (zetaDelta := true) (etaStruct := .none) only [sound_mk]

theorem csRemovePoll_sound (hp : ms &&& 0x800810400003 = 0) (w : Work) (uid : Nat) (s : State) (hs : s.Sound ms sa) : State.Sound ms (csRemovePoll w uid s) sa := by
  unfold csRemovePoll
  repeat'
    first
    | assumption | (intro _) | with_reducible apply sound_ite | with_reducible apply finish_sound | with_reducible apply addrOutside_ite
    | with_reducible apply addrOutside2 | with_reducible apply addrOutside1 | with_reducible apply addrOutside_mod
    | with_reducible apply addrOutside0 | exact Nat.zero_lt_succ _ | (exact mask_mono hp rfl)
    | ((with_reducible apply sound_parts) <;> first | (intro _; with_reducible rfl) | exact fun hm => (mask_absurd hp hm rfl).elim | skip)
    | simp (zeta := false) (etaStruct := .none) only [sound_mk] | (extract_lets +onlyGivenNames x; refine sound_have x ?_ ?_; subst x)
    | (extract_lets +onlyGivenNames x; refine sound_fun x ?_; subst x) | (extract_lets +onlyGivenNames x) | split
    | simp (zeta := false) (zetaDelta := true) (etaStruct := .none) only [sound_mk]

theorem csDissolvePoll_sound (hp : ms &&& 0x9408B240000B = 0) (w : Work) (removed : Nat) (s : State) (hs : s.Sound ms sa) : State.Sound ms (csDissolvePoll w removed s) sa := by
  unfold csDissolvePoll
  split
  · exact finish_sound (mask_mono hp rfl) _ _ _ _ hs
  · split
    · exact hs
    · extract_lets a
      have ha : a.Sound ms sa := roleChange_sound (mask_mono hp rfl) _ _ _ _ (slotFree_sound (mask_mono hp rfl) _ _ (consistReport_sound (mask_mono hp rfl) _ _ _ _ hs))
      clear_value a
      exact finish_sound (mask_mono hp rfl) _ _ _ _ (State.wr_sound (mask_mono hp rfl) _ _ _ (by first | assumption | exact addrOutside_all (mask_mono hp rfl) | (with_reducible apply addrOutside2 <;> first | exact mask_mono hp rfl | exact Nat.zero_lt_succ _) | (with_reducible apply addrOutside1 <;> first | exact mask_mono hp rfl | exact Nat.zero_lt_succ _) | (with_reducible apply addrOutside0; exact mask_mono hp rfl)) (State.wr_sound (mask_mono hp rfl) _ _ _ (by first | assumption | exact addrOutside_all (mask_mono hp rfl) | (with_reducible apply addrOutside2 <;> first | exact mask_mono hp rfl | exact Nat.zero_lt_succ _) | (with_reducible apply addrOutside1 <;> first | exact mask_mono hp rfl | exact Nat.zero_lt_succ _) | (with_reducible apply addrOutside0; exact mask_mono hp rfl)) ha))

theorem prReleasePoll_sound (hp : ms &&& 0x800810000003 = 0) (w : Work) (s : State) (hs : s.Sound ms sa) : State.Sound ms (prReleasePoll w s) sa := by
  unfold prReleasePoll
  repeat'
    first
    | assumption | (intro _) | with_reducible apply sound_ite | with_reducible apply finish_sound | with_reducible apply addrOutside_ite
    | with_reducible apply addrOutside2 | with_reducible apply addrOutside1 | with_reducible apply addrOutside_mod
    | with_reducible apply addrOutside0 | exact Nat.zero_lt_succ _ | (exact mask_mono hp rfl)
    | ((with_reducible apply sound_parts) <;> first | (intro _; with_reducible rfl) | exact fun hm => (mask_absurd hp hm rfl).elim | skip)
    | simp (zeta := false) (etaStruct := .none) only [sound_mk] | (extract_lets +onlyGivenNames x; refine sound_have x ?_ ?_; subst x)
    | (extract_lets +onlyGivenNames x; refine sound_fun x ?_; subst x) | (extract_lets +onlyGivenNames x) | split
    | simp (zeta := false) (zetaDelta := true) (etaStruct := .none) only [sound_mk]

theorem prEngagePoll_sound (hp : ms &&& 0x800810000003 = 0) (w : Work) (s : State) (hs : s.Sound ms sa) : State.Sound ms (prEngagePoll w s) sa := by
  unfold prEngagePoll
  repeat'
    first
    | assumption | (intro _) | with_reducible apply sound_ite | with_reducible apply finish_sound | with_reducible apply addrOutside_ite
    | with_reducible apply addrOutside2 | with_reducible apply addrOutside1 | with_reducible apply addrOutside_mod
    | with_reducible apply addrOutside0 | exact Nat.zero_lt_succ _ | (exact mask_mono hp rfl)
    | ((with_reducible apply sound_parts) <;> first | (intro _; with_reducible rfl) | exact fun hm => (mask_absurd hp hm rfl).elim | skip)
    | simp (zeta := false) (etaStruct := .none) only [sound_mk] | (extract_lets +onlyGivenNames x; refine sound_have x ?_ ?_; subst x)
    | (extract_lets +onlyGivenNames x; refine sound_fun x ?_; subst x) | (extract_lets +onlyGivenNames x) | split
    | simp (zeta := false) (zetaDelta := true) (etaStruct := .none) only [sound_mk]

theorem safeClosePoll_sound (hp : ms &&& 0x800810000003 = 0) (w : Work) (jobs : List Nat) (s : State) (hs : s.Sound ms sa) : State.Sound ms (safeClosePoll w jobs s) sa := by
  unfold safeClosePoll
  repeat'
    first
    | assumption | (intro _) | with_reducible apply sound_ite | with_reducible apply finish_sound | with_reducible apply addrOutside_ite
    | with_reducible apply addrOutside2 | with_reducible apply addrOutside1 | with_reducible apply addrOutside_mod
    | with_reducible apply addrOutside0 | exact Nat.zero_lt_succ _ | (exact mask_mono hp rfl)
    | ((with_reducible apply sound_parts) <;> first | (intro _; with_reducible rfl) | exact fun hm => (mask_absurd hp hm rfl).elim | skip)
    | simp (zeta := false) (etaStruct := .none) only [sound_mk] | (extract_lets +onlyGivenNames x; refine sound_have x ?_ ?_; subst x)
    | (extract_lets +onlyGivenNames x; refine sound_fun x ?_; subst x) | (extract_lets +onlyGivenNames x) | split
    | simp (zeta := false) (zetaDelta := true) (etaStruct := .none) only [sound_mk]

theorem prPserPoll_sound (hp : ms &&& 0x800810000003 = 0) (w : Work) (jobs : List Nat) (crc : Nat) (s : State) (hs : s.Sound ms sa) : State.Sound ms (prPserPoll w jobs crc s) sa := by
  unfold prPserPoll
  repeat'
    first
    | assumption | (intro _) | with_reducible apply sound_ite | with_reducible apply finish_sound | with_reducible apply addrOutside_ite
    | with_reducible apply addrOutside2 | with_reducible apply addrOutside1 | with_reducible apply addrOutside_mod
    | with_reducible apply addrOutside0 | exact Nat.zero_lt_succ _ | (exact mask_mono hp rfl)
    | ((with_reducible apply sound_parts) <;> first | (intro _; with_reducible rfl) | exact fun hm => (mask_absurd hp hm rfl).elim | skip)
    | simp (zeta := false) (etaStruct := .none) only [sound_mk] | (extract_lets +onlyGivenNames x; refine sound_have x ?_ ?_; subst x)
    | (extract_lets +onlyGivenNames x; refine sound_fun x ?_; subst x) | (extract_lets +onlyGivenNames x) | split
    | simp (zeta := false) (zetaDelta := true) (etaStruct := .none) only [sound_mk]

theorem safeConfirmPoll_sound (hp : ms &&& 0x800810100003 = 0) (w : Work) (jobs : List Nat) (s : State) (hs : s.Sound ms sa) : State.Sound ms (safeConfirmPoll w jobs s) sa := by
  unfold safeConfirmPoll
  repeat'
    first
    | assumption | (intro _) | with_reducible apply sound_ite | with_reducible apply finish_sound | with_reducible apply addrOutside_ite
    | with_reducible apply addrOutside2 | with_reducible apply addrOutside1 | with_reducible apply addrOutside_mod
    | with_reducible apply addrOutside0 | exact Nat.zero_lt_succ _ | (exact mask_mono hp rfl)
    | ((with_reducible apply sound_parts) <;> first | (intro _; with_reducible rfl) | exact fun hm => (mask_absurd hp hm rfl).elim | skip)
    | simp (zeta := false) (etaStruct := .none) only [sound_mk] | (extract_lets +onlyGivenNames x; refine sound_have x ?_ ?_; subst x)
    | (extract_lets +onlyGivenNames x; refine sound_fun x ?_; subst x) | (extract_lets +onlyGivenNames x) | split
    | simp (zeta := false) (zetaDelta := true) (etaStruct := .none) only [sound_mk]

theorem firmwarePoll_sound (hp : ms &&& 0x90081100000B = 0) (w : Work) (jobs : List Nat) (after : Journal) (status : Nat) (result : List Byte) (s : State) (hs : s.Sound ms sa) : State.Sound ms (firmwarePoll w jobs after status result s) sa := by
  unfold firmwarePoll
  repeat'
    first
    | assumption | (intro _) | with_reducible apply sound_ite | with_reducible apply finish_sound
    | with_reducible apply journalSave_sound | with_reducible apply addrOutside_ite | with_reducible apply addrOutside2
    | with_reducible apply addrOutside1 | with_reducible apply addrOutside_mod | with_reducible apply addrOutside0
    | exact Nat.zero_lt_succ _ | (exact mask_mono hp rfl)
    | ((with_reducible apply sound_parts) <;> first | (intro _; with_reducible rfl) | exact fun hm => (mask_absurd hp hm rfl).elim | skip)
    | simp (zeta := false) (etaStruct := .none) only [sound_mk] | (extract_lets +onlyGivenNames x; refine sound_have x ?_ ?_; subst x)
    | (extract_lets +onlyGivenNames x; refine sound_fun x ?_; subst x) | (extract_lets +onlyGivenNames x) | split
    | simp (zeta := false) (zetaDelta := true) (etaStruct := .none) only [sound_mk]

theorem fwVerifyPoll_sound (hp : ms &&& 0x90081100000B = 0) (w : Work) (job : Nat) (s : State) (hs : s.Sound ms sa) : State.Sound ms (fwVerifyPoll w job s) sa := by
  unfold fwVerifyPoll
  repeat'
    first
    | assumption | (intro _) | with_reducible apply sound_ite | with_reducible apply finish_sound
    | with_reducible apply journalSave_sound | with_reducible apply addrOutside_ite | with_reducible apply addrOutside2
    | with_reducible apply addrOutside1 | with_reducible apply addrOutside_mod | with_reducible apply addrOutside0
    | exact Nat.zero_lt_succ _ | (exact mask_mono hp rfl)
    | ((with_reducible apply sound_parts) <;> first | (intro _; with_reducible rfl) | exact fun hm => (mask_absurd hp hm rfl).elim | skip)
    | simp (zeta := false) (etaStruct := .none) only [sound_mk] | (extract_lets +onlyGivenNames x; refine sound_have x ?_ ?_; subst x)
    | (extract_lets +onlyGivenNames x; refine sound_fun x ?_; subst x) | (extract_lets +onlyGivenNames x) | split
    | simp (zeta := false) (zetaDelta := true) (etaStruct := .none) only [sound_mk]

theorem readyPoll_sound (hp : ms &&& 0x800910000003 = 0) (w : Work) (status : Nat) (result : List Byte) (s : State) (hs : s.Sound ms sa) : State.Sound ms (readyPoll w status result s) sa := by
  unfold readyPoll
  repeat'
    first
    | assumption | (intro _) | with_reducible apply sound_ite | with_reducible apply bulkPut_sound | with_reducible apply finish_sound
    | with_reducible apply openItem_sound | with_reducible apply addrOutside_ite | with_reducible apply addrOutside2
    | with_reducible apply addrOutside1 | with_reducible apply addrOutside_mod | with_reducible apply addrOutside0
    | exact Nat.zero_lt_succ _ | (exact mask_mono hp rfl)
    | ((with_reducible apply sound_parts) <;> first | (intro _; with_reducible rfl) | exact fun hm => (mask_absurd hp hm rfl).elim | skip)
    | simp (zeta := false) (etaStruct := .none) only [sound_mk] | (extract_lets +onlyGivenNames x; refine sound_have x ?_ ?_; subst x)
    | (extract_lets +onlyGivenNames x; refine sound_fun x ?_; subst x) | (extract_lets +onlyGivenNames x) | split
    | simp (zeta := false) (zetaDelta := true) (etaStruct := .none) only [sound_mk]

theorem norReadPoll_sound (hp : ms &&& 0x800910000003 = 0) (w : Work) (job off : Nat) (tail result : List Byte) (s : State) (hs : s.Sound ms sa) : State.Sound ms (norReadPoll w job off tail result s) sa := by
  unfold norReadPoll
  repeat'
    first
    | assumption | (intro _) | with_reducible apply sound_ite | with_reducible apply bulkPut_sound
    | with_reducible apply readyPoll_sound | with_reducible apply addrOutside_ite | with_reducible apply addrOutside2
    | with_reducible apply addrOutside1 | with_reducible apply addrOutside_mod | with_reducible apply addrOutside0
    | exact Nat.zero_lt_succ _ | (exact mask_mono hp rfl)
    | ((with_reducible apply sound_parts) <;> first | (intro _; with_reducible rfl) | exact fun hm => (mask_absurd hp hm rfl).elim | skip)
    | simp (zeta := false) (etaStruct := .none) only [sound_mk] | (extract_lets +onlyGivenNames x; refine sound_have x ?_ ?_; subst x)
    | (extract_lets +onlyGivenNames x; refine sound_fun x ?_; subst x) | (extract_lets +onlyGivenNames x) | split
    | simp (zeta := false) (zetaDelta := true) (etaStruct := .none) only [sound_mk]

theorem workPoll_sound (hp : ms &&& 0xA9409BB50000B = 0) (w : Work) (s : State) (hs : s.Sound ms sa) : State.Sound ms (workPoll w s) sa := by
  unfold workPoll
  repeat'
    first
    | assumption | (intro _) | with_reducible apply sound_ite | with_reducible apply bankSwapPoll_sound
    | with_reducible apply bistPoll_sound | with_reducible apply calPassPoll_sound | with_reducible apply crcScanPoll_sound
    | with_reducible apply crcWaitPoll_sound | with_reducible apply csAddPoll_sound | with_reducible apply csDissolvePoll_sound
    | with_reducible apply csFormPoll_sound | with_reducible apply csRemovePoll_sound | with_reducible apply diagPoll_sound
    | with_reducible apply enumPoll_sound | with_reducible apply firmwarePoll_sound | with_reducible apply fwVerifyPoll_sound
    | with_reducible apply mdPoll_sound | with_reducible apply norReadPoll_sound | with_reducible apply parReadPoll_sound
    | with_reducible apply parSavePoll_sound | with_reducible apply prEngagePoll_sound | with_reducible apply prPserPoll_sound
    | with_reducible apply prReleasePoll_sound | with_reducible apply readyPoll_sound | with_reducible apply safeClosePoll_sound
    | with_reducible apply safeConfirmPoll_sound | with_reducible apply timetablePoll_sound | with_reducible apply addrOutside_ite
    | with_reducible apply addrOutside2 | with_reducible apply addrOutside1 | with_reducible apply addrOutside_mod
    | with_reducible apply addrOutside0 | exact Nat.zero_lt_succ _ | (exact mask_mono hp rfl)
    | ((with_reducible apply sound_parts) <;> first | (intro _; with_reducible rfl) | exact fun hm => (mask_absurd hp hm rfl).elim | skip)
    | simp (zeta := false) (etaStruct := .none) only [sound_mk] | (extract_lets +onlyGivenNames x; refine sound_have x ?_ ?_; subst x)
    | (extract_lets +onlyGivenNames x; refine sound_fun x ?_; subst x) | (extract_lets +onlyGivenNames x) | split
    | simp (zeta := false) (zetaDelta := true) (etaStruct := .none) only [sound_mk]

theorem worksPoll_sound (hp : ms &&& 0xA9409BB50000B = 0) (s : State) (hs : s.Sound ms sa) : State.Sound ms (worksPoll s) sa := by
  unfold worksPoll
  repeat'
    first
    | assumption | (intro _) | with_reducible apply sound_ite | with_reducible apply workPoll_sound
    | with_reducible apply addrOutside_ite | with_reducible apply addrOutside2 | with_reducible apply addrOutside1
    | with_reducible apply addrOutside_mod | with_reducible apply addrOutside0 | exact Nat.zero_lt_succ _
    | with_reducible apply sound_foldl | with_reducible apply sound_foldl_snd | (exact mask_mono hp rfl)
    | ((with_reducible apply sound_parts) <;> first | (intro _; with_reducible rfl) | exact fun hm => (mask_absurd hp hm rfl).elim | skip)
    | simp (zeta := false) (etaStruct := .none) only [sound_mk] | (extract_lets +onlyGivenNames x; refine sound_have x ?_ ?_; subst x)
    | (extract_lets +onlyGivenNames x; refine sound_fun x ?_; subst x) | (extract_lets +onlyGivenNames x) | split
    | simp (zeta := false) (zetaDelta := true) (etaStruct := .none) only [sound_mk]

theorem laneTest_sound (hp : ms &&& 0x14100806000089 = 0) (s : State) (lane : Nat) (hs : s.Sound ms sa) : State.Sound ms (laneTest s lane) sa := by
  unfold laneTest
  repeat'
    first
    | assumption | (intro _) | with_reducible apply sound_ite | with_reducible apply bistQueue_sound
    | with_reducible apply addrOutside_ite | with_reducible apply addrOutside2 | with_reducible apply addrOutside1
    | with_reducible apply addrOutside_mod | with_reducible apply addrOutside0 | exact Nat.zero_lt_succ _ | (exact mask_mono hp rfl)
    | ((with_reducible apply sound_parts) <;> first | (intro _; with_reducible rfl) | exact fun hm => (mask_absurd hp hm rfl).elim | skip)
    | simp (zeta := false) (etaStruct := .none) only [sound_mk] | (extract_lets +onlyGivenNames x; refine sound_have x ?_ ?_; subst x)
    | (extract_lets +onlyGivenNames x; refine sound_fun x ?_; subst x) | (extract_lets +onlyGivenNames x) | split
    | simp (zeta := false) (zetaDelta := true) (etaStruct := .none) only [sound_mk]

theorem eventPass_sound (hp : ms &&& 0x14900827000089 = 0) (s : State) (hs : s.Sound ms sa) : State.Sound ms (eventPass s) sa := by
  unfold eventPass
  repeat'
    first
    | assumption | (intro _) | with_reducible apply sound_ite | with_reducible apply eventRingPass_sound
    | with_reducible apply laneTest_sound | with_reducible apply addrOutside_ite | with_reducible apply addrOutside2
    | with_reducible apply addrOutside1 | with_reducible apply addrOutside_mod | with_reducible apply addrOutside0
    | exact Nat.zero_lt_succ _ | with_reducible apply sound_foldl | with_reducible apply sound_foldl_snd | (exact mask_mono hp rfl)
    | ((with_reducible apply sound_parts) <;> first | (intro _; with_reducible rfl) | exact fun hm => (mask_absurd hp hm rfl).elim | skip)
    | simp (zeta := false) (etaStruct := .none) only [sound_mk] | (extract_lets +onlyGivenNames x; refine sound_have x ?_ ?_; subst x)
    | (extract_lets +onlyGivenNames x; refine sound_fun x ?_; subst x) | (extract_lets +onlyGivenNames x) | split
    | simp (zeta := false) (zetaDelta := true) (etaStruct := .none) only [sound_mk]

theorem seenAll_sound (hp : ms &&& 0x4D0000C0 = 0) (s : State) (hs : s.Sound ms sa) : State.Sound ms (seenAll s) sa := by
  unfold seenAll
  repeat'
    first
    | assumption | (intro _) | with_reducible apply sound_ite | (exact mask_mono hp rfl)
    | ((with_reducible apply sound_parts) <;> first | (intro _; with_reducible rfl) | exact fun hm => (mask_absurd hp hm rfl).elim | skip)
    | simp (zeta := false) (etaStruct := .none) only [sound_mk] | (extract_lets +onlyGivenNames x; refine sound_have x ?_ ?_; subst x)
    | (extract_lets +onlyGivenNames x; refine sound_fun x ?_; subst x) | (extract_lets +onlyGivenNames x) | split
    | simp (zeta := false) (zetaDelta := true) (etaStruct := .none) only [sound_mk]

theorem attnDrive_sound (hp : ms &&& 0x800020000001 = 0) (s : State) (hs : s.Sound ms sa) : State.Sound ms (attnDrive s) sa := by
  unfold attnDrive
  repeat'
    first
    | assumption | (intro _) | with_reducible apply sound_ite | with_reducible apply attnSet_sound
    | with_reducible apply addrOutside_ite | with_reducible apply addrOutside2 | with_reducible apply addrOutside1
    | with_reducible apply addrOutside_mod | with_reducible apply addrOutside0 | exact Nat.zero_lt_succ _ | (exact mask_mono hp rfl)
    | ((with_reducible apply sound_parts) <;> first | (intro _; with_reducible rfl) | exact fun hm => (mask_absurd hp hm rfl).elim | skip)
    | simp (zeta := false) (etaStruct := .none) only [sound_mk] | (extract_lets +onlyGivenNames x; refine sound_have x ?_ ?_; subst x)
    | (extract_lets +onlyGivenNames x; refine sound_fun x ?_; subst x) | (extract_lets +onlyGivenNames x) | split
    | simp (zeta := false) (zetaDelta := true) (etaStruct := .none) only [sound_mk]

theorem savesRun_sound (hp : ms &&& 0x100821000009 = 0) (s : State) (hs : s.Sound ms sa) : State.Sound ms (savesRun s) sa := by
  unfold savesRun
  repeat'
    first
    | assumption | (intro _) | with_reducible apply sound_ite | with_reducible apply stateSave_sound
    | with_reducible apply addrOutside_ite | with_reducible apply addrOutside2 | with_reducible apply addrOutside1
    | with_reducible apply addrOutside_mod | with_reducible apply addrOutside0 | exact Nat.zero_lt_succ _ | (exact mask_mono hp rfl)
    | ((with_reducible apply sound_parts) <;> first | (intro _; with_reducible rfl) | exact fun hm => (mask_absurd hp hm rfl).elim | skip)
    | simp (zeta := false) (etaStruct := .none) only [sound_mk] | (extract_lets +onlyGivenNames x; refine sound_have x ?_ ?_; subst x)
    | (extract_lets +onlyGivenNames x; refine sound_fun x ?_; subst x) | (extract_lets +onlyGivenNames x) | split
    | simp (zeta := false) (zetaDelta := true) (etaStruct := .none) only [sound_mk]

theorem mpQueues_sound (hp : ms &&& 0x14100807000089 = 0) (s : State) (hs : s.Sound ms sa) : State.Sound ms (mpQueues s) sa := by
  unfold mpQueues
  repeat'
    first
    | assumption | (intro _) | with_reducible apply sound_ite | with_reducible apply State.qDrain_sound
    | with_reducible apply bistPush_sound | with_reducible apply norPush_sound | with_reducible apply addrOutside_ite
    | with_reducible apply addrOutside2 | with_reducible apply addrOutside1 | with_reducible apply addrOutside_mod
    | with_reducible apply addrOutside0 | exact Nat.zero_lt_succ _ | with_reducible apply sound_foldl
    | with_reducible apply sound_foldl_snd | (exact mask_mono hp rfl)
    | ((with_reducible apply sound_parts) <;> first | (intro _; with_reducible rfl) | exact fun hm => (mask_absurd hp hm rfl).elim | skip)
    | simp (zeta := false) (etaStruct := .none) only [sound_mk] | (extract_lets +onlyGivenNames x; refine sound_have x ?_ ?_; subst x)
    | (extract_lets +onlyGivenNames x; refine sound_fun x ?_; subst x) | (extract_lets +onlyGivenNames x) | split
    | simp (zeta := false) (zetaDelta := true) (etaStruct := .none) only [sound_mk]

theorem engineRelease_sound (hp : ms &&& 0x1E10080F000089 = 0) (s : State) (hs : s.Sound ms sa) : State.Sound ms (engineRelease s) sa := by
  unfold engineRelease
  repeat'
    first
    | assumption | (intro _) | with_reducible apply sound_ite | with_reducible apply bistPost_sound | with_reducible apply ccPost_sound
    | with_reducible apply norRelease_sound | with_reducible apply addrOutside_ite | with_reducible apply addrOutside2
    | with_reducible apply addrOutside1 | with_reducible apply addrOutside_mod | with_reducible apply addrOutside0
    | exact Nat.zero_lt_succ _ | with_reducible apply sound_foldl | with_reducible apply sound_foldl_snd | (exact mask_mono hp rfl)
    | ((with_reducible apply sound_parts) <;> first | (intro _; with_reducible rfl) | exact fun hm => (mask_absurd hp hm rfl).elim | skip)
    | simp (zeta := false) (etaStruct := .none) only [sound_mk] | (extract_lets +onlyGivenNames x; refine sound_have x ?_ ?_; subst x)
    | (extract_lets +onlyGivenNames x; refine sound_fun x ?_; subst x) | (extract_lets +onlyGivenNames x) | split
    | simp (zeta := false) (zetaDelta := true) (etaStruct := .none) only [sound_mk]

theorem mpPoll_sound (hp : ms &&& 0x3E9429FF5000CB = 0) (s : State) (hs : s.Sound ms sa) : State.Sound ms (mpPoll s) sa := by
  unfold mpPoll
  have he := engineRelease_sound (mask_mono hp rfl) s hs
  split
  · exact he
  · extract_lets a b
    have hq := stallPush_sound (mask_mono hp rfl) _ (mpQueues_sound (mask_mono hp rfl) _ he)
    have ha : a.Sound ms sa := streamPass_sound (mask_mono hp rfl) _ _ (streamPass_sound (mask_mono hp rfl) _ _ (reloadTables_sound (mask_mono hp rfl) _ hq))
    clear_value a
    have hb : b.Sound ms sa := seenAll_sound (mask_mono hp rfl) _ (worksPoll_sound (mask_mono hp rfl) _ ha)
    clear_value b
    exact recordRelease_sound (mask_mono hp rfl) _ (savesRun_sound (mask_mono hp rfl) _ (attnDrive_sound (mask_mono hp rfl) _ hb))

end Sys2Proof.Machine
end

