-- ==== Sys2Proof/Laws/SoundStartup.lean ====
section
/-! SUPPORT. The operations of Machine/Startup.lean keep a state sound. -/

set_option Elab.async false

namespace Sys2Proof.Machine

variable {ms : Nat} {sa : State}

theorem blank_sound (hp : ms &&& 0x3FFFFFFFFFFFFF = 0) (s : State) (hs : s.Sound ms sa) : State.Sound ms (blank s) sa := by
  have h := hs
  exact { regs := fun _ => rfl, mem := fun _ => rfl, nor := h.nor, queues := fun _ => rfl, time := fun _ => Nat.le_refl _, pending := h.pending, same := fun p hm => by cases p <;> exact (mask_absurd hp hm rfl).elim, words := fun k hk => by rw [bit_clear (mask_mono hp rfl) (unitBit_mem k)] at hk; cases hk }

theorem ringsReset_sound (hp : ms &&& 0x10100902000009 = 0) (s : State) (hs : s.Sound ms sa) : State.Sound ms (ringsReset s) sa := by
  unfold ringsReset
  repeat'
    first
    | assumption | (intro _) | with_reducible apply sound_ite | with_reducible apply ringDisarm_sound
    | with_reducible apply ringHalt_sound | with_reducible apply addrOutside_ite | with_reducible apply addrOutside2
    | with_reducible apply addrOutside1 | with_reducible apply addrOutside_mod | with_reducible apply addrOutside0
    | exact Nat.zero_lt_succ _ | with_reducible apply sound_foldl | with_reducible apply sound_foldl_snd | (exact mask_mono hp rfl)
    | ((with_reducible apply sound_parts) <;> first | (intro _; with_reducible rfl) | exact fun hm => (mask_absurd hp hm rfl).elim | skip)
    | simp (zeta := false) (etaStruct := .none) only [sound_mk] | (extract_lets +onlyGivenNames x; refine sound_have x ?_ ?_; subst x)
    | (extract_lets +onlyGivenNames x; refine sound_fun x ?_; subst x) | (extract_lets +onlyGivenNames x) | split
    | simp (zeta := false) (zetaDelta := true) (etaStruct := .none) only [sound_mk]

theorem keepTrace_sound (hp : ms &&& 0x3FFFFE02000001 = 0) (old s : State) (hs : s.Sound ms sa) : State.Sound ms (keepTrace old s) sa := by
  have h := hs
  refine { h with regs := fun w => ?_, same := fun p hm => ?_, words := fun k hk => ?_ }
  · suffices hf : ∀ (l : SMap Word) (m : SMap Word), smapWf resetWord m = true →
        smapWf resetWord (l.foldl (fun m r => smapSet resetWord m r.1 r.2) m) = true from hf _ _ (h.regs w)
    intro l
    induction l with
    | nil => exact fun _ hm => hm
    | cons x l ih => exact fun m hm => ih _ (smapWf_set _ _ _ _ hm)
  · have h1 := h.same p hm
    cases p <;> first | exact (mask_absurd hp hm rfl).elim | exact h1
  · rw [bit_clear (mask_mono hp rfl) (unitBit_mem k)] at hk
    cases hk

theorem norFlush_sound (hp : ms &&& 0x2000001000005 = 0) (s : State) (hs : s.Sound ms sa) : State.Sound ms (norFlush s) sa := by
  unfold norFlush
  repeat'
    first
    | assumption | (intro _) | with_reducible apply sound_ite | with_reducible apply norStep_sound
    | with_reducible apply addrOutside_ite | with_reducible apply addrOutside2 | with_reducible apply addrOutside1
    | with_reducible apply addrOutside_mod | with_reducible apply addrOutside0 | exact Nat.zero_lt_succ _
    | with_reducible apply sound_foldl | with_reducible apply sound_foldl_snd | (exact mask_mono hp rfl)
    | ((with_reducible apply sound_parts) <;> first | (intro _; with_reducible rfl) | exact fun hm => (mask_absurd hp hm rfl).elim | skip)
    | simp (zeta := false) (etaStruct := .none) only [sound_mk] | (extract_lets +onlyGivenNames x; refine sound_have x ?_ ?_; subst x)
    | (extract_lets +onlyGivenNames x; refine sound_fun x ?_; subst x) | (extract_lets +onlyGivenNames x) | split
    | simp (zeta := false) (zetaDelta := true) (etaStruct := .none) only [sound_mk]

theorem bootLane_sound (hp : ms &&& 0x103962000009 = 0) (f : BootFacts) (s : State) (lane : Nat) (hs : s.Sound ms sa) : State.Sound ms (bootLane f s lane) sa := by
  unfold bootLane
  split
  · exact laneLost_sound (mask_mono hp rfl) _ _ (State.mpEvent_sound (mask_mono hp rfl) _ _ _ (openItem_sound (mask_mono hp rfl) _ _ hs))
  · exact hs

theorem bootSteps_sound (hp : ms &&& 0x300000001 = 0) (f : BootFacts) (s : State) (hs : s.Sound ms sa) : State.Sound ms (bootSteps f s) sa := by
  unfold bootSteps
  repeat'
    first
    | assumption | (intro _) | with_reducible apply sound_ite | with_reducible apply State.drawBits_sound
    | with_reducible apply State.wr_sound | with_reducible apply addrOutside_ite | with_reducible apply addrOutside2
    | with_reducible apply addrOutside1 | with_reducible apply addrOutside_mod | with_reducible apply addrOutside0
    | exact Nat.zero_lt_succ _ | with_reducible apply sound_foldl | with_reducible apply sound_foldl_snd | (exact mask_mono hp rfl)
    | ((with_reducible apply sound_parts) <;> first | (intro _; with_reducible rfl) | exact fun hm => (mask_absurd hp hm rfl).elim | skip)
    | simp (zeta := false) (etaStruct := .none) only [sound_mk] | (extract_lets +onlyGivenNames x; refine sound_have x ?_ ?_; subst x)
    | (extract_lets +onlyGivenNames x; refine sound_fun x ?_; subst x) | (extract_lets +onlyGivenNames x) | split
    | simp (zeta := false) (zetaDelta := true) (etaStruct := .none) only [sound_mk]

theorem bootConfirm_sound (hp : ms &&& 0x100802100009 = 0) (b : List Byte) (s : State) (hs : s.Sound ms sa) : State.Sound ms (bootConfirm b s) sa := by
  unfold bootConfirm
  repeat'
    first
    | assumption | (intro _) | with_reducible apply sound_ite | with_reducible apply State.event_sound
    | with_reducible apply State.wr_sound | with_reducible apply addrOutside_ite | with_reducible apply addrOutside2
    | with_reducible apply addrOutside1 | with_reducible apply addrOutside_mod | with_reducible apply addrOutside0
    | exact Nat.zero_lt_succ _ | (exact mask_mono hp rfl)
    | ((with_reducible apply sound_parts) <;> first | (intro _; with_reducible rfl) | exact fun hm => (mask_absurd hp hm rfl).elim | skip)
    | simp (zeta := false) (etaStruct := .none) only [sound_mk] | (extract_lets +onlyGivenNames x; refine sound_have x ?_ ?_; subst x)
    | (extract_lets +onlyGivenNames x; refine sound_fun x ?_; subst x) | (extract_lets +onlyGivenNames x) | split
    | simp (zeta := false) (zetaDelta := true) (etaStruct := .none) only [sound_mk]

theorem bootConfig_sound (hp : ms &&& 0x3FFFFE02104109 = 0) (s : State) (hs : s.Sound ms sa) : State.Sound ms (bootConfig s) sa := by
  unfold bootConfig
  extract_lets b x y
  have hx : x.Sound ms sa := sound_ite hs (configLoad_sound (mask_mono hp rfl) b s hs)
  clear_value x
  have hy : y.Sound ms sa := effRefresh_sound (mask_mono hp rfl) _ (State.wr_sound (mask_mono hp rfl) _ _ _ (by first | assumption | exact addrOutside_all (mask_mono hp rfl) | (with_reducible apply addrOutside2 <;> first | exact mask_mono hp rfl | exact Nat.zero_lt_succ _) | (with_reducible apply addrOutside1 <;> first | exact mask_mono hp rfl | exact Nat.zero_lt_succ _) | (with_reducible apply addrOutside0; exact mask_mono hp rfl)) hx)
  clear_value y
  exact guardRefresh_sound (mask_mono hp rfl) _ (bootConfirm_sound (mask_mono hp rfl) _ _ (sound_foldl _ hy (fun s n h => sound_ite (sdRestart_sound (mask_mono hp rfl) n s h) h)))

theorem bootCause_sound (hp : ms &&& 0x2000201000001 = 0) (module : Bool) (s : State) (hs : s.Sound ms sa) : State.Sound ms (bootCause module s) sa := by
  unfold bootCause
  repeat'
    first
    | assumption | (intro _) | with_reducible apply sound_ite | with_reducible apply State.wr_sound
    | with_reducible apply addrOutside_ite | with_reducible apply addrOutside2 | with_reducible apply addrOutside1
    | with_reducible apply addrOutside_mod | with_reducible apply addrOutside0 | exact Nat.zero_lt_succ _ | (exact mask_mono hp rfl)
    | ((with_reducible apply sound_parts) <;> first | (intro _; with_reducible rfl) | exact fun hm => (mask_absurd hp hm rfl).elim | skip)
    | simp (zeta := false) (etaStruct := .none) only [sound_mk] | (extract_lets +onlyGivenNames x; refine sound_have x ?_ ?_; subst x)
    | (extract_lets +onlyGivenNames x; refine sound_fun x ?_; subst x) | (extract_lets +onlyGivenNames x) | split
    | simp (zeta := false) (zetaDelta := true) (etaStruct := .none) only [sound_mk]

theorem bootState_sound (hp : ms &&& 0x2140201000015 = 0) (module : Bool) (s : State) (hs : s.Sound ms sa) : State.Sound ms (bootState module s) sa := by
  unfold bootState
  repeat'
    first
    | assumption | (intro _) | with_reducible apply sound_ite | with_reducible apply State.wr_sound
    | with_reducible apply bootCause_sound | with_reducible apply stateSaveNow_sound | with_reducible apply addrOutside_ite
    | with_reducible apply addrOutside2 | with_reducible apply addrOutside1 | with_reducible apply addrOutside_mod
    | with_reducible apply addrOutside0 | exact Nat.zero_lt_succ _ | (exact mask_mono hp rfl)
    | ((with_reducible apply sound_parts) <;> first | (intro _; with_reducible rfl) | exact fun hm => (mask_absurd hp hm rfl).elim | skip)
    | simp (zeta := false) (etaStruct := .none) only [sound_mk] | (extract_lets +onlyGivenNames x; refine sound_have x ?_ ?_; subst x)
    | (extract_lets +onlyGivenNames x; refine sound_fun x ?_; subst x) | (extract_lets +onlyGivenNames x) | split
    | simp (zeta := false) (zetaDelta := true) (etaStruct := .none) only [sound_mk]

theorem bootRecovery_sound (hp : ms &&& 0x200000001 = 0) (s : State) (hs : s.Sound ms sa) : State.Sound ms (bootRecovery s) sa := by
  unfold bootRecovery
  repeat'
    first
    | assumption | (intro _) | with_reducible apply sound_ite | with_reducible apply State.wr_sound
    | with_reducible apply addrOutside_ite | with_reducible apply addrOutside2 | with_reducible apply addrOutside1
    | with_reducible apply addrOutside_mod | with_reducible apply addrOutside0 | exact Nat.zero_lt_succ _ | (exact mask_mono hp rfl)
    | ((with_reducible apply sound_parts) <;> first | (intro _; with_reducible rfl) | exact fun hm => (mask_absurd hp hm rfl).elim | skip)
    | simp (zeta := false) (etaStruct := .none) only [sound_mk] | (extract_lets +onlyGivenNames x; refine sound_have x ?_ ?_; subst x)
    | (extract_lets +onlyGivenNames x; refine sound_fun x ?_; subst x) | (extract_lets +onlyGivenNames x) | split
    | simp (zeta := false) (zetaDelta := true) (etaStruct := .none) only [sound_mk]

theorem bootJournal_sound (hp : ms &&& 0x201000001 = 0) (slots : BitVec 2) (s : State) (hs : s.Sound ms sa) : State.Sound ms (bootJournal slots s) sa := by
  unfold bootJournal
  repeat'
    first
    | assumption | (intro _) | with_reducible apply sound_ite | with_reducible apply State.wr_sound
    | with_reducible apply bootRecovery_sound | with_reducible apply addrOutside_ite | with_reducible apply addrOutside2
    | with_reducible apply addrOutside1 | with_reducible apply addrOutside_mod | with_reducible apply addrOutside0
    | exact Nat.zero_lt_succ _ | (exact mask_mono hp rfl)
    | ((with_reducible apply sound_parts) <;> first | (intro _; with_reducible rfl) | exact fun hm => (mask_absurd hp hm rfl).elim | skip)
    | simp (zeta := false) (etaStruct := .none) only [sound_mk] | (extract_lets +onlyGivenNames x; refine sound_have x ?_ ?_; subst x)
    | (extract_lets +onlyGivenNames x; refine sound_fun x ?_; subst x) | (extract_lets +onlyGivenNames x) | split
    | simp (zeta := false) (zetaDelta := true) (etaStruct := .none) only [sound_mk]

theorem bootReport_sound (hp : ms &&& 0x800811000003 = 0) (s : State) (hs : s.Sound ms sa) : State.Sound ms (bootReport s) sa := by
  unfold bootReport
  repeat'
    first
    | assumption | (intro _) | with_reducible apply sound_ite | with_reducible apply State.setEntry_sound
    | with_reducible apply writeRecord_sound | with_reducible apply addrOutside_ite | with_reducible apply addrOutside2
    | with_reducible apply addrOutside1 | with_reducible apply addrOutside_mod | with_reducible apply addrOutside0
    | exact Nat.zero_lt_succ _ | (exact mask_mono hp rfl)
    | ((with_reducible apply sound_parts) <;> first | (intro _; with_reducible rfl) | exact fun hm => (mask_absurd hp hm rfl).elim | skip)
    | simp (zeta := false) (etaStruct := .none) only [sound_mk] | (extract_lets +onlyGivenNames x; refine sound_have x ?_ ?_; subst x)
    | (extract_lets +onlyGivenNames x; refine sound_fun x ?_; subst x) | (extract_lets +onlyGivenNames x) | split
    | simp (zeta := false) (zetaDelta := true) (etaStruct := .none) only [sound_mk]

theorem bootTable_sound (hp : ms &&& 0x20000000000081 = 0) (slot : Nat) (s : State) (id : Nat) (hs : s.Sound ms sa) : State.Sound ms (bootTable slot s id) sa := by
  unfold bootTable
  repeat'
    first
    | assumption | (intro _) | with_reducible apply sound_ite | with_reducible apply bankPut_sound
    | with_reducible apply addrOutside_ite | with_reducible apply addrOutside2 | with_reducible apply addrOutside1
    | with_reducible apply addrOutside_mod | with_reducible apply addrOutside0 | exact Nat.zero_lt_succ _
    | with_reducible apply sound_foldl | with_reducible apply sound_foldl_snd | (exact mask_mono hp rfl)
    | ((with_reducible apply sound_parts) <;> first | (intro _; with_reducible rfl) | exact fun hm => (mask_absurd hp hm rfl).elim | skip)
    | simp (zeta := false) (etaStruct := .none) only [sound_mk] | (extract_lets +onlyGivenNames x; refine sound_have x ?_ ?_; subst x)
    | (extract_lets +onlyGivenNames x; refine sound_fun x ?_; subst x) | (extract_lets +onlyGivenNames x) | split
    | simp (zeta := false) (zetaDelta := true) (etaStruct := .none) only [sound_mk]

theorem bootTables_sound (hp : ms &&& 0x22002060000081 = 0) (s : State) (hs : s.Sound ms sa) : State.Sound ms (bootTables s) sa := by
  unfold bootTables
  split
  · exact State.wr_sound (mask_mono hp rfl) _ _ _ (by first | assumption | exact addrOutside_all (mask_mono hp rfl) | (with_reducible apply addrOutside2 <;> first | exact mask_mono hp rfl | exact Nat.zero_lt_succ _) | (with_reducible apply addrOutside1 <;> first | exact mask_mono hp rfl | exact Nat.zero_lt_succ _) | (with_reducible apply addrOutside0; exact mask_mono hp rfl)) (sound_foldl _ (State.wr_sound (mask_mono hp rfl) _ _ _ (by first | assumption | exact addrOutside_all (mask_mono hp rfl) | (with_reducible apply addrOutside2 <;> first | exact mask_mono hp rfl | exact Nat.zero_lt_succ _) | (with_reducible apply addrOutside1 <;> first | exact mask_mono hp rfl | exact Nat.zero_lt_succ _) | (with_reducible apply addrOutside0; exact mask_mono hp rfl)) (State.wr_sound (mask_mono hp rfl) _ _ _ (by first | assumption | exact addrOutside_all (mask_mono hp rfl) | (with_reducible apply addrOutside2 <;> first | exact mask_mono hp rfl | exact Nat.zero_lt_succ _) | (with_reducible apply addrOutside1 <;> first | exact mask_mono hp rfl | exact Nat.zero_lt_succ _) | (with_reducible apply addrOutside0; exact mask_mono hp rfl)) hs)) (fun s id h => bootTable_sound (mask_mono hp rfl) _ s id h))
  · exact sound_foldl _ (State.wr_sound (mask_mono hp rfl) _ _ _ (by first | assumption | exact addrOutside_all (mask_mono hp rfl) | (with_reducible apply addrOutside2 <;> first | exact mask_mono hp rfl | exact Nat.zero_lt_succ _) | (with_reducible apply addrOutside1 <;> first | exact mask_mono hp rfl | exact Nat.zero_lt_succ _) | (with_reducible apply addrOutside0; exact mask_mono hp rfl)) hs) (fun s id h => mpCause_sound (mask_mono hp rfl) _ _ _ _ (sound_upd h (fun p hm => by cases p <;> first | exact (mask_absurd hp hm rfl).elim | rfl)))

theorem bootLink_sound (hp : ms &&& 0x110B42004009 = 0) (f : BootFacts) (s : State) (c : Nat) (hs : s.Sound ms sa) : State.Sound ms (bootLink f s c) sa := by
  unfold bootLink
  repeat'
    first
    | assumption | (intro _) | with_reducible apply sound_ite | with_reducible apply State.setGch_sound
    | with_reducible apply State.wrBit_sound | with_reducible apply gkPermit_sound | with_reducible apply statusReport_sound
    | with_reducible apply addrOutside_ite | with_reducible apply addrOutside2 | with_reducible apply addrOutside1
    | with_reducible apply addrOutside_mod | with_reducible apply addrOutside0 | exact Nat.zero_lt_succ _ | (exact mask_mono hp rfl)
    | ((with_reducible apply sound_parts) <;> first | (intro _; with_reducible rfl) | exact fun hm => (mask_absurd hp hm rfl).elim | skip)
    | simp (zeta := false) (etaStruct := .none) only [sound_mk] | (extract_lets +onlyGivenNames x; refine sound_have x ?_ ?_; subst x)
    | (extract_lets +onlyGivenNames x; refine sound_fun x ?_; subst x) | (extract_lets +onlyGivenNames x) | split
    | simp (zeta := false) (zetaDelta := true) (etaStruct := .none) only [sound_mk]

theorem bootLog_sound (hp : ms &&& 0x1000000 = 0) (s : State) (hs : s.Sound ms sa) : State.Sound ms (bootLog s) sa := by
  unfold bootLog
  repeat'
    first
    | assumption | (intro _) | with_reducible apply sound_ite | with_reducible apply sound_foldl | with_reducible apply sound_foldl_snd
    | (exact mask_mono hp rfl)
    | ((with_reducible apply sound_parts) <;> first | (intro _; with_reducible rfl) | exact fun hm => (mask_absurd hp hm rfl).elim | skip)
    | simp (zeta := false) (etaStruct := .none) only [sound_mk] | (extract_lets +onlyGivenNames x; refine sound_have x ?_ ?_; subst x)
    | (extract_lets +onlyGivenNames x; refine sound_fun x ?_; subst x) | (extract_lets +onlyGivenNames x) | split
    | simp (zeta := false) (zetaDelta := true) (etaStruct := .none) only [sound_mk]

theorem mpIn_sound (hp : ms &&& 0x800000100001 = 0) (s : State) (hs : s.Sound ms sa) : State.Sound ms (mpIn s) sa := by
  unfold mpIn
  repeat'
    first
    | assumption | (intro _) | with_reducible apply sound_ite | with_reducible apply State.wr_sound | with_reducible apply attnSet_sound
    | with_reducible apply mpwdWrite_sound | with_reducible apply addrOutside_ite | with_reducible apply addrOutside2
    | with_reducible apply addrOutside1 | with_reducible apply addrOutside_mod | with_reducible apply addrOutside0
    | exact Nat.zero_lt_succ _ | (exact mask_mono hp rfl)
    | ((with_reducible apply sound_parts) <;> first | (intro _; with_reducible rfl) | exact fun hm => (mask_absurd hp hm rfl).elim | skip)
    | simp (zeta := false) (etaStruct := .none) only [sound_mk] | (extract_lets +onlyGivenNames x; refine sound_have x ?_ ?_; subst x)
    | (extract_lets +onlyGivenNames x; refine sound_fun x ?_; subst x) | (extract_lets +onlyGivenNames x) | split
    | simp (zeta := false) (zetaDelta := true) (etaStruct := .none) only [sound_mk]

theorem bootMemory_sound (hp : ms &&& 0x4000062000001 = 0) (f : BootFacts) (s : State) (hs : s.Sound ms sa) : State.Sound ms (bootMemory f s) sa := by
  unfold bootMemory
  repeat'
    first
    | assumption | (intro _) | with_reducible apply sound_ite | with_reducible apply bistReport_sound
    | with_reducible apply mpCause_sound | with_reducible apply addrOutside_ite | with_reducible apply addrOutside2
    | with_reducible apply addrOutside1 | with_reducible apply addrOutside_mod | with_reducible apply addrOutside0
    | exact Nat.zero_lt_succ _ | with_reducible apply sound_foldl | with_reducible apply sound_foldl_snd | (exact mask_mono hp rfl)
    | ((with_reducible apply sound_parts) <;> first | (intro _; with_reducible rfl) | exact fun hm => (mask_absurd hp hm rfl).elim | skip)
    | simp (zeta := false) (etaStruct := .none) only [sound_mk] | (extract_lets +onlyGivenNames x; refine sound_have x ?_ ?_; subst x)
    | (extract_lets +onlyGivenNames x; refine sound_fun x ?_; subst x) | (extract_lets +onlyGivenNames x) | split
    | simp (zeta := false) (zetaDelta := true) (etaStruct := .none) only [sound_mk]

theorem bootLoader_sound (hp : ms &&& 0x3FFFFF7310419F = 0) (module : Bool) (f : BootFacts) (s : State) (hs : s.Sound ms sa) : State.Sound ms (bootLoader module f s) sa := by
  unfold bootLoader
  extract_lets a b c
  have ha : a.Sound ms sa := bootMemory_sound (mask_mono hp rfl) _ _ (bootTables_sound (mask_mono hp rfl) _ (nvRefresh_sound (mask_mono hp rfl) _ (bootLog_sound (mask_mono hp rfl) _ (bootState_sound (mask_mono hp rfl) _ _ (bootConfig_sound (mask_mono hp rfl) _ hs)))))
  clear_value a
  have hb : b.Sound ms sa := bootJournal_sound (mask_mono hp rfl) _ _ ha
  clear_value b
  have hc : c.Sound ms sa := mpIn_sound (mask_mono hp rfl) _ (bootReport_sound (mask_mono hp rfl) _ hb)
  clear_value c
  exact sound_foldl _ (bootSteps_sound (mask_mono hp rfl) _ _ hc) (fun s k h => bootLink_sound (mask_mono hp rfl) _ s k h)

theorem boot_sound (hp : ms &&& 0x3FFFFF7310419F = 0) (module : Bool) (f : BootFacts) (s : State) (hs : s.Sound ms sa) : State.Sound ms (boot module f s) sa := by
  unfold boot
  repeat'
    first
    | assumption | (intro _) | with_reducible apply sound_ite | with_reducible apply State.wr_sound
    | with_reducible apply bootLane_sound | with_reducible apply bootLoader_sound | with_reducible apply addrOutside_all
    | with_reducible apply addrOutside_ite | with_reducible apply addrOutside2 | with_reducible apply addrOutside1
    | with_reducible apply addrOutside_mod | with_reducible apply addrOutside0 | exact Nat.zero_lt_succ _
    | with_reducible apply sound_foldl | with_reducible apply sound_foldl_snd | (exact mask_mono hp rfl)
    | ((with_reducible apply sound_parts) <;> first | (intro _; with_reducible rfl) | exact fun hm => (mask_absurd hp hm rfl).elim | skip)
    | simp (zeta := false) (etaStruct := .none) only [sound_mk] | (extract_lets +onlyGivenNames x; refine sound_have x ?_ ?_; subst x)
    | (extract_lets +onlyGivenNames x; refine sound_fun x ?_; subst x) | (extract_lets +onlyGivenNames x) | split
    | simp (zeta := false) (zetaDelta := true) (etaStruct := .none) only [sound_mk]

theorem powerOn_sound (hp : ms &&& 0x3FFFFFFFFFFFFF = 0) (f : BootFacts) (s : State) (hs : s.Sound ms sa) : State.Sound ms (powerOn f s) sa := by
  unfold powerOn
  repeat'
    first
    | assumption | (intro _) | with_reducible apply sound_ite | with_reducible apply blank_sound | with_reducible apply boot_sound
    | with_reducible apply norStop_sound | with_reducible apply addrOutside_all | with_reducible apply addrOutside_ite
    | with_reducible apply addrOutside2 | with_reducible apply addrOutside1 | with_reducible apply addrOutside_mod
    | with_reducible apply addrOutside0 | exact Nat.zero_lt_succ _ | (exact mask_mono hp rfl)
    | ((with_reducible apply sound_parts) <;> first | (intro _; with_reducible rfl) | exact fun hm => (mask_absurd hp hm rfl).elim | skip)
    | simp (zeta := false) (etaStruct := .none) only [sound_mk] | (extract_lets +onlyGivenNames x; refine sound_have x ?_ ?_; subst x)
    | (extract_lets +onlyGivenNames x; refine sound_fun x ?_; subst x) | (extract_lets +onlyGivenNames x) | split
    | simp (zeta := false) (zetaDelta := true) (etaStruct := .none) only [sound_mk]

theorem moduleReset_sound (hp : ms &&& 0x3FFFFFFFFFFFFF = 0) (f : BootFacts) (s : State) (hs : s.Sound ms sa) : State.Sound ms (moduleReset f s) sa := by
  unfold moduleReset
  repeat'
    first
    | assumption | (intro _) | with_reducible apply sound_ite | with_reducible apply blank_sound | with_reducible apply boot_sound
    | with_reducible apply keepTrace_sound | with_reducible apply lockoutSave_sound | with_reducible apply norFlush_sound
    | with_reducible apply ringsReset_sound | with_reducible apply addrOutside_all | with_reducible apply addrOutside_ite
    | with_reducible apply addrOutside2 | with_reducible apply addrOutside1 | with_reducible apply addrOutside_mod
    | with_reducible apply addrOutside0 | exact Nat.zero_lt_succ _ | (exact mask_mono hp rfl)
    | ((with_reducible apply sound_parts) <;> first | (intro _; with_reducible rfl) | exact fun hm => (mask_absurd hp hm rfl).elim | skip)
    | simp (zeta := false) (etaStruct := .none) only [sound_mk] | (extract_lets +onlyGivenNames x; refine sound_have x ?_ ?_; subst x)
    | (extract_lets +onlyGivenNames x; refine sound_fun x ?_; subst x) | (extract_lets +onlyGivenNames x) | split
    | simp (zeta := false) (zetaDelta := true) (etaStruct := .none) only [sound_mk]
    | ((with_reducible apply sound_time) <;> first | (intro _; with_reducible rfl) | exact fun hm => (mask_absurd hp hm rfl).elim | skip)
    | omega | exact Nat.le_trans ‹_ ≤ _› (Nat.le_max_left _ _)

theorem bootComplete_sound (hp : ms &&& 0x1140A83400019 = 0) (s : State) (hs : s.Sound ms sa) : State.Sound ms (bootComplete s) sa := by
  unfold bootComplete
  repeat'
    first
    | assumption | (intro _) | with_reducible apply sound_ite | with_reducible apply State.wr_sound
    | with_reducible apply enumStart_sound | with_reducible apply norQueueAll_sound | with_reducible apply addrOutside_ite
    | with_reducible apply addrOutside2 | with_reducible apply addrOutside1 | with_reducible apply addrOutside_mod
    | with_reducible apply addrOutside0 | exact Nat.zero_lt_succ _ | (exact mask_mono hp rfl)
    | ((with_reducible apply sound_parts) <;> first | (intro _; with_reducible rfl) | exact fun hm => (mask_absurd hp hm rfl).elim | skip)
    | simp (zeta := false) (etaStruct := .none) only [sound_mk] | (extract_lets +onlyGivenNames x; refine sound_have x ?_ ?_; subst x)
    | (extract_lets +onlyGivenNames x; refine sound_fun x ?_; subst x) | (extract_lets +onlyGivenNames x) | split
    | simp (zeta := false) (zetaDelta := true) (etaStruct := .none) only [sound_mk]
    | ((with_reducible apply sound_time) <;> first | (intro _; with_reducible rfl) | exact fun hm => (mask_absurd hp hm rfl).elim | skip)
    | omega | exact Nat.le_trans ‹_ ≤ _› (Nat.le_max_left _ _)

theorem mpDataParity_sound (hp : ms &&& 0x100802000009 = 0) (a : Option (BitVec 32)) (s : State) (hs : s.Sound ms sa) : State.Sound ms (mpDataParity a s) sa := by
  unfold mpDataParity
  repeat'
    first
    | assumption | (intro _) | with_reducible apply sound_ite | with_reducible apply State.event_sound
    | with_reducible apply addrOutside_ite | with_reducible apply addrOutside2 | with_reducible apply addrOutside1
    | with_reducible apply addrOutside_mod | with_reducible apply addrOutside0 | exact Nat.zero_lt_succ _ | (exact mask_mono hp rfl)
    | ((with_reducible apply sound_parts) <;> first | (intro _; with_reducible rfl) | exact fun hm => (mask_absurd hp hm rfl).elim | skip)
    | simp (zeta := false) (etaStruct := .none) only [sound_mk] | (extract_lets +onlyGivenNames x; refine sound_have x ?_ ?_; subst x)
    | (extract_lets +onlyGivenNames x; refine sound_fun x ?_; subst x) | (extract_lets +onlyGivenNames x) | split
    | simp (zeta := false) (zetaDelta := true) (etaStruct := .none) only [sound_mk]

theorem mpResetNow_sound (hp : ms &&& 0x14900A77100099 = 0) (cause : Fin 3) (addr : Option (BitVec 32)) (s : State) (hs : s.Sound ms sa) : State.Sound ms (mpResetNow cause addr s) sa := by
  unfold mpResetNow
  repeat'
    first
    | assumption | (intro _) | with_reducible apply sound_ite | with_reducible apply State.cause_sound
    | with_reducible apply State.event_sound | with_reducible apply mpDataParity_sound | with_reducible apply mpReset_sound
    | with_reducible apply mpwdWrite_sound | with_reducible apply addrOutside_ite | with_reducible apply addrOutside2
    | with_reducible apply addrOutside1 | with_reducible apply addrOutside_mod | with_reducible apply addrOutside0
    | exact Nat.zero_lt_succ _ | (exact mask_mono hp rfl)
    | ((with_reducible apply sound_parts) <;> first | (intro _; with_reducible rfl) | exact fun hm => (mask_absurd hp hm rfl).elim | skip)
    | simp (zeta := false) (etaStruct := .none) only [sound_mk] | (extract_lets +onlyGivenNames x; refine sound_have x ?_ ?_; subst x)
    | (extract_lets +onlyGivenNames x; refine sound_fun x ?_; subst x) | (extract_lets +onlyGivenNames x) | split
    | simp (zeta := false) (zetaDelta := true) (etaStruct := .none) only [sound_mk]

theorem resetIfDue_sound (hp : ms &&& 0x14900A77100099 = 0) (s : State) (hs : s.Sound ms sa) : State.Sound ms (resetIfDue s) sa := by
  unfold resetIfDue
  repeat'
    first
    | assumption | (intro _) | with_reducible apply sound_ite | with_reducible apply mpResetNow_sound
    | with_reducible apply addrOutside_ite | with_reducible apply addrOutside2 | with_reducible apply addrOutside1
    | with_reducible apply addrOutside_mod | with_reducible apply addrOutside0 | exact Nat.zero_lt_succ _ | (exact mask_mono hp rfl)
    | ((with_reducible apply sound_parts) <;> first | (intro _; with_reducible rfl) | exact fun hm => (mask_absurd hp hm rfl).elim | skip)
    | simp (zeta := false) (etaStruct := .none) only [sound_mk] | (extract_lets +onlyGivenNames x; refine sound_have x ?_ ?_; subst x)
    | (extract_lets +onlyGivenNames x; refine sound_fun x ?_; subst x) | (extract_lets +onlyGivenNames x) | split
    | simp (zeta := false) (zetaDelta := true) (etaStruct := .none) only [sound_mk]
    | ((with_reducible apply sound_time) <;> first | (intro _; with_reducible rfl) | exact fun hm => (mask_absurd hp hm rfl).elim | skip)
    | omega | exact Nat.le_trans ‹_ ≤ _› (Nat.le_max_left _ _)

theorem swapNow_sound (hp : ms &&& 0x8800209080001 = 0) (s : State) (hs : s.Sound ms sa) : State.Sound ms (swapNow s) sa := by
  unfold swapNow
  repeat'
    first
    | assumption | (intro _) | with_reducible apply sound_ite | with_reducible apply State.inc_sound
    | with_reducible apply State.wr_sound | with_reducible apply ccSwapAbort_sound | with_reducible apply mpOut_sound
    | with_reducible apply addrOutside_ite | with_reducible apply addrOutside2 | with_reducible apply addrOutside1
    | with_reducible apply addrOutside_mod | with_reducible apply addrOutside0 | exact Nat.zero_lt_succ _ | (exact mask_mono hp rfl)
    | ((with_reducible apply sound_parts) <;> first | (intro _; with_reducible rfl) | exact fun hm => (mask_absurd hp hm rfl).elim | skip)
    | simp (zeta := false) (etaStruct := .none) only [sound_mk] | (extract_lets +onlyGivenNames x; refine sound_have x ?_ ?_; subst x)
    | (extract_lets +onlyGivenNames x; refine sound_fun x ?_; subst x) | (extract_lets +onlyGivenNames x) | split
    | simp (zeta := false) (zetaDelta := true) (etaStruct := .none) only [sound_mk]

theorem firmwareSwapIfDue_sound (hp : ms &&& 0x8800209080001 = 0) (s : State) (hs : s.Sound ms sa) : State.Sound ms (firmwareSwapIfDue s) sa := by
  unfold firmwareSwapIfDue
  repeat'
    first
    | assumption | (intro _) | with_reducible apply sound_ite | with_reducible apply swapNow_sound
    | with_reducible apply addrOutside_ite | with_reducible apply addrOutside2 | with_reducible apply addrOutside1
    | with_reducible apply addrOutside_mod | with_reducible apply addrOutside0 | exact Nat.zero_lt_succ _ | (exact mask_mono hp rfl)
    | ((with_reducible apply sound_parts) <;> first | (intro _; with_reducible rfl) | exact fun hm => (mask_absurd hp hm rfl).elim | skip)
    | simp (zeta := false) (etaStruct := .none) only [sound_mk] | (extract_lets +onlyGivenNames x; refine sound_have x ?_ ?_; subst x)
    | (extract_lets +onlyGivenNames x; refine sound_fun x ?_; subst x) | (extract_lets +onlyGivenNames x) | split
    | simp (zeta := false) (zetaDelta := true) (etaStruct := .none) only [sound_mk]

theorem mpBack_sound (hp : ms &&& 0x800210100001 = 0) (s : State) (hs : s.Sound ms sa) : State.Sound ms (mpBack s) sa := by
  unfold mpBack
  repeat'
    first
    | assumption | (intro _) | with_reducible apply sound_ite | with_reducible apply State.wr_sound | with_reducible apply mpIn_sound
    | with_reducible apply addrOutside_ite | with_reducible apply addrOutside2 | with_reducible apply addrOutside1
    | with_reducible apply addrOutside_mod | with_reducible apply addrOutside0 | exact Nat.zero_lt_succ _ | (exact mask_mono hp rfl)
    | ((with_reducible apply sound_parts) <;> first | (intro _; with_reducible rfl) | exact fun hm => (mask_absurd hp hm rfl).elim | skip)
    | simp (zeta := false) (etaStruct := .none) only [sound_mk] | (extract_lets +onlyGivenNames x; refine sound_have x ?_ ?_; subst x)
    | (extract_lets +onlyGivenNames x; refine sound_fun x ?_; subst x) | (extract_lets +onlyGivenNames x) | split
    | simp (zeta := false) (zetaDelta := true) (etaStruct := .none) only [sound_mk]

theorem swapDone_sound (hp : ms &&& 0x900A1118000B = 0) (s : State) (hs : s.Sound ms sa) : State.Sound ms (swapDone s) sa := by
  unfold swapDone
  repeat'
    first
    | assumption | (intro _) | with_reducible apply sound_ite | with_reducible apply finish_sound
    | with_reducible apply journalSave_sound | with_reducible apply mpBack_sound | with_reducible apply addrOutside_ite
    | with_reducible apply addrOutside2 | with_reducible apply addrOutside1 | with_reducible apply addrOutside_mod
    | with_reducible apply addrOutside0 | exact Nat.zero_lt_succ _ | (exact mask_mono hp rfl)
    | ((with_reducible apply sound_parts) <;> first | (intro _; with_reducible rfl) | exact fun hm => (mask_absurd hp hm rfl).elim | skip)
    | simp (zeta := false) (etaStruct := .none) only [sound_mk] | (extract_lets +onlyGivenNames x; refine sound_have x ?_ ?_; subst x)
    | (extract_lets +onlyGivenNames x; refine sound_fun x ?_; subst x) | (extract_lets +onlyGivenNames x) | split
    | simp (zeta := false) (zetaDelta := true) (etaStruct := .none) only [sound_mk]

theorem resetDone_sound (hp : ms &&& 0x900A1110008B = 0) (s : State) (hs : s.Sound ms sa) : State.Sound ms (resetDone s) sa := by
  unfold resetDone
  repeat'
    first
    | assumption | (intro _) | with_reducible apply sound_ite | with_reducible apply State.wr_sound | with_reducible apply finish_sound
    | with_reducible apply journalSave_sound | with_reducible apply mpBack_sound | with_reducible apply norQueue_sound
    | with_reducible apply putRecord_sound | with_reducible apply addrOutside_ite | with_reducible apply addrOutside2
    | with_reducible apply addrOutside1 | with_reducible apply addrOutside_mod | with_reducible apply addrOutside0
    | exact Nat.zero_lt_succ _ | with_reducible apply sound_foldl | with_reducible apply sound_foldl_snd | (exact mask_mono hp rfl)
    | ((with_reducible apply sound_parts) <;> first | (intro _; with_reducible rfl) | exact fun hm => (mask_absurd hp hm rfl).elim | skip)
    | simp (zeta := false) (etaStruct := .none) only [sound_mk] | (extract_lets +onlyGivenNames x; refine sound_have x ?_ ?_; subst x)
    | (extract_lets +onlyGivenNames x; refine sound_fun x ?_; subst x) | (extract_lets +onlyGivenNames x) | split
    | simp (zeta := false) (zetaDelta := true) (etaStruct := .none) only [sound_mk]

theorem mpRestart_sound (hp : ms &&& 0x900A1118008B = 0) (s : State) (hs : s.Sound ms sa) : State.Sound ms (mpRestart s) sa := by
  unfold mpRestart
  repeat'
    first
    | assumption | (intro _) | with_reducible apply sound_ite | with_reducible apply resetDone_sound
    | with_reducible apply swapDone_sound | with_reducible apply addrOutside_ite | with_reducible apply addrOutside2
    | with_reducible apply addrOutside1 | with_reducible apply addrOutside_mod | with_reducible apply addrOutside0
    | exact Nat.zero_lt_succ _ | (exact mask_mono hp rfl)
    | ((with_reducible apply sound_parts) <;> first | (intro _; with_reducible rfl) | exact fun hm => (mask_absurd hp hm rfl).elim | skip)
    | simp (zeta := false) (etaStruct := .none) only [sound_mk] | (extract_lets +onlyGivenNames x; refine sound_have x ?_ ?_; subst x)
    | (extract_lets +onlyGivenNames x; refine sound_fun x ?_; subst x) | (extract_lets +onlyGivenNames x) | split
    | simp (zeta := false) (zetaDelta := true) (etaStruct := .none) only [sound_mk]

end Sys2Proof.Machine
end

