-- ==== Sys2Proof/Laws/SoundTick.lean ====
section
/-! SUPPORT. The operations of Machine/Tick.lean keep a state sound. -/

set_option Elab.async false

namespace Sys2Proof.Machine

variable {ms : Nat} {sa : State}

theorem fbTimeStep_sound (hp : ms &&& 0x40000 = 0) (d : Int) (s : State) (hs : s.Sound ms sa) : State.Sound ms (fbTimeStep d s) sa := by
  unfold fbTimeStep
  repeat'
    first
    | assumption | (intro _) | with_reducible apply sound_ite | with_reducible apply fbWindowRestart_sound | (exact mask_mono hp rfl)
    | ((with_reducible apply sound_parts) <;> first | (intro _; with_reducible rfl) | exact fun hm => (mask_absurd hp hm rfl).elim | skip)
    | simp (zeta := false) (etaStruct := .none) only [sound_mk] | (extract_lets +onlyGivenNames x; refine sound_have x ?_ ?_; subst x)
    | (extract_lets +onlyGivenNames x; refine sound_fun x ?_; subst x) | (extract_lets +onlyGivenNames x) | split
    | simp (zeta := false) (zetaDelta := true) (etaStruct := .none) only [sound_mk]
    | ((with_reducible apply sound_time) <;> first | (intro _; with_reducible rfl) | exact fun hm => (mask_absurd hp hm rfl).elim | skip)
    | omega | exact Nat.le_trans ‹_ ≤ _› (Nat.le_max_left _ _)

theorem moveMarks_sound (hp : ms &&& 0x70D040D0 = 0) (d : Int) (s : State) (hs : s.Sound ms sa) : State.Sound ms (moveMarks d s) sa := by
  unfold moveMarks
  repeat'
    first
    | assumption | (intro _) | with_reducible apply sound_ite | (exact mask_mono hp rfl)
    | ((with_reducible apply sound_parts) <;> first | (intro _; with_reducible rfl) | exact fun hm => (mask_absurd hp hm rfl).elim | skip)
    | simp (zeta := false) (etaStruct := .none) only [sound_mk] | (extract_lets +onlyGivenNames x; refine sound_have x ?_ ?_; subst x)
    | (extract_lets +onlyGivenNames x; refine sound_fun x ?_; subst x) | (extract_lets +onlyGivenNames x) | split
    | simp (zeta := false) (zetaDelta := true) (etaStruct := .none) only [sound_mk]

theorem tbStep_sound (hp : ms &&& 0x10104972D441F9 = 0) (d : Int) (s : State) (hs : s.Sound ms sa) : State.Sound ms (tbStep d s) sa := by
  unfold tbStep
  extract_lets tb x
  have h0 : State.Sound ms { s with time := { s.time with tb := tb, tbLast := tb / s.period * s.period } } sa := by
    have h := hs
    exact { h with time := fun _ => Nat.div_mul_le_self _ _, same := fun p hm => by have h1 := h.same p hm; cases p <;> first | exact (mask_absurd hp hm rfl).elim | exact h1 }
  exact traceTimeChange_sound (mask_mono hp rfl) _ (sdTimeStep_sound (mask_mono hp rfl) _ (fbTimeStep_sound (mask_mono hp rfl) d _ (moveMarks_sound (mask_mono hp rfl) d _ h0)))

theorem timeBoundary_sound (hp : ms &&& 0x10104D72D441F9 = 0) (s : State) (hs : s.Sound ms sa) : State.Sound ms (timeBoundary s) sa := by
  unfold timeBoundary
  repeat'
    first
    | assumption | (intro _) | with_reducible apply sound_ite | with_reducible apply State.incWrap_sound
    | with_reducible apply tbStep_sound | with_reducible apply addrOutside_ite | with_reducible apply addrOutside2
    | with_reducible apply addrOutside1 | with_reducible apply addrOutside_mod | with_reducible apply addrOutside0
    | exact Nat.zero_lt_succ _ | (exact mask_mono hp rfl)
    | ((with_reducible apply sound_parts) <;> first | (intro _; with_reducible rfl) | exact fun hm => (mask_absurd hp hm rfl).elim | skip)
    | simp (zeta := false) (etaStruct := .none) only [sound_mk] | (extract_lets +onlyGivenNames x; refine sound_have x ?_ ?_; subst x)
    | (extract_lets +onlyGivenNames x; refine sound_fun x ?_; subst x) | (extract_lets +onlyGivenNames x) | split
    | simp (zeta := false) (zetaDelta := true) (etaStruct := .none) only [sound_mk]
    | ((with_reducible apply sound_time) <;> first | (intro _; with_reducible rfl) | exact fun hm => (mask_absurd hp hm rfl).elim | skip)
    | omega | exact Nat.le_trans ‹_ ≤ _› (Nat.le_max_left _ _)

theorem tickReset_sound (hp : ms &&& 0x2002022481 = 0) (s : State) (hs : s.Sound ms sa) : State.Sound ms (tickReset s) sa := by
  unfold tickReset
  repeat'
    first
    | assumption | (intro _) | with_reducible apply sound_ite | with_reducible apply State.wr_sound
    | with_reducible apply addrOutside_ite | with_reducible apply addrOutside2 | with_reducible apply addrOutside1
    | with_reducible apply addrOutside_mod | with_reducible apply addrOutside0 | exact Nat.zero_lt_succ _ | (exact mask_mono hp rfl)
    | ((with_reducible apply sound_parts) <;> first | (intro _; with_reducible rfl) | exact fun hm => (mask_absurd hp hm rfl).elim | skip)
    | simp (zeta := false) (etaStruct := .none) only [sound_mk] | (extract_lets +onlyGivenNames x; refine sound_have x ?_ ?_; subst x)
    | (extract_lets +onlyGivenNames x; refine sound_fun x ?_; subst x) | (extract_lets +onlyGivenNames x) | split
    | simp (zeta := false) (zetaDelta := true) (etaStruct := .none) only [sound_mk]

theorem laneBoundary_sound (hp : ms &&& 0x341039460224C9 = 0) (s : State) (hs : s.Sound ms sa) : State.Sound ms (laneBoundary s) sa := by
  unfold laneBoundary
  repeat'
    first
    | assumption | (intro _) | with_reducible apply sound_ite | with_reducible apply bankSwapIfDue_sound
    | with_reducible apply bistStopIfDue_sound | with_reducible apply drainStaging_sound | with_reducible apply laneLostIfDue_sound
    | with_reducible apply staleClear_sound | with_reducible apply tickReset_sound | with_reducible apply traceTimeChange_sound
    | with_reducible apply ttChange_sound | with_reducible apply addrOutside_ite | with_reducible apply addrOutside2
    | with_reducible apply addrOutside1 | with_reducible apply addrOutside_mod | with_reducible apply addrOutside0
    | exact Nat.zero_lt_succ _ | (exact mask_mono hp rfl)
    | ((with_reducible apply sound_parts) <;> first | (intro _; with_reducible rfl) | exact fun hm => (mask_absurd hp hm rfl).elim | skip)
    | simp (zeta := false) (etaStruct := .none) only [sound_mk] | (extract_lets +onlyGivenNames x; refine sound_have x ?_ ?_; subst x)
    | (extract_lets +onlyGivenNames x; refine sound_fun x ?_; subst x) | (extract_lets +onlyGivenNames x) | split
    | simp (zeta := false) (zetaDelta := true) (etaStruct := .none) only [sound_mk]
    | ((with_reducible apply sound_time) <;> first | (intro _; with_reducible rfl) | exact fun hm => (mask_absurd hp hm rfl).elim | skip)
    | omega | exact Nat.le_trans ‹_ ≤ _› (Nat.le_max_left _ _)

theorem bellsDue_sound (hp : ms &&& 0x10000020 = 0) (s : State) (hs : s.Sound ms sa) : State.Sound ms (bellsDue s) sa := by
  unfold bellsDue
  repeat'
    first
    | assumption | (intro _) | with_reducible apply sound_ite | with_reducible apply doorbellSignal_sound
    | with_reducible apply sound_foldl | with_reducible apply sound_foldl_snd | (exact mask_mono hp rfl)
    | ((with_reducible apply sound_parts) <;> first | (intro _; with_reducible rfl) | exact fun hm => (mask_absurd hp hm rfl).elim | skip)
    | simp (zeta := false) (etaStruct := .none) only [sound_mk] | (extract_lets +onlyGivenNames x; refine sound_have x ?_ ?_; subst x)
    | (extract_lets +onlyGivenNames x; refine sound_fun x ?_; subst x) | (extract_lets +onlyGivenNames x) | split
    | simp (zeta := false) (zetaDelta := true) (etaStruct := .none) only [sound_mk]
    | ((with_reducible apply sound_time) <;> first | (intro _; with_reducible rfl) | exact fun hm => (mask_absurd hp hm rfl).elim | skip)
    | omega | exact Nat.le_trans ‹_ ≤ _› (Nat.le_max_left _ _)

theorem leverSample_sound (hp : ms &&& 0x100800000009 = 0) (v : Option (BitVec 16)) (s : State) (hs : s.Sound ms sa) : State.Sound ms (leverSample v s) sa := by
  unfold leverSample
  repeat'
    first
    | assumption | (intro _) | with_reducible apply sound_ite | with_reducible apply State.qPush_sound
    | with_reducible apply addrOutside_ite | with_reducible apply addrOutside2 | with_reducible apply addrOutside1
    | with_reducible apply addrOutside_mod | with_reducible apply addrOutside0 | exact Nat.zero_lt_succ _ | (exact mask_mono hp rfl)
    | ((with_reducible apply sound_parts) <;> first | (intro _; with_reducible rfl) | exact fun hm => (mask_absurd hp hm rfl).elim | skip)
    | simp (zeta := false) (etaStruct := .none) only [sound_mk] | (extract_lets +onlyGivenNames x; refine sound_have x ?_ ?_; subst x)
    | (extract_lets +onlyGivenNames x; refine sound_fun x ?_; subst x) | (extract_lets +onlyGivenNames x) | split
    | simp (zeta := false) (zetaDelta := true) (etaStruct := .none) only [sound_mk]

theorem dropRaised_sound (hp : ms &&& 0x40000000 = 0) (n : Nat) (s : State) (hs : s.Sound ms sa) : State.Sound ms (dropRaised n s) sa := by
  unfold dropRaised
  repeat'
    first
    | assumption | (intro _) | with_reducible apply sound_ite | (exact mask_mono hp rfl)
    | ((with_reducible apply sound_parts) <;> first | (intro _; with_reducible rfl) | exact fun hm => (mask_absurd hp hm rfl).elim | skip)
    | simp (zeta := false) (etaStruct := .none) only [sound_mk] | (extract_lets +onlyGivenNames x; refine sound_have x ?_ ?_; subst x)
    | (extract_lets +onlyGivenNames x; refine sound_fun x ?_; subst x) | (extract_lets +onlyGivenNames x) | split
    | simp (zeta := false) (zetaDelta := true) (etaStruct := .none) only [sound_mk]

theorem tickBoundary_sound (hp : ms &&& 0x3E9FFFFFDE7DFB = 0) (inp : TickInputs) (s : State) (hs : s.Sound ms sa) : State.Sound ms (tickBoundary inp s) sa := by
  unfold tickBoundary
  repeat'
    first
    | assumption | (intro _) | with_reducible apply sound_ite | with_reducible apply State.wr_sound
    | with_reducible apply bellsDue_sound | with_reducible apply calFitApply_sound | with_reducible apply calTick_sound
    | with_reducible apply dropRaised_sound | with_reducible apply feedbackBoundary_sound | with_reducible apply firmwareSwapIfDue_sound
    | with_reducible apply laneBoundary_sound | with_reducible apply leverSample_sound | with_reducible apply linkBoundary_sound
    | with_reducible apply lockoutSave_sound | with_reducible apply mpPoll_sound | with_reducible apply pairBoundary_sound
    | with_reducible apply pairPost_sound | with_reducible apply resetIfDue_sound | with_reducible apply sdWindowClose_sound
    | with_reducible apply sequencerBoundary_sound | with_reducible apply signalBoxBoundary_sound
    | with_reducible apply timeBoundary_sound | with_reducible apply addrOutside_ite | with_reducible apply addrOutside2
    | with_reducible apply addrOutside1 | with_reducible apply addrOutside_mod | with_reducible apply addrOutside0
    | exact Nat.zero_lt_succ _ | (exact mask_mono hp rfl)
    | ((with_reducible apply sound_parts) <;> first | (intro _; with_reducible rfl) | exact fun hm => (mask_absurd hp hm rfl).elim | skip)
    | simp (zeta := false) (etaStruct := .none) only [sound_mk] | (extract_lets +onlyGivenNames x; refine sound_have x ?_ ?_; subst x)
    | (extract_lets +onlyGivenNames x; refine sound_fun x ?_; subst x) | (extract_lets +onlyGivenNames x) | split
    | simp (zeta := false) (zetaDelta := true) (etaStruct := .none) only [sound_mk]

theorem idleCycle_sound (hp : ms &&& 0x100010100021 = 0) (s : State) (hs : s.Sound ms sa) : State.Sound ms (idleCycle s) sa := by
  unfold idleCycle
  split
  · exact hs
  · refine effDue_sound (mask_mono hp rfl) _ (bellsDue_sound (mask_mono hp rfl) _ ?_)
    exact { hs with time := fun w => Nat.le_trans (hs.time w) (Nat.le_max_left _ _), same := fun p hm => by have h1 := hs.same p hm; cases p <;> first | exact (mask_absurd hp hm rfl).elim | exact h1 }

end Sys2Proof.Machine
end

