-- ==== Sys2Proof/Laws/SoundExec.lean ====
section
/-! SUPPORT. What each command's meaning keeps: from a sound state it gives a sound state, and it changes nothing outside its mask. -/

set_option Elab.async false

namespace Sys2Proof.Machine

variable {ms : Nat} {sa : State}

theorem request_sound (hp : ms &&& 0x2013A842544089 = 0) (code mode sub : Nat) (s : State) (hs : s.Sound ms sa) :
    State.Sound ms (request code mode sub s) sa := by
  unfold request
  exact evalRequest_sound (mask_mono hp rfl) _ _ hs

theorem laneLostDue_sound (hp : ms &&& 0x103842000089 = 0) (lane : Nat) (s : State) (hs : s.Sound ms sa) : State.Sound ms (laneLostDue lane s) sa := by
  unfold laneLostDue
  refine sound_ite (laneLost_sound (mask_mono hp rfl) _ _ (sound_upd hs fun p hm => ?_)) hs
  cases p <;> first | rfl | exact (mask_absurd hp hm rfl).elim

theorem live_sound {f : State → State} {s t : State} (h : live f s = .next t) (hs : s.Sound ms sa)
    (hf : ∀ s, State.Sound ms s sa → State.Sound ms (f s) sa) (ho : ms.testBit 31 = false) : t.Sound ms sa := by
  unfold live at h
  split at h
  · cases h
    exact hs
  · cases h
    refine hf _ (sound_upd hs fun p hm => ?_)
    cases p <;> first | rfl | exact (by rw [show Part.out.bit = 31 from rfl, ho] at hm; cases hm)

theorem execTickBoundary_sound (hp : ms &&& 0x3E9FFFFFDE7DFB = 0) (inp : TickInputs) (s u : State) (h : execTickBoundary inp s = .next u)
    (hs : s.Sound ms sa) : u.Sound ms sa := by
  refine live_sound h hs (fun s hs => tickBoundary_sound (mask_mono hp rfl) _ _ hs) (bit_clear hp rfl)

theorem execCurfld_sound (hp : ms &&& 0x211029C203FEA9 = 0) (run : TaskRun) (s u : State) (h : execCurfld run s = .next u)
    (hs : s.Sound ms sa) : u.Sound ms sa := by
  refine live_sound h hs (fun s hs => curfld_sound (mask_mono hp rfl) _ _ hs) (bit_clear hp rfl)

theorem execOuter_sound (hp : ms &&& 0x211029C203FEA9 = 0) (run : TaskRun) (s u : State) (h : execOuter run s = .next u)
    (hs : s.Sound ms sa) : u.Sound ms sa := by
  refine live_sound h hs (fun s hs => outer_sound (mask_mono hp rfl) _ _ hs) (bit_clear hp rfl)

theorem execLimshare_sound (hp : ms &&& 0x211029C203FEA9 = 0) (run : TaskRun) (s u : State) (h : execLimshare run s = .next u)
    (hs : s.Sound ms sa) : u.Sound ms sa := by
  refine live_sound h hs (fun s hs => limshare_sound (mask_mono hp rfl) _ _ hs) (bit_clear hp rfl)

theorem execSubstitutionPoint_sound (hp : ms &&& 0x2114A8E24FFEA9 = 0) (task : Fin 3) (s u : State) (h : execSubstitutionPoint task s = .next u)
    (hs : s.Sound ms sa) : u.Sound ms sa := by
  refine live_sound h hs (fun s hs => substitutionPoint_sound (mask_mono hp rfl) _ _ hs) (bit_clear hp rfl)

theorem execRecomputation_sound (hp : ms &&& 0x41029860225A9 = 0) (task : Fin 3) (run : TaskRun) (s u : State) (h : execRecomputation task run s = .next u)
    (hs : s.Sound ms sa) : u.Sound ms sa := by
  refine live_sound h hs (fun s hs => recomputation_sound (mask_mono hp rfl) _ _ _ hs) (bit_clear hp rfl)

theorem execRecomputedOutputPosted_sound (hp : ms &&& 0x1028C20046A9 = 0) (task : Fin 3) (s u : State) (h : execRecomputedOutputPosted task s = .next u)
    (hs : s.Sound ms sa) : u.Sound ms sa := by
  refine live_sound h hs (fun s hs => recomputedPosted_sound (mask_mono hp rfl) _ _ hs) (bit_clear hp rfl)

theorem execDatapath_sound (hp : ms &&& 0x201028C2000009 = 0) (s u : State) (h : execDatapath s = .next u)
    (hs : s.Sound ms sa) : u.Sound ms sa := by
  refine live_sound h hs (fun s hs => datapathIfDue_sound (mask_mono hp rfl) _ hs) (bit_clear hp rfl)

theorem execHold8_sound (hp : ms &&& 0x201028C2004009 = 0) (s u : State) (h : execHold8 s = .next u)
    (hs : s.Sound ms sa) : u.Sound ms sa := by
  refine live_sound h hs (fun s hs => hold8IfDue_sound (mask_mono hp rfl) _ hs) (bit_clear hp rfl)

theorem execLaneSuspect_sound (hp : ms &&& 0x100882000089 = 0) (lane : Fin 4) (s u : State) (h : execLaneSuspect lane s = .next u)
    (hs : s.Sound ms sa) : u.Sound ms sa := by
  refine live_sound h hs (fun s hs => laneSuspectIfDue_sound (mask_mono hp rfl) _ _ hs) (bit_clear hp rfl)

theorem execLaneLost_sound (hp : ms &&& 0x1038C2000089 = 0) (lane : Fin 4) (s u : State) (h : execLaneLost lane s = .next u)
    (hs : s.Sound ms sa) : u.Sound ms sa := by
  refine live_sound h hs (fun s hs => laneLostDue_sound (mask_mono hp rfl) _ _ hs) (bit_clear hp rfl)

theorem execSliceStart_sound (hp : ms &&& 0x41029860001A9 = 0) (bad : Option (BitVec 32)) (s u : State) (h : execSliceStart bad s = .next u)
    (hs : s.Sound ms sa) : u.Sound ms sa := by
  refine live_sound h hs (fun s hs => sliceStart_sound (mask_mono hp rfl) _ _ hs) (bit_clear hp rfl)

theorem execSliceAbort_sound (hp : ms &&& 0x4000084000181 = 0) (s u : State) (h : execSliceAbort s = .next u)
    (hs : s.Sound ms sa) : u.Sound ms sa := by
  refine live_sound h hs (fun s hs => sliceAbort_sound (mask_mono hp rfl) _ hs) (bit_clear hp rfl)

theorem execTimetableChangeDue_sound (hp : ms &&& 0x1080000041 = 0) (s u : State) (h : execTimetableChangeDue s = .next u)
    (hs : s.Sound ms sa) : u.Sound ms sa := by
  refine live_sound h hs (fun s hs => ttChangeIfDue_sound (mask_mono hp rfl) _ hs) (bit_clear hp rfl)

theorem execTtCtlSwap_sound (hp : ms &&& 0x1080000041 = 0) (s u : State) (h : execTtCtlSwap s = .next u)
    (hs : s.Sound ms sa) : u.Sound ms sa := by
  refine live_sound h hs (fun s hs => ttSwapWrite_sound (mask_mono hp rfl) _ hs) (bit_clear hp rfl)

theorem execTtPeriodCyc_sound (hp : ms &&& 0x1080000041 = 0) (value : Word) (s u : State) (h : execTtPeriodCyc value s = .next u)
    (hs : s.Sound ms sa) : u.Sound ms sa := by
  refine live_sound h hs (fun s hs => ttPeriodWrite_sound (mask_mono hp rfl) _ _ hs) (bit_clear hp rfl)

theorem execLnTblchkGo_sound (hp : ms &&& 0x2080000081 = 0) (value : Word) (s u : State) (h : execLnTblchkGo value s = .next u)
    (hs : s.Sound ms sa) : u.Sound ms sa := by
  refine live_sound h hs (fun s hs => tblchkWrite_sound (mask_mono hp rfl) _ _ hs) (bit_clear hp rfl)

theorem execTableCheckDone_sound (hp : ms &&& 0x20E0000081 = 0) (parityOk : Bool) (s u : State) (h : execTableCheckDone parityOk s = .next u)
    (hs : s.Sound ms sa) : u.Sound ms sa := by
  refine live_sound h hs (fun s hs => tableCheckDone_sound (mask_mono hp rfl) _ _ hs) (bit_clear hp rfl)

theorem execSdChannelConfig_sound (hp : ms &&& 0x4080004101 = 0) (ch : Fin 12) (value : Word) (s u : State) (h : execSdChannelConfig ch value s = .next u)
    (hs : s.Sound ms sa) : u.Sound ms sa := by
  refine live_sound h hs (fun s hs => sdChannelConfig_sound (mask_mono hp rfl) _ _ _ hs) (bit_clear hp rfl)

theorem execSdRestart_sound (hp : ms &&& 0x4080004101 = 0) (ch : Fin 12) (s u : State) (h : execSdRestart ch s = .next u)
    (hs : s.Sound ms sa) : u.Sound ms sa := by
  refine live_sound h hs (fun s hs => sdRestartWrite_sound (mask_mono hp rfl) _ _ hs) (bit_clear hp rfl)

theorem execSdValid_sound (hp : ms &&& 0x4080004001 = 0) (ch : Fin 12) (s u : State) (h : execSdValid ch s = .next u)
    (hs : s.Sound ms sa) : u.Sound ms sa := by
  refine live_sound h hs (fun s hs => sdValidIfDue_sound (mask_mono hp rfl) _ _ hs) (bit_clear hp rfl)

theorem execSdLoss_sound (hp : ms &&& 0x1048C2004109 = 0) (ch : Fin 12) (s u : State) (h : execSdLoss ch s = .next u)
    (hs : s.Sound ms sa) : u.Sound ms sa := by
  refine live_sound h hs (fun s hs => sdLoss_sound (mask_mono hp rfl) _ _ hs) (bit_clear hp rfl)

theorem execCalPositionStep_sound (hp : ms &&& 0x104882000189 = 0) (s u : State) (h : execCalPositionStep s = .next u)
    (hs : s.Sound ms sa) : u.Sound ms sa := by
  refine live_sound h hs (fun s hs => calPositionStepIfDue_sound (mask_mono hp rfl) _ hs) (bit_clear hp rfl)

theorem execCalFitApply_sound (hp : ms &&& 0x104882000109 = 0) (s u : State) (h : execCalFitApply s = .next u)
    (hs : s.Sound ms sa) : u.Sound ms sa := by
  refine live_sound h hs (fun s hs => calFitApply_sound (mask_mono hp rfl) _ hs) (bit_clear hp rfl)

theorem execIsum_sound (hp : ms &&& 0x1008C2000609 = 0) (s u : State) (h : execIsum s = .next u)
    (hs : s.Sound ms sa) : u.Sound ms sa := by
  refine live_sound h hs (fun s hs => isumIfDue_sound (mask_mono hp rfl) _ hs) (bit_clear hp rfl)

theorem execPwCtlRun_sound (hp : ms &&& 0x8080004001 = 0) (run : Bool) (s u : State) (h : execPwCtlRun run s = .next u)
    (hs : s.Sound ms sa) : u.Sound ms sa := by
  refine live_sound h hs (fun s hs => pwRunWrite_sound (mask_mono hp rfl) _ _ hs) (bit_clear hp rfl)

theorem execEdgeLate_sound (hp : ms &&& 0x1008C2008009 = 0) (s u : State) (h : execEdgeLate s = .next u)
    (hs : s.Sound ms sa) : u.Sound ms sa := by
  refine live_sound h hs (fun s hs => edgeLateIfDue_sound (mask_mono hp rfl) _ hs) (bit_clear hp rfl)

theorem execVsCompensationDropped_sound (hp : ms &&& 0x8080008001 = 0) (s u : State) (h : execVsCompensationDropped s = .next u)
    (hs : s.Sound ms sa) : u.Sound ms sa := by
  refine live_sound h hs (fun s hs => vsDropIfDue_sound (mask_mono hp rfl) _ hs) (bit_clear hp rfl)

theorem execSetpointApply_sound (hp : ms &&& 0x80000800 = 0) (s u : State) (h : execSetpointApply s = .next u)
    (hs : s.Sound ms sa) : u.Sound ms sa := by
  refine live_sound h hs (fun s hs => setpointApply_sound (mask_mono hp rfl) _ hs) (bit_clear hp rfl)

theorem execLeverStale_sound (hp : ms &&& 0x100882000809 = 0) (s u : State) (h : execLeverStale s = .next u)
    (hs : s.Sound ms sa) : u.Sound ms sa := by
  refine live_sound h hs (fun s hs => leverStaleIfDue_sound (mask_mono hp rfl) _ hs) (bit_clear hp rfl)

theorem execTensionSrc_sound (hp : ms &&& 0x100882000809 = 0) (s u : State) (h : execTensionSrc s = .next u)
    (hs : s.Sound ms sa) : u.Sound ms sa := by
  refine live_sound h hs (fun s hs => tensionSrcIfDue_sound (mask_mono hp rfl) _ hs) (bit_clear hp rfl)

theorem execShockClear_sound (hp : ms &&& 0x20042080001001 = 0) (s u : State) (h : execShockClear s = .next u)
    (hs : s.Sound ms sa) : u.Sound ms sa := by
  refine live_sound h hs (fun s hs => shockClearIfDue_sound (mask_mono hp rfl) _ hs) (bit_clear hp rfl)

theorem execHeaveStale_sound (hp : ms &&& 0x100882000809 = 0) (s u : State) (h : execHeaveStale s = .next u)
    (hs : s.Sound ms sa) : u.Sound ms sa := by
  refine live_sound h hs (fun s hs => heaveStaleIfDue_sound (mask_mono hp rfl) _ hs) (bit_clear hp rfl)

theorem execBankSwapEffect_sound (hp : ms &&& 0x20002080000089 = 0) (s u : State) (h : execBankSwapEffect s = .next u)
    (hs : s.Sound ms sa) : u.Sound ms sa := by
  exact live_sound h hs (fun s hs => drainStaging_sound (mask_mono hp rfl) _ (bankSwapIfDue_sound (mask_mono hp rfl) _ hs)) (bit_clear hp rfl)

theorem execFluxBuildEnd_sound (hp : ms &&& 0x2014A8C2047089 = 0) (s u : State) (h : execFluxBuildEnd s = .next u)
    (hs : s.Sound ms sa) : u.Sound ms sa := by
  refine live_sound h hs (fun s hs => fluxBuildEndIfDue_sound (mask_mono hp rfl) _ hs) (bit_clear hp rfl)

theorem execFluxTimeout_sound (hp : ms &&& 0x2010A8C2005089 = 0) (s u : State) (h : execFluxTimeout s = .next u)
    (hs : s.Sound ms sa) : u.Sound ms sa := by
  refine live_sound h hs (fun s hs => fluxTimeoutIfDue_sound (mask_mono hp rfl) _ hs) (bit_clear hp rfl)

theorem execStartComplete_sound (hp : ms &&& 0x200020C0000001 = 0) (s u : State) (h : execStartComplete s = .next u)
    (hs : s.Sound ms sa) : u.Sound ms sa := by
  refine live_sound h hs (fun s hs => startCompleteIfDue_sound (mask_mono hp rfl) _ hs) (bit_clear hp rfl)

theorem execEnable_sound (hp : ms &&& 0x2013A8C2544089 = 0) (s u : State) (h : execEnable s = .next u)
    (hs : s.Sound ms sa) : u.Sound ms sa := by
  refine live_sound h hs (fun s hs => request_sound (mask_mono hp rfl) _ _ _ _ hs) (bit_clear hp rfl)

theorem execDisable_sound (hp : ms &&& 0x2013A8C2544089 = 0) (s u : State) (h : execDisable s = .next u)
    (hs : s.Sound ms sa) : u.Sound ms sa := by
  refine live_sound h hs (fun s hs => request_sound (mask_mono hp rfl) _ _ _ _ hs) (bit_clear hp rfl)

theorem execStart_sound (hp : ms &&& 0x2013A8C2544089 = 0) (mode : Fin 8) (s u : State) (h : execStart mode s = .next u)
    (hs : s.Sound ms sa) : u.Sound ms sa := by
  refine live_sound h hs (fun s hs => request_sound (mask_mono hp rfl) _ _ _ _ hs) (bit_clear hp rfl)

theorem execStop_sound (hp : ms &&& 0x2013A8C2544089 = 0) (s u : State) (h : execStop s = .next u)
    (hs : s.Sound ms sa) : u.Sound ms sa := by
  refine live_sound h hs (fun s hs => request_sound (mask_mono hp rfl) _ _ _ _ hs) (bit_clear hp rfl)

theorem execEmergency_sound (hp : ms &&& 0x2013A8C2544089 = 0) (sub : Fin 8) (s u : State) (h : execEmergency sub s = .next u)
    (hs : s.Sound ms sa) : u.Sound ms sa := by
  refine live_sound h hs (fun s hs => request_sound (mask_mono hp rfl) _ _ _ _ hs) (bit_clear hp rfl)

theorem execMode_sound (hp : ms &&& 0x2013A8C2544089 = 0) (mode : Fin 8) (s u : State) (h : execMode mode s = .next u)
    (hs : s.Sound ms sa) : u.Sound ms sa := by
  refine live_sound h hs (fun s hs => request_sound (mask_mono hp rfl) _ _ _ _ hs) (bit_clear hp rfl)

theorem execReset_sound (hp : ms &&& 0x2013A8C2544089 = 0) (s u : State) (h : execReset s = .next u)
    (hs : s.Sound ms sa) : u.Sound ms sa := by
  refine live_sound h hs (fun s hs => request_sound (mask_mono hp rfl) _ _ _ _ hs) (bit_clear hp rfl)

theorem execStandstillReached_sound (hp : ms &&& 0x2010A8C2004089 = 0) (s u : State) (h : execStandstillReached s = .next u)
    (hs : s.Sound ms sa) : u.Sound ms sa := by
  refine live_sound h hs (fun s hs => standstillIfDue_sound (mask_mono hp rfl) _ hs) (bit_clear hp rfl)

theorem execBrakeSetConfirmed_sound (hp : ms &&& 0x200020C0000001 = 0) (s u : State) (h : execBrakeSetConfirmed s = .next u)
    (hs : s.Sound ms sa) : u.Sound ms sa := by
  refine live_sound h hs (fun s hs => brakeSetConfirmedIfDue_sound (mask_mono hp rfl) _ hs) (bit_clear hp rfl)

theorem execTaperComplete_sound (hp : ms &&& 0x2010A8C2004089 = 0) (s u : State) (h : execTaperComplete s = .next u)
    (hs : s.Sound ms sa) : u.Sound ms sa := by
  refine live_sound h hs (fun s hs => taperCompleteIfDue_sound (mask_mono hp rfl) _ hs) (bit_clear hp rfl)

theorem execBrakeReleased_sound (hp : ms &&& 0x200020C0000001 = 0) (s u : State) (h : execBrakeReleased s = .next u)
    (hs : s.Sound ms sa) : u.Sound ms sa := by
  refine live_sound h hs (fun s hs => brakeReleasedIfDue_sound (mask_mono hp rfl) _ hs) (bit_clear hp rfl)

theorem execBrakeFail_sound (hp : ms &&& 0x2010A8C2004089 = 0) (s u : State) (h : execBrakeFail s = .next u)
    (hs : s.Sound ms sa) : u.Sound ms sa := by
  refine live_sound h hs (fun s hs => brakeFailIfDue_sound (mask_mono hp rfl) _ hs) (bit_clear hp rfl)

theorem execErtmo_sound (hp : ms &&& 0x1008C2000009 = 0) (s u : State) (h : execErtmo s = .next u)
    (hs : s.Sound ms sa) : u.Sound ms sa := by
  refine live_sound h hs (fun s hs => ertmoIfDue_sound (mask_mono hp rfl) _ hs) (bit_clear hp rfl)

theorem execAscExit_sound (hp : ms &&& 0x2010A8C2004089 = 0) (s u : State) (h : execAscExit s = .next u)
    (hs : s.Sound ms sa) : u.Sound ms sa := by
  refine live_sound h hs (fun s hs => ascExitIfDue_sound (mask_mono hp rfl) _ hs) (bit_clear hp rfl)

theorem execDcUv_sound (hp : ms &&& 0x2010A8C2004089 = 0) (s u : State) (h : execDcUv s = .next u)
    (hs : s.Sound ms sa) : u.Sound ms sa := by
  refine live_sound h hs (fun s hs => dcUvIfDue_sound (mask_mono hp rfl) _ hs) (bit_clear hp rfl)

theorem execDcOv_sound (hp : ms &&& 0x201028C2104009 = 0) (bits : List Bool) (s u : State) (h : execDcOv bits s = .next u)
    (hs : s.Sound ms sa) : u.Sound ms sa := by
  refine live_sound h hs (fun s hs => dcOv_sound (mask_mono hp rfl) _ _ hs) (bit_clear hp rfl)

theorem execChopperFault_sound (hp : ms &&& 0x201028C2010009 = 0) (s u : State) (h : execChopperFault s = .next u)
    (hs : s.Sound ms sa) : u.Sound ms sa := by
  refine live_sound h hs (fun s hs => chopperFaultIfDue_sound (mask_mono hp rfl) _ hs) (bit_clear hp rfl)

theorem execPrechargeDone_sound (hp : ms &&& 0x200120C0004001 = 0) (s u : State) (h : execPrechargeDone s = .next u)
    (hs : s.Sound ms sa) : u.Sound ms sa := by
  refine live_sound h hs (fun s hs => prechargeDoneIfDue_sound (mask_mono hp rfl) _ hs) (bit_clear hp rfl)

theorem execPrechargeTimeout_sound (hp : ms &&& 0x2010A8C2004009 = 0) (s u : State) (h : execPrechargeTimeout s = .next u)
    (hs : s.Sound ms sa) : u.Sound ms sa := by
  refine live_sound h hs (fun s hs => prechargeTimeoutIfDue_sound (mask_mono hp rfl) _ hs) (bit_clear hp rfl)

theorem execGlinkConfig_sound (hp : ms &&& 0x10080004001 = 0) (c : Fin 7) (ok : Bool) (s u : State) (h : execGlinkConfig c ok s = .next u)
    (hs : s.Sound ms sa) : u.Sound ms sa := by
  refine live_sound h hs (fun s hs => glinkConfig_sound (mask_mono hp rfl) _ _ _ hs) (bit_clear hp rfl)

theorem execConfigResend_sound (hp : ms &&& 0x10080004001 = 0) (c : Fin 7) (s u : State) (h : execConfigResend c s = .next u)
    (hs : s.Sound ms sa) : u.Sound ms sa := by
  refine live_sound h hs (fun s hs => configResend_sound (mask_mono hp rfl) _ _ hs) (bit_clear hp rfl)

theorem execGlinkSync_sound (hp : ms &&& 0x10280004001 = 0) (c : Fin 7) (ok : Bool) (t : SyncTiming) (s u : State) (h : execGlinkSync c ok t s = .next u)
    (hs : s.Sound ms sa) : u.Sound ms sa := by
  refine live_sound h hs (fun s hs => glinkSync_sound (mask_mono hp rfl) _ _ _ _ _ _ hs) (bit_clear hp rfl)

theorem execLock_sound (hp : ms &&& 0x10080004001 = 0) (c : Fin 7) (s u : State) (h : execLock c s = .next u)
    (hs : s.Sound ms sa) : u.Sound ms sa := by
  refine live_sound h hs (fun s hs => lockIfDue_sound (mask_mono hp rfl) _ _ hs) (bit_clear hp rfl)

theorem execGlinkLoop_sound (hp : ms &&& 0x10280004001 = 0) (c : Fin 7) (tag : Option Byte) (roundTrip : Nat) (s u : State) (h : execGlinkLoop c tag roundTrip s = .next u)
    (hs : s.Sound ms sa) : u.Sound ms sa := by
  refine live_sound h hs (fun s hs => glinkLoop_sound (mask_mono hp rfl) _ _ _ _ hs) (bit_clear hp rfl)

theorem execStage_sound (hp : ms &&& 0x10080004001 = 0) (c : Fin 7) (ok : Bool) (s u : State) (h : execStage c ok s = .next u)
    (hs : s.Sound ms sa) : u.Sound ms sa := by
  refine live_sound h hs (fun s hs => stageArrives_sound (mask_mono hp rfl) _ _ _ hs) (bit_clear hp rfl)

theorem execCommit_sound (hp : ms &&& 0x1189C200C029 = 0) (c : Fin 7) (ok : Bool) (s u : State) (h : execCommit c ok s = .next u)
    (hs : s.Sound ms sa) : u.Sound ms sa := by
  refine live_sound h hs (fun s hs => commitArrives_sound (mask_mono hp rfl) _ _ _ hs) (bit_clear hp rfl)

theorem execAck_sound (hp : ms &&& 0x10080004001 = 0) (c : Fin 7) (ok : Bool) (s u : State) (h : execAck c ok s = .next u)
    (hs : s.Sound ms sa) : u.Sound ms sa := by
  refine live_sound h hs (fun s hs => ackArrives_sound (mask_mono hp rfl) _ _ _ hs) (bit_clear hp rfl)

theorem execStatus_sound (hp : ms &&& 0x1109C2004009 = 0) (c : Fin 7) (ok : Bool) (s u : State) (h : execStatus c ok s = .next u)
    (hs : s.Sound ms sa) : u.Sound ms sa := by
  refine live_sound h hs (fun s hs => statusArrives_sound (mask_mono hp rfl) _ _ _ hs) (bit_clear hp rfl)

theorem execTel_sound (hp : ms &&& 0x110880804009 = 0) (c : Fin 7) (ok : Bool) (s u : State) (h : execTel c ok s = .next u)
    (hs : s.Sound ms sa) : u.Sound ms sa := by
  refine live_sound h hs (fun s hs => telArrives_sound (mask_mono hp rfl) _ _ _ hs) (bit_clear hp rfl)

theorem execDiagres_sound (hp : ms &&& 0x10080004001 = 0) (c : Fin 7) (mv : Nat) (frame : DiagFrame) (s u : State) (h : execDiagres c mv frame s = .next u)
    (hs : s.Sound ms sa) : u.Sound ms sa := by
  refine live_sound h hs (fun s hs => diagResult_sound (mask_mono hp rfl) _ _ _ _ hs) (bit_clear hp rfl)

theorem execPeriodic_sound (hp : ms &&& 0x80004000 = 0) (c : Fin 7) (pos : BitVec 16) (neg : BitVec 16) (temp : BitVec 16) (s u : State) (h : execPeriodic c pos neg temp s = .next u)
    (hs : s.Sound ms sa) : u.Sound ms sa := by
  refine live_sound h hs (fun s hs => periodicRecord_sound (mask_mono hp rfl) _ _ _ _ _ hs) (bit_clear hp rfl)

theorem execLinkLatch_sound (hp : ms &&& 0x1109C2004009 = 0) (c : Fin 7) (uplink : Bool) (s u : State) (h : execLinkLatch c uplink s = .next u)
    (hs : s.Sound ms sa) : u.Sound ms sa := by
  refine live_sound h hs (fun s hs => linkLatch_sound (mask_mono hp rfl) _ _ _ hs) (bit_clear hp rfl)

theorem execOncmd_sound (hp : ms &&& 0x10080004001 = 0) (c : Fin 7) (s u : State) (h : execOncmd c s = .next u)
    (hs : s.Sound ms sa) : u.Sound ms sa := by
  refine live_sound h hs (fun s hs => oncmd_sound (mask_mono hp rfl) _ _ hs) (bit_clear hp rfl)

theorem execVgeon_sound (hp : ms &&& 0x10080004001 = 0) (c : Fin 7) (level : Bool) (s u : State) (h : execVgeon c level s = .next u)
    (hs : s.Sound ms sa) : u.Sound ms sa := by
  refine live_sound h hs (fun s hs => vgeon_sound (mask_mono hp rfl) _ _ _ hs) (bit_clear hp rfl)

theorem execPermit_sound (hp : ms &&& 0x10080004021 = 0) (c : Fin 7) (s u : State) (h : execPermit c s = .next u)
    (hs : s.Sound ms sa) : u.Sound ms sa := by
  refine live_sound h hs (fun s hs => permitRaise_sound (mask_mono hp rfl) _ _ hs) (bit_clear hp rfl)

theorem execOffcmd_sound (hp : ms &&& 0x80004000 = 0) (c : Fin 7) (s u : State) (h : execOffcmd c s = .next u)
    (hs : s.Sound ms sa) : u.Sound ms sa := by
  refine live_sound h hs (fun s hs => offcmd_sound (mask_mono hp rfl) _ _ hs) (bit_clear hp rfl)

theorem execArmedEdgeActs_sound (hp : ms &&& 0x1188C200C029 = 0) (c : Fin 7) (s u : State) (h : execArmedEdgeActs c s = .next u)
    (hs : s.Sound ms sa) : u.Sound ms sa := by
  refine live_sound h hs (fun s hs => armedEdgeActs_sound (mask_mono hp rfl) _ _ hs) (bit_clear hp rfl)

theorem execTurnOnDrop_sound (hp : ms &&& 0x10080004001 = 0) (c : Fin 7) (s u : State) (h : execTurnOnDrop c s = .next u)
    (hs : s.Sound ms sa) : u.Sound ms sa := by
  refine live_sound h hs (fun s hs => turnOnDropIfDue_sound (mask_mono hp rfl) _ _ hs) (bit_clear hp rfl)

theorem execShootAttempt_sound (hp : ms &&& 0x80004000 = 0) (leg : Fin 3) (s u : State) (h : execShootAttempt leg s = .next u)
    (hs : s.Sound ms sa) : u.Sound ms sa := by
  refine live_sound h hs (fun s hs => shootAttempt_sound (mask_mono hp rfl) _ _ hs) (bit_clear hp rfl)

theorem execDesat_sound (hp : ms &&& 0x180004000 = 0) (c : Fin 7) (s u : State) (h : execDesat c s = .next u)
    (hs : s.Sound ms sa) : u.Sound ms sa := by
  refine live_sound h hs (fun s hs => desat_sound (mask_mono hp rfl) _ _ hs) (bit_clear hp rfl)

theorem execUvlo_sound (hp : ms &&& 0x80004000 = 0) (c : Fin 7) (negative : Bool) (trip : Bool) (s u : State) (h : execUvlo c negative trip s = .next u)
    (hs : s.Sound ms sa) : u.Sound ms sa := by
  refine live_sound h hs (fun s hs => uvlo_sound (mask_mono hp rfl) _ _ _ _ hs) (bit_clear hp rfl)

theorem execBswarn_sound (hp : ms &&& 0x80004000 = 0) (leg : Fin 3) (level : Bool) (s u : State) (h : execBswarn leg level s = .next u)
    (hs : s.Sound ms sa) : u.Sound ms sa := by
  refine live_sound h hs (fun s hs => bswarn_sound (mask_mono hp rfl) _ _ _ hs) (bit_clear hp rfl)

theorem execRefreshPulseInsert_sound (hp : ms &&& 0x10080004001 = 0) (r : RefreshFrames) (s u : State) (h : execRefreshPulseInsert r s = .next u)
    (hs : s.Sound ms sa) : u.Sound ms sa := by
  refine live_sound h hs (fun s hs => refreshInsert_sound (mask_mono hp rfl) _ _ _ _ hs) (bit_clear hp rfl)

theorem execRefreshPulseComplete_sound (hp : ms &&& 0x10080004001 = 0) (leg : Fin 3) (s u : State) (h : execRefreshPulseComplete leg s = .next u)
    (hs : s.Sound ms sa) : u.Sound ms sa := by
  refine live_sound h hs (fun s hs => refreshComplete_sound (mask_mono hp rfl) _ _ hs) (bit_clear hp rfl)

theorem execGateEnLow_sound (hp : ms &&& 0x80004000 = 0) (c : Fin 7) (s u : State) (h : execGateEnLow c s = .next u)
    (hs : s.Sound ms sa) : u.Sound ms sa := by
  refine live_sound h hs (fun s hs => gateEnLow_sound (mask_mono hp rfl) _ _ hs) (bit_clear hp rfl)

theorem execGateEnRise_sound (hp : ms &&& 0x10080004001 = 0) (c : Fin 7) (s u : State) (h : execGateEnRise c s = .next u)
    (hs : s.Sound ms sa) : u.Sound ms sa := by
  refine live_sound h hs (fun s hs => gateEnRise_sound (mask_mono hp rfl) _ _ hs) (bit_clear hp rfl)

theorem execDiagCtlGo_sound (hp : ms &&& 0x10080004001 = 0) (load : Bool) (s u : State) (h : execDiagCtlGo load s = .next u)
    (hs : s.Sound ms sa) : u.Sound ms sa := by
  exact live_sound h hs (fun s hs => diagGo_sound (mask_mono hp rfl) _ (State.wr_sound (mask_mono hp rfl) _ _ _ (addrOutside0 (mask_mono hp rfl)) hs)) (bit_clear hp rfl)

theorem execOffstateDiagStep_sound (hp : ms &&& 0x1108C2004009 = 0) (s u : State) (h : execOffstateDiagStep s = .next u)
    (hs : s.Sound ms sa) : u.Sound ms sa := by
  refine live_sound h hs (fun s hs => diagStep_sound (mask_mono hp rfl) _ hs) (bit_clear hp rfl)

theorem execAuxOv_sound (hp : ms &&& 0x1100882000019 = 0) (vin : BitVec 16) (vhb : BitVec 16) (s u : State) (h : execAuxOv vin vhb s = .next u)
    (hs : s.Sound ms sa) : u.Sound ms sa := by
  refine live_sound h hs (fun s hs => auxOv_sound (mask_mono hp rfl) _ _ _ hs) (bit_clear hp rfl)

theorem execSwitchReclose_sound (hp : ms &&& 0x1000080000011 = 0) (vin : BitVec 16) (vhb : BitVec 16) (s u : State) (h : execSwitchReclose vin vhb s = .next u)
    (hs : s.Sound ms sa) : u.Sound ms sa := by
  refine live_sound h hs (fun s hs => switchReclose_sound (mask_mono hp rfl) _ _ _ hs) (bit_clear hp rfl)

theorem execFbCtlEn_sound (hp : ms &&& 0x1208C2040009 = 0) (on : Bool) (s u : State) (h : execFbCtlEn on s = .next u)
    (hs : s.Sound ms sa) : u.Sound ms sa := by
  refine live_sound h hs (fun s hs => fbEnWrite_sound (mask_mono hp rfl) _ _ hs) (bit_clear hp rfl)

theorem execFbCtlCorr_sound (hp : ms &&& 0x80040000 = 0) (s u : State) (h : execFbCtlCorr s = .next u)
    (hs : s.Sound ms sa) : u.Sound ms sa := by
  refine live_sound h hs (fun s hs => fbCorrect_sound (mask_mono hp rfl) _ hs) (bit_clear hp rfl)

theorem execFbCtlUsepri_sound (hp : ms &&& 0x20080040001 = 0) (s u : State) (h : execFbCtlUsepri s = .next u)
    (hs : s.Sound ms sa) : u.Sound ms sa := by
  refine live_sound h hs (fun s hs => fbUsePri_sound (mask_mono hp rfl) _ hs) (bit_clear hp rfl)

theorem execEncoderEdge_sound (hp : ms &&& 0x1208C2040009 = 0) (a : Bool) (b : Bool) (s u : State) (h : execEncoderEdge a b s = .next u)
    (hs : s.Sound ms sa) : u.Sound ms sa := by
  refine live_sound h hs (fun s hs => encoderEdge_sound (mask_mono hp rfl) _ _ _ hs) (bit_clear hp rfl)

theorem execIndexLatch_sound (hp : ms &&& 0x1208C2040029 = 0) (z : Bool) (s u : State) (h : execIndexLatch z s = .next u)
    (hs : s.Sound ms sa) : u.Sound ms sa := by
  refine live_sound h hs (fun s hs => indexLatch_sound (mask_mono hp rfl) _ _ hs) (bit_clear hp rfl)

theorem execIndexMiss_sound (hp : ms &&& 0x1208C2040009 = 0) (s u : State) (h : execIndexMiss s = .next u)
    (hs : s.Sound ms sa) : u.Sound ms sa := by
  refine live_sound h hs (fun s hs => indexMissIfDue_sound (mask_mono hp rfl) _ hs) (bit_clear hp rfl)

theorem execLineFault_sound (hp : ms &&& 0x1208C2040009 = 0) (pair : Fin 3) (present : Bool) (s u : State) (h : execLineFault pair present s = .next u)
    (hs : s.Sound ms sa) : u.Sound ms sa := by
  refine live_sound h hs (fun s hs => lineFault_sound (mask_mono hp rfl) _ _ _ hs) (bit_clear hp rfl)

theorem execSincosSample_sound (hp : ms &&& 0x1208C2040029 = 0) (sin : BitVec 16) (cos : BitVec 16) (s u : State) (h : execSincosSample sin cos s = .next u)
    (hs : s.Sound ms sa) : u.Sound ms sa := by
  refine live_sound h hs (fun s hs => sincosSample_sound (mask_mono hp rfl) _ _ _ hs) (bit_clear hp rfl)

theorem execResolverSample_sound (hp : ms &&& 0x1208C2040029 = 0) (sin : BitVec 16) (cos : BitVec 16) (excOk : Bool) (s u : State) (h : execResolverSample sin cos excOk s = .next u)
    (hs : s.Sound ms sa) : u.Sound ms sa := by
  refine live_sound h hs (fun s hs => resolverSample_sound (mask_mono hp rfl) _ _ _ _ hs) (bit_clear hp rfl)

theorem execSsiFrame_sound (hp : ms &&& 0x1208C2040029 = 0) (bits : List Bool) (s u : State) (h : execSsiFrame bits s = .next u)
    (hs : s.Sound ms sa) : u.Sound ms sa := by
  refine live_sound h hs (fun s hs => ssiFrame_sound (mask_mono hp rfl) _ _ hs) (bit_clear hp rfl)

theorem execHallTransition_sound (hp : ms &&& 0x1208C2040009 = 0) (code : Fin 8) (s u : State) (h : execHallTransition code s = .next u)
    (hs : s.Sound ms sa) : u.Sound ms sa := by
  refine live_sound h hs (fun s hs => hallTransition_sound (mask_mono hp rfl) _ _ hs) (bit_clear hp rfl)

theorem execHallTimeout_sound (hp : ms &&& 0x80040000 = 0) (s u : State) (h : execHallTimeout s = .next u)
    (hs : s.Sound ms sa) : u.Sound ms sa := by
  refine live_sound h hs (fun s hs => hallTimeoutIfDue_sound (mask_mono hp rfl) _ hs) (bit_clear hp rfl)

theorem execSourceValid_sound (hp : ms &&& 0x80040000 = 0) (source : Fin 5) (s u : State) (h : execSourceValid source s = .next u)
    (hs : s.Sound ms sa) : u.Sound ms sa := by
  refine live_sound h hs (fun s hs => sourceValidIfDue_sound (mask_mono hp rfl) _ _ hs) (bit_clear hp rfl)

theorem execEncoderEmulationEdge_sound (hp : ms &&& 0x20080040021 = 0) (s u : State) (h : execEncoderEmulationEdge s = .next u)
    (hs : s.Sound ms sa) : u.Sound ms sa := by
  refine live_sound h hs (fun s hs => emulationEdge_sound (mask_mono hp rfl) _ hs) (bit_clear hp rfl)

theorem execShare_sound (hp : ms &&& 0x140880400009 = 0) (p : Fin 4) (cell : List Byte) (s u : State) (h : execShare p cell s = .next u)
    (hs : s.Sound ms sa) : u.Sound ms sa := by
  refine live_sound h hs (fun s hs => shareArrives_sound (mask_mono hp rfl) _ _ _ hs) (bit_clear hp rfl)

theorem execContrib_sound (hp : ms &&& 0x140880400009 = 0) (p : Fin 4) (cell : List Byte) (s u : State) (h : execContrib p cell s = .next u)
    (hs : s.Sound ms sa) : u.Sound ms sa := by
  refine live_sound h hs (fun s hs => contribArrives_sound (mask_mono hp rfl) _ _ _ hs) (bit_clear hp rfl)

theorem execSync_sound (hp : ms &&& 0x140D82400029 = 0) (p : Fin 4) (cell : TimedCell) (tb period corr : Nat) (root : SyncRoot) (s u : State) (h : execSync p cell tb period corr root s = .next u)
    (hs : s.Sound ms sa) : u.Sound ms sa := by
  refine live_sound h hs (fun s hs => syncArrives_sound (mask_mono hp rfl) _ _ _ _ _ hs) (bit_clear hp rfl)

theorem execDelayReq_sound (hp : ms &&& 0x40080400001 = 0) (p : Fin 4) (cell : TimedCell) (s u : State) (h : execDelayReq p cell s = .next u)
    (hs : s.Sound ms sa) : u.Sound ms sa := by
  refine live_sound h hs (fun s hs => delayReq_sound (mask_mono hp rfl) _ _ _ _ hs) (bit_clear hp rfl)

theorem execDelayResp_sound (hp : ms &&& 0x40080400001 = 0) (p : Fin 4) (cell : TimedCell) (stay : Nat) (s u : State) (h : execDelayResp p cell stay s = .next u)
    (hs : s.Sound ms sa) : u.Sound ms sa := by
  refine live_sound h hs (fun s hs => delayResp_sound (mask_mono hp rfl) _ _ _ _ _ hs) (bit_clear hp rfl)

theorem execEnum_sound (hp : ms &&& 0x140882400009 = 0) (p : Fin 4) (cell : List Byte) (msg : EnumMsg) (s u : State) (h : execEnum p cell msg s = .next u)
    (hs : s.Sound ms sa) : u.Sound ms sa := by
  refine live_sound h hs (fun s hs => enumArrives_sound (mask_mono hp rfl) _ _ _ _ hs) (bit_clear hp rfl)

theorem execConsist_sound (hp : ms &&& 0x20142882400009 = 0) (p : Fin 4) (cell : List Byte) (msg : ConsistMsg) (s u : State) (h : execConsist p cell msg s = .next u)
    (hs : s.Sound ms sa) : u.Sound ms sa := by
  refine live_sound h hs (fun s hs => consistArrives_sound (mask_mono hp rfl) _ _ _ _ hs) (bit_clear hp rfl)

theorem execNotice_sound (hp : ms &&& 0x201428A2400809 = 0) (p : Fin 4) (cell : List Byte) (s u : State) (h : execNotice p cell s = .next u)
    (hs : s.Sound ms sa) : u.Sound ms sa := by
  refine live_sound h hs (fun s hs => noticeArrives_sound (mask_mono hp rfl) _ _ _ hs) (bit_clear hp rfl)

theorem execMgmt_sound (hp : ms &&& 0x140882400009 = 0) (p : Fin 4) (cell : List Byte) (msg : MgmtMsg) (s u : State) (h : execMgmt p cell msg s = .next u)
    (hs : s.Sound ms sa) : u.Sound ms sa := by
  refine live_sound h hs (fun s hs => mgmtArrives_sound (mask_mono hp rfl) _ _ _ _ hs) (bit_clear hp rfl)

theorem execLinkUp_sound (hp : ms &&& 0x140882400009 = 0) (p : Fin 4) (nbr : BitVec 11) (s u : State) (h : execLinkUp p nbr s = .next u)
    (hs : s.Sound ms sa) : u.Sound ms sa := by
  refine live_sound h hs (fun s hs => linkUp_sound (mask_mono hp rfl) _ _ _ hs) (bit_clear hp rfl)

theorem execLinkDown_sound (hp : ms &&& 0x140882400009 = 0) (p : Fin 4) (los : Bool) (s u : State) (h : execLinkDown p los s = .next u)
    (hs : s.Sound ms sa) : u.Sound ms sa := by
  refine live_sound h hs (fun s hs => linkDown_sound (mask_mono hp rfl) _ _ _ hs) (bit_clear hp rfl)

theorem execBlMtxGo_sound (hp : ms &&& 0x40080400001 = 0) (p : Fin 4) (s u : State) (h : execBlMtxGo p s = .next u)
    (hs : s.Sound ms sa) : u.Sound ms sa := by
  refine live_sound h hs (fun s hs => mtxGo_sound (mask_mono hp rfl) _ _ hs) (bit_clear hp rfl)

theorem execNoshareLaunch_sound (hp : ms &&& 0x40880400029 = 0) (s u : State) (h : execNoshareLaunch s = .next u)
    (hs : s.Sound ms sa) : u.Sound ms sa := by
  refine live_sound h hs (fun s hs => noshareLaunch_sound (mask_mono hp rfl) _ hs) (bit_clear hp rfl)

theorem execHoldover_sound (hp : ms &&& 0x40080400001 = 0) (s u : State) (h : execHoldover s = .next u)
    (hs : s.Sound ms sa) : u.Sound ms sa := by
  refine live_sound h hs (fun s hs => holdoverIfDue_sound (mask_mono hp rfl) _ hs) (bit_clear hp rfl)

theorem execSyncLost_sound (hp : ms &&& 0x140882000009 = 0) (s u : State) (h : execSyncLost s = .next u)
    (hs : s.Sound ms sa) : u.Sound ms sa := by
  refine live_sound h hs (fun s hs => syncLostIfDue_sound (mask_mono hp rfl) _ hs) (bit_clear hp rfl)

theorem execJoin_sound (hp : ms &&& 0x201428E2404089 = 0) (s u : State) (h : execJoin s = .next u)
    (hs : s.Sound ms sa) : u.Sound ms sa := by
  refine live_sound h hs (fun s hs => joinIfDue_sound (mask_mono hp rfl) _ hs) (bit_clear hp rfl)

theorem execRemovalFadeEnd_sound (hp : ms &&& 0x201428A2400809 = 0) (s u : State) (h : execRemovalFadeEnd s = .next u)
    (hs : s.Sound ms sa) : u.Sound ms sa := by
  refine live_sound h hs (fun s hs => removalFadeEndIfDue_sound (mask_mono hp rfl) _ hs) (bit_clear hp rfl)

theorem execMemberDetached_sound (hp : ms &&& 0x201428A2400809 = 0) (s u : State) (h : execMemberDetached s = .next u)
    (hs : s.Sound ms sa) : u.Sound ms sa := by
  refine live_sound h hs (fun s hs => memberDetachedIfDue_sound (mask_mono hp rfl) _ hs) (bit_clear hp rfl)

theorem execDeputyTakeover_sound (hp : ms &&& 0x201428A2401009 = 0) (s u : State) (h : execDeputyTakeover s = .next u)
    (hs : s.Sound ms sa) : u.Sound ms sa := by
  refine live_sound h hs (fun s hs => deputyTakeoverIfDue_sound (mask_mono hp rfl) _ hs) (bit_clear hp rfl)

theorem execTakeover_sound (hp : ms &&& 0x201428A2400809 = 0) (s u : State) (h : execTakeover s = .next u)
    (hs : s.Sound ms sa) : u.Sound ms sa := by
  refine live_sound h hs (fun s hs => takeoverIfDue_sound (mask_mono hp rfl) _ hs) (bit_clear hp rfl)

theorem execMirrorBlock_sound (hp : ms &&& 0x180D82080029 = 0) (b : Machine.PairBlock) (arrival : X7Arrival) (s u : State) (h : execMirrorBlock b arrival s = .next u)
    (hs : s.Sound ms sa) : u.Sound ms sa := by
  refine live_sound h hs (fun s hs => mirrorBlock_sound (mask_mono hp rfl) _ _ _ _ hs) (bit_clear hp rfl)

theorem execAliveIn_sound (hp : ms &&& 0x80080000 = 0) (level : Bool) (s u : State) (h : execAliveIn level s = .next u)
    (hs : s.Sound ms sa) : u.Sound ms sa := by
  refine live_sound h hs (fun s hs => aliveInput_sound (mask_mono hp rfl) _ _ hs) (bit_clear hp rfl)

theorem execChgIn_sound (hp : ms &&& 0x80080080001 = 0) (level : Bool) (s u : State) (h : execChgIn level s = .next u)
    (hs : s.Sound ms sa) : u.Sound ms sa := by
  refine live_sound h hs (fun s hs => chgInput_sound (mask_mono hp rfl) _ _ hs) (bit_clear hp rfl)

theorem execPartnerLost_sound (hp : ms &&& 0x2018A8C2084089 = 0) (s u : State) (h : execPartnerLost s = .next u)
    (hs : s.Sound ms sa) : u.Sound ms sa := by
  exact live_sound h hs (fun s hs => partnerLostIfDue_sound (mask_mono hp rfl) _ _ hs) (bit_clear hp rfl)

theorem execPartnerRelease_sound (hp : ms &&& 0x2018A8C2084089 = 0) (s u : State) (h : execPartnerRelease s = .next u)
    (hs : s.Sound ms sa) : u.Sound ms sa := by
  exact live_sound h hs (fun s hs => partnerReleaseIfDue_sound (mask_mono hp rfl) _ _ hs) (bit_clear hp rfl)

theorem execMirrorLost_sound (hp : ms &&& 0x180882080009 = 0) (s u : State) (h : execMirrorLost s = .next u)
    (hs : s.Sound ms sa) : u.Sound ms sa := by
  refine live_sound h hs (fun s hs => mirrorLostIfDue_sound (mask_mono hp rfl) _ hs) (bit_clear hp rfl)

theorem execAliveLost_sound (hp : ms &&& 0x180882000009 = 0) (s u : State) (h : execAliveLost s = .next u)
    (hs : s.Sound ms sa) : u.Sound ms sa := by
  refine live_sound h hs (fun s hs => aliveLostIfDue_sound (mask_mono hp rfl) _ hs) (bit_clear hp rfl)

theorem execSynced_sound (hp : ms &&& 0x80080000001 = 0) (s u : State) (h : execSynced s = .next u)
    (hs : s.Sound ms sa) : u.Sound ms sa := by
  refine live_sound h hs (fun s hs => syncedIfDue_sound (mask_mono hp rfl) _ hs) (bit_clear hp rfl)

theorem execChgOwnAssert_sound (hp : ms &&& 0x2018A0C0084081 = 0) (s u : State) (h : execChgOwnAssert s = .next u)
    (hs : s.Sound ms sa) : u.Sound ms sa := by
  refine live_sound h hs (fun s hs => chgOwnAssertIfDue_sound (mask_mono hp rfl) _ hs) (bit_clear hp rfl)

theorem execPairFb_sound (hp : ms &&& 0x100882080009 = 0) (s u : State) (h : execPairFb s = .next u)
    (hs : s.Sound ms sa) : u.Sound ms sa := by
  refine live_sound h hs (fun s hs => pairFbIfDue_sound (mask_mono hp rfl) _ hs) (bit_clear hp rfl)

theorem execPairJoin_sound (hp : ms &&& 0x80080000 = 0) (s u : State) (h : execPairJoin s = .next u)
    (hs : s.Sound ms sa) : u.Sound ms sa := by
  refine live_sound h hs (fun s hs => pairJoinIfDue_sound (mask_mono hp rfl) _ hs) (bit_clear hp rfl)

theorem execPmCfgEn_sound (hp : ms &&& 0x80080084009 = 0) (on : Bool) (s u : State) (h : execPmCfgEn on s = .next u)
    (hs : s.Sound ms sa) : u.Sound ms sa := by
  refine live_sound h hs (fun s hs => pmCfgEn_sound (mask_mono hp rfl) _ _ hs) (bit_clear hp rfl)

theorem execPmCtlRelease_sound (hp : ms &&& 0x80080084001 = 0) (s u : State) (h : execPmCtlRelease s = .next u)
    (hs : s.Sound ms sa) : u.Sound ms sa := by
  refine live_sound h hs (fun s hs => pmRelease_sound (mask_mono hp rfl) _ hs) (bit_clear hp rfl)

theorem execPmCtlEngage_sound (hp : ms &&& 0x88080084001 = 0) (s u : State) (h : execPmCtlEngage s = .next u)
    (hs : s.Sound ms sa) : u.Sound ms sa := by
  refine live_sound h hs (fun s hs => pmEngage_sound (mask_mono hp rfl) _ hs) (bit_clear hp rfl)

theorem execFirmwareSwap_sound (hp : ms &&& 0x8800289080001 = 0) (s u : State) (h : execFirmwareSwap s = .next u)
    (hs : s.Sound ms sa) : u.Sound ms sa := by
  refine live_sound h hs (fun s hs => firmwareSwapIfDue_sound (mask_mono hp rfl) _ hs) (bit_clear hp rfl)

theorem execSafetyInputChange_sound (hp : ms &&& 0x1008C2104009 = 0) (input : Fin 6) (level : Bool) (s u : State) (h : execSafetyInputChange input level s = .next u)
    (hs : s.Sound ms sa) : u.Sound ms sa := by
  refine live_sound h hs (fun s hs => safetyInputChange_sound (mask_mono hp rfl) _ _ _ hs) (bit_clear hp rfl)

theorem execStoOff_sound (hp : ms &&& 0x100882004009 = 0) (s u : State) (h : execStoOff s = .next u)
    (hs : s.Sound ms sa) : u.Sound ms sa := by
  refine live_sound h hs (fun s hs => stoOffIfDue_sound (mask_mono hp rfl) _ hs) (bit_clear hp rfl)

theorem execSupply_sound (hp : ms &&& 0x100882104009 = 0) (railUp : Bool) (s u : State) (h : execSupply railUp s = .next u)
    (hs : s.Sound ms sa) : u.Sound ms sa := by
  refine live_sound h hs (fun s hs => supplyCheck_sound (mask_mono hp rfl) _ _ hs) (bit_clear hp rfl)

theorem execInputTest_sound (hp : ms &&& 0x100882104009 = 0) (follows : Bool) (s u : State) (h : execInputTest follows s = .next u)
    (hs : s.Sound ms sa) : u.Sound ms sa := by
  refine live_sound h hs (fun s hs => inputTest_sound (mask_mono hp rfl) _ _ hs) (bit_clear hp rfl)

theorem execGenRb_sound (hp : ms &&& 0x100882104009 = 0) (readback : Option (Fin 7)) (s u : State) (h : execGenRb readback s = .next u)
    (hs : s.Sound ms sa) : u.Sound ms sa := by
  refine live_sound h hs (fun s hs => genRb_sound (mask_mono hp rfl) _ _ hs) (bit_clear hp rfl)

theorem execSoutTest_sound (hp : ms &&& 0x100882104009 = 0) (pulse : Bool) (follows : Bool) (s u : State) (h : execSoutTest pulse follows s = .next u)
    (hs : s.Sound ms sa) : u.Sound ms sa := by
  refine live_sound h hs (fun s hs => soutTest_sound (mask_mono hp rfl) _ _ _ hs) (bit_clear hp rfl)

theorem execSs1End_sound (hp : ms &&& 0x100080100001 = 0) (s u : State) (h : execSs1End s = .next u)
    (hs : s.Sound ms sa) : u.Sound ms sa := by
  refine live_sound h hs (fun s hs => ss1EndIfDue_sound (mask_mono hp rfl) _ hs) (bit_clear hp rfl)

theorem execSpdDisc_sound (hp : ms &&& 0x100882104009 = 0) (s u : State) (h : execSpdDisc s = .next u)
    (hs : s.Sound ms sa) : u.Sound ms sa := by
  refine live_sound h hs (fun s hs => spdDiscIfDue_sound (mask_mono hp rfl) _ hs) (bit_clear hp rfl)

theorem execSbSelf_sound (hp : ms &&& 0x100882104009 = 0) (pass : Bool) (s u : State) (h : execSbSelf pass s = .next u)
    (hs : s.Sound ms sa) : u.Sound ms sa := by
  refine live_sound h hs (fun s hs => sbSelf_sound (mask_mono hp rfl) _ _ hs) (bit_clear hp rfl)

theorem execCfgCrc_sound (hp : ms &&& 0x100882104009 = 0) (s u : State) (h : execCfgCrc s = .next u)
    (hs : s.Sound ms sa) : u.Sound ms sa := by
  refine live_sound h hs (fun s hs => cfgCrc_sound (mask_mono hp rfl) _ hs) (bit_clear hp rfl)

theorem execLockoutExit_sound (hp : ms &&& 0x2100883104009 = 0) (selfOk : Bool) (inputsOk : Bool) (s u : State) (h : execLockoutExit selfOk inputsOk s = .next u)
    (hs : s.Sound ms sa) : u.Sound ms sa := by
  exact live_sound h hs (fun s hs => lockoutSave_sound (mask_mono hp rfl) _ (lockoutExit_sound (mask_mono hp rfl) _ _ _ hs)) (bit_clear hp rfl)

theorem execTokenFrame_sound (hp : ms &&& 0x1000C0100001 = 0) (s u : State) (h : execTokenFrame s = .next u)
    (hs : s.Sound ms sa) : u.Sound ms sa := by
  refine live_sound h hs (fun s hs => tokenFrameIfDue_sound (mask_mono hp rfl) _ hs) (bit_clear hp rfl)

theorem execTokenTmo_sound (hp : ms &&& 0x1008C2104009 = 0) (s u : State) (h : execTokenTmo s = .next u)
    (hs : s.Sound ms sa) : u.Sound ms sa := by
  refine live_sound h hs (fun s hs => tokenTmoIfDue_sound (mask_mono hp rfl) _ hs) (bit_clear hp rfl)

theorem execTokTxRead_sound (hp : ms &&& 0x100080000001 = 0) (t : Fin 2) (s u : State) (h : execTokTxRead t s = .next u)
    (hs : s.Sound ms sa) : u.Sound ms sa := by
  refine live_sound h hs (fun s hs => tokTxRead_sound (mask_mono hp rfl) _ _ hs) (bit_clear hp rfl)

theorem execStoTestDue_sound (hp : ms &&& 0x100882100009 = 0) (s u : State) (h : execStoTestDue s = .next u)
    (hs : s.Sound ms sa) : u.Sound ms sa := by
  refine live_sound h hs (fun s hs => stoTestDueIfDue_sound (mask_mono hp rfl) _ hs) (bit_clear hp rfl)

theorem execReqmGateGoff_sound (hp : ms &&& 0x100080004001 = 0) (off : Bool) (s u : State) (h : execReqmGateGoff off s = .next u)
    (hs : s.Sound ms sa) : u.Sound ms sa := by
  refine live_sound h hs (fun s hs => reqmGate_sound (mask_mono hp rfl) _ _ hs) (bit_clear hp rfl)

theorem execMpwd_sound (hp : ms &&& 0x80100000 = 0) (s u : State) (h : execMpwd s = .next u)
    (hs : s.Sound ms sa) : u.Sound ms sa := by
  refine live_sound h hs (fun s hs => mpwdWrite_sound (mask_mono hp rfl) _ hs) (bit_clear hp rfl)

theorem execMpLost_sound (hp : ms &&& 0x14900AF7100089 = 0) (s u : State) (h : execMpLost s = .next u)
    (hs : s.Sound ms sa) : u.Sound ms sa := by
  refine live_sound h hs (fun s hs => mpLostIfDue_sound (mask_mono hp rfl) _ hs) (bit_clear hp rfl)

theorem execCanCtlMode_sound (hp : ms &&& 0x300882200009 = 0) (n : Fin 2) (mode : BitVec 2) (s u : State) (h : execCanCtlMode n mode s = .next u)
    (hs : s.Sound ms sa) : u.Sound ms sa := by
  refine live_sound h hs (fun s hs => canModeWrite_sound (mask_mono hp rfl) _ _ _ hs) (bit_clear hp rfl)

theorem execCanCtlRecover_sound (hp : ms &&& 0x80200000 = 0) (n : Fin 2) (s u : State) (h : execCanCtlRecover n s = .next u)
    (hs : s.Sound ms sa) : u.Sound ms sa := by
  refine live_sound h hs (fun s hs => canRecover_sound (mask_mono hp rfl) _ _ hs) (bit_clear hp rfl)

theorem execCanTxctlReq_sound (hp : ms &&& 0x200080000001 = 0) (n : Fin 2) (buffers : BitVec 3) (s u : State) (h : execCanTxctlReq n buffers s = .next u)
    (hs : s.Sound ms sa) : u.Sound ms sa := by
  refine live_sound h hs (fun s hs => canTxReq_sound (mask_mono hp rfl) _ _ _ hs) (bit_clear hp rfl)

theorem execCanTxctlCancel_sound (hp : ms &&& 0x200080000001 = 0) (n : Fin 2) (buffers : BitVec 3) (s u : State) (h : execCanTxctlCancel n buffers s = .next u)
    (hs : s.Sound ms sa) : u.Sound ms sa := by
  refine live_sound h hs (fun s hs => canTxCancel_sound (mask_mono hp rfl) _ _ _ hs) (bit_clear hp rfl)

theorem execCanFrameValid_sound (hp : ms &&& 0x300982200009 = 0) (n : Fin 2) (frame : CanFrame) (s u : State) (h : execCanFrameValid n frame s = .next u)
    (hs : s.Sound ms sa) : u.Sound ms sa := by
  refine live_sound h hs (fun s hs => canFrameValid_sound (mask_mono hp rfl) _ _ _ hs) (bit_clear hp rfl)

theorem execCanTxStart_sound (hp : ms &&& 0x200080200001 = 0) (n : Fin 2) (tdcv : BitVec 7) (s u : State) (h : execCanTxStart n tdcv s = .next u)
    (hs : s.Sound ms sa) : u.Sound ms sa := by
  refine live_sound h hs (fun s hs => canTxStart_sound (mask_mono hp rfl) _ _ _ hs) (bit_clear hp rfl)

theorem execCanTxEnd_sound (hp : ms &&& 0x300882200009 = 0) (n : Fin 2) (how : CanEnd) (sofAge : Nat) (s u : State) (h : execCanTxEnd n how sofAge s = .next u)
    (hs : s.Sound ms sa) : u.Sound ms sa := by
  refine live_sound h hs (fun s hs => canTxEnd_sound (mask_mono hp rfl) _ _ _ _ hs) (bit_clear hp rfl)

theorem execCanError_sound (hp : ms &&& 0x300882200009 = 0) (n : Fin 2) (kind : CanErr) (code : BitVec 3) (dataPhase : Bool) (s u : State) (h : execCanError n kind code dataPhase s = .next u)
    (hs : s.Sound ms sa) : u.Sound ms sa := by
  refine live_sound h hs (fun s hs => canError_sound (mask_mono hp rfl) _ _ _ _ _ hs) (bit_clear hp rfl)

theorem execCanRecovered_sound (hp : ms &&& 0x300882200009 = 0) (n : Fin 2) (s u : State) (h : execCanRecovered n s = .next u)
    (hs : s.Sound ms sa) : u.Sound ms sa := by
  refine live_sound h hs (fun s hs => canRecovered_sound (mask_mono hp rfl) _ _ hs) (bit_clear hp rfl)

theorem execCanIntegration_sound (hp : ms &&& 0x300882200009 = 0) (n : Fin 2) (s u : State) (h : execCanIntegration n s = .next u)
    (hs : s.Sound ms sa) : u.Sound ms sa := by
  refine live_sound h hs (fun s hs => canIntegration_sound (mask_mono hp rfl) _ _ hs) (bit_clear hp rfl)

theorem execSpiWriteTransaction_sound (hp : ms &&& 0x3FFFFFFF7C41CB = 0) (words : List Word) (aligned : Bool) (s u : State) (h : execSpiWriteTransaction words aligned s = .next u)
    (hs : s.Sound ms sa) : u.Sound ms sa := by
  refine live_sound h hs (fun s hs => spiWrite_sound (mask_mono hp rfl) _ _ _ hs) (bit_clear hp rfl)

theorem execSpiReadTransaction_sound (hp : ms &&& 0x12920C82000009 = 0) (header : Word) (count : Nat) (aligned : Bool) (parity : Bool) (s u : State) (h : execSpiReadTransaction header count aligned parity s = .next u)
    (hs : s.Sound ms sa) : u.Sound ms sa := by
  refine live_sound h hs (fun s hs => spiRead_sound (mask_mono hp rfl) _ _ _ _ _ hs) (bit_clear hp rfl)

theorem execDoorbell_sound (hp : ms &&& 0x800890000001 = 0) (c : Fin 4) (tail : BitVec 16) (s u : State) (h : execDoorbell c tail s = .next u)
    (hs : s.Sound ms sa) : u.Sound ms sa := by
  refine live_sound h hs (fun s hs => doorbell_sound (mask_mono hp rfl) _ _ _ hs) (bit_clear hp rfl)

theorem execDoorbellSignal_sound (hp : ms &&& 0x90000020 = 0) (s u : State) (h : execDoorbellSignal s = .next u)
    (hs : s.Sound ms sa) : u.Sound ms sa := by
  refine live_sound h hs (fun s hs => doorbellSignal_sound (mask_mono hp rfl) _ hs) (bit_clear hp rfl)

theorem execDescriptorPop_sound (hp : ms &&& 0x3FFFFFFF7C41DB = 0) (parity : Option (BitVec 32)) (bulkParity : Option (BitVec 32)) (s u : State) (h : execDescriptorPop parity bulkParity s = .next u)
    (hs : s.Sound ms sa) : u.Sound ms sa := by
  refine live_sound h hs (fun s hs => descriptorPop_sound (mask_mono hp rfl) _ _ _ hs) (bit_clear hp rfl)

theorem execFinalRecordRelease_sound (hp : ms &&& 0x800890000003 = 0) (s u : State) (h : execFinalRecordRelease s = .next u)
    (hs : s.Sound ms sa) : u.Sound ms sa := by
  refine live_sound h hs (fun s hs => recordRelease_sound (mask_mono hp rfl) _ hs) (bit_clear hp rfl)

theorem execCplHeadWrite_sound (hp : ms &&& 0x80009000000B = 0) (c : Fin 4) (head : BitVec 16) (s u : State) (h : execCplHeadWrite c head s = .next u)
    (hs : s.Sound ms sa) : u.Sound ms sa := by
  refine live_sound h hs (fun s hs => cplHeadWrite_sound (mask_mono hp rfl) _ _ _ hs) (bit_clear hp rfl)

theorem execMpRestart_sound (hp : ms &&& 0x900A9118008B = 0) (s u : State) (h : execMpRestart s = .next u)
    (hs : s.Sound ms sa) : u.Sound ms sa := by
  refine live_sound h hs (fun s hs => mpRestart_sound (mask_mono hp rfl) _ hs) (bit_clear hp rfl)

theorem execSysInfo_sound (hp : ms &&& 0x209008B200008B = 0) (d : Desc) (s u : State) (h : execSysInfo d s = .next u)
    (hs : s.Sound ms sa) : u.Sound ms sa := by
  refine live_sound h hs (fun s hs => cmdSysInfo_sound (mask_mono hp rfl) _ _ hs) (bit_clear hp rfl)

theorem execSysNop_sound (hp : ms &&& 0x209008B200008B = 0) (d : Desc) (s u : State) (h : execSysNop d s = .next u)
    (hs : s.Sound ms sa) : u.Sound ms sa := by
  refine live_sound h hs (fun s hs => cmdSysNop_sound (mask_mono hp rfl) _ _ hs) (bit_clear hp rfl)

theorem execSysQuery_sound (hp : ms &&& 0x209008B200008B = 0) (d : Desc) (s u : State) (h : execSysQuery d s = .next u)
    (hs : s.Sound ms sa) : u.Sound ms sa := by
  refine live_sound h hs (fun s hs => cmdSysQuery_sound (mask_mono hp rfl) _ _ hs) (bit_clear hp rfl)

theorem execSysCancel_sound (hp : ms &&& 0x3C9008BF00008B = 0) (d : Desc) (s u : State) (h : execSysCancel d s = .next u)
    (hs : s.Sound ms sa) : u.Sound ms sa := by
  refine live_sound h hs (fun s hs => cmdSysCancel_sound (mask_mono hp rfl) _ _ hs) (bit_clear hp rfl)

theorem execSysAttnClr_sound (hp : ms &&& 0x209008B200008B = 0) (d : Desc) (s u : State) (h : execSysAttnClr d s = .next u)
    (hs : s.Sound ms sa) : u.Sound ms sa := by
  refine live_sound h hs (fun s hs => cmdSysAttnClr_sound (mask_mono hp rfl) _ _ hs) (bit_clear hp rfl)

theorem execSysTime_sound (hp : ms &&& 0x209008B200008B = 0) (d : Desc) (s u : State) (h : execSysTime d s = .next u)
    (hs : s.Sound ms sa) : u.Sound ms sa := by
  refine live_sound h hs (fun s hs => cmdSysTime_sound (mask_mono hp rfl) _ _ hs) (bit_clear hp rfl)

theorem execSysTimetable_sound (hp : ms &&& 0x209019B20000CB = 0) (d : Desc) (s u : State) (h : execSysTimetable d s = .next u)
    (hs : s.Sound ms sa) : u.Sound ms sa := by
  refine live_sound h hs (fun s hs => cmdSysTimetable_sound (mask_mono hp rfl) _ _ hs) (bit_clear hp rfl)

theorem execSysReset_sound (hp : ms &&& 0x209008B200009B = 0) (d : Desc) (s u : State) (h : execSysReset d s = .next u)
    (hs : s.Sound ms sa) : u.Sound ms sa := by
  refine live_sound h hs (fun s hs => cmdSysReset_sound (mask_mono hp rfl) _ _ hs) (bit_clear hp rfl)

theorem execModuleReset_sound (hp : ms &&& 0x3FFFFFFFFFFFFF = 0) (facts : BootFacts) (s u : State) (h : execModuleReset facts s = .next u)
    (hs : s.Sound ms sa) : u.Sound ms sa := by
  refine live_sound h hs (fun s hs => moduleReset_sound (mask_mono hp rfl) _ _ hs) (bit_clear hp rfl)

theorem execMdEnable_sound (hp : ms &&& 0x209028F200008B = 0) (d : Desc) (s u : State) (h : execMdEnable d s = .next u)
    (hs : s.Sound ms sa) : u.Sound ms sa := by
  refine live_sound h hs (fun s hs => cmdMdEnable_sound (mask_mono hp rfl) _ _ hs) (bit_clear hp rfl)

theorem execMdDisable_sound (hp : ms &&& 0x209028F200008B = 0) (d : Desc) (s u : State) (h : execMdDisable d s = .next u)
    (hs : s.Sound ms sa) : u.Sound ms sa := by
  refine live_sound h hs (fun s hs => cmdMdDisable_sound (mask_mono hp rfl) _ _ hs) (bit_clear hp rfl)

theorem execMdStart_sound (hp : ms &&& 0x209028F200008B = 0) (d : Desc) (s u : State) (h : execMdStart d s = .next u)
    (hs : s.Sound ms sa) : u.Sound ms sa := by
  refine live_sound h hs (fun s hs => cmdMdStart_sound (mask_mono hp rfl) _ _ hs) (bit_clear hp rfl)

theorem execMdStop_sound (hp : ms &&& 0x209028F200008B = 0) (d : Desc) (s u : State) (h : execMdStop d s = .next u)
    (hs : s.Sound ms sa) : u.Sound ms sa := by
  refine live_sound h hs (fun s hs => cmdMdStop_sound (mask_mono hp rfl) _ _ hs) (bit_clear hp rfl)

theorem execMdEmergency_sound (hp : ms &&& 0x209028F200008B = 0) (d : Desc) (s u : State) (h : execMdEmergency d s = .next u)
    (hs : s.Sound ms sa) : u.Sound ms sa := by
  refine live_sound h hs (fun s hs => cmdMdEmergency_sound (mask_mono hp rfl) _ _ hs) (bit_clear hp rfl)

theorem execMdMode_sound (hp : ms &&& 0x209028F200008B = 0) (d : Desc) (s u : State) (h : execMdMode d s = .next u)
    (hs : s.Sound ms sa) : u.Sound ms sa := by
  refine live_sound h hs (fun s hs => cmdMdMode_sound (mask_mono hp rfl) _ _ hs) (bit_clear hp rfl)

theorem execMdReset_sound (hp : ms &&& 0x209028F200008B = 0) (d : Desc) (s u : State) (h : execMdReset d s = .next u)
    (hs : s.Sound ms sa) : u.Sound ms sa := by
  refine live_sound h hs (fun s hs => cmdMdReset_sound (mask_mono hp rfl) _ _ hs) (bit_clear hp rfl)

theorem execSpWrite_sound (hp : ms &&& 0x209008B200008B = 0) (d : Desc) (s u : State) (h : execSpWrite d s = .next u)
    (hs : s.Sound ms sa) : u.Sound ms sa := by
  refine live_sound h hs (fun s hs => cmdSpWrite_sound (mask_mono hp rfl) _ _ hs) (bit_clear hp rfl)

theorem execSpWriteN_sound (hp : ms &&& 0x209009B200008B = 0) (d : Desc) (s u : State) (h : execSpWriteN d s = .next u)
    (hs : s.Sound ms sa) : u.Sound ms sa := by
  refine live_sound h hs (fun s hs => cmdSpWriteN_sound (mask_mono hp rfl) _ _ hs) (bit_clear hp rfl)

theorem execRegRead_sound (hp : ms &&& 0x3FFFFEB200008B = 0) (d : Desc) (s u : State) (h : execRegRead d s = .next u)
    (hs : s.Sound ms sa) : u.Sound ms sa := by
  refine live_sound h hs (fun s hs => cmdRegRead_sound (mask_mono hp rfl) _ _ hs) (bit_clear hp rfl)

theorem execRegWrite_sound (hp : ms &&& 0x3FFFFEFE7C41CB = 0) (d : Desc) (s u : State) (h : execRegWrite d s = .next u)
    (hs : s.Sound ms sa) : u.Sound ms sa := by
  refine live_sound h hs (fun s hs => cmdRegWrite_sound (mask_mono hp rfl) _ _ hs) (bit_clear hp rfl)

theorem execParStage_sound (hp : ms &&& 0x209009B200008B = 0) (d : Desc) (s u : State) (h : execParStage d s = .next u)
    (hs : s.Sound ms sa) : u.Sound ms sa := by
  refine live_sound h hs (fun s hs => cmdParStage_sound (mask_mono hp rfl) _ _ hs) (bit_clear hp rfl)

theorem execTblLoad_sound (hp : ms &&& 0x209009B200008B = 0) (d : Desc) (s u : State) (h : execTblLoad d s = .next u)
    (hs : s.Sound ms sa) : u.Sound ms sa := by
  refine live_sound h hs (fun s hs => cmdTblLoad_sound (mask_mono hp rfl) _ _ hs) (bit_clear hp rfl)

theorem execBankSwap_sound (hp : ms &&& 0x209028B200008B = 0) (d : Desc) (s u : State) (h : execBankSwap d s = .next u)
    (hs : s.Sound ms sa) : u.Sound ms sa := by
  refine live_sound h hs (fun s hs => cmdBankSwap_sound (mask_mono hp rfl) _ _ hs) (bit_clear hp rfl)

theorem execBankCopy_sound (hp : ms &&& 0x209008B200008B = 0) (d : Desc) (s u : State) (h : execBankCopy d s = .next u)
    (hs : s.Sound ms sa) : u.Sound ms sa := by
  refine live_sound h hs (fun s hs => cmdBankCopy_sound (mask_mono hp rfl) _ _ hs) (bit_clear hp rfl)

theorem execParSave_sound (hp : ms &&& 0x209008B300008B = 0) (d : Desc) (s u : State) (h : execParSave d s = .next u)
    (hs : s.Sound ms sa) : u.Sound ms sa := by
  refine live_sound h hs (fun s hs => cmdParSave_sound (mask_mono hp rfl) _ _ hs) (bit_clear hp rfl)

theorem execFbCorrect_sound (hp : ms &&& 0x209008B204008B = 0) (d : Desc) (s u : State) (h : execFbCorrect d s = .next u)
    (hs : s.Sound ms sa) : u.Sound ms sa := by
  refine live_sound h hs (fun s hs => cmdFbCorrect_sound (mask_mono hp rfl) _ _ hs) (bit_clear hp rfl)

theorem execDiagOffstate_sound (hp : ms &&& 0x209108B200408B = 0) (d : Desc) (s u : State) (h : execDiagOffstate d s = .next u)
    (hs : s.Sound ms sa) : u.Sound ms sa := by
  refine live_sound h hs (fun s hs => cmdDiagOffstate_sound (mask_mono hp rfl) _ _ hs) (bit_clear hp rfl)

theorem execBistLane_sound (hp : ms &&& 0x349008B600008B = 0) (d : Desc) (s u : State) (h : execBistLane d s = .next u)
    (hs : s.Sound ms sa) : u.Sound ms sa := by
  refine live_sound h hs (fun s hs => cmdBistLane_sound (mask_mono hp rfl) _ _ hs) (bit_clear hp rfl)

theorem execBistMem_sound (hp : ms &&& 0x349008B600008B = 0) (d : Desc) (s u : State) (h : execBistMem d s = .next u)
    (hs : s.Sound ms sa) : u.Sound ms sa := by
  refine live_sound h hs (fun s hs => cmdBistMem_sound (mask_mono hp rfl) _ _ hs) (bit_clear hp rfl)

theorem execBistGate_sound (hp : ms &&& 0x349008B600008B = 0) (d : Desc) (s u : State) (h : execBistGate d s = .next u)
    (hs : s.Sound ms sa) : u.Sound ms sa := by
  refine live_sound h hs (fun s hs => cmdBistGate_sound (mask_mono hp rfl) _ _ hs) (bit_clear hp rfl)

theorem execCalPass_sound (hp : ms &&& 0x209008B200008B = 0) (d : Desc) (s u : State) (h : execCalPass d s = .next u)
    (hs : s.Sound ms sa) : u.Sound ms sa := by
  refine live_sound h hs (fun s hs => cmdCalPass_sound (mask_mono hp rfl) _ _ hs) (bit_clear hp rfl)

theorem execCrcScan_sound (hp : ms &&& 0x289008BA00008B = 0) (d : Desc) (s u : State) (h : execCrcScan d s = .next u)
    (hs : s.Sound ms sa) : u.Sound ms sa := by
  refine live_sound h hs (fun s hs => cmdCrcScan_sound (mask_mono hp rfl) _ _ hs) (bit_clear hp rfl)

theorem execTrConfig_sound (hp : ms &&& 0x309009B200008B = 0) (d : Desc) (s u : State) (h : execTrConfig d s = .next u)
    (hs : s.Sound ms sa) : u.Sound ms sa := by
  refine live_sound h hs (fun s hs => cmdTrConfig_sound (mask_mono hp rfl) _ _ hs) (bit_clear hp rfl)

theorem execTrArm_sound (hp : ms &&& 0x309008B200008B = 0) (d : Desc) (s u : State) (h : execTrArm d s = .next u)
    (hs : s.Sound ms sa) : u.Sound ms sa := by
  refine live_sound h hs (fun s hs => cmdTrArm_sound (mask_mono hp rfl) _ _ hs) (bit_clear hp rfl)

theorem execTrTrigger_sound (hp : ms &&& 0x209008B200008B = 0) (d : Desc) (s u : State) (h : execTrTrigger d s = .next u)
    (hs : s.Sound ms sa) : u.Sound ms sa := by
  refine live_sound h hs (fun s hs => cmdTrTrigger_sound (mask_mono hp rfl) _ _ hs) (bit_clear hp rfl)

theorem execTrRead_sound (hp : ms &&& 0x309008B200008B = 0) (d : Desc) (s u : State) (h : execTrRead d s = .next u)
    (hs : s.Sound ms sa) : u.Sound ms sa := by
  refine live_sound h hs (fun s hs => cmdTrRead_sound (mask_mono hp rfl) _ _ hs) (bit_clear hp rfl)

theorem execEvRead_sound (hp : ms &&& 0x209008B300008B = 0) (d : Desc) (s u : State) (h : execEvRead d s = .next u)
    (hs : s.Sound ms sa) : u.Sound ms sa := by
  refine live_sound h hs (fun s hs => cmdEvRead_sound (mask_mono hp rfl) _ _ hs) (bit_clear hp rfl)

theorem execLkEnum_sound (hp : ms &&& 0x209408B240008B = 0) (d : Desc) (s u : State) (h : execLkEnum d s = .next u)
    (hs : s.Sound ms sa) : u.Sound ms sa := by
  refine live_sound h hs (fun s hs => cmdLkEnum_sound (mask_mono hp rfl) _ _ hs) (bit_clear hp rfl)

theorem execCsForm_sound (hp : ms &&& 0x209008B200008B = 0) (d : Desc) (s u : State) (h : execCsForm d s = .next u)
    (hs : s.Sound ms sa) : u.Sound ms sa := by
  refine live_sound h hs (fun s hs => cmdCsForm_sound (mask_mono hp rfl) _ _ hs) (bit_clear hp rfl)

theorem execCsAdd_sound (hp : ms &&& 0x209409B240008B = 0) (d : Desc) (s u : State) (h : execCsAdd d s = .next u)
    (hs : s.Sound ms sa) : u.Sound ms sa := by
  refine live_sound h hs (fun s hs => cmdCsAdd_sound (mask_mono hp rfl) _ _ hs) (bit_clear hp rfl)

theorem execCsRemove_sound (hp : ms &&& 0x209408B240008B = 0) (d : Desc) (s u : State) (h : execCsRemove d s = .next u)
    (hs : s.Sound ms sa) : u.Sound ms sa := by
  refine live_sound h hs (fun s hs => cmdCsRemove_sound (mask_mono hp rfl) _ _ hs) (bit_clear hp rfl)

theorem execCsDissolve_sound (hp : ms &&& 0x209408B240008B = 0) (d : Desc) (s u : State) (h : execCsDissolve d s = .next u)
    (hs : s.Sound ms sa) : u.Sound ms sa := by
  refine live_sound h hs (fun s hs => cmdCsDissolve_sound (mask_mono hp rfl) _ _ hs) (bit_clear hp rfl)

theorem execPrRelease_sound (hp : ms &&& 0x209808B208408B = 0) (d : Desc) (s u : State) (h : execPrRelease d s = .next u)
    (hs : s.Sound ms sa) : u.Sound ms sa := by
  refine live_sound h hs (fun s hs => cmdPrRelease_sound (mask_mono hp rfl) _ _ hs) (bit_clear hp rfl)

theorem execPrEngage_sound (hp : ms &&& 0x209888B208408B = 0) (d : Desc) (s u : State) (h : execPrEngage d s = .next u)
    (hs : s.Sound ms sa) : u.Sound ms sa := by
  refine live_sound h hs (fun s hs => cmdPrEngage_sound (mask_mono hp rfl) _ _ hs) (bit_clear hp rfl)

theorem execPrPser_sound (hp : ms &&& 0x209008B310008B = 0) (d : Desc) (s u : State) (h : execPrPser d s = .next u)
    (hs : s.Sound ms sa) : u.Sound ms sa := by
  refine live_sound h hs (fun s hs => cmdPrPser_sound (mask_mono hp rfl) _ _ hs) (bit_clear hp rfl)

theorem execSafeOpen_sound (hp : ms &&& 0x209008B210008B = 0) (d : Desc) (s u : State) (h : execSafeOpen d s = .next u)
    (hs : s.Sound ms sa) : u.Sound ms sa := by
  refine live_sound h hs (fun s hs => cmdSafeOpen_sound (mask_mono hp rfl) _ _ hs) (bit_clear hp rfl)

theorem execSafeClose_sound (hp : ms &&& 0x209008B310008B = 0) (d : Desc) (s u : State) (h : execSafeClose d s = .next u)
    (hs : s.Sound ms sa) : u.Sound ms sa := by
  refine live_sound h hs (fun s hs => cmdSafeClose_sound (mask_mono hp rfl) _ _ hs) (bit_clear hp rfl)

theorem execSafeConfirm_sound (hp : ms &&& 0x209808B310008B = 0) (d : Desc) (s u : State) (h : execSafeConfirm d s = .next u)
    (hs : s.Sound ms sa) : u.Sound ms sa := by
  refine live_sound h hs (fun s hs => cmdSafeConfirm_sound (mask_mono hp rfl) _ _ hs) (bit_clear hp rfl)

theorem execSafeStatus_sound (hp : ms &&& 0x209008B200008B = 0) (d : Desc) (s u : State) (h : execSafeStatus d s = .next u)
    (hs : s.Sound ms sa) : u.Sound ms sa := by
  refine live_sound h hs (fun s hs => cmdSafeStatus_sound (mask_mono hp rfl) _ _ hs) (bit_clear hp rfl)

theorem execFwStage_sound (hp : ms &&& 0x209009B300008B = 0) (d : Desc) (s u : State) (h : execFwStage d s = .next u)
    (hs : s.Sound ms sa) : u.Sound ms sa := by
  refine live_sound h hs (fun s hs => cmdFwStage_sound (mask_mono hp rfl) _ _ hs) (bit_clear hp rfl)

theorem execFwVerify_sound (hp : ms &&& 0x209008B300008B = 0) (d : Desc) (s u : State) (h : execFwVerify d s = .next u)
    (hs : s.Sound ms sa) : u.Sound ms sa := by
  refine live_sound h hs (fun s hs => cmdFwVerify_sound (mask_mono hp rfl) _ _ hs) (bit_clear hp rfl)

theorem execFwSwap_sound (hp : ms &&& 0x209008B300008B = 0) (d : Desc) (s u : State) (h : execFwSwap d s = .next u)
    (hs : s.Sound ms sa) : u.Sound ms sa := by
  refine live_sound h hs (fun s hs => cmdFwSwap_sound (mask_mono hp rfl) _ _ hs) (bit_clear hp rfl)

theorem execFwDiscard_sound (hp : ms &&& 0x209008B300008B = 0) (d : Desc) (s u : State) (h : execFwDiscard d s = .next u)
    (hs : s.Sound ms sa) : u.Sound ms sa := by
  refine live_sound h hs (fun s hs => cmdFwDiscard_sound (mask_mono hp rfl) _ _ hs) (bit_clear hp rfl)

theorem execNvRead_sound (hp : ms &&& 0x209008B300008B = 0) (d : Desc) (s u : State) (h : execNvRead d s = .next u)
    (hs : s.Sound ms sa) : u.Sound ms sa := by
  refine live_sound h hs (fun s hs => cmdNvRead_sound (mask_mono hp rfl) _ _ hs) (bit_clear hp rfl)

theorem execTempMeasurement_sound (hp : ms &&& 0x2318ADE390409D = 0) (sensor : Fin 11) (reading : BitVec 32) (s u : State) (h : execTempMeasurement sensor reading s = .next u)
    (hs : s.Sound ms sa) : u.Sound ms sa := by
  refine live_sound h hs (fun s hs => tempMeasurement_sound (mask_mono hp rfl) _ _ _ hs) (bit_clear hp rfl)

theorem execPxCHalt_sound (hp : ms &&& 0x80000010 = 0) (s u : State) (h : execPxCHalt s = .next u)
    (hs : s.Sound ms sa) : u.Sound ms sa := by
  refine live_sound h hs (fun s hs => pxCHalt_sound (mask_mono hp rfl) _ hs) (bit_clear hp rfl)

theorem execAuxLoss_sound (hp : ms &&& 0x1100882000009 = 0) (vin : BitVec 16) (vhb : BitVec 16) (s u : State) (h : execAuxLoss vin vhb s = .next u)
    (hs : s.Sound ms sa) : u.Sound ms sa := by
  refine live_sound h hs (fun s hs => auxLoss_sound (mask_mono hp rfl) _ _ _ hs) (bit_clear hp rfl)

theorem execAuxBack_sound (hp : ms &&& 0x1100882000009 = 0) (vin : BitVec 16) (vhb : BitVec 16) (s u : State) (h : execAuxBack vin vhb s = .next u)
    (hs : s.Sound ms sa) : u.Sound ms sa := by
  refine live_sound h hs (fun s hs => auxBack_sound (mask_mono hp rfl) _ _ _ hs) (bit_clear hp rfl)

theorem execHoldupBusLow_sound (hp : ms &&& 0x2318A9E310409D = 0) (vin : BitVec 16) (vhb : BitVec 16) (s u : State) (h : execHoldupBusLow vin vhb s = .next u)
    (hs : s.Sound ms sa) : u.Sound ms sa := by
  refine live_sound h hs (fun s hs => holdupBusLow_sound (mask_mono hp rfl) _ _ _ hs) (bit_clear hp rfl)

theorem execHbok_sound (hp : ms &&& 0x1000080000001 = 0) (vin : BitVec 16) (vhb : BitVec 16) (s u : State) (h : execHbok vin vhb s = .next u)
    (hs : s.Sound ms sa) : u.Sound ms sa := by
  refine live_sound h hs (fun s hs => hbok_sound (mask_mono hp rfl) _ _ _ hs) (bit_clear hp rfl)

theorem execNorJob_sound (hp : ms &&& 0x2000881000009 = 0) (s u : State) (h : execNorJob s = .next u)
    (hs : s.Sound ms sa) : u.Sound ms sa := by
  refine live_sound h hs (fun s hs => norJob_sound (mask_mono hp rfl) _ hs) (bit_clear hp rfl)

theorem execNorOperationComplete_sound (hp : ms &&& 0x21008A300000D = 0) (ok : Bool) (s u : State) (h : execNorOperationComplete ok s = .next u)
    (hs : s.Sound ms sa) : u.Sound ms sa := by
  refine live_sound h hs (fun s hs => norComplete_sound (mask_mono hp rfl) _ _ hs) (bit_clear hp rfl)

theorem execLogPageProgram_sound (hp : ms &&& 0x1008A1000009 = 0) (s u : State) (h : execLogPageProgram s = .next u)
    (hs : s.Sound ms sa) : u.Sound ms sa := by
  refine live_sound h hs (fun s hs => logPage_sound (mask_mono hp rfl) _ hs) (bit_clear hp rfl)

theorem execEventRingPass_sound (hp : ms &&& 0x149008A7000089 = 0) (s u : State) (h : execEventRingPass s = .next u)
    (hs : s.Sound ms sa) : u.Sound ms sa := by
  refine live_sound h hs (fun s hs => eventPass_sound (mask_mono hp rfl) _ hs) (bit_clear hp rfl)

theorem execBistJobResult_sound (hp : ms &&& 0x141008E6000089 = 0) (fail : Option BistFail) (s u : State) (h : execBistJobResult fail s = .next u)
    (hs : s.Sound ms sa) : u.Sound ms sa := by
  refine live_sound h hs (fun s hs => bistJobResult_sound (mask_mono hp rfl) _ _ hs) (bit_clear hp rfl)

theorem execBiCtlAbort_sound (hp : ms &&& 0x14100886000089 = 0) (s u : State) (h : execBiCtlAbort s = .next u)
    (hs : s.Sound ms sa) : u.Sound ms sa := by
  refine live_sound h hs (fun s hs => bistAbort_sound (mask_mono hp rfl) _ hs) (bit_clear hp rfl)

theorem execCcChkCtlGo_sound (hp : ms &&& 0x8000088000001 = 0) (k : Fin 4) (value : Word) (s u : State) (h : execCcChkCtlGo k value s = .next u)
    (hs : s.Sound ms sa) : u.Sound ms sa := by
  refine live_sound h hs (fun s hs => ccWrite_sound (mask_mono hp rfl) _ _ _ ?_ hs) (bit_clear hp rfl)
  first
    | exact addrOutside_all (mask_mono hp rfl)
    | (with_reducible apply addrOutside1 <;> first | exact mask_mono hp rfl | exact Nat.zero_lt_succ _)
    | (with_reducible apply addrOutside0; exact mask_mono hp rfl)

theorem execCcChkData_sound (hp : ms &&& 0x8000080000001 = 0) (k : Fin 4) (w : Word) (s u : State) (h : execCcChkData k w s = .next u)
    (hs : s.Sound ms sa) : u.Sound ms sa := by
  refine live_sound h hs (fun s hs => ccData_sound (mask_mono hp rfl) _ _ _ hs) (bit_clear hp rfl)

theorem execCrcScanEnd_sound (hp : ms &&& 0x8100888000009 = 0) (k : Fin 4) (perr : Option (BitVec 24)) (s u : State) (h : execCrcScanEnd k perr s = .next u)
    (hs : s.Sound ms sa) : u.Sound ms sa := by
  refine live_sound h hs (fun s hs => ccScanEnd_sound (mask_mono hp rfl) _ _ _ hs) (bit_clear hp rfl)

theorem execTraceSample_sound (hp : ms &&& 0x10100982080029 = 0) (s u : State) (h : execTraceSample s = .next u)
    (hs : s.Sound ms sa) : u.Sound ms sa := by
  refine live_sound h hs (fun s hs => traceSample_sound (mask_mono hp rfl) _ hs) (bit_clear hp rfl)

theorem execRingStop_sound (hp : ms &&& 0x10100982000009 = 0) (r : Fin 16) (s u : State) (h : execRingStop r s = .next u)
    (hs : s.Sound ms sa) : u.Sound ms sa := by
  refine live_sound h hs (fun s hs => ringStopIfDue_sound (mask_mono hp rfl) _ _ hs) (bit_clear hp rfl)

theorem execTeCtlArm_sound (hp : ms &&& 0x10000082000001 = 0) (mask : BitVec 16) (s u : State) (h : execTeCtlArm mask s = .next u)
    (hs : s.Sound ms sa) : u.Sound ms sa := by
  refine live_sound h hs (fun s hs => teArm_sound (mask_mono hp rfl) _ _ hs) (bit_clear hp rfl)

theorem execTeCtlDisarm_sound (hp : ms &&& 0x10000082000001 = 0) (mask : BitVec 16) (s u : State) (h : execTeCtlDisarm mask s = .next u)
    (hs : s.Sound ms sa) : u.Sound ms sa := by
  refine live_sound h hs (fun s hs => teDisarm_sound (mask_mono hp rfl) _ _ hs) (bit_clear hp rfl)

theorem execTeTrig_sound (hp : ms &&& 0x82000000 = 0) (mask : BitVec 16) (s u : State) (h : execTeTrig mask s = .next u)
    (hs : s.Sound ms sa) : u.Sound ms sa := by
  refine live_sound h hs (fun s hs => teTrig_sound (mask_mono hp rfl) _ _ hs) (bit_clear hp rfl)

theorem execQueuePush_sound (hp : ms &&& 0x100880000009 = 0) (n : Fin 64) (item : List Byte) (s u : State) (h : execQueuePush n item s = .next u)
    (hs : s.Sound ms sa) : u.Sound ms sa := by
  refine live_sound h hs (fun s hs => queuePush_sound (mask_mono hp rfl) _ _ _ hs) (bit_clear hp rfl)

theorem execQueuePop_sound (hp : ms &&& 0x20100882000089 = 0) (n : Fin 64) (bad : Option (BitVec 32)) (s u : State) (h : execQueuePop n bad s = .next u)
    (hs : s.Sound ms sa) : u.Sound ms sa := by
  refine live_sound h hs (fun s hs => queuePop_sound (mask_mono hp rfl) _ _ _ hs) (bit_clear hp rfl)

theorem execQmIrqClear_sound (hp : ms &&& 0x880000001 = 0) (hi : Bool) (value : Word) (s u : State) (h : execQmIrqClear hi value s = .next u)
    (hs : s.Sound ms sa) : u.Sound ms sa := by
  refine live_sound h hs (fun s hs => qmIrqClear_sound (mask_mono hp rfl) _ _ _ hs) (bit_clear hp rfl)

theorem execTbCntLoRead_sound (hp : ms &&& 0x12120C82000009 = 0) (s u : State) (h : execTbCntLoRead s = .next u)
    (hs : s.Sound ms sa) : u.Sound ms sa := by
  refine live_sound h hs (fun s hs => registerRead_sound (mask_mono hp rfl) _ _ ?_ hs) (bit_clear hp rfl)
  first
    | exact addrOutside_all (mask_mono hp rfl)
    | (with_reducible apply addrOutside1 <;> first | exact mask_mono hp rfl | exact Nat.zero_lt_succ _)
    | (with_reducible apply addrOutside0; exact mask_mono hp rfl)

theorem execTbLastLoRead_sound (hp : ms &&& 0x12120C82000009 = 0) (s u : State) (h : execTbLastLoRead s = .next u)
    (hs : s.Sound ms sa) : u.Sound ms sa := by
  refine live_sound h hs (fun s hs => registerRead_sound (mask_mono hp rfl) _ _ ?_ hs) (bit_clear hp rfl)
  first
    | exact addrOutside_all (mask_mono hp rfl)
    | (with_reducible apply addrOutside1 <;> first | exact mask_mono hp rfl | exact Nat.zero_lt_succ _)
    | (with_reducible apply addrOutside0; exact mask_mono hp rfl)

theorem execFbPosLoRead_sound (hp : ms &&& 0x12120C82000009 = 0) (s u : State) (h : execFbPosLoRead s = .next u)
    (hs : s.Sound ms sa) : u.Sound ms sa := by
  refine live_sound h hs (fun s hs => registerRead_sound (mask_mono hp rfl) _ _ ?_ hs) (bit_clear hp rfl)
  first
    | exact addrOutside_all (mask_mono hp rfl)
    | (with_reducible apply addrOutside1 <;> first | exact mask_mono hp rfl | exact Nat.zero_lt_succ _)
    | (with_reducible apply addrOutside0; exact mask_mono hp rfl)

theorem execFbHofsLoRead_sound (hp : ms &&& 0x12120C82000009 = 0) (s u : State) (h : execFbHofsLoRead s = .next u)
    (hs : s.Sound ms sa) : u.Sound ms sa := by
  refine live_sound h hs (fun s hs => registerRead_sound (mask_mono hp rfl) _ _ ?_ hs) (bit_clear hp rfl)
  first
    | exact addrOutside_all (mask_mono hp rfl)
    | (with_reducible apply addrOutside1 <;> first | exact mask_mono hp rfl | exact Nat.zero_lt_succ _)
    | (with_reducible apply addrOutside0; exact mask_mono hp rfl)

theorem execNvLogseqLoRead_sound (hp : ms &&& 0x12120C82000009 = 0) (s u : State) (h : execNvLogseqLoRead s = .next u)
    (hs : s.Sound ms sa) : u.Sound ms sa := by
  refine live_sound h hs (fun s hs => registerRead_sound (mask_mono hp rfl) _ _ ?_ hs) (bit_clear hp rfl)
  first
    | exact addrOutside_all (mask_mono hp rfl)
    | (with_reducible apply addrOutside1 <;> first | exact mask_mono hp rfl | exact Nat.zero_lt_succ _)
    | (with_reducible apply addrOutside0; exact mask_mono hp rfl)

theorem execNvLogoldLoRead_sound (hp : ms &&& 0x12120C82000009 = 0) (s u : State) (h : execNvLogoldLoRead s = .next u)
    (hs : s.Sound ms sa) : u.Sound ms sa := by
  refine live_sound h hs (fun s hs => registerRead_sound (mask_mono hp rfl) _ _ ?_ hs) (bit_clear hp rfl)
  first
    | exact addrOutside_all (mask_mono hp rfl)
    | (with_reducible apply addrOutside1 <;> first | exact mask_mono hp rfl | exact Nat.zero_lt_succ _)
    | (with_reducible apply addrOutside0; exact mask_mono hp rfl)

theorem execTeTbLoRead_sound (hp : ms &&& 0x12120C82000009 = 0) (r : Fin 16) (s u : State) (h : execTeTbLoRead r s = .next u)
    (hs : s.Sound ms sa) : u.Sound ms sa := by
  refine live_sound h hs (fun s hs => registerRead_sound (mask_mono hp rfl) _ _ ?_ hs) (bit_clear hp rfl)
  first
    | exact addrOutside_all (mask_mono hp rfl)
    | (with_reducible apply addrOutside1 <;> first | exact mask_mono hp rfl | exact Nat.zero_lt_succ _)
    | (with_reducible apply addrOutside0; exact mask_mono hp rfl)

theorem execReadClearCounter_sound (hp : ms &&& 0x3FFFFE82000009 = 0) (addr : BitVec 32) (s u : State) (h : execReadClearCounter addr s = .next u)
    (hs : s.Sound ms sa) : u.Sound ms sa := by
  refine live_sound h hs (fun s hs => registerRead_sound (mask_mono hp rfl) _ _ ?_ hs) (bit_clear hp rfl)
  first
    | exact addrOutside_all (mask_mono hp rfl)
    | (with_reducible apply addrOutside1 <;> first | exact mask_mono hp rfl | exact Nat.zero_lt_succ _)
    | (with_reducible apply addrOutside0; exact mask_mono hp rfl)

theorem execRegisterWrite_sound (hp : ms &&& 0x3FFFFECE7C41CB = 0) (addr : BitVec 32) (value : Word) (s u : State) (h : execRegisterWrite addr value s = .next u)
    (hs : s.Sound ms sa) : u.Sound ms sa := by
  refine live_sound h hs (fun s hs => registerWrite_sound (mask_mono hp rfl) _ _ _ hs) (bit_clear hp rfl)

theorem execPowerOn_sound (hp : ms &&& 0x3FFFFFFFFFFFFF = 0) (facts : BootFacts) (s u : State) (h : execPowerOn facts s = .next u)
    (hs : s.Sound ms sa) : u.Sound ms sa := by
  cases h
  exact powerOn_sound (mask_mono hp rfl) _ _ (sound_upd hs fun p hm => by cases p <;> first | rfl | exact (mask_absurd hp hm rfl).elim)

theorem execBootComplete_sound (hp : ms &&& 0x1140A83400019 = 0) (s u : State) (h : execBootComplete s = .next u)
    (hs : s.Sound ms sa) : u.Sound ms sa := by
  refine live_sound h hs (fun s hs => bootComplete_sound (mask_mono hp rfl) _ hs) (bit_clear hp rfl)

theorem execOvercurrent_sound (hp : ms &&& 0x1008C2104009 = 0) (ch : Fin 12) (bits : List Bool) (s u : State) (h : execOvercurrent ch bits s = .next u)
    (hs : s.Sound ms sa) : u.Sound ms sa := by
  refine live_sound h hs (fun s hs => overcurrent_sound (mask_mono hp rfl) _ _ _ hs) (bit_clear hp rfl)

theorem execMpReset_sound (hp : ms &&& 0x14900AF7100099 = 0) (cause : Fin 3) (addr : Option (BitVec 32)) (s u : State) (h : execMpReset cause addr s = .next u)
    (hs : s.Sound ms sa) : u.Sound ms sa := by
  refine live_sound h hs (fun s hs => mpResetNow_sound (mask_mono hp rfl) _ _ _ hs) (bit_clear hp rfl)

theorem execExchangeWindowOpen_sound (hp : ms &&& 0x40080400029 = 0) (s u : State) (h : execExchangeWindowOpen s = .next u)
    (hs : s.Sound ms sa) : u.Sound ms sa := by
  refine live_sound h hs (fun s hs => windowOpen_sound (mask_mono hp rfl) _ hs) (bit_clear hp rfl)

theorem execExchangeWindowClose_sound (hp : ms &&& 0x40080400029 = 0) (s u : State) (h : execExchangeWindowClose s = .next u)
    (hs : s.Sound ms sa) : u.Sound ms sa := by
  refine live_sound h hs (fun s hs => windowClose_sound (mask_mono hp rfl) _ hs) (bit_clear hp rfl)

theorem execQuarterPeriodCount_sound (hp : ms &&& 0x80040000 = 0) (up : Bool) (s u : State) (h : execQuarterPeriodCount up s = .next u)
    (hs : s.Sound ms sa) : u.Sound ms sa := by
  refine live_sound h hs (fun s hs => quarterPeriod_sound (mask_mono hp rfl) _ _ hs) (bit_clear hp rfl)

theorem execIdHoldExpiry_sound (hp : ms &&& 0x80400000 = 0) (s u : State) (h : execIdHoldExpiry s = .next u)
    (hs : s.Sound ms sa) : u.Sound ms sa := by
  refine live_sound h hs (fun s hs => idHoldExpiry_sound (mask_mono hp rfl) _ hs) (bit_clear hp rfl)

end Sys2Proof.Machine
end

