-- ==== Sys2Proof/Laws/Timetable.lean ====
section
/-! SUPPORT. Laws of the Timetable's check. -/

set_option Elab.async false

namespace Sys2Proof.Machine
/-- No enabled task is too short for its length, where its budget holds the longest one (02 R53, R57). -/
theorem spans_hold (l : List TtEntry) (h : l.all (fun e => decide (Config.taskLengthMax e.task ≤ e.span)) = true) :
    l.any (fun e => decide (e.span < Config.taskLength e.task)) = false := by
  rw [List.any_eq_false]
  intro e he
  have h1 := List.all_eq_true.mp h e he
  have h2 : Config.taskLength e.task ≤ Config.taskLengthMax e.task := Nat.min_le_right _ _
  simp only [decide_eq_true_eq] at h1 ⊢
  omega

/-- The check of a table whose tasks have their longest lengths. -/
theorem ttCheck_long (s : State) (t : List TtEntry) (p : Nat) (c : Bool)
    (h : ((t.filter (·.en)).filter (fun e => e.kind == 0)).all (fun e => decide (Config.taskLengthMax e.task ≤ e.span)) = true) :
    s.ttCheck t p c =
      let en := t.filter (·.en)
      let first (code : Nat) : TtEntry := ((ttTask t code).head?).getD ⟨false, 0, 0, 0, 0, 0⟩
      if p < 8000 ∨ 20000 < p then 0x01
      else if c ∧ 1 < s.drive then 0x02
      else if [1, 2, 3].any (fun c => (ttTask t c).length != 1) then 0x03
      else if en.any (fun e => 1 < e.kind || (e.kind == 0 && (e.task < 1 || 3 < e.task))) then 0x04
      else if (first 1).start < 48 ∨ (first 2).start < (first 1).stop ∨ (first 3).start < (first 2).stop then 0x06
      else if en.any (fun e => p < e.stop) ∨ p < (first 3).stop + 96 then 0x07
      else if (en.zipIdx).any (fun a => (en.zipIdx).any (fun b =>
          a.2 < b.2 && a.1.lane == b.1.lane && max a.1.start b.1.start < min a.1.stop b.1.stop)) then 0x08
      else if en.any (fun e => testB (s.rd R.LN_STAT_UNUSABLE) e.lane) then 0x09
      else if en.any (fun e => e.kind == 1 && e.lane != s.rd R.LN_STAT_SIDING) then 0x0A
      else 0 := by
  simp only [State.ttCheck, spans_hold _ h, Bool.false_eq_true, if_false]

end Sys2Proof.Machine
end

