-- ==== Sys2Proof/WellFormed.lean ====
section
/-! DEFINITION. What a command must satisfy beyond its types: the lengths and ranges of what reaches the module from outside. The
meanings take any term; a well-formed one is what the wires, the host and the queues of the module can carry. -/

namespace Sys2Proof

/-- What a tick boundary brings: a bit stream for each of the twelve sigma-delta channels (03 R92), at most the bits of the longest tick,
one each 20 cyc (02 R60, 03 R93); an upset lies in the own state block (09 R321). -/
def TickInputs.wellFormed (t : TickInputs) : Bool :=
  t.sd.length == 12 && t.sd.all (fun b => b.length ≤ 1639)
    && t.upset.all (fun a => decide (0x10010000 ≤ a.toNat ∧ a.toNat < 0x10011000))

/-- What a task run meets: table errors in the order of their cycles, none named twice, all of them in a bank (02 R80; 01 R544). -/
def TaskRun.wellFormed (r : TaskRun) : Bool :=
  decide ((r.tables.map (fun t => t.2.1)).Pairwise (· ≤ ·)) && decide r.tables.Nodup
    && r.tables.all (fun t => decide (0x10120000 ≤ t.2.2.toNat ∧ t.2.2.toNat < 0x10140000))

/-- A cell of 32 bytes (08 R282). -/
def cellWellFormed (c : List Byte) : Bool := c.length == 32

/-- The bytes that a DLC stands for (11 R374). -/
def dlcBytes (dlc : Nat) : Nat := if dlc ≤ 8 then dlc else [12, 16, 20, 24, 32, 48, 64].getD (dlc - 9) 64

/-- A frame as ISO 11898-1 has it: a base identifier in 11 bits, no remote FD frame, BRS and ESI in an FD frame only, as many data bytes as the DLC
says and none in a remote frame (11 R374). -/
def CanFrame.wellFormed (f : CanFrame) : Bool :=
  (f.xtd || decide (f.id.toNat < 2048)) && !(f.rtr && f.fdf) && (f.fdf || (!f.brs && !f.esi))
    && f.data.length == (if f.rtr then 0 else if f.fdf then dlcBytes f.dlc.val else min 8 f.dlc.val)

/-- A descriptor: 56 bytes of PARAM (12 R408). -/
def Desc.wellFormed (d : Desc) : Bool := d.param.length == 56

/-- The bytes of a slot of a queue (01 R41). -/
def slotBytes (n : Nat) : Nat :=
  if n < 4 then 64
  else if n < 8 then 32
  else if n < 12 then 80
  else if n < 20 then 32
  else if n < 22 then 4096
  else if n < 38 then 64
  else if n < 42 then 32
  else if n < 50 then 16
  else if n < 52 then 32
  else if n < 56 then 64
  else if n < 62 then 32
  else 64

/-- A memory failure found at boot lies in lane data or in the BIST scratch (17 R530; 01 R50). -/
def bootFactsOk (f : BootFacts) : Bool :=
  match f.memFail with
  | some (a, _) => decide (0x10120000 ≤ a.toNat ∧ a.toNat < 0x10300000)
  | none => true

/-- A state block whose numbers fit the fields of its header (09 R325). -/
def blockWellFormed (b : Machine.PairBlock) : Bool :=
  decide (b.sn < 2 ^ 32 ∧ b.tbl < 2 ^ 64 ∧ b.hbseq < 2 ^ 32 ∧ b.serial < 2 ^ 48 ∧ b.conf < 4 ∧ b.state < 8 ∧ b.mode < 8 ∧ b.sub < 8
    ∧ b.held < 8 ∧ b.period < 2 ^ 15 ∧ b.share < 2 ^ 16 ∧ b.joinsn < 2 ^ 32 ∧ b.pfb < 2 ^ 48 ∧ b.nomShare < 2 ^ 16)
    && b.parity.all (fun a => decide (0x10011000 ≤ a ∧ a < 0x10020000))

/-- A register address: word-aligned, in the register region (01 R48). -/
def registerAddress (a : BitVec 32) : Bool := a.toNat % 4 == 0 && 0x40000000 ≤ a.toNat && a.toNat < 0x40140000

/-- An index of a lane unit's failure within the pattern of the test; a byte of the on-die memory, of the Granary; no constraint beyond the types
but the range of the Granary (15 R472). -/
def BistFail.wellFormed : BistFail → Bool
  | .lane _ _ _ => true
  | .sram a _ => decide (0x10000000 ≤ a.toNat ∧ a.toNat < 0x10600000)
  | .granary _ _ => true
  | .gate _ _ => true

/-- Whether a command is well-formed. -/
def Instr.wellFormed : Instr → Bool
  | .tickBoundary inp => inp.wellFormed
  | .curfld run => run.wellFormed
  | .outer run => run.wellFormed
  | .limshare run => run.wellFormed
  | .substitutionPoint _ => true
  | .recomputation _ run => run.wellFormed
  | .recomputedOutputPosted _ => true
  | .datapath => true
  | .hold8 => true
  | .laneSuspect _ => true
  | .laneLost _ => true
  | .sliceStart _ => true
  | .sliceAbort => true
  | .timetableChangeDue => true
  | .ttCtlSwap => true
  | .ttPeriodCyc _ => true
  | .lnTblchkGo _ => true
  | .tableCheckDone _ => true
  | .sdChannelConfig _ _ => true
  | .sdRestart _ => true
  | .sdValid _ => true
  | .sdLoss _ => true
  | .calPositionStep => true
  | .calFitApply => true
  | .isum => true
  | .pwCtlRun _ => true
  | .edgeLate => true
  | .vsCompensationDropped => true
  | .setpointApply => true
  | .leverStale => true
  | .tensionSrc => true
  | .shockClear => true
  | .heaveStale => true
  | .bankSwapEffect => true
  | .fluxBuildEnd => true
  | .fluxTimeout => true
  | .startComplete => true
  | .enable => true
  | .disable => true
  | .start _ => true
  | .stop => true
  | .emergency _ => true
  | .mode _ => true
  | .reset => true
  | .standstillReached => true
  | .brakeSetConfirmed => true
  | .taperComplete => true
  | .brakeReleased => true
  | .brakeFail => true
  | .ertmo => true
  | .ascExit => true
  | .dcUv => true
  | .dcOv bits => bits.length ≤ 1639
  | .chopperFault => true
  | .prechargeDone => true
  | .prechargeTimeout => true
  | .glinkConfig _ _ => true
  | .configResend _ => true
  | .glinkSync _ _ _ => true
  | .lock _ => true
  | .glinkLoop _ _ _ => true
  | .stage _ _ => true
  | .commit _ _ => true
  | .ack _ _ => true
  | .status _ _ => true
  | .tel _ _ => true
  | .diagres _ mv _ => decide (mv < 65536)
  | .periodic _ _ _ _ => true
  | .linkLatch _ _ => true
  | .oncmd _ => true
  | .vgeon _ _ => true
  | .permit _ => true
  | .offcmd _ => true
  | .armedEdgeActs _ => true
  | .turnOnDrop _ => true
  | .shootAttempt _ => true
  | .desat _ => true
  | .uvlo _ _ _ => true
  | .bswarn _ _ => true
  | .refreshPulseInsert _ => true
  | .refreshPulseComplete _ => true
  | .gateEnLow _ => true
  | .gateEnRise _ => true
  | .diagCtlGo _ => true
  | .offstateDiagStep => true
  | .auxOv _ _ => true
  | .switchReclose _ _ => true
  | .fbCtlEn _ => true
  | .fbCtlCorr => true
  | .fbCtlUsepri => true
  | .encoderEdge _ _ => true
  | .indexLatch _ => true
  | .indexMiss => true
  | .lineFault _ _ => true
  | .sincosSample _ _ => true
  | .resolverSample _ _ _ => true
  | .ssiFrame bits => decide (bits.length ≤ 34)
  | .hallTransition _ => true
  | .hallTimeout => true
  | .sourceValid _ => true
  | .encoderEmulationEdge => true
  | .share _ cell => cellWellFormed cell
  | .contrib _ cell => cellWellFormed cell
  | .sync _ cell _ _ _ _ => cellWellFormed cell.bytes
  | .delayReq _ cell => cellWellFormed cell.bytes
  | .delayResp _ cell _ => cellWellFormed cell.bytes
  | .enum _ cell _ => cellWellFormed cell
  | .consist _ cell _ => cellWellFormed cell
  | .notice _ cell => cellWellFormed cell
  | .mgmt _ cell _ => cellWellFormed cell
  | .linkUp _ _ => true
  | .linkDown _ _ => true
  | .blMtxGo _ => true
  | .noshareLaunch => true
  | .holdover => true
  | .syncLost => true
  | .join => true
  | .removalFadeEnd => true
  | .memberDetached => true
  | .deputyTakeover => true
  | .takeover => true
  | .mirrorBlock b _ => blockWellFormed b
  | .aliveIn _ => true
  | .chgIn _ => true
  | .partnerLost => true
  | .partnerRelease => true
  | .mirrorLost => true
  | .aliveLost => true
  | .synced => true
  | .chgOwnAssert => true
  | .pairFb => true
  | .pairJoin => true
  | .pmCfgEn _ => true
  | .pmCtlRelease => true
  | .pmCtlEngage => true
  | .firmwareSwap => true
  | .safetyInputChange _ _ => true
  | .stoOff => true
  | .supply _ => true
  | .inputTest _ => true
  | .genRb _ => true
  | .soutTest _ _ => true
  | .ss1End => true
  | .spdDisc => true
  | .sbSelf _ => true
  | .cfgCrc => true
  | .lockoutExit _ _ => true
  | .tokenFrame => true
  | .tokenTmo => true
  | .tokTxRead _ => true
  | .stoTestDue => true
  | .reqmGateGoff _ => true
  | .mpwd => true
  | .mpLost => true
  | .canCtlMode _ _ => true
  | .canCtlRecover _ => true
  | .canTxctlReq _ _ => true
  | .canTxctlCancel _ _ => true
  | .canFrameValid _ frame => frame.wellFormed
  | .canTxStart _ _ => true
  | .canTxEnd _ _ _ => true
  | .canError _ _ _ _ => true
  | .canRecovered _ => true
  | .canIntegration _ => true
  | .spiWriteTransaction words _ => decide (words.length ≤ 130)
  | .spiReadTransaction _ count _ _ => decide (count ≤ 131)
  | .doorbell _ _ => true
  | .doorbellSignal => true
  | .descriptorPop _ _ => true
  | .finalRecordRelease => true
  | .cplHeadWrite _ _ => true
  | .mpRestart => true
  | .sysInfo d => d.wellFormed
  | .sysNop d => d.wellFormed
  | .sysQuery d => d.wellFormed
  | .sysCancel d => d.wellFormed
  | .sysAttnClr d => d.wellFormed
  | .sysTime d => d.wellFormed
  | .sysTimetable d => d.wellFormed
  | .sysReset d => d.wellFormed
  | .moduleReset f => bootFactsOk f
  | .mdEnable d => d.wellFormed
  | .mdDisable d => d.wellFormed
  | .mdStart d => d.wellFormed
  | .mdStop d => d.wellFormed
  | .mdEmergency d => d.wellFormed
  | .mdMode d => d.wellFormed
  | .mdReset d => d.wellFormed
  | .spWrite d => d.wellFormed
  | .spWriteN d => d.wellFormed
  | .regRead d => d.wellFormed
  | .regWrite d => d.wellFormed
  | .parStage d => d.wellFormed
  | .tblLoad d => d.wellFormed
  | .bankSwap d => d.wellFormed
  | .bankCopy d => d.wellFormed
  | .parSave d => d.wellFormed
  | .fbCorrect d => d.wellFormed
  | .diagOffstate d => d.wellFormed
  | .bistLane d => d.wellFormed
  | .bistMem d => d.wellFormed
  | .bistGate d => d.wellFormed
  | .calPass d => d.wellFormed
  | .crcScan d => d.wellFormed
  | .trConfig d => d.wellFormed
  | .trArm d => d.wellFormed
  | .trTrigger d => d.wellFormed
  | .trRead d => d.wellFormed
  | .evRead d => d.wellFormed
  | .lkEnum d => d.wellFormed
  | .csForm d => d.wellFormed
  | .csAdd d => d.wellFormed
  | .csRemove d => d.wellFormed
  | .csDissolve d => d.wellFormed
  | .prRelease d => d.wellFormed
  | .prEngage d => d.wellFormed
  | .prPser d => d.wellFormed
  | .safeOpen d => d.wellFormed
  | .safeClose d => d.wellFormed
  | .safeConfirm d => d.wellFormed
  | .safeStatus d => d.wellFormed
  | .fwStage d => d.wellFormed
  | .fwVerify d => d.wellFormed
  | .fwSwap d => d.wellFormed
  | .fwDiscard d => d.wellFormed
  | .nvRead d => d.wellFormed
  | .tempMeasurement _ _ => true
  | .pxCHalt => true
  | .auxLoss _ _ => true
  | .auxBack _ _ => true
  | .holdupBusLow _ _ => true
  | .hbok _ _ => true
  | .norJob => true
  | .norOperationComplete _ => true
  | .logPageProgram => true
  | .eventRingPass => true
  | .bistJobResult fail => match fail with | some f => f.wellFormed | none => true
  | .biCtlAbort => true
  | .ccChkCtlGo _ _ => true
  | .ccChkData _ _ => true
  | .crcScanEnd _ _ => true
  | .traceSample => true
  | .ringStop _ => true
  | .teCtlArm _ => true
  | .teCtlDisarm _ => true
  | .teTrig _ => true
  | .queuePush n item => item.length == slotBytes n.val
  | .queuePop _ _ => true
  | .qmIrqClear _ _ => true
  | .tbCntLoRead => true
  | .tbLastLoRead => true
  | .fbPosLoRead => true
  | .fbHofsLoRead => true
  | .nvLogseqLoRead => true
  | .nvLogoldLoRead => true
  | .teTbLoRead _ => true
  | .readClearCounter addr => registerAddress addr
  | .registerWrite addr _ => registerAddress addr
  | .powerOn f => bootFactsOk f
  | .bootComplete => true
  | .overcurrent _ bits => bits.length ≤ 1639
  | .mpReset _ _ => true
  | .exchangeWindowOpen => true
  | .exchangeWindowClose => true
  | .quarterPeriodCount _ => true
  | .idHoldExpiry => true

end Sys2Proof
end

