-- ==== Sys2Proof/Tests/Slice0.lean ====
section
/-! SUPPORT. The model's own tests: the checks of WellFormed refuse what they are there for; operations on figures that the spec
prints; and for every obligation with hypotheses a state and operands that meet them. -/

namespace Sys2Proof.Tests
open Sys2Proof Sys2Proof.Machine
set_option Elab.async false

/-! ### Ill-formed terms are refused -/

theorem test_wf_tick_streams : (Instr.tickBoundary ⟨Vector.replicate 6 true, false, none, List.replicate 11 [], none⟩).wellFormed = false := by decide

theorem test_wf_tick_bits :
    (Instr.tickBoundary ⟨Vector.replicate 6 true, false, none, List.replicate 12 (List.replicate 1640 true), none⟩).wellFormed = false := by
  decide +kernel

theorem test_wf_task_alignment : (Instr.curfld { tables := [(0, 2)] }).wellFormed = false := by decide

theorem test_wf_task_twice : (Instr.outer { tables := [(0, 4), (0, 4)] }).wellFormed = false := by decide

theorem test_wf_cell_length : (Instr.share 0 (List.replicate 31 0)).wellFormed = false := by decide

theorem test_wf_frame_base_id : (Instr.canFrameValid 0 ⟨false, false, false, false, false, 2048, 0, [], 0⟩).wellFormed = false := by decide

theorem test_wf_frame_remote_fd : (Instr.canFrameValid 0 ⟨false, true, true, false, false, 1, 0, [], 0⟩).wellFormed = false := by decide

theorem test_wf_frame_brs : (Instr.canFrameValid 0 ⟨false, false, false, true, false, 1, 0, [], 0⟩).wellFormed = false := by decide

theorem test_wf_frame_length : (Instr.canFrameValid 0 ⟨false, false, true, false, false, 1, 9, [1], 0⟩).wellFormed = false := by decide

theorem test_wf_frame_fd : (Instr.canFrameValid 0 ⟨false, false, true, true, false, 1, 9, List.replicate 12 1, 0⟩).wellFormed = true := by decide

theorem test_wf_descriptor : (Instr.sysNop ⟨1, 1, 0, 0, 0, 0, List.replicate 55 0, none, none⟩).wellFormed = false := by decide

theorem test_wf_slot : (Instr.queuePush 8 (List.replicate 64 0)).wellFormed = false := by decide

theorem test_wf_block : (Instr.mirrorBlock { sn := 2 ^ 32 } ⟨0, 0⟩).wellFormed = false := by decide

theorem test_wf_diagres : (Instr.diagres 0 65536 .answered).wellFormed = false := by decide

theorem test_wf_ssi : (Instr.ssiFrame (List.replicate 35 true)).wellFormed = false := by decide

theorem test_wf_spi_write : (Instr.spiWriteTransaction (List.replicate 131 0) true).wellFormed = false := by decide +kernel

theorem test_wf_spi_read : (Instr.spiReadTransaction 0 132 true true).wellFormed = false := by decide

theorem test_wf_bist : BistFail.wellFormed (.sram 0x10600000 0) = false := by decide

theorem test_wf_register : (Instr.registerWrite 0x40140000 0).wellFormed = false := by decide

/-! ### Figures that the spec prints -/

/-- The ASCII digits over which R474 gives the check values. -/
def digits : List Byte := [0x31, 0x32, 0x33, 0x34, 0x35, 0x36, 0x37, 0x38, 0x39]

/-- The check values of 15 R474. -/
theorem test_crc_checks : [0, 1, 2, 3].map (fun p => ccFinal p (ccRun p (ccInit p) digits)) = [0xCBF43926, 0xE3069283, 0x29B1, 0xDF] := by
  decide +kernel

theorem test_crc_functions : (crc32c digits, crc16 digits, crc8 digits) = (0xE3069283, 0x29B1, 0xDF) := by decide +kernel

/-- The lag of the rated-point example of chapter 03: N = 125 at 20 MHz and the default tick give 7,470 cyc (R96). -/
theorem test_sd_lag : ((State.reset.wr R.SD_CFG_OSR 125).wr R.SD_CFG_CLKSEL 1).sdLag = 7470 := by decide +kernel

/-- Multi-byte values are little-endian (R11). -/
theorem test_sram_word :
    (match exec (.registerWrite 0x10000004 0x12345678) State.reset with
      | .next t => t.memBytes 0x10000004 4
      | _ => []) = [0x78, 0x56, 0x34, 0x12] := by decide +kernel

/-- Both ends of the tick: the boundary of the default period (R30, R36). -/
theorem test_tick_boundary :
    (match exec (.tickBoundary ⟨Vector.replicate 6 true, false, none, List.replicate 12 [], none⟩) State.reset with
      | .next t => (t.time.tb, t.time.tbLast, t.tickno)
      | _ => (0, 0, 0)) = (10000, 10000, 1) := by decide +kernel

/-- The machine runs after reset (R17). -/
theorem test_reset_running : State.reset.Running := by decide

/-! ### States and operands that meet the hypotheses of the obligations -/

theorem witness_StepRunsFront : ∃ (c : Instr) (rest : List Instr) (s : State), s.pending = c :: rest :=
  ⟨.traceSample, [.norJob], { State.reset with pending := [.traceSample, .norJob] }, rfl⟩

theorem witness_EmptyQueueIsOneCycle :
  (∃ s : State, s.Running ∧ s.pending = [] ∧ s.time.tb + 1 < s.time.tbLast + s.period) ∧
  (∃ s : State, s.Running ∧ s.pending = [] ∧ s.time.tbLast + s.period ≤ s.time.tb + 1) :=
  ⟨⟨State.reset, by decide +kernel⟩, ⟨{ State.reset with time := { State.reset.time with tb := 9999 } }, by decide +kernel⟩⟩

theorem witness_InvariantKept : ∃ s t : State, s.Inv ∧ step s = .next t :=
  ⟨{ State.reset with pending := [.teTrig 1] }, teTrig 1 { State.reset with out := {} }, by decide +kernel, rfl⟩

theorem witness_CommandFootprint :
  ∃ (c : Instr) (s t : State) (a : Nat), exec c s = .next t ∧ t.home a = s.home a ∧ regBlock (s.home a) ∉ writes c :=
  ⟨.teTrig 1, State.reset, teTrig 1 { State.reset with out := {} }, 0x40030000, rfl, by decide +kernel, by decide +kernel⟩

theorem witness_HaltedModuleKeepsItsState : ∃ (c : Instr) (s : State), s.sys.halted = true ∧ ∀ f, c ≠ .powerOn f :=
  ⟨.traceSample, { State.reset with sys := { State.reset.sys with halted := true } }, rfl, (fun f h => by cases h)⟩

theorem witness_TimeIsRateOnlyWhileTheDriveIsOn :
  (∃ s : State, s.Running ∧ 2 ≤ s.drive ∧ s.time.stepTo = some (-5)) ∧
  (∃ s : State, s.Running ∧ s.drive ≤ 1 ∧ s.time.stepTo = some (-5)) ∧
  (∃ (c : Instr) (s t : State), (∀ inp, c ≠ .tickBoundary inp) ∧ (∀ f, c ≠ .moduleReset f) ∧ (∀ f, c ≠ .powerOn f) ∧ exec c s = .next t) :=
  ⟨⟨{ State.reset.wr R.LN_MD_STAT_STATE 3 with time := { State.reset.time with stepTo := some (-5) } }, by decide +kernel⟩,
   ⟨{ State.reset with time := { State.reset.time with stepTo := some (-5) } }, by decide +kernel⟩,
   ⟨.teTrig 1, State.reset, teTrig 1 { State.reset with out := {} }, (fun f h => by cases h), (fun f h => by cases h), (fun f h => by cases h), rfl⟩⟩

theorem witness_TaskRunsFromItsStart :
  (∃ (run : TaskRun) (s : State), s.Running ∧ s.rd R.LN_STAT_UNUSABLE = 0 ∧ (s.task 1).started = false ∧ run.fault = none) ∧
  (∃ (run : TaskRun) (s : State), s.Running ∧ s.rd R.LN_STAT_UNUSABLE = 0 ∧ (s.task 2).started = false ∧ run.fault = none) ∧
  (∃ (run : TaskRun) (s : State), s.Running ∧ s.rd R.LN_STAT_UNUSABLE = 0 ∧ (s.task 3).started = false ∧ run.fault = none) ∧
  (∃ (run : TaskRun) (s : State) (k : _) (off : _), s.Running ∧ s.rd R.LN_STAT_UNUSABLE = 0 ∧ run.fault = some (k, off) ∧
      (s.task 1).started = false) ∧
  (∃ (run : TaskRun) (s : State) (k : _) (off : _), s.Running ∧ s.rd R.LN_STAT_UNUSABLE = 0 ∧ run.fault = some (k, off) ∧
      (s.task 2).started = false) ∧
  (∃ (run : TaskRun) (s : State) (k : _) (off : _), s.Running ∧ s.rd R.LN_STAT_UNUSABLE = 0 ∧ run.fault = some (k, off) ∧
      (s.task 3).started = false) :=
  ⟨⟨{}, State.reset, by decide +kernel⟩,
   ⟨{}, State.reset, by decide +kernel⟩,
   ⟨{}, State.reset, by decide +kernel⟩,
   ⟨{ fault := some (.residue, 100) }, State.reset, .residue, 100, by decide +kernel⟩,
   ⟨{ fault := some (.stateRead, 0) }, State.reset, .stateRead, 0, by decide +kernel⟩,
   ⟨{ fault := some (.upstream, 579) }, State.reset, .upstream, 579, by decide +kernel⟩⟩

theorem witness_SubstitutionPointPostsOrHolds :
  (∃ (task : Fin 3) (s : State), s.Running ∧ (s.task (task.val + 1)).posted = false ∧ (s.task (task.val + 1)).ready = true) ∧
  (∃ (task : Fin 3) (s : State), s.Running ∧ (s.task (task.val + 1)).posted = false ∧ (s.task (task.val + 1)).ready = false ∧
      (s.task (task.val + 1)).everValid = true) ∧
  (∃ (task : Fin 3) (s : State), s.Running ∧ (s.task (task.val + 1)).posted = false ∧ (s.task (task.val + 1)).ready = false ∧
      (s.task (task.val + 1)).everValid = false) :=
  ⟨⟨2, State.reset.setTask 3 (fun t => { t with started := true, ready := true }), by decide +kernel⟩,
   ⟨0, State.reset.setTask 1 (fun t => { t with started := true, everValid := true }), by decide +kernel⟩,
   ⟨2, State.reset, by decide +kernel⟩⟩

theorem witness_RecomputationOfAnAbortedTask :
  (∃ (task : Fin 3) (s : State) (a : _) (run : TaskRun), s.Running ∧ (s.task (task.val + 1)).recompAt = some a ∧ run.fault = none) ∧
  (∃ (task : Fin 3) (s : State) (a : _) (run : TaskRun) (k : _) (off : _), s.Running ∧ (s.task (task.val + 1)).recompAt = some a ∧
      run.fault = some (k, off)) ∧
  (∃ (task : Fin 3) (s : State) (e : _), s.Running ∧ (s.task (task.val + 1)).recompEnd = some e ∧
      e + 8 ≤ s.time.tbLast + (s.taskSlot (task.val + 1)).1 + (s.taskSlot (task.val + 1)).2 ∧ (s.task (task.val + 1)).posted = false) ∧
  (∃ (task : Fin 3) (s : State) (e : _), s.Running ∧ (s.task (task.val + 1)).recompEnd = some e ∧
      s.time.tbLast + (s.taskSlot (task.val + 1)).1 + (s.taskSlot (task.val + 1)).2 < e + 8) :=
  ⟨⟨1, State.reset.setTask 2 (fun t => { t with recompAt := some 1500 }), 1500, {}, by decide +kernel⟩,
   ⟨1, State.reset.setTask 2 (fun t => { t with recompAt := some 1500 }), 1500, { fault := some (.residue, 100) }, .residue, 100, by decide +kernel⟩,
   ⟨1, State.reset.setTask 2 (fun t => { t with recompEnd := some 2872 }), 2872, by decide +kernel⟩,
   ⟨1, State.reset.setTask 2 (fun t => { t with recompEnd := some 2881 }), 2881, by decide +kernel⟩⟩

theorem witness_DatapathFaultsAreRaised :
  (∃ (s : State), s.Running ∧ 3 ≤ s.rd R.LN_STAT_HOLDRUN ∧ s.ln.holdThisTick = true ∧ s.hasCause 0 = false) ∧
  (∃ (s : State), s.Running ∧ 8 ≤ s.rd R.LN_STAT_HOLDRUN ∧ s.ln.holdThisTick = true ∧ s.hasCause 1 = false) ∧
  (∃ (s : State) (lane : Fin 4) (t0 : Nat), s.Running ∧ (((s.ln.errTicks.toList[lane.val]?).getD []).drop 3).head? = some t0 ∧
      wrapTo 32 ((s.tickno : Int) - t0) < 4096) ∧
  (∃ (s : State) (lane : Fin 4), s.Running ∧ testB s.ln.bistFailed lane.val = true ∧ s.rd R.LN_STAT_UNUSABLE = 0) ∧
  (∃ (s : State) (lane : Fin 4), s.Running ∧ testB s.ln.bistFailed lane.val = true ∧ s.rd R.LN_STAT_UNUSABLE ≠ 0 ∧
      s.bit R.LN_STAT_UNUSABLE lane.val = false) ∧
  (∃ (s : State), s.Running ∧ s.cfNew = none ∧ 4 ≤ s.cf.isumRun ∧ s.cf.isumRaised = false) ∧
  (∃ (s : State) (c : _), s.Running ∧ s.cfNew = some c ∧ 4 ≤ c.isumRun ∧ c.isumRaised = false) :=
  ⟨⟨{ State.reset.wr R.LN_STAT_HOLDRUN 3 with ln.holdThisTick := true }, by decide +kernel⟩,
   ⟨{ State.reset.wr R.LN_STAT_HOLDRUN 8 with ln.holdThisTick := true }, by decide +kernel⟩,
   ⟨{ State.reset.wr R.TB_TICKNO 4101 with ln.errTicks := Vector.replicate 4 [9, 8, 7, 6, 5] }, 3, 6, by decide +kernel⟩,
   ⟨{ State.reset with ln.bistFailed := 8 }, 3, by decide +kernel⟩,
   ⟨{ State.reset.wr R.LN_STAT_UNUSABLE 1 with ln.bistFailed := 8 }, 3, by decide +kernel⟩,
   ⟨{ State.reset with cf.isumRun := 4 }, by decide +kernel⟩,
   ⟨{ State.reset with cfNew := some { isumRun := 4 } }, { isumRun := 4 }, by decide +kernel⟩⟩

theorem witness_SlicesRunInsideIdleWindows :
  (∃ (s : State) (e : _), s.Running ∧ s.ln.slice = none ∧ s.ln.jobs = [] ∧ s.windowEnd = some e ∧ s.phase + 512 ≤ e) ∧
  (∃ (s : State) (e : _) (j : _) (rest : _), s.Running ∧ s.ln.slice = none ∧ s.ln.jobs = j :: rest ∧ j.lane = none ∧ s.tickno % 16 ≠ 0 ∧
      s.windowEnd = some e ∧ s.phase + j.len ≤ e) ∧
  (∃ (s : State) (e : _) (j : _) (rest : _), s.Running ∧ s.ln.slice = none ∧ s.ln.jobs = j :: rest ∧ j.lane = none ∧ s.tickno % 16 ≠ 0 ∧
      s.windowEnd = some e ∧ e < s.phase + j.len ∧ e < s.phase + 512) ∧
  (∃ (s : State) (e : _) (j : _) (rest : _), s.Running ∧ s.ln.slice = none ∧ s.ln.jobs = j :: rest ∧ j.lane = none ∧ s.tickno % 16 ≠ 0 ∧
      s.windowEnd = some e ∧ e < s.phase + j.len ∧ s.phase + 512 ≤ e) ∧
  (∃ (s : State) (k : _) (l : _) (t0 : _) (len : _), s.Running ∧ s.ln.slice = some (k, l, t0, len) ∧ s.time.tb < t0 + len) :=
  ⟨⟨{ State.reset with time.tb := 9388 }, 9900, by decide +kernel⟩,
   ⟨{ State.reset.wr R.TB_TICKNO 1 with time.tb := 9100, ln.jobs := [⟨5, 800, 3, none⟩] }, 9900, ⟨5, 800, 3, none⟩, [], by decide +kernel⟩,
   ⟨{ State.reset.wr R.TB_TICKNO 1 with time.tb := 9389, ln.jobs := [⟨5, 800, 3, none⟩] }, 9900, ⟨5, 800, 3, none⟩, [], by decide +kernel⟩,
   ⟨{ State.reset.wr R.TB_TICKNO 1 with time.tb := 9101, ln.jobs := [⟨5, 800, 3, none⟩] }, 9900, ⟨5, 800, 3, none⟩, [], by decide +kernel⟩,
   ⟨{ State.reset with time.tb := 9899, ln.slice := some (.scrub, 3, 9388, 512) }, .scrub, 3, 9388, 512, by decide +kernel⟩⟩

theorem witness_TimetableChanges :
  (∃ (s : State), s.Running ∧ s.on R.TT_STAT_SWPEND = false ∧ s.ttCheck s.ttShadow s.ttPeriodNext s.tt.periodDue.isSome = 0) ∧
  (∃ (s : State), s.Running ∧ s.on R.TT_STAT_SWPEND = false ∧ s.ttCheck s.ttShadow s.ttPeriodNext s.tt.periodDue.isSome ≠ 0) ∧
  (∃ (s : State) (v : Word), s.Running ∧ s.on R.SB_LOCK_LOCKED = false ∧ (R.TT_PERIOD_CYC.get v ≠ s.period ∨ s.tt.periodDue.isSome = true) ∧
      s.ttCheck (if s.on R.TT_STAT_SWPEND then s.ttShadow else s.ttActive) (R.TT_PERIOD_CYC.get v) true = 0) ∧
  (∃ (s : State), s.Running ∧ s.on R.SB_LOCK_LOCKED = true) ∧
  (∃ (s : State) (d : _), s.Running ∧ s.tt.swapDue = some d ∧ d ≤ s.time.tbLast ∧ s.tt.periodDue = none ∧ s.tt.passed = s.ttShadow.map ttEncode ∧
      s.ttCheck s.ttShadow s.period false = 0) ∧
  (∃ (s : State) (d : _), s.Running ∧ s.tt.swapDue = some d ∧ d ≤ s.time.tbLast ∧ s.tt.periodDue = none ∧
      s.ttCheck (s.tt.passed.map (fun w => ttDecode w.1 w.2)) s.period false ≠ 0) ∧
  (∃ (s : State) (p : _) (d : _), s.Running ∧ s.tt.swapDue = none ∧ s.tt.periodDue = some (p, d) ∧ d ≤ s.time.tbLast ∧
      s.ttCheck s.ttActive p true = 0) :=
  ⟨⟨State.reset, by exact ⟨by decide +kernel, by decide +kernel, by rw [ttCheck_long _ _ _ _ (by decide +kernel)]; decide +kernel⟩⟩,
   ⟨State.reset.wr (R.TT_ENTRYn_W0_EN 0) 0, by decide +kernel⟩,
   ⟨State.reset.wr R.SB_LOCK_LOCKED 0, 20000, by refine ⟨?_, ?_, ?_, by rw [ttCheck_long _ _ _ _ (by decide +kernel)]; decide +kernel⟩ <;> decide +kernel⟩,
   ⟨State.reset.wr R.SB_LOCK_LOCKED 1, by decide +kernel⟩,
   ⟨{ State.reset.wr R.TT_STAT_SWPEND 1 with time.tb := 64, time.tbLast := 64, tt.swapDue := some 64, tt.passed := State.reset.ttShadow.map ttEncode }, 64, by refine ⟨?_, ?_, ?_, ?_, ?_, by rw [ttCheck_long _ _ _ _ (by decide +kernel)]; decide +kernel⟩ <;> decide +kernel⟩,
   ⟨{ (State.reset.wr R.TT_STAT_SWPEND 1).wr (R.TT_ENTRYn_W0_EN 0) 0 with time.tb := 64, time.tbLast := 64, tt.swapDue := some 64 }, 64, by decide +kernel⟩,
   ⟨{ State.reset.wr R.TT_STAT_PEND 1 with time.tb := 64, time.tbLast := 64, tt.periodDue := some (20000, 64) }, 20000, 64, by refine ⟨?_, ?_, ?_, ?_, by rw [ttCheck_long _ _ _ _ (by decide +kernel)]; decide +kernel⟩ <;> decide +kernel⟩⟩

theorem witness_StaleTablesAreChecked :
  (∃ (s : State) (v : Word), s.Running ∧ R.LN_TBLCHK_GO.get v = 1) ∧
  (∃ (s : State) (id : _), s.Running ∧ s.ln.checking = some id ∧ (tblPlace id).2 ≠ 0 ∧ crc32c (s.tableBytes s.ln.bankB id) = s.rd R.LN_TBLCRC) ∧
  (∃ (s : State) (id : _), s.Running ∧ s.ln.checking = some id ∧ smapGet (fun _ => 0) s.ln.checkFails id = 0) ∧
  (∃ (s : State) (id : _), s.Running ∧ s.ln.checking = some id ∧ smapGet (fun _ => 0) s.ln.checkFails id = 1 ∧ s.stale id = true) ∧
  (∃ (s : State) (tick : _), s.Running ∧ s.ln.bankTick = some tick ∧ 0 ≤ modDiff 32 s.tickno tick ∧ s.rd R.LN_TBLSTALE = 0 ∧
      s.loadInProgress = false) ∧
  (∃ (s : State) (tick : _), s.Running ∧ s.ln.bankTick = some tick ∧ 0 ≤ modDiff 32 s.tickno tick ∧ s.rd R.LN_TBLSTALE ≠ 0) :=
  ⟨⟨State.reset, 0x8000000F, by decide +kernel⟩,
   ⟨{ State.reset.wr R.LN_TBLCRC 0xFBA32BA2 with ln.checking := some 4 }, 4, by exact ⟨rfl, rfl, by decide, (congrArg crc32c (a₂ := List.replicate 132 0) (by decide +kernel)).trans (crc32c_zeros.trans (by decide +kernel))⟩⟩,
   ⟨{ State.reset with ln.checking := some 15 }, 15, by decide +kernel⟩,
   ⟨{ State.reset.wrBit R.LN_TBLSTALE 15 true with ln.checking := some 15, ln.checkFails := [(15, 1)] }, 15, by decide +kernel⟩,
   ⟨{ State.reset with ln.bankTick := some 0 }, 0, by decide +kernel⟩,
   ⟨{ State.reset.wr R.LN_TBLSTALE 1 with ln.bankTick := some 0 }, 0, by decide +kernel⟩⟩

theorem witness_SetpointsAndStaleInputs :
  (∃ (s : State) (kind : _) (r : _), s.Running ∧ s.ol.slots = [(kind, r)] ∧ recordDue r s.tickno = true) ∧
  (∃ (s : State), s.Running ∧ s.ol.leverStale = false ∧ s.coef 2 R.LN_OL_LVTMO ≤ s.ol.leverAge) ∧
  (∃ (s : State), s.Running ∧ s.ol.loadPinSeen = true ∧ s.ol.loadPinStale = false ∧ s.loadPinOld = true) ∧
  (∃ (s : State), s.Running ∧ s.ol.hvSeen = true ∧ s.ol.hvStale = false ∧
      ((s.coef 2 R.LN_OL_HVTMO * s.period : Nat) : Int) < (s.time.tbLast : Int) + s.coef 2 R.LN_OL_HVLEAD - s.ol.hvStamp) ∧
  (∃ (s : State), s.Running ∧ s.olp.shock = true ∧ s.coef 2 R.LN_OL_CHOLD ≤ s.olp.calm) :=
  ⟨⟨{ State.reset with ol.slots := [(8, [8, 1, 0, 0, 0, 0, 0, 0, 0, 1, 0, 0, 0, 2, 0, 0])] }, 8, [8, 1, 0, 0, 0, 0, 0, 0, 0, 1, 0, 0, 0, 2, 0, 0], by decide +kernel⟩,
   ⟨{ State.reset with ol.leverAge := 40 }, by decide +kernel⟩,
   ⟨{ State.reset with ol.loadPinSeen := true, ol.loadPinStamp := 18446743073709551616 }, by decide +kernel⟩,
   ⟨{ State.reset with ol.hvSeen := true, ol.hvStamp := -100000000000 }, by decide +kernel⟩,
   ⟨{ State.reset with olp.shock := true, olp.calm := 100000 }, by decide +kernel⟩⟩

theorem witness_StartsEnd :
  (∃ (s : State), s.Running ∧ s.olp.start = 2 ∧ s.fluxBuilt = true ∧ s.induction = true ∧ s.drive = 3) ∧
  (∃ (s : State), s.Running ∧ s.olp.start = 2 ∧ s.fluxBuilt = false ∧ s.drive = 3 ∧ s.fluxLate s.olp = true) ∧
  (∃ (s : State), s.Running ∧ s.seq.starting = true ∧ s.olp.start = 4) :=
  ⟨⟨{ (State.reset.wr R.LN_MD_STAT_STATE 3).wr R.LN_CF_MACH_TYPE 1 with olp.start := 2 }, by decide +kernel⟩,
   ⟨{ (State.reset.wr R.LN_MD_STAT_STATE 3) with olp.start := 2, cf.psirRef := 1, time.tbLast := 1000000000 }, by decide +kernel⟩,
   ⟨{ State.reset with seq.starting := true, olp.start := 4 }, by decide +kernel⟩⟩

theorem witness_SigmaDeltaChannelSteps :
  (∃ (ch : Fin 12) (s : State) (v : Word), s.Running ∧ s.on R.SB_LOCK_LOCKED = false ∧
      (11 ≤ (R.SD_CHn_CFG_ROLE ch.val).get v ∨ (1 ≤ (R.SD_CHn_CFG_ROLE ch.val).get v ∧ (R.SD_CHn_CFG_ROLE ch.val).get v ≤ 9 ∧
      ∃ m : Fin 12, m ≠ ch ∧ s.rd (R.SD_CHn_CFG_ROLE m.val) = (R.SD_CHn_CFG_ROLE ch.val).get v))) ∧
  (∃ (ch : Fin 12) (s : State) (v : Word), s.Running ∧ s.on R.SB_LOCK_LOCKED = false ∧
      ((R.SD_CHn_CFG_ROLE ch.val).get v = 0 ∨ (R.SD_CHn_CFG_ROLE ch.val).get v = 10 ∨ ((R.SD_CHn_CFG_ROLE ch.val).get v ≤ 9 ∧
      ∀ m : Fin 12, m ≠ ch → s.rd (R.SD_CHn_CFG_ROLE m.val) ≠ (R.SD_CHn_CFG_ROLE ch.val).get v))) ∧
  (∃ (s : State), s.Running ∧ s.on R.SB_LOCK_LOCKED = true) ∧
  (∃ (ch : Fin 12) (s : State), s.Running ∧ s.on R.SD_CFG_EN = true ∧ s.on (R.SD_CHn_CFG_EN ch.val) = true ∧
      s.on (R.SD_CHn_STAT_LOSS ch.val) = false ∧ 3 * s.sdRatio ≤ s.bitsSince (s.sdc ch.val).fillFrom ∧
      46 ≤ s.bitsSince (s.sdc ch.val).fillFrom) ∧
  (∃ (ch : Fin 12) (s : State), s.Running ∧ s.sdRuns ch.val = true ∧ s.on (R.SD_CHn_STAT_LOSS ch.val) = false) :=
  ⟨⟨11, State.reset, (R.SD_CHn_CFG_ROLE 11).set 11 0, by decide +kernel⟩,
   ⟨11, State.reset.wr (R.SD_CHn_CFG_ROLE 11) 9, (R.SD_CHn_CFG_ROLE 11).set 9 0, by decide +kernel⟩,
   ⟨State.reset.wr R.SB_LOCK_LOCKED 1, by decide +kernel⟩,
   ⟨11, { (State.reset.wr (R.SD_CHn_CFG_EN 11) 1).wr R.SD_CFG_EN 1 with time.tb := 20000 }, by decide +kernel⟩,
   ⟨11, (State.reset.wr R.SD_CFG_EN 1).wr (R.SD_CHn_CFG_EN 11) 1, by decide +kernel⟩⟩

theorem witness_CalibrationSteps :
  (∃ (s : State), s.Running ∧ s.on R.SD_CAL_CTL_EN = true ∧ s.on R.SD_CAL_STAT_CALERR = false ∧ (s.roleCh 9).isSome = true ∧
      max 1 (s.rd R.SD_CAL_CTL_SETTLE) + s.calDwell ≤ s.sd.cal.ticks) ∧
  (∃ (s : State) (f : _) (rest : _), s.Running ∧ s.sd.cal.fits = f :: rest ∧ f.ready = true ∧ absR f.gain ≤ 2 / 100 ∧ absR f.ofs ≤ 1 / 100) ∧
  (∃ (s : State) (f : _) (rest : _), s.Running ∧ s.sd.cal.fits = f :: rest ∧ f.ready = true ∧ (2 / 100 < absR f.gain ∨ 1 / 100 < absR f.ofs) ∧
      (s.sdc f.ch).rangeRun ≠ 2) :=
  ⟨⟨{ (State.reset.wr R.SD_CAL_CTL_EN 1).wr (R.SD_CHn_CFG_ROLE 11) 9 with sd.cal.ticks := 5000 }, by decide +kernel⟩,
   ⟨{ State.reset with sd.cal.fits := [⟨11, 2 / 100, -1 / 100, true⟩] }, ⟨11, 2 / 100, -1 / 100, true⟩, [], by decide +kernel⟩,
   ⟨{ State.reset with sd.cal.fits := [⟨11, 3 / 100, 0, true⟩] }, ⟨11, 3 / 100, 0, true⟩, [], by decide +kernel⟩⟩

theorem witness_PwmSteps :
  (∃ (s : State), s.Running ∧ s.runRefused = false) ∧
  (∃ (s : State), s.Running ∧ s.runRefused = true) ∧
  (∃ (s : State), s.Running ∧ 3 ≤ s.pw.lateRun ∧ s.hasCause 5 = false) ∧
  (∃ (s : State), s.Running ∧ (∃ r ∈ s.pw.residues, r.left = 0)) :=
  ⟨⟨[1, 2, 3, 4, 8].foldl (fun s r => (s.wr (R.SD_CHn_CFG_ROLE r) r).wr (R.SD_CHn_CFG_EN r) 1) State.reset, by decide +kernel⟩,
   ⟨State.reset.wr R.PW_CARRIER_ORIGIN 0x3FFF, by decide +kernel⟩,
   ⟨{ State.reset with pw.lateRun := 3 }, by decide +kernel⟩,
   ⟨{ State.reset with pw.residues := [⟨0, 1, 0⟩, ⟨2, 1, 3⟩] }, by decide +kernel⟩⟩

theorem witness_GateLinkConfiguration :
  (∃ (c : Fin 7) (a : Nat) (v : Word) (n : Nat) (rest : List (GdItem × Nat)) (s : State) (held : Word), s.Running ∧
      (s.gch c.val).config = (.word a v, n) :: rest ∧
      (a = (R.GD_CHc_CFG0_VON c.val).addr ∨ a = (R.GD_CHc_CFG1_DSEN c.val).addr ∨ a = (R.GD_CHc_BOOST_EN c.val).addr) ∧
      s.frameFits c.val 160 true = true ∧
      held = (if a = (R.GD_CHc_CFG0_VON c.val).addr then (s.gch c.val).cfg0 else if a = (R.GD_CHc_CFG1_DSEN c.val).addr then (s.gch c.val).cfg1 else (s.gch c.val).boost) ∧
      (configRefused (a - (R.GD_CHc_CFG0_VON c.val).addr) v.toNat = true ∨ (((held ^^^ v) &&& ~~~(configLive (a - (R.GD_CHc_CFG0_VON c.val).addr))) ≠ 0 ∧
      (s.gch c.val).en = true))) ∧
  (∃ (c : Fin 7) (a : Nat) (v : Word) (n : Nat) (rest : List (GdItem × Nat)) (s : State) (held : Word), s.Running ∧
      (s.gch c.val).config = (.word a v, n) :: rest ∧
      (a = (R.GD_CHc_CFG0_VON c.val).addr ∨ a = (R.GD_CHc_CFG1_DSEN c.val).addr ∨ a = (R.GD_CHc_BOOST_EN c.val).addr) ∧
      s.frameFits c.val 160 true = true ∧
      held = (if a = (R.GD_CHc_CFG0_VON c.val).addr then (s.gch c.val).cfg0 else if a = (R.GD_CHc_CFG1_DSEN c.val).addr then (s.gch c.val).cfg1 else (s.gch c.val).boost) ∧
      configRefused (a - (R.GD_CHc_CFG0_VON c.val).addr) v.toNat = false ∧
      (((held ^^^ v) &&& ~~~(configLive (a - (R.GD_CHc_CFG0_VON c.val).addr))) = 0 ∨ (s.gch c.val).en = false)) ∧
  (∃ (c : Fin 7) (a : Nat) (v : Word) (n : Nat) (rest : List (GdItem × Nat)) (s : State), s.Running ∧
      (s.gch c.val).config = (.word a v, n) :: rest ∧
      (a = (R.GD_CHc_CFG0_VON c.val).addr ∨ a = (R.GD_CHc_CFG1_DSEN c.val).addr ∨ a = (R.GD_CHc_BOOST_EN c.val).addr) ∧
      s.frameFits c.val 160 true = false) ∧
  (∃ (c : Fin 7) (a : Nat) (v : Word) (n : Nat) (rest : List (GdItem × Nat)) (s : State), s.Running ∧
      (s.gch c.val).config = (.word a v, n) :: rest ∧
      (a = (R.GD_CHc_CFG0_VON c.val).addr ∨ a = (R.GD_CHc_CFG1_DSEN c.val).addr ∨ a = (R.GD_CHc_BOOST_EN c.val).addr) ∧
      (s.gch c.val).ack = some true) ∧
  (∃ (c : Fin 7) (a : Nat) (v : Word) (n : Nat) (rest : List (GdItem × Nat)) (s : State), s.Running ∧
      (s.gch c.val).config = (.word a v, n) :: rest ∧
      (a = (R.GD_CHc_CFG0_VON c.val).addr ∨ a = (R.GD_CHc_CFG1_DSEN c.val).addr ∨ a = (R.GD_CHc_BOOST_EN c.val).addr) ∧
      (s.gch c.val).ack = some false) ∧
  (∃ (c : Fin 7) (a : Nat) (v : Word) (n : Nat) (rest : List (GdItem × Nat)) (s : State), s.Running ∧
      (s.gch c.val).config = (.word a v, n) :: rest ∧
      (a = (R.GD_CHc_CFG0_VON c.val).addr ∨ a = (R.GD_CHc_CFG1_DSEN c.val).addr ∨ a = (R.GD_CHc_BOOST_EN c.val).addr) ∧
      (s.gch c.val).ack ≠ none) ∧
  (∃ (c : Fin 7) (a : Nat) (v : Word) (n : Nat) (rest : List (GdItem × Nat)) (s : State), s.Running ∧
      (s.gch c.val).config = (.word a v, n) :: rest ∧
      (a = (R.GD_CHc_CFG0_VON c.val).addr ∨ a = (R.GD_CHc_CFG1_DSEN c.val).addr ∨ a = (R.GD_CHc_BOOST_EN c.val).addr) ∧ (s.gch c.val).ack = none ∧
      n < 3) ∧
  (∃ (c : Fin 7) (a : Nat) (v : Word) (n : Nat) (rest : List (GdItem × Nat)) (s : State), s.Running ∧
      (s.gch c.val).config = (.word a v, n) :: rest ∧
      (a = (R.GD_CHc_CFG0_VON c.val).addr ∨ a = (R.GD_CHc_CFG1_DSEN c.val).addr ∨ a = (R.GD_CHc_BOOST_EN c.val).addr) ∧ (s.gch c.val).ack = none ∧
      3 ≤ n) :=
  ⟨⟨6, (R.GD_CHc_CFG0_VON 6).addr, 0xB0000000, 3, [], State.reset.setGch 6 (fun g => { g with config := [(.word (R.GD_CHc_CFG0_VON 6).addr 0xB0000000, 3)] }), 0x0A070701, by decide +kernel⟩,
   ⟨6, (R.GD_CHc_CFG0_VON 6).addr, 0x0A070701, 3, [], State.reset.setGch 6 (fun g => { g with config := [(.word (R.GD_CHc_CFG0_VON 6).addr 0x0A070701, 3)] }), 0x0A070701, by decide +kernel⟩,
   ⟨6, (R.GD_CHc_BOOST_EN 6).addr, 7, 3, [], { State.reset.setGch 6 (fun g => { g with config := [(.word (R.GD_CHc_BOOST_EN 6).addr 7, 3)] }) with gd.stageAt := some 100, time.tb := 300 }, by decide +kernel⟩,
   ⟨6, (R.GD_CHc_BOOST_EN 6).addr, 7, 3, [], State.reset.setGch 6 (fun g => { g with config := [(.word (R.GD_CHc_BOOST_EN 6).addr 7, 3)], ack := some true }), by decide +kernel⟩,
   ⟨0, (R.GD_CHc_CFG0_VON 0).addr, 7, 3, [], State.reset.setGch 0 (fun g => { g with config := [(.word (R.GD_CHc_CFG0_VON 0).addr 7, 3)], ack := some false }), by decide +kernel⟩,
   ⟨0, (R.GD_CHc_CFG0_VON 0).addr, 7, 3, [], State.reset.setGch 0 (fun g => { g with config := [(.word (R.GD_CHc_CFG0_VON 0).addr 7, 3)], ack := some false }), by decide +kernel⟩,
   ⟨1, (R.GD_CHc_CFG1_DSEN 1).addr, 7, 2, [], State.reset.setGch 1 (fun g => { g with config := [(.word (R.GD_CHc_CFG1_DSEN 1).addr 7, 2)] }), by decide +kernel⟩,
   ⟨1, (R.GD_CHc_CFG1_DSEN 1).addr, 7, 3, [], State.reset.setGch 1 (fun g => { g with config := [(.word (R.GD_CHc_CFG1_DSEN 1).addr 7, 3)] }), by decide +kernel⟩⟩

theorem witness_GateLinkClocks :
  (∃ (c : Fin 7) (s : State), s.Running ∧ s.frameFits c.val 160 false = true ∧ (s.gch c.val).stepTx = true) ∧
  (∃ (c : Fin 7) (s : State) (tm : SyncTiming) (e : Int), s.Running ∧ s.frameFits c.val 160 false = true ∧ (s.gch c.val).stepTx = false ∧
      e = (s.gch c.val).slewed tm.drift tm.taken + eighthPs ((tm.flight : Int) - (s.gch c.val).oneWay) ∧ -1000 ≤ e ∧ e ≤ 1000) ∧
  (∃ (c : Fin 7) (s : State) (tm : SyncTiming) (e : Int), s.Running ∧ s.frameFits c.val 160 false = true ∧ (s.gch c.val).stepTx = false ∧
      e = (s.gch c.val).slewed tm.drift tm.taken + eighthPs ((tm.flight : Int) - (s.gch c.val).oneWay) ∧ (e < -2000 ∨ 2000 < e) ∧
      (s.gch c.val).lock = true ∧ 2 ≤ (s.gch c.val).syncBad) ∧
  (∃ (c : Fin 7) (s : State), s.Running ∧ 16 ≤ (s.gch c.val).syncGood ∧ (s.gch c.val).lock = false) ∧
  (∃ (c : Fin 7) (s : State) (b : Byte), s.Running ∧ s.frameFits c.val 80 true = true ∧ (s.gch c.val).link = true ∧
      (s.gch c.val).loopTag = some b.toNat) :=
  ⟨⟨6, State.reset.setGch 6 (fun g => { g with stepTx := true, lock := true }), by decide +kernel⟩,
   ⟨6, State.reset, { flight := 0, drift := -1000, taken := 0 }, -1000, by decide +kernel⟩,
   ⟨6, State.reset.setGch 6 (fun g => { g with lock := true, syncBad := 2 }), { flight := 0, drift := 2001, taken := 0 }, 2001, by decide +kernel⟩,
   ⟨6, State.reset.setGch 6 (fun g => { g with syncGood := 16 }), by decide +kernel⟩,
   ⟨5, State.reset.setGch 5 (fun g => { g with loopTag := some 3 }), 3, by decide +kernel⟩⟩

theorem witness_StagingAndArming :
  (∃ (c : Fin 7) (s : State) (b : _), s.Running ∧ (s.gch c.val).en = true ∧ (s.gch c.val).latch = 0 ∧ (s.gch c.val).stageTx = some b) ∧
  (∃ (c : Fin 7) (s : State) (cseq : _) (b : _), s.Running ∧ (s.gch c.val).en = true ∧ (s.gch c.val).latch = 0 ∧ (s.gch c.val).stageTx = none ∧
      (s.gch c.val).commitTx = some (.accept, cseq) ∧ (s.gch c.val).staged = some b ∧ b.cseq % 256 = cseq % 256) ∧
  (∃ (c : Fin 7) (s : State) (cseq : _) (b : _), s.Running ∧ (s.gch c.val).en = true ∧ (s.gch c.val).latch = 0 ∧ (s.gch c.val).stageTx = none ∧
      (s.gch c.val).commitTx = some (.rearm, cseq) ∧ (s.gch c.val).lastArmed = some b) ∧
  (∃ (c : Fin 7) (s : State) (v : _) (cseq : _), s.Running ∧ (s.gch c.val).en = true ∧ (s.gch c.val).latch = 0 ∧ (s.gch c.val).stageTx = none ∧
      (s.gch c.val).commitTx = some (v, cseq)) ∧
  (∃ (c : Fin 7) (s : State) (cseq : _), s.Running ∧ (s.gch c.val).stageTx = none ∧ (s.gch c.val).commitTx = some (.rejectShoot, cseq)) ∧
  (∃ (c : Fin 7) (s : State) (cseq : _), s.Running ∧ (s.gch c.val).stageTx = none ∧ (s.gch c.val).commitTx = some (.rejectSched, cseq)) :=
  ⟨⟨6, State.reset.setGch 6 (fun g => { g with en := true, stageTx := some ⟨3, 500, [edgeWord true 0], 0, false⟩ }), ⟨3, 500, [edgeWord true 0], 0, false⟩, by decide +kernel⟩,
   ⟨6, State.reset.setGch 6 (fun g => { g with en := true, staged := some ⟨3, 500, [edgeWord true 0], 0, false⟩, commitTx := some (.accept, 259) }), 259, ⟨3, 500, [edgeWord true 0], 0, false⟩, by decide +kernel⟩,
   ⟨0, State.reset.setGch 0 (fun g => { g with en := true, lastArmed := some ⟨3, 500, [edgeWord true 0], 0, false⟩, commitTx := some (.rearm, 4) }), 4, ⟨3, 500, [edgeWord true 0], 0, false⟩, by decide +kernel⟩,
   ⟨0, State.reset.setGch 0 (fun g => { g with en := true, commitTx := some (.rearm, 4) }), .rearm, 4, by decide +kernel⟩,
   ⟨0, State.reset.setGch 0 (fun g => { g with en := true, commitTx := some (.rejectShoot, 4) }), 4, by decide +kernel⟩,
   ⟨0, State.reset.setGch 0 (fun g => { g with en := true, commitTx := some (.rejectSched, 4) }), 4, by decide +kernel⟩⟩

theorem witness_UplinkRecords :
  (∃ (c : Fin 7) (s : State), s.Running ∧ c.val < 6 ∧ (s.gch c.val).news &&& 3 ≠ 0 ∧ ¬(s.sub = 3 ∧ c.val % 2 = 0)) ∧
  (∃ (c : Fin 7) (s : State), s.Running ∧ (∀ t0, (s.gch c.val).telAt = some t0 → t0 + s.telPeriod c.val ≤ s.time.tb)) ∧
  (∃ (c : Fin 7) (s : State) (kind : _) (cseq : _) (data : _) (rest : _), s.Running ∧ (s.gch c.val).tel = (kind, cseq, data) :: rest ∧ kind ≠ 1 ∧
      0 < s.qCredit (42 + c.val)) ∧
  (∃ (c : Fin 7) (s : State) (cseq : _) (data : _) (rest : _), s.Running ∧ (s.gch c.val).tel = (1, cseq, data) :: rest) ∧
  (∃ (c : Fin 7) (s : State) (r : _) (rest : _), s.Running ∧ (s.gch c.val).tel = r :: rest) ∧
  (∃ (c : Fin 7) (s : State) (d : _), s.Running ∧ s.gd.diag = some d ∧ c.val = diagSense d.step) :=
  ⟨⟨5, State.reset.setGch 5 (fun g => { g with news := 2 }), by decide +kernel⟩,
   ⟨0, State.reset, by decide +kernel⟩,
   ⟨6, State.reset.setGch 6 (fun g => { g with tel := [(3, 7, [1, 2, 3, 4, 5, 6, 7, 8])] }), 3, 7, [1, 2, 3, 4, 5, 6, 7, 8], [], by decide +kernel⟩,
   ⟨6, State.reset.setGch 6 (fun g => { g with tel := [(1, 0, [1, 2, 3, 4, 5, 6, 7, 8])] }), 0, [1, 2, 3, 4, 5, 6, 7, 8], [], by decide +kernel⟩,
   ⟨6, State.reset.setGch 6 (fun g => { g with tel := [(1, 0, [1, 2, 3, 4, 5, 6, 7, 8])] }), (1, 0, [1, 2, 3, 4, 5, 6, 7, 8]), [], by decide +kernel⟩,
   ⟨1, { State.reset with gd.diag := some {} }, {}, by decide +kernel⟩⟩

theorem witness_GateLevelsAndPermits :
  (∃ (c : Fin 7) (s : State), s.Running ∧ c.val < 6 ∧ s.rd (R.GD_CHc_STAT_VGEON c.val) = 0 ∧ s.offDue (partner c.val) s.time.tb = false) ∧
  (∃ (c : Fin 7) (s : State), s.Running ∧ c.val < 6 ∧ s.on (R.GD_CHc_STAT_ONCMD (partner c.val)) = false ∧
      s.on (R.GD_CHc_STAT_VGEON (partner c.val)) = false ∧ permitDue c.val s + 40 < s.time.tbLast + s.period ∧
      s.offDue c.val (max s.time.tb (permitDue c.val s)) = false) ∧
  (∃ (c : Fin 7) (s : State), s.Running ∧ c.val = 6 ∧ (s.gch 6).lock = true) ∧
  (∃ (c : Fin 7) (s : State) (b : _) (rest : _) (w : _) (ws : _), s.Running ∧ (s.gch c.val).armed = b :: rest ∧
      b.edges.drop (s.gch c.val).acted = w :: ws ∧ edgeValid w = true ∧ s.edgeInstant c.val b w / 8 < s.time.tbLast + s.period ∧
      edgeLevel w = false) ∧
  (∃ (c : Fin 7) (s : State) (b : _) (rest : _) (w : _) (ws : _), s.Running ∧ (s.gch c.val).armed = b :: rest ∧
      b.edges.drop (s.gch c.val).acted = w :: ws ∧ edgeValid w = true ∧ s.edgeInstant c.val b w / 8 < s.time.tbLast + s.period ∧
      edgeLevel w = true ∧ (s.gch c.val).lock = true ∧ (s.gch c.val).dropPulse = false ∧ (s.gch c.val).latch = 0 ∧ (s.gch c.val).en = true ∧
      (c.val = 6 ∨ s.on (R.GD_CHc_STAT_PERMIT c.val) = true ∧ (s.gch c.val).permitDown ≤ (s.gch c.val).permitUp ∧
      (s.gch c.val).permitUp + 40 ≤ s.edgeInstant c.val b w / 8)) ∧
  (∃ (c : Fin 7) (s : State) (t0 : _), s.Running ∧ (s.gch c.val).waitOn = some t0 ∧ (s.gch c.val).ascWait = false ∧
      s.rd R.GD_DLYMAX < s.time.tb - t0) :=
  ⟨⟨5, State.reset, by decide +kernel⟩,
   ⟨5, State.reset, by decide +kernel⟩,
   ⟨6, State.reset.setGch 6 (fun g => { g with lock := true }), by decide +kernel⟩,
   ⟨5, State.reset.setGch 5 (fun g => { g with armed := [⟨3, 500, [edgeWord false 8], 0, false⟩] }), ⟨3, 500, [edgeWord false 8], 0, false⟩, [], edgeWord false 8, [], by decide +kernel⟩,
   ⟨5, (State.reset.wr (R.GD_CHc_STAT_PERMIT 5) 1).setGch 5 (fun g => { g with en := true, lock := true, armed := [⟨3, 5000, [edgeWord true 8], 0, false⟩] }), ⟨3, 5000, [edgeWord true 8], 0, false⟩, [], edgeWord true 8, [], by decide +kernel⟩,
   ⟨5, { State.reset.setGch 5 (fun g => { g with waitOn := some 10 }) with time.tb := 9000 }, 10, by decide +kernel⟩⟩

theorem witness_GateProtection :
  (∃ (s : State) (leg : Fin 3), s.Running ∧ (s.on (R.GD_CHc_STAT_ONCMD (2 * leg.val)) = true ∨ s.on (R.GD_CHc_STAT_VGEON (2 * leg.val)) = true) ∧
      (s.on (R.GD_CHc_STAT_ONCMD (2 * leg.val + 1)) = true ∨ s.on (R.GD_CHc_STAT_VGEON (2 * leg.val + 1)) = true)) ∧
  (∃ (s : State) (c : Fin 7), s.Running ∧ (R.GD_CHc_CFG1_DSEN c.val).get (s.gch c.val).cfg1 = 1 ∧ (s.gch c.val).on = true ∧
      (s.gch c.val).onAt + 40 * (R.GD_CHc_CFG1_DSBLANK c.val).get (s.gch c.val).cfg1 + 16 ≤ s.time.tb) :=
  ⟨⟨(State.reset.wr (R.GD_CHc_STAT_ONCMD 4) 1).wr (R.GD_CHc_STAT_VGEON 5) 1, 2, by decide +kernel⟩,
   ⟨{ State.reset.setGch 6 (fun g => { g with on := true }) with time.tb := 9000 }, 6, by decide +kernel⟩⟩

theorem witness_BootstrapRefresh :
  (∃ (leg : Fin 3) (s : State) (c : Fin 7), s.Running ∧ c.val = 2 * leg.val) ∧
  (∃ (leg : Fin 3) (s : State) (b : EdgeBlock) (r : RefreshFrames), s.Running ∧ r.leg = leg ∧ s.on (R.GD_CHc_STAT_BSWARN (2 * leg.val)) = true ∧
      s.on R.GD_REFRESH_EN = true ∧ s.sub ≠ 3 ∧ (s.gleg leg.val).pulse = none ∧ laneSpan s.gd.stageAt 500 s.time.tb = false ∧
      laneSpan s.gd.commitAt 76 s.time.tb = false ∧
      (s.commitTick = true → s.time.tb + 200 < s.time.tbLast + (s.taskSlot 3).1 + (s.taskSlot 3).2 ∨ s.time.tbLast + (s.taskSlot 3).1 + (s.taskSlot 3).2 ≤ s.time.tb) ∧
      (s.gch (2 * leg.val)).armed.find? (fun b => refreshFits leg.val b.cstart s) = some b) ∧
  (∃ (leg : Fin 3) (s : State) (cseq : _), s.Running ∧ (s.gleg leg.val).pulse = some cseq) :=
  ⟨⟨2, State.reset.setGleg 2 (fun l => { l with bswarn := true }), 4, by decide +kernel⟩,
   ⟨2, (((State.reset.wr R.GD_REFRESH_EN 1).wr (R.GD_CHc_STAT_BSWARN 4) 1).setGch 4 (fun g => { g with on := true, armed := [⟨3, 5000, [], 0, false⟩] })).setGch 5 (fun g => { g with armed := [⟨3, 5000, [], 0, false⟩] }), ⟨3, 5000, [], 0, false⟩, { leg := 2, highOk := true, lowOk := true }, by decide +kernel⟩,
   ⟨2, State.reset.setGleg 2 (fun l => { l with pulse := some 3 }), 3, by decide +kernel⟩⟩

theorem witness_GateEnableEdges :
  (∃ (c : Fin 7) (s : State), s.Running ∧ (s.gch c.val).en = true ∧ (s.gch c.val).drive = false) ∧
  (∃ (c : Fin 7) (s : State), s.Running ∧ (s.gch c.val).en = false ∧ (s.gch c.val).drive = true) :=
  ⟨⟨6, State.reset.setGch 6 (fun g => { g with en := true }), by decide +kernel⟩,
   ⟨6, { State.reset.setGch 6 (fun g => { g with drive := true, enFall := 100, latch := 2, present := 1 }) with time.tb := 4100 }, by decide +kernel⟩⟩

theorem witness_OffStateDiagnostics :
  (∃ (s : State), s.Running ∧ s.stageIdle = true ∧ 5 / 100 ≤ s.vdc) ∧
  (∃ (s : State), s.Running ∧ (s.stageIdle = false ∨ s.vdc < 5 / 100)) ∧
  (∃ (s : State) (d : _) (mv : _), s.Running ∧ s.gd.diag = some d ∧ d.lost = false ∧ d.reading = some mv ∧ d.since + msCyc 2 ≤ s.time.tb ∧
      d.step < 9) ∧
  (∃ (s : State) (d : _), s.Running ∧ s.gd.diag = some d ∧ d.lost = true ∧ d.since + msCyc 2 ≤ s.time.tb ∧ d.step < 9) ∧
  (∃ (s : State) (d : _) (mv : _), s.Running ∧ s.gd.diag = some d ∧ d.lost = false ∧ d.reading = some mv ∧ d.since + msCyc 2 ≤ s.time.tb ∧
      d.step = 10) :=
  ⟨⟨(State.reset.wr (R.SD_CHn_CFG_ROLE 11) 4).wr (R.SD_CHn_MEAN 11) 0x20000000, by decide +kernel⟩,
   ⟨State.reset, by decide +kernel⟩,
   ⟨{ State.reset with time.tb := 800000, gd.diag := some { step := 8, reading := some 400 } }, { step := 8, reading := some 400 }, 400, by decide +kernel⟩,
   ⟨{ State.reset with time.tb := 800000, gd.diag := some { step := 8, lost := true } }, { step := 8, lost := true }, by decide +kernel⟩,
   ⟨{ State.reset with time.tb := 800000, gd.diag := some { step := 10, reading := some 400 } }, { step := 10, reading := some 400 }, 400, by decide +kernel⟩⟩

/-- The drive in a state and sub-mode. -/
def driveIn (state sub : Nat) : State := (State.reset.wr R.LN_MD_STAT_STATE state).wr R.LN_MD_STAT_SUB sub

/-- A channel whose fast path runs. -/
def fastCh (role : Nat) : State := (((driveIn 3 0).wr R.SD_CFG_EN 1).wr (R.SD_CHn_CFG_EN 11) 1).wr (R.SD_CHn_CFG_ROLE 11) role

/-- A drive that an enable takes to STANDBY and on. -/
def readyToEnable : State :=
  { [1, 2, 3, 4].foldl (fun s r => s.wr (R.SD_CHn_CFG_ROLE r) r) ((((driveIn 1 0).wr R.SB_STAT_STO 0).wr R.SB_STAT_GUARDDONE 1).wr R.SD_STAT_ALLVALID 1) with
    seq.vdcHist := List.replicate 8 (85 / 100, 1) }

theorem witness_EnableAndDisable :
  (∃ (s : State), s.Running ∧ s.drive = 1 ∧ s.isStandby = false ∧ s.enableRefusal = none) ∧
  (∃ (s : State) (r : _), s.Running ∧ s.drive = 1 ∧ s.isStandby = false ∧ s.enableRefusal = some r) ∧
  (∃ (s : State), s.Running ∧ (s.drive ≠ 1 ∨ s.isStandby = true)) ∧
  (∃ (s : State), s.Running ∧ s.drive = 2 ∧ s.isStandby = false) ∧
  (∃ (s : State), s.Running ∧ (s.drive ≠ 2 ∨ s.isStandby = true)) :=
  ⟨⟨readyToEnable, by decide +kernel⟩,
   ⟨driveIn 1 0, ((driveIn 1 0).enableRefusal.getD 0), by decide +kernel⟩,
   ⟨driveIn 2 0, by decide +kernel⟩,
   ⟨driveIn 2 0, by decide +kernel⟩,
   ⟨driveIn 3 0, by decide +kernel⟩⟩

theorem witness_StartAndStop :
  (∃ (mode : Fin 8) (s : State), s.Running ∧ 1 ≤ mode.val ∧ mode.val ≤ 4 ∧ s.isStandby = false ∧ s.drive = 2 ∧ s.on R.GD_STAT_PREDONE = true ∧
      (mode.val ≤ 2 ∨ s.profileRefuses = false)) ∧
  (∃ (mode : Fin 8) (s : State), s.Running ∧ 1 ≤ mode.val ∧ mode.val ≤ 4 ∧ s.isStandby = false ∧ s.drive = 4 ∧ s.sub = 0 ∧
      (mode.val ≤ 2 ∨ s.profileRefuses = false)) ∧
  (∃ (s : State), s.Running ∧ s.drive ≠ 2 ∧ ¬(s.drive = 4 ∧ s.sub = 0)) ∧
  (∃ (mode : Fin 8) (s : State), s.Running ∧ 1 ≤ mode.val ∧ mode.val ≤ 4 ∧ s.isStandby = false ∧ s.drive = 2 ∧ s.on R.GD_STAT_PREDONE = false ∧
      (mode.val ≤ 2 ∨ s.profileRefuses = false)) ∧
  (∃ (s : State), s.Running ∧ s.drive = 3 ∧ s.isStandby = false) ∧
  (∃ (s : State), s.Running ∧ s.drive ≠ 3 ∧ s.drive ≠ 4) :=
  ⟨⟨2, (driveIn 2 0).wr R.GD_STAT_PREDONE 1, by decide +kernel⟩,
   ⟨1, driveIn 4 0, by decide +kernel⟩,
   ⟨driveIn 4 1, by decide +kernel⟩,
   ⟨1, driveIn 2 0, by decide +kernel⟩,
   ⟨driveIn 3 0, by decide +kernel⟩,
   ⟨driveIn 5 0, by decide +kernel⟩⟩

theorem witness_EmergencyModeAndReset :
  (∃ (s : State) (sub : Fin 8), s.Running ∧ s.isStandby = false ∧ s.drive = 3 ∧ (sub.val = 1 ∨ sub.val = 4 ∨ (sub.val = 2 ∧
      s.stageLost = false) ∨ (sub.val = 3 ∧ s.lim.ascarm = true ∧ s.ascBlock = false))) ∧
  (∃ (s : State), s.Running ∧ s.isStandby = false ∧ s.drive = 3 ∧ s.stageLost = true) ∧
  (∃ (s : State), s.Running ∧ s.isStandby = false ∧ s.drive = 3 ∧ s.degradedPath = true) ∧
  (∃ (s : State), s.Running ∧ s.isStandby = false ∧ s.drive ≠ 3 ∧ s.drive ≠ 4) ∧
  (∃ (s : State) (mode : Fin 8), s.Running ∧ s.isStandby = false ∧ 1 ≤ mode.val ∧ mode.val ≤ 4 ∧ s.drive = 2 ∧ s.sub = 0) ∧
  (∃ (s : State) (mode : Fin 8), s.Running ∧ s.isStandby = false ∧ 1 ≤ mode.val ∧ mode.val ≤ 4 ∧ s.drive = 2 ∧ s.sub ≠ 0) ∧
  (∃ (s : State) (mode : Fin 8), s.Running ∧ s.isStandby = false ∧ s.drive = 3 ∧ s.sub = 5 ∧ s.fbReturnOk = false ∧ 1 ≤ mode.val ∧ mode.val ≤ 4) ∧
  (∃ (s : State) (mode : Fin 8), s.Running ∧ s.isStandby = false ∧ 1 ≤ mode.val ∧ mode.val ≤ 4 ∧ s.drive = 3 ∧ s.sub = 0 ∧
      s.rd R.LN_MD_STAT_MODE ≠ 5 ∧ (s.olp.start = 0 ∨ 4 ≤ s.olp.start) ∧ s.profileRefuses = false ∧ s.olp.compl = false) ∧
  (∃ (s : State), s.Running ∧ s.isStandby = false ∧ (s.drive = 1 ∨ s.drive = 5) ∧ s.sub ≠ 3 ∧ s.causePresent = false) ∧
  (∃ (s : State), s.Running ∧ s.isStandby = false ∧ (s.drive = 1 ∨ s.drive = 5) ∧ s.sub ≠ 3 ∧ s.causePresent = true) :=
  ⟨⟨{ driveIn 3 0 with lim.ascarm := true }, 3, by decide +kernel⟩,
   ⟨driveIn 3 0, by decide +kernel⟩,
   ⟨(((driveIn 3 0).wr R.FB_CTL_EN 1).wr R.FB_STAT_SECOK 1).wr R.FB_SEL_SEC 1, by decide +kernel⟩,
   ⟨driveIn 5 0, by decide +kernel⟩,
   ⟨driveIn 2 0, 4, by decide +kernel⟩,
   ⟨driveIn 2 4, 4, by decide +kernel⟩,
   ⟨driveIn 3 5, 2, by decide +kernel⟩,
   ⟨((driveIn 3 0).wr R.LN_MD_CFG_PROF 1).wr R.LN_OL_KFT 5, 4, by decide +kernel⟩,
   ⟨(driveIn 5 1).wr R.LN_MD_FLT 1, by decide +kernel⟩,
   ⟨{ ((driveIn 5 1).wr R.LN_MD_FLT 0x200) with seq.chopDiag := true }, by decide +kernel⟩⟩

theorem witness_BrakeSequenceSteps :
  (∃ (s : State), s.Running ∧ 8 ≤ s.seq.stillRun ∧ s.drive = 4 ∧ s.sub ≤ 2 ∧ s.rd R.LN_MD_BRK_PH = 2 ∧ s.on R.LN_MD_CFG_BRAKE = true) ∧
  (∃ (s : State), s.Running ∧ 8 ≤ s.seq.stillRun ∧ s.drive = 4 ∧ s.sub ≤ 2 ∧ s.rd R.LN_MD_BRK_PH = 2 ∧ s.on R.LN_MD_CFG_BRAKE = false) ∧
  (∃ (s : State), s.Running ∧ 8 ≤ s.seq.stillRun ∧ s.drive = 4 ∧ s.sub = 4 ∧ s.on R.LN_MD_STAT_DEMAND = true) ∧
  (∃ (s : State), s.Running ∧ s.drive = 4 ∧ s.sub ≤ 2 ∧ s.rd R.LN_MD_BRK_PH = 3 ∧ s.setConfirmed = true) ∧
  (∃ (s : State) (t0 : _), s.Running ∧ s.seq.taperAt = some t0 ∧ s.drive = 4 ∧ s.sub ≤ 2 ∧ s.rd R.LN_MD_BRK_PH = 4 ∧
      t0 + 2 * msCyc s.brkTaperMs ≤ s.time.tb) ∧
  (∃ (s : State), s.Running ∧ s.drive = 3 ∧ s.rd R.LN_MD_BRK_PH = 1 ∧ s.seq.release = true ∧ (s.on R.LN_MD_CFG_BRKFB = true ∧
      8 ≤ s.seq.brkLow ∨ s.on R.LN_MD_CFG_BRKFB = false ∧ s.seq.releaseAt + msCyc (s.rd R.LN_MD_BRKT_BRKREL) ≤ s.time.tb)) ∧
  (∃ (s : State), s.Running ∧ s.on R.LN_MD_CFG_BRAKE = true ∧ s.on R.LN_MD_CFG_BRKFB = true ∧ s.seq.setWatch = true ∧
      s.seq.setAt + msCyc (s.brkSetMs + 500) ≤ s.time.tb ∧ s.on R.LN_MD_BRK_FB = false ∧ s.hasCause 15 = false) ∧
  (∃ (s : State), s.Running ∧ s.on R.LN_MD_CFG_BRAKE = true ∧ s.on R.LN_MD_CFG_BRKFB = true ∧ s.seq.setWatch = false ∧ s.drive = 3 ∧
      s.rd R.LN_MD_BRK_PH = 1 ∧ s.seq.release = true ∧ s.on R.LN_MD_BRK_FB = true ∧
      s.seq.releaseAt + msCyc (s.rd R.LN_MD_BRKT_BRKREL + 500) ≤ s.time.tb ∧ s.hasCause 15 = false) :=
  ⟨⟨{ ((driveIn 4 2).wr R.LN_MD_BRK_PH 2).wr R.LN_MD_CFG_BRAKE 1 with seq.stillRun := 8 }, by decide +kernel⟩,
   ⟨{ ((driveIn 4 2).wr R.LN_MD_BRK_PH 2).wr R.LN_MD_CFG_BRAKE 0 with seq.stillRun := 8 }, by decide +kernel⟩,
   ⟨{ (driveIn 4 4).wr R.LN_MD_STAT_DEMAND 1 with seq.stillRun := 8 }, by decide +kernel⟩,
   ⟨{ (((driveIn 4 2).wr R.LN_MD_BRK_PH 3).wr R.LN_MD_BRK_SETCMD 1).wr R.LN_MD_CFG_BRKFB 1 with seq.brkHigh := 8 }, by decide +kernel⟩,
   ⟨{ (driveIn 4 1).wr R.LN_MD_BRK_PH 4 with seq.taperAt := some 0, time.tb := 2000000000 }, 0, by decide +kernel⟩,
   ⟨{ ((driveIn 3 0).wr R.LN_MD_BRK_PH 1).wr R.LN_MD_CFG_BRKFB 1 with seq.release := true, seq.brkLow := 8 }, by decide +kernel⟩,
   ⟨{ ((driveIn 4 0).wr R.LN_MD_CFG_BRAKE 1).wr R.LN_MD_CFG_BRKFB 1 with seq.setWatch := true, time.tb := 2000000000 }, by decide +kernel⟩,
   ⟨{ ((((driveIn 3 0).wr R.LN_MD_CFG_BRAKE 1).wr R.LN_MD_CFG_BRKFB 1).wr R.LN_MD_BRK_PH 1).wr R.LN_MD_BRK_FB 1 with seq.release := true, time.tb := 2000000000 }, by decide +kernel⟩⟩

theorem witness_DriveFaultSteps :
  (∃ (s : State) (t0 : _), s.Running ∧ s.seq.entryAt = some t0 ∧ s.seq.stillRun < 8 ∧ t0 + msCyc (s.rd R.LN_MD_ERTMO) ≤ s.time.tb ∧
      s.hasCause 14 = false) ∧
  (∃ (s : State), s.Running ∧ s.sub = 3 ∧ (s.drive = 4 ∨ s.drive = 5) ∧ 8 ≤ s.seq.ascRun) ∧
  (∃ (s : State), s.Running ∧ s.undervoltage [3, 4] = true ∧ s.hasCause 8 = false) ∧
  (∃ (s : State), s.Running ∧ s.drive = 2 ∧ s.undervoltage [2] = true) ∧
  (∃ (s : State) (bits : List Bool), s.Running ∧ s.sb.effAt = none ∧ ((s.rd R.SB_EFF_VOV * 65536 : Nat) : Int) < s.fastVdc bits ∧
      s.seq.dcovAct = none ∧ s.hasCause 7 = false) ∧
  (∃ (s : State), s.Running ∧ s.spanFault = true ∧ s.hasCause 9 = false) ∧
  (∃ (s : State) (ch : Fin 12) (bits : List Bool), s.Running ∧ s.sb.effAt = none ∧ s.sdRuns ch.val = true ∧
      (s.rd (R.SD_CHn_CFG_ROLE ch.val) = 1 ∨ s.rd (R.SD_CHn_CFG_ROLE ch.val) = 2 ∨ s.rd (R.SD_CHn_CFG_ROLE ch.val) = 3) ∧
      s.rd R.SB_EFF_IPH * 65536 < (s.fastPath ch.val bits).natAbs ∧ s.hasCause 11 = false) ∧
  (∃ (s : State) (ch : Fin 12) (bits : List Bool), s.Running ∧ s.sb.effAt = none ∧ s.sdRuns ch.val = true ∧ s.rd (R.SD_CHn_CFG_ROLE ch.val) = 8 ∧
      s.rd R.SB_EFF_ICH * 65536 < (s.fastPath ch.val bits).natAbs) ∧
  (∃ (s : State), s.Running ∧ s.drive = 2 ∧ s.on R.GD_STAT_PREDONE = false ∧ (∀ l : Fin 3, 4096 ≤ s.rd (R.GD_CHc_RAIL_POS (2 * l.val)))) ∧
  (∃ (s : State) (t0 : _), s.Running ∧ s.gd.preStart = some t0 ∧ s.drive = 2 ∧ s.on R.GD_STAT_PREDONE = false ∧ t0 + msCyc 100 ≤ s.time.tb) :=
  ⟨⟨{ driveIn 4 1 with seq.entryAt := some 0, time.tb := 200000000000 }, 0, by decide +kernel⟩,
   ⟨{ driveIn 5 3 with seq.ascRun := 8 }, by decide +kernel⟩,
   ⟨{ driveIn 3 0 with seq.vdcHist := List.replicate 8 (69 / 100, 4) }, by decide +kernel⟩,
   ⟨{ driveIn 2 0 with seq.vdcHist := List.replicate 8 (69 / 100, 2) }, by decide +kernel⟩,
   ⟨fastCh 4, List.replicate 64 true, by decide +kernel⟩,
   ⟨{ (driveIn 3 0).wr R.LN_MD_CFG_CHEN 1 with pw.span := some (0, some 0, none), time.tb := 800000 }, by decide +kernel⟩,
   ⟨fastCh 3, 11, List.replicate 64 false, by decide +kernel⟩,
   ⟨fastCh 8, 11, List.replicate 64 false, by decide +kernel⟩,
   ⟨[0, 2, 4].foldl (fun s c => s.wr (R.GD_CHc_RAIL_POS c) 4096) (driveIn 2 0), by decide +kernel⟩,
   ⟨{ driveIn 2 0 with gd.preStart := some 0, time.tb := 40000000 }, 0, by decide +kernel⟩⟩

theorem witness_FeedbackControl :
  (∃ (s : State), s.Running ∧ s.on R.FB_CTL_EN = false ∧ s.fbRefused = true) ∧
  (∃ (s : State), s.Running ∧ s.on R.FB_CTL_EN = false ∧ s.fbRefused = false) ∧
  (∃ (s : State), s.Running ∧ s.rd R.FB_STAT_WHY = 3 ∧ s.fbReturnOk = true) ∧
  (∃ (s : State), s.Running ∧ (s.rd R.FB_STAT_WHY ≠ 3 ∨ s.fbReturnOk = false)) ∧
  (∃ (s : State) (source : Fin 5), s.Running ∧ (s.fsrc (source.val + 1)).valid = false ∧ s.fbCond (source.val + 1) = false ∧
      64 ≤ (s.fsrc (source.val + 1)).calm ∧ s.on R.FB_CTL_EN = true) :=
  ⟨⟨State.reset, by decide +kernel⟩,
   ⟨(State.reset.wr R.FB_SEL_PRI 3).wr R.LN_CF_MACH_TYPE 1, by decide +kernel⟩,
   ⟨{ (State.reset.wr R.FB_STAT_WHY 3).wr R.FB_STAT_PRIOK 1 with fb.prioRun := 100000 }, by decide +kernel⟩,
   ⟨State.reset, by decide +kernel⟩,
   ⟨{ (State.reset.wr R.FB_CTL_EN 1) with fb.src := Vector.replicate 5 { calm := 64 } }, 4, by decide +kernel⟩⟩

theorem witness_IncrementalEncoder :
  (∃ (s : State) (a : Bool) (b : Bool), s.Running ∧ s.on R.FB_CTL_EN = true ∧ s.edgeLate = false ∧
      (quadrant a b - quadrant s.fb.abz.a s.fb.abz.b) % 4 = 1) ∧
  (∃ (s : State) (a : Bool) (b : Bool), s.Running ∧ s.on R.FB_CTL_EN = true ∧ s.edgeLate = false ∧
      (quadrant a b - quadrant s.fb.abz.a s.fb.abz.b) % 4 = 3) ∧
  (∃ (s : State) (a : Bool) (b : Bool), s.Running ∧ s.on R.FB_CTL_EN = true ∧ s.edgeLate = false ∧
      (quadrant a b - quadrant s.fb.abz.a s.fb.abz.b) % 4 = 2) ∧
  (∃ (s : State), s.Running ∧ s.edgeLate = true) ∧
  (∃ (s : State), s.Running ∧ s.fb.abz.z = false ∧ s.on R.FB_CTL_EN = true ∧ s.edgeLate = false ∧ s.fbIdx ≠ 0 ∧ s.fb.abz.faultZ = false ∧
      (s.on R.FB_ABZ_CFG_ZQUAL = false ∨ (s.fb.abz.a = true ∧ s.fb.abz.b = true))) ∧
  (∃ (s : State), s.Running ∧ s.on R.FB_CTL_EN = true ∧ s.fbIdx ≠ 0 ∧ s.fb.abz.idxSeen = true ∧
      s.cprOf s.fbIdx + s.rd R.FB_IDXTOL < (diff48 (s.fsrc s.fbIdx).posx s.fb.abz.idxFrom).natAbs) :=
  ⟨⟨State.reset.wr R.FB_CTL_EN 1, true, false, by decide +kernel⟩,
   ⟨State.reset.wr R.FB_CTL_EN 1, false, true, by decide +kernel⟩,
   ⟨State.reset.wr R.FB_CTL_EN 1, true, true, by decide +kernel⟩,
   ⟨{ State.reset.wr R.FB_CTL_EN 1 with time.tb := 9999 }, by decide +kernel⟩,
   ⟨{ (State.reset.wr R.FB_CTL_EN 1).wr R.FB_SEL_IDXSRC 2 with fb.src := Vector.replicate 5 { valid := true, posx := -7 }, fb.abz.a := true, fb.abz.b := true }, by decide +kernel⟩,
   ⟨{ (State.reset.wr R.FB_CTL_EN 1).wr R.FB_SEL_IDXSRC 1 with fb.abz.idxSeen := true, fb.src := Vector.replicate 5 { posx := -1000000000000 } }, by decide +kernel⟩⟩

theorem witness_SampledFeedbackSources :
  (∃ (s : State), s.Running ∧ s.on R.FB_CTL_EN = true ∧ s.fb.gridFrom + (s.time.tb - s.fb.gridFrom + 399) / 400 * 400 < s.time.tbLast + s.period) ∧
  (∃ (s : State), s.Running ∧ s.on R.FB_CTL_EN = true ∧ (s.resolverPeak s.time.tb).1 < s.time.tbLast + s.period ∧
      (s.resolverPeak s.time.tb).2 = false) ∧
  (∃ (s : State) (dat : List Bool), s.Running ∧ s.on R.FB_CTL_EN = true ∧ dat.length = s.rd R.FB_SSI_CFG_BITS ∧
      s.ssiLength + 40 ≤ s.rd R.FB_SSI_LEAD ∧ s.on R.FB_SSI_CFG_ERRBIT = false ∧ s.on R.FB_SSI_CFG_PARITY = false ∧ (s.fsrc 4).first = false) ∧
  (∃ (s : State), s.Running ∧ s.on R.FB_CTL_EN = true ∧ s.rd R.FB_SSI_LEAD < s.ssiLength + 40) :=
  ⟨⟨State.reset.wr R.FB_CTL_EN 1, by decide +kernel⟩,
   ⟨State.reset.wr R.FB_CTL_EN 1, by decide +kernel⟩,
   ⟨((State.reset.wr R.FB_CTL_EN 1).wr R.FB_SSI_CFG_BITS 2).wr R.FB_SSI_LEAD 9000, [true, false], by decide +kernel⟩,
   ⟨((State.reset.wr R.FB_CTL_EN 1).wr R.FB_SSI_CFG_BITS 2).wr R.FB_SSI_LEAD 10, by decide +kernel⟩⟩

theorem witness_HallsAndEmulation :
  (∃ (s : State) (code : Fin 8), s.Running ∧ s.on R.FB_CTL_EN = true ∧ s.hallSector code.val < 6 ∧ s.fb.hall.seen = true ∧
      (s.hallSector code.val + 6 - s.fb.hall.sector) % 6 = 1) ∧
  (∃ (s : State) (code : Fin 8), s.Running ∧ s.on R.FB_CTL_EN = true ∧ s.hallSector code.val < 6 ∧ s.fb.hall.seen = true ∧
      (s.hallSector code.val + 6 - s.fb.hall.sector) % 6 = 5) ∧
  (∃ (s : State) (code : Fin 8), s.Running ∧ s.on R.FB_CTL_EN = true ∧ s.hallSector code.val < 6 ∧ s.fb.hall.seen = true ∧
      2 ≤ (s.hallSector code.val + 6 - s.fb.hall.sector) % 6 ∧ (s.hallSector code.val + 6 - s.fb.hall.sector) % 6 ≤ 4) ∧
  (∃ (s : State) (code : Fin 8), s.Running ∧ s.on R.FB_CTL_EN = true ∧ 6 ≤ s.hallSector code.val) ∧
  (∃ (s : State) (code : Fin 8), s.Running ∧ s.on R.FB_CTL_EN = true ∧ s.hallSector code.val < 6 ∧ s.fb.hall.seen = false) ∧
  (∃ (s : State), s.Running ∧ s.on R.FB_CTL_EN = true ∧ s.fb.hall.stopped = false ∧ s.fb.hall.tEdge + msCyc (s.rd R.FB_HALL_CFG_TMO) ≤ s.time.tb) ∧
  (∃ (s : State), s.Running ∧ s.on R.FB_CTL_EN = true ∧ s.on R.FB_EMU_CFG_EN = true ∧ s.fb.emuOut < s.fb.emuTarget ∧
      max s.time.tb (max (s.fb.emuAt + 40) s.emuEdgeAt) < s.time.tbLast + s.period) ∧
  (∃ (s : State), s.Running ∧ s.on R.FB_CTL_EN = true ∧ s.on R.FB_EMU_CFG_EN = true ∧ s.fb.emuTarget < s.fb.emuOut ∧
      max s.time.tb (max (s.fb.emuAt + 40) s.emuEdgeAt) < s.time.tbLast + s.period) :=
  ⟨⟨{ (State.reset.wr R.FB_CTL_EN 1).wr R.FB_HALL_MAP 8 with fb.hall.seen := true }, 1, by decide +kernel⟩,
   ⟨{ (State.reset.wr R.FB_CTL_EN 1).wr R.FB_HALL_MAP 40 with fb.hall.seen := true }, 1, by decide +kernel⟩,
   ⟨{ (State.reset.wr R.FB_CTL_EN 1).wr R.FB_HALL_MAP 32 with fb.hall.seen := true }, 1, by decide +kernel⟩,
   ⟨(State.reset.wr R.FB_CTL_EN 1).wr R.FB_HALL_MAP 0xFFFFFF, 7, by decide +kernel⟩,
   ⟨(State.reset.wr R.FB_CTL_EN 1).wr R.FB_HALL_MAP 40, 1, by decide +kernel⟩,
   ⟨{ State.reset.wr R.FB_CTL_EN 1 with fb.hall.stopped := false, time.tb := 1000000000 }, by decide +kernel⟩,
   ⟨{ (State.reset.wr R.FB_CTL_EN 1).wr R.FB_EMU_CFG_EN 1 with fb.emuTarget := 1 }, by decide +kernel⟩,
   ⟨{ (State.reset.wr R.FB_CTL_EN 1).wr R.FB_EMU_CFG_EN 1 with fb.emuTarget := -1 }, by decide +kernel⟩⟩

/-- Link ports that are up. -/
def upAt (ps : List Nat) (s : State) : State := ps.foldl (fun s p => s.wr (R.BL_Pp_STAT_UP p) 1) s

/-- A cell with its check. -/
def cellOf (typ flags stick dst hops src epoch : Nat) (payload : List Byte) : List Byte :=
  cellSeal (cellBytes typ flags stick dst hops src epoch payload)

/-- A paired module that modulates. -/
def modulatingState (p : Nat) : State :=
  (((((State.reset.wr R.LN_MD_STAT_STATE 3).wr R.PW_CTL_RUN 1).wr R.SB_STAT_STO 0).wr R.PM_STAT_PSTATE p).wr R.PM_CFG_CONF 1).wr R.SD_STAT_ALLVALID 1

/-- A member of a consist. -/
def memberState : State :=
  { ((((((upAt [3] State.reset).wr R.BL_ROLE_KIND 2).wr R.BL_ROLE_CONSIST 9).wr R.BL_ROLE_SLOT 7).wr R.BL_SYNC_STATE 2).wr R.BL_UID_ID 5).wr R.BL_CS_UNITS_HEAD 4 with
    bl.winOpen := true }

/-- The head of a consist. -/
def headState : State :=
  { (((((upAt [3] State.reset).wr R.BL_ROLE_KIND 1).wr R.BL_ROLE_CONSIST 9).wr R.BL_SYNC_STATE 2).wr R.BL_UID_ID 5) with bl.winOpen := true }

/-- A serial that is not the module's. -/
def otherSerial (s : State) : BitVec 48 := BitVec.ofNat 48 (s.serial + 5)

theorem otherSerial_ne (s : State) : (otherSerial s).toNat ≠ s.serial := by
  rw [otherSerial, BitVec.toNat_ofNat]
  omega

/-- Every unit ID taken. -/
def fullUnits : List (Nat × Nat) := (List.range 1024).map (fun i => (i + 1, 2 ^ 48))

/-- A root whose map is full. -/
def fullMap : State := { (upAt [3] State.reset).wr R.BL_CFG_ROOT 1 with bl.todo := [(0, 2)], bl.units := fullUnits }

theorem fullUnits_taken (i : Nat) (h1 : 1 ≤ i) (h2 : i ≤ 1024) : fullUnits.all (fun u => u.1 != i) = false := by
  have h : (i, 2 ^ 48) ∈ fullUnits := by
    unfold fullUnits
    exact List.mem_map.2 ⟨i - 1, List.mem_range.2 (by omega), Prod.ext (Nat.sub_add_cancel h1) rfl⟩
  exact List.all_eq_false.2 ⟨_, h, by simp⟩

theorem fullUnits_strange (b : BitVec 48) : fullUnits.find? (fun u => u.2 == b.toNat) = none := by
  rw [List.find?_eq_none]
  intro x hx
  obtain ⟨i, _, rfl⟩ := List.mem_map.1 hx
  exact fun h => absurd (beq_iff_eq.1 h).symm (Nat.ne_of_lt b.isLt)

theorem fullMap_pickId (b : BitVec 48) : fullMap.pickId b.toNat 3 0 = none := by
  have hu : fullMap.bl.units = fullUnits := by simp only [fullMap]
  have hi : fullMap.bl.idHolds = [] := by simp only [fullMap]; rfl
  unfold State.pickId
  rw [hu, hi, fullUnits_strange]
  simp only [List.find?_nil, fullUnits_taken 3 (by decide) (by decide)]
  rw [if_neg (by decide), if_neg (by simp), List.find?_eq_none]
  intro x hx
  obtain ⟨i, hi, rfl⟩ := List.mem_map.1 hx
  simp only [fullUnits_taken (i + 1) (by omega) (List.mem_range.1 hi), Bool.and_false, Bool.false_and]
  simp

theorem witness_LinkPortsAndCells :
  (∃ (p : Fin 4) (s : State), s.Running ∧ s.on R.BL_CFG_EN = true ∧ s.portUp p = false) ∧
  (∃ (p : Fin 4) (s : State), s.Running ∧ (s.on R.BL_CFG_EN = false ∨ s.portUp p = true)) ∧
  (∃ (p : Fin 4) (s : State) (cell : TimedCell), s.Running ∧ s.Accepts p cell.bytes 4 ∧ s.bl.winOpen = false) ∧
  (∃ (p : Fin 4) (s : State) (cell : TimedCell), s.Running ∧ s.Accepts p cell.bytes 4 ∧ s.bl.winOpen = true) ∧
  (∃ (p : Fin 4) (s : State) (cell : TimedCell) (t0 : Nat), s.Running ∧ s.Accepts p cell.bytes 5 ∧
      smapGet (fun _ => none) s.bl.reqAt p.val = some t0) ∧
  (∃ (p : Fin 4) (s : State) (cell : TimedCell), s.Running ∧ s.portUp p = true ∧ fieldLE cell.bytes 30 2 ≠ crc16 (padTo 30 cell.bytes)) ∧
  (∃ (p : Fin 4) (s : State), s.Running ∧ s.on (R.BL_Pp_MTX_BUSY p) = false ∧ s.bl.winOpen = false ∧ s.portOpen p = true ∧ s.uid ≠ 0 ∧
      (cellType (bytesLE 4 (s.word (R.BL_Pp_MTX_Ww p 0).addr).toNat) = 7 ∨ cellType (bytesLE 4 (s.word (R.BL_Pp_MTX_Ww p 0).addr).toNat) = 9)) ∧
  (∃ (p : Fin 4) (s : State), s.Running ∧ s.on (R.BL_Pp_MTX_BUSY p) = false ∧ (s.bl.winOpen = true ∨ s.portUp p = false)) ∧
  (∃ (p : Fin 4) (s : State), s.Running ∧ s.on (R.BL_Pp_MTX_BUSY p) = true) :=
  ⟨⟨3, State.reset.wr R.BL_CFG_EN 1, by decide +kernel⟩,
   ⟨0, State.reset, by decide +kernel⟩,
   ⟨3, upAt [3] State.reset, ⟨cellOf 4 0 0 0 0 0 0 [], 5⟩, by decide +kernel⟩,
   ⟨3, { upAt [3] State.reset with bl.winOpen := true }, ⟨cellOf 4 0 0 0 0 0 0 [], 5⟩, by decide +kernel⟩,
   ⟨3, { upAt [3] State.reset with time.tb := 100, bl.reqAt := [(3, some 400)] }, ⟨cellOf 5 0 0 0 0 0 0 [], 5⟩, 400, by decide +kernel⟩,
   ⟨3, upAt [3] State.reset, ⟨[4, 1], 0⟩, by decide +kernel⟩,
   ⟨3, ((upAt [3] State.reset).wr R.BL_UID_ID 5).wr (R.BL_Pp_MTX_Ww 3 0) 0x97, by decide +kernel⟩,
   ⟨3, State.reset, by decide +kernel⟩,
   ⟨3, (upAt [3] State.reset).wr (R.BL_Pp_MTX_BUSY 3) 1, by decide +kernel⟩⟩

theorem witness_LinkSynchronisation :
  (∃ (s : State) (p : Fin 4) (cell : TimedCell) (tb : Nat) (corr : Nat) (root : SyncRoot) (err : Int), s.Running ∧ s.Accepts p cell.bytes 3 ∧
      root.serial.toNat ≠ s.serial ∧ s.bl.syncTb ≠ some (tb, root.serial.toNat) ∧
      err = ((8 * s.time.tb + cell.frac.val : Nat) : Int) - (8 * tb + (corr + s.rd (R.BL_Pp_DELAY p)) : Nat) ∧ s.isRoot = true ∧
      s.rd R.BL_CFG_ROOT = 1 ∧ root.standby = false) ∧
  (∃ (s : State) (p : Fin 4) (cell : TimedCell) (tb : Nat) (period : Nat) (corr : Nat) (root : SyncRoot) (err : Int), s.Running ∧
      s.Accepts p cell.bytes 3 ∧ root.serial.toNat ≠ s.serial ∧ s.bl.syncTb ≠ some (tb, root.serial.toNat) ∧
      err = ((8 * s.time.tb + cell.frac.val : Nat) : Int) - (8 * tb + (corr + s.rd (R.BL_Pp_DELAY p)) : Nat) ∧ s.isRoot = false ∧
      period ≠ s.period) ∧
  (∃ (s : State) (p : Fin 4) (cell : TimedCell) (tb : Nat) (period : Nat) (corr : Nat) (root : SyncRoot) (err : Int), s.Running ∧
      s.Accepts p cell.bytes 3 ∧ root.serial.toNat ≠ s.serial ∧ s.bl.syncTb ≠ some (tb, root.serial.toNat) ∧
      err = ((8 * s.time.tb + cell.frac.val : Nat) : Int) - (8 * tb + (corr + s.rd (R.BL_Pp_DELAY p)) : Nat) ∧ s.isRoot = false ∧
      period = s.period ∧ s.linkLocked = false ∧ -6 ≤ err ∧ err ≤ 6 ∧ 15 ≤ s.bl.syncGood) ∧
  (∃ (s : State) (p : Fin 4) (cell : TimedCell) (tb : Nat) (period : Nat) (corr : Nat) (root : SyncRoot) (err : Int), s.Running ∧
      s.Accepts p cell.bytes 3 ∧ root.serial.toNat ≠ s.serial ∧ s.bl.syncTb ≠ some (tb, root.serial.toNat) ∧
      err = ((8 * s.time.tb + cell.frac.val : Nat) : Int) - (8 * tb + (corr + s.rd (R.BL_Pp_DELAY p)) : Nat) ∧ s.isRoot = false ∧
      period = s.period ∧ s.linkLocked = true ∧ (err < -64 ∨ 64 < err) ∧ 2 ≤ s.bl.syncBad) ∧
  (∃ (s : State) (p : Fin 4) (cell : TimedCell) (tb : Nat) (period : Nat) (corr : Nat) (root : SyncRoot) (err : Int), s.Running ∧
      s.Accepts p cell.bytes 3 ∧ root.serial.toNat ≠ s.serial ∧ s.bl.syncTb ≠ some (tb, root.serial.toNat) ∧
      err = ((8 * s.time.tb + cell.frac.val : Nat) : Int) - (8 * tb + (corr + s.rd (R.BL_Pp_DELAY p)) : Nat) ∧ s.isRoot = false ∧
      period = s.period ∧ 3200 < err ∧ s.drive ≤ 1) ∧
  (∃ (s : State) (p : Fin 4) (cell : TimedCell) (tb : Nat) (period : Nat) (corr : Nat) (root : SyncRoot) (err : Int), s.Running ∧
      s.Accepts p cell.bytes 3 ∧ root.serial.toNat ≠ s.serial ∧ s.bl.syncTb ≠ some (tb, root.serial.toNat) ∧
      err = ((8 * s.time.tb + cell.frac.val : Nat) : Int) - (8 * tb + (corr + s.rd (R.BL_Pp_DELAY p)) : Nat) ∧ s.isRoot = false ∧
      period = s.period ∧ 3200 < err ∧ 2 ≤ s.drive ∧ s.drive ≤ 4) ∧
  (∃ (s : State) (p : Fin 4) (cell : TimedCell) (tb : Nat) (root : SyncRoot), s.Running ∧ s.Accepts p cell.bytes 3 ∧
      (root.serial.toNat = s.serial ∨ s.bl.syncTb = some (tb, root.serial.toNat))) ∧
  (∃ (s : State), s.Running ∧ s.isRoot = false ∧ 64 ≤ s.bl.syncAge ∧ s.linkLocked = true ∧ s.rd R.BL_CFG_ROOT ≠ 2) ∧
  (∃ (s : State), s.Running ∧ s.isRoot = false ∧ 64 ≤ s.bl.syncAge ∧ s.rd R.BL_CFG_ROOT = 2 ∧ s.bl.rootOff = false) ∧
  (∃ (s : State), s.Running ∧ (s.isRoot = true ∨ s.bl.syncAge < 64)) ∧
  (∃ (s : State), s.Running ∧ s.isRoot = false ∧ s.linkLocked = true ∧ 3 ≤ s.bl.syncBad) ∧
  (∃ (s : State), s.Running ∧ s.isRoot = false ∧ s.linkLocked = true ∧ s.bl.syncBad < 3 ∧ s.on R.BL_SYNC_HOLDOVER = true ∧ 4000 ≤ s.bl.holdTicks) ∧
  (∃ (s : State), s.Running ∧ (s.isRoot = true ∨ s.linkLocked = false)) :=
  ⟨⟨(upAt [3] State.reset).wr R.BL_CFG_ROOT 1, 3, ⟨cellOf 3 0 0 0 3 9 0 [], 5⟩, 3, 2, ⟨otherSerial ((upAt [3] State.reset).wr R.BL_CFG_ROOT 1), false⟩, -21, by refine ⟨?_, ?_, otherSerial_ne _, ?_⟩ <;> decide +kernel⟩,
   ⟨upAt [3] State.reset, 3, ⟨cellOf 3 0 0 0 31 9 0 [], 5⟩, 3, 9999, 2, ⟨otherSerial (upAt [3] State.reset), false⟩, -21, by refine ⟨?_, ?_, otherSerial_ne _, ?_⟩ <;> decide +kernel⟩,
   ⟨{ upAt [3] State.reset with bl.syncGood := 15, time.tb := 1000 }, 3, ⟨cellOf 3 0 0 0 3 9 0 [], 6⟩, 1000, 10000, 0, ⟨otherSerial ({ upAt [3] State.reset with bl.syncGood := 15, time.tb := 1000 }), false⟩, 6, by refine ⟨?_, ?_, otherSerial_ne _, ?_⟩ <;> decide +kernel⟩,
   ⟨{ (upAt [3] State.reset).wr R.BL_SYNC_STATE 2 with bl.syncBad := 2, time.tb := 1000 }, 3, ⟨cellOf 3 0 0 0 3 9 0 [], 1⟩, 992, 10000, 0, ⟨otherSerial ({ (upAt [3] State.reset).wr R.BL_SYNC_STATE 2 with bl.syncBad := 2, time.tb := 1000 }), false⟩, 65, by refine ⟨?_, ?_, otherSerial_ne _, ?_⟩ <;> decide +kernel⟩,
   ⟨{ upAt [3] State.reset with time.tb := 1000 }, 3, ⟨cellOf 3 0 0 0 3 9 0 [], 1⟩, 600, 10000, 0, ⟨otherSerial ({ upAt [3] State.reset with time.tb := 1000 }), true⟩, 3201, by refine ⟨?_, ?_, otherSerial_ne _, ?_⟩ <;> decide +kernel⟩,
   ⟨{ (upAt [3] State.reset).wr R.LN_MD_STAT_STATE 2 with time.tb := 1000 }, 3, ⟨cellOf 3 0 0 0 3 9 0 [], 1⟩, 600, 10000, 0, ⟨otherSerial ({ (upAt [3] State.reset).wr R.LN_MD_STAT_STATE 2 with time.tb := 1000 }), true⟩, 3201, by refine ⟨?_, ?_, otherSerial_ne _, ?_⟩ <;> decide +kernel⟩,
   ⟨{ upAt [3] State.reset with bl.syncTb := some (600, 7) }, 3, ⟨cellOf 3 0 0 0 3 9 0 [], 1⟩, 600, ⟨7, false⟩, by refine ⟨?_, ?_, Or.inr ?_⟩ <;> decide +kernel⟩,
   ⟨{ State.reset.wr R.BL_SYNC_STATE 2 with bl.syncAge := 64 }, by decide +kernel⟩,
   ⟨{ State.reset.wr R.BL_CFG_ROOT 2 with bl.syncAge := 64 }, by decide +kernel⟩,
   ⟨{ State.reset with bl.syncAge := 63 }, by decide +kernel⟩,
   ⟨{ State.reset.wr R.BL_SYNC_STATE 2 with bl.syncBad := 3 }, by decide +kernel⟩,
   ⟨{ (State.reset.wr R.BL_SYNC_STATE 2).wr R.BL_SYNC_HOLDOVER 1 with bl.syncBad := 2, bl.holdTicks := 4000 }, by decide +kernel⟩,
   ⟨State.reset, by decide +kernel⟩⟩

theorem witness_CellsAreCheckedAndTaken :
  (∃ (p : Fin 4) (cell : List Byte) (s : State) (i : _), s.Running ∧ i ∈ [Instr.share p cell, .contrib p cell, .notice p cell] ∧
      s.portUp p = true ∧ fieldLE cell 30 2 ≠ crc16 (padTo 30 cell)) ∧
  (∃ (p : Fin 4) (cell : List Byte) (s : State), s.Running ∧ s.Accepts p cell 6 ∧ (cellDst cell = s.uid ∨ cellDst cell = 0) ∧ 0 < s.qCredit 62 ∧
      s.isRoot = false ∧ (s.uid = 0 ∨ s.bl.cut = true)) ∧
  (∃ (p : Fin 4) (cell : List Byte) (s : State) (q : Fin 4) (serial : BitVec 48) (pref : BitVec 11) (id : BitVec 11) (rest : List (Nat × Nat)) (n : _), s.Running ∧
      s.Accepts p cell 6 ∧ (cellDst cell = s.uid ∨ cellDst cell = 0) ∧ 0 < s.qCredit 62 ∧ s.isRoot = true ∧
      s.bl.todo = (cellSrc cell, q.val) :: rest ∧ serial.toNat ≠ s.serial ∧
      (s.bl.units.any (fun x => x.2 == serial.toNat) = true ∨ ∃ v, s.topology.nodes.find? (fun v => v.uid == cellSrc cell) = some v ∧
      v.hops < 32) ∧ s.pickId serial.toNat pref.toNat id.toNat = some n) ∧
  (∃ (p : Fin 4) (cell : List Byte) (s : State) (q : Fin 4) (serial : BitVec 48) (pref : BitVec 11) (id : BitVec 11) (rest : List (Nat × Nat)), s.Running ∧
      s.Accepts p cell 6 ∧ (cellDst cell = s.uid ∨ cellDst cell = 0) ∧ 0 < s.qCredit 62 ∧ s.isRoot = true ∧
      s.bl.todo = (cellSrc cell, q.val) :: rest ∧ serial.toNat ≠ s.serial ∧ s.pickId serial.toNat pref.toNat id.toNat = none) ∧
  (∃ (p : Fin 4) (cell : List Byte) (s : State), s.Running ∧ s.Accepts p cell 9 ∧ cellDst cell = s.uid ∧ s.uid ≠ 0 ∧
      cellEpoch cell = s.rd R.BL_EPOCH ∧ 0 < s.qCredit 62) ∧
  (∃ (p : Fin 4) (cell : List Byte) (s : State), s.Running ∧ s.Accepts p cell 9 ∧ cellDst cell = s.uid ∧ s.uid ≠ 0 ∧
      cellEpoch cell ≠ s.rd R.BL_EPOCH) ∧
  (∃ (p : Fin 4) (cell : List Byte) (s : State), s.Running ∧ s.Accepts p cell 9 ∧ cellDst cell = s.uid ∧ s.uid ≠ 0 ∧
      cellEpoch cell = s.rd R.BL_EPOCH ∧ s.qCredit 62 = 0) ∧
  (∃ (p : Fin 4) (cell : List Byte) (s : State) (per : BitVec 15) (win : Word), s.Running ∧ s.Accepts p cell 7 ∧ cellDst cell = s.uid ∧ s.uid ≠ 0 ∧
      cellEpoch cell = s.rd R.BL_EPOCH ∧ 0 < s.qCredit 62 ∧ s.joinRefusal per.toNat win = none) ∧
  (∃ (p : Fin 4) (cell : List Byte) (s : State) (per : BitVec 15) (win : Word), s.Running ∧ s.Accepts p cell 7 ∧ cellDst cell = s.uid ∧ s.uid ≠ 0 ∧
      cellEpoch cell = s.rd R.BL_EPOCH ∧ 0 < s.qCredit 62 ∧ (s.joinRefusal per.toNat win).isSome = true) ∧
  (∃ (p : Fin 4) (cell : List Byte) (s : State), s.Running ∧ s.Accepts p cell 7 ∧ cellDst cell = s.uid ∧ s.uid ≠ 0 ∧
      cellEpoch cell = s.rd R.BL_EPOCH ∧ 0 < s.qCredit 62 ∧ s.isMember = true) ∧
  (∃ (p : Fin 4) (cell : List Byte) (s : State), s.Running ∧ s.Accepts p cell 8 ∧ cellDst cell = s.uid ∧ s.uid ≠ 0 ∧ fieldLE cell 8 1 = 1 ∧
      0 < s.qCredit 62 ∧ s.rd R.BL_ROLE_KIND = 2 ∧ cellSrc cell = s.rd R.BL_CS_UNITS_HEAD) ∧
  (∃ (p : Fin 4) (cell : List Byte) (s : State), s.Running ∧ s.Accepts p cell 8 ∧ cellDst cell = s.uid ∧ s.uid ≠ 0 ∧ fieldLE cell 8 1 = 1 ∧
      0 < s.qCredit 62 ∧ s.isHead = true) ∧
  (∃ (p : Fin 4) (cell : List Byte) (s : State), s.Running ∧ s.Accepts p cell 1 ∧ s.isMember = true ∧ fieldLE cell 8 1 = s.rd R.BL_ROLE_CONSIST ∧
      s.linkLocked = true ∧ s.exchangeOpen = true ∧ s.bl.takenBy = none ∧ cellStick cell = s.stick ∧ cellSrc cell = s.rd R.BL_CS_UNITS_HEAD ∧
      testB (cellFlags cell) 1 = false ∧ 0 < s.qCredit (rxQueue p) ∧ 0 < s.rd R.BL_ROLE_SLOT ∧ fieldLE cell 9 1 = s.rd R.BL_ROLE_SLOT / 5 ∧
      fieldLE cell (10 + 4 * (s.rd R.BL_ROLE_SLOT % 5)) 2 = s.rd R.BL_EPOCH) ∧
  (∃ (p : Fin 4) (cell : List Byte) (s : State) (i : _), s.Running ∧ i ∈ [Instr.share p cell, .contrib p cell] ∧
      s.Accepts p cell (if i = .share p cell then 1 else 2) ∧ (cellStick cell ≠ s.stick ∨ s.exchangeOpen = false)) ∧
  (∃ (p : Fin 4) (cell : List Byte) (s : State), s.Running ∧ s.Accepts p cell 2 ∧ cellDst cell = s.uid ∧ s.uid ≠ 0 ∧ s.linkLocked = true ∧
      cellStick cell = s.stick ∧ s.exchangeOpen = true ∧ cellEpoch cell = s.rd R.BL_EPOCH ∧ 0 < s.qCredit (rxQueue p) ∧ s.isHead = true ∧
      fieldLE cell 8 1 = s.rd R.BL_ROLE_CONSIST ∧ s.slotOf (cellSrc cell) = some (fieldLE cell 9 1 % 64)) :=
  ⟨⟨3, [], upAt [3] State.reset, .share 3 [], by decide +kernel⟩,
   ⟨3, cellOf 6 0 0 0 0 9 0 [], upAt [3] State.reset, by decide +kernel⟩,
   ⟨3, cellOf 6 0 0 0 0 0 0 [], { (upAt [3] State.reset).wr R.BL_CFG_ROOT 1 with bl.todo := [(0, 2)] }, 2, otherSerial ({ (upAt [3] State.reset).wr R.BL_CFG_ROOT 1 with bl.todo := [(0, 2)] }), 3, 0, [], 3, by refine ⟨?_, ?_, ?_, ?_, ?_, ?_, otherSerial_ne _, ?_⟩ <;> decide +kernel⟩,
   ⟨3, cellOf 6 0 0 0 0 0 0 [], fullMap, 2, otherSerial (fullMap), 3, 0, [], by refine ⟨?_, ?_, ?_, ?_, ?_, ?_, otherSerial_ne _, fullMap_pickId _⟩ <;> decide +kernel⟩,
   ⟨3, cellOf 9 0 0 5 0 9 0 [], memberState, by decide +kernel⟩,
   ⟨3, cellOf 9 0 0 5 0 9 7 [], memberState, by decide +kernel⟩,
   ⟨3, cellOf 9 0 0 5 0 9 0 [], memberState.setQueue 62 { items := List.replicate (qDepth 62) [] }, by decide +kernel⟩,
   ⟨3, cellOf 7 0 0 5 0 9 0 [], (memberState.wr R.BL_ROLE_KIND 0).wr R.LN_MD_STAT_STATE 2, 10000, ((memberState.wr R.BL_ROLE_KIND 0).wr R.LN_MD_STAT_STATE 2).word (R.BL_WIN_OPEN).addr, by decide +kernel⟩,
   ⟨3, cellOf 7 0 0 5 0 9 0 [], memberState, 10000, 0, by decide +kernel⟩,
   ⟨3, cellOf 7 0 0 5 0 9 0 [], memberState, by decide +kernel⟩,
   ⟨3, cellOf 8 0 0 5 0 4 0 [1], memberState, by decide +kernel⟩,
   ⟨3, cellOf 8 0 0 5 0 4 0 [1, 2, 3, 0, 4], headState, by decide +kernel⟩,
   ⟨3, cellOf 1 0 0 0 0 4 0 [9, 1, 0, 0, 0, 0, 0, 0, 0, 0, 0, 0, 0, 0, 0, 0, 0, 0, 0, 0], memberState, by decide +kernel⟩,
   ⟨3, cellOf 1 0 3 0 30 4 0 [9, 1], memberState, .share 3 (cellOf 1 0 3 0 30 4 0 [9, 1]), by decide +kernel⟩,
   ⟨3, cellOf 2 0 0 5 0 4 0 [9, 0, 1, 2, 3], (headState.wr (R.BL_CS_Ms_ID_UID 0) 4).wr (R.BL_CS_Ms_ID_USED 0) 1, by decide +kernel⟩⟩

theorem witness_ConsistRoles :
  (∃ (s : State) (j : _), s.Running ∧ s.bl.join = some j ∧ s.joinable = true ∧ 0 ≤ modDiff 32 (s.rd R.BL_SN) j.sn ∧ j.consist < 128 ∧ j.slot < 64) ∧
  (∃ (s : State), s.Running ∧ s.bl.join = none) ∧
  (∃ (s : State), s.Running ∧ s.bl.join.isSome = true ∧ s.joinable = false) ∧
  (∃ (s : State), s.Running ∧ s.isMember = true ∧ s.bl.fadeDir < 0 ∧ s.bl.f ≤ 0) ∧
  (∃ (s : State), s.Running ∧ (s.isMember = false ∨ 0 ≤ s.bl.fadeDir)) ∧
  (∃ (s : State), s.Running ∧ s.isMember = true ∧ max 1 (s.rd R.BL_CS_CFG_MISSMAX) ≤ s.bl.missRun) ∧
  (∃ (s : State), s.Running ∧ (s.isMember = false ∨ s.bl.missRun < max 1 (s.rd R.BL_CS_CFG_MISSMAX))) ∧
  (∃ (s : State), s.Running ∧ s.rd R.BL_ROLE_KIND = 3 ∧ (s.bl.handover = true ∨ s.takeWindows ≤ s.bl.headMiss)) ∧
  (∃ (s : State), s.Running ∧ (s.rd R.BL_ROLE_KIND ≠ 3 ∨ (s.bl.handover = false ∧ s.bl.headMiss < s.takeWindows))) ∧
  (∃ (s : State), s.Running ∧ s.isHead = true ∧ s.rd R.BL_CS_UNITS_DEPUTY ≠ 0 ∧ s.rd R.BL_CS_UNITS_DEPUTY ≠ s.uid ∧ s.takeWindows ≤ s.bl.noContrib) ∧
  (∃ (s : State), s.Running ∧ (s.isHead = false ∨ s.rd R.BL_CS_UNITS_DEPUTY = 0 ∨ s.bl.noContrib < s.takeWindows)) ∧
  (∃ (s : State), s.Running ∧ s.windowValid = true ∧ s.bl.winOpen = false) ∧
  (∃ (s : State), s.Running ∧ s.windowValid = false) ∧
  (∃ (s : State) (p : _) (c : _), s.Running ∧ s.isMember = true ∧ s.bl.winOpen = true ∧ s.bl.share = none ∧ s.bl.launched = false ∧
      s.linkLocked = true ∧ s.headPort = some p ∧ p < 4 ∧ (s.queue (txQueue p)).off = false ∧ (s.queue (txQueue p)).items = [c]) ∧
  (∃ (s : State), s.Running ∧ (s.isMember = false ∨ s.bl.winOpen = false ∨ s.bl.share.isSome = true)) :=
  ⟨⟨{ State.reset.wr R.LN_MD_STAT_STATE 2 with bl.join := some ⟨0, 127, 63, 9, 4, true, 0⟩ }, ⟨0, 127, 63, 9, 4, true, 0⟩, by decide +kernel⟩,
   ⟨State.reset, by decide +kernel⟩,
   ⟨{ State.reset with bl.join := some ⟨0, 127, 63, 9, 4, true, 0⟩ }, by decide +kernel⟩,
   ⟨{ memberState with bl.fadeDir := -1 }, by decide +kernel⟩,
   ⟨memberState, by decide +kernel⟩,
   ⟨{ memberState.wr R.BL_CS_CFG_MISSMAX 3 with bl.missRun := 3 }, by decide +kernel⟩,
   ⟨memberState, by decide +kernel⟩,
   ⟨{ memberState.wr R.BL_ROLE_KIND 3 with bl.handover := true }, by decide +kernel⟩,
   ⟨memberState, by decide +kernel⟩,
   ⟨{ headState.wr R.BL_CS_UNITS_DEPUTY 9 with bl.noContrib := 100 }, by decide +kernel⟩,
   ⟨headState, by decide +kernel⟩,
   ⟨State.reset, by decide +kernel⟩,
   ⟨State.reset.wr R.BL_WIN_OPEN 0, by decide +kernel⟩,
   ⟨((memberState.wr (R.BL_RT_n_VALID 3) 1).wr (R.BL_RT_n_PORT 3) 3).setQueue (txQueue 3) { items := [[1]] }, 3, [1], by decide +kernel⟩,
   ⟨State.reset, by decide +kernel⟩⟩

theorem witness_PairLinkIsWatched :
  (∃ (s : State), s.Running ∧ 0 < s.qCredit 21 ∧ s.pstate ≠ 0) ∧
  (∃ (s : State), s.Running ∧ (s.qCredit 21 = 0 ∨ s.pstate = 0)) ∧
  (∃ (s : State) (level : _), s.Running ∧ level ≠ s.pm.aliveIn) ∧
  (∃ (s : State) (level : _), s.Running ∧ level = s.pm.aliveIn) ∧
  (∃ (s : State), s.Running ∧ 2 ≤ s.rd R.PM_MISS_BLK ∧ s.on R.PM_STAT_MIRRLOST = false ∧ s.pstate ≠ 0) ∧
  (∃ (s : State), s.Running ∧ (s.rd R.PM_MISS_BLK < 2 ∨ s.on R.PM_STAT_MIRRLOST = true ∨ s.pstate = 0)) ∧
  (∃ (s : State), s.Running ∧ 8 ≤ s.pm.aliveStill ∧ s.on R.PM_STAT_ALIVELOST = false ∧ s.pstate ≠ 0) ∧
  (∃ (s : State), s.Running ∧ (s.pm.aliveStill < 8 ∨ s.on R.PM_STAT_ALIVELOST = true ∨ s.pstate = 0)) ∧
  (∃ (s : State), s.Running ∧ s.on R.PM_STAT_SYNCED = false ∧ 64 ≤ s.pm.syncGood) ∧
  (∃ (s : State), s.Running ∧ s.on R.PM_STAT_SYNCED = true ∧ 3 ≤ s.pm.syncBad) ∧
  (∃ (s : State), s.Running ∧ s.on R.PM_STAT_SYNCED = true ∧ s.pm.syncBad < 3) ∧
  (∃ (s : State), s.Running ∧ s.on R.PM_STAT_SYNCED = false ∧ s.pm.syncGood < 64) ∧
  (∃ (s : State), s.Running ∧ s.pm.pfbRun = 8) ∧
  (∃ (s : State), s.Running ∧ s.pm.pfbRun ≠ 8) ∧
  (∃ (s : State), s.Running ∧ s.pm.waitOwn = true ∧ 2 ≤ s.pm.chgLow) ∧
  (∃ (s : State), s.Running ∧ (s.pm.waitOwn = false ∨ s.pm.chgLow < 2)) :=
  ⟨⟨State.reset.wr R.PM_STAT_PSTATE 2, by decide +kernel⟩,
   ⟨State.reset, by decide +kernel⟩,
   ⟨State.reset, true, by decide +kernel⟩,
   ⟨State.reset, false, by decide +kernel⟩,
   ⟨(State.reset.wr R.PM_STAT_PSTATE 1).wr R.PM_MISS_BLK 2, by decide +kernel⟩,
   ⟨State.reset, by decide +kernel⟩,
   ⟨{ State.reset.wr R.PM_STAT_PSTATE 1 with pm.aliveStill := 8 }, by decide +kernel⟩,
   ⟨State.reset, by decide +kernel⟩,
   ⟨{ State.reset with pm.syncGood := 64 }, by decide +kernel⟩,
   ⟨{ State.reset.wr R.PM_STAT_SYNCED 1 with pm.syncBad := 3 }, by decide +kernel⟩,
   ⟨{ State.reset.wr R.PM_STAT_SYNCED 1 with pm.syncBad := 2 }, by decide +kernel⟩,
   ⟨{ State.reset with pm.syncGood := 63 }, by decide +kernel⟩,
   ⟨{ State.reset with pm.pfbRun := 8 }, by decide +kernel⟩,
   ⟨{ State.reset with pm.pfbRun := 9 }, by decide +kernel⟩,
   ⟨{ State.reset with pm.waitOwn := true, pm.chgLow := 2 }, by decide +kernel⟩,
   ⟨State.reset, by decide +kernel⟩⟩

theorem witness_PairTakesOverReleasesAndEngages :
  (∃ (s : State), s.Running ∧ s.pstate = 0 ∧ (s.rd R.PM_CFG_CONF = 1 ∨ s.rd R.PM_CFG_CONF = 2) ∧
      (s.taskSlot 3).1 + (s.taskSlot 3).2 + 4392 ≤ s.period) ∧
  (∃ (s : State), s.Running ∧ s.pstate = 0 ∧
      (s.rd R.PM_CFG_CONF = 0 ∨ s.rd R.PM_CFG_CONF = 3 ∨ s.period < (s.taskSlot 3).1 + (s.taskSlot 3).2 + 4392)) ∧
  (∃ (s : State), s.Running ∧ 2 ≤ s.rd R.PM_MISS_HB ∧ s.pm.lossSeen = false ∧ (s.pstate = 2 ∨ s.pstate = 3)) ∧
  (∃ (s : State), s.Running ∧ (s.rd R.PM_MISS_HB < 2 ∨ s.pm.lossSeen = true ∨ s.pstate < 2 ∨ s.pstate = 4)) ∧
  (∃ (s : State) (b : _), s.Running ∧ s.pm.block = some b ∧ b.release = true ∧ s.pm.lossSeen = false ∧ (s.pstate = 2 ∨ s.pstate = 3)) ∧
  (∃ (s : State), s.Running ∧ (s.pm.block = none ∨ s.pm.lossSeen = true)) ∧
  (∃ (s : State), s.Running ∧ s.pm.fadeDir ≠ 0 ∧ s.pm.fading = false ∧ s.rd R.PM_CFG_CONF = 1 ∧ (s.pstate = 2 ∨ s.pstate = 3) ∧
      0 ≤ modDiff 32 (s.rd R.BL_SN) (s.rd R.PM_JOINSN) ∧ s.carries = true) ∧
  (∃ (s : State), s.Running ∧ (s.pm.fadeDir = 0 ∨ s.pm.fading = true ∨ modDiff 32 (s.rd R.BL_SN) (s.rd R.PM_JOINSN) < 0)) ∧
  (∃ (s : State), s.Running ∧ (s.pstate = 0 ∨ (s.pstate ≠ 5 ∧ s.isStandby = false ∧ s.partnerCanCarry = false))) ∧
  (∃ (s : State), s.Running ∧ s.pstate ≠ 0 ∧ s.pstate ≠ 5 ∧ s.rd R.PM_CFG_CONF = 1 ∧ s.partnerCanCarry = true ∧ s.carries = true) ∧
  (∃ (s : State), s.Running ∧ s.pstate ≠ 0 ∧ s.pstate ≠ 5 ∧ s.isStandby = true) ∧
  (∃ (s : State), s.Running ∧ s.pstate ≠ 0 ∧ s.pstate ≠ 5 ∧ s.rd R.PM_CFG_CONF = 2 ∧ s.isStandby = false ∧ s.partnerCanCarry = true) ∧
  (∃ (s : State), s.Running ∧ s.engageRefused = true) ∧
  (∃ (s : State), s.Running ∧ s.engageRefused = false ∧ s.pstate = 5) :=
  ⟨⟨State.reset.wr R.PM_CFG_CONF 2, by decide +kernel⟩,
   ⟨State.reset, by decide +kernel⟩,
   ⟨(State.reset.wr R.PM_STAT_PSTATE 3).wr R.PM_MISS_HB 2, by decide +kernel⟩,
   ⟨State.reset, by decide +kernel⟩,
   ⟨{ State.reset.wr R.PM_STAT_PSTATE 3 with pm.block := some { release := true } }, { release := true }, by decide +kernel⟩,
   ⟨State.reset, by decide +kernel⟩,
   ⟨{ modulatingState 2 with pm.fadeDir := 1 }, by decide +kernel⟩,
   ⟨State.reset, by decide +kernel⟩,
   ⟨State.reset, by decide +kernel⟩,
   ⟨{ modulatingState 2 with pm.block := some { carry := true, takeok := true, own := true } }, by decide +kernel⟩,
   ⟨(State.reset.wr R.PM_CFG_CONF 2).wr R.PM_STAT_PSTATE 2, by decide +kernel⟩,
   ⟨{ (State.reset.wr R.PM_CFG_CONF 2).wr R.PM_STAT_PSTATE 3 with pm.block := some { carry := true, takeok := true, own := true } }, by decide +kernel⟩,
   ⟨State.reset, by decide +kernel⟩,
   ⟨{ (State.reset.wr R.PM_STAT_PSTATE 5).wr R.PM_STAT_SYNCED 1 with pm.validRun := 64 }, by decide +kernel⟩⟩

/-- The parameters locked. -/
def lockedBase : State := (State.reset.wr R.SB_LOCK_LOCKED 1).wr R.SB_LOCK_OPEN 0

/-- The parameters locked, with a confirmed CRC that differs. -/
def lockedState : State := lockedBase.wr R.SB_CRC_CONF (paramCrc lockedBase.word + 1)

theorem lockedState_on (g : Fld) (h : lockedBase.home g.addr ≠ lockedBase.home (R.SB_CRC_CONF).addr) : lockedState.on g = lockedBase.on g :=
  congrArg (fun n : Nat => n != 0) (State.rd_wr_word lockedBase (f := R.SB_CRC_CONF) (g := g) (paramCrc lockedBase.word + 1) h)

/-- No safe-stop demand stands. -/
def demandFree : State :=
  (((((State.reset.wr R.SB_IN_STAT_STO_N 1).wr R.SB_LOCK_LOCKED 1).wr R.SB_LOCK_OPEN 0).wr R.SB_STAT_GUARDDONE 1).wr R.SB_STAT_CRCERR 0).wr R.SB_STAT_GSUP 1

/-- A Token frame. -/
def tokenBytes (typ flags cid seq epoch wdt len : Nat) (payload : List Byte) : List Byte :=
  let body := bytesLE 1 typ ++ bytesLE 1 flags ++ bytesLE 2 cid ++ bytesLE 2 seq ++ bytesLE 2 epoch ++ bytesLE 2 wdt ++ bytesLE 1 len ++ [0] ++ padTo 48 payload
  body ++ bytesLE 4 (tokScrc cid body)

/-- A FIFO with a frame of a Token connection. -/
def tokenState (frame : List Byte) : State :=
  ((List.range 16).foldl (fun s w => s.wr (R.SB_TOK_RXw w) (fieldLE frame (4 * w) 4)) State.reset).wr R.SB_TOK_RXRES_RESULT 7

theorem witness_SafetyFaultsLatch :
  (∃ (s : State), s.Running ∧ s.sb.supply = false ∧ s.sb.supplyAt + msCyc 20 ≤ s.time.tb) ∧
  (∃ (s : State) (railUp : _), s.Running ∧ (railUp = false ∨ s.sb.supply = true ∨ s.time.tb < s.sb.supplyAt + msCyc 20)) ∧
  (∃ (s : State), s.Running ∧ s.tickno % 1024 = 512) ∧
  (∃ (s : State) (follows : _), s.Running ∧ (follows = true ∨ s.tickno % 1024 ≠ 512)) ∧
  (∃ (s : State) (c : _), s.Running ∧ c < 7 ∧ (s.gch c).drive = false ∧ s.on (R.GD_CHc_STAT_ONCMD c) = true ∧ (s.gch c).driveFall ≠ 0 ∧
      (s.gch c).driveFall + 64 ≤ s.time.tb) ∧
  (∃ (s : State), s.Running ∧ (∀ c, c < 7 → (s.gch c).drive = true ∨ s.on (R.GD_CHc_STAT_ONCMD c) = false ∨ s.time.tb < (s.gch c).driveFall + 64)) ∧
  (∃ (s : State), s.Running ∧ s.on R.SB_SBC_CFG_TESTEN = true ∧ (s.sout0 = true ∨ s.sout1 = true) ∧ s.sb.soutAt + msCyc 1000 ≤ s.time.tb) ∧
  (∃ (s : State), s.Running ∧ (s.on R.SB_SBC_CFG_TESTEN = false ∨ (s.sout0 = false ∧ s.sout1 = false) ∨ s.time.tb < s.sb.soutAt + msCyc 1000)) ∧
  (∃ (s : State), s.Running ∧ 1 ≤ s.sb.soutRun) ∧
  (∃ (s : State), s.Running ∧ s.sb.soutRun = 0) ∧
  (∃ (s : State), s.Running ∧ 16 ≤ s.sb.discRun) ∧
  (∃ (s : State), s.Running ∧ s.sb.discRun < 16) ∧
  (∃ (s : State), s.Running ∧ s.on R.SB_LOCK_LOCKED = true ∧ s.on R.SB_LOCK_OPEN = false ∧ s.on R.SB_STAT_CRCERR = false ∧
      paramCrc s.word ≠ s.rd R.SB_CRC_CONF) ∧
  (∃ (s : State), s.Running ∧ (s.on R.SB_LOCK_LOCKED = false ∨ s.on R.SB_LOCK_OPEN = true ∨ paramCrc s.word = s.rd R.SB_CRC_CONF)) :=
  ⟨⟨{ State.reset with sb.supply := false, sb.supplyAt := 0, time.tb := 8000000 }, by decide +kernel⟩,
   ⟨{ State.reset with time.tb := 7999999 }, true, by decide +kernel⟩,
   ⟨State.reset.wr R.TB_TICKNO 512, by decide +kernel⟩,
   ⟨State.reset, true, by decide +kernel⟩,
   ⟨{ (State.reset.wr (R.GD_CHc_STAT_ONCMD 6) 1).setGch 6 (fun g => { g with driveFall := 1 }) with time.tb := 65 }, 6, by decide +kernel⟩,
   ⟨State.reset, by decide +kernel⟩,
   ⟨{ (State.reset.wr R.SB_STAT_STO 0).wr R.SB_SBC_CFG_TESTEN 1 with time.tb := 400000000 }, by decide +kernel⟩,
   ⟨State.reset, by decide +kernel⟩,
   ⟨{ State.reset with sb.soutRun := 1 }, by decide +kernel⟩,
   ⟨State.reset, by decide +kernel⟩,
   ⟨{ State.reset with sb.discRun := 16 }, by decide +kernel⟩,
   ⟨{ State.reset with sb.discRun := 15 }, by decide +kernel⟩,
   ⟨lockedState, by exact ⟨rfl, (lockedState_on _ (by decide +kernel)).trans (by decide +kernel), (lockedState_on _ (by decide +kernel)).trans (by decide +kernel), (lockedState_on _ (by decide +kernel)).trans (by decide +kernel), paramCrc_other lockedBase (by decide +kernel)⟩⟩,
   ⟨State.reset.wr R.SB_LOCK_LOCKED 0, by decide +kernel⟩⟩

theorem witness_SafeTorqueOff :
  (∃ (s : State), s.Running ∧ s.on R.SB_STAT_STO = true ∧ s.stoDemand = false ∧ s.on R.SB_STAT_GSUP = true) ∧
  (∃ (s : State), s.Running ∧ (s.on R.SB_STAT_STO = false ∨ s.stoDemand = true ∨ s.on R.SB_STAT_GSUP = false)) ∧
  (∃ (s : State) (t0 : _), s.Running ∧ s.sb.ss1At = some t0 ∧ s.sb.ss1T = true ∧ t0 + msCyc (s.rd R.SB_SS1_TIME_T) ≤ s.time.tb) ∧
  (∃ (s : State) (t0 : _), s.Running ∧ s.sb.ss1At = some t0 ∧ s.sb.ss1R = true ∧ 8 ≤ s.sb.ss1Still) ∧
  (∃ (s : State), s.Running ∧ s.sb.ss1At = none) ∧
  (∃ (s : State) (tick : _), s.Running ∧ s.sb.srstFall = some tick ∧ (∀ f, s.sb.faultTick = some f → modDiff 32 f tick < 0) ∧
      (s.on R.SB_LOCK_LOCKED = false ∨ s.on R.SB_LOCK_OPEN = true ∨ paramCrc s.word = s.rd R.SB_CRC_CONF)) ∧
  (∃ (s : State) (tick : _) (f : _), s.Running ∧ s.sb.srstFall = some tick ∧ s.sb.faultTick = some f ∧ 0 ≤ modDiff 32 f tick ∧
      s.on R.SB_LOCK_LOCKED = false) ∧
  (∃ (s : State), s.Running ∧ s.sb.srstFall = none) ∧
  (∃ (s : State), s.Running ∧ s.sb.testDue = false ∧ s.sb.testAt + msCyc 2592000000 ≤ s.time.tb) ∧
  (∃ (s : State), s.Running ∧ (s.sb.testDue = true ∨ s.time.tb < s.sb.testAt + msCyc 2592000000)) ∧
  (∃ (s : State), s.Running ∧ s.sb.mpwdAt + msCyc 100 ≤ s.time.tb ∧ s.rd R.HS_STAT_MPSTATE ≠ 3) ∧
  (∃ (s : State), s.Running ∧ (s.time.tb < s.sb.mpwdAt + msCyc 100 ∨ s.rd R.HS_STAT_MPSTATE = 3)) :=
  ⟨⟨demandFree, by decide +kernel⟩,
   ⟨State.reset, by decide +kernel⟩,
   ⟨{ State.reset with sb.ss1At := some 0, sb.ss1T := true, time.tb := 4000000000 }, 0, by decide +kernel⟩,
   ⟨{ State.reset with sb.ss1At := some 0, sb.ss1R := true, sb.ss1Still := 8 }, 0, by decide +kernel⟩,
   ⟨State.reset, by decide +kernel⟩,
   ⟨{ (State.reset.wr R.SB_LOCK_LOCKED 0).wr R.SB_SFLT 5 with sb.srstFall := some 9, sb.faultTick := some 8 }, 9, by decide +kernel⟩,
   ⟨{ (State.reset.wr R.SB_LOCK_LOCKED 0).wr R.SB_SFLT 5 with sb.srstFall := some 9, sb.faultTick := some 9 }, 9, 9, by decide +kernel⟩,
   ⟨State.reset.wr R.SB_SFLT 5, by decide +kernel⟩,
   ⟨{ State.reset with time.tb := 1036800000000000 }, by decide +kernel⟩,
   ⟨{ State.reset with time.tb := 1036799999999999 }, by decide +kernel⟩,
   ⟨{ State.reset.wr R.HS_STAT_MPSTATE 0 with time.tb := 40000000 }, by decide +kernel⟩,
   ⟨{ State.reset.wr R.HS_STAT_MPSTATE 0 with time.tb := 39999999 }, by decide +kernel⟩⟩

theorem witness_TokenConnections :
  (∃ (s : State), s.Running ∧ s.rd R.SB_TOK_RXRES_RESULT ≠ 7) ∧
  (∃ (s : State), s.Running ∧ s.rd R.SB_TOK_RXRES_RESULT = 7 ∧ (fieldLE s.tokRx 0 1 ≠ 0x11 ∨ fieldLE s.tokRx 10 1 = 0 ∨ 44 < fieldLE s.tokRx 10 1)) ∧
  (∃ (s : State), s.Running ∧ s.rd R.SB_TOK_RXRES_RESULT = 7 ∧ fieldLE s.tokRx 0 1 = 0x11 ∧ 1 ≤ fieldLE s.tokRx 10 1 ∧ fieldLE s.tokRx 10 1 ≤ 44 ∧
      (∀ n, n < 2 → s.on (R.SB_TOKt_CFG_EN n) = false ∨ s.tokCid n (fieldLE s.tokRx 6 2) ≠ fieldLE s.tokRx 2 2)) ∧
  (∃ (s : State), s.Running ∧ s.rd R.SB_TOK_RXRES_RESULT = 7 ∧ fieldLE s.tokRx 0 1 = 0x11 ∧ 1 ≤ fieldLE s.tokRx 10 1 ∧ fieldLE s.tokRx 10 1 ≤ 44 ∧
      s.on (R.SB_TOKt_CFG_EN 0) = true ∧ s.tokCid 0 (fieldLE s.tokRx 6 2) = fieldLE s.tokRx 2 2 ∧
      tokScrc (fieldLE s.tokRx 2 2) s.tokRx ≠ fieldLE s.tokRx 60 4) ∧
  (∃ (s : State), s.Running ∧ s.rd R.SB_TOK_RXRES_RESULT = 7 ∧ fieldLE s.tokRx 0 1 = 0x11 ∧ 1 ≤ fieldLE s.tokRx 10 1 ∧ fieldLE s.tokRx 10 1 ≤ 44 ∧
      s.on (R.SB_TOKt_CFG_EN 0) = true ∧ s.tokCid 0 (fieldLE s.tokRx 6 2) = fieldLE s.tokRx 2 2 ∧
      tokScrc (fieldLE s.tokRx 2 2) s.tokRx = fieldLE s.tokRx 60 4 ∧ fieldLE s.tokRx 6 2 ≠ s.rd R.BL_EPOCH) ∧
  (∃ (s : State), s.Running ∧ s.rd R.SB_TOK_RXRES_RESULT = 7 ∧ fieldLE s.tokRx 0 1 = 0x11 ∧ 1 ≤ fieldLE s.tokRx 10 1 ∧ fieldLE s.tokRx 10 1 ≤ 44 ∧
      s.on (R.SB_TOKt_CFG_EN 0) = true ∧ s.tokCid 0 (fieldLE s.tokRx 6 2) = fieldLE s.tokRx 2 2 ∧
      tokScrc (fieldLE s.tokRx 2 2) s.tokRx = fieldLE s.tokRx 60 4 ∧ fieldLE s.tokRx 6 2 = s.rd R.BL_EPOCH ∧
      s.tokWindow 0 (fieldLE s.tokRx 4 2) = false ∧ testB (fieldLE s.tokRx 1 1) 0 = false) ∧
  (∃ (s : State), s.Running ∧ s.rd R.SB_TOK_RXRES_RESULT = 7 ∧ fieldLE s.tokRx 0 1 = 0x11 ∧ 1 ≤ fieldLE s.tokRx 10 1 ∧ fieldLE s.tokRx 10 1 ≤ 44 ∧
      s.on (R.SB_TOKt_CFG_EN 0) = true ∧ s.tokCid 0 (fieldLE s.tokRx 6 2) = fieldLE s.tokRx 2 2 ∧
      tokScrc (fieldLE s.tokRx 2 2) s.tokRx = fieldLE s.tokRx 60 4 ∧ fieldLE s.tokRx 6 2 = s.rd R.BL_EPOCH ∧
      s.tokWindow 0 (fieldLE s.tokRx 4 2) = true ∧ 5 ≤ fieldLE s.tokRx 8 2 ∧ fieldLE s.tokRx 8 2 ≤ s.rd (R.SB_TOKt_WD_WDMAX 0) ∧
      s.on (R.SB_TOKt_STAT_ESTAB 0) = true) ∧
  (∃ (s : State) (e : _), s.Running ∧ (s.tok 0).expires = some e ∧ e ≤ s.time.tb ∧ s.on (R.SB_TOKt_STAT_ESTAB 0) = true ∧ (s.tok 1).expires = none) ∧
  (∃ (s : State), s.Running ∧ (s.tok 0).expires = none ∧ (s.tok 1).expires = none) :=
  ⟨⟨State.reset, by decide +kernel⟩,
   ⟨tokenState (tokenBytes 0x11 0 9 1 0 50 45 []), by decide +kernel⟩,
   ⟨tokenState (tokenBytes 0x11 0 9 1 0 50 44 []), by decide +kernel⟩,
   ⟨((tokenState ((tokenBytes 0x11 0 (State.reset.tokCid 0 0) 1 0 50 1 []).take 60)).wr (R.SB_TOKt_CFG_EN 0) 1), by decide +kernel⟩,
   ⟨((tokenState (tokenBytes 0x11 0 (State.reset.tokCid 0 3) 1 3 50 1 [])).wr (R.SB_TOKt_CFG_EN 0) 1), by decide +kernel⟩,
   ⟨((tokenState (tokenBytes 0x11 0 (State.reset.tokCid 0 0) 0 0 50 1 [])).wr (R.SB_TOKt_CFG_EN 0) 1), by decide +kernel⟩,
   ⟨((((tokenState (tokenBytes 0x11 0 (State.reset.tokCid 0 0) 1 0 5 44 [9])).wr (R.SB_TOKt_CFG_EN 0) 1).wr (R.SB_TOKt_WD_WDMAX 0) 5).wr (R.SB_TOKt_STAT_ESTAB 0) 1), by decide +kernel⟩,
   ⟨{ State.reset.wr (R.SB_TOKt_STAT_ESTAB 0) 1 with sb.tok := Vector.ofFn (fun i => if i = 0 then { expires := some 0 } else {}) }, 0, by decide +kernel⟩,
   ⟨State.reset, by decide +kernel⟩⟩

/-- A CAN controller in a mode, on the bus. -/
def canMask (n : Nat) (mode : Nat) (s : State) : State := (s.wr (R.CANn_CTL_MODE n) mode).setCan n (fun c => { c with integrating := false })

/-- A CAN controller with its bit timing set. -/
def canTimed : State :=
  [(R.CANn_NBT_NTSEG1 1, 62), (R.CANn_NBT_NTSEG2 1, 15), (R.CANn_NBT_NSJW 1, 15), (R.CANn_NBT_NBRP 1, 0), (R.CANn_DBT_DTSEG1 1, 10),
    (R.CANn_DBT_DTSEG2 1, 3), (R.CANn_DBT_DSJW 1, 3), (R.CANn_DBT_DBRP 1, 0)].foldl (fun s x => s.wr x.1 x.2) State.reset

/-- A CAN frame. -/
def anyFrame : CanFrame := { xtd := true, rtr := false, fdf := false, brs := false, esi := false, id := 0x1FFFFFFF, dlc := 2, data := [1, 2], sofAge := 4000 }

/-- A header word of the SPI port. -/
def header (words off : Nat) : Word := sealed ((words - 1) * 65536 + off)

/-- The firmware serves. -/
def serving : State := State.reset.wr R.HS_STAT_MPSTATE 0

/-- What a good boot finds. -/
def bootFacts : BootFacts := { lanesFailed := 0, sramOk := true, loaders := 3, slots := 3, answers := 0x7F, steps := Vector.replicate 7 1, delays := Vector.replicate 7 40 }

/-- A descriptor waits in the command queue. -/
def popState : State :=
  { ((serving.setMem (cmdSlot 1 0) (padTo 64 (bytesLE 2 0x0102))).wr (R.HS_CQc_TAIL 1) 1) with hs.seen := Vector.ofFn (fun i => if i = 1 then 1 else 0) }

theorem witness_CanControllers :
  (∃ (n : Fin 2) (s : State) (mode : BitVec 2), s.Running ∧ (mode.toNat = 1 ∨ mode.toNat = 2) ∧ s.canMode n = 0 ∧ s.canConfigOk n = true) ∧
  (∃ (n : Fin 2) (s : State) (mode : BitVec 2), s.Running ∧ (mode.toNat = 1 ∨ mode.toNat = 2) ∧ s.canMode n = 0 ∧ s.canConfigOk n = false) ∧
  (∃ (n : Fin 2) (s : State) (mode : BitVec 2), s.Running ∧ (mode.toNat = 0 ∨ mode.toNat = 3) ∧ s.canActive n = none) ∧
  (∃ (n : Fin 2) (s : State) (mode : BitVec 2), s.Running ∧ (mode.toNat = 0 ∨ mode.toNat = 3) ∧ (s.canActive n).isSome = true ∧ s.canMode n ≠ 0) ∧
  (∃ (n : Fin 2) (s : State), s.Running ∧ s.canMode n ≠ 0 ∧ (s.canc n).busOff = false) ∧
  (∃ (n : Fin 2) (s : State), s.Running ∧ (s.canMode n = 0 ∨ (s.canc n).busOff = true)) ∧
  (∃ (n : Fin 2) (s : State) (buffers : BitVec 3) (b : Fin 3), s.Running ∧ testB buffers.toNat b = true ∧ s.txb n b ≠ 1 ∧ s.txb n b ≠ 2 ∧
      (s.on (R.CANn_TXBb_CTL_FDF n b) = false ∨ s.on (R.CANn_TXBb_ID_RTR n b) = false)) ∧
  (∃ (n : Fin 2) (s : State) (buffers : BitVec 3) (b : Fin 3), s.Running ∧ testB buffers.toNat b = true ∧ s.txb n b ≠ 1 ∧ s.txb n b ≠ 2 ∧
      s.on (R.CANn_TXBb_CTL_FDF n b) = true ∧ s.on (R.CANn_TXBb_ID_RTR n b) = true) ∧
  (∃ (n : Fin 2) (s : State) (buffers : BitVec 3) (b : Fin 3), s.Running ∧ (testB buffers.toNat b = false ∨ s.txb n b = 1 ∨ s.txb n b = 2)) ∧
  (∃ (n : Fin 2) (s : State) (buffers : BitVec 3) (b : Fin 3), s.Running ∧ testB buffers.toNat b = true ∧ s.txb n b = 1) ∧
  (∃ (n : Fin 2) (s : State) (buffers : BitVec 3) (b : Fin 3), s.Running ∧ testB buffers.toNat b = true ∧ s.txb n b = 2) ∧
  (∃ (n : Fin 2) (s : State) (buffers : BitVec 3) (b : Fin 3), s.Running ∧ (testB buffers.toNat b = false ∨ (s.txb n b ≠ 1 ∧ s.txb n b ≠ 2))) ∧
  (∃ (n : Fin 2) (s : State) (b : _), s.Running ∧ s.canMode n = 1 ∧ s.canOnBus n = true ∧ s.canActive n = none ∧ s.txSelect n = some b) ∧
  (∃ (n : Fin 2) (s : State), s.Running ∧ (s.canMode n ≠ 1 ∨ s.canOnBus n = false ∨ (s.canActive n).isSome = true ∨ s.txSelect n = none)) ∧
  (∃ (n : Fin 2) (s : State) (b : _), s.Running ∧ s.canActive n = some b ∧ (s.canc n).tdcBad = false) ∧
  (∃ (n : Fin 2) (s : State) (b : _) (how : _), s.Running ∧ s.canActive n = some b ∧ (how ≠ CanEnd.sent ∨ (s.canc n).tdcBad = true)) ∧
  (∃ (n : Fin 2) (s : State) (frame : _) (f : _), s.Running ∧ s.canOnBus n = true ∧ f < 32 ∧ s.canFilter n f frame = true ∧
      (∀ g, g < f → s.canFilter n g frame = false) ∧ s.on (R.CANn_FLTf_CFG_REJECT n f) = false) ∧
  (∃ (n : Fin 2) (s : State) (frame : _) (f : _), s.Running ∧ s.canOnBus n = true ∧ f < 32 ∧ s.canFilter n f frame = true ∧
      (∀ g, g < f → s.canFilter n g frame = false) ∧ s.on (R.CANn_FLTf_CFG_REJECT n f) = true) ∧
  (∃ (n : Fin 2) (s : State), s.Running ∧ s.canOnBus n = false) ∧
  (∃ (n : Fin 2) (s : State), s.Running ∧ s.canOnBus n = true ∧ s.canMode n = 1 ∧ (s.canc n).tec ≤ 255 ∧ (s.canc n).tec + 8 ≤ 255) ∧
  (∃ (n : Fin 2) (s : State), s.Running ∧ s.canOnBus n = true ∧ s.canMode n = 1 ∧ (s.canc n).tec ≤ 255 ∧ 255 < (s.canc n).tec + 8) ∧
  (∃ (n : Fin 2) (s : State), s.Running ∧ s.canOnBus n = true ∧ s.canMode n = 1 ∧ (s.canc n).tec ≤ 255 ∧ s.on (R.CANn_CFG_RESACT n) = false) ∧
  (∃ (n : Fin 2) (s : State) (kind : _), s.Running ∧ kind ≠ CanErr.resRecessive ∧ s.canOnBus n = true ∧ s.canMode n = 2) ∧
  (∃ (n : Fin 2) (s : State), s.Running ∧ (s.canc n).busOff = true ∧ (s.canc n).recovering = true) ∧
  (∃ (n : Fin 2) (s : State), s.Running ∧ ((s.canc n).busOff = false ∨ (s.canc n).recovering = false)) :=
  ⟨⟨1, canTimed, 2, by decide +kernel⟩,
   ⟨1, State.reset.wr (R.CANn_NBT_NTSEG1 1) 0, 1, by decide +kernel⟩,
   ⟨1, canMask 1 1 State.reset, 3, by decide +kernel⟩,
   ⟨1, (canMask 1 1 State.reset).wr (R.CANn_TXBb_STAT_STATE 1 2) 2, 3, by decide +kernel⟩,
   ⟨1, State.reset.wr (R.CANn_CTL_MODE 1) 2, by decide +kernel⟩,
   ⟨0, State.reset, by decide +kernel⟩,
   ⟨1, State.reset, 4, 2, by decide +kernel⟩,
   ⟨1, (State.reset.wr (R.CANn_TXBb_CTL_FDF 1 2) 1).wr (R.CANn_TXBb_ID_RTR 1 2) 1, 4, 2, by decide +kernel⟩,
   ⟨1, State.reset.wr (R.CANn_TXBb_STAT_STATE 1 2) 2, 4, 2, by decide +kernel⟩,
   ⟨1, State.reset.wr (R.CANn_TXBb_STAT_STATE 1 2) 1, 4, 2, by decide +kernel⟩,
   ⟨1, State.reset.wr (R.CANn_TXBb_STAT_STATE 1 2) 2, 4, 2, by decide +kernel⟩,
   ⟨1, State.reset.wr (R.CANn_TXBb_STAT_STATE 1 2) 3, 7, 2, by decide +kernel⟩,
   ⟨1, ((canMask 1 1 State.reset).wr (R.CANn_TXBb_STAT_STATE 1 2) 1), 2, by decide +kernel⟩,
   ⟨1, State.reset, by decide +kernel⟩,
   ⟨1, ((canMask 1 1 State.reset).wr (R.CANn_TXBb_STAT_STATE 1 2) 2), 2, by decide +kernel⟩,
   ⟨1, ((canMask 1 1 State.reset).wr (R.CANn_TXBb_STAT_STATE 1 2) 2), 2, .arbitrationLost, by decide +kernel⟩,
   ⟨1, (((canMask 1 1 State.reset).wr (R.CANn_FLTf_CFG_EN 1 31) 1).wr (R.CANn_FLTf_CFG_XTD 1 31) 1).wr (R.CANn_FLTf_MASK 1 31) 0, anyFrame, 31, by decide +kernel⟩,
   ⟨1, ((((canMask 1 1 State.reset).wr (R.CANn_FLTf_CFG_EN 1 31) 1).wr (R.CANn_FLTf_CFG_XTD 1 31) 1).wr (R.CANn_FLTf_MASK 1 31) 0).wr (R.CANn_FLTf_CFG_REJECT 1 31) 1, anyFrame, 31, by decide +kernel⟩,
   ⟨1, State.reset, by decide +kernel⟩,
   ⟨0, (canMask 0 1 State.reset).setCan 0 (fun c => { c with tec := 247 }), by decide +kernel⟩,
   ⟨0, (canMask 0 1 State.reset).setCan 0 (fun c => { c with tec := 248 }), by decide +kernel⟩,
   ⟨0, (canMask 0 1 State.reset).setCan 0 (fun c => { c with tec := 255 }), by decide +kernel⟩,
   ⟨0, canMask 0 2 State.reset, .receiveEight, by decide +kernel⟩,
   ⟨1, State.reset.setCan 1 (fun c => { c with busOff := true, recovering := true }), by decide +kernel⟩,
   ⟨1, State.reset, by decide +kernel⟩⟩

theorem witness_HostTransactions :
  (∃ (s : State) (h : _) (rest : List Word) (aligned : _), s.Running ∧ hdrOk h = true ∧ (aligned = false ∨ rest.length ≠ hdrWords h + 1)) ∧
  (∃ (s : State) (h : Word) (data : List Word) (w : Word), s.Running ∧ hdrOk h = true ∧ data.length = hdrWords h ∧
      w.toNat % 256 ≠ crc8 (data.flatMap wireBytes)) ∧
  (∃ (s : State) (h : Word) (data : List Word) (w : Word), s.Running ∧ hdrOk h = true ∧ data.length = hdrWords h ∧
      w.toNat % 256 = crc8 (data.flatMap wireBytes) ∧ addrBad (hdrOffset h) (hdrWords h) = true) ∧
  (∃ (s : State) (h : Word) (data : List Word) (w : Word), s.Running ∧ hdrOk h = true ∧ data.length = hdrWords h ∧
      w.toNat % 256 = crc8 (data.flatMap wireBytes) ∧ addrBad (hdrOffset h) (hdrWords h) = false ∧
      s.accessBad (hdrOffset h) (hdrWords h) = true) ∧
  (∃ (s : State) (h : Word) (data : List Word) (w : Word), s.Running ∧ hdrOk h = true ∧ data.length = hdrWords h ∧
      w.toNat % 256 = crc8 (data.flatMap wireBytes) ∧ 0x8000 ≤ hdrOffset h ∧ hdrOffset h + 4 * hdrWords h ≤ 0x10000) ∧
  (∃ (s : State) (h : _) (count : _), s.Running ∧ count ≠ 0 ∧ hdrOk h = false) ∧
  (∃ (s : State) (h : _), s.Running ∧ hdrOk h = true ∧ hdrWords h = 1 ∧ 0x8000 ≤ hdrOffset h ∧ hdrOffset h + 4 ≤ 0x10000) ∧
  (∃ (s : State) (c : Fin 4) (tail : BitVec 16), s.Running ∧ tail.toNat = s.rd (R.HS_CQc_TAIL c)) ∧
  (∃ (s : State) (c : Fin 4) (tail : BitVec 16), s.Running ∧ s.qCredit c < wrapTo 16 ((tail.toNat : Int) - s.rd (R.HS_CQc_TAIL c))) ∧
  (∃ (s : State) (c : Fin 4) (tail : BitVec 16), s.Running ∧ tail.toNat ≠ s.rd (R.HS_CQc_TAIL c) ∧
      wrapTo 16 ((tail.toNat : Int) - s.rd (R.HS_CQc_TAIL c)) ≤ s.qCredit c) ∧
  (∃ (s : State), s.Running ∧ s.hs.bells = []) ∧
  (∃ (s : State) (c : _) (tail : _) (due : _) (rest : _), s.Running ∧ s.hs.bells = (c, tail, due) :: rest ∧ c < 4 ∧ due < s.time.tbLast + s.period) ∧
  (∃ (s : State) (c : _) (tail : _) (due : _) (rest : _), s.Running ∧ s.hs.bells = (c, tail, due) :: rest ∧ s.time.tbLast + s.period ≤ due) ∧
  (∃ (s : State) (c : Fin 4) (head : BitVec 16), s.Running ∧ s.qFill (c.val + 4) < wrapTo 16 ((head.toNat : Int) - s.rd (R.HS_CPLc_HEAD c))) ∧
  (∃ (s : State) (c : Fin 4) (head : BitVec 16), s.Running ∧ wrapTo 16 ((head.toNat : Int) - s.rd (R.HS_CPLc_HEAD c)) ≤ s.qFill (c.val + 4)) ∧
  (∃ (s : State) (r : _), s.Running ∧ s.mpServes = true ∧ s.hs.held = [r] ∧ r.queue < 4 ∧ 0 < s.qCredit (r.queue + 4)) ∧
  (∃ (s : State), s.Running ∧ s.mpServes = false) :=
  ⟨⟨State.reset, header 1 0x8000, [5], true, by decide +kernel⟩,
   ⟨State.reset, header 1 0x8000, [5], 0, by decide +kernel⟩,
   ⟨State.reset, header 2 0xFFC, [5, 6], BitVec.ofNat 32 (crc8 ([5, 6].flatMap wireBytes)), by decide +kernel⟩,
   ⟨State.reset, header 1 0x100, [5], BitVec.ofNat 32 (crc8 ([5].flatMap wireBytes)), by decide +kernel⟩,
   ⟨State.reset, header 2 0xFFF8, [5, 6], BitVec.ofNat 32 (crc8 ([5, 6].flatMap wireBytes)), by decide +kernel⟩,
   ⟨State.reset, 0, 9, by decide +kernel⟩,
   ⟨State.reset, header 1 0xFFFC, by decide +kernel⟩,
   ⟨State.reset, 3, 0, by decide +kernel⟩,
   ⟨State.reset, 0, 17, by decide +kernel⟩,
   ⟨State.reset, 0, 16, by decide +kernel⟩,
   ⟨State.reset, by decide +kernel⟩,
   ⟨{ State.reset with hs.bells := [(3, 1, 9999)] }, 3, 1, 9999, [], by decide +kernel⟩,
   ⟨{ State.reset with hs.bells := [(3, 1, 10000)] }, 3, 1, 10000, [], by decide +kernel⟩,
   ⟨State.reset, 3, 1, by decide +kernel⟩,
   ⟨State.reset, 3, 0, by decide +kernel⟩,
   ⟨{ serving with hs.held := [⟨1, 0, 1, 0x100, 2, 3, 1, [], false⟩] }, ⟨1, 0, 1, 0x100, 2, 3, 1, [], false⟩, by decide +kernel⟩,
   ⟨State.reset, by decide +kernel⟩⟩

theorem witness_ProcessorAndResets :
  (∃ (s : State), s.Running ∧ (s.mpServes = false ∨ s.mp.stall.isSome = true ∨ s.nextQueue = none)) ∧
  (∃ (s : State) (c : _), s.Running ∧ s.mpServes = true ∧ s.mp.stall = none ∧ s.nextQueue = some c ∧ fieldLE (s.headBytes c) 0 2 = 0x0102 ∧
      s.hs.held = []) ∧
  (∃ (s : State), s.Running ∧ s.rd R.HS_STAT_MPSTATE = 2) ∧
  (∃ (s : State), s.Running ∧ s.rd R.HS_STAT_MPSTATE = 1) ∧
  (∃ (s : State), s.Running ∧ s.rd R.HS_STAT_MPSTATE ≠ 1 ∧ s.rd R.HS_STAT_MPSTATE ≠ 2) ∧
  (∃ (s : State) (tick : _), s.Running ∧ s.swapTick = some tick ∧ s.mpServes = true ∧ s.swapPending = true ∧ 0 ≤ modDiff 32 s.tickno tick) ∧
  (∃ (s : State), s.Running ∧ (s.swapTick = none ∨ s.mpServes = false ∨ s.swapPending = false)) ∧
  (∃ (s : State) (at_ : _), s.Running ∧ s.sys.resetDue = some (at_, 2)) ∧
  (∃ (s : State), s.Running ∧ s.sys.resetDue = none) ∧
  (∃ (s : State), s.Running ∧ s.sys.booted = false ∧ s.sys.bootStopped = false ∧ s.sys.latchedOff = false) ∧
  (∃ (s : State), s.Running ∧ (s.sys.booted = true ∨ s.sys.bootStopped = true ∨ s.sys.latchedOff = true)) :=
  ⟨⟨State.reset, by decide +kernel⟩,
   ⟨popState, 1, by decide +kernel⟩,
   ⟨State.reset.wr R.HS_STAT_MPSTATE 2, by decide +kernel⟩,
   ⟨State.reset.wr R.HS_STAT_MPSTATE 1, by decide +kernel⟩,
   ⟨State.reset.wr R.HS_STAT_MPSTATE 0, by decide +kernel⟩,
   ⟨{ serving with hs.works := [⟨3, 9, 0x300, 1, 0, false, .fwSwap 0, none, false⟩], nv.journal.istate := 4 }, 0, by decide +kernel⟩,
   ⟨State.reset, by decide +kernel⟩,
   ⟨{ State.reset with sys.resetDue := some (10, 2) }, 10, by decide +kernel⟩,
   ⟨State.reset, by decide +kernel⟩,
   ⟨{ State.reset with nv.bootJobs := [.store 1 [1, 2] none] }, by decide +kernel⟩,
   ⟨{ State.reset with sys.booted := true }, by decide +kernel⟩⟩

/-- A descriptor on a queue. -/
def cmdOn (queue : Fin 4) (param : List Byte) : Desc :=
  { queue := queue, dseq := 1, flags := 0, reserved := 0, handle := 0, ctag := 7, param := param, parity := none, bulkParity := none }

/-- A descriptor with a handle. -/
def withHandle (handle : BitVec 16) (d : Desc) : Desc := { d with handle := handle }

/-- One accepted command waits. -/
def oneWork (kind : WorkKind) (opcode : Nat) : State :=
  { serving.setEntry 5 0x1405 with hs.fresh := 6, hs.works := [⟨0x1005, 9, opcode, 1, 0, false, kind, none, false⟩] }

theorem witness_CommandsOnTheWrongQueue :
  (∃ (d : Desc) (s : State) (x : _), s.Running ∧ s.mpServes = true ∧ s.mp.stall = none ∧ d.parity = none ∧ 0 < s.qCredit (d.queue.val + 4) ∧
      s.hs.held = [] ∧
      x ∈ [(0x0101, Instr.sysInfo d), (0x0102, .sysNop d), (0x0103, .sysQuery d), (0x0104, .sysCancel d), (0x0105, .sysAttnClr d), (0x0106, .sysTime d), (0x0107, .sysTimetable d), (0x0108, .sysReset d), (0x0201, .mdEnable d), (0x0202, .mdDisable d), (0x0203, .mdStart d), (0x0204, .mdStop d), (0x0205, .mdEmergency d), (0x0206, .mdMode d), (0x0207, .mdReset d), (0x0210, .spWrite d), (0x0211, .spWriteN d), (0x0301, .regRead d), (0x0302, .regWrite d), (0x0303, .parStage d), (0x0304, .tblLoad d), (0x0305, .bankSwap d), (0x0306, .bankCopy d), (0x0307, .parSave d), (0x0308, .fbCorrect d), (0x0401, .diagOffstate d), (0x0402, .bistLane d), (0x0403, .bistMem d), (0x0404, .bistGate d), (0x0405, .calPass d), (0x0406, .crcScan d), (0x0501, .trConfig d), (0x0502, .trArm d), (0x0503, .trTrigger d), (0x0504, .trRead d), (0x0505, .evRead d), (0x0601, .lkEnum d), (0x0602, .csForm d), (0x0603, .csAdd d), (0x0604, .csRemove d), (0x0605, .csDissolve d), (0x0701, .prRelease d), (0x0702, .prEngage d), (0x0703, .prPser d), (0x0801, .safeOpen d), (0x0802, .safeClose d), (0x0803, .safeConfirm d), (0x0804, .safeStatus d), (0x0901, .fwStage d), (0x0902, .fwVerify d), (0x0903, .fwSwap d), (0x0904, .fwDiscard d), (0x0905, .nvRead d)] ∧
      (s.on R.SYS_BOOT_RECOVERY = false ∨ recoveryServes x.1 = true) ∧ d.queue.val = 3 ∧ x.1 / 256 ≠ 8 ∧ x.1 ≠ 0x0102 ∧ x.1 ≠ 0x0103 ∧
      x.1 ≠ 0x0104) ∧
  (∃ (d : Desc) (s : State) (x : _), s.Running ∧ s.mpServes = true ∧ s.mp.stall = none ∧ d.parity = none ∧ 0 < s.qCredit (d.queue.val + 4) ∧
      s.hs.held = [] ∧
      x ∈ [(0x0101, Instr.sysInfo d), (0x0102, .sysNop d), (0x0103, .sysQuery d), (0x0104, .sysCancel d), (0x0105, .sysAttnClr d), (0x0106, .sysTime d), (0x0107, .sysTimetable d), (0x0108, .sysReset d), (0x0201, .mdEnable d), (0x0202, .mdDisable d), (0x0203, .mdStart d), (0x0204, .mdStop d), (0x0205, .mdEmergency d), (0x0206, .mdMode d), (0x0207, .mdReset d), (0x0210, .spWrite d), (0x0211, .spWriteN d), (0x0301, .regRead d), (0x0302, .regWrite d), (0x0303, .parStage d), (0x0304, .tblLoad d), (0x0305, .bankSwap d), (0x0306, .bankCopy d), (0x0307, .parSave d), (0x0308, .fbCorrect d), (0x0401, .diagOffstate d), (0x0402, .bistLane d), (0x0403, .bistMem d), (0x0404, .bistGate d), (0x0405, .calPass d), (0x0406, .crcScan d), (0x0501, .trConfig d), (0x0502, .trArm d), (0x0503, .trTrigger d), (0x0504, .trRead d), (0x0505, .evRead d), (0x0601, .lkEnum d), (0x0602, .csForm d), (0x0603, .csAdd d), (0x0604, .csRemove d), (0x0605, .csDissolve d), (0x0701, .prRelease d), (0x0702, .prEngage d), (0x0703, .prPser d), (0x0801, .safeOpen d), (0x0802, .safeClose d), (0x0803, .safeConfirm d), (0x0804, .safeStatus d), (0x0901, .fwStage d), (0x0902, .fwVerify d), (0x0903, .fwSwap d), (0x0904, .fwDiscard d), (0x0905, .nvRead d)] ∧
      (s.on R.SYS_BOOT_RECOVERY = false ∨ recoveryServes x.1 = true) ∧ d.queue.val ≠ 3 ∧ x.1 / 256 = 8) ∧
  (∃ (d : Desc) (s : State) (x : _), s.Running ∧ s.mpServes = true ∧ s.mp.stall = none ∧ d.parity = none ∧ 0 < s.qCredit (d.queue.val + 4) ∧
      s.hs.held = [] ∧
      x ∈ [(0x0101, Instr.sysInfo d), (0x0102, .sysNop d), (0x0103, .sysQuery d), (0x0104, .sysCancel d), (0x0105, .sysAttnClr d), (0x0106, .sysTime d), (0x0107, .sysTimetable d), (0x0108, .sysReset d), (0x0201, .mdEnable d), (0x0202, .mdDisable d), (0x0203, .mdStart d), (0x0204, .mdStop d), (0x0205, .mdEmergency d), (0x0206, .mdMode d), (0x0207, .mdReset d), (0x0210, .spWrite d), (0x0211, .spWriteN d), (0x0301, .regRead d), (0x0302, .regWrite d), (0x0303, .parStage d), (0x0304, .tblLoad d), (0x0305, .bankSwap d), (0x0306, .bankCopy d), (0x0307, .parSave d), (0x0308, .fbCorrect d), (0x0401, .diagOffstate d), (0x0402, .bistLane d), (0x0403, .bistMem d), (0x0404, .bistGate d), (0x0405, .calPass d), (0x0406, .crcScan d), (0x0501, .trConfig d), (0x0502, .trArm d), (0x0503, .trTrigger d), (0x0504, .trRead d), (0x0505, .evRead d), (0x0601, .lkEnum d), (0x0602, .csForm d), (0x0603, .csAdd d), (0x0604, .csRemove d), (0x0605, .csDissolve d), (0x0701, .prRelease d), (0x0702, .prEngage d), (0x0703, .prPser d), (0x0801, .safeOpen d), (0x0802, .safeClose d), (0x0803, .safeConfirm d), (0x0804, .safeStatus d), (0x0901, .fwStage d), (0x0902, .fwVerify d), (0x0903, .fwSwap d), (0x0904, .fwDiscard d), (0x0905, .nvRead d)] ∧
      (s.on R.SYS_BOOT_RECOVERY = false ∨ recoveryServes x.1 = true) ∧ ((d.queue.val = 3 ↔ x.1 / 256 = 8) ∨ (d.queue.val = 3 ∧
      (x.1 = 0x0102 ∨ x.1 = 0x0103 ∨ x.1 = 0x0104)))) :=
  ⟨⟨cmdOn 3 [], serving, (0x0101, .sysInfo (cmdOn 3 [])), by decide +kernel⟩,
   ⟨cmdOn 2 [], serving, (0x0801, .safeOpen (cmdOn 2 [])), by decide +kernel⟩,
   ⟨cmdOn 3 [], serving, (0x0804, .safeStatus (cmdOn 3 [])), by decide +kernel⟩⟩

theorem witness_RegWriteOfLockedAndReadOnlyRegisters :
  (∃ (d : Desc) (s : State), s.Serves 0x0302 [(8, 15, 255)] d ∧ pnum d 8 4 % 4 = 0 ∧ isRegister (pnum d 8 4) = true ∧
      s.on R.SB_LOCK_LOCKED = true ∧ s.sb.blocked = false ∧ accessMask (pnum d 8 4) .rwl ≠ 0) ∧
  (∃ (d : Desc) (s : State), s.Serves 0x0302 [(8, 15, 255)] d ∧ pnum d 8 4 % 4 = 0 ∧ isRegister (pnum d 8 4) = true ∧
      accessMask (pnum d 8 4) .ro ≠ 0 ∧ (∀ k, k ≠ .ro → accessMask (pnum d 8 4) k = 0)) :=
  ⟨⟨cmdOn 1 (bytesLE 4 (R.SB_SINi_CFG_ROLE 0).addr), serving.wr R.SB_LOCK_LOCKED 1, by decide +kernel⟩,
   ⟨cmdOn 1 (bytesLE 4 (R.SYS_ID_PART).addr ++ [1, 2, 3, 4]), serving, by refine ⟨?_, ?_, ?_, ?_, fun k hk => by revert hk; cases k <;> decide +kernel⟩ <;> decide +kernel⟩⟩

theorem witness_SystemAndDriveCommands :
  (∃ (d : Desc) (s : State), s.HandleFree ∧ s.Serves 0x0101 [] d) ∧
  (∃ (d : Desc) (s : State), s.HandleFree ∧ s.Serves 0x0102 [] d) ∧
  (∃ (d : Desc) (s : State), s.HandleFree ∧ s.Serves 0x0103 [] d ∧ entryState (s.entryOf (d.handle.toNat % 4096)) = 1) ∧
  (∃ (d : Desc) (s : State), s.HandleFree ∧ s.Serves 0x0104 [] d ∧ s.hs.works.find? (fun w => w.handle == d.handle.toNat) = none) ∧
  (∃ (d : Desc) (s : State) (w : _) (p : _) (a : _) (r : _), s.HandleFree ∧ s.Serves 0x0104 [] d ∧
      s.hs.works.find? (fun w => w.handle == d.handle.toNat) = some w ∧ w.opcode = 0x0405 ∧ w.kind = .calPass p a r ∧ w.queue < 4 ∧
      w.queue ≠ d.queue.val) ∧
  (∃ (d : Desc) (s : State), s.HandleFree ∧ s.Serves 0x0105 [(8, 11, 255)] d) ∧
  (∃ (d : Desc) (s : State), s.HandleFree ∧ s.Serves 0x0106 [] d) ∧
  (∃ (d : Desc) (s : State), s.HandleFree ∧ s.Serves 0x0107 [(8, 8, 7), (10, 15, 255)] d ∧ s.on R.TT_STAT_PEND = false ∧ pnum d 8 1 = 0) ∧
  (∃ (d : Desc) (s : State), s.HandleFree ∧ s.Serves 0x0107 [(8, 8, 7), (10, 15, 255)] d ∧ s.on R.TT_STAT_PEND = true ∧
      testB (pnum d 8 1) 2 = false) ∧
  (∃ (d : Desc) (s : State), s.HandleFree ∧ s.Serves 0x0108 [(8, 8, 255)] d ∧ (pnum d 8 1 = 1 ∨ (pnum d 8 1 = 2 ∧
      (s.drive ≤ 1 ∨ s.drive = 5 ∨ s.drive = 6)))) ∧
  (∃ (d : Desc) (s : State), s.HandleFree ∧ s.Serves 0x0108 [(8, 8, 255)] d ∧ pnum d 8 1 = 2 ∧ 2 ≤ s.drive ∧ s.drive ≤ 4) ∧
  (∃ (d : Desc) (s : State) (x : _), s.HandleFree ∧
      x ∈ [(1, Instr.mdEnable d), (2, .mdDisable d), (3, .mdStart d), (4, .mdStop d), (5, .mdEmergency d), (6, .mdMode d), (7, .mdReset d)] ∧
      s.Serves (0x0200 + x.1) [(8, 8, 1), (9, 10, 255), (12, 15, 255)] d ∧ (x.1 = 3 ∨ x.1 = 6 → 1 ≤ pnum d 9 1 ∧ pnum d 9 1 ≤ 4) ∧
      (x.1 = 5 → 1 ≤ pnum d 10 1 ∧ pnum d 10 1 ≤ 5) ∧ testB (pnum d 8 1) 0 = false ∧ s.on R.LN_MD_RES_PEND = false ∧
      (x.1 = 1 → s.idleRuns = false)) ∧
  (∃ (d : Desc) (s : State) (x : _), s.HandleFree ∧
      x ∈ [(1, Instr.mdEnable d), (2, .mdDisable d), (3, .mdStart d), (4, .mdStop d), (5, .mdEmergency d), (6, .mdMode d), (7, .mdReset d)] ∧
      s.Serves (0x0200 + x.1) [(8, 8, 1), (9, 10, 255), (12, 15, 255)] d ∧ (x.1 = 3 ∨ x.1 = 6 → 1 ≤ pnum d 9 1 ∧ pnum d 9 1 ≤ 4) ∧
      (x.1 = 5 → 1 ≤ pnum d 10 1 ∧ pnum d 10 1 ≤ 5) ∧ testB (pnum d 8 1) 0 = false ∧ s.on R.LN_MD_RES_PEND = true) ∧
  (∃ (d : Desc) (s : State), s.HandleFree ∧ s.Serves 0x0210 [(8, 39, 255)] d ∧ s.setpointOk (padTo 32 (d.param.take 32)) = true ∧ 0 < s.qCredit 50) ∧
  (∃ (d : Desc) (s : State), s.HandleFree ∧ s.Serves 0x0210 [(8, 39, 255)] d ∧ s.setpointOk (padTo 32 (d.param.take 32)) = false) ∧
  (∃ (d : Desc) (s : State), s.HandleFree ∧ s.Serves 0x0210 [(8, 39, 255)] d ∧ s.setpointOk (padTo 32 (d.param.take 32)) = true ∧ s.qCredit 50 = 0) ∧
  (∃ (d : Desc) (s : State) (b : _), s.HandleFree ∧ s.Serves 0x0211 [(8, 12, 255)] d ∧ pnum d 8 4 % 32 = 0 ∧ 1 ≤ pnum d 12 1 ∧ pnum d 12 1 ≤ 64 ∧
      bulkBad (pnum d 8 4) (32 * pnum d 12 1) = false ∧ d.bulkParity = none ∧ s.spoilHit d (pnum d 8 4) (pnum d 8 4 + 32 * pnum d 12 1) = false ∧
      b = s.memBytes (winAddr (0x8000 + pnum d 8 4)) (32 * pnum d 12 1) ∧ (records32 (pnum d 12 1) b).all s.setpointOk = true ∧
      pnum d 12 1 ≤ s.qCredit 50) :=
  ⟨⟨cmdOn 0 [], serving, by decide +kernel⟩,
   ⟨cmdOn 3 [], serving, by decide +kernel⟩,
   ⟨withHandle 0x1005 (cmdOn 0 []), oneWork .timetable 0x0107, by decide +kernel⟩,
   ⟨withHandle 0x1005 (cmdOn 0 []), { oneWork .timetable 0x0107 with hs.works := [] }, by decide +kernel⟩,
   ⟨withHandle 0x1005 (cmdOn 0 []), oneWork (.calPass 0 0 0) 0x0405, ⟨0x1005, 9, 0x0405, 1, 0, false, .calPass 0 0 0, none, false⟩, 0, 0, 0, by decide +kernel⟩,
   ⟨cmdOn 0 [0xF, 0, 0, 0], serving.wr R.HS_ATTN 0xFF, by decide +kernel⟩,
   ⟨cmdOn 0 [], serving, by decide +kernel⟩,
   ⟨cmdOn 0 [], serving, by decide +kernel⟩,
   ⟨cmdOn 0 [3], serving.wr R.TT_STAT_PEND 1, by decide +kernel⟩,
   ⟨cmdOn 0 [2], serving, by decide +kernel⟩,
   ⟨cmdOn 0 [2], serving.wr R.LN_MD_STAT_STATE 4, by decide +kernel⟩,
   ⟨cmdOn 0 [0, 4, 5], serving, (5, .mdEmergency (cmdOn 0 [0, 4, 5])), by decide +kernel⟩,
   ⟨cmdOn 0 [0, 4, 5], serving.wr R.LN_MD_RES_PEND 1, (3, .mdStart (cmdOn 0 [0, 4, 5])), by decide +kernel⟩,
   ⟨cmdOn 0 [8], serving, by decide +kernel⟩,
   ⟨cmdOn 0 [9], serving, by decide +kernel⟩,
   ⟨cmdOn 0 [8], serving.setQueue 50 { items := List.replicate (qDepth 50) [] }, by decide +kernel⟩,
   ⟨cmdOn 0 [0xE0, 0x7F, 0, 0, 1], serving.setMem (winAddr 0xFFE0) [1], (serving.setMem (winAddr 0xFFE0) [1]).memBytes (winAddr 0xFFE0) 32, by decide +kernel⟩⟩

/-- Bytes of a number. -/
def le (n v : Nat) : List Byte := bytesLE n v

/-- A trace ring with samples in place. -/
def ringState : State := (serving.wr (R.TE_Rr_ALLOC_BASE 0) 0).setMem (winAddr 0x8000) (List.replicate 16 0xFF)

/-- The load of the exchange window that CS.ADD works out. -/
def loadOf (d : Desc) (s : State) : Nat × Nat × Nat :=
  (hopsTo (pnum d 10 2) s).2.consistLoad ((pnum d 14 1, pnum d 10 2) :: (hopsTo (pnum d 10 2) s).2.memberSlots)
    (fun u => if u = pnum d 10 2 then (hopsTo (pnum d 10 2) s).1 else (hopsTo (pnum d 10 2) s).2.memberHops u)

/-- A saved image in the NOR. -/
def imaged : State := serving.setNor (imageAddr 3) (le 2 5 ++ le 2 1 ++ le 4 9 ++ le 4 (crc32c (List.replicate 240 0xFF)))

/-- Two records of the log in the buffer. -/
def logged : State := { serving with nv.logSeq := 5, mp.buffer := [le 6 3 ++ List.replicate 26 1, le 6 4 ++ List.replicate 26 2] }

/-- Records of the log in the NOR and one in the buffer. -/
def loggedNor : State := { serving with nv.logSeq := 5, nv.logMap := [(0x2A8, 2)], mp.buffer := [le 6 4 ++ List.replicate 26 2] }

theorem witness_RegisterAndTableCommands :
  (∃ (d : Desc) (s : State), s.HandleFree ∧ s.Serves 0x0301 [(8, 12, 255)] d ∧ pnum d 8 4 % 4 = 0 ∧ pnum d 12 1 = 1 ∧
      isRegister (pnum d 8 4) = true) ∧
  (∃ (d : Desc) (s : State), s.HandleFree ∧ s.Serves 0x0301 [(8, 12, 255)] d ∧ pnum d 8 4 % 4 = 0 ∧ pnum d 12 1 = 1 ∧
      isRegister (pnum d 8 4) = false ∧ busRange (pnum d 8 4) 4 = false) ∧
  (∃ (d : Desc) (s : State), s.HandleFree ∧ s.Serves 0x0302 [(8, 15, 255)] d ∧ pnum d 8 4 % 4 = 0 ∧ isRegister (pnum d 8 4) = true ∧
      (pnum d 8 4 / 0x10000 = 0x400F ∨ pnum d 8 4 / 0x10000 = 0x4010) ∧ s.sb.blocked = false ∧ s.on R.SB_LOCK_LOCKED = false ∧
      takesWrite (pnum d 8 4) = true) ∧
  (∃ (d : Desc) (s : State) (off : _), s.HandleFree ∧ s.Serves 0x0303 [(8, 13, 255), (16, 19, 255)] d ∧ pnum d 8 4 % 4 = 0 ∧ pnum d 12 2 = 1 ∧
      bulkBad (pnum d 16 4) 4 = false ∧ pageOffset (pnum d 8 4) = some off ∧ d.bulkParity = none ∧
      s.spoilHit d (pnum d 16 4) (pnum d 16 4 + 4) = false ∧ s.ln.bankTick = none ∧ (s.queue 53).items = [] ∧ (s.queue 53).off = false ∧
      bankMask off ≠ 0) ∧
  (∃ (d : Desc) (s : State), s.HandleFree ∧ s.Serves 0x0303 [(8, 13, 255), (16, 19, 255)] d ∧ pnum d 8 4 % 4 = 0 ∧ pnum d 12 2 = 1 ∧
      bulkBad (pnum d 16 4) 4 = false ∧ pageOffset (pnum d 8 4) = none) ∧
  (∃ (d : Desc) (s : State) (b : _), s.HandleFree ∧ s.Serves 0x0304 [(8, 8, 255), (9, 9, 1), (12, 23, 255)] d ∧ 1 ≤ pnum d 8 1 ∧ pnum d 8 1 ≤ 9 ∧
      pnum d 16 4 = 4 * (tblPlace (pnum d 8 1)).2 ∧ bulkBad (pnum d 12 4) (pnum d 16 4) = false ∧ d.bulkParity = none ∧
      s.spoilHit d (pnum d 12 4) (pnum d 12 4 + pnum d 16 4) = false ∧ b = s.memBytes (winAddr (0x8000 + pnum d 12 4)) (pnum d 16 4) ∧
      crc32c b = pnum d 20 4 ∧ (∀ w ∈ s.hs.works, ∀ u a c, w.kind ≠ .tblLoad u a c)) ∧
  (∃ (d : Desc) (s : State) (b : _), s.HandleFree ∧ s.Serves 0x0304 [(8, 8, 255), (9, 9, 1), (12, 23, 255)] d ∧ 1 ≤ pnum d 8 1 ∧ pnum d 8 1 ≤ 9 ∧
      pnum d 16 4 = 4 * (tblPlace (pnum d 8 1)).2 ∧ bulkBad (pnum d 12 4) (pnum d 16 4) = false ∧ d.bulkParity = none ∧
      s.spoilHit d (pnum d 12 4) (pnum d 12 4 + pnum d 16 4) = false ∧ b = s.memBytes (winAddr (0x8000 + pnum d 12 4)) (pnum d 16 4) ∧
      crc32c b ≠ pnum d 20 4) ∧
  (∃ (d : Desc) (s : State), s.HandleFree ∧ s.Serves 0x0305 [(8, 8, 1), (12, 15, 255)] d ∧ s.ln.bankTick = none ∧ testB (pnum d 8 1) 0 = true ∧
      2 ≤ s.ticksAhead (pnum d 12 4) ∧ s.ticksAhead (pnum d 12 4) ≤ 65536) ∧
  (∃ (d : Desc) (s : State), s.HandleFree ∧ s.Serves 0x0305 [(8, 8, 1), (12, 15, 255)] d ∧ s.ln.bankTick = none ∧ testB (pnum d 8 1) 0 = false) ∧
  (∃ (d : Desc) (s : State), s.HandleFree ∧ s.Serves 0x0305 [(8, 8, 1), (12, 15, 255)] d ∧ s.ln.bankTick.isSome = true ∧
      testB (pnum d 8 1) 0 = false) ∧
  (∃ (d : Desc) (s : State), s.HandleFree ∧ s.Serves 0x0306 [] d ∧ s.ln.bankTick = none) ∧
  (∃ (d : Desc) (s : State), s.HandleFree ∧ s.Serves 0x0307 [(8, 8, 3)] d ∧ s.norFull = false ∧ s.parSaves = false ∧ s.nv.wait = [] ∧
      (pnum d 8 1 % 4 = 3 ∨ s.imageSpan = none)) ∧
  (∃ (d : Desc) (s : State) (x : _), s.HandleFree ∧ s.Serves 0x0307 [(8, 8, 3)] d ∧ s.norFull = false ∧ s.parSaves = false ∧ s.nv.wait = [] ∧
      pnum d 8 1 % 4 ≠ 3 ∧ s.imageSpan = some x) ∧
  (∃ (d : Desc) (s : State), s.HandleFree ∧ s.Serves 0x0307 [(8, 8, 3)] d ∧ s.norFull = false ∧ s.parSaves = true) ∧
  (∃ (d : Desc) (s : State), s.HandleFree ∧ s.Serves 0x0307 [(8, 8, 3)] d ∧ s.norFull = true) ∧
  (∃ (d : Desc) (s : State), s.HandleFree ∧ s.Serves 0x0308 [] d ∧ s.on R.FB_CTL_EN = true ∧ s.rd R.FB_SEL_IDXSRC ≠ 0) ∧
  (∃ (d : Desc) (s : State), s.HandleFree ∧ s.Serves 0x0308 [] d ∧ (s.on R.FB_CTL_EN = false ∨ s.rd R.FB_SEL_IDXSRC = 0)) :=
  ⟨⟨cmdOn 1 (le 4 (R.SYS_ID_PART).addr ++ [1]), serving, by decide +kernel⟩,
   ⟨cmdOn 1 (le 4 0x50000000 ++ [1]), serving, by decide +kernel⟩,
   ⟨cmdOn 1 (le 4 (R.TH_TXCFG).addr ++ [0xFF, 0xFF, 0xFF, 0xFF]), serving.wr R.SB_LOCK_LOCKED 0, by decide +kernel⟩,
   ⟨cmdOn 1 (le 4 0x40041000 ++ [1, 0, 0, 0] ++ le 4 0x7FFC), serving.setMem (winAddr 0xFFFC) [1, 2, 3, 4], 0, by decide +kernel⟩,
   ⟨cmdOn 1 (le 4 0x40041100 ++ [1, 0, 0, 0] ++ le 4 0x7FFC), serving, by decide +kernel⟩,
   ⟨cmdOn 1 (le 4 4 ++ le 4 0x7F7C ++ le 4 132 ++ le 4 0xFBA32BA2), serving, List.replicate 132 0, by refine ⟨?_, ?_, ?_, ?_, ?_, ?_, ?_, ?_, ?_, crc32c_zeros.trans (by decide +kernel), fun w hw => by cases hw⟩ <;> decide +kernel⟩,
   ⟨cmdOn 1 (le 4 4 ++ le 4 0x7F7C ++ le 4 132 ++ le 4 0xFBA32BA3), serving, List.replicate 132 0, by refine ⟨?_, ?_, ?_, ?_, ?_, ?_, ?_, ?_, ?_, by rw [crc32c_zeros]; decide +kernel⟩ <;> decide +kernel⟩,
   ⟨cmdOn 1 (le 4 1 ++ le 4 65536), serving, by decide +kernel⟩,
   ⟨cmdOn 1 (le 4 0), serving, by decide +kernel⟩,
   ⟨cmdOn 1 (le 4 0), { serving with ln.bankTick := some 7 }, by decide +kernel⟩,
   ⟨cmdOn 1 [], serving, by decide +kernel⟩,
   ⟨cmdOn 1 [3], serving, by decide +kernel⟩,
   ⟨cmdOn 1 [1], imaged, (imageAddr 3 + 16, 240), by decide +kernel⟩,
   ⟨cmdOn 1 [3], oneWork (.parSave [1] 0) 0x0307, by decide +kernel⟩,
   ⟨cmdOn 1 [3], { serving with nv.retired := List.range 97 }, by decide +kernel⟩,
   ⟨cmdOn 1 [], (serving.wr R.FB_CTL_EN 1).wr R.FB_SEL_IDXSRC 2, by decide +kernel⟩,
   ⟨cmdOn 1 [], serving, by decide +kernel⟩⟩

theorem witness_TestAndTraceCommands :
  (∃ (d : Desc) (s : State), s.HandleFree ∧ s.Serves 0x0401 [(8, 8, 1)] d ∧ s.idleOk = true ∧ s.rd R.PM_CFG_CONF ≠ 2 ∧ 5 / 100 ≤ s.vdc ∧
      s.idleRuns = false) ∧
  (∃ (d : Desc) (s : State), s.HandleFree ∧ s.Serves 0x0401 [(8, 8, 1)] d ∧ s.idleOk = false) ∧
  (∃ (d : Desc) (s : State), s.HandleFree ∧ s.Serves 0x0402 [(8, 8, 255)] d ∧ pnum d 8 1 ≤ 3 ∧ s.on R.LN_STAT_DEGRADED = false ∧
      testB (s.rd R.LN_STAT_UNUSABLE) (pnum d 8 1) = false ∧ s.hs.works = [] ∧ s.bi.run = none ∧ s.bi.jobs = [] ∧ s.bi.wait = [] ∧
      s.bi.held = none ∧ 0 < s.qCredit 58) ∧
  (∃ (d : Desc) (s : State), s.HandleFree ∧ s.Serves 0x0402 [(8, 8, 255)] d ∧ pnum d 8 1 ≤ 3 ∧ s.on R.LN_STAT_DEGRADED = true) ∧
  (∃ (d : Desc) (s : State), s.HandleFree ∧ s.Serves 0x0403 [(8, 8, 255), (12, 19, 255)] d ∧ pnum d 8 1 = 0 ∧ 1 ≤ pnum d 16 4 ∧
      bistRange (pnum d 12 4) (pnum d 16 4) = true ∧ s.bi.run = none ∧ s.bi.jobs = [] ∧ s.bi.wait = [] ∧ s.bi.held = none ∧ 0 < s.qCredit 58) ∧
  (∃ (d : Desc) (s : State), s.HandleFree ∧ s.Serves 0x0403 [(8, 8, 255), (12, 19, 255)] d ∧ pnum d 8 1 ≤ 1 ∧ 1 ≤ pnum d 16 4 ∧
      bistRange (pnum d 12 4) (pnum d 16 4) = false) ∧
  (∃ (d : Desc) (s : State), s.HandleFree ∧ s.Serves 0x0404 [(8, 8, 127)] d ∧ s.idleOk = true ∧ s.bi.run = none ∧ s.bi.jobs = [] ∧ s.bi.wait = [] ∧
      s.bi.held = none ∧ 0 < s.qCredit 58) ∧
  (∃ (d : Desc) (s : State), s.HandleFree ∧ s.Serves 0x0404 [(8, 8, 127)] d ∧ s.idleOk = false) ∧
  (∃ (d : Desc) (s : State), s.HandleFree ∧ s.Serves 0x0405 [] d ∧ s.on R.SD_CAL_CTL_EN = true ∧ s.on R.SD_CAL_STAT_CALERR = false) ∧
  (∃ (d : Desc) (s : State), s.HandleFree ∧ s.Serves 0x0405 [] d ∧ (s.on R.SD_CAL_CTL_EN = false ∨ s.on R.SD_CAL_STAT_CALERR = true)) ∧
  (∃ (d : Desc) (s : State), s.HandleFree ∧ s.Serves 0x0406 [(8, 8, 255), (12, 23, 255)] d ∧ pnum d 8 1 ≤ 3 ∧ 1 ≤ pnum d 16 4 ∧
      pnum d 16 4 ≤ 0x1000000 ∧ busRange (pnum d 12 4) (pnum d 16 4) = true ∧ s.ccScan 0 = none ∧ 0 < s.qCredit 60) ∧
  (∃ (d : Desc) (s : State), s.HandleFree ∧ s.Serves 0x0406 [(8, 8, 255), (12, 23, 255)] d ∧ pnum d 8 1 ≤ 3 ∧ 1 ≤ pnum d 16 4 ∧
      busRange (pnum d 12 4) (pnum d 16 4) = false) ∧
  (∃ (d : Desc) (s : State) (b : _), s.HandleFree ∧ s.Serves 0x0501 [(8, 27, 255)] d ∧ pnum d 8 1 ≤ 15 ∧ pnum d 9 1 = 8 ∧ pnum d 10 2 ≠ 0 ∧
      bulkBad (pnum d 24 4) 16 = false ∧ trigBad (pnum d 16 8) = false ∧ s.ringBusy (pnum d 8 1) = false ∧ d.bulkParity = none ∧
      s.spoilHit d (pnum d 24 4) (pnum d 24 4 + 16) = false ∧
      b = (List.range 8).map (fun i => fieldLE (s.memBytes (winAddr (0x8000 + pnum d 24 4)) 16) (2 * i) 2) ∧ b.all nodeOk = true ∧
      (ringConfig (pnum d 8 1) (pnum d 10 2) (pnum d 12 4) false (pnum d 16 8) b s.cleared).bit R.TE_STAT_CONFIGURED (pnum d 8 1) = true) ∧
  (∃ (d : Desc) (s : State), s.HandleFree ∧ s.Serves 0x0501 [(8, 27, 255)] d ∧ pnum d 8 1 ≤ 15 ∧ pnum d 9 1 = 8 ∧ pnum d 10 2 ≠ 0 ∧
      bulkBad (pnum d 24 4) 16 = false ∧ trigBad (pnum d 16 8) = false ∧ s.ringBusy (pnum d 8 1) = true) ∧
  (∃ (d : Desc) (s : State), s.HandleFree ∧ s.Serves 0x0502 [(8, 11, 255)] d ∧ (ringsOf (pnum d 8 2)).all (fun r => s.ringConfigured r) = true) ∧
  (∃ (d : Desc) (s : State) (r : _), s.HandleFree ∧ r ∈ ringsOf (pnum d 8 2) ∧ s.Serves 0x0502 [(8, 11, 255)] d ∧ s.ringConfigured r = false) ∧
  (∃ (d : Desc) (s : State), s.HandleFree ∧ s.Serves 0x0503 [(8, 9, 255)] d ∧ (∀ r ∈ ringsOf (pnum d 8 2), s.bit R.TE_STAT_ARMED r = true)) ∧
  (∃ (d : Desc) (s : State) (r : _), s.HandleFree ∧ r ∈ ringsOf (pnum d 8 2) ∧ s.Serves 0x0503 [(8, 9, 255)] d ∧ s.bit R.TE_STAT_ARMED r = false) ∧
  (∃ (d : Desc) (s : State), s.HandleFree ∧ s.Serves 0x0504 [(8, 8, 255), (12, 23, 255)] d ∧ pnum d 8 1 ≤ 15 ∧ 1 ≤ pnum d 16 4 ∧
      pnum d 16 4 ≤ 0x8000 ∧ bulkBad (pnum d 20 4) (pnum d 16 4) = false ∧ s.bit R.TE_STAT_STOPPED (pnum d 8 1) = true) ∧
  (∃ (d : Desc) (s : State), s.HandleFree ∧ s.Serves 0x0504 [(8, 8, 255), (12, 23, 255)] d ∧ pnum d 8 1 ≤ 15 ∧ 1 ≤ pnum d 16 4 ∧
      pnum d 16 4 ≤ 0x8000 ∧ bulkBad (pnum d 20 4) (pnum d 16 4) = false ∧ s.bit R.TE_STAT_STOPPED (pnum d 8 1) = false) ∧
  (∃ (d : Desc) (s : State) (first : _) (n : _), s.HandleFree ∧ s.Serves 0x0505 [(8, 19, 255)] d ∧ 1 ≤ pnum d 14 2 ∧ pnum d 14 2 ≤ 1024 ∧
      bulkBad (pnum d 16 4) (32 * pnum d 14 2) = false ∧ first = max (pnum d 8 6) s.logOld ∧ n = min (pnum d 14 2) (s.logSeq - first)) :=
  ⟨⟨cmdOn 1 [1], (serving.wr (R.SD_CHn_CFG_ROLE 11) 4).wr (R.SD_CHn_MEAN 11) 0x20000000, by decide +kernel⟩,
   ⟨cmdOn 1 [1], serving.wr R.LN_MD_STAT_STATE 2, by decide +kernel⟩,
   ⟨cmdOn 1 [3], serving, by decide +kernel⟩,
   ⟨cmdOn 1 [3], serving.wr R.LN_STAT_DEGRADED 1, by decide +kernel⟩,
   ⟨cmdOn 1 (le 4 0 ++ le 4 0x102FFFFF ++ le 4 1), serving, by decide +kernel⟩,
   ⟨cmdOn 1 (le 4 1 ++ le 4 0x102FFFFF ++ le 4 2), serving, by decide +kernel⟩,
   ⟨cmdOn 1 [0x7F], serving, by decide +kernel⟩,
   ⟨cmdOn 1 [0x7F], serving.wr R.LN_MD_STAT_STATE 2, by decide +kernel⟩,
   ⟨cmdOn 1 [], serving.wr R.SD_CAL_CTL_EN 1, by decide +kernel⟩,
   ⟨cmdOn 1 [], serving, by decide +kernel⟩,
   ⟨cmdOn 1 (le 4 3 ++ le 4 0x20000000 ++ le 4 0x1000000 ++ le 4 5), serving, by decide +kernel⟩,
   ⟨cmdOn 1 (le 4 3 ++ le 4 0x20000001 ++ le 4 0x1000000 ++ le 4 5), serving, by decide +kernel⟩,
   ⟨cmdOn 2 ([0, 8, 1, 0] ++ le 4 5 ++ le 8 0 ++ le 4 0), ringState, (List.range 8).map (fun i => fieldLE ((ringState).memBytes (winAddr 0x8000) 16) (2 * i) 2), by decide +kernel⟩,
   ⟨cmdOn 2 ([0, 8, 1, 0] ++ le 4 5 ++ le 8 0 ++ le 4 0), ringState.wrBit R.TE_STAT_ARMED 0 true, by decide +kernel⟩,
   ⟨cmdOn 2 [0], serving, by decide +kernel⟩,
   ⟨cmdOn 2 [0, 0x80], serving, 15, by decide +kernel⟩,
   ⟨cmdOn 2 [0, 0x80], serving.wrBit R.TE_STAT_ARMED 15 true, by decide +kernel⟩,
   ⟨cmdOn 2 [0, 0x80], serving, 15, by decide +kernel⟩,
   ⟨cmdOn 2 (le 4 15 ++ le 4 0 ++ le 4 0x8000 ++ le 4 0), serving.wrBit R.TE_STAT_STOPPED 15 true, by decide +kernel⟩,
   ⟨cmdOn 2 (le 4 15 ++ le 4 0 ++ le 4 0x8000 ++ le 4 0), serving, by decide +kernel⟩,
   ⟨cmdOn 2 (le 6 1 ++ le 2 1024 ++ le 4 0), logged, 3, 2, by decide +kernel⟩⟩

theorem witness_LinkPairSafetyAndFirmwareCommands :
  (∃ (d : Desc) (s : State), s.HandleFree ∧ s.Serves 0x0601 [] d ∧ s.isRoot = true) ∧
  (∃ (d : Desc) (s : State), s.HandleFree ∧ s.Serves 0x0601 [] d ∧ s.isRoot = false) ∧
  (∃ (d : Desc) (s : State), s.HandleFree ∧ s.Serves 0x0602 [(8, 8, 255), (10, 13, 255)] d ∧ pnum d 8 1 ≤ 127 ∧ pnum d 10 2 ≤ 1024 ∧
      s.linkLocked = true ∧ s.mayForm = true ∧ exchangeBound 0 1 1 ≤ s.rd R.BL_WIN_LEN ∧ s.consistFree (pnum d 8 1) = true) ∧
  (∃ (d : Desc) (s : State), s.HandleFree ∧ s.Serves 0x0602 [(8, 8, 255), (10, 13, 255)] d ∧ pnum d 8 1 ≤ 127 ∧ pnum d 10 2 ≤ 1024 ∧
      s.linkLocked = false) ∧
  (∃ (d : Desc) (s : State) (load : _), s.HandleFree ∧ s.Serves 0x0603 [(10, 14, 255)] d ∧ 1 ≤ pnum d 10 2 ∧ pnum d 10 2 ≤ 1024 ∧ 1 ≤ pnum d 14 1 ∧
      pnum d 14 1 ≤ 63 ∧
      load = (hopsTo (pnum d 10 2) s).2.consistLoad ((pnum d 14 1, pnum d 10 2) :: (hopsTo (pnum d 10 2) s).2.memberSlots) (fun u => if u = pnum d 10 2 then (hopsTo (pnum d 10 2) s).1 else (hopsTo (pnum d 10 2) s).2.memberHops u) ∧
      s.isHead = true ∧ s.consistPending = false ∧ s.slotsUsed.length < 64 ∧ s.slotOf (pnum d 10 2) = none ∧ pnum d 10 2 ≠ s.uid ∧
      s.slotsUsed.contains (pnum d 14 1) = false ∧ exchangeBound load.1 load.2.1 load.2.2 ≤ s.rd R.BL_WIN_LEN) ∧
  (∃ (d : Desc) (s : State) (load : _), s.HandleFree ∧ s.Serves 0x0603 [(10, 14, 255)] d ∧ 1 ≤ pnum d 10 2 ∧ pnum d 10 2 ≤ 1024 ∧ 1 ≤ pnum d 14 1 ∧
      pnum d 14 1 ≤ 63 ∧
      load = (hopsTo (pnum d 10 2) s).2.consistLoad ((pnum d 14 1, pnum d 10 2) :: (hopsTo (pnum d 10 2) s).2.memberSlots) (fun u => if u = pnum d 10 2 then (hopsTo (pnum d 10 2) s).1 else (hopsTo (pnum d 10 2) s).2.memberHops u) ∧
      s.isHead = false) ∧
  (∃ (d : Desc) (s : State) (slot : _), s.HandleFree ∧ s.Serves 0x0604 [(10, 11, 255)] d ∧ s.isHead = true ∧ pnum d 10 2 ≠ s.uid ∧
      s.slotOf (pnum d 10 2) = some slot) ∧
  (∃ (d : Desc) (s : State), s.HandleFree ∧ s.Serves 0x0604 [(10, 11, 255)] d ∧ (s.isHead = false ∨ s.slotOf (pnum d 10 2) = none)) ∧
  (∃ (d : Desc) (s : State), s.HandleFree ∧ s.Serves 0x0605 [] d ∧ s.isHead = true) ∧
  (∃ (d : Desc) (s : State), s.HandleFree ∧ s.Serves 0x0605 [] d ∧ s.isHead = false) ∧
  (∃ (d : Desc) (s : State), s.HandleFree ∧ s.Serves 0x0701 [] d ∧ s.releaseRefused = none) ∧
  (∃ (d : Desc) (s : State) (st : _), s.HandleFree ∧ s.Serves 0x0701 [] d ∧ s.releaseRefused = some st) ∧
  (∃ (d : Desc) (s : State), s.HandleFree ∧ s.Serves 0x0702 [] d ∧ s.engageRefused = false) ∧
  (∃ (d : Desc) (s : State), s.HandleFree ∧ s.Serves 0x0702 [] d ∧ s.engageRefused = true) ∧
  (∃ (d : Desc) (s : State), s.HandleFree ∧ s.Serves 0x0703 [(8, 13, 255), (16, 19, 255)] d ∧ pnum d 16 4 = s.sb.code ∧
      (s.pstate = 0 ∨ s.pstate = 4) ∧ s.on R.SB_LOCK_OPEN = false ∧ s.sb.pendPser = none) ∧
  (∃ (d : Desc) (s : State), s.HandleFree ∧ s.Serves 0x0703 [(8, 13, 255), (16, 19, 255)] d ∧ pnum d 16 4 ≠ s.sb.code) ∧
  (∃ (d : Desc) (s : State), s.HandleFree ∧ s.Serves 0x0801 [(8, 11, 255), (12, 12, 1), (16, 19, 255)] d ∧ s.drive ≤ 1 ∧
      s.on R.SB_STAT_STO = true ∧ pnum d 8 4 = s.sb.code) ∧
  (∃ (d : Desc) (s : State), s.HandleFree ∧ s.Serves 0x0801 [(8, 11, 255), (12, 12, 1), (16, 19, 255)] d ∧
      (2 ≤ s.drive ∨ s.on R.SB_STAT_STO = false ∨ pnum d 8 4 ≠ s.sb.code)) ∧
  (∃ (d : Desc) (s : State), s.HandleFree ∧ s.Serves 0x0802 [] d ∧ s.on R.SB_LOCK_OPEN = true) ∧
  (∃ (d : Desc) (s : State), s.HandleFree ∧ s.Serves 0x0802 [] d ∧ s.on R.SB_LOCK_OPEN = false) ∧
  (∃ (d : Desc) (s : State), s.HandleFree ∧ s.Serves 0x0803 [(8, 11, 255), (12, 12, 1)] d ∧ testB (pnum d 12 1) 0 = false ∧ s.sb.closed = true ∧
      (∀ i, i < 4 → s.rd (R.SB_SINi_CFG_ROLE i) < 6) ∧ pnum d 8 4 = s.rd R.SB_CRC_CALC) ∧
  (∃ (d : Desc) (s : State), s.HandleFree ∧ s.Serves 0x0803 [(8, 11, 255), (12, 12, 1)] d ∧ testB (pnum d 12 1) 0 = false ∧ s.sb.closed = true ∧
      (∀ i, i < 4 → s.rd (R.SB_SINi_CFG_ROLE i) < 6) ∧ pnum d 8 4 ≠ s.rd R.SB_CRC_CALC) ∧
  (∃ (d : Desc) (s : State), s.HandleFree ∧ s.Serves 0x0803 [(8, 11, 255), (12, 12, 1)] d ∧ testB (pnum d 12 1) 0 = false ∧ s.sb.closed = false) ∧
  (∃ (d : Desc) (s : State), s.HandleFree ∧ s.Serves 0x0804 [] d) ∧
  (∃ (d : Desc) (s : State), s.HandleFree ∧ s.Serves 0x0901 [(8, 23, 255)] d ∧ pnum d 8 4 = 0 ∧ 1 ≤ pnum d 12 4 ∧ pnum d 12 4 ≤ 0x8000 ∧
      bulkBad (pnum d 16 4) (pnum d 12 4) = false ∧ pnum d 12 4 ≤ pnum d 20 4 ∧ pnum d 20 4 ≤ 0x1000000 ∧ s.swapPending = false ∧
      s.partnerSwaps = false ∧ s.stepRuns = false ∧ s.norFull = false ∧ s.idleSectors.any s.isRetired = false ∧ s.nv.wait = [] ∧
      d.bulkParity = none ∧ s.spoilHit d (pnum d 16 4) (pnum d 16 4 + pnum d 12 4) = false) ∧
  (∃ (d : Desc) (s : State), s.HandleFree ∧ s.Serves 0x0901 [(8, 23, 255)] d ∧ pnum d 8 4 = 0 ∧ 1 ≤ pnum d 12 4 ∧ pnum d 12 4 ≤ 0x8000 ∧
      bulkBad (pnum d 16 4) (pnum d 12 4) = false ∧ pnum d 12 4 ≤ pnum d 20 4 ∧ pnum d 20 4 ≤ 0x1000000 ∧ s.stepRuns = true) ∧
  (∃ (d : Desc) (s : State), s.HandleFree ∧ s.Serves 0x0902 [] d ∧ (s.nv.journal.istate = 2 ∨ s.nv.journal.istate = 3) ∧
      s.nv.journal.staged = s.nv.journal.total ∧ s.stepRuns = false ∧ s.nv.wait = []) ∧
  (∃ (d : Desc) (s : State), s.HandleFree ∧ s.Serves 0x0902 [] d ∧ s.nv.journal.istate ≠ 2 ∧ s.nv.journal.istate ≠ 3) ∧
  (∃ (d : Desc) (s : State), s.HandleFree ∧ s.Serves 0x0903 [(8, 8, 1), (12, 15, 255)] d ∧ testB (pnum d 8 1) 0 = false ∧ s.swapPending = false ∧
      s.partnerSwaps = false ∧ s.stepRuns = false ∧ s.parSaves = false ∧ s.nv.journal.istate = 3) ∧
  (∃ (d : Desc) (s : State), s.HandleFree ∧ s.Serves 0x0903 [(8, 8, 1), (12, 15, 255)] d ∧ testB (pnum d 8 1) 0 = false ∧ s.swapPending = false ∧
      s.partnerSwaps = false ∧ s.stepRuns = false ∧ s.parSaves = false ∧ s.nv.journal.istate ≠ 3) ∧
  (∃ (d : Desc) (s : State), s.HandleFree ∧ s.Serves 0x0904 [] d ∧ s.swapPending = false ∧ s.stepRuns = false ∧ s.nv.wait = []) ∧
  (∃ (d : Desc) (s : State), s.HandleFree ∧ s.Serves 0x0904 [] d ∧ s.swapPending = false ∧ s.stepRuns = true) ∧
  (∃ (d : Desc) (s : State), s.HandleFree ∧ s.Serves 0x0905 [(8, 8, 255), (12, 23, 255)] d ∧ 1 ≤ pnum d 16 4 ∧ pnum d 16 4 ≤ 0x8000 ∧
      pnum d 12 4 + pnum d 16 4 ≤ (nvRegion (pnum d 8 1)).2 ∧ bulkBad (pnum d 20 4) (pnum d 16 4) = false ∧ s.nv.wait = []) :=
  ⟨⟨cmdOn 1 [], serving.wr R.BL_CFG_ROOT 1, by decide +kernel⟩,
   ⟨cmdOn 1 [], serving, by decide +kernel⟩,
   ⟨cmdOn 1 [127, 0, 0, 4, 9, 9], (serving.wr R.BL_SYNC_STATE 2).wr R.LN_MD_STAT_STATE 2, by decide +kernel⟩,
   ⟨cmdOn 1 [127, 0, 0, 4, 9, 9], serving, by decide +kernel⟩,
   ⟨cmdOn 1 [0, 0, 0, 4, 9, 9, 63], (serving.wr R.BL_ROLE_KIND 1).wr R.BL_CFG_ROOT 1, loadOf (cmdOn 1 [0, 0, 0, 4, 9, 9, 63]) ((serving.wr R.BL_ROLE_KIND 1).wr R.BL_CFG_ROOT 1), by decide +kernel⟩,
   ⟨cmdOn 1 [0, 0, 0, 4, 9, 9, 63], serving, loadOf (cmdOn 1 [0, 0, 0, 4, 9, 9, 63]) (serving), by refine ⟨?_, ?_, ?_, ?_, ?_, ?_, rfl, ?_⟩ <;> decide +kernel⟩,
   ⟨cmdOn 1 [0, 0, 0, 4], ((serving.wr R.BL_ROLE_KIND 1).wr (R.BL_CS_Ms_ID_UID 63) 1024).wr (R.BL_CS_Ms_ID_USED 63) 1, 63, by decide +kernel⟩,
   ⟨cmdOn 1 [0, 0, 0, 4], serving, by decide +kernel⟩,
   ⟨cmdOn 1 [], serving.wr R.BL_ROLE_KIND 1, by decide +kernel⟩,
   ⟨cmdOn 1 [], serving, by decide +kernel⟩,
   ⟨cmdOn 1 [], { (serving.wr R.PM_STAT_PSTATE 2).wr R.PM_CFG_CONF 1 with pm.block := some { takeok := true } }, by decide +kernel⟩,
   ⟨cmdOn 1 [], serving, (serving).releaseRefused.getD 0, by decide +kernel⟩,
   ⟨cmdOn 1 [], { (serving.wr R.PM_STAT_PSTATE 5).wr R.PM_STAT_SYNCED 1 with pm.validRun := 64 }, by decide +kernel⟩,
   ⟨cmdOn 1 [], serving, by decide +kernel⟩,
   ⟨cmdOn 1 (le 8 77 ++ le 4 0), serving.wr R.SB_LOCK_OPEN 0, by decide +kernel⟩,
   ⟨cmdOn 1 (le 8 77 ++ le 4 5), serving, by decide +kernel⟩,
   ⟨cmdOn 3 (le 4 0 ++ le 4 1 ++ le 4 9), serving, by decide +kernel⟩,
   ⟨cmdOn 3 (le 4 1 ++ le 4 1 ++ le 4 9), serving, by decide +kernel⟩,
   ⟨cmdOn 3 [], serving.wr R.SB_LOCK_OPEN 1, by decide +kernel⟩,
   ⟨cmdOn 3 [], serving.wr R.SB_LOCK_OPEN 0, by decide +kernel⟩,
   ⟨cmdOn 3 (le 4 9), { serving.wr R.SB_CRC_CALC 9 with sb.closed := true }, by decide +kernel⟩,
   ⟨cmdOn 3 (le 4 8), { serving.wr R.SB_CRC_CALC 9 with sb.closed := true }, by decide +kernel⟩,
   ⟨cmdOn 3 (le 4 8), serving, by decide +kernel⟩,
   ⟨cmdOn 3 [], serving, by decide +kernel⟩,
   ⟨cmdOn 1 (le 4 0 ++ le 4 0x100 ++ le 4 0x7F00 ++ le 4 0x1000000), serving, by decide +kernel⟩,
   ⟨cmdOn 1 (le 4 0 ++ le 4 0x100 ++ le 4 0x7F00 ++ le 4 0x1000000), { serving with nv.journal.handle := 9 }, by decide +kernel⟩,
   ⟨cmdOn 1 [], { serving with nv.journal.istate := 2 }, by decide +kernel⟩,
   ⟨cmdOn 1 [], serving, by decide +kernel⟩,
   ⟨cmdOn 1 [0], { serving with nv.journal.istate := 3 }, by decide +kernel⟩,
   ⟨cmdOn 1 [0], serving, by decide +kernel⟩,
   ⟨cmdOn 1 [], { serving with nv.journal.staged := 5 }, by decide +kernel⟩,
   ⟨cmdOn 1 [], { serving with nv.journal.handle := 9 }, by decide +kernel⟩,
   ⟨cmdOn 1 (le 4 4 ++ le 4 0x3FF00 ++ le 4 0x100 ++ le 4 0x7F00), serving, by decide +kernel⟩⟩

/-- A BIST job. -/
def bistJ (kind : Nat) : BistJob := { id := 5, kind := kind, lane := 3, len := 64, mask := 4 }

/-- A NOR job in progress. -/
def norRun (ops : List NorOp) (fails : Nat) : State :=
  { State.reset with nv := { State.reset.nv with run := some { id := 7, req := .region [] 0 [] false, ops := ops, fails := fails } } }

/-- A BIST job in progress. -/
def bistRun (kind : Nat) (slicing : Bool) : State :=
  { State.reset with bi := { State.reset.bi with run := some (bistJ kind) }, ln := { State.reset.ln with slice := if slicing then some (.job 0x20000, 0, 100, 200) else none } }

/-- The module rides through. -/
def ridden : State := State.reset.wr R.TH_SUP_RIDE 1

/-- A CRC channel set up. -/
def scanReady : State := ((State.reset.wr (R.CC_CHk_START 3) 0x1000FF00).wr (R.CC_CHk_LEN 3) 8).wr (R.CC_CHk_CTL_POLY 3) 1

/-- Scans in progress. -/
def scanned : State := { State.reset with cc := { State.reset.cc with scan := Vector.replicate 4 (some ⟨0x1000FF00, 8, 1, true, 0xFFFFFFFF, none, false⟩) } }

/-- A ring that can be armed. -/
def ringReady : State := ((State.reset.wr (R.TE_Rr_ALLOC_NSEG 15) 1).wr (R.TE_Rr_PRE 15) 5).setRing 15 (fun r => { r with configDone := true })

/-- A full queue. -/
def qFullAt (n : Nat) : State := { State.reset with queues := smapSet (fun _ => ({} : Queue)) State.reset.queues n { items := List.replicate (qDepth n) [1] } }

/-- Event rings with events and drops. -/
def fullQ4 (s : State) : State := [38, 39, 40, 41].foldl (fun s n => (s.wr (R.QM_Qnn_DROP_COUNT n) n)) { s with queues := smapSet (fun _ => ({} : Queue)) s.queues 39 { items := [List.replicate 32 1] }, mp := { s.mp with log := [List.replicate 32 4] } }

/-- A scan for the MP with Q61 full. -/
def scannedJob : State := { qFullAt 61 with cc := { State.reset.cc with scan := Vector.replicate 4 (some ⟨0x1000FF00, 8, 1, true, 0xFFFFFFFF, some 7, false⟩) } }

/-- A NOR job with Q57 full. -/
def norFullRun (ops : List NorOp) : State := { norRun ops 0 with queues := (qFullAt 57).queues }

theorem witness_ThermalSupplyAndNor :
  (∃ (s : State), s.Running ∧ (testB s.th.measured 0 = false ∨ (s.th.measuredAt.toList[0]?).getD 0 + s.tInterval 0 ≤ s.time.tb)) ∧
  (∃ (s : State) (n : Fin 11), s.Running ∧ 1 ≤ n.val ∧ n.val ≤ 7 ∧ s.th.pxg.toList[n.val - 1]? = some none) ∧
  (∃ (s : State) (n : Fin 11), s.Running ∧ 8 ≤ n.val ∧ s.rd R.TH_TXCFG / 4 ^ (n.val - 8) % 4 ≠ 1 ∧ s.rd R.TH_TXCFG / 4 ^ (n.val - 8) % 4 ≠ 2) ∧
  (∃ (s : State), s.Running ∧ s.sys.latchedOff = true) ∧
  (∃ (s : State), s.Running ∧ s.on R.TH_SUP_RIDE = true ∧ s.sys.latchedOff = false) ∧
  (∃ (s : State), s.Running ∧ s.on R.TH_SUP_RIDE = false) ∧
  (∃ (s : State) (j : _) (rest : _), s.Running ∧ s.nv.run = none ∧ s.nv.jobs = j :: rest) ∧
  (∃ (s : State), s.Running ∧ (s.nv.run.isSome = true ∨ s.nv.jobs = [])) ∧
  (∃ (s : State) (j : _) (op : _) (ops : _) (n : _), s.Running ∧ s.nv.run = some j ∧ j.ops = op :: ops ∧ op = .erase n) ∧
  (∃ (s : State) (j : _) (op : _) (ops : _) (a : _) (bs : _), s.Running ∧ s.nv.run = some j ∧ j.ops = op :: ops ∧ op = .program a bs ∧
      s.nv.torn = []) ∧
  (∃ (s : State) (j : NorJob) (op : NorOp) (ops : List NorOp) (xs : _), s.Running ∧ s.nv.run = some j ∧ j.ops = op :: ops ∧ op = .read xs) ∧
  (∃ (s : State) (j : NorJob) (op : NorOp) (ops : List NorOp), s.Running ∧ s.nv.run = some j ∧ j.ops = op :: ops ∧ ops = [] ∧ j.own = false ∧
      s.nv.own = [] ∧ 0 < s.qCredit 57) ∧
  (∃ (s : State) (j : NorJob) (op : NorOp) (ops : List NorOp), s.Running ∧ s.nv.run = some j ∧ j.ops = op :: ops ∧ ops = [] ∧ j.own = false ∧
      s.qCredit 57 = 0) ∧
  (∃ (s : State) (j : NorJob) (op : NorOp) (ops : List NorOp), s.Running ∧ s.nv.run = some j ∧ j.ops = op :: ops ∧ ops ≠ [] ∧ s.nv.own = []) ∧
  (∃ (s : State) (j : NorJob) (op : NorOp) (ops : List NorOp) (n : _), s.Running ∧ s.nv.run = some j ∧ j.ops = op :: ops ∧ j.fails = 0 ∧
      op.sector = some n) ∧
  (∃ (s : State) (j : NorJob) (op : NorOp) (ops : List NorOp) (n : _), s.Running ∧ s.nv.run = some j ∧ j.ops = op :: ops ∧ 1 ≤ j.fails ∧
      op.sector = some n ∧ j.own = false ∧ s.nv.own = [] ∧ 0 < s.qCredit 57) ∧
  (∃ (s : State), s.Running ∧ s.mp.buffer ≠ [] ∧
      (s.logBatch.length < s.mp.buffer.length ∨ 8 ≤ s.logBatch.length ∨ s.mp.bufferAt + msCyc 100 ≤ s.time.tb)) ∧
  (∃ (s : State), s.Running ∧ (s.mp.buffer = [] ∨ (s.logBatch.length = s.mp.buffer.length ∧ s.logBatch.length < 8 ∧
      s.time.tb < s.mp.bufferAt + msCyc 100))) :=
  ⟨⟨State.reset, by decide +kernel⟩,
   ⟨State.reset, 7, by decide +kernel⟩,
   ⟨State.reset, 10, by decide +kernel⟩,
   ⟨{ State.reset with sys := { State.reset.sys with latchedOff := true } }, by decide +kernel⟩,
   ⟨ridden, by decide +kernel⟩,
   ⟨State.reset, by decide +kernel⟩,
   ⟨{ State.reset with nv := { State.reset.nv with jobs := [⟨7, .store 1 [1, 2] none, [], 0, false, [], false⟩] } }, ⟨7, .store 1 [1, 2] none, [], 0, false, [], false⟩, [], by decide +kernel⟩,
   ⟨State.reset, by decide +kernel⟩,
   ⟨(norRun [.erase 3] 0).setNor 0x30005 [1, 2], { id := 7, req := .region [] 0 [] false, ops := [.erase 3] }, .erase 3, [], 3, by decide +kernel⟩,
   ⟨(norRun [.program 0x105 [1, 0xF0]] 0).setNor 0x104 [1, 2, 0x3F, 7], { id := 7, req := .region [] 0 [] false, ops := [.program 0x105 [1, 0xF0]] }, .program 0x105 [1, 0xF0], [], 0x105, [1, 0xF0], by decide +kernel⟩,
   ⟨norRun [.read [(0x30005, 2)], .erase 4] 0, { id := 7, req := .region [] 0 [] false, ops := [.read [(0x30005, 2)], .erase 4], fails := 0 }, .read [(0x30005, 2)], [.erase 4], [(0x30005, 2)], by decide +kernel⟩,
   ⟨norRun [.erase 3] 0, { id := 7, req := .region [] 0 [] false, ops := [.erase 3], fails := 0 }, .erase 3, [], by decide +kernel⟩,
   ⟨norFullRun [.erase 3], { id := 7, req := .region [] 0 [] false, ops := [.erase 3], fails := 0 }, .erase 3, [], by decide +kernel⟩,
   ⟨norRun [.erase 3, .erase 4] 1, { id := 7, req := .region [] 0 [] false, ops := [.erase 3, .erase 4], fails := 1 }, .erase 3, [.erase 4], by decide +kernel⟩,
   ⟨norRun [.erase 3, .erase 4] 0, { id := 7, req := .region [] 0 [] false, ops := [.erase 3, .erase 4], fails := 0 }, .erase 3, [.erase 4], 3, by decide +kernel⟩,
   ⟨norRun [.erase 3, .erase 4] 1, { id := 7, req := .region [] 0 [] false, ops := [.erase 3, .erase 4], fails := 1 }, .erase 3, [.erase 4], 3, by decide +kernel⟩,
   ⟨{ State.reset with mp := { State.reset.mp with buffer := List.replicate 9 (List.replicate 32 1) } }, by decide +kernel⟩,
   ⟨{ State.reset with mp := { State.reset.mp with buffer := [List.replicate 32 1] } }, by decide +kernel⟩⟩

theorem witness_SelfTestScanAndTrace :
  (∃ (s : State), s.Running ∧ s.rd R.HS_STAT_MPSTATE ≠ 0) ∧
  (∃ (s : State), s.Running ∧ s.rd R.HS_STAT_MPSTATE = 0 ∧ s.nv.logSeq < 2 ^ 48) ∧
  (∃ (s : State), s.Running ∧ s.bi.run = none ∧ s.bi.jobs = []) ∧
  (∃ (s : State) (j : _) (rest : _), s.Running ∧ s.bi.run = none ∧ s.bi.jobs = j :: rest ∧ s.bi.held = none) ∧
  (∃ (s : State) (j : _), s.Running ∧ s.bi.run = some j ∧ s.bi.abort = false ∧ 0 < s.qCredit 59 ∧
      s.ln.jobs.any (fun x => x.handle == 0x20000) = false ∧ s.bistSlicing = false) ∧
  (∃ (s : State) (j : _), s.Running ∧ s.bi.run = some j ∧ s.bi.abort = false ∧ 0 < s.qCredit 59 ∧ j.kind = 1 ∧ j.lane < 32) ∧
  (∃ (s : State) (j : _), s.Running ∧ s.bi.run = some j ∧ s.bi.abort = false ∧ 0 < s.qCredit 59 ∧ j.kind = 4) ∧
  (∃ (s : State) (j : _), s.Running ∧ s.bi.run = some j ∧ j.kind ≠ 4 ∧ s.bistSlicing = true) ∧
  (∃ (s : State) (j : _), s.Running ∧ s.bi.run = some j ∧ j.kind ≠ 4 ∧ s.bistSlicing = false ∧ s.qCredit 59 = 0) ∧
  (∃ (s : State) (j : _), s.Running ∧ s.bi.run = some j ∧ j.kind ≠ 4 ∧ s.bistSlicing = false ∧ 0 < s.qCredit 59) ∧
  (∃ (s : State) (k : Fin 4) (value : Word), s.Running ∧ testB value.toNat 31 = true ∧ s.on R.CC_CFG_ARR = false ∧ s.ccScan k = none ∧
      1 ≤ s.rd (R.CC_CHk_LEN k) ∧ s.rd (R.CC_CHk_LEN k) ≤ 0x1000000 ∧ busRange (s.rd (R.CC_CHk_START k)) (s.rd (R.CC_CHk_LEN k)) = true) ∧
  (∃ (s : State) (k : Fin 4) (value : Word), s.Running ∧ testB value.toNat 31 = true ∧ (s.ccScan k).isSome = true) ∧
  (∃ (s : State) (k : Fin 4) (x : _) (o : BitVec 24), s.Running ∧ s.ccScan k = some x ∧ x.ended = false ∧ (x.job = none ∨ 0 < s.qCredit 61) ∧
      o.toNat < x.len) ∧
  (∃ (s : State) (k : Fin 4) (x : _), s.Running ∧ s.ccScan k = some x ∧ x.ended = false ∧ x.job.isSome = true ∧ s.qCredit 61 = 0) ∧
  (∃ (s : State), s.Running ∧ s.te.sampled = true) ∧
  (∃ (s : State), s.Running ∧ s.te.sampled = false) ∧
  (∃ (s : State) (r : Fin 16), s.Running ∧ (s.bit R.TE_STAT_TRIGGERED r = false ∨ (s.ring r).taken < s.rd (R.TE_Rr_CAP r) - s.rd (R.TE_Rr_PRE r))) ∧
  (∃ (s : State) (r : Fin 16), s.Running ∧ s.bit R.TE_STAT_TRIGGERED r = true ∧ s.rd (R.TE_Rr_CAP r) - s.rd (R.TE_Rr_PRE r) ≤ (s.ring r).taken) ∧
  (∃ (s : State) (r : Fin 16), s.Running ∧ s.te.failed = [] ∧ s.ringConfigured r = true) ∧
  (∃ (s : State) (r : Fin 16), s.Running ∧ s.te.failed = [] ∧ s.ringConfigured r = false) ∧
  (∃ (s : State) (r : Fin 16), s.Running ∧ (s.bit R.TE_STAT_ARMED r = true ∨ s.bit R.TE_STAT_TRIGGERED r = true)) ∧
  (∃ (s : State) (r : Fin 16), s.Running ∧ s.bit R.TE_STAT_ARMED r = false ∧ s.bit R.TE_STAT_TRIGGERED r = false) ∧
  (∃ (s : State) (r : Fin 16), s.Running ∧ s.bit R.TE_STAT_ARMED r = true) :=
  ⟨⟨State.reset, by decide +kernel⟩,
   ⟨serving, by decide +kernel⟩,
   ⟨State.reset, by decide +kernel⟩,
   ⟨{ State.reset with bi := { State.reset.bi with jobs := [bistJ 1] } }, bistJ 1, [], by decide +kernel⟩,
   ⟨bistRun 1 false, bistJ 1, by decide +kernel⟩,
   ⟨bistRun 1 false, bistJ 1, by decide +kernel⟩,
   ⟨bistRun 4 false, bistJ 4, by decide +kernel⟩,
   ⟨bistRun 1 true, bistJ 1, by decide +kernel⟩,
   ⟨{ bistRun 1 false with queues := (qFullAt 59).queues }, bistJ 1, by decide +kernel⟩,
   ⟨bistRun 1 false, bistJ 1, by decide +kernel⟩,
   ⟨scanReady, 3, 0x8000000A, by decide +kernel⟩,
   ⟨scanned, 3, 0x8000000A, by decide +kernel⟩,
   ⟨scanned, 3, ⟨0x1000FF00, 8, 1, true, 0xFFFFFFFF, none, false⟩, 7, by decide +kernel⟩,
   ⟨scannedJob, 3, ⟨0x1000FF00, 8, 1, true, 0xFFFFFFFF, some 7, false⟩, by decide +kernel⟩,
   ⟨{ State.reset with te := { State.reset.te with sampled := true } }, by decide +kernel⟩,
   ⟨State.reset, by decide +kernel⟩,
   ⟨State.reset, 15, by decide +kernel⟩,
   ⟨State.reset.wrBit R.TE_STAT_TRIGGERED 15 true, 15, by decide +kernel⟩,
   ⟨ringReady, 15, by decide +kernel⟩,
   ⟨State.reset, 15, by decide +kernel⟩,
   ⟨State.reset.wrBit R.TE_STAT_ARMED 15 true, 15, by decide +kernel⟩,
   ⟨State.reset, 15, by decide +kernel⟩,
   ⟨State.reset.wrBit R.TE_STAT_ARMED 15 true, 15, by decide +kernel⟩⟩

theorem witness_PopOfAnEmptyQueue :
  (∃ (s : State) (n : _), n < 64 ∧ ((s.queue n).items = [] ∨ (s.queue n).off = true)) ∧
  (∃ (s : State) (n : Fin 64), s.Running ∧ n.val < 8 ∧ s.qFill n = 0) ∧
  (∃ (s : State) (n : Fin 64), s.Running ∧ 8 ≤ n.val ∧ (n.val ≠ 53 ∨ s.ln.bankTick = none) ∧ ((s.queue n).items = [] ∨ (s.queue n).off = true)) :=
  ⟨⟨State.reset, 63, by decide +kernel⟩,
   ⟨State.reset, 7, by decide +kernel⟩,
   ⟨State.reset, 63, by decide +kernel⟩⟩

theorem witness_RegisterAccessAndQueues :
  (∃ (s : State) (addr : BitVec 32) (a : _), s.Running ∧ a = addr.toNat / 4 * 4 ∧ isRegister a = false ∧ busRange a 4 = true) ∧
  (∃ (s : State) (addr : BitVec 32) (a : _), s.Running ∧ a = addr.toNat / 4 * 4 ∧ a < 0x10000) ∧
  (∃ (s : State) (addr : BitVec 32) (a : _), s.Running ∧ a = addr.toNat / 4 * 4 ∧ isRegister a = false ∧ busRange a 4 = false ∧ 0x10000 ≤ a) ∧
  (∃ (s : State) (addr : BitVec 32) (a : _), s.Running ∧ a = addr.toNat / 4 * 4 ∧ isRegister a = true ∧ takesWrite a = false) ∧
  (∃ (s : State) (addr : BitVec 32) (a : _), s.Running ∧ a = addr.toNat / 4 * 4 ∧ isRegister a = true ∧
      (a / 0x10000 = 0x4001 ∨ a / 0x10000 = 0x400F ∨ a / 0x10000 = 0x4010)) ∧
  (∃ (s : State) (addr : BitVec 32) (a : _), s.Running ∧ a = addr.toNat / 4 * 4 ∧ isRegister a = false ∧ ((0x10000000 ≤ a ∧
      a < 0x10001000) ∨ (0x10003800 ≤ a ∧ a < 0x10010000) ∨ (0x10300000 ≤ a ∧ a < 0x10600000))) ∧
  (∃ (s : State) (addr : BitVec 32) (a : _), s.Running ∧ a = addr.toNat / 4 * 4 ∧ isRegister a = false ∧ mpWrites a = false) ∧
  (∃ (s : State) (hi : Bool) (n : _) (q : _), s.Running ∧ n < 32 ∧ q = n + (if hi then 32 else 0)) ∧
  (∃ (s : State) (n : Fin 64), s.Running ∧ n.val < 8) ∧
  (∃ (s : State) (n : Fin 64), s.Running ∧ 8 ≤ n.val ∧ 0 < s.qCredit n) ∧
  (∃ (s : State) (n : Fin 64), s.Running ∧ 8 ≤ n.val ∧ s.qCredit n = 0 ∧ qPolicy n = .drop) ∧
  (∃ (s : State) (n : Fin 64), s.Running ∧ 8 ≤ n.val ∧ s.qCredit n = 0 ∧ qPolicy n = .wait) ∧
  (∃ (s : State) (n : Fin 64) (i : _) (is : _), s.Running ∧ 8 ≤ n.val ∧ (n.val ≠ 53 ∨ s.ln.bankTick = none) ∧ (s.queue n).items = i :: is ∧
      (s.queue n).off = false ∧ n.val ≠ 39) ∧
  (∃ (s : State) (n : Fin 64), s.Running ∧ ((n.val < 8 ∧ s.qFill n ≠ 0) ∨ (n.val = 53 ∧ s.ln.bankTick.isSome = true))) :=
  ⟨⟨State.reset.setMem 0x1000FFFC [1, 2, 3, 4], 0x1000FFFD, 0x1000FFFC, by decide +kernel⟩,
   ⟨State.reset, 0xFFFE, 0xFFFC, by decide +kernel⟩,
   ⟨State.reset, 0xFFFFFFFF, 0xFFFFFFFC, by decide +kernel⟩,
   ⟨State.reset, BitVec.ofNat 32 R.SYS_ID_PART.addr, R.SYS_ID_PART.addr, by decide +kernel⟩,
   ⟨State.reset, 0x40010000, 0x40010000, by decide +kernel⟩,
   ⟨State.reset, 0x1000FFFC, 0x1000FFFC, by decide +kernel⟩,
   ⟨State.reset, 0x10600000, 0x10600000, by decide +kernel⟩,
   ⟨State.reset, true, 31, 63, by decide +kernel⟩,
   ⟨State.reset, 7, by decide +kernel⟩,
   ⟨State.reset, 63, by decide +kernel⟩,
   ⟨qFullAt 38, 38, by decide +kernel⟩,
   ⟨qFullAt 63, 63, by decide +kernel⟩,
   ⟨{ State.reset with queues := smapSet (fun _ => ({} : Queue)) State.reset.queues 63 { items := [[1], [2]] } }, 63, [1], [[2]], by decide +kernel⟩,
   ⟨State.reset.wr (R.HS_CPLc_TAIL 3) 1, 7, by decide +kernel⟩⟩

end Sys2Proof.Tests
end

section
/-! SUPPORT. What the words, the bytes of the memory and the queues read after the updates that every access and every record uses, and
the frame of an operation as a list of parts. -/

namespace Sys2Proof.Machine

/-! ### Bits of fields -/

/-- A bit of a number, as the library names it. -/
theorem testB_eq_testBit (x n : Nat) : testB x n = x.testBit n := by
  unfold testB bitOf
  rw [Nat.testBit_eq_decide_div_mod_eq]
  rfl

/-- Adding a power of two sets the bit that was clear and leaves the others. -/
theorem testBit_add_two_pow {w n : Nat} (h : w.testBit n = false) (k : Nat) :
    (w + 2 ^ n).testBit k = (w.testBit k || decide (k = n)) := by
  induction n generalizing w k with
  | zero =>
    have hw : w % 2 = 0 := by simpa [Nat.testBit_zero] using h
    cases k with
    | zero => simp [Nat.testBit_zero]; omega
    | succ k => simp [Nat.testBit_succ, show (w + 1) / 2 = w / 2 by omega]
  | succ n ih =>
    rw [Nat.testBit_succ] at h
    have hw : (w + 2 ^ (n + 1)) / 2 = w / 2 + 2 ^ n := by rw [Nat.pow_succ]; omega
    cases k with
    | zero => simp [Nat.testBit_zero, Nat.pow_succ]
    | succ k => rw [Nat.testBit_succ, Nat.testBit_succ, hw, ih h]; simp

theorem State.rd_lt (s : State) (f : Fld) : s.rd f < 2 ^ f.width := Nat.mod_lt _ (Nat.two_pow_pos _)

/-- Setting a bit of a field sets it and leaves the field's other bits. -/
theorem State.bit_wrBit_true (s : State) {f : Fld} (hf : f.Ok) {n : Nat} (hn : n < f.width) (k : Nat) :
    (s.wrBit f n true).bit f k = (s.bit f k || decide (k = n)) := by
  unfold State.bit State.wrBit
  simp only [testB_eq_testBit, if_true, State.rd_wr_same s hf]
  cases hb : (s.rd f).testBit n with
  | true =>
    rw [if_pos rfl, Nat.mod_eq_of_lt (s.rd_lt f)]
    by_cases hk : k = n
    · simp [hk, hb]
    · simp [hk]
  | false =>
    rw [if_neg Bool.false_ne_true, Nat.testBit_mod_two_pow, testBit_add_two_pow hb]
    by_cases hk : k < f.width
    · simp [hk]
    · have hlt : s.rd f < 2 ^ k := Nat.lt_of_lt_of_le (s.rd_lt f) (Nat.pow_le_pow_right (by omega) (by omega))
      simp [hk, Nat.testBit_lt_two_pow hlt]
      omega

/-- A counter raised by one, saturating. -/
theorem State.rd_inc_same (s : State) {f : Fld} (hf : f.Ok) : (s.inc f).rd f = min (s.rd f + 1) (2 ^ f.width - 1) := by
  have := Nat.two_pow_pos f.width
  unfold State.inc State.add
  rw [State.rd_wr_same s hf, Nat.mod_eq_of_lt (by omega)]

/-- A field of whole words reads as its word. -/
theorem State.rd_word (s : State) {f : Fld} (hm : f.msb = 31) (hl : f.lsb = 0) : s.rd f = (s.word f.addr).toNat := by
  have h := (s.word f.addr).isLt
  unfold State.rd Fld.get Fld.width
  rw [hm, hl]
  omega

/-- A field of another state whose word is the same. -/
theorem State.rd_congr {s t : State} {f : Fld} (h : t.word f.addr = s.word f.addr) : t.rd f = s.rd f := by
  unfold State.rd
  rw [h]

theorem and_not_zero (w : Word) : w &&& ~~~(0 : Word) = w := BitVec.and_allOnes

/-- A write under an empty mask. -/
theorem masked_none (w v : Word) : (w &&& ~~~(0 : Word)) ||| (v &&& (0 : Word)) = w := by
  rw [and_not_zero, show v &&& (0 : Word) = 0#32 from BitVec.and_zero, BitVec.or_zero]

/-! ### Frames -/

/-- The parts of the state that a list does not name, as bits. -/
def keepMask (ps : List Part) : Nat := (2 ^ 33 - 1) ^^^ ps.foldl (fun m p => m ||| 2 ^ p.bit) 0

theorem Part.bit_inj {p q : Part} (h : p.bit = q.bit) : p = q := by
  cases p <;> cases q <;> first | rfl | cases h

theorem partBits_testBit {p : Part} (ps : List Part) (hp : p ∉ ps) (m : Nat) (hm : m.testBit p.bit = false) :
    (ps.foldl (fun m p => m ||| 2 ^ p.bit) m).testBit p.bit = false := by
  induction ps generalizing m with
  | nil => exact hm
  | cons q ps ih =>
    obtain ⟨hq, hps⟩ := not_or.mp (fun h => hp (List.mem_cons.mpr h))
    refine ih hps _ ?_
    rw [Nat.testBit_or, hm, Nat.testBit_two_pow]
    exact decide_eq_false fun e => hq (Part.bit_inj e).symm

theorem keepMask_testBit {p : Part} {ps : List Part} (hp : p ∉ ps) : (keepMask ps).testBit p.bit = true := by
  have h33 : p.bit < 33 := by cases p <;> decide
  unfold keepMask
  rw [Nat.testBit_xor, Nat.testBit_two_pow_sub_one, partBits_testBit ps hp 0 (Nat.zero_testBit _)]
  simp [h33]

/-- What an operation leaves alone, from its soundness for the mask of the parts that it may change. -/
theorem sameOutside_of_sound {ps : List Part} {s t : State} (h : t.Sound (keepMask ps) s) : SameOutside ps s t :=
  fun p hp => h.same p (keepMask_testBit hp)

theorem cleared_sound {ms : Nat} {sa s : State} (hp : ms &&& 0x80000000 = 0) (hs : s.Sound ms sa) : s.cleared.Sound ms sa :=
  sound_upd hs fun p hm => by cases p <;> first | rfl | exact (mask_absurd hp hm rfl).elim

/-! ### Memory -/

/-- An address of the on-die memory that holds what was written there: below the mirror region, or above the lane state (01 R50). -/
abbrev plainMem (x : Nat) : Prop := x < 0x10010000 ∨ 0x10220000 ≤ x

theorem State.memByte_plain (s : State) {x : Nat} (h : plainMem x) : s.memByte x = smapGet (fun _ => 0) s.mem x := by
  unfold State.memByte
  rw [if_neg (by omega), if_neg (by omega), if_neg (by omega), if_neg (by omega)]

theorem State.memByte_setMemByte_same (s : State) {a : Nat} (b : Byte) (h : plainMem a) : (s.setMemByte a b).memByte a = b := by
  rw [State.memByte_plain _ h]
  exact smapGet_set_same _ _ _ _

theorem State.memByte_setMemByte_ne (s : State) {a x : Nat} (b : Byte) (h : x ≠ a) : (s.setMemByte a b).memByte x = s.memByte x := by
  have hm : smapGet (fun _ => 0) (s.setMemByte a b).mem x = smapGet (fun _ => 0) s.mem x := smapGet_set_ne _ _ _ h
  unfold State.memByte
  rw [hm]
  rfl

/-- Bytes written leave the bytes outside them alone. -/
theorem State.memByte_setMem_outside (s : State) (a : Nat) (bs : List Byte) {x : Nat} (h : x < a ∨ a + bs.length ≤ x) :
    (s.setMem a bs).memByte x = s.memByte x := by
  induction bs generalizing s a with
  | nil => rfl
  | cons b bs ih =>
    rw [List.length_cons] at h
    exact (ih _ _ (by omega)).trans (State.memByte_setMemByte_ne s b (by omega))

theorem State.memBytes_succ (s : State) (a n : Nat) : s.memBytes a (n + 1) = s.memByte a :: s.memBytes (a + 1) n := by
  unfold State.memBytes
  rw [List.range_succ_eq_map, List.map_cons, List.map_map]
  refine congrArg₂ _ rfl (List.map_congr_left fun i _ => ?_)
  rw [Function.comp_apply, Nat.succ_eq_add_one, Nat.add_assoc, Nat.add_comm 1 i]

/-- Bytes written are read back. -/
theorem State.memBytes_setMem_same (s : State) (a : Nat) (bs : List Byte) (h : ∀ i, i < bs.length → plainMem (a + i)) :
    (s.setMem a bs).memBytes a bs.length = bs := by
  induction bs generalizing s a with
  | nil => rfl
  | cons b bs ih =>
    rw [List.length_cons, State.memBytes_succ]
    refine congrArg₂ _ ?_ (ih _ _ fun i hi => ?_)
    · exact (State.memByte_setMem_outside (s.setMemByte a b) (a + 1) bs (.inl (by omega))).trans
        (State.memByte_setMemByte_same s b (h 0 (by simp)))
    · have := h (i + 1) (by simpa using hi)
      omega

theorem State.memBytes_congr {s t : State} {a n : Nat} (h : ∀ i, i < n → t.memByte (a + i) = s.memByte (a + i)) :
    t.memBytes a n = s.memBytes a n := by
  unfold State.memBytes
  exact List.map_congr_left fun i hi => h i (List.mem_range.mp hi)

/-- Bytes written elsewhere leave a range alone. -/
theorem State.memBytes_setMem_apart (s : State) {a n b : Nat} (bs : List Byte) (h : b + n ≤ a ∨ a + bs.length ≤ b) :
    (s.setMem a bs).memBytes b n = s.memBytes b n :=
  State.memBytes_congr fun i hi => State.memByte_setMem_outside s a bs (by omega)

@[simp] theorem bytesLE_length (n x : Nat) : (bytesLE n x).length = n := by
  induction n generalizing x with
  | zero => rfl
  | succ n ih => simp [bytesLE, ih]

@[simp] theorem padTo_length (n : Nat) (bs : List Byte) : (padTo n bs).length = n := by
  simp [padTo]
  omega

/-- A write into the memory changes no other part. -/
theorem State.setMem_parts (s : State) (a : Nat) (bs : List Byte) : SameOutside [.mem] s (s.setMem a bs) :=
  sameOutside_of_sound (State.setMem_sound (by decide) s a bs (sound_refl _ s))

@[simp] theorem State.word_setMem (s : State) (a : Nat) (bs : List Byte) (b : Nat) : (s.setMem a bs).word b = s.word b := by
  have hr : (s.setMem a bs).regs = s.regs := s.setMem_parts a bs .regs (by decide)
  have hl : (s.setMem a bs).ln = s.ln := s.setMem_parts a bs .ln (by decide)
  unfold State.word State.home
  rw [hr, hl]

@[simp] theorem State.rd_setMem (s : State) (a : Nat) (bs : List Byte) (f : Fld) : (s.setMem a bs).rd f = s.rd f :=
  State.rd_congr (s.word_setMem a bs f.addr)

/-! ### Queues -/

theorem State.queue_setQueue_same (s : State) (n : Nat) (q : Queue) : (s.setQueue n q).queue n = q := smapGet_set_same _ _ _ _

theorem State.queue_setQueue_ne (s : State) {n m : Nat} (q : Queue) (h : m ≠ n) : (s.setQueue n q).queue m = s.queue m :=
  smapGet_set_ne _ _ _ h

theorem State.queue_congr {s t : State} (h : t.queues = s.queues) (n : Nat) : t.queue n = s.queue n := by
  unfold State.queue
  rw [h]

@[simp] theorem State.word_setQueue (s : State) (n : Nat) (q : Queue) (a : Nat) : (s.setQueue n q).word a = s.word a := rfl

end Sys2Proof.Machine
end

section
/-! SUPPORT. Watermark bits, fills and credits of the queues, and the completion records of the host (01 R36–R45; 12 R409–R411). -/

namespace Sys2Proof.Machine

/-! ### Fills and credits -/

/-- A word of the pointers of the host's queues, Q00 to Q07 (12 R405). -/
abbrev hostPointer (a : Nat) : Prop := 0x400E0020 ≤ a ∧ a < 0x400E0060

theorem hostPointer_apart {a : Nat} (h : hostPointer a) : apartFromQueues a :=
  ⟨.inr (by omega), .inl h.2, fun e => absurd (e ▸ h : hostPointer (R.SB_STAT_SAFETY_EVT_LOST).addr) (by decide)⟩

/-- What FILL of a queue rests on: its items, or the pointers of the host's queues. -/
theorem State.qFill_congr {s t : State} {n : Nat} (hq : t.queue n = s.queue n) (hw : ∀ a, hostPointer a → t.word a = s.word a) :
    t.qFill n = s.qFill n := by
  have hr : ∀ f : Fld, hostPointer f.addr → t.rd f = s.rd f := fun f hf => State.rd_congr (hw _ hf)
  unfold State.qFill
  rw [hq, hr (R.HS_CQc_TAIL n) (by simp only [hostPointer]; omega), hr (R.HS_CQc_HEAD n) (by simp only [hostPointer]; omega),
    hr (R.HS_CPLc_TAIL (n - 4)) (by simp only [hostPointer]; omega), hr (R.HS_CPLc_HEAD (n - 4)) (by simp only [hostPointer]; omega)]

/-- The watermark bit of a queue is due: its interrupt is enabled and FILL is at or above WMARK (01 R44, R45). -/
def State.irqDue (s : State) (n : Nat) : Bool := s.on (R.QM_Qnn_CTL_WM_IE n) && decide (s.qWmark n ≤ s.qFill n)

theorem State.irqDue_congr {s t : State} {n : Nat} (hq : t.queue n = s.queue n) (hw : ∀ a, hostPointer a → t.word a = s.word a)
    (hc : t.word (R.QM_Qnn_CTL_WM_IE n).addr = s.word (R.QM_Qnn_CTL_WM_IE n).addr) : t.irqDue n = s.irqDue n := by
  have h1 : t.rd (R.QM_Qnn_CTL_WM_IE n) = s.rd (R.QM_Qnn_CTL_WM_IE n) := State.rd_congr hc
  have h2 : t.rd (R.QM_Qnn_CTL_WMARK n) = s.rd (R.QM_Qnn_CTL_WMARK n) := State.rd_congr hc
  unfold State.irqDue State.on State.qWmark
  rw [h1, h2, State.qFill_congr hq hw]

/-! ### Watermark bits -/

/-- The register that holds the watermark bits of a half of the queues. -/
abbrev irqFld (hi : Bool) : Fld := if hi then R.QM_IRQ1 else R.QM_IRQ0

theorem irqFld_ok (hi : Bool) : (irqFld hi).Ok := by cases hi <;> decide

theorem irqFld_home (s : State) (hi : Bool) : s.home (irqFld hi).addr = (irqFld hi).addr :=
  home_queue s (by cases hi <;> decide)

theorem State.qIrq_eq (s : State) (hi : Bool) {n q : Nat} (hn : n < 32) (hq : q = n + (if hi then 32 else 0)) :
    s.qIrq q = if s.irqDue q then s.wrBit (irqFld hi) n true else s := by
  have hf : (if q < 32 then R.QM_IRQ0 else R.QM_IRQ1) = irqFld hi := by
    cases hi
    · exact if_pos (by simp at hq; omega)
    · exact if_neg (by simp at hq; omega)
  have hm : q % 32 = n := by cases hi <;> simp at hq <;> omega
  unfold State.qIrq State.irqDue
  rw [hf, hm]
  simp

/-- A watermark bit sets where it is due; the others stay. -/
theorem State.bit_qIrq (s : State) (hi : Bool) {n q : Nat} (hn : n < 32) (hq : q = n + (if hi then 32 else 0)) (k : Nat) :
    (s.qIrq q).bit (irqFld hi) k = (s.bit (irqFld hi) k || (decide (k = n) && s.irqDue q)) := by
  have hw : n < (irqFld hi).width := by cases hi <;> exact hn
  rw [s.qIrq_eq hi hn hq]
  cases hd : s.irqDue q with
  | true => rw [if_pos rfl, State.bit_wrBit_true s (irqFld_ok hi) hw, Bool.and_true]
  | false => rw [if_neg Bool.false_ne_true, Bool.and_false, Bool.or_false]

/-- A watermark bit changes no word but those of the watermark bits. -/
theorem State.word_qIrq_ne (s : State) (n : Nat) {a : Nat} (h0 : s.home a ≠ R.QM_IRQ0.addr) (h1 : s.home a ≠ R.QM_IRQ1.addr) :
    (s.qIrq n).word a = s.word a := by
  unfold State.qIrq
  split
  · refine State.word_wr_ne _ _ _ ?_
    by_cases hn : n < 32
    · rwa [if_pos hn, home_queue s (a := R.QM_IRQ0.addr) (by decide)]
    · rwa [if_neg hn, home_queue s (a := R.QM_IRQ1.addr) (by decide)]
  · rfl

theorem State.irqDue_qIrq (s : State) (n m : Nat) : (s.qIrq n).irqDue m = s.irqDue m := by
  have hm := Nat.mod_lt m (show 0 < 64 by decide)
  refine State.irqDue_congr (State.queue_congr (s.qIrq_queues n) m) (fun a ha => word_qIrq s (hostPointer_apart ha)) ?_
  refine State.word_qIrq_ne s n ?_ ?_ <;> (rw [home_queue s (by simp only; omega)]; simp only; omega)

/-! ### Completion records -/

/-- A record written, TAIL advanced, the watermark and HS.IRQ.ATTN raised: what a record does but for the slot of its handle. -/
def recordWritten (r : Record) (s : State) : State :=
  let tail := s.rd (R.HS_CPLc_TAIL r.queue)
  let s := ((s.setMem (cplSlot r.queue tail) (r.bytes s.tickno)).wr (R.HS_CPLc_TAIL r.queue) (tail + 1)).qIrq (r.queue + 4)
  if r.noirq then s else s.wr R.HS_IRQ_ATTN 1

/-- A FINAL record with a handle marks the handle's slot, in the memory of the handle table. -/
theorem writeRecord_cases (r : Record) (s : State) :
    writeRecord r s = recordWritten r s ∨
      ∃ slot e h, slot < 4096 ∧ writeRecord r s = { (recordWritten r s).setEntry slot e with hs := h } := by
  unfold writeRecord recordWritten
  dsimp only
  split
  · exact .inr ⟨r.handle % 4096, _, _, Nat.mod_lt _ (by decide), rfl⟩
  · exact .inl rfl

theorem Record.bytes_length (r : Record) (tick : Nat) : (r.bytes tick).length = 32 := by
  simp [Record.bytes]

/-- The completion slots stand in the host window, below the handle table (12 R403). -/
theorem cplSlot_bounds {c : Nat} (hc : c < 4) (n : Nat) : 0x10003800 ≤ cplSlot c n ∧ cplSlot c n + 32 ≤ 0x10004C00 := by
  unfold cplSlot winAddr
  have h : ∀ c < 4, 0x3800 ≤ cplBase c ∧ cplBase c + 32 * qDepth (c + 4) ≤ 0x4C00 ∧ 0 < qDepth (c + 4) := by decide
  obtain ⟨h1, h2, h3⟩ := h c hc
  have := Nat.mod_lt n h3
  omega

theorem home_cplTail (s : State) (c : Nat) : s.home (R.HS_CPLc_TAIL c).addr = (R.HS_CPLc_TAIL c).addr := by
  refine State.home_self s _ ?_ ?_ ?_ <;> (simp only; omega)

theorem cplTail_ok (c : Nat) : (R.HS_CPLc_TAIL c).Ok := ⟨Nat.zero_le _, by simp only; omega⟩

theorem recordWritten_tail (r : Record) (s : State) :
    (recordWritten r s).rd (R.HS_CPLc_TAIL r.queue) = (s.rd (R.HS_CPLc_TAIL r.queue) + 1) % 2 ^ 16 := by
  have hp : hostPointer (R.HS_CPLc_TAIL r.queue).addr := by simp only [hostPointer]; omega
  have hq : ∀ u : State, (u.qIrq (r.queue + 4)).rd (R.HS_CPLc_TAIL r.queue) = u.rd (R.HS_CPLc_TAIL r.queue) :=
    fun u => State.rd_congr (word_qIrq u (hostPointer_apart hp))
  have hi : ∀ u : State, (u.wr R.HS_IRQ_ATTN 1).rd (R.HS_CPLc_TAIL r.queue) = u.rd (R.HS_CPLc_TAIL r.queue) := fun u =>
    State.rd_wr_word u 1 (by rw [home_cplTail, State.home_self u _ (by decide) (by decide) (by decide)]; simp only; omega)
  unfold recordWritten
  dsimp only
  split
  · rw [hq, State.rd_wr_same _ (cplTail_ok _)]; rfl
  · rw [hi, hq, State.rd_wr_same _ (cplTail_ok _)]; rfl

theorem recordWritten_mem (r : Record) (s : State) :
    (recordWritten r s).mem = (s.setMem (cplSlot r.queue (s.rd (R.HS_CPLc_TAIL r.queue))) (r.bytes s.tickno)).mem := by
  unfold recordWritten
  dsimp only
  split
  · rw [State.qIrq_mem, State.wr_mem]
  · rw [State.wr_mem, State.qIrq_mem, State.wr_mem]

theorem recordWritten_bytes (r : Record) (s : State) (hc : r.queue < 4) :
    (recordWritten r s).memBytes (cplSlot r.queue (s.rd (R.HS_CPLc_TAIL r.queue))) 32 = r.bytes s.tickno := by
  have hb := cplSlot_bounds hc (s.rd (R.HS_CPLc_TAIL r.queue))
  have hm := recordWritten_mem r s
  generalize cplSlot r.queue (s.rd (R.HS_CPLc_TAIL r.queue)) = a at hb hm
  have hput := s.memBytes_setMem_same a (r.bytes s.tickno) fun i hi => .inl (by rw [Record.bytes_length] at hi; omega)
  rw [Record.bytes_length] at hput
  refine Eq.trans (State.memBytes_congr fun i hi => ?_) hput
  rw [State.memByte_plain _ (.inl (by omega)), State.memByte_plain _ (.inl (by omega)), hm]

/-- Where the words outside the queue manager and the host block stand. -/
theorem home_block (s : State) {a : Nat} (hq : a / 0x10000 ≠ 0x4002) (hh : a / 0x10000 ≠ 0x400E) :
    s.home a / 0x10000 ≠ 0x4002 ∧ s.home a / 0x10000 ≠ 0x400E := by
  unfold State.home
  dsimp only
  split
  · split <;> omega
  · split
    · split <;> omega
    · split <;> omega

/-- A record changes no register outside the queue manager and the host block. -/
theorem word_recordWritten (r : Record) (s : State) {a : Nat} (hq : a / 0x10000 ≠ 0x4002) (hh : a / 0x10000 ≠ 0x400E) :
    (recordWritten r s).word a = s.word a := by
  have hb : ∀ u : State, u.home a / 0x10000 ≠ 0x4002 ∧ u.home a / 0x10000 ≠ 0x400E := fun u => home_block u hq hh
  have h1 : ∀ u : State, (u.qIrq (r.queue + 4)).word a = u.word a := fun u =>
    State.word_qIrq_ne u _ (fun e => (hb u).1 (e ▸ rfl)) (fun e => (hb u).1 (e ▸ rfl))
  have h2 : ∀ u v, (State.wr u (R.HS_CPLc_TAIL r.queue) v).word a = u.word a := fun u v =>
    State.word_wr_ne u _ _ fun e => (hb u).2 (by rw [e, home_cplTail]; simp only; omega)
  have h3 : ∀ u : State, (u.wr R.HS_IRQ_ATTN 1).word a = u.word a := fun u =>
    State.word_wr_ne u _ _ fun e => (hb u).2 (by rw [e, State.home_self u _ (by decide) (by decide) (by decide)]; rfl)
  unfold recordWritten
  dsimp only
  split
  · rw [h1, h2, State.word_setMem]
  · rw [h3, h1, h2, State.word_setMem]

/-- A record written is the next one of its completion queue (12 R409, R410). -/
theorem writeRecord_next (r : Record) (s : State) (hc : r.queue < 4) :
    (writeRecord r s).rd (R.HS_CPLc_TAIL r.queue) = (s.rd (R.HS_CPLc_TAIL r.queue) + 1) % 2 ^ 16 ∧
      (writeRecord r s).memBytes (cplSlot r.queue (s.rd (R.HS_CPLc_TAIL r.queue))) 32 = r.bytes s.tickno := by
  have hb := cplSlot_bounds hc (s.rd (R.HS_CPLc_TAIL r.queue))
  rcases writeRecord_cases r s with h | ⟨slot, e, hs, hslot, h⟩
  · rw [h]
    exact ⟨recordWritten_tail r s, recordWritten_bytes r s hc⟩
  · rw [h]
    refine ⟨((recordWritten r s).rd_setMem _ _ _).trans (recordWritten_tail r s), ?_⟩
    refine ((recordWritten r s).memBytes_setMem_apart (a := winAddr (0x5000 + 2 * slot)) (bytesLE 2 e) (.inl ?_)).trans
      (recordWritten_bytes r s hc)
    unfold winAddr
    omega

theorem word_writeRecord (r : Record) (s : State) {a : Nat} (hq : a / 0x10000 ≠ 0x4002) (hh : a / 0x10000 ≠ 0x400E) :
    (writeRecord r s).word a = s.word a := by
  rcases writeRecord_cases r s with h | ⟨slot, e, hs, -, h⟩
  · rw [h, word_recordWritten r s hq hh]
  · rw [h]
    exact ((recordWritten r s).word_setMem _ _ a).trans (word_recordWritten r s hq hh)

/-- With a credit and no record held a record is written at once (12 R411). -/
theorem putRecord_written {r : Record} {s : State} (hc : 0 < s.qCredit (r.queue + 4)) (hh : s.hs.held = []) :
    putRecord r s = writeRecord r s := by
  unfold putRecord
  rw [hh, if_pos ⟨hc, rfl⟩]

/-- A command's FINAL record from the state that its effect leaves. -/
theorem finished_putRecord (op : Nat) (d : Desc) (status : Nat) (result : List Byte) {s u : State}
    (hc : 0 < u.qCredit (d.queue.val + 4)) (hh : u.hs.held = [])
    (htail : u.rd (R.HS_CPLc_TAIL d.queue) = s.rd (R.HS_CPLc_TAIL d.queue)) (htick : u.tickno = s.tickno) :
    Finished op d status result s (putRecord (descRecord op d 0 2 status result) u) := by
  have h := writeRecord_next (descRecord op d 0 2 status result) u d.queue.isLt
  rw [putRecord_written (r := descRecord op d 0 2 status result) hc hh]
  rw [show (descRecord op d 0 2 status result).queue = d.queue.val from rfl, htail, htick] at h
  exact h

/-! ### A command at its pop -/

/-- A command that the firmware takes is carried out on the state without the last step's output (12 R408; 13 R422). -/
theorem command_serves {op : Nat} {named : List (Nat × Nat × Nat)} {d : Desc} {s : State} (act : State → Plan)
    (h : s.Serves op named d) : live (command op named d act) s = .next (runPlan op d s.cleared (act s.cleared)) := by
  obtain ⟨hrun, hmp, hstall, hpar, href, -, -⟩ := h
  have hmp' : s.cleared.mpServes = true := hmp
  have hstall' : s.cleared.mp.stall = none := hstall
  have href' : s.cleared.descRefused op named d = none := href
  rw [live_next _ hrun]
  unfold command
  rw [hmp', hstall', hpar]
  simp only [href']
  rfl

end Sys2Proof.Machine
end

section
/-! O4: the state after reset (00 R17). -/

namespace Sys2Proof.Machine

/-- The pointers of the host's queues are equal after reset (12 R405). -/
theorem reset_hostQueues_empty : ∀ n < 8, State.reset.qFill n = 0 := by decide +kernel

theorem reset_queue (n : Nat) : State.reset.queue n = {} := rfl

theorem reset_qFill {n : Nat} (hn : n < 64) : State.reset.qFill n = 0 := by
  by_cases h8 : n < 8
  · exact reset_hostQueues_empty n h8
  · unfold State.qFill
    rw [if_neg (by omega), if_neg h8, reset_queue]
    rfl

theorem reset_qReturned (n : Nat) : State.reset.qReturned n = 0 := by
  unfold State.qReturned
  rw [reset_queue]
  rfl

/-- After reset a queue's credits are its depth. -/
theorem reset_qCredit {n : Nat} (hn : n < 64) : State.reset.qCredit n = qDepth n := by
  unfold State.qCredit
  rw [reset_qFill hn, reset_qReturned]
  rfl

theorem reset_inv : State.reset.Inv := by decide

/-- Settles O4: the state after reset is the model's default state, field by field. -/
theorem invariantAtReset : Obligations.InvariantAtReset := by
  refine ⟨reset_inv, rfl, rfl, fun _ => rfl, by decide, by decide, by decide, fun n hn => ⟨?_, reset_qCredit hn⟩, by decide⟩
  rw [reset_queue]

end Sys2Proof.Machine
end

section
/-! O52: REG.WRITE of a locked register and of one that is read only (00 R15; assumption log 68 and 81 for the word read back). -/

namespace Sys2Proof.Machine

theorem State.readBack_cleared (s : State) (a : Nat) : s.cleared.readBack a = s.readBack a := rfl

/-- REG.WRITE of a register that the lock covers answers LOCKED with the word as it stands. -/
theorem exec_regWrite_locked {d : Desc} {s : State} (h : s.Serves 0x0302 [(8, 15, 255)] d) (ha : pnum d 8 4 % 4 = 0)
    (hlock : s.on R.SB_LOCK_LOCKED = true) (hopen : s.sb.blocked = false) (hrwl : accessMask (pnum d 8 4) .rwl ≠ 0) :
    exec (.regWrite d) s =
      .next (putRecord (descRecord 0x0302 d 0 2 0x17 (bytesLE 4 (s.readBack (pnum d 8 4)).toNat)) s.cleared) := by
  refine (command_serves _ h).trans ?_
  have hlock' : s.cleared.on R.SB_LOCK_LOCKED = true := hlock
  dsimp only
  rw [if_neg (not_not_intro ha), if_neg (by simp [hopen]), if_pos ⟨hlock', hrwl⟩, State.readBack_cleared]
  rfl

/-- A register without a field that takes a write does not change (00 R15). -/
theorem regWrite_of_not_takesWrite {a : Nat} (h : takesWrite a = false) (v : Word) (s : State) : regWrite a v s = s := by
  unfold regWrite
  rw [h]
  rfl

/-- REG.WRITE of a register whose fields take no write answers OK with the word as it stands. -/
theorem exec_regWrite_readOnly {d : Desc} {s : State} (h : s.Serves 0x0302 [(8, 15, 255)] d) (ha : pnum d 8 4 % 4 = 0)
    (hr : isRegister (pnum d 8 4) = true) (hrwl : accessMask (pnum d 8 4) .rwl = 0) (hw : takesWrite (pnum d 8 4) = false) :
    exec (.regWrite d) s =
      .next (putRecord (descRecord 0x0302 d 0 2 0 (bytesLE 4 (s.readBack (pnum d 8 4)).toNat)) s.cleared) := by
  refine (command_serves _ h).trans ?_
  have hbus : ∀ v, busWrite (pnum d 8 4) v 1 s.cleared = (true, s.cleared) := fun v => by
    unfold busWrite
    rw [if_pos hr, regWrite_of_not_takesWrite hw]
  dsimp only
  rw [if_neg (not_not_intro ha), if_neg (by simp [hrwl]), if_neg (by simp [hrwl]), hbus, State.readBack_cleared]
  rfl

/-- Settles O52: both writes leave the register out, by the order of REG.WRITE's checks; the record is then the only effect. -/
theorem regWriteOfLockedAndReadOnlyRegisters : Obligations.RegWriteOfLockedAndReadOnlyRegisters := by
  intro d s h ha hr
  obtain ⟨-, -, -, -, -, hc, hh⟩ := id h
  refine ⟨exec_regWrite_locked h ha, fun _ hro => ?_, fun r => ⟨_, rfl, ?_, fun a hq hh' => ?_⟩⟩
  · refine exec_regWrite_readOnly h ha hr (hro .rwl (by decide)) ?_
    unfold takesWrite
    rw [hro .rw (by decide), hro .rwl (by decide), hro .w1c (by decide), hro .wo (by decide)]
    decide
  · exact finished_putRecord 0x0302 d r _ hc hh rfl rfl
  · rw [putRecord_written (r := descRecord 0x0302 d 0 2 r _) (s := s.cleared) hc hh, word_writeRecord _ _ hq hh']
    rfl

end Sys2Proof.Machine
end

section
/-! O54: PAR.STAGE in a cycle in which Q53 has just been drained. The statement has Q53 empty and enabled but says nothing of its credits:
those of a pop can be used from the next cycle only (01 R36), so the firmware waits with the item in hand (01 R37) and no record goes out. -/

namespace Sys2Proof.Machine

/-- Without a credit of its queue a command waits: no register changes, and so no record goes out. -/
theorem stallPush_noCredit {s : State} {x : Stall} (hx : s.mp.stall = some x) (hc : s.qCredit x.queue = 0) (hi : x.items ≠ [])
    (hq : (s.queue 53).items = []) : (stallPush s).regs = s.regs := by
  have hdrain : drainStaging s = s := by
    unfold drainStaging drainParams
    rw [hq]
    exact ite_self s
  unfold stallPush
  simp [hx, hc, hi, hdrain]

/-- PAR.STAGE of one word, with Q53 empty but without a credit in this cycle, changes no register. -/
theorem exec_parStage_noCredit {d : Desc} {s : State} {off : Nat} (h : s.Serves 0x0303 [(8, 13, 255), (16, 19, 255)] d)
    (ha : pnum d 8 4 % 4 = 0) (hn : pnum d 12 2 = 1) (hb : bulkBad (pnum d 16 4) 4 = false) (hp : pageOffset (pnum d 8 4) = some off)
    (hbp : d.bulkParity = none) (hs : s.spoilHit d (pnum d 16 4) (pnum d 16 4 + 4) = false) (hq : (s.queue 53).items = [])
    (hc : s.qCredit 53 = 0) : ∃ t, exec (.parStage d) s = .next t ∧ t.regs = s.regs := by
  have hbulk : bulkBytes d (pnum d 16 4) 4 s.cleared = (s.cleared.memBytes (winAddr (0x8000 + pnum d 16 4)) 4, s.cleared) :=
    if_neg (Bool.eq_false_iff.mp hs)
  refine ⟨_, command_serves _ h, ?_⟩
  dsimp only
  rw [hn, if_neg (by simp [ha, hb]), hp, Nat.sub_self, Nat.mul_zero, Nat.add_zero, hp]
  dsimp only
  rw [if_neg (by simp [hp]), withBulk, hbp]
  dsimp only
  rw [Nat.mul_one, hbulk]
  exact stallPush_noCredit rfl hc (List.cons_ne_nil _ _) hq

/-- The firmware serves, and Q53 has given its 32 items to the inactive bank in this very cycle. -/
def stagingDrained : State := ((State.reset.wr R.HS_STAT_MPSTATE 0).setQueue 53 { items := List.replicate 32 [] }).qDrain 53

/-- PAR.STAGE of the first coefficient word, from the start of the bulk area, on Q01. -/
def stageOneWord : Desc :=
  { queue := 1, dseq := 1, flags := 0, reserved := 0, handle := 0, ctag := 7, parity := none, bulkParity := none
    param := padTo 56 (bytesLE 4 0x40041000 ++ bytesLE 2 1) }

theorem stagingDrained_serves : stagingDrained.Serves 0x0303 [(8, 13, 255), (16, 19, 255)] stageOneWord := by decide +kernel

/-- Q53 is empty, but the credits of its pops come with the next cycle. -/
theorem stagingDrained_staging :
    (stagingDrained.queue 53).items = [] ∧ (stagingDrained.queue 53).off = false ∧ stagingDrained.qCredit 53 = 0 := by decide +kernel

theorem stageOneWord_operands :
    pnum stageOneWord 8 4 % 4 = 0 ∧ pnum stageOneWord 12 2 = 1 ∧ bulkBad (pnum stageOneWord 16 4) 4 = false ∧
      pageOffset (pnum stageOneWord 8 4) = some 0 ∧ bankMask 0 ≠ 0 := by decide +kernel

/-- Refutes O54: PAR.STAGE to an empty Q53 whose 32 credits return with the next cycle writes no record. -/
theorem not_registerAndTableCommands : ¬ Obligations.RegisterAndTableCommands := by
  intro h
  obtain ⟨hq, hoff, hc⟩ := stagingDrained_staging
  obtain ⟨ha, hn, hb, hp, hmask⟩ := stageOneWord_operands
  obtain ⟨-, -, -, hstage, -⟩ := h stageOneWord stagingDrained (.inl (by decide))
  obtain ⟨t, ht, hregs⟩ := exec_parStage_noCredit stagingDrained_serves ha hn hb hp rfl rfl hq hc
  obtain ⟨u, hu, ⟨htail, -⟩, -⟩ := hstage 0 stagingDrained_serves ha hn hb hp rfl rfl rfl hq hoff hmask
  cases ht.symm.trans hu
  have hsame : t.rd (R.HS_CPLc_TAIL 1) = stagingDrained.rd (R.HS_CPLc_TAIL 1) :=
    State.rd_congr (by unfold State.word; rw [home_cplTail, home_cplTail, hregs])
  have hnext : t.rd (R.HS_CPLc_TAIL 1) = (stagingDrained.rd (R.HS_CPLc_TAIL 1) + 1) % 2 ^ 16 := htail
  omega

end Sys2Proof.Machine
end

section
/-! SUPPORT. Reads of registers and memory by the MP (00 R14; 01 R33, R48; 07 R277; 14 R467; 15 R494). -/

namespace Sys2Proof.Machine

/-! ### The effects of a read -/

/-- The three effects of a read, in their order: RC fields clear, a lower half latches its upper half, the last word of a Token frame
clears TXRDY. -/
def clearRc (a : Nat) (s : State) : State :=
  if accessMask a .rc = 0 then s else s.setWord a (s.word a &&& ~~~accessMask a .rc)
def latchUpper (a : Nat) (s : State) : State :=
  match s.latchOf a with
  | some (f, v) => s.wr f v
  | none => s
def takeToken (a : Nat) (s : State) : State :=
  if a = (R.SB_TOKt_TXw 0 15).addr then s.wr (R.SB_TOKt_STAT_TXRDY 0) 0
  else if a = (R.SB_TOKt_TXw 1 15).addr then s.wr (R.SB_TOKt_STAT_TXRDY 1) 0
  else s

theorem readEffects_eq (a : Nat) (s : State) : readEffects a s = takeToken a (latchUpper a (clearRc a s)) := rfl

/-- Where the pairs of registers that read as one number stand. -/
theorem State.latchOf_range {s : State} {a v : Nat} {f : Fld} (h : s.latchOf a = some (f, v)) :
    f.addr = a + 4 ∧ (a + 4 < 0x40040000 ∨ (0x40080000 ≤ a ∧ a + 4 < 0x40090000) ∨ 0x40100000 ≤ a) := by
  unfold State.latchOf at h
  split_ifs at h
  all_goals
    cases h
    simp only at *
    omega

/-- The upper half that a read latches is the next word, and neither half is a page that stands for another. -/
theorem State.latchOf_home {s : State} {a v : Nat} {f : Fld} (h : s.latchOf a = some (f, v)) (u : State) :
    u.home a = a ∧ u.home f.addr = a + 4 := by
  obtain ⟨hf, hr⟩ := State.latchOf_range h
  rw [hf]
  exact ⟨State.home_self u a (by omega) (by omega) (by omega), State.home_self u (a + 4) (by omega) (by omega) (by omega)⟩

theorem word_clearRc (a : Nat) (s : State) : (clearRc a s).word a = s.word a &&& ~~~accessMask a .rc := by
  unfold clearRc
  split
  · next h =>
    rw [h]
    exact (BitVec.and_allOnes (x := s.word a)).symm
  · exact State.word_setWord_same _ _ _

theorem word_latchUpper (a : Nat) (s : State) : (latchUpper a s).word a = s.word a := by
  unfold latchUpper
  split
  · next f v h =>
    obtain ⟨ha, hf⟩ := State.latchOf_home h s
    exact State.word_wr_ne s f v (by omega)
  · rfl

theorem word_takeToken (a : Nat) (s : State) : (takeToken a s).word a = s.word a := by
  have htok : ∀ t w, (State.wr s (R.SB_TOKt_STAT_TXRDY t) 0).word (R.SB_TOKt_TXw w 15).addr = s.word (R.SB_TOKt_TXw w 15).addr :=
    fun t w => State.word_wr_ne s _ _ (by
      rw [State.home_self s _ (by simp only; omega) (by simp only; omega) (by simp only; omega),
        State.home_self s _ (by simp only; omega) (by simp only; omega) (by simp only; omega)]
      simp only
      omega)
  unfold takeToken
  split
  · next h => rw [h]; exact htok 0 0
  split
  · next h => rw [h]; exact htok 1 1
  · rfl

/-- A read clears the RC fields of its own word and nothing else of it. -/
theorem word_readEffects (a : Nat) (s : State) : (readEffects a s).word a = s.word a &&& ~~~accessMask a .rc := by
  rw [readEffects_eq, word_takeToken, word_latchUpper, word_clearRc]

/-- A read of a lower half latches its upper half and does no more. -/
theorem readEffects_latch {a v : Nat} {f : Fld} {s : State} (hrc : accessMask a .rc = 0) (hl : s.latchOf a = some (f, v)) :
    readEffects a s = s.wr f v := by
  obtain ⟨-, hr⟩ := State.latchOf_range hl
  have h0 : a ≠ (R.SB_TOKt_TXw 0 15).addr := by simp only; omega
  have h1 : a ≠ (R.SB_TOKt_TXw 1 15).addr := by simp only; omega
  rw [readEffects_eq, clearRc, if_pos hrc, latchUpper, hl, takeToken, if_neg h0, if_neg h1]

/-! ### A read of a register -/

theorem registerRead_register {a : Nat} (h : isRegister a = true) (s : State) :
    registerRead a s = (readEffects a s).answer (s.peek a) := by
  unfold registerRead busRead
  rw [if_pos h]

/-- A read of a register changes registers alone. -/
theorem registerRead_frame {a : Nat} (h : isRegister a = true) (s : State) :
    SameOutside [.regs, .out] s (registerRead a s.cleared) := by
  rw [registerRead_register h]
  exact sameOutside_of_sound (State.answer_sound (by decide) _ _ (readEffects_sound (by decide) _ _ (addrOutside_all (by decide))
    (cleared_sound (by decide) (sound_refl _ s))))

/-- What a read of a lower half answers and latches (01 R33). -/
theorem registerRead_latch {a v n : Nat} {f : Fld} {w : Word} {s : State} (hr : s.Running)
    (hreg : isRegister a = true ∧ accessMask a .rc = 0 ∧ accessMask a .wo = 0) (hf : f.Ok) (hp : s.peek a = w)
    (hl : s.latchOf a = some (f, v)) (hv : v % 2 ^ f.width = n) :
    ∃ t, live (registerRead a) s = .next t ∧ t.out.readData = some w ∧ t.rd f = n ∧ SameOutside [.regs, .out] s t := by
  obtain ⟨hreg, hrc, -⟩ := hreg
  refine ⟨_, live_next _ hr, ?_, ?_, registerRead_frame hreg s⟩
  · rw [registerRead_register hreg, ← hp]
    rfl
  · rw [registerRead_register hreg, readEffects_latch (s := s.cleared) hrc hl, ← hv]
    exact State.rd_wr_same s.cleared hf v

/-- The lower halves are registers without RC and WO fields. -/
theorem lowerHalf_plain : ∀ a ∈ [R.TB_CNT_LO.addr, R.TB_LAST_LO.addr, R.FB_POS_LO.addr, R.FB_HOFS_LO.addr, R.NV_LOGSEQ_LO.addr,
    R.NV_LOGOLD_LO.addr], isRegister a = true ∧ accessMask a .rc = 0 ∧ accessMask a .wo = 0 := by decide

theorem triggerHalf_plain : ∀ r : Fin 16, isRegister (R.TE_Rr_TB_LO r).addr = true ∧ accessMask (R.TE_Rr_TB_LO r).addr .rc = 0 ∧
    accessMask (R.TE_Rr_TB_LO r).addr .wo = 0 := by decide

/-- The lower halves read the number that they are the lower half of. -/
theorem peek_lowerHalf (s : State) :
    s.peek R.TB_CNT_LO.addr = BitVec.ofNat 32 s.time.tb ∧ s.peek R.TB_LAST_LO.addr = BitVec.ofNat 32 s.time.tbLast ∧
      s.peek R.FB_POS_LO.addr = BitVec.ofNat 32 s.fb.pos ∧ s.peek R.FB_HOFS_LO.addr = BitVec.ofNat 32 (wrapTo 48 s.fb.hofs) ∧
      s.peek R.NV_LOGSEQ_LO.addr = BitVec.ofNat 32 s.nv.logSeq ∧ s.peek R.NV_LOGOLD_LO.addr = BitVec.ofNat 32 s.logOld := by
  have hwo : ∀ a ∈ [R.TB_CNT_LO.addr, R.TB_LAST_LO.addr, R.FB_POS_LO.addr, R.FB_HOFS_LO.addr, R.NV_LOGSEQ_LO.addr, R.NV_LOGOLD_LO.addr],
      ∀ w : Word, w &&& ~~~accessMask a .wo = w := fun a ha w => by rw [(lowerHalf_plain a ha).2.2, and_not_zero]
  simp only [List.forall_mem_cons] at hwo
  obtain ⟨h1, h2, h3, h4, h5, h6, -⟩ := hwo
  exact ⟨h1 _, h2 _, h3 _, h4 _, h5 _, h6 _⟩

theorem peek_triggerHalf (s : State) (r : Fin 16) : s.peek (R.TE_Rr_TB_LO r).addr = BitVec.ofNat 32 (s.ring r).trigTb := by
  have ha : (R.TE_Rr_TB_LO r).addr = 0x4013011C + 0x40 * r.val := by simp only; omega
  have hr : (0x4013011C + 0x40 * r.val - 0x4013011C) / 0x40 = r.val := by omega
  obtain ⟨-, -, hwo⟩ := triggerHalf_plain r
  rw [ha] at hwo ⊢
  unfold State.peek
  dsimp only
  rw [hwo, and_not_zero]
  iterate 10 rw [if_neg (by omega)]
  rw [if_pos (by omega), hr]
  rfl

theorem latchOf_triggerHalf (s : State) (r : Fin 16) :
    s.latchOf (R.TE_Rr_TB_LO r).addr = some (R.TE_Rr_TB_HI r, (s.ring r).trigTb / 2 ^ 32) := by
  have ha : (R.TE_Rr_TB_LO r).addr = 0x4013011C + 0x40 * r.val := by simp only; omega
  have hr : (0x4013011C + 0x40 * r.val - 0x4013011C) / 0x40 = r.val := by omega
  rw [ha]
  unfold State.latchOf
  dsimp only
  iterate 6 rw [if_neg (by omega)]
  rw [if_pos (by omega), hr]

/-! ### A read of a memory, and of nothing -/

theorem registerRead_bytes {a : Nat} {s : State} (hr : isRegister a = false) (hb : busRange a 4 = true ∨ a + 4 ≤ 0x10000) :
    registerRead a s = s.answer (BitVec.ofNat 32 (ofBytesLE ((List.range 4).map (fun i => s.busByte (a + i))))) := by
  unfold registerRead busRead
  rw [if_neg (by rw [hr]; decide), if_pos (by simpa using hb)]

theorem registerRead_unlisted {a : Nat} {s : State} (hr : isRegister a = false) (hb : busRange a 4 = false) (hrom : 0x10000 ≤ a) :
    registerRead a s = (s.badAddr a 0 0).answer 0 := by
  unfold registerRead busRead
  rw [if_neg (by rw [hr]; decide), if_neg (by rw [hb]; simp; omega)]

theorem isRegister_rom {a : Nat} (h : a < 0x10000) : isRegister a = false := by
  have hz : a / 0x10000 = 0 := by omega
  unfold isRegister regRows
  rw [hz]
  rfl

theorem busByte_rom {a : Nat} (s : State) (h : a < 0x10000) : s.busByte a = Config.romByte a := if_pos h

/-- BAD_ADDR joins the events of the tick (01 R48). -/
theorem badAddr_evs (s : State) (a access requester : Nat) :
    (s.badAddr a access requester).te.evs = s.te.evs ++ [(40, 0x302)] := by
  unfold State.badAddr
  rw [State.event_te]
  rfl

end Sys2Proof.Machine
end

section
/-! SUPPORT. Writes of registers and memory by the MP (00 R14, R15; 01 R45, R48, R50). -/

namespace Sys2Proof.Machine

/-! ### Plain writes -/

theorem word_plainWrite (a : Nat) (v : Word) (s : State) :
    (plainWrite a v s).word a =
      ((s.word a &&& ~~~(s.writable a)) ||| (v &&& s.writable a)) &&& ~~~(v &&& accessMask a .w1c) :=
  State.word_setWord_same _ _ _

theorem word_plainWrite_ne {a b : Nat} (v : Word) (s : State) (h : s.home b ≠ s.home a) : (plainWrite a v s).word b = s.word b :=
  State.word_setWord_ne _ _ h

/-- The blocks whose writes have no effect beyond the access codes: TB, TH and NV. -/
theorem regWrite_plain {a : Nat} (h : a / 0x10000 = 0x4001 ∨ a / 0x10000 = 0x400F ∨ a / 0x10000 = 0x4010) (hw : takesWrite a = true)
    (v : Word) (s : State) : regWrite a v s = plainWrite a v s := by
  unfold regWrite
  rw [hw]
  rcases h with h | h | h <;> rw [h] <;> rfl

/-- Where no bit takes a write the access codes change nothing. -/
theorem plainWrite_keeps {a : Nat} (h : takesWrite a = false) (v : Word) (s : State) :
    s.word a = ((s.word a &&& ~~~(s.writable a)) ||| (v &&& s.writable a)) &&& ~~~(v &&& accessMask a .w1c) := by
  have hz : ((accessMask a .rw = 0 ∧ accessMask a .rwl = 0) ∧ accessMask a .w1c = 0) ∧ accessMask a .wo = 0 := by
    simpa [takesWrite, BitVec.or_eq_zero_iff] using h
  obtain ⟨⟨⟨hrw, hrwl⟩, hw1c⟩, -⟩ := hz
  have hset : s.writable a = 0 := by
    unfold State.writable
    rw [hrw, hrwl, ite_self]
    rfl
  rw [hset, hw1c, masked_none, show v &&& (0 : Word) = 0 from BitVec.and_zero, and_not_zero]

/-- A write of a word of these blocks acts by the access codes of its fields alone (00 R14). -/
theorem word_regWrite_plain {a : Nat} (h : a / 0x10000 = 0x4001 ∨ a / 0x10000 = 0x400F ∨ a / 0x10000 = 0x4010) (v : Word) (s : State) :
    (regWrite a v s).word a =
        ((s.word a &&& ~~~(s.writable a)) ||| (v &&& s.writable a)) &&& ~~~(v &&& accessMask a .w1c) ∧
      (∀ b, s.home b ≠ s.home a → (regWrite a v s).word b = s.word b) := by
  cases hw : takesWrite a with
  | false =>
    rw [regWrite_of_not_takesWrite hw]
    exact ⟨plainWrite_keeps hw v s, fun _ _ => rfl⟩
  | true =>
    rw [regWrite_plain h hw]
    exact ⟨word_plainWrite a v s, fun b hb => word_plainWrite_ne v s hb⟩

theorem regWrite_plain_frame {a : Nat} (h : a / 0x10000 = 0x4001 ∨ a / 0x10000 = 0x400F ∨ a / 0x10000 = 0x4010) (v : Word) (s : State) :
    SameOutside [.regs, .out] s (regWrite a v s.cleared) := by
  cases hw : takesWrite a with
  | false =>
    rw [regWrite_of_not_takesWrite hw]
    exact sameOutside_of_sound (cleared_sound (by decide) (sound_refl _ s))
  | true =>
    rw [regWrite_plain h hw]
    exact sameOutside_of_sound (plainWrite_sound (by decide) a v _ (addrOutside_all (by decide)) (cleared_sound (by decide) (sound_refl _ s)))

/-! ### A write of a word by the MP -/

theorem registerWrite_register {x a : Nat} (v : Word) (s : State) (ha : a = x / 4 * 4) (hr : isRegister a = true) :
    registerWrite x v s = regWrite a v s := by
  unfold registerWrite busWrite
  rw [← ha, if_pos hr]

theorem registerWrite_memory {x a : Nat} (v : Word) (s : State) (ha : a = x / 4 * 4) (hr : isRegister a = false) (hm : mpWrites a = true) :
    registerWrite x v s = s.setMem a (bytesLE 4 v.toNat) := by
  unfold registerWrite busWrite
  rw [← ha, if_neg (by rw [hr]; decide), if_pos ⟨hm, by omega⟩]

theorem registerWrite_refused {x a : Nat} (v : Word) (s : State) (ha : a = x / 4 * 4) (hr : isRegister a = false)
    (hm : mpWrites a = false) : registerWrite x v s = s.badAddr a 1 0 := by
  unfold registerWrite busWrite
  rw [← ha, if_neg (by rw [hr]; decide), if_neg (by rw [hm]; simp)]

theorem mpWrites_iff (a : Nat) : mpWrites a = true ↔
    (0x10000000 ≤ a ∧ a < 0x10001000) ∨ (0x10003800 ≤ a ∧ a < 0x10010000) ∨ (0x10300000 ≤ a ∧ a < 0x10600000) := by
  simp [mpWrites, or_assoc]

/-- Memory that the MP writes holds what was written. -/
theorem mpWrites_plainMem {a i : Nat} (h : mpWrites a = true) (ha : a % 4 = 0) (hi : i < 4) : plainMem (a + i) := by
  rw [mpWrites_iff] at h
  omega

/-! ### Watermark bits cleared -/

theorem irqFld_masks (hi : Bool) : accessMask (irqFld hi).addr .rw = 0 ∧ accessMask (irqFld hi).addr .rwl = 0 ∧
    accessMask (irqFld hi).addr .w1c = BitVec.allOnes 32 := by cases hi <;> decide

/-- A watermark bit is set or clear as its register's bit. -/
theorem State.bit_irqFld (s : State) (hi : Bool) (n : Nat) : s.bit (irqFld hi) n = (s.word (irqFld hi).addr).getLsbD n := by
  unfold State.bit
  rw [testB_eq_testBit, State.rd_word s (by cases hi <;> rfl) (by cases hi <;> rfl), BitVec.testBit_toNat]

/-- A watermark bit written 1 clears. -/
theorem bit_plainWrite_irq (s : State) (hi : Bool) (v : Word) (n : Nat) :
    (plainWrite (irqFld hi).addr v s).bit (irqFld hi) n = (s.bit (irqFld hi) n && !testB v.toNat n) := by
  obtain ⟨hrw, hrwl, hw1c⟩ := irqFld_masks hi
  have hset : s.writable (irqFld hi).addr = 0 := by
    unfold State.writable
    rw [hrw, hrwl, ite_self]
    rfl
  rw [State.bit_irqFld, State.bit_irqFld, word_plainWrite, hset, hw1c, testB_eq_testBit, BitVec.testBit_toNat, masked_none,
    BitVec.and_allOnes, BitVec.getLsbD_and, BitVec.getLsbD_not]
  by_cases hn : n < 32
  · simp [hn]
  · simp [BitVec.getLsbD_of_ge _ n (by omega : 32 ≤ n)]

theorem irqDue_plainWrite_irq (s : State) (hi : Bool) (v : Word) (q : Nat) :
    (plainWrite (irqFld hi).addr v s).irqDue q = s.irqDue q := by
  have hb : (irqFld hi).addr = 0x40020400 ∨ (irqFld hi).addr = 0x40020404 := by
    cases hi
    · exact .inl rfl
    · exact .inr rfl
  refine State.irqDue_congr rfl (fun a ha => word_plainWrite_ne v s ?_) (word_plainWrite_ne v s ?_)
  · have hs := home_apart s (hostPointer_apart ha)
    rw [irqFld_home]
    omega
  · rw [irqFld_home, home_queue s (by simp only; omega)]
    simp only
    omega

/-- Of the bits that a list names and a value has set, those that are due set. -/
theorem bit_foldl_qIrq (hi : Bool) (v k : Nat) (l : List Nat) (hl : ∀ n ∈ l, n < 32) (s : State) :
    (l.foldl (fun s n => if testB v n then s.qIrq ((if hi then 32 else 0) + n) else s) s).bit (irqFld hi) k =
      (s.bit (irqFld hi) k || (decide (k ∈ l) && testB v k && s.irqDue (k + (if hi then 32 else 0)))) := by
  induction l generalizing s with
  | nil => simp
  | cons n l ih =>
    obtain ⟨hn, hl⟩ := List.forall_mem_cons.mp hl
    rw [List.foldl_cons, ih hl]
    by_cases hv : testB v n = true
    · rw [if_pos hv, Nat.add_comm, s.bit_qIrq hi hn rfl, State.irqDue_qIrq]
      by_cases hk : k = n
      · subst hk
        cases s.irqDue (k + if hi then 32 else 0) <;> simp [hv]
      · simp [hk]
    · rw [if_neg hv]
      by_cases hk : k = n
      · subst hk; simp [hv]
      · simp [hk]

/-- Watermark bits written 1 clear; of them those that are due set again (01 R45). -/
theorem bit_qmIrqClear (hi : Bool) (v : Word) (s : State) {n : Nat} (hn : n < 32) :
    (qmIrqClear hi v s).bit (irqFld hi) n =
      ((s.bit (irqFld hi) n && !testB v.toNat n) || (testB v.toNat n && s.irqDue (n + (if hi then 32 else 0)))) := by
  refine (bit_foldl_qIrq hi v.toNat n (List.range 32) (fun _ h => List.mem_range.mp h) _).trans ?_
  rw [bit_plainWrite_irq, irqDue_plainWrite_irq, decide_eq_true (List.mem_range.mpr hn), Bool.true_and]

end Sys2Proof.Machine
end

section
/-! SUPPORT. Pushes and pops of a queue: its items, its counters, and that the pushes of another queue leave both alone (01 R36–R39; 02 R71). -/

namespace Sys2Proof.Machine

/-! ### The registers of one queue -/

/-- A word of a queue's own four registers (01 R42). -/
abbrev queueWord (n a : Nat) : Prop := 0x40020000 + 0x10 * n ≤ a ∧ a < 0x40020010 + 0x10 * n

theorem dropCount_ok (n : Nat) : (R.QM_Qnn_DROP_COUNT n).Ok := ⟨Nat.zero_le _, by simp only; omega⟩

theorem flagDropped_ok (n : Nat) : (R.QM_Qnn_FLAG_DROPPED n).Ok := ⟨Nat.le_refl _, by simp only; omega⟩

/-- An item lost is counted and flagged at its queue (01 R37). -/
theorem qLose_counts (s : State) {n : Nat} (hn : n < 64) :
    (s.qLose n).rd (R.QM_Qnn_DROP_COUNT n) = min (s.rd (R.QM_Qnn_DROP_COUNT n) + 1) 0xFFFFFFFF ∧
      (s.qLose n).rd (R.QM_Qnn_FLAG_DROPPED n) = 1 := by
  have hcount : queueWord n (R.QM_Qnn_DROP_COUNT n).addr := by simp only [queueWord]; omega
  have hflag : queueWord n (R.QM_Qnn_FLAG_DROPPED n).addr := by simp only [queueWord]; omega
  have hne : (R.QM_Qnn_DROP_COUNT n).addr ≠ (R.QM_Qnn_FLAG_DROPPED n).addr := by simp only; omega
  have hsb : ∀ (u : State) (f : Fld), queueWord n f.addr → (u.wr R.SB_STAT_SAFETY_EVT_LOST 1).rd f = u.rd f := fun u f hf =>
    State.rd_wr_word u 1 (by
      rw [home_sbstat, home_queue u (by omega)]
      exact fun e => absurd (e ▸ hf : queueWord n (R.SB_STAT_SAFETY_EVT_LOST).addr) (by simp only [queueWord]; omega))
  have hwr : ∀ u : State, (u.wr (R.QM_Qnn_FLAG_DROPPED n) 1).rd (R.QM_Qnn_DROP_COUNT n) = u.rd (R.QM_Qnn_DROP_COUNT n) := fun u =>
    State.rd_wr_word u 1 (by rw [home_queue u (by omega), home_queue u (by omega)]; exact hne)
  have hbase : ((s.inc (R.QM_Qnn_DROP_COUNT n)).wr (R.QM_Qnn_FLAG_DROPPED n) 1).rd (R.QM_Qnn_DROP_COUNT n) =
      min (s.rd (R.QM_Qnn_DROP_COUNT n) + 1) 0xFFFFFFFF ∧
      ((s.inc (R.QM_Qnn_DROP_COUNT n)).wr (R.QM_Qnn_FLAG_DROPPED n) 1).rd (R.QM_Qnn_FLAG_DROPPED n) = 1 := by
    rw [hwr, State.rd_inc_same s (dropCount_ok n), State.rd_wr_same _ (flagDropped_ok n)]
    exact ⟨rfl, rfl⟩
  unfold State.qLose
  dsimp only
  split
  · rwa [hsb _ _ hcount, hsb _ _ hflag]
  · exact hbase

/-! ### Another queue's registers and items -/

section
variable {n m a : Nat} (hn : n < 64) (hm : m < 64) (hne : m ≠ n) (ha : queueWord m a)
include hn hm hne ha

theorem word_qLose_other (s : State) : (s.qLose n).word a = s.word a := by
  have hself : ∀ u : State, u.home a = a := fun u => home_queue u (by omega)
  have h1 : ∀ u : State, (u.inc (R.QM_Qnn_DROP_COUNT n)).word a = u.word a := fun u =>
    State.word_wr_ne u _ _ (by rw [hself, home_queue u (by simp only; omega)]; simp only; omega)
  have h2 : ∀ u : State, (u.wr (R.QM_Qnn_FLAG_DROPPED n) 1).word a = u.word a := fun u =>
    State.word_wr_ne u _ _ (by rw [hself, home_queue u (by simp only; omega)]; simp only; omega)
  have h3 : ∀ u : State, (u.wr R.SB_STAT_SAFETY_EVT_LOST 1).word a = u.word a := fun u =>
    State.word_wr_ne u _ _ (by rw [hself, home_sbstat]; simp only; omega)
  unfold State.qLose
  dsimp only
  split
  · rw [h3, h2, h1]
  · rw [h2, h1]

omit hn hne in
theorem word_qIrq_other (s : State) : (s.qIrq n).word a = s.word a :=
  State.word_qIrq_ne s n (by rw [home_queue s (by omega)]; simp only; omega) (by rw [home_queue s (by omega)]; simp only; omega)

theorem word_qPush_other (x : List Byte) (s : State) : (s.qPush n x).word a = s.word a := by
  unfold State.qPush
  split
  · rw [word_qIrq_other hm ha, State.word_setQueue]
  · split
    · rfl
    · exact word_qLose_other hn hm hne ha s

theorem word_arbPush_other (x : List Byte) (s : State) : (s.arbPush n x).word a = s.word a := by
  unfold State.arbPush
  dsimp only
  split
  · exact word_qPush_other hn hm hne ha x s
  · split
    · rw [word_qIrq_other hm ha, State.word_setQueue]
    · rw [word_qLose_other hn hm hne ha, State.word_setQueue]

end

theorem queue_qIrq (s : State) (n m : Nat) : (s.qIrq n).queue m = s.queue m := State.queue_congr (s.qIrq_queues n) m

theorem queue_qLose (s : State) (n m : Nat) : (s.qLose n).queue m = s.queue m := State.queue_congr (s.qLose_queues n) m

theorem queue_qPush_other {n m : Nat} (hne : m ≠ n) (x : List Byte) (s : State) : (s.qPush n x).queue m = s.queue m := by
  unfold State.qPush
  split
  · rw [queue_qIrq, State.queue_setQueue_ne s _ hne]
  · split
    · rfl
    · exact queue_qLose s n m

theorem queue_arbPush_other {n m : Nat} (hne : m ≠ n) (x : List Byte) (s : State) : (s.arbPush n x).queue m = s.queue m := by
  unfold State.arbPush
  dsimp only
  split
  · exact queue_qPush_other hne x s
  · split
    · rw [queue_qIrq, State.queue_setQueue_ne s _ hne]
    · rw [queue_qLose, State.queue_setQueue_ne s _ hne]

theorem word_event_other {e : EventId} {m a : Nat} (hr : e.ring < 64) (hm : m < 64) (hne : m ≠ e.ring) (ha : queueWord m a) (src : Nat)
    (d : List Byte) (s : State) : (s.event e src d).word a = s.word a :=
  word_arbPush_other hr hm hne ha _ _

theorem queue_event_other {e : EventId} {m : Nat} (hne : m ≠ e.ring) (src : Nat) (d : List Byte) (s : State) :
    (s.event e src d).queue m = s.queue m :=
  queue_arbPush_other hne _ _

/-! ### A push -/

/-- With a credit the item takes the slot behind the others (01 R36). -/
theorem qPush_credit {s : State} {n : Nat} (hc : 0 < s.qCredit n) (x : List Byte) :
    ((s.qPush n x).queue n).items = (s.queue n).items ++ [x] ∧ ∀ m, m ≠ n → (s.qPush n x).queue m = s.queue m := by
  refine ⟨?_, fun m hm => queue_qPush_other hm x s⟩
  unfold State.qPush
  rw [if_pos hc, queue_qIrq, State.queue_setQueue_same]

theorem qPush_drop {s : State} {n : Nat} (hc : s.qCredit n = 0) (hp : qPolicy n = .drop) (x : List Byte) : s.qPush n x = s.qLose n := by
  unfold State.qPush
  rw [if_neg (by omega), hp]

theorem qPush_wait {s : State} {n : Nat} (hc : s.qCredit n = 0) (hp : qPolicy n = .wait) (x : List Byte) : s.qPush n x = s := by
  unfold State.qPush
  rw [if_neg (by omega), hp]

theorem queuePush_eq {n : Nat} (h : 8 ≤ n) (x : List Byte) (s : State) : queuePush n x s = s.qPush n x := if_neg (by omega)

/-! ### A pop -/

/-- The state after a pop of a queue's oldest item. -/
def State.popped (s : State) (n : Nat) (is : List (List Byte)) : State :=
  (s.setQueue n { s.queue n with items := is }).qPopped n 1

theorem State.qPop_eq {s : State} {n : Nat} {i : List Byte} {is : List (List Byte)} (hi : (s.queue n).items = i :: is)
    (ho : (s.queue n).off = false) : s.qPop n = (some i, s.popped n is) := by
  unfold State.qPop
  rw [hi, ho]
  rfl

theorem items_popped (s : State) (n : Nat) (is : List (List Byte)) : ((s.popped n is).queue n).items = is := by
  unfold State.popped State.qPopped
  rw [State.queue_setQueue_same, State.queue_setQueue_same]

theorem queue_popped_other (s : State) {n m : Nat} (h : m ≠ n) (is : List (List Byte)) : (s.popped n is).queue m = s.queue m := by
  unfold State.popped State.qPopped
  rw [State.queue_setQueue_ne _ _ h, State.queue_setQueue_ne _ _ h]

theorem State.popped_sound {ms : Nat} {sa s : State} (hp : ms &&& 0x8 = 0) (n : Nat) (is : List (List Byte)) (hs : s.Sound ms sa) :
    (s.popped n is).Sound ms sa :=
  State.qPopped_sound hp _ n 1 (State.setQueue_sound hp s n _ hs)

theorem consume_queues (n : Nat) (x : List Byte) (s : State) : (consume n x s).queues = s.queues :=
  (consume_sound (ms := 0x8) rfl n x s (sound_refl _ s)).same .queues rfl

section
variable {s : State} {n : Nat} {i : List Byte} {is : List (List Byte)} (h8 : 8 ≤ n) (h53 : n ≠ 53 ∨ s.ln.bankTick = none)
  (hi : (s.queue n).items = i :: is) (ho : (s.queue n).off = false)
include h8 h53 hi ho

/-- A pop puts out the oldest item, which the parameter queues' consumer writes into its bank. -/
theorem queuePop_item : queuePop n none s =
    { consume n i (s.popped n is) with out := { (consume n i (s.popped n is)).out with item := some i } } := by
  have hswap : ¬ (n = 53 ∧ s.ln.bankTick.isSome) := fun ⟨hn, hs⟩ => h53.elim (fun h => h hn) fun h => by rw [h] at hs; cases hs
  unfold queuePop
  rw [if_neg (by omega), if_neg hswap, State.qPop_eq hi ho]

/-- An item with a parity error is discarded and counted as lost (02 R71). -/
theorem queuePop_parity (a : BitVec 32) :
    queuePop n (some a) s = ((s.popped n is).event Ev.SRAM_PARITY 5 (bytesLE 4 a.toNat)).qLose n := by
  have hswap : ¬ (n = 53 ∧ s.ln.bankTick.isSome) := fun ⟨hn, hs⟩ => h53.elim (fun h => h hn) fun h => by rw [h] at hs; cases hs
  unfold queuePop
  rw [if_neg (by omega), if_neg hswap, State.qPop_eq hi ho]

end

/-- What a pop leaves alone. -/
theorem queuePop_item_frame (s : State) (n : Nat) (i : List Byte) (is : List (List Byte)) (o : Output) :
    SameOutside [.regs, .queues, .ln, .out] s { consume n i (s.cleared.popped n is) with out := o } :=
  sameOutside_of_sound (sound_upd
    (consume_sound (by decide) n i _ (State.popped_sound (by decide) n is (cleared_sound (by decide) (sound_refl _ s))))
    fun p hm => by cases p <;> first | rfl | exact (mask_absurd (by decide : keepMask [.regs, .queues, .ln, .out] &&& 0x80000000 = 0) hm rfl).elim)

/-- A pop that is not the model's to make changes nothing: of Q00 to Q07 while they hold an item, of Q53 while a swap is pending. -/
theorem queuePop_keeps {n : Nat} {s : State} (h : (n < 8 ∧ s.qFill n ≠ 0) ∨ (n = 53 ∧ s.ln.bankTick.isSome = true))
    (bad : Option (BitVec 32)) : queuePop n bad s = s := by
  unfold queuePop
  rcases h with ⟨hn, hf⟩ | ⟨hn, hb⟩
  · rw [if_pos hn, if_neg hf]
  · rw [if_neg (by omega), if_pos ⟨hn, hb⟩]

end Sys2Proof.Machine
end

section
/-! O60: reads and writes of registers by the MP, pushes and pops, each clause from the operation's own lemmas. -/

namespace Sys2Proof.Machine

/-! ### Reads -/

theorem wrapTo_lt (w : Nat) (x : Int) : wrapTo w x < 2 ^ w := by
  have hpos : 0 < ((2 ^ w : Nat) : Int) := Int.natCast_pos.mpr (Nat.two_pow_pos w)
  exact (Int.toNat_lt' (Nat.two_pow_pos w)).mpr (Int.emod_lt_of_pos x hpos)

theorem exec_readClearCounter_register {addr : BitVec 32} {a : Nat} {s : State} (hr : s.Running) (ha : a = addr.toNat / 4 * 4)
    (h : isRegister a = true) : ∃ t, exec (.readClearCounter addr) s = .next t ∧ t.out.readData = some (s.peek a) ∧
      t.word a = s.word a &&& ~~~accessMask a .rc ∧ SameOutside [.regs, .out] s t := by
  subst ha
  refine ⟨_, live_next _ hr, ?_, ?_, registerRead_frame h s⟩
  · rw [registerRead_register h]
    rfl
  · rw [registerRead_register h]
    exact word_readEffects _ s.cleared

theorem exec_readClearCounter_bytes {addr : BitVec 32} {a : Nat} {s : State} (hr : s.Running) (ha : a = addr.toNat / 4 * 4)
    (h : isRegister a = false) (hb : busRange a 4 = true ∨ a + 4 ≤ 0x10000) :
    ∃ t, exec (.readClearCounter addr) s = .next t ∧ t.regs = s.regs ∧
      t.out.readData = some (BitVec.ofNat 32 (ofBytesLE ((List.range 4).map (fun i => s.busByte (a + i))))) := by
  subst ha
  refine ⟨_, live_next _ hr, ?_, ?_⟩ <;> rw [registerRead_bytes h hb] <;> rfl

/-- The ROM's bytes are the build's. -/
theorem exec_readClearCounter_rom {addr : BitVec 32} {a : Nat} {s : State} (hr : s.Running) (ha : a = addr.toNat / 4 * 4)
    (h : a < 0x10000) : ∃ t, exec (.readClearCounter addr) s = .next t ∧ t.regs = s.regs ∧
      t.out.readData = some (BitVec.ofNat 32 (ofBytesLE ((List.range 4).map (fun i => Config.romByte (a + i))))) := by
  obtain ⟨t, ht, hregs, hdata⟩ := exec_readClearCounter_bytes hr ha (isRegister_rom h) (.inr (by omega))
  refine ⟨t, ht, hregs, hdata.trans ?_⟩
  have hrom : (List.range 4).map (fun i => s.busByte (a + i)) = (List.range 4).map (fun i => Config.romByte (a + i)) :=
    List.map_congr_left fun i hi => busByte_rom s (by have := List.mem_range.mp hi; omega)
  rw [hrom]

theorem exec_readClearCounter_unlisted {addr : BitVec 32} {a : Nat} {s : State} (hr : s.Running) (ha : a = addr.toNat / 4 * 4)
    (h : isRegister a = false) (hb : busRange a 4 = false) (hrom : 0x10000 ≤ a) :
    ∃ t, exec (.readClearCounter addr) s = .next t ∧ t.out.readData = some 0 ∧ t.te.evs = s.te.evs ++ [(40, 0x302)] := by
  subst ha
  refine ⟨_, live_next _ hr, ?_, ?_⟩ <;> rw [registerRead_unlisted h hb hrom]
  · rfl
  · exact badAddr_evs s.cleared _ 0 0

/-! ### Writes -/

theorem exec_registerWrite_register {addr : BitVec 32} {v : Word} {a : Nat} {s : State} (hr : s.Running) (ha : a = addr.toNat / 4 * 4)
    (h : isRegister a = true) : exec (.registerWrite addr v) s = .next (regWrite a v s.cleared) :=
  (live_next _ hr).trans (congrArg _ (registerWrite_register v s.cleared ha h))

theorem exec_registerWrite_plain {addr : BitVec 32} {v : Word} {a : Nat} {s : State} (hr : s.Running) (ha : a = addr.toNat / 4 * 4)
    (h : isRegister a = true) (hb : a / 0x10000 = 0x4001 ∨ a / 0x10000 = 0x400F ∨ a / 0x10000 = 0x4010) :
    ∃ t m, exec (.registerWrite addr v) s = .next t ∧
      m = accessMask a .rw ||| (if s.on R.SB_LOCK_LOCKED then 0 else accessMask a .rwl) ∧
      t.word a = ((s.word a &&& ~~~m) ||| (v &&& m)) &&& ~~~(v &&& accessMask a .w1c) ∧
      (∀ b, s.home b ≠ s.home a → t.word b = s.word b) ∧ SameOutside [.regs, .out] s t := by
  obtain ⟨hword, hothers⟩ := word_regWrite_plain hb v s.cleared
  exact ⟨_, s.writable a, exec_registerWrite_register hr ha h, rfl, hword, hothers, regWrite_plain_frame hb v s⟩

theorem exec_registerWrite_memory {addr : BitVec 32} {v : Word} {a : Nat} {s : State} (hr : s.Running) (ha : a = addr.toNat / 4 * 4)
    (h : isRegister a = false) (hm : mpWrites a = true) :
    ∃ t, exec (.registerWrite addr v) s = .next t ∧ t.memBytes a 4 = bytesLE 4 v.toNat ∧
      (∀ x, x < a ∨ a + 4 ≤ x → t.memByte x = s.memByte x) ∧ SameOutside [.mem, .out] s t := by
  have hl : (bytesLE 4 v.toNat).length = 4 := bytesLE_length 4 _
  refine ⟨_, (live_next _ hr).trans (congrArg _ (registerWrite_memory v s.cleared ha h hm)), ?_, fun x hx => ?_, ?_⟩
  · exact s.cleared.memBytes_setMem_same a (bytesLE 4 v.toNat) fun i hi => mpWrites_plainMem hm (by omega) (by omega)
  · exact s.cleared.memByte_setMem_outside a (bytesLE 4 v.toNat) (by omega)
  · exact sameOutside_of_sound (State.setMem_sound (by decide) _ a _ (cleared_sound (by decide) (sound_refl _ s)))

theorem exec_registerWrite_refused {addr : BitVec 32} {v : Word} {a : Nat} {s : State} (hr : s.Running) (ha : a = addr.toNat / 4 * 4)
    (h : isRegister a = false) (hm : mpWrites a = false) :
    ∃ t, exec (.registerWrite addr v) s = .next t ∧ t.mem = s.mem ∧ t.te.evs = s.te.evs ++ [(40, 0x302)] :=
  ⟨_, (live_next _ hr).trans (congrArg _ (registerWrite_refused v s.cleared ha h hm)), State.event_mem s.cleared _ _ _,
    badAddr_evs s.cleared a 1 0⟩

/-! ### Queues -/

theorem exec_qmIrqClear {hi : Bool} {v : Word} {n q : Nat} {s : State} (hr : s.Running) (hn : n < 32)
    (hq : q = n + (if hi then 32 else 0)) : ∃ t, exec (.qmIrqClear hi v) s = .next t ∧
      t.bit (irqFld hi) n = ((s.bit (irqFld hi) n && !testB v.toNat n) || (testB v.toNat n && s.irqDue q)) ∧
      SameOutside [.regs, .out] s t := by
  subst hq
  exact ⟨_, live_next _ hr, bit_qmIrqClear hi v s.cleared hn,
    sameOutside_of_sound (qmIrqClear_sound (by decide) hi v _ (cleared_sound (by decide) (sound_refl _ s)))⟩

theorem exec_queuePush_credit {n : Fin 64} {x : List Byte} {s : State} (hr : s.Running) (h8 : 8 ≤ n.val) (hc : 0 < s.qCredit n) :
    ∃ t, exec (.queuePush n x) s = .next t ∧ (t.queue n).items = (s.queue n).items ++ [x] ∧
      (∀ m, m ≠ n.val → t.queue m = s.queue m) ∧ SameOutside [.regs, .queues, .out] s t := by
  obtain ⟨hitems, hothers⟩ := qPush_credit (s := s.cleared) hc x
  exact ⟨_, (live_next _ hr).trans (congrArg _ (queuePush_eq h8 x _)), hitems, hothers,
    sameOutside_of_sound (State.qPush_sound (by decide) _ n x (cleared_sound (by decide) (sound_refl _ s)))⟩

theorem exec_queuePush_drop {n : Fin 64} {x : List Byte} {s : State} (hr : s.Running) (h8 : 8 ≤ n.val) (hc : s.qCredit n = 0)
    (hp : qPolicy n = .drop) : ∃ t, exec (.queuePush n x) s = .next t ∧
      t.rd (R.QM_Qnn_DROP_COUNT n) = min (s.rd (R.QM_Qnn_DROP_COUNT n) + 1) 0xFFFFFFFF ∧
      t.rd (R.QM_Qnn_FLAG_DROPPED n) = 1 ∧ SameOutside [.regs, .out] s t := by
  obtain ⟨hcount, hflag⟩ := qLose_counts s.cleared n.isLt
  exact ⟨_, (live_next _ hr).trans (congrArg _ ((queuePush_eq h8 x _).trans (qPush_drop (s := s.cleared) hc hp x))), hcount, hflag,
    sameOutside_of_sound (State.qLose_sound (by decide) _ n (cleared_sound (by decide) (sound_refl _ s)))⟩

theorem exec_queuePop_item {n : Fin 64} {i : List Byte} {is : List (List Byte)} {s : State} (hr : s.Running) (h8 : 8 ≤ n.val)
    (h53 : n.val ≠ 53 ∨ s.ln.bankTick = none) (hi : (s.queue n).items = i :: is) (ho : (s.queue n).off = false) :
    ∃ t, exec (.queuePop n none) s = .next t ∧ t.out.item = some i ∧ (t.queue n).items = is ∧
      (∀ m, m ≠ n.val → t.queue m = s.queue m) ∧ SameOutside [.regs, .queues, .ln, .out] s t := by
  have hq := consume_queues n i (s.cleared.popped n is)
  refine ⟨_, (live_next _ hr).trans (congrArg _ (queuePop_item (s := s.cleared) h8 h53 hi ho)), rfl, ?_, fun m hm => ?_,
    queuePop_item_frame s n i is _⟩
  · exact (congrArg Queue.items (State.queue_congr hq n)).trans (items_popped s.cleared n is)
  · exact (State.queue_congr hq m).trans (queue_popped_other s.cleared hm is)

theorem exec_queuePop_parity {n : Fin 64} {i : List Byte} {is : List (List Byte)} {s : State} (hr : s.Running) (h8 : 8 ≤ n.val)
    (h53 : n.val ≠ 53 ∨ s.ln.bankTick = none) (hi : (s.queue n).items = i :: is) (ho : (s.queue n).off = false) (h39 : n.val ≠ 39)
    (a : BitVec 32) : ∃ t, exec (.queuePop n (some a)) s = .next t ∧ t.out.item = none ∧ (t.queue n).items = is ∧
      t.rd (R.QM_Qnn_DROP_COUNT n) = min (s.rd (R.QM_Qnn_DROP_COUNT n) + 1) 0xFFFFFFFF ∧
      t.te.evs = s.te.evs ++ [(39, 0x202)] := by
  have hdrop : ((s.cleared.popped n is).event Ev.SRAM_PARITY 5 (bytesLE 4 a.toNat)).rd (R.QM_Qnn_DROP_COUNT n) =
      s.rd (R.QM_Qnn_DROP_COUNT n) :=
    State.rd_congr (word_event_other (by decide) n.isLt h39 (by simp only [queueWord]; omega) 5 (bytesLE 4 a.toNat) (s.cleared.popped n is))
  refine ⟨_, (live_next _ hr).trans (congrArg _ (queuePop_parity (s := s.cleared) h8 h53 hi ho a)), ?_, ?_, ?_, ?_⟩
  · rw [State.qLose_out, State.event_out]
    rfl
  · rw [queue_qLose, queue_event_other h39]
    exact items_popped s.cleared n is
  · rw [(qLose_counts _ n.isLt).1, hdrop]
  · rw [State.qLose_te, State.event_te]
    rfl

/-- Settles O60: what the MP reads and writes, the watermark bits it clears, the pushes and the pops. -/
theorem registerAccessAndQueues : Obligations.RegisterAccessAndQueues := by
  intro s hr
  obtain ⟨htb, hlast, hpos, hhofs, hseq, hold⟩ := peek_lowerHalf s
  have hplain := lowerHalf_plain
  simp only [List.forall_mem_cons] at hplain
  obtain ⟨ptb, plast, ppos, phofs, pseq, pold, -⟩ := hplain
  have hhi : wrapTo 48 s.fb.hofs / 2 ^ 32 < 2 ^ 16 := Nat.div_lt_of_lt_mul (wrapTo_lt 48 _)
  refine ⟨registerRead_latch hr ptb (by decide) htb rfl rfl, registerRead_latch hr plast (by decide) hlast rfl rfl,
    registerRead_latch hr ppos (by decide) hpos rfl rfl, registerRead_latch hr phofs (by decide) hhofs rfl (Nat.mod_eq_of_lt hhi),
    registerRead_latch hr pseq (by decide) hseq rfl rfl, registerRead_latch hr pold (by decide) hold rfl rfl,
    fun r => registerRead_latch hr (triggerHalf_plain r) ⟨Nat.zero_le _, by simp only; omega⟩ (peek_triggerHalf s r)
      (latchOf_triggerHalf s r) rfl,
    fun addr a ha => ⟨exec_readClearCounter_register hr ha, fun h hb => exec_readClearCounter_bytes hr ha h (.inl hb),
      exec_readClearCounter_rom hr ha, exec_readClearCounter_unlisted hr ha⟩,
    fun addr v a ha => ⟨fun h hw => ?_, exec_registerWrite_plain hr ha,
      fun h hm => exec_registerWrite_memory hr ha h ((mpWrites_iff a).mpr hm), exec_registerWrite_refused hr ha⟩,
    fun hi v n q hn hq => ?_,
    fun n x => ⟨fun h => ?_, exec_queuePush_credit hr, exec_queuePush_drop hr, fun h8 hc hp => ?_⟩,
    fun n i is h8 h53 hi ho => ⟨exec_queuePop_item hr h8 h53 hi ho, fun a h39 => exec_queuePop_parity hr h8 h53 hi ho h39 a⟩,
    fun n bad h => (live_next _ hr).trans (congrArg _ (queuePop_keeps (s := s.cleared) h bad))⟩
  · rw [exec_registerWrite_register hr ha h, regWrite_of_not_takesWrite hw]
  · obtain ⟨t, ht, hbit, hframe⟩ := exec_qmIrqClear (v := v) hr hn hq
    refine ⟨t, ht, ?_, hframe⟩
    rw [Bool.and_assoc]
    exact hbit
  · exact (live_next _ hr).trans (congrArg _ (if_pos h))
  · exact (live_next _ hr).trans (congrArg _ ((queuePush_eq h8 x _).trans (qPush_wait (s := s.cleared) hc hp x)))

end Sys2Proof.Machine
end

section
/-! O8: a tick boundary that takes an index edge of the last cycle before it (07 R250). The edge belongs to the boundary after its latch;
ENC_Z is latched 3 cyc after it rose (07 R253, R256), which is past the boundary, and TB goes there. -/

namespace Sys2Proof.Machine

/-- The feedback block runs with ABZ as the index source, without qualification by A and B, and ENC_Z rises in the tick's last cycle. -/
def indexEdgeAtTickEnd : State :=
  indexLatch true { ((State.reset.wr R.FB_CTL_EN 1).wr R.FB_SEL_IDXSRC 1).wr R.FB_ABZ_CFG_ZQUAL 0 with time.tb := 9999 }

/-- A tick without a demand of an input, a lever value, sigma-delta bits or an upset byte. -/
def quietTick : TickInputs := { safety := Vector.replicate 6 true, brkFb := true, lever := none, sd := [], upset := none }

/-- The edge waits for the boundary at TB 10,000, with no step of TB pending. -/
theorem indexEdgeAtTickEnd_waits : indexEdgeAtTickEnd.Running ∧ indexEdgeAtTickEnd.fb.abz.late = [.index true 9999] ∧
    indexEdgeAtTickEnd.time.stepTo = none ∧ indexEdgeAtTickEnd.time.tbLast + indexEdgeAtTickEnd.period = 10000 := by
  decide +kernel

/-- The boundary takes the edge, and TB stands 3 cyc after it. -/
theorem tickBoundary_indexEdgeAtTickEnd : (tickBoundary quietTick indexEdgeAtTickEnd.cleared).time.tb = 10002 := by
  decide +kernel

/-- Refutes O8: the boundary at TB 10,000 leaves TB at 10,002 where it latches an index edge of the cycle before it. -/
theorem not_timeIsRateOnlyWhileTheDriveIsOn : ¬ Obligations.TimeIsRateOnlyWhileTheDriveIsOn := by
  rintro ⟨hboundary, -⟩
  obtain ⟨hr, -, hstep, hend⟩ := indexEdgeAtTickEnd_waits
  obtain ⟨t, ht, -, htime, -⟩ := hboundary quietTick indexEdgeAtTickEnd hr
  obtain ⟨htb, -⟩ := htime (.inr hstep)
  cases (live_next (tickBoundary quietTick) hr).symm.trans ht
  rw [tickBoundary_indexEdgeAtTickEnd, hend] at htb
  exact absurd htb (by decide)

end Sys2Proof.Machine
end

section
/-! O59: a pop from a queue that holds no item, or whose consumer is disabled (01 R38, R39). -/

namespace Sys2Proof.Machine

theorem flagUnderrun_ok (n : Nat) : (R.QM_Qnn_FLAG_UNDERRUN n).Ok := ⟨Nat.le_refl _, by simp only; omega⟩

/-- A register of the queue manager changes no queue's credit: a fill counts items and the pointers of the host block. -/
theorem State.qCredit_wr_queue (s : State) {f : Fld} (hf : 0x40020000 ≤ f.addr ∧ f.addr < 0x40030000) (v m : Nat) :
    (s.wr f v).qCredit m = s.qCredit m := by
  have hfill : (s.wr f v).qFill m = s.qFill m :=
    State.qFill_congr rfl fun a ha => word_wr_queue s v (hostPointer_apart ha) hf
  unfold State.qCredit
  rw [hfill]
  rfl

/-- UNDERRUN of a queue set: it reads 1, and every queue's credit stands. -/
theorem underrun_set (s : State) (n : Nat) : (s.wr (R.QM_Qnn_FLAG_UNDERRUN n) 1).rd (R.QM_Qnn_FLAG_UNDERRUN n) = 1 ∧
    ∀ m, (s.wr (R.QM_Qnn_FLAG_UNDERRUN n) 1).qCredit m = s.qCredit m :=
  ⟨State.rd_wr_same s (flagUnderrun_ok n) 1, s.qCredit_wr_queue (by simp only; omega) 1⟩

theorem State.qPop_none {s : State} {n : Nat} (h : (s.queue n).items = [] ∨ (s.queue n).off = true) :
    s.qPop n = (none, s.wr (R.QM_Qnn_FLAG_UNDERRUN n) 1) := by
  unfold State.qPop
  rcases h with hi | ho
  · cases (s.queue n).off <;> rw [hi]
  · rw [ho]

theorem queuePop_none_host {n : Nat} {s : State} (hn : n < 8) (hf : s.qFill n = 0) (bad : Option (BitVec 32)) :
    queuePop n bad s = s.wr (R.QM_Qnn_FLAG_UNDERRUN n) 1 := by
  unfold queuePop
  rw [if_pos hn, if_pos hf]

theorem queuePop_none {n : Nat} {s : State} (h8 : 8 ≤ n) (h53 : n ≠ 53 ∨ s.ln.bankTick = none)
    (h : (s.queue n).items = [] ∨ (s.queue n).off = true) (bad : Option (BitVec 32)) :
    queuePop n bad s = s.wr (R.QM_Qnn_FLAG_UNDERRUN n) 1 := by
  have hswap : ¬ (n = 53 ∧ s.ln.bankTick.isSome) := fun ⟨hn, hs⟩ => h53.elim (fun h => h hn) fun h => by rw [h] at hs; cases hs
  unfold queuePop
  rw [if_neg (by omega), if_neg hswap, State.qPop_none h]

/-- QUEUE_POP where the pop gives no item. -/
theorem exec_queuePop_none {n : Fin 64} {bad : Option (BitVec 32)} {s : State} (hr : s.Running)
    (h : queuePop n bad s.cleared = s.cleared.wr (R.QM_Qnn_FLAG_UNDERRUN n) 1) :
    ∃ t, exec (.queuePop n bad) s = .next t ∧ t.out.item = none ∧ t.rd (R.QM_Qnn_FLAG_UNDERRUN n) = 1 ∧
      (∀ m, t.qCredit m = s.qCredit m) ∧ SameOutside [.regs, .out] s t := by
  obtain ⟨hflag, hcredit⟩ := underrun_set s.cleared n
  refine ⟨_, (live_next _ hr).trans (congrArg _ h), rfl, hflag, hcredit, ?_⟩
  exact sameOutside_of_sound (State.wr_sound (by decide) s.cleared _ 1
    (addrOutside_all (by decide)) (cleared_sound (by decide) (sound_refl _ s)))

/-- Settles O59: such a pop is a write of UNDERRUN, which no credit depends on. -/
theorem popOfAnEmptyQueue : Obligations.PopOfAnEmptyQueue := by
  intro s
  refine ⟨fun n _ h => ?_, fun n bad hr hn hf => exec_queuePop_none hr (queuePop_none_host (s := s.cleared) hn hf bad),
    fun n bad hr h8 h53 h => exec_queuePop_none hr (queuePop_none (s := s.cleared) h8 h53 h bad)⟩
  rw [State.qPop_none h]
  exact ⟨rfl, underrun_set s n⟩

end Sys2Proof.Machine
end

section
/-! O39: LINK_DOWN of a port whose transmit queue is disabled while it holds an item. Disabling a consumer flushes its queue (01 R39) and
a disabled queue has no credit, so no step leads to such a state; but the statement is about every running state, and its clause on
LINK_DOWN asks for an empty transmit queue. `State.qConsumer` leaves a queue alone that is disabled already. -/

namespace Sys2Proof.Machine

/-- Port 0 is up, and its transmit queue is disabled with an item in it. -/
def portUpQueueOff : State :=
  (State.reset.wr (R.BL_Pp_STAT_UP 0) 1).setQueue (txQueue 0) { items := [[]], off := true }

theorem portUpQueueOff_up : portUpQueueOff.Running ∧ portUpQueueOff.portUp 0 = true := by decide +kernel

theorem linkDown_portUpQueueOff_items :
    ((linkDown 0 false portUpQueueOff.cleared).queue (txQueue 0)).items = [[]] := by decide +kernel

/-- Refutes O39: LINK_DOWN does not flush a transmit queue that is disabled already. -/
theorem not_linkPortsAndCells : ¬ Obligations.LinkPortsAndCells := by
  intro h
  obtain ⟨hr, hup⟩ := portUpQueueOff_up
  obtain ⟨-, -, hdown, -⟩ := h 0 portUpQueueOff hr
  obtain ⟨t, ht, -, -, -, -, hitems, -⟩ := hdown false hup
  cases (live_next (linkDown 0 false) hr).symm.trans ht
  exact absurd (hitems.symm.trans linkDown_portUpQueueOff_items) (by decide)

end Sys2Proof.Machine
end

section
/-! SUPPORT. The registers of the Signal Box: what a field reads after the writes, the events and the safety faults that leave it alone. -/

namespace Sys2Proof.Machine

/-! ### Words that stand at their own address -/

/-- A word of the Signal Box (10 R373). -/
abbrev sbWord (a : Nat) : Prop := 0x400B0000 ≤ a ∧ a < 0x400C0000

theorem home_sbWord (s : State) {a : Nat} (h : sbWord a) : s.home a = a :=
  State.home_self s a (by omega) (by omega) (by omega)

/-- A word depends on the registers and on the bank in force alone. -/
theorem State.word_congr_regs {s t : State} (hr : t.regs = s.regs) (hl : t.ln = s.ln) (a : Nat) : t.word a = s.word a := by
  unfold State.word State.home
  rw [hr, hl]

theorem State.rd_congr_regs {s t : State} (hr : t.regs = s.regs) (hl : t.ln = s.ln) (f : Fld) : t.rd f = s.rd f :=
  State.rd_congr (State.word_congr_regs hr hl f.addr)

/-- What the Signal Box holds beside its registers is no register. -/
theorem State.rd_with_sb (s : State) (x : SbState) (f : Fld) : { s with sb := x }.rd f = s.rd f := rfl

/-- An operation that leaves a block of registers alone leaves its fields, where their word stands at its own address. -/
theorem State.Sound.rd_eq {m : Nat} {s t : State} {f : Fld} (h : t.Sound m s) (hs : s.home f.addr = f.addr) (ht : t.home f.addr = f.addr)
    (hm : m.testBit (unitBit f.addr) = true) : t.rd f = s.rd f := by
  refine State.rd_congr ?_
  unfold State.word
  rw [hs, ht]
  exact h.words _ hm

/-! ### Fields of the Signal Box -/

/-- A write of `f` does not reach `g`: another word, or other bits of the same one. -/
abbrev Fld.Misses (f g : Fld) : Prop := g.addr ≠ f.addr ∨ (f.Ok ∧ f.Apart g)

/-- A field of the Signal Box that no write of the fields listed reaches. -/
abbrev Fld.ClearOf (g : Fld) (fs : List Fld) : Prop := sbWord g.addr ∧ ∀ f ∈ fs, sbWord f.addr ∧ f.Misses g

theorem Fld.ClearOf.mono {g : Fld} {fs gs : List Fld} (h : g.ClearOf fs) (hsub : gs ⊆ fs) : g.ClearOf gs :=
  ⟨h.1, fun f hf => h.2 f (hsub hf)⟩

theorem State.rd_wr_clear (s : State) {f g : Fld} {fs : List Fld} (h : g.ClearOf fs) (hf : f ∈ fs) (v : Nat) : (s.wr f v).rd g = s.rd g := by
  obtain ⟨hg, hall⟩ := h
  obtain ⟨hfa, hmiss⟩ := hall f hf
  by_cases ha : g.addr = f.addr
  · obtain ⟨hok, hapart⟩ := hmiss.resolve_left (not_not_intro ha)
    exact s.rd_wr_apart hok hapart ha v
  · exact s.rd_wr_word v (by rwa [home_sbWord s hg, home_sbWord s hfa])

theorem State.rd_wrBit_clear (s : State) {f g : Fld} {fs : List Fld} (h : g.ClearOf fs) (hf : f ∈ fs) (n : Nat) (v : Bool) :
    (s.wrBit f n v).rd g = s.rd g :=
  s.rd_wr_clear h hf _

/-! ### Events -/

/-- What the arbiter of a ring writes in the Signal Box: the loss of a record of Q38 (01 R40). -/
abbrev eventFlds : List Fld := [R.SB_STAT_SAFETY_EVT_LOST]

section
variable {g : Fld} (h : g.ClearOf eventFlds)
include h

theorem rd_qLose_clear (s : State) (n : Nat) : (s.qLose n).rd g = s.rd g := by
  have hq : ∀ (u : State) (f : Fld) (v : Nat), 0x40020000 ≤ f.addr ∧ f.addr < 0x40030000 → (u.wr f v).rd g = u.rd g := fun u f v hf =>
    u.rd_wr_word v (by rw [home_sbWord u h.1, home_queue u hf]; have := h.1; omega)
  unfold State.qLose State.inc State.add
  dsimp only
  split
  · rw [State.rd_wr_clear _ h (by decide), hq _ _ _ (by simp only; omega), hq _ _ _ (by simp only; omega)]
  · rw [hq _ _ _ (by simp only; omega), hq _ _ _ (by simp only; omega)]

theorem rd_qIrq_clear (s : State) (n : Nat) : (s.qIrq n).rd g = s.rd g := by
  have hg := h.1
  exact State.rd_congr (State.word_qIrq_ne s n (by rw [home_sbWord s hg]; simp only; omega) (by rw [home_sbWord s hg]; simp only; omega))

theorem rd_qPush_clear (s : State) (n : Nat) (x : List Byte) : (s.qPush n x).rd g = s.rd g := by
  unfold State.qPush
  split
  · rw [rd_qIrq_clear h]
    rfl
  · split
    · rfl
    · exact rd_qLose_clear h s n

theorem rd_arbPush_clear (s : State) (n : Nat) (x : List Byte) : (s.arbPush n x).rd g = s.rd g := by
  unfold State.arbPush
  dsimp only
  split
  · exact rd_qPush_clear h s n x
  · split
    · rw [rd_qIrq_clear h]
      rfl
    · rw [rd_qLose_clear h]
      rfl

/-- An event leaves the fields of the Signal Box but SAFETY_EVT_LOST. -/
theorem rd_event_clear (s : State) (e : EventId) (src : Nat) (d : List Byte) : (s.event e src d).rd g = s.rd g :=
  rd_arbPush_clear h _ _ _

end

/-! ### Gates, outputs, the low-side supply -/

@[simp] theorem State.gateRefresh_regs (s : State) : s.gateRefresh.regs = s.regs :=
  (State.gateRefresh_sound (ms := 0x1) rfl s (sound_refl _ s)).same .regs rfl
@[simp] theorem State.gateRefresh_ln (s : State) : s.gateRefresh.ln = s.ln :=
  (State.gateRefresh_sound (ms := 0x80) rfl s (sound_refl _ s)).same .ln rfl
@[simp] theorem State.gateRefresh_sb (s : State) : s.gateRefresh.sb = s.sb :=
  (State.gateRefresh_sound (ms := 0x100000) rfl s (sound_refl _ s)).same .sb rfl
@[simp] theorem State.gateRefresh_te (s : State) : s.gateRefresh.te = s.te :=
  (State.gateRefresh_sound (ms := 0x2000000) rfl s (sound_refl _ s)).same .te rfl
@[simp] theorem State.rd_gateRefresh (s : State) (f : Fld) : s.gateRefresh.rd f = s.rd f :=
  State.rd_congr_regs s.gateRefresh_regs s.gateRefresh_ln f

/-- The chain does not read the drivers that it commands. -/
theorem State.gateChain_gateRefreshOne (s : State) (c k : Nat) : (s.gateRefreshOne c).gateChain k = s.gateChain k := by
  unfold State.gateRefreshOne
  dsimp only
  split
  · rfl
  · split <;> rfl

theorem State.gch_setGch (s : State) (f : GdChan → GdChan) (c : Nat) {k : Nat} (hk : k < 7) :
    (s.setGch c f).gch k = if k = c then f (s.gch k) else s.gch k := by
  unfold State.gch State.setGch
  simp [hk]

theorem State.drive_gateRefreshOne (s : State) (c : Nat) {k : Nat} (hk : k < 7) :
    ((s.gateRefreshOne c).gch k).drive = if k = c then s.gateChain c else (s.gch k).drive := by
  unfold State.gateRefreshOne
  dsimp only
  split
  next h =>
    split
    next hkc => rw [hkc, h]
    next => rfl
  next =>
    split
    next h => rw [State.gch_setGch s _ c hk, h]; split <;> rfl
    next h => rw [State.gch_setGch s _ c hk, Bool.eq_false_of_not_eq_true h]; split <;> rfl

theorem State.drive_foldl_gateRefreshOne (l : List Nat) (s : State) {k : Nat} (hk : k < 7) :
    ((l.foldl State.gateRefreshOne s).gch k).drive = if k ∈ l then s.gateChain k else (s.gch k).drive := by
  induction l generalizing s with
  | nil => simp
  | cons c l ih =>
    rw [List.foldl_cons, ih, State.gateChain_gateRefreshOne, State.drive_gateRefreshOne s c hk]
    by_cases hl : k ∈ l
    · simp [hl]
    · by_cases hc : k = c <;> simp [hl, hc]

/-- Every driver stands as the chain has it (10 R345). -/
theorem State.drive_gateRefresh (s : State) {k : Nat} (hk : k < 7) : (s.gateRefresh.gch k).drive = s.gateChain k := by
  unfold State.gateRefresh
  rw [State.drive_foldl_gateRefreshOne _ s hk, if_pos (List.mem_range.mpr hk)]

/-- STO and GOFF take every GATE_EN (10 R345, R350). -/
theorem State.gateChain_off {s : State} (h : s.on R.SB_STAT_STO = true ∨ s.on R.SB_REQM_GATE_GOFF = true) (c : Nat) :
    s.gateChain c = false := by
  unfold State.gateChain
  rcases h with h | h <;> simp [h]

theorem State.soutRefresh_eq (s : State) : s.soutRefresh = s.wr R.SB_STAT_SBCSET (b2n !s.sout0) := rfl

theorem supplySet_sb (on : Bool) (s : State) : ∃ b t, (supplySet on s).sb = { s.sb with supply := b, supplyAt := t } := by
  unfold supplySet
  split
  · exact ⟨_, _, rfl⟩
  · cases on <;> exact ⟨_, _, rfl⟩

theorem supplySet_off (s : State) : (supplySet false s).sb.supply = false := by
  unfold supplySet
  split
  next h => simpa using h
  next => rfl

@[simp] theorem supplySet_te (on : Bool) (s : State) : (supplySet on s).te = s.te :=
  (supplySet_sound (ms := 0x2000000) rfl on s (sound_refl _ s)).same .te rfl
@[simp] theorem supplySet_gd (on : Bool) (s : State) : (supplySet on s).gd = s.gd :=
  (supplySet_sound (ms := 0x4000) rfl on s (sound_refl _ s)).same .gd rfl

/-- The low-side supply writes GSUP alone. -/
theorem rd_supplySet_clear {g : Fld} (h : g.ClearOf [R.SB_STAT_GSUP]) (on : Bool) (s : State) : (supplySet on s).rd g = s.rd g := by
  unfold supplySet
  split
  · rfl
  · dsimp only
    split
    · rfl
    · exact State.rd_wr_clear _ h (by decide) 0

/-! ### Safety faults and the monitoring of a boundary -/

/-- What a safety fault writes (10 R357). -/
abbrev faultFlds : List Fld := [R.SB_FIRST_CODE, R.SB_FIRST_TICK, R.SB_SFLT, R.SB_STAT_LOCKOUT, R.SB_STAT_SBCSET, R.SB_STAT_GSUP,
  R.SB_STAT_SAFETY_EVT_LOST]

theorem rd_safetyFault_clear {g : Fld} (h : g.ClearOf faultFlds) (bit : Nat) (s : State) : (safetyFault bit s).rd g = s.rd g := by
  have hw : ∀ (u : State) {f : Fld} (v : Nat), f ∈ faultFlds → (u.wr f v).rd g = u.rd g := fun u f v hf => u.rd_wr_clear h hf v
  unfold safetyFault
  dsimp only
  split
  · rfl
  · rw [rd_event_clear (h.mono (by decide)), rd_supplySet_clear (h.mono (by decide)), State.soutRefresh_eq, hw _ _ (by decide),
      State.rd_gateRefresh, hw _ _ (by decide), State.rd_wrBit_clear _ h (by decide)]
    split
    · rw [hw _ _ (by decide), hw _ _ (by decide)]
      rfl
    · rfl

theorem rd_guardRefresh_clear {g : Fld} (h : g.ClearOf [R.SB_STAT_GUARDDONE]) (s : State) : (guardRefresh s).rd g = s.rd g := by
  unfold guardRefresh
  dsimp only
  split
  · rfl
  · exact s.rd_wr_clear h (by decide) 1

theorem rd_slsTick_clear {g : Fld} (h : g.ClearOf (R.SB_STAT_SLS :: R.SB_STAT_SLSMON :: faultFlds)) (s : State) :
    (slsTick s).rd g = s.rd g := by
  have hw : ∀ (u : State) {f : Fld} (v : Nat), f ∈ R.SB_STAT_SLS :: R.SB_STAT_SLSMON :: faultFlds → (u.wr f v).rd g = u.rd g :=
    fun u f v hf => u.rd_wr_clear h hf v
  have hf : g.ClearOf faultFlds := h.mono (by decide)
  unfold slsTick
  dsimp only
  split
  · exact (State.rd_with_sb _ _ g).trans ((hw _ 0 (by decide)).trans (hw _ 0 (by decide)))
  · have hsel : ∀ x, { s.wr R.SB_STAT_SLS 1 with sb := x }.rd g = s.rd g := fun x =>
      (State.rd_with_sb _ _ g).trans (hw s 1 (by decide))
    split
    · split
      · rw [rd_safetyFault_clear hf, hw _ _ (by decide), hsel]
      · rw [hw _ _ (by decide), hsel]
    · exact hsel _

theorem rd_ss1Over_clear {g : Fld} (h : g.ClearOf [R.SB_STAT_SS1]) (s : State) : (ss1Over s).rd g = s.rd g :=
  (State.rd_with_sb _ _ g).trans (s.rd_wr_clear h (by decide) 0)

theorem rd_ss1EndIfDue_clear {g : Fld} (h : g.ClearOf [R.SB_STAT_SS1]) (s : State) : (ss1EndIfDue s).rd g = s.rd g := by
  unfold ss1EndIfDue
  split
  · rfl
  · dsimp only
    split
    · exact rd_ss1Over_clear h s
    · rfl

theorem rd_ss1Tick_clear {g : Fld} (h : g.ClearOf (R.SB_STAT_SS1 :: faultFlds)) (s : State) : (ss1Tick s).rd g = s.rd g := by
  have hs : g.ClearOf [R.SB_STAT_SS1] := h.mono (by decide)
  unfold ss1Tick
  dsimp only
  split
  · rw [rd_ss1EndIfDue_clear hs]
    refine (apply_ite (State.rd · g) _ _ _).trans ?_
    rw [rd_safetyFault_clear (h.mono (by decide))]
    exact (ite_self _).trans (State.rd_with_sb _ _ g)
  · split
    · rfl
    · split
      · rfl
      · split
        · refine (State.rd_congr_regs ?_ ?_ g).trans (s.rd_wr_clear hs (List.mem_singleton_self _) 1) <;> rfl
        · exact rd_ss1Over_clear hs s

end Sys2Proof.Machine
end

section
/-! SUPPORT. The safety inputs, STO and SS1 of the Signal Box (10 R346, R347, R350–R352), and the gate-off request (R345). -/

namespace Sys2Proof.Machine

/-! ### Inputs -/

/-- The filtered level of an input as a field of SB.IN_STAT. -/
abbrev inFld (i : Nat) : Fld := ⟨(R.SB_IN_STAT_STO_N).addr, i, i⟩

theorem State.inLevel_eq_on (s : State) (i : Nat) : s.inLevel i = s.on (inFld i) := by
  unfold State.inLevel State.on State.rd Fld.get Fld.width
  rw [testB_eq_testBit, Nat.testBit_eq_decide_div_mod_eq]
  simp only [Nat.add_sub_cancel_left, Nat.pow_one]
  rcases Nat.mod_two_eq_zero_or_one ((s.word R.SB_IN_STAT_STO_N.addr).toNat / 2 ^ i) with h | h <;> simp [h]

theorem State.inLevel_congr {s t : State} {i : Nat} (h : t.rd (inFld i) = s.rd (inFld i)) : t.inLevel i = s.inLevel i := by
  rw [State.inLevel_eq_on, State.inLevel_eq_on]
  unfold State.on
  rw [h]

/-- A level accepted is written into the input's bit; what follows from it writes no register. -/
theorem rd_inputAccept (i : Nat) (level : Bool) (s : State) (f : Fld) :
    (inputAccept i level s).rd f = if s.inLevel i = level then s.rd f else (s.wr (inFld i) (b2n level)).rd f := by
  unfold inputAccept
  split
  · rfl
  · dsimp only
    split
    · have h := srstEdge_sound (ms := 0x81) rfl level (s.wr (inFld i) (b2n level)) (sound_refl _ _)
      exact State.rd_congr_regs (h.same .regs rfl) (h.same .ln rfl) f
    · have h := guardTrack_sound (ms := 0x81) rfl i level (s.wr (inFld i) (b2n level)) (sound_refl _ _)
      exact State.rd_congr_regs (h.same .regs rfl) (h.same .ln rfl) f

theorem inLevel_inputAccept {i : Nat} (hi : i < 32) (level : Bool) (s : State) : (inputAccept i level s).inLevel i = level := by
  rw [State.inLevel_eq_on]
  unfold State.on
  rw [rd_inputAccept]
  split
  next h => rw [← h, State.inLevel_eq_on]; rfl
  next h => exact s.on_wr_same (f := inFld i) rfl hi level

/-! ### STO -/

/-- A low STO_N demands STO (10 R346, R350). -/
theorem State.stoDemand_of_stoN {s : State} (h : s.inLevel 0 = false) : s.stoDemand = true := by
  have hin : s.inDemands 1 = true := List.any_eq_true.mpr ⟨0, by decide, by simp [State.inRole, h]⟩
  unfold State.stoDemand
  simp [hin]

theorem State.stoDemand_of_ss1Ended {s : State} (h : s.sb.ss1Ended = true) : s.stoDemand = true := by
  unfold State.stoDemand
  simp [h]

/-- What the decision for STO writes (10 R350). -/
abbrev stoFlds : List Fld := [R.SB_STAT_STO, R.SB_STAT_SS1, R.SB_STAT_SBCSET, R.SB_STAT_GSUP, R.SB_STAT_SAFETY_EVT_LOST]

/-- The state with the Signal Box's own part replaced. -/
def State.setSb (s : State) (x : SbState) : State := { s with sb := x }

@[simp] theorem State.rd_setSb (s : State) (x : SbState) (f : Fld) : (s.setSb x).rd f = s.rd f := rfl

/-- What the decision for STO makes of a running SS1 (10 R350, R352). -/
def ss1Dropped (s : State) : State :=
  (s.wr R.SB_STAT_SS1 0).setSb { s.sb with
    ss1At := none, ss1T := false, ss1R := false, ss1Ended := s.sb.ss1Ended || s.sb.ss1At.isSome, testAt := s.time.tb, testDue := false }

/-- The state with the decision for STO taken and SS1 ended, before the gates, the outputs and the supply follow. -/
def stoDecided (s : State) : State := ss1Dropped (s.wr R.SB_STAT_STO 1)

theorem stoSet_eq (s : State) : stoSet s = (supplySet false (stoDecided s).gateRefresh.soutRefresh).event Ev.STO_ON 0 := by
  unfold stoSet stoDecided ss1Dropped State.setSb
  rfl

theorem rd_stoDecided (s : State) (f : Fld) : (stoDecided s).rd f = ((s.wr R.SB_STAT_STO 1).wr R.SB_STAT_SS1 0).rd f := by
  unfold stoDecided ss1Dropped
  exact State.rd_setSb _ _ f

theorem rd_stoDecided_sto (s : State) : (stoDecided s).rd R.SB_STAT_STO = 1 := by
  rw [rd_stoDecided, State.rd_wr_clear (fs := [R.SB_STAT_SS1]) _ (by decide) (by decide), State.rd_wr_same _ (by decide)]
  rfl

theorem rd_stoDecided_clear {g : Fld} (h : g.ClearOf stoFlds) (s : State) : (stoDecided s).rd g = s.rd g := by
  rw [rd_stoDecided, State.rd_wr_clear _ h (by decide), State.rd_wr_clear _ h (by decide)]

/-- What follows a change of STO, SBCSET, the supply and the event, leaves STO itself. -/
theorem rd_stoSet {g : Fld} (h : g.ClearOf [R.SB_STAT_SBCSET, R.SB_STAT_GSUP, R.SB_STAT_SAFETY_EVT_LOST]) (s : State) :
    (stoSet s).rd g = (stoDecided s).rd g := by
  rw [stoSet_eq, rd_event_clear (h.mono (by decide)), rd_supplySet_clear (h.mono (by decide)), State.soutRefresh_eq,
    State.rd_wr_clear _ h (by decide), State.rd_gateRefresh]

theorem stoSet_sto (s : State) : (stoSet s).on R.SB_STAT_STO = true := by
  unfold State.on
  rw [rd_stoSet (by decide), rd_stoDecided_sto]
  rfl

/-- STO takes the low-side supply and every gate driver, and raises STO_ON (10 R350, R351). -/
theorem stoSet_acts (s : State) : (stoSet s).sb.supply = false ∧ (38, 0x0101) ∈ (stoSet s).te.evs ∧
    ∀ c, c < 7 → ((stoSet s).gch c).drive = false := by
  have hsto : (stoDecided s).on R.SB_STAT_STO = true := by
    unfold State.on
    rw [rd_stoDecided_sto]
    rfl
  rw [stoSet_eq]
  refine ⟨?_, ?_, fun c hc => ?_⟩
  · rw [State.event_sb]
    exact supplySet_off _
  · rw [State.event_te]
    exact List.mem_append_right _ (List.mem_singleton_self _)
  · have hgd : ((supplySet false (stoDecided s).gateRefresh.soutRefresh).event Ev.STO_ON 0).gd = (stoDecided s).gateRefresh.gd := by
      rw [State.event_gd, supplySet_gd, State.soutRefresh_eq, State.wr_gd]
    unfold State.gch
    rw [hgd]
    exact ((stoDecided s).drive_gateRefresh hc).trans (State.gateChain_off (.inl hsto) c)

theorem stoOffIfDue_due {s : State} (hsto : s.on R.SB_STAT_STO = true) (hdem : s.stoDemand = false) (hgsup : s.on R.SB_STAT_GSUP = true) :
    stoOffIfDue s = ((s.wr R.SB_STAT_STO 0).gateRefresh.soutRefresh).event Ev.STO_OFF 0 :=
  if_pos ⟨hsto, by rw [hdem]; rfl, hgsup⟩

theorem stoOffIfDue_keeps {s : State} (h : s.on R.SB_STAT_STO = false ∨ s.stoDemand = true ∨ s.on R.SB_STAT_GSUP = false) :
    stoOffIfDue s = s := by
  refine if_neg ?_
  rintro ⟨hsto, hdem, hgsup⟩
  rcases h with h | h | h
  · rw [h] at hsto; cases hsto
  · rw [h] at hdem; cases hdem
  · rw [h] at hgsup; cases hgsup

theorem rd_stoOffIfDue_clear {g : Fld} (h : g.ClearOf stoFlds) (s : State) : (stoOffIfDue s).rd g = s.rd g := by
  unfold stoOffIfDue
  split
  · rw [rd_event_clear (h.mono (by decide)), State.soutRefresh_eq, State.rd_wr_clear _ h (by decide), State.rd_gateRefresh,
      State.rd_wr_clear _ h (by decide)]
  · rfl

theorem rd_gsupTick_clear {g : Fld} (h : g.ClearOf [R.SB_STAT_GSUP]) (s : State) : (gsupTick s).rd g = s.rd g := by
  unfold gsupTick
  dsimp only
  rw [State.rd_wr_clear _ h (by decide)]
  split <;> rfl

theorem rd_stoTick_clear {g : Fld} (h : g.ClearOf stoFlds) (s : State) : (stoTick s).rd g = s.rd g := by
  unfold stoTick
  split
  · split
    · rfl
    · rw [rd_stoSet (h.mono (by decide)), rd_stoDecided_clear h]
  · rw [rd_stoOffIfDue_clear h, rd_gsupTick_clear (h.mono (by decide))]
    split
    · exact rd_supplySet_clear (h.mono (by decide)) true s
    · rfl

/-! ### A change of an input -/

/-- What stands between a level accepted and the decision for STO (10 R346, R347). -/
def inputFollowed (i : Nat) (level : Bool) (s : State) : State := ss1Tick (slsTick (guardRefresh (inputAccept i level s)))

/-- What it writes. -/
abbrev followFlds : List Fld := R.SB_STAT_GUARDDONE :: R.SB_STAT_SLS :: R.SB_STAT_SLSMON :: R.SB_STAT_SS1 :: faultFlds

theorem rd_inputFollowed_clear {g : Fld} (h : g.ClearOf followFlds) (i : Nat) (level : Bool) (s : State) :
    (inputFollowed i level s).rd g = (inputAccept i level s).rd g := by
  unfold inputFollowed
  rw [rd_ss1Tick_clear (h.mono (by decide)), rd_slsTick_clear (h.mono (by decide)), rd_guardRefresh_clear (h.mono (by decide))]

theorem inFld_clear : ∀ i : Fin 6, (inFld i).ClearOf followFlds ∧ (inFld i).ClearOf stoFlds := by decide

theorem inFld_misses_sto : ∀ i : Fin 6, R.SB_STAT_STO.ClearOf [inFld i] := by decide

theorem inLevel_inputFollowed (i : Fin 6) (level : Bool) (s : State) : (inputFollowed i level s).inLevel i = level :=
  (State.inLevel_congr (rd_inputFollowed_clear (inFld_clear i).1 i level s)).trans (inLevel_inputAccept (by omega) level s)

theorem inLevel_safetyInputChange (i : Fin 6) (level : Bool) (s : State) : (safetyInputChange i level s).inLevel i = level :=
  (State.inLevel_congr (rd_stoTick_clear (inFld_clear i).2 _)).trans (inLevel_inputFollowed i level s)

/-- No input's level is STO's bit, and nothing before the decision writes it. -/
theorem on_sto_inputFollowed (i : Fin 6) (level : Bool) (s : State) :
    (inputFollowed i level s).on R.SB_STAT_STO = s.on R.SB_STAT_STO := by
  unfold State.on
  rw [rd_inputFollowed_clear (by decide), rd_inputAccept]
  have hne : (s.wr (inFld i) (b2n level)).rd R.SB_STAT_STO = s.rd R.SB_STAT_STO :=
    s.rd_wr_clear (fs := [inFld i]) (inFld_misses_sto i) (List.mem_singleton_self _) _
  rw [hne, ite_self]

/-- STO_N low leads to STO, at once with its effects where it did not stand. -/
theorem safetyInputChange_stoN (s : State) : safetyInputChange 0 false s =
    if s.on R.SB_STAT_STO then inputFollowed 0 false s else stoSet (inputFollowed 0 false s) := by
  have hdem : (inputFollowed 0 false s).stoDemand = true := State.stoDemand_of_stoN (inLevel_inputFollowed 0 false s)
  have hsto : (inputFollowed 0 false s).on R.SB_STAT_STO = s.on R.SB_STAT_STO := on_sto_inputFollowed 0 false s
  show stoTick (inputFollowed 0 false s) = _
  unfold stoTick
  rw [if_pos hdem, hsto]

/-! ### SS1 -/

theorem ss1EndIfDue_none {s : State} (h : s.sb.ss1At = none) : ss1EndIfDue s = s := by
  unfold ss1EndIfDue
  rw [h]

/-- SS1-t ends at its time. -/
theorem ss1EndIfDue_time {s : State} {t0 : Nat} (h : s.sb.ss1At = some t0) (ht : s.sb.ss1T = true)
    (hdue : t0 + msCyc (s.rd R.SB_SS1_TIME_T) ≤ s.time.tb) : ss1EndIfDue s = ss1Over s := by
  unfold ss1EndIfDue
  rw [h]
  simp [ht, hdue]

/-- SS1-r ends at standstill. -/
theorem ss1EndIfDue_still {s : State} {t0 : Nat} (h : s.sb.ss1At = some t0) (hr : s.sb.ss1R = true) (hstill : 8 ≤ s.sb.ss1Still) :
    ss1EndIfDue s = ss1Over s := by
  unfold ss1EndIfDue
  rw [h]
  simp [hr, hstill]

/-- The end of SS1 is a demand for STO (10 R352). -/
theorem ss1Over_facts (s : State) : (ss1Over s).rd R.SB_STAT_SS1 = 0 ∧ (ss1Over s).sb.ss1At = none ∧ (ss1Over s).sb.ss1Ended = true ∧
    (ss1Over s).stoDemand = true :=
  ⟨(State.rd_with_sb _ _ _).trans (State.rd_wr_same s (by decide) 0), rfl, rfl, State.stoDemand_of_ss1Ended rfl⟩

/-! ### The gate-off request -/

/-- GOFF takes every gate driver (10 R345). -/
theorem reqmGate_facts (off : Bool) (s : State) : (reqmGate off s).rd R.SB_REQM_GATE_GOFF = b2n off ∧
    (off = true → ∀ c, c < 7 → ((reqmGate off s).gch c).drive = false) := by
  have hoff : (s.wr R.SB_REQM_GATE_GOFF (b2n off)).on R.SB_REQM_GATE_GOFF = off := s.on_wr_same rfl (by decide) off
  refine ⟨?_, fun h c hc => ?_⟩
  · unfold reqmGate
    rw [State.rd_gateRefresh, State.rd_wr_same _ (by decide)]
    cases off <;> rfl
  · exact (State.drive_gateRefresh _ hc).trans (State.gateChain_off (.inr (hoff.trans h)) c)

end Sys2Proof.Machine
end

section
/-! SUPPORT. LOCKOUT_EXIT, the end of the reset sequence (10 R358). -/

namespace Sys2Proof.Machine

/-! ### What a passed sequence clears -/

/-- The faults, their record, LOCKOUT and the two connections of the Token layer cleared in the registers. -/
def faultsCleared (s : State) : State :=
  let s := (((s.wr R.SB_SFLT 0).wr R.SB_FIRST_CODE 0).wr R.SB_FIRST_TICK 0).wr R.SB_STAT_LOCKOUT 0
  (s.wr (R.SB_TOKt_STAT_ESTAB 0) 0).wr (R.SB_TOKt_STAT_ESTAB 1) 0

/-- What was received on the two connections dropped. -/
def tokensDropped (s : State) : State :=
  (s.setTok 0 (fun c => { c with expires := none, byte := 0 })).setTok 1 (fun c => { c with expires := none, byte := 0 })

/-- The supply, the gates and the outputs follow, and LOCKOUT_EXIT is raised. -/
def resetFollowed (s : State) : State :=
  let s := if s.stoDemand then s else supplySet true s
  (s.gateRefresh.soutRefresh).event Ev.LOCKOUT_EXIT 0

/-- The tests passed: what they clear, and what follows from it. -/
def resetPassed (s : State) : State := resetFollowed (tokensDropped (faultsCleared s))

/-- The fall of SRST taken. -/
def srstTaken (s : State) : State := s.setSb { s.sb with srstFall := none }

theorem State.rd_setTok (s : State) (t : Nat) (f : TokState → TokState) (g : Fld) : (s.setTok t f).rd g = s.rd g := rfl

theorem State.setTok_srstFall (s : State) (t : Nat) (f : TokState → TokState) : (s.setTok t f).sb.srstFall = s.sb.srstFall := rfl

theorem rd_tokensDropped (s : State) (g : Fld) : (tokensDropped s).rd g = s.rd g :=
  (State.rd_setTok _ 1 _ g).trans (State.rd_setTok s 0 _ g)

theorem tokensDropped_srstFall (s : State) : (tokensDropped s).sb.srstFall = s.sb.srstFall :=
  (State.setTok_srstFall _ 1 _).trans (State.setTok_srstFall s 0 _)

theorem rd_faultsCleared (s : State) {g : Fld} (h : g.ClearOf [R.SB_TOKt_STAT_ESTAB 0, R.SB_TOKt_STAT_ESTAB 1]) :
    (faultsCleared s).rd g = ((((s.wr R.SB_SFLT 0).wr R.SB_FIRST_CODE 0).wr R.SB_FIRST_TICK 0).wr R.SB_STAT_LOCKOUT 0).rd g := by
  unfold faultsCleared
  dsimp only
  rw [State.rd_wr_clear _ h (by decide), State.rd_wr_clear _ h (by decide)]

theorem faultsCleared_sb (s : State) : (faultsCleared s).sb = s.sb := by
  unfold faultsCleared
  dsimp only
  rw [State.wr_sb, State.wr_sb, State.wr_sb, State.wr_sb, State.wr_sb, State.wr_sb]

theorem rd_resetFollowed {g : Fld} (h : g.ClearOf [R.SB_STAT_SBCSET, R.SB_STAT_GSUP, R.SB_STAT_SAFETY_EVT_LOST]) (s : State) :
    (resetFollowed s).rd g = s.rd g := by
  unfold resetFollowed
  dsimp only
  rw [rd_event_clear (h.mono (by decide)), State.soutRefresh_eq, State.rd_wr_clear _ h (by decide), State.rd_gateRefresh]
  split
  · rfl
  · exact rd_supplySet_clear (h.mono (by decide)) true _

theorem resetFollowed_srstFall (s : State) : (resetFollowed s).sb.srstFall = s.sb.srstFall := by
  unfold resetFollowed
  dsimp only
  rw [State.event_sb, State.soutRefresh_eq, State.wr_sb, State.gateRefresh_sb]
  split
  · rfl
  · obtain ⟨b, t, h⟩ := supplySet_sb true s
    rw [h]

theorem resetFollowed_event (s : State) : (38, 0x0104) ∈ (resetFollowed s).te.evs := by
  unfold resetFollowed
  dsimp only
  rw [State.event_te]
  exact List.mem_append_right _ (List.mem_singleton_self _)

theorem resetPassed_sflt (s : State) : (resetPassed s).rd R.SB_SFLT = 0 := by
  rw [resetPassed, rd_resetFollowed (by decide), rd_tokensDropped, rd_faultsCleared s (by decide),
    State.rd_wr_clear (fs := [R.SB_STAT_LOCKOUT]) _ (by decide) (List.mem_singleton_self _),
    State.rd_wr_clear (fs := [R.SB_FIRST_TICK]) _ (by decide) (List.mem_singleton_self _),
    State.rd_wr_clear (fs := [R.SB_FIRST_CODE]) _ (by decide) (List.mem_singleton_self _), State.rd_wr_same _ (by decide)]
  exact Nat.zero_mod _

theorem resetPassed_firstCode (s : State) : (resetPassed s).rd R.SB_FIRST_CODE = 0 := by
  rw [resetPassed, rd_resetFollowed (by decide), rd_tokensDropped, rd_faultsCleared s (by decide),
    State.rd_wr_clear (fs := [R.SB_STAT_LOCKOUT]) _ (by decide) (List.mem_singleton_self _),
    State.rd_wr_clear (fs := [R.SB_FIRST_TICK]) _ (by decide) (List.mem_singleton_self _), State.rd_wr_same _ (by decide)]
  exact Nat.zero_mod _

theorem resetPassed_lockout (s : State) : (resetPassed s).rd R.SB_STAT_LOCKOUT = 0 := by
  rw [resetPassed, rd_resetFollowed (by decide), rd_tokensDropped, rd_faultsCleared s (by decide), State.rd_wr_same _ (by decide)]
  exact Nat.zero_mod _

theorem resetPassed_srstFall (s : State) : (resetPassed s).sb.srstFall = s.sb.srstFall :=
  (resetFollowed_srstFall _).trans ((tokensDropped_srstFall _).trans (congrArg SbState.srstFall (faultsCleared_sb s)))

/-! ### The three outcomes -/

/-- The CRC of the parameters does not stand against an exit of LOCKOUT: they are open, or it is the one confirmed. -/
abbrev State.ResetCrcOk (s : State) : Prop :=
  s.on R.SB_LOCK_LOCKED = false ∨ s.on R.SB_LOCK_OPEN = true ∨ paramCrc s.word = s.rd R.SB_CRC_CONF

/-- No fall of SRST: nothing to end. -/
theorem lockoutExit_none (selfOk inputsOk : Bool) {s : State} (h : s.sb.srstFall = none) : lockoutExit selfOk inputsOk s = s := by
  unfold lockoutExit
  rw [h]

/-- A fault stands that came since the fall of SRST at a tick. -/
def State.faultSince (s : State) (tick : Nat) : Bool :=
  match s.sb.faultTick with
  | some f => decide (0 ≤ modDiff 32 f tick)
  | none => false

/-- With its two tests passed and nothing against the CRC, the faults since the fall decide. -/
theorem lockoutExit_tested {s : State} {tick : Nat} (h : s.sb.srstFall = some tick) (hcrc : s.ResetCrcOk) :
    lockoutExit true true s = if s.faultSince tick then srstTaken s else resetPassed (srstTaken s) := by
  have hok : (!s.on R.SB_LOCK_LOCKED || s.on R.SB_LOCK_OPEN || s.on R.SB_STAT_CRCERR || paramCrc s.word == s.rd R.SB_CRC_CONF) = true := by
    rcases hcrc with h | h | h <;> simp [h]
  have htaken : (!(srstTaken s).on R.SB_LOCK_LOCKED || (srstTaken s).on R.SB_LOCK_OPEN || (srstTaken s).on R.SB_STAT_CRCERR
      || paramCrc (srstTaken s).word == (srstTaken s).rd R.SB_CRC_CONF) = true := hok
  unfold lockoutExit
  rw [h]
  simp (zeta := false) only []
  extract_lets +onlyGivenNames x u fresh a b crcOk v
  have hu : u = srstTaken s := rfl
  have hfresh : fresh = s.faultSince tick := rfl
  have hb : b = srstTaken s := hu
  have hcrcOk : crcOk = true := by rw [← htaken, ← hb]
  have hv : v = srstTaken s := (if_pos hcrcOk).trans hb
  have hkeep : (fresh = true ∨ (!true) = true ∨ (!true) = true ∨ crcOk = false) ↔ s.faultSince tick = true := by
    simp [hfresh, hcrcOk]
  clear_value v
  subst hv
  split
  next hf => rw [if_pos (hkeep.mp hf)]
  next hf => rw [if_neg (mt hkeep.mpr hf)]; rfl

/-! ### The STATE record behind the exit (17 R528) -/

theorem unitBit_sbWord {a : Nat} (h : sbWord a) : unitBit a = 44 := by
  have ha : a / 0x10000 = 0x400B := by omega
  unfold unitBit
  rw [ha]
  rfl

/-- The record leaves the Signal Box and the events as they are. -/
theorem lockoutSave_keeps (s : State) : (lockoutSave s).sb = s.sb ∧ (lockoutSave s).te = s.te ∧
    ∀ f : Fld, sbWord f.addr → (lockoutSave s).rd f = s.rd f := by
  have h := lockoutSave_sound (ms := 0x100002100000) rfl s (sound_refl _ s)
  refine ⟨h.same .sb rfl, h.same .te rfl, fun f hf => h.rd_eq (home_sbWord s hf) (home_sbWord _ hf) ?_⟩
  rw [unitBit_sbWord hf]
  rfl

/-- LOCKOUT_EXIT as a step: the exit, and its STATE record. -/
def lockoutExitSaved (selfOk inputsOk : Bool) (s : State) : State := lockoutSave (lockoutExit selfOk inputsOk s)

/-- A reset sequence passed with no fault since its fall clears the faults and raises LOCKOUT_EXIT. -/
theorem lockoutExitSaved_passed {s : State} {tick : Nat} (h : s.sb.srstFall = some tick) (hcrc : s.ResetCrcOk)
    (hsince : s.faultSince tick = false) :
    (lockoutExitSaved true true s).rd R.SB_SFLT = 0 ∧ (lockoutExitSaved true true s).rd R.SB_FIRST_CODE = 0 ∧
    (lockoutExitSaved true true s).rd R.SB_STAT_LOCKOUT = 0 ∧ (lockoutExitSaved true true s).sb.srstFall = none ∧
    (38, 0x0104) ∈ (lockoutExitSaved true true s).te.evs := by
  have hexit : lockoutExit true true s = resetPassed (srstTaken s) := by rw [lockoutExit_tested h hcrc, hsince, if_neg Bool.false_ne_true]
  unfold lockoutExitSaved
  rw [hexit]
  obtain ⟨hsb, hte, hrd⟩ := lockoutSave_keeps (resetPassed (srstTaken s))
  rw [hsb, hte, hrd _ (by decide), hrd _ (by decide), hrd _ (by decide)]
  exact ⟨resetPassed_sflt _, resetPassed_firstCode _, resetPassed_lockout _, resetPassed_srstFall _, resetFollowed_event _⟩

/-- With a fault since its fall the sequence leaves the faults. -/
theorem lockoutExitSaved_faultSince {s : State} {tick : Nat} (h : s.sb.srstFall = some tick) (hcrc : s.ResetCrcOk)
    (hsince : s.faultSince tick = true) :
    (lockoutExitSaved true true s).rd R.SB_SFLT = s.rd R.SB_SFLT ∧ (lockoutExitSaved true true s).sb.srstFall = none := by
  have hexit : lockoutExit true true s = srstTaken s := by rw [lockoutExit_tested h hcrc, hsince, if_pos rfl]
  unfold lockoutExitSaved
  rw [hexit]
  obtain ⟨hsb, -, hrd⟩ := lockoutSave_keeps (srstTaken s)
  exact ⟨(hrd _ (by decide)).trans (State.rd_setSb _ _ _), congrArg SbState.srstFall hsb⟩

/-- Without a fall there is nothing to exit. -/
theorem lockoutExitSaved_none (selfOk inputsOk : Bool) {s : State} (h : s.sb.srstFall = none) :
    (lockoutExitSaved selfOk inputsOk s).rd R.SB_SFLT = s.rd R.SB_SFLT ∧ (lockoutExitSaved selfOk inputsOk s).sb = s.sb := by
  unfold lockoutExitSaved
  rw [lockoutExit_none selfOk inputsOk h]
  obtain ⟨hsb, -, hrd⟩ := lockoutSave_keeps s
  exact ⟨hrd _ (by decide), hsb⟩

theorem State.faultSince_eq_false {s : State} {tick : Nat} (h : ∀ f, s.sb.faultTick = some f → modDiff 32 f tick < 0) :
    s.faultSince tick = false := by
  unfold State.faultSince
  split
  next f hf => exact decide_eq_false (not_le_of_gt (h f hf))
  next => rfl

theorem State.faultSince_eq_true {s : State} {tick f : Nat} (hf : s.sb.faultTick = some f) (h : 0 ≤ modDiff 32 f tick) :
    s.faultSince tick = true := by
  unfold State.faultSince
  rw [hf]
  exact decide_eq_true h

end Sys2Proof.Machine
end

section
/-! SUPPORT. The reset of the MP: what the work stopped leaves (11 R417, R418), and the record of MP_LOST (01 R29). -/

namespace Sys2Proof.Machine

/-! ### The events past -/

theorem State.qPop_te (s : State) (n : Nat) : (s.qPop n).2.te = s.te :=
  (State.qPop_sound (ms := 0x2000000) rfl s n (sound_refl _ s)).same .te rfl

theorem evs_foldl {α : Type} {f : State → α → State} (hf : ∀ s x, (f s x).te.evs = s.te.evs) (l : List α) (s : State) :
    (l.foldl f s).te.evs = s.te.evs := by
  induction l generalizing s with
  | nil => rfl
  | cons x l ih => exact (ih (f s x)).trans (hf s x)

theorem evs_setRing (s : State) (r : Nat) (f : TeRing → TeRing) : (s.setRing r f).te.evs = s.te.evs := rfl

/-- A ring disarmed forgets its samples, not the events. -/
theorem evs_ringDisarm (r : Nat) (s : State) : (ringDisarm r s).te.evs = s.te.evs := by
  unfold ringDisarm
  split
  · rw [evs_setRing, State.wrBit_te, State.wrBit_te]
  · rfl

theorem evs_bistTake (s : State) : (bistTake s).te.evs = s.te.evs := by
  unfold bistTake
  split
  · split
    · rfl
    · dsimp only
      split
      · rw [evs_foldl (fun s r => evs_ringDisarm r s), State.wr_te, State.wr_te, State.wr_te, State.qPop_te]
      · rw [State.wr_te, State.wr_te, State.wr_te, State.qPop_te]
  · rfl

theorem evs_bistPost (e : BistEnd) (s : State) : (bistPost e s).te.evs = s.te.evs := by
  unfold bistPost
  split
  · rfl
  · rw [evs_bistTake]
    exact congrArg TeState.evs (State.qPush_te s 59 _)

theorem evs_bistEnd (status addr bit channels : Nat) (s : State) : (bistEnd status addr bit channels s).te.evs = s.te.evs := by
  unfold bistEnd
  split
  · rfl
  · dsimp only
    rw [evs_bistPost, State.wr_te, State.wr_te]

theorem evs_bistAbort (s : State) : (bistAbort s).te.evs = s.te.evs := by
  unfold bistAbort
  split
  · rfl
  · split
    · rfl
    · split
      · rfl
      · exact evs_bistEnd _ _ _ _ s

theorem evs_bistDrop (id : Nat) (s : State) : (bistDrop id s).te.evs = s.te.evs := by
  unfold bistDrop
  split
  · exact evs_bistAbort s
  · rfl

theorem evs_stopWork (s : State) (w : Work) : (stopWork s w).te.evs = s.te.evs := by
  unfold stopWork
  dsimp only
  split
  · exact evs_bistDrop _ _
  · rfl

/-! ### The parts of a reset of the MP -/

/-- The MP out of service, with the count and the cause of its reset. -/
def mpHeld (cause : Nat) (s : State) : State := ((mpOut 2 s).inc R.SYS_RST_MPCNT).wr R.SYS_RST_MPCAUSE cause

/-- All outstanding work stopped. -/
def worksStopped (s : State) : State := s.hs.works.foldl stopWork s

/-- What the MP holds and waits for is gone. -/
def mpForgotten (s : State) : State :=
  { s with
    mp := {}
    nv := { s.nv with wait := [] }
    bi := { s.bi with wait := [] }
    hs := { s.hs with seen := Vector.replicate 4 0 } }

theorem mpReset_eq (cause : Nat) (s : State) : mpReset cause s = mpForgotten (worksStopped (mpHeld cause s)) := by
  unfold mpReset mpForgotten worksStopped mpHeld
  rfl

theorem mpForgotten_keeps (s : State) : (mpForgotten s).te = s.te ∧ (mpForgotten s).time = s.time ∧ (mpForgotten s).seq = s.seq ∧
    ∀ f : Fld, (mpForgotten s).rd f = s.rd f :=
  ⟨rfl, rfl, rfl, fun _ => rfl⟩

/-- Fields that the work stopped has nothing to do with. -/
abbrev mpFlds : List Fld := [R.HS_STAT_MPSTATE, R.HS_IRQ_MPDOWN, R.SYS_RST_MPCAUSE, R.TB_TICKNO]

theorem home_mpFlds (s : State) {f : Fld} (hf : f ∈ mpFlds) : s.home f.addr = f.addr := by
  have hall : ∀ f ∈ mpFlds, ¬ (0x40041000 ≤ f.addr ∧ f.addr < 0x40041100) ∧ ¬ (0x40042000 ≤ f.addr ∧ f.addr < 0x40042100) ∧
      ¬ (0x400E0060 ≤ f.addr ∧ f.addr < 0x400E0070) := by decide
  obtain ⟨h1, h2, h3⟩ := hall f hf
  exact s.home_self _ h1 h2 h3

theorem apart_mpFlds {f : Fld} (hf : f ∈ mpFlds) : apartFromQueues f.addr := by
  have hall : ∀ f ∈ mpFlds, (f.addr < 0x40020000 ∨ 0x40030000 ≤ f.addr) ∧ (f.addr < 0x400E0060 ∨ 0x400E0070 ≤ f.addr) ∧
      f.addr ≠ (R.SB_STAT_SAFETY_EVT_LOST).addr := by decide
  exact hall f hf

theorem rd_wr_mpFlds (s : State) {f g : Fld} (hf : f ∈ mpFlds) (hg : g ∈ R.SYS_RST_MPCNT :: mpFlds) (hne : f.addr ≠ g.addr) (v : Nat) :
    (s.wr g v).rd f = s.rd f := by
  refine s.rd_wr_word v ?_
  rw [home_mpFlds s hf]
  rcases List.mem_cons.mp hg with h | h
  · rw [h] at hne ⊢
    rwa [s.home_self _ (by decide) (by decide) (by decide)]
  · rwa [home_mpFlds s h]

theorem rd_inc_mpFlds (s : State) {f : Fld} (hf : f ∈ mpFlds) (hne : f.addr ≠ R.SYS_RST_MPCNT.addr) :
    (s.inc R.SYS_RST_MPCNT).rd f = s.rd f :=
  rd_wr_mpFlds s hf (List.mem_cons_self ..) hne _

theorem worksStopped_keeps (s : State) : (worksStopped s).te.evs = s.te.evs ∧ (worksStopped s).time = s.time ∧
    (worksStopped s).seq = s.seq ∧ ∀ f ∈ mpFlds, (worksStopped s).rd f = s.rd f := by
  have h : State.Sound 0x800640000020 (worksStopped s) s :=
    sound_foldl _ (sound_refl _ s) (fun s w hs => stopWork_sound rfl s w hs)
  have hblock : ∀ f ∈ mpFlds, Nat.testBit 0x800640000020 (unitBit f.addr) = true := by decide
  exact ⟨evs_foldl evs_stopWork _ s, h.same .time rfl, h.same .seq rfl,
    fun f hf => h.rd_eq (home_mpFlds s hf) (home_mpFlds _ hf) (hblock f hf)⟩

/-! ### What a reset of the MP leaves and shows -/

theorem mpOut_keeps (n : Nat) (s : State) : (mpOut n s).te = s.te ∧ (mpOut n s).time = s.time ∧ (mpOut n s).seq = s.seq ∧
    (mpOut n s).rd R.TB_TICKNO = s.rd R.TB_TICKNO := by
  have hfirst : (s.wr R.HS_STAT_MPSTATE n).rd R.TB_TICKNO = s.rd R.TB_TICKNO :=
    rd_wr_mpFlds s (by decide) (by decide) (by decide) n
  unfold mpOut
  dsimp only
  split
  · rw [State.wr_te, State.wr_te, State.wr_time, State.wr_time, State.wr_seq, State.wr_seq,
      rd_wr_mpFlds _ (by decide) (by decide) (by decide), hfirst]
    exact ⟨rfl, rfl, rfl, rfl⟩
  · exact ⟨State.wr_te .., State.wr_time .., State.wr_seq .., hfirst⟩

theorem mpHeld_keeps (cause : Nat) (s : State) : (mpHeld cause s).te = s.te ∧ (mpHeld cause s).time = s.time ∧
    (mpHeld cause s).seq = s.seq ∧ (mpHeld cause s).rd R.TB_TICKNO = s.rd R.TB_TICKNO := by
  unfold mpHeld
  rw [State.wr_te, State.wr_time, State.wr_seq, State.inc_te, State.inc_time, State.inc_seq,
    rd_wr_mpFlds _ (by decide) (by decide) (by decide), rd_inc_mpFlds _ (by decide) (by decide)]
  exact mpOut_keeps 2 s

/-- The MP out of service shows in MPSTATE, and in MPDOWN where it served. -/
theorem mpOut_shows (s : State) : (mpOut 2 s).rd R.HS_STAT_MPSTATE = 2 ∧
    (s.rd R.HS_STAT_MPSTATE = 0 → (mpOut 2 s).rd R.HS_IRQ_MPDOWN = 1) := by
  have hfirst : (s.wr R.HS_STAT_MPSTATE 2).rd R.HS_STAT_MPSTATE = 2 := by
    rw [State.rd_wr_same s (by decide)]
    rfl
  unfold mpOut
  dsimp only
  refine ⟨?_, fun h => ?_⟩
  · split
    · rw [rd_wr_mpFlds _ (by decide) (by decide) (by decide), hfirst]
    · exact hfirst
  · have hserves : s.mpServes = true := beq_iff_eq.mpr h
    rw [if_pos hserves, State.rd_wr_same _ (by decide)]
    rfl

theorem mpHeld_shows (cause : Nat) (s : State) : (mpHeld cause s).rd R.HS_STAT_MPSTATE = 2 ∧
    (s.rd R.HS_STAT_MPSTATE = 0 → (mpHeld cause s).rd R.HS_IRQ_MPDOWN = 1) ∧
    (mpHeld cause s).rd R.SYS_RST_MPCAUSE = cause % 16 := by
  have hpast : ∀ f ∈ mpFlds, f.addr ≠ R.SYS_RST_MPCNT.addr →
      (((mpOut 2 s).inc R.SYS_RST_MPCNT).wr R.SYS_RST_MPCAUSE cause).rd f = (mpOut 2 s).rd f := fun f hf hne => by
    rw [rd_wr_mpFlds (g := R.SYS_RST_MPCAUSE) _ hf (by decide) hne, rd_inc_mpFlds _ hf hne]
  obtain ⟨hstate, hdown⟩ := mpOut_shows s
  unfold mpHeld
  refine ⟨?_, fun h => ?_, State.rd_wr_same _ (by decide) cause⟩
  · rw [hpast _ (by decide) (by decide), hstate]
  · rw [hpast _ (by decide) (by decide), hdown h]

/-- A reset of the MP leaves the events past, the time and the sequencer. -/
theorem mpReset_keeps (cause : Nat) (s : State) : (mpReset cause s).te.evs = s.te.evs ∧ (mpReset cause s).time = s.time ∧
    (mpReset cause s).seq = s.seq ∧ (mpReset cause s).tickno = s.tickno := by
  obtain ⟨hte, htime, hseq, hrd⟩ := mpForgotten_keeps (worksStopped (mpHeld cause s))
  obtain ⟨hevs', htime', hseq', hrd'⟩ := worksStopped_keeps (mpHeld cause s)
  obtain ⟨hte'', htime'', hseq'', htick⟩ := mpHeld_keeps cause s
  rw [mpReset_eq]
  unfold State.tickno
  rw [hte, htime, hseq, hrd, hevs', htime', hseq', hrd' _ (by decide), hte'', htime'', hseq'', htick]
  exact ⟨rfl, rfl, rfl, rfl⟩

/-- A reset of the MP shows in MPSTATE, in MPDOWN where the MP served, and in MPCAUSE. -/
theorem mpReset_shows (cause : Nat) (s : State) : (mpReset cause s).rd R.HS_STAT_MPSTATE = 2 ∧
    (s.rd R.HS_STAT_MPSTATE = 0 → (mpReset cause s).rd R.HS_IRQ_MPDOWN = 1) ∧
    (mpReset cause s).rd R.SYS_RST_MPCAUSE = cause % 16 := by
  obtain ⟨-, -, -, hrd⟩ := mpForgotten_keeps (worksStopped (mpHeld cause s))
  obtain ⟨-, -, -, hrd'⟩ := worksStopped_keeps (mpHeld cause s)
  rw [mpReset_eq, hrd, hrd, hrd, hrd' _ (by decide), hrd' _ (by decide), hrd' _ (by decide)]
  exact mpHeld_shows cause s

/-! ### MP_LOST -/

/-- The record of a loss of the MP: the first one kept, a second one within 60 s of it MP_REPEAT (05 R203). -/
def mpLostNoted (s : State) : State :=
  match s.seq.mpLostAt with
  | some (tb, tick) =>
    if s.time.tb ≤ tb + msCyc 60000 then s.cause 2 15 0 tick
    else { s with seq := { s.seq with mpLostAt := some (s.time.tb, s.tickno) } }
  | none => { s with seq := { s.seq with mpLostAt := some (s.time.tb, s.tickno) } }

theorem mpLostNoted_rd (s : State) {f : Fld} (hf : apartFromQueues f.addr) : (mpLostNoted s).rd f = s.rd f := by
  unfold mpLostNoted
  split
  · split
    · exact rd_cause s 2 15 0 _ hf
    · rfl
  · rfl

theorem mem_evs_mpLostNoted {s : State} {e : Nat × Nat} (h : e ∈ s.te.evs) : e ∈ (mpLostNoted s).te.evs := by
  unfold mpLostNoted
  split
  · split
    · rw [State.cause_te]
      exact List.mem_append_left _ h
    · exact h
  · exact h

theorem mpLostNoted_first {s : State} (h : s.seq.mpLostAt = none) : (mpLostNoted s).seq.mpLostAt = some (s.time.tb, s.tickno) := by
  unfold mpLostNoted
  rw [h]

theorem mpLostNoted_repeat {s : State} {at_ tick : Nat} (h : s.seq.mpLostAt = some (at_, tick)) (hsoon : s.time.tb ≤ at_ + msCyc 60000) :
    (2, 0) ∈ (mpLostNoted s).seq.raised := by
  unfold mpLostNoted
  rw [h]
  dsimp only
  rw [if_pos hsoon, State.cause_seq]
  exact List.mem_append_right _ (List.mem_singleton_self _)

/-- The watchdog restarted and MP_LOST raised. -/
def mpLostRaised (s : State) : State := (mpwdWrite s).event Ev.MP_LOST 0

theorem mpLostRaised_keeps (s : State) : (mpLostRaised s).time = s.time ∧ (mpLostRaised s).seq = s.seq ∧
    ∀ f ∈ mpFlds, (mpLostRaised s).rd f = s.rd f :=
  ⟨State.event_time _ _ _ _, State.event_seq _ _ _ _, fun _ hf => rd_event _ 0 _ (by decide) (apart_mpFlds hf)⟩

theorem mpLostRaised_event (s : State) : (39, 0x0209) ∈ (mpLostRaised s).te.evs := by
  unfold mpLostRaised
  rw [State.event_te]
  exact List.mem_append_right _ (List.mem_singleton_self _)

theorem mpLostIfDue_due {s : State} (htime : s.sb.mpwdAt + msCyc 100 ≤ s.time.tb) (hstate : s.rd R.HS_STAT_MPSTATE ≠ 3) :
    mpLostIfDue s = mpLostNoted (mpReset 1 (mpLostRaised s)) :=
  if_pos ⟨htime, hstate⟩

theorem mpLostIfDue_keeps {s : State} (h : s.time.tb < s.sb.mpwdAt + msCyc 100 ∨ s.rd R.HS_STAT_MPSTATE = 3) : mpLostIfDue s = s := by
  refine if_neg ?_
  rintro ⟨htime, hstate⟩
  rcases h with h | h
  · omega
  · exact hstate h

/-- Without a write of SB.MPWD for 100 ms MP_LOST is raised and the MP is put into reset. -/
theorem mpLostIfDue_acts {s : State} (htime : s.sb.mpwdAt + msCyc 100 ≤ s.time.tb) (hstate : s.rd R.HS_STAT_MPSTATE ≠ 3) :
    (39, 0x0209) ∈ (mpLostIfDue s).te.evs ∧ (mpLostIfDue s).rd R.HS_STAT_MPSTATE = 2 ∧
    (s.rd R.HS_STAT_MPSTATE = 0 → (mpLostIfDue s).rd R.HS_IRQ_MPDOWN = 1) ∧ (mpLostIfDue s).rd R.SYS_RST_MPCAUSE = 1 ∧
    (s.seq.mpLostAt = none → (mpLostIfDue s).seq.mpLostAt = some (s.time.tb, s.tickno)) ∧
    (∀ at_ tick, s.seq.mpLostAt = some (at_, tick) → s.time.tb ≤ at_ + msCyc 60000 → (2, 0) ∈ (mpLostIfDue s).seq.raised) := by
  obtain ⟨htm, hsq, hrd⟩ := mpLostRaised_keeps s
  obtain ⟨hevs, htm', hsq', htick⟩ := mpReset_keeps 1 (mpLostRaised s)
  obtain ⟨hmpstate, hmpdown, hmpcause⟩ := mpReset_shows 1 (mpLostRaised s)
  have htb : (mpReset 1 (mpLostRaised s)).time = s.time := htm'.trans htm
  have hseq : (mpReset 1 (mpLostRaised s)).seq = s.seq := hsq'.trans hsq
  have htn : (mpReset 1 (mpLostRaised s)).tickno = s.tickno := htick.trans (hrd _ (by decide))
  have hpast : ∀ f ∈ mpFlds, (mpLostNoted (mpReset 1 (mpLostRaised s))).rd f = (mpReset 1 (mpLostRaised s)).rd f :=
    fun f hf => mpLostNoted_rd _ (apart_mpFlds hf)
  rw [mpLostIfDue_due htime hstate, hpast _ (by decide), hpast _ (by decide), hpast _ (by decide)]
  refine ⟨mem_evs_mpLostNoted (hevs ▸ mpLostRaised_event s), hmpstate, fun h => hmpdown ((hrd _ (by decide)).trans h), hmpcause,
    fun h => ?_, fun at_ tick h hsoon => mpLostNoted_repeat (by rw [hseq, h]) (by rwa [htb])⟩
  rw [mpLostNoted_first (by rw [hseq, h]), htb, htn]

/-! ### The test of STO that falls due (10 R371) -/

theorem stoTestDueIfDue_due {s : State} (h : s.sb.testDue = false) (htime : s.sb.testAt + msCyc 2592000000 ≤ s.time.tb) :
    stoTestDueIfDue s = { s with sb.testDue := true }.event Ev.STO_TEST_DUE 0 :=
  if_pos ⟨by rw [h]; rfl, htime⟩

theorem stoTestDueIfDue_keeps {s : State} (h : s.sb.testDue = true ∨ s.time.tb < s.sb.testAt + msCyc 2592000000) :
    stoTestDueIfDue s = s := by
  refine if_neg ?_
  rintro ⟨hdue, htime⟩
  rcases h with h | h
  · rw [h] at hdue
    cases hdue
  · omega

theorem stoTestDueIfDue_acts {s : State} (h : s.sb.testDue = false) (htime : s.sb.testAt + msCyc 2592000000 ≤ s.time.tb) :
    (stoTestDueIfDue s).sb.testDue = true ∧ (stoTestDueIfDue s).te.evs = s.te.evs ++ [(38, 0x0108)] := by
  rw [stoTestDueIfDue_due h htime, State.event_sb, State.event_te]
  exact ⟨rfl, rfl⟩

end Sys2Proof.Machine
end

section
/-! PROOFS. The safety inputs, STO and its end, SS1, the reset of LOCKOUT, the gate-off request, the watchdog of the MP: O46. -/

namespace Sys2Proof.Machine

/-- STO_N low takes effect as STO, and as its acts where STO did not stand. -/
theorem safetyInputChange_stoN_acts (s : State) : (safetyInputChange 0 false s).on R.SB_STAT_STO = true ∧
    (s.on R.SB_STAT_STO = false → (safetyInputChange 0 false s).sb.supply = false ∧ (38, 0x0101) ∈ (safetyInputChange 0 false s).te.evs ∧
      ∀ c, c < 7 → ((safetyInputChange 0 false s).gch c).drive = false) := by
  rw [safetyInputChange_stoN]
  split
  next h => exact ⟨(on_sto_inputFollowed 0 false s).trans h, fun h' => absurd (h.symm.trans h') (by decide)⟩
  next => exact ⟨stoSet_sto _, fun _ => stoSet_acts _⟩

/-- STO ends with its event, and nothing of the Signal Box's own part changes. -/
theorem stoOffIfDue_acts {s : State} (hsto : s.on R.SB_STAT_STO = true) (hdem : s.stoDemand = false) (hgsup : s.on R.SB_STAT_GSUP = true) :
    (stoOffIfDue s).on R.SB_STAT_STO = false ∧ (stoOffIfDue s).te.evs = s.te.evs ++ [(38, 0x0102)] ∧ (stoOffIfDue s).sb = s.sb := by
  rw [stoOffIfDue_due hsto hdem hgsup]
  refine ⟨?_, ?_, ?_⟩
  · unfold State.on
    rw [rd_event_clear (by decide), State.soutRefresh_eq, State.rd_wr_clear (fs := [R.SB_STAT_SBCSET]) _ (by decide) (by decide),
      State.rd_gateRefresh, State.rd_wr_same _ (by decide)]
    rfl
  · rw [State.event_te, State.soutRefresh_eq, State.wr_te, State.gateRefresh_te, State.wr_te]
    rfl
  · rw [State.event_sb, State.soutRefresh_eq, State.wr_sb, State.gateRefresh_sb, State.wr_sb]

theorem exec_lockoutExit {s : State} (hr : s.Running) (selfOk inputsOk : Bool) :
    exec (.lockoutExit selfOk inputsOk) s = .next (lockoutExitSaved selfOk inputsOk s.cleared) :=
  live_next (lockoutExitSaved selfOk inputsOk) hr

/-- Settles O46: each step by the lemma of its operation, on the state with the last step's output gone. -/
theorem safeTorqueOff : Obligations.SafeTorqueOff := by
  intro s hr
  refine ⟨fun input level => ⟨_, live_next _ hr, inLevel_safetyInputChange input level _⟩,
    ⟨_, live_next _ hr, safetyInputChange_stoN_acts s.cleared⟩,
    fun hsto hdem hgsup => ⟨_, live_next _ hr, stoOffIfDue_acts (s := s.cleared) hsto hdem hgsup⟩,
    fun h => (live_next _ hr).trans (congrArg _ (stoOffIfDue_keeps (s := s.cleared) h)),
    fun t0 hat ht hdue => ⟨_, (live_next _ hr).trans (congrArg _ (ss1EndIfDue_time (s := s.cleared) hat ht hdue)), ss1Over_facts _⟩,
    fun t0 hat hstill hdue => ?_,
    fun h => (live_next _ hr).trans (congrArg _ (ss1EndIfDue_none (s := s.cleared) h)),
    fun tick hfall hnone hcrc => ⟨_, exec_lockoutExit hr true true,
      lockoutExitSaved_passed (s := s.cleared) hfall hcrc (State.faultSince_eq_false hnone)⟩,
    fun tick f hfall hf hsince hlocked => ⟨_, exec_lockoutExit hr true true,
      lockoutExitSaved_faultSince (s := s.cleared) hfall (.inl hlocked) (State.faultSince_eq_true hf hsince)⟩,
    fun hfall selfOk inputsOk => ⟨_, exec_lockoutExit hr selfOk inputsOk, lockoutExitSaved_none (s := s.cleared) selfOk inputsOk hfall⟩,
    fun h htime => ⟨_, live_next _ hr, stoTestDueIfDue_acts (s := s.cleared) h htime⟩,
    fun h => (live_next _ hr).trans (congrArg _ (stoTestDueIfDue_keeps (s := s.cleared) h)),
    fun off => ⟨_, live_next _ hr, reqmGate_facts off _⟩,
    live_next _ hr,
    fun htime hstate => ⟨_, live_next _ hr, mpLostIfDue_acts (s := s.cleared) htime hstate⟩,
    fun h => (live_next _ hr).trans (congrArg _ (mpLostIfDue_keeps (s := s.cleared) h))⟩
  obtain ⟨hreg, hnone, hended, -⟩ := ss1Over_facts s.cleared
  exact ⟨_, (live_next _ hr).trans (congrArg _ (ss1EndIfDue_still (s := s.cleared) hat hstill hdue)), hreg, hnone, hended⟩

end Sys2Proof.Machine
end

section
/-! SUPPORT. The lane engine (02 R53–R87): what the reads, the errors and the drained writes of a run leave of it, and the progress of the
tasks. -/

namespace Sys2Proof.Machine

/-- A quantity that every step of a fold keeps is kept by the fold. -/
theorem foldl_keeps {α β : Type} (g : State → β) {f : State → α → State} (hf : ∀ s x, g (f s x) = g s) (l : List α) (s : State) :
    g (l.foldl f s) = g s := by
  induction l generalizing s with
  | nil => rfl
  | cons x l ih => exact (ih (f s x)).trans (hf s x)

/-! ### The progress of the lane engine -/

/-- The lane engine without its books: the errors and stale bits noted, the tables read and loaded, what OUTER keeps for a Hold-1. What is
left says how far the tasks, the slices and the bank swap have come. -/
def LnState.progress (l : LnState) : LnState :=
  { l with errTicks := Vector.replicate 4 [], clearStale := 0, loaded := 0, lastGood := [], reads := 0, outerOld := none }

theorem State.task_congr {s t : State} (h : t.ln.progress = s.ln.progress) (code : Nat) : t.task code = s.task code := by
  have htasks : t.ln.tasks = s.ln.tasks := congrArg LnState.tasks (a₁ := t.ln.progress) (a₂ := s.ln.progress) h
  unfold State.task
  rw [htasks]

theorem bankPut_progress (b : Bool) (off : Nat) (w : Word) (s : State) : (bankPut b off w s).ln.progress = s.ln.progress := by
  have hset : (if bankMask off = 0 then s else s.setBankWord b off (w &&& bankMask off)).ln = s.ln := by
    split <;> rfl
  unfold bankPut
  dsimp only
  split
  · unfold LnState.progress
    dsimp only
    rw [hset]
  · rw [hset]

/-- Parameter writes taken from their queue change the tables loaded, and nothing of the progress (01 R41). -/
theorem drainParams_progress (q : Nat) (b : Bool) (s : State) : (drainParams q b s).ln.progress = s.ln.progress := by
  have hitem : ∀ (u : State) (i : List Byte), (bankItem b i u).ln.progress = u.ln.progress := fun u i =>
    foldl_keeps (·.ln.progress) (fun v _ => bankPut_progress b _ _ v) _ u
  unfold drainParams
  dsimp only
  split
  · rfl
  · exact foldl_keeps (·.ln.progress) hitem _ _

theorem drainImmediate_progress (s : State) : (drainImmediate s).ln.progress = s.ln.progress := drainParams_progress 52 _ s

theorem drainStaging_progress (s : State) : (drainStaging s).ln.progress = s.ln.progress := by
  unfold drainStaging
  split
  · rfl
  · exact drainParams_progress 53 _ s

/-! ### Detected errors (02 R69–R72, R80) -/

/-- What a detected error writes into the registers: the lane's counter and LN.LASTERR (02 R69, R90). -/
def laneErrorWords (lane kind task : Nat) (s : State) : State :=
  let s := s.inc (if kind = 1 then R.LN_ERRn_RESIDUE lane else R.LN_ERRn_PARITY lane)
  let s := (((s.wr R.LN_LASTERR_LANE lane).wr R.LN_LASTERR_KIND kind).wr R.LN_LASTERR_TASK task).wr R.LN_LASTERR_OFFSET s.phase
  s.wr R.LN_LASTERR_TICK s.tickno

/-- The tick of a detected error noted for its lane (02 R72). -/
def State.errorNoted (lane : Nat) (s : State) : State :=
  { s with ln.errTicks := s.ln.errTicks.mapFinIdx (fun i x _ => if i = lane then (s.tickno :: x).take 4 else x) }

theorem State.errorNoted_progress (lane : Nat) (s : State) : (s.errorNoted lane).ln.progress = s.ln.progress := rfl

theorem laneErrorRecord_eq (lane kind task : Nat) (s : State) :
    laneErrorRecord lane kind task s = (laneErrorWords lane kind task s).errorNoted lane := rfl

theorem laneErrorRecord_progress (lane kind task : Nat) (s : State) : (laneErrorRecord lane kind task s).ln.progress = s.ln.progress := by
  have hwords : (laneErrorWords lane kind task s).ln = s.ln := by
    unfold laneErrorWords
    rw [State.wr_ln, State.wr_ln, State.wr_ln, State.wr_ln, State.wr_ln, State.inc_ln]
  rw [laneErrorRecord_eq, State.errorNoted_progress, hwords]

theorem laneSuspectIfDue_progress (lane : Nat) (s : State) : (laneSuspectIfDue lane s).ln.progress = s.ln.progress := by
  unfold laneSuspectIfDue
  dsimp only
  split
  · split
    · rw [State.event_ln]
      rfl
    · rfl
  · rfl

theorem laneError_progress (lane kind task : Nat) (s : State) : (laneError lane kind task s).ln.progress = s.ln.progress := by
  unfold laneError
  dsimp only
  rw [laneSuspectIfDue_progress, State.event_ln, laneErrorRecord_progress]

theorem staleSet_progress (id : Nat) (s : State) : (staleSet id s).ln.progress = s.ln.progress := by
  have hdraw : ∀ (u : State) (task : Nat), (lastGoodDraw id u task).ln.progress = u.ln.progress := fun u task => by
    unfold lastGoodDraw
    split <;> rfl
  have hbook : ∀ (u : State) (c : Nat), ({ u with ln.clearStale := c } : State).ln.progress = u.ln.progress := fun _ _ => rfl
  unfold staleSet
  dsimp only
  refine (hbook _ _).trans ((congrArg LnState.progress (State.wrBit_ln _ _ _ _)).trans ?_)
  split
  · rfl
  · exact foldl_keeps (·.ln.progress) hdraw _ s

theorem tableParity_progress (lane task id addr : Nat) (s : State) : (tableParity lane task id addr s).ln.progress = s.ln.progress := by
  unfold tableParity
  dsimp only
  rw [laneSuspectIfDue_progress, State.event_ln, laneErrorRecord_progress, staleSet_progress]

theorem tableMarks_progress (code : Nat) (tables : List (Fin 10 × Nat × BitVec 32)) (s : State) :
    (tableMarks code tables s).ln.progress = s.ln.progress := by
  have hbook : ∀ (u : State) (n : Nat), ({ u with ln.reads := n } : State).ln.progress = u.ln.progress := fun _ _ => rfl
  unfold tableMarks
  refine (hbook _ _).trans (foldl_keeps (·.ln.progress) (fun u x => ?_) tables s)
  exact staleSet_progress x.1.val u

theorem tableErrors_progress (lane code start : Nat) (tables : List (Fin 10 × Nat × BitVec 32)) (s : State) :
    (tableErrors lane code start tables s).ln.progress = s.ln.progress := by
  have hadvance : ∀ (u : State) (off : Nat), (u.advanceTo off).ln = u.ln := fun _ _ => rfl
  unfold tableErrors
  refine foldl_keeps (·.ln.progress) (fun u x => ?_) tables s
  rw [tableParity_progress, hadvance]

theorem runFault_progress (lane code start : Nat) (k : LaneFault) (off : Nat) (s : State) :
    (runFault lane code start k off s).ln.progress = s.ln.progress := by
  have herr := laneError_progress lane (faultKind k) code (s.advanceTo (start + min off (Config.taskLength code)))
  unfold runFault
  dsimp only
  split
  · rw [State.event_ln, herr]
    rfl
  · exact herr

/-! ### The tasks (02 R54) -/

/-- A task's progress changed is that task's, and no other's. -/
theorem State.task_setTask_same (s : State) {code : Nat} (hc : 1 ≤ code ∧ code ≤ 3) (f : TaskState → TaskState) :
    (s.setTask code f).task code = f (s.task code) := by
  have hlt : code - 1 < 3 := by omega
  have hone : code - 1 + 1 = code := by omega
  unfold State.task State.setTask
  simp [hlt, hone]

@[simp] theorem State.setTask_time (s : State) (code : Nat) (f : TaskState → TaskState) : (s.setTask code f).time = s.time := rfl

/-! ### Slices given up (02 R62, R63) -/

/-- A slice given up takes nothing else of the lane engine with it. -/
theorem sliceDrop_ln (s : State) : (sliceDrop s).ln = { s.ln with slice := none } := by
  unfold sliceDrop
  split
  · next h _ _ _ _ =>
    have hcount : (if h = 0x20000 then s.inc R.BI_ABORTS else s).ln = s.ln := by
      split
      · exact s.inc_ln R.BI_ABORTS
      · rfl
    show ({ (if h = 0x20000 then s.inc R.BI_ABORTS else s).ln with slice := none } : LnState) = _
    rw [hcount]
  · rfl

end Sys2Proof.Machine
end

section
/-! O13: slices in the idle windows of the siding lane (02 R62–R66). -/

namespace Sys2Proof.Machine

/-- The window that the time lies in ends after it. -/
theorem State.phase_lt_windowEnd {s : State} {e : Nat} (h : s.windowEnd = some e) : s.phase < e := by
  obtain ⟨w, hw, rfl⟩ := Option.map_eq_some_iff.mp h
  have hmem := List.mem_of_mem_head? hw
  simp only [List.mem_filter, Bool.and_eq_true, decide_eq_true_eq] at hmem
  exact hmem.2.2

/-- A scrub slice starts where 512 cyc fit (02 R65). -/
theorem scrubSlice_fits {room : Nat} (h : 512 ≤ room) (s : State) :
    (scrubSlice none room s).ln.slice = some (.scrub, s.rd R.LN_STAT_SIDING, s.time.tb, 512) := by
  unfold scrubSlice
  rw [if_pos h]
  rfl

theorem scrubSlice_noRoom {room : Nat} (h : room < 512) (bad : Option Nat) (s : State) : scrubSlice bad room s = s :=
  if_neg (by omega)

/-- The slice of a job that tests no lane starts on the siding lane where its length fits. -/
theorem jobSlice_siding {j : SliceJob} (hj : j.lane = none) (room : Nat) (s : State) :
    jobSlice j room s = if j.len ≤ room then some (s.runSlice (.job j.handle) (s.rd R.LN_STAT_SIDING) j.len) else none := by
  unfold jobSlice
  rw [hj]
  rfl

section
variable {s : State} {e : Nat} (hs : s.ln.slice = none) (he : s.windowEnd = some e)
include hs he

/-- With no job only the scrub can start. -/
theorem sliceStart_noJob (hj : s.ln.jobs = []) (bad : Option Nat) : sliceStart bad s = scrubSlice bad (e - s.phase) s := by
  unfold sliceStart
  rw [hs]
  dsimp only
  rw [he, hj]
  exact ite_self _

/-- Where the scrub holds no reserved slice the first job is served, and the scrub takes the room that it leaves (02 R64). -/
theorem sliceStart_job {j : SliceJob} {rest : List SliceJob} (hj : s.ln.jobs = j :: rest) (ht : s.tickno % 16 ≠ 0) (bad : Option Nat) :
    sliceStart bad s = (jobSlice j (e - s.phase) s).getD (scrubSlice bad (e - s.phase) s) := by
  have hreserve : (s.tickno % 16 == 0 && !s.ln.scrubReserved) = false := by simp [ht]
  unfold sliceStart
  rw [hs]
  dsimp only
  rw [he, hj, hreserve]
  rfl

/-- The first job's slice starts where it fits. -/
theorem sliceStart_jobFits {j : SliceJob} {rest : List SliceJob} (hj : s.ln.jobs = j :: rest) (hl : j.lane = none)
    (ht : s.tickno % 16 ≠ 0) (hfit : s.phase + j.len ≤ e) (bad : Option Nat) :
    (sliceStart bad s).ln.slice = some (.job j.handle, s.rd R.LN_STAT_SIDING, s.time.tb, j.len) := by
  rw [sliceStart_job hs he hj ht, jobSlice_siding hl, if_pos (by omega)]
  rfl

/-- A job's slice that does not fit leaves the room to the scrub. -/
theorem sliceStart_jobTooLong {j : SliceJob} {rest : List SliceJob} (hj : s.ln.jobs = j :: rest) (hl : j.lane = none)
    (ht : s.tickno % 16 ≠ 0) (hlong : e < s.phase + j.len) (bad : Option Nat) :
    sliceStart bad s = scrubSlice bad (e - s.phase) s := by
  have hin := State.phase_lt_windowEnd he
  rw [sliceStart_job hs he hj ht, jobSlice_siding hl, if_neg (by omega), Option.getD_none]

end

/-- A slice that has not ended is dropped, and its job stands (02 R62). -/
theorem sliceAbort_running {s : State} {k : SliceKind} {l t0 len : Nat} (hs : s.ln.slice = some (k, l, t0, len))
    (ht : s.time.tb < t0 + len) : (sliceAbort s).ln.slice = none ∧ (sliceAbort s).ln.jobs = s.ln.jobs := by
  have habort : sliceAbort s = sliceDrop s := by
    unfold sliceAbort
    rw [hs]
    exact if_neg (by omega)
  rw [habort, sliceDrop_ln]
  exact ⟨rfl, rfl⟩

/-- Settles O13: what starts follows from the first job and the room that is left in the window. -/
theorem slicesRunInsideIdleWindows : Obligations.SlicesRunInsideIdleWindows := by
  intro s hr
  have hstart : ∀ bad, exec (.sliceStart bad) s = .next (sliceStart (bad.map BitVec.toNat) s.cleared) := fun bad => live_next _ hr
  refine ⟨fun e hs hj he hfit => ⟨_, hstart none, ?_⟩,
    fun e bad j rest hs hj hl ht he hfit => ⟨_, hstart bad, sliceStart_jobFits (s := s.cleared) hs he hj hl ht hfit _⟩,
    fun e bad j rest hs hj hl ht he hlong hscrub => ⟨_, hstart bad, ?_⟩, fun e j rest hs hj hl ht he hlong hfit => ⟨_, hstart none, ?_⟩,
    fun k l t0 len hs ht => ⟨_, live_next _ hr, sliceAbort_running (s := s.cleared) hs ht⟩⟩
  · rw [sliceStart_noJob (s := s.cleared) hs he hj]
    exact scrubSlice_fits (show 512 ≤ e - s.phase by omega) s.cleared
  · have hin := State.phase_lt_windowEnd he
    rw [sliceStart_jobTooLong (s := s.cleared) hs he hj hl ht hlong,
      scrubSlice_noRoom (show e - s.cleared.phase < 512 from (by omega : e - s.phase < 512))]
    exact hs
  · rw [sliceStart_jobTooLong (s := s.cleared) hs he hj hl ht hlong]
    exact scrubSlice_fits (show 512 ≤ e - s.phase by omega) s.cleared

end Sys2Proof.Machine
end

section
/-! SUPPORT. The Timetable (02 R56–R60, R89): its entries and their words, and what the writes of its status leave. -/

namespace Sys2Proof.Machine

/-! ### Words that stand at their own address -/

/-- An address outside the pages that stand for others (01 R544; 12 R416). -/
abbrev ownWord (a : Nat) : Prop :=
  ¬ (0x40041000 ≤ a ∧ a < 0x40041100) ∧ ¬ (0x40042000 ≤ a ∧ a < 0x40042100) ∧ ¬ (0x400E0060 ≤ a ∧ a < 0x400E0070)

theorem home_ownWord (s : State) {a : Nat} (h : ownWord a) : s.home a = a := State.home_self s a h.1 h.2.1 h.2.2

/-- A write of a field leaves a field that it misses. -/
theorem State.rd_wr_missed (s : State) {f g : Fld} (h : ownWord f.addr ∧ ownWord g.addr ∧ f.Misses g) (v : Nat) :
    (s.wr f v).rd g = s.rd g := by
  obtain ⟨hf, hg, hmiss⟩ := h
  by_cases ha : g.addr = f.addr
  · obtain ⟨hok, hapart⟩ := hmiss.resolve_left (not_not_intro ha)
    exact s.rd_wr_apart hok hapart ha v
  · exact s.rd_wr_word v (by rwa [home_ownWord s hg, home_ownWord s hf])

/-! ### Entries and their words (02 R89) -/

/-- An entry whose fields fit their bits. -/
structure TtEntry.Fits (e : TtEntry) : Prop where
  lane : e.lane < 4
  kind : e.kind < 16
  task : e.task < 256
  start : e.start < 32768
  span : e.span < 32768

theorem ttDecode_fits (w0 w1 : Word) : (ttDecode w0 w1).Fits := by
  constructor <;> exact Nat.mod_lt _ (by decide)

/-- An entry read back from its words. -/
theorem ttDecode_ttEncode {e : TtEntry} (h : e.Fits) : ttDecode (ttEncode e).1 (ttEncode e).2 = e := by
  obtain ⟨en, lane, kind, task, start, span⟩ := e
  obtain ⟨hlane, hkind, htask, hstart, hspan⟩ := h
  dsimp only at hlane hkind htask hstart hspan
  have hb : b2n en ≤ 1 := by cases en <;> decide
  have hn : b2n en * 2 ^ 31 + lane % 4 * 2 ^ 28 + kind % 16 * 2 ^ 24 + task % 256 * 2 ^ 16 + start % 2 ^ 15 < 2 ^ 32 := by omega
  have hen : testB (b2n en * 2 ^ 31 + lane % 4 * 2 ^ 28 + kind % 16 * 2 ^ 24 + task % 256 * 2 ^ 16 + start % 2 ^ 15) 31 = en := by
    have hbit : bitOf (b2n en * 2 ^ 31 + lane % 4 * 2 ^ 28 + kind % 16 * 2 ^ 24 + task % 256 * 2 ^ 16 + start % 2 ^ 15) 31 = b2n en := by
      unfold bitOf
      omega
    unfold testB
    rw [hbit]
    cases en <;> rfl
  unfold ttDecode ttEncode
  simp only [BitVec.toNat_ofNat, Nat.mod_eq_of_lt hn, hen, bitsOf, TtEntry.mk.injEq, true_and]
  omega

/-! ### The words of the active table -/

/-- An entry of the active table. -/
def State.ttEntry (s : State) (n : Nat) : TtEntry := ttDecode (s.word (R.TT_ACTIVEn_W0 n).addr) (s.word (R.TT_ACTIVEn_W1 n).addr)

/-- An entry written over its words of the active table. -/
def State.ttPut (s : State) (x : TtEntry × Nat) : State :=
  (s.setWord (R.TT_ACTIVEn_W0 x.2).addr (ttEncode x.1).1).setWord (R.TT_ACTIVEn_W1 x.2).addr (ttEncode x.1).2

theorem State.ttActive_eq (s : State) : s.ttActive = (List.range 16).map s.ttEntry := rfl

theorem State.ttWriteActive_eq (s : State) (t : List TtEntry) : s.ttWriteActive t = t.zipIdx.foldl State.ttPut s := rfl

theorem home_ttActive (s : State) (n : Nat) : s.home (R.TT_ACTIVEn_W0 n).addr = (R.TT_ACTIVEn_W0 n).addr ∧
    s.home (R.TT_ACTIVEn_W1 n).addr = (R.TT_ACTIVEn_W1 n).addr :=
  ⟨home_ownWord s (by simp only; omega), home_ownWord s (by simp only; omega)⟩

theorem word_ttPut_ne (s : State) (x : TtEntry × Nat) {a : Nat} (h : ownWord a) (h0 : a ≠ (R.TT_ACTIVEn_W0 x.2).addr)
    (h1 : a ≠ (R.TT_ACTIVEn_W1 x.2).addr) : (s.ttPut x).word a = s.word a := by
  have hhome := home_ownWord s h
  obtain ⟨hw0, hw1⟩ := home_ttActive s x.2
  unfold State.ttPut
  rw [State.word_setWord_ne _ _ (by rw [State.home_setWord, State.home_setWord, hhome, hw1]; exact h1),
    State.word_setWord_ne _ _ (by rw [hhome, hw0]; exact h0)]

theorem ttEntry_ttPut_same (s : State) {e : TtEntry} (he : e.Fits) (n : Nat) : (s.ttPut (e, n)).ttEntry n = e := by
  obtain ⟨hw0, hw1⟩ := home_ttActive s n
  have h0 : (s.ttPut (e, n)).word (R.TT_ACTIVEn_W0 n).addr = (ttEncode e).1 := by
    unfold State.ttPut
    rw [State.word_setWord_ne _ _ (by rw [State.home_setWord, State.home_setWord, hw0, hw1]; simp only; omega), State.word_setWord_same]
  have h1 : (s.ttPut (e, n)).word (R.TT_ACTIVEn_W1 n).addr = (ttEncode e).2 := State.word_setWord_same _ _ _
  unfold State.ttEntry
  rw [h0, h1, ttDecode_ttEncode he]

theorem ttEntry_ttPut_ne (s : State) (e : TtEntry) {m n : Nat} (hm : m < 16) (hn : n < 16) (hne : n ≠ m) :
    (s.ttPut (e, m)).ttEntry n = s.ttEntry n := by
  unfold State.ttEntry
  rw [word_ttPut_ne s (e, m) (by simp only; omega) (by simp only; omega) (by simp only; omega),
    word_ttPut_ne s (e, m) (by simp only; omega) (by simp only; omega) (by simp only; omega)]

/-- Entries written one after the other from number `k` on stand where they were put, and the others as before. -/
theorem ttEntry_foldl_ttPut (t : List TtEntry) (ht : ∀ e ∈ t, e.Fits) (k : Nat) (hk : k + t.length ≤ 16) (s : State) {n : Nat}
    (hn : n < 16) :
    ((t.zipIdx k).foldl State.ttPut s).ttEntry n = if k ≤ n then (t[n - k]?).getD (s.ttEntry n) else s.ttEntry n := by
  induction t generalizing k s with
  | nil => simp
  | cons e t ih =>
    rw [List.length_cons] at hk
    rw [List.zipIdx_cons, List.foldl_cons, ih (fun x hx => ht x (List.mem_cons_of_mem e hx)) (k + 1) (by omega)]
    rcases Nat.lt_trichotomy n k with hlt | heq | hgt
    · rw [if_neg (by omega), if_neg (by omega), ttEntry_ttPut_ne s e (by omega) hn (by omega)]
    · subst heq
      rw [if_neg (by omega), if_pos (Nat.le_refl n), ttEntry_ttPut_same s (ht e List.mem_cons_self), Nat.sub_self]
      rfl
    · rw [if_pos (by omega), if_pos (by omega), ttEntry_ttPut_ne s e (by omega) hn (by omega),
        show n - k = n - (k + 1) + 1 by omega, List.getElem?_cons_succ]

/-- A table of 16 entries written over the active table is the active table. -/
theorem ttActive_ttWriteActive (s : State) {t : List TtEntry} (hlen : t.length = 16) (ht : ∀ e ∈ t, e.Fits) :
    (s.ttWriteActive t).ttActive = t := by
  rw [State.ttWriteActive_eq, State.ttActive_eq]
  refine List.ext_getElem (by simp [hlen]) fun n h16 hn => ?_
  rw [List.getElem_map, List.getElem_range, ttEntry_foldl_ttPut t ht 0 (by omega) s (by omega), if_pos (Nat.zero_le n), Nat.sub_zero,
    List.getElem?_eq_getElem hn]
  rfl

theorem State.ttShadow_length (s : State) : s.ttShadow.length = 16 := by
  unfold State.ttShadow
  rw [List.length_map, List.length_range]

theorem State.ttShadow_fits (s : State) : ∀ e ∈ s.ttShadow, e.Fits := by
  intro e he
  obtain ⟨n, -, rfl⟩ := List.mem_map.mp he
  exact ttDecode_fits _ _

/-- The words that a swap keeps of the shadow table are that table (02 R59). -/
theorem ttDecode_passed (s : State) : (s.ttShadow.map ttEncode).map (fun w => ttDecode w.1 w.2) = s.ttShadow := by
  rw [List.map_map]
  exact (List.map_congr_left fun e he => ttDecode_ttEncode (s.ttShadow_fits e he)).trans (List.map_id _)

/-! ### Status and period -/

/-- A word of the Timetable's status and control, in front of its tables (02 R90). -/
abbrev ttStatusWord (a : Nat) : Prop := 0x40030000 ≤ a ∧ a < 0x40030100

/-- The tables depend on their words alone. -/
theorem State.tables_congr {s t : State} (h : ∀ a, 0x40030100 ≤ a ∧ a < 0x40030280 → t.word a = s.word a) :
    t.ttActive = s.ttActive ∧ t.ttShadow = s.ttShadow := by
  unfold State.ttActive State.ttShadow
  constructor <;>
  · refine List.map_congr_left fun n _ => ?_
    rw [h _ (by simp only; omega), h _ (by simp only; omega)]

/-- A write of the status or of the period leaves the tables. -/
theorem tables_wr_status (s : State) {f : Fld} (h : ttStatusWord f.addr) (v : Nat) :
    (s.wr f v).ttActive = s.ttActive ∧ (s.wr f v).ttShadow = s.ttShadow :=
  State.tables_congr fun a ha => s.word_wr_ne f v (by rw [home_ownWord s (by omega), home_ownWord s (by omega)]; omega)

/-- The active table written leaves the status and the period. -/
theorem rd_ttWriteActive (s : State) (t : List TtEntry) {f : Fld} (h : ttStatusWord f.addr) : (s.ttWriteActive t).rd f = s.rd f := by
  rw [State.ttWriteActive_eq]
  exact foldl_keeps (·.rd f) (fun u x => State.rd_congr (word_ttPut_ne u x (by omega) (by simp only; omega) (by simp only; omega))) _ s

/-! ### The check and a refusal (02 R57, R58) -/

theorem State.ttCheck_le (s : State) (t : List TtEntry) (p : Nat) (c : Bool) : s.ttCheck t p c ≤ 0x0A := by
  unfold State.ttCheck
  dsimp only
  split_ifs <;> decide

/-- A period that passes the check lies in its range. -/
theorem State.ttCheck_period {s : State} {t : List TtEntry} {p : Nat} {c : Bool} (h : s.ttCheck t p c = 0) : 8000 ≤ p ∧ p ≤ 20000 := by
  by_contra hout
  unfold State.ttCheck at h
  dsimp only at h
  rw [if_pos (by omega)] at h
  cases h

/-- A refusal is recorded with its code; the tables, the pending changes and the period stand. -/
theorem ttReject_facts {code : Nat} (hc : code < 256) (s : State) : (ttReject code s).rd R.TT_STAT_REJ = 1 ∧
    (ttReject code s).rd R.TT_STAT_REJCODE = code ∧ (ttReject code s).tt = s.tt ∧ (ttReject code s).ttActive = s.ttActive ∧
    (ttReject code s).period = s.period := by
  unfold ttReject State.period
  refine ⟨?_, ?_, ?_, ?_, ?_⟩
  · rw [State.rd_wr_missed _ (by decide), State.rd_wr_same _ (by decide)]
    rfl
  · rw [State.rd_wr_same _ (by decide)]
    exact Nat.mod_eq_of_lt hc
  · rw [State.wr_tt, State.wr_tt]
  · rw [(tables_wr_status _ (by decide) _).1, (tables_wr_status _ (by decide) _).1]
  · rw [State.rd_wr_missed _ (by decide), State.rd_wr_missed _ (by decide)]

end Sys2Proof.Machine
end

section
/-! O14: swaps and period changes of the Timetable (02 R57–R60, R546; assumption log 33 for the check of a swap beside a pending period). -/

namespace Sys2Proof.Machine

/-- The state with the Timetable's pending changes replaced. -/
def State.setTt (s : State) (x : TtState) : State := { s with tt := x }

@[simp] theorem State.rd_setTt (s : State) (x : TtState) (f : Fld) : (s.setTt x).rd f = s.rd f := rfl
@[simp] theorem State.setTt_tt (s : State) (x : TtState) : (s.setTt x).tt = x := rfl
@[simp] theorem State.ttActive_setTt (s : State) (x : TtState) : (s.setTt x).ttActive = s.ttActive := rfl

/-! ### Changes made pending -/

/-- A swap made pending, 64 cyc ahead, with the words of the table that its check has passed. -/
def ttSwapPending (s : State) : State :=
  let u := (s.wr R.TT_STAT_SWPEND 1).wr R.TT_STAT_PEND 1
  u.setTt { u.tt with swapDue := some (u.time.tb + 64), passed := u.ttShadow.map ttEncode, shadowIgnored := false }

theorem ttSwapPending_facts (s : State) : (ttSwapPending s).tt.swapDue = some (s.time.tb + 64) ∧
    (ttSwapPending s).tt.passed = s.ttShadow.map ttEncode ∧ (ttSwapPending s).rd R.TT_STAT_SWPEND = 1 ∧
    (ttSwapPending s).rd R.TT_STAT_PEND = 1 := by
  have hshadow : ((s.wr R.TT_STAT_SWPEND 1).wr R.TT_STAT_PEND 1).ttShadow = s.ttShadow :=
    (tables_wr_status _ (by decide) _).2.trans (tables_wr_status _ (by decide) _).2
  unfold ttSwapPending
  refine ⟨?_, congrArg (List.map ttEncode) hshadow, ?_, ?_⟩
  · rw [State.setTt_tt, State.wr_time, State.wr_time]
  · rw [State.rd_setTt, State.rd_wr_missed _ (by decide), State.rd_wr_same _ (by decide)]
    rfl
  · rw [State.rd_setTt, State.rd_wr_same _ (by decide)]
    rfl

/-- A write of SWAP whose shadow table passes makes the swap pending. -/
theorem ttSwapWrite_passed {s : State} (hpend : s.on R.TT_STAT_SWPEND = false)
    (hcheck : s.ttCheck s.ttShadow s.ttPeriodNext s.tt.periodDue.isSome = 0) : ttSwapWrite s = ttSwapPending s := by
  unfold ttSwapWrite
  rw [hpend, if_neg Bool.false_ne_true]
  dsimp only
  rw [if_neg (not_not_intro hcheck)]
  unfold ttSwapPending State.setTt
  rfl

theorem ttSwapWrite_failed {s : State} (hpend : s.on R.TT_STAT_SWPEND = false)
    (hcheck : s.ttCheck s.ttShadow s.ttPeriodNext s.tt.periodDue.isSome ≠ 0) :
    ttSwapWrite s = ttReject (s.ttCheck s.ttShadow s.ttPeriodNext s.tt.periodDue.isSome) s := by
  unfold ttSwapWrite
  rw [hpend, if_neg Bool.false_ne_true]
  exact if_pos hcheck

/-- A period made pending, 64 cyc ahead. -/
def ttPeriodPending (p : Nat) (s : State) : State :=
  (s.wr R.TT_STAT_PEND 1).setTt { (s.wr R.TT_STAT_PEND 1).tt with periodDue := some (p, s.time.tb + 64) }

theorem ttPeriodWrite_passed {s : State} {p : Nat} (hlock : s.on R.SB_LOCK_LOCKED = false)
    (hnew : p ≠ s.period ∨ s.tt.periodDue.isSome = true)
    (hcheck : s.ttCheck (if s.on R.TT_STAT_SWPEND then s.ttShadow else s.ttActive) p true = 0) :
    ttPeriodWrite p s = ttPeriodPending p s := by
  have hsame : ¬ (p = s.period ∧ s.tt.periodDue.isNone = true) := by
    rintro ⟨hp, hnone⟩
    rcases hnew with h | h
    · exact h hp
    · rw [Option.isNone_iff_eq_none.mp hnone] at h
      cases h
  unfold ttPeriodWrite
  rw [hlock, if_neg Bool.false_ne_true, if_neg hsame]
  dsimp only
  rw [hcheck, if_neg (not_not_intro rfl)]
  unfold ttPeriodPending State.setTt
  rfl

theorem ttPeriodPending_facts (p : Nat) (s : State) : (ttPeriodPending p s).tt.periodDue = some (p, s.time.tb + 64) ∧
    (ttPeriodPending p s).rd R.TT_STAT_PEND = 1 ∧ (ttPeriodPending p s).period = s.period := by
  unfold ttPeriodPending State.period
  refine ⟨rfl, ?_, ?_⟩
  · rw [State.rd_setTt, State.rd_wr_same _ (by decide)]
    rfl
  · rw [State.rd_setTt, State.rd_wr_missed _ (by decide)]

/-! ### Changes due at a boundary -/

/-- The table that the check of a pending swap passed. -/
def State.ttPassed (s : State) : List TtEntry := s.tt.passed.map (fun w => ttDecode w.1 w.2)

/-- A swap decided: nothing is pending any more, and the firmware is told the code. -/
def ttSwapDecided (code : Nat) (s : State) : State :=
  ((s.setTt { swapDue := none, periodDue := none, passed := [], shadowIgnored := false, done := some code }).wr
    R.TT_STAT_SWPEND 0).wr R.TT_STAT_PEND 0

/-- The table of a swap in force, with the tasks that have no reserve in it. -/
def ttSwapApplied (table : List TtEntry) (per : Nat) (s : State) : State :=
  ((s.ttWriteActive table).wr R.TT_STAT_NORES (ttNores table)).wr R.TT_PERIOD_CYC per

theorem ttChange_swap {s : State} {d tb : Nat} (hd : s.tt.swapDue = some d) (hle : d ≤ tb) (hp : s.tt.periodDue = none) :
    ttChange tb s =
      let code := s.ttCheck s.ttPassed s.period false
      if code ≠ 0 then ttReject code (ttSwapDecided code s)
      else
        let u := ttSwapApplied s.ttPassed s.period (ttSwapDecided code s)
        if s.tt.shadowIgnored then ttReject 0x0B u else u := by
  unfold ttChange
  simp only [hd, hp, hle, decide_true, Bool.not_true, Bool.false_eq_true, Option.isNone_none, and_true, ↓reduceIte, Option.getD_none,
    Option.isSome_none, State.wr_tt, Bool.or_self, true_and, ite_not]
  rfl

theorem ttSwapDecided_facts (code : Nat) (s : State) : (ttSwapDecided code s).tt.swapDue = none ∧
    (ttSwapDecided code s).tt.done = some code ∧ (ttSwapDecided code s).ttActive = s.ttActive ∧
    (ttSwapDecided code s).period = s.period := by
  unfold ttSwapDecided State.period
  refine ⟨rfl, rfl, ?_, ?_⟩
  · rw [(tables_wr_status _ (by decide) _).1, (tables_wr_status _ (by decide) _).1, State.ttActive_setTt]
  · rw [State.rd_wr_missed _ (by decide), State.rd_wr_missed _ (by decide), State.rd_setTt]

theorem ttSwapApplied_facts {table : List TtEntry} (hlen : table.length = 16) (hfits : ∀ e ∈ table, e.Fits) {per : Nat}
    (hper : per < 2 ^ 15) (s : State) : (ttSwapApplied table per s).tt = s.tt ∧ (ttSwapApplied table per s).ttActive = table ∧
    (ttSwapApplied table per s).period = per := by
  have hkeep : (s.ttWriteActive table).tt = s.tt :=
    (State.ttWriteActive_sound (ms := 0x40) rfl s table (sound_refl _ s)).same .tt rfl
  unfold ttSwapApplied State.period
  refine ⟨?_, ?_, ?_⟩
  · rw [State.wr_tt, State.wr_tt, hkeep]
  · rw [(tables_wr_status _ (by decide) _).1, (tables_wr_status _ (by decide) _).1, ttActive_ttWriteActive s hlen hfits]
  · rw [State.rd_wr_same _ (by decide)]
    exact Nat.mod_eq_of_lt hper

/-- A swap that passes again: the shadow table that was checked becomes the active one, and the period stands. -/
theorem ttChange_swap_passed {s : State} {d tb : Nat} (hd : s.tt.swapDue = some d) (hle : d ≤ tb) (hp : s.tt.periodDue = none)
    (hpassed : s.tt.passed = s.ttShadow.map ttEncode) (hcheck : s.ttCheck s.ttShadow s.period false = 0) :
    (ttChange tb s).tt.swapDue = none ∧ (ttChange tb s).tt.done = some 0 ∧ (ttChange tb s).ttActive = s.ttShadow ∧
      (ttChange tb s).period = s.period := by
  have htable : s.ttPassed = s.ttShadow := by
    unfold State.ttPassed
    rw [hpassed, ttDecode_passed]
  obtain ⟨hdue, hdone, -, -⟩ := ttSwapDecided_facts 0 s
  obtain ⟨htt, hactive, hperiod⟩ := ttSwapApplied_facts s.ttShadow_length s.ttShadow_fits (per := s.period) (s.rd_lt R.TT_PERIOD_CYC)
    (ttSwapDecided 0 s)
  rw [ttChange_swap hd hle hp, htable]
  dsimp only
  rw [hcheck, if_neg (not_not_intro rfl)]
  split
  · obtain ⟨-, -, htt', hactive', hperiod'⟩ := ttReject_facts (show 0x0B < 256 by decide)
      (ttSwapApplied s.ttShadow s.period (ttSwapDecided 0 s))
    rw [htt', hactive', hperiod', htt, hactive, hperiod]
    exact ⟨hdue, hdone, rfl, rfl⟩
  · rw [htt, hactive, hperiod]
    exact ⟨hdue, hdone, rfl, rfl⟩

/-- A swap that does not pass again changes neither the table nor the period. -/
theorem ttChange_swap_failed {s : State} {d tb : Nat} (hd : s.tt.swapDue = some d) (hle : d ≤ tb) (hp : s.tt.periodDue = none)
    (hcheck : s.ttCheck s.ttPassed s.period false ≠ 0) :
    (ttChange tb s).tt.swapDue = none ∧ (ttChange tb s).ttActive = s.ttActive ∧ (ttChange tb s).period = s.period ∧
      (ttChange tb s).rd R.TT_STAT_REJ = 1 := by
  have hcode : s.ttCheck s.ttPassed s.period false < 256 := Nat.lt_of_le_of_lt (s.ttCheck_le _ _ _) (by decide)
  rw [ttChange_swap hd hle hp]
  dsimp only
  rw [if_pos hcheck]
  generalize s.ttCheck s.ttPassed s.period false = code at hcode
  obtain ⟨hdue, -, hactive, hperiod⟩ := ttSwapDecided_facts code s
  obtain ⟨hrej, -, htt', hactive', hperiod'⟩ := ttReject_facts hcode (ttSwapDecided code s)
  rw [htt', hactive', hperiod', hactive, hperiod]
  exact ⟨hdue, rfl, rfl, hrej⟩

/-- A period decided on without a swap, and in force. -/
def ttPeriodApplied (p : Nat) (s : State) : State :=
  ((s.setTt { s.tt with swapDue := none, periodDue := none, done := some 0 }).wr R.TT_STAT_PEND 0).wr R.TT_PERIOD_CYC p

theorem ttChange_period {s : State} {p d tb : Nat} (hs : s.tt.swapDue = none) (hp : s.tt.periodDue = some (p, d)) (hle : d ≤ tb)
    (hcheck : s.ttCheck s.ttActive p true = 0) : ttChange tb s = ttPeriodApplied p s := by
  unfold ttChange
  simp only [hs, hp, hle, Bool.not_false, Option.isNone_some, Bool.false_eq_true, and_false, ↓reduceIte, Option.getD_some,
    Option.isSome_some, hcheck, ne_eq, not_true_eq_false, false_and, Option.isSome_none, Bool.or_self]
  rfl

theorem ttPeriodApplied_facts {p : Nat} (hp : p < 2 ^ 15) (s : State) : (ttPeriodApplied p s).tt.periodDue = none ∧
    (ttPeriodApplied p s).period = p ∧ (ttPeriodApplied p s).ttActive = s.ttActive := by
  unfold ttPeriodApplied State.period
  refine ⟨?_, ?_, ?_⟩
  · rw [State.wr_tt, State.wr_tt, State.setTt_tt]
  · rw [State.rd_wr_same _ (by decide)]
    exact Nat.mod_eq_of_lt hp
  · rw [(tables_wr_status _ (by decide) _).1, (tables_wr_status _ (by decide) _).1, State.ttActive_setTt]

/-- Settles O14: each write and each change due is the check, and what it decides on. -/
theorem timetableChanges : Obligations.TimetableChanges := by
  intro s hr
  have hswap : exec .ttCtlSwap s = .next (ttSwapWrite s.cleared) := live_next _ hr
  have hperiod : ∀ v : Word, exec (.ttPeriodCyc v) s = .next (ttPeriodWrite (R.TT_PERIOD_CYC.get v) s.cleared) := fun v => live_next _ hr
  have hdue : exec .timetableChangeDue s = .next (ttChange s.cleared.time.tbLast s.cleared) := live_next ttChangeIfDue hr
  refine ⟨fun hpend hcheck => ⟨_, hswap.trans (congrArg _ (ttSwapWrite_passed (s := s.cleared) hpend hcheck)),
      ttSwapPending_facts s.cleared⟩,
    fun hpend hcheck => ⟨_, hswap.trans (congrArg _ (ttSwapWrite_failed (s := s.cleared) hpend hcheck)), ?_⟩,
    fun v hlock hnew hcheck => ⟨_, (hperiod v).trans (congrArg _ (ttPeriodWrite_passed (s := s.cleared) hlock hnew hcheck)),
      ttPeriodPending_facts _ s.cleared⟩,
    fun v hlock => ⟨_, hperiod v, if_pos hlock⟩,
    fun d hd hle hp hpassed hcheck => ⟨_, hdue, ttChange_swap_passed (s := s.cleared) hd hle hp hpassed hcheck⟩,
    fun d hd hle hp hcheck => ⟨_, hdue, ttChange_swap_failed (s := s.cleared) hd hle hp hcheck⟩,
    fun p d hs hp hle hcheck => ⟨_, hdue.trans (congrArg _ (ttChange_period (s := s.cleared) hs hp hle hcheck)), ?_⟩⟩
  · have hcode := Nat.lt_of_le_of_lt (s.cleared.ttCheck_le s.ttShadow s.ttPeriodNext s.tt.periodDue.isSome) (show 0x0A < 256 by decide)
    obtain ⟨hrej, hrejcode, htt, -, -⟩ := ttReject_facts hcode s.cleared
    exact ⟨htt, hrej, hrejcode⟩
  · obtain ⟨-, hlong⟩ := State.ttCheck_period hcheck
    exact ttPeriodApplied_facts (by omega) s.cleared

end Sys2Proof.Machine
end

section
/-! O15: the check of a reloaded table and the bank swap (02 R80–R84; 04 R156; assumption log 36 for the count of failures). -/

namespace Sys2Proof.Machine

/-- The state with the lane engine replaced. -/
def State.setLn (s : State) (x : LnState) : State := { s with ln := x }

@[simp] theorem State.setLn_ln (s : State) (x : LnState) : (s.setLn x).ln = x := rfl
@[simp] theorem State.setLn_seq (s : State) (x : LnState) : (s.setLn x).seq = s.seq := rfl

/-- A field at its own address does not depend on the bank in force. -/
theorem State.rd_setLn (s : State) (x : LnState) {f : Fld} (h : ownWord f.addr) : (s.setLn x).rd f = s.rd f := by
  refine State.rd_congr ?_
  unfold State.word
  rw [home_ownWord _ h, home_ownWord _ h]
  rfl

/-! ### The start of a check -/

/-- A check started: its table, and no result yet. -/
def checkStarted (id : Nat) (s : State) : State :=
  let u := (s.wr R.LN_TBLRES_DONE 0).wr R.LN_TBLRES_FAIL 0
  u.setLn { u.ln with checking := some id }

theorem tblchkWrite_go {v : Word} (h : R.LN_TBLCHK_GO.get v = 1) (s : State) :
    tblchkWrite v s = checkStarted (R.LN_TBLCHK_ID.get v) s := by
  unfold tblchkWrite
  rw [if_pos h]
  unfold checkStarted State.setLn
  rfl

theorem checkStarted_facts (id : Nat) (s : State) : (checkStarted id s).ln.checking = some id ∧
    (checkStarted id s).rd R.LN_TBLRES_DONE = 0 ∧ (checkStarted id s).rd R.LN_TBLRES_FAIL = 0 := by
  unfold checkStarted
  dsimp only
  refine ⟨rfl, ?_, ?_⟩
  · rw [State.rd_setLn _ _ (by decide), State.rd_wr_missed _ (by decide), State.rd_wr_same _ (by decide)]
    rfl
  · rw [State.rd_setLn _ _ (by decide), State.rd_wr_same _ (by decide)]
    rfl

/-! ### The end of a check -/

/-- A check that has ended: none runs, and its table is loaded. -/
def checkEnded (s : State) : State := s.setLn { s.ln with checking := none, loading := none }

/-- A check passed: the table's stale bit clears at the next boundary. -/
def checkPassed (id : Nat) (s : State) : State :=
  (s.wr R.LN_TBLRES_DONE 1).setLn { s.ln with clearStale := s.ln.clearStale ||| 2 ^ id, checkFails := smapErase id s.ln.checkFails }

/-- A check failed, and counted. -/
def checkFailed (id : Nat) (s : State) : State :=
  let u := s.wr R.LN_TBLRES_FAIL 1
  u.setLn { u.ln with checkFails := smapSet (fun _ => 0) s.ln.checkFails id (smapGet (fun _ => 0) s.ln.checkFails id + 1) }

theorem tableCheckDone_passed {s : State} {id : Nat} (h : s.ln.checking = some id) (hplace : (tblPlace id).2 ≠ 0)
    (hcrc : crc32c (s.tableBytes s.ln.bankB id) = s.rd R.LN_TBLCRC) : tableCheckDone true s = checkPassed id (checkEnded s) := by
  have hword : (checkEnded s).rd R.LN_TBLCRC = s.rd R.LN_TBLCRC := s.rd_setLn _ (by decide)
  have hok : (true && (tblPlace id).2 != 0 &&
      crc32c ((checkEnded s).tableBytes (checkEnded s).ln.bankB id) == (checkEnded s).rd R.LN_TBLCRC) = true := by
    rw [hword, ← hcrc]
    simpa using ⟨hplace, rfl⟩
  unfold tableCheckDone
  rw [h]
  exact if_pos hok

theorem checkPassed_facts (id : Nat) (s : State) : (checkPassed id (checkEnded s)).ln.checking = none ∧
    (checkPassed id (checkEnded s)).rd R.LN_TBLRES_DONE = 1 ∧ testB (checkPassed id (checkEnded s)).ln.clearStale id = true := by
  unfold checkPassed
  refine ⟨rfl, ?_, ?_⟩
  · rw [State.rd_setLn _ _ (by decide), State.rd_wr_same _ (by decide)]
    rfl
  · rw [State.setLn_ln, testB_eq_testBit, Nat.testBit_or, Nat.testBit_two_pow_self, Bool.or_true]

theorem tableCheckDone_failed {s : State} {id : Nat} (h : s.ln.checking = some id) : tableCheckDone false s =
    let u := checkFailed id (checkEnded s)
    if smapGet (fun _ => 0) s.ln.checkFails id + 1 = 2 ∧ u.stale id = true then mpCause 3 id 0 u else u := by
  unfold tableCheckDone
  rw [h]
  dsimp only
  rw [Bool.false_and, Bool.false_and, if_neg Bool.false_ne_true]
  unfold checkFailed checkEnded State.setLn
  rfl

theorem checkFailed_facts (id : Nat) (s : State) : (checkFailed id (checkEnded s)).ln.checking = none ∧
    (checkFailed id (checkEnded s)).rd R.LN_TBLRES_FAIL = 1 ∧ (checkFailed id (checkEnded s)).ln.clearStale = s.ln.clearStale ∧
    (checkFailed id (checkEnded s)).seq.raised = s.seq.raised ∧ (checkFailed id (checkEnded s)).stale id = s.stale id := by
  unfold checkFailed checkEnded
  dsimp only
  refine ⟨?_, ?_, ?_, ?_, ?_⟩
  · rw [State.setLn_ln, State.wr_ln]
    rfl
  · rw [State.rd_setLn _ _ (by decide), State.rd_wr_same _ (by decide)]
    rfl
  · rw [State.setLn_ln, State.wr_ln]
    rfl
  · rw [State.setLn_seq, State.wr_seq, State.setLn_seq]
  · unfold State.stale State.bit
    rw [State.rd_setLn _ _ (by decide), State.rd_wr_missed _ (by decide), State.rd_setLn _ _ (by decide)]

/-! ### The bank swap (04 R156) -/

/-- Whether the banks may change over: no table is stale and none is being loaded. -/
def State.swapOk (s : State) : Bool := s.rd R.LN_TBLSTALE == 0 && !s.loadInProgress

/-- At its tick a swap ends, with the banks changed over where they may. -/
theorem bankSwapIfDue_ln {s : State} {tick : Nat} (h : s.ln.bankTick = some tick) (hdue : 0 ≤ modDiff 32 s.tickno tick) :
    (bankSwapIfDue s).ln =
      { s.ln with bankTick := none, bankDone := some s.swapOk, bankB := if s.swapOk then !s.ln.bankB else s.ln.bankB } := by
  have hswap : bankSwapIfDue s =
      let u := (s.wr R.LN_BANK_PEND 0).setLn { s.ln with bankTick := none, bankDone := some s.swapOk }
      if s.swapOk then
        (u.wr R.LN_BANK_ACTIVE (1 - u.rd R.LN_BANK_ACTIVE)).setLn
          { (u.wr R.LN_BANK_ACTIVE (1 - u.rd R.LN_BANK_ACTIVE)).ln with bankB := !u.ln.bankB }
      else u := by
    unfold bankSwapIfDue
    rw [h]
    exact if_neg (by omega)
  rw [hswap]
  dsimp only
  cases s.swapOk with
  | true =>
    rw [if_pos rfl, if_pos rfl, State.setLn_ln, State.wr_ln, State.setLn_ln]
  | false =>
    rw [if_neg Bool.false_ne_true, if_neg Bool.false_ne_true, State.setLn_ln]

/-- The step takes staged writes besides, which leave the swap's outcome. -/
theorem exec_bankSwapEffect {s : State} {tick : Nat} (hr : s.Running) (h : s.ln.bankTick = some tick)
    (hdue : 0 ≤ modDiff 32 s.tickno tick) : ∃ t, exec .bankSwapEffect s = .next t ∧
      t.ln.bankB = (if s.swapOk then !s.ln.bankB else s.ln.bankB) ∧ t.ln.bankTick = none ∧ t.ln.bankDone = some s.swapOk := by
  have hln := bankSwapIfDue_ln (s := s.cleared) h hdue
  have hprogress := drainStaging_progress (bankSwapIfDue s.cleared)
  rw [hln] at hprogress
  generalize hu : (drainStaging (bankSwapIfDue s.cleared)).ln = u at hprogress
  refine ⟨_, live_next (fun s => drainStaging (bankSwapIfDue s)) hr, ?_⟩
  rw [hu]
  exact ⟨congrArg LnState.bankB (a₁ := u.progress) hprogress, congrArg LnState.bankTick (a₁ := u.progress) hprogress,
    congrArg LnState.bankDone (a₁ := u.progress) hprogress⟩

/-- Settles O15: the steps of a check, each by the lemma of its outcome, and the swap by what may stop it. -/
theorem staleTablesAreChecked : Obligations.StaleTablesAreChecked := by
  intro s hr
  have hdone : ∀ ok, exec (.tableCheckDone ok) s = .next (tableCheckDone ok s.cleared) := fun ok => live_next _ hr
  refine ⟨fun v hgo => ⟨_, (live_next (tblchkWrite v) hr).trans (congrArg _ (tblchkWrite_go hgo _)), checkStarted_facts _ s.cleared⟩,
    fun id h hplace hcrc => ⟨_, (hdone true).trans (congrArg _ (tableCheckDone_passed (s := s.cleared) h hplace hcrc)),
      checkPassed_facts id s.cleared⟩,
    fun id h hfirst => ⟨_, (hdone false).trans (congrArg _ (tableCheckDone_failed (s := s.cleared) h)), ?_⟩,
    fun id h hsecond hstale => ⟨_, (hdone false).trans (congrArg _ (tableCheckDone_failed (s := s.cleared) h)), ?_⟩,
    fun tick h hdue hstale hload => ?_, fun tick h hdue hstale => ?_⟩
  · obtain ⟨hnone, hfail, hclear, hraised, -⟩ := checkFailed_facts id s.cleared
    dsimp only
    rw [if_neg (show ¬ (smapGet (fun _ => 0) s.cleared.ln.checkFails id + 1 = 2 ∧ _) from fun ⟨h2, _⟩ => by
      rw [State.cleared_ln, hfirst] at h2; cases h2)]
    exact ⟨hnone, hfail, hclear, hraised⟩
  · obtain ⟨hnone, -, -, hraised, hkeeps⟩ := checkFailed_facts id s.cleared
    dsimp only
    rw [if_pos (show smapGet (fun _ => 0) s.cleared.ln.checkFails id + 1 = 2 ∧ _ from
      ⟨by rw [State.cleared_ln, hsecond], hkeeps.trans hstale⟩)]
    exact ⟨hnone, congrArg (· ++ [(3, id)]) hraised⟩
  · have hok : s.swapOk = true := by
      unfold State.swapOk
      rw [hstale, hload]
      rfl
    have hswap := exec_bankSwapEffect hr h hdue
    rw [hok] at hswap
    exact hswap
  · have hno : s.swapOk = false := by
      unfold State.swapOk
      rw [beq_eq_false_iff_ne.mpr hstale, Bool.false_and]
    have hswap := exec_bankSwapEffect hr h hdue
    rw [hno] at hswap
    exact hswap

end Sys2Proof.Machine
end

section
/-! O12: DATAPATH, HOLD8, LANE_SUSPECT, LANE_LOST and ISUM (02 R72, R78, R79, R85–R87; 03 R108). -/

namespace Sys2Proof.Machine

/-! ### DATAPATH and HOLD8 (02 R78, R79) -/

theorem datapathIfDue_due {s : State} (hrun : 3 ≤ s.rd R.LN_STAT_HOLDRUN) (hhold : s.ln.holdThisTick = true)
    (hnew : s.hasCause 0 = false) : datapathIfDue s = datapathRaise s :=
  if_pos ⟨hrun, hhold, by rw [hnew]; rfl⟩

/-- DATAPATH is raised and latched at once. -/
theorem datapathRaise_acts (s : State) : (datapathRaise s).seq.raised = s.seq.raised ++ [(0, 0)] ∧
    (datapathRaise s).te.evs = s.te.evs ++ [(39, 0x020A)] ∧ (datapathRaise s).bit R.LN_MD_FLT 0 = true := by
  unfold datapathRaise
  refine ⟨?_, ?_, ?_⟩
  · rw [State.wrBit_seq, State.cause_seq]
  · rw [State.wrBit_te, State.cause_te]
    rfl
  · rw [State.bit_wrBit_true _ (by decide) (by decide), decide_eq_true rfl, Bool.or_true]

@[simp] theorem State.gateRefresh_seq (s : State) : s.gateRefresh.seq = s.seq :=
  (State.gateRefresh_sound (ms := 0x40000000) rfl s (sound_refl _ s)).same .seq rfl
@[simp] theorem State.brakeSet_gd (s : State) : s.brakeSet.gd = s.gd :=
  (State.brakeSet_sound (ms := 0x4000) rfl s (sound_refl _ s)).same .gd rfl
@[simp] theorem State.brakeSet_te (s : State) : s.brakeSet.te = s.te :=
  (State.brakeSet_sound (ms := 0x2000000) rfl s (sound_refl _ s)).same .te rfl

/-- The brake newly commanded set: the watch for it begins (05 R196). -/
def State.setWatched (s : State) : State :=
  { s with seq := { s.seq with setAt := s.time.tb, brkHigh := 0, release := false, setWatch := true } }

theorem State.brakeSet_eq (s : State) : s.brakeSet =
    if (s.wr R.SB_STAT_SBCSET 1).on R.LN_MD_BRK_SETCMD then s.wr R.SB_STAT_SBCSET 1
    else ((s.wr R.SB_STAT_SBCSET 1).wr R.LN_MD_BRK_SETCMD 1).setWatched := rfl

theorem State.setWatched_facts (s : State) : s.setWatched.seq.raised = s.seq.raised ∧ ∀ f, s.setWatched.rd f = s.rd f :=
  ⟨rfl, fun _ => rfl⟩

/-- The brake set keeps the causes raised, and its command stands (05 R196). -/
theorem brakeSet_facts (s : State) : s.brakeSet.seq.raised = s.seq.raised ∧ s.brakeSet.rd R.LN_MD_BRK_SETCMD = 1 := by
  rw [State.brakeSet_eq]
  split
  · next hon =>
    have hlt := (s.wr R.SB_STAT_SBCSET 1).rd_lt R.LN_MD_BRK_SETCMD
    have hne : (s.wr R.SB_STAT_SBCSET 1).rd R.LN_MD_BRK_SETCMD ≠ 0 := bne_iff_ne.mp hon
    change _ < 2 at hlt
    exact ⟨by rw [State.wr_seq], by omega⟩
  · obtain ⟨hraised, hrd⟩ := ((s.wr R.SB_STAT_SBCSET 1).wr R.LN_MD_BRK_SETCMD 1).setWatched_facts
    rw [hraised, hrd, State.wr_seq, State.wr_seq, State.rd_wr_same _ (by decide)]
    exact ⟨rfl, rfl⟩

/-- HOLD8 opens the gate-enable chain (10 R345). -/
theorem State.gateChain_hold8 {s : State} (h : s.hasCause 1 = true) (c : Nat) : s.gateChain c = false := by
  unfold State.gateChain State.hold8
  simp [h]

theorem hold8IfDue_acts {s : State} (hrun : 8 ≤ s.rd R.LN_STAT_HOLDRUN) (hhold : s.ln.holdThisTick = true) (hnew : s.hasCause 1 = false) :
    (hold8IfDue s).seq.raised = s.seq.raised ++ [(1, 0)] ∧ (hold8IfDue s).te.evs = s.te.evs ++ [(39, 0x020B)] ∧
      (∀ c, c < 7 → ((hold8IfDue s).gch c).drive = false) ∧ (hold8IfDue s).rd R.LN_MD_BRK_SETCMD = 1 := by
  have hdue : hold8IfDue s = (s.cause 1 0 0 (s.word (R.LN_STAT_HOLDRUN).addr).toNat).gateRefresh.brakeSet :=
    if_pos ⟨hrun, hhold, by rw [hnew]; rfl⟩
  obtain ⟨hraised, hset⟩ := brakeSet_facts (s.cause 1 0 0 (s.word (R.LN_STAT_HOLDRUN).addr).toNat).gateRefresh
  rw [hdue]
  refine ⟨?_, ?_, fun c hc => ?_, hset⟩
  · rw [hraised, State.gateRefresh_seq, State.cause_seq]
  · rw [State.brakeSet_te, State.gateRefresh_te, State.cause_te]
    rfl
  · unfold State.gch
    rw [State.brakeSet_gd]
    exact (State.drive_gateRefresh _ hc).trans (State.gateChain_hold8 (s.cause_hasCause 1 0 0 _) c)

/-! ### LANE_SUSPECT (02 R72) -/

/-- The errors of a lane forgotten. -/
def State.errorsForgotten (lane : Nat) (s : State) : State :=
  { s with ln.errTicks := s.ln.errTicks.mapFinIdx (fun i x _ => if i = lane then [] else x) }

theorem laneSuspectIfDue_due {s : State} {lane t0 : Nat} (h : (((s.ln.errTicks.toList[lane]?).getD []).drop 3).head? = some t0)
    (hsoon : wrapTo 32 ((s.tickno : Int) - t0) < 4096) :
    laneSuspectIfDue lane s = (s.errorsForgotten lane).event Ev.LANE_SUSPECT (lane + 1) := by
  unfold laneSuspectIfDue
  dsimp only
  rw [h]
  exact if_pos hsoon

theorem errorsForgotten_facts (s : State) (lane : Fin 4) : (s.errorsForgotten lane.val).te = s.te ∧
    (s.errorsForgotten lane.val).ln.errTicks.toList[lane.val]? = some [] := by
  refine ⟨rfl, ?_⟩
  unfold State.errorsForgotten
  simp

/-! ### LANE_LOST (02 R85–R87) -/

/-- A lane marked unusable, and LANE_LOST raised. -/
def laneMarked (lane : Nat) (s : State) : State :=
  ((s.wrBit R.LN_STAT_UNUSABLE lane true).wr R.LN_STAT_DEGRADED 1).event Ev.LANE_LOST (lane + 1)

/-- The tables remapped after the first loss, and the siding lane moved where it was lost. -/
def laneRemapped (lane : Nat) (s : State) : State :=
  let u := if lane = 3 then s.wr R.LN_STAT_SIDING 2 else s
  (u.ttWriteActive (remap lane u.ttActive)).ttWriteShadow (remap lane u.ttShadow)

theorem laneLost_first {s : State} {lane : Nat} (h : s.rd R.LN_STAT_UNUSABLE = 0) :
    laneLost lane s = laneRemapped lane (laneMarked lane s) := by
  have husable : testB 0 lane = false := by rw [testB_eq_testBit, Nat.zero_testBit]
  unfold laneLost
  rw [h, husable]
  rfl

theorem laneLost_second {s : State} {lane : Nat} (h : s.rd R.LN_STAT_UNUSABLE ≠ 0) (hlane : s.bit R.LN_STAT_UNUSABLE lane = false) :
    laneLost lane s =
      (laneMarked lane s).cause 0 (lane + 1) 0 ((laneMarked lane s).word (R.LN_STAT_HOLDRUN).addr).toNat := by
  unfold State.bit at hlane
  unfold laneLost
  rw [hlane, if_neg Bool.false_ne_true, bne_iff_ne.mpr h]
  exact if_pos rfl

theorem laneMarked_facts (lane : Fin 4) (s : State) : (laneMarked lane.val s).bit R.LN_STAT_UNUSABLE lane.val = true ∧
    (laneMarked lane.val s).rd R.LN_STAT_DEGRADED = 1 ∧ (laneMarked lane.val s).te.evs = s.te.evs ++ [(39, 0x0205)] ∧
    (laneMarked lane.val s).seq = s.seq := by
  have hrd : ∀ (u : State) (f : Fld), f.addr = R.LN_STAT_UNUSABLE.addr → (u.event Ev.LANE_LOST (lane.val + 1)).rd f = u.rd f :=
    fun u f hf => rd_event u _ _ (by decide) (by rw [hf]; unfold apartFromQueues; decide)
  unfold laneMarked
  refine ⟨?_, ?_, ?_, ?_⟩
  · have hbit := s.bit_wrBit_true (f := R.LN_STAT_UNUSABLE) (by decide) lane.isLt lane.val
    rw [decide_eq_true rfl, Bool.or_true] at hbit
    unfold State.bit at hbit ⊢
    rw [hrd _ _ rfl, State.rd_wr_missed _ (by decide), hbit]
  · rw [hrd _ R.LN_STAT_DEGRADED rfl, State.rd_wr_same _ (by decide)]
    rfl
  · rw [State.event_te, State.wr_te, State.wrBit_te]
    rfl
  · rw [State.event_seq, State.wr_seq, State.wrBit_seq]

/-- The remapping leaves the marks of the lanes. -/
theorem laneRemapped_facts (lane : Nat) (s : State) : (laneRemapped lane s).rd R.LN_STAT_UNUSABLE = s.rd R.LN_STAT_UNUSABLE ∧
    (laneRemapped lane s).rd R.LN_STAT_DEGRADED = s.rd R.LN_STAT_DEGRADED ∧ (laneRemapped lane s).te = s.te := by
  have hsiding : (if lane = 3 then s.wr R.LN_STAT_SIDING 2 else s).rd R.LN_STAT_UNUSABLE = s.rd R.LN_STAT_UNUSABLE ∧
      (if lane = 3 then s.wr R.LN_STAT_SIDING 2 else s).rd R.LN_STAT_DEGRADED = s.rd R.LN_STAT_DEGRADED ∧
      (if lane = 3 then s.wr R.LN_STAT_SIDING 2 else s).te = s.te := by
    split
    · exact ⟨State.rd_wr_missed _ (by decide) 2, State.rd_wr_missed _ (by decide) 2, State.wr_te _ _ _⟩
    · exact ⟨rfl, rfl, rfl⟩
  have htables : ∀ (u : State) (a b : List TtEntry), ((u.ttWriteActive a).ttWriteShadow b).Sound 0x2002000000 u := fun u a b =>
    State.ttWriteShadow_sound rfl _ b (State.ttWriteActive_sound rfl u a (sound_refl _ u))
  unfold laneRemapped
  dsimp only
  generalize (if lane = 3 then s.wr R.LN_STAT_SIDING 2 else s) = u at hsiding
  obtain ⟨hunusable, hdegraded, hte⟩ := hsiding
  have h := htables u (remap lane u.ttActive) (remap lane u.ttShadow)
  rw [← hunusable, ← hdegraded, ← hte]
  exact ⟨h.rd_eq (home_ownWord _ (by decide)) (home_ownWord _ (by decide)) (by decide),
    h.rd_eq (home_ownWord _ (by decide)) (home_ownWord _ (by decide)) (by decide), h.same .te (by decide)⟩

/-- The state without the mark that a lane has failed its self-test. -/
def State.bistTaken (lane : Nat) (s : State) : State := s.setLn { s.ln with bistFailed := withBit s.ln.bistFailed lane false }

theorem laneLostDue_failed {s : State} {lane : Nat} (h : testB s.ln.bistFailed lane = true) :
    laneLostDue lane s = laneLost lane (s.bistTaken lane) :=
  if_pos h

/-! ### ISUM (03 R108) -/

theorem isumIfDue_posted {s : State} (hnone : s.cfNew = none) (hrun : 4 ≤ s.cf.isumRun) (hnew : s.cf.isumRaised = false) :
    (isumIfDue s).cf.isumRaised = true ∧ (isumIfDue s).seq.raised = s.seq.raised ++ [(4, 0)] ∧
      (isumIfDue s).te.evs = s.te.evs ++ [(39, 0x020E)] := by
  unfold isumIfDue
  rw [hnone]
  dsimp only
  rw [if_pos ⟨hrun, by rw [hnew]; rfl⟩, State.cause_cf, State.cause_seq, State.cause_te]
  exact ⟨rfl, rfl, rfl⟩

theorem isumIfDue_running {s : State} {c : CfState} (hc : s.cfNew = some c) (hrun : 4 ≤ c.isumRun) (hnew : c.isumRaised = false) :
    (isumIfDue s).cfNew = some { c with isumRaised := true } ∧ (isumIfDue s).seq.raised = s.seq.raised ++ [(4, 0)] := by
  unfold isumIfDue
  rw [hc]
  dsimp only
  rw [if_pos ⟨hrun, by rw [hnew]; rfl⟩, State.cause_cfNew, State.cause_seq]
  exact ⟨rfl, rfl⟩

/-- Settles O12: each watch by what it raises where it is due. -/
theorem datapathFaultsAreRaised : Obligations.DatapathFaultsAreRaised := by
  intro s hr
  have hlost : ∀ lane : Fin 4, testB s.ln.bistFailed lane.val = true →
      exec (.laneLost lane) s = .next (laneLost lane (s.cleared.bistTaken lane)) := fun lane hfailed =>
    (live_next _ hr).trans (congrArg _ (laneLostDue_failed (s := s.cleared) hfailed))
  have hunusable : ∀ lane, (s.cleared.bistTaken lane).rd R.LN_STAT_UNUSABLE = s.rd R.LN_STAT_UNUSABLE := fun lane =>
    s.cleared.rd_setLn _ (by decide)
  refine ⟨fun hrun hhold hnew => ⟨_, (live_next _ hr).trans (congrArg _ (datapathIfDue_due (s := s.cleared) hrun hhold hnew)),
      datapathRaise_acts s.cleared⟩,
    fun hrun hhold hnew => ⟨_, live_next _ hr, hold8IfDue_acts (s := s.cleared) hrun hhold hnew⟩,
    fun lane t0 h hsoon => ⟨_, (live_next (laneSuspectIfDue lane.val) hr).trans
      (congrArg _ (laneSuspectIfDue_due (s := s.cleared) h hsoon)), ?_⟩,
    fun lane hfailed hall => ⟨_, (hlost lane hfailed).trans (congrArg _ (laneLost_first ((hunusable lane).trans hall))), ?_⟩,
    fun lane hfailed hsome hlane => ⟨_, (hlost lane hfailed).trans
      (congrArg _ (laneLost_second (fun h => hsome ((hunusable lane).symm.trans h)) ?_)), ?_⟩,
    fun hnone hrun hnew => ⟨_, live_next _ hr, isumIfDue_posted (s := s.cleared) hnone hrun hnew⟩,
    fun c hc hrun hnew => ⟨_, live_next _ hr, isumIfDue_running (s := s.cleared) hc hrun hnew⟩⟩
  · obtain ⟨hte, herrs⟩ := errorsForgotten_facts s.cleared lane
    rw [State.event_te, State.event_ln, hte]
    exact ⟨rfl, herrs⟩
  · obtain ⟨hbit, hdegraded, hevs, -⟩ := laneMarked_facts lane (s.cleared.bistTaken lane)
    obtain ⟨hunusable', hdegraded', hte⟩ := laneRemapped_facts lane (laneMarked lane (s.cleared.bistTaken lane))
    rw [hdegraded', hte]
    refine ⟨?_, hdegraded, hevs⟩
    unfold State.bit at hbit ⊢
    rw [hunusable', hbit]
  · unfold State.bit at hlane ⊢
    rw [hunusable, hlane]
  · obtain ⟨-, -, -, hseq⟩ := laneMarked_facts lane (s.cleared.bistTaken lane)
    rw [State.cause_seq, hseq]
    rfl

end Sys2Proof.Machine
end

section
/-! SUPPORT. The tasks' inputs and outputs, and what they leave of the lane engine (02 R54, R74–R77). -/

namespace Sys2Proof.Machine

/-! ### Inputs -/

/-- What OUTER takes at its start, once its variables have been kept for a Hold-1. -/
def outerTaken (s : State) : State :=
  let s := alignOuter s
  let s := { s with ol := { s.ol with leverAge := s.ol.leverAge + 1 } }
  let s := takeLevers 4 (takeRecords 4 (setpointApply s))
  let s := if s.loadPinOld then s else { s with ol.loadPinStale := false }
  formThermal (heaveTick (heaveStaleIfDue (tensionSrcIfDue (leverStaleIfDue s))))

theorem outerTake_eq (s : State) : outerTake s = outerTaken { s with ln.outerOld := some (s.ol, s.rd R.TH_TCEIL) } := rfl

theorem outerTaken_ln (s : State) : (outerTaken s).ln = s.ln := by
  have hage : ∀ u : State, u.Sound 0x80 s → ({ u with ol := { u.ol with leverAge := u.ol.leverAge + 1 } } : State).Sound 0x80 s :=
    fun u hu => sound_upd hu fun p hp => by cases p <;> first | rfl | cases hp
  have hpin : ∀ u : State, u.Sound 0x80 s → (if u.loadPinOld then u else { u with ol.loadPinStale := false }).Sound 0x80 s := fun u hu =>
    sound_ite hu (sound_upd hu fun p hp => by cases p <;> first | rfl | cases hp)
  exact (formThermal_sound rfl _ (heaveTick_sound rfl _ (heaveStaleIfDue_sound rfl _ (tensionSrcIfDue_sound rfl _
    (leverStaleIfDue_sound rfl _ (hpin _ (takeLevers_sound rfl 4 _ (takeRecords_sound rfl 4 _ (setpointApply_sound rfl _
      (hage _ (alignOuter_sound rfl s (sound_refl _ s)))))))))))).same .ln rfl

theorem taskTake_progress (code : Nat) (s : State) : (taskTake code s).ln.progress = s.ln.progress := by
  have hstandby : ∀ c u, (alignStandby c u).ln = u.ln := fun c u =>
    (alignStandby_sound (ms := 0x80) rfl c u (sound_refl _ u)).same .ln rfl
  unfold taskTake
  split
  · exact congrArg LnState.progress (hstandby 1 _)
  · rw [outerTake_eq, outerTaken_ln]
    rfl
  · exact congrArg LnState.progress (hstandby 3 s)

/-! ### A refused start of OUTER (04 R174, R176) -/

/-- Only an entry into RUN touches the tasks (02 R76). -/
theorem stateEffects_ln (old : Nat) {s : State} (h : s.drive ≠ 3) : (stateEffects old s).ln = s.ln := by
  unfold stateEffects
  extract_lets n ordered _ started _ flown _ entered braked last
  have hordered : ordered.ln = s.ln := (State.runOrder_sound (ms := 0x80) rfl s _ (sound_refl _ s)).same .ln rfl
  have hstarted : started.ln = ordered.ln := by
    unfold started
    split <;> rfl
  have hflown : flown.ln = started.ln := by
    unfold flown
    split <;> rfl
  have hentered : entered = flown := if_neg fun hr => h hr.1
  have hbraked : braked.ln = entered.ln := by
    unfold braked
    split
    · exact (State.brakeSet_sound (ms := 0x80) rfl entered (sound_refl _ _)).same .ln rfl
    · rfl
  have hlast : last.ln = braked.ln := by
    unfold last
    split
    · rfl
    · exact (State.brakePhase_sound (ms := 0x80) rfl braked 5 (sound_refl _ _)).same .ln rfl
  rw [State.gateRefresh_ln, hlast, hbraked, hentered, hflown, hstarted, hordered]

theorem enter_ln {state : Nat} (h : state < 8) (h3 : state ≠ 3) (sub cause : Nat) (demand : Bool) (s : State) :
    (enter state sub cause demand s).ln = s.ln := by
  unfold enter
  extract_lets a mode moded entered
  have hdrive : entered.drive = state := by
    unfold entered State.drive
    rw [State.rd_wr_missed _ (by decide), State.rd_wr_missed _ (by decide), State.rd_wr_missed _ (by decide),
      State.rd_wr_same _ (by decide)]
    exact Nat.mod_eq_of_lt h
  have hmoded : moded.ln = s.ln := by
    unfold moded
    split
    · rw [State.wr_ln, State.wr_ln]
    · split
      · rw [State.wr_ln]
      · rfl
  have hentered : entered.ln = moded.ln := by
    unfold entered
    rw [State.wr_ln, State.wr_ln, State.wr_ln, State.wr_ln]
  unfold State.driveEvent
  split
  · rw [stateEffects_ln _ (by rwa [hdrive]), hentered, hmoded]
  · rw [State.event_ln, stateEffects_ln _ (by rwa [hdrive]), hentered, hmoded]

theorem startRefused_ln (code : Nat) (s : State) : (startRefused code s).ln = s.ln := by
  have hdone : ∀ (u : State) (c r : Nat), (u.reqDone c r).ln = u.ln := fun u c r =>
    (State.reqDone_sound (ms := 0x80) rfl u c r (sound_refl _ u)).same .ln rfl
  unfold startRefused
  extract_lets _ _ u
  have hu : u.ln = s.ln := rfl
  rw [hdone, enter_ln (by decide) (by decide), State.wr_ln, hu]

/-! ### Outputs of OUTER (02 R54, R74, R76) -/

/-- OUTER's output taken over, with its status and its events. -/
def outerShown (l : OlLoop) (s : State) : State :=
  let s := outerEvents l (outerStatus { s with olp := l, olNew := none, ln.outerOld := none })
  { s with olp := if l.compl then l else { l with y := 0 } }

/-- The brake released at OUTER's order: its phase, its command and the sequencer's watch (05 R197). -/
def brakeReleased (s : State) : State :=
  { (s.wr R.LN_MD_BRK_PH 1).wr R.LN_MD_BRK_SETCMD 0 with
    seq := { s.seq with release := true, releaseAt := s.time.tb, brkLow := 0, setWatch := false } }.soutRefresh

/-- What OUTER asks of the drive at its posting, where it refuses no start. -/
def outerAsked (l : OlLoop) (s : State) : State :=
  let s := { s with seq := { s.seq with flyStart := false, resume := false } }
  let s := if l.askPath then { s with fb.change := some 1 } else s
  startCompleteIfDue (if l.askRelease then brakeReleased s else s)

theorem outerPost_eq (s : State) : outerPost s =
    match s.olNew with
    | none => s
    | some l => match l.refuse with
      | some code => startRefused code (outerShown l s)
      | none => outerAsked l (outerShown l s) := by
  unfold outerPost outerShown outerAsked brakeReleased
  rfl

theorem outerShown_ln (l : OlLoop) (s : State) : (outerShown l s).ln = { s.ln with outerOld := none } := by
  have hevents : ∀ u, (outerEvents l u).ln = u.ln := fun u => (outerEvents_sound (ms := 0x80) rfl l u (sound_refl _ u)).same .ln rfl
  have hstatus : ∀ u, (outerStatus u).ln = u.ln := fun u => (outerStatus_sound (ms := 0x80) rfl u (sound_refl _ u)).same .ln rfl
  unfold outerShown
  extract_lets _ u
  show u.ln = _
  unfold u
  rw [hevents, hstatus]

theorem brakeReleased_ln (s : State) : (brakeReleased s).ln = s.ln := by
  have hwatched : ∀ (u : State) (q : SeqState), ({ u with seq := q } : State).ln = u.ln := fun _ _ => rfl
  have hsout : ∀ u : State, u.soutRefresh.ln = u.ln := fun u => State.wr_ln u _ _
  unfold brakeReleased
  rw [hsout, hwatched, State.wr_ln, State.wr_ln]

theorem outerAsked_ln (l : OlLoop) (s : State) : (outerAsked l s).ln = s.ln := by
  have hcomplete : ∀ u, (startCompleteIfDue u).ln = u.ln := fun u =>
    (startCompleteIfDue_sound (ms := 0x80) rfl u (sound_refl _ u)).same .ln rfl
  unfold outerAsked
  extract_lets _ flown _ changed
  have hchanged : changed.ln = flown.ln := by
    unfold changed
    split <;> rfl
  rw [hcomplete]
  split
  · rw [brakeReleased_ln, hchanged]
  · rw [hchanged]

theorem outerPost_progress (s : State) : (outerPost s).ln.progress = s.ln.progress := by
  rw [outerPost_eq]
  split
  · rfl
  · split
    · rw [startRefused_ln, outerShown_ln]
      rfl
    · rw [outerAsked_ln, outerShown_ln]
      rfl

theorem outerBack_progress (s : State) : (outerBack s).ln.progress = s.ln.progress := by
  unfold outerBack
  split
  · rw [State.wr_ln]
    rfl
  · rfl

theorem outerRest_progress (s : State) : (outerRest s).ln.progress = s.ln.progress := by
  have hrest : ∀ u : State, (({ u with olp := { u.olp with tdem := 0, d := 0 } } : State).wr R.LN_OL_TDEM 0).ln = u.ln := fun u =>
    State.wr_ln _ _ _
  unfold outerRest
  exact (congrArg LnState.progress (hrest _)).trans (outerBack_progress s)

end Sys2Proof.Machine
end

section
/-! O10: the substitution points of the tasks (02 R54, R74–R79). -/

namespace Sys2Proof.Machine

/-! ### Outputs posted, held and at rest -/

theorem taskPost_progress (code : Nat) (s : State) : (taskPost code s).ln.progress = s.ln.progress := by
  unfold taskPost
  split
  · exact congrArg LnState.progress ((cfPost_sound (ms := 0x80) rfl s (sound_refl _ s)).same .ln rfl)
  · exact outerPost_progress s
  · exact congrArg LnState.progress ((limPost_sound (ms := 0x80) rfl s (sound_refl _ s)).same .ln rfl)

theorem taskHold_progress (code : Nat) (s : State) : (taskHold code s).ln.progress = s.ln.progress := by
  have hlim : (shareHold (holdCommit false { s with limNew := none })).ln = (holdCommit false { s with limNew := none }).ln :=
    (shareHold_sound (ms := 0x80) rfl _ (sound_refl _ _)).same .ln rfl
  have hcommit : (holdCommit false { s with limNew := none }).ln = s.ln :=
    (holdCommit_sound (ms := 0x80) rfl false _ (sound_refl _ _)).same .ln rfl
  unfold taskHold
  split
  · rfl
  · exact outerBack_progress s
  · rw [hlim, hcommit]

theorem taskRest_progress (code : Nat) (s : State) : (taskRest code s).ln.progress = s.ln.progress := by
  unfold taskRest
  split
  · exact congrArg LnState.progress ((cfRest_sound (ms := 0x80) rfl s (sound_refl _ s)).same .ln rfl)
  · exact outerRest_progress s
  · exact congrArg LnState.progress ((limRest_sound (ms := 0x80) rfl s (sound_refl _ s)).same .ln rfl)

@[simp] theorem datapathRaise_ln (s : State) : (datapathRaise s).ln = s.ln :=
  (datapathRaise_sound (ms := 0x80) rfl s (sound_refl _ s)).same .ln rfl
@[simp] theorem datapathIfDue_ln (s : State) : (datapathIfDue s).ln = s.ln :=
  (datapathIfDue_sound (ms := 0x80) rfl s (sound_refl _ s)).same .ln rfl
@[simp] theorem hold8IfDue_ln (s : State) : (hold8IfDue s).ln = s.ln :=
  (hold8IfDue_sound (ms := 0x80) rfl s (sound_refl _ s)).same .ln rfl

/-- A Hold-1 marks the tick, and leaves the tasks (02 R77). -/
theorem holdCount_facts (code : Nat) (s : State) : (holdCount code s).ln.holdThisTick = true ∧
    ∀ c, (holdCount code s).task c = s.task c := by
  unfold holdCount
  extract_lets counted _ marked
  have hln : counted.ln = s.ln := by
    unfold counted
    rw [State.event_ln, State.inc_ln]
  split
  · next h => exact ⟨h, fun c => State.task_congr (congrArg LnState.progress hln) c⟩
  · have hmarked : (hold8IfDue (datapathIfDue (marked.inc R.LN_STAT_HOLDRUN))).ln = marked.ln := by
      rw [hold8IfDue_ln, datapathIfDue_ln, State.inc_ln]
    refine ⟨by rw [hmarked], fun c => ?_⟩
    unfold State.task
    rw [hmarked, ← hln]

/-! ### The point -/

/-- What LIMSHARE's point notes before the output, and what it does besides after it. -/
def pointOpened (code : Nat) (s : State) : State := if code = 3 then vdcTake s else s
def pointClosed (code : Nat) (s : State) : State := if code = 3 then limAlways s else s

theorem pointOpened_keeps (code : Nat) (s : State) : (pointOpened code s).ln = s.ln ∧ (pointOpened code s).time = s.time := by
  unfold pointOpened
  split <;> exact ⟨rfl, rfl⟩

theorem pointClosed_keeps (code : Nat) (s : State) : (pointClosed code s).ln = s.ln ∧ (pointClosed code s).time = s.time := by
  have h := limAlways_sound (ms := 0xA0) rfl s (sound_refl _ s)
  unfold pointClosed
  split
  · exact ⟨h.same .ln rfl, h.same .time rfl⟩
  · exact ⟨rfl, rfl⟩

/-- The three ways in which a task's output of the tick comes about: its own, the one before once more, the rest output. -/
def outputPosted (code : Nat) (s : State) : State :=
  taskPost code (s.setTask code (fun t => { t with posted := true, everValid := true, held := false, rest := false }))
def outputHeld (code : Nat) (s : State) : State :=
  holdCount code (taskHold code (s.setTask code (fun t => { t with posted := true, held := true, rest := false })))
def outputRested (code : Nat) (s : State) : State :=
  let s := taskRest code (s.setTask code (fun t => { t with posted := true, held := true, rest := true }))
  holdCount code (if s.hasCause 0 then s else datapathRaise s)

/-- The time of a task's point. -/
def State.atPoint (s : State) (code : Nat) : State := s.advanceTo ((s.taskSlot code).1 + (s.taskSlot code).2)

theorem substitutionPoint_eq {task : Fin 3} {s : State} (h : (s.task (task.val + 1)).posted = false) : substitutionPoint task s =
    pointClosed (task.val + 1)
      (if (s.task (task.val + 1)).ready then outputPosted (task.val + 1) (pointOpened (task.val + 1) (s.atPoint (task.val + 1)))
      else if (s.task (task.val + 1)).everValid then outputHeld (task.val + 1) (pointOpened (task.val + 1) (s.atPoint (task.val + 1)))
      else outputRested (task.val + 1) (pointOpened (task.val + 1) (s.atPoint (task.val + 1)))) := by
  have hposted : ¬ ((s.atPoint (task.val + 1)).task (task.val + 1)).posted = true := fun hp => Bool.false_ne_true (h.symm.trans hp)
  exact if_neg hposted

section
variable {code : Nat} (hc : 1 ≤ code ∧ code ≤ 3) (s : State)
include hc

theorem outputPosted_facts : (outputPosted code s).task code =
      { s.task code with posted := true, everValid := true, held := false, rest := false } ∧
    (outputPosted code s).ln.holdThisTick = s.ln.holdThisTick ∧ (outputPosted code s).time = s.time := by
  unfold outputPosted
  generalize hu : s.setTask code _ = u
  have hhold : u.ln.holdThisTick = s.ln.holdThisTick := by rw [← hu]; rfl
  have htime : u.time = s.time := by rw [← hu, State.setTask_time]
  have hprogress := taskPost_progress code u
  refine ⟨?_, ?_, ?_⟩
  · rw [State.task_congr hprogress, ← hu, State.task_setTask_same s hc]
  · exact (congrArg LnState.holdThisTick (a₁ := (taskPost code u).ln.progress) hprogress).trans hhold
  · exact ((taskPost_sound (ms := 0x20) rfl code u (sound_refl _ u)).same .time rfl).trans htime

theorem outputHeld_facts : (outputHeld code s).task code = { s.task code with posted := true, held := true, rest := false } ∧
    (outputHeld code s).ln.holdThisTick = true := by
  unfold outputHeld
  generalize hu : s.setTask code _ = u
  obtain ⟨hmark, htask⟩ := holdCount_facts code (taskHold code u)
  refine ⟨?_, hmark⟩
  rw [htask, State.task_congr (taskHold_progress code u), ← hu, State.task_setTask_same s hc]

theorem outputRested_facts : (outputRested code s).task code = { s.task code with posted := true, held := true, rest := true } ∧
    (outputRested code s).ln.holdThisTick = true := by
  unfold outputRested
  generalize hu : s.setTask code _ = u
  have hraised : (if (taskRest code u).hasCause 0 then taskRest code u else datapathRaise (taskRest code u)).ln = (taskRest code u).ln := by
    split
    · rfl
    · exact datapathRaise_ln _
  obtain ⟨hmark, htask⟩ := holdCount_facts code (if (taskRest code u).hasCause 0 then taskRest code u else datapathRaise (taskRest code u))
  refine ⟨?_, hmark⟩
  have hprogress := (congrArg LnState.progress hraised).trans (taskRest_progress code u)
  rw [htask, State.task_congr hprogress, ← hu, State.task_setTask_same s hc]

end

/-- Settles O10: the three cases of a point by what they make of the task, its mark and the time. -/
theorem substitutionPointPostsOrHolds : Obligations.SubstitutionPointPostsOrHolds := by
  intro task s hr hposted
  have hc : 1 ≤ task.val + 1 ∧ task.val + 1 ≤ 3 := by omega
  have hexec := (live_next (substitutionPoint task) hr).trans (congrArg _ (substitutionPoint_eq (s := s.cleared) hposted))
  obtain ⟨hln, htime⟩ := pointOpened_keeps (task.val + 1) (s.cleared.atPoint (task.val + 1))
  generalize pointOpened (task.val + 1) (s.cleared.atPoint (task.val + 1)) = u at hexec hln htime
  have hclosed : ∀ v, (pointClosed (task.val + 1) v).ln = v.ln ∧ (pointClosed (task.val + 1) v).time = v.time := pointClosed_keeps _
  have htask : ∀ v c, (pointClosed (task.val + 1) v).task c = v.task c := fun v c =>
    State.task_congr (congrArg LnState.progress (hclosed v).1) c
  refine ⟨fun hready => ⟨_, hexec, ?_⟩, fun hready hvalid => ⟨_, hexec, ?_⟩, fun hready hvalid => ⟨_, hexec, ?_⟩⟩
  · obtain ⟨hout, hmark, hclock⟩ := outputPosted_facts hc u
    rw [if_pos (show (s.cleared.task (task.val + 1)).ready = true from hready), htask, hout, (hclosed _).1, hmark, hln, (hclosed _).2,
      hclock, htime]
    exact ⟨rfl, rfl, rfl, rfl, rfl⟩
  · obtain ⟨hout, hmark⟩ := outputHeld_facts hc u
    have hready' : ¬ (s.cleared.task (task.val + 1)).ready = true := fun h => Bool.false_ne_true (hready.symm.trans h)
    rw [if_neg hready', if_pos (show (s.cleared.task (task.val + 1)).everValid = true from hvalid), htask, hout, (hclosed _).1]
    exact ⟨rfl, rfl, rfl, hmark⟩
  · obtain ⟨hout, hmark⟩ := outputRested_facts hc u
    have hready' : ¬ (s.cleared.task (task.val + 1)).ready = true := fun h => Bool.false_ne_true (hready.symm.trans h)
    have hvalid' : ¬ (s.cleared.task (task.val + 1)).everValid = true := fun h => Bool.false_ne_true (hvalid.symm.trans h)
    rw [if_neg hready', if_neg hvalid', htask, hout, (hclosed _).1]
    exact ⟨rfl, rfl, rfl, hmark⟩

end Sys2Proof.Machine
end

section
/-! O9: a task's run at its start offset (02 R53, R54, R69). -/

namespace Sys2Proof.Machine

/-! ### The run in its steps -/

/-- The module at a task's start, with the parameters of that cycle taken over. -/
def State.atStart (s : State) (code : Nat) : State := drainImmediate (s.advanceTo (s.taskSlot code).1)

/-- What a task does from its start on: its reads, its inputs, its output, and the table errors it met. -/
def taskWorked (code start : Nat) (run : TaskRun) (s : State) : State :=
  tableErrors (s.runLane code) code start (runMet run) (taskCompute code (taskTake code (tableMarks code (runMet run) s)))

/-- A run that an error on its lane aborted (02 R69). -/
def taskAborted (code lane : Nat) (k : LaneFault) (s : State) : State :=
  let no := k = .upstream ∨ s.on R.LN_STAT_DEGRADED ∨ s.ln.rotated.isSome ∧ lane = s.rd R.LN_STAT_SIDING
  s.setTask code (fun t => { t with
    started := true, aborted := true, noRecompute := decide no, recompAt := if no then none else some (s.time.tb + 16) })

/-- With every lane usable the lane of a run is usable when its start's parameters have been taken. -/
theorem atStart_usable {s : State} (h : s.rd R.LN_STAT_UNUSABLE = 0) (code lane : Nat) :
    testB ((s.atStart code).rd R.LN_STAT_UNUSABLE) lane = false := by
  have hadvance : (s.advanceTo (s.taskSlot code).1).rd R.LN_STAT_UNUSABLE = s.rd R.LN_STAT_UNUSABLE := rfl
  have hsound := drainImmediate_sound (ms := 0x2000000000) rfl (s.advanceTo (s.taskSlot code).1) (sound_refl _ _)
  have hkept : (s.atStart code).rd R.LN_STAT_UNUSABLE = 0 :=
    (hsound.rd_eq (home_ownWord _ (by decide)) (home_ownWord _ (by decide)) rfl).trans (hadvance.trans h)
  rw [hkept, testB_eq_testBit, Nat.zero_testBit]

section
variable {code : Nat} {run : TaskRun} {s : State} (hfirst : (s.task code).started = false) (husable : s.rd R.LN_STAT_UNUSABLE = 0)
include hfirst husable

theorem taskRun_unfaulted (hf : run.fault = none) : taskRun code run s =
    taskDone code ((taskWorked code (s.taskSlot code).1 run (s.atStart code)).setTask code
      (fun t => { t with started := true, ready := true })) := by
  have hstarted : ¬ ((s.advanceTo (s.taskSlot code).1).task code).started = true := fun h => Bool.false_ne_true (hfirst.symm.trans h)
  have hlane := Bool.eq_false_iff.mp (atStart_usable husable code ((s.atStart code).runLane code))
  unfold taskRun
  dsimp only
  rw [if_neg hstarted, hf]
  exact if_neg hlane

theorem taskRun_faulted {k : LaneFault} {off : Nat} (hf : run.fault = some (k, off)) : taskRun code run s =
    taskAborted code ((s.atStart code).runLane code) k (runFault ((s.atStart code).runLane code) code (s.taskSlot code).1 k off
      (taskWorked code (s.taskSlot code).1 run (s.atStart code))) := by
  have hstarted : ¬ ((s.advanceTo (s.taskSlot code).1).task code).started = true := fun h => Bool.false_ne_true (hfirst.symm.trans h)
  have hlane := Bool.eq_false_iff.mp (atStart_usable husable code ((s.atStart code).runLane code))
  unfold taskRun
  dsimp only
  rw [if_neg hstarted, hf]
  exact if_neg hlane

end

/-! ### What the steps leave -/

theorem taskCompute_progress (code : Nat) (s : State) : (taskCompute code s).ln.progress = s.ln.progress := by
  unfold taskCompute
  split <;> rfl

theorem taskWorked_progress (code start : Nat) (run : TaskRun) (s : State) :
    (taskWorked code start run s).ln.progress = s.ln.progress := by
  unfold taskWorked
  rw [tableErrors_progress, taskCompute_progress, taskTake_progress, tableMarks_progress]

theorem atStart_task (code c : Nat) (s : State) : (s.atStart code).task c = s.task c :=
  State.task_congr (drainImmediate_progress (s.advanceTo (s.taskSlot code).1)) c

/-- A run without tables whose reads fail takes its time from its start alone. -/
theorem taskWorked_time {code : Nat} {run : TaskRun} (h : runMet run = []) (start : Nat) (s : State) :
    (taskWorked code start run s).time = s.time := by
  have hmarks := (tableMarks_sound (ms := 0x20) rfl code [] s (sound_refl _ s)).same .time rfl
  have htake : ∀ u, (taskTake code u).time = u.time := fun u => (taskTake_sound (ms := 0x20) rfl code u (sound_refl _ u)).same .time rfl
  have hcompute : ∀ u, (taskCompute code u).time = u.time := fun u =>
    (taskCompute_sound (ms := 0x20) rfl code u (sound_refl _ u)).same .time rfl
  unfold taskWorked
  rw [h]
  exact (hcompute _).trans ((htake _).trans hmarks)

theorem atStart_tb (code : Nat) (s : State) : (s.atStart code).time.tb = max s.time.tb (s.time.tbLast + (s.taskSlot code).1) :=
  congrArg TimeState.tb ((drainImmediate_sound (ms := 0x20) rfl _ (sound_refl _ (s.advanceTo (s.taskSlot code).1))).same .time rfl)

/-- A task's output of this tick stands. -/
def State.computed (s : State) (code : Nat) : Bool :=
  match code with
  | 1 => s.cfNew.isSome
  | 2 => s.olNew.isSome
  | _ => s.limNew.isSome

theorem computed_of_sound {s t : State} (h : t.Sound 0x22400 s) (code : Nat) : t.computed code = s.computed code := by
  have hcf : t.cfNew = s.cfNew := h.same .cfNew rfl
  have hol : t.olNew = s.olNew := h.same .olNew rfl
  have hlim : t.limNew = s.limNew := h.same .limNew rfl
  unfold State.computed
  rw [hcf, hol, hlim]

theorem taskCompute_computed (code : Nat) (s : State) : (taskCompute code s).computed code = true := by
  unfold taskCompute
  split <;> simp [State.computed]

theorem taskWorked_computed (code start : Nat) (run : TaskRun) (s : State) : (taskWorked code start run s).computed code = true :=
  (computed_of_sound (tableErrors_sound (ms := 0x22400) rfl _ code start (runMet run) _ (sound_refl _ _)) code).trans
    (taskCompute_computed code _)

theorem isumIfDue_cfNew (s : State) : (isumIfDue s).cfNew.isSome = s.cfNew.isSome := by
  have hcause : ∀ u : State, ∀ l v, (u.cause 4 l 0 v).cfNew = u.cfNew := fun u l v =>
    (State.cause_sound (ms := 0x400) rfl u 4 l 0 v (sound_refl _ u)).same .cfNew rfl
  unfold isumIfDue
  split
  · next hc =>
    split
    · rw [hcause, hc]
      rfl
    · rfl
  · split
    · rw [hcause]
    · rfl

theorem taskDone_computed (code : Nat) (s : State) : (taskDone code s).computed code = s.computed code := by
  unfold taskDone
  split
  · exact isumIfDue_cfNew s
  · rfl
  · exact computed_of_sound (limStage_sound (ms := 0x22400) rfl s (sound_refl _ s)) _

@[simp] theorem taskDone_ln (code : Nat) (s : State) : (taskDone code s).ln = s.ln :=
  (taskDone_sound (ms := 0x80) rfl code s (sound_refl _ s)).same .ln rfl
@[simp] theorem taskDone_time (code : Nat) (s : State) : (taskDone code s).time = s.time :=
  (taskDone_sound (ms := 0x20) rfl code s (sound_refl _ s)).same .time rfl

/-! ### A run with and without an error -/

section
variable {code : Nat} (hc : 1 ≤ code ∧ code ≤ 3) {run : TaskRun} {s : State}
  (hfirst : (s.task code).started = false) (husable : s.rd R.LN_STAT_UNUSABLE = 0)
include hc hfirst husable

theorem taskRun_ready (hf : run.fault = none) : ((taskRun code run s).task code).started = true ∧
    ((taskRun code run s).task code).ready = true ∧ (taskRun code run s).computed code = true ∧
    (run.tables = [] → (taskRun code run s).time.tb = max s.time.tb (s.time.tbLast + (s.taskSlot code).1)) := by
  have hmet : run.tables = [] → runMet run = [] := fun h => by
    unfold runMet
    rw [hf, h]
  have htask : (taskRun code run s).task code =
      { (taskWorked code (s.taskSlot code).1 run (s.atStart code)).task code with started := true, ready := true } := by
    rw [taskRun_unfaulted hfirst husable hf, State.task_congr (congrArg LnState.progress (taskDone_ln code _)),
      State.task_setTask_same _ hc]
  refine ⟨by rw [htask], by rw [htask], ?_, fun h => ?_⟩
  · rw [taskRun_unfaulted hfirst husable hf, taskDone_computed]
    exact taskWorked_computed code _ run _
  · rw [taskRun_unfaulted hfirst husable hf, taskDone_time, State.setTask_time, taskWorked_time (hmet h), atStart_tb]

theorem taskRun_aborted {k : LaneFault} {off : Nat} (hf : run.fault = some (k, off)) :
    ((taskRun code run s).task code).aborted = true ∧ ((taskRun code run s).task code).ready = (s.task code).ready := by
  rw [taskRun_faulted hfirst husable hf]
  unfold taskAborted
  dsimp only
  rw [State.task_setTask_same _ hc, State.task_congr (runFault_progress _ _ _ _ _ _), State.task_congr (taskWorked_progress _ _ _ _),
    atStart_task]
  exact ⟨rfl, rfl⟩

end

/-- Settles O9: CURFLD, OUTER and LIMSHARE are runs of the tasks 1, 2 and 3, so the two lemmas about a run give every clause. -/
theorem taskRunsFromItsStart : Obligations.TaskRunsFromItsStart := by
  intro run s hr husable
  have hu : s.cleared.rd R.LN_STAT_UNUSABLE = 0 := husable
  refine ⟨fun h hf => ⟨_, live_next (curfld run) hr, ?_⟩, fun h hf => ⟨_, live_next (outer run) hr, ?_⟩,
    fun h hf => ⟨_, live_next (limshare run) hr, ?_⟩, fun k off hf => ⟨fun h => ⟨_, live_next (curfld run) hr, ?_⟩,
      fun h => ⟨_, live_next (outer run) hr, ?_⟩, fun h => ⟨_, live_next (limshare run) hr, ?_⟩⟩⟩
  · exact taskRun_ready (code := 1) (s := s.cleared) (by decide) h hu hf
  · exact taskRun_ready (code := 2) (s := s.cleared) (by decide) h hu hf
  · exact taskRun_ready (code := 3) (s := s.cleared) (by decide) h hu hf
  · exact taskRun_aborted (code := 1) (s := s.cleared) (by decide) h hu hf
  · exact taskRun_aborted (code := 2) (s := s.cleared) (by decide) h hu hf
  · exact taskRun_aborted (code := 3) (s := s.cleared) (by decide) h hu hf

end Sys2Proof.Machine
end

section
/-! O11: the recomputation of an aborted task on the siding lane (02 R62, R63, R69, R73). -/

namespace Sys2Proof.Machine

/-! ### The slice that a recomputation meets -/

@[simp] theorem calFitReady_ln (ch : Nat) (s : State) : (calFitReady ch s).ln = s.ln :=
  (calFitReady_sound (ms := 0x80) rfl ch s (sound_refl _ s)).same .ln rfl

/-- A slice that has ended leaves the tasks, and no slice runs then. -/
theorem sliceDone_facts (s : State) : (sliceDone s).ln.tasks = s.ln.tasks ∧ (sliceDone s).ln.slice = none := by
  have hcount : ∀ (u : State) (n : Nat), ({ u.inc R.BI_SLICES with bi.slices := n } : State).ln = u.ln := fun u _ =>
    u.inc_ln R.BI_SLICES
  unfold sliceDone
  split
  · next h => exact ⟨rfl, h⟩
  · extract_lets _ u
    split
    · exact ⟨rfl, rfl⟩
    · extract_lets jobs done v
      have hv : v.ln.tasks = s.ln.tasks ∧ v.ln.slice = none := ⟨rfl, rfl⟩
      split
      · rw [hcount]
        exact hv
      · split
        · rw [calFitReady_ln]
          exact hv
        · exact hv

theorem slicePreempt_tasks (detected : Nat) (s : State) : (slicePreempt detected s).ln.tasks = s.ln.tasks := by
  unfold slicePreempt
  split
  · split
    · exact (sliceDone_facts s).1
    · split
      · rw [sliceDrop_ln]
      · rfl
  · rfl

@[simp] theorem slicePreempt_time (detected : Nat) (s : State) : (slicePreempt detected s).time = s.time :=
  (slicePreempt_sound (ms := 0x20) rfl detected s (sound_refl _ s)).same .time rfl

/-- A slice on the siding lane has ended or is given up (02 R63). -/
theorem slicePreempt_siding {s : State} {k : SliceKind} {t0 len : Nat} (h : s.ln.slice = some (k, s.rd R.LN_STAT_SIDING, t0, len))
    (detected : Nat) : (slicePreempt detected s).ln.slice = none := by
  unfold slicePreempt
  rw [h]
  dsimp only
  split
  · exact (sliceDone_facts s).2
  · rw [if_pos rfl, sliceDrop_ln]

/-! ### The recomputation in its steps -/

/-- The siding lane at the start of a recomputation, the slice there given up. -/
def State.recomputes (s : State) (at_ : Nat) : State :=
  slicePreempt (at_ - 16) { s with time := { s.time with tb := max s.time.tb at_ } }

/-- The table errors of a recomputation, and the output they leave. -/
def recomputed (code at_ : Nat) (run : TaskRun) (s : State) : State :=
  if runMet run = [] then s
  else tableErrors (s.rd R.LN_STAT_SIDING) code (at_ - s.time.tbLast) (runMet run) (taskCompute code (tableMarks code (runMet run) s))

theorem recomputed_progress (code at_ : Nat) (run : TaskRun) (s : State) : (recomputed code at_ run s).ln.progress = s.ln.progress := by
  unfold recomputed
  split
  · rfl
  · rw [tableErrors_progress, taskCompute_progress, tableMarks_progress]

theorem recomputes_task (at_ c : Nat) (s : State) : (s.recomputes at_).task c = s.task c := by
  unfold State.task State.recomputes
  rw [slicePreempt_tasks]

section
variable {task : Fin 3} {run : TaskRun} {s : State} {at_ : Nat} (hat : (s.task (task.val + 1)).recompAt = some at_)
include hat

theorem recomputation_unfaulted (hf : run.fault = none) : recomputation task run s =
    (recomputed (task.val + 1) at_ run (s.recomputes at_)).setTask (task.val + 1)
      (fun t => { t with recompAt := none, recompEnd := some (at_ + Config.taskLength (task.val + 1)) }) := by
  unfold recomputation
  dsimp only
  rw [hat, hf]
  rfl

theorem recomputation_faulted {k : LaneFault} {off : Nat} (hf : run.fault = some (k, off)) : recomputation task run s =
    (runFault ((s.recomputes at_).rd R.LN_STAT_SIDING) (task.val + 1) (at_ - (s.recomputes at_).time.tbLast) k off
      (recomputed (task.val + 1) at_ run (s.recomputes at_))).setTask (task.val + 1)
      (fun t => { t with recompAt := none, noRecompute := true }) := by
  unfold recomputation
  dsimp only
  rw [hat, hf]
  rfl

end

/-- A change of a task's progress leaves the slice. -/
theorem setTask_slice (s : State) (code : Nat) (f : TaskState → TaskState) : (s.setTask code f).ln.slice = s.ln.slice := rfl

theorem slice_congr {s t : State} (h : t.ln.progress = s.ln.progress) : t.ln.slice = s.ln.slice :=
  congrArg LnState.slice (a₁ := t.ln.progress) (a₂ := s.ln.progress) h

/-- The slice on the siding lane is gone once a recomputation has started there. -/
theorem recomputes_slice {s : State} {k : SliceKind} {t0 len : Nat} (h : s.ln.slice = some (k, s.rd R.LN_STAT_SIDING, t0, len))
    (at_ : Nat) : (s.recomputes at_).ln.slice = none :=
  slicePreempt_siding (s := { s with time := { s.time with tb := max s.time.tb at_ } }) h _

/-! ### The output posted -/

section
variable {task : Fin 3} {s : State} {e : Nat} (he : (s.task (task.val + 1)).recompEnd = some e)
include he

/-- An output in time is ready, as the run's would have been. -/
theorem recomputedPosted_inTime (hin : e + 8 ≤ s.time.tbLast + (s.taskSlot (task.val + 1)).1 + (s.taskSlot (task.val + 1)).2)
    (hopen : (s.task (task.val + 1)).posted = false) :
    ((recomputedPosted task s).task (task.val + 1)).ready = true ∧ ((recomputedPosted task s).task (task.val + 1)).recompEnd = none ∧
    (recomputedPosted task s).time.tb = max s.time.tb (e + 8) := by
  have hc : 1 ≤ task.val + 1 ∧ task.val + 1 ≤ 3 := by omega
  have hinTime : e + 8 ≤ s.time.tbLast + (s.taskSlot (task.val + 1)).1 + (s.taskSlot (task.val + 1)).2 ∧
      (!(s.task (task.val + 1)).posted) = true := ⟨hin, by rw [hopen]; rfl⟩
  unfold recomputedPosted
  dsimp only
  rw [he]
  dsimp only
  rw [if_pos hinTime]
  refine ⟨?_, ?_, ?_⟩
  · rw [State.task_congr (congrArg LnState.progress (taskDone_ln _ _)), State.task_setTask_same _ hc]
  · rw [State.task_congr (congrArg LnState.progress (taskDone_ln _ _)), State.task_setTask_same _ hc]
  · rw [taskDone_time, State.setTask_time, State.inc_time]

/-- An output that comes late is lost. -/
theorem recomputedPosted_late (hlate : s.time.tbLast + (s.taskSlot (task.val + 1)).1 + (s.taskSlot (task.val + 1)).2 < e + 8) :
    ((recomputedPosted task s).task (task.val + 1)).ready = (s.task (task.val + 1)).ready ∧
    ((recomputedPosted task s).task (task.val + 1)).recompEnd = none := by
  have hc : 1 ≤ task.val + 1 ∧ task.val + 1 ≤ 3 := by omega
  have hlost : ¬ (e + 8 ≤ s.time.tbLast + (s.taskSlot (task.val + 1)).1 + (s.taskSlot (task.val + 1)).2 ∧
      (!(s.task (task.val + 1)).posted) = true) := fun h => absurd h.1 (by omega)
  unfold recomputedPosted
  dsimp only
  rw [he]
  dsimp only
  rw [if_neg hlost, State.task_setTask_same _ hc]
  exact ⟨rfl, rfl⟩

end

/-- Settles O11: a recomputation without and with an error, and its output in time or late. -/
theorem recomputationOfAnAbortedTask : Obligations.RecomputationOfAnAbortedTask := by
  intro task s hr
  have hc : 1 ≤ task.val + 1 ∧ task.val + 1 ≤ 3 := by omega
  refine ⟨fun a ha => ⟨fun run hf => ?_, fun run k off hf => ?_⟩, fun e he => ⟨fun hin hopen => ?_, fun hlate => ?_⟩⟩
  · have hat : (s.cleared.task (task.val + 1)).recompAt = some a := ha
    have hrec := recomputed_progress (task.val + 1) a run (s.cleared.recomputes a)
    refine ⟨_, (live_next (recomputation task run) hr).trans (congrArg _ (recomputation_unfaulted hat hf)), ?_, ?_, ?_, fun h => ?_⟩
    · rw [State.task_setTask_same _ hc]
    · rw [State.task_setTask_same _ hc]
    · intro k t0 len h
      rw [setTask_slice, slice_congr hrec]
      exact recomputes_slice (s := s.cleared) h a
    · have hmet : runMet run = [] := by
        unfold runMet
        rw [hf, h]
      rw [State.setTask_time, recomputed, if_pos hmet, State.recomputes, slicePreempt_time]
      rfl
  · have hat : (s.cleared.task (task.val + 1)).recompAt = some a := ha
    have hrec := recomputed_progress (task.val + 1) a run (s.cleared.recomputes a)
    have hfault := runFault_progress ((s.cleared.recomputes a).rd R.LN_STAT_SIDING) (task.val + 1)
      (a - (s.cleared.recomputes a).time.tbLast) k off (recomputed (task.val + 1) a run (s.cleared.recomputes a))
    refine ⟨_, (live_next (recomputation task run) hr).trans (congrArg _ (recomputation_faulted hat hf)), ?_, ?_, ?_, ?_⟩
    · rw [State.task_setTask_same _ hc]
    · rw [State.task_setTask_same _ hc]
    · rw [State.task_setTask_same _ hc, State.task_congr hfault, State.task_congr hrec, recomputes_task]
      rfl
    · intro k t0 len h
      rw [setTask_slice, slice_congr hfault, slice_congr hrec]
      exact recomputes_slice (s := s.cleared) h a
  · exact ⟨_, live_next (recomputedPosted task) hr, recomputedPosted_inTime (s := s.cleared) he hin hopen⟩
  · exact ⟨_, live_next (recomputedPosted task) hr, recomputedPosted_late (s := s.cleared) he hlate⟩

end Sys2Proof.Machine
end

section
/-! O18: a channel that has been lost and whose LOSS bit the MP has cleared. SD.CHn_STAT.LOSS is W1C, but VALID returns only after a restart
(03 R99): the model keeps the loss in `SdChan.lost`. The statement takes the bit for the loss, so its clause on SD_VALID fails there. -/

namespace Sys2Proof.Machine

/-- Channel 11 is enabled, its filters have filled, and its data input stops toggling; then the MP writes 1 to its LOSS bit. -/
def lossBitCleared : State :=
  regWrite (R.SD_CHn_STAT_LOSS 11).addr 2
    (sdLoss 11 { (State.reset.wr R.SD_CFG_EN 1).wr (R.SD_CHn_CFG_EN 11) 1 with time.tb := 20000 })

/-- The channel is enabled and filled and reads LOSS 0, VALID 0. -/
theorem lossBitCleared_reads : lossBitCleared.Running ∧ lossBitCleared.on R.SD_CFG_EN = true ∧
    lossBitCleared.on (R.SD_CHn_CFG_EN 11) = true ∧ lossBitCleared.on (R.SD_CHn_STAT_LOSS 11) = false ∧
    3 * lossBitCleared.sdRatio ≤ lossBitCleared.bitsSince (lossBitCleared.sdc 11).fillFrom ∧
    46 ≤ lossBitCleared.bitsSince (lossBitCleared.sdc 11).fillFrom ∧ lossBitCleared.rd (R.SD_CHn_STAT_VALID (11 : Fin 12).val) = 0 := by
  decide +kernel

/-- The loss itself stands until a restart. -/
theorem lossBitCleared_lost : (lossBitCleared.sdc (11 : Fin 12).val).lost = true := by decide +kernel

/-- A lost channel waits for its restart (03 R99). -/
theorem sdValidIfDue_lost {n : Nat} {s : State} (h : (s.sdc n).lost = true) : sdValidIfDue n s = s := by
  refine if_neg ?_
  rintro ⟨-, -, hopen, -⟩
  rw [h] at hopen
  cases hopen

/-- SD_VALID of a lost channel writes no register. -/
theorem rd_sdValid_lost {ch : Fin 12} {s t : State} (hr : s.Running) (hlost : (s.sdc ch.val).lost = true)
    (ht : exec (.sdValid ch) s = .next t) (f : Fld) : t.rd f = s.rd f := by
  cases (live_next (sdValidIfDue ch.val) hr).symm.trans ht
  rw [sdValidIfDue_lost (s := s.cleared) hlost]
  rfl

/-- Refutes O18: SD_VALID leaves VALID of a lost channel at 0 though its LOSS bit has been cleared and its filters have filled. -/
theorem not_sigmaDeltaChannelSteps : ¬ Obligations.SigmaDeltaChannelSteps := by
  intro h
  obtain ⟨hr, hclock, hen, hloss, hslow, hfast, hvalid⟩ := lossBitCleared_reads
  obtain ⟨-, -, -, -, hsets, -⟩ := h 11 lossBitCleared hr
  obtain ⟨t, ht, hset⟩ := hsets hclock hen hloss hslow hfast
  rw [rd_sdValid_lost hr lossBitCleared_lost ht, hvalid] at hset
  exact absurd hset (by decide)

end Sys2Proof.Machine
end

section
/-! O19: the calibration selector and the fits (03 R102–R105; assumption log 41 for SETTLE = 0). -/

namespace Sys2Proof.Machine

/-! ### The position -/

/-- A field that the end of a dwell leaves: no push of an event reaches its word, and CALERR is other bits. -/
abbrev keptByDwellEnd (f : Fld) : Prop :=
  apartFromQueues f.addr ∧ ownWord R.SD_CAL_STAT_CALERR.addr ∧ ownWord f.addr ∧ R.SD_CAL_STAT_CALERR.Misses f

theorem position_keptByDwellEnd : keptByDwellEnd R.SD_CAL_STAT_POS ∧ keptByDwellEnd R.SD_CAL_MAP := by
  unfold keptByDwellEnd apartFromQueues
  decide

theorem rd_calSuspend {f : Fld} (h : keptByDwellEnd f) (s : State) : (calSuspend s).rd f = s.rd f := by
  obtain ⟨hapart, hmiss⟩ := h
  unfold calSuspend
  split
  · rfl
  · rw [rd_event _ _ _ (by decide) hapart, State.rd_wr_missed _ hmiss]

/-- The end of a dwell writes no register but CALERR. -/
theorem rd_calPositionEnd {f : Fld} (h : keptByDwellEnd f) (s : State) : (calPositionEnd s).rd f = s.rd f := by
  unfold calPositionEnd
  dsimp only
  split
  · rfl
  split
  · split
    · exact rd_calSuspend h _
    · rfl
  split
  · split
    · exact rd_calSuspend h _
    · rfl
  split <;> rfl

theorem calNext_congr {s t : State} (h : t.rd R.SD_CAL_MAP = s.rd R.SD_CAL_MAP) (pos : Nat) : t.calNext pos = s.calNext pos := by
  unfold State.calNext State.calChannel
  rw [h]

/-- A position is one of the eight (03 R102). -/
theorem State.calNext_lt (s : State) (pos : Nat) : s.calNext pos < 8 := by
  unfold State.calNext
  split
  · decide
  · cases hfind : (List.range 8).find? (fun p => pos < p ∧ 2 ≤ p ∧ (s.calChannel p).isSome) with
    | none => decide
    | some p => exact List.mem_range.mp (List.mem_of_find?_eq_some hfind)

/-- The state with live calibration's own part replaced. -/
def State.setCal (s : State) (c : CalState) : State := { s with sd.cal := c }

theorem State.rd_setCal (s : State) (c : CalState) (f : Fld) : (s.setCal c).rd f = s.rd f := rfl

/-- The selector moved to a position, its sums started anew; PASSES counts a return to position 0. -/
def calMoved (next : Nat) (s : State) : State :=
  let u := if next = 0 then s.incWrap R.SD_CAL_STAT_PASSES else s
  (u.wr R.SD_CAL_STAT_POS next).setCal (calClear u.sd.cal)

theorem calMoved_facts {next : Nat} (h : next < 8) (s : State) :
    (calMoved next s).rd R.SD_CAL_STAT_POS = next ∧ (calMoved next s).sd.cal.ticks = 0 ∧ (calMoved next s).sd.cal.n = 0 :=
  ⟨(State.rd_setCal _ _ _).trans ((State.rd_wr_same _ (by decide) next).trans (Nat.mod_eq_of_lt h)), rfl, rfl⟩

theorem calPositionStepIfDue_due {s : State} (hen : s.on R.SD_CAL_CTL_EN = true) (hok : s.on R.SD_CAL_STAT_CALERR = false)
    (hspare : (s.roleCh 9).isSome = true) (hticks : max 1 (s.rd R.SD_CAL_CTL_SETTLE) + s.calDwell ≤ s.sd.cal.ticks) :
    calPositionStepIfDue s = calMoved (s.calNext (s.rd R.SD_CAL_STAT_POS)) (calPositionEnd s) := by
  have hnext : (calPositionEnd s).calNext ((calPositionEnd s).rd R.SD_CAL_STAT_POS) = s.calNext (s.rd R.SD_CAL_STAT_POS) := by
    rw [rd_calPositionEnd position_keptByDwellEnd.1, calNext_congr (rd_calPositionEnd position_keptByDwellEnd.2 s)]
  rw [← hnext]
  exact if_pos ⟨hen, by rw [hok]; rfl, hspare, hticks⟩

/-! ### A fit -/

theorem State.sdc_setSdc_same (s : State) {n : Nat} (h : n < 12) (f : SdChan → SdChan) : (s.setSdc n f).sdc n = f (s.sdc n) := by
  unfold State.sdc State.setSdc
  simp [h]

/-- There are 12 channels. -/
theorem State.sdc_of_ge (s : State) {n : Nat} (h : 12 ≤ n) : s.sdc n = {} := by
  unfold State.sdc
  simp [h]

@[simp] theorem State.postQ_sd (s : State) (f : Fld) (frac : Nat) (x : Rat) : (s.postQ f frac x).sd = s.sd := by
  unfold State.postQ
  dsimp only
  split <;> rfl

@[simp] theorem State.postQ_te (s : State) (f : Fld) (frac : Nat) (x : Rat) : (s.postQ f frac x).te = s.te := by
  unfold State.postQ
  dsimp only
  split <;> rfl

/-- The fit at the front is beyond the limits of a correction (03 R105). -/
abbrev CalFit.OutOfRange (f : CalFit) : Prop := 2 / 100 < absR f.gain ∨ 1 / 100 < absR f.ofs

/-- The fits without the one at the front. -/
def State.fitsLeft (rest : List CalFit) (s : State) : State := { s with sd.cal.fits := rest }

/-- A fit refused: one more CAL_RANGE of its channel (03 R105). -/
def fitRefused (f : CalFit) (s : State) : State :=
  { (s.setSdc f.ch (fun c => { c with rangeRun := c.rangeRun + 1 })).event Ev.CAL_RANGE 18 with sd.cal.ranged := s.sd.cal.ranged + 1 }

/-- A fit applied, before GCAL and OCAL move: the run of CAL_RANGE on its channel has ended. -/
def fitTaken (f : CalFit) (s : State) : State :=
  { s.setSdc f.ch (fun c => { c with rangeRun := 0 }) with sd.cal.applied := s.sd.cal.applied + 1 }

theorem fitRefused_facts (f : CalFit) (s : State) : (fitRefused f s).sd.cal.fits = s.sd.cal.fits ∧
    (fitRefused f s).sd.cal.ranged = s.sd.cal.ranged + 1 ∧ (fitRefused f s).te.evs = s.te.evs ++ [(40, 0x0303)] := by
  unfold fitRefused
  dsimp only
  rw [State.event_sd, State.event_te]
  exact ⟨rfl, rfl, rfl⟩

theorem fitRefused_rangeRun {f : CalFit} {s : State} (h : (s.sdc f.ch).rangeRun ≠ 2) : ((fitRefused f s).sdc f.ch).rangeRun ≠ 3 := by
  by_cases hch : f.ch < 12
  · have hsdc : (fitRefused f s).sdc f.ch = (s.setSdc f.ch (fun c => { c with rangeRun := c.rangeRun + 1 })).sdc f.ch := by
      unfold fitRefused State.sdc
      dsimp only
      rw [State.event_sd]
    rw [hsdc, State.sdc_setSdc_same s hch]
    exact fun h3 => h (Nat.succ.inj h3)
  · rw [State.sdc_of_ge _ (Nat.le_of_not_lt hch)]
    decide

/-- GCAL and OCAL moved toward their targets (03 R104). -/
def fitMoved (f : CalFit) (s : State) : State :=
  let u := s.postQ (R.SD_CHn_CAL_GCAL f.ch) 15 (moveToward (1 / 1000) (s.rdQ (R.SD_CHn_CAL_GCAL f.ch) 15) f.gain)
  u.postQ (R.SD_CHn_CAL_OCAL f.ch) 15 (moveToward (5 / 10000) (u.rdQ (R.SD_CHn_CAL_OCAL f.ch) 15) f.ofs)

/-- An applied fit is counted and raises nothing. -/
theorem fitMoved_fitTaken_facts (f : CalFit) (s : State) : (fitMoved f (fitTaken f s)).sd.cal.fits = s.sd.cal.fits ∧
    (fitMoved f (fitTaken f s)).sd.cal.applied = s.sd.cal.applied + 1 ∧ (fitMoved f (fitTaken f s)).te = s.te := by
  unfold fitMoved
  dsimp only
  rw [State.postQ_sd, State.postQ_sd, State.postQ_te, State.postQ_te]
  exact ⟨rfl, rfl, rfl⟩

section
variable {s : State} {f : CalFit} {rest : List CalFit} (hfits : s.sd.cal.fits = f :: rest) (hready : f.ready = true)
include hfits hready

/-- What becomes of the fit at the front once its slices have run (03 R104, R105). -/
theorem calFitApply_ready : calFitApply s =
    if f.OutOfRange then
      if ((fitRefused f (s.fitsLeft rest)).sdc f.ch).rangeRun = 3 then
        ((fitRefused f (s.fitsLeft rest)).wr (R.SD_CHn_STAT_SUSPECT f.ch) 1).event Ev.SD_SUSPECT 18
      else fitRefused f (s.fitsLeft rest)
    else fitMoved f (fitTaken f (s.fitsLeft rest)) := by
  unfold calFitApply
  rw [hfits]
  dsimp only
  rw [hready]
  rfl

theorem calFitApply_inRange (h : ¬ f.OutOfRange) : calFitApply s = fitMoved f (fitTaken f (s.fitsLeft rest)) :=
  (calFitApply_ready hfits hready).trans (if_neg h)

/-- Short of a third in a row, a fit out of range raises CAL_RANGE alone. -/
theorem calFitApply_outOfRange (h : f.OutOfRange) (hrun : (s.sdc f.ch).rangeRun ≠ 2) :
    calFitApply s = fitRefused f (s.fitsLeft rest) := by
  have hthird : ((fitRefused f (s.fitsLeft rest)).sdc f.ch).rangeRun ≠ 3 := fitRefused_rangeRun (s := s.fitsLeft rest) hrun
  rw [calFitApply_ready hfits hready, if_pos h, if_neg hthird]

end

/-- Settles O19: the step of the selector, and a fit by whether it is in range. -/
theorem calibrationSteps : Obligations.CalibrationSteps := by
  intro s hr
  exact ⟨fun hen hok hspare hticks => ⟨_, (live_next _ hr).trans
      (congrArg _ (calPositionStepIfDue_due (s := s.cleared) hen hok hspare hticks)), calMoved_facts (s.calNext_lt _) _⟩,
    fun f rest hfits hready hgain hofs => ⟨_, (live_next _ hr).trans (congrArg _ (calFitApply_inRange (s := s.cleared) hfits hready
      (not_or.mpr ⟨not_lt.mpr hgain, not_lt.mpr hofs⟩))), fitMoved_fitTaken_facts f (s.cleared.fitsLeft rest)⟩,
    fun f rest hfits hready hout hrun => ⟨_, (live_next _ hr).trans
      (congrArg _ (calFitApply_outOfRange (s := s.cleared) hfits hready hout hrun)), fitRefused_facts f (s.cleared.fitsLeft rest)⟩⟩

end Sys2Proof.Machine
end

section
/-! O20: PW.CTL.RUN, EDGE_LATE and the volt-second residues (03 R123, R124, R135, R137). -/

namespace Sys2Proof.Machine

/-! ### PW.CTL.RUN (03 R123, R124) -/

theorem runSet_off (s : State) : (s.runSet false).rd R.PW_CTL_RUN = 0 := State.rd_wr_same s (by decide) 0

/-- What PX-C keeps of the gate channels beside its registers is no register. -/
theorem State.rd_with_gd (s : State) (x : GdState) (f : Fld) : { s with gd := x }.rd f = s.rd f := rfl

theorem runSet_taken {s : State} (h : s.runRefused = false) : (s.runSet true).rd R.PW_CTL_RUN = 1 := by
  unfold State.runSet
  rw [h]
  exact (State.rd_with_gd _ _ _).trans (State.rd_wr_same s (by decide) 1)

theorem runSet_refused {s : State} (h : s.runRefused = true) : s.runSet true = s.wr R.PW_STAT_CFGERR 1 := by
  unfold State.runSet
  rw [h]
  rfl

/-! ### EDGE_LATE (03 R135) -/

/-- The run of carriers with a late edge counts anew. -/
def State.lateRestarted (s : State) : State := { s with pw.lateRun := 0 }

theorem edgeLateIfDue_due {s : State} (hrun : 3 ≤ s.pw.lateRun) (hnew : s.hasCause 5 = false) :
    edgeLateIfDue s = s.lateRestarted.cause 5 17 0 (s.pw.lateSeq.getD 0) := by
  have hnew' : s.lateRestarted.hasCause 5 = false := hnew
  have hraise : (if s.lateRestarted.hasCause 5 then s.lateRestarted else s.lateRestarted.cause 5 17 0 (s.pw.lateSeq.getD 0)) =
      s.lateRestarted.cause 5 17 0 (s.pw.lateSeq.getD 0) := by
    rw [hnew']
    rfl
  exact (if_pos hrun).trans hraise

/-! ### Residues (03 R137) -/

theorem vsDropIfDue_due {s : State} (h : ∃ r ∈ s.pw.residues, r.left = 0) :
    vsDropIfDue s = vsStatus (s.pw.residues.filter (fun r => r.left = 0)).length
      { s with pw.residues := s.pw.residues.filter (fun r => r.left ≠ 0) } := by
  refine if_neg ?_
  rw [List.isEmpty_iff, List.filter_eq_nil_iff]
  obtain ⟨r, hr, hleft⟩ := h
  exact fun hnone => hnone r hr (decide_eq_true hleft)

/-- PW.VSLOST counts what is dropped and saturates at its 16 bits. -/
theorem vsStatus_facts (n : Nat) (s : State) : (vsStatus n s).pw = s.pw ∧
    (vsStatus n s).rd R.PW_VSLOST = min (s.rd R.PW_VSLOST + n) 65535 := by
  unfold vsStatus
  refine ⟨by rw [State.wr_pw, State.add_pw], ?_⟩
  rw [State.rd_wr_missed _ (by decide)]
  unfold State.add
  rw [State.rd_wr_same _ (by decide)]
  exact Nat.mod_eq_of_lt (Nat.lt_of_le_of_lt (Nat.min_le_right _ _) (by decide))

/-- Settles O20: the write of RUN by what it is refused for, EDGE_LATE as a cause, the residues by the filter that drops them. -/
theorem pwmSteps : Obligations.PwmSteps := by
  intro s hr
  refine ⟨⟨_, live_next _ hr, runSet_off _⟩, fun h => ⟨_, live_next _ hr, runSet_taken (s := s.cleared) h⟩,
    fun h => ⟨_, (live_next _ hr).trans (congrArg _ (runSet_refused (s := s.cleared) h)), ?_, ?_⟩,
    fun hrun hnew => ⟨_, (live_next _ hr).trans (congrArg _ (edgeLateIfDue_due (s := s.cleared) hrun hnew)), ?_, ?_, ?_⟩,
    fun h => ⟨_, (live_next _ hr).trans (congrArg _ (vsDropIfDue_due (s := s.cleared) h)), ?_⟩⟩
  · exact State.rd_wr_same _ (by decide) 1
  · exact State.rd_wr_missed _ (by decide) 1
  · rw [State.cause_pw]
    rfl
  · rw [State.cause_seq]
    rfl
  · rw [State.cause_te]
    rfl
  · obtain ⟨hpw, hlost⟩ := vsStatus_facts (s.pw.residues.filter (fun r => r.left = 0)).length
      { s.cleared with pw.residues := s.pw.residues.filter (fun r => r.left ≠ 0) }
    exact ⟨congrArg PwState.residues hpw, hlost⟩

end Sys2Proof.Machine
end

section
/-! SUPPORT. A change of the drive state (05 R183, R185, R191): what it brings, and what it leaves of the registers and of the requests. -/

namespace Sys2Proof.Machine

/-! ### What a drive state brings with it (05 R185) -/

/-- The registers that a change of the drive state writes beside LN.MD_STAT. -/
abbrev effectFlds : List Fld := [R.PW_CTL_RUN, R.PW_STAT_CFGERR, R.SB_STAT_SBCSET, R.LN_MD_BRK_SETCMD, R.LN_MD_BRK_PH]

/-- A field that a change of the drive state leaves, LN.MD_STAT apart. -/
abbrev Fld.KeptByEffects (g : Fld) : Prop :=
  ownWord g.addr ∧ ∀ f ∈ effectFlds, ownWord f.addr ∧ f.Misses g

/-- What the sequencer holds of the requests that wait and of those that have completed (05 R184). -/
def SeqState.requests (q : SeqState) : Bool × List (Nat × Nat) := (q.starting, q.done)

/-- What a state shows is kept by the effects of a drive state, where the operations that they are put together from keep it. -/
theorem stateEffects_keeps {α : Type} (k : State → α) (hrun : ∀ u b, k (u.runOrder b) = k u) (hset : ∀ u, k u.brakeSet = k u)
    (hphase : ∀ u n, k (u.brakePhase n) = k u) (hgate : ∀ u, k u.gateRefresh = k u) (hgd : ∀ (u : State) x, k { u with gd := x } = k u)
    (hln : ∀ u x, k (u.setLn x) = k u) (hseq : ∀ (u : State) x, x.requests = u.seq.requests → k { u with seq := x } = k u)
    (old : Nat) (s : State) : k (stateEffects old s) = k s := by
  unfold stateEffects
  extract_lets n ordered _ started _ flown _ entered braked last
  have hstarted : k started = k ordered := by
    unfold started
    split
    · rfl
    · exact hgd _ _
  have hflown : k flown = k started := by
    unfold flown
    split
    · rfl
    · exact hseq _ _ rfl
  have hentered : k entered = k flown := by
    unfold entered
    split
    · exact hln _ _
    · rfl
  have hbraked : k braked = k entered := by
    unfold braked
    split
    · exact hset _
    · rfl
  have hlast : k last = k braked := by
    unfold last
    split
    · rfl
    · have hended := hseq (braked.brakePhase 5) { (braked.brakePhase 5).seq with taperAt := none, entryAt := none } rfl
      exact hended.trans (hphase braked 5)
  rw [hgate, hlast, hbraked, hentered, hflown, hstarted]
  exact hrun _ _

/-- What the sequencer holds beside its registers is no register. -/
theorem State.rd_with_seq (s : State) (x : SeqState) (f : Fld) : { s with seq := x }.rd f = s.rd f := rfl

theorem State.rd_brakePhase (s : State) (n : Nat) {g : Fld} (h : ownWord g.addr ∧ R.LN_MD_BRK_PH.Misses g) :
    (s.brakePhase n).rd g = s.rd g :=
  (State.rd_with_seq _ _ g).trans (s.rd_wr_missed ⟨by decide, h⟩ n)

theorem State.brakePhase_ph (s : State) {n : Nat} (h : n < 8) : (s.brakePhase n).rd R.LN_MD_BRK_PH = n :=
  (State.rd_with_seq _ _ _).trans ((s.rd_wr_same (by decide) n).trans (Nat.mod_eq_of_lt h))

section
variable {g : Fld} (h : g.KeptByEffects)
include h

theorem State.rd_wr_effect (s : State) {f : Fld} (hf : f ∈ effectFlds) (v : Nat) : (s.wr f v).rd g = s.rd g :=
  s.rd_wr_missed ⟨(h.2 f hf).1, h.1, (h.2 f hf).2⟩ v

theorem State.rd_runSet_kept (s : State) (run : Bool) : (s.runSet run).rd g = s.rd g := by
  unfold State.runSet
  split
  · exact s.rd_wr_effect h (by decide) 0
  · split
    · exact s.rd_wr_effect h (by decide) 1
    · exact (State.rd_with_gd _ _ _).trans (s.rd_wr_effect h (by decide) 1)

theorem State.rd_runOrder_kept (s : State) (run : Bool) : (s.runOrder run).rd g = s.rd g := by
  unfold State.runOrder
  split
  · rfl
  · exact s.rd_runSet_kept h run

theorem State.rd_brakeSet_kept (s : State) : s.brakeSet.rd g = s.rd g := by
  rw [State.brakeSet_eq]
  split
  · exact s.rd_wr_effect h (by decide) 1
  · rw [(State.setWatched_facts _).2, State.rd_wr_effect h _ (by decide), State.rd_wr_effect h _ (by decide)]

theorem State.rd_brakePhase_kept (s : State) (n : Nat) : (s.brakePhase n).rd g = s.rd g :=
  s.rd_brakePhase n ⟨h.1, (h.2 R.LN_MD_BRK_PH (by decide)).2⟩

theorem rd_stateEffects (old : Nat) (s : State) : (stateEffects old s).rd g = s.rd g :=
  stateEffects_keeps (fun u => u.rd g) (State.rd_runOrder_kept h) (State.rd_brakeSet_kept h) (State.rd_brakePhase_kept h)
    (fun u => u.rd_gateRefresh g) (fun _ _ => rfl) (fun u x => u.rd_setLn x h.1) (fun _ _ _ => rfl) old s

end

theorem State.rd_driveEvent {g : Fld} (h : apartFromQueues g.addr) (b a : State) : (b.driveEvent a).rd g = b.rd g := by
  unfold State.driveEvent
  split
  · rfl
  · exact rd_event b _ _ (by decide) h

theorem runOrder_seq (s : State) (run : Bool) : (s.runOrder run).seq = s.seq :=
  (State.runOrder_sound (ms := 0x40000000) rfl s run (sound_refl _ s)).same .seq rfl

theorem State.setWatched_requests (s : State) : s.setWatched.seq.requests = s.seq.requests := rfl

theorem State.brakeSet_requests (s : State) : s.brakeSet.seq.requests = s.seq.requests := by
  rw [State.brakeSet_eq]
  split
  · rw [State.wr_seq]
  · rw [State.setWatched_requests, State.wr_seq, State.wr_seq]

theorem State.brakePhase_requests (s : State) (n : Nat) : (s.brakePhase n).seq.requests = s.seq.requests := by
  unfold State.brakePhase SeqState.requests
  dsimp only
  rw [State.wr_seq]

theorem stateEffects_requests (old : Nat) (s : State) : (stateEffects old s).seq.requests = s.seq.requests :=
  stateEffects_keeps (fun u => u.seq.requests) (fun u b => congrArg _ (runOrder_seq u b)) State.brakeSet_requests State.brakePhase_requests
    (fun u => congrArg _ u.gateRefresh_seq) (fun _ _ => rfl) (fun _ _ => rfl) (fun _ _ hx => hx) old s

/-! ### The change (05 R183, R191) -/

/-- MODE and PREV as a change between a state with a sub-mode and one without leaves them (05 R191). -/
def modeMoved (sub : Nat) (s : State) : State :=
  if sub ≠ 0 ∧ s.sub = 0 then (s.wr R.LN_MD_STAT_PREV (s.rd R.LN_MD_STAT_MODE)).wr R.LN_MD_STAT_MODE 6
  else if sub = 0 ∧ s.sub ≠ 0 then s.wr R.LN_MD_STAT_MODE (s.rd R.LN_MD_STAT_PREV) else s

/-- STATE, SUB, CAUSE and DEMAND written together. -/
def statWritten (state sub cause : Nat) (demand : Bool) (s : State) : State :=
  (((s.wr R.LN_MD_STAT_STATE state).wr R.LN_MD_STAT_SUB sub).wr R.LN_MD_STAT_CAUSE cause).wr R.LN_MD_STAT_DEMAND (b2n demand)

theorem enter_eq (state sub cause : Nat) (demand : Bool) (s : State) : enter state sub cause demand s =
    (stateEffects s.drive (statWritten state sub cause demand (modeMoved sub s))).driveEvent s := rfl

theorem rd_enter {g : Fld} (h : g.KeptByEffects) (hq : apartFromQueues g.addr) (state sub cause : Nat) (demand : Bool) (s : State) :
    (enter state sub cause demand s).rd g = (statWritten state sub cause demand (modeMoved sub s)).rd g := by
  rw [enter_eq, State.rd_driveEvent hq, rd_stateEffects h]

/-- LN.MD_STAT is no word that an event writes. -/
theorem stat_apart : apartFromQueues 0x40043000 := by
  unfold apartFromQueues
  decide

theorem enter_drive {state : Nat} (hstate : state < 8) (sub cause : Nat) (demand : Bool) (s : State) :
    (enter state sub cause demand s).drive = state := by
  unfold State.drive
  rw [rd_enter (by decide) stat_apart]
  unfold statWritten
  rw [State.rd_wr_missed _ (by decide), State.rd_wr_missed _ (by decide), State.rd_wr_missed _ (by decide), State.rd_wr_same _ (by decide)]
  exact Nat.mod_eq_of_lt hstate

theorem enter_sub {sub : Nat} (hsub : sub < 16) (state cause : Nat) (demand : Bool) (s : State) :
    (enter state sub cause demand s).sub = sub := by
  unfold State.sub
  rw [rd_enter (by decide) stat_apart]
  unfold statWritten
  rw [State.rd_wr_missed _ (by decide), State.rd_wr_missed _ (by decide), State.rd_wr_same _ (by decide)]
  exact Nat.mod_eq_of_lt hsub

/-- Without a sub-mode MODE is the mode chosen: PREV where the drive leaves a sub-mode. -/
theorem enter_mode (state cause : Nat) (demand : Bool) (s : State) :
    (enter state 0 cause demand s).rd R.LN_MD_STAT_MODE = s.rd (if s.sub = 0 then R.LN_MD_STAT_MODE else R.LN_MD_STAT_PREV) := by
  have hwritten : ∀ u, (statWritten state 0 cause demand u).rd R.LN_MD_STAT_MODE = u.rd R.LN_MD_STAT_MODE := fun u => by
    unfold statWritten
    rw [State.rd_wr_missed _ (by decide), State.rd_wr_missed _ (by decide), State.rd_wr_missed _ (by decide), State.rd_wr_missed _ (by decide)]
  rw [rd_enter (by decide) stat_apart, hwritten]
  unfold modeMoved
  rw [if_neg (fun h => h.1 rfl)]
  by_cases hsub : s.sub = 0
  · rw [if_neg (fun h => h.2 hsub), if_pos hsub]
  · rw [if_pos ⟨rfl, hsub⟩, if_neg hsub, State.rd_wr_same _ (by decide)]
    exact Nat.mod_eq_of_lt (s.rd_lt R.LN_MD_STAT_PREV)

theorem State.driveEvent_seq (b a : State) : (b.driveEvent a).seq = b.seq := by
  unfold State.driveEvent
  split
  · rfl
  · exact State.event_seq _ _ _ _

theorem enter_requests (state sub cause : Nat) (demand : Bool) (s : State) : (enter state sub cause demand s).seq.requests = s.seq.requests := by
  have hmoved : (modeMoved sub s).seq = s.seq := by
    unfold modeMoved
    split
    · rw [State.wr_seq, State.wr_seq]
    · split
      · rw [State.wr_seq]
      · rfl
  rw [enter_eq, State.driveEvent_seq, stateEffects_requests]
  unfold statWritten
  rw [State.wr_seq, State.wr_seq, State.wr_seq, State.wr_seq, hmoved]

@[simp] theorem enter_olp (state sub cause : Nat) (demand : Bool) (s : State) : (enter state sub cause demand s).olp = s.olp :=
  (enter_sound (ms := 0x1000) rfl state sub cause demand s (sound_refl _ s)).same .olp rfl

/-! ### A request completed (05 R184, R211) -/

theorem State.reqDone_result (s : State) (code : Nat) {result : Nat} (h : result < 16) :
    (s.reqDone code result).rd R.LN_MD_RES_RESULT = result := by
  unfold State.reqDone
  rw [State.rd_with_seq, State.rd_wr_same _ (by decide)]
  exact Nat.mod_eq_of_lt h

theorem State.rd_reqDone (s : State) (code result : Nat) {g : Fld} (h : ownWord g.addr ∧ R.LN_MD_RES_RESULT.Misses g) :
    (s.reqDone code result).rd g = s.rd g := by
  unfold State.reqDone
  rw [State.rd_with_seq, State.rd_wr_missed _ ⟨by decide, h⟩]

@[simp] theorem State.reqDone_drive (s : State) (code result : Nat) : (s.reqDone code result).drive = s.drive :=
  s.rd_reqDone code result (by decide)
@[simp] theorem State.reqDone_sub (s : State) (code result : Nat) : (s.reqDone code result).sub = s.sub :=
  s.rd_reqDone code result (by decide)

theorem State.reqDone_seq (s : State) (code result : Nat) :
    (s.reqDone code result).seq = { s.seq with done := s.seq.done ++ [(code, result)] } := by
  unfold State.reqDone
  dsimp only
  rw [State.wr_seq]

@[simp] theorem State.reqDone_olp (s : State) (code result : Nat) : (s.reqDone code result).olp = s.olp :=
  (State.reqDone_sound (ms := 0x1000) rfl s code result (sound_refl _ s)).same .olp rfl

/-- A completion joins those that have completed; whether a START waits is not its matter. -/
theorem State.reqDone_requests {s : State} {waits : Bool} {done : List (Nat × Nat)} (h : s.seq.requests = (waits, done)) (code result : Nat) :
    (s.reqDone code result).seq.starting = waits ∧ (s.reqDone code result).seq.done = done ++ [(code, result)] := by
  obtain ⟨hwaits, hdone⟩ := Prod.mk.inj h
  rw [State.reqDone_seq, hdone]
  exact ⟨hwaits, rfl⟩

end Sys2Proof.Machine
end

section
/-! O16: the setpoint records and the inputs of OUTER that grow too old (04 R146–R148, R163, R165, R169). -/

namespace Sys2Proof.Machine

/-! ### Setpoint records (04 R146, R147) -/

/-- A record replaces the reference of its kind and touches no slot. -/
theorem applyRecord_slots (kind : Nat) (r : List Byte) (s : State) : (applyRecord kind r s).ol.slots = s.ol.slots := by
  unfold applyRecord
  split <;> rfl

/-- The state with the slots of the setpoint records replaced. -/
def State.slotsLeft (s : State) (slots : SMap (List Byte)) : State := { s with ol.slots := slots }

theorem setpointApply_single {s : State} {kind : Nat} {r : List Byte} (h : s.ol.slots = [(kind, r)]) (hdue : recordDue r s.tickno = true) :
    setpointApply s = applyRecord kind r (s.slotsLeft []) := by
  have herase : smapErase kind [(kind, r)] = [] := if_pos rfl
  unfold setpointApply
  rw [h, List.foldl_cons, List.foldl_nil, if_pos hdue, h, herase]
  rfl

theorem applyRecord_facts (kind : Nat) (r : List Byte) (s : State) :
    (kind = 1 → (applyRecord kind r s).ol.speedRef = recQ r 8 16) ∧ (kind = 2 → (applyRecord kind r s).ol.torqueRef = recQ r 8 8) ∧
    (kind = 3 → (applyRecord kind r s).ol.tensionRef = recQ r 8 8) ∧
    (kind = 4 → (applyRecord kind r s).ol.positionRef = signedOf 48 (fieldLE r 8 6)) ∧
    (kind = 5 → (applyRecord kind r s).ol.curveIn = ofFix 15 (signedOf 16 (fieldLE r 8 2))) ∧
    (kind = 7 → (applyRecord kind r s).ol.loadPin = recQ r 8 8 ∧ (applyRecord kind r s).ol.loadPinSeen = true) ∧
    (kind = 8 → (applyRecord kind r s).ol.ceilM = some (maxR 0 (recQ r 8 8)) ∧
      (applyRecord kind r s).ol.ceilG = some (maxR 0 (recQ r 12 8))) := by
  refine ⟨?_, ?_, ?_, ?_, ?_, ?_, ?_⟩
  iterate 5
    · rintro rfl
      rfl
  iterate 2
    · rintro rfl
      exact ⟨rfl, rfl⟩

/-! ### Lever, load pin, heave (04 R148, R169) -/

theorem leverStaleIfDue_due {s : State} (hnew : s.ol.leverStale = false) (hage : s.coef 2 R.LN_OL_LVTMO ≤ s.ol.leverAge) :
    leverStaleIfDue s = ({ s with ol := { s.ol with leverStale := true, lever := 0 } } : State).event Ev.LEVER_STALE 2 :=
  if_pos ⟨by rw [hnew]; rfl, hage⟩

theorem tensionSrcIfDue_due {s : State} (hseen : s.ol.loadPinSeen = true) (hnew : s.ol.loadPinStale = false) (hold : s.loadPinOld = true) :
    tensionSrcIfDue s = ({ s with ol.loadPinStale := true } : State).event Ev.TENSION_SRC 2 :=
  if_pos ⟨hseen, by rw [hnew]; rfl, hold⟩

theorem heaveStaleIfDue_due {s : State} (hseen : s.ol.hvSeen = true) (hnew : s.ol.hvStale = false)
    (hold : ((s.coef 2 R.LN_OL_HVTMO * s.period : Nat) : Int) < (s.time.tbLast : Int) + s.coef 2 R.LN_OL_HVLEAD - s.ol.hvStamp) :
    heaveStaleIfDue s = ({ s with ol := { s.ol with hvStale := true, hvFrozenZ := s.heaveNow.1, hvFrozenV := s.heaveNow.2 } } : State).event
      Ev.HEAVE_STALE 2 :=
  if_pos ⟨hseen, by rw [hnew]; rfl, hold⟩

/-! ### The end of a shock (04 R163, R165) -/

/-- However a compliance ends, its flag clears and the shock flag stays. -/
theorem complEnd_facts (s : State) (path : Nat) (l : OlLoop) : (complEnd s path l).compl = false ∧ (complEnd s path l).shock = l.shock := by
  unfold complEnd
  split
  · next h => exact ⟨by simpa using h, rfl⟩
  · dsimp only
    split
    · exact ⟨rfl, rfl⟩
    · split <;> exact ⟨rfl, rfl⟩

theorem shockClear_due {s : State} {l : OlLoop} (hshock : l.shock = true) (hdet : l.shockDet = 0) (hcalm : s.coef 2 R.LN_OL_CHOLD ≤ l.calm) :
    shockClear s l = complEnd s l.path { l with shock := false } :=
  if_pos ⟨hshock, hdet, hcalm⟩

@[simp] theorem outerStatus_olp (s : State) : (outerStatus s).olp = s.olp :=
  (outerStatus_sound (ms := 0x1000) rfl s (sound_refl _ s)).same .olp rfl

theorem shockClearIfDue_due {s : State} (hshock : s.olp.shock = true) (hcalm : s.coef 2 R.LN_OL_CHOLD ≤ s.olp.calm) :
    (shockClearIfDue s).olp.shock = false ∧ (shockClearIfDue s).olp.compl = false := by
  obtain ⟨hcompl, hcleared⟩ := complEnd_facts s s.olp.path { s.olp with shockDet := 0, shock := false }
  have hclear : shockClear s { s.olp with shockDet := 0 } = complEnd s s.olp.path { s.olp with shockDet := 0, shock := false } :=
    shockClear_due hshock rfl hcalm
  unfold shockClearIfDue
  rw [hclear]
  dsimp only at hcleared ⊢
  rw [if_pos ⟨hshock, by rw [hcleared]; rfl⟩, outerStatus_olp]
  exact ⟨hcleared, hcompl⟩

/-- Settles O16: the record of a single slot by its kind, each fallback where it is due. -/
theorem setpointsAndStaleInputs : Obligations.SetpointsAndStaleInputs := by
  intro s hr
  refine ⟨fun kind r hslots hdue => ⟨_, (live_next _ hr).trans (congrArg _ (setpointApply_single (s := s.cleared) hslots hdue)),
      applyRecord_slots kind r _, applyRecord_facts kind r _⟩,
    fun hnew hage => ⟨_, (live_next _ hr).trans (congrArg _ (leverStaleIfDue_due (s := s.cleared) hnew hage)), ?_⟩,
    fun hseen hnew hold => ⟨_, (live_next _ hr).trans (congrArg _ (tensionSrcIfDue_due (s := s.cleared) hseen hnew hold)), ?_⟩,
    fun hseen hnew hold => ⟨_, (live_next _ hr).trans (congrArg _ (heaveStaleIfDue_due (s := s.cleared) hseen hnew hold)), ?_⟩,
    fun hshock hcalm => ⟨_, live_next _ hr, shockClearIfDue_due (s := s.cleared) hshock hcalm⟩⟩
  · rw [State.event_ol, State.event_te]
    exact ⟨rfl, rfl, rfl⟩
  · rw [State.event_ol, State.event_te]
    exact ⟨rfl, rfl⟩
  · rw [State.event_ol, State.event_te]
    exact ⟨rfl, rfl, rfl, rfl⟩

end Sys2Proof.Machine
end

section
/-! O17: the end of a flux build and of a start (04 R176, R178). -/

namespace Sys2Proof.Machine

/-! ### A start refused (04 R174, R176) -/

/-- The START that waited given up. -/
def State.startDropped (s : State) : State :=
  { s with seq := { s.seq with starting := false, release := false }, olp := { s.olp with start := 0 } }

theorem startRefused_eq (code : Nat) (s : State) :
    startRefused code s = (enter 2 0 0 false (s.startDropped.wr R.LN_OL_STAT_START 0)).reqDone 3 code := rfl

theorem State.startDropped_facts (s : State) : s.startDropped.olp.start = 0 ∧ s.startDropped.seq.requests = (false, s.seq.done) := ⟨rfl, rfl⟩

/-- The drive is back in READY, and the START has completed with its RESULT. -/
theorem startRefused_facts (code : Nat) (s : State) : (startRefused code s).drive = 2 ∧ (startRefused code s).olp.start = 0 ∧
    (startRefused code s).seq.starting = false ∧ (startRefused code s).seq.done = s.seq.done ++ [(3, code)] := by
  obtain ⟨hstart, hrequests⟩ := s.startDropped_facts
  have hentered : (enter 2 0 0 false (s.startDropped.wr R.LN_OL_STAT_START 0)).seq.requests = (false, s.seq.done) := by
    rw [enter_requests, State.wr_seq, hrequests]
  obtain ⟨hstarting, hdone⟩ := State.reqDone_requests hentered 3 code
  rw [startRefused_eq, State.reqDone_drive, enter_drive (by decide), hstarting, hdone, State.reqDone_olp, enter_olp, State.wr_olp]
  exact ⟨rfl, hstart, rfl, rfl⟩

/-! ### OUTER's output taken over (04 R142) -/

theorem outerPost_started {s : State} {l : OlLoop} (hnew : s.olNew = some l) (hok : l.refuse = none) :
    outerPost s = outerAsked l (outerShown l s) := by
  rw [outerPost_eq, hnew]
  dsimp only
  rw [hok]

theorem outerShown_start (l : OlLoop) (s : State) : (outerShown l s).olp.start = l.start := by
  unfold outerShown
  dsimp only
  split <;> rfl

@[simp] theorem startCompleteIfDue_olp (s : State) : (startCompleteIfDue s).olp = s.olp :=
  (startCompleteIfDue_sound (ms := 0x1000) rfl s (sound_refl _ s)).same .olp rfl

theorem startCompleteIfDue_flyStart (s : State) : (startCompleteIfDue s).seq.flyStart = s.seq.flyStart := by
  unfold startCompleteIfDue
  split
  · rw [State.reqDone_seq]
  · rfl

theorem brakeReleased_facts (s : State) : (brakeReleased s).olp = s.olp ∧ (brakeReleased s).seq.flyStart = s.seq.flyStart := by
  unfold brakeReleased
  rw [State.soutRefresh_eq, State.wr_olp, State.wr_seq]
  dsimp only
  rw [State.wr_olp, State.wr_olp]
  exact ⟨rfl, rfl⟩

/-- The order of the output is carried out: the start has flown, and the loops stay as posted. -/
theorem outerAsked_facts (l : OlLoop) (s : State) : (outerAsked l s).olp = s.olp ∧ (outerAsked l s).seq.flyStart = false := by
  unfold outerAsked
  extract_lets _ flown _ changed
  have hchanged : changed.olp = s.olp ∧ changed.seq.flyStart = false := by
    unfold changed
    split <;> exact ⟨rfl, rfl⟩
  rw [startCompleteIfDue_olp, startCompleteIfDue_flyStart]
  split
  · rw [(brakeReleased_facts changed).1, (brakeReleased_facts changed).2]
    exact hchanged
  · exact hchanged

/-! ### The steps -/

theorem fluxBuildEndIfDue_due {s : State} (hstart : s.olp.start = 2) (hbuilt : s.fluxBuilt = true) (hind : s.induction = true)
    (hrun : s.drive = 3) : (fluxBuildEndIfDue s).olp.start = 3 ∧ (fluxBuildEndIfDue s).seq.flyStart = false := by
  unfold fluxBuildEndIfDue
  rw [if_pos ⟨hstart, hbuilt, hind, hrun⟩, outerPost_started rfl rfl]
  obtain ⟨holp, hfly⟩ := outerAsked_facts _ (outerShown _ _)
  rw [holp, outerShown_start]
  exact ⟨rfl, hfly⟩

theorem fluxTimeoutIfDue_due {s : State} (hstart : s.olp.start = 2) (hbuilt : s.fluxBuilt = false) (hrun : s.drive = 3)
    (hlate : s.fluxLate s.olp = true) : fluxTimeoutIfDue s = startRefused 9 s :=
  if_pos ⟨hstart, by rw [hbuilt]; rfl, hrun, hlate⟩

theorem startCompleteIfDue_due {s : State} (hwaits : s.seq.starting = true) (hstart : s.olp.start = 4) :
    (startCompleteIfDue s).seq.starting = false ∧ (startCompleteIfDue s).seq.done = s.seq.done ++ [(3, 0)] := by
  unfold startCompleteIfDue
  rw [if_pos ⟨hwaits, hstart⟩, State.reqDone_seq]
  exact ⟨rfl, rfl⟩

/-- Settles O17: the ramp by the output posted, the refusal and the completion by what the sequencer then holds of the START. -/
theorem startsEnd : Obligations.StartsEnd := by
  intro s hr
  exact ⟨fun hstart hbuilt hind hrun => ⟨_, live_next _ hr, fluxBuildEndIfDue_due (s := s.cleared) hstart hbuilt hind hrun⟩,
    fun hstart hbuilt hrun hlate => ⟨_, (live_next _ hr).trans
      (congrArg _ (fluxTimeoutIfDue_due (s := s.cleared) hstart hbuilt hrun hlate)), startRefused_facts 9 s.cleared⟩,
    fun hwaits hstart => ⟨_, live_next _ hr, startCompleteIfDue_due (s := s.cleared) hwaits hstart⟩⟩

end Sys2Proof.Machine
end

section
/-! O31: START and STOP (04 R174; 05 R185, R186, R190, R197). -/

namespace Sys2Proof.Machine

/-! ### A request taken up (05 R184, R211) -/

/-- A request taken up: PEND and RESULT read 0, and it waits no more. -/
def requestTaken (s : State) : State :=
  { (s.wr R.LN_MD_RES_PEND 0).wr R.LN_MD_RES_RESULT 0 with seq := { s.seq with req := none } }

theorem evalRequest_start {r : SeqReq} (h : r.code = 3) (s : State) : evalRequest r s = startReq r.mode (requestTaken s) := by
  simp only [evalRequest, h]
  rfl

theorem evalRequest_stop {r : SeqReq} (h : r.code = 4) (s : State) : evalRequest r s = stopReq (requestTaken s) := by
  simp only [evalRequest, h]
  rfl

theorem rd_requestTaken {s : State} {g : Fld} (h : s.home g.addr ≠ R.LN_MD_RES_RESULT.addr) : (requestTaken s).rd g = s.rd g := by
  have hres : ∀ u : State, u.home R.LN_MD_RES_RESULT.addr = R.LN_MD_RES_RESULT.addr := fun u => home_ownWord u (by decide)
  have hpend : (s.wr R.LN_MD_RES_PEND 0).rd g = s.rd g := s.rd_wr_word 0 (by rwa [hres s])
  unfold requestTaken
  rw [State.rd_with_seq, State.rd_wr_word _ _ (by rwa [hres, State.home_wr]), hpend]

theorem rd_requestTaken_own (s : State) {g : Fld} (h : ownWord g.addr ∧ g.addr ≠ R.LN_MD_RES_RESULT.addr) :
    (requestTaken s).rd g = s.rd g :=
  rd_requestTaken (by rw [home_ownWord s h.1]; exact h.2)

@[simp] theorem requestTaken_drive (s : State) : (requestTaken s).drive = s.drive := rd_requestTaken_own s (by decide)
@[simp] theorem requestTaken_sub (s : State) : (requestTaken s).sub = s.sub := rd_requestTaken_own s (by decide)
@[simp] theorem requestTaken_predone (s : State) : (requestTaken s).on R.GD_STAT_PREDONE = s.on R.GD_STAT_PREDONE :=
  congrArg (· != 0) (rd_requestTaken_own s (by decide))

theorem requestTaken_keeps (s : State) : (requestTaken s).pm = s.pm ∧ (requestTaken s).ln = s.ln := by
  unfold requestTaken
  dsimp only
  rw [State.wr_pm, State.wr_pm, State.wr_ln, State.wr_ln]
  exact ⟨rfl, rfl⟩

@[simp] theorem requestTaken_isStandby (s : State) : (requestTaken s).isStandby = s.isStandby := by
  unfold State.isStandby
  rw [rd_requestTaken_own s (by decide), rd_requestTaken_own s (by decide), (requestTaken_keeps s).1]

@[simp] theorem requestTaken_profileRefuses (s : State) : (requestTaken s).profileRefuses = s.profileRefuses := by
  have hkft : s.home R.LN_OL_KFT.addr ≠ R.LN_MD_RES_RESULT.addr := by
    unfold State.home
    cases s.ln.bankB <;> decide
  unfold State.profileRefuses State.coef State.stale State.bit State.lastGood
  rw [rd_requestTaken_own s (by decide), rd_requestTaken_own s (by decide), rd_requestTaken hkft, (requestTaken_keeps s).2]

/-! ### START -/

section
variable {mode : Nat} {s : State}

theorem startReq_badState (h : ¬ (s.drive = 2 ∨ (s.drive = 4 ∧ s.sub = 0))) : startReq mode s = s.reqDone 3 1 := by
  unfold startReq
  exact if_pos (.inr (.inr (by rw [decide_eq_false h]; rfl)))

/-- A START that the state permits: a mode of R190 that the profile permits, no standby, from READY or in a normal stop. -/
structure State.StartPermitted (s : State) (m : Nat) : Prop where
  mode : 1 ≤ m ∧ m ≤ 4
  profile : m ≤ 2 ∨ s.profileRefuses = false
  own : s.isStandby = false
  drive : s.drive = 2 ∨ (s.drive = 4 ∧ s.sub = 0)

theorem State.StartPermitted.passes (h : s.StartPermitted mode) :
    ¬ (!decide (1 ≤ mode ∧ mode ≤ 4) ∨ s.isStandby ∨ !decide (s.drive = 2 ∨ (s.drive = 4 ∧ s.sub = 0))) ∧
      ¬ ((mode = 3 ∨ mode = 4) ∧ s.profileRefuses) := by
  obtain ⟨hmode, hprofile, hown, hdrive⟩ := h
  refine ⟨by simp [hmode, hown, hdrive], fun hp => ?_⟩
  obtain ⟨h34, hrefuses⟩ := hp
  rcases hprofile with h2 | hno
  · omega
  · rw [hno] at hrefuses
    exact Bool.false_ne_true hrefuses

theorem startReq_uncharged (h : s.StartPermitted mode) (hready : s.drive = 2) (hpre : s.on R.GD_STAT_PREDONE = false) :
    startReq mode s = s.reqDone 3 6 := by
  unfold startReq
  rw [if_neg h.passes.1, if_neg h.passes.2]
  exact if_pos ⟨hready, by rw [hpre]; rfl⟩

/-- The mode chosen is the one that MODE reads once the drive is in RUN without a sub-mode (05 R189, R191). -/
theorem enter_modeChoose (hmode : mode < 8) (s : State) (state cause : Nat) (demand : Bool) :
    (enter state 0 cause demand (s.modeChoose mode)).rd R.LN_MD_STAT_MODE = mode := by
  have hwidth : mode % 2 ^ 3 = mode := Nat.mod_eq_of_lt hmode
  rw [enter_mode]
  unfold State.modeChoose
  split
  · next hsub =>
    have hkept : (s.wr R.LN_MD_STAT_MODE mode).sub = s.sub := s.rd_wr_missed (by decide) mode
    rw [hkept, if_pos hsub, State.rd_wr_same _ (by decide)]
    exact hwidth
  · next hsub =>
    have hkept : (s.wr R.LN_MD_STAT_PREV mode).sub = s.sub := s.rd_wr_missed (by decide) mode
    rw [hkept, if_neg hsub, State.rd_wr_same _ (by decide)]
    exact hwidth

/-- RUN in the mode named: a flying start from READY, resumed from a normal stop. -/
theorem startReq_begins (h : s.StartPermitted mode) (hpre : s.drive = 2 → s.on R.GD_STAT_PREDONE = true) :
    (startReq mode s).drive = 3 ∧ (startReq mode s).sub = 0 ∧ (startReq mode s).rd R.LN_MD_STAT_MODE = mode ∧
      (startReq mode s).seq.starting = true ∧ (startReq mode s).seq.flyStart = decide (s.drive = 2) ∧
      (startReq mode s).seq.resume = !decide (s.drive = 2) := by
  have hmode : mode < 8 := by have := h.mode; omega
  unfold startReq
  rw [if_neg h.passes.1, if_neg h.passes.2, if_neg (fun hp => by rw [hpre hp.1] at hp; exact Bool.false_ne_true hp.2)]
  extract_lets fresh chosen held before entered released braked
  have hbraked : ∀ g : Fld, ownWord g.addr ∧ R.LN_MD_BRK_PH.Misses g ∧ R.LN_MD_BRK_SETCMD.Misses g → braked.rd g = entered.rd g := by
    intro g ⟨hown, hph, hset⟩
    have hreleased : released.rd g = entered.rd g := by
      unfold released
      split
      · rfl
      · rw [State.rd_wr_missed _ ⟨by decide, hown, hset⟩, State.rd_brakePhase _ _ ⟨hown, hph⟩]
    rw [← hreleased]
    unfold braked
    split
    · rfl
    · exact State.rd_brakePhase _ _ ⟨hown, hph⟩
  exact ⟨(hbraked _ (by decide)).trans (enter_drive (by decide) 0 0 false chosen),
    (hbraked _ (by decide)).trans (enter_sub (by decide) 3 0 false chosen),
    (hbraked _ (by decide)).trans (enter_modeChoose hmode s 3 0 false), rfl, rfl, rfl⟩

end

/-! ### STOP -/

/-- STOP in RUN: STOPPING without a sub-mode, phase 2 of the brake sequence. -/
theorem stopReq_run {s : State} (hrun : s.drive = 3) (hown : s.isStandby = false) :
    stopReq s = ((enter 4 0 0 false (abandon 1 s)).brakePhase 2).reqDone 4 0 :=
  if_pos ⟨hrun, by rw [hown]; rfl⟩

theorem stopReq_badState {s : State} (hrun : s.drive ≠ 3) (hstop : s.drive ≠ 4) : stopReq s = s.reqDone 4 1 :=
  (if_neg (fun h => hrun h.1)).trans (if_neg (fun h => hstop h.1))

theorem stopReq_acts {s : State} (hrun : s.drive = 3) (hown : s.isStandby = false) : (stopReq s).drive = 4 ∧ (stopReq s).sub = 0 ∧
    (stopReq s).rd R.LN_MD_BRK_PH = 2 ∧ (stopReq s).rd R.LN_MD_RES_RESULT = 0 := by
  rw [stopReq_run hrun hown, State.reqDone_drive, State.reqDone_sub, State.rd_reqDone _ _ _ (by decide)]
  exact ⟨(State.rd_brakePhase _ 2 (by decide)).trans (enter_drive (by decide) 0 0 false _),
    (State.rd_brakePhase _ 2 (by decide)).trans (enter_sub (by decide) 4 0 false _),
    State.brakePhase_ph _ (by decide), State.reqDone_result _ 4 (by decide)⟩

/-! ### The steps -/

theorem exec_start {s : State} (hr : s.Running) (mode : Fin 8) : exec (.start mode) s = .next (startReq mode.val (requestTaken s.cleared)) :=
  (live_next _ hr).trans (congrArg _ (evalRequest_start rfl s.cleared))

theorem exec_stop {s : State} (hr : s.Running) : exec .stop s = .next (stopReq (requestTaken s.cleared)) :=
  (live_next _ hr).trans (congrArg _ (evalRequest_stop rfl s.cleared))

/-- Settles O31: both requests, by what the state in which they are taken up permits. -/
theorem startAndStop : Obligations.StartAndStop := by
  intro mode s hr
  have hdrive : (requestTaken s.cleared).drive = s.drive := requestTaken_drive _
  have hsub : (requestTaken s.cleared).sub = s.sub := requestTaken_sub _
  have hown : (requestTaken s.cleared).isStandby = s.isStandby := requestTaken_isStandby _
  have hpre : (requestTaken s.cleared).on R.GD_STAT_PREDONE = s.on R.GD_STAT_PREDONE := requestTaken_predone _
  have hprofile : (requestTaken s.cleared).profileRefuses = s.profileRefuses := requestTaken_profileRefuses _
  have hstart := exec_start hr mode
  have hstop := exec_stop hr
  generalize requestTaken s.cleared = u at *
  rw [← hdrive, ← hsub, ← hown, ← hpre, ← hprofile]
  refine ⟨fun h1 h4 ho hd hp hm => ?_, fun h1 h4 ho hd hs hm => ?_, fun hd hs => ⟨_, hstart, ?_⟩,
    fun h1 h4 ho hd hp hm => ⟨_, hstart, ?_⟩, fun hd ho => ⟨_, hstop, stopReq_acts hd ho⟩, fun hd hs => ⟨_, hstop, ?_⟩⟩
  · obtain ⟨h3, h0, hmode, hstarting, hfly, hresume⟩ := startReq_begins ⟨⟨h1, h4⟩, hm, ho, .inl hd⟩ (fun _ => hp)
    rw [hd] at hfly hresume
    exact ⟨_, hstart, h3, h0, hmode, hstarting, hfly, hresume⟩
  · have hne : u.drive ≠ 2 := by omega
    obtain ⟨h3, -, hmode, hstarting, hfly, hresume⟩ := startReq_begins ⟨⟨h1, h4⟩, hm, ho, .inr ⟨hd, hs⟩⟩ (fun h => absurd h hne)
    rw [decide_eq_false hne] at hfly hresume
    exact ⟨_, hstart, h3, hmode, hstarting, hfly, hresume⟩
  · rw [startReq_badState (not_or.mpr ⟨hd, hs⟩)]
    exact ⟨State.reqDone_drive _ _ _, State.reqDone_result _ 3 (by decide)⟩
  · rw [startReq_uncharged ⟨⟨h1, h4⟩, hm, ho, .inl hd⟩ hd hp]
    exact ⟨(State.reqDone_drive _ _ _).trans hd, State.reqDone_result _ 3 (by decide)⟩
  · rw [stopReq_badState hd hs]
    exact ⟨State.reqDone_drive _ _ _, State.reqDone_result _ 4 (by decide)⟩

end Sys2Proof.Machine
end

section
/-! SUPPORT. What the conditions of the drive read (03 R93, R124; 05 R187): each of them is the same in a state that holds the same fields. -/

namespace Sys2Proof.Machine

/-! ### Conditions over the roles of the channels (03 R92, R93, R124) -/

section
variable {s t : State} (hrole : ∀ n, t.rd (R.SD_CHn_CFG_ROLE n) = s.rd (R.SD_CHn_CFG_ROLE n))
include hrole

theorem State.roleCh_congr (role : Nat) : t.roleCh role = s.roleCh role := by
  unfold State.roleCh
  simp only [hrole]

theorem State.rolesForGates_congr (hchen : t.rd R.LN_MD_CFG_CHEN = s.rd R.LN_MD_CFG_CHEN) : t.rolesForGates = s.rolesForGates := by
  unfold State.rolesForGates State.on
  simp only [State.roleCh_congr hrole, hchen]

theorem State.meanOf_congr (hmean : ∀ n, t.rd (R.SD_CHn_MEAN n) = s.rd (R.SD_CHn_MEAN n)) (role : Nat) : t.meanOf role = s.meanOf role := by
  unfold State.meanOf State.rdQ State.rdI
  simp only [State.roleCh_congr hrole, hmean]

/-- What the refusal of PW.CTL.RUN = 1 reads beside the roles (03 R124). -/
abbrev runFlds : List Fld := [R.TT_PERIOD_CYC, R.PW_CARRIER_ORIGIN, R.PW_CARRIER_K, R.PW_PHASE, R.PW_DT, R.PW_MINPULSE, R.LN_MD_CFG_CHEN]

theorem State.runRefused_congr (hflds : ∀ g ∈ runFlds, t.rd g = s.rd g) : t.runRefused = s.runRefused := by
  unfold State.runRefused State.tc State.period
  rw [State.rolesForGates_congr hrole (hflds R.LN_MD_CFG_CHEN (by decide)), hflds R.TT_PERIOD_CYC (by decide),
    hflds R.PW_CARRIER_ORIGIN (by decide), hflds R.PW_CARRIER_K (by decide), hflds R.PW_PHASE (by decide), hflds R.PW_DT (by decide),
    hflds R.PW_MINPULSE (by decide)]

end

/-! ### The latches of the gate channels (05 R194, R198; 06 R237) -/

/-- What an ASC block reads: the causes of R194, and the latches of the low sides. -/
theorem State.ascBlock_congr {s t : State} (h11 : t.hasCause 11 = s.hasCause 11) (h1 : t.hasCause 1 = s.hasCause 1)
    (h6 : t.hasCause 6 = s.hasCause 6) (hlatch : ∀ c, ∀ f : Fld, f.addr = (R.GD_CHc_STAT_UVLOP c).addr → t.rd f = s.rd f) :
    t.ascBlock = s.ascBlock := by
  unfold State.ascBlock State.hold8
  rw [h11, h1, h6]
  simp only [hlatch _ (R.GD_CHc_STAT_UVLOP _) rfl, hlatch _ (R.GD_CHc_STAT_UVLON _) rfl, hlatch _ (R.GD_CHc_STAT_DESAT _) rfl,
    hlatch _ (R.GD_CHc_STAT_SHOOT _) rfl, hlatch _ (R.GD_CHc_STAT_LINK _) rfl, hlatch _ (R.GD_CHc_STAT_SYNC _) rfl,
    hlatch _ (R.GD_CHc_STAT_SCHED_BAD _) rfl]

/-! ### Fields of one bit -/

/-- A field of one bit is its truth value. -/
theorem State.rd_eq_b2n_on (s : State) {f : Fld} (h : f.width = 1) : s.rd f = b2n (s.on f) := by
  have hlt := s.rd_lt f
  rw [h] at hlt
  unfold State.on
  obtain h0 | h1 : s.rd f = 0 ∨ s.rd f = 1 := by omega
  · rw [h0]; rfl
  · rw [h1]; rfl

theorem State.on_congr {s t : State} {f : Fld} (h : t.rd f = s.rd f) : t.on f = s.on f := congrArg (· != 0) h

/-- A gate channel is read from the channels of the gate drive alone. -/
theorem State.gch_congr {s t : State} (h : t.gd.ch = s.gd.ch) (c : Nat) : t.gch c = s.gch c := by
  unfold State.gch
  rw [h]

end Sys2Proof.Machine
end

section
/-! SUPPORT. A change of the drive state (05 R183, R185, R191): PW.CTL.RUN, the gates and the causes raised after it. -/

namespace Sys2Proof.Machine

/-! ### The parts of the effects of a drive state (05 R185) -/

/-- The precharge of an ENABLE given up (06 R233). -/
def State.prechargeDropped (s : State) : State := { s with gd := { s.gd with preStart := none } }

/-- A flying start, or a stop resumed, is over. -/
def State.flightDropped (s : State) : State := { s with seq := { s.seq with flyStart := false, resume := false } }

/-- No output has been valid since the entry into RUN (02 R76). -/
def State.validDropped (s : State) : State := { s with ln := { s.ln with tasks := s.ln.tasks.map (fun t => { t with everValid := false }) } }

/-- The marks that a drive state takes back, beside its registers. -/
def effectMarks (old n : Nat) (s : State) : State :=
  let s := if n = 2 then s else s.prechargeDropped
  let s := if n = 3 then s else s.flightDropped
  if n = 3 ∧ old ≠ 3 then s.validDropped else s

/-- A brake sequence over: the taper and the time limit of the entry are gone. -/
def State.stopForgotten (s : State) : State := { s with seq := { s.seq with taperAt := none, entryAt := none } }

/-- The brake of a drive state, and the phase of its sequence. -/
def effectBrake (n : Nat) (s : State) : State :=
  let s := if n ≤ 2 ∨ n = 6 ∨ (n = 5 ∧ s.on R.LN_MD_CFG_BRAKE) then s.brakeSet else s
  if n = 3 ∨ n = 4 then s else (s.brakePhase 5).stopForgotten

theorem stateEffects_eq (old : Nat) (s : State) : stateEffects old s =
    (effectBrake s.drive (effectMarks old s.drive (s.runOrder (2 ≤ s.drive && s.drive ≤ 5 && !s.isStandby)))).gateRefresh := rfl

section
variable {α : Type} (k : State → α)

theorem effectMarks_keeps (hprecharge : ∀ u : State, k u.prechargeDropped = k u) (hflight : ∀ u : State, k u.flightDropped = k u)
    (hvalid : ∀ u : State, k u.validDropped = k u) (old n : Nat) (s : State) : k (effectMarks old n s) = k s := by
  unfold effectMarks
  extract_lets charged flown
  have hcharged : k charged = k s := by
    unfold charged
    split
    · rfl
    · exact hprecharge s
  have hflown : k flown = k charged := by
    unfold flown
    split
    · rfl
    · exact hflight charged
  split
  · rw [hvalid, hflown, hcharged]
  · rw [hflown, hcharged]

theorem effectBrake_keeps (hset : ∀ u : State, k u.brakeSet = k u) (hphase : ∀ u : State, k (u.brakePhase 5).stopForgotten = k u)
    (n : Nat) (s : State) : k (effectBrake n s) = k s := by
  unfold effectBrake
  extract_lets braked
  have hbraked : k braked = k s := by
    unfold braked
    split
    · exact hset s
    · rfl
  split
  · exact hbraked
  · exact (hphase braked).trans hbraked

end

/-! ### STATE, SUB, CAUSE and DEMAND (05 R191) -/

/-- The change itself, before its effects: LN.MD_STAT alone. -/
theorem rd_statMoved {g : Fld} (h : ownWord g.addr ∧ g.addr ≠ R.LN_MD_STAT_STATE.addr) (state sub cause : Nat) (demand : Bool) (s : State) :
    (statWritten state sub cause demand (modeMoved sub s)).rd g = s.rd g := by
  have hwr : ∀ (u : State) (f : Fld) (v : Nat), f.addr = R.LN_MD_STAT_STATE.addr → (u.wr f v).rd g = u.rd g := fun u f v hf =>
    u.rd_wr_missed ⟨by rw [hf]; decide, h.1, .inl (by rw [hf]; exact h.2)⟩ v
  have hmoved : (modeMoved sub s).rd g = s.rd g := by
    unfold modeMoved
    split
    · exact (hwr _ R.LN_MD_STAT_MODE _ rfl).trans (hwr _ R.LN_MD_STAT_PREV _ rfl)
    · split
      · exact hwr _ R.LN_MD_STAT_MODE _ rfl
      · rfl
  exact (hwr _ R.LN_MD_STAT_DEMAND _ rfl).trans ((hwr _ R.LN_MD_STAT_CAUSE _ rfl).trans ((hwr _ R.LN_MD_STAT_SUB _ rfl).trans
    ((hwr _ R.LN_MD_STAT_STATE _ rfl).trans hmoved)))

/-- The change itself writes registers alone. -/
theorem statMoved_keeps {α : Type} (k : State → α) (hwr : ∀ (u : State) f v, k (u.wr f v) = k u) (state sub cause : Nat) (demand : Bool)
    (s : State) : k (statWritten state sub cause demand (modeMoved sub s)) = k s := by
  have hmoved : k (modeMoved sub s) = k s := by
    unfold modeMoved
    split
    · rw [hwr, hwr]
    · split
      · exact hwr _ _ _
      · rfl
  unfold statWritten
  rw [hwr, hwr, hwr, hwr, hmoved]

theorem statMoved_isStandby (state sub cause : Nat) (demand : Bool) (s : State) :
    (statWritten state sub cause demand (modeMoved sub s)).isStandby = s.isStandby := by
  unfold State.isStandby
  rw [rd_statMoved (by decide), rd_statMoved (by decide), statMoved_keeps State.pm (fun u f v => u.wr_pm f v)]

theorem statMoved_runRefused (state sub cause : Nat) (demand : Bool) (s : State) :
    (statWritten state sub cause demand (modeMoved sub s)).runRefused = s.runRefused := by
  have hflds : ∀ g ∈ runFlds, ownWord g.addr ∧ g.addr ≠ R.LN_MD_STAT_STATE.addr := by decide
  exact State.runRefused_congr (fun n => rd_statMoved (by simp only; omega) _ _ _ _ _) fun g hg => rd_statMoved (hflds g hg) _ _ _ _ _

theorem statMoved_drive {state : Nat} (hstate : state < 8) (sub cause : Nat) (demand : Bool) (s : State) :
    (statWritten state sub cause demand (modeMoved sub s)).drive = state :=
  (rd_enter (by decide) stat_apart state sub cause demand s).symm.trans (enter_drive hstate sub cause demand s)

/-- A field that neither the change nor its effects write. -/
theorem rd_enter_kept {g : Fld} (h : g.KeptByEffects) (hq : apartFromQueues g.addr) (hne : g.addr ≠ R.LN_MD_STAT_STATE.addr)
    (state sub cause : Nat) (demand : Bool) (s : State) : (enter state sub cause demand s).rd g = s.rd g :=
  (rd_enter h hq state sub cause demand s).trans (rd_statMoved ⟨h.1, hne⟩ state sub cause demand s)

theorem enter_cause {cause : Nat} (hcause : cause < 256) (state sub : Nat) (demand : Bool) (s : State) :
    (enter state sub cause demand s).rd R.LN_MD_STAT_CAUSE = cause := by
  rw [rd_enter (by decide) stat_apart]
  unfold statWritten
  rw [State.rd_wr_missed _ (by decide), State.rd_wr_same _ (by decide)]
  exact Nat.mod_eq_of_lt hcause

theorem enter_demand (state sub cause : Nat) (demand : Bool) (s : State) : (enter state sub cause demand s).on R.LN_MD_STAT_DEMAND = demand := by
  unfold State.on
  rw [rd_enter (by decide) stat_apart]
  unfold statWritten
  rw [State.rd_wr_same _ (by decide)]
  cases demand <;> rfl

@[simp] theorem enter_time (state sub cause : Nat) (demand : Bool) (s : State) : (enter state sub cause demand s).time = s.time :=
  (enter_sound (ms := 0x20) rfl state sub cause demand s (sound_refl _ s)).same .time rfl

/-! ### PW.CTL.RUN (05 R185) -/

theorem runOrder_run {s : State} {run : Bool} (h : run = true → s.runRefused = false) : (s.runOrder run).rd R.PW_CTL_RUN = b2n run := by
  unfold State.runOrder
  split
  · next hon => rw [State.rd_eq_b2n_on s rfl, hon]
  · cases run with
    | true => exact runSet_taken (h rfl)
    | false => exact runSet_off s

/-- What the brake newly commanded set writes (05 R196). -/
abbrev brakeFlds : List Fld := [R.SB_STAT_SBCSET, R.LN_MD_BRK_SETCMD]

theorem State.rd_brakeSet (s : State) {g : Fld} (h : ownWord g.addr ∧ ∀ f ∈ brakeFlds, f.Misses g) : s.brakeSet.rd g = s.rd g := by
  obtain ⟨hown, hmiss⟩ := h
  have hwr : ∀ (u : State), ∀ f ∈ brakeFlds, (u.wr f 1).rd g = u.rd g := fun u f hf =>
    u.rd_wr_missed ⟨(show ∀ f ∈ brakeFlds, ownWord f.addr by decide) f hf, hown, hmiss f hf⟩ 1
  have hsbc := hwr s R.SB_STAT_SBCSET (by decide)
  rw [State.brakeSet_eq]
  split
  · exact hsbc
  · rw [(State.setWatched_facts _).2]
    exact (hwr _ R.LN_MD_BRK_SETCMD (by decide)).trans hsbc

theorem stateEffects_run (old : Nat) (s : State) : (stateEffects old s).rd R.PW_CTL_RUN =
    (s.runOrder (2 ≤ s.drive && s.drive ≤ 5 && !s.isStandby)).rd R.PW_CTL_RUN := by
  rw [stateEffects_eq, State.rd_gateRefresh]
  exact (effectBrake_keeps (State.rd · R.PW_CTL_RUN) (fun u => u.rd_brakeSet (by decide))
      (fun u => (State.rd_with_seq _ _ _).trans (u.rd_brakePhase 5 (by decide))) _ _).trans
    (effectMarks_keeps (State.rd · R.PW_CTL_RUN) (fun u => u.rd_with_gd _ _) (fun u => u.rd_with_seq _ _)
      (fun u => u.rd_setLn _ (by decide)) _ _ _)

/-- Between READY and FAULT the sequencer runs the modulator, but in a standby; below them and in LOCKOUT it stops it. -/
theorem enter_run {state : Nat} (hstate : state < 8) {s : State} (h : state < 2 ∨ s.runRefused = false) (sub cause : Nat) (demand : Bool) :
    (enter state sub cause demand s).rd R.PW_CTL_RUN = b2n (2 ≤ state && state ≤ 5 && !s.isStandby) := by
  have hq : apartFromQueues (R.PW_CTL_RUN).addr := by
    unfold apartFromQueues
    decide
  rw [enter_eq, State.rd_driveEvent hq, stateEffects_run, statMoved_drive hstate, statMoved_isStandby]
  refine runOrder_run fun hrun => ?_
  rw [statMoved_runRefused]
  refine h.resolve_left fun h2 => ?_
  rw [decide_eq_false (by omega)] at hrun
  exact Bool.false_ne_true hrun

/-! ### The gates -/

@[simp] theorem State.driveEvent_gd (b a : State) : (b.driveEvent a).gd = b.gd := by
  unfold State.driveEvent
  split
  · rfl
  · exact State.event_gd _ _ _ _

/-- Below READY the chain is open (10 R345). -/
theorem State.gateChain_low {s : State} (h : s.drive < 2) (c : Nat) : s.gateChain c = false := by
  unfold State.gateChain
  rw [decide_eq_false (by omega)]
  simp only [Bool.false_and]

theorem stateEffects_drivers_low {old : Nat} {s : State} (h : (stateEffects old s).drive < 2) {c : Nat} (hc : c < 7) :
    ((stateEffects old s).gch c).drive = false := by
  rw [stateEffects_eq] at h ⊢
  unfold State.drive at h
  rw [State.rd_gateRefresh] at h
  exact (State.drive_gateRefresh _ hc).trans (State.gateChain_low h c)

/-- Below READY every GATE_EN driver is low (05 R185). -/
theorem enter_drivers_low {state : Nat} (hstate : state < 2) (sub cause : Nat) (demand : Bool) (s : State) {c : Nat} (hc : c < 7) :
    ((enter state sub cause demand s).gch c).drive = false := by
  have hdrive := enter_drive (show state < 8 by omega) sub cause demand s
  unfold State.drive at hdrive
  rw [enter_eq, State.rd_driveEvent stat_apart] at hdrive
  rw [enter_eq, State.gch_congr (congrArg GdState.ch (State.driveEvent_gd _ _))]
  exact stateEffects_drivers_low (hdrive.trans_lt hstate) hc

/-- What a gate channel does at its gate and what it has armed. -/
def GdChan.output (g : GdChan) : Bool × List EdgeBlock := (g.on, g.armed)

theorem runSet_output (s : State) (run : Bool) {c : Nat} (hc : c < 7) : ((s.runSet run).gch c).output = (s.gch c).output := by
  unfold State.runSet
  split
  · exact congrArg GdChan.output (State.gch_congr (congrArg GdState.ch (s.wr_gd _ _)) c)
  · split
    · exact congrArg GdChan.output (State.gch_congr (congrArg GdState.ch (s.wr_gd _ _)) c)
    · unfold State.gch
      simp [hc, GdChan.output]

theorem runOrder_output (s : State) (run : Bool) {c : Nat} (hc : c < 7) : ((s.runOrder run).gch c).output = (s.gch c).output := by
  unfold State.runOrder
  split
  · rfl
  · exact runSet_output s run hc

/-- What a change of a gate channel leaves of it, it leaves of all of them. -/
theorem setGch_keeps {β : Type} (p : GdChan → β) (s : State) (d : Nat) {f : GdChan → GdChan} (hf : ∀ g, p (f g) = p g) {c : Nat}
    (hc : c < 7) : p ((s.setGch d f).gch c) = p (s.gch c) := by
  rw [State.gch_setGch s f d hc]
  split
  · exact hf _
  · rfl

theorem gateRefresh_output (s : State) {c : Nat} (hc : c < 7) : (s.gateRefresh.gch c).output = (s.gch c).output := by
  refine foldl_keeps (fun u => (u.gch c).output) (fun u d => ?_) _ s
  unfold State.gateRefreshOne
  dsimp only
  split
  · rfl
  · split
    · exact setGch_keeps GdChan.output u d (by intro _; rfl) hc
    · exact setGch_keeps GdChan.output u d (by intro _; rfl) hc

/-- A change of the drive state changes no gate at once, and discards nothing armed. -/
theorem enter_output (state sub cause : Nat) (demand : Bool) (s : State) {c : Nat} (hc : c < 7) :
    ((enter state sub cause demand s).gch c).output = (s.gch c).output := by
  have hgd : ∀ u t : State, t.gd = u.gd → (t.gch c).output = (u.gch c).output := fun u t h =>
    congrArg GdChan.output (State.gch_congr (congrArg GdState.ch h) c)
  have hphase : ∀ u : State, (u.brakePhase 5).stopForgotten.gd = u.gd := fun u => by
    unfold State.stopForgotten State.brakePhase
    dsimp only
    rw [State.wr_gd]
  rw [enter_eq, hgd _ _ (State.driveEvent_gd _ _), stateEffects_eq, gateRefresh_output _ hc,
    effectBrake_keeps (fun u => (u.gch c).output) (fun u => hgd _ _ u.brakeSet_gd) (fun u => hgd _ _ (hphase u)),
    effectMarks_keeps (fun u => (u.gch c).output) (fun _ => rfl) (fun _ => rfl) (fun _ => rfl), runOrder_output _ _ hc,
    statMoved_keeps (fun u => (u.gch c).output) (fun u f v => hgd _ _ (u.wr_gd f v))]

/-! ### The causes raised -/

theorem enter_raised (state sub cause : Nat) (demand : Bool) (s : State) : (enter state sub cause demand s).seq.raised = s.seq.raised := by
  have hphase : ∀ u : State, (u.brakePhase 5).stopForgotten.seq.raised = u.seq.raised := fun u => by
    unfold State.stopForgotten State.brakePhase
    dsimp only
    rw [State.wr_seq]
  rw [enter_eq, State.driveEvent_seq, stateEffects_eq, State.gateRefresh_seq,
    effectBrake_keeps (fun u => u.seq.raised) (fun u => (brakeSet_facts u).1) hphase,
    effectMarks_keeps (fun u => u.seq.raised) (fun _ => rfl) (fun _ => rfl) (fun _ => rfl), runOrder_seq,
    statMoved_keeps (fun u => u.seq.raised) (fun u f v => congrArg SeqState.raised (u.wr_seq f v))]

end Sys2Proof.Machine
end

section
/-! SUPPORT. The conditions of a request in the state that has taken it up (05 R184, R187), and a request that another one ends (05 R186). -/

namespace Sys2Proof.Machine

/-! ### A request taken up -/

@[simp] theorem requestTaken_time (s : State) : (requestTaken s).time = s.time := by
  unfold requestTaken
  dsimp only
  rw [State.wr_time, State.wr_time]
@[simp] theorem requestTaken_gd (s : State) : (requestTaken s).gd = s.gd := by
  unfold requestTaken
  dsimp only
  rw [State.wr_gd, State.wr_gd]
@[simp] theorem requestTaken_lim (s : State) : (requestTaken s).lim = s.lim := by
  unfold requestTaken
  dsimp only
  rw [State.wr_lim, State.wr_lim]
@[simp] theorem requestTaken_olp (s : State) : (requestTaken s).olp = s.olp := by
  unfold requestTaken
  dsimp only
  rw [State.wr_olp, State.wr_olp]
@[simp] theorem requestTaken_fb (s : State) : (requestTaken s).fb = s.fb := by
  unfold requestTaken
  dsimp only
  rw [State.wr_fb, State.wr_fb]
theorem requestTaken_seq (s : State) : (requestTaken s).seq = { s.seq with req := none } := by
  unfold requestTaken
  dsimp only

theorem rd_requestTaken_role (s : State) (n : Nat) : (requestTaken s).rd (R.SD_CHn_CFG_ROLE n) = s.rd (R.SD_CHn_CFG_ROLE n) :=
  rd_requestTaken_own s (by simp only; omega)

theorem rd_requestTaken_mean (s : State) (n : Nat) : (requestTaken s).rd (R.SD_CHn_MEAN n) = s.rd (R.SD_CHn_MEAN n) :=
  rd_requestTaken_own s (by simp only; omega)

theorem requestTaken_on (s : State) {g : Fld} (h : ownWord g.addr ∧ g.addr ≠ R.LN_MD_RES_RESULT.addr) : (requestTaken s).on g = s.on g :=
  State.on_congr (rd_requestTaken_own s h)

@[simp] theorem requestTaken_runRefused (s : State) : (requestTaken s).runRefused = s.runRefused := by
  have hflds : ∀ g ∈ runFlds, ownWord g.addr ∧ g.addr ≠ R.LN_MD_RES_RESULT.addr := by decide
  exact State.runRefused_congr (rd_requestTaken_role s) fun g hg => rd_requestTaken_own s (hflds g hg)

@[simp] theorem requestTaken_enableRefusal (s : State) : (requestTaken s).enableRefusal = s.enableRefusal := by
  have hdc : (requestTaken s).dcReady = s.dcReady := by
    unfold State.dcReady
    rw [requestTaken_seq]
  unfold State.enableRefusal
  rw [rd_requestTaken_own s (by decide), requestTaken_on s (by decide), requestTaken_on s (by decide), requestTaken_on s (by decide),
    requestTaken_on s (by decide), State.rolesForGates_congr (rd_requestTaken_role s) (rd_requestTaken_own s (by decide)), hdc,
    requestTaken_gd, requestTaken_runRefused]

/-! ### A request given up -/

theorem rd_abandon {g : Fld} (h : ownWord g.addr ∧ R.LN_MD_RES_RESULT.Misses g) (result : Nat) (s : State) :
    (abandon result s).rd g = s.rd g := by
  unfold abandon
  extract_lets _ enabled _
  have henabled : enabled.rd g = s.rd g := by
    unfold enabled
    split
    · exact (State.rd_reqDone _ _ _ h).trans (State.rd_with_seq _ _ _)
    · rfl
  split
  · exact ((State.rd_reqDone _ _ _ h).trans (State.rd_with_seq _ _ _)).trans henabled
  · exact henabled

theorem abandon_raised (result : Nat) (s : State) : (abandon result s).seq.raised = s.seq.raised := by
  unfold abandon
  extract_lets _ enabled _
  have henabled : enabled.seq.raised = s.seq.raised := by
    unfold enabled
    split
    · rw [State.reqDone_seq]
    · rfl
  split
  · rw [State.reqDone_seq]
    exact henabled
  · exact henabled

@[simp] theorem State.reqDone_gd (s : State) (code result : Nat) : (s.reqDone code result).gd = s.gd :=
  (State.reqDone_sound (ms := 0x4000) rfl s code result (sound_refl _ s)).same .gd rfl

theorem State.sub_lt (s : State) : s.sub < 16 := s.rd_lt R.LN_MD_STAT_SUB

end Sys2Proof.Machine
end

section
/-! O30: ENABLE and DISABLE (05 R185–R187, R191; 06 R233; 09 R334). That SUB stays with STANDBY and READY is the model's choice (assumption
log 48). -/

namespace Sys2Proof.Machine

theorem evalRequest_enable {r : SeqReq} (h : r.code = 1) (s : State) : evalRequest r s = enableReq (requestTaken s) := by
  simp only [evalRequest, h]
  rfl

theorem evalRequest_disable {r : SeqReq} (h : r.code = 2) (s : State) : evalRequest r s = disableReq (requestTaken s) := by
  simp only [evalRequest, h]
  rfl

theorem exec_enable {s : State} (hr : s.Running) : exec .enable s = .next (enableReq (requestTaken s.cleared)) :=
  (live_next _ hr).trans (congrArg _ (evalRequest_enable rfl s.cleared))

theorem exec_disable {s : State} (hr : s.Running) : exec .disable s = .next (disableReq (requestTaken s.cleared)) :=
  (live_next _ hr).trans (congrArg _ (evalRequest_disable rfl s.cleared))

/-! ### ENABLE (05 R187) -/

section
variable {s : State}

/-- The bootstrap precharge begun, and the ENABLE waiting for it (06 R233). -/
def prechargeBegun (s : State) : State :=
  { s.wr R.GD_STAT_PREDONE 0 with
    seq := { s.seq with enabling := true }
    sb := { s.sb with testAt := s.time.tb, testDue := false }
    gd := { s.gd with preStart := some s.time.tb, preLeg := 0 } }

/-- What the sequencer, the Signal Box and the gate drive hold beside their registers is no register. -/
theorem State.rd_with_marks (s : State) (q : SeqState) (x : SbState) (d : GdState) (g : Fld) :
    { s with seq := q, sb := x, gd := d }.rd g = s.rd g := rfl

theorem rd_prechargeBegun (s : State) {g : Fld} (h : ownWord g.addr ∧ R.GD_STAT_PREDONE.Misses g) : (prechargeBegun s).rd g = s.rd g := by
  unfold prechargeBegun
  exact (State.rd_with_marks _ _ _ _ g).trans (s.rd_wr_missed ⟨by decide, h⟩ 0)

theorem prechargeBegun_predone (s : State) : (prechargeBegun s).rd R.GD_STAT_PREDONE = 0 := by
  unfold prechargeBegun
  exact (State.rd_with_marks _ _ _ _ _).trans (s.rd_wr_same (by decide) 0)

theorem prechargeBegun_marks (s : State) : (prechargeBegun s).seq.enabling = true ∧ (prechargeBegun s).gd.preStart = some s.time.tb :=
  ⟨rfl, rfl⟩

theorem enableReq_badState (h : s.drive ≠ 1 ∨ s.isStandby = true) : enableReq s = s.reqDone 1 1 := if_pos h

theorem enableReq_refused {r : Nat} (hdrive : s.drive = 1) (hown : s.isStandby = false) (hr : s.enableRefusal = some r) :
    enableReq s = s.reqDone 1 r := by
  unfold enableReq
  rw [if_neg (by rw [hdrive, hown]; decide), hr]

theorem enableReq_taken (hdrive : s.drive = 1) (hown : s.isStandby = false) (hr : s.enableRefusal = none) :
    enableReq s = prechargeBegun (enter 2 s.sub (if s.sub = 0 then 0 else s.rd R.LN_MD_STAT_CAUSE) false s) := by
  unfold enableReq
  rw [if_neg (by rw [hdrive, hown]; decide), hr]
  rfl

/-- The refusals of R187 fit RESULT. -/
theorem State.enableRefusal_lt {r : Nat} (h : s.enableRefusal = some r) : r < 16 := by
  unfold State.enableRefusal at h
  repeat' split at h
  all_goals simp at h
  all_goals omega

theorem State.runRefused_of_enableRefusal (h : s.enableRefusal = none) : s.runRefused = false := by
  unfold State.enableRefusal at h
  repeat' split at h
  all_goals simp_all

theorem enableReq_enters (hdrive : s.drive = 1) (hown : s.isStandby = false) (hr : s.enableRefusal = none) :
    (enableReq s).drive = 2 ∧ (enableReq s).sub = s.sub ∧ (enableReq s).seq.enabling = true ∧
      (enableReq s).gd.preStart = some s.time.tb ∧ (enableReq s).rd R.PW_CTL_RUN = 1 ∧ (enableReq s).rd R.GD_STAT_PREDONE = 0 := by
  rw [enableReq_taken hdrive hown hr]
  generalize (if s.sub = 0 then 0 else s.rd R.LN_MD_STAT_CAUSE) = cause
  obtain ⟨henabling, hstart⟩ := prechargeBegun_marks (enter 2 s.sub cause false s)
  have hrun := enter_run (show 2 < 8 by decide) (.inr (s.runRefused_of_enableRefusal hr)) s.sub cause false
  rw [hown] at hrun
  rw [enter_time] at hstart
  exact ⟨(rd_prechargeBegun _ (by decide)).trans (enter_drive (by decide) s.sub cause false s),
    (rd_prechargeBegun _ (by decide)).trans (enter_sub s.sub_lt 2 cause false s), henabling, hstart,
    (rd_prechargeBegun _ (by decide)).trans hrun, prechargeBegun_predone _⟩

/-! ### DISABLE (05 R186) -/

theorem disableReq_badState (h : s.drive ≠ 2 ∨ s.isStandby = true) : disableReq s = s.reqDone 2 1 := if_pos h

theorem disableReq_leaves (hdrive : s.drive = 2) (hown : s.isStandby = false) :
    (disableReq s).drive = 1 ∧ (disableReq s).sub = s.sub ∧ (disableReq s).rd R.LN_MD_RES_RESULT = 0 ∧
      (disableReq s).rd R.PW_CTL_RUN = 0 ∧ ∀ c, c < 7 → ((disableReq s).gch c).drive = false := by
  have htaken : disableReq s = (enter 1 s.sub (s.rd R.LN_MD_STAT_CAUSE) false (abandon 1 s)).reqDone 2 0 :=
    if_neg (by rw [hdrive, hown]; decide)
  have hrun := enter_run (show 1 < 8 by decide) (s := abandon 1 s) (.inl (by decide)) s.sub (s.rd R.LN_MD_STAT_CAUSE) false
  rw [htaken, State.reqDone_drive, State.reqDone_sub]
  refine ⟨enter_drive (by decide) _ _ _ _, enter_sub s.sub_lt _ _ _ _, State.reqDone_result _ 2 (by decide),
    (State.rd_reqDone _ _ _ (by decide)).trans hrun, fun c hc => ?_⟩
  rw [State.gch_congr (congrArg GdState.ch (State.reqDone_gd _ _ _))]
  exact enter_drivers_low (by decide) _ _ _ _ hc

end

/-- Settles O30: both requests, by the state in which they are taken up and by what R187 refuses. -/
theorem enableAndDisable : Obligations.EnableAndDisable := by
  intro s hr
  have hdrive : (requestTaken s.cleared).drive = s.drive := requestTaken_drive _
  have hsub : (requestTaken s.cleared).sub = s.sub := requestTaken_sub _
  have hown : (requestTaken s.cleared).isStandby = s.isStandby := requestTaken_isStandby _
  have hrefusal : (requestTaken s.cleared).enableRefusal = s.enableRefusal := requestTaken_enableRefusal _
  have htime : (requestTaken s.cleared).time = s.time := requestTaken_time _
  have henable := exec_enable hr
  have hdisable := exec_disable hr
  generalize requestTaken s.cleared = u at *
  rw [← hdrive, ← hsub, ← hown, ← hrefusal, ← htime]
  refine ⟨fun hd ho hn => ⟨_, henable, enableReq_enters hd ho hn⟩, fun r hd ho hn => ⟨_, henable, ?_⟩, fun h => ⟨_, henable, ?_⟩,
    fun hd ho => ⟨_, hdisable, disableReq_leaves hd ho⟩, fun h => ⟨_, hdisable, ?_⟩⟩
  · rw [enableReq_refused hd ho hn]
    exact ⟨(State.reqDone_drive _ _ _).trans hd, State.reqDone_result _ 1 (u.enableRefusal_lt hn)⟩
  · rw [enableReq_badState h]
    exact ⟨State.reqDone_drive _ _ _, State.reqDone_result _ 1 (by decide)⟩
  · rw [disableReq_badState h]
    exact ⟨State.reqDone_drive _ _ _, State.reqDone_result _ 2 (by decide)⟩

end Sys2Proof.Machine
end

section
/-! O32: EMERGENCY, MODE and RESET (05 R186, R188–R191, R194, R195; 09 R334). What SUB, MODE and PREV read behind a cause, E-LIMP asked for
in E-LIMP and a MODE for the mode in force are the model's choice (assumption logs 48 and 75). -/

namespace Sys2Proof.Machine

theorem evalRequest_emergency {r : SeqReq} (h : r.code = 5) (s : State) : evalRequest r s = emergencyReq r.sub (requestTaken s) := by
  simp only [evalRequest, h]
  rfl

theorem evalRequest_mode {r : SeqReq} (h : r.code = 6) (s : State) : evalRequest r s = modeReq r.mode (requestTaken s) := by
  simp only [evalRequest, h]
  rfl

theorem evalRequest_reset {r : SeqReq} (h : r.code = 7) (s : State) : evalRequest r s = resetReq (requestTaken s) := by
  simp only [evalRequest, h]
  rfl

theorem exec_emergency {s : State} (hr : s.Running) (sub : Fin 8) :
    exec (.emergency sub) s = .next (emergencyReq sub.val (requestTaken s.cleared)) :=
  (live_next _ hr).trans (congrArg _ (evalRequest_emergency rfl s.cleared))

theorem exec_mode {s : State} (hr : s.Running) (mode : Fin 8) : exec (.mode mode) s = .next (modeReq mode.val (requestTaken s.cleared)) :=
  (live_next _ hr).trans (congrArg _ (evalRequest_mode rfl s.cleared))

theorem exec_reset {s : State} (hr : s.Running) : exec .reset s = .next (resetReq (requestTaken s.cleared)) :=
  (live_next _ hr).trans (congrArg _ (evalRequest_reset rfl s.cleared))

/-! ### The conditions of these requests in the state that has taken one up -/

@[simp] theorem requestTaken_hasCause (s : State) (bit : Nat) : (requestTaken s).hasCause bit = s.hasCause bit := by
  unfold State.hasCause State.bit
  rw [rd_requestTaken_own s (by decide), requestTaken_seq]

theorem rd_requestTaken_latch (s : State) (c : Nat) (f : Fld) (h : f.addr = (R.GD_CHc_STAT_UVLOP c).addr) :
    (requestTaken s).rd f = s.rd f :=
  rd_requestTaken_own s (by rw [h]; simp only; omega)

@[simp] theorem requestTaken_ascBlock (s : State) : (requestTaken s).ascBlock = s.ascBlock :=
  State.ascBlock_congr (requestTaken_hasCause s 11) (requestTaken_hasCause s 1) (requestTaken_hasCause s 6) (rd_requestTaken_latch s)

@[simp] theorem requestTaken_gateChain (s : State) (c : Nat) : (requestTaken s).gateChain c = s.gateChain c := by
  have hfast : (requestTaken s).fastValid = s.fastValid := by
    have hvalid : ∀ n, (requestTaken s).on (R.SD_CHn_STAT_VALID n) = s.on (R.SD_CHn_STAT_VALID n) := fun n =>
      requestTaken_on s (by simp only; omega)
    unfold State.fastValid
    simp only [rd_requestTaken_role, hvalid]
  unfold State.gateChain State.hold8
  rw [requestTaken_drive, requestTaken_on s (by decide), rd_requestTaken_own s (g := R.SB_SFLT) (by decide), hfast, requestTaken_hasCause,
    requestTaken_on s (g := R.SB_REQM_GATE_GOFF) (by decide), requestTaken_seq, rd_requestTaken_own s (g := R.PM_STAT_PSTATE) (by decide)]

@[simp] theorem requestTaken_stageLost (s : State) : (requestTaken s).stageLost = s.stageLost := by
  unfold State.stageLost
  simp only [requestTaken_gateChain, rd_requestTaken_latch s _ (latchField _) rfl]

@[simp] theorem requestTaken_degradedPath (s : State) : (requestTaken s).degradedPath = s.degradedPath := by
  unfold State.degradedPath
  rw [requestTaken_on s (by decide), requestTaken_on s (by decide), rd_requestTaken_own s (by decide), rd_requestTaken_own s (by decide)]

@[simp] theorem requestTaken_fbReturnOk (s : State) : (requestTaken s).fbReturnOk = s.fbReturnOk := by
  unfold State.fbReturnOk
  rw [requestTaken_on s (by decide), rd_requestTaken_own s (by decide), rd_requestTaken_own s (by decide), requestTaken_fb]

@[simp] theorem requestTaken_causePresent (s : State) : (requestTaken s).causePresent = s.causePresent := by
  have hvdc : (requestTaken s).vdc = s.vdc := State.meanOf_congr (rd_requestTaken_role s) (rd_requestTaken_mean s) 4
  have hflt : ∀ n, (requestTaken s).bit R.LN_MD_FLT n = s.bit R.LN_MD_FLT n := fun n =>
    congrArg (testB · n) (rd_requestTaken_own s (by decide))
  unfold State.causePresent
  simp only [hvdc, hflt, requestTaken_seq, requestTaken_gd, rd_requestTaken_own s (g := R.LN_STAT_UNUSABLE) (by decide),
    rd_requestTaken_own s (g := R.LN_TBLSTALE) (by decide)]

/-! ### The entry into a sub-mode (05 R191, R192, R198) -/

/-- What a sub-mode brings beside the change itself: the brake and its sequence. -/
theorem rd_enterSub {g : Fld} (h : g.KeptByEffects) (state sub cause : Nat) (demand : Bool) (s : State) :
    (enterSub state sub cause demand s).rd g = (enter state sub cause demand s).rd g := by
  unfold enterSub
  extract_lets entered braked held
  have hbraked : braked.rd g = entered.rd g := by
    unfold braked
    split
    · exact entered.rd_brakeSet_kept h
    · rfl
  rw [← hbraked]
  split
  · split
    · exact (State.rd_with_seq _ _ _).trans (braked.rd_brakePhase_kept h 2)
    · split <;> rfl
  · rfl

/-! ### EMERGENCY (05 R191, R194) -/

section
variable {s : State}

theorem emergencyReq_badState {sub : Nat} (hrun : s.drive ≠ 3) (hstop : s.drive ≠ 4) : emergencyReq sub s = s.reqDone 5 1 := by
  unfold emergencyReq
  by_cases hown : s.isStandby = true
  · exact if_pos hown
  · rw [if_neg hown]
    by_cases hlimp : sub = 5
    · rw [if_pos hlimp]
      exact if_pos hrun
    · rw [if_neg hlimp]
      refine if_pos (.inr (.inl ?_))
      rw [decide_eq_false fun h => h.elim hrun fun h4 => hstop h4.1]
      rfl

/-- A sub-mode that RUN may be left for on demand (05 R191, R194): E-ASC where it is armed and not blocked. -/
theorem emergencyReq_enters {sub : Nat} (hown : s.isStandby = false) (hrun : s.drive = 3) (hsub : 1 ≤ sub ∧ sub ≤ 4)
    (hasc : sub = 3 → s.lim.ascarm = true ∧ s.ascBlock = false) :
    emergencyReq sub s = (enterSub (if sub = 2 ∧ s.stageLost then 5 else 4) sub 0x40 true (abandon 1 s)).reqDone 5 0 := by
  unfold emergencyReq
  rw [if_neg (by rw [hown]; decide), if_neg (by omega)]
  exact if_neg (by simpa [hsub, hrun] using hasc)

/-- The sub-mode demanded stands in LN.MD_STAT with its cause. -/
theorem emergencyReq_acts {sub : Nat} (hown : s.isStandby = false) (hrun : s.drive = 3) (hsub : 1 ≤ sub ∧ sub ≤ 4)
    (hasc : sub = 3 → s.lim.ascarm = true ∧ s.ascBlock = false) :
    (emergencyReq sub s).drive = (if sub = 2 ∧ s.stageLost then 5 else 4) ∧ (emergencyReq sub s).sub = sub ∧
      (emergencyReq sub s).on R.LN_MD_STAT_DEMAND = true ∧ (emergencyReq sub s).rd R.LN_MD_STAT_CAUSE = 0x40 ∧
      (emergencyReq sub s).rd R.LN_MD_RES_RESULT = 0 := by
  have hstate : (if sub = 2 ∧ s.stageLost then 5 else 4) < 8 := by split <;> decide
  rw [emergencyReq_enters hown hrun hsub hasc, State.reqDone_drive, State.reqDone_sub, State.on_congr (State.rd_reqDone _ _ _ (by decide))]
  generalize (if sub = 2 ∧ s.stageLost then 5 else 4) = state at hstate
  exact ⟨(rd_enterSub (by decide) _ _ _ _ _).trans (enter_drive hstate _ _ _ _),
    (rd_enterSub (by decide) _ _ _ _ _).trans (enter_sub (by omega) _ _ _ _),
    (State.on_congr (rd_enterSub (by decide) _ _ _ _ _)).trans (enter_demand _ _ _ _ _),
    (State.rd_reqDone _ _ _ (by decide)).trans ((rd_enterSub (by decide) _ _ _ _ _).trans (enter_cause (by decide) _ _ _ _)),
    State.reqDone_result _ 5 (by decide)⟩

/-- A change of the operating source writes no register of the lanes (07 R249). -/
theorem rd_fbSwitchNow {g : Fld} (h : ownWord g.addr ∧ unitBit g.addr = 37) (code why : Nat) (s : State) :
    (fbSwitchNow code why s).rd g = s.rd g :=
  (fbSwitchNow_sound (ms := 2 ^ 37) rfl code why s (sound_refl _ s)).rd_eq (home_ownWord s h.1) (home_ownWord _ h.1) (by rw [h.2]; rfl)

/-- E-LIMP stays in RUN, on the secondary source (05 R195). -/
theorem emergencyReq_limp (hown : s.isStandby = false) (hrun : s.drive = 3) (hpath : s.degradedPath = true) :
    (emergencyReq 5 s).drive = 3 ∧ (emergencyReq 5 s).sub = 5 ∧ (emergencyReq 5 s).rd R.LN_MD_RES_RESULT = 0 := by
  have htaken : emergencyReq 5 s = (fbSwitchNow s.fbSec 2 (enter 3 5 0x40 true s)).reqDone 5 0 := by
    unfold emergencyReq
    rw [if_neg (by rw [hown]; decide), if_pos rfl, if_neg (not_not_intro hrun), if_neg (by rw [hpath]; decide)]
  rw [htaken, State.reqDone_drive, State.reqDone_sub]
  exact ⟨(rd_fbSwitchNow (by decide) _ _ _).trans (enter_drive (by decide) _ _ _ _),
    (rd_fbSwitchNow (by decide) _ _ _).trans (enter_sub (by decide) _ _ _ _), State.reqDone_result _ 5 (by decide)⟩

end

/-! ### MODE (05 R189, R190, R195) -/

section
variable {s : State} {mode : Nat}

theorem modeReq_ready (hown : s.isStandby = false) (hmode : 1 ≤ mode ∧ mode ≤ 4) (hready : s.drive = 2) :
    modeReq mode s = ((s.modeChoose mode).driveEvent s).reqDone 6 0 := by
  unfold modeReq
  rw [if_neg (by simp [hown, hmode]), if_pos hready]

/-- The mode of the next START is MODE without a sub-mode; behind one it waits in PREV (05 R189, R191). -/
theorem modeChoose_facts (s : State) (hmode : mode < 8) : (s.modeChoose mode).drive = s.drive ∧
    (s.sub = 0 → (s.modeChoose mode).rd R.LN_MD_STAT_MODE = mode) ∧
    (s.sub ≠ 0 → (s.modeChoose mode).rd R.LN_MD_STAT_PREV = mode ∧
      (s.modeChoose mode).rd R.LN_MD_STAT_MODE = s.rd R.LN_MD_STAT_MODE) := by
  have hwidth : mode % 2 ^ 3 = mode := Nat.mod_eq_of_lt hmode
  unfold State.modeChoose
  split
  · next hsub =>
    exact ⟨s.rd_wr_missed (by decide) mode, fun _ => (s.rd_wr_same (by decide) mode).trans hwidth, fun hne => absurd hsub hne⟩
  · next hsub =>
    exact ⟨s.rd_wr_missed (by decide) mode, fun h0 => absurd h0 hsub,
      fun _ => ⟨(s.rd_wr_same (by decide) mode).trans hwidth, s.rd_wr_missed (by decide) mode⟩⟩

/-- A MODE in READY leaves LN.MD_STAT as the choice of the mode does. -/
theorem modeReq_ready_stat (hown : s.isStandby = false) (hmode : 1 ≤ mode ∧ mode ≤ 4) (hready : s.drive = 2) {g : Fld}
    (h : g.addr = R.LN_MD_STAT_STATE.addr) : (modeReq mode s).rd g = (s.modeChoose mode).rd g := by
  rw [modeReq_ready hown hmode hready, State.rd_reqDone _ _ _ ⟨by rw [h]; decide, .inl (by rw [h]; decide)⟩,
    State.rd_driveEvent (by rw [h]; exact stat_apart)]

theorem modeReq_ready_acts (hown : s.isStandby = false) (hmode : 1 ≤ mode ∧ mode ≤ 4) (hready : s.drive = 2) :
    (modeReq mode s).drive = 2 ∧ (modeReq mode s).rd R.LN_MD_RES_RESULT = 0 := by
  refine ⟨(modeReq_ready_stat hown hmode hready rfl).trans ((modeChoose_facts s (by omega)).1.trans hready), ?_⟩
  rw [modeReq_ready hown hmode hready]
  exact State.reqDone_result _ 6 (by decide)

theorem modeReq_limpHeld (hown : s.isStandby = false) (hmode : 1 ≤ mode ∧ mode ≤ 4) (hrun : s.drive = 3) (hlimp : s.sub = 5)
    (hprimary : s.fbReturnOk = false) : modeReq mode s = s.reqDone 6 4 := by
  unfold modeReq
  rw [if_neg (by simp [hown, hmode]), if_neg (by omega), if_neg (not_not_intro hrun)]
  exact if_pos ⟨hlimp, by rw [hprimary]; rfl⟩

theorem modeReq_run (hown : s.isStandby = false) (hmode : 1 ≤ mode ∧ mode ≤ 4) (hrun : s.drive = 3) (hsub : s.sub = 0)
    (hcur : s.rd R.LN_MD_STAT_MODE ≠ 5) (hstart : s.olp.start = 0 ∨ 4 ≤ s.olp.start) (hprofile : s.profileRefuses = false)
    (hcompl : s.olp.compl = false) : modeReq mode s = ((s.wr R.LN_MD_STAT_MODE mode).driveEvent s).reqDone 6 0 := by
  unfold modeReq
  rw [if_neg (by simp [hown, hmode]), if_neg (by omega), if_neg (not_not_intro hrun), if_neg (by simp [hsub]), if_neg (by omega)]
  simp [hsub, hcur, hprofile, hcompl]

theorem modeReq_run_acts (hown : s.isStandby = false) (hmode : 1 ≤ mode ∧ mode ≤ 4) (hrun : s.drive = 3) (hsub : s.sub = 0)
    (hcur : s.rd R.LN_MD_STAT_MODE ≠ 5) (hstart : s.olp.start = 0 ∨ 4 ≤ s.olp.start) (hprofile : s.profileRefuses = false)
    (hcompl : s.olp.compl = false) : (modeReq mode s).rd R.LN_MD_STAT_MODE = mode ∧ (modeReq mode s).drive = 3 ∧
      (modeReq mode s).rd R.LN_MD_RES_RESULT = 0 := by
  rw [modeReq_run hown hmode hrun hsub hcur hstart hprofile hcompl, State.reqDone_drive]
  refine ⟨?_, ?_, State.reqDone_result _ 6 (by decide)⟩
  · rw [State.rd_reqDone _ _ _ (by decide), State.rd_driveEvent stat_apart, State.rd_wr_same _ (by decide)]
    exact Nat.mod_eq_of_lt (show mode < 8 by omega)
  · exact (State.rd_driveEvent stat_apart _ _).trans ((s.rd_wr_missed (by decide) mode).trans hrun)

end

/-! ### RESET (05 R188) -/

section
variable {s : State} (hown : s.isStandby = false) (hdrive : s.drive = 1 ∨ s.drive = 5) (hasc : s.sub ≠ 3)
include hown hdrive hasc

theorem resetReq_present (hpresent : s.causePresent = true) : resetReq s = s.reqDone 7 2 := by
  unfold resetReq
  rw [if_neg (by simp [hown, hdrive, hasc]), if_pos hpresent]

/-- The latched causes cleared, before the change to STANDBY. -/
def causesCleared (s : State) : State :=
  let s := s.wr R.LN_MD_FLT 0
  { s with
    seq := { s.seq with phaseOff := false, chopOv := false, chopDiag := false, lostTables := 0, dcovAct := none }
    bl := if s.isMember then { s.bl with f := 0, fadeDir := 1 } else s.bl }

theorem resetReq_clears (hpresent : s.causePresent = false) : resetReq s = (enter 1 0 0 false (causesCleared s)).reqDone 7 0 := by
  unfold resetReq
  rw [if_neg (by simp [hown, hdrive, hasc]), if_neg (by rw [hpresent]; decide)]
  rfl

end

/-- What the sequencer and the Beysta Link hold beside their registers is no register. -/
theorem State.rd_with_seq_bl (s : State) (q : SeqState) (x : BlState) (g : Fld) : { s with seq := q, bl := x }.rd g = s.rd g := rfl

theorem causesCleared_flt (s : State) : (causesCleared s).rd R.LN_MD_FLT = 0 := by
  unfold causesCleared
  exact (State.rd_with_seq_bl _ _ _ _).trans (s.rd_wr_same (by decide) 0)

theorem resetReq_acts {s : State} (hown : s.isStandby = false) (hdrive : s.drive = 1 ∨ s.drive = 5) (hasc : s.sub ≠ 3)
    (hpresent : s.causePresent = false) : (resetReq s).drive = 1 ∧ (resetReq s).sub = 0 ∧ (resetReq s).rd R.LN_MD_FLT = 0 ∧
      (resetReq s).rd R.LN_MD_RES_RESULT = 0 := by
  have hq : apartFromQueues (R.LN_MD_FLT).addr := by
    unfold apartFromQueues
    decide
  rw [resetReq_clears hown hdrive hasc hpresent, State.reqDone_drive, State.reqDone_sub]
  exact ⟨enter_drive (by decide) _ _ _ _, enter_sub (by decide) _ _ _ _,
    (State.rd_reqDone _ _ _ (by decide)).trans ((rd_enter_kept (by decide) hq (by decide) _ _ _ _ _).trans (causesCleared_flt s)),
    State.reqDone_result _ 7 (by decide)⟩

/-- Settles O32: each request by what the state in which it is taken up permits. -/
theorem emergencyModeAndReset : Obligations.EmergencyModeAndReset := by
  intro s hr
  have hflt : (requestTaken s.cleared).rd R.LN_MD_FLT = s.rd R.LN_MD_FLT := rd_requestTaken_own _ (by decide)
  have hcur : (requestTaken s.cleared).rd R.LN_MD_STAT_MODE = s.rd R.LN_MD_STAT_MODE := rd_requestTaken_own _ (by decide)
  have hdrive : (requestTaken s.cleared).drive = s.drive := requestTaken_drive _
  have hsub : (requestTaken s.cleared).sub = s.sub := requestTaken_sub _
  have hown : (requestTaken s.cleared).isStandby = s.isStandby := requestTaken_isStandby _
  have hstage : (requestTaken s.cleared).stageLost = s.stageLost := requestTaken_stageLost _
  have hblock : (requestTaken s.cleared).ascBlock = s.ascBlock := requestTaken_ascBlock _
  have hpath : (requestTaken s.cleared).degradedPath = s.degradedPath := requestTaken_degradedPath _
  have hreturn : (requestTaken s.cleared).fbReturnOk = s.fbReturnOk := requestTaken_fbReturnOk _
  have hprofile : (requestTaken s.cleared).profileRefuses = s.profileRefuses := requestTaken_profileRefuses _
  have hpresent : (requestTaken s.cleared).causePresent = s.causePresent := requestTaken_causePresent _
  have hlim : (requestTaken s.cleared).lim = s.lim := requestTaken_lim _
  have holp : (requestTaken s.cleared).olp = s.olp := requestTaken_olp _
  have hemergency := exec_emergency hr
  have hmode := exec_mode hr
  have hreset := exec_reset hr
  generalize requestTaken s.cleared = u at *
  rw [← hdrive, ← hsub, ← hown, ← hstage, ← hblock, ← hpath, ← hreturn, ← hprofile, ← hpresent, ← hlim, ← holp, ← hflt, ← hcur]
  intro ho
  refine ⟨fun sub hd hs => ⟨_, hemergency sub, ?_⟩, fun hd hl => ⟨_, hemergency 2, ?_⟩, fun hd hp => ⟨_, hemergency 5, emergencyReq_limp ho hd hp⟩,
    fun h3 h4 sub => ⟨_, hemergency sub, ?_⟩, fun m h1 h4 hd hs => ⟨_, hmode m, ?_⟩, fun m h1 h4 hd hs => ⟨_, hmode m, ?_⟩,
    fun m hd hs hf h1 h4 => ⟨_, hmode m, ?_⟩, fun m h1 h4 hd hs h5 hst hp hc => ⟨_, hmode m, modeReq_run_acts ho ⟨h1, h4⟩ hd hs h5 hst hp hc⟩,
    fun hd hs hc => ⟨_, hreset, resetReq_acts ho hd hs hc⟩, fun hd hs hc => ⟨_, hreset, ?_⟩⟩
  · have hstay : ¬ (sub.val = 2 ∧ u.stageLost) := by rintro ⟨h2, hl⟩; simp [h2, hl] at hs
    have hacts := emergencyReq_acts ho hd (sub := sub.val) (by omega) (fun h3 => by simpa [h3] using hs)
    rwa [if_neg hstay] at hacts
  · obtain ⟨hd5, hs2, -⟩ := emergencyReq_acts ho hd (sub := 2) (by decide) (fun h3 => absurd h3 (by decide))
    rw [if_pos ⟨rfl, hl⟩] at hd5
    exact ⟨hd5, hs2⟩
  · rw [emergencyReq_badState h3 h4]
    exact ⟨State.reqDone_drive _ _ _, State.reqDone_sub _ _ _, State.reqDone_result _ 5 (by decide)⟩
  · obtain ⟨hd2, hres⟩ := modeReq_ready_acts ho ⟨h1, h4⟩ hd
    obtain ⟨-, hchosen, -⟩ := modeChoose_facts u m.isLt
    exact ⟨(modeReq_ready_stat ho ⟨h1, h4⟩ hd (g := R.LN_MD_STAT_MODE) rfl).trans (hchosen hs), hd2, hres⟩
  · obtain ⟨hd2, hres⟩ := modeReq_ready_acts ho ⟨h1, h4⟩ hd
    obtain ⟨-, -, hheld⟩ := modeChoose_facts u m.isLt
    obtain ⟨hprev, hkept⟩ := hheld hs
    exact ⟨(modeReq_ready_stat ho ⟨h1, h4⟩ hd (g := R.LN_MD_STAT_PREV) rfl).trans hprev,
      (modeReq_ready_stat ho ⟨h1, h4⟩ hd (g := R.LN_MD_STAT_MODE) rfl).trans hkept, hd2, hres⟩
  · rw [modeReq_limpHeld ho ⟨h1, h4⟩ hd hs hf]
    exact ⟨(State.reqDone_sub _ _ _).trans hs, (State.reqDone_drive _ _ _).trans hd, State.reqDone_result _ 6 (by decide)⟩
  · rw [resetReq_present ho hd hs hc]
    exact ⟨State.reqDone_drive _ _ _, State.rd_reqDone _ _ _ (by decide), State.reqDone_result _ 7 (by decide)⟩

end Sys2Proof.Machine
end

section
/-! O33: the steps of the brake sequence (05 R186, R191, R196, R197, R200). -/

namespace Sys2Proof.Machine

/-! ### The end of a stop (05 R186, R191) -/

theorem stopEnd_ready {s : State} (h : s.sub = 0 ∨ s.on R.LN_MD_STAT_DEMAND = true) : (stopEnd s).drive = 2 ∧ (stopEnd s).sub = 0 := by
  rw [show stopEnd s = enter 2 0 0 false s from if_pos h]
  exact ⟨enter_drive (by decide) _ _ _ _, enter_sub (by decide) _ _ _ _⟩

theorem stopEnd_fault {s : State} (hsub : s.sub ≠ 0) (hcause : s.on R.LN_MD_STAT_DEMAND = false) :
    (stopEnd s).drive = 5 ∧ (stopEnd s).sub = s.sub := by
  have hends : stopEnd s = enter 5 s.sub (s.rd R.LN_MD_STAT_CAUSE) false s := if_neg (by rw [hcause]; simpa using hsub)
  rw [hends]
  exact ⟨enter_drive (by decide) _ _ _ _, enter_sub s.sub_lt _ _ _ _⟩

/-! ### Standstill (05 R191, R197) -/

/-- The time limit of an emergency stop runs no more (05 R192). -/
def State.entryForgotten (s : State) : State := { s with seq := { s.seq with entryAt := none } }

section
variable {s : State} (hstill : 8 ≤ s.seq.stillRun)
include hstill

theorem standstillIfDue_hold (hstop : s.drive = 4) (hsub : s.sub ≤ 2) (hphase : s.rd R.LN_MD_BRK_PH = 2) : standstillIfDue s =
    if s.on R.LN_MD_CFG_BRAKE then (s.entryForgotten.brakePhase 3).brakeSet else stopEnd s.entryForgotten := by
  unfold standstillIfDue State.stopRuns
  rw [if_neg (by omega), if_pos (by simp [hstop, hsub, hphase])]
  rfl

theorem standstillIfDue_brake (hstop : s.drive = 4) (hsub : s.sub ≤ 2) (hphase : s.rd R.LN_MD_BRK_PH = 2)
    (hbrake : s.on R.LN_MD_CFG_BRAKE = true) : standstillIfDue s = (s.entryForgotten.brakePhase 3).brakeSet :=
  (standstillIfDue_hold hstill hstop hsub hphase).trans (if_pos hbrake)

theorem standstillIfDue_noBrake (hstop : s.drive = 4) (hsub : s.sub ≤ 2) (hphase : s.rd R.LN_MD_BRK_PH = 2)
    (hbrake : s.on R.LN_MD_CFG_BRAKE = false) : standstillIfDue s = stopEnd s.entryForgotten :=
  (standstillIfDue_hold hstill hstop hsub hphase).trans (if_neg (by rw [hbrake]; decide))

theorem standstillIfDue_coast (hstop : s.drive = 4) (hsub : s.sub = 4) (hdemand : s.on R.LN_MD_STAT_DEMAND = true) :
    standstillIfDue s = stopEnd s := by
  unfold standstillIfDue State.stopRuns
  rw [if_neg (by omega), if_neg (by simp [hsub])]
  exact if_pos ⟨hstop, hsub, hdemand⟩

end

/-- Phase 3: the brake is commanded set, in STOPPING still. -/
theorem brakeSetBegun_facts (s : State) : ((s.entryForgotten.brakePhase 3).brakeSet).rd R.LN_MD_BRK_PH = 3 ∧
    ((s.entryForgotten.brakePhase 3).brakeSet).rd R.LN_MD_BRK_SETCMD = 1 ∧ ((s.entryForgotten.brakePhase 3).brakeSet).drive = s.drive := by
  refine ⟨(State.rd_brakeSet _ (by decide)).trans (State.brakePhase_ph _ (by decide)), (brakeSet_facts _).2, ?_⟩
  exact (State.rd_brakeSet _ (by decide)).trans ((State.rd_brakePhase _ 3 (by decide)).trans (State.rd_with_seq _ _ _))

/-- The two ends of a stop (05 R186): READY where it was normal or demanded, FAULT where a cause began it. -/
theorem stopEnd_ends (s : State) : (s.sub = 0 ∨ s.on R.LN_MD_STAT_DEMAND = true → (stopEnd s).drive = 2 ∧ (stopEnd s).sub = 0) ∧
    (s.sub ≠ 0 → s.on R.LN_MD_STAT_DEMAND = false → (stopEnd s).drive = 5 ∧ (stopEnd s).sub = s.sub) :=
  ⟨stopEnd_ready, stopEnd_fault⟩

/-! ### The taper (05 R197) -/

theorem State.rd_postQ_missed (s : State) {f g : Fld} (h : ownWord f.addr ∧ ownWord g.addr ∧ f.Misses g) (frac : Nat) (x : Rat) :
    (s.postQ f frac x).rd g = s.rd g := by
  unfold State.postQ
  dsimp only
  split <;> exact s.rd_wr_missed h _

@[simp] theorem State.postQ_time (s : State) (f : Fld) (frac : Nat) (x : Rat) : (s.postQ f frac x).time = s.time := by
  unfold State.postQ
  dsimp only
  split <;> rfl

@[simp] theorem State.postQ_fb (s : State) (f : Fld) (frac : Nat) (x : Rat) : (s.postQ f frac x).fb = s.fb := by
  unfold State.postQ
  dsimp only
  split <;> rfl

/-- Phase 4 with the torque of the hold recorded. -/
def holdRecorded (s : State) : State := (s.brakePhase 4).postQ R.LN_MD_HOLDT 8 s.olp.tdem

/-- The taper begun, and the slip from the position watched. -/
def State.taperBegun (s : State) : State :=
  { s with seq := { s.seq with taperAt := some s.time.tb, slipRef := s.pfb, slipWatch := true, slipOnly := false } }

theorem State.taperBegun_facts (s : State) : (∀ f, s.taperBegun.rd f = s.rd f) ∧ s.taperBegun.seq.taperAt = some s.time.tb ∧
    s.taperBegun.seq.slipRef = s.pfb ∧ s.taperBegun.seq.slipWatch = true := ⟨fun _ => rfl, rfl, rfl, rfl⟩

theorem holdRecorded_facts (s : State) : (holdRecorded s).rd R.LN_MD_BRK_PH = 4 ∧ (holdRecorded s).time = s.time ∧
    (holdRecorded s).pfb = s.pfb := by
  have htime : (s.brakePhase 4).time = s.time := (State.brakePhase_sound (ms := 0x20) rfl s 4 (sound_refl _ s)).same .time rfl
  have hfb : (s.brakePhase 4).fb = s.fb := (State.brakePhase_sound (ms := 0x40000) rfl s 4 (sound_refl _ s)).same .fb rfl
  unfold holdRecorded State.pfb
  rw [State.postQ_time, State.postQ_fb, htime, hfb]
  exact ⟨(State.rd_postQ_missed _ (by decide) 8 _).trans (s.brakePhase_ph (by decide)), rfl, rfl⟩

theorem brakeSetConfirmedIfDue_due {s : State} (hstop : s.drive = 4) (hsub : s.sub ≤ 2) (hphase : s.rd R.LN_MD_BRK_PH = 3)
    (hset : s.setConfirmed = true) : brakeSetConfirmedIfDue s = (holdRecorded s).taperBegun :=
  if_pos ⟨by simp [State.stopRuns, hstop, hsub], hphase, hset⟩

theorem taperCompleteIfDue_due {s : State} {t0 : Nat} (htaper : s.seq.taperAt = some t0) (hstop : s.drive = 4) (hsub : s.sub ≤ 2)
    (hphase : s.rd R.LN_MD_BRK_PH = 4) (htime : t0 + 2 * msCyc s.brkTaperMs ≤ s.time.tb) : taperCompleteIfDue s = stopEnd s := by
  unfold taperCompleteIfDue
  rw [htaper]
  exact if_pos ⟨by simp [State.stopRuns, hstop, hsub], hphase, htime⟩

/-! ### The release, and a brake that does not follow (05 R196, R197, R200) -/

theorem brakeReleasedIfDue_due {s : State} (hrun : s.drive = 3) (hphase : s.rd R.LN_MD_BRK_PH = 1) (hrelease : s.seq.release = true)
    (hfollows : s.on R.LN_MD_CFG_BRKFB = true ∧ 8 ≤ s.seq.brkLow ∨
      s.on R.LN_MD_CFG_BRKFB = false ∧ s.seq.releaseAt + msCyc (s.rd R.LN_MD_BRKT_BRKREL) ≤ s.time.tb) :
    brakeReleasedIfDue s = s.brakePhase 0 := by
  refine if_pos ⟨hrun, hphase, hrelease, ?_⟩
  rcases hfollows with ⟨hfb, hlow⟩ | ⟨hfb, hlate⟩
  · rw [hfb]
    exact decide_eq_true hlow
  · rw [hfb]
    exact decide_eq_true hlate

/-- The set is watched no more. -/
def State.setUnwatched (s : State) : State := { s with seq := { s.seq with setWatch := false } }

section
variable {s : State} (hbrake : s.on R.LN_MD_CFG_BRAKE = true) (hfeedback : s.on R.LN_MD_CFG_BRKFB = true)
include hbrake hfeedback

theorem brakeFailIfDue_set (hwatch : s.seq.setWatch = true) (hlate : s.seq.setAt + msCyc (s.brkSetMs + 500) ≤ s.time.tb)
    (hopen : s.on R.LN_MD_BRK_FB = false) (hnew : s.hasCause 15 = false) : brakeFailIfDue s = s.setUnwatched.cause 15 15 0 0 := by
  have hquiet : ¬ (s.setUnwatched.on R.LN_MD_BRK_FB ∨ s.setUnwatched.hasCause 15) := by
    rw [show s.setUnwatched.on R.LN_MD_BRK_FB = false from hopen, show s.setUnwatched.hasCause 15 = false from hnew]
    decide
  unfold brakeFailIfDue
  rw [if_neg (by rw [hbrake, hfeedback]; decide), if_pos ⟨hwatch, hlate⟩]
  exact if_neg hquiet

theorem brakeFailIfDue_release (hwatch : s.seq.setWatch = false) (hrun : s.drive = 3) (hphase : s.rd R.LN_MD_BRK_PH = 1)
    (hrelease : s.seq.release = true) (hset : s.on R.LN_MD_BRK_FB = true)
    (hlate : s.seq.releaseAt + msCyc (s.rd R.LN_MD_BRKT_BRKREL + 500) ≤ s.time.tb) (hnew : s.hasCause 15 = false) :
    brakeFailIfDue s = enter 2 0 0 false (abandon 11 (s.cause 15 15 0 0)) := by
  unfold brakeFailIfDue
  rw [if_neg (by rw [hbrake, hfeedback]; decide), if_neg (by rw [hwatch]; exact fun h => Bool.false_ne_true h.1),
    if_pos ⟨hrun, hphase, hrelease, hset, hlate⟩, hnew]
  rfl

end

/-- Settles O33: each step where it is due, by what it then is. -/
theorem brakeSequenceSteps : Obligations.BrakeSequenceSteps := by
  intro s hr
  refine ⟨fun hstill hd hs hp hb => ⟨_, (live_next _ hr).trans
      (congrArg _ (standstillIfDue_brake (s := s.cleared) hstill hd hs hp hb)), ?_⟩,
    fun hstill hd hs hp hb => ⟨_, (live_next _ hr).trans
      (congrArg _ (standstillIfDue_noBrake (s := s.cleared) hstill hd hs hp hb)), stopEnd_ends s.cleared.entryForgotten⟩,
    fun hstill hd hs hdem => ⟨_, (live_next _ hr).trans (congrArg _ (standstillIfDue_coast (s := s.cleared) hstill hd hs hdem)),
      stopEnd_ready (s := s.cleared) (.inr hdem)⟩,
    fun hd hs hp hset => ⟨_, (live_next _ hr).trans (congrArg _ (brakeSetConfirmedIfDue_due (s := s.cleared) hd hs hp hset)), ?_⟩,
    fun t0 ht hd hs hp hlate => ⟨_, (live_next _ hr).trans (congrArg _ (taperCompleteIfDue_due (s := s.cleared) ht hd hs hp hlate)),
      stopEnd_ends s.cleared⟩,
    fun hd hp hrel hfb => ⟨_, (live_next _ hr).trans (congrArg _ (brakeReleasedIfDue_due (s := s.cleared) hd hp hrel hfb)),
      State.brakePhase_ph _ (by decide)⟩,
    fun hb hfb hw hlate hopen hnew => ⟨_, (live_next _ hr).trans
      (congrArg _ (brakeFailIfDue_set (s := s.cleared) hb hfb hw hlate hopen hnew)), ?_⟩,
    fun hb hfb hw hd hp hrel hset hlate hnew => ⟨_, (live_next _ hr).trans
      (congrArg _ (brakeFailIfDue_release (s := s.cleared) hb hfb hw hd hp hrel hset hlate hnew)), ?_⟩⟩
  · obtain ⟨hph, hcmd, hdrive⟩ := brakeSetBegun_facts s.cleared
    exact ⟨hph, hcmd, hdrive.trans hd⟩
  · obtain ⟨hph, htime, hpfb⟩ := holdRecorded_facts s.cleared
    obtain ⟨hrd, htaper, hslip, hwatched⟩ := (holdRecorded s.cleared).taperBegun_facts
    rw [htime] at htaper
    exact ⟨(hrd _).trans hph, htaper, hslip.trans hpfb, hwatched⟩
  · rw [State.cause_seq]
    exact ⟨rfl, rfl⟩
  · rw [enter_raised, abandon_raised, State.cause_seq]
    exact ⟨rfl, enter_drive (by decide) _ _ _ _⟩

end Sys2Proof.Machine
end

section
/-! SUPPORT. Causes, gate-off commands and the brake in the reactions of the hardware (05 R194, R209; 06 R233; 10 R344, R345). -/

namespace Sys2Proof.Machine

/-! ### A cause raised -/

theorem flt_apart : apartFromQueues (R.LN_MD_FLT).addr := by
  unfold apartFromQueues
  decide

/-- A cause raised is no other cause. -/
theorem State.hasCause_cause_other (s : State) {bit other : Nat} (h : other ≠ bit) (src detail value : Nat) :
    (s.cause bit src detail value).hasCause other = s.hasCause other := by
  unfold State.hasCause State.bit
  rw [rd_cause _ _ _ _ _ flt_apart, State.cause_seq]
  simp [beq_eq_false_iff_ne.mpr h.symm]

/-- DC_OV is no ASC block (05 R194). -/
theorem State.ascBlock_cause_dcov (s : State) (src detail value : Nat) : (s.cause 7 src detail value).ascBlock = s.ascBlock := by
  refine State.ascBlock_congr (s.hasCause_cause_other (by decide) _ _ _) (s.hasCause_cause_other (by decide) _ _ _)
    (s.hasCause_cause_other (by decide) _ _ _) fun c f hf => rd_cause _ _ _ _ _ ?_
  rw [hf]
  unfold apartFromQueues
  simp only
  omega

/-! ### Gate-off commands (06 R236) -/

theorem offTx_sendOff (s : State) (c : Nat) {k : Nat} (hk : k < 7) :
    ((sendOff false s c).gch k).offTx = if k = c then some ((s.gch k).offTx == some true) else (s.gch k).offTx := by
  unfold sendOff
  rw [State.gch_setGch s _ c hk]
  split
  · rw [Bool.false_or]
  · rfl

/-- Each channel of a list without repetition gets its command; the others keep what is under way. -/
theorem offTx_foldl_sendOff (l : List Nat) (hl : l.Nodup) (s : State) {k : Nat} (hk : k < 7) :
    ((l.foldl (sendOff false) s).gch k).offTx = if k ∈ l then some ((s.gch k).offTx == some true) else (s.gch k).offTx := by
  induction l generalizing s with
  | nil => simp
  | cons c l ih =>
    obtain ⟨hc, hnodup⟩ := List.nodup_cons.mp hl
    rw [List.foldl_cons, ih hnodup, offTx_sendOff s c hk]
    by_cases hkc : k = c
    · simp [hkc, hc]
    · simp [hkc]

theorem seq_foldl_sendOff (l : List Nat) (s : State) : (l.foldl (sendOff false) s).seq = s.seq :=
  foldl_keeps State.seq (f := sendOff false) (fun _ _ => rfl) l s

/-! ### E-ASC in hardware (05 R209) -/

theorem ascOn_offTx (c : Nat) (s : State) {k : Nat} (hk : k < 7) : ((ascOn c s).gch k).offTx = (s.gch k).offTx := by
  have hset : ∀ (u : State) (f : GdChan → GdChan), (∀ g, (f g).offTx = g.offTx) → ((u.setGch c f).gch k).offTx = (u.gch k).offTx :=
    fun u f hf => setGch_keeps GdChan.offTx u c hf hk
  unfold ascOn
  extract_lets cleared
  have hcleared : (cleared.gch k).offTx = (s.gch k).offTx := hset s _ fun _ => rfl
  rw [← hcleared]
  split
  · rfl
  · split
    · exact hset cleared _ fun _ => rfl
    · exact hset cleared _ fun _ => rfl

/-- The blocks of the low side are discarded; the other channels keep theirs. -/
theorem ascOn_armed (c : Nat) (s : State) {k : Nat} (hk : k < 7) :
    ((ascOn c s).gch k).armed = if k = c then [] else (s.gch k).armed := by
  have hset : ∀ (u : State) (f : GdChan → GdChan), (∀ g, (f g).armed = g.armed) → ((u.setGch c f).gch k).armed = (u.gch k).armed :=
    fun u f hf => setGch_keeps GdChan.armed u c hf hk
  unfold ascOn
  extract_lets cleared
  have hcleared : (cleared.gch k).armed = if k = c then [] else (s.gch k).armed := by
    unfold cleared
    rw [State.gch_setGch s _ c hk]
    split <;> rfl
  rw [← hcleared]
  split
  · rfl
  · split
    · exact hset cleared _ fun _ => rfl
    · exact hset cleared _ fun _ => rfl

theorem ascAct_seq (s : State) : (ascAct s).seq = s.seq := (ascAct_sound (ms := 0x40000000) rfl s (sound_refl _ s)).same .seq rfl

theorem rd_ascAct (s : State) (g : Fld) : (ascAct s).rd g = s.rd g :=
  State.rd_congr_regs ((ascAct_sound (ms := 0x1) rfl s (sound_refl _ s)).same .regs rfl)
    ((ascAct_sound (ms := 0x80) rfl s (sound_refl _ s)).same .ln rfl) g

/-- The high side of each leg gets its gate-off command, and the low side's blocks are gone. -/
theorem ascAct_legs (s : State) (l : Fin 3) : ((ascAct s).gch (2 * l.val)).offTx.isSome = true ∧
    ((ascAct s).gch (2 * l.val + 1)).armed = [] := by
  unfold ascAct
  refine ⟨?_, ?_⟩
  · have hhigh : 2 * l.val ∈ [0, 2, 4] := by fin_cases l <;> decide
    rw [foldl_keeps (fun u : State => (u.gch (2 * l.val)).offTx) (fun u c => ascOn_offTx c u (by omega)),
      offTx_foldl_sendOff _ (by decide) s (by omega), if_pos hhigh]
    rfl
  · simp only [List.foldl_cons, List.foldl_nil]
    rw [ascOn_armed _ _ (by omega), ascOn_armed _ _ (by omega), ascOn_armed _ _ (by omega)]
    fin_cases l <;> rfl

end Sys2Proof.Machine
end

section
/-! O34: ERTMO, the end of E-ASC, DC_UV, DC_OV, CHOPPER_FAULT, OVERCURRENT and the precharge (05 R192, R199, R205, R208–R210; 06 R233;
10 R344, R345). A DC_OV in READY takes the phase channels off by the phase-off request: the model's choice (assumption logs 49 and 74). -/

namespace Sys2Proof.Machine

/-! ### ERTMO (05 R192) -/

theorem ertmoIfDue_due {s : State} {t0 : Nat} (hentry : s.seq.entryAt = some t0) (hmoves : s.seq.stillRun < 8)
    (hlate : t0 + msCyc (s.rd R.LN_MD_ERTMO) ≤ s.time.tb) (hnew : s.hasCause 14 = false) :
    ertmoIfDue s = s.entryForgotten.cause 14 15 0 0 := by
  have hquiet : ¬ s.entryForgotten.hasCause 14 := by
    rw [show s.entryForgotten.hasCause 14 = false from hnew]
    decide
  unfold ertmoIfDue
  rw [hentry]
  dsimp only
  rw [if_neg (by omega), if_pos hlate]
  exact if_neg hquiet

/-! ### The end of E-ASC (05 R199) -/

/-- A low side goes off, and its blocks are gone. -/
def GdChan.lowSideOff (g : GdChan) : GdChan :=
  { g with on := false, armed := [], staged := none, acted := 0, waitOn := none, ascWait := false }

def lowSidesOff (s : State) : State := [1, 3, 5].foldl (fun s c => s.setGch c GdChan.lowSideOff) s

theorem rd_lowSidesOff (s : State) (f : Fld) : (lowSidesOff s).rd f = s.rd f :=
  foldl_keeps (State.rd · f) (f := fun s c => s.setGch c GdChan.lowSideOff) (fun _ _ => rfl) _ s

theorem lowSidesOff_output (s : State) (l : Fin 3) : ((lowSidesOff s).gch (2 * l.val + 1)).output = (false, []) := by
  unfold lowSidesOff
  simp only [List.foldl_cons, List.foldl_nil]
  rw [State.gch_setGch _ _ _ (by omega), State.gch_setGch _ _ _ (by omega), State.gch_setGch _ _ _ (by omega)]
  fin_cases l <;> rfl

theorem ascExitIfDue_due {s : State} (hasc : s.sub = 3) (hstate : s.drive = 4 ∨ s.drive = 5) (hslow : 8 ≤ s.seq.ascRun) :
    ascExitIfDue s = enter (lowSidesOff s).drive 4 ((lowSidesOff s).rd R.LN_MD_STAT_CAUSE) ((lowSidesOff s).on R.LN_MD_STAT_DEMAND)
      (lowSidesOff s) := if_pos ⟨hasc, hstate, hslow⟩

theorem ascExitIfDue_acts {s : State} (hasc : s.sub = 3) (hstate : s.drive = 4 ∨ s.drive = 5) (hslow : 8 ≤ s.seq.ascRun) :
    (ascExitIfDue s).sub = 4 ∧ (ascExitIfDue s).drive = s.drive ∧ ∀ l : Fin 3, ((ascExitIfDue s).gch (2 * l.val + 1)).on = false ∧
      ((ascExitIfDue s).gch (2 * l.val + 1)).armed = [] := by
  have hdrive : (lowSidesOff s).drive = s.drive := rd_lowSidesOff s _
  rw [ascExitIfDue_due hasc hstate hslow, hdrive]
  refine ⟨enter_sub (by decide) _ _ _ _, enter_drive (by omega) _ _ _ _, fun l => ?_⟩
  have hlow := (enter_output s.drive 4 ((lowSidesOff s).rd R.LN_MD_STAT_CAUSE) ((lowSidesOff s).on R.LN_MD_STAT_DEMAND) (lowSidesOff s)
    (show 2 * l.val + 1 < 7 by omega)).trans (lowSidesOff_output s l)
  exact Prod.mk.inj hlow

/-! ### DC_UV (05 R205) -/

/-- Eight ticks of READY are none of RUN or STOPPING. -/
theorem State.undervoltage_ready {s : State} (h : s.undervoltage [2] = true) : s.undervoltage [3, 4] = false := by
  unfold State.undervoltage at h ⊢
  obtain ⟨x, xs, hx⟩ : ∃ x xs, s.seq.vdcHist = x :: xs := List.exists_cons_of_length_pos (by simp at h; omega)
  rw [hx] at h ⊢
  simp only [List.take_succ_cons, List.all_cons, Bool.and_eq_true, List.contains_cons, List.contains_nil, Bool.or_false, beq_iff_eq] at h ⊢
  obtain ⟨-, ⟨-, hready⟩, -⟩ := h
  simp [hready]

theorem State.undervoltage_cause (s : State) (bit src detail value : Nat) (states : List Nat) :
    (s.cause bit src detail value).undervoltage states = s.undervoltage states := by
  unfold State.undervoltage
  rw [State.cause_seq]

theorem dcUvIfDue_running {s : State} (huv : s.undervoltage [3, 4] = true) (hnew : s.hasCause 8 = false) :
    dcUvIfDue s = s.cause 8 (s.runLane 3 + 1) 0 s.vdcRaw := by
  have hready : s.undervoltage [2] = false := Bool.eq_false_of_not_eq_true fun h => by
    rw [State.undervoltage_ready h] at huv
    exact Bool.false_ne_true huv
  unfold dcUvIfDue
  rw [show dcUvRaiseIfDue s = s.cause 8 (s.runLane 3 + 1) 0 s.vdcRaw from if_pos ⟨huv, by rw [hnew]; rfl⟩]
  refine if_neg fun h => ?_
  rw [State.undervoltage_cause, hready] at h
  exact Bool.false_ne_true h.2

theorem dcUvIfDue_ready {s : State} (hdrive : s.drive = 2) (huv : s.undervoltage [2] = true) : (dcUvIfDue s).drive = 1 := by
  have hquiet : dcUvRaiseIfDue s = s := if_neg fun h => by
    rw [State.undervoltage_ready huv] at h
    exact Bool.false_ne_true h.1
  unfold dcUvIfDue readyUvIfDue
  rw [hquiet, if_pos ⟨hdrive, huv⟩]
  exact enter_drive (by decide) _ _ _ _

/-! ### DC_OV (05 R209, R210) -/

/-- E-ASC is what DC_OV brings in hardware (05 R209, R210). -/
def State.dcovAsc (s : State) : Bool := s.lim.ascarm && !s.ascBlock && s.drive != 2

/-- What the hardware has done is kept for the sequencer. -/
def State.dcovNoted (asc : Bool) (s : State) : State := { s with seq := { s.seq with dcovAct := some asc } }

/-- The phase channels taken off (10 R345). -/
def State.phasesTakenOff (s : State) : State := State.gateRefresh { s with seq := { s.seq with phaseOff := true } }

/-- The gates' part of the reaction. -/
def dcovGates (s : State) : State :=
  if s.dcovAsc then ascAct (s.dcovNoted s.dcovAsc) else (s.dcovNoted s.dcovAsc).phasesTakenOff

theorem dcovHardware_eq (s : State) : dcovHardware s =
    if (dcovGates s).on R.LN_MD_CFG_BRAKE then (dcovGates s).brakeSet else dcovGates s := rfl

/-- What the sequencer holds of DC_OV: the causes raised, the hardware's reaction, the phase-off request. -/
def SeqState.dcov (q : SeqState) : List (Nat × Nat) × Option Bool × Bool := (q.raised, q.dcovAct, q.phaseOff)

theorem State.brakeSet_dcov (s : State) : s.brakeSet.seq.dcov = s.seq.dcov := by
  have hwatched : ∀ u : State, u.setWatched.seq.dcov = u.seq.dcov := fun _ => rfl
  rw [State.brakeSet_eq]
  split
  · rw [State.wr_seq]
  · rw [hwatched, State.wr_seq, State.wr_seq]

theorem rd_dcovGates (s : State) (f : Fld) : (dcovGates s).rd f = s.rd f := by
  unfold dcovGates State.phasesTakenOff
  split
  · exact (rd_ascAct _ f).trans (State.rd_with_seq _ _ f)
  · exact (State.rd_gateRefresh _ f).trans (State.rd_with_seq _ _ f)

theorem dcovGates_seq (s : State) : (dcovGates s).seq.dcov = (s.seq.raised, some s.dcovAsc, !s.dcovAsc || s.seq.phaseOff) := by
  unfold dcovGates State.phasesTakenOff
  cases s.dcovAsc
  · rw [if_neg Bool.false_ne_true, State.gateRefresh_seq]
    rfl
  · rw [if_pos rfl, ascAct_seq]
    rfl

/-- The phase-off request opens the chain of the phase channels (10 R345). -/
theorem State.gateChain_phaseOff {s : State} (h : s.seq.phaseOff = true) {c : Nat} (hc : c < 6) : s.gateChain c = false := by
  unfold State.gateChain
  simp [h, show c ≠ 6 by omega]

theorem State.phasesTakenOff_low (s : State) {c : Nat} (hc : c < 6) : (s.phasesTakenOff.gch c).drive = false := by
  unfold State.phasesTakenOff
  rw [State.drive_gateRefresh _ (by omega)]
  exact State.gateChain_phaseOff rfl hc

theorem dcovGates_off {s : State} (h : s.dcovAsc = false) {c : Nat} (hc : c < 6) : ((dcovGates s).gch c).drive = false := by
  unfold dcovGates
  rw [h, if_neg Bool.false_ne_true]
  exact State.phasesTakenOff_low _ hc

theorem dcovGates_asc {s : State} (h : s.dcovAsc = true) (l : Fin 3) : ((dcovGates s).gch (2 * l.val)).offTx.isSome = true ∧
    ((dcovGates s).gch (2 * l.val + 1)).armed = [] := by
  unfold dcovGates
  rw [h, if_pos rfl]
  exact ascAct_legs _ l

/-- The brake of the reaction leaves the gates and what the sequencer holds of it. -/
theorem dcovHardware_keeps (s : State) : (dcovHardware s).gd = (dcovGates s).gd ∧ (dcovHardware s).seq.dcov = (dcovGates s).seq.dcov := by
  rw [dcovHardware_eq]
  split
  · exact ⟨State.brakeSet_gd _, State.brakeSet_dcov _⟩
  · exact ⟨rfl, rfl⟩

theorem dcovHardware_brake {s : State} (h : s.on R.LN_MD_CFG_BRAKE = true) : (dcovHardware s).rd R.LN_MD_BRK_SETCMD = 1 := by
  rw [dcovHardware_eq, if_pos ((State.on_congr (rd_dcovGates s _)).trans h)]
  exact (brakeSet_facts _).2

theorem effDue_none {s : State} (h : s.sb.effAt = none) : effDue s = s := by
  unfold effDue
  rw [h]

theorem dcOv_due {bits : List Bool} {s : State} (heff : s.sb.effAt = none)
    (hover : ((s.rd R.SB_EFF_VOV * 65536 : Nat) : Int) < s.fastVdc bits) (hidle : s.seq.dcovAct = none) (hnew : s.hasCause 7 = false) :
    dcOv bits s = dcovHardware (s.cause 7 0 0 s.vdcRaw) := by
  unfold dcOv
  rw [effDue_none heff]
  refine if_neg ?_
  rw [hidle, hnew]
  simp only [Option.isSome_none, Bool.false_eq_true, or_false]
  omega

theorem State.dcovAsc_cause (s : State) (src detail value : Nat) : (s.cause 7 src detail value).dcovAsc = s.dcovAsc := by
  unfold State.dcovAsc State.drive
  rw [State.cause_lim, State.ascBlock_cause_dcov, rd_cause _ _ _ _ _ stat_apart]

theorem dcOv_acts {bits : List Bool} {s : State} (heff : s.sb.effAt = none)
    (hover : ((s.rd R.SB_EFF_VOV * 65536 : Nat) : Int) < s.fastVdc bits) (hidle : s.seq.dcovAct = none) (hnew : s.hasCause 7 = false) :
    (7, 0) ∈ (dcOv bits s).seq.raised ∧ (dcOv bits s).seq.dcovAct = some s.dcovAsc ∧
      (s.dcovAsc = false → (dcOv bits s).seq.phaseOff = true ∧ ∀ c, c < 6 → ((dcOv bits s).gch c).drive = false) ∧
      (s.dcovAsc = true → ∀ l : Fin 3, ((dcOv bits s).gch (2 * l.val)).offTx.isSome = true ∧
        ((dcOv bits s).gch (2 * l.val + 1)).armed = []) ∧
      (s.on R.LN_MD_CFG_BRAKE = true → (dcOv bits s).rd R.LN_MD_BRK_SETCMD = 1) := by
  have hcfg : apartFromQueues (R.LN_MD_CFG_BRAKE).addr := by
    unfold apartFromQueues
    decide
  have hasc := s.dcovAsc_cause 0 0 s.vdcRaw
  have hraised : (7, 0) ∈ (s.cause 7 0 0 s.vdcRaw).seq.raised := by
    rw [State.cause_seq]
    exact List.mem_append_right _ (List.mem_singleton_self _)
  have hbrake : (s.cause 7 0 0 s.vdcRaw).on R.LN_MD_CFG_BRAKE = s.on R.LN_MD_CFG_BRAKE := State.on_congr (rd_cause _ _ _ _ _ hcfg)
  rw [dcOv_due heff hover hidle hnew, ← hasc, ← hbrake]
  generalize s.cause 7 0 0 s.vdcRaw = u at hraised
  obtain ⟨hgd, hdcov⟩ := dcovHardware_keeps u
  rw [dcovGates_seq] at hdcov
  obtain ⟨hr, ha, hp⟩ : (dcovHardware u).seq.raised = u.seq.raised ∧ (dcovHardware u).seq.dcovAct = some u.dcovAsc ∧
      (dcovHardware u).seq.phaseOff = (!u.dcovAsc || u.seq.phaseOff) := by simpa [SeqState.dcov] using hdcov
  have hgch : ∀ c, (dcovHardware u).gch c = (dcovGates u).gch c := State.gch_congr (congrArg GdState.ch hgd)
  simp only [hgch]
  exact ⟨hr ▸ hraised, ha, fun h => ⟨by rw [hp, h]; rfl, fun c hc => dcovGates_off h hc⟩, fun h l => dcovGates_asc h l, dcovHardware_brake⟩

/-! ### CHOPPER_FAULT (05 R208) -/

/-- The limits with the regenerative ceiling taken to nothing. -/
def State.regenStopped (s : State) (l : LimState) : State := { s with lim := { l with regen := 0 } }

theorem chopperFaultIfDue_due {s : State} (hspan : s.spanFault = true) (hnew : s.hasCause 9 = false) :
    chopperFaultIfDue s = ((s.cause 9 (s.runLane 3 + 1) 3 s.vdcRaw).regenStopped s.lim).wr R.LN_MD_REGEN 0 := by
  unfold chopperFaultIfDue
  rw [if_pos ⟨hspan, by rw [hnew]; rfl⟩]
  rfl

theorem State.regenStopped_facts (s : State) (l : LimState) : (s.regenStopped l).seq = s.seq ∧ (s.regenStopped l).lim.regen = 0 :=
  ⟨rfl, rfl⟩

/-! ### OVERCURRENT (10 R344; 03 R98) -/

/-- The cause of a trip where it is new. -/
def tripNoted (ch : Nat) (bits : List Bool) (s : State) : State :=
  if s.hasCause 11 then s else s.cause 11 0 (s.rd (R.SD_CHn_CFG_ROLE ch)) (wrapTo 32 (s.fastPath ch bits))

theorem overcurrent_due {ch : Nat} {bits : List Bool} {s : State} (heff : s.sb.effAt = none) (hruns : s.sdRuns ch = true)
    (hover : (s.rd (R.SD_CHn_CFG_ROLE ch) = 1 ∨ s.rd (R.SD_CHn_CFG_ROLE ch) = 2 ∨ s.rd (R.SD_CHn_CFG_ROLE ch) = 3) ∧
        s.rd R.SB_EFF_IPH * 65536 < (s.fastPath ch bits).natAbs ∨
      s.rd (R.SD_CHn_CFG_ROLE ch) = 8 ∧ s.rd R.SB_EFF_ICH * 65536 < (s.fastPath ch bits).natAbs) :
    overcurrent ch bits s = (List.range 7).foldl (sendOff false) (tripNoted ch bits s) := by
  unfold overcurrent
  rw [effDue_none heff]
  refine if_pos ⟨hruns, by omega, ?_⟩
  rcases hover with ⟨hrole, hlimit⟩ | ⟨hrole, hlimit⟩
  · rwa [if_neg (by omega)]
  · rwa [if_pos hrole]

theorem tripNoted_gd (ch : Nat) (bits : List Bool) (s : State) : (tripNoted ch bits s).gd = s.gd := by
  unfold tripNoted
  split
  · rfl
  · exact State.cause_gd _ _ _ _ _

/-- All seven channels get the gate-off command. -/
theorem tripped_offTx (ch : Nat) (bits : List Bool) (s : State) {c : Nat} (hc : c < 7) :
    (((List.range 7).foldl (sendOff false) (tripNoted ch bits s)).gch c).offTx = some ((s.gch c).offTx == some true) := by
  rw [offTx_foldl_sendOff _ List.nodup_range _ hc, if_pos (List.mem_range.mpr hc),
    State.gch_congr (congrArg GdState.ch (tripNoted_gd ch bits s))]

theorem tripped_raised {ch : Nat} {bits : List Bool} {s : State} (hnew : s.hasCause 11 = false) :
    (11, s.rd (R.SD_CHn_CFG_ROLE ch)) ∈ ((List.range 7).foldl (sendOff false) (tripNoted ch bits s)).seq.raised := by
  rw [seq_foldl_sendOff]
  unfold tripNoted
  rw [hnew, if_neg Bool.false_ne_true, State.cause_seq]
  exact List.mem_append_right _ (List.mem_singleton_self _)

/-! ### The precharge (06 R233) -/

/-- The ENABLE that waits completes. -/
def enableEnded (result : Nat) (s : State) : State :=
  if s.seq.enabling then { s with seq := { s.seq with enabling := false } }.reqDone 1 result else s

theorem enableEnded_facts (result : Nat) (s : State) : (enableEnded result s).gd = s.gd ∧ (enableEnded result s).seq.enabling = false ∧
    (s.seq.enabling = true → (enableEnded result s).seq.done = s.seq.done ++ [(1, result)]) := by
  unfold enableEnded
  split
  · rw [State.reqDone_gd, State.reqDone_seq]
    exact ⟨rfl, rfl, fun _ => rfl⟩
  · next h => exact ⟨rfl, Bool.eq_false_of_not_eq_true h, fun he => absurd he h⟩

theorem rd_enableEnded {g : Fld} (h : ownWord g.addr ∧ R.LN_MD_RES_RESULT.Misses g) (result : Nat) (s : State) :
    (enableEnded result s).rd g = s.rd g := by
  unfold enableEnded
  split
  · exact (State.rd_reqDone _ _ _ h).trans (State.rd_with_seq _ _ g)
  · rfl

theorem prechargeDoneIfDue_due {s : State} (hdrive : s.drive = 2) (hwaits : s.on R.GD_STAT_PREDONE = false)
    (hrails : ∀ l : Fin 3, 4096 ≤ s.rd (R.GD_CHc_RAIL_POS (2 * l.val))) :
    prechargeDoneIfDue s = enableEnded 0 (s.wr R.GD_STAT_PREDONE 1).prechargeDropped := by
  have hall : [0, 2, 4].all (fun c => 4096 ≤ s.rd (R.GD_CHc_RAIL_POS c)) = true := by
    simpa using ⟨hrails 0, hrails 1, hrails 2⟩
  exact if_pos ⟨hdrive, by rw [hwaits]; rfl, hall⟩

theorem State.prechargeDropped_facts (s : State) : (∀ f, s.prechargeDropped.rd f = s.rd f) ∧ s.prechargeDropped.seq = s.seq ∧
    s.prechargeDropped.gd.preStart = none := ⟨fun _ => rfl, rfl, rfl⟩

/-- STANDBY with the modulator off, as a precharge that has not come to its end leaves it. -/
def prechargeFailed (s : State) : State :=
  (((s.prechargeDropped.wr R.LN_MD_STAT_STATE 1).wr R.PW_CTL_RUN 0).gateRefresh).driveEvent s

theorem prechargeTimeoutIfDue_due {s : State} {t0 : Nat} (hstart : s.gd.preStart = some t0) (hdrive : s.drive = 2)
    (hwaits : s.on R.GD_STAT_PREDONE = false) (hlate : t0 + msCyc 100 ≤ s.time.tb) :
    prechargeTimeoutIfDue s = enableEnded 4 (prechargeFailed s) := by
  unfold prechargeTimeoutIfDue
  rw [hstart]
  exact if_pos ⟨hdrive, by rw [hwaits]; rfl, hlate⟩

theorem gateRefresh_preStart (s : State) : s.gateRefresh.gd.preStart = s.gd.preStart := by
  refine foldl_keeps (fun u : State => u.gd.preStart) (fun u c => ?_) _ s
  unfold State.gateRefreshOne
  dsimp only
  split
  · rfl
  · split <;> rfl

theorem prechargeFailed_facts (s : State) : (prechargeFailed s).drive = 1 ∧ (prechargeFailed s).rd R.PW_CTL_RUN = 0 ∧
    (prechargeFailed s).gd.preStart = none ∧ (prechargeFailed s).seq = s.seq := by
  have hrun : apartFromQueues (R.PW_CTL_RUN).addr := by
    unfold apartFromQueues
    decide
  obtain ⟨-, hseq, hstart⟩ := s.prechargeDropped_facts
  unfold prechargeFailed State.drive
  rw [State.rd_driveEvent stat_apart, State.rd_driveEvent hrun, State.driveEvent_gd, State.driveEvent_seq, State.rd_gateRefresh,
    State.rd_gateRefresh, gateRefresh_preStart, State.gateRefresh_seq, State.wr_gd, State.wr_gd, State.wr_seq, State.wr_seq]
  exact ⟨(State.rd_wr_missed _ (by decide) 0).trans (State.rd_wr_same _ (by decide) 1), State.rd_wr_same _ (by decide) 0, hstart, hseq⟩

/-- Settles O34: each fault and each end where it is due, by what it then is. -/
theorem driveFaultSteps : Obligations.DriveFaultSteps := by
  intro s hr
  refine ⟨fun t0 he hm hl hn => ⟨_, (live_next _ hr).trans (congrArg _ (ertmoIfDue_due (s := s.cleared) he hm hl hn)), ?_⟩,
    fun ha hd hs => ⟨_, live_next _ hr, ascExitIfDue_acts (s := s.cleared) ha hd hs⟩,
    fun hu hn => ⟨_, (live_next _ hr).trans (congrArg _ (dcUvIfDue_running (s := s.cleared) hu hn)), ?_⟩,
    fun hd hu => ⟨_, live_next _ hr, dcUvIfDue_ready (s := s.cleared) hd hu⟩,
    fun bits he ho hi hn => ⟨_, live_next _ hr, dcOv_acts (s := s.cleared) he ho hi hn⟩,
    fun hs hn => ⟨_, (live_next _ hr).trans (congrArg _ (chopperFaultIfDue_due (s := s.cleared) hs hn)), ?_⟩,
    fun ch bits he hruns hrole ho hn => ⟨_, (live_next _ hr).trans
      (congrArg _ (overcurrent_due (s := s.cleared) he hruns (.inl ⟨hrole, ho⟩))), tripped_raised (s := s.cleared) hn,
      fun c hc => tripped_offTx ch.val bits s.cleared hc⟩,
    fun ch bits he hruns hrole ho => ⟨_, (live_next _ hr).trans
      (congrArg _ (overcurrent_due (s := s.cleared) he hruns (.inr ⟨hrole, ho⟩))), fun c hc => tripped_offTx ch.val bits s.cleared hc⟩,
    fun hd hp hrails => ⟨_, (live_next _ hr).trans (congrArg _ (prechargeDoneIfDue_due (s := s.cleared) hd hp hrails)), ?_⟩,
    fun t0 ht hd hp hl => ⟨_, (live_next _ hr).trans (congrArg _ (prechargeTimeoutIfDue_due (s := s.cleared) ht hd hp hl)), ?_⟩⟩
  · rw [State.cause_seq]
    exact ⟨rfl, rfl⟩
  · rw [State.cause_seq]
    rfl
  · obtain ⟨hseq, hregen⟩ := (s.cleared.cause 9 (s.cleared.runLane 3 + 1) 3 s.cleared.vdcRaw).regenStopped_facts s.cleared.lim
    rw [State.wr_seq, State.wr_lim, hseq, State.cause_seq]
    exact ⟨rfl, hregen, State.rd_wr_same _ (by decide) 0⟩
  · obtain ⟨hrd, hseq, hstart⟩ := (s.cleared.wr R.GD_STAT_PREDONE 1).prechargeDropped_facts
    obtain ⟨hgd, henabling, hdone⟩ := enableEnded_facts 0 (s.cleared.wr R.GD_STAT_PREDONE 1).prechargeDropped
    rw [hseq, State.wr_seq] at hdone
    exact ⟨(rd_enableEnded (by decide) _ _).trans ((hrd _).trans (State.rd_wr_same _ (by decide) 1)),
      (congrArg GdState.preStart hgd).trans hstart, henabling, hdone⟩
  · obtain ⟨hdrive, hrun, hstart, hseq⟩ := prechargeFailed_facts s.cleared
    obtain ⟨hgd, -, hdone⟩ := enableEnded_facts 4 (prechargeFailed s.cleared)
    rw [hseq] at hdone
    exact ⟨(rd_enableEnded (by decide) _ _).trans hdrive, (rd_enableEnded (by decide) _ _).trans hrun,
      (congrArg GdState.preStart hgd).trans hstart, hdone⟩

end Sys2Proof.Machine
end

section
/-! SUPPORT. The gate channels, the legs and the registers of the gate drive: what they read after the updates that the steps of 06 are put
together from. -/

namespace Sys2Proof.Machine

/-! ### Channels and legs -/

@[simp] theorem State.gch_cleared (s : State) (k : Nat) : s.cleared.gch k = s.gch k := rfl
@[simp] theorem State.gch_wr (s : State) (f : Fld) (v k : Nat) : (s.wr f v).gch k = s.gch k := rfl
@[simp] theorem State.gch_wrBit (s : State) (f : Fld) (n : Nat) (b : Bool) (k : Nat) : (s.wrBit f n b).gch k = s.gch k := rfl
@[simp] theorem State.gch_inc (s : State) (f : Fld) (k : Nat) : (s.inc f).gch k = s.gch k := rfl
@[simp] theorem State.gch_setGleg (s : State) (l : Nat) (f : GdLeg → GdLeg) (k : Nat) : (s.setGleg l f).gch k = s.gch k := rfl
@[simp] theorem State.gleg_setGch (s : State) (c : Nat) (f : GdChan → GdChan) (l : Nat) : (s.setGch c f).gleg l = s.gleg l := rfl
@[simp] theorem State.gleg_inc (s : State) (f : Fld) (l : Nat) : (s.inc f).gleg l = s.gleg l := rfl
@[simp] theorem State.rd_setGch (s : State) (c : Nat) (f : GdChan → GdChan) (g : Fld) : (s.setGch c f).rd g = s.rd g := rfl
@[simp] theorem State.rd_setGleg (s : State) (l : Nat) (f : GdLeg → GdLeg) (g : Fld) : (s.setGleg l f).rd g = s.rd g := rfl

theorem State.gch_of_gd {s t : State} (h : t.gd = s.gd) (k : Nat) : t.gch k = s.gch k := State.gch_congr (congrArg GdState.ch h) k

theorem State.gch_setGch_same (s : State) (f : GdChan → GdChan) {c : Nat} (hc : c < 7) : (s.setGch c f).gch c = f (s.gch c) := by
  rw [State.gch_setGch s f c hc, if_pos rfl]

theorem State.gch_setGch_other (s : State) (f : GdChan → GdChan) {c k : Nat} (hk : k < 7) (hne : k ≠ c) :
    (s.setGch c f).gch k = s.gch k := by
  rw [State.gch_setGch s f c hk, if_neg hne]

theorem State.gleg_setGleg_same (s : State) (f : GdLeg → GdLeg) {l : Nat} (hl : l < 3) : (s.setGleg l f).gleg l = f (s.gleg l) := by
  unfold State.gleg State.setGleg
  simp [hl]

/-- The partner of a phase channel is another phase channel. -/
theorem partner_phase {c : Nat} (hc : c < 6) : partner c < 6 ∧ partner c ≠ c := by
  unfold partner
  split <;> omega

/-! ### Registers of the gate drive (06 R245) -/

/-- A word of the gate drive. -/
abbrev gdWord (a : Nat) : Prop := 0x40070000 ≤ a ∧ a < 0x40080000

theorem gdWord_own {a : Nat} (h : gdWord a) : ownWord a := ⟨by omega, by omega, by omega⟩

theorem gdWord_apart {a : Nat} (h : gdWord a) : apartFromQueues a :=
  ⟨.inr (by omega), .inl (by omega), fun e => absurd (e ▸ h : gdWord (R.SB_STAT_SAFETY_EVT_LOST).addr) (by decide)⟩

/-- A write of a field of the gate drive leaves a field that it misses. -/
abbrev Fld.GdMisses (f g : Fld) : Prop :=
  gdWord f.addr ∧ ownWord g.addr ∧ (g.addr ≠ f.addr ∨ (f.lsb ≤ f.msb ∧ f.msb < 32) ∧ (f.msb < g.lsb ∨ g.msb < f.lsb))

theorem State.rd_wr_gd (s : State) {f g : Fld} (h : f.GdMisses g) (v : Nat) : (s.wr f v).rd g = s.rd g :=
  s.rd_wr_missed ⟨gdWord_own h.1, h.2⟩ v

theorem State.rd_inc_gd (s : State) {f g : Fld} (h : f.GdMisses g) : (s.inc f).rd g = s.rd g := s.rd_wr_gd h _

theorem State.rd_wrBit_gd (s : State) {f g : Fld} (h : f.GdMisses g) (n : Nat) (b : Bool) : (s.wrBit f n b).rd g = s.rd g :=
  s.rd_wr_gd h _

/-- A frame that fails its check counts in LINKERR (06 R214). -/
theorem State.linkErr_counted (s : State) (c : Nat) :
    (s.inc (R.GD_CHc_LINKERR c)).rd (R.GD_CHc_LINKERR c) = min (s.rd (R.GD_CHc_LINKERR c) + 1) (2 ^ 32 - 1) :=
  s.rd_inc_same ⟨Nat.zero_le _, by simp only; omega⟩

/-- A bit put into a number is set. -/
theorem testB_or_two_pow (x n : Nat) : testB (x ||| 2 ^ n) n = true := by
  rw [testB_eq_testBit, Nat.testBit_or, Nat.testBit_two_pow_self, Bool.or_true]

/-- A bit put into a number leaves those that are set. -/
theorem testB_or_of_left {x n : Nat} (h : testB x n = true) (y : Nat) : testB (x ||| y) n = true := by
  rw [testB_eq_testBit] at h ⊢
  rw [Nat.testBit_or, h, Bool.true_or]

/-! ### Blocks discarded (06 R220, R237, R238) -/

/-- A channel as another one stands, but for its gate, its blocks and the pulse that they are part of. -/
def GdChan.SameBut (g h : GdChan) : Prop :=
  g = { h with
    on := g.on, drvStep := g.drvStep, waitOn := g.waitOn, acted := g.acted, armed := g.armed, staged := g.staged
    lastArmed := g.lastArmed, ascWait := g.ascWait, dropPulse := g.dropPulse }

theorem GdChan.SameBut.trans {g h i : GdChan} (hgh : g.SameBut h) (hhi : h.SameBut i) : g.SameBut i :=
  Eq.trans hgh (congrArg (fun x : GdChan => { x with
    on := g.on, drvStep := g.drvStep, waitOn := g.waitOn, acted := g.acted, armed := g.armed, staged := g.staged
    lastArmed := g.lastArmed, ascWait := g.ascWait, dropPulse := g.dropPulse }) hhi)

/-- A channel that is off and holds no block. -/
def GdChan.Emptied (g : GdChan) : Prop := g.on = false ∧ g.armed = [] ∧ g.staged = none

/-- A pulse that ends empties no channel's staging and turns none on; an empty channel stays so. -/
theorem pulseEnd_gch (l : Nat) (s : State) {k : Nat} (hk : k < 7) :
    ((pulseEnd l s).gch k).SameBut (s.gch k) ∧ ((s.gch k).Emptied → ((pulseEnd l s).gch k).Emptied) := by
  unfold pulseEnd
  split
  next cseq t _ _ =>
    extract_lets off
    have hoff : ∀ g : GdChan, (off g).SameBut g ∧ (g.Emptied → (off g).Emptied) := by
      intro g
      unfold off
      refine ⟨?_, fun ⟨hon, harmed, hstaged⟩ => ⟨?_, ?_, ?_⟩⟩
      · unfold GdChan.SameBut GdChan.turnOff
        split <;> rfl
      · unfold GdChan.turnOff
        split
        · rfl
        · exact hon
      · exact (congrArg (List.filter _) harmed).trans List.filter_nil
      · unfold GdChan.turnOff
        split <;> exact hstaged
    have hset : ∀ (u : State) (c : Nat), ((u.setGch c off).gch k).SameBut (u.gch k) ∧
        ((u.gch k).Emptied → ((u.setGch c off).gch k).Emptied) := by
      intro u c
      rw [State.gch_setGch u off c hk]
      split
      · exact hoff _
      · exact ⟨rfl, id⟩
    rw [State.gch_setGleg]
    obtain ⟨hsame1, hempty1⟩ := hset s (2 * l)
    obtain ⟨hsame2, hempty2⟩ := hset (s.setGch (2 * l) off) (2 * l + 1)
    exact ⟨hsame2.trans hsame1, fun h => hempty2 (hempty1 h)⟩
  next => exact ⟨rfl, id⟩

/-- A PX-G that discards its blocks is off and holds none; what else it holds stays. -/
theorem pxgDiscard_gch (s : State) {c : Nat} (hc : c < 7) :
    ((pxgDiscard s c).gch c).SameBut (s.gch c) ∧ ((pxgDiscard s c).gch c).Emptied := by
  unfold pxgDiscard
  extract_lets t
  have ht : (t.gch c).SameBut (s.gch c) ∧ (t.gch c).Emptied := by
    unfold t
    rw [State.gch_setGch_same s _ hc]
    exact ⟨rfl, rfl, rfl, rfl⟩
  obtain ⟨hsame, hempty⟩ := ht
  split
  · obtain ⟨hsame', hempty'⟩ := pulseEnd_gch (c / 2) t hc
    exact ⟨hsame'.trans hsame, hempty' hempty⟩
  · exact ⟨hsame, hempty⟩

/-- A latch that sets joins the channel's latches and the news of its next STATUS. -/
def GdChan.latched (bit : Nat) (g : GdChan) : GdChan := { g with latch := g.latch ||| 2 ^ bit, news := g.news ||| 2 ^ bit }

/-- A latch that sets at a PX-G: the channel has it, is off and holds no block (06 R220, R237). -/
theorem pxgLatch_gch (s : State) (bit : Nat) {c : Nat} (hc : c < 7) :
    ((pxgLatch s c bit).gch c).SameBut ((s.gch c).latched bit) ∧ ((pxgLatch s c bit).gch c).Emptied := by
  obtain ⟨hsame, hempty⟩ := pxgDiscard_gch s hc
  rw [show (pxgLatch s c bit).gch c = ((pxgDiscard s c).gch c).latched bit from State.gch_setGch_same _ _ hc]
  exact ⟨congrArg (GdChan.latched bit) hsame, hempty⟩

/-! ### Telemetry records (06 R244) -/

theorem telRecord_gch (s : State) (kind cseq : Nat) (data : List Byte) {c : Nat} (hc : c < 7) :
    (s.telRecord c kind cseq data).gch c = { s.gch c with tel := (s.gch c).tel ++ [(kind, cseq % 256, padTo 8 data)] } :=
  State.gch_setGch_same _ _ hc

/-- A LATCH record changes nothing of its channel but the records on their way. -/
theorem latchRecord_gch (s : State) {c : Nat} (hc : c < 7) : ∃ tel, (latchRecord s c).gch c = { s.gch c with tel := tel } :=
  ⟨_, telRecord_gch _ _ _ _ hc⟩

/-! ### STATUS at PX-C (06 R213, R236, R237) -/

@[simp] theorem latchCauses_gd (c new : Nat) (s : State) : (latchCauses c new s).gd = s.gd :=
  (latchCauses_sound (ms := 0x4000) rfl c new s (sound_refl _ s)).same .gd rfl

/-- What PX-C does about new latches leaves the words apart from the queues. -/
theorem rd_latchCauses {g : Fld} (h : apartFromQueues g.addr) (c new : Nat) (s : State) : (latchCauses c new s).rd g = s.rd g := by
  have hevent : (latchEvent c s).rd g = s.rd g := rd_event s _ _ (by decide) h
  unfold latchCauses
  dsimp only
  split
  · rfl
  · split
    · exact hevent
    · split
      · split
        · split
          · exact (rd_cause _ _ _ _ _ h).trans hevent
          · exact (rd_cause _ _ _ _ _ h).trans hevent
        · exact hevent
      · split
        · exact hevent
        · exact rd_cause _ _ _ _ _ h

/-- The latches and LOCK of a channel as PX-C takes them. -/
def latchesTaken (s : State) (c : Nat) : State :=
  let g := s.gch c
  let s := s.setGch c (fun g => { g with news := 0 })
  let s := s.wr (latchField c) g.latch
  let s := s.wrBit R.GD_STAT_LATCH c (g.latch != 0)
  (s.wr (R.GD_CHc_STAT_LOCK c) (b2n g.lock)).wrBit R.GD_STAT_LOCK c g.lock

/-- BSWARN of a leg as PX-C takes it from the STATUS of its high side. -/
def bswarnTaken (s : State) (c : Nat) : State :=
  let w := (s.gleg (c / 2)).bswarn
  let s := s.setGleg (c / 2) (fun l => { l with warnAt := if w ∧ !s.on (R.GD_CHc_STAT_BSWARN c) then s.time.tb else l.warnAt })
  (s.wr (R.GD_CHc_STAT_BSWARN c) (b2n w)).wrBit R.GD_STAT_BSWARN (c / 2) w

/-- What a STATUS brings, before PX-C acts on it. -/
def statusTaken (s : State) (c : Nat) : State := if c < 6 ∧ c % 2 = 0 then bswarnTaken (latchesTaken s c) c else latchesTaken s c

theorem statusReport_eq (s : State) (c : Nat) : statusReport s c = latchCauses c (s.gch c).news
    (if (s.gch c).news &&& 3 = 0 then statusTaken s c else lockoutPartner c (statusTaken s c)) := rfl

theorem statusTaken_gch (s : State) (c k : Nat) : (statusTaken s c).gch k = (s.setGch c (fun g => { g with news := 0 })).gch k := by
  have htaken : (latchesTaken s c).gch k = (s.setGch c (fun g => { g with news := 0 })).gch k := by
    unfold latchesTaken
    rw [State.gch_wrBit, State.gch_wr, State.gch_wrBit, State.gch_wr]
  have hwarn : (bswarnTaken (latchesTaken s c) c).gch k = (latchesTaken s c).gch k := by
    unfold bswarnTaken
    rw [State.gch_wrBit, State.gch_wr, State.gch_setGleg]
  unfold statusTaken
  split
  · exact hwarn.trans htaken
  · exact htaken

theorem rd_lockoutPartner (c : Nat) (s : State) (g : Fld) : (lockoutPartner c s).rd g = s.rd g := by
  unfold lockoutPartner
  split <;> rfl

theorem rd_statusReport {g : Fld} (h : apartFromQueues g.addr) (s : State) (c : Nat) : (statusReport s c).rd g = (statusTaken s c).rd g := by
  rw [statusReport_eq, rd_latchCauses h]
  split
  · rfl
  · exact rd_lockoutPartner c _ g

theorem lockoutPartner_gch (s : State) {c : Nat} (hc : c < 7) : (lockoutPartner c s).gch c = s.gch c := by
  unfold lockoutPartner
  split
  next h => exact State.gch_setGch_other _ _ hc (partner_phase h.1).2.symm
  next => rfl

/-- A STATUS takes the channel's news. -/
theorem statusReport_gch (s : State) {c : Nat} (hc : c < 7) : (statusReport s c).gch c = { s.gch c with news := 0 } := by
  rw [statusReport_eq, State.gch_of_gd (latchCauses_gd _ _ _)]
  have htaken : (statusTaken s c).gch c = { s.gch c with news := 0 } :=
    (statusTaken_gch s c c).trans (State.gch_setGch_same _ _ hc)
  split
  · exact htaken
  · exact (lockoutPartner_gch _ hc).trans htaken

theorem statusTaken_rd (s : State) (c : Nat) {g : Fld} (hm : (R.GD_CHc_STAT_BSWARN c).GdMisses g)
    (hs : R.GD_STAT_BSWARN.GdMisses g) : (statusTaken s c).rd g = (latchesTaken s c).rd g := by
  unfold statusTaken
  split
  · exact (State.rd_wrBit_gd _ hs _ _).trans ((State.rd_wr_gd _ hm _).trans (State.rd_setGleg _ _ _ g))
  · rfl

/-- After a STATUS PX-C reads the channel's latches and its LOCK. -/
theorem statusReport_rd (s : State) (c : Nat) : (statusReport s c).rd (latchField c) = (s.gch c).latch % 256 ∧
    (statusReport s c).rd (R.GD_CHc_STAT_LOCK c) = b2n (s.gch c).lock := by
  have hlatch : gdWord (latchField c).addr := by simp only; omega
  have hlock : gdWord (R.GD_CHc_STAT_LOCK c).addr := by simp only; omega
  rw [rd_statusReport (gdWord_apart hlatch), rd_statusReport (gdWord_apart hlock),
    statusTaken_rd _ _ (by simp only [Fld.GdMisses]; omega) (by simp only [Fld.GdMisses]; omega),
    statusTaken_rd _ _ (by simp only [Fld.GdMisses]; omega) (by simp only [Fld.GdMisses]; omega)]
  unfold latchesTaken
  dsimp only
  refine ⟨?_, ?_⟩
  · rw [State.rd_wrBit_gd _ (by simp only [Fld.GdMisses]; omega),
      State.rd_wr_gd _ (by simp only [Fld.GdMisses]; omega),
      State.rd_wrBit_gd _ (by simp only [Fld.GdMisses]; omega), State.rd_wr_same _ (by simp only [Fld.Ok]; omega)]
    rfl
  · rw [State.rd_wrBit_gd _ (by simp only [Fld.GdMisses]; omega), State.rd_wr_same _ (by simp only [Fld.Ok]; omega)]
    cases (s.gch c).lock <;> rfl

end Sys2Proof.Machine
end

section
/-! O21. CONFIG frames and their ACK (06 R213, R214, R221, R223). -/

namespace Sys2Proof.Machine

/-! ### CONFIG at a PX-G (06 R221, R223) -/

/-- The word that a PX-G holds for the register at an offset of its channel. -/
def GdChan.heldWord (g : GdChan) (off : Nat) : Word := if off = 0 then g.cfg0 else if off = 4 then g.cfg1 else g.boost

/-- A PX-G with the word of the register at an offset replaced. -/
def GdChan.withWord (g : GdChan) (off : Nat) (v : Word) : GdChan :=
  if off = 0 then { g with cfg0 := v } else if off = 4 then { g with cfg1 := v } else { g with boost := v }

/-- The test of 06 R221 and R223: a value out of range, or a bit that may not change while GATE_EN is high. -/
abbrev GdChan.refuses (g : GdChan) (off : Nat) (v : Word) : Prop :=
  configRefused off v.toNat = true ∨ (((g.heldWord off) ^^^ v) &&& ~~~(configLive off)) ≠ 0 ∧ g.en = true

theorem GdChan.configure_word (g : GdChan) (c a : Nat) (v : Word) : g.configure c (.word a v) =
    if configRefused (a - (R.GD_CHc_CFG0_VON c).addr) v.toNat ||
      ((((g.heldWord (a - (R.GD_CHc_CFG0_VON c).addr)) ^^^ v) &&& ~~~(configLive (a - (R.GD_CHc_CFG0_VON c).addr))) != 0 && g.en)
    then (g, false) else (g.withWord (a - (R.GD_CHc_CFG0_VON c).addr) v, true) := rfl

theorem GdChan.configure_refused {g : GdChan} {c a : Nat} {v : Word} (h : g.refuses (a - (R.GD_CHc_CFG0_VON c).addr) v) :
    g.configure c (.word a v) = (g, false) := by
  rw [GdChan.configure_word, if_pos]
  simpa [GdChan.refuses] using h

theorem GdChan.configure_applied {g : GdChan} {c a : Nat} {v : Word} (h : ¬g.refuses (a - (R.GD_CHc_CFG0_VON c).addr) v) :
    g.configure c (.word a v) = (g.withWord (a - (R.GD_CHc_CFG0_VON c).addr) v, true) := by
  rw [GdChan.configure_word, if_neg]
  simpa using h

/-- The words of a channel that go to its PX-G by CONFIG. -/
abbrev configWord (c a : Nat) : Prop :=
  a = (R.GD_CHc_CFG0_VON c).addr ∨ a = (R.GD_CHc_CFG1_DSEN c).addr ∨ a = (R.GD_CHc_BOOST_EN c).addr

/-- The offsets of the three words that go to a PX-G by CONFIG. -/
theorem configOffset_iff {c a : Nat} (ha : configWord c a) :
    (a - (R.GD_CHc_CFG0_VON c).addr = 0 ↔ a = (R.GD_CHc_CFG0_VON c).addr) ∧
    (a - (R.GD_CHc_CFG0_VON c).addr = 4 ↔ a = (R.GD_CHc_CFG1_DSEN c).addr) := by
  simp only [configWord] at ha ⊢
  omega

/-- A word that a PX-G applies is the one it holds. -/
theorem GdChan.withWord_held {g : GdChan} {c a : Nat} {v : Word}
    (ha : configWord c a) :
    (a = (R.GD_CHc_CFG0_VON c).addr → (g.withWord (a - (R.GD_CHc_CFG0_VON c).addr) v).cfg0 = v) ∧
    (a = (R.GD_CHc_CFG1_DSEN c).addr → (g.withWord (a - (R.GD_CHc_CFG0_VON c).addr) v).cfg1 = v) ∧
    (a = (R.GD_CHc_BOOST_EN c).addr → (g.withWord (a - (R.GD_CHc_CFG0_VON c).addr) v).boost = v) := by
  obtain ⟨h0, h4⟩ := configOffset_iff ha
  unfold GdChan.withWord
  refine ⟨fun h => ?_, fun h => ?_, fun h => ?_⟩
  · rw [if_pos (h0.2 h)]
  · rw [if_neg (by simp only at h ⊢; omega), if_pos (h4.2 h)]
  · rw [if_neg (by simp only at h ⊢; omega), if_neg (by simp only at h ⊢; omega)]

theorem GdChan.withWord_config (g : GdChan) (off : Nat) (v : Word) : (g.withWord off v).config = g.config := by
  unfold GdChan.withWord
  split
  · rfl
  · split <;> rfl

/-! ### A CONFIG and its ACK (06 R213, R214) -/

section
variable {c : Nat} {s : State} {x : GdItem} {n : Nat} {rest : List (GdItem × Nat)}

theorem glinkConfig_early (ok : Bool) (hfit : s.frameFits c 160 true = false) : glinkConfig c ok s = s := by
  unfold glinkConfig
  split
  · rfl
  · rw [hfit]
    rfl

theorem glinkConfig_lost (hq : (s.gch c).config = (x, n) :: rest) (hfit : s.frameFits c 160 true = true) :
    glinkConfig c false s = s.inc (R.GD_CHc_LINKERR c) := by
  unfold glinkConfig
  rw [hq]
  simp only [hfit]
  rfl

/-- The channel after the oldest CONFIG has reached it. -/
theorem glinkConfig_gch (hc : c < 7) (hq : (s.gch c).config = (x, n) :: rest) (hfit : s.frameFits c 160 true = true) :
    (glinkConfig c true s).gch c = { ((s.gch c).configure c x).1 with ack := some ((s.gch c).configure c x).2 } := by
  unfold glinkConfig
  rw [hq]
  simp only [hfit]
  exact State.gch_setGch_same s _ hc

@[simp] theorem State.gch_configPending (s : State) (c k : Nat) : (s.configPending c).gch k = s.gch k := rfl

/-- What an ACK writes: the register where its CONFIG was applied, CFGREJ where it was refused. -/
theorem ackArrives_word {a : Nat} {v : Word} {applied : Bool} (hack : (s.gch c).ack = some applied)
    (hq : (s.gch c).config = (.word a v, n) :: rest) : ackArrives c true s =
    State.configPending (if applied then
        ((s.setGch c (fun g => { g with ack := none })).setGch c (fun g => { g with config := rest })).setWord (0x40070000 + a % 0x10000) v
      else ((s.setGch c (fun g => { g with ack := none })).setGch c (fun g => { g with config := rest })).wr (R.GD_CHc_STAT_CFGREJ c) 1) c := by
  unfold ackArrives
  rw [hack, hq]
  rfl

/-- An ACK takes the CONFIG that it answers off the list. -/
theorem ackArrives_gch {a : Nat} {v : Word} {applied : Bool} (hc : c < 7) (hack : (s.gch c).ack = some applied)
    (hq : (s.gch c).config = (.word a v, n) :: rest) :
    (ackArrives c true s).gch c = { s.gch c with ack := none, config := rest } := by
  rw [ackArrives_word hack hq, State.gch_configPending]
  have hboth : ((s.setGch c (fun g => { g with ack := none })).setGch c (fun g => { g with config := rest })).gch c =
      { s.gch c with ack := none, config := rest } := by
    rw [State.gch_setGch_same _ _ hc, State.gch_setGch_same _ _ hc]
  split
  · exact hboth
  · exact hboth

/-- A refusal sets CFGREJ. -/
theorem rd_configPending_cfgrej (s : State) (c : Nat) : (s.configPending c).rd (R.GD_CHc_STAT_CFGREJ c) = s.rd (R.GD_CHc_STAT_CFGREJ c) :=
  s.rd_wr_gd (by simp only [Fld.GdMisses]; omega) _

theorem rd_cfgrej_set (s : State) (c : Nat) : (s.wr (R.GD_CHc_STAT_CFGREJ c) 1).rd (R.GD_CHc_STAT_CFGREJ c) = 1 :=
  State.rd_wr_same s ⟨by simp only; omega, by simp only; omega⟩ 1

/-- The words at CFG0, CFG1 and BOOST stand apart from the channel's STAT. -/
theorem word_wr_stat {a lsb msb : Nat} (v : Nat) (s : State)
    (ha : configWord c a) :
    (s.wr ⟨(R.GD_CHc_STAT_CFGREJ c).addr, msb, lsb⟩ v).word a = s.word a := by
  refine State.word_wr_ne s _ v ?_
  rw [home_ownWord s (by simp only [configWord] at ha; omega), home_ownWord s (by simp only; omega)]
  simp only [configWord] at ha ⊢
  omega

theorem word_configPending {a : Nat} (s : State)
    (ha : configWord c a) :
    (s.configPending c).word a = s.word a := word_wr_stat _ s ha

/-- An ACK that fails its check leaves its CONFIG on the list. -/
theorem ackArrives_lost (hack : (s.gch c).ack ≠ none) (hq : (s.gch c).config = (x, n) :: rest) :
    ackArrives c false s = (s.setGch c (fun g => { g with ack := none })).inc (R.GD_CHc_LINKERR c) := by
  unfold ackArrives
  obtain ⟨applied, hack⟩ := Option.ne_none_iff_exists'.1 hack
  rw [hack, hq]
  rfl

theorem configResend_eq (hack : (s.gch c).ack = none) (hq : (s.gch c).config = (x, n) :: rest) : configResend c s =
    if n < 3 then s.setGch c (fun g => { g with config := (x, n + 1) :: rest })
    else ((s.setGch c (fun g => { g with config := rest })).configPending c).wr (R.GD_CHc_STAT_CFGREJ c) 1 := by
  unfold configResend
  rw [hack, hq]

end

/-- Settles O21: the oldest CONFIG reaches its PX-G and is refused or applied, is acknowledged, and is resent without an ACK. -/
theorem gateLinkConfiguration : Obligations.GateLinkConfiguration := by
  unfold Obligations.GateLinkConfiguration
  intro c a v n rest s hr hq ha
  have hc : c.val < 7 := c.isLt
  refine ⟨fun held hfit hheld => ?_, fun hfit => ?_, fun ok hfit => ?_, fun hack => ?_, fun hack => ?_, fun hack => ?_, fun hack hn => ?_,
    fun hack hn => ?_⟩
  · obtain ⟨h0, h4⟩ := configOffset_iff ha
    have hword : held = (s.gch c.val).heldWord (a - (R.GD_CHc_CFG0_VON c.val).addr) := by
      simp only [hheld, GdChan.heldWord, h0, h4]
    have hg := glinkConfig_gch (s := s.cleared) hc hq hfit
    subst hword
    refine ⟨fun hbad => ⟨_, live_next _ hr, ?_⟩, fun hok hlive => ⟨_, live_next _ hr, ?_⟩⟩
    · rw [hg, State.gch_cleared, GdChan.configure_refused hbad]
      exact ⟨hq, rfl, rfl, rfl, rfl⟩
    · have hgood : ¬(s.gch c.val).refuses (a - (R.GD_CHc_CFG0_VON c.val).addr) v := by
        rintro (hbad | ⟨hbits, hen⟩)
        · exact Bool.false_ne_true (hok ▸ hbad)
        · exact hlive.elim hbits (fun hlow => Bool.false_ne_true (hlow ▸ hen))
      rw [hg, State.gch_cleared, GdChan.configure_applied hgood]
      exact ⟨(GdChan.withWord_config _ _ _).trans hq, rfl, GdChan.withWord_held ha⟩
  · refine ⟨_, (live_next _ hr).trans (congrArg _ (glinkConfig_lost (s := s.cleared) hq hfit)), rfl, ?_⟩
    exact s.cleared.linkErr_counted c.val
  · exact ⟨_, (live_next _ hr).trans (congrArg _ (glinkConfig_early ok (s := s.cleared) hfit)), rfl⟩
  · refine ⟨_, live_next _ hr, ?_, ?_⟩
    · rw [ackArrives_word (s := s.cleared) hack hq, if_pos rfl]
      rw [word_configPending _ ha]
      rw [show 0x40070000 + a % 0x10000 = a by simp only at ha; omega]
      exact State.word_setWord_same _ a v
    · rw [ackArrives_gch (s := s.cleared) hc hack hq]
      exact ⟨rfl, rfl⟩
  · refine ⟨_, live_next _ hr, ?_, ?_, ?_⟩
    · rw [ackArrives_word (s := s.cleared) hack hq, if_neg Bool.false_ne_true, rd_configPending_cfgrej]
      exact rd_cfgrej_set _ _
    · rw [ackArrives_word (s := s.cleared) hack hq, if_neg Bool.false_ne_true]
      exact (word_configPending _ ha).trans (word_wr_stat 1 _ ha)
    · rw [ackArrives_gch (s := s.cleared) hc hack hq]
  · refine ⟨_, (live_next _ hr).trans (congrArg _ (ackArrives_lost (s := s.cleared) hack hq)), ?_, ?_, ?_⟩
    · rw [State.gch_inc, State.gch_setGch_same _ _ hc]
    · rw [State.gch_inc, State.gch_setGch_same _ _ hc]
      rfl
    · exact State.linkErr_counted _ _
  · refine ⟨_, (live_next _ hr).trans (congrArg _ (configResend_eq (s := s.cleared) hack hq)), ?_⟩
    rw [if_pos hn, State.gch_setGch_same _ _ hc]
  · refine ⟨_, (live_next _ hr).trans (congrArg _ (configResend_eq (s := s.cleared) hack hq)), ?_, ?_⟩
    · rw [if_neg (by omega), State.gch_wr, State.gch_configPending, State.gch_setGch_same _ _ hc]
    · rw [if_neg (by omega)]
      exact rd_cfgrej_set _ _

end Sys2Proof.Machine
end

section
/-! O22. SYNC, LOOP, LOCK and a silent link (06 R214, R217, R218, R224). -/

namespace Sys2Proof.Machine

/-- A latch that sets turns the channel off, empties it, and is news for its next STATUS. -/
theorem pxgLatch_sets (s : State) (bit : Nat) {c : Nat} (hc : c < 7) :
    testB ((pxgLatch s c bit).gch c).latch bit = true ∧ testB ((pxgLatch s c bit).gch c).news bit = true ∧
    ((pxgLatch s c bit).gch c).Emptied := by
  obtain ⟨hsame, hempty⟩ := pxgLatch_gch s bit hc
  have hlatch : ((pxgLatch s c bit).gch c).latch = (s.gch c).latch ||| 2 ^ bit := congrArg GdChan.latch hsame
  have hnews : ((pxgLatch s c bit).gch c).news = (s.gch c).news ||| 2 ^ bit := congrArg GdChan.news hsame
  rw [hlatch, hnews]
  exact ⟨testB_or_two_pow _ _, testB_or_two_pow _ _, hempty⟩

/-! ### LOCK (06 R218, R224) -/

section
variable {c : Nat} {s : State}

@[simp] theorem gkPermit_gch (s : State) (k : Nat) : (gkPermit s).gch k = s.gch k := by
  unfold gkPermit
  exact State.gch_wr _ _ _ _

/-- GK's PERMIT follows its LOCK. -/
theorem rd_gkPermit (s : State) : (gkPermit s).rd (R.GD_CHc_STAT_PERMIT 6) = b2n (s.gch 6).lock := by
  unfold gkPermit
  rw [State.rd_wr_same _ (by decide)]
  cases (s.gch 6).lock <;> rfl

theorem lockIfDue_due (hdue : 16 ≤ (s.gch c).syncGood) (hlock : (s.gch c).lock = false) :
    lockIfDue c s = gkPermit (s.setGch c (fun g => { g with lock := true })) := by
  unfold lockIfDue
  exact if_pos ⟨hdue, by rw [hlock]; rfl⟩

theorem lockIfDue_locked (hlock : (s.gch c).lock = true) : lockIfDue c s = s := by
  unfold lockIfDue
  exact if_neg (fun h => by simp [hlock] at h)

/-- Nothing of a channel but its LOCK changes where LOCK may set. -/
theorem lockIfDue_gch (hc : c < 7) : ∃ lock, (lockIfDue c s).gch c = { s.gch c with lock := lock } := by
  unfold lockIfDue
  dsimp only
  split
  · exact ⟨true, (gkPermit_gch _ _).trans (State.gch_setGch_same _ _ hc)⟩
  · exact ⟨(s.gch c).lock, rfl⟩

theorem rd_lockIfDue {g : Fld} (hg : (R.GD_CHc_STAT_PERMIT 6).GdMisses g) : (lockIfDue c s).rd g = s.rd g := by
  unfold lockIfDue
  dsimp only
  split
  · exact (State.rd_wr_gd _ hg _).trans (State.rd_setGch _ _ _ _)
  · rfl

/-! ### A SYNC that reaches its PX-G (06 R217) -/

/-- The channel when a SYNC has come in: its STEP is taken, and LTB stands as drift and slew have left it. -/
def GdChan.syncIn (g : GdChan) (start : Nat) (drift : Int) (taken : Nat) : GdChan :=
  { g with stepTx := false, syncAt := some start, ltb := g.slewed drift taken }

/-- A PX-G whose link is alive. -/
def GdChan.linked (g : GdChan) : GdChan :=
  { g with link := true, present := g.present &&& 0xDF, loopTag := if g.link then g.loopTag else some 0 }

/-- The state when a SYNC has come in. -/
def syncCame (c : Nat) (drift : Int) (taken : Nat) (s : State) : State :=
  s.setGch c (fun g => g.syncIn (s.time.tb - 180) drift taken)

/-- The state when a SYNC has come in whole. -/
def syncHeard (c : Nat) (drift : Int) (taken : Nat) (s : State) : State := linkAlive c (syncCame c drift taken s)

theorem linkAlive_gch (s : State) (hc : c < 7) : (linkAlive c s).gch c = (s.gch c).linked :=
  (State.gch_wrBit _ _ _ _ _).trans (State.gch_setGch_same s _ hc)

theorem syncCame_gch (s : State) (hc : c < 7) (drift : Int) (taken : Nat) :
    (syncCame c drift taken s).gch c = (s.gch c).syncIn (s.time.tb - 180) drift taken := State.gch_setGch_same s _ hc

theorem syncHeard_gch (s : State) (hc : c < 7) (drift : Int) (taken : Nat) :
    (syncHeard c drift taken s).gch c = ((s.gch c).syncIn (s.time.tb - 180) drift taken).linked := by
  unfold syncHeard
  rw [linkAlive_gch _ hc, syncCame_gch s hc]

variable {drift : Int} {taken flight : Nat}

theorem glinkSync_lost (hfit : s.frameFits c 160 false = true) :
    glinkSync c false drift taken flight s = (syncCame c drift taken s).inc (R.GD_CHc_LINKERR c) := by
  unfold glinkSync
  rw [hfit]
  rfl

theorem glinkSync_step (hfit : s.frameFits c 160 false = true) (hstep : (s.gch c).stepTx = true) :
    glinkSync c true drift taken flight s = syncStep c flight (syncHeard c drift taken s) := by
  unfold glinkSync
  rw [hfit, hstep]
  rfl

/-- The state when the error of a SYNC has been counted. -/
def syncCounted (c flight : Nat) (s : State) : State :=
  let s := s.setGch c (fun g => g.syncCount (g.syncError flight))
  lockIfDue c (s.wr (R.GD_CHc_SYNCERR c) (wrapTo 16 (s.gch c).ltbErr))

theorem glinkSync_measures (hfit : s.frameFits c 160 false = true) (hstep : (s.gch c).stepTx = false) :
    glinkSync c true drift taken flight s =
      if ((syncCounted c flight (syncHeard c drift taken s)).gch c).lock ∧
        3 ≤ ((syncCounted c flight (syncHeard c drift taken s)).gch c).syncBad
      then pxgLatch (syncCounted c flight (syncHeard c drift taken s)) c 6
      else syncCounted c flight (syncHeard c drift taken s) := by
  unfold glinkSync
  rw [if_neg (by rw [hfit]; decide)]
  dsimp only
  rw [if_neg (by decide), hstep, if_neg Bool.false_ne_true]
  rfl

theorem syncCounted_gch (s : State) (hc : c < 7) :
    ∃ lock, (syncCounted c flight s).gch c = { (s.gch c).syncCount ((s.gch c).syncError flight) with lock := lock } := by
  unfold syncCounted
  dsimp only
  obtain ⟨lock, h⟩ := lockIfDue_gch (s := (s.setGch c (fun g => g.syncCount (g.syncError flight))).wr (R.GD_CHc_SYNCERR c)
    (wrapTo 16 ((s.setGch c (fun g => g.syncCount (g.syncError flight))).gch c).ltbErr)) hc
  exact ⟨lock, h.trans (by rw [State.gch_wr, State.gch_setGch_same s _ hc])⟩

/-- A channel that is locked when an error counts stays locked. -/
theorem syncCounted_locked (hc : c < 7) (hlock : (s.gch c).lock = true) : ((syncCounted c flight s).gch c).lock = true := by
  have hcounted : ((s.setGch c (fun g => g.syncCount (g.syncError flight))).gch c).lock = true := by
    rw [State.gch_setGch_same s _ hc]
    exact hlock
  unfold syncCounted
  dsimp only
  rw [lockIfDue_locked ((congrArg GdChan.lock (State.gch_wr _ _ _ _)).trans hcounted), State.gch_wr]
  exact hcounted

/-- SYNCERR reads the error that was counted (06 R245). -/
theorem rd_syncCounted (hc : c < 7) : (syncCounted c flight s).rd (R.GD_CHc_SYNCERR c) =
    wrapTo 16 ((s.gch c).syncCount ((s.gch c).syncError flight)).ltbErr := by
  unfold syncCounted
  dsimp only
  rw [rd_lockIfDue (by simp only [Fld.GdMisses]; omega), State.rd_wr_same _ (by simp only [Fld.Ok]; omega), State.gch_setGch_same s _ hc]
  exact Nat.mod_eq_of_lt (wrapTo_lt 16 _)

/-- The error that a SYNC finds, from the channel as it stood before (06 R217). -/
theorem syncError_heard (s : State) (hc : c < 7) : ((syncHeard c drift taken s).gch c).syncError flight =
    (s.gch c).slewed drift taken + eighthPs ((flight : Int) - (s.gch c).oneWay) := by
  rw [syncHeard_gch s hc]
  rfl

/-- An error within 1 ns counts towards LOCK (06 R218). -/
theorem GdChan.syncCount_good (g : GdChan) {e : Int} (hlo : -1000 ≤ e) (hhi : e ≤ 1000) :
    (g.syncCount e).syncGood = g.syncGood + 1 ∧ (g.syncCount e).syncBad = 0 ∧ (g.syncCount e).ltbErr = e := by
  refine ⟨if_pos ⟨hlo, hhi⟩, if_neg (by omega), ?_⟩
  show clampI _ _ e = e
  unfold clampI
  rw [if_neg (by omega), if_neg (by omega)]

/-- A SYNC that finds an error within 1 ns. -/
theorem glinkSync_good {e : Int} (hc : c < 7) (hfit : s.frameFits c 160 false = true) (hstep : (s.gch c).stepTx = false)
    (he : e = (s.gch c).slewed drift taken + eighthPs ((flight : Int) - (s.gch c).oneWay)) (hlo : -1000 ≤ e) (hhi : e ≤ 1000) :
    ((glinkSync c true drift taken flight s).gch c).syncGood = (s.gch c).syncGood + 1 ∧
    ((glinkSync c true drift taken flight s).gch c).syncBad = 0 ∧ ((glinkSync c true drift taken flight s).gch c).ltbErr = e ∧
    (glinkSync c true drift taken flight s).rd (R.GD_CHc_SYNCERR c) = wrapTo 16 e ∧
    ((glinkSync c true drift taken flight s).gch c).latch = (s.gch c).latch := by
  obtain ⟨lock, hg⟩ := syncCounted_gch (flight := flight) (syncHeard c drift taken s) hc
  have hrd := rd_syncCounted (s := syncHeard c drift taken s) (flight := flight) hc
  rw [syncError_heard s hc, ← he, syncHeard_gch s hc] at hg hrd
  obtain ⟨hgood, hbad, hltb⟩ := GdChan.syncCount_good ((s.gch c).syncIn (s.time.tb - 180) drift taken).linked hlo hhi
  rw [glinkSync_measures hfit hstep, if_neg (by rw [hg]; exact fun h => absurd (hbad ▸ h.2) (by decide)), hg]
  exact ⟨hgood, hbad, hltb, hrd.trans (congrArg _ hltb), rfl⟩

/-- The third error beyond 2 ns of a locked channel latches SYNC. -/
theorem glinkSync_third {e : Int} (hc : c < 7) (hfit : s.frameFits c 160 false = true) (hstep : (s.gch c).stepTx = false)
    (he : e = (s.gch c).slewed drift taken + eighthPs ((flight : Int) - (s.gch c).oneWay)) (hfar : e < -2000 ∨ 2000 < e)
    (hlock : (s.gch c).lock = true) (hcount : 2 ≤ (s.gch c).syncBad) :
    glinkSync c true drift taken flight s = pxgLatch (syncCounted c flight (syncHeard c drift taken s)) c 6 := by
  obtain ⟨lock, hg⟩ := syncCounted_gch (flight := flight) (syncHeard c drift taken s) hc
  rw [syncError_heard s hc, ← he, syncHeard_gch s hc] at hg
  have hbad : ((syncCounted c flight (syncHeard c drift taken s)).gch c).syncBad = (s.gch c).syncBad + 1 := by
    rw [hg]
    exact if_pos hfar
  have hheld : ((syncHeard c drift taken s).gch c).lock = true := by
    rw [syncHeard_gch s hc]
    exact hlock
  rw [glinkSync_measures hfit hstep, if_pos ⟨syncCounted_locked hc hheld, by omega⟩]

/-- The channel after a SYNC with STEP (06 R218). -/
theorem syncStep_gch (s : State) (hc : c < 7) : ((syncStep c flight s).gch c).Emptied ∧ ((syncStep c flight s).gch c).lock = false ∧
    ((syncStep c flight s).gch c).stepTx = (s.gch c).stepTx ∧
    ((syncStep c flight s).gch c).ltb = -(eighthPs ((flight : Int) - (s.gch c).oneWay)) := by
  obtain ⟨hsame, hempty⟩ := pxgDiscard_gch s hc
  have hoff : ((pxgDiscard s c).gch c).oneWay = (s.gch c).oneWay := (congrArg GdChan.oneWay hsame :)
  unfold syncStep
  rw [gkPermit_gch, State.gch_setGch_same _ _ hc]
  refine ⟨hempty, rfl, (congrArg GdChan.stepTx hsame :), ?_⟩
  rw [← hoff]

theorem rd_syncStep_gk (s : State) (h6 : c = 6) : (syncStep c flight s).rd (R.GD_CHc_STAT_PERMIT 6) = 0 := by
  unfold syncStep
  rw [rd_gkPermit, State.gch_setGch _ _ _ (by decide), if_pos h6.symm]
  rfl

/-! ### LOOP (06 R217) -/

theorem glinkLoop_lost (rt : Nat) (hfit : s.frameFits c 80 true = true) : glinkLoop c none rt s = s.inc (R.GD_CHc_LINKERR c) := by
  unfold glinkLoop
  rw [hfit]
  rfl

/-- The echo of the LOOP that is out sends half the round trip to the PX-G. -/
theorem glinkLoop_echo_gch (hc : c < 7) {b : Byte} (rt : Nat) (hfit : s.frameFits c 80 true = true) (hlink : (s.gch c).link = true)
    (htag : (s.gch c).loopTag = some b.toNat) : (glinkLoop c (some b) rt s).gch c =
      { (s.gch c).linked with loopTag := none, config := (s.gch c).config ++ [(.delay (rt / 2), 0)] } := by
  have htag' : ((linkAlive c s).gch c).loopTag = some b.toNat := by
    rw [linkAlive_gch s hc, ← htag]
    exact if_pos hlink
  have heq : glinkLoop c (some b) rt s =
      configSend c (.delay (rt / 2)) ((linkAlive c s).setGch c (fun g => { g with loopTag := none })) := by
    unfold glinkLoop
    rw [if_neg (by rw [hfit]; decide)]
    dsimp only
    exact if_pos htag'
  rw [heq]
  unfold configSend
  rw [State.gch_configPending, State.gch_setGch_same _ _ hc, State.gch_setGch_same _ _ hc, linkAlive_gch s hc]
  rfl

/-! ### A link that falls silent (06 R214) -/

/-- A PX-G whose link has fallen silent. -/
def GdChan.silent (g : GdChan) : GdChan := { g with link := false, present := g.present ||| 2 ^ 5 }

/-- The state when LINK has set. -/
def linkSilent (c : Nat) (s : State) : State := pxgLatch (s.setGch c GdChan.silent) c 5

theorem linkLatch_eq (s : State) (up : Bool) : linkLatch c up s = if up then statusReport (linkSilent c s) c else linkSilent c s := rfl

theorem linkSilent_gch (s : State) (hc : c < 7) : ((linkSilent c s).gch c).link = false ∧ testB ((linkSilent c s).gch c).latch 5 = true ∧
    ((linkSilent c s).gch c).Emptied := by
  obtain ⟨hsame, -⟩ := pxgLatch_gch (s.setGch c GdChan.silent) 5 hc
  obtain ⟨hlatch, -, hempty⟩ := pxgLatch_sets (s.setGch c GdChan.silent) 5 hc
  have hlink := congrArg GdChan.link hsame
  rw [State.gch_setGch_same s _ hc] at hlink
  exact ⟨hlink, hlatch, hempty⟩

theorem linkLatch_gch (s : State) (hc : c < 7) (up : Bool) :
    ((linkLatch c up s).gch c).link = false ∧ testB ((linkLatch c up s).gch c).latch 5 = true ∧ ((linkLatch c up s).gch c).Emptied := by
  rw [linkLatch_eq]
  split
  · rw [statusReport_gch _ hc]
    exact linkSilent_gch s hc
  · exact linkSilent_gch s hc

/-- On the uplink PX-C takes the latch itself. -/
theorem linkLatch_rd (s : State) (hc : c < 7) :
    (linkLatch c true s).rd (latchField c) = ((linkLatch c true s).gch c).latch % 256 := by
  rw [linkLatch_eq, if_pos rfl, (statusReport_rd _ c).1, statusReport_gch _ hc]

end

/-- Settles O22: SYNC with STEP and without, LOCK, LOOP, frames that fail their check, and a silent link. -/
theorem gateLinkClocks : Obligations.GateLinkClocks := by
  unfold Obligations.GateLinkClocks
  intro c s hr
  have hc : c.val < 7 := c.isLt
  refine ⟨fun tm hfit hstep => ?_, fun tm e hfit hstep he => ⟨fun hlo hhi => ?_, fun hbad hlock hcount => ?_⟩, fun tm hfit => ?_,
    fun hgood hlock => ?_, fun b rt hfit hlink htag => ?_, fun rt hfit => ?_, fun up => ?_⟩
  · refine ⟨_, (live_next _ hr).trans (congrArg _ (glinkSync_step (s := s.cleared) hfit hstep)), ?_⟩
    obtain ⟨⟨hon, harmed, hstaged⟩, hunlock, htx, hltb⟩ :=
      syncStep_gch (flight := tm.flight) (syncHeard c.val tm.drift tm.taken s.cleared) hc
    rw [syncHeard_gch s.cleared hc] at htx hltb
    refine ⟨hunlock, harmed, hstaged, hon, htx, hltb, fun h6 => rd_syncStep_gk _ (congrArg Fin.val h6)⟩
  · exact ⟨_, live_next _ hr, glinkSync_good (s := s.cleared) hc hfit hstep he hlo hhi⟩
  · refine ⟨_, (live_next _ hr).trans (congrArg _ (glinkSync_third (s := s.cleared) hc hfit hstep he hbad hlock hcount)), ?_⟩
    obtain ⟨hlatch, -, hon, harmed, -⟩ :=
      pxgLatch_sets (syncCounted c.val tm.flight (syncHeard c.val tm.drift tm.taken s.cleared)) 6 hc
    exact ⟨hlatch, hon, harmed⟩
  · refine ⟨_, (live_next _ hr).trans (congrArg _ (glinkSync_lost (s := s.cleared) hfit)), ?_⟩
    rw [State.gch_inc, syncCame_gch s.cleared hc]
    exact ⟨rfl, rfl, State.linkErr_counted _ _⟩
  · refine ⟨_, (live_next _ hr).trans (congrArg _ (lockIfDue_due (s := s.cleared) hgood hlock)), ?_, fun h6 => ?_⟩
    · rw [gkPermit_gch, State.gch_setGch_same _ _ hc]
    · have hgk : 6 = c.val := (congrArg Fin.val h6).symm
      rw [rd_gkPermit, State.gch_setGch _ _ _ (by decide), if_pos hgk]
      rfl
  · refine ⟨_, live_next _ hr, ?_⟩
    rw [glinkLoop_echo_gch (s := s.cleared) hc rt hfit hlink htag]
    exact ⟨rfl, rfl⟩
  · exact ⟨_, (live_next _ hr).trans (congrArg _ (glinkLoop_lost rt (s := s.cleared) hfit)), rfl, s.cleared.linkErr_counted c.val⟩
  · obtain ⟨hlink, hlatch, hon, harmed, -⟩ := linkLatch_gch s.cleared hc up
    refine ⟨_, live_next _ hr, hlink, hlatch, hon, harmed, fun hup => ?_⟩
    subst hup
    exact linkLatch_rd _ hc

end Sys2Proof.Machine
end

section
/-! O23. STAGE, COMMIT and what they arm (06 R214, R219, R220, R226, R238), and the edges that act (R225). -/

namespace Sys2Proof.Machine

/-! ### Turn-offs and late edges (06 R225, 03 R134) -/

section
variable {c : Nat}

/-- A dropped turn-on leaves its channel waiting for nothing, and the rest of its pulse dropped. -/
theorem dropTurnOn_gch (s : State) (delay : Nat) (hc : c < 7) : ∃ tel,
    (dropTurnOn c delay s).gch c = { s.gch c with tel := tel, waitOn := none, ascWait := false, dropPulse := true } := by
  unfold dropTurnOn
  dsimp only
  rw [State.gch_inc, State.gch_setGch_same _ _ hc, telRecord_gch _ _ _ _ hc]
  exact ⟨_, rfl⟩

/-- The channel after a turn-off edge: off, waiting for nothing and with no pulse dropped. -/
def GdChan.edgeOff (g : GdChan) : GdChan := { g.turnOff with waitOn := none, ascWait := false, dropPulse := false }

theorem turnOffActs_gch (s : State) (hc : c < 7) : ∃ tel, (turnOffActs c s).gch c = { (s.gch c).edgeOff with tel := tel } := by
  unfold turnOffActs
  dsimp only
  rw [State.gch_setGch_same _ _ hc]
  split
  · split
    · exact ⟨_, rfl⟩
    next t _ _ =>
      obtain ⟨tel, h⟩ := dropTurnOn_gch s (s.time.tb - t) hc
      exact ⟨tel, by rw [h]; rfl⟩
  · exact ⟨_, rfl⟩

theorem countLate_gch (cseq : Nat) (s : State) (k : Nat) : (countLate cseq s).gch k = s.gch k :=
  State.gch_of_gd ((countLate_sound (ms := 0x4000) rfl cseq s (sound_refl _ s)).same .gd rfl) k

theorem edgeLateIfDue_gch (s : State) (k : Nat) : (edgeLateIfDue s).gch k = s.gch k :=
  State.gch_of_gd ((edgeLateIfDue_sound (ms := 0x4000) rfl s (sound_refl _ s)).same .gd rfl) k

/-- Two channels with the same blocks, verdicts and edges that have acted. -/
def GdChan.SameBlocks (g h : GdChan) : Prop :=
  g.armed = h.armed ∧ g.staged = h.staged ∧ g.commitTx = h.commitTx

theorem GdChan.SameBlocks.trans {g h i : GdChan} : g.SameBlocks h → h.SameBlocks i → g.SameBlocks i
  | ⟨ha, hs, hc⟩, ⟨ha', hs', hc'⟩ => ⟨ha.trans ha', hs.trans hs', hc.trans hc'⟩

theorem telRecord_blocks (s : State) (kind cseq : Nat) (data : List Byte) (hc : c < 7) :
    ((s.telRecord c kind cseq data).gch c).SameBlocks (s.gch c) := by
  rw [telRecord_gch _ _ _ _ hc]
  exact ⟨rfl, rfl, rfl⟩

theorem turnOffActs_blocks (s : State) (hc : c < 7) : ((turnOffActs c s).gch c).SameBlocks (s.gch c) := by
  obtain ⟨tel, h⟩ := turnOffActs_gch s hc
  rw [h]
  exact ⟨rfl, rfl, rfl⟩

/-- A late edge leaves the blocks of its channel. -/
theorem lateEdge_blocks (b : EdgeBlock) (i : Nat) (w : Word) (s : State) (hc : c < 7) :
    ((lateEdge c b i w s).gch c).SameBlocks (s.gch c) := by
  unfold lateEdge
  dsimp only
  rw [countLate_gch]
  split
  · exact telRecord_blocks s _ _ _ hc
  · exact (turnOffActs_blocks _ hc).trans (telRecord_blocks s _ _ _ hc)

theorem armEdges_blocks (b : EdgeBlock) (s : State) (i : Nat) (ws : List Word) (hc : c < 7) :
    ((armEdges c b s i ws).2.gch c).SameBlocks (s.gch c) := by
  induction ws generalizing s i with
  | nil => exact ⟨rfl, rfl, rfl⟩
  | cons w ws ih =>
    refine GdChan.SameBlocks.trans (ih _ _) ?_
    split
    · exact lateEdge_blocks b i w s hc
    · exact ⟨rfl, rfl, rfl⟩

/-! ### A block that is armed (06 R219, R220) -/

/-- A block that is armed joins the armed ones and is the one armed last. -/
theorem armBlock_gch (b : EdgeBlock) (s : State) (hc : c < 7) : ((armBlock c b s).gch c).lastArmed = some b ∧
    ((armBlock c b s).gch c).armed.length = (s.gch c).armed.length + 1 ∧
    ((armBlock c b s).gch c).staged = (s.gch c).staged ∧ ((armBlock c b s).gch c).commitTx = (s.gch c).commitTx := by
  obtain ⟨harmed, hstaged, hcommit⟩ := armEdges_blocks b s 0 b.edges hc
  unfold armBlock
  dsimp only
  rw [edgeLateIfDue_gch, State.gch_setGch_same _ _ hc]
  refine ⟨rfl, ?_, hstaged, hcommit⟩
  rw [List.length_append, harmed]
  rfl

theorem armBlock_time (b : EdgeBlock) (s : State) : (armBlock c b s).time = s.time := by
  have hedges : (armEdges c b s 0 b.edges).2.time = s.time :=
    (armEdges_sound (ms := 0x20) rfl c b s 0 b.edges (sound_refl _ s)).same .time rfl
  unfold armBlock
  exact ((edgeLateIfDue_sound (ms := 0x20) rfl _ (sound_refl _ _)).same .time rfl).trans hedges

/-! ### STAGE and COMMIT -/

variable {s : State}

theorem stageArrives_held {b : EdgeBlock} (hc : c < 7) (hen : (s.gch c).en = true) (hlatch : (s.gch c).latch = 0)
    (hstage : (s.gch c).stageTx = some b) : (stageArrives c true s).gch c = { s.gch c with stageTx := none, staged := some b } := by
  have htaken := State.gch_setGch_same s (fun g => { g with stageTx := none }) hc
  have hholds : ((s.setGch c (fun g => { g with stageTx := none })).gch c).en = true ∧
      ((s.setGch c (fun g => { g with stageTx := none })).gch c).latch = 0 := by
    rw [htaken]
    exact ⟨hen, hlatch⟩
  unfold stageArrives
  rw [hstage]
  dsimp only
  rw [if_neg (by decide), if_pos hholds, State.gch_setGch_same _ _ hc, htaken]

theorem stageArrives_lost {b : EdgeBlock} (hstage : (s.gch c).stageTx = some b) :
    stageArrives c false s = (s.setGch c (fun g => { g with stageTx := none })).inc (R.GD_CHc_LINKERR c) := by
  unfold stageArrives
  rw [hstage]
  rfl

/-- The state when a COMMIT has come in, 96 cyc after the verdict (06 R219, R226). -/
def commitCame (c : Nat) (s : State) : State :=
  { s with time.tb := max s.time.tb (min ((s.gd.commitAt).getD 0 + 96) (s.time.tbLast + s.period - 1)) }.setGch c
    (fun g => { g with commitTx := none })

theorem commitCame_gch (s : State) (hc : c < 7) : (commitCame c s).gch c = { s.gch c with commitTx := none } :=
  State.gch_setGch_same _ _ hc

variable {v : Verdict} {cseq : Nat}

/-- A COMMIT that follows its STAGE on the lane is judged. -/
theorem commitArrives_eq (ok : Bool) (hstage : (s.gch c).stageTx = none) (hcommit : (s.gch c).commitTx = some (v, cseq)) :
    commitArrives c ok s =
      let s := if ok then commitCame c s else (commitCame c s).inc (R.GD_CHc_LINKERR c)
      if ok ∧ v = .rejectShoot then latchRecord (pxgLatch s c 3) c
      else if ok ∧ v = .rejectSched then pxgLatch s c 7
      else if !(s.gch c).en ∨ (s.gch c).latch ≠ 0 then s
      else if ok then commitTake c v cseq s
      else missBlock c cseq s.nextStart s := by
  unfold commitArrives
  rw [hstage, hcommit]
  rfl

/-- An ACCEPT or a REPEAT at a channel that holds blocks is taken. -/
theorem commitArrives_takes (hc : c < 7) (hen : (s.gch c).en = true) (hlatch : (s.gch c).latch = 0)
    (hstage : (s.gch c).stageTx = none) (hcommit : (s.gch c).commitTx = some (v, cseq)) (hshoot : v ≠ .rejectShoot)
    (hsched : v ≠ .rejectSched) : commitArrives c true s = commitTake c v cseq (commitCame c s) := by
  have hholds : ¬((!((commitCame c s).gch c).en) = true ∨ ((commitCame c s).gch c).latch ≠ 0) := by
    rw [commitCame_gch s hc]
    simp [hen, hlatch]
  rw [commitArrives_eq true hstage hcommit]
  dsimp only
  rw [if_pos rfl, if_neg (fun h => hshoot h.2), if_neg (fun h => hsched h.2), if_neg hholds, if_pos rfl]

/-- A COMMIT that fails its check, at a channel that holds blocks, arms the missed block (06 R214, R220). -/
theorem commitArrives_misses (hc : c < 7) (hen : (s.gch c).en = true) (hlatch : (s.gch c).latch = 0)
    (hstage : (s.gch c).stageTx = none) (hcommit : (s.gch c).commitTx = some (v, cseq)) : commitArrives c false s =
      missBlock c cseq ((commitCame c s).inc (R.GD_CHc_LINKERR c)).nextStart ((commitCame c s).inc (R.GD_CHc_LINKERR c)) := by
  have hholds : ¬((!(((commitCame c s).inc (R.GD_CHc_LINKERR c)).gch c).en) = true ∨
      (((commitCame c s).inc (R.GD_CHc_LINKERR c)).gch c).latch ≠ 0) := by
    rw [State.gch_inc, commitCame_gch s hc]
    simp [hen, hlatch]
  rw [commitArrives_eq false hstage hcommit]
  dsimp only
  rw [if_neg Bool.false_ne_true, if_neg (fun h => Bool.false_ne_true h.1), if_neg (fun h => Bool.false_ne_true h.1), if_neg hholds,
    if_neg Bool.false_ne_true]

theorem commitArrives_shoot (hstage : (s.gch c).stageTx = none) (hcommit : (s.gch c).commitTx = some (.rejectShoot, cseq)) :
    commitArrives c true s = latchRecord (pxgLatch (commitCame c s) c 3) c := by
  rw [commitArrives_eq true hstage hcommit]
  dsimp only
  rw [if_pos rfl, if_pos ⟨rfl, rfl⟩]

theorem commitArrives_sched (hstage : (s.gch c).stageTx = none) (hcommit : (s.gch c).commitTx = some (.rejectSched, cseq)) :
    commitArrives c true s = pxgLatch (commitCame c s) c 7 := by
  rw [commitArrives_eq true hstage hcommit]
  dsimp only
  rw [if_pos rfl, if_neg (fun h => nomatch h.2), if_pos ⟨rfl, rfl⟩]

/-- An ACCEPT of the staged block arms it (06 R219). -/
theorem commitTake_accept {b : EdgeBlock} (hstaged : (s.gch c).staged = some b) (hseq : b.cseq % 256 = cseq % 256) :
    commitTake c .accept cseq s = armBlock c b (s.setGch c (fun g => { g with staged := none })) := by
  unfold commitTake
  rw [hstaged]
  exact if_pos hseq

/-- A REPEAT arms the last block again one carrier later (06 R220). -/
theorem commitTake_rearm {b : EdgeBlock} (hlast : (s.gch c).lastArmed = some b) :
    commitTake c .rearm cseq s = armBlock c { b with cstart := b.cstart + (s.gch c).tc, cseq := cseq } s := by
  unfold commitTake
  rw [hlast]

theorem missBlock_gch (s : State) (start : Nat) (hc : c < 7) : (missBlock c cseq start s).gch c =
    { s.gch c with
      staged := none, armed := (s.gch c).armed ++ [{ cseq := cseq, cstart := start, edges := [edgeWord false 0], miss := true }] } :=
  State.gch_setGch_same s _ hc

end

/-- Settles O23: STAGE is held, and COMMIT arms, arms again, misses or rejects. -/
theorem stagingAndArming : Obligations.StagingAndArming := by
  unfold Obligations.StagingAndArming
  intro c s hr
  have hc : c.val < 7 := c.isLt
  refine ⟨fun b hen hlatch hstage => ?_, fun b hstage => ?_, fun cseq b hen hlatch hstage hcommit hstaged hseq => ?_,
    fun cseq b hen hlatch hstage hcommit hlast => ?_, fun v cseq hen hlatch hstage hcommit => ?_, fun cseq hstage hcommit => ?_,
    fun cseq hstage hcommit => ?_⟩
  · refine ⟨_, live_next _ hr, ?_⟩
    rw [stageArrives_held (s := s.cleared) hc hen hlatch hstage]
    exact ⟨rfl, rfl⟩
  · refine ⟨_, (live_next _ hr).trans (congrArg _ (stageArrives_lost (s := s.cleared) hstage)), ?_⟩
    rw [State.gch_inc, State.gch_setGch_same _ _ hc]
    exact ⟨rfl, rfl, State.linkErr_counted _ _⟩
  · have hstaged' : ((commitCame c.val s.cleared).gch c.val).staged = some b := by
      rw [commitCame_gch _ hc]
      exact hstaged
    have heq := (commitArrives_takes (s := s.cleared) hc hen hlatch hstage hcommit (by decide) (by decide)).trans
      (commitTake_accept hstaged' hseq)
    refine ⟨_, (live_next _ hr).trans (congrArg _ heq), ?_⟩
    obtain ⟨hlast, hlen, hnone, htx⟩ := armBlock_gch b ((commitCame c.val s.cleared).setGch c.val (fun g => { g with staged := none })) hc
    rw [State.gch_setGch_same _ _ hc] at hlen hnone htx
    rw [commitCame_gch _ hc] at hlen htx
    exact ⟨hnone, hlast, hlen, htx, congrArg TimeState.tb (armBlock_time _ _)⟩
  · have hlast' : ((commitCame c.val s.cleared).gch c.val).lastArmed = some b := by
      rw [commitCame_gch _ hc]
      exact hlast
    have heq := (commitArrives_takes (s := s.cleared) hc hen hlatch hstage hcommit (by decide) (by decide)).trans
      (commitTake_rearm hlast')
    refine ⟨_, (live_next _ hr).trans (congrArg _ heq), ?_⟩
    rw [commitCame_gch _ hc]
    obtain ⟨hlast, hlen, -, -⟩ := armBlock_gch { b with cstart := b.cstart + (s.gch c.val).tc, cseq := cseq } (commitCame c.val s.cleared) hc
    rw [commitCame_gch _ hc] at hlen
    exact ⟨hlast, hlen⟩
  · refine ⟨_, (live_next _ hr).trans (congrArg _ (commitArrives_misses (s := s.cleared) hc hen hlatch hstage hcommit)), ?_⟩
    rw [missBlock_gch _ _ hc, State.gch_inc, commitCame_gch _ hc]
    exact ⟨rfl, State.linkErr_counted _ _, rfl⟩
  · refine ⟨_, (live_next _ hr).trans (congrArg _ (commitArrives_shoot (s := s.cleared) hstage hcommit)), ?_⟩
    obtain ⟨tel, hrecord⟩ := latchRecord_gch (pxgLatch (commitCame c.val s.cleared) c.val 3) hc
    obtain ⟨hlatch, -, -, harmed, hstaged⟩ := pxgLatch_sets (commitCame c.val s.cleared) 3 hc
    rw [hrecord]
    exact ⟨hlatch, harmed, hstaged⟩
  · refine ⟨_, (live_next _ hr).trans (congrArg _ (commitArrives_sched (s := s.cleared) hstage hcommit)), ?_⟩
    obtain ⟨hlatch, -, -, harmed, hstaged⟩ := pxgLatch_sets (commitCame c.val s.cleared) 7 hc
    exact ⟨hlatch, harmed, hstaged⟩

end Sys2Proof.Machine
end

section
/-! O24. STATUS, PERIODIC, TEL and DIAGRES at PX-C (06 R213, R214, R236, R240, R244). -/

namespace Sys2Proof.Machine

/-! ### Bytes -/

theorem ofBytesLE_lt (bs : List Byte) : ofBytesLE bs < 256 ^ bs.length := by
  induction bs with
  | nil => exact Nat.one_pos
  | cons b bs ih =>
    have hb : b.toNat < 256 := b.isLt
    rw [List.length_cons, Nat.pow_succ]
    unfold ofBytesLE
    omega

theorem fieldLE_two_lt (bs : List Byte) (off : Nat) : fieldLE bs off 2 < 2 ^ 16 :=
  calc fieldLE bs off 2 < 256 ^ ((bs.drop off).take 2).length := ofBytesLE_lt _
    _ ≤ 256 ^ 2 := Nat.pow_le_pow_right (by decide) (List.length_take_le 2 _)

theorem padTo_of_length {n : Nat} {bs : List Byte} (h : bs.length = n) : padTo n bs = bs := by
  unfold padTo
  rw [h, Nat.sub_self, List.take_of_length_le (Nat.le_of_eq h)]
  exact List.append_nil bs

/-! ### A lockout that a STATUS brings (06 R236) -/

section
variable {c : Nat} {s : State}

theorem statusTaken_sub (s : State) (c : Nat) : (statusTaken s c).sub = s.sub := by
  unfold State.sub
  rw [statusTaken_rd _ _ (by simp only [Fld.GdMisses]; omega) (by decide)]
  unfold latchesTaken
  rw [State.rd_wrBit_gd _ (by decide), State.rd_wr_gd _ (by simp only [Fld.GdMisses]; omega), State.rd_wrBit_gd _ (by decide),
    State.rd_wr_gd _ (by simp only [Fld.GdMisses]; omega), State.rd_setGch]

/-- A STATUS with a lockout that is new sends OFFCMD to the leg partner. -/
theorem statusReport_partner (hc : c < 6) (hnew : (s.gch c).news &&& 3 ≠ 0) (hasc : ¬(s.sub = 3 ∧ c % 2 = 0)) :
    ((statusReport s c).gch (partner c)).offTx = some ((s.gch (partner c)).offTx == some true) := by
  obtain ⟨hp, hne⟩ := partner_phase hc
  have htaken : (statusTaken s c).gch (partner c) = s.gch (partner c) :=
    (statusTaken_gch s c _).trans (State.gch_setGch_other _ _ (by omega) hne)
  have hsend : lockoutPartner c (statusTaken s c) = sendOff false (statusTaken s c) (partner c) := by
    unfold lockoutPartner
    rw [statusTaken_sub, if_pos ⟨hc, hasc⟩]
  rw [statusReport_eq, State.gch_of_gd (latchCauses_gd _ _ _), if_neg hnew, hsend, offTx_sendOff _ _ (by omega), if_pos rfl, htaken]

theorem statusArrives_lost (s : State) (c : Nat) : statusArrives c false s = s.inc (R.GD_CHc_LINKERR c) := by
  unfold statusArrives
  exact if_neg Bool.false_ne_true

theorem statusArrives_taken (s : State) (c : Nat) : statusArrives c true s = statusReport s c := by
  unfold statusArrives
  exact if_pos rfl

/-! ### PERIODIC (06 R244) -/

theorem periodicRecord_due (pos neg temp : BitVec 16) (hdue : ∀ t0, (s.gch c).telAt = some t0 → t0 + s.telPeriod c ≤ s.time.tb) :
    periodicRecord c pos neg temp s = (s.setGch c (fun g => { g with telAt := some s.time.tb })).telRecord c 1 0
      (bytesLE 2 pos.toNat ++ bytesLE 2 neg.toNat ++ bytesLE 2 temp.toNat ++ bytesLE 2 (wrapTo 16 (s.gch c).ltbErr)) := by
  unfold periodicRecord
  dsimp only
  cases h : (s.gch c).telAt with
  | none => exact if_neg (by simp)
  | some t0 => exact if_neg (by simpa using hdue t0 h)

/-! ### TEL (06 R244) -/

/-- The state when the oldest record has come in. -/
def telTaken (c : Nat) (rest : List (Nat × Nat × List Byte)) (s : State) : State := s.setGch c (fun g => { g with tel := rest })

theorem telTaken_gch (s : State) (rest : List (Nat × Nat × List Byte)) (hc : c < 7) :
    (telTaken c rest s).gch c = { s.gch c with tel := rest } := State.gch_setGch_same _ _ hc

variable {kind cseq : Nat} {data : List Byte} {rest : List (Nat × Nat × List Byte)}

theorem telArrives_lost (hq : (s.gch c).tel = (kind, cseq, data) :: rest) :
    telArrives c false s = (telTaken c rest s).inc (R.GD_CHc_LINKERR c) := by
  unfold telArrives
  rw [hq]
  rfl

/-- The item of a record in its queue: KIND, the channel, the extended CSEQ, TICKNO and DATA. -/
def telItem (c kind seq : Nat) (data : List Byte) (s : State) : List Byte :=
  bytesLE 1 kind ++ bytesLE 1 c ++ bytesLE 2 seq ++ bytesLE 4 s.tickno ++ data

theorem telArrives_record (hq : (s.gch c).tel = (kind, cseq, data) :: rest) (hkind : kind ≠ 1) :
    telArrives c true s = (telTaken c rest s).qPush (42 + c)
      (telItem c kind (extendCseq cseq (s.rd R.PW_CSEQ % 2 ^ 16)) data (telTaken c rest s)) := by
  unfold telArrives
  rw [hq]
  dsimp only
  rw [if_neg (by decide), if_neg hkind, if_neg hkind]
  rfl

/-- A PERIODIC record renews the die temperature as PX-C has it, and the rails. -/
theorem telArrives_periodic (hq : (s.gch c).tel = (1, cseq, data) :: rest) :
    ∃ u : State, u.gd = (telTaken c rest s).gd ∧
      telArrives c true s = (u.wr (R.GD_CHc_RAIL_POS c) (fieldLE data 0 2)).wr (R.GD_CHc_RAIL_NEG c) (fieldLE data 2 2) := by
  unfold telArrives
  rw [hq]
  dsimp only
  rw [if_neg (by decide), if_pos rfl, if_pos rfl]
  refine ⟨_, ?_, rfl⟩
  exact State.qPush_gd _ _ _

/-! ### DIAGRES (06 R213, R240) -/

variable {d : GdDiag}

theorem diagResult_answered (mv : Nat) (hd : s.gd.diag = some d) (hreads : c = diagSense d.step) :
    (diagResult c mv .answered s).gd.diag = some { d with reading := some mv } := by
  unfold diagResult
  rw [if_pos rfl]
  dsimp only
  rw [hd]
  dsimp only
  rw [if_pos (decide_eq_true hreads)]

theorem diagResult_lost (mv : Nat) (hd : s.gd.diag = some d) (hreads : c = diagSense d.step) :
    (diagResult c mv .answerLost s).gd.diag = some { d with lost := true } ∧
    (diagResult c mv .answerLost s).rd (R.GD_CHc_LINKERR c) = min (s.rd (R.GD_CHc_LINKERR c) + 1) (2 ^ 32 - 1) := by
  have hd' : (s.inc (R.GD_CHc_LINKERR c)).gd.diag = some d := hd
  unfold diagResult
  rw [if_neg (by decide)]
  dsimp only
  rw [hd']
  dsimp only
  rw [if_pos (decide_eq_true hreads), if_pos ⟨decide_eq_true hreads, by decide⟩]
  exact ⟨rfl, s.linkErr_counted c⟩

end

/-- Settles O24: STATUS, PERIODIC, TEL and DIAGRES, whole and lost. -/
theorem uplinkRecords : Obligations.UplinkRecords := by
  unfold Obligations.UplinkRecords
  intro c s hr
  have hc : c.val < 7 := c.isLt
  refine ⟨?_, fun hphase hnew hasc => ?_, ?_, fun pos neg temp hdue => ?_, fun kind cseq data rest hq hkind hcredit => ?_,
    fun cseq data rest hq => ?_, fun r rest hq => ?_, fun d mv hd hreads => ⟨?_, ?_⟩⟩
  · refine ⟨_, (live_next _ hr).trans (congrArg _ (statusArrives_taken s.cleared c.val)), ?_⟩
    obtain ⟨hlatch, hlock⟩ := statusReport_rd s.cleared c.val
    rw [statusReport_gch s.cleared hc]
    exact ⟨hlatch, hlock, rfl⟩
  · exact ⟨_, (live_next _ hr).trans (congrArg _ (statusArrives_taken s.cleared c.val)),
      statusReport_partner (s := s.cleared) hphase hnew hasc⟩
  · refine ⟨_, (live_next _ hr).trans (congrArg _ (statusArrives_lost s.cleared c.val)), ?_, s.cleared.linkErr_counted c.val⟩
    exact s.cleared.rd_inc_gd (by simp only [Fld.GdMisses]; omega)
  · refine ⟨_, (live_next _ hr).trans (congrArg _ (periodicRecord_due (s := s.cleared) pos neg temp hdue)), ?_⟩
    rw [telRecord_gch _ _ _ _ hc, State.gch_setGch_same _ _ hc, padTo_of_length (by simp only [List.length_append, bytesLE_length])]
    rfl
  · refine ⟨_, (live_next _ hr).trans (congrArg _ (telArrives_record (s := s.cleared) hq hkind)), ?_, ?_⟩
    · rw [State.gch_of_gd (State.qPush_gd _ _ _), telTaken_gch _ _ hc]
    · exact (qPush_credit (s := telTaken c.val rest s.cleared) hcredit _).1
  · obtain ⟨u, hgd, heq⟩ := telArrives_periodic (s := s.cleared) hq
    refine ⟨_, (live_next _ hr).trans (congrArg _ heq), ?_, ?_, ?_⟩
    · rw [State.gch_wr, State.gch_wr, State.gch_of_gd hgd, telTaken_gch _ _ hc]
    · rw [State.rd_wr_gd _ (by simp only [Fld.GdMisses]; omega), State.rd_wr_same _ (by simp only [Fld.Ok]; omega)]
      exact Nat.mod_eq_of_lt (fieldLE_two_lt _ _)
    · rw [State.rd_wr_same _ (by simp only [Fld.Ok]; omega)]
      exact Nat.mod_eq_of_lt (fieldLE_two_lt _ _)
  · obtain ⟨kind, cseq, data⟩ := r
    refine ⟨_, (live_next _ hr).trans (congrArg _ (telArrives_lost (s := s.cleared) hq)), ?_, rfl, State.linkErr_counted _ _⟩
    rw [State.gch_inc, telTaken_gch _ _ hc]
  · exact ⟨_, live_next _ hr, diagResult_answered (s := s.cleared) mv hd hreads⟩
  · exact ⟨_, live_next _ hr, diagResult_lost (s := s.cleared) mv hd hreads⟩

end Sys2Proof.Machine
end

section
/-! O25. ONCMD and VGEON at PX-C, PERMIT, and the edges that act (06 R216, R220, R224, R225). -/

namespace Sys2Proof.Machine

section
variable {c : Nat} {s : State}

/-! ### The levels at PX-C (06 R216, R224) -/

theorem rd_permitDrop {k : Nat} {g : Fld} (hg : (R.GD_CHc_STAT_PERMIT k).GdMisses g) (s : State) : (permitDrop k s).rd g = s.rd g := by
  unfold permitDrop
  split
  · rfl
  · exact (State.rd_setGch _ _ _ _).trans (State.rd_wr_gd _ hg _)

/-- A PERMIT that PX-C may drop is low afterwards. -/
theorem rd_permitDrop_same {k : Nat} (hoff : s.offDue k s.time.tb = false) : (permitDrop k s).rd (R.GD_CHc_STAT_PERMIT k) = 0 := by
  unfold permitDrop
  cases hon : s.on (R.GD_CHc_STAT_PERMIT k) with
  | false =>
    rw [if_pos (Or.inl Bool.not_false), State.rd_eq_b2n_on s rfl, hon]
    rfl
  | true =>
    rw [hoff, if_neg (by decide)]
    exact (State.rd_setGch _ _ _ _).trans (State.rd_wr_same s (by simp only [Fld.Ok]; omega) 0)

/-- The level of ONCMD or VGEON at PX-C is the one that reached it. -/
theorem rd_gateLevel {f : Fld} (hbit : f.msb = f.lsb ∧ f.msb < 32) (hf : (R.GD_CHc_STAT_PERMIT (partner c)).GdMisses f) (level isCmd : Bool)
    (s : State) : (gateLevel c f level isCmd s).rd f = b2n level := by
  have hwidth : f.width = 1 := by unfold Fld.width; omega
  have hwr : (s.wr f (b2n level)).rd f = b2n level := by
    rw [State.rd_eq_b2n_on _ hwidth, State.on_wr_same s hbit.1 hbit.2]
  unfold gateLevel
  split
  next hsame => exact hsame
  next =>
    dsimp only
    split
    · split
      · exact (rd_permitDrop hf _).trans hwr
      · exact hwr
    · split
      · split <;> exact hwr
      · split <;> exact hwr

/-- A rise of a level that was low drops the partner's PERMIT, unless an OFFCMD to it falls in the same cycle. -/
theorem rd_gateLevel_partner {f : Fld} (hc : c < 6) (hlow : s.rd f = 0) (isCmd : Bool) (hoff : s.offDue (partner c) s.time.tb = false) :
    (gateLevel c f true isCmd s).rd (R.GD_CHc_STAT_PERMIT (partner c)) = 0 := by
  unfold gateLevel
  rw [if_neg (by rw [hlow]; decide)]
  dsimp only
  rw [if_pos rfl, if_pos hc]
  exact rd_permitDrop_same hoff

/-- VGEON that rises drops the partner's PERMIT. -/
theorem rd_vgeon_partner (hc : c < 6) (hlow : s.rd (R.GD_CHc_STAT_VGEON c) = 0) (hoff : s.offDue (partner c) s.time.tb = false) :
    (vgeon c true s).rd (R.GD_CHc_STAT_PERMIT (partner c)) = 0 := by
  obtain ⟨hp, hne⟩ := partner_phase hc
  unfold vgeon
  refine rd_gateLevel_partner hc ((State.rd_setGch _ _ _ _).trans hlow) _ ?_
  unfold State.offDue
  rw [State.gch_setGch_other _ _ (by omega) hne]
  exact hoff

/-! ### PERMIT reaches its PX-G (06 R216, R225) -/

theorem rd_dropTurnOn {g : Fld} (hg : (R.GD_CHc_CNT_DROPPED c).GdMisses g) (delay : Nat) (s : State) :
    (dropTurnOn c delay s).rd g = s.rd g :=
  State.rd_inc_gd _ hg

theorem rd_permitReaches {g : Fld} (hdrop : (R.GD_CHc_CNT_DROPPED c).GdMisses g) (hdelay : (R.GD_CHc_CNT_DELAYED c).GdMisses g)
    (s : State) : (permitReaches c s).rd g = s.rd g := by
  unfold permitReaches
  split
  · rfl
  next t _ =>
    dsimp only
    split
    · rfl
    · unfold delayedOn
      dsimp only
      split
      · exact (rd_dropTurnOn hdrop _ _).trans rfl
      · exact (State.rd_inc_gd _ hdelay).trans rfl

/-- PERMIT is high once it has been raised, or was high already (06 R224). -/
theorem permitRaise_on (hc : c < 6) (hcmd : s.on (R.GD_CHc_STAT_ONCMD (partner c)) = false)
    (hvge : s.on (R.GD_CHc_STAT_VGEON (partner c)) = false) (htick : permitDue c s + 40 < s.time.tbLast + s.period)
    (hoff : s.offDue c (max s.time.tb (permitDue c s)) = false) : (permitRaise c s).on (R.GD_CHc_STAT_PERMIT c) = true := by
  have hkeep : ∀ u : State, u.on (R.GD_CHc_STAT_PERMIT c) = true → (permitReaches c u).on (R.GD_CHc_STAT_PERMIT c) = true := fun u hu =>
    (State.on_congr (rd_permitReaches (by simp only [Fld.GdMisses]; omega) (by simp only [Fld.GdMisses]; omega) u)).trans hu
  unfold permitRaise
  dsimp only
  rw [if_neg (by omega), if_neg (by omega)]
  split
  next hon => exact hkeep s hon
  next =>
    rw [hcmd, hvge, hoff, if_neg (by decide)]
    refine hkeep _ ((State.on_congr (State.rd_setGch _ _ _ _)).trans ?_)
    exact State.on_wr_same _ rfl (show 12 < 32 by decide) true

theorem permitRaise_gk (s : State) : permitRaise 6 s = gkPermit s := by
  unfold permitRaise
  dsimp only
  rw [if_pos rfl]

/-! ### An armed edge acts (06 R220, R225) -/

theorem missReport_gch (s : State) (cseq : Nat) (hc : c < 7) : ∃ tel, (missReport c cseq s).gch c = { s.gch c with tel := tel } := by
  unfold missReport
  rw [edgeLateIfDue_gch, countLate_gch]
  exact ⟨_, telRecord_gch s _ _ _ hc⟩

/-- A turn-off edge turns its channel off. -/
theorem edgeActs_off (b : EdgeBlock) (idx : Nat) {w : Word} (hw : edgeLevel w = false) (s : State) (hc : c < 7) :
    ∃ tel, (edgeActs c b idx w s).gch c = { (s.gch c).edgeOff with tel := tel } := by
  obtain ⟨tel, hoff⟩ := turnOffActs_gch s hc
  unfold edgeActs
  rw [hw, if_neg Bool.false_ne_true]
  dsimp only
  split
  · obtain ⟨tel', hmiss⟩ := missReport_gch (turnOffActs c s) b.cseq hc
    exact ⟨tel', by rw [hmiss, hoff]⟩
  · exact ⟨tel, hoff⟩

/-- A turn-on edge of a channel that may turn on, with PERMIT high at the PX-G, acts at once. -/
theorem edgeActs_on (b : EdgeBlock) (idx : Nat) {w : Word} (hw : edgeLevel w = true) (hlock : (s.gch c).lock = true)
    (hdrop : (s.gch c).dropPulse = false) (hlatch : (s.gch c).latch = 0) (hen : (s.gch c).en = true) (hpermit : permitted c s = true) :
    edgeActs c b idx w s = turnOn c s := by
  unfold edgeActs
  rw [hw, if_pos rfl]
  dsimp only
  rw [hlock, hdrop, hlatch, hen, if_neg (by decide), if_pos hpermit]

/-- PERMIT is high at the PX-G where PX-C raised it, and has not dropped it, 40 cyc before (06 R216). -/
theorem permitted_raised (hc : c ≠ 6) (hon : s.on (R.GD_CHc_STAT_PERMIT c) = true) (hdown : (s.gch c).permitDown ≤ (s.gch c).permitUp)
    (hup : (s.gch c).permitUp + 40 ≤ s.time.tb) : permitted c s = true := by
  have hat : permitAt c (s.time.tb - 40) s = true := by
    unfold permitAt
    dsimp only
    rw [if_pos (by omega)]
    exact hon
  unfold permitted
  rw [if_neg hc, hat, Bool.and_true]
  exact decide_eq_true (by omega)

/-- The state in which the next armed edge acts: TB at its instant, the edge counted as acted. -/
def edgeDue (c : Nat) (b : EdgeBlock) (w : Word) (s : State) : State :=
  { s with time.tb := max s.time.tb (s.edgeInstant c b w / 8) }.setGch c (fun g => { g with acted := g.acted + 1 })

theorem edgeDue_gch (b : EdgeBlock) (w : Word) (s : State) (hc : c < 7) :
    (edgeDue c b w s).gch c = { s.gch c with acted := (s.gch c).acted + 1 } := State.gch_setGch_same _ _ hc

/-- The steps that the search for the next edge is given are never none. -/
theorem edgeFuel_pos (l : List EdgeBlock) (n : Nat) : n ≤ l.foldl (fun n b => n + b.edges.length + 1) n := by
  induction l generalizing n with
  | nil => exact Nat.le_refl n
  | cons b l ih => exact Nat.le_trans (show n ≤ n + b.edges.length + 1 by omega) (ih _)

theorem armedEdgeActs_due {b : EdgeBlock} {rest : List EdgeBlock} {w : Word} {ws : List Word} (harmed : (s.gch c).armed = b :: rest)
    (hnext : b.edges.drop (s.gch c).acted = w :: ws) (hvalid : edgeValid w = true)
    (htick : s.edgeInstant c b w / 8 < s.time.tbLast + s.period) :
    armedEdgeActs c s = edgeActs c b (b.index (s.gch c).acted) w (edgeDue c b w s) := by
  obtain ⟨n, hn⟩ := Nat.exists_eq_add_of_le (edgeFuel_pos (s.gch c).armed 1)
  unfold armedEdgeActs
  rw [hn, Nat.add_comm]
  unfold armedEdgeActs.go
  dsimp only
  rw [harmed]
  dsimp only
  rw [hnext]
  dsimp only
  rw [hvalid, if_neg (by decide), if_pos htick]
  rfl

/-! ### A turn-on that waits too long (06 R225) -/

theorem turnOnDropIfDue_late {t0 : Nat} (hwait : (s.gch c).waitOn = some t0) (hasc : (s.gch c).ascWait = false)
    (hlate : s.rd R.GD_DLYMAX < s.time.tb - t0) : turnOnDropIfDue c s = dropTurnOn c (s.time.tb - t0) s := by
  unfold turnOnDropIfDue
  rw [hwait]
  dsimp only
  rw [hasc, if_pos ⟨hlate, rfl⟩]

theorem rd_dropTurnOn_counted (delay : Nat) (s : State) : (dropTurnOn c delay s).rd (R.GD_CHc_CNT_DROPPED c) =
    min (s.rd (R.GD_CHc_CNT_DROPPED c) + 1) 65535 :=
  State.rd_inc_same _ ⟨Nat.zero_le _, show 15 < 32 by decide⟩

end

/-- Settles O25: the levels at PX-C, PERMIT, the armed edges, and a turn-on that waits too long. -/
theorem gateLevelsAndPermits : Obligations.GateLevelsAndPermits := by
  unfold Obligations.GateLevelsAndPermits
  intro c s hr
  have hc : c.val < 7 := c.isLt
  refine ⟨?_, fun level => ?_, fun hphase hlow hoff => ?_, fun hphase hcmd hvge htick hoff => ?_, fun h6 hlock => ?_,
    fun b rest w ws harmed hnext hvalid htick => ⟨fun hw => ?_, fun hw hlock hdrop hlatch hen hpermit => ?_⟩,
    fun t0 hwait hasc hlate => ?_⟩
  · exact ⟨_, live_next _ hr, rd_gateLevel ⟨rfl, show 10 < 32 by decide⟩ (by simp only [Fld.GdMisses]; omega) _ _ _⟩
  · exact ⟨_, live_next _ hr, rd_gateLevel ⟨rfl, show 11 < 32 by decide⟩ (by simp only [Fld.GdMisses]; omega) _ _ _⟩
  · exact ⟨_, live_next _ hr, rd_vgeon_partner (s := s.cleared) hphase hlow hoff⟩
  · exact ⟨_, live_next _ hr, permitRaise_on (s := s.cleared) hphase hcmd hvge htick hoff⟩
  · refine ⟨_, live_next _ hr, ?_⟩
    rw [h6, permitRaise_gk]
    have hrd := rd_gkPermit s.cleared
    rw [State.gch_cleared, hlock] at hrd
    unfold State.on
    rw [hrd]
    rfl
  · refine ⟨_, (live_next _ hr).trans (congrArg _ (armedEdgeActs_due (s := s.cleared) harmed hnext hvalid htick)), ?_⟩
    obtain ⟨tel, hoff⟩ := edgeActs_off b (b.index (s.cleared.gch c.val).acted) hw (edgeDue c.val b w s.cleared) hc
    have htime := (edgeActs_sound (ms := 0x20) rfl c.val b (b.index (s.cleared.gch c.val).acted) w (edgeDue c.val b w s.cleared)
      (sound_refl _ _)).same .time rfl
    rw [hoff, edgeDue_gch _ _ _ hc]
    exact ⟨rfl, rfl, congrArg TimeState.tb htime⟩
  · have hgch := edgeDue_gch b w s.cleared hc
    have hgate : permitted c.val (edgeDue c.val b w s.cleared) = true := by
      rcases hpermit with h6 | ⟨hon, hdown, hup⟩
      · unfold permitted
        rw [if_pos h6, ← h6, hgch]
        exact hlock
      · by_cases h6 : c.val = 6
        · unfold permitted
          rw [if_pos h6, ← h6, hgch]
          exact hlock
        · refine permitted_raised h6 hon ?_ ?_
          · rw [hgch]
            exact hdown
          · rw [hgch]
            exact Nat.le_trans hup (Nat.le_max_right _ _)
    have heq := (armedEdgeActs_due (s := s.cleared) harmed hnext hvalid htick).trans
      (edgeActs_on b (b.index (s.cleared.gch c.val).acted) hw (by rw [hgch]; exact hlock) (by rw [hgch]; exact hdrop)
        (by rw [hgch]; exact hlatch) (by rw [hgch]; exact hen) hgate)
    refine ⟨_, (live_next _ hr).trans (congrArg _ heq), ?_⟩
    unfold turnOn
    rw [State.gch_setGch_same _ _ hc, hgch]
    exact ⟨rfl, rfl⟩
  · refine ⟨_, (live_next _ hr).trans (congrArg _ (turnOnDropIfDue_late (s := s.cleared) hwait hasc hlate)), ?_⟩
    obtain ⟨tel, hdrop⟩ := dropTurnOn_gch s.cleared (s.cleared.time.tb - t0) hc
    rw [hdrop]
    exact ⟨rfl, rfl, rd_dropTurnOn_counted _ _⟩

end Sys2Proof.Machine
end

section
/-! O26. A shoot-through attempt, DESAT, UVLO and OFFCMD (06 R227, R228, R235–R237). -/

namespace Sys2Proof.Machine

section
variable {c : Nat} {s : State}

/-! ### OFFCMD for a shoot-through attempt (06 R227) -/

theorem sendOff_shoot_same (s : State) {k : Nat} (hk : k < 7) : ((sendOff true s k).gch k).offTx = some true :=
  congrArg GdChan.offTx (State.gch_setGch_same s _ hk)

theorem sendOff_shoot_other (s : State) {k j : Nat} (hj : j < 7) (hne : j ≠ k) : (sendOff true s k).gch j = s.gch j :=
  State.gch_setGch_other s _ hj hne

/-- ONCMD or VGEON high on both channels of a leg sends OFFCMD to both. -/
theorem shootAttempt_both {l : Nat}
    (hhigh : s.on (R.GD_CHc_STAT_ONCMD (2 * l)) = true ∨ s.on (R.GD_CHc_STAT_VGEON (2 * l)) = true)
    (hlow : s.on (R.GD_CHc_STAT_ONCMD (2 * l + 1)) = true ∨ s.on (R.GD_CHc_STAT_VGEON (2 * l + 1)) = true) :
    shootAttempt l s = sendOff true (sendOff true s (2 * l)) (2 * l + 1) := by
  rw [← Bool.or_eq_true] at hhigh hlow
  unfold shootAttempt
  exact if_pos ⟨hhigh, hlow⟩

/-! ### DESAT and UVLO (06 R228, R235, R236) -/

/-- A desaturation latches DESAT, and the gate goes off softly. -/
theorem desat_latches (hc : c < 7) (hen : (R.GD_CHc_CFG1_DSEN c).get (s.gch c).cfg1 = 1) (hon : (s.gch c).on = true)
    (hblank : (s.gch c).onAt + 40 * (R.GD_CHc_CFG1_DSBLANK c).get (s.gch c).cfg1 + 16 ≤ s.time.tb) :
    testB ((desat c s).gch c).latch 2 = true ∧ ((desat c s).gch c).soft = true ∧ ((desat c s).gch c).Emptied := by
  obtain ⟨hlatch, -, hempty⟩ := pxgLatch_sets s 2 hc
  unfold desat
  dsimp only
  rw [if_pos ⟨hen, hon, hblank⟩]
  obtain ⟨tel, hrecord⟩ := latchRecord_gch ((pxgLatch s c 2).setGch c (fun g => { g with
    soft := true, dsHold := true, dsatAt := some (s.time.tb + 28), drvStep := (R.GD_CHc_CFG0_SOFTSTEP c).get g.cfg0 })) hc
  rw [hrecord, State.gch_setGch_same _ _ hc]
  exact ⟨hlatch, rfl, hempty⟩

/-- The latch of a rail: UVLOP or UVLON. -/
abbrev uvloBit (negative : Bool) : Nat := if negative then 1 else 0

theorem uvlo_trips (negative : Bool) (s : State) (hc : c < 7) : testB ((uvlo c negative true s).gch c).latch (uvloBit negative) = true ∧
    testB ((uvlo c negative true s).gch c).news (uvloBit negative) = true ∧ ((uvlo c negative true s).gch c).Emptied := by
  unfold uvlo
  exact pxgLatch_sets _ _ hc

theorem uvlo_releases (negative : Bool) (s : State) (hc : c < 7) :
    (uvlo c negative false s).gch c = { s.gch c with present := (s.gch c).present &&& (255 - 2 ^ uvloBit negative) } := by
  unfold uvlo
  exact State.gch_setGch_same _ _ hc

/-- A cause that is gone is not present. -/
theorem testB_uvlo_gone (x : Nat) (negative : Bool) : testB (x &&& (255 - 2 ^ uvloBit negative)) (uvloBit negative) = false := by
  have hgone : (255 - 2 ^ uvloBit negative).testBit (uvloBit negative) = false := by revert negative; decide
  rw [testB_eq_testBit, Nat.testBit_and, hgone, Bool.and_false]

/-! ### OFFCMD at a PX-G (06 R216, R237) -/

/-- The state when an OFFCMD has latched. -/
def offLatched (c : Nat) (s : State) : State := pxgLatch (s.setGch c (fun g => { g with offTx := none })) c 4

theorem offcmd_eq (s : State) : offcmd c s = if (s.gch c).offTx == some true then pxgLatch (offLatched c s) c 3 else offLatched c s := rfl

theorem offLatched_gch (s : State) (hc : c < 7) : testB ((offLatched c s).gch c).latch 4 = true ∧ ((offLatched c s).gch c).Emptied ∧
    ((offLatched c s).gch c).offTx = none := by
  obtain ⟨hsame, -⟩ := pxgLatch_gch (s.setGch c (fun g => { g with offTx := none })) 4 hc
  obtain ⟨hlatch, -, hempty⟩ := pxgLatch_sets (s.setGch c (fun g => { g with offTx := none })) 4 hc
  have htx := congrArg GdChan.offTx hsame
  rw [State.gch_setGch_same s _ hc] at htx
  exact ⟨hlatch, hempty, htx⟩

/-- OFFCMD latches, and SHOOT_ATTEMPT latches too where the OFFCMD answers one. -/
theorem offcmd_gch (s : State) (hc : c < 7) : testB ((offcmd c s).gch c).latch 4 = true ∧ ((offcmd c s).gch c).Emptied ∧
    ((offcmd c s).gch c).offTx = none ∧ ((s.gch c).offTx = some true → testB ((offcmd c s).gch c).latch 3 = true) := by
  obtain ⟨hlatch, hempty, htx⟩ := offLatched_gch s hc
  rw [offcmd_eq]
  split
  · obtain ⟨hsame, -⟩ := pxgLatch_gch (offLatched c s) 3 hc
    obtain ⟨hshoot, -, hempty'⟩ := pxgLatch_sets (offLatched c s) 3 hc
    have hkeep := (congrArg GdChan.latch hsame :)
    refine ⟨?_, hempty', (congrArg GdChan.offTx hsame :).trans htx, fun _ => hshoot⟩
    rw [hkeep]
    exact testB_or_of_left hlatch _
  next hshoot => exact ⟨hlatch, hempty, htx, fun h => absurd (by rw [h]; rfl) hshoot⟩

end

/-- Settles O26: a shoot-through attempt, DESAT, UVLO and OFFCMD. -/
theorem gateProtection : Obligations.GateProtection := by
  unfold Obligations.GateProtection
  intro s hr
  refine ⟨fun leg hhigh hlow => ?_, fun c hen hon hblank => ?_, fun c negative => ?_, fun c negative => ?_, fun c => ?_⟩
  · have hleg := leg.isLt
    refine ⟨_, (live_next _ hr).trans (congrArg _ (shootAttempt_both (s := s.cleared) hhigh hlow)), ?_,
      sendOff_shoot_same _ (by omega), rfl⟩
    rw [sendOff_shoot_other _ (by omega) (by omega)]
    exact sendOff_shoot_same _ (by omega)
  · obtain ⟨hlatch, hsoft, hoff, harmed, -⟩ := desat_latches (s := s.cleared) c.isLt hen hon hblank
    exact ⟨_, live_next _ hr, hlatch, hoff, hsoft, harmed⟩
  · obtain ⟨hlatch, hnews, hoff, harmed, -⟩ := uvlo_trips negative s.cleared c.isLt
    exact ⟨_, live_next _ hr, hlatch, hoff, harmed, hnews⟩
  · refine ⟨_, live_next _ hr, ?_⟩
    rw [uvlo_releases negative s.cleared c.isLt]
    exact ⟨rfl, testB_uvlo_gone _ _⟩
  · obtain ⟨hlatch, ⟨hoff, harmed, hstaged⟩, htx, hshoot⟩ := offcmd_gch s.cleared c.isLt
    exact ⟨_, live_next _ hr, hlatch, hoff, harmed, hstaged, htx, hshoot⟩

end Sys2Proof.Machine
end

section
/-! O28. GATE_EN falls and rises at a PX-G (06 R220, R237, R239). -/

namespace Sys2Proof.Machine

section
variable {c : Nat} {s : State}

/-- A fall of GATE_EN turns the channel off, empties it and is noted with its time. -/
theorem gateEnLow_gch (hc : c < 7) (hen : (s.gch c).en = true) (hdrive : (s.gch c).drive = false) :
    ((gateEnLow c s).gch c).Emptied ∧ ((gateEnLow c s).gch c).en = false ∧ ((gateEnLow c s).gch c).enFall = s.time.tb := by
  obtain ⟨-, hempty⟩ := pxgDiscard_gch s hc
  unfold gateEnLow
  rw [if_pos ⟨hen, by rw [hdrive]; rfl⟩, State.gch_setGch_same _ _ hc]
  exact ⟨hempty, rfl, rfl⟩

/-- The channel after a rise of GATE_EN at a time: 10 µs after the fall its latches are those whose cause is present (06 R237). -/
def GdChan.enabled (now : Nat) (g : GdChan) : GdChan :=
  { (if g.enFall + 4000 ≤ now then { g with latch := presentCauses g, news := presentCauses g } else g) with en := true }

theorem GdChan.enabled_long {g : GdChan} {now : Nat} (h : g.enFall + 4000 ≤ now) :
    (g.enabled now).latch = presentCauses g ∧ (g.enabled now).news = presentCauses g := by
  unfold GdChan.enabled
  rw [if_pos h]
  exact ⟨rfl, rfl⟩

theorem GdChan.enabled_short {g : GdChan} {now : Nat} (h : now < g.enFall + 4000) : (g.enabled now).latch = g.latch := by
  unfold GdChan.enabled
  rw [if_neg (Nat.not_le.2 h)]

/-- A rise of GATE_EN enables the channel and aborts a diagnostics run. -/
theorem gateEnRise_rises (hc : c < 7) (hen : (s.gch c).en = false) (hdrive : (s.gch c).drive = true) :
    (gateEnRise c s).gch c = (s.gch c).enabled s.time.tb ∧ (gateEnRise c s).gd.diag = none := by
  have hset := State.gch_setGch_same s (GdChan.enabled s.time.tb) hc
  unfold gateEnRise
  rw [if_pos ⟨by rw [hen]; rfl, hdrive⟩]
  dsimp only
  split
  · exact ⟨(State.gch_wr _ _ _ _).trans hset, rfl⟩
  next hdiag => exact ⟨hset, hdiag⟩

end

/-- Settles O28: GATE_EN falls and rises. -/
theorem gateEnableEdges : Obligations.GateEnableEdges := by
  unfold Obligations.GateEnableEdges
  intro c s hr
  refine ⟨fun hen hdrive => ?_, fun hen hdrive => ?_⟩
  · obtain ⟨⟨hoff, harmed, hstaged⟩, hlow, hfall⟩ := gateEnLow_gch (s := s.cleared) c.isLt hen hdrive
    exact ⟨_, live_next _ hr, hlow, hoff, harmed, hstaged, hfall⟩
  · obtain ⟨hgch, hdiag⟩ := gateEnRise_rises (s := s.cleared) c.isLt hen hdrive
    refine ⟨_, live_next _ hr, ?_, hdiag, fun hlong => ?_, fun hshort => ?_⟩
    · rw [hgch]
      rfl
    · rw [hgch]
      exact GdChan.enabled_long hlong
    · rw [hgch]
      exact GdChan.enabled_short hshort

end Sys2Proof.Machine
end

section
/-! O27. BSWARN and the refresh pulse of a leg (06 R213–R215, R232). -/

namespace Sys2Proof.Machine

section
variable {l : Nat} {s : State}

theorem bswarn_gleg (level : Bool) (s : State) (hl : l < 3) : (bswarn l level s).gleg l = { s.gleg l with bswarn := level } :=
  State.gleg_setGleg_same s _ hl

theorem latchesTaken_gleg (s : State) (c k : Nat) : (latchesTaken s c).gleg k = s.gleg k := by
  have hgd : (latchesTaken s c).gd = (s.setGch c (fun g => { g with news := 0 })).gd := by
    unfold latchesTaken
    rw [State.wrBit_gd, State.wr_gd, State.wrBit_gd, State.wr_gd]
  unfold State.gleg
  rw [hgd]
  rfl

/-- The STATUS of a high side brings the bootstrap level of its leg (06 R232). -/
theorem rd_statusReport_bswarn (s : State) (hl : l < 3) :
    (statusReport s (2 * l)).rd (R.GD_CHc_STAT_BSWARN (2 * l)) = b2n (s.gleg l).bswarn := by
  have hword : gdWord (R.GD_CHc_STAT_BSWARN (2 * l)).addr := by simp only; omega
  have hleg : 2 * l / 2 = l := by omega
  rw [rd_statusReport (gdWord_apart hword)]
  unfold statusTaken
  rw [if_pos (by omega)]
  unfold bswarnTaken
  dsimp only
  rw [State.rd_wrBit_gd _ (by simp only [Fld.GdMisses]; omega), State.rd_eq_b2n_on _ rfl, State.on_wr_same _ rfl (show 9 < 32 by decide), hleg,
    latchesTaken_gleg]

/-! ### The pulse goes in (06 R215, R232) -/

/-- A REFRESH frame at a channel: it changes the armed block, or fails its check and counts. -/
def refreshTaken (ok : Bool) (c start : Nat) (es : List Word) (s : State) : State :=
  if ok then refreshEdges c start es s else s.inc (R.GD_CHc_LINKERR c)

/-- A leg whose refresh pulse is in its armed blocks. -/
def GdLeg.pulsed (now : Nat) (b : EdgeBlock) (out : Bool) (g : GdLeg) : GdLeg :=
  { g with frameAt := some now, pulse := some b.cseq, pulseAt := some b.cstart, out := out }

/-- Where the lane is free, both channels of the leg get their REFRESH frames for the first carrier that fits. -/
theorem refreshInsert_fits {b : EdgeBlock} (highOk lowOk : Bool) (hwarn : s.on (R.GD_CHc_STAT_BSWARN (2 * l)) = true)
    (hen : s.on R.GD_REFRESH_EN = true) (hasc : s.sub ≠ 3) (hnone : (s.gleg l).pulse = none)
    (hstage : laneSpan s.gd.stageAt 500 s.time.tb = false) (hcommit : laneSpan s.gd.commitAt 76 s.time.tb = false)
    (hshare : s.commitTick = true → s.time.tb + 200 < s.time.tbLast + (s.taskSlot 3).1 + (s.taskSlot 3).2 ∨
      s.time.tbLast + (s.taskSlot 3).1 + (s.taskSlot 3).2 ≤ s.time.tb)
    (hfind : (s.gch (2 * l)).armed.find? (fun b => refreshFits l b.cstart s) = some b) : ∃ es es' out,
    refreshInsert l highOk lowOk s =
      (refreshTaken lowOk (2 * l + 1) b.cstart es' (refreshTaken highOk (2 * l) b.cstart es s)).setGleg l
        (fun g => g.pulsed (refreshTaken lowOk (2 * l + 1) b.cstart es' (refreshTaken highOk (2 * l) b.cstart es s)).time.tb b out) := by
  have hbusy : (s.commitTick && decide (s.time.tbLast + (s.taskSlot 3).1 + (s.taskSlot 3).2 ≤ s.time.tb + 200 ∧
      s.time.tb < s.time.tbLast + (s.taskSlot 3).1 + (s.taskSlot 3).2)) = false := by
    rw [Bool.and_eq_false_imp]
    exact fun htick => decide_eq_false (by have := hshare htick; omega)
  unfold refreshInsert
  dsimp only
  rw [hstage, hcommit, hbusy, if_neg (by simp [hwarn, hen, hasc, hnone]), hfind]
  exact ⟨_, _, _, rfl⟩

/-- A REFRESH frame leaves the number of its channel's blocks. -/
theorem refreshTaken_length (ok : Bool) {c : Nat} (start : Nat) (es : List Word) (s : State) (hc : c < 7) :
    ((refreshTaken ok c start es s).gch c).armed.length = (s.gch c).armed.length := by
  unfold refreshTaken
  split
  · unfold refreshEdges
    rw [State.gch_setGch_same _ _ hc]
    exact List.length_map _
  · rw [State.gch_inc]

theorem refreshTaken_other (ok : Bool) {c k : Nat} (start : Nat) (es : List Word) (s : State) (hk : k < 7) (hne : k ≠ c) :
    (refreshTaken ok c start es s).gch k = s.gch k := by
  unfold refreshTaken
  split
  · exact State.gch_setGch_other _ _ hk hne
  · rw [State.gch_inc]

theorem refreshTaken_lost (c start : Nat) (es : List Word) (s : State) :
    refreshTaken false c start es s = s.inc (R.GD_CHc_LINKERR c) := if_neg Bool.false_ne_true

theorem rd_refreshTaken_other (ok : Bool) {c k : Nat} (start : Nat) (es : List Word) (s : State) (hc : c < 7) (hk : k < 7) (hne : k ≠ c) :
    (refreshTaken ok c start es s).rd (R.GD_CHc_LINKERR k) = s.rd (R.GD_CHc_LINKERR k) := by
  unfold refreshTaken
  split
  · exact State.rd_setGch _ _ _ _
  · exact State.rd_inc_gd _ (by simp only [Fld.GdMisses]; omega)

/-! ### The pulse completes (06 R232, 03 R136) -/

/-- A leg's pulse counted and recorded. -/
def pulseCounted (l cseq : Nat) (data : List Byte) (s : State) : State :=
  ((s.setGleg l (fun g => { g with pulse := none })).inc R.GD_RFCNT).telRecord (2 * l) 7 cseq data

theorem refreshComplete_eq {cseq : Nat} (hpulse : (s.gleg l).pulse = some cseq) : ∃ data, refreshComplete l s =
    { pulseCounted l cseq data s with
      gd.pulses := (pulseCounted l cseq data s).gd.pulses ++ [(l, ((pulseCounted l cseq data s).gleg l).out, (pulseCounted l cseq data s).tickno)] } := by
  unfold refreshComplete
  rw [hpulse]
  exact ⟨_, rfl⟩

theorem pulseCounted_gleg (cseq : Nat) (data : List Byte) (s : State) (hl : l < 3) :
    (pulseCounted l cseq data s).gleg l = { s.gleg l with pulse := none } := by
  unfold pulseCounted State.telRecord
  rw [State.gleg_setGch, State.gleg_inc, State.gleg_setGleg_same _ _ hl]

theorem rd_pulseCounted (cseq : Nat) (data : List Byte) (s : State) (f : Fld) :
    (pulseCounted l cseq data s).rd f = ((s.setGleg l (fun g => { g with pulse := none })).inc R.GD_RFCNT).rd f := by
  unfold pulseCounted State.telRecord
  rw [State.rd_setGch]

theorem pulses_setGch (s : State) (c : Nat) (f : GdChan → GdChan) : (s.setGch c f).gd.pulses = s.gd.pulses := rfl

theorem pulseCounted_pulses (cseq : Nat) (data : List Byte) (s : State) : (pulseCounted l cseq data s).gd.pulses = s.gd.pulses := by
  unfold pulseCounted State.telRecord
  rw [pulses_setGch, State.inc_gd]
  rfl

/-- A leg is read beside the pulses that are reported. -/
theorem gleg_with_pulses (s : State) (x : List (Nat × Bool × Nat)) (k : Nat) : { s with gd.pulses := x }.gleg k = s.gleg k := rfl

/-- A pulse that completes has left its leg, is counted and reported. -/
theorem refreshComplete_facts {cseq : Nat} (hl : l < 3) (hpulse : (s.gleg l).pulse = some cseq) :
    ((refreshComplete l s).gleg l).pulse = none ∧
    (refreshComplete l s).gd.pulses = s.gd.pulses ++ [(l, (s.gleg l).out, s.tickno)] ∧
    (refreshComplete l s).rd R.GD_RFCNT = min (s.rd R.GD_RFCNT + 1) (2 ^ 32 - 1) := by
  obtain ⟨data, heq⟩ := refreshComplete_eq hpulse
  have hleg := pulseCounted_gleg cseq data s hl
  have htick : (pulseCounted l cseq data s).tickno = s.tickno := by
    unfold State.tickno
    rw [rd_pulseCounted, State.rd_inc_gd _ (by decide), State.rd_setGleg]
  rw [heq, State.rd_with_gd, rd_pulseCounted, gleg_with_pulses, hleg]
  refine ⟨rfl, ?_, State.rd_inc_same _ (by decide)⟩
  dsimp only
  rw [pulseCounted_pulses, htick]

end

/-- Settles O27: the bootstrap level, its report, and the refresh pulse from its insertion to its completion. -/
theorem bootstrapRefresh : Obligations.BootstrapRefresh := by
  unfold Obligations.BootstrapRefresh
  intro leg s hr
  have hl : leg.val < 3 := leg.isLt
  refine ⟨fun level => ?_, fun c hcl => ?_, fun b r hleg hwarn hen hasc hnone hstage hcommit hshare hfind => ?_, fun cseq hpulse => ?_⟩
  · refine ⟨_, live_next _ hr, ?_⟩
    rw [bswarn_gleg level s.cleared hl]
  · refine ⟨_, (live_next _ hr).trans (congrArg _ (statusArrives_taken s.cleared c.val)), ?_⟩
    rw [hcl]
    exact rd_statusReport_bswarn s.cleared hl
  · subst hleg
    obtain ⟨es, es', out, heq⟩ := refreshInsert_fits (s := s.cleared) r.highOk r.lowOk hwarn hen hasc hnone hstage hcommit hshare hfind
    refine ⟨_, (live_next _ hr).trans (congrArg _ heq), ?_⟩
    rw [State.gleg_setGleg_same _ _ hl, State.gch_setGleg, refreshTaken_other _ _ _ _ (by omega) (by omega)]
    refine ⟨rfl, rfl, refreshTaken_length _ _ _ _ (by omega), fun hhigh hlow => ?_, fun hhigh => ?_⟩
    · rw [hhigh, hlow]
      rfl
    · rw [State.rd_setGleg, rd_refreshTaken_other _ _ _ _ (by omega) (by omega) (by omega), hhigh, refreshTaken_lost, State.gch_inc]
      exact ⟨rfl, State.linkErr_counted _ _⟩
  · exact ⟨_, live_next _ hr, refreshComplete_facts (s := s.cleared) hl hpulse⟩

end Sys2Proof.Machine
end

section
/-! O29. Off-state diagnostics start, step and end (06 R239–R241). -/

namespace Sys2Proof.Machine

section
variable {s : State}

/-! ### A write of GO (06 R239) -/

/-- A write of DIAG_CTL misses the fields of the other blocks. -/
theorem rd_loadSet {g : Fld} (h : R.GD_DIAG_CTL_LOAD.GdMisses g) (s : State) (load : Bool) :
    (s.wr R.GD_DIAG_CTL_LOAD (b2n load)).rd g = s.rd g := s.rd_wr_gd h _

/-- LOAD is no part of what makes the stage idle. -/
theorem stageIdle_loadSet (s : State) (load : Bool) : (s.wr R.GD_DIAG_CTL_LOAD (b2n load)).stageIdle = s.stageIdle := by
  have hgch : ∀ k, (s.wr R.GD_DIAG_CTL_LOAD (b2n load)).gch k = s.gch k := fun k => State.gch_wr _ _ _ k
  unfold State.stageIdle State.drive State.omegaM State.rdU State.rdQ State.rdI
  rw [rd_loadSet (by decide), rd_loadSet (by decide), rd_loadSet (by decide), State.wr_cf]
  simp only [hgch]

theorem load_misses_role (n : Nat) : R.GD_DIAG_CTL_LOAD.GdMisses (R.SD_CHn_CFG_ROLE n) := by simp only [Fld.GdMisses]; omega

theorem load_misses_mean (n : Nat) : R.GD_DIAG_CTL_LOAD.GdMisses (R.SD_CHn_MEAN n) := by simp only [Fld.GdMisses]; omega

theorem vdc_loadSet (s : State) (load : Bool) : (s.wr R.GD_DIAG_CTL_LOAD (b2n load)).vdc = s.vdc := by
  unfold State.vdc
  exact State.meanOf_congr (fun n => rd_loadSet (load_misses_role n) s load) (fun n => rd_loadSet (load_misses_mean n) s load) 4

/-- The results of the run before are gone. -/
def State.diagCleared (s : State) : State := s.setWord R.GD_DIAG_RES_DONE.addr 0

theorem rd_diagCleared_done (s : State) : s.diagCleared.rd R.GD_DIAG_RES_DONE = 0 := by
  unfold State.diagCleared State.rd
  rw [State.word_setWord_same]
  rfl

theorem rd_diagCleared_load (s : State) : s.diagCleared.rd R.GD_DIAG_CTL_LOAD = s.rd R.GD_DIAG_CTL_LOAD := by
  unfold State.diagCleared
  refine State.rd_congr (State.word_setWord_ne s _ ?_)
  rw [home_ownWord s (by decide), home_ownWord s (by decide)]
  decide

@[simp] theorem State.diagCleared_gd (s : State) : s.diagCleared.gd = s.gd := by
  unfold State.diagCleared
  exact State.setWord_gd _ _ _

theorem diagGo_starts (hidle : s.stageIdle = true) (hvdc : 5 / 100 ≤ s.vdc) :
    diagGo s = { s.diagCleared with gd.diag := some { since := s.time.tb } } := by
  unfold diagGo
  exact if_pos ⟨hidle, hvdc⟩

theorem diagGo_refused (h : s.stageIdle = false ∨ s.vdc < 5 / 100) : diagGo s = s.diagCleared.wr R.GD_DIAG_RES_NOTRUN 1 := by
  have hno : ¬(s.stageIdle = true ∧ 5 / 100 ≤ s.vdc) := fun ⟨hidle, hvdc⟩ =>
    h.elim (fun hbusy => Bool.false_ne_true (hbusy ▸ hidle)) (fun hlow => absurd hvdc (not_le.2 hlow))
  unfold diagGo
  exact if_neg hno

/-! ### A step of a run (06 R240, R241) -/

variable {d : GdDiag}

/-- The run after a step that took a reading, or none. -/
def GdDiag.next (d : GdDiag) (now : Nat) (e : GdDiag) : GdDiag := { e with reading := none, lost := false, since := now, step := d.step + 1 }

theorem diag_with_diag (s : State) (x : Option GdDiag) : { s with gd.diag := x }.gd.diag = x := rfl

/-- A step before the two of the chopper goes on to the next one. -/
theorem diagStep_read (mv : Nat) (hd : s.gd.diag = some d) (hlost : d.lost = false) (hread : d.reading = some mv)
    (hwait : d.since + msCyc 2 ≤ s.time.tb) (hstep : d.step < 9) :
    diagStep s = { s with gd.diag := some (d.next s.time.tb (diagRead (s.on R.GD_DIAG_CTL_LOAD) mv d)) } := by
  unfold diagStep
  rw [hd]
  dsimp only
  rw [if_neg (by simp [hread, hwait]), hlost, if_neg (by omega), hread]
  rfl

/-- A step whose frame was lost gives no class. -/
theorem diagStep_lost (hd : s.gd.diag = some d) (hlost : d.lost = true) (hwait : d.since + msCyc 2 ≤ s.time.tb) (hstep : d.step < 9) :
    diagStep s = { s with gd.diag := some (d.next s.time.tb d) } := by
  unfold diagStep
  rw [hd]
  dsimp only
  rw [if_neg (by simp [hlost, hwait]), hlost, if_neg (by omega)]
  rfl

/-- The last step ends the run. -/
theorem diagStep_last (mv : Nat) (hd : s.gd.diag = some d) (hlost : d.lost = false) (hread : d.reading = some mv)
    (hwait : d.since + msCyc 2 ≤ s.time.tb) (hstep : d.step = 10) :
    diagStep s = diagEnd (d.next s.time.tb (diagRead (s.on R.GD_DIAG_CTL_LOAD) mv d)) s := by
  unfold diagStep
  rw [hd]
  dsimp only
  rw [if_neg (by simp [hread, hwait]), hlost, if_pos (Or.inl hstep), hread]
  rfl

/-- The classes of a run posted, and DONE set. -/
def diagPosted (d : GdDiag) (s : State) : State :=
  ((((s.wr R.GD_DIAG_RES_U d.cls[0]).wr R.GD_DIAG_RES_V d.cls[1]).wr R.GD_DIAG_RES_W d.cls[2]).wr
    R.GD_DIAG_RES_K d.cls[3]).wr R.GD_DIAG_RES_DONE 1

/-- The outcome of a run kept; an open lead on GK raises its cause (06 R241). -/
def diagJudged (d : GdDiag) (s : State) : State :=
  let s := { s with gd.diagPass := d.cls.toList.all (· == 0) }
  if d.cls[3] == 3 && s.on R.LN_MD_CFG_CHEN then { s with seq.chopDiag := true }.cause 9 0 2 s.vdcRaw else s

theorem diagEnd_eq (d : GdDiag) (s : State) :
    diagEnd d s = diagJudged (openClasses d) (diagPosted (openClasses d) { s with gd.diag := none }) := rfl

theorem diagJudged_keeps (d : GdDiag) (s : State) :
    (diagJudged d s).gd.diag = s.gd.diag ∧ (diagJudged d s).rd R.GD_DIAG_RES_DONE = s.rd R.GD_DIAG_RES_DONE := by
  unfold diagJudged
  dsimp only
  split
  · rw [State.cause_gd, rd_cause _ _ _ _ _ (gdWord_apart (by decide)), State.rd_with_seq, State.rd_with_gd]
    exact ⟨rfl, rfl⟩
  · rw [State.rd_with_gd]
    exact ⟨rfl, rfl⟩

theorem diagPosted_done (d : GdDiag) (s : State) :
    (diagPosted d s).gd = s.gd ∧ (diagPosted d s).rd R.GD_DIAG_RES_DONE = 1 := by
  unfold diagPosted
  rw [State.wr_gd, State.wr_gd, State.wr_gd, State.wr_gd, State.wr_gd]
  exact ⟨rfl, State.rd_wr_same _ (by decide) 1⟩

/-- A run that ends leaves none, with DONE set. -/
theorem diagEnd_done (d : GdDiag) (s : State) : (diagEnd d s).gd.diag = none ∧ (diagEnd d s).rd R.GD_DIAG_RES_DONE = 1 := by
  obtain ⟨hdiag, hrd⟩ := diagJudged_keeps (openClasses d) (diagPosted (openClasses d) { s with gd.diag := none })
  obtain ⟨hgd, hdone⟩ := diagPosted_done (openClasses d) { s with gd.diag := none }
  rw [diagEnd_eq, hdiag, hrd, hgd]
  exact ⟨rfl, hdone⟩

end

/-- Settles O29: a write of GO, the steps of a run, and its end. -/
theorem offStateDiagnostics : Obligations.OffStateDiagnostics := by
  unfold Obligations.OffStateDiagnostics
  intro s hr
  refine ⟨fun load hidle hvdc => ?_, fun load hno => ?_, fun d mv hd hlost hread hwait hstep => ?_, fun d hd hlost hwait hstep => ?_,
    fun d mv hd hlost hread hwait hstep => ?_⟩
  · have hgo := diagGo_starts (s := s.cleared.wr R.GD_DIAG_CTL_LOAD (b2n load)) (by rw [stageIdle_loadSet]; exact hidle)
      (by rw [vdc_loadSet]; exact hvdc)
    refine ⟨_, (live_next (fun s => diagGo (s.wr R.GD_DIAG_CTL_LOAD (b2n load))) hr).trans (congrArg _ hgo), ?_, ?_, ?_⟩
    · rw [diag_with_diag, State.wr_time]
      rfl
    · rw [State.rd_with_gd, rd_diagCleared_load, State.rd_eq_b2n_on _ rfl, State.on_wr_same _ rfl (by decide)]
    · rw [State.rd_with_gd, rd_diagCleared_done]
  · have hgo := diagGo_refused (s := s.cleared.wr R.GD_DIAG_CTL_LOAD (b2n load)) (by rw [stageIdle_loadSet, vdc_loadSet]; exact hno)
    refine ⟨_, (live_next (fun s => diagGo (s.wr R.GD_DIAG_CTL_LOAD (b2n load))) hr).trans (congrArg _ hgo), ?_, State.rd_wr_same _ (by decide) 1, ?_⟩
    · rw [State.wr_gd, State.diagCleared_gd, State.wr_gd]
      rfl
    · rw [State.rd_wr_gd _ (by decide), rd_diagCleared_done]
  · exact ⟨_, (live_next _ hr).trans (congrArg _ (diagStep_read (s := s.cleared) mv hd hlost hread hwait hstep)), diag_with_diag _ _⟩
  · exact ⟨_, (live_next _ hr).trans (congrArg _ (diagStep_lost (s := s.cleared) hd hlost hwait hstep)), diag_with_diag _ _⟩
  · exact ⟨_, (live_next _ hr).trans (congrArg _ (diagStep_last (s := s.cleared) mv hd hlost hread hwait hstep)), diagEnd_done _ _⟩

end Sys2Proof.Machine
end

section
/-! O57. SWITCH_RECLOSE beside the registers (06 R243; 14 R452). -/

namespace Sys2Proof.Machine

theorem rideStart_sys (s : State) : (rideStart s).sys = s.sys := by
  unfold rideStart
  split
  · rfl
  · rw [State.inc_sys, State.wr_sys]

theorem supplyReadings_sys (vin vhb : BitVec 16) (s : State) : (supplyReadings vin vhb s).sys = s.sys := by
  unfold supplyReadings
  rw [State.wr_sys, State.wr_sys]

/-- An overvoltage opens the external switch. -/
theorem auxOv_sys (vin vhb : BitVec 16) (s : State) : (auxOv vin vhb s).sys = { s.sys with rpsOpen := true } := by
  unfold auxOv
  rw [State.event_sys, rideStart_sys]
  dsimp only
  rw [State.wr_sys, supplyReadings_sys]

/-- Where no shutdown for temperature holds it open, the switch closes. -/
theorem switchReclose_closes (vin vhb : BitVec 16) {s : State} (hoff : s.sys.latchedOff = false) :
    (switchReclose vin vhb s).sys.rpsOpen = false := by
  have hopen : ¬(((supplyReadings vin vhb s).wr R.TH_SUP_OVOPEN 0).sys.latchedOff = true ∧
      ((supplyReadings vin vhb s).wr R.TH_SUP_OVOPEN 0).sys.shutCause = 1) := by
    rw [State.wr_sys, supplyReadings_sys, hoff]
    exact fun h => Bool.false_ne_true h.1
  unfold switchReclose
  dsimp only
  rw [if_neg hopen]
  split
  · rw [State.wr_sys]
  · rfl

/-- A module out of reset whose auxiliary input has been too high: the external switch stands open. -/
def switchOpened : State := auxOv 0 0 State.reset

theorem switchOpened_sys : switchOpened.sys = { State.reset.sys with rpsOpen := true } := auxOv_sys 0 0 State.reset

/-- Refutes O57: where the external switch stands open SWITCH_RECLOSE closes it, which changes the system state beside the registers. -/
theorem not_thermalSupplyAndNor : ¬ Obligations.ThermalSupplyAndNor := by
  intro h
  have hr : switchOpened.Running := congrArg SysState.halted switchOpened_sys
  have hoff : switchOpened.cleared.sys.latchedOff = false := congrArg SysState.latchedOff switchOpened_sys
  have hopen : switchOpened.sys.rpsOpen = true := congrArg SysState.rpsOpen switchOpened_sys
  obtain ⟨-, -, -, -, -, hsupply, -⟩ := h switchOpened hr
  obtain ⟨-, -, -, ⟨t, ht, -, -, hsame⟩, -⟩ := hsupply 0 0
  cases (live_next (switchReclose 0 0) hr).symm.trans ht
  have hkept : (switchReclose 0 0 switchOpened.cleared).sys = switchOpened.sys := hsame .sys (by decide)
  have hclosed := switchReclose_closes 0 0 hoff
  rw [hkept, hopen] at hclosed
  exact Bool.false_ne_true hclosed.symm

end Sys2Proof.Machine
end

section
/-! SUPPORT. The sources, the index, the emulation and the registers of the position feedback: what they read after the updates that the
steps of 07 are put together from. -/

namespace Sys2Proof.Machine

/-! ### Sources (07 R246) -/

theorem State.fsrc_of_src {s t : State} (h : t.fb.src = s.fb.src) (k : Nat) : t.fsrc k = s.fsrc k := by
  unfold State.fsrc
  rw [h]

@[simp] theorem State.fsrc_cleared (s : State) (k : Nat) : s.cleared.fsrc k = s.fsrc k := rfl
@[simp] theorem State.fsrc_wr (s : State) (f : Fld) (v k : Nat) : (s.wr f v).fsrc k = s.fsrc k := rfl
@[simp] theorem State.fsrc_inc (s : State) (f : Fld) (k : Nat) : (s.inc f).fsrc k = s.fsrc k := rfl
@[simp] theorem State.fsrc_setAbz (s : State) (f : AbzState → AbzState) (k : Nat) : (s.setAbz f).fsrc k = s.fsrc k := rfl
@[simp] theorem State.setAbz_src (s : State) (f : AbzState → AbzState) : (s.setAbz f).fb.src = s.fb.src := rfl
@[simp] theorem State.setAbz_abz (s : State) (f : AbzState → AbzState) : (s.setAbz f).fb.abz = f s.fb.abz := rfl
@[simp] theorem State.rd_setFsrc (s : State) (c : Nat) (f : FbSource → FbSource) (g : Fld) : (s.setFsrc c f).rd g = s.rd g := rfl
@[simp] theorem State.setFsrc_time (s : State) (c : Nat) (f : FbSource → FbSource) : (s.setFsrc c f).time = s.time := rfl
@[simp] theorem State.rd_setAbz (s : State) (f : AbzState → AbzState) (g : Fld) : (s.setAbz f).rd g = s.rd g := rfl
@[simp] theorem State.rd_setPosx (s : State) (c : Nat) (v : Int) (g : Fld) : (s.setPosx c v).rd g = s.rd g := rfl

/-- What the feedback holds beside its registers is no register. -/
theorem State.rd_with_fb (s : State) (x : FbState) (f : Fld) : { s with fb := x }.rd f = s.rd f := rfl

/-- A source after an update of one of them. -/
theorem State.fsrc_setFsrc (s : State) (c : Nat) (f : FbSource → FbSource) (i : Fin 5) :
    (s.setFsrc c f).fsrc (i.val + 1) = if i.val + 1 = c then f (s.fsrc (i.val + 1)) else s.fsrc (i.val + 1) := by
  unfold State.fsrc State.setFsrc
  simp

theorem State.fsrc_setFsrc_same (s : State) (f : FbSource → FbSource) {c : Nat} (hc : 1 ≤ c ∧ c ≤ 5) :
    (s.setFsrc c f).fsrc c = f (s.fsrc c) := by
  obtain ⟨i, rfl⟩ : ∃ i : Fin 5, c = i.val + 1 := ⟨⟨c - 1, by omega⟩, by simp only; omega⟩
  rw [State.fsrc_setFsrc, if_pos rfl]

/-- What an update of a source leaves of it, it leaves of all of them. -/
theorem State.fsrc_setFsrc_keeps {α : Type} (k : FbSource → α) {f : FbSource → FbSource} (hk : ∀ x, k (f x) = k x) (s : State)
    (c code : Nat) : k ((s.setFsrc c f).fsrc code) = k (s.fsrc code) := by
  unfold State.fsrc State.setFsrc
  dsimp only
  rw [Vector.getElem?_toList, Vector.getElem?_toList]
  by_cases hc : code - 1 < 5
  · rw [Vector.getElem?_eq_getElem hc, Vector.getElem?_eq_getElem hc, Vector.getElem_mapFinIdx]
    dsimp only [Option.getD_some]
    split
    · exact hk _
    · rfl
  · rw [Vector.getElem?_eq_none (by omega), Vector.getElem?_eq_none (by omega)]

/-- POSX takes its value in 48 bits (07 R254). -/
theorem State.setPosx_posx (s : State) (v : Int) {c : Nat} (hc : 1 ≤ c ∧ c ≤ 5) :
    ((s.setPosx c v).fsrc c).posx = signedOf 48 (wrapTo 48 v) := by
  unfold State.setPosx
  dsimp only
  rw [State.fsrc_setFsrc_same _ _ hc]

theorem State.setPosx_keeps {α : Type} (k : FbSource → α) (hk : ∀ x p c r, k { x with posx := p, scaled := c, rem := r } = k x) (s : State)
    (c : Nat) (v : Int) (code : Nat) : k ((s.setPosx c v).fsrc code) = k (s.fsrc code) :=
  State.fsrc_setFsrc_keeps k (fun _ => hk _ _ _ _) s c code

/-- A new sample gives POSX (07 R252). -/
theorem fbSample_posx (p : Int) (angle : Rat) (t : Nat) (s : State) {c : Nat} (hc : 1 ≤ c ∧ c ≤ 5) :
    ((fbSample c p angle t s).fsrc c).posx = signedOf 48 (wrapTo 48 p) := by
  unfold fbSample
  dsimp only
  rw [State.fsrc_setFsrc_same _ _ hc]
  exact State.setPosx_posx _ _ hc

theorem fbSample_first (p : Int) (angle : Rat) (t : Nat) (s : State) {c : Nat} (hc : 1 ≤ c ∧ c ≤ 5) :
    ((fbSample c p angle t s).fsrc c).first = true := by
  unfold fbSample
  dsimp only
  rw [State.fsrc_setFsrc_same _ _ hc]

theorem fbSample_keeps {α : Type} (k : FbSource → α) (hsample : ∀ x a t b, k { x with angle := a, stamp := t, first := b } = k x)
    (hposx : ∀ x p c r, k { x with posx := p, scaled := c, rem := r } = k x) (holder : ∀ x o, k { x with older := o } = k x)
    (c : Nat) (p : Int) (angle : Rat) (t : Nat) (s : State) (code : Nat) : k ((fbSample c p angle t s).fsrc code) = k (s.fsrc code) := by
  unfold fbSample
  dsimp only
  rw [State.fsrc_setFsrc_keeps k (fun _ => hsample _ _ _ _), State.setPosx_keeps k hposx, State.fsrc_setFsrc_keeps k (fun _ => holder _ _)]

@[simp] theorem rd_fbSample (c : Nat) (p : Int) (angle : Rat) (t : Nat) (s : State) (g : Fld) : (fbSample c p angle t s).rd g = s.rd g := rfl

@[simp] theorem fbSample_time (c : Nat) (p : Int) (angle : Rat) (t : Nat) (s : State) : (fbSample c p angle t s).time = s.time := rfl

/-! ### Registers of the feedback (07 R277) -/

/-- A word of the feedback block. -/
abbrev fbWord (a : Nat) : Prop := 0x40080000 ≤ a ∧ a < 0x40090000

theorem fbWord_own {a : Nat} (h : fbWord a) : ownWord a := ⟨by omega, by omega, by omega⟩

theorem fbWord_apart {a : Nat} (h : fbWord a) : apartFromQueues a :=
  ⟨.inr (by omega), .inl (by omega), fun e => absurd (e ▸ h : fbWord (R.SB_STAT_SAFETY_EVT_LOST).addr) (by decide)⟩

/-- A field of the feedback that no write of the fields listed reaches. -/
abbrev Fld.FbClearOf (g : Fld) (fs : List Fld) : Prop := fbWord g.addr ∧ ∀ f ∈ fs, fbWord f.addr ∧ f.Misses g

theorem State.rd_wr_fb (s : State) {f g : Fld} {fs : List Fld} (h : g.FbClearOf fs) (hf : f ∈ fs) (v : Nat) : (s.wr f v).rd g = s.rd g :=
  s.rd_wr_missed ⟨fbWord_own (h.2 f hf).1, fbWord_own h.1, (h.2 f hf).2⟩ v

/-- A write of one field of the feedback leaves another one. -/
theorem State.rd_wr_fbOther (s : State) {f g : Fld} (h : fbWord f.addr ∧ fbWord g.addr ∧ f.Misses g) (v : Nat) :
    (s.wr f v).rd g = s.rd g :=
  s.rd_wr_missed ⟨fbWord_own h.1, fbWord_own h.2.1, h.2.2⟩ v

/-- A field that is wide enough reads the value written. -/
theorem State.rd_wr_fits (s : State) {f : Fld} (h : f.Ok) {v : Nat} (hv : v < 2 ^ f.width) : (s.wr f v).rd f = v :=
  (s.rd_wr_same h v).trans (Nat.mod_eq_of_lt hv)

/-- A field reads the low bits of an integer that it was written with. -/
theorem State.rd_wr_wrapTo (s : State) {f : Fld} {w : Nat} (h : f.Ok) (hw : f.width = w) (x : Int) :
    (s.wr f (wrapTo w x)).rd f = wrapTo w x := by
  subst hw
  exact s.rd_wr_fits h (wrapTo_lt _ x)

/-- A field of one bit reads the truth value written. -/
theorem State.rd_wr_b2n (s : State) {f : Fld} (h : f.msb = f.lsb ∧ f.msb < 32) (b : Bool) : (s.wr f (b2n b)).rd f = b2n b := by
  have hw : f.width = 1 := by unfold Fld.width; omega
  rw [State.rd_eq_b2n_on _ hw, State.on_wr_same s h.1 h.2]

/-! ### A source that loses VALID (07 R248) -/

/-- The source itself after a loss of VALID: where it was VALID it is no longer, nor aligned. -/
def State.sourceLost (s : State) (code : Nat) : State :=
  if !(s.fsrc code).valid then s.setFsrc code (fun x => { x with calm := 0 })
  else s.setFsrc code (fun x => { x with valid := false, calm := 0, aligned := false })

theorem sourceLost_valid (s : State) {code : Nat} (hc : 1 ≤ code ∧ code ≤ 5) : ((s.sourceLost code).fsrc code).valid = false := by
  unfold State.sourceLost
  split
  next h => rw [State.fsrc_setFsrc_same _ _ hc]; simpa using h
  next => rw [State.fsrc_setFsrc_same _ _ hc]

@[simp] theorem rd_sourceLost (s : State) (code : Nat) (g : Fld) : (s.sourceLost code).rd g = s.rd g := by
  unfold State.sourceLost
  split <;> rfl

/-- All of the feedback but the sources stays. -/
theorem sourceLost_fb (s : State) (code : Nat) : (s.sourceLost code).fb.abz = s.fb.abz ∧ (s.sourceLost code).fb.hall = s.fb.hall := by
  unfold State.sourceLost
  split <;> exact ⟨rfl, rfl⟩

theorem sourceLost_keeps {α : Type} (k : FbSource → α) (hk : ∀ x v n a, k { x with valid := v, calm := n, aligned := a } = k x)
    (s : State) (code i : Nat) : k ((s.sourceLost code).fsrc i) = k (s.fsrc i) := by
  unfold State.sourceLost
  split
  · exact s.fsrc_setFsrc_keeps k (fun x => hk x x.valid 0 x.aligned) code i
  · exact s.fsrc_setFsrc_keeps k (fun x => hk x false 0 false) code i

/-! ### What events, causes and the marks of a loss leave (07 R248, R261) -/

/-- What a state shows is spared by events, by causes and by the marks of a loss. -/
structure Spared {α : Type} (k : State → α) : Prop where
  event : ∀ (u : State) (e : EventId) (src : Nat) (d : List Byte), e.ring < 64 → k (u.event e src d) = k u
  cause : ∀ (u : State) (detail value : Nat) (c : Option Nat) (l h : Bool),
    k { u.cause 13 16 detail value with fb := { u.fb with change := c, lossPend := l, hadLoss := h } } = k u
  marks : ∀ (u : State) (c : Option Nat) (l h : Bool), k { u with fb := { u.fb with change := c, lossPend := l, hadLoss := h } } = k u

theorem spared_rd {g : Fld} (h : fbWord g.addr) : Spared (fun u : State => u.rd g) where
  event u _ src d hr := rd_event u src d hr (fbWord_apart h)
  cause u detail value _ _ _ := rd_cause u 13 16 detail value (fbWord_apart h)
  marks _ _ _ _ := rfl

theorem spared_fb {α : Type} {k : FbState → α} (hk : ∀ b c l h, k { b with change := c, lossPend := l, hadLoss := h } = k b) :
    Spared (fun u : State => k u.fb) where
  event u e src d _ := congrArg k (u.event_fb e src d)
  cause u _ _ c l h := hk u.fb c l h
  marks u c l h := hk u.fb c l h

section
variable {α : Type} {k : State → α} (h : Spared k)
include h

/-- Beside the source itself a loss of VALID raises an event or a cause and marks the loss. -/
theorem fbLose_keeps (code : Nat) (s : State) : k (fbLose code s) = k (s.sourceLost code) := by
  unfold fbLose State.sourceLost
  extract_lets x lost _ _ degraded _ marked _ _
  have hdegraded : k degraded = k lost := by
    unfold degraded
    split
    · exact h.cause lost _ _ _ _ _
    · rfl
  have hmarked : k marked = k degraded := by
    unfold marked
    split
    · exact h.marks degraded _ _ true
    · rfl
  split
  · rfl
  · split
    · rfl
    · refine Eq.trans ?_ (hmarked.trans hdegraded)
      split
      · exact h.cause marked _ _ _ _ _
      · split
        · exact h.event _ _ _ _ (by decide)
        · rfl

theorem fbLoseIfDue_keeps (code : Nat) {s : State} (hs : k (s.sourceLost code) = k s) : k (fbLoseIfDue code s) = k s := by
  unfold fbLoseIfDue
  split
  · exact (fbLose_keeps h code s).trans hs
  · rfl

theorem degradedAction_keeps (s : State) : k (degradedAction s) = k s := by
  unfold degradedAction
  dsimp only
  split
  · split
    · exact h.marks s _ _ _
    · exact h.cause s _ _ _ _ _
  · exact h.event _ _ _ _ (by decide)

end

@[simp] theorem rd_fbLoseIfDue {g : Fld} (hg : fbWord g.addr) (code : Nat) (s : State) : (fbLoseIfDue code s).rd g = s.rd g :=
  fbLoseIfDue_keeps (spared_rd hg) code (rd_sourceLost s code g)

@[simp] theorem fbLoseIfDue_abz (code : Nat) (s : State) : (fbLoseIfDue code s).fb.abz = s.fb.abz :=
  fbLoseIfDue_keeps (spared_fb (k := fun b => b.abz) fun _ _ _ _ => rfl) code (sourceLost_fb s code).1

@[simp] theorem fbLoseIfDue_hall (code : Nat) (s : State) : (fbLoseIfDue code s).fb.hall = s.fb.hall :=
  fbLoseIfDue_keeps (spared_fb (k := fun b => b.hall) fun _ _ _ _ => rfl) code (sourceLost_fb s code).2

@[simp] theorem fbLoseIfDue_time (code : Nat) (s : State) : (fbLoseIfDue code s).time = s.time :=
  (fbLoseIfDue_sound (ms := 2 ^ 5) rfl code s (sound_refl _ s)).same .time rfl

/-- What a source is read from. -/
def FbState.source (b : FbState) (k : Nat) : FbSource := (b.src.toList[k - 1]?).getD {}

/-- A loss of VALID leaves all of a source but VALID and what goes with it. -/
theorem fsrc_fbLoseIfDue_keeps {α : Type} (k : FbSource → α) (hk : ∀ x v n a, k { x with valid := v, calm := n, aligned := a } = k x)
    (code : Nat) (s : State) (i : Nat) : k ((fbLoseIfDue code s).fsrc i) = k (s.fsrc i) :=
  fbLoseIfDue_keeps (spared_fb (k := fun b => k (b.source i)) fun _ _ _ _ => rfl) code (sourceLost_keeps k hk s code i)

/-- A source whose clearing condition is present is not VALID afterwards (07 R248). -/
theorem fbLoseIfDue_valid {code : Nat} (hc : 1 ≤ code ∧ code ≤ 5) {s : State} (h : s.fbCond code = true) :
    ((fbLoseIfDue code s).fsrc code).valid = false := by
  unfold fbLoseIfDue
  rw [if_pos h]
  exact (fbLose_keeps (spared_fb (k := fun b => (b.source code).valid) fun _ _ _ _ => rfl) code s).trans (sourceLost_valid s hc)

/-! ### The emulation (07 R275, R276) -/

/-- What the emulation's lag writes. -/
abbrev emuFlds : List Fld := [R.FB_EMU_STAT_LAG, R.FB_EMU_STAT_OVR]

theorem rd_emuLag {g : Fld} (hg : g.FbClearOf emuFlds) (s : State) : (emuLag s).rd g = s.rd g := by
  unfold emuLag
  dsimp only
  split
  · rw [State.rd_wr_fb _ hg (by decide), State.rd_wr_fb _ hg (by decide)]
  · exact State.rd_wr_fb _ hg (by decide) _

@[simp] theorem emuLag_fb (s : State) : (emuLag s).fb = s.fb := by
  unfold emuLag
  dsimp only
  split
  · rw [State.wr_fb, State.wr_fb]
  · rw [State.wr_fb]

@[simp] theorem emuLag_time (s : State) : (emuLag s).time = s.time :=
  (emuLag_sound (ms := 2 ^ 5) rfl s (sound_refl _ s)).same .time rfl

theorem rd_emuTrack {g : Fld} (hg : g.FbClearOf emuFlds) (s : State) : (emuTrack s).rd g = s.rd g := by
  unfold emuTrack
  split
  · rfl
  · exact rd_emuLag hg _

/-- The count target follows its source, and nothing else of the feedback changes. -/
theorem emuTrack_keeps {α : Type} (k : FbState → α)
    (hk : ∀ b p n a x, k { b with emuLast := p, emuTarget := n, emuAcc := a, emuStep := x } = k b) (s : State) :
    k (emuTrack s).fb = k s.fb := by
  unfold emuTrack
  split
  · rfl
  · dsimp only
    rw [emuLag_fb]
    exact hk _ _ _ _ _

@[simp] theorem emuTrack_abz (s : State) : (emuTrack s).fb.abz = s.fb.abz := emuTrack_keeps (fun b => b.abz) (fun _ _ _ _ _ => rfl) s
@[simp] theorem emuTrack_hall (s : State) : (emuTrack s).fb.hall = s.fb.hall := emuTrack_keeps (fun b => b.hall) (fun _ _ _ _ _ => rfl) s
@[simp] theorem emuTrack_fsrc (s : State) (c : Nat) : (emuTrack s).fsrc c = s.fsrc c :=
  emuTrack_keeps (fun b => b.source c) (fun _ _ _ _ _ => rfl) s
@[simp] theorem emuTrack_time (s : State) : (emuTrack s).time = s.time :=
  (emuTrack_sound (ms := 2 ^ 5) rfl s (sound_refl _ s)).same .time rfl

/-! ### Drift and index miss (07 R258, R259) -/

/-- What a drift check writes once DRIFT stands. -/
abbrev driftFlds : List Fld := [R.FB_IDX_STAT_RUN, R.FB_IDX_STAT_GOOD, R.FB_IDX_ACC, R.FB_IDX_STAT_DEGRADED]

/-- What an index miss writes. -/
abbrev missFlds : List Fld := R.FB_IDX_STAT_MISS :: R.FB_IDX_STAT_DRIFT :: driftFlds

section
variable {α : Type} {k : State → α} (h : Spared k) (hwr : ∀ (u : State), ∀ f ∈ driftFlds, ∀ v, k (u.wr f v) = k u)
  (hrun : ∀ (u : State) (c : Bool) (n : Nat), k (u.setAbz (fun z => { z with cleared := c, goodRun := n })) = k u)
include h hwr hrun

theorem idxDrift_keeps (drift : Nat) (acc : Int) (s : State) : k (idxDrift drift acc s) = k s := by
  unfold idxDrift
  extract_lets raised written marked degraded _
  have hraised : k raised = k s := h.event s _ _ _ (by decide)
  have hwritten : k written = k raised := by
    unfold written State.inc State.add
    rw [hwr _ _ (by decide), hwr _ _ (by decide), hwr _ _ (by decide)]
  have hmarked : k marked = k written := hrun written _ 0
  split
  · rw [degradedAction_keeps h, ← hraised, ← hwritten, ← hmarked]
    exact (h.marks degraded _ _ true).trans (hwr marked _ (by decide) 1)
  · rw [hmarked, hwritten, hraised]

omit h in
theorem idxGood_keeps (hpend : ∀ (u : State) (d : Int), k (u.setAbz (fun z => { z with pendCorr := z.pendCorr - d })) = k u)
    (drift : Int) (s : State) : k (idxGood drift s) = k s := by
  unfold idxGood
  extract_lets counted auto corrected zero run marked
  have hcounted : k counted = k s := by
    unfold counted State.inc State.add
    rw [hwr _ _ (by decide), hwr _ _ (by decide)]
  have hcorrected : k corrected = k counted := by
    unfold corrected
    split
    · exact hpend _ _
    · exact hwr _ _ (by decide) _
  have hmarked : k marked = k s := by rw [hrun, hcorrected, hcounted]
  split
  · exact (hwr _ _ (by decide) _).trans hmarked
  · exact hmarked

/-- An index miss writes its registers and begins the travel anew. -/
theorem indexMissIfDue_keeps (hmiss : ∀ (u : State), ∀ f ∈ missFlds, ∀ v, k (u.wr f v) = k u)
    (hfrom : ∀ (u : State) (x : Int), k (u.setAbz (fun z => { z with idxFrom := x })) = k u) (s : State) :
    k (indexMissIfDue s) = k s := by
  unfold indexMissIfDue
  dsimp only
  split
  · rw [idxDrift_keeps h hwr hrun, hfrom, hmiss _ _ (by decide), hmiss _ _ (by decide)]
  · rfl

end

theorem rd_idxDrift {g : Fld} (hg : g.FbClearOf driftFlds) (drift : Nat) (acc : Int) (s : State) :
    (idxDrift drift acc s).rd g = s.rd g :=
  idxDrift_keeps (spared_rd hg.1) (fun u _ hf v => u.rd_wr_fb hg hf v) (fun _ _ _ => rfl) drift acc s

theorem rd_idxGood {g : Fld} (hg : g.FbClearOf driftFlds) (drift : Int) (s : State) : (idxGood drift s).rd g = s.rd g :=
  idxGood_keeps (k := fun u => u.rd g) (fun u _ hf v => u.rd_wr_fb hg hf v) (fun _ _ _ => rfl) (fun _ _ => rfl) drift s

theorem rd_indexMissIfDue {g : Fld} (hg : g.FbClearOf missFlds) (s : State) : (indexMissIfDue s).rd g = s.rd g :=
  indexMissIfDue_keeps (spared_rd hg.1) (fun u _ hf v => u.rd_wr_fb hg (List.mem_cons_of_mem _ (List.mem_cons_of_mem _ hf)) v)
    (fun _ _ _ => rfl) (fun u _ hf v => u.rd_wr_fb hg hf v) (fun _ _ => rfl) s

/-- A drift check leaves all of the feedback but the marks of a loss and its own counts. -/
theorem idxDrift_fb {α : Type} (k : FbState → α) (hmarks : ∀ b c l h, k { b with change := c, lossPend := l, hadLoss := h } = k b)
    (hrun : ∀ (b : FbState) c n, k { b with abz := { b.abz with cleared := c, goodRun := n } } = k b) (drift : Nat) (acc : Int) (s : State) :
    k (idxDrift drift acc s).fb = k s.fb :=
  idxDrift_keeps (spared_fb hmarks) (fun _ _ _ _ => rfl) (fun u c n => hrun u.fb c n) drift acc s

theorem idxGood_fb {α : Type} (k : FbState → α)
    (hrun : ∀ (b : FbState) c n, k { b with abz := { b.abz with cleared := c, goodRun := n } } = k b)
    (hpend : ∀ (b : FbState) p, k { b with abz := { b.abz with pendCorr := p } } = k b) (drift : Int) (s : State) :
    k (idxGood drift s).fb = k s.fb :=
  idxGood_keeps (k := fun u => k u.fb) (fun _ _ _ _ => rfl) (fun u c n => hrun u.fb c n) (fun u _ => hpend u.fb _) drift s

theorem indexMissIfDue_fb {α : Type} (k : FbState → α) (hmarks : ∀ b c l h, k { b with change := c, lossPend := l, hadLoss := h } = k b)
    (hrun : ∀ (b : FbState) c n, k { b with abz := { b.abz with cleared := c, goodRun := n } } = k b)
    (hfrom : ∀ (b : FbState) x, k { b with abz := { b.abz with idxFrom := x } } = k b) (s : State) :
    k (indexMissIfDue s).fb = k s.fb :=
  indexMissIfDue_keeps (spared_fb hmarks) (fun _ _ _ _ => rfl) (fun u c n => hrun u.fb c n) (fun _ _ _ _ => rfl)
    (fun u x => hfrom u.fb x) s

@[simp] theorem indexMissIfDue_fsrc (s : State) (c : Nat) : (indexMissIfDue s).fsrc c = s.fsrc c :=
  indexMissIfDue_fb (fun b => b.source c) (fun _ _ _ _ => rfl) (fun _ _ _ => rfl) (fun _ _ => rfl) s

@[simp] theorem indexMissIfDue_time (s : State) : (indexMissIfDue s).time = s.time :=
  (indexMissIfDue_sound (ms := 2 ^ 5) rfl s (sound_refl _ s)).same .time rfl

/-! ### Directions (07 R255, R258) -/

/-- A direction shown, and the travel begun anew at a reversal, leaves the registers but DIR. -/
theorem rd_fbDirection {g : Fld} (hg : g.FbClearOf [R.FB_IDX_STAT_DIR]) (up : Bool) (before : Int) (s : State) :
    (fbDirection up before s).rd g = s.rd g := by
  have hdir : (s.wr R.FB_IDX_STAT_DIR (b2n up)).rd g = s.rd g := s.rd_wr_fb hg (by decide) _
  unfold fbDirection
  dsimp only
  split
  · exact hdir
  · exact (State.rd_with_fb _ _ _).trans hdir

@[simp] theorem fbDirection_time (up : Bool) (before : Int) (s : State) : (fbDirection up before s).time = s.time :=
  (fbDirection_sound (ms := 2 ^ 5) rfl up before s (sound_refl _ s)).same .time rfl

/-! ### Hall states (07 R268) -/

/-- The state with the Hall decoder replaced. -/
def State.setHall (s : State) (h : HallState) : State := { s with fb := { s.fb with hall := h } }

@[simp] theorem State.setHall_hall (s : State) (h : HallState) : (s.setHall h).fb.hall = h := rfl
@[simp] theorem State.fsrc_setHall (s : State) (h : HallState) (k : Nat) : (s.setHall h).fsrc k = s.fsrc k := rfl
@[simp] theorem State.rd_setHall (s : State) (h : HallState) (g : Fld) : (s.setHall h).rd g = s.rd g := rfl
@[simp] theorem State.setFsrc_hall (s : State) (c : Nat) (f : FbSource → FbSource) : (s.setFsrc c f).fb.hall = s.fb.hall := rfl
@[simp] theorem State.setPosx_hall (s : State) (c : Nat) (v : Int) : (s.setPosx c v).fb.hall = s.fb.hall := rfl

section
variable {code t : Nat} {s : State}

/-- An invalid state code sets BADSTATE. -/
theorem hallTake_invalid (h : 6 ≤ s.hallSector code) :
    hallTake code t s = (s.wr R.FB_HALL_STAT_BADSTATE 1).setHall { s.fb.hall with invalid := true } := by
  unfold hallTake State.setHall
  rw [State.wr_fb]
  exact if_pos h

/-- The angle of a sector's centre, in turns. -/
def hallCentre (sector : Nat) : Rat := ((sector : Nat) + 1 / 2 : Rat) / 6

/-- The first valid state code takes its sector. -/
theorem hallTake_first (h : s.hallSector code < 6) (hseen : s.fb.hall.seen = false) :
    hallTake code t s = ((s.setHall { s.fb.hall with
      invalid := false, invalidTicks := 0, seen := true, sector := s.hallSector code, thEdge := hallCentre (s.hallSector code), dir := 0
      gap := none, stopped := true, tEdge := t }).setPosx 5 (s.hallSector code : Nat)).setFsrc 5
        (fun x => { x with stamp := t, first := true }) := by
  unfold hallTake
  dsimp only
  rw [if_neg (by omega), hseen, if_pos (by decide)]
  rfl

/-- The places from the sector that stands to the one of a state code, going up. -/
def State.hallStep (s : State) (code : Nat) : Nat := (s.hallSector code + 6 - s.fb.hall.sector) % 6

/-- The Hall decoder after a transition to a neighbouring sector: the edge that it has crossed. -/
def State.hallCrossed (s : State) (code t : Nat) : HallState :=
  let h := s.fb.hall
  let dir : Int := if s.hallStep code = 1 then 1 else -1
  { h with
    invalid := false, invalidTicks := 0, sector := s.hallSector code, dir := dir
    thEdge := ((if s.hallStep code = 1 then s.hallSector code else s.hallSector code + 1 : Nat) : Rat) / 6, tEdge := t, stopped := false
    gap := if h.dir = dir ∧ !h.stopped then some (t - h.tEdge) else none }

/-- The Hall decoder after a transition to a sector further away. -/
def State.hallSkipped (s : State) (code t : Nat) : HallState :=
  { s.fb.hall with
    invalid := false, invalidTicks := 0, sector := s.hallSector code, dir := 0, thEdge := hallCentre (s.hallSector code), tEdge := t
    gap := none, stopped := false }

/-- A transition to a neighbouring sector moves the count by one in its direction. -/
theorem hallTake_neighbour (h : s.hallSector code < 6) (hseen : s.fb.hall.seen = true) (hd : s.hallStep code = 1 ∨ s.hallStep code = 5) :
    hallTake code t s = emuTrack (((s.setHall (s.hallCrossed code t)).setPosx 5
      ((s.fsrc 5).posx + if s.hallStep code = 1 then 1 else -1)).setFsrc 5 (fun x => { x with stamp := t, badRun := 0 })) := by
  have h0 : s.hallStep code ≠ 0 := by omega
  have hns : ¬(!s.fb.hall.seen) = true := by rw [hseen]; decide
  unfold State.hallStep at h0 hd
  unfold hallTake
  dsimp only
  rw [if_neg (by omega), if_neg hns, if_neg h0, if_pos hd]
  rfl

/-- A transition to a sector further away sets SKIP. -/
theorem hallTake_skip (h : s.hallSector code < 6) (hseen : s.fb.hall.seen = true) (hd : 2 ≤ s.hallStep code ∧ s.hallStep code ≤ 4) :
    ∃ p, hallTake code t s = emuTrack (fbLoseIfDue 5 ((((s.wr R.FB_HALL_STAT_SKIP 1).setHall (s.hallSkipped code t)).setPosx 5 p).setFsrc 5
        (fun x => { x with stamp := t, badRun := x.badRun + 1 }))) := by
  have h0 : s.hallStep code ≠ 0 := by omega
  have h1 : ¬(s.hallStep code = 1 ∨ s.hallStep code = 5) := by omega
  have hns : ¬(!s.fb.hall.seen) = true := by rw [hseen]; decide
  unfold State.hallStep at h0 h1
  unfold hallTake
  dsimp only
  rw [if_neg (by omega), if_neg hns, if_neg h0, if_neg h1]
  exact ⟨_, rfl⟩

end

end Sys2Proof.Machine
end

section
/-! O36. The incremental encoder: its count, its index latch, the index miss, the line faults (07 R253, R254, R256, R258; assumption log 22
for the sense of A and B, 79 for an edge that comes late). -/

namespace Sys2Proof.Machine

/-! ### Count edges (07 R253, R254) -/

theorem fbDirection_fb (up : Bool) (before : Int) (s : State) : (fbDirection up before s).fb.src = s.fb.src ∧
    (fbDirection up before s).fb.abz.a = s.fb.abz.a ∧ (fbDirection up before s).fb.abz.b = s.fb.abz.b := by
  unfold fbDirection
  dsimp only
  split
  · rw [State.wr_fb]
    exact ⟨rfl, rfl, rfl⟩
  · rw [State.wr_fb]
    exact ⟨rfl, rfl, rfl⟩

/-- The hysteresis keeps the levels. -/
theorem leadEdge_levels (cnt : Int) (t : Nat) (a : AbzState) : (leadEdge cnt t a).a = a.a ∧ (leadEdge cnt t a).b = a.b := by
  unfold leadEdge
  split
  · split
    · exact ⟨rfl, rfl⟩
    · split <;> exact ⟨rfl, rfl⟩
  · split
    · exact ⟨rfl, rfl⟩
    · split <;> exact ⟨rfl, rfl⟩

theorem indexMissIfDue_levels (s : State) :
    (indexMissIfDue s).fb.abz.a = s.fb.abz.a ∧ (indexMissIfDue s).fb.abz.b = s.fb.abz.b :=
  ⟨indexMissIfDue_fb (fun x => x.abz.a) (fun _ _ _ _ => rfl) (fun _ _ _ => rfl) (fun _ _ => rfl) s,
   indexMissIfDue_fb (fun x => x.abz.b) (fun _ _ _ _ => rfl) (fun _ _ _ => rfl) (fun _ _ => rfl) s⟩

/-- The levels of ENC_A and ENC_B taken. -/
def State.levelsTaken (a b : Bool) (s : State) : State := s.setAbz (fun z => { z with a := a, b := b })

/-- The count moved by one at an instant. -/
def countMoved (up : Bool) (t : Nat) (s : State) : State :=
  (s.setPosx 1 (if up then (s.fsrc 1).posx + 1 else (s.fsrc 1).posx - 1)).setFsrc 1 (fun x => { x with stamp := t })

/-- What a count edge that FB.CNT shows does beside: DIR, and the lead edge that it may be (07 R254, R255). -/
def countNoted (up : Bool) (before cnt : Int) (t : Nat) (s : State) : State :=
  (if s.fbIdx = 2 then s else fbDirection up before s).setAbz (leadEdge cnt t)

/-- An illegal transition marked and counted. -/
def illegalCounted (s : State) : State :=
  ((s.wr R.FB_ABZ_STAT_ILL 1).inc R.FB_ABZ_ILLCNT).setAbz (fun z => { z with illTick := z.illTick + 1 })

theorem illegalCounted_facts (s : State) : (illegalCounted s).fsrc 1 = s.fsrc 1 ∧ (illegalCounted s).rd R.FB_ABZ_STAT_ILL = 1 ∧
    (illegalCounted s).rd R.FB_ABZ_ILLCNT = min (s.rd R.FB_ABZ_ILLCNT + 1) (2 ^ (R.FB_ABZ_ILLCNT).width - 1) ∧
    (illegalCounted s).fb.abz.a = s.fb.abz.a ∧ (illegalCounted s).fb.abz.b = s.fb.abz.b := by
  have hother : (s.wr R.FB_ABZ_STAT_ILL 1).rd R.FB_ABZ_ILLCNT = s.rd R.FB_ABZ_ILLCNT := s.rd_wr_fbOther (by decide) 1
  have hill : ((s.wr R.FB_ABZ_STAT_ILL 1).inc R.FB_ABZ_ILLCNT).rd R.FB_ABZ_STAT_ILL = 1 :=
    (State.rd_wr_fbOther _ (by decide) _).trans (s.rd_wr_same (by decide) 1)
  unfold illegalCounted
  rw [State.fsrc_setAbz, State.fsrc_inc, State.fsrc_wr, State.rd_setAbz, State.rd_setAbz, State.setAbz_abz, State.inc_fb, State.wr_fb,
    State.rd_inc_same _ (by decide), hother]
  exact ⟨rfl, hill, rfl, rfl, rfl⟩

theorem encoderTake_eq (a b : Bool) (t : Nat) (s : State) : encoderTake a b t s =
    if (quadrant a b - quadrant s.fb.abz.a s.fb.abz.b) % 4 = 0 ∨ !s.on R.FB_CTL_EN then s.levelsTaken a b
    else if (quadrant a b - quadrant s.fb.abz.a s.fb.abz.b) % 4 = 2 then fbLoseIfDue 1 (illegalCounted (s.levelsTaken a b))
    else
      let up := ((quadrant a b - quadrant s.fb.abz.a s.fb.abz.b) % 4 == 1) != s.on R.FB_ABZ_CFG_SWAP
      let moved := countMoved up t (s.levelsTaken a b)
      let cnt := (moved.fsrc 1).posx
      emuTrack (indexMissIfDue (countNoted up (s.fsrc 1).posx cnt t (moved.wr R.FB_CNT (wrapTo 32 cnt)))) := rfl

theorem countMoved_posx (up : Bool) (t : Nat) (s : State) : ((countMoved up t s).fsrc 1).posx =
    signedOf 48 (wrapTo 48 (if up then (s.fsrc 1).posx + 1 else (s.fsrc 1).posx - 1)) := by
  unfold countMoved
  rw [State.fsrc_setFsrc_same _ _ (by decide)]
  dsimp only
  exact State.setPosx_posx _ _ (by decide)

theorem countNoted_facts (up : Bool) (before cnt : Int) (t : Nat) (s : State) :
    (countNoted up before cnt t s).fsrc 1 = s.fsrc 1 ∧ (countNoted up before cnt t s).rd R.FB_CNT = s.rd R.FB_CNT ∧
      (countNoted up before cnt t s).fb.abz.a = s.fb.abz.a ∧ (countNoted up before cnt t s).fb.abz.b = s.fb.abz.b := by
  obtain ⟨hsrc, ha, hb⟩ := fbDirection_fb up before s
  unfold countNoted
  rw [State.fsrc_setAbz, State.rd_setAbz, State.setAbz_abz, (leadEdge_levels cnt t _).1, (leadEdge_levels cnt t _).2]
  split
  · exact ⟨rfl, rfl, rfl, rfl⟩
  · exact ⟨State.fsrc_of_src hsrc 1, rd_fbDirection (by decide) _ _ _, ha, hb⟩

section
variable {a b : Bool} {s : State} (hen : s.on R.FB_CTL_EN = true)
include hen

/-- A count edge moves POSX by one and shows it; A leads upward without SWAP. -/
theorem encoderTake_counts {d : Int} (hd : (quadrant a b - quadrant s.fb.abz.a s.fb.abz.b) % 4 = d) (h0 : d ≠ 0) (h2 : d ≠ 2) (t : Nat) :
    ((encoderTake a b t s).fsrc 1).posx = signedOf 48 (wrapTo 48
        (if (d == 1) != s.on R.FB_ABZ_CFG_SWAP then (s.fsrc 1).posx + 1 else (s.fsrc 1).posx - 1)) ∧
      (encoderTake a b t s).rd R.FB_CNT = wrapTo 32 ((encoderTake a b t s).fsrc 1).posx ∧
      (encoderTake a b t s).fb.abz.a = a ∧ (encoderTake a b t s).fb.abz.b = b := by
  rw [encoderTake_eq, hd, if_neg (not_or.mpr ⟨h0, by rw [hen]; decide⟩), if_neg h2]
  dsimp only
  generalize ((d == 1) != s.on R.FB_ABZ_CFG_SWAP) = up
  have hposx := countMoved_posx up t (s.levelsTaken a b)
  obtain ⟨hsrc, hcnt, ha, hb⟩ := countNoted_facts up (s.fsrc 1).posx ((countMoved up t (s.levelsTaken a b)).fsrc 1).posx t
    ((countMoved up t (s.levelsTaken a b)).wr R.FB_CNT (wrapTo 32 ((countMoved up t (s.levelsTaken a b)).fsrc 1).posx))
  rw [emuTrack_fsrc, indexMissIfDue_fsrc, rd_emuTrack (by decide), rd_indexMissIfDue (by decide), emuTrack_abz,
    (indexMissIfDue_levels _).1, (indexMissIfDue_levels _).2, hsrc, hcnt, ha, hb, State.fsrc_wr, State.wr_fb]
  exact ⟨hposx, State.rd_wr_wrapTo _ (by decide) rfl _, rfl, rfl⟩

/-- An illegal transition is marked and counted, and does not count. -/
theorem encoderTake_illegal (hd : (quadrant a b - quadrant s.fb.abz.a s.fb.abz.b) % 4 = 2) (t : Nat) :
    ((encoderTake a b t s).fsrc 1).posx = (s.fsrc 1).posx ∧ (encoderTake a b t s).rd R.FB_ABZ_STAT_ILL = 1 ∧
      (encoderTake a b t s).rd R.FB_ABZ_ILLCNT = min (s.rd R.FB_ABZ_ILLCNT + 1) (2 ^ (R.FB_ABZ_ILLCNT).width - 1) ∧
      (encoderTake a b t s).fb.abz.a = a ∧ (encoderTake a b t s).fb.abz.b = b := by
  rw [encoderTake_eq, hd, if_neg (not_or.mpr ⟨by decide, by rw [hen]; decide⟩), if_pos rfl, fsrc_fbLoseIfDue_keeps FbSource.posx
    (fun _ _ _ _ => rfl), rd_fbLoseIfDue (by decide), rd_fbLoseIfDue (by decide), fbLoseIfDue_abz]
  obtain ⟨hsrc, hill, hcnt, ha, hb⟩ := illegalCounted_facts (s.levelsTaken a b)
  exact ⟨congrArg FbSource.posx hsrc, hill, hcnt, ha, hb⟩

end

/-- An edge that comes too late waits; one in time is taken now (07 R250). -/
theorem encoderEdge_late {s : State} (h : s.edgeLate = true) (a b : Bool) :
    encoderEdge a b s = s.setAbz (fun x => { x with late := x.late ++ [.count a b s.time.tb] }) := if_pos h

theorem encoderEdge_inTime {s : State} (h : s.edgeLate = false) (a b : Bool) : encoderEdge a b s = encoderTake a b s.time.tb s := by
  unfold encoderEdge
  rw [h, if_neg Bool.false_ne_true]

/-- A count edge in time moves the count by one and shows it. -/
theorem exec_encoderEdge_counts {a b : Bool} {s : State} (hr : s.Running) (hen : s.on R.FB_CTL_EN = true) (hlate : s.edgeLate = false)
    {d : Int} (hd : (quadrant a b - quadrant s.fb.abz.a s.fb.abz.b) % 4 = d) (h0 : d ≠ 0) (h2 : d ≠ 2) :
    ∃ t, exec (.encoderEdge a b) s = .next t ∧
      (t.fsrc 1).posx = signedOf 48 (wrapTo 48
        (if (d == 1) != s.on R.FB_ABZ_CFG_SWAP then (s.fsrc 1).posx + 1 else (s.fsrc 1).posx - 1)) ∧
      t.rd R.FB_CNT = wrapTo 32 (t.fsrc 1).posx ∧ t.fb.abz.a = a ∧ t.fb.abz.b = b := by
  refine ⟨_, live_next _ hr, ?_⟩
  rw [encoderEdge_inTime (s := s.cleared) hlate]
  exact encoderTake_counts (s := s.cleared) hen hd h0 h2 _

/-! ### The index (07 R256, R258) -/

/-- The latch registers at an index edge, and what the encoder keeps of it. -/
def indexLatched (s : State) : State :=
  (((s.wr R.FB_IDXPREV (s.rd R.FB_IDXLAT)).wr R.FB_IDXLAT (wrapTo 32 (s.fsrc s.fbIdx).posx)).inc R.FB_IDXCNT).setAbz
    (fun z => { z with idxSeen := true, idxUp := z.up, idxReversed := false, idxFrom := (s.fsrc s.fbIdx).posx })

/-- The alignment of the index source at its first index edge (07 R248). -/
def indexAligned (posx : Int) (s : State) : State :=
  let referred := s.setAbz (fun z => { z with angref := posx + s.rdI R.FB_POSCORR - s.rd R.FB_IDX_CFG_IANG })
  referred.setFsrc referred.fbIdx (fun x => { x with aligned := true })

/-- The drift check between two latches (07 R257, R259). -/
def driftChecked (d : Int) (s : State) : State :=
  let s := s.wr R.FB_IDX_STAT_DRIFT (wrapTo 16 (clampI (-32767) 32767 d))
  if (s.rd R.FB_IDXTOL : Int) < d ∨ d < -(s.rd R.FB_IDXTOL : Int) then idxDrift (s.rd R.FB_IDX_STAT_DRIFT) d s else idxGood d s

/-- An index edge latches; it aligns its source, or has the drift checked, or neither. -/
theorem indexEdge_cases (s : State) :
    ((s.fsrc s.fbIdx).valid = false ∨ (s.fsrc s.fbIdx).aligned = true) ∧ indexEdge s = indexLatched s ∨
    indexEdge s = indexAligned (s.fsrc s.fbIdx).posx (indexLatched s) ∨
    (s.fsrc s.fbIdx).aligned = true ∧ ∃ d, indexEdge s = driftChecked d (indexLatched s) := by
  unfold indexEdge
  extract_lets x prev lat latched d seen noted
  split
  next h => exact .inl ⟨.inl (by simpa using h), rfl⟩
  next =>
    split
    next => exact .inr (.inl rfl)
    next ha =>
      have haligned : x.aligned = true := by simpa using ha
      split
      next => exact .inl ⟨.inr haligned, rfl⟩
      next =>
        cases d with
        | none => exact .inl ⟨.inr haligned, rfl⟩
        | some d => exact .inr (.inr ⟨haligned, d, rfl⟩)

theorem fbIdx_bounds {s : State} (h : s.fbIdx ≠ 0) : 1 ≤ s.fbIdx ∧ s.fbIdx ≤ 5 := by
  unfold State.fbIdx at h ⊢
  by_cases hsel : s.rd R.FB_SEL_IDXSRC ≤ 2
  · rw [if_pos hsel] at h ⊢
    omega
  · exact absurd (if_neg hsel) h

theorem State.fbIdx_congr {s t : State} (h : t.rd R.FB_SEL_IDXSRC = s.rd R.FB_SEL_IDXSRC) : t.fbIdx = s.fbIdx := by
  unfold State.fbIdx
  rw [h]

/-- What an index edge writes first. -/
abbrev latchFlds : List Fld := [R.FB_IDXPREV, R.FB_IDXLAT, R.FB_IDXCNT]

theorem rd_indexLatched {g : Fld} (hg : g.FbClearOf latchFlds) (s : State) : (indexLatched s).rd g = s.rd g := by
  unfold indexLatched State.inc State.add
  rw [State.rd_setAbz, State.rd_wr_fb _ hg (by decide), State.rd_wr_fb _ hg (by decide), State.rd_wr_fb _ hg (by decide)]

theorem indexLatched_shows (s : State) : (indexLatched s).rd R.FB_IDXLAT = wrapTo 32 (s.fsrc s.fbIdx).posx ∧
    (indexLatched s).rd R.FB_IDXPREV = s.rd R.FB_IDXLAT ∧
    (indexLatched s).rd R.FB_IDXCNT = min (s.rd R.FB_IDXCNT + 1) (2 ^ (R.FB_IDXCNT).width - 1) := by
  have hother : ∀ (u : State) (f g : Fld) (v : Nat), fbWord f.addr ∧ fbWord g.addr ∧ f.Misses g → (u.wr f v).rd g = u.rd g :=
    fun u _ _ v hfg => u.rd_wr_fbOther hfg v
  unfold indexLatched
  rw [State.rd_setAbz, State.rd_setAbz, State.rd_setAbz, State.rd_inc_same _ (by decide), hother _ R.FB_IDXLAT R.FB_IDXCNT _ (by decide),
    hother _ R.FB_IDXPREV R.FB_IDXCNT _ (by decide)]
  refine ⟨?_, ?_, rfl⟩
  · exact (hother _ R.FB_IDXCNT R.FB_IDXLAT _ (by decide)).trans (State.rd_wr_wrapTo _ (by decide) rfl _)
  · refine (hother _ R.FB_IDXCNT R.FB_IDXPREV _ (by decide)).trans ((hother _ R.FB_IDXLAT R.FB_IDXPREV _ (by decide)).trans ?_)
    exact s.rd_wr_fits (by decide) (s.rd_lt R.FB_IDXLAT)

theorem indexLatched_fb (s : State) : (indexLatched s).fb.src = s.fb.src ∧ (indexLatched s).fb.abz.idxSeen = true := by
  unfold indexLatched
  rw [State.setAbz_src, State.inc_fb, State.wr_fb, State.wr_fb]
  exact ⟨rfl, by rw [State.setAbz_abz]⟩

theorem rd_indexAligned (posx : Int) (s : State) (g : Fld) : (indexAligned posx s).rd g = s.rd g := by
  unfold indexAligned
  dsimp only
  rw [State.rd_setFsrc, State.rd_setAbz]

/-- The latch registers stand whatever the drift is. -/
theorem rd_driftChecked {g : Fld} (hg : g.FbClearOf missFlds) (d : Int) (s : State) : (driftChecked d s).rd g = s.rd g := by
  have hd : g.FbClearOf driftFlds := ⟨hg.1, fun f hf => hg.2 f (List.mem_cons_of_mem _ (List.mem_cons_of_mem _ hf))⟩
  unfold driftChecked
  dsimp only
  split
  · rw [rd_idxDrift hd, State.rd_wr_fb _ hg (by decide)]
  · rw [rd_idxGood hd, State.rd_wr_fb _ hg (by decide)]

theorem driftChecked_fb (d : Int) (s : State) : (driftChecked d s).fb.src = s.fb.src ∧
    (driftChecked d s).fb.abz.idxSeen = s.fb.abz.idxSeen := by
  unfold driftChecked
  dsimp only
  split
  · exact ⟨(idxDrift_fb (fun b => b.src) (fun _ _ _ _ => rfl) (fun _ _ _ => rfl) _ _ _).trans (congrArg _ (State.wr_fb _ _ _)),
      (idxDrift_fb (fun b => b.abz.idxSeen) (fun _ _ _ _ => rfl) (fun _ _ _ => rfl) _ _ _).trans (by rw [State.wr_fb])⟩
  · exact ⟨(idxGood_fb (fun b => b.src) (fun _ _ _ => rfl) (fun _ _ => rfl) _ _).trans (congrArg _ (State.wr_fb _ _ _)),
      (idxGood_fb (fun b => b.abz.idxSeen) (fun _ _ _ => rfl) (fun _ _ => rfl) _ _).trans (by rw [State.wr_fb])⟩

theorem rd_indexEdge {g : Fld} (hg : g.FbClearOf missFlds) (s : State) : (indexEdge s).rd g = (indexLatched s).rd g := by
  obtain ⟨-, h⟩ | h | ⟨-, d, h⟩ := indexEdge_cases s
  · rw [h]
  · rw [h, rd_indexAligned]
  · rw [h, rd_driftChecked hg]

theorem indexEdge_idxSeen (s : State) : (indexEdge s).fb.abz.idxSeen = true := by
  have hseen := (indexLatched_fb s).2
  obtain ⟨-, h⟩ | h | ⟨-, d, h⟩ := indexEdge_cases s
  · rw [h, hseen]
  · rw [h]
    exact hseen
  · rw [h, (driftChecked_fb d _).2, hseen]

/-- A VALID index source is aligned after an index edge (07 R248). -/
theorem indexEdge_aligned {s : State} (hidx : s.fbIdx ≠ 0) (hvalid : (s.fsrc s.fbIdx).valid = true) :
    ((indexEdge s).fsrc s.fbIdx).aligned = true := by
  have hsrc := (indexLatched_fb s).1
  obtain ⟨hskip, h⟩ | h | ⟨haligned, d, h⟩ := indexEdge_cases s
  · rw [h, State.fsrc_of_src hsrc]
    exact hskip.resolve_left (by rw [hvalid]; decide)
  · have hsame : (indexLatched s).fbIdx = s.fbIdx := State.fbIdx_congr (rd_indexLatched (by decide) s)
    rw [h]
    unfold indexAligned
    dsimp only
    rw [State.fbIdx_congr (State.rd_setAbz _ _ _), hsame, State.fsrc_setFsrc_same _ _ (fbIdx_bounds hidx)]
  · rw [h, State.fsrc_of_src ((driftChecked_fb d _).1.trans hsrc), haligned]

/-- The level of ENC_Z taken, at an instant. -/
def State.zTaken (s : State) (tb : Nat) : State := { s.setAbz (fun x => { x with z := true }) with time.tb := tb }

theorem rd_zTaken (s : State) (tb : Nat) (g : Fld) : (s.zTaken tb).rd g = s.rd g := rfl

/-- A rising edge that is taken is an index edge, a few cyc later. -/
theorem indexTake_rise {s : State} (hz : s.fb.abz.z = false) (hen : s.on R.FB_CTL_EN = true) (hidx : s.fbIdx ≠ 0)
    (hfault : s.fb.abz.faultZ = false) (hqual : s.on R.FB_ABZ_CFG_ZQUAL = false ∨ (s.fb.abz.a = true ∧ s.fb.abz.b = true)) (t : Nat) :
    ∃ tb, indexTake true t s = indexEdge (s.zTaken tb) := by
  have hskip : ¬((!(true && !s.fb.abz.z)) = true ∨ (!s.on R.FB_CTL_EN) = true ∨ s.fbIdx = 0 ∨ s.fb.abz.faultZ = true ∨
      (s.on R.FB_ABZ_CFG_ZQUAL = true ∧ (!(s.fb.abz.a ∧ s.fb.abz.b : Bool)) = true)) := by
    rw [hz, hen, hfault]
    rintro (h | h | h | h | ⟨hon, hab⟩)
    · exact absurd h (by decide)
    · exact absurd h (by decide)
    · exact hidx h
    · exact absurd h (by decide)
    · obtain hq | ⟨ha, hb⟩ := hqual
      · rw [hq] at hon
        exact absurd hon (by decide)
      · rw [ha, hb] at hab
        exact absurd hab (by decide)
  exact ⟨_, if_neg hskip⟩

theorem indexTake_fall (t : Nat) (s : State) : indexTake false t s = s.setAbz (fun x => { x with z := false }) := by
  unfold indexTake
  exact if_pos (.inl rfl)

theorem indexLatch_inTime {s : State} (h : s.edgeLate = false) (z : Bool) : indexLatch z s = indexTake z s.time.tb s := by
  unfold indexLatch
  rw [h, if_neg Bool.false_ne_true]

/-- An index miss marks the drift as none and begins the travel anew (07 R258). -/
def missNoted (s : State) : State :=
  ((s.wr R.FB_IDX_STAT_MISS 1).wr R.FB_IDX_STAT_DRIFT 0x8000).setAbz (fun z => { z with idxFrom := (s.fsrc s.fbIdx).posx })

theorem indexMissIfDue_due {s : State} (hen : s.on R.FB_CTL_EN = true) (hidx : s.fbIdx ≠ 0) (hseen : s.fb.abz.idxSeen = true)
    (hfar : s.cprOf s.fbIdx + s.rd R.FB_IDXTOL < (diff48 (s.fsrc s.fbIdx).posx s.fb.abz.idxFrom).natAbs) :
    indexMissIfDue s = idxDrift 0x8000 0 (missNoted s) := by
  unfold indexMissIfDue
  exact if_pos ⟨hen, hidx, hseen, hfar⟩

theorem missNoted_facts (s : State) : (missNoted s).rd R.FB_IDX_STAT_MISS = 1 ∧
    (missNoted s).fb.abz.idxFrom = (s.fsrc s.fbIdx).posx := by
  unfold missNoted
  rw [State.rd_setAbz, State.setAbz_abz, State.rd_wr_fbOther _ (by decide)]
  exact ⟨s.rd_wr_same (by decide) 1, rfl⟩

/-- An event raised stays among those of the tick. -/
theorem mem_evs_degradedAction {e : Nat × Nat} {s : State} (h : e ∈ s.te.evs) : e ∈ (degradedAction s).te.evs := by
  unfold degradedAction
  dsimp only
  split
  · split
    · exact h
    · rw [State.cause_te]
      exact List.mem_append_left _ h
  · rw [State.event_te]
    exact List.mem_append_left _ h

/-- A drift check raises IDXDRIFT (07 R259). -/
theorem idxDrift_raises (drift : Nat) (acc : Int) (s : State) : (40, 0x030C) ∈ (idxDrift drift acc s).te.evs := by
  unfold idxDrift
  extract_lets raised written marked degraded _
  have hraised : (40, 0x030C) ∈ raised.te.evs := by
    unfold raised
    rw [State.event_te]
    exact List.mem_append_right _ (List.mem_singleton_self _)
  have hmarked : marked.te = raised.te := by
    unfold marked written
    rw [show ∀ (u : State) f, (u.setAbz f).te = u.te from fun _ _ => rfl, State.wr_te, State.wr_te, State.inc_te]
  split
  · have hdegraded : degraded.te = marked.te := State.wr_te _ _ _
    refine mem_evs_degradedAction (s := { degraded with fb := _ }) ?_
    dsimp only
    rw [hdegraded, hmarked]
    exact hraised
  · rw [hmarked]
    exact hraised

/-! ### Line faults (07 R253) -/

/-- The flag of an RS-422 pair. -/
def AbzState.flagged (pair : Fin 3) (present : Bool) (z : AbzState) : AbzState :=
  match pair with
  | 0 => { z with faultA := present }
  | 1 => { z with faultB := present }
  | 2 => { z with faultZ := present }

/-- The flags of the pairs shown in FB.ABZ_STAT. -/
def faultsShown (z : AbzState) (s : State) : State :=
  ((s.setAbz (fun _ => z)).wr R.FB_ABZ_STAT_ABFAULT (b2n (z.faultA || z.faultB))).wr R.FB_ABZ_STAT_ZFAULT (b2n z.faultZ)

theorem lineFault_eq (pair : Fin 3) (present : Bool) (s : State) :
    lineFault pair present s = fbLoseIfDue 1 (faultsShown (s.fb.abz.flagged pair present) s) := rfl

theorem faultsShown_facts (z : AbzState) (s : State) : (faultsShown z s).rd R.FB_ABZ_STAT_ABFAULT = b2n (z.faultA || z.faultB) ∧
    (faultsShown z s).rd R.FB_ABZ_STAT_ZFAULT = b2n z.faultZ ∧ (faultsShown z s).fb.abz = z := by
  unfold faultsShown
  rw [State.wr_fb, State.wr_fb, State.setAbz_abz]
  exact ⟨(State.rd_wr_fbOther _ (by decide) _).trans (State.rd_wr_b2n _ (by decide) _), State.rd_wr_b2n _ (by decide) _, rfl⟩

theorem State.fbCond_abz (s : State) :
    s.fbCond 1 = (s.fb.abz.faultA || s.fb.abz.faultB || decide (16 ≤ s.fb.abz.illTick)) := rfl

/-- A fault of a pair shows, and one on ENC_A or ENC_B takes VALID. -/
theorem lineFault_facts (pair : Fin 3) (present : Bool) (s : State) {z : AbzState} (hz : s.fb.abz.flagged pair present = z) :
    (lineFault pair present s).rd R.FB_ABZ_STAT_ABFAULT = b2n (z.faultA || z.faultB) ∧
    (lineFault pair present s).rd R.FB_ABZ_STAT_ZFAULT = b2n z.faultZ ∧ (lineFault pair present s).fb.abz = z ∧
    ((z.faultA || z.faultB) = true → ((lineFault pair present s).fsrc 1).valid = false) := by
  obtain ⟨hab, hzf, habz⟩ := faultsShown_facts z s
  rw [lineFault_eq, hz, rd_fbLoseIfDue (by decide), rd_fbLoseIfDue (by decide), fbLoseIfDue_abz]
  refine ⟨hab, hzf, habz, fun hfault => fbLoseIfDue_valid (by decide) ?_⟩
  rw [State.fbCond_abz, habz, hfault, Bool.true_or]

/-- Settles O36: each step in its branch, the count and the latch carried through the index miss, the emulation and the loss of VALID. -/
theorem incrementalEncoder : Obligations.IncrementalEncoder := by
  intro s hr
  refine ⟨fun a b hen hlate hd => ?_, fun a b hen hlate hd => ?_, fun a b hen hlate hd => ?_, fun a b hlate => ?_,
    fun hz hen hlate hidx hfault hqual => ?_, fun hlate => ?_, fun hen hidx hseen hfar => ?_, fun present => ?_, fun present => ?_,
    fun present => ?_⟩
  · obtain ⟨t, ht, hposx, hrest⟩ := exec_encoderEdge_counts hr hen hlate hd (by decide) (by decide)
    refine ⟨t, ht, hposx.trans ?_, hrest⟩
    cases s.on R.FB_ABZ_CFG_SWAP <;> rfl
  · obtain ⟨t, ht, hposx, hrest⟩ := exec_encoderEdge_counts hr hen hlate hd (by decide) (by decide)
    refine ⟨t, ht, hposx.trans ?_, hrest⟩
    cases s.on R.FB_ABZ_CFG_SWAP <;> rfl
  · refine ⟨_, live_next _ hr, ?_⟩
    rw [encoderEdge_inTime (s := s.cleared) hlate]
    exact encoderTake_illegal (s := s.cleared) hen hd _
  · exact ⟨_, live_next _ hr, by rw [encoderEdge_late (s := s.cleared) hlate]; exact ⟨rfl, rfl⟩⟩
  · refine ⟨_, live_next _ hr, ?_⟩
    obtain ⟨tb, htake⟩ := indexTake_rise (s := s.cleared) hz hen hidx hfault hqual s.cleared.time.tb
    rw [indexLatch_inTime (s := s.cleared) hlate, htake]
    have hsame : (s.cleared.zTaken tb).fbIdx = s.fbIdx := State.fbIdx_congr ((rd_zTaken _ _ _).trans (s.cleared_rd _))
    obtain ⟨hlat, hprev, hcnt⟩ := indexLatched_shows (s.cleared.zTaken tb)
    rw [hsame] at hlat
    refine ⟨(rd_indexEdge (by decide) _).trans hlat, (rd_indexEdge (by decide) _).trans hprev, (rd_indexEdge (by decide) _).trans hcnt,
      fun hvalid => ?_, indexEdge_idxSeen _⟩
    have haligned := indexEdge_aligned (s := s.cleared.zTaken tb) (by rw [hsame]; exact hidx) (by rw [hsame]; exact hvalid)
    rwa [hsame] at haligned
  · exact ⟨_, live_next _ hr, by rw [indexLatch_inTime (s := s.cleared) hlate, indexTake_fall]; exact ⟨rfl, rfl⟩⟩
  · refine ⟨_, live_next _ hr, ?_⟩
    obtain ⟨hmiss, hfrom⟩ := missNoted_facts s.cleared
    rw [indexMissIfDue_due (s := s.cleared) hen hidx hseen hfar]
    exact ⟨(rd_idxDrift (by decide) _ _ _).trans hmiss, idxDrift_raises _ _ _,
      (idxDrift_fb (fun b => b.abz.idxFrom) (fun _ _ _ _ => rfl) (fun _ _ _ => rfl) _ _ _).trans hfrom⟩
  · obtain ⟨hab, -, habz, hvalid⟩ := lineFault_facts 0 present s.cleared rfl
    exact ⟨_, live_next _ hr, hab, congrArg AbzState.faultA habz, fun hp => hvalid (by rw [hp]; rfl)⟩
  · obtain ⟨hab, -, habz, hvalid⟩ := lineFault_facts 1 present s.cleared rfl
    exact ⟨_, live_next _ hr, hab, congrArg AbzState.faultB habz, fun hp => hvalid (by rw [hp]; exact Bool.or_true _)⟩
  · obtain ⟨-, hzf, habz, -⟩ := lineFault_facts 2 present s.cleared rfl
    exact ⟨_, live_next _ hr, hzf, congrArg AbzState.faultZ habz⟩

end Sys2Proof.Machine
end

section
/-! O35. Feedback enabled, corrected and returned to the primary; a source VALID again (07 R247–R249, R260, R271; assumption log 21 for the
sources VALID at the enable). -/

namespace Sys2Proof.Machine

/-! ### The output pins (07 R275) -/

@[simp] theorem rd_emuPins (s : State) (g : Fld) : (emuPins s).rd g = s.rd g := rfl

@[simp] theorem emuPins_fsrc (s : State) (k : Nat) : (emuPins s).fsrc k = s.fsrc k := rfl

/-- Without EN the emulation's outputs are low. -/
theorem emuPins_low {s : State} (h : s.on R.FB_CTL_EN = false) :
    (emuPins s).fb.emuA = false ∧ (emuPins s).fb.emuB = false ∧ (emuPins s).fb.emuZ = false := by
  unfold emuPins
  dsimp only
  rw [if_neg (by rw [h]; exact fun hon => Bool.false_ne_true hon.2)]
  exact ⟨rfl, rfl, rfl⟩

/-! ### VALID at the enable (07 R249) -/

/-- A source as an enable starts it. -/
def State.sourceStarted (s : State) (c : Nat) : State :=
  s.setFsrc c (fun x => { x with
    valid := !s.fbCond c, calm := 0, aligned := false, first := false, hist := [], older := none
    scaled := if s.cprOf c = 0 then 0 else signedOf 48 (wrapTo 48 (x.posx * (s.cprOf s.fbPri : Nat) / (s.cprOf c : Nat)))
    rem := if s.cprOf c = 0 then 0 else x.posx * (s.cprOf s.fbPri : Nat) % (s.cprOf c : Nat) })

/-- The decoders and the selection as an enable starts them. -/
def feedbackStarted (s : State) : State :=
  { s with fb := { s.fb with
    abz := { s.fb.abz with
      ext := (s.fsrc 1).posx, lead := none, leadHist := [], rev := none, idxSeen := false, illTick := 0, late := [] }
    hall := {}
    lost := false, lossPend := false, hadLoss := false, prioRun := 0, change := none, hofs := 0, winFrom := s.time.tb } }

/-- The source that an enable selects. -/
def operatingChosen (s : State) : State :=
  (s.wr R.FB_STAT_OPSRC (if !s.fbPriOk && s.fbSecOk then s.fbSec else s.fbPri)).wr R.FB_STAT_WHY (b2n (!s.fbPriOk && s.fbSecOk))

/-- The state that an enable has started, before the Hall state that stands is mapped. -/
def feedbackEnabled (s : State) : State := feedbackStarted ([1, 2, 3, 4, 5].foldl State.sourceStarted (s.wr R.FB_CTL_EN 1))

theorem fbEnWrite_off (s : State) : fbEnWrite false s = emuPins (s.wr R.FB_CTL_EN 0) := rfl

section
variable {s : State}

theorem fbEnWrite_again (hon : s.on R.FB_CTL_EN = true) : fbEnWrite true s = s := by
  unfold fbEnWrite
  rw [if_neg (by decide), if_pos hon]

theorem fbEnWrite_refused (hoff : s.on R.FB_CTL_EN = false) (hbad : s.fbRefused = true) :
    fbEnWrite true s = s.wr R.FB_STAT_CFGERR 1 := by
  unfold fbEnWrite
  rw [if_neg (by decide), hoff, if_neg Bool.false_ne_true, if_pos hbad]

theorem fbEnWrite_enables (hoff : s.on R.FB_CTL_EN = false) (hok : s.fbRefused = false) :
    fbEnWrite true s = emuPins (operatingChosen (fbStatus
      (hallTake ((feedbackEnabled s).rd R.FB_HALL_STAT_STATE) (feedbackEnabled s).time.tb (feedbackEnabled s)))) := by
  unfold fbEnWrite
  rw [if_neg (by decide), hoff, if_neg Bool.false_ne_true, hok, if_neg Bool.false_ne_true]
  rfl

end

/-- What the clearing condition of a source rests on. -/
theorem State.fbCond_congr {s t : State} (habz : t.fb.abz = s.fb.abz) (hhall : t.fb.hall = s.fb.hall)
    (hexc : t.rd R.FB_RS_STAT_EXCFAULT = s.rd R.FB_RS_STAT_EXCFAULT) (hamp : ∀ k, (t.fsrc k).badAmp = (s.fsrc k).badAmp)
    (hrun : ∀ k, (t.fsrc k).badRun = (s.fsrc k).badRun) (code : Nat) : t.fbCond code = s.fbCond code := by
  have hon : t.on R.FB_RS_STAT_EXCFAULT = s.on R.FB_RS_STAT_EXCFAULT := State.on_congr hexc
  unfold State.fbCond
  dsimp only
  rw [habz, hhall, hon]
  split <;> simp only [hamp, hrun]

theorem State.fbCond_cleared (s : State) (code : Nat) : s.cleared.fbCond code = s.fbCond code :=
  State.fbCond_congr (by rw [State.cleared_fb]) (by rw [State.cleared_fb]) (s.cleared_rd _) (fun k => by rw [State.fsrc_cleared])
    (fun k => by rw [State.fsrc_cleared]) code

theorem State.fbRefused_cleared (s : State) : s.cleared.fbRefused = s.fbRefused := rfl

theorem State.fbReturnOk_cleared (s : State) : s.cleared.fbReturnOk = s.fbReturnOk := rfl

theorem sourceStarted_fbCond (s : State) (c code : Nat) : (s.sourceStarted c).fbCond code = s.fbCond code :=
  State.fbCond_congr (t := s.sourceStarted c) (s := s) rfl rfl rfl (fun k => s.fsrc_setFsrc_keeps FbSource.badAmp (by exact fun _ => rfl) c k)
    (fun k => s.fsrc_setFsrc_keeps FbSource.badRun (by exact fun _ => rfl) c k) code

/-- Each source listed is VALID by its clearing condition. -/
theorem sourcesStarted_valid (l : List Nat) (s : State) (i : Fin 5) :
    ((l.foldl State.sourceStarted s).fsrc (i.val + 1)).valid = if i.val + 1 ∈ l then !s.fbCond (i.val + 1) else (s.fsrc (i.val + 1)).valid := by
  induction l generalizing s with
  | nil => rfl
  | cons c l ih =>
    rw [List.foldl_cons, ih, sourceStarted_fbCond]
    by_cases hl : i.val + 1 ∈ l
    · rw [if_pos hl, if_pos (List.mem_cons_of_mem c hl)]
    · rw [if_neg hl]
      unfold State.sourceStarted
      rw [State.fsrc_setFsrc]
      by_cases hc : i.val + 1 = c
      · rw [if_pos hc, if_pos (List.mem_cons.mpr (.inl hc)), hc]
      · rw [if_neg hc, if_neg (by rw [List.mem_cons]; exact not_or.mpr ⟨hc, hl⟩)]

theorem sourcesStarted_rd (l : List Nat) (s : State) (g : Fld) : (l.foldl State.sourceStarted s).rd g = s.rd g := by
  induction l generalizing s with
  | nil => rfl
  | cons c l ih => exact (ih _).trans (State.rd_setFsrc _ _ _ _)

theorem rd_feedbackStarted (s : State) (g : Fld) : (feedbackStarted s).rd g = s.rd g := rfl
theorem feedbackStarted_fsrc (s : State) (k : Nat) : (feedbackStarted s).fsrc k = s.fsrc k := rfl

theorem feedbackEnabled_facts (s : State) : (feedbackEnabled s).rd R.FB_CTL_EN = 1 ∧
    ∀ i : Fin 5, ((feedbackEnabled s).fsrc (i.val + 1)).valid = !s.fbCond (i.val + 1) := by
  have hcond : ∀ code, (s.wr R.FB_CTL_EN 1).fbCond code = s.fbCond code :=
    State.fbCond_congr (by rw [State.wr_fb]) (by rw [State.wr_fb]) (s.rd_wr_fbOther (by decide) 1) (fun k => by rw [State.fsrc_wr])
      (fun k => by rw [State.fsrc_wr])
  unfold feedbackEnabled
  rw [rd_feedbackStarted, sourcesStarted_rd]
  refine ⟨s.rd_wr_same (by decide) 1, fun i => ?_⟩
  rw [feedbackStarted_fsrc, sourcesStarted_valid, if_pos (by fin_cases i <;> decide), hcond]

/-- The marks of a loss and the offset of a switch-over. -/
def FbState.marks (b : FbState) : Bool × Bool × Int := (b.lost, b.hadLoss, b.hofs)

theorem feedbackEnabled_fresh (s : State) : (feedbackEnabled s).fb.hall.seen = false ∧ (feedbackEnabled s).fb.marks = (false, false, 0) :=
  ⟨rfl, rfl⟩

theorem setHall_marks (s : State) (h : HallState) : (s.setHall h).fb.marks = s.fb.marks := rfl
theorem setFsrc_marks (s : State) (c : Nat) (f : FbSource → FbSource) : (s.setFsrc c f).fb.marks = s.fb.marks := rfl
theorem setPosx_marks (s : State) (c : Nat) (v : Int) : (s.setPosx c v).fb.marks = s.fb.marks := rfl
theorem emuPins_marks (s : State) : (emuPins s).fb.marks = s.fb.marks := rfl

/-- What the Hall state that stands, once mapped, leaves of a feedback just enabled. -/
theorem hallTake_started {s : State} (hseen : s.fb.hall.seen = false) (code t : Nat) :
    (hallTake code t s).rd R.FB_CTL_EN = s.rd R.FB_CTL_EN ∧ (hallTake code t s).fb.marks = s.fb.marks ∧
      ∀ k, ((hallTake code t s).fsrc k).valid = (s.fsrc k).valid := by
  by_cases hsec : 6 ≤ s.hallSector code
  · rw [hallTake_invalid hsec, State.rd_setHall, State.rd_wr_fbOther _ (by decide), setHall_marks, State.wr_fb]
    exact ⟨rfl, rfl, fun k => by rw [State.fsrc_setHall, State.fsrc_wr]⟩
  · rw [hallTake_first (by omega) hseen, State.rd_setFsrc, State.rd_setPosx, State.rd_setHall, setFsrc_marks, setPosx_marks, setHall_marks]
    refine ⟨rfl, rfl, fun k => (State.fsrc_setFsrc_keeps FbSource.valid (by exact fun _ => rfl) _ _ _).trans ?_⟩
    exact (State.setPosx_keeps FbSource.valid (fun _ _ _ _ => rfl) _ _ _ _).trans (congrArg FbSource.valid (State.fsrc_setHall _ _ _))

/-! ### FB.STAT (07 R248–R250) -/

theorem rd_fbStatus {g : Fld} (hg : g.FbClearOf [R.FB_STAT_PRIOK, R.FB_STAT_SECOK, R.FB_STAT_ALIGNED]) (s : State) :
    (fbStatus s).rd g = s.rd g := by
  unfold fbStatus
  rw [State.rd_wr_fb _ hg (by decide), State.rd_wr_fb _ hg (by decide), State.rd_wr_fb _ hg (by decide)]

theorem fbStatus_fb (s : State) : (fbStatus s).fb = s.fb := by
  unfold fbStatus
  rw [State.wr_fb, State.wr_fb, State.wr_fb]

theorem rd_operatingChosen {g : Fld} (hg : g.FbClearOf [R.FB_STAT_OPSRC, R.FB_STAT_WHY]) (s : State) :
    (operatingChosen s).rd g = s.rd g := by
  unfold operatingChosen
  rw [State.rd_wr_fb _ hg (by decide), State.rd_wr_fb _ hg (by decide)]

theorem operatingChosen_fb (s : State) : (operatingChosen s).fb = s.fb := by
  unfold operatingChosen
  rw [State.wr_fb, State.wr_fb]

/-- An enable that is not refused: EN stands, each source is VALID by its clearing condition, no loss is marked. -/
theorem fbEnWrite_starts {s : State} (hoff : s.on R.FB_CTL_EN = false) (hok : s.fbRefused = false) :
    (fbEnWrite true s).rd R.FB_CTL_EN = 1 ∧ (fbEnWrite true s).fb.marks = (false, false, 0) ∧
      ∀ i : Fin 5, ((fbEnWrite true s).fsrc (i.val + 1)).valid = !s.fbCond (i.val + 1) := by
  obtain ⟨hen, hvalid⟩ := feedbackEnabled_facts s
  obtain ⟨hseen, hmarks⟩ := feedbackEnabled_fresh s
  rw [fbEnWrite_enables hoff hok]
  generalize (feedbackEnabled s).rd R.FB_HALL_STAT_STATE = code
  obtain ⟨hhallEn, hhallMarks, hhallValid⟩ := hallTake_started hseen code (feedbackEnabled s).time.tb
  rw [rd_emuPins, rd_operatingChosen (by decide), rd_fbStatus (by decide), hhallEn, emuPins_marks, operatingChosen_fb, fbStatus_fb, hhallMarks]
  refine ⟨hen, hmarks, fun i => ?_⟩
  rw [emuPins_fsrc, State.fsrc_of_src (congrArg FbState.src (operatingChosen_fb _)), State.fsrc_of_src (congrArg FbState.src (fbStatus_fb _)),
    hhallValid]
  exact hvalid i

/-! ### USEPRI and VALID (07 R248, R249, R271) -/

theorem fbUsePri_returns {s : State} (hwhy : s.rd R.FB_STAT_WHY = 3) (hok : s.fbReturnOk = true) :
    fbUsePri s = { s with fb := { s.fb with change := some 0 } } := by
  unfold fbUsePri
  exact if_pos ⟨hwhy, hok⟩

theorem fbUsePri_refused {s : State} (hno : s.rd R.FB_STAT_WHY ≠ 3 ∨ s.fbReturnOk = false) : fbUsePri s = s.wr R.FB_STAT_CFGERR 1 := by
  unfold fbUsePri
  refine if_neg fun ⟨hwhy, hok⟩ => hno.elim (fun h => h hwhy) fun h => ?_
  rw [h] at hok
  exact Bool.false_ne_true hok

theorem sourceValidIfDue_calm {code : Nat} {s : State} (hvalid : (s.fsrc code).valid = false) (hcond : s.fbCond code = false)
    (hcalm : 64 ≤ (s.fsrc code).calm) (hen : s.on R.FB_CTL_EN = true) :
    sourceValidIfDue code s = s.setFsrc code (fun x => { x with valid := true }) := by
  unfold sourceValidIfDue
  exact if_pos ⟨by rw [hvalid]; rfl, by rw [hcond]; rfl, hcalm, hen⟩

/-- Settles O35: an enable starts each source by its clearing condition, and what follows in the write changes neither that nor EN. -/
theorem feedbackControl : Obligations.FeedbackControl := by
  intro s hr
  have hon : ∀ f, s.cleared.on f = s.on f := fun f => State.on_congr (s.cleared_rd f)
  refine ⟨?_, fun hoff hbad => ?_, fun hoff hok => ?_, fun hen => ?_, ⟨_, live_next _ hr, rfl, rfl⟩, fun hwhy hok => ?_, fun hno => ?_,
    fun source hvalid hcond hcalm hen => ?_⟩
  · have hen : (s.cleared.wr R.FB_CTL_EN 0).rd R.FB_CTL_EN = 0 := s.cleared.rd_wr_same (by decide) 0
    refine ⟨_, live_next _ hr, ?_⟩
    rw [fbEnWrite_off, rd_emuPins]
    exact ⟨hen, emuPins_low (by unfold State.on; rw [hen]; rfl)⟩
  · refine ⟨_, live_next _ hr, ?_⟩
    have hsame : s.rd R.FB_CTL_EN = 0 := by simpa [State.on] using hoff
    rw [← hon] at hoff
    rw [← s.fbRefused_cleared] at hbad
    rw [fbEnWrite_refused hoff hbad, State.rd_wr_fbOther _ (by decide), State.cleared_rd]
    exact ⟨hsame, State.rd_wr_same _ (by decide) 1⟩
  · rw [← hon] at hoff
    rw [← s.fbRefused_cleared] at hok
    obtain ⟨hen, hmarks, hvalid⟩ := fbEnWrite_starts hoff hok
    obtain ⟨hlost, hloss, hofs⟩ : _ = _ ∧ _ = _ ∧ _ = _ := by simpa [FbState.marks] using hmarks
    exact ⟨_, live_next _ hr, hen, hlost, hloss, hofs, fun k => (hvalid k).trans (by rw [s.fbCond_cleared])⟩
  · rw [← hon] at hen
    exact ⟨_, live_next _ hr, fbEnWrite_again hen⟩
  · rw [← s.cleared_rd] at hwhy
    rw [← s.fbReturnOk_cleared] at hok
    exact ⟨_, live_next _ hr, by rw [fbUsePri_returns hwhy hok]; exact ⟨rfl, rfl⟩⟩
  · refine ⟨_, live_next _ hr, ?_⟩
    rw [← s.cleared_rd, ← s.fbReturnOk_cleared] at hno
    rw [fbUsePri_refused hno, State.wr_fb]
    exact ⟨State.rd_wr_same _ (by decide) 1, s.cleared_fb⟩
  · refine ⟨_, live_next _ hr, ?_⟩
    rw [← s.fsrc_cleared] at hvalid hcalm
    rw [← s.fbCond_cleared] at hcond
    rw [← hon] at hen
    rw [sourceValidIfDue_calm hvalid hcond hcalm hen, State.fsrc_setFsrc, if_pos rfl]
    exact ⟨rfl, rfl⟩

end Sys2Proof.Machine
end

section
/-! O38. Hall transitions and their timeout, and the edges of the encoder emulation (07 R268, R275, R276; assumption log 79 for
the spacing of the edges). -/

namespace Sys2Proof.Machine

/-! ### Transitions (07 R268) -/

section
variable {code t : Nat} {s : State}

theorem hallTake_neighbour_facts (h : s.hallSector code < 6) (hseen : s.fb.hall.seen = true)
    (hd : s.hallStep code = 1 ∨ s.hallStep code = 5) : ((hallTake code t s).fsrc 5).posx =
        signedOf 48 (wrapTo 48 ((s.fsrc 5).posx + if s.hallStep code = 1 then 1 else -1)) ∧
      (hallTake code t s).fb.hall.sector = s.hallSector code ∧ (hallTake code t s).rd R.FB_HALL_STAT_STATE = s.rd R.FB_HALL_STAT_STATE := by
  rw [hallTake_neighbour h hseen hd, emuTrack_fsrc, emuTrack_hall, rd_emuTrack (by decide), State.fsrc_setFsrc_same _ _ (by decide),
    State.setFsrc_hall, State.setPosx_hall, State.setHall_hall, State.rd_setFsrc, State.rd_setPosx, State.rd_setHall]
  exact ⟨State.setPosx_posx _ _ (by decide), rfl, rfl⟩

theorem hallTake_skip_facts (h : s.hallSector code < 6) (hseen : s.fb.hall.seen = true) (hd : 2 ≤ s.hallStep code ∧ s.hallStep code ≤ 4) :
    (hallTake code t s).rd R.FB_HALL_STAT_SKIP = 1 ∧ (hallTake code t s).fb.hall.sector = s.hallSector code := by
  obtain ⟨p, htake⟩ := hallTake_skip (t := t) h hseen hd
  rw [htake, rd_emuTrack (by decide), rd_fbLoseIfDue (by decide), emuTrack_hall, fbLoseIfDue_hall, State.setFsrc_hall, State.setPosx_hall,
    State.setHall_hall, State.rd_setFsrc, State.rd_setPosx, State.rd_setHall]
  exact ⟨s.rd_wr_same (by decide) 1, rfl⟩

theorem hallTake_invalid_facts (h : 6 ≤ s.hallSector code) : (hallTake code t s).rd R.FB_HALL_STAT_BADSTATE = 1 ∧
    (hallTake code t s).fb.hall.invalid = true ∧ ((hallTake code t s).fsrc 5).posx = (s.fsrc 5).posx := by
  rw [hallTake_invalid h, State.rd_setHall, State.setHall_hall, State.fsrc_setHall, State.fsrc_wr]
  exact ⟨s.rd_wr_same (by decide) 1, rfl, rfl⟩

/-- A sector is a count of 48 bits. -/
theorem signedOf_sector {n : Nat} (h : n < 6) : signedOf 48 (wrapTo 48 (n : Int)) = n := by
  unfold wrapTo signedOf
  rw [Int.emod_eq_of_lt (by omega) (by omega), Int.toNat_natCast, if_pos (by omega)]

theorem hallTake_first_facts (h : s.hallSector code < 6) (hseen : s.fb.hall.seen = false) : (hallTake code t s).fb.hall.seen = true ∧
    (hallTake code t s).fb.hall.sector = s.hallSector code ∧ ((hallTake code t s).fsrc 5).posx = (s.hallSector code : Nat) := by
  rw [hallTake_first h hseen, State.setFsrc_hall, State.setPosx_hall, State.setHall_hall, State.fsrc_setFsrc_same _ _ (by decide)]
  exact ⟨rfl, rfl, (State.setPosx_posx _ _ (by decide)).trans (signedOf_sector h)⟩

end

/-- The state on which a state code is mapped: the code shown in FB.HALL_STAT. -/
def State.hallShown (s : State) (code : Fin 8) : State := s.cleared.wr R.FB_HALL_STAT_STATE code.val

section
variable (s : State) (code : Fin 8)

theorem hallShown_state : (s.hallShown code).rd R.FB_HALL_STAT_STATE = code.val := s.cleared.rd_wr_fits (by decide) code.isLt

theorem hallShown_fb : (s.hallShown code).fb = s.fb := (s.cleared.wr_fb _ _).trans s.cleared_fb

theorem hallShown_rd {g : Fld} (hg : g.FbClearOf [R.FB_HALL_STAT_STATE]) : (s.hallShown code).rd g = s.rd g :=
  (s.cleared.rd_wr_fb hg (by decide) _).trans (s.cleared_rd g)

theorem hallShown_sector (c : Nat) : (s.hallShown code).hallSector c = s.hallSector c := by
  unfold State.hallSector
  rw [hallShown_rd s code (by decide)]

theorem hallShown_step (c : Nat) : (s.hallShown code).hallStep c = s.hallStep c := by
  unfold State.hallStep
  rw [hallShown_sector, hallShown_fb]

theorem hallShown_fsrc (k : Nat) : (s.hallShown code).fsrc k = s.fsrc k := State.fsrc_of_src (congrArg FbState.src (hallShown_fb s code)) k

end

/-- With EN a transition is shown and mapped, stamped FILT earlier. -/
theorem exec_hallTransition {s : State} (hr : s.Running) (hen : s.on R.FB_CTL_EN = true) (code : Fin 8) :
    exec (.hallTransition code) s = .next (hallTake code.val
      ((s.hallShown code).time.tb - (s.hallShown code).rd R.FB_HALL_CFG_FILT) (s.hallShown code)) := by
  have hen' : (s.hallShown code).on R.FB_CTL_EN = true := (State.on_congr (hallShown_rd s code (by decide))).trans hen
  have hskip : ¬(!(s.hallShown code).on R.FB_CTL_EN) = true := by rw [hen']; decide
  refine (live_next _ hr).trans (congrArg Host.Outcome.next ?_)
  unfold hallTransition
  exact if_neg hskip

/-- No transition for TMO ms stops the Hall speed. -/
theorem hallTimeoutIfDue_due {s : State} (hen : s.on R.FB_CTL_EN = true) (hrun : s.fb.hall.stopped = false)
    (hdue : s.fb.hall.tEdge + msCyc (s.rd R.FB_HALL_CFG_TMO) ≤ s.time.tb) :
    hallTimeoutIfDue s = s.setHall { s.fb.hall with stopped := true, gap := none, dir := 0, thEdge := hallCentre s.fb.hall.sector } := by
  unfold hallTimeoutIfDue
  exact if_pos ⟨hen, by rw [hrun]; rfl, hdue⟩

/-! ### The emulation's edges (07 R275) -/

/-- The instant of the next output edge. -/
def State.nextEdge (s : State) : Nat := max s.time.tb (max (s.fb.emuAt + 40) s.emuEdgeAt)

/-- The output moved to a count at an instant. -/
def State.outputMoved (s : State) (out : Int) (t : Nat) : State :=
  { s with time := { s.time with tb := t }, fb := { s.fb with emuOut := out, emuAt := t } }

theorem emulationEdge_moves {s : State} (hen : s.on R.FB_CTL_EN = true) (hemu : s.on R.FB_EMU_CFG_EN = true)
    (hne : s.fb.emuOut ≠ s.fb.emuTarget) (hin : s.nextEdge < s.time.tbLast + s.period) :
    emulationEdge s = emuPins (emuLag (s.outputMoved (if s.fb.emuOut < s.fb.emuTarget then s.fb.emuOut + 1 else s.fb.emuOut - 1)
      s.nextEdge)) := by
  have hskip : ¬((!s.on R.FB_EMU_CFG_EN) = true ∨ (!s.on R.FB_CTL_EN) = true ∨ s.fb.emuOut = s.fb.emuTarget ∨
      s.time.tbLast + s.period ≤ s.nextEdge) := by
    rw [hen, hemu]
    simp only [Bool.not_true, Bool.false_eq_true, false_or, not_or]
    exact ⟨hne, by omega⟩
  unfold emulationEdge
  exact if_neg hskip

theorem emulationEdge_facts {s : State} (hen : s.on R.FB_CTL_EN = true) (hemu : s.on R.FB_EMU_CFG_EN = true)
    (hne : s.fb.emuOut ≠ s.fb.emuTarget) (hin : s.nextEdge < s.time.tbLast + s.period) :
    (emulationEdge s).fb.emuOut = (if s.fb.emuOut < s.fb.emuTarget then s.fb.emuOut + 1 else s.fb.emuOut - 1) ∧
      (emulationEdge s).time.tb = s.nextEdge ∧ (emulationEdge s).fb.emuAt = s.nextEdge := by
  have hpins : ∀ u : State, (emuPins u).fb.emuOut = u.fb.emuOut ∧ (emuPins u).time = u.time ∧ (emuPins u).fb.emuAt = u.fb.emuAt :=
    fun _ => ⟨rfl, rfl, rfl⟩
  rw [emulationEdge_moves hen hemu hne hin, (hpins _).1, (hpins _).2.1, (hpins _).2.2, emuLag_fb, emuLag_time]
  exact ⟨rfl, rfl, rfl⟩

/-- Settles O38: each transition by the places between the sectors; an emulation edge moves the output one count toward its target. -/
theorem hallsAndEmulation : Obligations.HallsAndEmulation := by
  intro s hr hen
  have hcen : s.cleared.on R.FB_CTL_EN = true := (State.on_congr (s.cleared_rd _)).trans hen
  refine ⟨fun code hsec hseen hd => ?_, fun code hsec hseen hd => ?_, fun code hsec hseen hlo hhi => ?_, fun code hsec => ?_,
    fun code hsec hseen => ?_, fun hrun hdue => ?_, fun hemu hlt hin => ?_, fun hemu hlt hin => ?_⟩
  · rw [← hallShown_sector s code] at hsec
    have hstep : (s.hallShown code).hallStep code.val = 1 := (hallShown_step s code _).trans hd
    obtain ⟨hposx, hsector, hstate⟩ := hallTake_neighbour_facts hsec (by rw [hallShown_fb]; exact hseen) (.inl hstep)
    rw [hstep, if_pos rfl, hallShown_fsrc] at hposx
    exact ⟨_, exec_hallTransition hr hen code, hposx, hsector.trans (hallShown_sector s code _), hstate.trans (hallShown_state s code)⟩
  · rw [← hallShown_sector s code] at hsec
    have hstep : (s.hallShown code).hallStep code.val = 5 := (hallShown_step s code _).trans hd
    obtain ⟨hposx, hsector, hstate⟩ := hallTake_neighbour_facts hsec (by rw [hallShown_fb]; exact hseen) (.inr hstep)
    rw [hstep, if_neg (by decide), hallShown_fsrc] at hposx
    exact ⟨_, exec_hallTransition hr hen code, hposx, hsector.trans (hallShown_sector s code _), hstate.trans (hallShown_state s code)⟩
  · rw [← hallShown_sector s code] at hsec
    have hstep : 2 ≤ (s.hallShown code).hallStep code.val ∧ (s.hallShown code).hallStep code.val ≤ 4 := by
      rw [hallShown_step]
      exact ⟨hlo, hhi⟩
    obtain ⟨hskip, hsector⟩ := hallTake_skip_facts hsec (by rw [hallShown_fb]; exact hseen) hstep
    exact ⟨_, exec_hallTransition hr hen code, hskip, hsector.trans (hallShown_sector s code _)⟩
  · rw [← hallShown_sector s code] at hsec
    obtain ⟨hbad, hinvalid, hposx⟩ := hallTake_invalid_facts hsec
    exact ⟨_, exec_hallTransition hr hen code, hbad, hinvalid, hposx.trans (congrArg FbSource.posx (hallShown_fsrc s code 5))⟩
  · rw [← hallShown_sector s code] at hsec
    obtain ⟨hfirst, hsector, hposx⟩ := hallTake_first_facts hsec (by rw [hallShown_fb]; exact hseen)
    rw [hallShown_sector] at hsector hposx
    exact ⟨_, exec_hallTransition hr hen code, hfirst, hsector, hposx⟩
  · exact ⟨_, live_next _ hr, by rw [hallTimeoutIfDue_due (s := s.cleared) hcen hrun hdue]; exact ⟨rfl, rfl, rfl⟩⟩
  · obtain ⟨hout, htb, hat⟩ := emulationEdge_facts (s := s.cleared) hcen hemu (Int.ne_of_lt hlt) hin
    rw [State.cleared_fb, if_pos hlt] at hout
    exact ⟨_, live_next _ hr, hout, htb, hat.trans htb.symm⟩
  · obtain ⟨hout, htb, -⟩ := emulationEdge_facts (s := s.cleared) hcen hemu (Int.ne_of_gt hlt) hin
    rw [State.cleared_fb, if_neg (Int.not_lt.mpr (Int.le_of_lt hlt))] at hout
    exact ⟨_, live_next _ hr, hout, htb⟩

end Sys2Proof.Machine
end

section
/-! O37. Samples of the sin/cos encoder and the resolver, SSI frames (07 R262–R267; assumption log 79 for the order of the
corrections and the start bit). -/

namespace Sys2Proof.Machine

/-! ### Amplitudes (07 R263, R265) -/

theorem sampleAmp_lt (x y : Rat) : sampleAmp x y < 2 ^ 16 := by
  unfold sampleAmp clampI
  split
  · decide
  · split
    · decide
    · omega

/-- Four bad amplitudes in a row marked. -/
def ampJudged (code : Nat) (err : Fld) (s : State) : State := if 4 ≤ (s.fsrc code).badAmp then s.wr err 1 else s

theorem rd_ampJudged {err g : Fld} (h : fbWord err.addr ∧ fbWord g.addr ∧ err.Misses g) (code : Nat) (s : State) :
    (ampJudged code err s).rd g = s.rd g := by
  unfold ampJudged
  split
  · exact State.rd_wr_fbOther _ h _
  · rfl

@[simp] theorem ampJudged_time (code : Nat) (err : Fld) (s : State) : (ampJudged code err s).time = s.time := by
  unfold ampJudged
  split
  · rfl
  · rfl

/-- An amplitude posted and judged against its window. -/
def ampTaken (code : Nat) (f err : Fld) (amp : Nat) (bad : Bool) (s : State) : State :=
  ampJudged code err ((s.wr f amp).setFsrc code (fun x => { x with badAmp := if bad then x.badAmp + 1 else 0 }))

theorem ampTaken_amp {f err : Fld} (hf : f.Ok ∧ f.width = 16) (herr : fbWord err.addr ∧ fbWord f.addr ∧ err.Misses f) (code : Nat)
    (bad : Bool) (x y : Rat) (s : State) : (ampTaken code f err (sampleAmp x y) bad s).rd f = sampleAmp x y := by
  unfold ampTaken
  rw [rd_ampJudged herr, State.rd_setFsrc]
  exact s.rd_wr_fits hf.1 (by rw [hf.2]; exact sampleAmp_lt x y)

@[simp] theorem ampTaken_time (code : Nat) (f err : Fld) (amp : Nat) (bad : Bool) (s : State) :
    (ampTaken code f err amp bad s).time = s.time :=
  ampJudged_time _ _ _

/-! ### Sin/cos (07 R262, R263) -/

/-- The module at an instant. -/
def State.atTime (s : State) (t : Nat) : State := { s with time := { s.time with tb := t } }

/-- The fine angle of a sin/cos sample against the quarter periods counted: a quadrant fault, or the position. -/
def quadrantTaken (f : Int) (t : Nat) (s : State) : State :=
  let qf := f / 1024
  let d := (qf - s.fb.qc) % 4
  if d = 2 then
    let s := s.setFsrc 2 (fun x => { x with badRun := x.badRun + 1 })
    if 3 ≤ (s.fsrc 2).badRun then s.wr R.FB_SC_STAT_QUADERR 1 else s
  else
    let before := (s.fsrc 2).posx
    let posx := 1024 * (s.fb.qc + (if d = 3 then -1 else d) - qf) + f
    let s := fbSample 2 posx (ofFix 12 f) t (s.setFsrc 2 (fun x => { x with badRun := 0 }))
    let s := if s.fbIdx = 2 ∧ diff48 posx before ≠ 0 then fbDirection (0 < diff48 posx before) before s else s
    emuTrack (indexMissIfDue s)

/-- The sine and the cosine of a sample, corrected in offset and gain. -/
def State.sinCorrected (s : State) (sin : BitVec 16) : Rat :=
  grid ((ofFix 15 sin.toInt - s.rdQ R.FB_SC_OFS_SIN 15) * s.rdU R.FB_SC_GAIN_SIN 15)
def State.cosCorrected (s : State) (cos : BitVec 16) : Rat :=
  grid ((ofFix 15 cos.toInt - s.rdQ R.FB_SC_OFS_COS 15) * s.rdU R.FB_SC_GAIN_COS 15)

/-- The next grid point of the sin/cos converters. -/
def State.gridPoint (s : State) : Nat := s.fb.gridFrom + (s.time.tb - s.fb.gridFrom + 399) / 400 * 400

theorem sincosSample_eq (sin cos : BitVec 16) (s : State) : sincosSample sin cos s =
    if !s.on R.FB_CTL_EN ∨ s.time.tbLast + s.period ≤ s.gridPoint then s
    else
      let u := s.atTime s.gridPoint
      let amp := sampleAmp (u.sinCorrected sin) (u.cosCorrected cos)
      fbLoseIfDue 2 (quadrantTaken (toFix 12 (angleTurn (u.cosCorrected cos) (u.sinCorrected sin)) % 4096) s.gridPoint
        (ampTaken 2 R.FB_SC_STAT_AMP R.FB_SC_STAT_AMPERR amp (ampBad amp (u.rd R.FB_SC_AWIN_AMIN) (u.rd R.FB_SC_AWIN_AMAX)) u)) := rfl

/-- A quadrant taken leaves the amplitude and the time. -/
theorem quadrantTaken_facts (f : Int) (t : Nat) (s : State) :
    (quadrantTaken f t s).rd R.FB_SC_STAT_AMP = s.rd R.FB_SC_STAT_AMP ∧ (quadrantTaken f t s).time = s.time := by
  unfold quadrantTaken
  extract_lets qf d faulted before posx sampled turned
  split
  · split
    · exact ⟨(State.rd_wr_fbOther _ (by decide) _).trans (State.rd_setFsrc _ _ _ _), (State.wr_time _ _ _).trans (State.setFsrc_time _ _ _)⟩
    · exact ⟨State.rd_setFsrc _ _ _ _, State.setFsrc_time _ _ _⟩
  · have hsampled : sampled.rd R.FB_SC_STAT_AMP = s.rd R.FB_SC_STAT_AMP ∧ sampled.time = s.time :=
      ⟨(rd_fbSample _ _ _ _ _ _).trans (State.rd_setFsrc _ _ _ _), (fbSample_time _ _ _ _ _).trans (State.setFsrc_time _ _ _)⟩
    have hturned : turned.rd R.FB_SC_STAT_AMP = sampled.rd R.FB_SC_STAT_AMP ∧ turned.time = sampled.time := by
      unfold turned
      split
      · exact ⟨rd_fbDirection (by decide) _ _ _, fbDirection_time _ _ _⟩
      · exact ⟨rfl, rfl⟩
    rw [rd_emuTrack (by decide), rd_indexMissIfDue (by decide), emuTrack_time, indexMissIfDue_time]
    exact ⟨hturned.1.trans hsampled.1, hturned.2.trans hsampled.2⟩

/-- A sample is taken at the next grid point in the tick, and its corrected amplitude is posted. -/
theorem sincosSample_facts {s : State} (hen : s.on R.FB_CTL_EN = true) (hin : s.gridPoint < s.time.tbLast + s.period)
    (sin cos : BitVec 16) : (sincosSample sin cos s).time.tb = s.gridPoint ∧
      (sincosSample sin cos s).rd R.FB_SC_STAT_AMP = sampleAmp (s.sinCorrected sin) (s.cosCorrected cos) := by
  have hskip : ¬((!s.on R.FB_CTL_EN) = true ∨ s.time.tbLast + s.period ≤ s.gridPoint) := by
    rw [hen]
    exact not_or.mpr ⟨by decide, by omega⟩
  rw [sincosSample_eq, if_neg hskip]
  dsimp only
  rw [fbLoseIfDue_time, rd_fbLoseIfDue (by decide), (quadrantTaken_facts _ _ _).1, (quadrantTaken_facts _ _ _).2, ampTaken_time,
    ampTaken_amp (by decide) (by decide)]
  exact ⟨rfl, rfl⟩

/-! ### The resolver (07 R264, R265) -/

/-- The angle of a resolver sample taken as the position. -/
def angleTaken (ang t : Nat) (s : State) : State :=
  let o := s.fsrc 3
  let posx : Int := if o.first then o.posx + modDiff 16 ang o.raw else ang
  fbSample 3 posx (ofFix 16 ang) t (s.setFsrc 3 (fun x => { x with raw := ang }))

theorem resolverSample_eq (sin cos : BitVec 16) (excOk : Bool) (s : State) : resolverSample sin cos excOk s =
    if !s.on R.FB_CTL_EN ∨ s.time.tbLast + s.period ≤ (s.resolverPeak s.time.tb).1 then s
    else
      let u := s.atTime (max s.time.tb (s.resolverPeak s.time.tb).1)
      let sg : Rat := if (s.resolverPeak s.time.tb).2 then -1 else 1
      let amp := sampleAmp (sg * ofFix 15 sin.toInt) (sg * ofFix 15 cos.toInt)
      emuTrack (fbLoseIfDue 3 (angleTaken ((toFix 16 (angleTurn (sg * ofFix 15 cos.toInt) (sg * ofFix 15 sin.toInt))) % 65536).toNat
        (s.resolverPeak s.time.tb).1 ((ampTaken 3 R.FB_RS_STAT_AMP R.FB_RS_STAT_AMPERR amp
          (ampBad amp (u.rd R.FB_RS_AWIN_AMIN) (u.rd R.FB_RS_AWIN_AMAX)) u).wr R.FB_RS_STAT_EXCFAULT (b2n (!excOk))))) := rfl

theorem rd_angleTaken (ang t : Nat) (s : State) (g : Fld) : (angleTaken ang t s).rd g = s.rd g :=
  (rd_fbSample _ _ _ _ _ _).trans (State.rd_setFsrc _ _ _ _)

theorem angleTaken_time (ang t : Nat) (s : State) : (angleTaken ang t s).time = s.time :=
  (fbSample_time _ _ _ _ _).trans (State.setFsrc_time _ _ _)

theorem angleTaken_raw (ang t : Nat) (s : State) : ((angleTaken ang t s).fsrc 3).raw = ang := by
  unfold angleTaken
  dsimp only
  rw [fbSample_keeps FbSource.raw (fun _ _ _ _ => rfl) (fun _ _ _ _ => rfl) (fun _ _ => rfl), State.fsrc_setFsrc_same _ _ (by decide)]

/-- A sample is taken at the next excitation peak, with its amplitude, the excitation fault and the angle. -/
theorem resolverSample_facts {s : State} (hen : s.on R.FB_CTL_EN = true)
    (hin : (s.resolverPeak s.time.tb).1 < s.time.tbLast + s.period) (hpos : (s.resolverPeak s.time.tb).2 = false)
    (sin cos : BitVec 16) (ok : Bool) :
    (resolverSample sin cos ok s).time.tb = max s.time.tb (s.resolverPeak s.time.tb).1 ∧
      (resolverSample sin cos ok s).rd R.FB_RS_STAT_EXCFAULT = b2n (!ok) ∧
      (resolverSample sin cos ok s).rd R.FB_RS_STAT_AMP = sampleAmp (ofFix 15 sin.toInt) (ofFix 15 cos.toInt) ∧
      ((resolverSample sin cos ok s).fsrc 3).raw =
        ((toFix 16 (angleTurn (ofFix 15 cos.toInt) (ofFix 15 sin.toInt))) % 65536).toNat := by
  have hskip : ¬((!s.on R.FB_CTL_EN) = true ∨ s.time.tbLast + s.period ≤ (s.resolverPeak s.time.tb).1) := by
    rw [hen]
    exact not_or.mpr ⟨by decide, by omega⟩
  rw [resolverSample_eq, if_neg hskip]
  dsimp only
  rw [hpos, if_neg Bool.false_ne_true, one_mul, one_mul, emuTrack_time, fbLoseIfDue_time, angleTaken_time, State.wr_time, ampTaken_time]
  refine ⟨rfl, ?_, ?_, ?_⟩
  · rw [rd_emuTrack (by decide), rd_fbLoseIfDue (by decide), rd_angleTaken]
    exact State.rd_wr_b2n _ (by decide) _
  · rw [rd_emuTrack (by decide), rd_fbLoseIfDue (by decide), rd_angleTaken, State.rd_wr_fbOther _ (by decide)]
    exact ampTaken_amp (by decide) (by decide) _ _ _ _ _
  · rw [emuTrack_fsrc, fsrc_fbLoseIfDue_keeps FbSource.raw (fun _ _ _ _ => rfl), angleTaken_raw]

/-! ### SSI frames (07 R266, R267) -/

theorem ssiBad_facts (s : State) : (ssiBad s).rd R.FB_SSI_ERRCNT = min (s.rd R.FB_SSI_ERRCNT + 1) (2 ^ (R.FB_SSI_ERRCNT).width - 1) ∧
    (∀ g, fbWord R.FB_SSI_ERRCNT.addr ∧ fbWord g.addr ∧ R.FB_SSI_ERRCNT.Misses g → (ssiBad s).rd g = s.rd g) ∧
    ((ssiBad s).fsrc 4).posx = (s.fsrc 4).posx := by
  unfold ssiBad
  refine ⟨?_, fun g hg => ?_, ?_⟩
  · rw [rd_fbLoseIfDue (by decide), State.rd_setFsrc]
    exact s.rd_inc_same (by decide)
  · rw [rd_fbLoseIfDue hg.2.1, State.rd_setFsrc]
    exact s.rd_wr_fbOther hg _
  · rw [fsrc_fbLoseIfDue_keeps FbSource.posx (fun _ _ _ _ => rfl), State.fsrc_setFsrc_keeps FbSource.posx (by exact fun _ => rfl),
      State.fsrc_inc]

/-- The module at the start of the SSI frame of its tick. -/
def State.atFrame (s : State) : State := s.advanceTo (s.period - s.rd R.FB_SSI_LEAD)

theorem rd_atFrame (s : State) (g : Fld) : s.atFrame.rd g = s.rd g := rfl
theorem fsrc_atFrame (s : State) (k : Nat) : s.atFrame.fsrc k = s.fsrc k := rfl

/-- The data value of a frame, Gray-decoded where the configuration says so. -/
def State.ssiValue (s : State) (dat : List Bool) : Nat :=
  if s.on R.FB_SSI_CFG_GRAY then grayDecode dat.length (ofBitsMSB dat) 0 else ofBitsMSB dat


theorem ssiValue_cleared (s : State) (dat : List Bool) : s.cleared.ssiValue dat = s.ssiValue dat := rfl

/-- What a bad frame of a tick shows: its cause, and its count. -/
theorem ssiBad_atFrame {cause : Fld} (hok : cause.Ok ∧ 0 < cause.width)
    (happart : fbWord cause.addr ∧ cause.Misses R.FB_SSI_ERRCNT ∧ R.FB_SSI_ERRCNT.Misses cause) (s : State) :
    (ssiBad (s.atFrame.wr cause 1)).rd cause = 1 ∧
      (ssiBad (s.atFrame.wr cause 1)).rd R.FB_SSI_ERRCNT = min (s.rd R.FB_SSI_ERRCNT + 1) (2 ^ (R.FB_SSI_ERRCNT).width - 1) ∧
      ((ssiBad (s.atFrame.wr cause 1)).fsrc 4).posx = (s.fsrc 4).posx := by
  obtain ⟨hword, hcause, hcnt⟩ := happart
  obtain ⟨hcount, hrd, hposx⟩ := ssiBad_facts (s.atFrame.wr cause 1)
  rw [State.rd_wr_fbOther _ ⟨hword, by decide, hcause⟩, rd_atFrame] at hcount
  rw [State.fsrc_wr, fsrc_atFrame] at hposx
  exact ⟨(hrd cause ⟨by decide, hword, hcnt⟩).trans (State.rd_wr_fits _ hok.1 (Nat.one_lt_two_pow (by omega))), hcount, hposx⟩

section
variable {s : State} (hen : s.on R.FB_CTL_EN = true)
include hen

theorem ssiFrame_late (hlate : s.rd R.FB_SSI_LEAD < s.ssiLength + 40) (bits : List Bool) :
    ssiFrame bits s = ssiBad (s.atFrame.wr R.FB_SSI_STAT_LATE 1) := by
  unfold ssiFrame
  rw [if_neg (by rw [hen]; decide)]
  exact if_pos hlate

theorem ssiFrame_unstarted (hin : s.ssiLength + 40 ≤ s.rd R.FB_SSI_LEAD) (bits : List Bool) :
    ssiFrame (false :: bits) s = ssiBad (s.atFrame.wr R.FB_SSI_STAT_FRAMEERR 1) := by
  unfold ssiFrame
  rw [if_neg (by rw [hen]; decide)]
  extract_lets lead at_ t n late dat rest err par framed
  have hlate : ¬late := Nat.not_lt.mpr hin
  rw [if_neg hlate]
  exact if_pos rfl

/-- The first frame of an enable that is in time and framed gives the position. -/
theorem ssiFrame_first {dat : List Bool} (hlen : dat.length = s.rd R.FB_SSI_CFG_BITS) (hin : s.ssiLength + 40 ≤ s.rd R.FB_SSI_LEAD)
    (herr : s.on R.FB_SSI_CFG_ERRBIT = false) (hpar : s.on R.FB_SSI_CFG_PARITY = false) (hfirst : (s.fsrc 4).first = false) :
    ∃ angle t, ssiFrame (true :: dat) s = emuTrack (fbSample 4 (s.ssiValue dat : Nat) angle t
      (s.atFrame.setFsrc 4 (fun x => { x with raw := s.ssiValue dat, badRun := 0 }))) := by
  unfold ssiFrame
  rw [if_neg (by rw [hen]; decide)]
  extract_lets lead at_ t n late data rest err par framed g v x d travel posx st sampled
  have hlate : ¬late := Nat.not_lt.mpr hin
  have hn : dat.length = n := hlen
  have hdata : data = dat := List.take_of_length_le (Nat.le_of_eq hn)
  have herr' : err = false := by
    have h : at_.on R.FB_SSI_CFG_ERRBIT = false := herr
    unfold err
    rw [h, Bool.false_and]
  have hpar' : par = false := by
    have h : at_.on R.FB_SSI_CFG_PARITY = false := hpar
    unfold par
    rw [h, Bool.false_and]
  have hframed : ¬(!framed) = true := by
    unfold framed
    rw [herr', hpar', hdata, hn]
    simp
  have hx : ¬x.first = true := by
    unfold x
    exact Bool.eq_false_iff.mp hfirst
  have hv : v = s.ssiValue dat := by
    unfold v g State.ssiValue
    rw [hdata, ← hn]
    rfl
  have hposx : posx = (s.ssiValue dat : Nat) := by
    unfold posx
    rw [if_neg hx, hv]
  rw [if_neg hlate, if_neg hframed, if_neg (fun h => hx h.1), hposx]
  unfold sampled
  rw [hv]
  exact ⟨_, _, rfl⟩

theorem ssiFrame_first_facts {dat : List Bool} (hlen : dat.length = s.rd R.FB_SSI_CFG_BITS)
    (hin : s.ssiLength + 40 ≤ s.rd R.FB_SSI_LEAD) (herr : s.on R.FB_SSI_CFG_ERRBIT = false) (hpar : s.on R.FB_SSI_CFG_PARITY = false)
    (hfirst : (s.fsrc 4).first = false) : ((ssiFrame (true :: dat) s).fsrc 4).raw = s.ssiValue dat ∧
      ((ssiFrame (true :: dat) s).fsrc 4).posx = signedOf 48 (wrapTo 48 (s.ssiValue dat : Nat)) ∧
      ((ssiFrame (true :: dat) s).fsrc 4).first = true ∧ ((ssiFrame (true :: dat) s).fsrc 4).badRun = 0 := by
  obtain ⟨angle, t, hframe⟩ := ssiFrame_first hen hlen hin herr hpar hfirst
  rw [hframe, emuTrack_fsrc]
  refine ⟨?_, fbSample_posx _ _ _ _ (by decide), fbSample_first _ _ _ _ (by decide), ?_⟩
  · rw [fbSample_keeps FbSource.raw (fun _ _ _ _ => rfl) (fun _ _ _ _ => rfl) (fun _ _ => rfl), State.fsrc_setFsrc_same _ _ (by decide)]
  · rw [fbSample_keeps FbSource.badRun (fun _ _ _ _ => rfl) (fun _ _ _ _ => rfl) (fun _ _ => rfl), State.fsrc_setFsrc_same _ _ (by decide)]

/-- A comparator transition counts a quarter period (07 R262). -/
theorem quarterPeriod_counts (up : Bool) :
    quarterPeriod up s = { s with fb := { s.fb with qc := if up then s.fb.qc + 1 else s.fb.qc - 1 } } := by
  unfold quarterPeriod
  exact if_neg (by rw [hen]; decide)

end

/-- Settles O37: a sample is taken at its grid point or peak, and an SSI frame is late, without its start bit or the first one. -/
theorem sampledFeedbackSources : Obligations.SampledFeedbackSources := by
  intro s hr hen
  have hcen : s.cleared.on R.FB_CTL_EN = true := (State.on_congr (s.cleared_rd _)).trans hen
  refine ⟨fun sin cos hin => ?_, fun up => ?_, fun sin cos ok hin hpos => ?_, fun dat hlen hin herr hpar hfirst => ?_, fun bits hin => ?_,
    fun bits hlate => ?_⟩
  · obtain ⟨htb, hamp⟩ := sincosSample_facts (s := s.cleared) hcen hin sin cos
    exact ⟨_, live_next _ hr, htb, hamp⟩
  · refine ⟨_, live_next _ hr, ?_⟩
    rw [quarterPeriod_counts hcen]
    exact ⟨rfl, rfl⟩
  · obtain ⟨htb, hexc, hamp, hang⟩ := resolverSample_facts (s := s.cleared) hcen hin hpos sin cos ok
    exact ⟨_, live_next _ hr, htb, hexc, hamp, hang⟩
  · obtain ⟨hraw, hposx, hframe, hrun⟩ := ssiFrame_first_facts (s := s.cleared) hcen hlen hin herr hpar hfirst
    rw [ssiValue_cleared] at hraw hposx
    exact ⟨_, live_next _ hr, hraw, hraw ▸ hposx, hframe, hrun⟩
  · rw [← s.cleared_rd R.FB_SSI_ERRCNT, ← s.fsrc_cleared 4]
    refine ⟨_, live_next _ hr, ?_⟩
    rw [ssiFrame_unstarted (s := s.cleared) hcen hin]
    exact ssiBad_atFrame (by decide) (by decide) _
  · obtain ⟨hstat, hcount, -⟩ := ssiBad_atFrame (cause := R.FB_SSI_STAT_LATE) (by decide) (by decide) s.cleared
    refine ⟨_, live_next _ hr, ?_⟩
    rw [ssiFrame_late (s := s.cleared) hcen hlate]
    exact ⟨hstat, hcount⟩

end Sys2Proof.Machine
end

section
/-! O42: a member that launches its contribution towards a head across the ring. Its route names one port of the ring, and the cell leaves
by both ports (08 R287; `State.portsTo`); the statement's clause on NOSHARE_LAUNCH asks for one cell. -/

namespace Sys2Proof.Machine

/-- A member with the ring on ports 2 and 3, both up, its contribution prepared at port 3, by which its route leads to the head. -/
def ringMember : State :=
  let linked := ((State.reset.wr (R.BL_Pp_STAT_UP 2) 1).wr (R.BL_Pp_STAT_UP 3) 1).wr R.BL_SYNC_STATE 2
  let routed := (linked.wr (R.BL_RT_n_VALID 3) 1).wr (R.BL_RT_n_PORT 3) 3
  let joined := ((routed.wr R.BL_UID_ID 5).wr R.BL_ROLE_KIND 2).wr R.BL_CS_UNITS_HEAD 4
  { joined.setQueue (txQueue 3) { items := [cellHead 2 0 0 4 0 5 0] } with bl.ring := 12, bl.winOpen := true }

/-- The state meets every hypothesis of the clause on NOSHARE_LAUNCH, that of its last part included. -/
theorem ringMember_ready : ringMember.Running ∧ ringMember.isMember = true ∧ ringMember.bl.winOpen = true ∧
    ringMember.bl.share = none ∧ ringMember.bl.launched = false ∧ ringMember.linkLocked = true ∧ ringMember.headPort = some 3 ∧
    (ringMember.queue (txQueue 3)).off = false ∧ (ringMember.queue (txQueue 3)).items = [cellHead 2 0 0 4 0 5 0] ∧
    ringMember.route (cellDst (cellHead 2 0 0 4 0 5 0)) = some 3 ∧ ringMember.portOpen 3 = true ∧ ringMember.uid ≠ 0 := by
  decide +kernel

theorem noshareLaunch_ringMember_cells : (noshareLaunch ringMember.cleared).out.cells.length = 2 := by decide +kernel

/-- Refutes O42: a contribution towards a head across the ring leaves by both ports of the ring, as two cells. -/
theorem not_consistRoles : ¬ Obligations.ConsistRoles := by
  intro h
  obtain ⟨hrun, hmember, hwin, hshare, hlaunched, hlocked, hport, hoff, hitems, hroute, hopen, huid⟩ := ringMember_ready
  obtain ⟨-, -, -, -, -, -, -, -, -, -, -, -, -, -, -, hnoshare, -⟩ := h ringMember hrun
  obtain ⟨t, ht, -, -, hcells⟩ := hnoshare 3 _ hmember hwin hshare hlaunched hlocked hport (by decide) hoff hitems
  cases (live_next noshareLaunch hrun).symm.trans ht
  exact absurd ((hcells hroute hopen huid).symm.trans noshareLaunch_ringMember_cells) (by decide)

end Sys2Proof.Machine
end

section
/-! SUPPORT. Rules of the Beysta Link (08): its registers, the steps common to all cells (R284), what sending cells leaves alone, the
tables that the root writes (R295, R320). -/

namespace Sys2Proof.Machine

/-! ### Registers of the link -/

/-- A word of the link's block (08 R318–R320). -/
abbrev blWord (a : Nat) : Prop := 0x40090000 ≤ a ∧ a < 0x400A0000

theorem State.home_blWord (s : State) {b : Nat} (h : blWord b) : s.home b = b :=
  s.home_self b (by omega) (by omega) (by omega)

/-- No other address stands for a word of the link's block. -/
theorem State.home_ne_blWord (s : State) {a b : Nat} (h : blWord b) (hne : a ≠ b) : s.home a ≠ s.home b := by
  rw [s.home_blWord h]
  unfold State.home
  dsimp only
  split
  · split <;> omega
  · split
    · split <;> omega
    · split <;> omega

theorem State.word_wr_bl (s : State) {f : Fld} (hf : blWord f.addr) {a : Nat} (h : a ≠ f.addr) (v : Nat) :
    (s.wr f v).word a = s.word a :=
  s.word_wr_ne f v (s.home_ne_blWord hf h)

/-- A write into the link's block leaves the fields that it misses, of whatever block. -/
theorem State.rd_wr_bl (s : State) {f g : Fld} (hf : blWord f.addr) (h : f.Misses g) (v : Nat) : (s.wr f v).rd g = s.rd g := by
  by_cases ha : g.addr = f.addr
  · obtain ⟨hok, hapart⟩ := h.resolve_left (not_not_intro ha)
    exact s.rd_wr_apart hok hapart ha v
  · exact s.rd_wr_word v (s.home_ne_blWord hf ha)

theorem State.rd_inc_bl (s : State) {f g : Fld} (hf : blWord f.addr) (h : f.Misses g) : (s.inc f).rd g = s.rd g :=
  s.rd_wr_bl hf h _

/-- The words of the ports' cell counters: RXCELLS, CRCERR, DISCARD (08 R319). -/
abbrev portCount (a : Nat) : Prop :=
  0x40090108 ≤ a ∧ a < 0x400901D4 ∧ (a % 0x40 = 8 ∨ a % 0x40 = 0xC ∨ a % 0x40 = 0x10)

theorem rxCells_portCount (p : Nat) : portCount (R.BL_Pp_RXCELLS p).addr := by simp only [portCount]; omega
theorem crcErr_portCount (p : Nat) : portCount (R.BL_Pp_CRCERR p).addr := by simp only [portCount]; omega
theorem discard_portCount (p : Nat) : portCount (R.BL_Pp_DISCARD p).addr := by simp only [portCount]; omega

theorem portCount_bl {a : Nat} (h : portCount a) : blWord a := by omega

theorem State.word_inc_count (s : State) {f : Fld} (hf : portCount f.addr) {a : Nat} (h : ¬ portCount a) : (s.inc f).word a = s.word a :=
  s.word_wr_bl (portCount_bl hf) (fun e => h (by rwa [e])) _

theorem State.rd_inc_count (s : State) {f g : Fld} (hf : portCount f.addr) (hg : ¬ portCount g.addr) : (s.inc f).rd g = s.rd g :=
  State.rd_congr (s.word_inc_count hf hg)

theorem rxCells_ok (p : Nat) : (R.BL_Pp_RXCELLS p).Ok := ⟨Nat.zero_le _, by simp only; omega⟩
theorem crcErr_ok (p : Nat) : (R.BL_Pp_CRCERR p).Ok := ⟨Nat.zero_le _, by simp only; omega⟩
theorem discard_ok (p : Nat) : (R.BL_Pp_DISCARD p).Ok := ⟨Nat.zero_le _, by simp only; omega⟩

/-! ### The receive steps (08 R284, R287) -/

/-- A cell counted at its port. -/
def State.counted (s : State) (p : Nat) : State := s.inc (R.BL_Pp_RXCELLS p)

theorem State.rd_counted (s : State) (p : Nat) {g : Fld} (hg : ¬ portCount g.addr) : (s.counted p).rd g = s.rd g :=
  s.rd_inc_count (rxCells_portCount p) hg

theorem State.rxCells_counted (s : State) (p : Nat) :
    (s.counted p).rd (R.BL_Pp_RXCELLS p) = min (s.rd (R.BL_Pp_RXCELLS p) + 1) (2 ^ (R.BL_Pp_RXCELLS p).width - 1) :=
  s.rd_inc_same (rxCells_ok p)

theorem State.isCopy_counted (s : State) (p : Nat) (c : List Byte) : (s.counted p).isCopy c = s.isCopy c := by
  unfold State.isCopy State.uid
  rw [s.rd_counted p (by decide)]
  rfl

/-- SYNC and DELAY cells are the only ones that stay on their line. -/
theorem isLineCell_eq (c : List Byte) : isLineCell c = decide (3 ≤ cellType c ∧ cellType c ≤ 5) := by
  unfold isLineCell
  generalize cellType c = n
  rw [Bool.eq_iff_iff]
  simp
  omega

/-- A cell that a port takes goes on to be delivered or forwarded: counted, and remembered unless it stays on its line. -/
theorem receiveCell_accepted {p typ : Nat} {c : List Byte} {s : State} (h : s.Accepts p c typ) (htyp : 0 < typ ∧ typ ≤ 9) (f : State → State) :
    receiveCell p c typ f s = f (if 3 ≤ typ ∧ typ ≤ 5 then s.counted p else remember c (s.counted p)) := by
  obtain ⟨hup, hcrc, htype, hline⟩ := h
  have hl := isLineCell_eq c
  have hcopy : (s.inc (R.BL_Pp_RXCELLS p)).isCopy c = s.isCopy c := s.isCopy_counted p c
  have hblock : (s.inc (R.BL_Pp_RXCELLS p)).bit R.BL_STAT_BLOCKED p = s.bit R.BL_STAT_BLOCKED p :=
    congrArg (testB · p) (s.rd_counted p (by decide))
  rw [htype] at hl
  unfold receiveCell State.counted
  simp only [hup, hcrc, htype, hl, hcopy, hblock]
  rcases hline with hline | ⟨hopen, hnew⟩
  · simp only [hl, decide_eq_true_eq] at hline
    simp [hline]
    omega
  · by_cases hr : 3 ≤ typ ∧ typ ≤ 5 <;> simp [hopen, hnew, hr] <;> omega

/-- A SYNC or DELAY cell taken is counted. -/
theorem receiveCell_line {p typ : Nat} {c : List Byte} {s : State} (h : s.Accepts p c typ) (htyp : 3 ≤ typ ∧ typ ≤ 5) (f : State → State) :
    receiveCell p c typ f s = f (s.counted p) := by
  rw [receiveCell_accepted h (by omega), if_pos htyp]

/-- Any other cell taken is counted and remembered. -/
theorem receiveCell_cell {p typ : Nat} {c : List Byte} {s : State} (h : s.Accepts p c typ)
    (htyp : (0 < typ ∧ typ < 3) ∨ (5 < typ ∧ typ ≤ 9)) (f : State → State) :
    receiveCell p c typ f s = f (remember c (s.counted p)) := by
  rw [receiveCell_accepted h (by omega), if_neg (by omega)]

/-- A cell whose check fails is counted and does nothing more (08 R284). -/
theorem receiveCell_badCrc {p typ : Nat} {c : List Byte} {s : State} (hup : s.portUp p = true)
    (hcrc : fieldLE c 30 2 ≠ crc16 (padTo 30 c)) (f : State → State) :
    receiveCell p c typ f s = (s.counted p).inc (R.BL_Pp_CRCERR p) := by
  unfold receiveCell
  dsimp only
  rw [hup, if_neg (by decide), if_pos hcrc]
  rfl

/-! ### Cells sent -/

/-- `t` is `s` after cells were given to its ports: what may differ are the cells put out, those that wait for the window, the times of
delay requests and of notices, and the counters of the ports (08 R282, R285, R289, R298). -/
structure CellsSent (s t : State) : Prop where
  state : ∃ regs held reqAt noticeAt cells, t = { s with
    regs := regs
    bl := { s.bl with held := held, reqAt := reqAt, noticeAt := noticeAt }
    out := { s.out with cells := cells } }
  words : ∀ a, ¬ portCount a → t.word a = s.word a

namespace CellsSent

theorem refl (s : State) : CellsSent s s := ⟨⟨_, _, _, _, _, rfl⟩, fun _ _ => rfl⟩

theorem trans {s t u : State} (h : CellsSent s t) (h' : CellsSent t u) : CellsSent s u := by
  obtain ⟨⟨_, _, _, _, _, rfl⟩, hw⟩ := h
  obtain ⟨⟨r, x, y, z, c, rfl⟩, hw'⟩ := h'
  exact ⟨⟨r, x, y, z, c, rfl⟩, fun a ha => (hw' a ha).trans (hw a ha)⟩

theorem foldl {α : Type} {f : State → α → State} (h : ∀ s x, CellsSent s (f s x)) (l : List α) (s : State) :
    CellsSent s (l.foldl f s) := by
  induction l generalizing s with
  | nil => exact refl s
  | cons x l ih => exact (h s x).trans (ih _)

theorem ite {c : Prop} [Decidable c] {s t u : State} (ht : CellsSent s t) (hu : CellsSent s u) : CellsSent s (if c then t else u) := by
  split
  · exact ht
  · exact hu

section
variable {s t : State} (h : CellsSent s t)
include h

theorem rd {f : Fld} (hf : ¬ portCount f.addr) : t.rd f = s.rd f := State.rd_congr (h.words _ hf)

theorem on {f : Fld} (hf : ¬ portCount f.addr) : t.on f = s.on f := by
  unfold State.on
  rw [h.rd hf]

theorem te : t.te = s.te := by obtain ⟨_, _, _, _, _, rfl⟩ := h.state; rfl
theorem time : t.time = s.time := by obtain ⟨_, _, _, _, _, rfl⟩ := h.state; rfl
theorem queues : t.queues = s.queues := by obtain ⟨_, _, _, _, _, rfl⟩ := h.state; rfl
theorem ol : t.ol = s.ol := by obtain ⟨_, _, _, _, _, rfl⟩ := h.state; rfl

/-- What the link holds beside those three is kept. -/
theorem bl {α : Type} (k : BlState → α) (hk : ∀ b x y z, k { b with held := x, reqAt := y, noticeAt := z } = k b) : k t.bl = k s.bl := by
  obtain ⟨_, _, _, _, _, rfl⟩ := h.state
  exact hk _ _ _ _

end

theorem inc (s : State) {f : Fld} (hf : portCount f.addr) : CellsSent s (s.inc f) :=
  ⟨⟨_, _, _, _, _, rfl⟩, fun _ ha => s.word_inc_count hf ha⟩

end CellsSent

theorem emitCell_sent (h : HeldCell) (s : State) : CellsSent s (emitCell h s) := by
  unfold emitCell
  dsimp only
  exact .ite ⟨⟨_, _, _, _, _, rfl⟩, fun _ _ => rfl⟩ ⟨⟨_, _, _, _, _, rfl⟩, fun _ _ => rfl⟩

theorem sendHeld_sent (h : HeldCell) (s : State) : CellsSent s (sendHeld h s) := by
  unfold sendHeld
  refine .ite (.refl s) (.ite (.ite (emitCell_sent h s) (.inc s (discard_portCount _))) (.ite ?_ (emitCell_sent h s)))
  exact ⟨⟨_, _, _, _, _, rfl⟩, fun _ _ => rfl⟩

theorem sendCell_sent (p : Nat) (c : List Byte) (s : State) : CellsSent s (sendCell p c s) := sendHeld_sent _ s

theorem sendNbr_sent (p typ hops src : Nat) (m : LinkMsg) (t : Nat) (s : State) : CellsSent s (sendNbr p typ hops src m t s) :=
  sendHeld_sent _ s

theorem sendTo_sent (typ dst epoch : Nat) (payload : List Byte) (s : State) : CellsSent s (sendTo typ dst epoch payload s) := by
  unfold sendTo
  exact .ite (.refl s) (.foldl (fun u p => sendCell_sent p _ u) _ s)

theorem sendMsg_sent (typ dst epoch : Nat) (m : LinkMsg) (s : State) : CellsSent s (sendMsg typ dst epoch m s) := sendTo_sent _ _ _ _ s

theorem notice_sent (src typ seen : Nat) (s : State) : CellsSent s (notice src typ seen s) := by
  unfold notice
  dsimp only
  refine .ite (.refl s) (.trans ?_ (sendTo_sent _ _ _ _ _))
  exact ⟨⟨_, _, _, _, _, rfl⟩, fun _ _ => rfl⟩

theorem forward_sent (p : Nat) (c : List Byte) (s : State) : CellsSent s (forward p c s) := by
  unfold forward
  dsimp only
  exact .ite (.refl s) (.ite (.inc s (discard_portCount _)) (.foldl (fun u q => sendCell_sent q _ u) _ s))

theorem syncForward_sent (p hops t src : Nat) (m : SyncMsg) (s : State) : CellsSent s (syncForward p hops t src m s) := by
  unfold syncForward
  exact .ite (.inc s (discard_portCount _)) (.foldl (fun u q => sendNbr_sent q _ _ _ _ _ u) _ s)

end Sys2Proof.Machine
end

section
/-! O40: synchronisation of the link (08 R289–R293; assumption log 62 for the further copies of a SYNC, 59 for the standby root and the
one of the higher serial, 20 for the value of the rate below 1 µs). -/

namespace Sys2Proof.Machine

/-! ### BL.SYNC (08 R291) -/

theorem syncState_state {n : Nat} (hn : n < 4) (s : State) : (syncState n s).rd R.BL_SYNC_STATE = n := by
  unfold syncState
  split
  · assumption
  · rw [rd_event _ _ _ (by split <;> decide) (by unfold apartFromQueues; decide)]
    exact s.rd_wr_fits (by decide) hn

theorem syncState_evs {n : Nat} {s : State} (h : s.rd R.BL_SYNC_STATE ≠ n) :
    (syncState n s).te.evs = s.te.evs ++ [(41, if n = 2 then 0x0403 else 0x0404)] := by
  unfold syncState
  rw [if_neg h, State.event_te, State.wr_te]
  split <;> rfl

@[simp] theorem syncState_time (n : Nat) (s : State) : (syncState n s).time = s.time := by
  unfold syncState
  split
  · rfl
  · rw [State.event_time, State.wr_time]

@[simp] theorem syncState_bl (n : Nat) (s : State) : (syncState n s).bl = s.bl := by
  unfold syncState
  split
  · rfl
  · rw [State.event_bl, State.wr_bl]

theorem rd_syncState (n : Nat) (s : State) {g : Fld} (hg : (R.BL_SYNC_STATE).Misses g) (hq : apartFromQueues g.addr) :
    (syncState n s).rd g = s.rd g := by
  unfold syncState
  split
  · rfl
  · rw [rd_event _ _ _ (by split <;> decide) hq, s.rd_wr_bl (by decide) hg]

theorem mem_evs_syncState (n : Nat) {s : State} {e : Nat × Nat} (he : e ∈ s.te.evs) : e ∈ (syncState n s).te.evs := by
  by_cases h : s.rd R.BL_SYNC_STATE = n
  · rwa [syncState, if_pos h]
  · rw [syncState_evs h]
    exact List.mem_append_left _ he

/-! ### The correction of TB (08 R290) -/

theorem trimRate_keeps (err : Int) (s : State) : (trimRate err s).bl = s.bl ∧ (trimRate err s).te = s.te := by
  unfold trimRate
  dsimp only
  split
  · exact ⟨s.wr_bl _ _, s.wr_te _ _⟩
  · split
    · exact ⟨s.wr_bl _ _, s.wr_te _ _⟩
    · exact ⟨State.wr_bl _ _ _, State.wr_te _ _ _⟩

theorem correctTime_keeps (err : Int) (s : State) : (correctTime err s).bl = s.bl ∧ (correctTime err s).te = s.te := by
  unfold correctTime
  split
  · exact ⟨rfl, rfl⟩
  · exact trimRate_keeps err s

theorem rd_trimRate (err : Int) (s : State) {g : Fld} (hg : ownWord g.addr ∧ g.addr ≠ R.TB_TRIM.addr) :
    (trimRate err s).rd g = s.rd g := by
  have hmiss : ownWord R.TB_TRIM.addr ∧ ownWord g.addr ∧ R.TB_TRIM.Misses g := ⟨by decide, hg.1, .inl hg.2⟩
  unfold trimRate
  dsimp only
  split
  · exact s.rd_wr_missed hmiss _
  · split
    · exact s.rd_wr_missed hmiss _
    · exact (s.drawBits 32).2.rd_wr_missed hmiss _

theorem rd_correctTime (err : Int) (s : State) {g : Fld} (hg : ownWord g.addr ∧ g.addr ≠ R.TB_TRIM.addr) :
    (correctTime err s).rd g = s.rd g := by
  unfold correctTime
  split
  · rfl
  · exact rd_trimRate err s hg

/-- Beyond 1 µs TB is stepped in OFF and STANDBY, by the rounded error. -/
theorem correctTime_steps {err : Int} {s : State} (hfar : 3200 < err) (hdrive : s.drive ≤ 1) :
    correctTime err s = { s with time.stepTo := some (-((2 * err + 8) / 16)) } := by
  unfold correctTime
  rw [if_pos ⟨.inl hfar, hdrive⟩]

/-- Beyond 1 µs the rate stands at its limit in the states in which the drive is on. -/
theorem correctTime_limit {err : Int} {s : State} (hfar : 3200 < err) (hon : 2 ≤ s.drive) (hdrive : s.drive ≤ 4) :
    correctTime err s = s.wr R.TB_TRIM (wrapTo 32 (-429497)) := by
  unfold correctTime trimRate
  rw [if_neg (by omega)]
  exact if_pos ⟨⟨hon, hdrive⟩, hfar⟩

/-! ### A SYNC taken (08 R289–R291) -/

/-- A SYNC noted: its age, its root, its hops and its error in BL.SYNC. -/
def syncNoted (hops src : Nat) (err : Int) (s : State) : State :=
  let s := { s with bl := { s.bl with syncAge := 0, holdTicks := 0, rootId := src } }
  ((s.wr R.BL_SYNC_HOLDOVER 0).wr R.BL_SYNC_HOPS (hops + 1)).satQ R.BL_SYNC_ERR 0 ((err : Rat) * 625 / 2)

theorem rd_syncNoted (hops src : Nat) (err : Int) (s : State) {g : Fld}
    (hg : (R.BL_SYNC_HOLDOVER).Misses g ∧ (R.BL_SYNC_HOPS).Misses g ∧ (R.BL_SYNC_ERR).Misses g) :
    (syncNoted hops src err s).rd g = s.rd g := by
  obtain ⟨hhold, hhops, herr⟩ := hg
  unfold syncNoted State.satQ
  rw [State.rd_wr_bl _ (by decide) herr, State.rd_wr_bl _ (by decide) hhops, State.rd_wr_bl _ (by decide) hhold]
  rfl

theorem syncNoted_hops (hops src : Nat) (err : Int) (s : State) :
    (syncNoted hops src err s).rd R.BL_SYNC_HOPS = (hops + 1) % 32 := by
  unfold syncNoted State.satQ
  rw [State.rd_wr_bl _ (by decide) (by decide)]
  exact State.rd_wr_same _ (by decide) _

theorem syncNoted_te (hops src : Nat) (err : Int) (s : State) : (syncNoted hops src err s).te = s.te := by
  unfold syncNoted State.satQ
  rw [State.wr_te, State.wr_te, State.wr_te]

theorem syncNoted_bl (hops src : Nat) (err : Int) (s : State) :
    (syncNoted hops src err s).bl = { s.bl with syncAge := 0, holdTicks := 0, rootId := src } := by
  unfold syncNoted State.satQ
  rw [State.wr_bl, State.wr_bl, State.wr_bl]

theorem syncNoted_time (hops src : Nat) (err : Int) (s : State) : (syncNoted hops src err s).time = s.time := by
  unfold syncNoted State.satQ
  rw [State.wr_time, State.wr_time, State.wr_time]

/-- The SYNCs in a row within 2 ns, and beyond 20 ns, with one more of this error. -/
def BlState.judged (b : BlState) (err : Int) : BlState :=
  { b with
    syncGood := if decide (-6 ≤ err ∧ err ≤ 6) then b.syncGood + 1 else 0
    syncBad := if decide (err < -64 ∨ 64 < err) then b.syncBad + 1 else 0 }

/-- A SYNC of the own tick period: TB corrected, the error judged. -/
def syncJudged (hops src : Nat) (err : Int) (s : State) : State :=
  let s := correctTime err (syncNoted hops src err s)
  { s with bl := s.bl.judged err }

section
variable (hops src : Nat) (err : Int) (m : SyncMsg) (s : State)

theorem rd_syncJudged {g : Fld} (hown : ownWord g.addr ∧ g.addr ≠ R.TB_TRIM.addr)
    (hg : (R.BL_SYNC_HOLDOVER).Misses g ∧ (R.BL_SYNC_HOPS).Misses g ∧ (R.BL_SYNC_ERR).Misses g) :
    (syncJudged hops src err s).rd g = s.rd g :=
  (rd_correctTime err _ hown).trans (rd_syncNoted hops src err s hg)

theorem syncJudged_bl :
    (syncJudged hops src err s).bl = { s.bl with syncAge := 0, holdTicks := 0, rootId := src }.judged err :=
  congrArg (BlState.judged · err) ((correctTime_keeps err _).1.trans (syncNoted_bl hops src err s))

theorem syncJudged_te : (syncJudged hops src err s).te = s.te :=
  (correctTime_keeps err _).2.trans (syncNoted_te hops src err s)

theorem syncJudged_locked : (syncJudged hops src err s).linkLocked = s.linkLocked := by
  unfold State.linkLocked
  rw [rd_syncJudged _ _ _ _ (by decide) (by decide)]

/-- No SYNCs in a row. -/
def State.unjudged (s : State) : State := { s with bl := { s.bl with syncGood := 0, syncBad := 0 } }

theorem State.unjudged_rootOff (s : State) : s.unjudged.bl.rootOff = s.bl.rootOff := rfl
theorem State.unjudged_syncAge (s : State) : s.unjudged.bl.syncAge = s.bl.syncAge := rfl
theorem State.unjudged_time (s : State) : s.unjudged.time = s.time := rfl
theorem State.unjudged_te (s : State) : s.unjudged.te = s.te := rfl
theorem State.rd_unjudged (s : State) (g : Fld) : s.unjudged.rd g = s.rd g := rfl

theorem syncTake_foreign {m : SyncMsg} {s : State} (h : m.period ≠ s.period) :
    syncTake hops src err m s = syncState 3 (syncNoted hops src err s).unjudged := by
  have hp : (syncNoted hops src err s).period = s.period := rd_syncNoted hops src err s (by decide)
  unfold syncTake
  exact if_pos (fun e => h (e.trans hp))

/-- The state of the link after a SYNC of the own tick period. -/
def syncSettled (s : State) : State :=
  if s.linkLocked then (if 3 ≤ s.bl.syncBad then syncState 1 s else s)
  else if 16 ≤ s.bl.syncGood then syncState 2 s
  else syncState 1 s

theorem syncTake_own {m : SyncMsg} {s : State} (h : m.period = s.period) :
    syncTake hops src err m s = syncSettled (syncJudged hops src err s) := by
  have hp : (syncNoted hops src err s).period = s.period := rd_syncNoted hops src err s (by decide)
  unfold syncTake
  exact if_neg (fun hne => hne (h.trans hp.symm))

/-- What a change of the state of the link keeps. -/
theorem syncSettled_keeps {α : Type} {k : State → α} (hk : ∀ n u, k (syncState n u) = k u) (s : State) : k (syncSettled s) = k s := by
  unfold syncSettled
  split
  · split
    · exact hk 1 s
    · rfl
  · split
    · exact hk 2 s
    · exact hk 1 s

theorem syncTake_rootOff : (syncTake hops src err m s).bl.rootOff = s.bl.rootOff := by
  by_cases h : m.period = s.period
  · rw [syncTake_own _ _ _ h, syncSettled_keeps (k := fun u => u.bl.rootOff) (fun n u => by rw [syncState_bl]), syncJudged_bl]
    rfl
  · rw [syncTake_foreign _ _ _ h, syncState_bl, State.unjudged_rootOff, syncNoted_bl]

theorem mem_evs_syncTake {m : SyncMsg} {s : State} {e : Nat × Nat} (he : e ∈ s.te.evs) : e ∈ (syncTake hops src err m s).te.evs := by
  by_cases h : m.period = s.period
  · have hj : e ∈ (syncJudged hops src err s).te.evs := by rwa [syncJudged_te]
    rw [syncTake_own _ _ _ h, syncSettled]
    split
    · split
      · exact mem_evs_syncState 1 hj
      · exact hj
    · split
      · exact mem_evs_syncState 2 hj
      · exact mem_evs_syncState 1 hj
  · rw [syncTake_foreign _ _ _ h]
    exact mem_evs_syncState 3 (by rwa [State.unjudged_te, syncNoted_te])

end

/-! ### A SYNC at its unit (08 R289, R292) -/

/-- A SYNC that the unit follows: forwarded, and taken with its error. -/
def syncFollowed (p : Nat) (c : List Byte) (frac : Nat) (m : SyncMsg) (s : State) : State :=
  let s := { s with bl.syncTb := some (m.tb, m.serial.toNat) }
  let now := 8 * s.time.tb + frac
  let m := { m with corr := m.corr + s.rd (R.BL_Pp_DELAY p) }
  syncTake (cellHops c) (cellSrc c) ((now : Int) - (8 * m.tb + m.corr : Nat)) m (syncForward p (cellHops c) now (cellSrc c) m s)

section
variable {p : Nat} {c : List Byte} {m : SyncMsg} {s : State} (frac : Nat)

theorem serial_counted (s : State) (p : Nat) : (s.counted p).serial = s.serial := by
  unfold State.serial
  rw [s.rd_counted p (by decide), s.rd_counted p (by decide)]

theorem isRoot_counted (s : State) (p : Nat) : (s.counted p).isRoot = s.isRoot := by
  unfold State.isRoot
  rw [s.rd_counted p (by decide)]
  rfl

/-- The unit's own SYNC, and a further copy of one, is counted and does nothing more (08 R287; assumption log 62). -/
theorem syncArrives_again (h : s.Accepts p c 3) (hold : m.serial.toNat = s.serial ∨ s.bl.syncTb = some (m.tb, m.serial.toNat)) :
    syncArrives p c frac m s = s.counted p := by
  unfold syncArrives
  rw [receiveCell_line h (by decide)]
  exact if_pos (by rwa [serial_counted])

/-- Whether the unit follows another unit's SYNC, and the state that it then has (08 R292). -/
def syncMet (p : Nat) (m : SyncMsg) (s : State) : Bool × State := if s.isRoot then rootMeets p m s else (true, s)

theorem syncArrives_new (h : s.Accepts p c 3) (hown : m.serial.toNat ≠ s.serial) (hnew : s.bl.syncTb ≠ some (m.tb, m.serial.toNat)) :
    syncArrives p c frac m s = if !(syncMet p m (s.counted p)).1 then (syncMet p m (s.counted p)).2
      else syncFollowed p c frac m (syncMet p m (s.counted p)).2 := by
  unfold syncArrives
  rw [receiveCell_line h (by decide), if_neg (by rw [serial_counted]; exact not_or.mpr ⟨hown, hnew⟩)]
  rfl

end


/-- `u` holds what a SYNC rests on as `s` does: only counters of the ports, cells and the SYNC last seen differ. -/
structure SyncBasis (s u : State) : Prop where
  rd : ∀ g : Fld, ¬ portCount g.addr → u.rd g = s.rd g
  time : u.time = s.time
  te : u.te = s.te
  good : u.bl.syncGood = s.bl.syncGood
  bad : u.bl.syncBad = s.bl.syncBad
  rootOff : u.bl.rootOff = s.bl.rootOff

theorem syncFollowed_takes (p : Nat) (c : List Byte) (frac : Nat) (m : SyncMsg) (s : State) : ∃ u, SyncBasis s u ∧
    syncFollowed p c frac m s = syncTake (cellHops c) (cellSrc c)
      (((8 * s.time.tb + frac : Nat) : Int) - (8 * m.tb + (m.corr + s.rd (R.BL_Pp_DELAY p)) : Nat))
      { m with corr := m.corr + s.rd (R.BL_Pp_DELAY p) } u := by
  have h := syncForward_sent p (cellHops c) (8 * s.time.tb + frac) (cellSrc c) { m with corr := m.corr + s.rd (R.BL_Pp_DELAY p) }
    { s with bl.syncTb := some (m.tb, m.serial.toNat) }
  refine ⟨_, ⟨fun g hg => h.rd hg, h.time, h.te, ?_, ?_, ?_⟩, rfl⟩
  · exact h.bl (·.syncGood) (fun _ _ _ _ => rfl)
  · exact h.bl (·.syncBad) (fun _ _ _ _ => rfl)
  · exact h.bl (·.rootOff) (fun _ _ _ _ => rfl)

theorem counted_basis (s : State) (p : Nat) : SyncBasis s (s.cleared.counted p) :=
  ⟨fun _ hg => s.cleared.rd_counted p hg, State.inc_time _ _, State.inc_te _ _, congrArg _ (State.inc_bl _ _), congrArg _ (State.inc_bl _ _),
    congrArg _ (State.inc_bl _ _)⟩

theorem SyncBasis.trans {s u v : State} (h : SyncBasis s u) (h' : SyncBasis u v) : SyncBasis s v :=
  ⟨fun g hg => (h'.rd g hg).trans (h.rd g hg), h'.time.trans h.time, h'.te.trans h.te, h'.good.trans h.good, h'.bad.trans h.bad,
    h'.rootOff.trans h.rootOff⟩

theorem delay_not_portCount (p : Nat) : ¬ portCount (R.BL_Pp_DELAY p).addr := by simp only [portCount]; omega

section
variable {s : State} {p : Fin 4} {cell : TimedCell} {tb period corr : Nat} {root : SyncRoot} {err : Int}

/-- The message of a SYNC cell. -/
def syncMsgOf (tb period corr : Nat) (root : SyncRoot) : SyncMsg :=
  { tb := tb, period := period, corr := corr, serial := root.serial, standby := root.standby }

variable (hr : s.Running) (hacc : s.Accepts p cell.bytes 3) (hown : root.serial.toNat ≠ s.serial)
  (hnew : s.bl.syncTb ≠ some (tb, root.serial.toNat))
  (herr : err = ((8 * s.time.tb + cell.frac.val : Nat) : Int) - (8 * tb + (corr + s.rd (R.BL_Pp_DELAY p)) : Nat))
include hr hacc hown hnew herr

/-- Where the unit follows a SYNC it takes it with the error that the cell's times give. -/
theorem exec_sync_follows {v : State} (hbasis : SyncBasis s v)
    (hmet : syncMet p (syncMsgOf tb period corr root) (s.cleared.counted p) = (true, v)) : ∃ u, SyncBasis v u ∧
      exec (.sync p cell tb period corr root) s = .next (syncTake (cellHops cell.bytes) (cellSrc cell.bytes) err
        (syncMsgOf tb period (corr + s.rd (R.BL_Pp_DELAY p)) root) u) := by
  obtain ⟨u, hu, hfollow⟩ := syncFollowed_takes p cell.bytes cell.frac.val (syncMsgOf tb period corr root) v
  rw [hbasis.rd _ (delay_not_portCount p), hbasis.time] at hfollow
  have hnew' := syncArrives_new (s := s.cleared) (m := syncMsgOf tb period corr root) cell.frac.val hacc hown hnew
  rw [hmet, if_neg (by exact Bool.false_ne_true), hfollow] at hnew'
  subst herr
  exact ⟨u, hu, (live_next _ hr).trans (congrArg _ hnew')⟩

/-- A unit that is not the root follows every new SYNC. -/
theorem exec_sync_taken (hroot : s.isRoot = false) : ∃ u, SyncBasis s u ∧
      exec (.sync p cell tb period corr root) s = .next (syncTake (cellHops cell.bytes) (cellSrc cell.bytes) err
        (syncMsgOf tb period (corr + s.rd (R.BL_Pp_DELAY p)) root) u) := by
  obtain ⟨u, hu, hexec⟩ := exec_sync_follows hr hacc hown hnew herr (v := s.cleared.counted p) (counted_basis s p)
    (if_neg (by rw [isRoot_counted]; exact ne_of_eq_of_ne hroot Bool.false_ne_true))
  exact ⟨u, (counted_basis s p).trans hu, hexec⟩

end

/-! ### What a SYNC brings (08 R290, R291) -/

section
variable {hops src : Nat} {err : Int} {m : SyncMsg} {s : State}

theorem syncTake_mismatch (h : m.period ≠ s.period) : (syncTake hops src err m s).rd R.BL_SYNC_STATE = 3 ∧
    (syncTake hops src err m s).rd R.BL_SYNC_HOPS = (hops + 1) % 32 ∧ (syncTake hops src err m s).bl.syncAge = 0 ∧
    (syncTake hops src err m s).time = s.time := by
  rw [syncTake_foreign hops src err h]
  refine ⟨syncState_state (by decide) _, ?_, ?_, ?_⟩
  · rw [rd_syncState 3 _ (by decide) (by unfold apartFromQueues; decide)]
    exact (State.rd_unjudged _ _).trans (syncNoted_hops hops src err s)
  · rw [syncState_bl, State.unjudged_syncAge, syncNoted_bl]
  · rw [syncState_time, State.unjudged_time, syncNoted_time]

theorem State.linkLocked_iff (s : State) : s.linkLocked = true ↔ s.rd R.BL_SYNC_STATE = 2 := by
  unfold State.linkLocked
  exact beq_iff_eq

theorem State.linkLocked_eq_false (s : State) : s.linkLocked = false ↔ s.rd R.BL_SYNC_STATE ≠ 2 := by
  rw [← Bool.not_eq_true, s.linkLocked_iff]

/-- The sixteenth SYNC in a row within 2 ns locks the unit. -/
theorem syncTake_locks (h : m.period = s.period) (hopen : s.linkLocked = false) (hnear : -6 ≤ err ∧ err ≤ 6) (hgood : 15 ≤ s.bl.syncGood) :
    (syncTake hops src err m s).linkLocked = true ∧ (syncTake hops src err m s).te.evs = s.te.evs ++ [(41, 0x0403)] := by
  have hj : (syncJudged hops src err s).linkLocked = false := (syncJudged_locked hops src err s).trans hopen
  have hcount : 16 ≤ (syncJudged hops src err s).bl.syncGood := by
    rw [syncJudged_bl]
    simp only [BlState.judged, hnear, and_self, decide_true, if_true]
    omega
  rw [syncTake_own hops src err h, syncSettled, hj, if_neg Bool.false_ne_true, if_pos hcount]
  refine ⟨(State.linkLocked_iff _).mpr (syncState_state (by decide) _), ?_⟩
  rw [syncState_evs ((State.linkLocked_eq_false _).mp hj), syncJudged_te]
  rfl

/-- The third SYNC in a row beyond 20 ns takes a locked unit out of LOCKED. -/
theorem syncTake_unlocks (h : m.period = s.period) (hlocked : s.linkLocked = true) (hfar : err < -64 ∨ 64 < err) (hbad : 2 ≤ s.bl.syncBad) :
    (syncTake hops src err m s).rd R.BL_SYNC_STATE = 1 ∧ (syncTake hops src err m s).te.evs = s.te.evs ++ [(41, 0x0404)] := by
  have hj : (syncJudged hops src err s).linkLocked = true := (syncJudged_locked hops src err s).trans hlocked
  have hcount : 3 ≤ (syncJudged hops src err s).bl.syncBad := by
    rw [syncJudged_bl]
    simp only [BlState.judged, hfar, decide_true, if_true]
    omega
  have hstate := (State.linkLocked_iff _).mp hj
  rw [syncTake_own hops src err h, syncSettled, if_pos hj, if_pos hcount]
  refine ⟨syncState_state (by decide) _, ?_⟩
  rw [syncState_evs (by omega), syncJudged_te]
  rfl

theorem syncTake_time (h : m.period = s.period) : (syncTake hops src err m s).time = (correctTime err (syncNoted hops src err s)).time := by
  rw [syncTake_own hops src err h, syncSettled_keeps (k := State.time) syncState_time]
  rfl

theorem syncNoted_drive : (syncNoted hops src err s).drive = s.drive := rd_syncNoted hops src err s (by decide)

/-- Beyond 1 µs TB is stepped in OFF and STANDBY. -/
theorem syncTake_steps (h : m.period = s.period) (hfar : 3200 < err) (hdrive : s.drive ≤ 1) :
    (syncTake hops src err m s).time.stepTo = some (-((2 * err + 8) / 16)) := by
  rw [syncTake_time h, correctTime_steps hfar (by rwa [syncNoted_drive])]

/-- Beyond 1 µs the rate is trimmed at its limit in the other states. -/
theorem syncTake_trims (h : m.period = s.period) (hfar : 3200 < err) (hon : 2 ≤ s.drive) (hdrive : s.drive ≤ 4) :
    (syncTake hops src err m s).rdI R.TB_TRIM = -429497 ∧ (syncTake hops src err m s).time = s.time := by
  have hlimit := correctTime_limit (s := syncNoted hops src err s) hfar (by rwa [syncNoted_drive]) (by rwa [syncNoted_drive])
  constructor
  · have hrd : (syncTake hops src err m s).rd R.TB_TRIM = wrapTo 32 (-429497) := by
      rw [syncTake_own hops src err h,
        syncSettled_keeps (k := fun u => u.rd R.TB_TRIM) (fun n u => rd_syncState n u (by decide) (by unfold apartFromQueues; decide))]
      refine Eq.trans (congrArg (fun u => u.rd R.TB_TRIM) hlimit) ?_
      exact State.rd_wr_wrapTo _ (by decide) (by decide) _
    unfold State.rdI
    rw [hrd]
    decide
  · rw [syncTake_time h, hlimit, State.wr_time, syncNoted_time]

end

/-! ### Two roots (08 R292) -/

/-- The configured root of the higher serial, when it has heard one of a lower. -/
def rootYielded (p : Nat) (s : State) : State :=
  let s := s.event Ev.ROOT_CONFLICT (9 + p)
  { s with bl.rootOff := true, bl.rootTaken := false }

theorem syncMet_lower {p : Nat} {m : SyncMsg} {s : State} (hroot : s.isRoot = true) (hcfg : s.rd R.BL_CFG_ROOT = 1)
    (hm : m.standby = false) (h : m.serial.toNat < s.serial) : syncMet p m s = (true, rootYielded p s) := by
  unfold syncMet rootMeets
  dsimp only
  rw [if_pos hroot, if_pos hcfg, hm, if_neg Bool.false_ne_true]
  simp only [h, decide_true, if_true]
  rfl

theorem syncMet_higher {p : Nat} {m : SyncMsg} {s : State} (hroot : s.isRoot = true) (hcfg : s.rd R.BL_CFG_ROOT = 1)
    (hm : m.standby = false) (h : ¬ m.serial.toNat < s.serial) : syncMet p m s = (false, s.event Ev.ROOT_CONFLICT (9 + p)) := by
  unfold syncMet rootMeets
  dsimp only
  rw [if_pos hroot, if_pos hcfg, hm, if_neg Bool.false_ne_true]
  simp only [h, decide_false, Bool.false_eq_true, if_false]

theorem State.isRoot_off {s : State} (h : s.bl.rootOff = true) : s.isRoot = false := by
  unfold State.isRoot
  rw [h, Bool.not_true, Bool.and_false]

/-- The root that hears another one raises ROOT_CONFLICT; the one of the higher serial gives the role up. -/
theorem exec_sync_conflict {s : State} {p : Fin 4} {cell : TimedCell} {tb period corr : Nat} {root : SyncRoot} (hr : s.Running)
    (hacc : s.Accepts p cell.bytes 3) (hown : root.serial.toNat ≠ s.serial) (hnew : s.bl.syncTb ≠ some (tb, root.serial.toNat))
    (hroot : s.isRoot = true) (hcfg : s.rd R.BL_CFG_ROOT = 1) (hstandby : root.standby = false) :
    ∃ t, exec (.sync p cell tb period corr root) s = .next t ∧ (41, 0x0405) ∈ t.te.evs ∧
      t.isRoot = decide (s.serial ≤ root.serial.toNat) := by
  have hcfg' : (s.cleared.counted p).rd R.BL_CFG_ROOT = 1 := ((counted_basis s p).rd _ (by decide)).trans hcfg
  have hroot' : (s.cleared.counted p).isRoot = true := (isRoot_counted s.cleared p).trans hroot
  have hserial : (s.cleared.counted p).serial = s.serial := serial_counted s.cleared p
  have hevent : ∀ u : State, (41, 0x0405) ∈ (u.event Ev.ROOT_CONFLICT (9 + p)).te.evs := fun u => by
    rw [State.event_te]
    exact List.mem_append_right _ (List.mem_singleton.mpr rfl)
  have harr := syncArrives_new (s := s.cleared) (m := syncMsgOf tb period corr root) cell.frac.val hacc hown hnew
  by_cases hlower : root.serial.toNat < s.serial
  · have hmet := syncMet_lower (p := p) (m := syncMsgOf tb period corr root) hroot' hcfg' hstandby (hlower.trans_eq hserial.symm)
    obtain ⟨u, hu, hfollow⟩ := syncFollowed_takes p cell.bytes cell.frac.val (syncMsgOf tb period corr root)
      (rootYielded p (s.cleared.counted p))
    rw [hmet, if_neg (by exact Bool.false_ne_true), hfollow] at harr
    refine ⟨_, (live_next _ hr).trans (congrArg _ harr), mem_evs_syncTake _ _ _ ?_, ?_⟩
    · rw [hu.te]
      exact hevent (s.cleared.counted p)
    · rw [State.isRoot_off ((syncTake_rootOff _ _ _ _ _).trans hu.rootOff), decide_eq_false (by omega)]
  · have hmet := syncMet_higher (p := p) (m := syncMsgOf tb period corr root) hroot' hcfg' hstandby
      (fun h => hlower (h.trans_eq hserial))
    rw [hmet, if_pos (by rfl)] at harr
    refine ⟨_, (live_next _ hr).trans (congrArg _ harr), hevent _, ?_⟩
    rw [decide_eq_true (by omega)]
    unfold State.isRoot at hroot' ⊢
    rw [State.event_bl, rd_event _ _ _ (by decide) (by unfold apartFromQueues; decide)]
    exact hroot'

/-! ### Holdover and loss of lock (08 R291, R292) -/

theorem holdoverIfDue_locked {s : State} (hroot : s.isRoot = false) (hage : 64 ≤ s.bl.syncAge) (hlocked : s.linkLocked = true)
    (hcfg : s.rd R.BL_CFG_ROOT ≠ 2) : holdoverIfDue s = s.wr R.BL_SYNC_HOLDOVER 1 := by
  unfold holdoverIfDue
  rw [hroot, if_neg (by simpa using hage), if_neg (fun h => hcfg h.1), if_pos hlocked]

theorem holdoverIfDue_standby {s : State} (hroot : s.isRoot = false) (hage : 64 ≤ s.bl.syncAge) (hcfg : s.rd R.BL_CFG_ROOT = 2)
    (hoff : s.bl.rootOff = false) : holdoverIfDue s = { s with bl.rootTaken := true } := by
  unfold holdoverIfDue
  rw [hroot, if_neg (by simpa using hage), if_pos ⟨hcfg, by rw [hoff]; rfl⟩]

theorem holdoverIfDue_still {s : State} (h : s.isRoot = true ∨ s.bl.syncAge < 64) : holdoverIfDue s = s := if_pos h

theorem holdover_locked (s : State) : (s.wr R.BL_SYNC_HOLDOVER 1).on R.BL_SYNC_HOLDOVER = true ∧
    (s.wr R.BL_SYNC_HOLDOVER 1).linkLocked = s.linkLocked := by
  constructor
  · unfold State.on
    rw [s.rd_wr_fits (by decide) (by decide)]
    rfl
  · unfold State.linkLocked
    rw [s.rd_wr_bl (by decide) (by decide)]

theorem isRoot_taken {s : State} (hoff : s.bl.rootOff = false) : State.isRoot { s with bl.rootTaken := true } = true := by
  unfold State.isRoot
  dsimp only
  rw [hoff, Bool.or_true]
  rfl

/-- Three SYNCs beyond 20 ns end LOCKED. -/
theorem syncLostIfDue_bad {s : State} (hroot : s.isRoot = false) (hlocked : s.linkLocked = true) (hbad : 3 ≤ s.bl.syncBad) :
    (syncLostIfDue s).rd R.BL_SYNC_STATE = 1 ∧ (syncLostIfDue s).te.evs = s.te.evs ++ [(41, 0x0404)] := by
  have hstate := s.linkLocked_iff.mp hlocked
  unfold syncLostIfDue
  rw [if_pos ⟨hlocked, by rw [hroot]; rfl, hbad⟩]
  exact ⟨syncState_state (by decide) s, syncState_evs (by omega)⟩

/-- 4,000 ticks of holdover end LOCKED. -/
theorem syncLostIfDue_holdover {s : State} (hroot : s.isRoot = false) (hlocked : s.linkLocked = true) (hbad : s.bl.syncBad < 3)
    (hhold : s.on R.BL_SYNC_HOLDOVER = true) (hticks : 4000 ≤ s.bl.holdTicks) : (syncLostIfDue s).rd R.BL_SYNC_STATE = 0 ∧
      (syncLostIfDue s).rd R.BL_SYNC_HOLDOVER = 0 ∧ (syncLostIfDue s).te.evs = s.te.evs ++ [(41, 0x0404)] := by
  have hstate : (s.wr R.BL_SYNC_HOLDOVER 0).rd R.BL_SYNC_STATE = 2 :=
    (s.rd_wr_bl (by decide) (by decide) 0).trans (s.linkLocked_iff.mp hlocked)
  unfold syncLostIfDue
  rw [if_neg (fun h => absurd h.2.2 (by omega)), if_pos ⟨hlocked, by rw [hroot]; rfl, hhold, hticks⟩]
  refine ⟨syncState_state (by decide) _, ?_, ?_⟩
  · rw [rd_syncState 0 _ (by decide) (by unfold apartFromQueues; decide)]
    exact s.rd_wr_fits (by decide) (by decide)
  · rw [syncState_evs (by omega), State.wr_te]
    rfl

theorem syncLostIfDue_still {s : State} (h : s.isRoot = true ∨ s.linkLocked = false) : syncLostIfDue s = s := by
  unfold syncLostIfDue
  rcases h with h | h <;> simp [h]

/-- Settles O40, clause by clause: a SYNC at its unit, holdover, the loss of the lock. -/
theorem linkSynchronisation : Obligations.LinkSynchronisation := by
  unfold Obligations.LinkSynchronisation
  intro s hr
  refine ⟨fun p cell tb period corr root err hacc hown hnew herr => ?_, fun p cell tb period corr root hacc hold => ?_, ?_⟩
  · have htaken := exec_sync_taken (period := period) hr hacc hown hnew herr
    refine ⟨fun hroot hcfg hstandby => exec_sync_conflict hr hacc hown hnew hroot hcfg hstandby, ?_, ?_, ?_, ?_, ?_⟩
    · intro hroot hperiod
      obtain ⟨u, hu, hexec⟩ := htaken hroot
      obtain ⟨hstate, hhops, hage, htime⟩ := syncTake_mismatch (hops := cellHops cell.bytes) (src := cellSrc cell.bytes) (err := err)
        (m := syncMsgOf tb period (corr + s.rd (R.BL_Pp_DELAY p)) root) (s := u)
        (ne_of_ne_of_eq hperiod (hu.rd R.TT_PERIOD_CYC (by decide)).symm)
      exact ⟨_, hexec, hstate, hhops, hage, htime.trans hu.time⟩
    · intro hroot hperiod hopen hlow hhigh hgood
      obtain ⟨u, hu, hexec⟩ := htaken hroot
      have hlocked : u.linkLocked = s.linkLocked := congrArg (· == 2) (hu.rd R.BL_SYNC_STATE (by decide))
      have hlocks := syncTake_locks (hops := cellHops cell.bytes) (src := cellSrc cell.bytes)
        (m := syncMsgOf tb period (corr + s.rd (R.BL_Pp_DELAY p)) root) (s := u)
        (hperiod.trans (hu.rd R.TT_PERIOD_CYC (by decide)).symm) (hlocked.trans hopen) ⟨hlow, hhigh⟩ (by rwa [hu.good])
      rw [hu.te] at hlocks
      exact ⟨_, hexec, hlocks⟩
    · intro hroot hperiod hclosed hfar hbad
      obtain ⟨u, hu, hexec⟩ := htaken hroot
      have hlocked : u.linkLocked = s.linkLocked := congrArg (· == 2) (hu.rd R.BL_SYNC_STATE (by decide))
      have hunlocks := syncTake_unlocks (hops := cellHops cell.bytes) (src := cellSrc cell.bytes)
        (m := syncMsgOf tb period (corr + s.rd (R.BL_Pp_DELAY p)) root) (s := u)
        (hperiod.trans (hu.rd R.TT_PERIOD_CYC (by decide)).symm) (hlocked.trans hclosed) hfar (by rwa [hu.bad])
      rw [hu.te] at hunlocks
      exact ⟨_, hexec, hunlocks⟩
    · intro hroot hperiod hfar hdrive
      obtain ⟨u, hu, hexec⟩ := htaken hroot
      have hdrive' : u.drive = s.drive := hu.rd R.LN_MD_STAT_STATE (by decide)
      exact ⟨_, hexec, syncTake_steps (hperiod.trans (hu.rd R.TT_PERIOD_CYC (by decide)).symm) hfar (by rwa [hdrive'])⟩
    · intro hroot hperiod hfar hon hdrive
      obtain ⟨u, hu, hexec⟩ := htaken hroot
      have hdrive' : u.drive = s.drive := hu.rd R.LN_MD_STAT_STATE (by decide)
      obtain ⟨htrim, htime⟩ := syncTake_trims (hops := cellHops cell.bytes) (src := cellSrc cell.bytes)
        (m := syncMsgOf tb period (corr + s.rd (R.BL_Pp_DELAY p)) root) (s := u)
        (hperiod.trans (hu.rd R.TT_PERIOD_CYC (by decide)).symm) hfar (by rwa [hdrive']) (by rwa [hdrive'])
      exact ⟨_, hexec, htrim, htime.trans hu.time⟩
  · have hagain := syncArrives_again (s := s.cleared) (m := syncMsgOf tb period corr root) cell.frac.val hacc hold
    refine ⟨_, (live_next _ hr).trans (congrArg _ hagain), State.inc_bl _ _, congrArg Output.cells (State.inc_out _ _), State.inc_time _ _, ?_⟩
    exact s.cleared.rxCells_counted p
  refine ⟨?_, ?_, ?_, ?_, ?_, ?_⟩
  · intro hroot hage hlocked hcfg
    obtain ⟨hon, hkept⟩ := holdover_locked s.cleared
    exact ⟨_, (live_next _ hr).trans (congrArg _ (holdoverIfDue_locked (s := s.cleared) hroot hage hlocked hcfg)), hon, hkept.trans hlocked⟩
  · intro hroot hage hcfg hoff
    exact ⟨_, (live_next _ hr).trans (congrArg _ (holdoverIfDue_standby (s := s.cleared) hroot hage hcfg hoff)), isRoot_taken (s := s.cleared) hoff⟩
  · intro h
    exact (live_next _ hr).trans (congrArg _ (holdoverIfDue_still (s := s.cleared) h))
  · intro hroot hlocked hbad
    exact ⟨_, live_next _ hr, syncLostIfDue_bad (s := s.cleared) hroot hlocked hbad⟩
  · intro hroot hlocked hbad hhold hticks
    exact ⟨_, live_next _ hr, syncLostIfDue_holdover (s := s.cleared) hroot hlocked hbad hhold hticks⟩
  · intro h
    exact (live_next _ hr).trans (congrArg _ (syncLostIfDue_still (s := s.cleared) h))

end Sys2Proof.Machine
end

section
/-! SUPPORT. What a cell for the unit leaves alone as it is received (08 R284), and what the tables that the root writes change
(08 R295, R311, R320). -/

namespace Sys2Proof.Machine

/-! ### Tables of the link -/

/-- The words that a MGMT message, the check of the budget and the cells sent write. -/
abbrev linkTable (a : Nat) : Prop :=
  portCount a ∨ a = 0x40090020 ∨ a = 0x4009040C ∨ a = 0x40090410 ∨ (0x40091000 ≤ a ∧ a < 0x40093000)

theorem linkTable_bl {a : Nat} (h : linkTable a) : blWord a := by omega

/-- `t` is `s` after tables of the link were written: the unit's map, its roles and its requests are those of `s`. -/
structure TablesSet (s t : State) : Prop where
  words : ∀ a, ¬ linkTable a → apartFromQueues a → t.word a = s.word a
  link : ∃ held reqAt noticeAt ring, t.bl = { s.bl with held := held, reqAt := reqAt, noticeAt := noticeAt, ring := ring }
  evs : ∀ e ∈ s.te.evs, e ∈ t.te.evs

namespace TablesSet

theorem refl (s : State) : TablesSet s s := ⟨fun _ _ _ => rfl, ⟨_, _, _, _, rfl⟩, fun _ h => h⟩

theorem trans {s t u : State} (h : TablesSet s t) (h' : TablesSet t u) : TablesSet s u := by
  obtain ⟨x, y, z, r, hb⟩ := h.link
  obtain ⟨x', y', z', r', hb'⟩ := h'.link
  exact ⟨fun a ha hq => (h'.words a ha hq).trans (h.words a ha hq), ⟨x', y', z', r', by rw [hb', hb]⟩, fun e he => h'.evs e (h.evs e he)⟩

theorem foldl {α : Type} {f : State → α → State} (h : ∀ s x, TablesSet s (f s x)) (l : List α) (s : State) :
    TablesSet s (l.foldl f s) := by
  induction l generalizing s with
  | nil => exact refl s
  | cons x l ih => exact (h s x).trans (ih _)

theorem ite {c : Prop} [Decidable c] {s t u : State} (ht : TablesSet s t) (hu : TablesSet s u) : TablesSet s (if c then t else u) := by
  split
  · exact ht
  · exact hu

theorem wr (s : State) {f : Fld} (hf : linkTable f.addr) (v : Nat) : TablesSet s (s.wr f v) :=
  ⟨fun _ ha _ => s.word_wr_bl (linkTable_bl hf) (fun e => ha (by rwa [e])) v, ⟨_, _, _, _, s.wr_bl f v⟩, fun _ h => by rwa [s.wr_te f v]⟩

theorem ring (s : State) (n : Nat) : TablesSet s { s with bl.ring := n } := ⟨fun _ _ _ => rfl, ⟨_, _, _, _, rfl⟩, fun _ h => h⟩

theorem event (s : State) {e : EventId} (he : e.ring < 64) (src : Nat) (d : List Byte) : TablesSet s (s.event e src d) :=
  ⟨fun _ _ hq => word_event s src d he hq, ⟨_, _, _, _, s.event_bl e src d⟩, fun x h => by
    rw [s.event_te e src d]
    exact List.mem_append_left _ h⟩

section
variable {s t : State} (h : TablesSet s t)
include h

theorem rd {f : Fld} (hf : ¬ linkTable f.addr) (hq : apartFromQueues f.addr) : t.rd f = s.rd f := State.rd_congr (h.words _ hf hq)

/-- What the link holds beside those four is kept. -/
theorem bl {α : Type} (k : BlState → α) (hk : ∀ b x y z r, k { b with held := x, reqAt := y, noticeAt := z, ring := r } = k b) :
    k t.bl = k s.bl := by
  obtain ⟨x, y, z, r, hb⟩ := h.link
  rw [hb]
  exact hk _ _ _ _ _

end

end TablesSet

theorem apart_of_bl {a : Nat} (h : blWord a) : apartFromQueues a := by
  have hb : (R.SB_STAT_SAFETY_EVT_LOST).addr = 0x400B0004 := rfl
  unfold apartFromQueues
  omega

theorem CellsSent.tables {s t : State} (h : CellsSent s t) : TablesSet s t where
  words a ha _ := h.words a (fun hc => ha (.inl hc))
  link := by
    obtain ⟨_, _, _, _, _, rfl⟩ := h.state
    exact ⟨_, _, _, _, rfl⟩
  evs e he := by rwa [h.te]

theorem loadPost_tables (l : Nat × Nat × Nat) (s : State) : TablesSet s (loadPost l s) := by
  unfold loadPost
  exact ((TablesSet.wr s (by decide) _).trans (.wr _ (by decide) _)).trans (.wr _ (by decide) _)

theorem budgetCheck_tables (s : State) : TablesSet s (budgetCheck s) := by
  unfold budgetCheck
  exact .ite (.refl s) (.ite ((loadPost_tables _ s).trans (.event _ (by decide) _ _)) (loadPost_tables _ s))

/-- The check of the budget leaves the words of the tables. -/
theorem word_budgetCheck (s : State) {a : Nat} (ha : a ≠ 0x4009040C ∧ a ≠ 0x40090410) (hq : apartFromQueues a) :
    (budgetCheck s).word a = s.word a := by
  have hpost : (loadPost s.presentLoad s).word a = s.word a := by
    unfold loadPost
    rw [State.word_wr_bl _ (by decide) ha.1, State.word_wr_bl _ (by decide) ha.1, State.word_wr_bl _ (by decide) ha.2]
  unfold budgetCheck
  split
  · rfl
  · dsimp only
    split
    · rw [word_event _ _ _ (by decide) hq, hpost]
    · exact hpost

theorem rt_linkTable (n : Nat) : linkTable (R.BL_RT_n_VALID n).addr := by simp only [linkTable, portCount]; omega
theorem cm_linkTable (c : Nat) : linkTable (R.BL_CM_c c).addr := by simp only [linkTable, portCount]; omega

theorem takeMgmt_tables (m : MgmtMsg) (s : State) : TablesSet s (takeMgmt m s) := by
  unfold takeMgmt
  cases m with
  | route uid valid port =>
    exact ((TablesSet.wr s (f := R.BL_RT_n_VALID uid.val) (rt_linkTable uid.val) (b2n valid)).trans
      (.wr _ (f := R.BL_RT_n_PORT uid.val) (rt_linkTable uid.val) port.val)).trans (budgetCheck_tables _)
  | mask consist ports => exact .wr s (f := R.BL_CM_c consist.val) (cm_linkTable consist.val) ports.toNat
  | ring closed ports blocked =>
    exact ((TablesSet.wr s (f := R.BL_STAT_RING) (by decide) (b2n closed)).trans
      (.wr _ (f := R.BL_STAT_BLOCKED) (by decide) blocked.toNat)).trans (.ring _ ports.toNat)

theorem mgmtTo_tables (u : Nat) (msgs : List MgmtMsg) (s : State) : TablesSet s (mgmtTo u msgs s) := by
  unfold mgmtTo
  exact .foldl (fun u _ => .ite (takeMgmt_tables _ u) (sendMsg_sent _ _ _ _ u).tables) _ s

theorem rootTables_tables (lost : List Nat) (s : State) : TablesSet s (rootTables lost s) := by
  unfold rootTables
  exact .foldl (fun u _ => mgmtTo_tables _ _ u) _ s

theorem enumNext_tables (s : State) : TablesSet s (enumNext s) := by
  unfold enumNext
  split
  · exact rootTables_tables [] s
  · exact .ite (sendNbr_sent _ _ _ _ _ _ s).tables (sendMsg_sent _ _ _ _ s).tables

/-! ### A cell received for the unit (08 R284) -/

/-- A cell that has passed the receive steps. -/
def State.taken (s : State) (p : Nat) (c : List Byte) : State := remember c (s.counted p)

/-- A management cell delivered. -/
def State.heard (s : State) (p : Nat) (c : List Byte) : State := (s.taken p c).qPush 62 (padTo 64 c)

/-- A cell taken that may leave its line is counted and remembered. -/
theorem receiveCell_taken {p typ : Nat} {c : List Byte} {s : State} (h : s.Accepts p c typ)
    (htyp : (0 < typ ∧ typ < 3) ∨ (5 < typ ∧ typ ≤ 9)) (f : State → State) : receiveCell p c typ f s = f (s.taken p c) :=
  receiveCell_cell h htyp f

/-- `t` is `s` when a cell was received: a port's counter, the cells seen, the ports left to enumerate and the queues may differ. -/
structure Received (s t : State) : Prop where
  words : ∀ a, ¬ portCount a → apartFromQueues a → t.word a = s.word a
  link : ∃ x y, t.bl = { s.bl with seen := x, todo := y }
  te : t.te = s.te
  time : t.time = s.time
  cells : t.out.cells = []

theorem taken_received (s : State) (p : Nat) (c : List Byte) : Received s (s.cleared.taken p c) where
  words _ ha _ := s.cleared.word_inc_count (rxCells_portCount p) ha
  link := ⟨_, _, rfl⟩
  te := s.cleared.inc_te (R.BL_Pp_RXCELLS p)
  time := s.cleared.inc_time (R.BL_Pp_RXCELLS p)
  cells := congrArg Output.cells (s.cleared.inc_out (R.BL_Pp_RXCELLS p))

theorem Received.push {s t : State} (h : Received s t) {n : Nat} (hn : n < 64) (x : List Byte) : Received s (t.qPush n x) where
  words a ha hq := (word_qPush t x hn hq).trans (h.words a ha hq)
  link := by
    rw [State.qPush_bl]
    exact h.link
  te := (t.qPush_te n x).trans h.te
  time := (t.qPush_time n x).trans h.time
  cells := (congrArg Output.cells (t.qPush_out n x)).trans h.cells

theorem heard_received (s : State) (p : Nat) (c : List Byte) : Received s (s.cleared.heard p c) :=
  (taken_received s p c).push (by decide) _

theorem taken_queues (s : State) (p : Nat) (c : List Byte) : (s.taken p c).queues = s.queues := s.inc_queues (R.BL_Pp_RXCELLS p)

theorem taken_time (s : State) (p : Nat) (c : List Byte) : (s.taken p c).time = s.time := s.inc_time (R.BL_Pp_RXCELLS p)

theorem heard_todo (s : State) (p : Nat) (c : List Byte) : (s.cleared.heard p c).bl.todo = s.bl.todo := by
  unfold State.heard
  rw [State.qPush_bl]
  rfl

theorem State.taskSlot_congr {s t : State} (h : ∀ a, 0x40030000 ≤ a ∧ a < 0x40031000 → t.word a = s.word a) (code : Nat) :
    t.taskSlot code = s.taskSlot code := by
  have hw0 : ∀ n, t.word (R.TT_ACTIVEn_W0 n).addr = s.word (R.TT_ACTIVEn_W0 n).addr := fun n => h _ (by simp only; omega)
  have hw1 : ∀ n, t.word (R.TT_ACTIVEn_W1 n).addr = s.word (R.TT_ACTIVEn_W1 n).addr := fun n => h _ (by simp only; omega)
  unfold State.taskSlot
  simp only [hw0, hw1]

/-- The credits of a queue outside the host window. -/
theorem State.qCredit_congr {s t : State} {n : Nat} (hn : 8 ≤ n) (hq : t.queues = s.queues) (ht : t.time = s.time) : t.qCredit n = s.qCredit n := by
  unfold State.qCredit State.qReturned State.qFill State.queue
  rw [if_neg (show ¬ n < 4 by omega), if_neg (show ¬ n < 8 by omega), if_neg (show ¬ n < 4 by omega), if_neg (show ¬ n < 8 by omega), hq, ht]

theorem taken_qCredit (s : State) (p : Nat) (c : List Byte) {n : Nat} (hn : 8 ≤ n) : (s.taken p c).qCredit n = s.qCredit n :=
  State.qCredit_congr hn (taken_queues s p c) (taken_time s p c)

namespace Received

section
variable {s t : State} (h : Received s t)
include h

theorem rd {f : Fld} (hf : ¬ portCount f.addr) (hq : apartFromQueues f.addr) : t.rd f = s.rd f := State.rd_congr (h.words _ hf hq)

/-- What the link holds beside those two is kept. -/
theorem bl {α : Type} (k : BlState → α) (hk : ∀ b x y, k { b with seen := x, todo := y } = k b) : k t.bl = k s.bl := by
  obtain ⟨x, y, hb⟩ := h.link
  rw [hb]
  exact hk _ _ _

theorem withTodo (l : List (Nat × Nat)) : Received s { t with bl.todo := l } where
  words := h.words
  link := by
    obtain ⟨x, y, hb⟩ := h.link
    exact ⟨x, l, by rw [hb]⟩
  te := h.te
  time := h.time
  cells := h.cells

theorem uid : t.uid = s.uid := h.rd (by decide) (by unfold apartFromQueues; decide)
theorem stick : t.stick = s.stick := congrArg (· % 256) (h.rd (by decide) (by unfold apartFromQueues; decide))
theorem period : t.period = s.period := h.rd (by decide) (by unfold apartFromQueues; decide)
theorem drive : t.drive = s.drive := h.rd (by decide) (by unfold apartFromQueues; decide)
theorem sub : t.sub = s.sub := h.rd (by decide) (by unfold apartFromQueues; decide)
theorem isHead : t.isHead = s.isHead := congrArg (· == 1) (h.rd (f := R.BL_ROLE_KIND) (by decide) (by unfold apartFromQueues; decide))
theorem linkLocked : t.linkLocked = s.linkLocked :=
  congrArg (· == 2) (h.rd (f := R.BL_SYNC_STATE) (by decide) (by unfold apartFromQueues; decide))

theorem isMember : t.isMember = s.isMember := by
  unfold State.isMember
  rw [h.rd (by decide) (by unfold apartFromQueues; decide)]

theorem serial : t.serial = s.serial := by
  unfold State.serial
  rw [h.rd (by decide) (by unfold apartFromQueues; decide), h.rd (by decide) (by unfold apartFromQueues; decide)]

theorem isRoot : t.isRoot = s.isRoot := by
  unfold State.isRoot
  rw [h.rd (by decide) (by unfold apartFromQueues; decide), h.bl (·.rootTaken) (fun _ _ _ => rfl), h.bl (·.rootOff) (fun _ _ _ => rfl)]

theorem topology : t.topology = s.topology := by
  unfold State.topology
  rw [h.uid, h.bl (·.links) (fun _ _ _ => rfl)]

theorem pickId (serial pref id : Nat) : t.pickId serial pref id = s.pickId serial pref id := by
  unfold State.pickId
  rw [h.uid, h.bl (·.units) (fun _ _ _ => rfl), h.bl (·.idHolds) (fun _ _ _ => rfl)]

theorem windowValid : t.windowValid = s.windowValid := by
  have hslot : t.taskSlot 3 = s.taskSlot 3 :=
    State.taskSlot_congr (fun a ha => h.words a (by omega) (by
      have hb : (R.SB_STAT_SAFETY_EVT_LOST).addr = 0x400B0004 := rfl
      unfold apartFromQueues
      omega)) 3
  unfold State.windowValid
  rw [hslot, h.period, h.rd (by decide) (by unfold apartFromQueues; decide), h.rd (by decide) (by unfold apartFromQueues; decide)]

theorem exchangeOpen : t.exchangeOpen = s.exchangeOpen := by
  unfold State.exchangeOpen
  rw [h.windowValid, h.bl (·.winOpen) (fun _ _ _ => rfl)]

theorem joinRefusal (per : Nat) (win : Word) : t.joinRefusal per win = s.joinRefusal per win := by
  unfold State.joinRefusal
  rw [h.linkLocked, h.windowValid, h.period, h.drive, h.sub, h.words _ (by decide) (by unfold apartFromQueues; decide),
    h.rd (by decide) (by unfold apartFromQueues; decide), h.rd (by decide) (by unfold apartFromQueues; decide), h.bl (·.join) (fun _ _ _ => rfl)]

theorem slotOf (uid : Nat) : t.slotOf uid = s.slotOf uid := by
  have hused : ∀ i, t.on (R.BL_CS_Ms_ID_USED i) = s.on (R.BL_CS_Ms_ID_USED i) := fun i =>
    congrArg (· != 0) (h.rd (f := R.BL_CS_Ms_ID_USED i) (by simp only [portCount]; omega) (apart_of_bl (by simp only [blWord]; omega)))
  have huid : ∀ i, t.rd (R.BL_CS_Ms_ID_UID i) = s.rd (R.BL_CS_Ms_ID_UID i) := fun i =>
    h.rd (f := R.BL_CS_Ms_ID_UID i) (by simp only [portCount]; omega) (apart_of_bl (by simp only [blWord]; omega))
  unfold State.slotOf State.slotsUsed
  simp only [hused, huid]

end

end Received

end Sys2Proof.Machine
end

section
/-! O41: what the cells of the link do at their unit (08 R283–R285, R295, R296, R298, R299, R303, R305, R306, R311, R320; assumption log 19
for the messages without bytes in the spec, 63 for the epoch of NOTICE). -/

namespace Sys2Proof.Machine

/-! ### Cells that go no further (08 R284, R285) -/

theorem crcErr_counted (s : State) (p : Nat) : (s.counted p).rd (R.BL_Pp_CRCERR p) = s.rd (R.BL_Pp_CRCERR p) :=
  s.rd_inc_bl (portCount_bl (rxCells_portCount p)) (.inl (by simp only; omega))

/-- A cell whose check fails is counted twice, and that is all. -/
theorem badCrc_counted {p : Fin 4} {cell : List Byte} {s : State} (hup : s.portUp p = true) (hcrc : fieldLE cell 30 2 ≠ crc16 (padTo 30 cell))
    (typ : Nat) (f : State → State) : ∃ t, receiveCell p cell typ f s.cleared = t ∧
      t.rd (R.BL_Pp_CRCERR p) = min (s.rd (R.BL_Pp_CRCERR p) + 1) (2 ^ (R.BL_Pp_CRCERR p).width - 1) ∧ t.bl = s.bl ∧
      t.queues = s.queues ∧ t.out.cells = [] := by
  have hrd := (s.cleared.counted p).rd_inc_same (crcErr_ok p)
  rw [crcErr_counted] at hrd
  refine ⟨_, receiveCell_badCrc (s := s.cleared) hup hcrc f, hrd, ?_, ?_, ?_⟩
  · exact (State.inc_bl _ _).trans (s.cleared.inc_bl (R.BL_Pp_RXCELLS p))
  · exact (State.inc_queues _ _).trans (s.cleared.inc_queues (R.BL_Pp_RXCELLS p))
  · exact (congrArg Output.cells (State.inc_out _ _)).trans (congrArg Output.cells (s.cleared.inc_out (R.BL_Pp_RXCELLS p)))

theorem discard_taken (s : State) (p : Nat) (c : List Byte) : (s.cleared.taken p c).rd (R.BL_Pp_DISCARD p) = s.rd (R.BL_Pp_DISCARD p) :=
  s.cleared.rd_inc_bl (f := R.BL_Pp_RXCELLS p) (portCount_bl (rxCells_portCount p)) (.inl (by simp only; omega))

/-- An exchange cell outside the window, or of another tick, is discarded and counted. -/
theorem exchange_discarded {p : Fin 4} {cell : List Byte} {s : State} {typ : Nat} (hacc : s.Accepts p cell typ) (htyp : 0 < typ ∧ typ < 3)
    (h : cellStick cell ≠ s.stick ∨ s.exchangeOpen = false) (f : State → State) :
    ∃ t, receiveCell p cell typ (exchangeTake p cell f) s.cleared = t ∧ t.out.cells = [] ∧
      t.rd (R.BL_Pp_DISCARD p) = min (s.rd (R.BL_Pp_DISCARD p) + 1) (2 ^ (R.BL_Pp_DISCARD p).width - 1) ∧ t.bl.share = s.bl.share ∧
      t.bl.contribs = s.bl.contribs := by
  have hv := taken_received s p cell
  have hrd := (s.cleared.taken p cell).rd_inc_same (discard_ok p)
  rw [discard_taken] at hrd
  have hclosed : ¬ (cellStick cell = (s.cleared.taken p cell).stick ∧ (s.cleared.taken p cell).exchangeOpen) := by
    rw [hv.stick, hv.exchangeOpen]
    rintro ⟨hstick, hopen⟩
    exact h.elim (· hstick) (fun hc => Bool.false_ne_true (hc.symm.trans hopen))
  refine ⟨_, (receiveCell_taken (s := s.cleared) hacc (.inl htyp) _).trans (if_neg hclosed), ?_, hrd, ?_, ?_⟩
  · exact (congrArg Output.cells (State.inc_out _ _)).trans hv.cells
  · exact (congrArg BlState.share (State.inc_bl _ _)).trans (hv.bl (·.share) (fun _ _ _ => rfl))
  · exact (congrArg BlState.contribs (State.inc_bl _ _)).trans (hv.bl (·.contribs) (fun _ _ _ => rfl))

/-! ### Cells for the unit, by their kind (08 R283, R284, R298) -/

section
variable {s : State} {p : Fin 4} {cell : List Byte}

theorem toQ62_credit {c : List Byte} {s : State} (h : 0 < s.qCredit 62) (f : State → State) : toQ62 c f s = f (s.qPush 62 (padTo 64 c)) :=
  if_neg (by omega)

theorem heard_credit (h : 0 < s.qCredit 62) (f : State → State) :
    toQ62 cell f (s.cleared.taken p cell) = f (s.cleared.heard p cell) :=
  toQ62_credit (h.trans_eq (taken_qCredit s.cleared p cell (by decide)).symm) f

/-- An ENUM cell for the unit. -/
theorem enumArrives_mine (hacc : s.Accepts p cell 6) (hdst : cellDst cell = s.uid ∨ cellDst cell = 0) (hcredit : 0 < s.qCredit 62) (msg : EnumMsg) :
    enumArrives p cell msg s.cleared = enumTake p (cellSrc cell) msg (s.cleared.heard p cell) := by
  refine (receiveCell_taken (s := s.cleared) hacc (.inr (by decide)) _).trans ?_
  have huid : (s.cleared.taken p cell).uid = s.uid := (taken_received s p cell).uid
  refine (if_neg ?_).trans (heard_credit hcredit _)
  rintro ⟨h0, hu⟩
  exact hdst.elim (fun h => hu (h.trans huid.symm)) h0

theorem taken_epoch : (s.cleared.taken p cell).rd R.BL_EPOCH = s.rd R.BL_EPOCH :=
  (taken_received s p cell).rd (by decide) (by unfold apartFromQueues; decide)

variable (hdst : cellDst cell = s.uid) (huid : s.uid ≠ 0)
include hdst huid

theorem taken_mine : cellDst cell = (s.cleared.taken p cell).uid ∧ (s.cleared.taken p cell).uid ≠ 0 := by
  rw [(taken_received s p cell).uid]
  exact ⟨hdst, huid⟩

/-- A MGMT cell for the unit: with its epoch it goes to Q62, with another it is stale. -/
theorem mgmtArrives_mine (hacc : s.Accepts p cell 9) (msg : MgmtMsg) : mgmtArrives p cell msg s.cleared =
    if cellEpoch cell ≠ s.rd R.BL_EPOCH then staleCell cell (cellEpoch cell) (s.cleared.taken p cell)
    else toQ62 cell (takeMgmt msg) (s.cleared.taken p cell) := by
  refine (receiveCell_taken (s := s.cleared) hacc (.inr (by decide)) _).trans ?_
  have hmine := taken_mine (p := p) hdst huid
  have hepoch := taken_epoch (s := s) (p := p) (cell := cell)
  generalize s.cleared.taken p cell = v at hmine hepoch ⊢
  simp [hmine.1, hmine.2, hepoch]

/-- A CONSIST cell for the unit. -/
theorem consistArrives_mine (hacc : s.Accepts p cell 7) (msg : ConsistMsg) : consistArrives p cell msg s.cleared =
    if cellEpoch cell ≠ s.rd R.BL_EPOCH then staleCell cell (cellEpoch cell) (s.cleared.taken p cell)
    else toQ62 cell (consistTake (cellSrc cell) msg) (s.cleared.taken p cell) := by
  refine (receiveCell_taken (s := s.cleared) hacc (.inr (by decide)) _).trans ?_
  have hmine := taken_mine (p := p) hdst huid
  have hepoch := taken_epoch (s := s) (p := p) (cell := cell)
  generalize s.cleared.taken p cell = v at hmine hepoch ⊢
  simp [hmine.1, hmine.2, hepoch]

/-- A NOTICE for the unit. -/
theorem noticeArrives_mine (hacc : s.Accepts p cell 8) (hcredit : 0 < s.qCredit 62) :
    noticeArrives p cell s.cleared = noticeTake cell (s.cleared.heard p cell) := by
  refine (receiveCell_taken (s := s.cleared) hacc (.inr (by decide)) _).trans (Eq.trans ?_ (heard_credit hcredit _))
  have hmine := taken_mine (p := p) hdst huid
  generalize s.cleared.taken p cell = v at hmine ⊢
  simp [hmine.1, hmine.2]

end

/-! ### ENUM (08 R295, R296) -/

theorem uid_uncut (s : State) : State.uid { s with bl.cut := false } = s.uid := rfl
theorem queues_uncut (s : State) : State.queues { s with bl.cut := false } = s.queues := rfl

theorem enumTake_assign {p src : Nat} {id : BitVec 11} {s : State} (hroot : s.isRoot = false) (hfree : s.uid = 0 ∨ s.bl.cut = true) :
    (enumTake p src (.assign id) s).uid = id.toNat ∧ (enumTake p src (.assign id) s).bl.cut = false ∧
      (enumTake p src (.assign id) s).queues = s.queues := by
  unfold enumTake
  dsimp only
  rw [hroot, if_neg Bool.false_ne_true, if_pos hfree, uid_uncut]
  refine ⟨s.rd_wr_fits (f := R.BL_UID_ID) (by decide) id.isLt, rfl, ?_⟩
  rw [queues_uncut, State.wr_queues]

/-- The answer for the port that the enumeration has come to. -/
theorem enumAnswer_first {u p : Nat} {f : State → State} {s : State} {rest : List (Nat × Nat)} (h : s.bl.todo = (u, p) :: rest) :
    enumAnswer u p f s = enumNext (f { s with bl.todo := rest }) := by
  unfold enumAnswer
  rw [h]
  exact if_pos rfl

section
variable {u p serial pref id epoch far : Nat} {s : State} (hserial : serial ≠ s.serial)
include hserial

/-- A unit found that has an ID to take, and that is known or within 32 hops, enters the map. -/
theorem enumUnit_units {n : Nat} (hreach : s.bl.units.any (fun x => x.2 == serial) = true ∨
      ∃ v, s.topology.nodes.find? (fun v => v.uid == u) = some v ∧ v.hops < 32) (hpick : s.pickId serial pref id = some n) :
    smapGet (fun _ => 0) (enumUnit u p serial pref id epoch far s).bl.units n = serial := by
  unfold enumUnit
  extract_lets link known
  rw [if_neg hserial]
  rename_i hops old
  split
  · next n' hadmit =>
    obtain ⟨-, hn⟩ := Option.ite_none_left_eq_some.mp hadmit
    cases hpick.symm.trans hn
    extract_lets entered told tree routed
    have htold : TablesSet entered told := .ite (sendNbr_sent _ _ _ _ _ _ _).tables (sendMsg_sent _ _ _ _ _).tables
    have hrouted : TablesSet told routed := .foldl (fun v _ => mgmtTo_tables _ _ v) _ _
    have hkept := (htold.trans hrouted).trans (mgmtTo_tables n (tree.tables [] routed.bl.consists n) routed)
    exact (congrArg (smapGet (fun _ => 0) · n) (hkept.bl (·.units) (fun _ _ _ _ _ => rfl))).trans (smapGet_set_same _ _ _ _)
  · next hrefused =>
    rw [hpick, ite_eq_left_iff] at hrefused
    obtain ⟨hnew, hfar⟩ := not_imp_comm.mp hrefused (Option.some_ne_none n)
    rcases hreach with h | ⟨v, hv, hlt⟩
    · simp [old, h] at hnew
    · simp only [hops, hv] at hfar
      omega

theorem enumUnit_refuses (hpick : s.pickId serial pref id = none) :
    enumUnit u p serial pref id epoch far s =
      { s with bl := { s.bl with refused := s.bl.refused + 1 } }.event Ev.UNIT_REFUSED (if u = s.uid then 9 + p else 9) (bytesLE 6 serial) := by
  unfold enumUnit
  dsimp only
  rw [if_neg hserial, hpick, ite_self]

end

section
variable {s : State} {p : Fin 4} {cell : List Byte} (hr : s.Running) (hacc : s.Accepts p cell 6)
  (hdst : cellDst cell = s.uid ∨ cellDst cell = 0) (hcredit : 0 < s.qCredit 62)
include hr hacc hdst hcredit

theorem exec_enum_mine (msg : EnumMsg) : exec (.enum p cell msg) s = .next (enumTake p (cellSrc cell) msg (s.cleared.heard p cell)) :=
  (live_next _ hr).trans (congrArg _ (enumArrives_mine hacc hdst hcredit msg))

theorem exec_enum_assign (id : BitVec 11) (hroot : s.isRoot = false) (hfree : s.uid = 0 ∨ s.bl.cut = true) :
    ∃ t, exec (.enum p cell (.assign id)) s = .next t ∧ t.uid = id.toNat ∧ t.bl.cut = false ∧
      (t.queue 62).items = (s.queue 62).items ++ [padTo 64 cell] := by
  have hv := heard_received s p cell
  obtain ⟨huid, hcut, hqueues⟩ := enumTake_assign (p := p) (src := cellSrc cell) (id := id) (hv.isRoot.trans hroot)
    (by rwa [hv.uid, hv.bl (·.cut) (fun _ _ _ => rfl)])
  have hpush := (qPush_credit (hcredit.trans_eq (taken_qCredit s.cleared p cell (by decide)).symm) (padTo 64 cell)).1
  rw [State.queue_congr (taken_queues s.cleared p cell) 62] at hpush
  exact ⟨_, exec_enum_mine hr hacc hdst hcredit _, huid, hcut, (congrArg Queue.items (State.queue_congr hqueues 62)).trans hpush⟩

variable {q far : Fin 4} {serial : BitVec 48} {pref id : BitVec 11} {epoch : BitVec 16} {rest : List (Nat × Nat)}
  (hroot : s.isRoot = true) (htodo : s.bl.todo = (cellSrc cell, q.val) :: rest)
include hroot htodo

/-- What the root has when an answer is for the port that its enumeration has come to. -/
theorem exec_enum_found : ∃ u, Received s u ∧ ∃ t, exec (.enum p cell (.found q serial pref id epoch far)) s = .next t ∧
    TablesSet (enumUnit (cellSrc cell) q serial.toNat pref.toNat id.toNat epoch.toNat far.val u) t := by
  have hv := heard_received s p cell
  refine ⟨_, hv.withTodo rest, _, exec_enum_mine hr hacc hdst hcredit _, ?_⟩
  unfold enumTake
  dsimp only
  rw [hv.isRoot, if_pos hroot, enumAnswer_first ((heard_todo s p cell).trans htodo)]
  exact enumNext_tables _

variable (hserial : serial.toNat ≠ s.serial)
include hserial

theorem exec_enum_admits {n : Nat} (hreach : s.bl.units.any (fun x => x.2 == serial.toNat) = true ∨
      ∃ v, s.topology.nodes.find? (fun v => v.uid == cellSrc cell) = some v ∧ v.hops < 32)
    (hpick : s.pickId serial.toNat pref.toNat id.toNat = some n) :
    ∃ t, exec (.enum p cell (.found q serial pref id epoch far)) s = .next t ∧ smapGet (fun _ => 0) t.bl.units n = serial.toNat := by
  obtain ⟨u, hu, t, ht, htables⟩ := exec_enum_found (far := far) (serial := serial) (pref := pref) (id := id)
    (epoch := epoch) hr hacc hdst hcredit hroot htodo
  refine ⟨t, ht, (congrArg (smapGet _ · n) (htables.bl (·.units) (fun _ _ _ _ _ => rfl))).trans (enumUnit_units ?_ ?_ ?_)⟩
  · exact ne_of_ne_of_eq hserial hu.serial.symm
  · rw [← hu.bl (·.units) (fun _ _ _ => rfl), ← hu.topology] at hreach
    exact hreach
  · exact (hu.pickId _ _ _).trans hpick

theorem exec_enum_refuses (hpick : s.pickId serial.toNat pref.toNat id.toNat = none) :
    ∃ t, exec (.enum p cell (.found q serial pref id epoch far)) s = .next t ∧ t.bl.refused = s.bl.refused + 1 ∧
      (41, 0x0406) ∈ t.te.evs ∧ t.bl.units = s.bl.units := by
  obtain ⟨u, hu, t, ht, htables⟩ := exec_enum_found (far := far) (serial := serial) (pref := pref) (id := id)
    (epoch := epoch) hr hacc hdst hcredit hroot htodo
  rw [enumUnit_refuses (ne_of_ne_of_eq hserial hu.serial.symm) ((hu.pickId _ _ _).trans hpick)] at htables
  refine ⟨t, ht, ?_, htables.evs _ ?_, ?_⟩
  · rw [htables.bl (·.refused) (fun _ _ _ _ _ => rfl), State.event_bl]
    exact congrArg (· + 1) (hu.bl (·.refused) (fun _ _ _ => rfl))
  · rw [State.event_te]
    exact List.mem_append_right _ (List.mem_singleton.mpr rfl)
  · rw [htables.bl (·.units) (fun _ _ _ _ _ => rfl), State.event_bl]
    exact hu.bl (·.units) (fun _ _ _ => rfl)

end

/-! ### MGMT (08 R295, R298, R320) -/

theorem takeMgmt_route (s : State) (uid : Fin 1024) (valid : Bool) (port : Fin 4) :
    (takeMgmt (.route uid valid port) s).rd (R.BL_RT_n_VALID uid) = b2n valid ∧
      (takeMgmt (.route uid valid port) s).rd (R.BL_RT_n_PORT uid) = port.val := by
  have hbl := linkTable_bl (rt_linkTable uid.val)
  have hport : (R.BL_RT_n_PORT uid).Ok := ⟨Nat.zero_le _, by simp only; omega⟩
  have hkept : ∀ u : State, (budgetCheck u).word (R.BL_RT_n_VALID uid).addr = u.word (R.BL_RT_n_VALID uid).addr := fun u =>
    word_budgetCheck u (by simp only; omega) (apart_of_bl hbl)
  unfold takeMgmt
  dsimp only
  constructor
  · rw [State.rd_congr (f := R.BL_RT_n_VALID uid) (hkept _), State.rd_wr_bl (f := R.BL_RT_n_PORT uid) _ hbl (.inr ⟨hport, .inl (by simp only; omega)⟩)]
    exact s.rd_wr_b2n (f := R.BL_RT_n_VALID uid) ⟨rfl, by simp only; omega⟩ valid
  · rw [State.rd_congr (f := R.BL_RT_n_PORT uid) (hkept _)]
    exact State.rd_wr_fits _ hport port.isLt

theorem takeMgmt_mask (s : State) (consist : Fin 128) (ports : BitVec 4) :
    (takeMgmt (.mask consist ports) s).rd (R.BL_CM_c consist) = ports.toNat :=
  s.rd_wr_fits (f := R.BL_CM_c consist) ⟨Nat.zero_le _, by simp only; omega⟩ ports.isLt

theorem rd_ring (s : State) (n : Nat) (f : Fld) : State.rd { s with bl.ring := n } f = s.rd f := rfl

theorem takeMgmt_ring (s : State) (closed : Bool) (ports blocked : BitVec 4) :
    (takeMgmt (.ring closed ports blocked) s).rd R.BL_STAT_RING = b2n closed ∧
      (takeMgmt (.ring closed ports blocked) s).rd R.BL_STAT_BLOCKED = blocked.toNat ∧
      (takeMgmt (.ring closed ports blocked) s).bl.ring = ports.toNat := by
  unfold takeMgmt
  dsimp only
  refine ⟨?_, ?_, rfl⟩
  · rw [rd_ring, State.rd_wr_bl _ (by decide) (by decide)]
    exact s.rd_wr_b2n (by decide) closed
  · rw [rd_ring]
    exact State.rd_wr_fits _ (by decide) blocked.isLt


section
variable {s : State} {p : Fin 4} {cell : List Byte} (hr : s.Running) (hacc : s.Accepts p cell 9) (hdst : cellDst cell = s.uid) (huid : s.uid ≠ 0)
include hr hacc hdst huid

theorem exec_mgmt_stale (hepoch : cellEpoch cell ≠ s.rd R.BL_EPOCH) (msg : MgmtMsg) : exec (.mgmt p cell msg) s =
    .next (staleCell cell (cellEpoch cell) (s.cleared.taken p cell)) :=
  (live_next _ hr).trans (congrArg _ ((mgmtArrives_mine hdst huid hacc msg).trans (if_pos hepoch)))

variable (hepoch : cellEpoch cell = s.rd R.BL_EPOCH)
include hepoch

theorem exec_mgmt_taken (hcredit : 0 < s.qCredit 62) (msg : MgmtMsg) :
    exec (.mgmt p cell msg) s = .next (takeMgmt msg (s.cleared.heard p cell)) :=
  (live_next _ hr).trans (congrArg _ ((mgmtArrives_mine hdst huid hacc msg).trans
    ((if_neg (not_not_intro hepoch)).trans (heard_credit hcredit _))))

theorem exec_mgmt_lost (hcredit : s.qCredit 62 = 0) (msg : MgmtMsg) :
    exec (.mgmt p cell msg) s = .next ((s.cleared.taken p cell).qLose 62) := by
  have hfull : (s.cleared.taken p cell).qCredit 62 = 0 := (taken_qCredit s.cleared p cell (by decide)).trans hcredit
  refine (live_next _ hr).trans (congrArg _ ((mgmtArrives_mine hdst huid hacc msg).trans ((if_neg (not_not_intro hepoch)).trans ?_)))
  exact (if_pos hfull).trans (qPush_drop hfull (by decide) _)

end

/-- A stale cell is counted, and a NOTICE goes back. -/
theorem staleCell_counts (c : List Byte) (seen : Nat) (s : State) :
    (staleCell c seen s).rd R.BL_STALECNT = min (s.rd R.BL_STALECNT + 1) (2 ^ R.BL_STALECNT.width - 1) ∧
      (staleCell c seen s).rd R.BL_STAT_RING = s.rd R.BL_STAT_RING ∧ (staleCell c seen s).queues = s.queues := by
  have hsent := notice_sent (cellSrc c) (cellType c) seen (s.inc R.BL_STALECNT)
  refine ⟨(hsent.rd (by decide)).trans (s.rd_inc_same (by decide)), (hsent.rd (by decide)).trans (s.rd_inc_bl (by decide) (by decide)), ?_⟩
  exact hsent.queues.trans (s.inc_queues R.BL_STALECNT)

theorem State.rd_setBl (s : State) (b : BlState) (m : MpState) (f : Fld) : State.rd { s with bl := b, mp := m } f = s.rd f := rfl

/-! ### CONSIST (08 R303, R311, R314) -/

section
variable {s : State} {p : Fin 4} {cell : List Byte}

theorem exec_consist_taken (hr : s.Running) (hacc : s.Accepts p cell 7) (hdst : cellDst cell = s.uid) (huid : s.uid ≠ 0)
    (hepoch : cellEpoch cell = s.rd R.BL_EPOCH) (hcredit : 0 < s.qCredit 62) (msg : ConsistMsg) :
    exec (.consist p cell msg) s = .next (consistTake (cellSrc cell) msg (s.cleared.heard p cell)) :=
  (live_next _ hr).trans (congrArg _ ((consistArrives_mine hdst huid hacc msg).trans
    ((if_neg (not_not_intro hepoch)).trans (heard_credit hcredit _))))

end

section
variable {src : Nat} {consist : Fin 128} {slot : Fin 64} {sn : BitVec 32} {headEpoch : BitVec 16} {deputy : Bool} {per : BitVec 15} {win : Word}
  {nsofs : BitVec 16} {s : State}

/-- The join that an offer brings. -/
def offeredJoin (src : Nat) (consist : Fin 128) (slot : Fin 64) (sn : BitVec 32) (headEpoch : BitVec 16) (deputy : Bool) (s : State) : JoinPlan :=
  { sn := sn.toNat, consist := consist.val, slot := slot.val, head := src, headEpoch := headEpoch.toNat, deputy := deputy
    tsc := max (s.rd R.LN_OL_TMAXM) (s.rd R.LN_OL_TMAXG) }

theorem consistTake_offer (h : s.joinRefusal per.toNat win = none) : ∃ t,
    consistTake src (.offer consist slot sn headEpoch deputy per win nsofs) s = t ∧
      t.bl.join = some (offeredJoin src consist slot sn headEpoch deputy s) ∧ t.rd R.BL_CS_NSOFS = nsofs.toNat := by
  unfold consistTake
  dsimp only
  rw [h]
  refine ⟨_, rfl, ?_, ?_⟩
  · exact (sendMsg_sent _ _ _ _ _).bl (·.join) (fun _ _ _ _ => rfl)
  · exact (((sendMsg_sent _ _ _ _ _).rd (by decide)).trans (State.rd_setBl _ _ _ _)).trans (s.rd_wr_fits (f := R.BL_CS_NSOFS) (by decide) nsofs.isLt)

theorem consistTake_refused (h : (s.joinRefusal per.toNat win).isSome = true) :
    (consistTake src (.offer consist slot sn headEpoch deputy per win nsofs) s).bl.join = s.bl.join := by
  obtain ⟨st, hst⟩ := Option.isSome_iff_exists.mp h
  unfold consistTake
  dsimp only
  rw [hst]
  exact (sendMsg_sent _ _ _ _ _).bl (·.join) (fun _ _ _ _ => rfl)

end

theorem consistTake_remove {src : Nat} {s : State} (h : s.isMember = true) : (consistTake src .remove s).bl.fadeDir = -1 := by
  unfold consistTake
  dsimp only
  rw [if_pos h]

theorem consistTake_deputy {src : Nat} {uid : BitVec 11} {epoch : BitVec 16} {s : State} (h : s.isMember = true) :
    (consistTake src (.deputy uid epoch) s).rd R.BL_CS_UNITS_DEPUTY = uid.toNat ∧
      (consistTake src (.deputy uid epoch) s).bl.deputyEpoch = epoch.toNat := by
  unfold consistTake
  dsimp only
  rw [if_pos h]
  exact ⟨(State.rd_setBl _ _ _ _).trans (s.rd_wr_fits (f := R.BL_CS_UNITS_DEPUTY) (by decide) uid.isLt), rfl⟩

/-! ### A member that loses its consist (08 R297, R299, R308) -/

theorem mem_evs_driveEvent (b a : State) {e : Nat × Nat} (h : e ∈ b.te.evs) : e ∈ (b.driveEvent a).te.evs := by
  unfold State.driveEvent
  split
  · exact h
  · rw [State.event_te]
    exact List.mem_append_left _ h

theorem driveEvent_ol (b a : State) : (b.driveEvent a).ol = b.ol := by
  unfold State.driveEvent
  split
  · rfl
  · exact State.event_ol _ _ _ _

theorem roleChange_bl (kind consist slot : Nat) (s : State) {g : Fld} (h : (R.BL_EPOCH).Misses g)  :
    (roleChange kind consist slot s).rd g = (((s.wr R.BL_ROLE_KIND kind).wr R.BL_ROLE_CONSIST consist).wr R.BL_ROLE_SLOT slot).rd g :=
  (State.rd_setBl _ _ _ _).trans (State.rd_wr_bl _ (by decide) h _)

theorem roleChange_kind (s : State) (consist slot : Nat) {kind : Nat} (h : kind < 4) :
    (roleChange kind consist slot s).rd R.BL_ROLE_KIND = kind := by
  rw [roleChange_bl _ _ _ _ (by decide), State.rd_wr_bl _ (by decide) (by decide), State.rd_wr_bl _ (by decide) (by decide)]
  exact s.rd_wr_fits (by decide) h

theorem roleChange_epoch (s : State) (kind consist slot : Nat) :
    (roleChange kind consist slot s).rd R.BL_EPOCH = (s.rd R.BL_EPOCH + 1) % 2 ^ 16 := by
  have hkept : (((s.wr R.BL_ROLE_KIND kind).wr R.BL_ROLE_CONSIST consist).wr R.BL_ROLE_SLOT slot).rd R.BL_EPOCH = s.rd R.BL_EPOCH := by
    rw [State.rd_wr_bl _ (by decide) (by decide), State.rd_wr_bl _ (by decide) (by decide), State.rd_wr_bl _ (by decide) (by decide)]
  refine (State.rd_setBl _ _ _ _).trans ((State.rd_wr_same _ (by decide) _).trans ?_)
  rw [hkept]
  rfl

theorem roleChange_te (s : State) (kind consist slot : Nat) : (roleChange kind consist slot s).te = s.te := by
  unfold roleChange
  dsimp only
  rw [State.incWrap_te, State.wr_te, State.wr_te, State.wr_te]

/-- A unit sent to TORQUE with reference 0, without the event. -/
def torqueZero (s : State) : State :=
  let s := { s with ol := { s.ol with torqueRef := 0, slots := smapErase 2 s.ol.slots } }
  if s.drive = 3 then (if s.sub = 0 then s.wr R.LN_MD_STAT_MODE 2 else s.wr R.LN_MD_STAT_PREV 2) else s

theorem toTorqueZero_eq (s : State) : toTorqueZero s = (torqueZero s).driveEvent s := rfl

theorem torqueZero_keeps {α : Type} {k : State → α} (hol : ∀ s o, k { s with ol := o } = k s) (hmode : ∀ s, k (s.wr R.LN_MD_STAT_MODE 2) = k s)
    (hprev : ∀ s, k (s.wr R.LN_MD_STAT_PREV 2) = k s) (s : State) : k (torqueZero s) = k s := by
  unfold torqueZero
  dsimp only
  split
  · split
    · exact (hmode _).trans (hol _ _)
    · exact (hprev _).trans (hol _ _)
  · exact hol _ _

theorem torqueZero_ref (s : State) : (torqueZero s).ol.torqueRef = 0 := by
  unfold torqueZero
  dsimp only
  split
  · split
    · rw [State.wr_ol]
    · rw [State.wr_ol]
  · rfl

theorem rd_toTorqueZero (s : State) {g : Fld} (hq : apartFromQueues g.addr) (hown : ownWord g.addr ∧ g.addr ≠ (R.LN_MD_STAT_MODE).addr ∧ g.addr ≠ (R.LN_MD_STAT_PREV).addr) :
    (toTorqueZero s).rd g = s.rd g := by
  rw [toTorqueZero_eq, State.rd_driveEvent hq]
  exact torqueZero_keeps (k := fun u => u.rd g) (fun _ _ => rfl) (fun u => u.rd_wr_missed ⟨by decide, hown.1, .inl hown.2.1⟩ 2)
    (fun u => u.rd_wr_missed ⟨by decide, hown.1, .inl hown.2.2⟩ 2) s

theorem toTorqueZero_ref (s : State) : (toTorqueZero s).ol.torqueRef = 0 := by
  rw [toTorqueZero_eq, driveEvent_ol, torqueZero_ref]

theorem mem_evs_toTorqueZero (s : State) {e : Nat × Nat} (h : e ∈ s.te.evs) : e ∈ (toTorqueZero s).te.evs := by
  rw [toTorqueZero_eq]
  refine mem_evs_driveEvent _ _ ?_
  rwa [torqueZero_keeps (k := fun u => u.te.evs) (fun _ _ => rfl) (fun u => by rw [State.wr_te]) (fun u => by rw [State.wr_te])]

/-- A member without its shares and without its fade. -/
def State.unshared (s : State) : State :=
  { s with bl := { s.bl with missRun := 0, prevMissing := false, share := none, takenBy := none, fadeDir := 0, f := 0 } }

theorem State.rd_unshared (s : State) (g : Fld) : s.unshared.rd g = s.rd g := rfl
theorem State.unshared_ol (s : State) : s.unshared.ol = s.ol := rfl
theorem State.unshared_te (s : State) : s.unshared.te = s.te := rfl

theorem detach_eq (s : State) : detach s = (toTorqueZero (roleChange 0 0 0 s)).unshared.event Ev.MEMBER_DETACHED 9 := rfl

theorem rd_detach (s : State) {g : Fld} (hq : apartFromQueues g.addr)
    (hown : ownWord g.addr ∧ g.addr ≠ (R.LN_MD_STAT_MODE).addr ∧ g.addr ≠ (R.LN_MD_STAT_PREV).addr) :
    (detach s).rd g = (roleChange 0 0 0 s).rd g := by
  rw [detach_eq, rd_event _ _ _ (by decide) hq, State.rd_unshared, rd_toTorqueZero _ hq hown]

/-- A member detached: its role NONE, its epoch one on, TORQUE with reference 0. -/
theorem detach_ends (s : State) : (detach s).rd R.BL_ROLE_KIND = 0 ∧ (detach s).rd R.BL_EPOCH = (s.rd R.BL_EPOCH + 1) % 2 ^ 16 ∧
    (detach s).ol.torqueRef = 0 := by
  refine ⟨?_, ?_, ?_⟩
  · rw [rd_detach s (by unfold apartFromQueues; decide) (by decide), roleChange_kind s 0 0 (by decide)]
  · rw [rd_detach s (by unfold apartFromQueues; decide) (by decide), roleChange_epoch]
  · rw [detach_eq, State.event_ol, State.unshared_ol, toTorqueZero_ref]

theorem mem_evs_detach (s : State) {e : Nat × Nat} (he : e ∈ s.te.evs ∨ e = (41, 0x0409)) : e ∈ (detach s).te.evs := by
  rw [detach_eq, State.event_te, State.unshared_te]
  rcases he with he | rfl
  · exact List.mem_append_left _ (mem_evs_toTorqueZero _ (by rwa [roleChange_te]))
  · exact List.mem_append_right _ (List.mem_singleton.mpr rfl)

/-! ### NOTICE (08 R298, R299) -/

/-- A NOTICE, once the root has written the sender's tables where they were stale. -/
def noticeHeard (c : List Byte) (s : State) : State :=
  if s.rd R.BL_ROLE_KIND = 2 then
    (if cellSrc c = s.rd R.BL_CS_UNITS_HEAD then detach (s.event Ev.CONSIST_LOST 9) else s)
  else if s.isHead ∨ s.rd R.BL_ROLE_KIND = 3 then
    let s : State := match s.bl.add with
      | some a => if a.uid = cellSrc c ∧ a.answer.isSome then
          { s with bl.add := some { a with answer := none, refused := some 0x23 } } else s
      | none => s
    { s with bl := { s.bl with notices := s.bl.notices ++ [(cellSrc c, fieldLE c 9 1, fieldLE c 12 1, fieldLE c 13 1, fieldLE c 10 2)] } }
  else s

/-- The sender's tables written again by the root, with the epoch that the NOTICE shows. -/
def noticeTables (c : List Byte) (s : State) : State :=
  if s.isRoot ∧ fieldLE c 14 1 = 9 then
    let s := { s with bl.epochs := smapSet (fun _ => 0) s.bl.epochs (cellSrc c) (fieldLE c 10 2) }
    mgmtTo (cellSrc c) (s.topology.tables [] s.bl.consists (cellSrc c)) s
  else s

theorem noticeTables_tables (c : List Byte) (s : State) : ∃ epochs, TablesSet { s with bl.epochs := epochs } (noticeTables c s) := by
  unfold noticeTables
  split
  · exact ⟨_, mgmtTo_tables _ _ _⟩
  · exact ⟨s.bl.epochs, .refl s⟩

theorem noticeTake_heard {c : List Byte} {s : State} (h : fieldLE c 8 1 = 1) : noticeTake c s = noticeHeard c (noticeTables c s) :=
  if_neg (not_not_intro h)

theorem noticeHeard_lost {c : List Byte} {s : State} (hkind : s.rd R.BL_ROLE_KIND = 2) (hsrc : cellSrc c = s.rd R.BL_CS_UNITS_HEAD) :
    noticeHeard c s = detach (s.event Ev.CONSIST_LOST 9) := by
  unfold noticeHeard
  rw [if_pos hkind, if_pos hsrc]

theorem noticeHeard_head {c : List Byte} {s : State} (h : s.isHead = true) : (noticeHeard c s).bl.notices =
    s.bl.notices ++ [(cellSrc c, fieldLE c 9 1, fieldLE c 12 1, fieldLE c 13 1, fieldLE c 10 2)] := by
  have hkind : s.rd R.BL_ROLE_KIND = 1 := beq_iff_eq.mp h
  unfold noticeHeard
  rw [if_neg (by omega), if_pos (.inl h)]
  dsimp only
  split
  · split
    · rfl
    · rfl
  · rfl

section
variable {s : State} {p : Fin 4} {cell : List Byte} (hr : s.Running) (hacc : s.Accepts p cell 8) (hdst : cellDst cell = s.uid)
  (huid : s.uid ≠ 0) (hkind : fieldLE cell 8 1 = 1) (hcredit : 0 < s.qCredit 62)
include hr hacc hdst huid hkind hcredit

/-- What a unit has when a NOTICE of its own reaches it. -/
theorem exec_notice_heard : ∃ u, exec (.notice p cell) s = .next (noticeHeard cell u) ∧
    (∀ g : Fld, ¬ linkTable g.addr → apartFromQueues g.addr → u.rd g = s.rd g) ∧ u.bl.notices = s.bl.notices := by
  have hv := heard_received s p cell
  have hheard := noticeTake_heard (s := s.cleared.heard p cell) hkind
  obtain ⟨epochs, hu⟩ := noticeTables_tables cell (s.cleared.heard p cell)
  refine ⟨_, (live_next _ hr).trans (congrArg _ ((noticeArrives_mine hdst huid hacc hcredit).trans hheard)), fun g hg hq => ?_, ?_⟩
  · exact (hu.rd hg hq).trans (hv.rd (fun h => hg (.inl h)) hq)
  · exact (hu.bl (·.notices) (fun _ _ _ _ _ => rfl)).trans (hv.bl (·.notices) (fun _ _ _ => rfl))

/-- A member that has it from its head loses the consist. -/
theorem exec_notice_lost (hrole : s.rd R.BL_ROLE_KIND = 2) (hsrc : cellSrc cell = s.rd R.BL_CS_UNITS_HEAD) :
    ∃ t, exec (.notice p cell) s = .next t ∧ t.rd R.BL_ROLE_KIND = 0 ∧ t.rd R.BL_EPOCH = (s.rd R.BL_EPOCH + 1) % 2 ^ 16 ∧
      t.ol.torqueRef = 0 ∧ (41, 0x0408) ∈ t.te.evs ∧ (41, 0x0409) ∈ t.te.evs := by
  obtain ⟨u, hexec, hrd, -⟩ := exec_notice_heard hr hacc hdst huid hkind hcredit
  rw [noticeHeard_lost ((hrd _ (by decide) (by unfold apartFromQueues; decide)).trans hrole)
    (hsrc.trans (hrd _ (by decide) (by unfold apartFromQueues; decide)).symm)] at hexec
  obtain ⟨hnone, hepoch, href⟩ := detach_ends (u.event Ev.CONSIST_LOST 9)
  rw [rd_event _ _ _ (by decide) (by unfold apartFromQueues; decide), hrd _ (by decide) (by unfold apartFromQueues; decide)] at hepoch
  refine ⟨_, hexec, hnone, hepoch, href, mem_evs_detach _ (.inl ?_), mem_evs_detach _ (.inr rfl)⟩
  rw [State.event_te]
  exact List.mem_append_right _ (List.mem_singleton.mpr rfl)

/-- A head keeps it until the next boundary. -/
theorem exec_notice_head (hhead : s.isHead = true) : ∃ t, exec (.notice p cell) s = .next t ∧ t.bl.notices = s.bl.notices ++
    [(cellSrc cell, fieldLE cell 9 1, fieldLE cell 12 1, fieldLE cell 13 1, fieldLE cell 10 2)] := by
  obtain ⟨u, hexec, hrd, hnotices⟩ := exec_notice_heard hr hacc hdst huid hkind hcredit
  refine ⟨_, hexec, ?_⟩
  rw [noticeHeard_head ((congrArg (· == 1) (hrd R.BL_ROLE_KIND (by decide) (by unfold apartFromQueues; decide))).trans hhead), hnotices]

end


/-! ### SHARE (08 R285, R305, R306) -/

theorem State.qPop_bl (s : State) (n : Nat) : (s.qPop n).2.bl = s.bl := by
  unfold State.qPop
  split
  · rfl
  · exact s.wr_bl _ _

/-- A contribution launched leaves what the link holds beside the cells sent and the launch itself. -/
theorem launchContrib_keeps {α : Type} {k : BlState → α} (hsent : ∀ b x y z, k { b with held := x, reqAt := y, noticeAt := z } = k b)
    (hlaunched : ∀ b, k { b with launched := true } = k b) (echo : Nat) (noshare : Bool) (s : State) :
    k (launchContrib echo noshare s).bl = k s.bl := by
  unfold launchContrib
  split
  · rfl
  · split
    · rfl
    · dsimp only
      split
      · rfl
      · refine ((sendTo_sent _ _ _ _ _).bl k hsent).trans ((hlaunched _).trans ?_)
        rw [State.qPop_bl]

/-- What every SHARE cell of the head's tells a member: that the head is there, its handover and hold, its demand. -/
def shareNoted (c : List Byte) (s : State) : State :=
  { s with bl := { s.bl with
    headSeen := true
    handover := s.bl.handover || testB (cellFlags c) 2
    headHold := testB (cellFlags c) 0
    dSeen := if fieldLE c 9 1 = 0 then ofFix 8 (signedOf 32 (fieldLE c 10 4)) else s.bl.dSeen } }

/-- The entry of the unit's slot in a SHARE cell taken. -/
def shareSlot (c : List Byte) (s : State) : State :=
  let slot := s.rd R.BL_ROLE_SLOT
  if fieldLE c 9 1 = slot / 5 ∧ 0 < slot then
    let off := 10 + 4 * (slot % 5)
    if fieldLE c off 2 ≠ s.rd R.BL_EPOCH then staleCell c (fieldLE c off 2) s
    else launchContrib (fieldLE c (off + 2) 2) false { s with bl.share := some (fieldLE c (off + 2) 2) }
  else s

theorem takeShare_head {p : Nat} {c : List Byte} {s : State} (hfree : s.bl.takenBy = none) (hsrc : cellSrc c = s.rd R.BL_CS_UNITS_HEAD)
    (hflag : testB (cellFlags c) 1 = false) (hcredit : 0 < s.qCredit (rxQueue p)) :
    takeShare p c s = shareSlot c (shareNoted c (s.qPush (rxQueue p) c)) := by
  have hcredit' : ¬ s.qCredit (rxQueue p) = 0 := by omega
  unfold takeShare
  simp only [hfree, hsrc, hflag, hcredit', Bool.false_and, Bool.or_false, beq_self_eq_true, Bool.not_true, Bool.false_eq_true, or_self,
    if_false, false_and]
  rfl

theorem shareSlot_mine {c : List Byte} {s : State} (hslot : 0 < s.rd R.BL_ROLE_SLOT)
    (hpart : fieldLE c 9 1 = s.rd R.BL_ROLE_SLOT / 5) (hepoch : fieldLE c (10 + 4 * (s.rd R.BL_ROLE_SLOT % 5)) 2 = s.rd R.BL_EPOCH) :
    (shareSlot c s).bl.share = some (fieldLE c (12 + 4 * (s.rd R.BL_ROLE_SLOT % 5)) 2) ∧ (shareSlot c s).bl.headSeen = s.bl.headSeen := by
  have hoff : 10 + 4 * (s.rd R.BL_ROLE_SLOT % 5) + 2 = 12 + 4 * (s.rd R.BL_ROLE_SLOT % 5) := by omega
  unfold shareSlot
  dsimp only
  rw [if_pos ⟨hpart, hslot⟩, if_neg (not_not_intro hepoch), hoff]
  exact ⟨launchContrib_keeps (k := (·.share)) (fun _ _ _ _ => rfl) (fun _ => rfl) _ _ _,
    launchContrib_keeps (k := (·.headSeen)) (fun _ _ _ _ => rfl) (fun _ => rfl) _ _ _⟩

theorem rd_shareNoted (c : List Byte) (s : State) (f : Fld) : (shareNoted c s).rd f = s.rd f := rfl

section
variable {s : State} {p : Fin 4} {cell : List Byte}

theorem rxQueue_range (p : Fin 4) : 8 ≤ rxQueue p ∧ rxQueue p < 64 := by
  unfold rxQueue
  omega

/-- A SHARE or CONTRIB cell of the present tick within the window goes on. -/
theorem exchange_taken {typ : Nat} (hacc : s.Accepts p cell typ) (htyp : 0 < typ ∧ typ < 3) (hstick : cellStick cell = s.stick)
    (hopen : s.exchangeOpen = true) (f : State → State) :
    receiveCell p cell typ (exchangeTake p cell f) s.cleared = f (s.cleared.taken p cell) := by
  have hv := taken_received s p cell
  exact (receiveCell_taken (s := s.cleared) hacc (.inl htyp) _).trans (if_pos ⟨hstick.trans hv.stick.symm, hv.exchangeOpen.trans hopen⟩)

theorem exec_share_taken (hr : s.Running) (hacc : s.Accepts p cell 1) (hmember : s.isMember = true)
    (hconsist : fieldLE cell 8 1 = s.rd R.BL_ROLE_CONSIST) (hlocked : s.linkLocked = true) (hopen : s.exchangeOpen = true)
    (hfree : s.bl.takenBy = none) (hstick : cellStick cell = s.stick) (hsrc : cellSrc cell = s.rd R.BL_CS_UNITS_HEAD)
    (hflag : testB (cellFlags cell) 1 = false) (hcredit : 0 < s.qCredit (rxQueue p)) (hslot : 0 < s.rd R.BL_ROLE_SLOT)
    (hpart : fieldLE cell 9 1 = s.rd R.BL_ROLE_SLOT / 5)
    (hepoch : fieldLE cell (10 + 4 * (s.rd R.BL_ROLE_SLOT % 5)) 2 = s.rd R.BL_EPOCH) : ∃ t, exec (.share p cell) s = .next t ∧
      t.bl.share = some (fieldLE cell (12 + 4 * (s.rd R.BL_ROLE_SLOT % 5)) 2) ∧ t.bl.headSeen = true := by
  obtain ⟨hlow, hhigh⟩ := rxQueue_range p
  have hv := taken_received s p cell
  have hmine : ((s.cleared.taken p cell).isMember && fieldLE cell 8 1 == (s.cleared.taken p cell).rd R.BL_ROLE_CONSIST &&
      (s.cleared.taken p cell).linkLocked) = true := by
    rw [hv.isMember, hv.linkLocked, hv.rd (by decide) (by unfold apartFromQueues; decide), hmember, hlocked, beq_iff_eq.mpr hconsist]
    rfl
  have hhead := takeShare_head (p := p) (c := cell) (s := s.cleared.taken p cell) ((hv.bl (·.takenBy) (fun _ _ _ => rfl)).trans hfree)
    (hsrc.trans (hv.rd (by decide) (by unfold apartFromQueues; decide)).symm) hflag
    (hcredit.trans_eq (taken_qCredit s.cleared p cell hlow).symm)
  have hq := hv.push hhigh cell
  have hrd : ∀ f : Fld, ¬ portCount f.addr → apartFromQueues f.addr →
      (shareNoted cell ((s.cleared.taken p cell).qPush (rxQueue p) cell)).rd f = s.rd f := fun f hf ha => (rd_shareNoted _ _ f).trans (hq.rd hf ha)
  have hrole := hrd R.BL_ROLE_SLOT (by decide) (by unfold apartFromQueues; decide)
  have hown := hrd R.BL_EPOCH (by decide) (by unfold apartFromQueues; decide)
  obtain ⟨hshare, hseen⟩ := shareSlot_mine (c := cell) (s := shareNoted cell ((s.cleared.taken p cell).qPush (rxQueue p) cell))
    (by rwa [hrole]) (by rwa [hrole]) (by rwa [hrole, hown])
  rw [← hhead] at hshare hseen
  rw [hrole] at hshare
  have hforward := forward_sent p cell (takeShare p cell (s.cleared.taken p cell))
  refine ⟨_, (live_next _ hr).trans (congrArg _ ((exchange_taken hacc (by decide) hstick hopen _).trans
    (congrArg (forward p cell) (if_pos hmine)))), ?_, ?_⟩
  · exact (hforward.bl (·.share) (fun _ _ _ _ => rfl)).trans hshare
  · exact (hforward.bl (·.headSeen) (fun _ _ _ _ => rfl)).trans hseen

/-! ### CONTRIB (08 R306) -/

/-- What a CONTRIB cell says. -/
def contribOf (c : List Byte) : Contrib :=
  { status := fieldLE c 10 1
    f := fieldLE c 11 1
    cpos := ofFix 8 (signedOf 32 (fieldLE c 12 4))
    cneg := ofFix 8 (signedOf 32 (fieldLE c 16 4))
    ofs := ofFix 8 (signedOf 32 (fieldLE c 20 4)) }

/-- A member's contribution, of the unit's own consist and from the slot's unit, reaches the head. -/
theorem exec_contrib_taken (hr : s.Running) (hacc : s.Accepts p cell 2) (hdst : cellDst cell = s.uid) (huid : s.uid ≠ 0)
    (hlocked : s.linkLocked = true) (hstick : cellStick cell = s.stick) (hopen : s.exchangeOpen = true)
    (hepoch : cellEpoch cell = s.rd R.BL_EPOCH) (hcredit : 0 < s.qCredit (rxQueue p)) (hhead : s.isHead = true)
    (hconsist : fieldLE cell 8 1 = s.rd R.BL_ROLE_CONSIST) (hslot : s.slotOf (cellSrc cell) = some (fieldLE cell 9 1 % 64)) :
    ∃ t r, exec (.contrib p cell) s = .next t ∧ smapGet (fun _ => none) t.bl.contribs (fieldLE cell 9 1 % 64) = some r ∧
      r.status = fieldLE cell 10 1 ∧ r.f = fieldLE cell 11 1 ∧ r.cpos = ofFix 8 (signedOf 32 (fieldLE cell 12 4)) ∧
      r.cneg = ofFix 8 (signedOf 32 (fieldLE cell 16 4)) := by
  obtain ⟨hlow, hhigh⟩ := rxQueue_range p
  have hv := taken_received s p cell
  have hq := hv.push hhigh cell
  have hfull : ¬ (s.cleared.taken p cell).qCredit (rxQueue p) = 0 := by rw [taken_qCredit _ _ _ hlow]; exact Nat.pos_iff_ne_zero.mp hcredit
  have htaken := exchange_taken (p := p) (cell := cell) hacc (by decide) hstick hopen
  obtain ⟨hto, hid⟩ := taken_mine (p := p) (cell := cell) hdst huid
  have hmine : ¬ (cellDst cell ≠ (s.cleared.taken p cell).uid ∨ (s.cleared.taken p cell).uid = 0) := fun h => h.elim (· hto) hid
  have hlock : ¬ (!(s.cleared.taken p cell).linkLocked) = true := by
    rw [hv.linkLocked, hlocked]
    decide
  have hown : ¬ cellEpoch cell ≠ (s.cleared.taken p cell).rd R.BL_EPOCH := not_not_intro (hepoch.trans taken_epoch.symm)
  have hentered : ¬ ((s.cleared.taken p cell).qCredit (rxQueue p) = 0 ∨ (!((s.cleared.taken p cell).qPush (rxQueue p) cell).isHead) = true ∨
      fieldLE cell 8 1 ≠ ((s.cleared.taken p cell).qPush (rxQueue p) cell).rd R.BL_ROLE_CONSIST ∨
      ((s.cleared.taken p cell).qPush (rxQueue p) cell).slotOf (cellSrc cell) ≠ some (fieldLE cell 9 1 % 64)) := by
    rw [hq.isHead, hq.slotOf, hq.rd (f := R.BL_ROLE_CONSIST) (by decide) (by unfold apartFromQueues; decide), hhead, hslot, hconsist]
    simp [hfull]
  have hexec := (live_next (contribArrives p cell) hr).trans (congrArg _ ((htaken _).trans ((if_neg hmine).trans ((if_neg hlock).trans
    ((if_neg hown).trans (if_neg hentered))))))
  exact ⟨_, contribOf cell, hexec, smapGet_set_same (fun _ => none) ((s.cleared.taken p cell).qPush (rxQueue p) cell).bl.contribs _
    (some (contribOf cell)), rfl, rfl, rfl, rfl⟩

end

/-- Settles O41, clause by clause: one lemma for each kind of cell. -/
theorem cellsAreCheckedAndTaken : Obligations.CellsAreCheckedAndTaken := by
  unfold Obligations.CellsAreCheckedAndTaken
  intro p cell s hr
  refine ⟨?_, ?_, ?_, ?_, ?_, ?_, ?_, ?_, ?_, ?_, ?_⟩
  · intro i hi hup hcrc
    simp only [List.mem_cons, List.not_mem_nil, or_false] at hi
    rcases hi with rfl | rfl | rfl
    · obtain ⟨t, ht, hcounted⟩ := badCrc_counted hup hcrc 1 _
      exact ⟨t, (live_next _ hr).trans (congrArg _ ht), hcounted⟩
    · obtain ⟨t, ht, hcounted⟩ := badCrc_counted hup hcrc 2 _
      exact ⟨t, (live_next _ hr).trans (congrArg _ ht), hcounted⟩
    · obtain ⟨t, ht, hcounted⟩ := badCrc_counted hup hcrc 8 _
      exact ⟨t, (live_next _ hr).trans (congrArg _ ht), hcounted⟩
  · intro id hacc hdst hcredit hroot hfree
    exact exec_enum_assign hr hacc hdst hcredit id hroot hfree
  · intro q far serial pref id epoch rest hacc hdst hcredit hroot htodo hserial
    exact ⟨fun n hreach hpick => exec_enum_admits hr hacc hdst hcredit hroot htodo hserial hreach hpick,
      fun hpick => exec_enum_refuses hr hacc hdst hcredit hroot htodo hserial hpick⟩
  · intro hacc hdst huid hepoch hcredit
    have htaken := exec_mgmt_taken hr hacc hdst huid hepoch hcredit
    exact ⟨fun uid valid port => ⟨_, htaken _, takeMgmt_route _ uid valid port⟩,
      fun consist ports => ⟨_, htaken _, takeMgmt_mask _ consist ports⟩,
      fun closed ports blocked => ⟨_, htaken _, takeMgmt_ring _ closed ports blocked⟩⟩
  · intro msg hacc hdst huid hepoch
    have hv := taken_received s p cell
    obtain ⟨hcount, hring, hqueues⟩ := staleCell_counts cell (cellEpoch cell) (s.cleared.taken p cell)
    rw [hv.rd (by decide) (by unfold apartFromQueues; decide)] at hcount hring
    exact ⟨_, exec_mgmt_stale hr hacc hdst huid hepoch msg, hcount, hring, hqueues.trans (taken_queues s.cleared p cell)⟩
  · intro msg hacc hdst huid hepoch hcredit
    have hv := taken_received s p cell
    refine ⟨_, exec_mgmt_lost hr hacc hdst huid hepoch hcredit msg, ?_, ?_, ?_⟩
    · exact (State.qLose_queues _ 62).trans (taken_queues s.cleared p cell)
    · exact (congrArg BlState.ring (State.qLose_bl _ 62)).trans (hv.bl (·.ring) (fun _ _ _ => rfl))
    · exact (State.rd_congr (word_qLose _ (by decide) (by unfold apartFromQueues; decide))).trans (hv.rd (by decide) (by unfold apartFromQueues; decide))
  · intro hacc hdst huid hepoch hcredit
    have htaken := exec_consist_taken hr hacc hdst huid hepoch hcredit
    have hv := heard_received s p cell
    refine ⟨fun consist slot sn headEpoch deputy per win nsofs hjoin => ?_, fun consist slot sn headEpoch deputy per win nsofs hjoin => ?_,
      fun hmember => ?_, fun uid epoch hmember => ?_⟩
    · obtain ⟨t, ht, hplan, hofs⟩ := consistTake_offer (src := cellSrc cell) (consist := consist) (slot := slot) (sn := sn)
        (headEpoch := headEpoch) (deputy := deputy) (nsofs := nsofs) ((hv.joinRefusal _ _).trans hjoin)
      exact ⟨t, _, (htaken _).trans (congrArg _ ht), hplan, rfl, rfl, rfl, rfl, rfl, rfl, hofs⟩
    · exact ⟨_, htaken _, (consistTake_refused (by rwa [hv.joinRefusal])).trans (hv.bl (·.join) (fun _ _ _ => rfl))⟩
    · exact ⟨_, htaken _, consistTake_remove (hv.isMember.trans hmember)⟩
    · exact ⟨_, htaken _, consistTake_deputy (hv.isMember.trans hmember)⟩
  · intro hacc hdst huid hkind hcredit
    exact ⟨fun hrole hsrc => exec_notice_lost hr hacc hdst huid hkind hcredit hrole hsrc,
      fun hhead => exec_notice_head hr hacc hdst huid hkind hcredit hhead⟩
  · intro hacc hmember hconsist hlocked hopen hfree hstick hsrc hflag hcredit hslot hpart hepoch
    exact exec_share_taken hr hacc hmember hconsist hlocked hopen hfree hstick hsrc hflag hcredit hslot hpart hepoch
  · intro i hi hacc h
    simp only [List.mem_cons, List.not_mem_nil, or_false] at hi
    rcases hi with rfl | rfl
    · rw [if_pos rfl] at hacc
      obtain ⟨t, ht, hlost⟩ := exchange_discarded hacc (by decide) h _
      exact ⟨t, (live_next _ hr).trans (congrArg _ ht), hlost⟩
    · rw [if_neg (by simp)] at hacc
      obtain ⟨t, ht, hlost⟩ := exchange_discarded hacc (by decide) h _
      exact ⟨t, (live_next _ hr).trans (congrArg _ ht), hlost⟩
  · intro hacc hdst huid hlocked hstick hopen hepoch hcredit hhead hconsist hslot
    exact exec_contrib_taken hr hacc hdst huid hlocked hstick hopen hepoch hcredit hhead hconsist hslot

end Sys2Proof.Machine
end

section
/-! SUPPORT. What a command of the host leaves but for its record and its handle (12 R409, R410, R412, R414). -/

namespace Sys2Proof.Machine

/-! ### A record -/

/-- `t` is `s` but for a record, a handle and the step's output: registers outside the queue manager and the host block, and every part
but the memory and the works, are those of `s`. -/
structure Recorded (s t : State) : Prop where
  parts : SameOutside [.regs, .mem, .hs, .out] s t
  words : ∀ a, a / 0x10000 ≠ 0x4002 → a / 0x10000 ≠ 0x400E → t.word a = s.word a

namespace Recorded

section
variable {s t : State} (h : Recorded s t)
include h

theorem rd {f : Fld} (hq : f.addr / 0x10000 ≠ 0x4002 ∧ f.addr / 0x10000 ≠ 0x400E) : t.rd f = s.rd f :=
  State.rd_congr (h.words _ hq.1 hq.2)

theorem on {f : Fld} (hq : f.addr / 0x10000 ≠ 0x4002 ∧ f.addr / 0x10000 ≠ 0x400E) : t.on f = s.on f := congrArg (· != 0) (h.rd hq)

theorem bl : t.bl = s.bl := h.parts .bl (by decide)
theorem pm : t.pm = s.pm := h.parts .pm (by decide)
theorem sb : t.sb = s.sb := h.parts .sb (by decide)
theorem nv : t.nv = s.nv := h.parts .nv (by decide)
theorem time : t.time = s.time := h.parts .time (by decide)

end

end Recorded

/-- A record that frees no handle's slot. -/
theorem writeRecord_plain {r : Record} (h : ¬ (r.kind = 2 ∧ r.handle ≠ 0)) (s : State) : writeRecord r s = recordWritten r s := if_neg h

theorem recordWritten_hs (r : Record) (s : State) : (recordWritten r s).hs = s.hs := by
  have hput : ∀ a bs, (s.setMem a bs).hs = s.hs := fun a bs => s.setMem_parts a bs .hs (by decide)
  unfold recordWritten
  dsimp only
  split
  · rw [State.qIrq_hs, State.wr_hs, hput]
  · rw [State.wr_hs, State.qIrq_hs, State.wr_hs, hput]

/-- A record put into its completion queue. -/
theorem putRecord_recorded {r : Record} {s : State} (hc : 0 < s.qCredit (r.queue + 4)) (hh : s.hs.held = []) : Recorded s (putRecord r s) where
  parts := sameOutside_of_sound (putRecord_sound (by decide) r s (sound_refl _ s))
  words a hq hh' := by rw [putRecord_written hc hh, word_writeRecord r s hq hh']

theorem cleared_recorded (s : State) : Recorded s s.cleared where
  parts := sameOutside_of_sound (cleared_sound (by decide) (sound_refl _ s))
  words _ _ _ := rfl

theorem State.sameAt_trans {s t u : State} {p : Part} (h : s.sameAt t p) (h' : t.sameAt u p) : s.sameAt u p := by
  cases p <;> exact Eq.trans h' h

theorem Recorded.trans {s t u : State} (h : Recorded s t) (h' : Recorded t u) : Recorded s u where
  parts p hp := State.sameAt_trans (h.parts p hp) (h'.parts p hp)
  words a hq hh := (h'.words a hq hh).trans (h.words a hq hh)

/-! ### Commands that end at their pop -/

section
variable {op : Nat} {named : List (Nat × Nat × Nat)} {d : Desc} {s : State} {act : State → Plan} (h : s.Serves op named d)
include h

/-- A command that ends at its pop on the state that its effect leaves. -/
theorem serves_final {status : Nat} {result : List Byte} {u : State} (hact : act s.cleared = .final status result u)
    (hc : u.qCredit (d.queue.val + 4) = s.qCredit (d.queue.val + 4)) (hh : u.hs = s.hs)
    (htail : u.rd (R.HS_CPLc_TAIL d.queue) = s.rd (R.HS_CPLc_TAIL d.queue)) (htick : u.tickno = s.tickno) :
    ∃ t, live (command op named d act) s = .next t ∧ Finished op d status result s t ∧ Recorded u t := by
  obtain ⟨-, -, -, -, -, hcredit, hheld⟩ := id h
  have hcredit' : 0 < u.qCredit (d.queue.val + 4) := hcredit.trans_eq hc.symm
  have hheld' : u.hs.held = [] := (congrArg HsState.held hh).trans hheld
  refine ⟨_, (command_serves act h).trans (congrArg (fun x => Host.Outcome.next (runPlan op d s.cleared x)) hact), ?_, ?_⟩
  · exact finished_putRecord op d status result hcredit' hheld' htail htick
  · exact putRecord_recorded (r := descRecord op d 0 2 status result) hcredit' hheld'

/-- A command that is refused, or that only reports, leaves nothing but its record. -/
theorem serves_refused {status : Nat} {result : List Byte} (hact : act s.cleared = .final status result s.cleared) :
    ∃ t, live (command op named d act) s = .next t ∧ Finished op d status result s t ∧ Recorded s t := by
  obtain ⟨t, ht, hfin, hrec⟩ := serves_final h hact rfl rfl rfl rfl
  exact ⟨t, ht, hfin, (cleared_recorded s).trans hrec⟩

end

/-! ### Commands that go on behind a handle -/

/-- `v` is `s` with a handle issued: its entry in the table of handles is written, and it is no longer fresh or free. -/
structure Issued (s v : State) : Prop where
  parts : SameOutside [.regs, .mem, .hs, .out] s v
  words : ∀ a, v.word a = s.word a
  works : v.hs.works = s.hs.works
  held : v.hs.held = s.hs.held

theorem issued_hs (s : State) (fresh : Nat) (freed : List Nat) : Issued s { s with hs := { s.hs with fresh := fresh, freed := freed } } :=
  ⟨fun p hp => by cases p <;> first | rfl | exact absurd (by decide) hp, fun _ => rfl, rfl, rfl⟩

theorem Issued.setEntry {s v : State} (h : Issued s v) (slot e : Nat) : Issued s (v.setEntry slot e) where
  parts p hp := State.sameAt_trans (h.parts p hp) (v.setMem_parts _ _ p (fun hm => hp (by
    rw [List.mem_singleton.mp hm]
    decide)))
  words a := (v.word_setMem _ _ a).trans (h.words a)
  works := (congrArg HsState.works (v.setMem_parts _ _ .hs (by decide))).trans h.works
  held := (congrArg HsState.held (v.setMem_parts _ _ .hs (by decide))).trans h.held

theorem issueHandle_free {s : State} (h : s.HandleFree) (queue family : Nat) : ∃ n v, issueHandle queue family s = some (n, v) ∧ Issued s v := by
  unfold issueHandle
  dsimp only
  split
  · exact ⟨_, _, rfl, (issued_hs s _ _).setEntry _ _⟩
  · next hfull =>
    obtain ⟨slot, rest, hfreed⟩ := List.exists_cons_of_ne_nil (h.resolve_left hfull)
    rw [hfreed]
    exact ⟨_, _, rfl, (issued_hs s _ _).setEntry _ _⟩

/-- The work of a command. -/
def workOf (op : Nat) (d : Desc) (area : Option (Nat × Nat)) (h : Nat) (k : WorkKind) : Work :=
  { handle := h
    ctag := d.ctag.toNat
    opcode := op
    queue := d.queue.val
    dseq := d.dseq.toNat
    noirq := testB d.flags.toNat 1
    kind := k
    area := area }

/-- The work of a command added to those outstanding. -/
def withWork (op : Nat) (d : Desc) (area : Option (Nat × Nat)) (h : Nat) (r : WorkKind × State) : State :=
  { r.2 with hs := { r.2.hs with works := r.2.hs.works ++ [workOf op d area h r.1] } }

section
variable (op : Nat) (d : Desc) (area : Option (Nat × Nat)) (h : Nat) (r : WorkKind × State)

theorem withWork_bl : (withWork op d area h r).bl = r.2.bl := rfl
theorem withWork_pm : (withWork op d area h r).pm = r.2.pm := rfl
theorem withWork_sb : (withWork op d area h r).sb = r.2.sb := rfl
theorem withWork_nv : (withWork op d area h r).nv = r.2.nv := rfl
theorem withWork_te : (withWork op d area h r).te = r.2.te := rfl
theorem rd_withWork (f : Fld) : (withWork op d area h r).rd f = r.2.rd f := rfl

end

/-- The state in which the work of a command begins: its handle is issued and its ACCEPTED record is written. -/
structure Begun (op : Nat) (d : Desc) (h : Nat) (s u : State) : Prop extends Recorded s u where
  tail : u.rd (R.HS_CPLc_TAIL d.queue) = (s.rd (R.HS_CPLc_TAIL d.queue) + 1) % 2 ^ 16
  record : u.memBytes (cplSlot d.queue (s.rd (R.HS_CPLc_TAIL d.queue))) 32 = (descRecord op d h 1 0 []).bytes s.tickno
  works : u.hs.works = s.hs.works

/-- The host's part of the state: its memory, its works, the words of its block. -/
abbrev hostMask : Nat := 2 ^ 1 + 2 ^ 28 + 2 ^ 47

/-- A work that leaves the host's part alone is accepted. -/
theorem Begun.accepted {op : Nat} {d : Desc} {h : Nat} {s u : State} (hb : Begun op d h s u) {r : WorkKind × State} {area : Option (Nat × Nat)}
    (hr : r.2.Sound hostMask u) {kind : Nat → WorkKind → Prop} (hk : kind h r.1) : Accepted op d kind s (withWork op d area h r) := by
  have hmem : r.2.mem = u.mem := hr.same .mem (by decide)
  have hhs : r.2.hs = u.hs := hr.same .hs (by decide)
  have hunit : hostMask.testBit (unitBit (R.HS_CPLc_TAIL d.queue).addr) = true := by
    have hblock : (R.HS_CPLc_TAIL d.queue).addr / 0x10000 = 0x400E := by simp only; omega
    unfold unitBit
    rw [hblock]
    decide
  have htail : r.2.rd (R.HS_CPLc_TAIL d.queue) = u.rd (R.HS_CPLc_TAIL d.queue) := hr.rd_eq (home_cplTail u _) (home_cplTail r.2 _) hunit
  refine ⟨htail.trans hb.tail, workOf op d area h r.1, ?_, rfl, hk, ?_⟩
  · exact congrArg (· ++ [workOf op d area h r.1]) ((congrArg HsState.works hhs).trans hb.works)
  · refine Eq.trans (State.memBytes_congr fun i hi => ?_) hb.record
    have hslot := cplSlot_bounds d.queue.isLt (s.rd (R.HS_CPLc_TAIL d.queue))
    rw [State.memByte_plain _ (.inl (by omega)), State.memByte_plain _ (.inl (by omega))]
    exact congrArg (fun m => smapGet (fun _ => 0) m _) hmem

/-- The ACCEPTED record with the handle issued. -/
theorem Issued.begins {op : Nat} {d : Desc} {s v : State} (hv : Issued s v) (hcredit : 0 < s.qCredit (d.queue.val + 4)) (hheld : s.hs.held = [])
    (n : Nat) : Begun op d n s (putRecord (descRecord op d n 1 0 []) v) := by
  have hcredit' : 0 < v.qCredit ((descRecord op d n 1 0 []).queue + 4) := by
    have hqueue : v.queue (d.queue.val + 4) = s.queue (d.queue.val + 4) := State.queue_congr (hv.parts .queues (by decide)) _
    refine hcredit.trans_eq ?_
    unfold State.qCredit State.qReturned
    rw [show (descRecord op d n 1 0 []).queue = d.queue.val from rfl, State.qFill_congr hqueue (fun b _ => hv.words b), hqueue,
      show v.time = s.time from hv.parts .time (by decide)]
  have hheld' : v.hs.held = [] := hv.held.trans hheld
  have hwritten := putRecord_written hcredit' hheld'
  have hnext := writeRecord_next (descRecord op d n 1 0 []) v d.queue.isLt
  have htail : v.rd (R.HS_CPLc_TAIL (descRecord op d n 1 0 []).queue) = s.rd (R.HS_CPLc_TAIL d.queue) := State.rd_congr (hv.words _)
  have htick : v.tickno = s.tickno := State.rd_congr (hv.words _)
  rw [← hwritten, htail, htick] at hnext
  obtain ⟨hnexttail, hrecord⟩ := hnext
  have hissued : Recorded s v := ⟨hv.parts, fun a _ _ => hv.words a⟩
  refine ⟨hissued.trans (putRecord_recorded hcredit' hheld'), hnexttail, hrecord, ?_⟩
  rw [hwritten, writeRecord_plain (fun hk => absurd hk.1 (by decide : ¬ 1 = 2)), recordWritten_hs, hv.works]

/-- A command that the firmware takes, with a handle to issue, begins its work behind its ACCEPTED record. -/
theorem serves_go {op : Nat} {named : List (Nat × Nat × Nat)} {d : Desc} {s : State} {act : State → Plan} (h : s.Serves op named d)
    (hfree : s.HandleFree) {area : Option (Nat × Nat)} {f : Nat → State → WorkKind × State} {o : Option State}
    (hact : act s.cleared = .go area f o) (ho : o.getD s.cleared = s.cleared) :
    ∃ n u, Begun op d n s u ∧ live (command op named d act) s = .next (withWork op d area n (f n u)) := by
  obtain ⟨-, -, -, -, -, hcredit, hheld⟩ := id h
  obtain ⟨n, v, hissue, hv⟩ := issueHandle_free (s := s.cleared) hfree d.queue.val (op / 256)
  have hissued : Issued s v := ⟨fun p hp => State.sameAt_trans ((cleared_recorded s).parts p hp) (hv.parts p hp), hv.words, hv.works, hv.held⟩
  have hstart : runPlan op d s.cleared (act s.cleared) = withWork op d area n (f n (putRecord (descRecord op d n 1 0 []) v)) := by
    rw [hact, runPlan, ho, startWork, hissue]
    rfl
  exact ⟨n, _, hissued.begins hcredit hheld n, (command_serves act h).trans (congrArg _ hstart)⟩

section
variable {op : Nat} {named : List (Nat × Nat × Nat)} {d : Desc} {s : State} {act : State → Plan} {P : State → Prop} (h : s.Serves op named d)
include h

/-- What holds after every work that begins holds after the command. -/
theorem serves_begun (hfree : s.HandleFree) {area : Option (Nat × Nat)} {f : Nat → State → WorkKind × State} {o : Option State}
    (ho : o.getD s.cleared = s.cleared) (hact : act s.cleared = .go area f o) (hP : ∀ n u, Begun op d n s u → P (withWork op d area n (f n u))) :
    ∃ t, live (command op named d act) s = .next t ∧ P t := by
  obtain ⟨n, u, hu, hexec⟩ := serves_go h hfree hact ho
  exact ⟨_, hexec, hP n u hu⟩

theorem serves_accepted (hfree : s.HandleFree) {area : Option (Nat × Nat)} {f : Nat → State → WorkKind × State}
    (hact : act s.cleared = .go area f) (hP : ∀ n u, Begun op d n s u → P (withWork op d area n (f n u))) :
    ∃ t, live (command op named d act) s = .next t ∧ P t :=
  serves_begun h hfree rfl hact hP

/-- What holds after the record of a refusal or a report holds after the command. -/
theorem serves_answered {status : Nat} {result : List Byte} (hact : act s.cleared = .final status result s.cleared)
    (hP : ∀ t, Finished op d status result s t → Recorded s t → P t) : ∃ t, live (command op named d act) s = .next t ∧ P t := by
  obtain ⟨t, hexec, hfin, hrec⟩ := serves_refused h hact
  exact ⟨t, hexec, hP t hfin hrec⟩

end

end Sys2Proof.Machine
end

section
/-! SUPPORT. Jobs for the NOR controller (14 R454): those that wait for a credit of Q56 and those on it stand in the order in which they
were queued. -/

namespace Sys2Proof.Machine

/-- The jobs of the NOR controller that have not begun, in their order. -/
def State.norJobs (s : State) : List NorJob := s.nv.jobs ++ s.nv.wait

/-- A job goes onto Q56 where it has a credit (01 R37). -/
def norPushOne (s : State) (j : NorJob) : State :=
  if 0 < s.qCredit 56 then
    { s.qPush 56 (padTo 32 (bytesLE 4 j.id)) with
      nv := { s.nv with wait := s.nv.wait.filter (fun x => x.id != j.id), jobs := s.nv.jobs ++ [j] } }
  else s

theorem norPush_eq (s : State) : norPush s = s.nv.wait.foldl norPushOne s := rfl

/-- Numbers of jobs rise in the order of the jobs that wait, and lie below the next one. -/
def NorOrdered (s : State) : Prop := (s.nv.wait.map (·.id)).Pairwise (· < ·) ∧ ∀ j ∈ s.nv.wait, j.id < s.nv.nextId

theorem norPushOne_full {s : State} (h : ¬ 0 < s.qCredit 56) (j : NorJob) : norPushOne s j = s := if_neg h

theorem norPush_full {s : State} (h : ¬ 0 < s.qCredit 56) (l : List NorJob) : l.foldl norPushOne s = s := by
  induction l with
  | nil => rfl
  | cons j l ih => rw [List.foldl_cons, norPushOne_full h, ih]

/-- The first of the jobs that wait goes. -/
theorem norPushOne_first {s : State} {j : NorJob} {l : List NorJob} (hc : 0 < s.qCredit 56) (hw : s.nv.wait = j :: l)
    (hord : (s.nv.wait.map (·.id)).Pairwise (· < ·)) : (norPushOne s j).nv = { s.nv with wait := l, jobs := s.nv.jobs ++ [j] } := by
  have hrest : (j :: l).filter (fun x => x.id != j.id) = l := by
    rw [hw, List.map_cons, List.pairwise_cons] at hord
    rw [List.filter_cons_of_neg (by simp), List.filter_eq_self]
    intro x hx
    have := hord.1 x.id (List.mem_map_of_mem hx)
    simp only [bne_iff_ne, ne_eq]
    omega
  unfold norPushOne
  rw [if_pos hc, hw, hrest]

theorem norPush_order (l : List NorJob) : ∀ s : State, s.nv.wait = l → (s.nv.wait.map (·.id)).Pairwise (· < ·) →
    ∃ k, (l.foldl norPushOne s).nv = { s.nv with wait := l.drop k, jobs := s.nv.jobs ++ l.take k } := by
  induction l with
  | nil =>
    intro s hw _
    exact ⟨0, by rw [List.foldl_nil, List.drop_nil, List.take_nil, List.append_nil, ← hw]⟩
  | cons j l ih =>
    intro s hw hord
    rw [List.foldl_cons]
    by_cases hc : 0 < s.qCredit 56
    · have hfirst := norPushOne_first hc hw hord
      rw [hw, List.map_cons, List.pairwise_cons] at hord
      obtain ⟨k, hk⟩ := ih (norPushOne s j) (by rw [hfirst]) (by rw [hfirst]; exact hord.2)
      refine ⟨k + 1, hk.trans ?_⟩
      rw [hfirst, List.drop_succ_cons, List.take_succ_cons, List.append_assoc, List.singleton_append]
    · refine ⟨0, ?_⟩
      rw [norPushOne_full hc, norPush_full hc, List.drop_zero, List.take_zero, List.append_nil, ← hw]

/-- A job with the next number. -/
def newJob (req : NorReq) (s : State) : NorJob := { id := s.nv.nextId, req := req }

/-- What a job queued leaves of the NOR controller: the job stands behind the others, under its number. -/
structure NorQueued (req : NorReq) (s t : State) : Prop where
  jobs : t.norJobs = s.norJobs ++ [newJob req s]
  ordered : NorOrdered t
  journal : t.nv.journal = s.nv.journal

theorem norQueue_queued (req : NorReq) {s : State} (h : NorOrdered s) : NorQueued req s (norQueue req s).2 := by
  obtain ⟨hord, hlow⟩ := h
  have hord' : ((s.nv.wait ++ [newJob req s]).map (·.id)).Pairwise (· < ·) := by
    rw [List.map_append, List.pairwise_append]
    refine ⟨hord, List.pairwise_singleton _ _, fun a ha b hb => ?_⟩
    obtain ⟨j, hj, rfl⟩ := List.mem_map.mp ha
    rw [List.mem_singleton.mp hb]
    exact hlow j hj
  obtain ⟨k, hk⟩ := norPush_order _ { s with nv := { s.nv with
    wait := s.nv.wait ++ [newJob req s], nextId := s.nv.nextId + 1 } } rfl hord'
  have hnv : (norQueue req s).2.nv = _ := hk
  refine ⟨?_, ⟨?_, fun j hj => ?_⟩, ?_⟩
  · unfold State.norJobs
    rw [hnv, List.append_assoc, List.take_append_drop, List.append_assoc]
  · rw [hnv, List.map_drop]
    exact hord'.sublist (List.drop_sublist _ _)
  · rw [hnv] at hj ⊢
    rcases List.mem_append.mp (List.mem_of_mem_drop hj) with hj | hj
    · exact (hlow j hj).trans (Nat.lt_succ_self _)
    · rw [List.mem_singleton.mp hj]
      exact Nat.lt_succ_self _
  · rw [hnv]

theorem norOrdered_idle {s : State} (h : s.nv.wait = []) : NorOrdered s := by
  unfold NorOrdered
  rw [h]
  exact ⟨List.Pairwise.nil, fun j hj => absurd hj List.not_mem_nil⟩

/-- The journal changed: its record is queued. -/
theorem journalSave_queued (j : Journal) {s : State} (h : NorOrdered s) :
    NorQueued (.store 1 (journalBody j) none) { s with nv.journal := j } (journalSave j s) := norQueue_queued _ h

/-- One job more after those queued. -/
def norQueueNext (acc : List Nat × State) (r : NorReq) : List Nat × State := (acc.1 ++ [(norQueue r acc.2).1], (norQueue r acc.2).2)

theorem norQueueAll_eq (reqs : List NorReq) (s : State) : norQueueAll reqs s = reqs.foldl norQueueNext ([], s) := rfl

theorem norQueueNext_ids (l : List NorReq) : ∀ acc : List Nat × State, (l.foldl norQueueNext acc).1.length = acc.1.length + l.length := by
  induction l with
  | nil => exact fun _ => rfl
  | cons r l ih =>
    intro acc
    rw [List.foldl_cons, ih]
    unfold norQueueNext
    rw [List.length_append, List.length_singleton, List.length_cons]
    omega

theorem norQueueNext_jobs (l : List NorReq) : ∀ acc : List Nat × State, NorOrdered acc.2 →
    (l.foldl norQueueNext acc).2.norJobs.length = acc.2.norJobs.length + l.length := by
  induction l with
  | nil => exact fun _ _ => rfl
  | cons r l ih =>
    intro acc hacc
    have hq := norQueue_queued r hacc
    refine (ih (norQueueNext acc r) hq.ordered).trans ?_
    unfold norQueueNext
    rw [hq.jobs, List.length_append, List.length_singleton, List.length_cons]
    omega

/-- Requests queued one after another have a number each. -/
theorem norQueueAll_ids (reqs : List NorReq) (s : State) : (norQueueAll reqs s).1.length = reqs.length := by
  rw [norQueueAll_eq, norQueueNext_ids, List.length_nil, Nat.zero_add]

/-- Jobs queued one after another: as many as there are requests. -/
theorem norQueueAll_jobs (reqs : List NorReq) {s : State} (h : NorOrdered s) :
    (norQueueAll reqs s).2.norJobs.length = s.norJobs.length + reqs.length := by
  rw [norQueueAll_eq, norQueueNext_jobs reqs ([], s) h]

theorem norJobs_length (s : State) : s.norJobs.length = s.nv.jobs.length + s.nv.wait.length := List.length_append

end Sys2Proof.Machine
end

section
/-! O56: link and consist, pair, safety, NOR and firmware commands (13 R433–R437; 08 R295, R302, R303; assumption log 81 and 84; that
FW.VERIFY answers BAD_STATE in ISTATE 4, and FW.STAGE and FW.DISCARD answer BUSY while a step runs, are choices of the model). -/

namespace Sys2Proof.Machine

section
variable {d : Desc} {s : State}

/-! ### Link and consist (13 R433) -/

theorem exec_lkEnum_root (h : s.Serves 0x0601 [] d) (hfree : s.HandleFree) (hroot : s.isRoot = true) :
    ∃ t, exec (.lkEnum d) s = .next t ∧ Accepted 0x0601 d (fun _ k => k = .enumerate) s t := by
  refine serves_accepted h hfree (f := fun _ u => (.enumerate, enumStart u)) (area := none) ?_
    fun n u hu => hu.accepted (enumStart_sound rfl u (sound_refl _ u)) rfl
  rw [show s.cleared.isRoot = true from hroot]
  rfl

theorem exec_lkEnum_other (h : s.Serves 0x0601 [] d) (hroot : s.isRoot = false) :
    ∃ t, exec (.lkEnum d) s = .next t ∧ Finished 0x0601 d 1 [] s t ∧ t.bl = s.bl :=
  serves_answered h (if_pos (congrArg not hroot)) fun _ hfin hrec => ⟨hfin, hrec.bl⟩

theorem exec_csForm_forms (h : s.Serves 0x0602 [(8, 8, 255), (10, 13, 255)] d) (hfree : s.HandleFree) (hnumber : pnum d 8 1 ≤ 127)
    (hdeputy : pnum d 10 2 ≤ 1024) (hlocked : s.linkLocked = true) (hform : s.mayForm = true)
    (hbudget : exchangeBound 0 1 1 ≤ s.rd R.BL_WIN_LEN) (hunused : s.consistFree (pnum d 8 1) = true) :
    ∃ t, exec (.csForm d) s = .next t ∧ Accepted 0x0602 d (fun _ k => k = .csForm (pnum d 8 1) (pnum d 12 2) (pnum d 10 2)) s t := by
  refine serves_accepted h hfree (f := fun _ u => (.csForm (pnum d 8 1) (pnum d 12 2) (pnum d 10 2), u)) (area := none) ?_
    fun n u hu => hu.accepted (sound_refl _ u) rfl
  dsimp only
  rw [if_neg (by omega), show s.cleared.linkLocked = true from hlocked, show s.cleared.mayForm = true from hform,
    if_neg (by decide), if_neg (by decide), if_neg (by exact Nat.not_lt.mpr hbudget), if_neg (by omega)]
  dsimp only
  rw [show s.cleared.consistFree (pnum d 8 1) = true from hunused]
  rfl

theorem exec_csForm_unlocked (h : s.Serves 0x0602 [(8, 8, 255), (10, 13, 255)] d) (hnumber : pnum d 8 1 ≤ 127)
    (hdeputy : pnum d 10 2 ≤ 1024) (hlocked : s.linkLocked = false) :
    ∃ t, exec (.csForm d) s = .next t ∧ Finished 0x0602 d 4 [] s t := by
  refine serves_answered h ?_ fun _ hfin _ => hfin
  dsimp only
  rw [if_neg (by omega), show s.cleared.linkLocked = false from hlocked]
  rfl

theorem hopsTo_cleared (uid : Nat) (s : State) : hopsTo uid s.cleared = ((hopsTo uid s).1, (hopsTo uid s).2.cleared) := by
  unfold hopsTo
  by_cases hroot : s.isRoot = true
  · rw [if_pos hroot, if_pos (show s.cleared.isRoot = true from hroot)]
    rfl
  · rw [if_neg hroot, if_neg (show ¬ s.cleared.isRoot = true from hroot)]
    rfl

/-- The add that an offer of a join leaves pending, by the tick number at which it was asked for. -/
def addAsked (uid slot weight now : Nat) : AddPlan := { uid := uid, slot := slot, weight := weight, sn := (now + 64) % 2 ^ 32, answer := none }

theorem addStart_add (uid slot weight hops : Nat) (load : Nat × Nat × Nat) (s : State) :
    (addStart uid slot weight hops load s).bl.add = some (addAsked uid slot weight (s.rd R.BL_SN)) := rfl

theorem exec_csAdd_adds {load : Nat × Nat × Nat} (h : s.Serves 0x0603 [(10, 14, 255)] d) (hfree : s.HandleFree) (huid : 1 ≤ pnum d 10 2)
    (huid' : pnum d 10 2 ≤ 1024) (hslot : 1 ≤ pnum d 14 1) (hslot' : pnum d 14 1 ≤ 63)
    (hload : load = (hopsTo (pnum d 10 2) s).2.consistLoad ((pnum d 14 1, pnum d 10 2) :: (hopsTo (pnum d 10 2) s).2.memberSlots)
      (fun u => if u = pnum d 10 2 then (hopsTo (pnum d 10 2) s).1 else (hopsTo (pnum d 10 2) s).2.memberHops u))
    (hhead : s.isHead = true) (hpending : s.consistPending = false) (hroom : s.slotsUsed.length < 64) (hnew : s.slotOf (pnum d 10 2) = none)
    (hother : pnum d 10 2 ≠ s.uid) (hunused : s.slotsUsed.contains (pnum d 14 1) = false)
    (hbudget : exchangeBound load.1 load.2.1 load.2.2 ≤ s.rd R.BL_WIN_LEN) :
    ∃ t, exec (.csAdd d) s = .next t ∧ Accepted 0x0603 d (fun _ k => k = .csAdd) s t ∧
      t.bl.add = some (addAsked (pnum d 10 2) (pnum d 14 1) (pnum d 12 2) (s.rd R.BL_SN)) := by
  have hwin : (hopsTo (pnum d 10 2) s.cleared).2.rd R.BL_WIN_LEN = s.rd R.BL_WIN_LEN := by
    unfold hopsTo
    split
    · rfl
    · rfl
  have hload' : (hopsTo (pnum d 10 2) s.cleared).2.consistLoad ((pnum d 14 1, pnum d 10 2) :: (hopsTo (pnum d 10 2) s.cleared).2.memberSlots)
      (fun u => if u = pnum d 10 2 then (hopsTo (pnum d 10 2) s.cleared).1 else (hopsTo (pnum d 10 2) s.cleared).2.memberHops u) = load := by
    rw [hopsTo_cleared]
    exact hload.symm
  refine serves_accepted h hfree (area := none) (f := fun _ u => (.csAdd, addStart (pnum d 10 2) (pnum d 14 1) (pnum d 12 2)
    (hopsTo (pnum d 10 2) s).1 load { u with free := (hopsTo (pnum d 10 2) s).2.cleared.free })) ?_ fun n u hu => ⟨?_, ?_⟩
  · dsimp only
    rw [if_neg (by omega), show s.cleared.isHead = true from hhead, if_neg (by decide), show s.cleared.consistPending = false from hpending,
      if_neg (by decide), if_neg (show ¬ 64 ≤ s.cleared.slotsUsed.length from Nat.not_le.mpr hroom), show s.cleared.slotOf (pnum d 10 2) = none from hnew,
      if_neg (show ¬ (Option.isSome none = true ∨ pnum d 10 2 = s.cleared.uid) from fun hc => hc.elim Bool.false_ne_true hother), if_neg (by omega)]
    dsimp only
    rw [show s.cleared.slotsUsed.contains (pnum d 14 1) = false from hunused, if_neg (by decide), hload', if_neg (by rw [hwin]; omega), hopsTo_cleared]
  · exact hu.accepted (addStart_sound rfl _ _ _ _ _ _ (sound_upd (sound_refl _ u) (fun p hp => by cases p <;> first | rfl | exact absurd hp (by decide)))) rfl
  · rw [withWork_bl, addStart_add]
    exact congrArg (fun n => some (addAsked _ _ _ n)) (hu.rd (f := R.BL_SN) (by decide))

theorem exec_csAdd_other (h : s.Serves 0x0603 [(10, 14, 255)] d) (huid : 1 ≤ pnum d 10 2) (huid' : pnum d 10 2 ≤ 1024)
    (hslot : 1 ≤ pnum d 14 1) (hslot' : pnum d 14 1 ≤ 63) (hhead : s.isHead = false) :
    ∃ t, exec (.csAdd d) s = .next t ∧ Finished 0x0603 d 1 [] s t ∧ t.bl = s.bl := by
  refine serves_answered h ?_ fun _ hfin hrec => ⟨hfin, hrec.bl⟩
  dsimp only
  rw [if_neg (by omega), show s.cleared.isHead = false from hhead]
  rfl

theorem exec_csRemove_removes {slot : Nat} (h : s.Serves 0x0604 [(10, 11, 255)] d) (hfree : s.HandleFree) (hhead : s.isHead = true)
    (hother : pnum d 10 2 ≠ s.uid) (hslot : s.slotOf (pnum d 10 2) = some slot) : ∃ t, exec (.csRemove d) s = .next t ∧
      Accepted 0x0604 d (fun _ k => k = .csRemove (pnum d 10 2)) s t ∧ t.bl.removing = some (pnum d 10 2) := by
  refine serves_accepted h hfree (area := none) (f := fun _ u => (.csRemove (pnum d 10 2), removeCell slot (pnum d 10 2)
    { u with bl := { u.bl with removing := some (pnum d 10 2) } })) ?_ fun n u hu => ⟨?_, ?_⟩
  · dsimp only
    rw [if_pos ⟨hhead, hother⟩, show s.cleared.slotOf (pnum d 10 2) = some slot from hslot]
  · exact hu.accepted (removeCell_sound rfl _ _ _ (sound_upd (sound_refl _ u)
      (fun p hp => by cases p <;> first | rfl | exact absurd hp (by decide)))) rfl
  · rw [withWork_bl]
    exact (sendMsg_sent _ _ _ _ _).bl (·.removing) (fun _ _ _ _ => rfl)

theorem exec_csRemove_refused (h : s.Serves 0x0604 [(10, 11, 255)] d) (hno : s.isHead = false ∨ s.slotOf (pnum d 10 2) = none) :
    ∃ t, exec (.csRemove d) s = .next t ∧ Finished 0x0604 d 1 [] s t := by
  refine serves_answered h ?_ fun _ hfin _ => hfin
  have hnone : (if s.cleared.isHead = true ∧ pnum d 10 2 ≠ s.cleared.uid then s.cleared.slotOf (pnum d 10 2) else none) = none := by
    rw [ite_eq_right_iff]
    rintro ⟨hhead, -⟩
    exact hno.resolve_left (fun hn => Bool.false_ne_true (hn.symm.trans hhead))
  dsimp only
  rw [hnone]
  rfl

/-- The map of the head stands outside the queue manager and the host block. -/
theorem Recorded.memberSlots {s t : State} (h : Recorded s t) : t.memberSlots = s.memberSlots := by
  have hused : ∀ i, t.on (R.BL_CS_Ms_ID_USED i) = s.on (R.BL_CS_Ms_ID_USED i) := fun i => h.on (by simp only; omega)
  have huid : ∀ i, t.rd (R.BL_CS_Ms_ID_UID i) = s.rd (R.BL_CS_Ms_ID_UID i) := fun i => h.rd (by simp only; omega)
  unfold State.memberSlots State.slotsUsed State.ownSlot
  simp only [hused, huid, h.rd (f := R.BL_ROLE_SLOT) (by decide)]

theorem exec_csDissolve_head (h : s.Serves 0x0605 [] d) (hfree : s.HandleFree) (hhead : s.isHead = true) :
    ∃ t, exec (.csDissolve d) s = .next t ∧ Accepted 0x0605 d (fun _ k => k = .csDissolve s.memberSlots.length) s t := by
  refine serves_accepted h hfree (area := none) (f := fun _ u => (.csDissolve u.memberSlots.length,
    u.memberSlots.foldl (fun v m => removeCell m.1 m.2 v) u)) ?_ fun n u hu => hu.accepted ?_ ?_
  · rw [show s.cleared.isHead = true from hhead]
    rfl
  · exact sound_foldl _ (sound_refl _ u) fun v m hv => removeCell_sound rfl _ _ v hv
  · exact congrArg (fun l => WorkKind.csDissolve (List.length l)) hu.toRecorded.memberSlots

theorem exec_csDissolve_other (h : s.Serves 0x0605 [] d) (hhead : s.isHead = false) :
    ∃ t, exec (.csDissolve d) s = .next t ∧ Finished 0x0605 d 1 [] s t :=
  serves_answered h (if_pos (congrArg not hhead)) fun _ hfin _ => hfin

/-! ### Pair (13 R434, R435; 09 R337) -/

theorem exec_prRelease_starts (h : s.Serves 0x0701 [] d) (hfree : s.HandleFree) (hno : s.releaseRefused = none) :
    ∃ t, exec (.prRelease d) s = .next t ∧ Accepted 0x0701 d (fun _ k => k = .prRelease) s t ∧
      (s.pstate ≠ 5 → s.rd R.PM_CFG_CONF = 2 → s.isStandby = false → t.pm.relStep = 1) := by
  refine serves_accepted h hfree (area := none) (f := fun _ u => (.prRelease, releaseStart u)) ?_ fun n u hu => ⟨?_, ?_⟩
  · rw [show s.cleared.releaseRefused = none from hno]
  · exact hu.accepted (releaseStart_sound rfl u (sound_refl _ u)) rfl
  · intro hstate hconf hstandby
    have hpstate : u.pstate = s.pstate := hu.rd (by decide)
    have hconf' : u.rd R.PM_CFG_CONF = 2 := (hu.rd (by decide)).trans hconf
    have hstandby' : u.isStandby = false := by
      unfold State.isStandby at hstandby ⊢
      rw [hu.rd (by decide), hu.rd (by decide), hu.pm]
      exact hstandby
    rw [withWork_pm]
    unfold releaseStart
    rw [if_neg (by rw [hpstate]; exact hstate), hconf', if_neg (by decide), hstandby']
    rfl

theorem exec_prRelease_refused {st : Nat} (h : s.Serves 0x0701 [] d) (hno : s.releaseRefused = some st) :
    ∃ t, exec (.prRelease d) s = .next t ∧ Finished 0x0701 d st (bytesLE 1 s.pstate) s t ∧ t.pm = s.pm := by
  refine serves_answered h ?_ fun _ hfin hrec => ⟨hfin, hrec.pm⟩
  rw [show s.cleared.releaseRefused = some st from hno]
  rfl

theorem nameJoin_released (dir : Int) (s : State) : (nameJoin dir s).pm.released = s.pm.released := by
  unfold nameJoin
  dsimp only
  rw [State.wr_pm]

theorem rd_withPm (s : State) (x : PmState) (f : Fld) : State.rd { s with pm := x } f = s.rd f := rfl

theorem nameJoin_pstate (dir : Int) (s : State) : (nameJoin dir s).pstate = s.pstate :=
  (rd_withPm _ _ _).trans (s.rd_wr_missed (by decide) _)

theorem gateRefresh_pm (s : State) : s.gateRefresh.pm = s.pm := (State.gateRefresh_sound (ms := 2 ^ 19) rfl s (sound_refl _ s)).same .pm rfl

/-- A module that is released no longer, at PSTATE 2. -/
def pairEngaged (s : State) : State :=
  let s := s.wr R.PM_STAT_PSTATE 2
  { s with pm := { s.pm with released := false, release := s.releaseCond, aligned := false, relStep := 0, lossSeen := false } }

theorem pairEngaged_pstate (s : State) : (pairEngaged s).pstate = 2 :=
  (rd_withPm _ _ _).trans (s.rd_wr_fits (f := R.PM_STAT_PSTATE) (by decide) (by decide))

theorem engageStart_released {s : State} (h : s.pstate = 5) : engageStart s =
    if (pairEngaged s).rd R.PM_CFG_CONF = 1 then (nameJoin 1 (pairEngaged s)).gateRefresh
    else ((pairEngaged s).wr R.PW_CTL_RUN 0).gateRefresh := if_neg (not_not_intro h)

/-- A released module that joins is released no longer. -/
theorem engageStart_joins {u : State} (h : u.pstate = 5) : (engageStart u).pstate = 2 ∧ (engageStart u).pm.released = false := by
  rw [engageStart_released h]
  split
  · refine ⟨(State.rd_gateRefresh _ _).trans ((nameJoin_pstate _ _).trans (pairEngaged_pstate u)), ?_⟩
    rw [gateRefresh_pm, nameJoin_released]
    rfl
  · refine ⟨(State.rd_gateRefresh _ _).trans ((State.rd_wr_missed _ (by decide) _).trans (pairEngaged_pstate u)), ?_⟩
    rw [gateRefresh_pm, State.wr_pm]
    rfl

theorem exec_prEngage_starts (h : s.Serves 0x0702 [] d) (hfree : s.HandleFree) (hno : s.engageRefused = false) :
    ∃ t, exec (.prEngage d) s = .next t ∧ Accepted 0x0702 d (fun _ k => k = .prEngage) s t ∧
      (s.pstate = 5 → t.pstate = 2 ∧ t.pm.released = false) := by
  refine serves_accepted h hfree (area := none) (f := fun _ u => (.prEngage, engageStart u)) ?_ fun n u hu => ⟨?_, fun hstate => ?_⟩
  · rw [show s.cleared.engageRefused = false from hno]
    rfl
  · exact hu.accepted (engageStart_sound rfl u (sound_refl _ u)) rfl
  · exact engageStart_joins ((hu.rd (f := R.PM_STAT_PSTATE) (by decide)).trans hstate)

theorem exec_prEngage_refused (h : s.Serves 0x0702 [] d) (hno : s.engageRefused = true) :
    ∃ t, exec (.prEngage d) s = .next t ∧ Finished 0x0702 d 4 [] s t ∧ t.pm = s.pm :=
  serves_answered h (if_pos hno) fun _ hfin hrec => ⟨hfin, hrec.pm⟩

/-- The words of the parameter set stand outside the queue manager and the host block. -/
theorem rwlAddrs_block : ∀ a ∈ rwlAddrs, a / 0x10000 ≠ 0x4002 ∧ a / 0x10000 ≠ 0x400E := by decide +kernel

theorem Recorded.paramCrc {s t : State} (h : Recorded s t) : paramCrc t.word = paramCrc s.word :=
  paramCrc_congr fun a ha => h.words a (rwlAddrs_block a ha).1 (rwlAddrs_block a ha).2

theorem Recorded.paramCrc_serial {s t : State} (h : Recorded s t) (serial : Nat) :
    Machine.paramCrc (t.wordWithSerial serial) = Machine.paramCrc (s.wordWithSerial serial) := by
  refine paramCrc_congr fun a ha => ?_
  unfold State.wordWithSerial
  rw [h.words a (rwlAddrs_block a ha).1 (rwlAddrs_block a ha).2]

end

/-! ### What jobs queued for the NOR leave alone -/

section
variable {α : Type} {k : State → α} (hpush : ∀ (u : State) (x : List Byte), k (u.qPush 56 x) = k u) (hnv : ∀ (u : State) (n : NvState), k { u with nv := n } = k u)
include hpush hnv

theorem norPush_keeps (s : State) : k (norPush s) = k s := by
  have hfold : ∀ (l : List NorJob) (u : State), k (l.foldl norPushOne u) = k u := by
    intro l
    induction l with
    | nil => exact fun _ => rfl
    | cons j l ih =>
      intro u
      refine (ih _).trans ?_
      unfold norPushOne
      split
      · exact (hnv _ _).trans (hpush _ _)
      · rfl
  exact (congrArg k (norPush_eq s)).trans (hfold _ s)

theorem norQueue_keeps (req : NorReq) (s : State) : k (norQueue req s).2 = k s := (norPush_keeps hpush hnv _).trans (hnv _ _)

theorem norQueueAll_keeps (reqs : List NorReq) (s : State) : k (norQueueAll reqs s).2 = k s := by
  have hfold : ∀ (l : List NorReq) (acc : List Nat × State), k (l.foldl norQueueNext acc).2 = k acc.2 := by
    intro l
    induction l with
    | nil => exact fun _ => rfl
    | cons r l ih => exact fun acc => (ih _).trans (norQueue_keeps hpush hnv r acc.2)
  exact (congrArg (fun r => k r.2) (norQueueAll_eq reqs s)).trans (hfold reqs ([], s))

theorem configSave_keeps (confirmed : Bool) (s : State) : k (configSave confirmed s).2 = k s := norQueueAll_keeps hpush hnv _ s

end

theorem configSave_sb (confirmed : Bool) (s : State) : (configSave confirmed s).2.sb = s.sb :=
  configSave_keeps (k := State.sb) (fun u x => u.qPush_sb 56 x) (fun _ _ => rfl) confirmed s

theorem configSave_te (confirmed : Bool) (s : State) : (configSave confirmed s).2.te = s.te :=
  configSave_keeps (k := State.te) (fun u x => u.qPush_te 56 x) (fun _ _ => rfl) confirmed s

/-- A field of the Signal Box but SAFETY_EVT_LOST. -/
theorem rd_configSave {g : Fld} (hg : g.ClearOf eventFlds) (confirmed : Bool) (s : State) : (configSave confirmed s).2.rd g = s.rd g :=
  configSave_keeps (k := fun u => u.rd g) (fun u x => rd_qPush_clear hg u 56 x) (fun _ _ => rfl) confirmed s

/-- The copies that a write of the set renews: the oldest one, then the other one unless it is retired. -/
def configCopies (s : State) : List Nat :=
  s.storeTarget 0 :: if s.isRetired (storeAddr (1 - s.storeTarget 0) 0 / norSector) then [] else [1 - s.storeTarget 0]

theorem configSave_eq (confirmed : Bool) (s : State) :
    configSave confirmed s = norQueueAll ((configCopies s).map (fun n => .store 0 (s.configBody confirmed) (some n))) s := rfl

/-- A write of the set queues a job for each copy, and there is one at least. -/
theorem configSave_ids (confirmed : Bool) (s : State) : (configSave confirmed s).1.length = (configCopies s).length := by
  rw [configSave_eq, norQueueAll_ids, List.length_map]

theorem configCopies_some (s : State) : 1 ≤ (configCopies s).length := Nat.succ_le_succ (Nat.zero_le _)

theorem configSave_jobs (confirmed : Bool) {s : State} (h : NorOrdered s) :
    (configSave confirmed s).2.norJobs.length = s.norJobs.length + (configSave confirmed s).1.length := by
  rw [configSave_ids, configSave_eq, norQueueAll_jobs _ h, List.length_map]

/-! ### A new serial of the partner (13 R435) -/

section
variable {d : Desc} {s : State}

theorem exec_prPser_held (h : s.Serves 0x0703 [(8, 13, 255), (16, 19, 255)] d) (hfree : s.HandleFree) (hcode : pnum d 16 4 = s.sb.code)
    (hstate : s.pstate = 0 ∨ s.pstate = 4) (hopen : s.on R.SB_LOCK_OPEN = false) (hnone : s.sb.pendPser = none) :
    ∃ t, exec (.prPser d) s = .next t ∧ t.sb.pendPser = some (pnum d 8 6) ∧ ∃ j, Accepted 0x0703 d
      (fun _ k => k = .prPser j (paramCrc (s.wordWithSerial (pnum d 8 6)))) s t := by
  refine serves_accepted h hfree (area := none) (f := fun _ u => (.prPser
    (configSave (u.on R.SB_LOCK_LOCKED) { u with sb := { u.sb with pendPser := some (pnum d 8 6) } }).1 (paramCrc (u.wordWithSerial (pnum d 8 6))),
    (configSave (u.on R.SB_LOCK_LOCKED) { u with sb := { u.sb with pendPser := some (pnum d 8 6) } }).2)) ?_ fun n u hu => ⟨?_,
      (configSave (u.on R.SB_LOCK_LOCKED) { u with sb := { u.sb with pendPser := some (pnum d 8 6) } }).1, ?_⟩
  · dsimp only
    rw [if_neg (show ¬ pnum d 16 4 ≠ s.cleared.sb.code from not_not_intro hcode),
      if_neg (show ¬ (s.cleared.pstate ≠ 0 ∧ s.cleared.pstate ≠ 4) from fun hn => hstate.elim hn.1 hn.2),
      show s.cleared.on R.SB_LOCK_OPEN = false from hopen, show s.cleared.sb.pendPser = none from hnone]
    rfl
  · rw [withWork_sb, configSave_sb]
  · refine hu.accepted (configSave_sound rfl _ _ (sound_upd (sound_refl _ u)
      (fun p hp => by cases p <;> first | rfl | exact absurd hp (by decide)))) ?_
    exact congrArg (WorkKind.prPser _) (hu.toRecorded.paramCrc_serial _)

theorem exec_prPser_locked (h : s.Serves 0x0703 [(8, 13, 255), (16, 19, 255)] d) (hcode : pnum d 16 4 ≠ s.sb.code) :
    ∃ t, exec (.prPser d) s = .next t ∧ Finished 0x0703 d 0x17 [] s t ∧ t.sb = s.sb :=
  serves_answered h (if_pos hcode) fun _ hfin hrec => ⟨hfin, hrec.sb⟩

/-! ### Safety (13 R436; 10 R361–R363) -/

theorem State.wr_outside (s : State) (f : Fld) (v : Nat) : SameOutside [.regs] s (s.wr f v) :=
  fun p hp => by cases p <;> first | rfl | exact absurd (by decide) hp

theorem State.withSb_outside (s : State) (x : SbState) : SameOutside [.sb] s { s with sb := x } :=
  fun p hp => by cases p <;> first | rfl | exact absurd (by decide) hp

theorem State.word_withSb (s : State) (x : SbState) (a : Nat) : State.word { s with sb := x } a = s.word a := rfl

/-- What the Signal Box holds once the lock is released: the code is renewed where the command asks for it. -/
def sbOpened (d : Desc) (x : SbState) : SbState :=
  { x with code := if testB (pnum d 12 1) 0 then pnum d 16 4 else x.code, pendPser := none, closed := false }

/-- The lock released. -/
def lockOpened (d : Desc) (s : State) : State :=
  let s := (s.wr R.SB_LOCK_LOCKED 0).wr R.SB_LOCK_OPEN 1
  { s with sb := sbOpened d s.sb }

theorem lockOpened_sb (d : Desc) (s : State) : (lockOpened d s).sb = sbOpened d s.sb :=
  congrArg (sbOpened d) ((State.wr_sb _ _ _).trans (State.wr_sb _ _ _))

theorem lockOpened_word (d : Desc) (s : State) {a : Nat} (h : ownWord a) (hne : a ≠ (R.SB_LOCK_OPEN).addr) :
    (lockOpened d s).word a = s.word a := by
  have hhome : ∀ u : State, u.home a ≠ u.home (R.SB_LOCK_OPEN).addr := fun u => by
    rwa [home_ownWord u h, home_sbWord u (by decide)]
  calc (lockOpened d s).word a = ((s.wr R.SB_LOCK_LOCKED 0).wr R.SB_LOCK_OPEN 1).word a := State.word_withSb _ _ _
    _ = (s.wr R.SB_LOCK_LOCKED 0).word a := State.word_wr_ne _ _ _ (hhome _)
    _ = s.word a := State.word_wr_ne _ _ _ (hhome _)

theorem lockOpened_parts (d : Desc) (s : State) {p : Part} (hr : p ≠ .regs) (hs : p ≠ .sb) : s.sameAt (lockOpened d s) p :=
  have hr' : p ∉ [Part.regs] := fun h => hr (List.mem_singleton.mp h)
  State.sameAt_trans (State.sameAt_trans (s.wr_outside _ _ p hr') (State.wr_outside _ _ _ p hr'))
    (State.withSb_outside _ _ p (fun h => hs (List.mem_singleton.mp h)))

theorem lockOpened_locked (d : Desc) (s : State) : (lockOpened d s).rd R.SB_LOCK_LOCKED = 0 :=
  (State.rd_with_sb _ _ _).trans (((s.wr R.SB_LOCK_LOCKED 0).rd_wr_missed (by decide) 1).trans (s.rd_wr_fits (by decide) (by decide)))

theorem lockOpened_open (d : Desc) (s : State) : (lockOpened d s).rd R.SB_LOCK_OPEN = 1 :=
  (State.rd_with_sb _ _ _).trans ((s.wr R.SB_LOCK_LOCKED 0).rd_wr_fits (by decide) (by decide))

/-- The credits of a completion queue rest on no word of the Signal Box. -/
theorem lockOpened_credit (d : Desc) (s : State) (n : Nat) : (lockOpened d s).qCredit n = s.qCredit n := by
  have hqueue : (lockOpened d s).queue n = s.queue n := State.queue_congr (lockOpened_parts d s (p := .queues) (by decide) (by decide)) n
  unfold State.qCredit State.qReturned
  rw [State.qFill_congr hqueue (fun a ha => lockOpened_word d s (by omega) (by simp only; omega)), hqueue,
    show (lockOpened d s).time = s.time from lockOpened_parts d s (p := .time) (by decide) (by decide)]

theorem exec_safeOpen_opens (h : s.Serves 0x0801 [(8, 11, 255), (12, 12, 1), (16, 19, 255)] d) (hdrive : s.drive ≤ 1)
    (hsto : s.on R.SB_STAT_STO = true) (hcode : pnum d 8 4 = s.sb.code) : ∃ t, exec (.safeOpen d) s = .next t ∧ Finished 0x0801 d 0 [] s t ∧
      t.rd R.SB_LOCK_LOCKED = 0 ∧ t.rd R.SB_LOCK_OPEN = 1 ∧ t.sb.pendPser = none ∧
      t.sb.code = (if testB (pnum d 12 1) 0 then pnum d 16 4 else s.sb.code) := by
  have hgo : ¬ (1 < s.cleared.drive ∨ (!s.cleared.on R.SB_STAT_STO) = true ∨ pnum d 8 4 ≠ s.cleared.sb.code) := by
    rintro (hrun | hnosto | hbad)
    · exact absurd hrun (Nat.not_lt.mpr hdrive)
    · exact Bool.false_ne_true ((congrArg not hsto).symm.trans hnosto)
    · exact hbad hcode
  obtain ⟨t, hexec, hfin, hrec⟩ := serves_final h (u := lockOpened d s.cleared) (status := 0) (result := [])
    (act := fun s => if 1 < s.drive ∨ !s.on R.SB_STAT_STO ∨ pnum d 8 4 ≠ s.sb.code then .refuse 0x17 s else .final 0 [] (lockOpened d s))
    (if_neg hgo) (lockOpened_credit d _ _) (lockOpened_parts d s.cleared (p := .hs) (by decide) (by decide))
    (State.rd_congr (lockOpened_word d _ (by simp only; omega) (by simp only; omega)))
    (State.rd_congr (lockOpened_word d _ (by decide) (by decide)))
  refine ⟨t, hexec, hfin, (hrec.rd (by decide)).trans (lockOpened_locked d _), (hrec.rd (by decide)).trans (lockOpened_open d _), ?_, ?_⟩
  · rw [hrec.sb, lockOpened_sb]
    rfl
  · rw [hrec.sb, lockOpened_sb]
    rfl

theorem exec_safeOpen_refused (h : s.Serves 0x0801 [(8, 11, 255), (12, 12, 1), (16, 19, 255)] d)
    (hno : 2 ≤ s.drive ∨ s.on R.SB_STAT_STO = false ∨ pnum d 8 4 ≠ s.sb.code) : ∃ t, exec (.safeOpen d) s = .next t ∧
      Finished 0x0801 d 0x17 [] s t ∧ t.sb = s.sb ∧ t.rd R.SB_LOCK_LOCKED = s.rd R.SB_LOCK_LOCKED := by
  refine serves_answered h (if_pos ?_) fun _ hfin hrec => ⟨hfin, hrec.sb, hrec.rd (by decide)⟩
  exact hno.imp id (fun hno => hno.imp (congrArg not) id)

end

section
variable {d : Desc} {s : State}

/-! ### Closing and confirming the lock (13 R436; 10 R361–R363; assumption log 84) -/

/-- The set at which SAFE.CLOSE closes the lock: its CRC is computed. -/
def lockClosed (s : State) : State :=
  let s := s.wr R.SB_CRC_CALC (paramCrc s.word)
  { s with sb := { s.sb with closed := true, blocked := true } }

theorem lockClosed_closed (s : State) : (lockClosed s).sb.closed = true := rfl

theorem lockClosed_crc (s : State) : (lockClosed s).rd R.SB_CRC_CALC = paramCrc s.word :=
  (State.rd_with_sb _ _ _).trans (s.rd_wr_fits (f := R.SB_CRC_CALC) (by decide) (paramCrc_lt s.word))

theorem State.nv_withSb (s : State) (x : SbState) : State.nv { s with sb := x } = s.nv := rfl

theorem lockClosed_nv (s : State) : (lockClosed s).nv = s.nv := (State.nv_withSb _ _).trans (s.wr_nv R.SB_CRC_CALC (paramCrc s.word))

theorem withSb_sound {u v : State} (h : u.Sound hostMask v) (x : SbState) : State.Sound hostMask { u with sb := x } v :=
  sound_upd h (fun p hp => by cases p <;> first | rfl | exact absurd hp (by decide))

theorem lockClosed_sound (s : State) : (lockClosed s).Sound hostMask s :=
  withSb_sound (State.wr_sound (by decide) s R.SB_CRC_CALC _ (addrOutside0 (by decide)) (sound_refl _ s)) _

theorem exec_safeClose_closes (h : s.Serves 0x0802 [] d) (hfree : s.HandleFree) (hopen : s.on R.SB_LOCK_OPEN = true) :
    ∃ t, exec (.safeClose d) s = .next t ∧ t.sb.closed = true ∧ t.rd R.SB_CRC_CALC = paramCrc s.word ∧
      ∃ j, Accepted 0x0802 d (fun _ k => k = .safeClose j) s t ∧ 1 ≤ j.length ∧
        (s.nv.wait = [] → t.nv.jobs.length + t.nv.wait.length = s.nv.jobs.length + j.length) := by
  refine serves_accepted h hfree (area := none)
    (f := fun _ u => (.safeClose (configSave false (lockClosed u)).1, (configSave false (lockClosed u)).2)) ?_
    fun n u hu => ⟨?_, ?_, (configSave false (lockClosed u)).1, ?_, ?_, fun hidle => ?_⟩
  · exact if_neg (fun hn => Bool.false_ne_true ((congrArg not hopen).symm.trans hn))
  · rw [withWork_sb, configSave_sb, lockClosed_closed]
  · rw [rd_withWork, rd_configSave (by decide), lockClosed_crc]
    exact hu.toRecorded.paramCrc
  · exact hu.accepted (configSave_sound (by decide) _ _ (lockClosed_sound u)) rfl
  · exact (configCopies_some _).trans_eq (configSave_ids _ _).symm
  · have hnv : (lockClosed u).nv = s.nv := (lockClosed_nv u).trans hu.nv
    have hidle' : (lockClosed u).nv.wait = [] := (congrArg NvState.wait hnv).trans hidle
    have hjobs := configSave_jobs false (norOrdered_idle hidle')
    rw [norJobs_length, norJobs_length, hidle', hnv] at hjobs
    exact hjobs

theorem exec_safeClose_locked (h : s.Serves 0x0802 [] d) (hopen : s.on R.SB_LOCK_OPEN = false) :
    ∃ t, exec (.safeClose d) s = .next t ∧ Finished 0x0802 d 1 [] s t ∧ t.sb = s.sb :=
  serves_answered h (if_pos (congrArg not hopen)) fun _ hfin hrec => ⟨hfin, hrec.sb⟩

/-- The lock applied with the CRC that was confirmed. -/
def lockApplied (crc : Nat) (s : State) : State :=
  let s := (((s.wr R.SB_CRC_CONF crc).wr R.SB_LOCK_LOCKED 1).wr R.SB_LOCK_OPEN 0).wr R.SB_STAT_CRCERR 0
  ({ s with sb := { s.sb with closed := false } }).event Ev.COMMISSIONED 0

theorem safeConfirmed_lock (crc : Nat) (s : State) : safeConfirmed false crc s = configSave true (lockApplied crc s) := by
  simp only [safeConfirmed, lockApplied, Bool.false_eq_true, if_false]

/-- What the fields that SAFE.CONFIRM writes read. -/
theorem lockApplied_rd {crc : Nat} (hcrc : crc < 2 ^ 32) (s : State) : (lockApplied crc s).rd R.SB_LOCK_LOCKED = 1 ∧
    (lockApplied crc s).rd R.SB_LOCK_OPEN = 0 ∧ (lockApplied crc s).rd R.SB_CRC_CONF = crc ∧ (lockApplied crc s).rd R.SB_STAT_CRCERR = 0 := by
  have hkeep : ∀ {g : Fld}, g.ClearOf eventFlds → (lockApplied crc s).rd g =
      ((((s.wr R.SB_CRC_CONF crc).wr R.SB_LOCK_LOCKED 1).wr R.SB_LOCK_OPEN 0).wr R.SB_STAT_CRCERR 0).rd g :=
    fun hg => (rd_event_clear hg _ _ _ _).trans (State.rd_with_sb _ _ _)
  refine ⟨(hkeep (by decide)).trans ?_, (hkeep (by decide)).trans ?_, (hkeep (by decide)).trans ?_, (hkeep (by decide)).trans ?_⟩
  · rw [State.rd_wr_missed _ (by decide), State.rd_wr_missed _ (by decide), State.rd_wr_fits _ (by decide) (by decide)]
  · rw [State.rd_wr_missed _ (by decide), State.rd_wr_fits _ (by decide) (by decide)]
  · rw [State.rd_wr_missed _ (by decide), State.rd_wr_missed _ (by decide), State.rd_wr_missed _ (by decide),
      State.rd_wr_fits _ (by decide) hcrc]
  · rw [State.rd_wr_fits _ (by decide) (by decide)]

theorem lockApplied_evs (crc : Nat) (s : State) : (38, 0x0106) ∈ (lockApplied crc s).te.evs := by
  unfold lockApplied
  rw [State.event_te]
  exact List.mem_append_right _ (List.mem_singleton.mpr rfl)

/-- A lock that asks for a new close. -/
def lockReopened (s : State) : State := { s with sb := { s.sb with closed := false } }

theorem lockReopened_hs (s : State) : (lockReopened s).hs = s.hs := rfl
theorem lockReopened_rd (s : State) (f : Fld) : (lockReopened s).rd f = s.rd f := rfl
theorem lockReopened_credit (s : State) (n : Nat) : (lockReopened s).qCredit n = s.qCredit n := rfl

/-- The work of a lock that is confirmed. -/
def confirmWork (crc : Nat) (_ : Nat) (s : State) : WorkKind × State := (.safeConfirm (safeConfirmed false crc s).1, (safeConfirmed false crc s).2)

theorem confirmWork_rd {g : Fld} (hg : g.ClearOf eventFlds) (crc n : Nat) (s : State) : (confirmWork crc n s).2.rd g = (lockApplied crc s).rd g := by
  unfold confirmWork
  rw [safeConfirmed_lock, rd_configSave hg]

theorem confirmWork_evs (crc n : Nat) (s : State) : (38, 0x0106) ∈ (confirmWork crc n s).2.te.evs := by
  unfold confirmWork
  rw [safeConfirmed_lock, configSave_te]
  exact lockApplied_evs crc s

theorem confirmWork_sound (crc n : Nat) (s : State) : (confirmWork crc n s).2.Sound hostMask s :=
  safeConfirmed_sound (by decide) false crc s (sound_refl _ s)

/-- SAFE.CONFIRM of the lock, without SUBST. -/
def lockConfirm (d : Desc) (s : State) : Plan :=
  let conf := bytesLE 4 (s.rd R.SB_CRC_CONF)
  if !s.sb.closed then .final 0x01 conf s
  else if (List.range 4).any (fun i => 6 ≤ s.rd (R.SB_SINi_CFG_ROLE i)) then .final 0x04 conf s
  else if pnum d 8 4 ≠ s.rd R.SB_CRC_CALC then .final 0x18 conf (lockReopened s)
  else .go none (fun n u => confirmWork (s.rd R.SB_CRC_CALC) n u)

theorem exec_safeConfirm_lock (hlock : testB (pnum d 12 1) 0 = false) :
    exec (.safeConfirm d) s = live (command 0x0803 [(8, 11, 255), (12, 12, 1)] d (lockConfirm d)) s := by
  refine congrArg (fun act => live (command 0x0803 [(8, 11, 255), (12, 12, 1)] d act) s) (funext fun v => ?_)
  rw [hlock]
  cases hpend : v.sb.pendPser <;> simp only [lockConfirm, lockReopened, confirmWork, Bool.false_eq_true, false_and, if_false, true_and]

theorem exec_safeConfirm_open (h : s.Serves 0x0803 [(8, 11, 255), (12, 12, 1)] d) (hlock : testB (pnum d 12 1) 0 = false)
    (hclosed : s.sb.closed = false) : ∃ t, exec (.safeConfirm d) s = .next t ∧
      Finished 0x0803 d 0x01 (bytesLE 4 (s.rd R.SB_CRC_CONF)) s t ∧ t.sb = s.sb := by
  rw [exec_safeConfirm_lock hlock]
  exact serves_answered h (if_pos (congrArg not hclosed)) fun _ hfin hrec => ⟨hfin, hrec.sb⟩

/-- With roles that exist, a closed lock turns on the CRC alone. -/
theorem lockConfirm_closed (hclosed : s.sb.closed = true) (hroles : ∀ i, i < 4 → s.rd (R.SB_SINi_CFG_ROLE i) < 6) :
    lockConfirm d s = if pnum d 8 4 ≠ s.rd R.SB_CRC_CALC then
      .final 0x18 (bytesLE 4 (s.rd R.SB_CRC_CONF)) (lockReopened s)
    else .go none (confirmWork (s.rd R.SB_CRC_CALC)) := by
  have hfit : (List.range 4).any (fun i => 6 ≤ s.rd (R.SB_SINi_CFG_ROLE i)) = false := by
    rw [List.any_eq_false]
    exact fun i hi hrole => absurd (of_decide_eq_true hrole) (Nat.not_le.mpr (hroles i (List.mem_range.mp hi)))
  unfold lockConfirm
  rw [hclosed, hfit]
  rfl

theorem exec_safeConfirm_otherCrc (h : s.Serves 0x0803 [(8, 11, 255), (12, 12, 1)] d) (hlock : testB (pnum d 12 1) 0 = false)
    (hclosed : s.sb.closed = true) (hroles : ∀ i, i < 4 → s.rd (R.SB_SINi_CFG_ROLE i) < 6) (hcrc : pnum d 8 4 ≠ s.rd R.SB_CRC_CALC) :
    ∃ t, exec (.safeConfirm d) s = .next t ∧ Finished 0x0803 d 0x18 (bytesLE 4 (s.rd R.SB_CRC_CONF)) s t ∧ t.sb.closed = false ∧
      t.rd R.SB_LOCK_LOCKED = s.rd R.SB_LOCK_LOCKED := by
  have hact : lockConfirm d s.cleared = .final 0x18 (bytesLE 4 (s.rd R.SB_CRC_CONF)) (lockReopened s.cleared) :=
    (lockConfirm_closed (s := s.cleared) hclosed hroles).trans (if_pos hcrc)
  obtain ⟨t, hexec, hfin, hrec⟩ := serves_final h hact (lockReopened_credit s.cleared _) (lockReopened_hs s.cleared)
    (lockReopened_rd s.cleared _) (lockReopened_rd s.cleared _)
  rw [exec_safeConfirm_lock hlock]
  refine ⟨t, hexec, hfin, ?_, (hrec.rd (by decide)).trans (lockReopened_rd s.cleared _)⟩
  rw [hrec.sb]
  rfl

theorem exec_safeConfirm_applies (h : s.Serves 0x0803 [(8, 11, 255), (12, 12, 1)] d) (hfree : s.HandleFree) (hlock : testB (pnum d 12 1) 0 = false)
    (hclosed : s.sb.closed = true) (hroles : ∀ i, i < 4 → s.rd (R.SB_SINi_CFG_ROLE i) < 6) (hcrc : pnum d 8 4 = s.rd R.SB_CRC_CALC) :
    ∃ t, exec (.safeConfirm d) s = .next t ∧ ∃ j, Accepted 0x0803 d (fun _ k => k = .safeConfirm j) s t ∧ t.rd R.SB_LOCK_LOCKED = 1 ∧
      t.rd R.SB_LOCK_OPEN = 0 ∧ t.rd R.SB_CRC_CONF = s.rd R.SB_CRC_CALC ∧ t.rd R.SB_STAT_CRCERR = 0 ∧ (38, 0x0106) ∈ t.te.evs := by
  have hact : lockConfirm d s.cleared = .go none (confirmWork (s.rd R.SB_CRC_CALC)) :=
    (lockConfirm_closed (s := s.cleared) hclosed hroles).trans (if_neg (not_not_intro hcrc))
  rw [exec_safeConfirm_lock hlock]
  refine serves_accepted h hfree hact fun n u hu => ⟨(safeConfirmed false (s.rd R.SB_CRC_CALC) u).1, ?_⟩
  obtain ⟨hlocked, hopen, hconf, herr⟩ := lockApplied_rd (s.rd_lt R.SB_CRC_CALC) u
  refine ⟨hu.accepted (confirmWork_sound _ n u) rfl, ?_, ?_, ?_, ?_, ?_⟩
  · rw [rd_withWork, confirmWork_rd (by decide), hlocked]
  · rw [rd_withWork, confirmWork_rd (by decide), hopen]
  · rw [rd_withWork, confirmWork_rd (by decide), hconf]
  · rw [rd_withWork, confirmWork_rd (by decide), herr]
  · rw [withWork_te]
    exact confirmWork_evs _ n u

theorem exec_safeStatus_reports (h : s.Serves 0x0804 [] d) : ∃ t, exec (.safeStatus d) s = .next t ∧
    Finished 0x0804 d 0 (bytesLE 2 (s.rd R.SB_SFLT) ++ bytesLE 1 (s.rd R.SB_FIRST_CODE) ++
      bytesLE 1 (s.rd R.SB_LOCK_LOCKED + 2 * s.rd R.SB_LOCK_OPEN + 4 * b2n s.sb.closed + 8 * b2n s.sb.pendPser.isSome) ++
      bytesLE 4 (s.rd R.SB_FIRST_TICK) ++ bytesLE 4 (s.rd R.SB_CRC_CALC) ++ bytesLE 4 (s.rd R.SB_CRC_CONF)) s t ∧ t.sb = s.sb :=
  serves_answered h rfl fun _ hfin hrec => ⟨hfin, hrec.sb⟩

end

/-! ### A step of a firmware replacement: the journal takes it, then a job is queued (13 R437; 14 R455) -/

/-- A step of the journal, then a job. -/
def stepJob (j : Journal) (req : NorReq) (s : State) : Nat × State := norQueue req (journalSave j s)

/-- The job of a step stands behind the record of its journal. -/
theorem stepJob_jobs (j : Journal) (req : NorReq) {s : State} (hidle : s.nv.wait = []) :
    (stepJob j req s).2.norJobs = s.nv.jobs ++ [newJob (.store 1 (journalBody j) none) s, newJob req (journalSave j s)] := by
  have hsaved := journalSave_queued j (norOrdered_idle hidle)
  unfold stepJob
  rw [(norQueue_queued req hsaved.ordered).jobs, hsaved.jobs, List.append_assoc]
  unfold State.norJobs
  dsimp only
  rw [hidle, List.append_nil]
  rfl

theorem stepJob_count (j : Journal) (req : NorReq) {s : State} (hidle : s.nv.wait = []) :
    (stepJob j req s).2.nv.jobs.length + (stepJob j req s).2.nv.wait.length = s.nv.jobs.length + 2 := by
  rw [← norJobs_length, stepJob_jobs j req hidle, List.length_append]
  rfl

theorem stepJob_journal (j : Journal) (req : NorReq) {s : State} (hidle : s.nv.wait = []) : (stepJob j req s).2.nv.journal = j := by
  have hsaved := journalSave_queued j (norOrdered_idle hidle)
  exact (norQueue_queued req hsaved.ordered).journal.trans hsaved.journal

theorem stepJob_sound (j : Journal) (req : NorReq) (s : State) : (stepJob j req s).2.Sound hostMask s :=
  norQueue_sound (by decide) req _ (journalSave_sound (by decide) j s (sound_refl _ s))

theorem norPush_journal (s : State) : (norPush s).nv.journal = s.nv.journal := by
  have hone : ∀ (u : State) (j : NorJob), (norPushOne u j).nv.journal = u.nv.journal := fun u j => by
    unfold norPushOne
    split <;> rfl
  have hfold : ∀ (l : List NorJob) (u : State), (l.foldl norPushOne u).nv.journal = u.nv.journal := by
    intro l
    induction l with
    | nil => exact fun _ => rfl
    | cons j l ih => exact fun u => (ih _).trans (hone u j)
  rw [norPush_eq]
  exact hfold _ s

theorem journalSave_journal (j : Journal) (s : State) : (journalSave j s).nv.journal = j := norPush_journal _

section
variable {d : Desc} {s : State}

theorem Recorded.idle {t : State} (h : Recorded s t) (hidle : s.nv.wait = []) : t.nv.wait = [] := (congrArg NvState.wait h.nv).trans hidle

theorem Recorded.idleSlot {t : State} (h : Recorded s t) : t.idleSlot = s.idleSlot := by
  unfold State.idleSlot State.slotBase
  rw [h.nv]

/-! ### FW.STAGE -/

/-- The journal while the first chunk of an image is written, and the one after it. -/
def stageBefore (total : Nat) (j : Journal) : Journal := { j with istate := 1, total := total, staged := 0, iver := 0 }
def stageAfter (total len : Nat) (j : Journal) : Journal := { stageBefore total j with istate := if len = total then 2 else 1, staged := len }

/-- The write of a chunk of an image: the first one goes behind an erase of the idle slot, unless one is queued. -/
def stageJob (d : Desc) (off total : Nat) (j : Journal) (b : List Byte) (h : Nat) (s : State) : Nat × State :=
  stepJob ((stageBefore total j).step h 0x0901 d) (.region (if off = 0 ∧ !s.slotErasing then s.idleSectors else [])
    ((journalSave ((stageBefore total j).step h 0x0901 d) s).idleSlot + off) b false) s

/-- The work of the first chunk of an image. -/
def stageWork (d : Desc) (total len : Nat) (j : Journal) (b : List Byte) (h : Nat) (s : State) : WorkKind × State :=
  (.firmware [(stageJob d 0 total j b h s).1] (stageAfter total len j) 0 (bytesLE 4 len), (stageJob d 0 total j b h s).2)

theorem exec_fwStage_stages (h : s.Serves 0x0901 [(8, 23, 255)] d) (hfree : s.HandleFree) (hoff : pnum d 8 4 = 0) (hlen : 1 ≤ pnum d 12 4)
    (hlen' : pnum d 12 4 ≤ 0x8000) (hbulk : bulkBad (pnum d 16 4) (pnum d 12 4) = false) (hfit : pnum d 12 4 ≤ pnum d 20 4)
    (htotal : pnum d 20 4 ≤ 0x1000000) (hswap : s.swapPending = false) (hpartner : s.partnerSwaps = false) (hstep : s.stepRuns = false)
    (hfull : s.norFull = false) (hretired : s.idleSectors.any s.isRetired = false) (hidle : s.nv.wait = []) (hparity : d.bulkParity = none)
    (hspoil : s.spoilHit d (pnum d 16 4) (pnum d 16 4 + pnum d 12 4) = false) : ∃ t, exec (.fwStage d) s = .next t ∧ ∃ j a,
      Accepted 0x0901 d (fun h k => k = .firmware j a 0 (bytesLE 4 (pnum d 12 4)) ∧ t.nv.journal.handle = h) s t ∧
      t.nv.journal.istate = 1 ∧ t.nv.journal.total = pnum d 20 4 ∧ a.staged = pnum d 12 4 ∧
      a.istate = (if pnum d 12 4 = pnum d 20 4 then 2 else 1) ∧ t.nv.jobs.length + t.nv.wait.length = s.nv.jobs.length + 2 := by
  have hbytes : bulkBytes d (pnum d 16 4) (pnum d 12 4) s.cleared =
      (s.cleared.memBytes (winAddr (0x8000 + pnum d 16 4)) (pnum d 12 4), s.cleared) := if_neg (Bool.eq_false_iff.mp hspoil)
  refine serves_begun h hfree (area := some (pnum d 16 4, pnum d 16 4 + pnum d 12 4)) (o := some s.cleared) rfl
    (f := stageWork d (pnum d 20 4) (pnum d 12 4) s.nv.journal (s.cleared.memBytes (winAddr (0x8000 + pnum d 16 4)) (pnum d 12 4))) ?_
    fun n u hu => ⟨[(stageJob d 0 (pnum d 20 4) s.nv.journal (s.cleared.memBytes (winAddr (0x8000 + pnum d 16 4)) (pnum d 12 4)) n u).1],
      stageAfter (pnum d 20 4) (pnum d 12 4) s.nv.journal, ?_, ?_, ?_, rfl, rfl, ?_⟩
  · dsimp only
    rw [if_pos hoff, hoff, if_neg (by rw [hbulk]; simp only [Bool.false_eq_true, false_or]; omega),
      show s.cleared.swapPending = false from hswap, show s.cleared.partnerSwaps = false from hpartner,
      show s.cleared.stepRuns = false from hstep, if_neg (by decide), if_neg (fun hn => hn.1 rfl),
      show s.cleared.norFull = false from hfull, show s.cleared.idleSectors.any s.cleared.isRetired = false from hretired, if_neg (by decide),
      withBulk, hparity]
    dsimp only
    rw [hbytes, Nat.zero_add]
    rfl
  · refine hu.accepted (stepJob_sound _ _ u) ⟨rfl, ?_⟩
    exact congrArg Journal.handle (stepJob_journal _ _ (hu.toRecorded.idle hidle))
  · exact congrArg Journal.istate (stepJob_journal _ _ (hu.toRecorded.idle hidle))
  · exact congrArg Journal.total (stepJob_journal _ _ (hu.toRecorded.idle hidle))
  · exact (stepJob_count _ _ (hu.toRecorded.idle hidle)).trans (congrArg (fun v => v.jobs.length + 2) hu.toRecorded.nv)

theorem exec_fwStage_busy (h : s.Serves 0x0901 [(8, 23, 255)] d) (hoff : pnum d 8 4 = 0) (hlen : 1 ≤ pnum d 12 4)
    (hlen' : pnum d 12 4 ≤ 0x8000) (hbulk : bulkBad (pnum d 16 4) (pnum d 12 4) = false) (hfit : pnum d 12 4 ≤ pnum d 20 4)
    (htotal : pnum d 20 4 ≤ 0x1000000) (hstep : s.stepRuns = true) :
    ∃ t, exec (.fwStage d) s = .next t ∧ Finished 0x0901 d 0x06 [] s t ∧ t.nv = s.nv := by
  refine serves_answered h ?_ fun _ hfin hrec => ⟨hfin, hrec.nv⟩
  dsimp only
  rw [if_pos hoff, hoff, if_neg (by rw [hbulk]; simp only [Bool.false_eq_true, false_or]; omega), if_pos (.inr (.inr hstep))]
  rfl

/-! ### FW.VERIFY, FW.SWAP, FW.DISCARD -/

theorem exec_fwVerify_reads (h : s.Serves 0x0902 [] d) (hfree : s.HandleFree) (hstate : s.nv.journal.istate = 2 ∨ s.nv.journal.istate = 3)
    (hstaged : s.nv.journal.staged = s.nv.journal.total) (hstep : s.stepRuns = false) (hidle : s.nv.wait = []) :
    ∃ t, exec (.fwVerify d) s = .next t ∧ ∃ j, Accepted 0x0902 d (fun h k => k = .fwVerify j.id ∧ t.nv.journal.handle = h) s t ∧
      (t.nv.jobs ++ t.nv.wait).getLast? = some j ∧ j.req = .read [(s.idleSlot, s.nv.journal.total)] := by
  refine serves_accepted h hfree (area := none) (f := fun n u => (.fwVerify (stepJob (s.nv.journal.step n 0x0902 d)
      (.read [(u.idleSlot, s.nv.journal.total)]) u).1, (stepJob (s.nv.journal.step n 0x0902 d) (.read [(u.idleSlot, s.nv.journal.total)]) u).2)) ?_
    fun n u hu => ⟨newJob (.read [(s.idleSlot, s.nv.journal.total)]) (journalSave (s.nv.journal.step n 0x0902 d) u), ?_, ?_, rfl⟩
  · dsimp only
    rw [if_neg ?_]
    · rfl
    · rintro (hbad | hruns)
      · rw [Bool.not_eq_true', decide_eq_false_iff_not] at hbad
        exact hbad ⟨hstate, hstaged⟩
      · exact Bool.false_ne_true (hstep.symm.trans hruns)
  · refine hu.accepted (stepJob_sound _ _ u) ⟨rfl, ?_⟩
    rw [withWork_nv, stepJob_journal _ _ (hu.toRecorded.idle hidle)]
    rfl
  · rw [withWork_nv]
    refine (congrArg List.getLast? (stepJob_jobs _ _ (hu.toRecorded.idle hidle))).trans ?_
    rw [hu.toRecorded.idleSlot, List.getLast?_append]
    rfl

theorem exec_fwVerify_refused (h : s.Serves 0x0902 [] d) (hno : s.nv.journal.istate ≠ 2) (hno' : s.nv.journal.istate ≠ 3) :
    ∃ t, exec (.fwVerify d) s = .next t ∧ Finished 0x0902 d 1 [] s t ∧ t.nv = s.nv := by
  refine serves_answered h (if_pos (.inl ?_)) fun _ hfin hrec => ⟨hfin, hrec.nv⟩
  have hbad : ¬ ((s.nv.journal.istate = 2 ∨ s.nv.journal.istate = 3) ∧ s.nv.journal.staged = s.nv.journal.total) := fun hc => hc.1.elim hno hno'
  rw [Bool.not_eq_true', decide_eq_false_iff_not]
  exact hbad

theorem Recorded.tick64 {t : State} (h : Recorded s t) : t.tick64 = s.tick64 := by
  unfold State.tick64 State.tickno State.period
  rw [h.rd (by decide), h.rd (by decide), h.time]

/-- The journal of a swap that is asked for. -/
def swapJournal (tick h : Nat) (d : Desc) (j : Journal) : Journal := { j with istate := 4, swaptick := tick }.step h 0x0903 d

theorem exec_fwSwap_swaps (h : s.Serves 0x0903 [(8, 8, 1), (12, 15, 255)] d) (hfree : s.HandleFree) (hrel : testB (pnum d 8 1) 0 = false)
    (hswap : s.swapPending = false) (hpartner : s.partnerSwaps = false) (hstep : s.stepRuns = false) (hsaves : s.parSaves = false)
    (hstate : s.nv.journal.istate = 3) : ∃ t, exec (.fwSwap d) s = .next t ∧
      Accepted 0x0903 d (fun _ k => k = .fwSwap s.tick64) s t ∧
      t.nv.journal.istate = 4 ∧ t.nv.journal.swaptick = s.tick64 ∧ t.swapPending = true := by
  refine serves_accepted h hfree (area := none) (f := fun n u => (.fwSwap u.tick64, journalSave (swapJournal u.tick64 n d s.nv.journal) u)) ?_
    fun n u hu => ?_
  · dsimp only
    rw [hrel, show s.cleared.tickRefused false (pnum d 12 4) = none from rfl]
    dsimp only
    rw [show s.cleared.swapPending = false from hswap, show s.cleared.partnerSwaps = false from hpartner,
      show s.cleared.stepRuns = false from hstep, show s.cleared.parSaves = false from hsaves, if_neg (by decide),
      if_neg (show ¬ s.cleared.nv.journal.istate ≠ 3 from not_not_intro hstate)]
    rfl
  · have hjournal : (withWork 0x0903 d none n (.fwSwap u.tick64, journalSave (swapJournal u.tick64 n d s.nv.journal) u)).nv.journal =
        swapJournal u.tick64 n d s.nv.journal := journalSave_journal _ u
    refine ⟨hu.accepted (journalSave_sound (by decide) _ u (sound_refl _ u)) (congrArg _ hu.toRecorded.tick64), ?_, ?_, ?_⟩
    · rw [hjournal]
      rfl
    · rw [hjournal, hu.toRecorded.tick64]
      rfl
    · unfold State.swapPending
      rw [hjournal]
      rfl

theorem exec_fwSwap_refused (h : s.Serves 0x0903 [(8, 8, 1), (12, 15, 255)] d) (hrel : testB (pnum d 8 1) 0 = false)
    (hswap : s.swapPending = false) (hpartner : s.partnerSwaps = false) (hstep : s.stepRuns = false) (hsaves : s.parSaves = false)
    (hno : s.nv.journal.istate ≠ 3) : ∃ t, exec (.fwSwap d) s = .next t ∧ Finished 0x0903 d 1 [] s t ∧ t.nv = s.nv := by
  refine serves_answered h ?_ fun _ hfin hrec => ⟨hfin, hrec.nv⟩
  dsimp only
  rw [hrel, show s.cleared.tickRefused false (pnum d 12 4) = none from rfl]
  dsimp only
  rw [show s.cleared.swapPending = false from hswap, show s.cleared.partnerSwaps = false from hpartner,
    show s.cleared.stepRuns = false from hstep, show s.cleared.parSaves = false from hsaves, if_neg (by decide),
    if_pos (show s.cleared.nv.journal.istate ≠ 3 from hno)]
  rfl

/-- The journal after the image of the idle slot is discarded. -/
def discardAfter (j : Journal) : Journal := { j with istate := 0, total := 0, staged := 0, iver := 0, digest := [] }

/-- The erase of the idle slot by FW.DISCARD, unless one is queued. -/
def discardJob (d : Desc) (j : Journal) (h : Nat) (s : State) : Nat × State :=
  stepJob (j.step h 0x0904 d) (.region (if s.slotErasing then [] else s.idleSectors) (journalSave (j.step h 0x0904 d) s).idleSlot [] false) s

theorem exec_fwDiscard_discards (h : s.Serves 0x0904 [] d) (hfree : s.HandleFree) (hswap : s.swapPending = false)
    (hstep : s.stepRuns = false) (hidle : s.nv.wait = []) : ∃ t, exec (.fwDiscard d) s = .next t ∧ ∃ j a,
      Accepted 0x0904 d (fun h k => k = .firmware j a 0 [] ∧ t.nv.journal.handle = h) s t ∧ a.istate = 0 ∧ a.staged = 0 ∧
      t.nv.jobs.length + t.nv.wait.length = s.nv.jobs.length + 2 := by
  refine serves_accepted h hfree (area := none) (f := fun n u => (.firmware [(discardJob d s.nv.journal n u).1] (discardAfter s.nv.journal) 0 [],
    (discardJob d s.nv.journal n u).2)) ?_ fun n u hu => ⟨[(discardJob d s.nv.journal n u).1], discardAfter s.nv.journal, ?_, rfl, rfl, ?_⟩
  · dsimp only
    rw [show s.cleared.swapPending = false from hswap, show s.cleared.stepRuns = false from hstep]
    rfl
  · refine hu.accepted (stepJob_sound _ _ u) ⟨rfl, ?_⟩
    exact congrArg Journal.handle (stepJob_journal _ _ (hu.toRecorded.idle hidle))
  · exact (stepJob_count _ _ (hu.toRecorded.idle hidle)).trans (congrArg (fun v => v.jobs.length + 2) hu.toRecorded.nv)

theorem exec_fwDiscard_busy (h : s.Serves 0x0904 [] d) (hstep : s.stepRuns = true) :
    ∃ t, exec (.fwDiscard d) s = .next t ∧ Finished 0x0904 d 0x06 [] s t ∧ t.nv = s.nv :=
  serves_answered h (if_pos (.inr hstep)) fun _ hfin hrec => ⟨hfin, hrec.nv⟩

/-! ### NV.READ -/

theorem exec_nvRead_reads (h : s.Serves 0x0905 [(8, 8, 255), (12, 23, 255)] d) (hfree : s.HandleFree) (hlen : 1 ≤ pnum d 16 4)
    (hlen' : pnum d 16 4 ≤ 0x8000) (hregion : pnum d 12 4 + pnum d 16 4 ≤ (nvRegion (pnum d 8 1)).2)
    (hbulk : bulkBad (pnum d 20 4) (pnum d 16 4) = false) (hidle : s.nv.wait = []) : ∃ t, exec (.nvRead d) s = .next t ∧ ∃ j,
      Accepted 0x0905 d (fun _ k => k = .norRead j.id (pnum d 20 4) [] (bytesLE 4 (pnum d 16 4))) s t ∧
      t.nv.jobs ++ t.nv.wait = s.nv.jobs ++ [j] ∧ j.req = .read [((nvRegion (pnum d 8 1)).1 + pnum d 12 4, pnum d 16 4)] := by
  refine serves_accepted h hfree (area := some (pnum d 20 4, pnum d 20 4 + pnum d 16 4)) (f := fun _ u =>
    readWork [((nvRegion (pnum d 8 1)).1 + pnum d 12 4, pnum d 16 4)] (pnum d 20 4) [] (bytesLE 4 (pnum d 16 4)) u) ?_
    fun n u hu => ⟨newJob (.read [((nvRegion (pnum d 8 1)).1 + pnum d 12 4, pnum d 16 4)]) u, ?_, ?_, rfl⟩
  · exact if_neg (by rw [hbulk]; simp only [Bool.false_eq_true, or_false]; omega)
  · exact hu.accepted (norQueue_sound (by decide) _ u (sound_refl _ u)) rfl
  · have hidle' : u.nv.wait = [] := hu.toRecorded.idle hidle
    refine (norQueue_queued _ (norOrdered_idle hidle')).jobs.trans ?_
    unfold State.norJobs
    rw [hidle', hu.nv, List.append_nil]

end

/-! ### The commands -/

/-- Settles O56: a clause for each command, by whether the firmware takes it, refuses it or reports. -/
theorem linkPairSafetyAndFirmwareCommands : Obligations.LinkPairSafetyAndFirmwareCommands := by
  intro d s hfree
  refine ⟨?lkEnum, ?csForm, ?csAdd, ?csRemove, ?csDissolve, ?prRelease, ?prEngage, ?prPser, ?safeOpen, ?safeClose, ?safeConfirm,
    exec_safeStatus_reports, ?fwStage, ?fwVerify, ?fwSwap, ?fwDiscard, ?nvRead⟩
  case lkEnum => exact fun h => ⟨exec_lkEnum_root h hfree, exec_lkEnum_other h⟩
  case csForm => exact fun h hnumber hdeputy => ⟨exec_csForm_forms h hfree hnumber hdeputy, exec_csForm_unlocked h hnumber hdeputy⟩
  case csAdd =>
    intro load h huid huid' hslot hslot' hload
    refine ⟨fun hhead hpending hroom hnew hother hunused hbudget => ?_, exec_csAdd_other h huid huid' hslot hslot'⟩
    obtain ⟨t, hexec, hacc, hadd⟩ := exec_csAdd_adds h hfree huid huid' hslot hslot' hload hhead hpending hroom hnew hother hunused hbudget
    exact ⟨t, addAsked (pnum d 10 2) (pnum d 14 1) (pnum d 12 2) (s.rd R.BL_SN), hexec, hacc, hadd, rfl, rfl, rfl, rfl⟩
  case csRemove => exact fun h => ⟨fun _ => exec_csRemove_removes h hfree, exec_csRemove_refused h⟩
  case csDissolve => exact fun h => ⟨exec_csDissolve_head h hfree, exec_csDissolve_other h⟩
  case prRelease => exact fun h => ⟨exec_prRelease_starts h hfree, fun _ => exec_prRelease_refused h⟩
  case prEngage => exact fun h => ⟨exec_prEngage_starts h hfree, exec_prEngage_refused h⟩
  case prPser => exact fun h => ⟨exec_prPser_held h hfree, exec_prPser_locked h⟩
  case safeOpen => exact fun h => ⟨exec_safeOpen_opens h, exec_safeOpen_refused h⟩
  case safeClose => exact fun h => ⟨exec_safeClose_closes h hfree, exec_safeClose_locked h⟩
  case safeConfirm =>
    refine fun h hlock => ⟨fun hclosed hroles hcrc => ?_, exec_safeConfirm_otherCrc h hlock, exec_safeConfirm_open h hlock⟩
    obtain ⟨t, hexec, j, hdone⟩ := exec_safeConfirm_applies h hfree hlock hclosed hroles hcrc
    exact ⟨t, j, hexec, hdone⟩
  case fwStage =>
    intro h hoff hlen hlen' hbulk hfit htotal
    refine ⟨fun hswap hpartner hstep hfull hretired hidle hparity hspoil => ?_, exec_fwStage_busy h hoff hlen hlen' hbulk hfit htotal⟩
    obtain ⟨t, hexec, j, a, hdone⟩ :=
      exec_fwStage_stages h hfree hoff hlen hlen' hbulk hfit htotal hswap hpartner hstep hfull hretired hidle hparity hspoil
    exact ⟨t, j, a, hexec, hdone⟩
  case fwVerify =>
    refine fun h => ⟨fun hstate hstaged hstep hidle => ?_, exec_fwVerify_refused h⟩
    obtain ⟨t, hexec, j, hdone⟩ := exec_fwVerify_reads h hfree hstate hstaged hstep hidle
    exact ⟨t, j, hexec, hdone⟩
  case fwSwap =>
    exact fun h hrel hswap hpartner hstep hsaves =>
      ⟨exec_fwSwap_swaps h hfree hrel hswap hpartner hstep hsaves, exec_fwSwap_refused h hrel hswap hpartner hstep hsaves⟩
  case fwDiscard =>
    refine fun h hswap => ⟨fun hstep hidle => ?_, exec_fwDiscard_busy h⟩
    obtain ⟨t, hexec, j, a, hdone⟩ := exec_fwDiscard_discards h hfree hswap hstep hidle
    exact ⟨t, j, a, hexec, hdone⟩
  case nvRead =>
    intro h hlen hlen' hregion hbulk hidle
    obtain ⟨t, hexec, j, hdone⟩ := exec_nvRead_reads h hfree hlen hlen' hregion hbulk hidle
    exact ⟨t, j, hexec, hdone⟩

end Sys2Proof.Machine
end
